-- ==== Sys2Proof/Word.lean ====
section
/-! DEFINITION. The byte, the byte string and the resource numbers of Table 00.5 (R11). -/

namespace Sys2Proof

/-- One byte (R8). -/
abbrev Byte := BitVec 8

/-- Bytes in order of address, or in order of transmission (R7, R8). -/
abbrev Bytes := List Byte

/-- Port 0 to 127; slice s holds ports 8s to 8s + 7 (R11). -/
abbrev Port := Fin 128
/-- SerDes lane 0 to 255; slice s holds lanes 16s to 16s + 15 (R11). -/
abbrev Lane := Fin 256
/-- Slice 0 to 15 (R11). -/
abbrev Slice := Fin 16
/-- Lookup quad 0 to 3; quad q serves slices 4q to 4q + 3 (R11). -/
abbrev Quad := Fin 4
/-- Ring 0 to 4,095 (R367). -/
abbrev Ring := Fin 4096
/-- Circuit 0 to 65,535 (R11). -/
abbrev Circuit := Fin 65536
/-- Generation 0 to 65,535, wrapping (R11, R12). -/
abbrev Gen := BitVec 16

/-- What a read of host memory on PCI Express returned: its bytes, or none when the read failed (R377). -/
abbrev Dma := Option Bytes

/-- The three physical functions and their fixed roles (R42, Table 01.7). -/
inductive Fn where
  /-- PF0, the Administrator. -/
  | pf0
  /-- PF1, the Crypto Officer. -/
  | pf1
  /-- PF2, the Observer. -/
  | pf2
  deriving DecidableEq, Repr

/-- A requester on PCI Express: a physical function, or VF n + 1 of PF0 (R534). -/
inductive Requester where
  | pf (f : Fn)
  | vf (n : Fin 32)
  deriving DecidableEq, Repr

/-- The number of a function, 0 to 2. -/
def Fn.num : Fn → Nat
  | .pf0 => 0
  | .pf1 => 1
  | .pf2 => 2

end Sys2Proof
end

