-- ==== Sys2Proof/Syntax.lean ====
section
/-! DEFINITION. The commands of the block: one constructor of Instr per row of spec/opcode_table.json, with the row's
operands. What a command brings in from outside (bytes read from host memory, what a sensor reads, whether an
attempt failed) is an operand; what the device already holds is not. -/

namespace Sys2Proof

/-- What a descriptor fetch met on PCI Express (R383, Table 12.10 codes 4, 5 and 6). -/
inductive FetchResult where
  /-- The bytes of the descriptor. -/
  | data (d : Bytes)
  /-- The descriptor could not be read (`DESC_READ`). -/
  | descReadFail
  /-- The context entry had to be read again and could not be (`CONTEXT_READ`). -/
  | contextReadFail
  /-- A completion, write-back, record or punt write failed (`WRITE_FAIL`). -/
  | writeFail
  deriving DecidableEq, Repr

/-- How the reception of a frame ends besides its FCS: whole, or with a PCS error in it (R17, R87). -/
inductive RxEnd where
  | whole
  | error
  deriving DecidableEq, Repr

/-- The sensors as they read at one moment (Table 16.5): thermal in 0.25 °C, voltage in mV, clock in kHz. -/
structure Readings where
  thermal : List Int
  volt : List Nat
  clock : List Nat
  deriving DecidableEq, Repr

/-- What the fuse controller's read-back shows after programming (R486). -/
inductive FuseReadBack where
  /-- The requested value. -/
  | asRequested
  /-- The first `bits` of the requested steps or bits only. -/
  | partialBits (bits : Nat)
  deriving DecidableEq, Repr

/-- A memory window of a function: BAR0 with the registers, or BAR2 with doorbells and MSI-X (R365). -/
inductive Bar where
  | bar0 (fn : Fn)
  | bar2 (req : Requester)
  deriving DecidableEq, Repr

/-- The two sides of a slice's on-die buffer (Table 10.1). -/
inductive Side where
  | ingress
  | egress
  deriving DecidableEq, Repr

/-- What is wrong with a cell as it arrives (R305, R307). -/
structure CellError where
  /-- Beats that fail their CRC-8. -/
  beats : List (Fin 32) := []
  /-- The header fails HCRC. -/
  header : Bool := false
  deriving DecidableEq, Repr

/-- A bucket that gains one token on its grid (R134, R157, R189, R529). -/
inductive Bucket where
  | punt (slice : Slice) (reason : Fin 32)
  | copy (quad : Quad) (meter : Fin 16)
  | learn
  | sample (slice : Slice)
  deriving DecidableEq, Repr

/-- How the HBM read of a transmit cache fill ended (R221, Table 13.4, R235). -/
inductive FillResult where
  | ok
  /-- An uncorrectable error in the SA context. -/
  | saError
  /-- An uncorrectable error in the circuit version. -/
  | versionError
  deriving DecidableEq, Repr

/-- The result of one lockstep compare (R229, R231, R234). -/
inductive LockstepOutcome where
  /-- Boundaries, nonce, every block and the ICV are equal. -/
  | equal
  | miscompare
  /-- The duplicated comparators disagree. -/
  | comparatorsDisagree
  /-- A lane meets an uncorrectable error in its copy of the cache entry: copy A or copy B (R235). -/
  | copyError (copyB : Bool)
  /-- The two copies of NEXT_PN disagree (R235). -/
  | numbersDisagree
  deriving DecidableEq, Repr

/-- A location that Proofing visits (R200, R202). -/
inductive TableLoc where
  /-- Exact-match slot index. -/
  | emSlot (idx : Fin 1048576)
  /-- Cell `cell` of logical tile `tile`. -/
  | ruleCell (tile : Fin 64) (cell : Fin 1024)
  | profileCell (cell : Fin 128)
  /-- A route node, named by the device (R198). -/
  | routeNode (node : Nat)
  deriving DecidableEq, Repr

/-- What Proofing finds at a location (R160, R202), or that a lap ends (R205). -/
inductive ProofFinding where
  | same
  /-- These quads differ from the shadow. -/
  | quadsDiffer (quads : List Quad)
  /-- The four quads agree and the shadow differs. -/
  | shadowDiffers
  | shadowReadFailed
  /-- The reads of a rule cell in these quads fail parity (R160). -/
  | parity (quads : List Quad)
  /-- A lap has covered every location (R205). -/
  | lapEnd
  deriving DecidableEq, Repr

/-- What an HBM unit holds (Table 13.4, R412). -/
inductive HbmTarget where
  /-- Deep-buffer data or parity: the address tells what it is. -/
  | deep
  /-- The SA context with this SA index. -/
  | saContext (sa : Fin 262144)
  /-- The version of this circuit born in this generation. -/
  | circuitVersion (circuit : Circuit) (born : Gen)
  /-- One copy (`both = false`) or both copies of a receive-index bucket. -/
  | receiveIndex (bucket : Nat) (both : Bool)
  /-- Counter pairs 4u to 4u + 3. -/
  | counterUnit (u : Fin 262144)
  deriving DecidableEq, Repr

/-- What an on-die scrubber finds in a word (R412). -/
inductive ScrubFinding where
  | clean
  | corrected (syndrome : BitVec 8)
  | uncorrectable
  deriving DecidableEq, Repr

/-- How a hard location is dealt with (R413, R414). -/
inductive SpareKind where
  | row
  | column
  /-- Post-package repair in the stack. -/
  | ppr
  /-- No spare is left: the location is withdrawn (Table 13.5). -/
  | noneLeft
  deriving DecidableEq, Repr

/-- Who reads EIC_CLAIM or writes EIC_COMPLETE: a function through BAR0, or a management core through its local window
(R458). -/
inductive EicAgent where
  | host (fn : Fn)
  | core (k : Fin 2)
  deriving DecidableEq, Repr

/-- A block of Table 17.10. -/
inductive ResetBlock where
  | port (p : Port)
  | slice (s : Slice)
  deriving DecidableEq, Repr

/-- State of an image slot (Table 16.20, STATE_A). -/
inductive SlotState where
  | empty
  | valid
  | active
  | format
  | sigFail
  | rollback
  | failed
  | staging
  deriving DecidableEq, Repr


/-- The commands and events of spec/opcode_table.json, one constructor per row (95_what_each_step_holds.md). -/
inductive Instr where
  /-- REGISTER_WRITE (R6). A BAR0 write to a register that has no row of its own applies the fields that are not reserved and refuses any reserved encoding or combination. -/
  | registerWrite (fn : Fn) (addr : BitVec 26) (size : Nat) (value : BitVec 64)
  /-- HOLE_ACCESS (R536). An access to a hole, to an unexposed offset or of an unsupported size reads 0, and a write there is ignored and logged. -/
  | holeAccess (bar : Bar) (addr : BitVec 26) (size : Nat) (write : Option (BitVec 64))
  /-- COUNTER_HALF_READ (R114). A 4-byte read of a counter half latches the upper half or returns it, and an 8-byte read samples the whole counter. -/
  | counterHalfRead (fn : Fn) (addr : BitVec 26) (size : Nat)
  /-- PRT_CFG_WRITE (R103). A write of PRT_CFG changes the lane settings while the port is disabled, enables the port or disables it with a flush. -/
  | prtCfgWrite (fn : Fn) (port : Port) (value : BitVec 32)
  /-- PRT_DOMAIN_WRITE (R89). A write of PRT_DOMAIN changes the port's domain when R41 allows it. -/
  | prtDomainWrite (fn : Fn) (port : Port) (value : BitVec 32)
  /-- PRT_BYP_STAGE_WRITE (R92). A PF0 write of PRT_BYP_STAGE stages or clears bypass classes, subject to the seal. -/
  | prtBypStageWrite (fn : Fn) (value : BitVec 32)
  /-- PRT_BYP_APPROVE_WRITE (R92). A PF1 write of PRT_BYP_APPROVE approves or revokes bypass classes, subject to the seal. -/
  | prtBypApproveWrite (fn : Fn) (value : BitVec 32)
  /-- BYPASS_GATE_UPDATE (R95). Every transmit gate applies the new effective bypass set, and PRT_BYP_EFFECTIVE then shows it. -/
  | bypassGateUpdate
  /-- CFG_SEAL_SET (R91). A PF0 write of 1 to GLB_SEAL.CFG_SEAL seals domains and bypass permissions. -/
  | cfgSealSet (fn : Fn)
  /-- PARSE_PROGRAM_WRITE (R135). A write to a slice's parse program memory in CONFIG or FACTORY_TEST clears PAR_PROG_CTRL.VALID. -/
  | parseProgramWrite (fn : Fn) (slice : Slice) (off : BitVec 16) (size : Nat) (value : BitVec 64)
  /-- PARSE_CRC_CHECK (R136). A write of 1 to PAR_PROG_CTRL.CHECK starts the CRC-32 of the slice's parse program. -/
  | parseCrcCheck (fn : Fn) (slice : Slice)
  /-- PARSE_CRC_DONE (R136). The CRC completes, is written to PAR_PROG_CRC, and CHECK clears. -/
  | parseCrcDone (slice : Slice)
  /-- RSA_GROUP_CFG_WRITE (R142). A write of RSA_GROUP_CFG in CONFIG changes the width of each group whose cells are all free. -/
  | rsaGroupCfgWrite (fn : Fn) (quad : Quad) (value : BitVec 32)
  /-- PROOF_REBUILD (R204). A write of 1 to EMT_PROOF_CTRL.REBUILD rewrites the shadow from the majority of the quads. -/
  | proofRebuild (fn : Fn)
  /-- PROOF_REBUILD_DONE (R204). The rebuild ends, and REBUILD and SHADOW_ERR clear. -/
  | proofRebuildDone
  /-- MOD_BUDGET_WRITE (R469). A write of MGT_MOD_BUDGET sets cage power budgets, and Ewethes rereads module power classes and may drive LPMODE high. -/
  | modBudgetWrite (fn : Fn) (n : Fin 16) (value : BitVec 32) (classes : List Nat)
  /-- PMC_SNAPSHOT (R523). A write of 1 to PMC_SNAP.GO latches all counter shadows in one AON cycle. -/
  | pmcSnapshot (fn : Fn)
  /-- PMC_COUNTER_WRITE (R522). An 8-byte write to a general counter replaces its value. -/
  | pmcCounterWrite (fn : Fn) (n : Fin 4096) (size : Nat) (value : BitVec 64)
  /-- BW_CLR_PEAK (R524). A write of 1 to PMC_BW_CTRL.CLR_PEAK zeroes every PEAK at the next window boundary. -/
  | bwClrPeak (fn : Fn)
  /-- BW_WINDOW_END (R524). A bandwidth window ends, LAST takes its count and PEAK is updated. -/
  | bwWindowEnd
  /-- SAMPLING_ENABLE (R529). A write of 1 to PMC_SAMP_CTRL.EN loads each slice's sampling LFSR from SEED. -/
  | samplingEnable (fn : Fn) (value : BitVec 64)
  /-- SCRUB_STATUS_READ (R412). A read of HBM_SCRUB_STATUS returns the lap status and clears MIX_LATE. -/
  | scrubStatusRead (fn : Fn)
  /-- DOORBELL_INDEX (R375). An INDEX doorbell updates a ring's host index, or halts the ring with DOORBELL_RANGE. -/
  | doorbellIndex (req : Requester) (off : Nat) (size : Nat) (value : BitVec 64)
  /-- DOORBELL_INVALIDATE (R371). An INVALIDATE doorbell reads the ring context and enables, disables, updates or halts the ring. -/
  | doorbellInvalidate (req : Requester) (off : Nat) (size : Nat) (value : BitVec 64) (ctx : Dma)
  /-- DEFERRED_RING_ENABLE (R373). An enabling INVALIDATE that arrived while the ring was stopping is applied once ACTIVE becomes 0. -/
  | deferredRingEnable (ring : Ring)
  /-- DOORBELL_RESUME (R387). A RESUME doorbell clears HALTED and ERR on a halted ring, and fetching restarts. -/
  | doorbellResume (req : Requester) (off : Nat) (size : Nat) (value : BitVec 64)
  /-- DESCRIPTOR_FETCH (R383). The device fetches the next descriptor of a ring and hands it to its unit once the previous one has completed. -/
  | descriptorFetch (ring : Ring) (res : FetchResult)
  /-- RING_STOPPED (R388). Once every entry of a ring being disabled has been dealt with, the write-back word and RING_STOPPED are written and ACTIVE becomes 0. -/
  | ringStopped (ring : Ring)
  /-- FUNCTION_LEVEL_RESET (R366). A Function Level Reset disables the function's rings, clears its bases, routes and interrupt contexts and stops its mailbox DMA. -/
  | functionLevelReset (target : Requester)
  /-- NOP (R377). A NOP command completes with OK. -/
  | nop (ring : Ring)
  /-- GEN_COMMIT (R63). A GEN_COMMIT command starts a commit and waits for earlier changes, any armed commit and window space. -/
  | genCommit (ring : Ring)
  /-- GEN_COMMIT_ARM (R63). The commit arms: STAGING becomes CURRENT, ports switch under an immediate trigger and GEN_ARMED is written. -/
  | genCommitArm
  /-- GEN_COMMIT_TIMEOUT (R51). GEN_COMMIT_TIMEOUT expires with the window still full, and the commit completes with GEN_FULL. -/
  | genCommitTimeout
  /-- MARKER_TIMEOUT (R70). The marker timeout expires, and the ports that have not switched switch at once. -/
  | markerTimeout
  /-- TIME_TRIGGER_DEADLINE (R72). PTP time reaches T + 1 µs, and every port that has not switched switches. -/
  | timeTriggerDeadline
  /-- GEN_COMMIT_COMPLETE (R63). Every ingress port has switched, and the commit completes with OK or GEN_MARKER_LATE. -/
  | genCommitComplete
  /-- GEN_ABORT (R56). A GEN_ABORT command undoes every change and SA binding of STAGING. -/
  | genAbort (ring : Ring) (records : Nat)
  /-- GEN_SETTLE (R55). A generation becomes the oldest, and the sequencer settles its change log. -/
  | genSettle (records : Nat)
  /-- GEN_RETIRE (R60). A DRAINING generation retires once it is unlatched, unreferenced, oldest and settled. -/
  | genRetire
  /-- RULE_INSERT (R143). A RULE_INSERT command writes a new rule into STAGING in every quad. -/
  | ruleInsert (ring : Ring) (rec : Dma)
  /-- RULE_MODIFY (R144). A RULE_MODIFY command replaces a rule in STAGING, in place or as a new version. -/
  | ruleModify (ring : Ring) (rec : Dma)
  /-- RULE_DELETE (R54). A RULE_DELETE command deletes a rule in STAGING. -/
  | ruleDelete (ring : Ring)
  /-- RULE_READ (R143). A RULE_READ command returns the rule visible at LENTRY in a named live generation. -/
  | ruleRead (ring : Ring) (written : Bool)
  /-- PROFILE_WRITE (R147). A PROFILE_WRITE command writes a search profile version in STAGING. -/
  | profileWrite (ring : Ring) (rec : Dma)
  /-- PROFILE_DELETE (R148). A PROFILE_DELETE command makes a profile absent from STAGING. -/
  | profileDelete (ring : Ring)
  /-- EM_INSERT (R178). An EM_INSERT command places an exact-match entry in STAGING, relocating or evicting entries as needed. -/
  | emInsert (ring : Ring) (rec : Dma)
  /-- EM_MODIFY (R54). An EM_MODIFY command replaces an entry's ADATA in STAGING. -/
  | emModify (ring : Ring) (rec : Dma)
  /-- EM_DELETE (R54). An EM_DELETE command deletes an entry in STAGING. -/
  | emDelete (ring : Ring) (rec : Dma)
  /-- EM_SEARCH (R184). An EM_SEARCH command returns the entry that matches a key in a named generation. -/
  | emSearch (ring : Ring) (rec : Dma) (written : Bool)
  /-- EM_NEXT (R185). An EM_NEXT command returns up to COUNT visible entries from a cursor. -/
  | emNext (ring : Ring) (written : Bool)
  /-- EM_FLUSH (R186). An EM_FLUSH command deletes or removes the entries that match a port or circuit, bucket by bucket. -/
  | emFlush (ring : Ring)
  /-- LPM_ADD (R199). An LPM_ADD command adds a route in STAGING. -/
  | lpmAdd (ring : Ring) (rec : Dma)
  /-- LPM_MODIFY (R199). An LPM_MODIFY command replaces a route's ADATA in STAGING. -/
  | lpmModify (ring : Ring) (rec : Dma)
  /-- LPM_DELETE (R199). An LPM_DELETE command deletes a route in STAGING. -/
  | lpmDelete (ring : Ring) (rec : Dma)
  /-- SEQ_ROUTINE_RESUME (R285). When the sequencer is free it resumes a saved routine, or starts new work of the highest class waiting. -/
  | seqRoutineResume (steps : Nat)
  /-- SEQ_MACHINE_CHECK (R267). A sequencer step takes a machine check, and the step is discarded and run again, or the sequencer is classed dead. -/
  | seqMachineCheck (cause : Fin 7) (addr : BitVec 12) (inPatch : Bool)
  /-- CIR_WRITE (R212). A CIR_WRITE command inserts or modifies a circuit context in STAGING. -/
  | cirWrite (ring : Ring) (rec : Dma)
  /-- CIR_DELETE (R214). A CIR_DELETE command deletes a circuit in STAGING. -/
  | cirDelete (ring : Ring)
  /-- CIR_READ (R207). A CIR_READ command returns a circuit context and its state. -/
  | cirRead (ring : Ring) (written : Bool)
  /-- CIR_DISABLE (R249). A CIR_DISABLE command disables a circuit in every slice in DRAIN or DISCARD mode. -/
  | cirDisable (ring : Ring)
  /-- CIR_ENABLE (R251). A CIR_ENABLE command returns a circuit to ENABLED. -/
  | cirEnable (ring : Ring)
  /-- CIR_DRAIN_DONE (R250). The last queued frame of a circuit disabled in DRAIN mode leaves, and CIR_DRAINED is written. -/
  | cirDrainDone (circuit : Circuit)
  /-- CIR_FLUSH_DONE (R334). The DISCARD flush of a disabled circuit completes. -/
  | cirFlushDone (circuit : Circuit)
  /-- SA_LOAD (R245). An SA_LOAD command unwraps a key blob and loads an SA into a slot in STAGING. -/
  | saLoad (ring : Ring) (rec : Dma)
  /-- SA_DELETE (R214). An SA_DELETE command deletes an SA in STAGING. -/
  | saDelete (ring : Ring)
  /-- SA_SELECT_TX (R213). An SA_SELECT_TX command sets a circuit's transmit slot in STAGING and binds the SA to a slice and EQ. -/
  | saSelectTx (ring : Ring)
  /-- SA_READ (R378). An SA_READ command returns an SA's parameters and live state, without its key. -/
  | saRead (ring : Ring) (written : Bool)
  /-- CIR_RESUME (R253). A CIR_RESUME command clears a circuit's SUSPENDED state. -/
  | cirResume (ring : Ring)
  /-- KEK_ADVANCE (R247). A KEK_ADVANCE command makes the next fuse key slot active. -/
  | kekAdvance (ring : Ring)
  /-- EGS_CLASS_WRITE (R349). An EGS_CLASS_WRITE command sets a class node's mode, weights and shaper. -/
  | egsClassWrite (ring : Ring) (rec : Dma)
  /-- EGS_CIRQ_WRITE (R349). An EGS_CIRQ_WRITE command sets a circuit queue set's weights and shaper. -/
  | egsCirqWrite (ring : Ring) (rec : Dma)
  /-- CPS_WRITE (R356). A CPS_WRITE command starts or stops a circuit's Constant Profile. -/
  | cpsWrite (ring : Ring) (rec : Dma)
  /-- POL_WRITE (R355). A POL_WRITE command inserts or modifies a policer in STAGING. -/
  | polWrite (ring : Ring) (rec : Dma)
  /-- POL_DELETE (R355). A POL_DELETE command deletes a policer in STAGING. -/
  | polDelete (ring : Ring)
  /-- POL_READ (R355). A POL_READ command returns a policer record and one quad's bucket levels. -/
  | polRead (ring : Ring) (written : Bool)
  /-- FORWARD (R513). A FORWARD command takes the device from CONFIG to FORWARD. -/
  | forward (ring : Ring)
  /-- DRAIN (R514). A DRAIN command takes the device from FORWARD to DRAIN. -/
  | drain (ring : Ring)
  /-- DRAIN_DONE (R514). Every generation's reference count reaches 0 in DRAIN, and the device enters CONFIG. -/
  | drainDone
  /-- STANDBY (R515). A STANDBY command saves the transmit state and powers the datapath down. -/
  | standby (ring : Ring)
  /-- STANDBY_WAKE (R460). A wake source in STANDBY restores power and the transmit state, and the device enters CONFIG. -/
  | standbyWake
  /-- SAFE_EXIT (R379). A SAFE_EXIT command from PF0 records a staged half of the exit from SAFE. -/
  | safeExit (ring : Ring)
  /-- SAFE_EXIT_LAPSE (R379). The staged SAFE_EXIT half lapses 10 s after its completion. -/
  | safeExitLapse
  /-- SAFE_EXIT_CONFIRM (R437). A SAFE_EXIT_CONFIRM command from PF1 checks the critical lines and takes the device from SAFE to CONFIG. -/
  | safeExitConfirm (ring : Ring) (measured : List Nat)
  /-- PTP_SET (R378). A PTP_ADJUST command with OP SET sets PTP time. -/
  | ptpSet (ring : Ring)
  /-- PTP_STEP (R378). A PTP_ADJUST command with OP STEP steps PTP time by a signed amount. -/
  | ptpStep (ring : Ring)
  /-- PTP_RATE (R378). A PTP_ADJUST command with OP RATE sets the PTP rate adjustment. -/
  | ptpRate (ring : Ring)
  /-- PTP_SOURCE (R564). A PTP_ADJUST command with OP SOURCE selects the PTP frequency source. -/
  | ptpSource (ring : Ring) (inWindow : Bool)
  /-- PTP_SOURCE_REVERT (R553). The 10 MHz input leaves its window, and the PTP clock reverts to the 25 MHz reference. -/
  | ptpSourceRevert
  /-- PTP_SOURCE_RETURN (R553). The 10 MHz input has stayed within its window for 1 s and becomes the source in use. -/
  | ptpSourceReturn
  /-- CNT_READ (R378). A CNT_READ command returns a range of HBM counter pairs. -/
  | cntRead (ring : Ring) (written : Bool)
  /-- MAILBOX_GO (R464). A write of 1 to MBX_CTRL.GO submits a mailbox request to Ewethes. -/
  | mailboxGo (fn : Fn)
  /-- MAILBOX_RESPONSE (R464). Ewethes writes the mailbox response, sets DONE and raises the request's interrupt. -/
  | mailboxResponse (fn : Fn)
  /-- GET_INFO (R467). A GET_INFO mailbox request returns firmware and slot status. -/
  | getInfo (fn : Fn)
  /-- SENSOR_READ (R493). A SENSOR_READ mailbox request writes the sensor values to host memory. -/
  | sensorRead (fn : Fn) (readings : Readings) (written : Bool)
  /-- FW_STAGE (R478). An FW_STAGE mailbox request writes and checks an image in the slot that is not running. -/
  | fwStage (fn : Fn) (image : Dma) (sigOk : Bool) (flashOk : Bool)
  /-- FW_ACTIVATE (R479). An FW_ACTIVATE mailbox request sets the preferred slot and the trial flag. -/
  | fwActivate (fn : Fn)
  /-- ARB_ADVANCE (R480). An ARB_ADVANCE mailbox request raises the anti-rollback counter to the running SVN. -/
  | arbAdvance (fn : Fn)
  /-- KR_READ (R492). A KR_READ mailbox request returns Kiln Record entries or a checkpoint. -/
  | krRead (fn : Fn) (written : Bool)
  /-- FUSE_BYPASS_DISABLE (R481). A FUSE_PROGRAM request with FUSE_ID 3 blows the bypass permanent-disable fuse. -/
  | fuseBypassDisable (fn : Fn)
  /-- FUSE_DEBUG_LOCK (R481). A FUSE_PROGRAM request with FUSE_ID 4 blows the debug port lock fuse. -/
  | fuseDebugLock (fn : Fn)
  /-- FUSE_FT_LOCKOUT (R481). A FUSE_PROGRAM request with FUSE_ID 5 blows the factory test lockout fuse. -/
  | fuseFtLockout (fn : Fn)
  /-- FUSE_DOMAIN_LOCK (R90). A FUSE_PROGRAM request with FUSE_ID 6 blows the domain-lock fuse of a slice. -/
  | fuseDomainLock (fn : Fn)
  /-- FUSE_ASSET_TAG (R484). A FUSE_PROGRAM request with FUSE_ID 7 writes the asset tag into the next free field. -/
  | fuseAssetTag (fn : Fn)
  /-- FUSE_OPERATION (R486). The fuse controller takes the next queued fuse request and logs, programs and verifies it. -/
  | fuseOperation (readBack : FuseReadBack)
  /-- MOD_I2C (R468). A MOD_I2C mailbox request runs one two-wire transaction on a module cage. -/
  | modI2c (fn : Fn) (host : Dma) (bus : Option Bytes) (written : Bool)
  /-- MDIO (R468). An MDIO mailbox request runs one Clause 45 transaction. -/
  | mdio (fn : Fn) (valueRead : BitVec 16)
  /-- TELEM_CFG (R493). A TELEM_CFG mailbox request configures periodic telemetry snapshots. -/
  | telemCfg (fn : Fn)
  /-- PATCH_LOAD (R260). A PATCH_LOAD mailbox request loads a microcode patch bundle into every engine of its kind. -/
  | patchLoad (fn : Fn) (bundle : Bytes)
  /-- TELEMETRY_SNAPSHOT (R493). A telemetry snapshot falls due, latches sensors and counters, and is written with a TELEMETRY record. -/
  | telemetrySnapshot (readings : Readings)
  /-- FRAME_START (R57). A frame's start arrives at a MAC and is timestamped, stamped with the port's latched generation and counted. -/
  | frameStart (port : Port) (dt : Nat) (frame : Bytes) (rxEnd : RxEnd)
  /-- PARSE_STEP (R118). The parse automaton takes one walk step once the bytes it reads are available. -/
  | parseStep (frame : Nat)
  /-- RX_SA_RESOLVE (R236). The decrypt path resolves a receive SA, after a receive cache fill if needed, and writes RX_CIRCUIT and RX_AN. -/
  | rxSaResolve (frame : Nat)
  /-- DECRYPT_COMPLETE (R239). A decrypt lane finishes a frame's plaintext and ICV check, or a failed lane check causes a retry. -/
  | decryptComplete (frame : Nat) (laneFail : Bool)
  /-- REPLAY_CHECK (R240). The replay unit checks and updates the replay window in port arrival order and prepares the frame. -/
  | replayCheck (frame : Nat)
  /-- FRAME_END (R17). A frame's last byte arrives and its FCS is checked, and a frame that fails is discarded. -/
  | frameEnd (frame : Nat)
  /-- RSA_SEARCH_RESULT (R150). A rule search result returns to the slice, after parity reissues if needed. -/
  | rsaSearchResult (frame : Nat) (parityFails : List (Fin 64 × Nat))
  /-- EM_LOOKUP_RESULT (R172). An exact-match result returns to the slice, after error reissues if needed. -/
  | emLookupResult (frame : Nat) (errors : Nat)
  /-- LPM_LOOKUP_RESULT (R172). A route result returns to the slice. -/
  | lpmLookupResult (frame : Nat) (errors : Nat)
  /-- POLICER_METER (R351). A quad meters its least pending request once every slice's watermark passes it, and returns the colour. -/
  | policerMeter (quad : Quad)
  /-- POLICER_LATE (R351). A frame has not sent its meter request 16 µs after its SOF_NS and stops holding the watermark. -/
  | policerLate (frame : Nat)
  /-- RESULT_APPLY (R153). The ingress slice applies a frame's combined result in port order and forwards, drops, punts, copies or places it. -/
  | resultApply (frame : Nat)
  /-- LEARN_PLACE (R189). The sequencer places an immediately learned entry, or evicts one for it. -/
  | learnPlace
  /-- LEARN_FILTER_EXPIRE (R188). A key leaves the learn filter after HOLDOFF_MS. -/
  | learnFilterExpire (quad : Quad)
  /-- POOL_GRANT (R320). A pool grants one entitled pending claim per cycle, moving claims to larger pools or discarding frames. -/
  | poolGrant (side : Side) (slice : Slice) (bufSet : Fin 2) (pool : Fin 4)
  /-- SPILL_WRITE_ACK (R327). The HBM controller acknowledges a spill write, and the item joins the VOQ's deep portion. -/
  | spillWriteAck (frame : Nat)
  /-- RETURN_READ (R329). The return path starts reading items from a deep portion once ONDIE falls below RETURN_KB. -/
  | returnRead (slice : Slice) (port : Port) (cls : Fin 8)
  /-- RETURN_READ_DONE (R329). A return read completes, and the frame is claimed and linked, or discarded. -/
  | returnReadDone (frame : Nat)
  /-- MATCH_CELL_TIME (R297). The matcher runs its rounds for one cell time, and the matched slices build and send cells. -/
  | matchCellTime (parityBad : Bool)
  /-- STARVE_PROMOTE (R299). A pair unmatched for STARVE_CT cell times is promoted above every class. -/
  | starvePromote (src : Slice) (dst : Slice)
  /-- CELL_RECEIVE (R303). An egress slice receives a cell, checks it, and places or holds it, or discards it with a NAK. -/
  | cellReceive (src : Slice) (dst : Slice) (seq : BitVec 16) (err : CellError)
  /-- CELL_ACK (R304). A cumulative acknowledgement reaches the ingress slice, which frees its hold on the acknowledged cells. -/
  | cellAck (src : Slice) (dst : Slice)
  /-- CELL_NAK (R305). A NAK reaches the ingress slice, which queues the cell for resending. -/
  | cellNak (src : Slice) (dst : Slice) (seq : BitVec 16)
  /-- CELL_RETX_TIMEOUT (R305). A cell stays neither acknowledged nor NAKed for RTO_CT cell times and is queued for resending. -/
  | cellRetxTimeout (src : Slice) (dst : Slice) (seq : BitVec 16)
  /-- CELL_POISON (R306). A cell fails RETRY_MAX transmissions and is sent with POISON, and its frames are discarded. -/
  | cellPoison (src : Slice) (dst : Slice) (seq : BitVec 16)
  /-- SHAPER_TICK (R346). Every 64 ns each shaper adds tokens to its buckets. -/
  | shaperTick
  /-- TOKEN_TICK (R134). A punt, copy, learning or sample bucket gains a token on its fixed grid. -/
  | tokenTick (bucket : Bucket)
  /-- CPS_SLOT_DUE (R357). A Constant Profile slot falls due. -/
  | cpsSlotDue (circuit : Circuit)
  /-- EGRESS_SELECT (R342). The egress scheduler selects a frame, a CPS slot or a filler for a port. -/
  | egressSelect (port : Port)
  /-- TX_CACHE_FILL (R221). A transmit context cache entry is refilled from HBM and pinned. -/
  | txCacheFill (slice : Slice) (res : FillResult)
  /-- BURIN_REWRITE (R269). A Burin thread takes a selected frame and starts its rewrite program. -/
  | burinRewrite (slice : Slice)
  /-- BURIN_REWRITE_END (R280). A Burin rewrite ends, and its output is released in selection order. -/
  | burinRewriteEnd (slice : Slice)
  /-- BURIN_MACHINE_CHECK (R264). A Burin thread takes a machine check, the engine is fenced and its frames restart. -/
  | burinMachineCheck (slice : Slice) (engine : Fin 5) (thread : Fin 4) (cause : Fin 7) (addr : BitVec 12) (inPatch : Bool)
  /-- BURIN_SELFTEST (R265). A fenced or spare Burin engine runs its self-test. -/
  | burinSelftest (slice : Slice) (engine : Fin 5) (pass : Bool)
  /-- LOCKSTEP_COMPARE (R231). A lane pair finishes a frame and compares the two computations, then releases, retries or discards it. -/
  | lockstepCompare (slice : Slice) (pair : Fin 12) (outcome : LockstepOutcome)
  /-- LANE_KAT (R232). A fenced pair or a spare pair or lane runs its known-answer test. -/
  | laneKat (slice : Slice) (decrypt : Bool) (unit : Fin 12) (pass : Bool)
  /-- FRAME_TX_START (R93). A MAC takes a frame's first byte through the transmit gate, or the gate discards it. -/
  | frameTxStart (port : Port)
  /-- FRAME_TX_END (R59). A frame's last byte is transmitted, and it leaves the device, dropping its reference, pin and buffers. -/
  | frameTxEnd (port : Port)
  /-- INJECT_ADMIT (R391). The host interface admits an injected frame from an INJECT ring into an ingress slice. -/
  | injectAdmit (ring : Ring) (data : Dma)
  /-- EVENT_OVERFLOW_RECORD (R393). A full event ring gains room, and an OVERFLOW record with the lost count is written. -/
  | eventOverflowRecord (ring : Ring)
  /-- IRQ_HOLDOFF_END (R395). A ring's interrupt holdoff ends, and pending is set once more for entries that arrived during it. -/
  | irqHoldoffEnd (ring : Ring)
  /-- ICV_HOLDOFF_END (R243). A circuit's ICV holdoff ends, and a record of the failures during it is written. -/
  | icvHoldoffEnd (circuit : Circuit)
  /-- RESIDENCY_SWEEP (R74). The residency sweeper visits queue heads and discards frames past their maximum residency. -/
  | residencySweep
  /-- PCS_LINK_LOSS (R97). The PCS reports a fault continuously for DOWN_US, and link loss is declared. -/
  | pcsLinkLoss (port : Port)
  /-- PCS_LINK_UP (R97). The PCS stays aligned with no fault for UP_MS, and link up is declared. -/
  | pcsLinkUp (port : Port)
  /-- HOLD_EXPIRE (R100). A port's hold time expires, and every frame queued for it is flushed. -/
  | holdExpire (port : Port)
  /-- MODULE_PRESENCE_CHANGE (R97). MOD_PRS_N changes, with immediate link loss on removal and a power-class read on insertion. -/
  | modulePresenceChange (port : Port) (present : Bool) (powerClass : Nat)
  /-- SERDES_LANE_EVENT (R427). A SerDes lane loses lock, fails adaptation or its eye floor, and delivers a fault event. -/
  | serdesLaneEvent (lane : Lane) (cause : BitVec 8)
  /-- REFCLK156_LOSS (R553). A 156.25 MHz reference stops, and the ports of its slices declare link loss. -/
  | refclk156Loss (k : Fin 8)
  /-- PPS_IN_EDGE (R107). A 1PPS input edge captures PTP time into a PPS_IN record. -/
  | ppsInEdge
  /-- PPS_OUT_EDGE (R107). PTP time reaches a whole second, and the 1PPS output rises for 100 ms. -/
  | ppsOutEdge
  /-- AGING_LAP_START (R193). A new aging lap starts every PERIOD_S seconds. -/
  | agingLapStart
  /-- AGING_SWEEP_STEP (R193). The sweeper read-clears HIT in one bucket and applies the aging table to its slots. -/
  | agingSweepStep (bucket : Fin 131072)
  /-- PROOFING_STEP (R202). Proofing compares one location of every replica with the shadow and repairs any difference. -/
  | proofingStep (loc : TableLoc) (finding : ProofFinding)
  /-- TILE_SCRUB_STEP (R160). The tile scrub reads a rule cell and poisons it on a parity error. -/
  | tileScrubStep (quad : Quad) (tile : Fin 64) (cell : Fin 1024) (parityOk : Bool)
  /-- COUNTER_PAIR_FLUSH (R527). A counter-pair cache entry is written to HBM within 10 µs of its first update. -/
  | counterPairFlush (pair : Nat)
  /-- HBM_READ_ERROR (R409). An HBM read finds an unit it cannot correct, then re-reads, reconstructs or poisons it. -/
  | hbmReadError (pc : Fin 128) (rereadOk : Bool) (reconOk : Bool) (addr : Nat) (target : HbmTarget)
  /-- MEM_CORRECTION (R408). A memory corrects an error, and its correction log is updated. -/
  | memCorrection (inst : BitVec 12) (addr : BitVec 40) (syndrome : BitVec 8)
  /-- WRITEBACK_COMPLETE (R408). A corrected-data write-back completes, and the log entry becomes WRITTEN_BACK. -/
  | writebackComplete (inst : BitVec 12) (addr : BitVec 40)
  /-- HBM_REFRESH (R405). A due or pulled-in per-bank refresh issues. -/
  | hbmRefresh (pc : Fin 128) (bank : Nat) (pulledIn : Bool) (fellDue : Nat)
  /-- REFRESH_FORCED (R405). A refresh reaches its postponement limit and issues at rank 1. -/
  | refreshForced (pc : Fin 128) (bank : Nat) (fellDue : Nat)
  /-- HBM_RETRAIN_START (R407). A member falls due for retraining by period or temperature change and is taken offline. -/
  | hbmRetrainStart (pc : Fin 128) (temperature : Int)
  /-- MEMBER_RETURN (R406). Offline work ends, stale segments are rewritten and the member returns to service. -/
  | memberReturn (pc : Fin 128) (workOk : Bool)
  /-- HBM_SCRUB_STEP (R412). The HBM scrubber reads one stripe and corrects, rebuilds or poisons its units. -/
  | hbmScrubStep (group : Slice) (stripe : Nat) (corrected : List Nat) (bad : List Nat) (parityDisagrees : Bool) (targets : List HbmTarget) (lapEnd : Option Nat)
  /-- ONDIE_SCRUB_STEP (R412). An on-die scrubber reads one word in an idle slot. -/
  | ondieScrubStep (inst : BitVec 12) (addr : BitVec 40) (found : ScrubFinding) (lapEnd : Option Nat)
  /-- MEM_SPARE (R413). A location classed HARD is spared by post-package repair or a spare row or column. -/
  | memSpare (inst : BitVec 12) (addr : BitVec 40) (how : SpareKind)
  /-- GROUP_REBUILD_DONE (R415). Every segment of a failed member has been rebuilt into spare bands, and the group becomes REBUILT. -/
  | groupRebuildDone (group : Slice) (switched : Nat)
  /-- GROUP_EVACUATION_DONE (R416). The last page of an evacuating group is free and its structured data has moved, and the group becomes RETIRED. -/
  | groupEvacuationDone (group : Slice) (left : Nat)
  /-- FAULT_EVENT (R422). Saggar accepts a fault event on an error line, counts it and classifies its source. -/
  | faultEvent (source : Nat) (cause : BitVec 8) (detail : BitVec 64) (count : Nat)
  /-- RETIREMENT_START (R424). A permanent source's retirement starts once its spare pool has no retirement running. -/
  | retirementStart (source : Nat)
  /-- ENC_PAIR_RETIRE (R233). A spare lane pair takes a retired pair's logical position at a dispatch boundary. -/
  | encPairRetire (slice : Slice) (pair : Fin 12)
  /-- DEC_LANE_RETIRE (R242). A spare decrypt lane takes a retired lane's logical position. -/
  | decLaneRetire (slice : Slice) (lane : Fin 12)
  /-- BURIN_ENGINE_RETIRE (R266). A spare Burin engine takes a retired engine's logical position at a dispatch boundary. -/
  | burinEngineRetire (slice : Slice) (engine : Fin 5)
  /-- TILE_COPY_DONE (R163). The copy into a spare tile completes, is read back and compared, and the chain switches to the spare. -/
  | tileCopyDone (quad : Quad) (good : Bool)
  /-- PLANE_CHECK_END (R309). A spare plane passes 4,096 cell times of compare and takes the logical plane at cell time n1. -/
  | planeCheckEnd (good : Bool)
  /-- PLANE_REMOVE (R310). A plane classed permanent with no spare left is removed, and P falls by 1. -/
  | planeRemove (plane : Fin 18)
  /-- FAULT_HOLDOFF_END (R439). A source's record holdoff ends, and a record with the count of held events is written. -/
  | faultHoldoffEnd (source : Nat)
  /-- CRITICAL_FAULT (R433). A critical line asserts, and the squelch, FAULT_N and SAFE follow under the safe-state timing chain.
`ended` lists the measured sources that have returned into range. -/
  | criticalFault (sources : List Nat) (ended : List Nat)
  /-- INJECT_EVENT (R440). A write of GO with TYPE EVENT to FLT_INJECT in FACTORY_TEST injects fault events at a source. -/
  | injectEvent (fn : Fn) (value : BitVec 64)
  /-- INJECT_CORRUPT (R440). A write of GO with TYPE CORRUPT to FLT_INJECT corrupts the source's next operations. -/
  | injectCorrupt (fn : Fn) (value : BitVec 64)
  /-- INJECT_CRITICAL (R440). A write of GO with TYPE CRITICAL to FLT_INJECT asserts a critical line for 1 µs. -/
  | injectCritical (fn : Fn) (value : BitVec 64)
  /-- EIC_SOURCE_EVENT (R446). An edge event or an active level sets an interrupt source pending. -/
  | eicSourceEvent (source : Nat) (level : Bool)
  /-- EIC_PIN_FILTERED (R445). An asynchronous input holds a new level for FILT cycles and the filter accepts it. -/
  | eicPinFiltered (source : Nat) (level : Bool)
  /-- EIC_NOTIFY (R450). A context's notify condition becomes true, and it gets an MSI-X message, a core line or an AUTO delivery. -/
  | eicNotify (ctx : Fin 66)
  /-- EIC_CLAIM (R453). A read of EIC_CLAIM returns and activates the winning source, 2,047 or 0. -/
  | eicClaim (agent : EicAgent) (ctx : Fin 66)
  /-- EIC_COMPLETE (R455). A write of EIC_COMPLETE ends a source's active state. -/
  | eicComplete (agent : EicAgent) (ctx : Fin 66) (source : BitVec 11)
  /-- EIC_PEND_SET (R447). A write of EIC_PEND_SET sets software latches pending. -/
  | eicPendSet (fn : Fn) (n : Fin 64) (value : BitVec 32)
  /-- EIC_PEND_CLR (R447). A write of EIC_PEND_CLR clears latches and edge pending states. -/
  | eicPendClr (fn : Fn) (n : Fin 64) (value : BitVec 32)
  /-- MSIX_UNMASK (R452). A vector is unmasked, and its held message is sent if the notify condition still holds. -/
  | msixUnmask (req : Requester) (vector : Fin 32) (msgAddr : BitVec 64) (msgData : BitVec 32)
  /-- THERMAL_ALARM (R470). A thermal sensor crosses 100 °C, or every sensor falls below 97 °C, and the alarm asserts or clears. -/
  | thermalAlarm (sensor : Fin 64) (quarterDegrees : Int)
  /-- HISTOGRAM_MINUTE (R491). Each minute the temperature and voltage histograms gain their bins. -/
  | histogramMinute (readings : Readings)
  /-- KILN_COMMIT (R488). The hourly commit measures the Cones and writes a checkpoint and the log page to the ring. -/
  | kilnCommit (coneKHz : List Nat) (eyeMillivolts : List (Nat × Int)) (failing : List Nat)
  /-- KILN_LOG_PAGE_WRITE (R488). A full log page is written early, no more than once a minute. -/
  | kilnLogPageWrite (failing : List Nat)
  /-- WATCHDOG_WARNING (R476). The management watchdog reaches half its period and sets source 1,287 pending. -/
  | watchdogWarning
  /-- WATCHDOG_EXPIRE (R476). The management watchdog expires and resets domains 2 to 8. -/
  | watchdogExpire
  /-- HEALTH_REFRESH (R506). Every 10 ms Ewethes refreshes the SMBus health values. -/
  | healthRefresh (readings : Readings)
  /-- SMBUS_STATUS_READ (R505). An SMBus block read of command 0x01 returns the four status bytes. -/
  | smbusStatusRead
  /-- SMBUS_HEALTH_READ (R506). An SMBus block read of command 0x02 returns the six health bytes while Ewethes runs. -/
  | smbusHealthRead
  /-- POWER_ON (R496). A power-on resets every domain, RWS fields included. -/
  | powerOn
  /-- RESET_N_ASSERT (R496). RESET_N is held low for at least 4 reference cycles and resets domains 1 to 8, or stops option loading. -/
  | resetNAssert (cycles : Nat)
  /-- RESET_N_DEASSERT (R503). RESET_N deasserts, and release begins or the interrupted load phase restarts. -/
  | resetNDeassert
  /-- PERST_ASSERT (R496). PCI Express PERST# asserts and resets domains 4 to 8. -/
  | perstAssert
  /-- PERST_DEASSERT (R499). PERST# deasserts, and domain 4 may be released. -/
  | perstDeassert
  /-- PCIE_HOT_RESET (R496). A PCI Express hot reset applies a Function Level Reset to every function. -/
  | pcieHotReset
  /-- SOFTWARE_DEVICE_RESET (R496). A write of 0x5D to RST_DEVICE starts a reset of domains 2 to 8 1 µs later. -/
  | softwareDeviceReset (fn : Fn) (key : BitVec 8)
  /-- RST_BLK_PORT (R517). A write to RST_BLK_PORT resets an idle port's MAC, PCS and lanes. -/
  | rstBlkPort (fn : Fn) (n : Fin 4) (value : BitVec 32)
  /-- RST_BLK_SLICE (R517). A write to RST_BLK_SLICE resets an idle slice's pipelines, buffers and caches. -/
  | rstBlkSlice (fn : Fn) (value : BitVec 32)
  /-- BLOCK_RESET_DONE (R517). A per-block reset completes, and its bit self-clears. -/
  | blockResetDone (block : ResetBlock)
  /-- DOMAIN_RELEASE (R499). The reset controller releases a domain once its predecessor's gap has elapsed and its request stands. -/
  | domainRelease (domain : Fin 8)
  /-- DOMAIN_READY (R499). A released domain becomes ready, its PLLs locked and its initialisation done. -/
  | domainReady (domain : Fin 8)
  /-- OPTION_LOAD_PHASE_DONE (R502). A fuse, strap or trim phase of the option load completes. -/
  | optionLoadPhaseDone (fuseReadsAgree : Bool) (testEn : Bool) (pcieLrev : Bool)
  /-- LOAD_STALL (R504). The eighth load restart within 1 s stalls bring-up. -/
  | loadStall
  /-- LOAD_STALL_CLEAR (R504). RESET_N stays low for 100 ms, and the stall ends. -/
  | loadStallClear
  /-- BOOT_SELECT (R475). The boot ROM selects, checks and starts an image, or enters recovery. -/
  | bootSelect (checkA : SlotState) (checkB : SlotState)
  /-- EWETHES_START (R509). Ewethes starts and begins bring-up by requesting domains 5 to 8. -/
  | ewethesStart (bundles : List Bytes) (seqSelfTestOk : Bool) (failed : List Nat)
  /-- BRINGUP_END (R509). Bring-up ends in CONFIG, SAFE or FACTORY_TEST, and a trial boot may be confirmed. -/
  | bringupEnd
  /-- RECEIVE_INDEX_REBUILD_DONE (R412). The controller finishes rebuilding a poisoned receive-index bucket from the receive keys in the SA contexts, and frames that hash to it resolve SAs again. -/
  | receiveIndexRebuildDone (bucket : Nat)
  /-- REFCLK156_RETURN (R553). A lost 156.25 MHz reference has been present again for 1 ms, lane-event suppression of its two slices ends and their ports train again. -/
  | refclk156Return (k : Fin 8)
  /-- MONITOR_UNMASK (R548). A masked voltage monitor is unmasked 10 µs after its domain becomes ready, and a reading outside the absolute limits then acts as a critical fault. -/
  | monitorUnmask (monitor : Fin 48) (withinLimits : Bool)
  deriving DecidableEq, Repr

end Sys2Proof
end

