-- ==== Sys2Proof/Machine/Bits.lean ====
section
/-! DEFINITION. Bit fields, byte order and integer helpers shared by the whole block (R7, R8, R12, R13). -/

namespace Sys2Proof.Machine

/-- Bits hi to lo of a number (R8). -/
def bitsOf (hi lo v : Nat) : Nat := v / 2 ^ lo % 2 ^ (hi + 1 - lo)

/-- Bit n of a number. -/
def bitOf (n v : Nat) : Bool := v.testBit n

/-- A number with bits hi to lo replaced by x. -/
def withBits (hi lo v x : Nat) : Nat :=
  v - bitsOf hi lo v * 2 ^ lo + x % 2 ^ (hi + 1 - lo) * 2 ^ lo

/-- 1 for true. -/
def boolBit (b : Bool) : Nat := if b then 1 else 0

/-- Whether an access is served: 4 or 8 bytes, naturally aligned (R537). -/
def accessOk (addr size : Nat) : Bool := (size = 4 || size = 8) && addr % size = 0

/-- Bit k set for every k below n that satisfies p. -/
def bitsWhere (n : Nat) (p : Nat → Bool) : Nat := (List.range n).foldl (fun v k => if p k then v + 2 ^ k else v) 0

/-- `n` bytes of `v`, least significant first (R7). -/
def leBytes : Nat → Nat → Bytes
  | 0, _ => []
  | n + 1, v => BitVec.ofNat 8 v :: leBytes n (v / 256)

/-- The number that little-endian bytes hold (R7). -/
def leNat : Bytes → Nat
  | [] => 0
  | b :: bs => b.toNat + 256 * leNat bs

/-- `n` bytes of `v`, most significant first (R7). -/
def beBytes (n v : Nat) : Bytes := (leBytes n v).reverse

/-- The number that bytes in network order hold (R7). -/
def beNat (bs : Bytes) : Nat := leNat bs.reverse

/-- `n` bytes of 0. -/
def zeros (n : Nat) : Bytes := List.replicate n 0

/-- Bytes off to off + n − 1; bytes past the end read as 0. -/
def sliceOf (bs : Bytes) (off n : Nat) : Bytes :=
  let x := (bs.drop off).take n
  x ++ zeros (n - x.length)

/-- Little-endian field of `n` bytes at `off`. -/
def leAt (bs : Bytes) (off n : Nat) : Nat := leNat (sliceOf bs off n)

/-- Network-order field of `n` bytes at `off`. -/
def beAt (bs : Bytes) (off n : Nat) : Nat := beNat (sliceOf bs off n)

/-- Byte at `off`, or 0 past the end. -/
def byteAt (bs : Bytes) (off : Nat) : Nat := (bs.getD off 0).toNat

/-- The bytes with `x` written at `off`. -/
def putAt (bs : Bytes) (off : Nat) (x : Bytes) : Bytes :=
  sliceOf bs 0 off ++ x ++ bs.drop (off + x.length)

/-- Whether every byte from off to off + n − 1 is 0. -/
def zeroAt (bs : Bytes) (off n : Nat) : Bool := (sliceOf bs off n).all (· == 0)

/-- Bytes xored pairwise, as long as the shorter. -/
def xorBytes (a b : Bytes) : Bytes := List.zipWith (· ^^^ ·) a b

/-- A two's complement number of `n` bits. -/
def signedOf (n v : Nat) : Int := if v % 2 ^ n < 2 ^ (n - 1) then (v % 2 ^ n : Nat) else (v % 2 ^ n : Nat) - (2 ^ n : Nat)

/-- The `n`-bit two's complement code of an integer. -/
def codeOf (n : Nat) (v : Int) : Nat := (v % (2 ^ n : Nat)).toNat

/-- `v` rounded up to a multiple of `m`. -/
def roundUp (v m : Nat) : Nat := (v + m - 1) / m * m

/-- Quotient rounded up. -/
def ceilDiv (a b : Nat) : Nat := (a + b - 1) / b

/-- a is older than b (R12). -/
def Gen.older (a b : Gen) : Bool := 1 ≤ (b - a).toNat && (b - a).toNat ≤ 15

/-- a is older than or equal to b (R12). -/
def Gen.olderEq (a b : Gen) : Bool := (b - a).toNat ≤ 15

/-- The least element of a list of numbers that satisfies `p`. -/
def leastWhere (p : Nat → Bool) (l : List Nat) : Option Nat :=
  l.foldl (fun acc x => if p x then (match acc with | none => some x | some y => some (min x y)) else acc) none

/-- The listed numbers below n. -/
def below (n : Nat) : List Nat := List.range n

/-- The first number below n that satisfies `p`. -/
def firstBelow (n : Nat) (p : Nat → Bool) : Option Nat := (below n).find? p

/-- Run `f` over a list of items from left to right. -/
def runOver {α σ : Type} (l : List α) (f : α → σ → σ) (s : σ) : σ := l.foldl (fun s x => f x s) s

end Sys2Proof.Machine
end

