-- ==== Sys2Proof/Machine/Crypto.lean ====
section
/-! DEFINITION. The standard functions the spec names: CRC-32 and CRC-32C (R136, R169), AES of FIPS 197, GCM of NIST
SP 800-38D, AES-KW of SP 800-38F, CMAC of SP 800-38B and the counter-mode KDF of SP 800-108r1 (R225 to R227, R244,
R246). The spec names these standards and does not restate them: PRESUMED, log entry 22. -/

namespace Sys2Proof.Machine

/-! CRC -/

/-- One byte into a reflected 32-bit CRC register. -/
def crcByte (poly c : Nat) (b : Byte) : Nat :=
  (List.range 8).foldl (fun c _ => if c % 2 = 1 then c / 2 ^^^ poly else c / 2) (c ^^^ b.toNat)

/-- CRC-32 of IEEE 802.3: initial value all ones, final inversion. -/
def crc32 (bs : Bytes) : Nat := bs.foldl (crcByte 0xEDB88320) 0xFFFFFFFF ^^^ 0xFFFFFFFF

/-! AES -/

/-- The S-box of FIPS 197, 32 entries in each number, entry 0 in the low byte. -/
def sboxRows : List Nat :=
  [0xC072A49CAFA2D4ADF04759FA7DC982CA76ABD7FE2B670130C56F6BF27B777C63,
   0x75B227EBE28012079A059618C323C7041531D871F1E5A534CCF73F362693FDB7,
   0xCF584C4A39BECB6A5BB1FC20ED00D153842FE329B3D63B52A05A6E1B1A2C8309,
   0xD2F3FF1021DAB6BCF5389D928F40A351A89F3C507F02F94585334D43FBAAEFD0,
   0xDB0B5EDE14B8EE4688902A22DC4F816073195D643D7EA7C41744975FEC130CCD,
   0x08AE7A65EAF4566CA94ED58D6D37C8E779E4959162ACD3C25C2406490A3A32E0,
   0x9E1DC186B95735610EF6034866B53E708A8BBD4B1F74DDE8C6B4A61C2E2578BA,
   0x16BB54B00F2D99416842E6BF0D89A18CDF2855CEE9871E9B948ED9691198F8E1]

/-- The inverse S-box. -/
def invSboxRows : List Nat :=
  [0xCBE9DEC444438E3487FF2F9B8239E37CFBD7F3819EA340BF38A53630D56A0952,
   0x25D18B6D49A25B76B224D92866A12E084EC3FA420B954CEE3D23C2A632947B54,
   0x849D8DA75746155EDAB9EDFD5048706C92B6655DCC5CA4D41698688664F6F872,
   0x6B8A130103BDAFC1020F3FCA8F1E2CD00645B3B80558E4F70AD3BC8C00ABD890,
   0x6EDF751CE837F9E28535ADE72274AC9673E6B4F0CECFF297EADC674F4111913A,
   0xF45ACD78FEC0DB9A2079D2C64B3E56FC1BBE18AA0E62B76F89C5291D711AF147,
   0xEF9CC9939F7AE52D0D4AB519A97F51605FEC8027591012B131C7078833A8DD1F,
   0x7D0C2155631469E126D677BA7E042B17619953833CBBEBC8B0F52AAE4D3BE0A0]

/-- Look a byte up in eight rows of 32 entries. -/
def rowByte (rows : List Nat) (b : Byte) : Byte :=
  BitVec.ofNat 8 (rows.getD (b.toNat / 32) 0 >>> (8 * (b.toNat % 32)))

/-- SubBytes of one byte. -/
def sbox (b : Byte) : Byte := rowByte sboxRows b
/-- Its inverse. -/
def invSbox (b : Byte) : Byte := rowByte invSboxRows b

/-- Each byte of a 16-byte block, taken as a number, multiplied by x in the field of AES. -/
def xtime (w : Nat) : Nat :=
  ((w &&& 0x7F7F7F7F7F7F7F7F7F7F7F7F7F7F7F7F) <<< 1) ^^^ ((w >>> 7) &&& 0x01010101010101010101010101010101) * 0x1B

/-- Each byte of a block multiplied by a constant below 16. -/
def gfMul (k w : Nat) : Nat :=
  let w2 := xtime w
  let w4 := xtime w2
  k % 2 * w ^^^ k / 2 % 2 * w2 ^^^ k / 4 % 2 * w4 ^^^ k / 8 % 2 * xtime w4

/-- Each column of a block turned up by one row. -/
def turnColumns (w : Nat) : Nat :=
  ((w &&& 0x00FFFFFF00FFFFFF00FFFFFF00FFFFFF) <<< 8) ^^^ ((w >>> 24) &&& 0x000000FF000000FF000000FF000000FF)

/-- Word i of the key schedule from the words before it. -/
def nextWord (nk i : Nat) (ws : List Bytes) : Bytes :=
  let t := ws.getD (i - 1) []
  let t := if i % nk = 0 then
      let u := (t.drop 1 ++ t.take 1).map sbox
      xorBytes u [BitVec.ofNat 8 ((List.range (i / nk - 1)).foldl (fun r _ => xtime r) 1), 0, 0, 0]
    else if nk > 6 ∧ i % nk = 4 then t.map sbox
    else t
  xorBytes (ws.getD (i - nk) []) t

/-- The round keys of a key of 16 or 32 bytes. -/
def roundKeys (key : Bytes) : List Bytes :=
  let nk := key.length / 4
  let first := (List.range nk).map fun i => sliceOf key (4 * i) 4
  let ws := (List.range (4 * (nk + 7) - nk)).foldl (fun ws j => ws ++ [nextWord nk (nk + j) ws]) first
  (List.range (nk + 7)).map fun r => ((ws.drop (4 * r)).take 4).flatten

/-- ShiftRows: byte r + 4c comes from column c + r. -/
def shiftRows (b : Bytes) : Bytes := (List.range 16).map fun i => b.getD (i % 4 + 4 * ((i / 4 + i % 4) % 4)) 0
/-- Its inverse. -/
def invShiftRows (b : Bytes) : Bytes := (List.range 16).map fun i => b.getD (i % 4 + 4 * ((i / 4 + 4 - i % 4) % 4)) 0

/-- Multiply each column by the circulant matrix with first row k0 k1 k2 k3. -/
def mixWith (k0 k1 k2 k3 : Nat) (b : Bytes) : Bytes :=
  let w := beNat b
  let w1 := turnColumns w
  let w2 := turnColumns w1
  beBytes 16 (gfMul k0 w ^^^ gfMul k1 w1 ^^^ gfMul k2 w2 ^^^ gfMul k3 (turnColumns w2))

/-- The cipher of FIPS 197 on one block. -/
def aesBlock (key block : Bytes) : Bytes :=
  let rks := roundKeys key
  let n := rks.length - 1
  let b := xorBytes block (rks.getD 0 [])
  let b := (List.range (n - 1)).foldl (fun b r =>
    xorBytes (mixWith 2 3 1 1 (shiftRows (b.map sbox))) (rks.getD (r + 1) [])) b
  xorBytes (shiftRows (b.map sbox)) (rks.getD n [])

/-- The inverse cipher on one block. -/
def aesInvBlock (key block : Bytes) : Bytes :=
  let rks := roundKeys key
  let n := rks.length - 1
  let b := xorBytes block (rks.getD n [])
  let b := (List.range (n - 1)).foldl (fun b r =>
    mixWith 14 11 13 9 (xorBytes ((invShiftRows b).map invSbox) (rks.getD (n - 1 - r) []))) b
  xorBytes ((invShiftRows b).map invSbox) (rks.getD 0 [])

/-! GCM -/

/-- Product of two blocks in the field of GHASH. -/
def ghashMul (x y : Nat) : Nat :=
  ((List.range 128).foldl (fun (z, v) i =>
    (if x.testBit (127 - i) then z ^^^ v else z, if v % 2 = 1 then v / 2 ^^^ 0xE1 * 2 ^ 120 else v / 2)) (0, y)).1

/-- The blocks of a byte string, the last one filled with 0. -/
def blocksOf (bs : Bytes) : List Bytes := (List.range (ceilDiv bs.length 16)).map fun i => sliceOf bs (16 * i) 16

/-- GHASH of AAD and ciphertext under H. -/
def ghash (h : Nat) (aad ct : Bytes) : Nat :=
  let lens := beBytes 8 (8 * aad.length) ++ beBytes 8 (8 * ct.length)
  (blocksOf aad ++ blocksOf ct ++ [lens]).foldl (fun y b => ghashMul (y ^^^ beNat b) h) 0

/-- The key stream applied to data: counter blocks from 2 on. -/
def gcmStream (key iv data : Bytes) : Bytes :=
  let ks := ((List.range (ceilDiv data.length 16)).map fun i => aesBlock key (iv ++ beBytes 4 (i + 2))).flatten
  xorBytes data ks

/-- The ICV of AAD and ciphertext with a 96-bit IV. -/
def gcmTag (key iv aad ct : Bytes) : Bytes :=
  let h := beNat (aesBlock key (zeros 16))
  xorBytes (beBytes 16 (ghash h aad ct)) (aesBlock key (iv ++ beBytes 4 1))

/-! AES-KW -/

/-- One step of the unwrap: t, and semiblock i from 1. -/
def kwStep (key : Bytes) (t i : Nat) (st : Bytes × List Bytes) : Bytes × List Bytes :=
  let a := beBytes 8 (beNat st.1 ^^^ t)
  let b := aesInvBlock key (a ++ st.2.getD (i - 1) [])
  (b.take 8, st.2.set (i - 1) (b.drop 8))

/-- Unwrap a wrapped key; none when the integrity check fails. -/
def kwUnwrap (key wrapped : Bytes) : Option Bytes :=
  let n := wrapped.length / 8 - 1
  let r := (List.range n).map fun i => sliceOf wrapped (8 * (i + 1)) 8
  let steps := (List.range (6 * n)).map fun k => 6 * n - k
  let (a, r) := steps.foldl (fun st t => kwStep key t ((t - 1) % n + 1) st) (wrapped.take 8, r)
  if a = List.replicate 8 0xA6 then some r.flatten else none

/-! CMAC and the KEK -/

/-- Doubling in the field of CMAC. -/
def cmacDouble (v : Nat) : Nat := (2 * v) % 2 ^ 128 ^^^ (if v.testBit 127 then 0x87 else 0)

/-- CMAC of a message. -/
def cmac (key msg : Bytes) : Bytes :=
  let k1 := cmacDouble (beNat (aesBlock key (zeros 16)))
  let n := max 1 (ceilDiv msg.length 16)
  let last := msg.drop (16 * (n - 1))
  let tail := if last.length = 16 then beNat last ^^^ k1
    else beNat (sliceOf (last ++ [0x80]) 0 16) ^^^ cmacDouble k1
  let y := (List.range (n - 1)).foldl (fun y i => beNat (aesBlock key (beBytes 16 (y ^^^ beNat (sliceOf msg (16 * i) 16))))) 0
  aesBlock key (beBytes 16 (y ^^^ tail))

/-- The ASCII label of the KEK derivation. -/
def kekLabel : Bytes := [0x53, 0x50, 0x52, 0x49, 0x4E, 0x4F, 0x54, 0x48, 0x2D, 0x4B, 0x45, 0x4B]

/-- The KEK of a fuse slot key (R246). -/
def deriveKek (slotKey : Bytes) (serial : Nat) : Bytes :=
  let k := fun i => cmac slotKey (leBytes 1 i ++ kekLabel ++ [0] ++ beBytes 8 serial ++ beBytes 2 256)
  k 1 ++ k 2

end Sys2Proof.Machine
end

