-- ==== Sys2Proof/Config.lean ====
section
/-! DEFINITION. What an implementation fixes and what the spec leaves open: opaque constants that no proof can see
into. Each is named in the assumption log. -/

namespace Sys2Proof.Config

/-- A value the spec leaves open, fresh at each draw: the number of the draw selects it. Log entry 20. -/
opaque freeValue (width draw : Nat) : BitVec width

/-- The JESD238 limit on postponed refreshes, which the spec names and does not give (R405, Table 13.9). Log entry 21. -/
opaque jesd238PostponeLimit : Nat

/-- The JESD238 limit on refreshes pulled in (R405). Log entry 21. -/
opaque jesd238PullInLimit : Nat

/-- The bucket of the receive index that a receive key falls into; the structure of the index belongs to the device
(R399, Table 13.4). Log entry 23. -/
opaque receiveBucket (key : Nat) : Nat

/-- How far a mailbox command has come, as a function of PF and time: the spec says that PROGRESS shows the percentage done
(R465). Log entry 125. -/
opaque mailProgress (fn now : Nat) : Nat

/-- The release number of the boot ROM, which GET_INFO answers (Table 16.3). Log entry 20. -/
opaque bootRomRelease : BitVec 32

/-- Where a location lies in the shadow region, whose layout belongs to the device (R201). Log entry 105. -/
opaque shadowOffset (loc : Nat) : Nat

/-- How the shadow region holds a location's content (R201). Log entry 105. -/
opaque shadowImage (loc : Nat) (content : Bytes) : Bytes

/-- The ROM words of Burin and of the table sequencer: a release's contents, which the spec does not give (R256). Log entry
109. -/
opaque burRom (addr : Nat) : Nat

/-- The ROM of the table sequencer. -/
opaque seqRom (addr : Nat) : Nat

/-- Which object a word of an on-die memory belongs to, by memory instance and address: the placement is the device's own.
Log entry 112. -/
opaque onDieWord (inst addr : Nat) : Nat

/-- Where the device places an object of the structured areas of HBM, by kind and number, after so many moves of an
evacuation (R399, R416). Log entry 116. -/
opaque structPlace (moves kind idx : Nat) : Nat

/-- How NEXT of a frame record names the record of a frame (Table 10.3). Log entry 118. -/
opaque recordName (f : Nat) : Nat

end Sys2Proof.Config
end

