-- ==== Sys2Proof/Machine/Tab.lean ====
section
/-! DEFINITION. Sparse arrays of the block: lists of (index, value) pairs in one canonical form (indices strictly
rising, no value equal to the default that an unlisted index reads as). -/

namespace Sys2Proof.Machine

/-- A sparse array. The default value is given at each read and write, and is one constant for each array. -/
structure Tab (α : Type) where
  cells : List (Nat × α)
  deriving DecidableEq, Repr

/-- The array in which every index reads as the default. -/
def Tab.empty {α : Type} : Tab α := ⟨[]⟩

/-- Look an index up in a list of cells. -/
def lookupCell {α : Type} (d : α) : List (Nat × α) → Nat → α
  | [], _ => d
  | (k, v) :: rest, i => if i = k then v else lookupCell d rest i

/-- Remove an index from a list of cells. -/
def eraseCell {α : Type} : List (Nat × α) → Nat → List (Nat × α)
  | [], _ => []
  | (k, v) :: rest, i => if i = k then eraseCell rest i else (k, v) :: eraseCell rest i

/-- Put a cell in its place in a rising list. -/
def insertCell {α : Type} : List (Nat × α) → Nat → α → List (Nat × α)
  | [], i, x => [(i, x)]
  | (k, v) :: rest, i, x =>
    if i < k then (i, x) :: (k, v) :: rest
    else if i = k then (i, x) :: rest
    else (k, v) :: insertCell rest i x

/-- Read index `i`; an unlisted index reads as `d`. -/
def Tab.get {α : Type} (t : Tab α) (d : α) (i : Nat) : α := lookupCell d t.cells i

/-- Write index `i`; writing the default removes the cell. -/
def Tab.set {α : Type} [DecidableEq α] (t : Tab α) (d : α) (i : Nat) (x : α) : Tab α :=
  ⟨if x = d then eraseCell t.cells i else insertCell t.cells i x⟩

/-- Change index `i`. -/
def Tab.modify {α : Type} [DecidableEq α] (t : Tab α) (d : α) (i : Nat) (f : α → α) : Tab α :=
  t.set d i (f (t.get d i))

/-- Indices strictly rising and no listed value equal to the default. -/
def cellsOk {α : Type} [DecidableEq α] (d : α) : List (Nat × α) → Bool
  | [] => true
  | [(_, v)] => v ≠ d
  | (k, v) :: (k', v') :: rest => v ≠ d && k < k' && cellsOk d ((k', v') :: rest)

/-- The canonical form. -/
def Tab.wf {α : Type} [DecidableEq α] (t : Tab α) (d : α) : Bool := cellsOk d t.cells

/-- Change every cell of a list; a cell that becomes the default goes. -/
def mapCellList {α : Type} [DecidableEq α] (d : α) (f : Nat → α → α) : List (Nat × α) → List (Nat × α)
  | [] => []
  | (k, v) :: rest =>
    if f k v = d then eraseCell (mapCellList d f rest) k else (k, f k v) :: mapCellList d f rest

/-- Change every listed cell; cells that become the default are removed. -/
def Tab.mapCells {α : Type} [DecidableEq α] (t : Tab α) (d : α) (f : Nat → α → α) : Tab α := ⟨mapCellList d f t.cells⟩

/-- Keep only the cells whose index satisfies `p`; the others read as the default. -/
def Tab.keep {α : Type} (t : Tab α) (p : Nat → Bool) : Tab α := ⟨t.cells.filter fun c => p c.1⟩

/-- The listed indices. -/
def Tab.keys {α : Type} (t : Tab α) : List Nat := t.cells.map Prod.fst

/-- The first listed cell that satisfies `p`. -/
def Tab.find? {α : Type} (t : Tab α) (p : Nat → α → Bool) : Option (Nat × α) :=
  t.cells.find? fun c => p c.1 c.2

/-- Whether some listed cell satisfies `p`. -/
def Tab.any {α : Type} (t : Tab α) (p : Nat → α → Bool) : Bool := t.cells.any fun c => p c.1 c.2

/-- How many listed cells satisfy `p`. -/
def Tab.count {α : Type} (t : Tab α) (p : Nat → α → Bool) : Nat := t.cells.countP fun c => p c.1 c.2

end Sys2Proof.Machine
end

