-- ==== Sys2Proof/Machine/Regs.lean ====
section
/-! DEFINITION. The registers of BAR0 as data: where each lies, who reads and writes it, in which mode, its fields and
its reset value (R4 to R6, R534 to R541 and the register table of each chapter). -/

namespace Sys2Proof.Machine

/-- Access codes of a field (Table 00.2). -/
inductive Access where
  | ro | rw | wo | w1c | w1s | fl
  deriving DecidableEq, Repr

/-- The encodings of a field that are not reserved. -/
inductive Legal where
  | any
  /-- lo to hi. -/
  | within (lo hi : Nat)
  /-- All but lo to hi. -/
  | outside (lo hi : Nat)
  /-- Multiples of 4 up to max. -/
  | fours (max : Nat)
  deriving DecidableEq, Repr

/-- A field of a register: bits hi to lo. -/
structure Field where
  hi : Nat
  lo : Nat
  acc : Access
  legal : Legal
  deriving DecidableEq, Repr

/-- The modes in which a register takes a write. -/
inductive WriteWhen where
  | anyMode | config | configOrTest | configOrForward | factoryTest
  deriving DecidableEq, Repr

/-- What the spec says of a register or array of registers. Element (i, j) lies at base + i * s1 + j * s2. -/
structure RegInfo where
  base : Nat
  /-- Bytes of one register: 4, 8 or 16. -/
  size : Nat
  /-- Reset domain of Table 17.1. -/
  domain : Nat
  n1 : Nat
  s1 : Nat
  n2 : Nat
  s2 : Nat
  /-- Functions that reach it, by number. -/
  readers : List Nat
  /-- Functions that write it. -/
  writers : List Nat
  when : WriteWhen
  /-- One value serves all four quads (R165). -/
  mirrored : Bool
  /-- One copy per physical function (R396, R494). -/
  banked : Bool
  reset : Nat
  fields : List Field
  deriving DecidableEq, Repr

/-- A read-only field. -/
def ro (hi lo : Nat) : Field := ⟨hi, lo, .ro, .any⟩
/-- A read/write field with no reserved encoding. -/
def rw (hi lo : Nat) : Field := ⟨hi, lo, .rw, .any⟩
/-- A read/write field whose values above `max` are reserved. -/
def rwTo (hi lo max : Nat) : Field := ⟨hi, lo, .rw, .within 0 max⟩
/-- A read/write field whose values outside least to most are reserved. -/
def rwIn (hi lo least most : Nat) : Field := ⟨hi, lo, .rw, .within least most⟩
/-- A read/write field whose values least to most are reserved. -/
def rwNot (hi lo least most : Nat) : Field := ⟨hi, lo, .rw, .outside least most⟩
/-- A read/write field that takes multiples of 4 up to `max`. -/
def rwMul4 (hi lo max : Nat) : Field := ⟨hi, lo, .rw, .fours max⟩
/-- A write-only field. -/
def wo (hi lo : Nat) : Field := ⟨hi, lo, .wo, .any⟩
/-- A field cleared by writing 1. -/
def w1c (hi lo : Nat) : Field := ⟨hi, lo, .w1c, .any⟩
/-- A field set by writing 1. -/
def w1s (hi lo : Nat) : Field := ⟨hi, lo, .w1s, .any⟩
/-- A fuse-limited field: no register write changes it (R481). -/
def fl (hi lo : Nat) : Field := ⟨hi, lo, .fl, .any⟩

/-- The registers and register arrays of BAR0. -/
inductive RegName where
  /-- GLB_ID, Table 19.6. -/
  | glbId
  /-- GLB_SERIAL, Table 19.7. -/
  | glbSerial
  /-- GLB_MODE, Table 19.8. -/
  | glbMode
  /-- GLB_SEAL, Table 19.9. -/
  | glbSeal
  /-- GLB_SCRATCH, Table 19.9. -/
  | glbScratch
  /-- RST_CAUSE, Table 17.12. -/
  | rstCause
  /-- RST_STRAP, Table 17.13. -/
  | rstStrap
  /-- RST_DEVICE, Table 17.14. -/
  | rstDevice
  /-- RST_BLK_PORTn, Table 17.15. -/
  | rstBlkPort
  /-- RST_BLK_SLICE, Table 17.15. -/
  | rstBlkSlice
  /-- FLT_EVT_CTRL, Table 14.10. -/
  | fltEvtCtrl
  /-- FLT_CRIT_CAUSE, Table 14.11. -/
  | fltCritCause
  /-- FLT_DEGRADED, Table 14.12. -/
  | fltDegraded
  /-- FLT_INJECT, Table 14.13. -/
  | fltInject
  /-- FLT_THRk, Table 14.14. -/
  | fltThr
  /-- FLT_STATUSn, Table 14.15. -/
  | fltStatus
  /-- FLT_PERMn, Table 14.15. -/
  | fltPerm
  /-- EIC_CTRL, Table 15.6. -/
  | eicCtrl
  /-- EIC_SRC_CFGn, Table 15.7. -/
  | eicSrcCfg
  /-- EIC_PENDn, Table 15.8. -/
  | eicPend
  /-- EIC_PEND_SETn, Table 15.8. -/
  | eicPendSet
  /-- EIC_PEND_CLRn, Table 15.8. -/
  | eicPendClr
  /-- EIC_ACTIVEn, Table 15.8. -/
  | eicActive
  /-- EIC_CLAIM, Table 15.9. -/
  | eicClaim
  /-- EIC_COMPLETE, Table 15.9. -/
  | eicComplete
  /-- EIC_CTX_CTRL, Table 15.10. -/
  | eicCtxCtrl
  /-- EIC_CTX_STATUS, Table 15.11. -/
  | eicCtxStatus
  /-- HIF_RCT_BASE, Table 12.20. -/
  | hifRctBase
  /-- HIF_EVT_ROUTE, Table 12.21. -/
  | hifEvtRoute
  /-- HIF_RING_SEL, Table 12.22. -/
  | hifRingSel
  /-- HIF_RING_STATE, Table 12.22. -/
  | hifRingState
  /-- HIF_LINK_STATUS, Table 12.23. -/
  | hifLinkStatus
  /-- HIF_VF_GROUPn, Table 12.24. -/
  | hifVfGroup
  /-- PRT_CFG, Table 03.9. -/
  | prtCfg
  /-- PRT_DOMAIN, Table 03.10. -/
  | prtDomain
  /-- PRT_HOLD_TIME, Table 03.11. -/
  | prtHoldTime
  /-- PRT_LINK_CFG, Table 03.12. -/
  | prtLinkCfg
  /-- PRT_LANE_POL, Table 03.13. -/
  | prtLanePol
  /-- PRT_STATUS, Table 03.14. -/
  | prtStatus
  /-- PRT_BYP_STAGE, Table 03.15. -/
  | prtBypStage
  /-- PRT_BYP_APPROVE, Table 03.15. -/
  | prtBypApprove
  /-- PRT_BYP_EFFECTIVE, Table 03.15. -/
  | prtBypEffective
  /-- PRT_PTP_STATUS, Table 03.17. -/
  | prtPtpStatus
  /-- PAR_PROG_CTRL, Table 04.10. -/
  | parProgCtrl
  /-- PAR_PROG_CRC, Table 04.11. -/
  | parProgCrc
  /-- PAR_PORT_CFGn, Table 04.12. -/
  | parPortCfg
  /-- PAR_FAIL_ACTr, Table 04.13. -/
  | parFailAct
  /-- PAR_PUNT_RATEr, Table 04.14. -/
  | parPuntRate
  /-- state table of a slice, Table 04.1. -/
  | parState
  /-- extraction RAM of a slice, Table 04.4. -/
  | parExtract
  /-- MATCH word of a transition, Table 04.2. -/
  | parMatch
  /-- MASK word of a transition, Table 04.2. -/
  | parMask
  /-- ACTION word of a transition, Table 04.3. -/
  | parAction
  /-- RSA_GROUP_CFG, Table 05.8. -/
  | rsaGroupCfg
  /-- RSA_TILE_STATUS, Table 05.9. -/
  | rsaTileStatus
  /-- RSA_TILE_LOST, Table 05.10. -/
  | rsaTileLost
  /-- RSA_INTEG_PUNT, Table 05.11. -/
  | rsaIntegPunt
  /-- RSA_TILE_MAPt, Table 05.12. -/
  | rsaTileMap
  /-- RSA_FREE_CELLSt, Table 05.13. -/
  | rsaFreeCells
  /-- RSA_MIR_SESSn, Table 05.14. -/
  | rsaMirSess
  /-- RSA_COPY_RATEn, as Table 04.14. -/
  | rsaCopyRate
  /-- EMT_HASH_SEEDw, Table 06.10. -/
  | emtHashSeed
  /-- EMT_INS_CFG, Table 06.11. -/
  | emtInsCfg
  /-- EMT_LRN_CTRL, Table 06.12. -/
  | emtLrnCtrl
  /-- EMT_LRN_RATE, as Table 04.14. -/
  | emtLrnRate
  /-- EMT_AGE_CTRL, Table 06.13. -/
  | emtAgeCtrl
  /-- EMT_PUNT_CFG, Table 06.14. -/
  | emtPuntCfg
  /-- EMT_RELOC_CNT, Table 06.15. -/
  | emtRelocCnt
  /-- EMT_STATUS, Table 06.16. -/
  | emtStatus
  /-- LPM_STATUS, Table 06.16. -/
  | lpmStatus
  /-- EMT_PROOF_BASE, Table 06.17. -/
  | emtProofBase
  /-- EMT_PROOF_CTRL, Table 06.17. -/
  | emtProofCtrl
  /-- EMT_PROOF_STATUS, Table 06.17. -/
  | emtProofStatus
  /-- EMT_KEYSEL_CTRLp, Table 06.18. -/
  | emtKeyselCtrl
  /-- EMT_KEYSELp, Table 06.19. -/
  | emtKeysel
  /-- SEQ_STATUS, Table 08.20. -/
  | seqStatus
  /-- SEQ_CURSOR, Table 08.20. -/
  | seqCursor
  /-- SEQ_ROM_ID, Table 08.16. -/
  | seqRomId
  /-- SEQ_PATCH_ID, Table 08.16. -/
  | seqPatchId
  /-- SEQ_MCHK, Table 08.18. -/
  | seqMchk
  /-- GEN_STATUS, Table 02.10. -/
  | genStatus
  /-- GEN_WINDOW, Table 02.11. -/
  | genWindow
  /-- GEN_MAX_RES, Table 02.12. -/
  | genMaxRes
  /-- GEN_COMMIT_TIMEOUT, Table 02.13. -/
  | genCommitTimeout
  /-- GEN_MKR_CTRL, Table 02.14. -/
  | genMkrCtrl
  /-- GEN_MKR_ENn, Table 02.15. -/
  | genMkrEn
  /-- GEN_LOG_USED, Table 02.16. -/
  | genLogUsed
  /-- GEN_REFCNTk, Table 02.17. -/
  | genRefcnt
  /-- BUR_PROGn, Table 08.6. -/
  | burProg
  /-- BUR_ROM_ID, Table 08.16. -/
  | burRomId
  /-- BUR_PATCH_ID, Table 08.16. -/
  | burPatchId
  /-- BUR_PORT_CFGp, Table 08.15. -/
  | burPortCfg
  /-- BUR_ENG_MAP, Table 08.17. -/
  | burEngMap
  /-- BUR_MCHK, Table 08.18. -/
  | burMchk
  /-- CIR_DISABLE_MODE, Table 07.10. -/
  | cirDisableMode
  /-- CIR_FILLER, Table 07.11. -/
  | cirFiller
  /-- CIR_CNT_CTRL, Table 07.12. -/
  | cirCntCtrl
  /-- CIR_EVT_CTRL, Table 07.13. -/
  | cirEvtCtrl
  /-- KEK_STATUS, Table 07.14. -/
  | kekStatus
  /-- CIR_POOL_USED, Table 07.15. -/
  | cirPoolUsed
  /-- GLZ_ENC_MAP, Table 07.16. -/
  | glzEncMap
  /-- GLZ_DEC_MAP, Table 07.16. -/
  | glzDecMap
  /-- GLZ_CACHE_STATUS, Table 07.17. -/
  | glzCacheStatus
  /-- FAB_PLANE_MAPk, Table 09.8. -/
  | fabPlaneMap
  /-- FAB_PLANE_STATUS, Table 09.9. -/
  | fabPlaneStatus
  /-- FAB_FC_CFG, Table 09.10. -/
  | fabFcCfg
  /-- FAB_MATCH_CFG, Table 09.11. -/
  | fabMatchCfg
  /-- FAB_RETX_CFG, Table 09.12. -/
  | fabRetxCfg
  /-- FAB_ECN_CFGc, Table 09.13. -/
  | fabEcnCfg
  /-- BPM_IPOOL_CFG, Table 10.8. -/
  | bpmIpoolCfg
  /-- BPM_EPOOL_CFG, Table 10.8. -/
  | bpmEpoolCfg
  /-- BPM_DB_CFG, Table 10.9. -/
  | bpmDbCfg
  /-- BPM_DB_STATUS, Table 10.10. -/
  | bpmDbStatus
  /-- BPM_ICLS_CFGc, Table 10.11. -/
  | bpmIclsCfg
  /-- BPM_IRSVc, Table 10.12. -/
  | bpmIrsv
  /-- BPM_ECLS_CFGc, Table 10.13. -/
  | bpmEclsCfg
  /-- POL_PRECOLOUR, Table 11.9. -/
  | polPrecolour
  /-- POL_DSCP_MAPn, Table 11.10. -/
  | polDscpMap
  /-- EGS_PORT_SHAPEp, Table 11.11. -/
  | egsPortShape
  /-- HBM_RT_CFG, Table 13.8. -/
  | hbmRtCfg
  /-- HBM_REF_CTRL, Table 13.9. -/
  | hbmRefCtrl
  /-- HBM_TRAIN_CTRL, Table 13.10. -/
  | hbmTrainCtrl
  /-- HBM_SCRUB_CTRL, Table 13.11. -/
  | hbmScrubCtrl
  /-- HBM_SCRUB_STATUS, Table 13.11. -/
  | hbmScrubStatus
  /-- MIX_SCRUB_CTRL, Table 13.11. -/
  | mixScrubCtrl
  /-- MIX_SEL, Table 13.13. -/
  | mixSel
  /-- HBM_GROUP_STATUSg, Table 13.12. -/
  | hbmGroupStatus
  /-- MIX_LOGn, Table 13.14. -/
  | mixLog
  /-- PMC_CTRL, Table 18.7. -/
  | pmcCtrl
  /-- PMC_SNAP, Table 18.7. -/
  | pmcSnap
  /-- PMC_SNAP_TIME. -/
  | pmcSnapTime
  /-- PMC_BW_CTRL, Table 18.9. -/
  | pmcBwCtrl
  /-- PMC_SAMP_CTRL, Table 18.10. -/
  | pmcSampCtrl
  /-- PMC_SAMP_RATE, Table 18.10. -/
  | pmcSampRate
  /-- PMC_CNTn. -/
  | pmcCnt
  /-- PMC_CNT_CFGn, Table 18.8. -/
  | pmcCntCfg
  /-- PMC_BW_RX_LAST, RX_PEAK, TX_LAST and TX_PEAK of a port, Table 18.9. -/
  | pmcBw
  /-- user window: shadows, Table 18.6. -/
  | pmcUserShadow
  /-- user window: bandwidth registers, Table 18.6. -/
  | pmcUserBw
  /-- user window: PMC_SNAP as read, Table 18.6. -/
  | pmcUserSnap
  /-- user window: PMC_SNAP_TIME, Table 18.6. -/
  | pmcUserSnapTime
  /-- MBX_CTRL, Table 16.17. -/
  | mbxCtrl
  /-- MBX_STATUS, Table 16.17. -/
  | mbxStatus
  /-- MBX_REQ word, Table 16.1. -/
  | mbxReq
  /-- MBX_RSP word, Table 16.2. -/
  | mbxRsp
  /-- MGT_FW_STATUS, Table 16.20. -/
  | mgtFwStatus
  /-- MGT_FUSE_SHADOW, Table 16.18. -/
  | mgtFuseShadow
  /-- MGT_ASSET, Table 16.18. -/
  | mgtAsset
  /-- MGT_KR_STATUS, Table 16.19. -/
  | mgtKrStatus
  /-- MGT_SENS_CTRL, Table 16.19. -/
  | mgtSensCtrl
  /-- MGT_MOD_BUDGETn, Table 16.21. -/
  | mgtModBudget
  deriving DecidableEq, Repr

/-- Every register name. -/
def allRegs : List RegName :=
  [RegName.glbId, RegName.glbSerial, RegName.glbMode, RegName.glbSeal, RegName.glbScratch, RegName.rstCause] ++
  [RegName.rstStrap, RegName.rstDevice, RegName.rstBlkPort, RegName.rstBlkSlice, RegName.fltEvtCtrl, RegName.fltCritCause] ++
  [RegName.fltDegraded, RegName.fltInject, RegName.fltThr, RegName.fltStatus, RegName.fltPerm, RegName.eicCtrl] ++
  [RegName.eicSrcCfg, RegName.eicPend, RegName.eicPendSet, RegName.eicPendClr, RegName.eicActive, RegName.eicClaim] ++
  [RegName.eicComplete, RegName.eicCtxCtrl, RegName.eicCtxStatus, RegName.hifRctBase, RegName.hifEvtRoute, RegName.hifRingSel] ++
  [RegName.hifRingState, RegName.hifLinkStatus, RegName.hifVfGroup, RegName.prtCfg, RegName.prtDomain, RegName.prtHoldTime] ++
  [RegName.prtLinkCfg, RegName.prtLanePol, RegName.prtStatus, RegName.prtBypStage, RegName.prtBypApprove, RegName.prtBypEffective] ++
  [RegName.prtPtpStatus, RegName.parProgCtrl, RegName.parProgCrc, RegName.parPortCfg, RegName.parFailAct, RegName.parPuntRate] ++
  [RegName.parState, RegName.parExtract, RegName.parMatch, RegName.parMask, RegName.parAction, RegName.rsaGroupCfg] ++
  [RegName.rsaTileStatus, RegName.rsaTileLost, RegName.rsaIntegPunt, RegName.rsaTileMap, RegName.rsaFreeCells, RegName.rsaMirSess] ++
  [RegName.rsaCopyRate, RegName.emtHashSeed, RegName.emtInsCfg, RegName.emtLrnCtrl, RegName.emtLrnRate, RegName.emtAgeCtrl] ++
  [RegName.emtPuntCfg, RegName.emtRelocCnt, RegName.emtStatus, RegName.lpmStatus, RegName.emtProofBase, RegName.emtProofCtrl] ++
  [RegName.emtProofStatus, RegName.emtKeyselCtrl, RegName.emtKeysel, RegName.seqStatus, RegName.seqCursor, RegName.seqRomId] ++
  [RegName.seqPatchId, RegName.seqMchk, RegName.genStatus, RegName.genWindow, RegName.genMaxRes, RegName.genCommitTimeout] ++
  [RegName.genMkrCtrl, RegName.genMkrEn, RegName.genLogUsed, RegName.genRefcnt, RegName.burProg, RegName.burRomId] ++
  [RegName.burPatchId, RegName.burPortCfg, RegName.burEngMap, RegName.burMchk, RegName.cirDisableMode, RegName.cirFiller] ++
  [RegName.cirCntCtrl, RegName.cirEvtCtrl, RegName.kekStatus, RegName.cirPoolUsed, RegName.glzEncMap, RegName.glzDecMap] ++
  [RegName.glzCacheStatus, RegName.fabPlaneMap, RegName.fabPlaneStatus, RegName.fabFcCfg, RegName.fabMatchCfg, RegName.fabRetxCfg] ++
  [RegName.fabEcnCfg, RegName.bpmIpoolCfg, RegName.bpmEpoolCfg, RegName.bpmDbCfg, RegName.bpmDbStatus, RegName.bpmIclsCfg] ++
  [RegName.bpmIrsv, RegName.bpmEclsCfg, RegName.polPrecolour, RegName.polDscpMap, RegName.egsPortShape, RegName.hbmRtCfg] ++
  [RegName.hbmRefCtrl, RegName.hbmTrainCtrl, RegName.hbmScrubCtrl, RegName.hbmScrubStatus, RegName.mixScrubCtrl, RegName.mixSel] ++
  [RegName.hbmGroupStatus, RegName.mixLog, RegName.pmcCtrl, RegName.pmcSnap, RegName.pmcSnapTime, RegName.pmcBwCtrl] ++
  [RegName.pmcSampCtrl, RegName.pmcSampRate, RegName.pmcCnt, RegName.pmcCntCfg, RegName.pmcBw, RegName.pmcUserShadow] ++
  [RegName.pmcUserBw, RegName.pmcUserSnap, RegName.pmcUserSnapTime, RegName.mbxCtrl, RegName.mbxStatus, RegName.mbxReq] ++
  [RegName.mbxRsp, RegName.mgtFwStatus, RegName.mgtFuseShadow, RegName.mgtAsset, RegName.mgtKrStatus, RegName.mgtSensCtrl] ++
  [RegName.mgtModBudget]

/-- A register's place, access, reset value and fields, as its chapter's tables give them. -/
def RegName.info : RegName → RegInfo
  | .glbId => ⟨0x0000000, 4, 4, 1, 0x0, 1, 0x0, [0, 1, 2], [], .anyMode, false, false, 0x71280200,
      [ro 31 16, ro 11 8, ro 7 0]⟩
  | .glbSerial => ⟨0x0000008, 8, 4, 1, 0x0, 1, 0x0, [0, 1, 2], [], .anyMode, false, false, 0,
      [ro 63 0]⟩
  | .glbMode => ⟨0x0000010, 4, 4, 1, 0x0, 1, 0x0, [0, 1, 2], [], .anyMode, false, false, 1,
      [ro 8 8, ro 2 0]⟩
  | .glbSeal => ⟨0x0000018, 4, 4, 1, 0x0, 1, 0x0, [0, 1, 2], [0], .anyMode, false, false, 0,
      [w1s 0 0]⟩
  | .glbScratch => ⟨0x0000020, 4, 4, 1, 0x0, 1, 0x0, [0], [0], .anyMode, false, false, 0,
      [rw 31 0]⟩
  | .rstCause => ⟨0x0100000, 4, 1, 1, 0x0, 1, 0x0, [0, 2], [0], .anyMode, false, false, 0x10,
      [ro 23 16, ro 4 4, ro 3 0]⟩
  | .rstStrap => ⟨0x0100004, 4, 2, 1, 0x0, 1, 0x0, [0, 2], [0], .anyMode, false, false, 0,
      [ro 1 1, ro 0 0]⟩
  | .rstDevice => ⟨0x0100008, 4, 1, 1, 0x0, 1, 0x0, [0], [0], .anyMode, false, false, 0,
      [wo 7 0]⟩
  | .rstBlkPort => ⟨0x0100010, 4, 1, 1, 0x0, 4, 0x4, [0], [0], .anyMode, false, false, 0,
      [w1s 31 0]⟩
  | .rstBlkSlice => ⟨0x0100020, 4, 1, 1, 0x0, 1, 0x0, [0], [0], .anyMode, false, false, 0,
      [w1s 15 0]⟩
  | .fltEvtCtrl => ⟨0x0200000, 8, 1, 1, 0x0, 1, 0x0, [0], [0], .anyMode, false, false, 100 * 2 ^ 48,
      [rw 63 48, rw 44 44, rwIn 43 32 3840 4095, rw 12 12, rw 11 0]⟩
  | .fltCritCause => ⟨0x0200008, 4, 1, 1, 0x0, 1, 0x0, [0, 1, 2], [0], .anyMode, false, false, 0,
      [ro 31 31, ro 23 16, ro 10 0]⟩
  | .fltDegraded => ⟨0x020000C, 4, 1, 1, 0x0, 1, 0x0, [0, 1, 2], [0], .anyMode, false, false, 0,
      [ro 8 0]⟩
  | .fltInject => ⟨0x0200010, 8, 1, 1, 0x0, 1, 0x0, [0], [0], .factoryTest, false, false, 2 ^ 48,
      [rw 63 63, rwIn 62 60 1 3, rwIn 51 48 1 15, rw 42 32, rw 31 0]⟩
  | .fltThr => ⟨0x0200040, 4, 1, 1, 0x0, 9, 0x4, [0], [0], .configOrForward, false, false, 0x0003000A,
      [rwIn 19 16 1 15, rwIn 15 0 1 65535]⟩
  | .fltStatus => ⟨0x0200100, 4, 1, 1, 0x0, 40, 0x4, [0, 2], [0], .anyMode, false, false, 0,
      [w1c 31 0]⟩
  | .fltPerm => ⟨0x0200200, 4, 1, 1, 0x0, 40, 0x4, [0, 2], [0], .anyMode, false, false, 0,
      [ro 31 0]⟩
  | .eicCtrl => ⟨0x0300000, 4, 1, 1, 0x0, 1, 0x0, [0], [0], .anyMode, false, false, 0,
      [rw 16 16, rw 12 12, rw 11 0]⟩
  | .eicSrcCfg => ⟨0x0301000, 4, 1, 1, 0x0, 2048, 0x4, [0], [0], .anyMode, false, false, 0x400,
      [rw 31 31, ro 30 30, ro 29 29, rw 28 28, rw 27 24, rwTo 22 16 65, rw 15 8]⟩
  | .eicPend => ⟨0x0303000, 4, 1, 1, 0x0, 64, 0x4, [0], [0], .anyMode, false, false, 0,
      [ro 31 0]⟩
  | .eicPendSet => ⟨0x0303100, 4, 1, 1, 0x0, 64, 0x4, [0], [0], .anyMode, false, false, 0,
      [w1s 31 0]⟩
  | .eicPendClr => ⟨0x0303200, 4, 1, 1, 0x0, 64, 0x4, [0], [0], .anyMode, false, false, 0,
      [w1c 31 0]⟩
  | .eicActive => ⟨0x0303300, 4, 1, 1, 0x0, 64, 0x4, [0], [0], .anyMode, false, false, 0,
      [ro 31 0]⟩
  | .eicClaim => ⟨0x0308000, 4, 1, 1, 0x0, 66, 0x40, [0, 1, 2], [0], .anyMode, false, false, 0,
      [ro 10 0]⟩
  | .eicComplete => ⟨0x0308004, 4, 1, 1, 0x0, 66, 0x40, [0, 1, 2], [0, 1, 2], .anyMode, false, false, 0,
      [wo 10 0]⟩
  | .eicCtxCtrl => ⟨0x0308008, 4, 1, 1, 0x0, 66, 0x40, [0, 1, 2], [0, 1, 2], .anyMode, false, false, 0,
      [rw 31 31, rw 30 30, rw 29 29, rwTo 21 16 32, rw 9 8, rw 3 0]⟩
  | .eicCtxStatus => ⟨0x030800C, 4, 1, 1, 0x0, 66, 0x40, [0, 1, 2], [0], .anyMode, false, false, 0,
      [ro 31 31, ro 30 30, ro 29 29, ro 27 24, ro 10 0]⟩
  | .hifRctBase => ⟨0x0400000, 8, 4, 1, 0x0, 1, 0x0, [0, 1, 2], [0, 1], .anyMode, false, true, 0,
      [rw 63 12]⟩
  | .hifEvtRoute => ⟨0x0400008, 4, 4, 1, 0x0, 1, 0x0, [0, 1, 2], [0, 1], .anyMode, false, true, 0,
      [rw 31 31, rw 27 16, rw 15 15, rw 11 0]⟩
  | .hifRingSel => ⟨0x0400010, 4, 4, 1, 0x0, 1, 0x0, [0, 1, 2], [0, 1], .anyMode, false, true, 0,
      [rw 11 0]⟩
  | .hifRingState => ⟨0x0400020, 16, 4, 1, 0x0, 1, 0x0, [0, 1, 2], [0, 1], .anyMode, false, true, 0,
      [ro 75 75, ro 74 74, ro 73 73, ro 71 64, ro 63 32, ro 31 0]⟩
  | .hifLinkStatus => ⟨0x0400030, 4, 4, 1, 0x0, 1, 0x0, [0], [0], .anyMode, false, false, 0,
      [ro 16 16, ro 8 4, ro 3 0]⟩
  | .hifVfGroup => ⟨0x0400100, 4, 4, 1, 0x0, 56, 0x4, [0], [0], .anyMode, false, false, 0,
      [rwTo 5 0 32, rwTo 13 8 32, rwTo 21 16 32, rwTo 29 24 32]⟩
  | .prtCfg => ⟨0x0800000, 4, 8, 128, 0x1000, 1, 0x0, [0], [0], .anyMode, false, false, 0,
      [rw 9 9, rw 8 8, rwIn 7 6 0 1, rwIn 5 4 0 2, rwIn 3 1 0 5, rw 0 0]⟩
  | .prtDomain => ⟨0x0800004, 4, 8, 128, 0x1000, 1, 0x0, [0], [0], .anyMode, false, false, 1,
      [ro 1 1, rw 0 0]⟩
  | .prtHoldTime => ⟨0x0800008, 4, 8, 128, 0x1000, 1, 0x0, [0], [0], .anyMode, false, false, 50,
      [rwTo 9 0 1000]⟩
  | .prtLinkCfg => ⟨0x080000C, 4, 8, 128, 0x1000, 1, 0x0, [0], [0], .anyMode, false, false, 0x2000A,
      [rw 23 16, rwTo 9 0 1000]⟩
  | .prtLanePol => ⟨0x0800010, 4, 8, 128, 0x1000, 1, 0x0, [0], [0], .anyMode, false, false, 0,
      [rw 11 8, rw 3 0]⟩
  | .prtStatus => ⟨0x0800020, 4, 8, 128, 0x1000, 1, 0x0, [0, 2], [0], .anyMode, false, false, 0,
      [ro 31 16, ro 4 4, ro 3 3, ro 2 0]⟩
  | .prtBypStage => ⟨0x0880000, 4, 8, 1, 0x0, 1, 0x0, [0], [0], .anyMode, false, false, 0,
      [rw 15 0]⟩
  | .prtBypApprove => ⟨0x0880004, 4, 8, 1, 0x0, 1, 0x0, [0, 1], [1], .anyMode, false, false, 0,
      [rw 15 0]⟩
  | .prtBypEffective => ⟨0x0880008, 4, 8, 1, 0x0, 1, 0x0, [0, 1, 2], [0], .anyMode, false, false, 0,
      [ro 15 0]⟩
  | .prtPtpStatus => ⟨0x0880010, 4, 8, 1, 0x0, 1, 0x0, [0], [0], .anyMode, false, false, 0,
      [ro 1 1, ro 0 0]⟩
  | .parProgCtrl => ⟨0x1000000, 4, 8, 16, 0x10000, 1, 0x0, [0], [0], .anyMode, false, false, 0,
      [rw 1 1, rw 0 0]⟩
  | .parProgCrc => ⟨0x1000004, 4, 8, 16, 0x10000, 1, 0x0, [0], [0], .anyMode, false, false, 0,
      [ro 31 0]⟩
  | .parPortCfg => ⟨0x1000100, 4, 8, 16, 0x10000, 8, 0x4, [0], [0], .configOrTest, false, false, 0x000B0001,
      [rwTo 31 24 251, rw 23 21, rw 20 20, rwTo 19 18 2, rw 17 16, rw 11 0]⟩
  | .parFailAct => ⟨0x1000200, 4, 8, 16, 0x10000, 32, 0x4, [0], [0], .anyMode, false, false, 0,
      [rw 27 16, rwTo 1 0 2]⟩
  | .parPuntRate => ⟨0x1000300, 4, 8, 16, 0x10000, 32, 0x4, [0], [0], .anyMode, false, false, 0x010003E7,
      [rw 27 20, rw 19 0]⟩
  | .parState => ⟨0x1000800, 8, 8, 16, 0x10000, 256, 0x8, [0], [0], .configOrTest, false, false, 0,
      [rw 63 58, rw 57 52, rw 51 51, rw 50 50, rw 49 49, rw 47 42, rw 41 34, rw 33 31, rw 30 29, rw 28 21]⟩
  | .parExtract => ⟨0x1002000, 4, 8, 16, 0x10000, 2048, 0x4, [0], [0], .configOrTest, false, false, 0,
      [rw 31 31, rw 30 23, rw 22 19, rw 18 12]⟩
  | .parMatch => ⟨0x1008000, 8, 8, 16, 0x10000, 1024, 0x20, [0], [0], .configOrTest, false, false, 0,
      [rw 63 63, rw 39 32, rw 31 0]⟩
  | .parMask => ⟨0x1008008, 8, 8, 16, 0x10000, 1024, 0x20, [0], [0], .configOrTest, false, false, 0,
      [rw 31 0]⟩
  | .parAction => ⟨0x1008010, 8, 8, 16, 0x10000, 1024, 0x20, [0], [0], .configOrTest, false, false, 0,
      [rw 58 54, rw 53 52, rw 51 44, rw 43 43, rw 42 38, rw 37 37, rw 36 33, rw 32 32, rw 31 28, rw 27 17, rw 16 16, rw 15 8, rw 7 0]⟩
  | .rsaGroupCfg => ⟨0x1400000, 4, 6, 4, 0x40000, 1, 0x0, [0], [0], .config, true, false, 0,
      [rw 31 0]⟩
  | .rsaTileStatus => ⟨0x1400008, 4, 6, 4, 0x40000, 1, 0x0, [0, 2], [0], .anyMode, false, false, 0x4007F,
      [ro 31 24, ro 18 16, ro 7 7, ro 6 0]⟩
  | .rsaTileLost => ⟨0x1400010, 8, 6, 4, 0x40000, 1, 0x0, [0, 2], [0], .anyMode, false, false, 0,
      [ro 63 0]⟩
  | .rsaIntegPunt => ⟨0x1400020, 4, 6, 4, 0x40000, 1, 0x0, [0], [0], .config, true, false, 0,
      [rw 27 16, rw 0 0]⟩
  | .rsaTileMap => ⟨0x1400100, 4, 6, 4, 0x40000, 64, 0x4, [0], [0], .anyMode, false, false, 0,
      [ro 7 7, ro 6 0]⟩
  | .rsaFreeCells => ⟨0x1400200, 4, 6, 4, 0x40000, 64, 0x4, [0], [0], .anyMode, false, false, 1024,
      [ro 10 0]⟩
  | .rsaMirSess => ⟨0x1400300, 8, 6, 4, 0x40000, 16, 0x8, [0], [0], .config, true, false, 0,
      [rw 63 56, rw 55 40, rw 39 39, rw 38 38, rw 37 34, rw 33 31, rw 30 30, rw 6 0]⟩
  | .rsaCopyRate => ⟨0x1400400, 4, 6, 4, 0x40000, 16, 0x4, [0], [0], .config, true, false, 0x010003E7,
      [rw 27 20, rw 19 0]⟩
  | .emtHashSeed => ⟨0x1800000, 4, 6, 1, 0x0, 2, 0x4, [0], [0], .config, false, false, 0xFFFFFFFF,
      [rw 31 0]⟩
  | .emtInsCfg => ⟨0x1800008, 4, 6, 1, 0x0, 1, 0x0, [0], [0], .anyMode, false, false, 4,
      [rwTo 5 4 2, rwIn 2 0 1 6]⟩
  | .emtLrnCtrl => ⟨0x180000C, 4, 6, 1, 0x0, 1, 0x0, [0], [0], .anyMode, false, false, 0xA00,
      [rw 27 16, rw 15 8, rw 2 2, rwTo 1 0 2]⟩
  | .emtLrnRate => ⟨0x1800010, 4, 6, 1, 0x0, 1, 0x0, [0], [0], .anyMode, false, false, 64 * 2 ^ 20,
      [rw 27 20, rw 19 0]⟩
  | .emtAgeCtrl => ⟨0x1800014, 4, 6, 1, 0x0, 1, 0x0, [0], [0], .anyMode, false, false, 150,
      [rw 16 16, rwIn 15 0 1 65535]⟩
  | .emtPuntCfg => ⟨0x1800018, 4, 6, 1, 0x0, 1, 0x0, [0], [0], .anyMode, false, false, 0,
      [rw 27 16, rw 0 0]⟩
  | .emtRelocCnt => ⟨0x180001C, 4, 6, 1, 0x0, 1, 0x0, [0, 2], [0], .anyMode, false, false, 0,
      [ro 31 0]⟩
  | .emtStatus => ⟨0x1800020, 8, 6, 1, 0x0, 1, 0x0, [0, 2], [0], .anyMode, false, false, 0,
      [ro 48 48, ro 47 32, ro 20 0]⟩
  | .lpmStatus => ⟨0x1800028, 8, 6, 1, 0x0, 1, 0x0, [0, 2], [0], .anyMode, false, false, 0,
      [ro 50 32, ro 20 0]⟩
  | .emtProofBase => ⟨0x1800030, 8, 6, 1, 0x0, 1, 0x0, [0], [0], .anyMode, false, false, 0,
      [rw 63 21]⟩
  | .emtProofCtrl => ⟨0x1800038, 4, 6, 1, 0x0, 1, 0x0, [0], [0], .anyMode, false, false, 60 * 2 ^ 16,
      [rwIn 31 16 1 65535, rw 1 1, rw 0 0]⟩
  | .emtProofStatus => ⟨0x1800040, 4, 6, 1, 0x0, 1, 0x0, [0, 2], [0], .anyMode, false, false, 0,
      [ro 31 16, ro 15 8, ro 2 2, ro 1 1, ro 0 0]⟩
  | .emtKeyselCtrl => ⟨0x1801000, 8, 6, 1, 0x0, 32, 0x20, [0], [0], .configOrTest, false, false, 255 * 2 ^ 16,
      [rw 35 24, rwNot 23 16 159 254, rw 15 8, rwTo 7 6 2, rwTo 5 4 2, rw 3 0]⟩
  | .emtKeysel => ⟨0x1801010, 16, 6, 1, 0x0, 32, 0x20, [0], [0], .configOrTest, false, false, 2 ^ 128 - 1,
      [rwNot 7 0 160 254, rwNot 15 8 160 254, rwNot 23 16 160 254, rwNot 31 24 160 254, rwNot 39 32 160 254, rwNot 47 40 160 254, rwNot 55 48 160 254, rwNot 63 56 160 254, rwNot 71 64 160 254, rwNot 79 72 160 254, rwNot 87 80 160 254, rwNot 95 88 160 254, rwNot 103 96 160 254, rwNot 111 104 160 254, rwNot 119 112 160 254, rwNot 127 120 160 254]⟩
  | .seqStatus => ⟨0x1C00000, 4, 4, 1, 0x0, 1, 0x0, [0, 2], [0], .anyMode, false, false, 0,
      [ro 31 31, ro 25 20, ro 18 16, ro 12 8]⟩
  | .seqCursor => ⟨0x1C00008, 8, 4, 1, 0x0, 1, 0x0, [0, 2], [0], .anyMode, false, false, 0,
      [ro 63 63, ro 59 48, ro 36 32, ro 31 0]⟩
  | .seqRomId => ⟨0x1C00010, 4, 4, 1, 0x0, 1, 0x0, [0, 2], [0], .anyMode, false, false, 0x0B000001,
      [ro 31 0]⟩
  | .seqPatchId => ⟨0x1C00014, 4, 4, 1, 0x0, 1, 0x0, [0, 2], [0], .anyMode, false, false, 0,
      [ro 31 0]⟩
  | .seqMchk => ⟨0x1C00018, 4, 4, 1, 0x0, 1, 0x0, [0, 2], [0], .anyMode, false, false, 0,
      [ro 31 28, ro 27 27, ro 23 12, ro 4 3, ro 2 0]⟩
  | .genStatus => ⟨0x1C20000, 4, 4, 1, 0x0, 1, 0x0, [0], [0], .anyMode, false, false, 0x10000,
      [ro 31 16, ro 15 0]⟩
  | .genWindow => ⟨0x1C20004, 4, 4, 1, 0x0, 1, 0x0, [0], [0], .anyMode, false, false, 0x20000,
      [ro 27 27, ro 26 25, ro 24 24, ro 20 16, ro 15 0]⟩
  | .genMaxRes => ⟨0x1C20008, 4, 4, 1, 0x0, 1, 0x0, [0], [0], .anyMode, false, false, 250,
      [rwIn 10 0 1 2000]⟩
  | .genCommitTimeout => ⟨0x1C2000C, 4, 4, 1, 0x0, 1, 0x0, [0], [0], .anyMode, false, false, 500,
      [rwTo 13 0 10000]⟩
  | .genMkrCtrl => ⟨0x1C20010, 4, 4, 1, 0x0, 1, 0x0, [0], [0], .anyMode, false, false, 0x064188B5,
      [rwIn 31 20 1 4000, rw 16 16, rw 15 0]⟩
  | .genMkrEn => ⟨0x1C20020, 4, 4, 1, 0x0, 4, 0x4, [0], [0], .anyMode, false, false, 0,
      [rw 31 0]⟩
  | .genLogUsed => ⟨0x1C20040, 4, 4, 1, 0x0, 1, 0x0, [0], [0], .anyMode, false, false, 0,
      [ro 20 0]⟩
  | .genRefcnt => ⟨0x1C20100, 4, 4, 1, 0x0, 16, 0x4, [0], [0], .anyMode, false, false, 0,
      [ro 31 0]⟩
  | .burProg => ⟨0x2000000, 4, 8, 1, 0x0, 1024, 0x4, [0], [0], .config, false, false, 0,
      [rw 31 31, rwTo 30 28 3, rw 27 26, rw 25 25, rw 24 24, rw 23 23]⟩
  | .burRomId => ⟨0x2001000, 4, 8, 1, 0x0, 1, 0x0, [0, 2], [0], .anyMode, false, false, 0x0B000001,
      [ro 31 0]⟩
  | .burPatchId => ⟨0x2001004, 4, 8, 1, 0x0, 1, 0x0, [0, 2], [0], .anyMode, false, false, 0,
      [ro 31 0]⟩
  | .burPortCfg => ⟨0x2001100, 8, 8, 1, 0x0, 128, 0x8, [0], [0], .anyMode, false, false, 0x8100000100000000,
      [rw 63 32, rw 9 0]⟩
  | .burEngMap => ⟨0x2002000, 8, 8, 16, 0x100, 1, 0x0, [0, 2], [0], .anyMode, false, false, 0,
      [ro 28 24, ro 20 16, ro 15 12, ro 11 8, ro 7 4, ro 3 0]⟩
  | .burMchk => ⟨0x2002008, 4, 8, 16, 0x100, 1, 0x0, [0, 2], [0], .anyMode, false, false, 0,
      [ro 31 28, ro 27 27, ro 23 12, ro 4 3, ro 2 0]⟩
  | .cirDisableMode => ⟨0x2400000, 4, 8, 1, 0x0, 1, 0x0, [0], [0], .anyMode, false, false, 0,
      [rw 27 16, rw 0 0]⟩
  | .cirFiller => ⟨0x2400004, 4, 8, 1, 0x0, 1, 0x0, [0], [0], .config, false, false, 0x88B6,
      [rw 15 0]⟩
  | .cirCntCtrl => ⟨0x2400008, 4, 8, 1, 0x0, 1, 0x0, [0], [0], .config, false, false, 0,
      [rw 31 31, rwMul4 19 0 786432]⟩
  | .cirEvtCtrl => ⟨0x240000C, 4, 8, 1, 0x0, 1, 0x0, [0, 1], [1], .anyMode, false, false, 1000,
      [rw 27 16, rw 15 0]⟩
  | .kekStatus => ⟨0x2400010, 4, 8, 1, 0x0, 1, 0x0, [0, 1, 2], [0], .anyMode, false, false, 0,
      [ro 31 8, ro 7 4, ro 3 0]⟩
  | .cirPoolUsed => ⟨0x2400014, 4, 8, 1, 0x0, 1, 0x0, [0, 2], [0], .anyMode, false, false, 0,
      [ro 16 0]⟩
  | .glzEncMap => ⟨0x2401000, 8, 8, 16, 0x100, 1, 0x0, [0, 2], [0], .anyMode, false, false, 0,
      [ro 63 52, ro 51 40, ro 39 0]⟩
  | .glzDecMap => ⟨0x2401008, 8, 8, 16, 0x100, 1, 0x0, [0, 2], [0], .anyMode, false, false, 0,
      [ro 63 52, ro 51 40, ro 39 0]⟩
  | .glzCacheStatus => ⟨0x2401010, 8, 8, 16, 0x100, 1, 0x0, [0, 2], [0], .anyMode, false, false, 0,
      [ro 47 32, ro 27 16, ro 11 0]⟩
  | .fabPlaneMap => ⟨0x2800000, 4, 7, 1, 0x0, 16, 0x4, [0, 2], [0], .anyMode, false, false, 0,
      [ro 4 0]⟩
  | .fabPlaneStatus => ⟨0x2800040, 4, 7, 1, 0x0, 1, 0x0, [0, 2], [0], .anyMode, false, false, 0,
      [ro 31 31, ro 30 26, ro 25 22, ro 21 18, ro 17 0]⟩
  | .fabFcCfg => ⟨0x2800044, 4, 7, 1, 0x0, 1, 0x0, [0], [0], .config, false, false, 96 * 2 ^ 16 + 64,
      [rwIn 31 16 1 2048, rw 15 0]⟩
  | .fabMatchCfg => ⟨0x2800048, 4, 7, 1, 0x0, 1, 0x0, [0], [0], .config, false, false, 1024,
      [rwIn 15 0 16 65535]⟩
  | .fabRetxCfg => ⟨0x280004C, 4, 7, 1, 0x0, 1, 0x0, [0], [0], .config, false, false, 64 * 2 ^ 8 + 8,
      [rwIn 19 8 32 4095, rwIn 7 0 1 255]⟩
  | .fabEcnCfg => ⟨0x2800060, 4, 7, 1, 0x0, 8, 0x4, [0], [0], .anyMode, false, false, 256,
      [rw 31 31, rw 19 0]⟩
  | .bpmIpoolCfg => ⟨0x2C00000, 8, 8, 1, 0x0, 1, 0x0, [0], [0], .config, false, false, (74 * 2 ^ 48 + 130 * 2 ^ 32 + 768 * 2 ^ 16 + 2048),
      [rw 63 48, rw 47 32, rw 31 16, rw 15 0]⟩
  | .bpmEpoolCfg => ⟨0x2C00008, 8, 8, 1, 0x0, 1, 0x0, [0], [0], .config, false, false, (32 * 2 ^ 48 + 32 * 2 ^ 32 + 256 * 2 ^ 16 + 1024),
      [rw 63 48, rw 47 32, rw 31 16, rw 15 0]⟩
  | .bpmDbCfg => ⟨0x2C00010, 4, 8, 1, 0x0, 1, 0x0, [0], [0], .config, false, false, 32,
      [rwTo 5 0 32]⟩
  | .bpmDbStatus => ⟨0x2C00018, 8, 8, 1, 0x0, 1, 0x0, [0, 2], [0], .anyMode, false, false, 0,
      [ro 63 48, ro 45 40, ro 39 24, ro 23 0]⟩
  | .bpmIclsCfg => ⟨0x2C00100, 8, 8, 1, 0x0, 8, 0x8, [0], [0], .anyMode, false, false, (1024 * 2 ^ 40 + 2 ^ 37 + 2 ^ 36 + 512 * 2 ^ 24 + 256 * 2 ^ 12 + 128),
      [rwTo 55 40 32768, rw 37 37, rw 36 36, rwTo 35 24 2688, rwIn 23 12 1 2688, rw 11 0]⟩
  | .bpmIrsv => ⟨0x2C00200, 4, 8, 1, 0x0, 8, 0x4, [0], [0], .config, false, false, 0,
      [rw 31 24, rw 23 16, rw 15 8, rw 7 0]⟩
  | .bpmEclsCfg => ⟨0x2C00240, 8, 8, 1, 0x0, 8, 0x8, [0], [0], .anyMode, false, false, (2 ^ 44 + 128 * 2 ^ 32),
      [rw 44 44, rwTo 43 32 1024, rw 31 24, rw 23 16, rw 15 8, rw 7 0]⟩
  | .polPrecolour => ⟨0x3000000, 4, 6, 1, 0x0, 1, 0x0, [0], [0], .config, false, false, 41 * 2 ^ 8,
      [rwTo 15 8 159, rwTo 1 0 2]⟩
  | .polDscpMap => ⟨0x3000010, 4, 6, 1, 0x0, 4, 0x4, [0], [0], .config, false, false, 0,
      [rwTo 1 0 2, rwTo 3 2 2, rwTo 5 4 2, rwTo 7 6 2, rwTo 9 8 2, rwTo 11 10 2, rwTo 13 12 2, rwTo 15 14 2, rwTo 17 16 2, rwTo 19 18 2, rwTo 21 20 2, rwTo 23 22 2, rwTo 25 24 2, rwTo 27 26 2, rwTo 29 28 2, rwTo 31 30 2]⟩
  | .egsPortShape => ⟨0x3001000, 8, 8, 1, 0x0, 128, 0x8, [0], [0], .anyMode, false, false, 16384 * 2 ^ 8,
      [rwTo 63 32 400000000, rw 31 8, rw 0 0]⟩
  | .hbmRtCfg => ⟨0x3800000, 4, 5, 1, 0x0, 1, 0x0, [0], [0], .config, false, false, 48 * 2 ^ 16 + 64,
      [rwIn 21 16 8 63, rwIn 11 0 1 2688]⟩
  | .hbmRefCtrl => ⟨0x3800004, 4, 5, 1, 0x0, 1, 0x0, [0], [0], .config, false, false, 4,
      [rw 3 0]⟩
  | .hbmTrainCtrl => ⟨0x3800008, 4, 5, 1, 0x0, 1, 0x0, [0], [0], .config, false, false, 10 * 2 ^ 16 + 600,
      [rwIn 23 16 1 50, rwIn 15 0 1 65535]⟩
  | .hbmScrubCtrl => ⟨0x380000C, 4, 5, 1, 0x0, 1, 0x0, [0], [0], .anyMode, false, false, 24 * 2 ^ 8 + 1,
      [rwIn 15 8 1 255, rw 0 0]⟩
  | .hbmScrubStatus => ⟨0x3800010, 4, 5, 1, 0x0, 1, 0x0, [0, 2], [0], .anyMode, false, false, 0,
      [ro 31 31, ro 30 30, ro 15 0]⟩
  | .mixScrubCtrl => ⟨0x3800014, 4, 5, 1, 0x0, 1, 0x0, [0], [0], .anyMode, false, false, 1000,
      [rwIn 15 0 10 65535]⟩
  | .mixSel => ⟨0x3800018, 4, 5, 1, 0x0, 1, 0x0, [0, 2], [0], .anyMode, false, false, 0,
      [rw 11 0]⟩
  | .hbmGroupStatus => ⟨0x3800080, 4, 5, 1, 0x0, 16, 0x4, [0, 2], [0], .anyMode, false, false, 0,
      [ro 31 29, ro 28 28, ro 27 25, ro 23 21, ro 20 18, ro 16 0]⟩
  | .mixLog => ⟨0x3800100, 8, 5, 1, 0x0, 16, 0x8, [0, 2], [0], .anyMode, false, false, 0,
      [ro 63 63, ro 62 61, ro 60 57, ro 47 40, ro 39 0]⟩
  | .pmcCtrl => ⟨0x3C00000, 4, 1, 1, 0x0, 1, 0x0, [0, 2], [0], .anyMode, false, false, 1,
      [rw 1 1, rw 0 0]⟩
  | .pmcSnap => ⟨0x3C00008, 4, 1, 1, 0x0, 1, 0x0, [0, 2], [0], .anyMode, false, false, 0,
      [w1s 31 31, ro 30 0]⟩
  | .pmcSnapTime => ⟨0x3C00010, 8, 1, 1, 0x0, 1, 0x0, [0, 2], [0], .anyMode, false, false, 0,
      [ro 63 0]⟩
  | .pmcBwCtrl => ⟨0x3C00020, 4, 1, 1, 0x0, 1, 0x0, [0, 2], [0], .anyMode, false, false, 1000,
      [w1s 31 31, rwIn 19 0 1 1000000]⟩
  | .pmcSampCtrl => ⟨0x3C00030, 8, 1, 1, 0x0, 1, 0x0, [0, 2], [0], .anyMode, false, false, 0x5EED000100000010,
      [rwIn 63 32 1 4294967295, rw 28 28, rw 27 16, rwIn 4 0 4 24]⟩
  | .pmcSampRate => ⟨0x3C00038, 4, 1, 1, 0x0, 1, 0x0, [0, 2], [0], .anyMode, false, false, 16 * 2 ^ 20,
      [rw 27 20, rw 19 0]⟩
  | .pmcCnt => ⟨0x3C10000, 8, 1, 1, 0x0, 4096, 0x8, [0, 2], [0], .anyMode, false, false, 0,
      [rw 47 0]⟩
  | .pmcCntCfg => ⟨0x3C20000, 4, 1, 1, 0x0, 4096, 0x4, [0], [0], .anyMode, false, false, 0,
      [rw 31 31, rw 30 30, w1c 29 29, rw 27 24, rw 23 16, rw 7 0]⟩
  | .pmcBw => ⟨0x3C30000, 8, 1, 128, 0x20, 4, 0x8, [0, 2], [0], .anyMode, false, false, 0,
      [ro 39 0]⟩
  | .pmcUserShadow => ⟨0x3D00000, 8, 1, 1, 0x0, 4096, 0x8, [0, 2], [0], .anyMode, false, false, 0,
      [ro 63 0]⟩
  | .pmcUserBw => ⟨0x3D08000, 8, 1, 128, 0x20, 4, 0x8, [0, 2], [0], .anyMode, false, false, 0,
      [ro 39 0]⟩
  | .pmcUserSnap => ⟨0x3D09000, 4, 1, 1, 0x0, 1, 0x0, [0, 2], [0], .anyMode, false, false, 0,
      [ro 31 31, ro 30 0]⟩
  | .pmcUserSnapTime => ⟨0x3D09008, 8, 1, 1, 0x0, 1, 0x0, [0, 2], [0], .anyMode, false, false, 0,
      [ro 63 0]⟩
  | .mbxCtrl => ⟨0x3E00000, 4, 4, 1, 0x0, 1, 0x0, [0, 1, 2], [0, 1, 2], .anyMode, false, true, 0,
      [rw 27 16, w1s 0 0]⟩
  | .mbxStatus => ⟨0x3E00004, 4, 4, 1, 0x0, 1, 0x0, [0, 1, 2], [0, 1, 2], .anyMode, false, true, 0,
      [ro 31 24, ro 15 8, w1c 1 1, ro 0 0]⟩
  | .mbxReq => ⟨0x3E00040, 8, 4, 1, 0x0, 8, 0x8, [0, 1, 2], [0, 1, 2], .anyMode, false, true, 0,
      [rw 63 0]⟩
  | .mbxRsp => ⟨0x3E00080, 8, 4, 1, 0x0, 8, 0x8, [0, 1, 2], [0, 1, 2], .anyMode, false, true, 0,
      [ro 63 0]⟩
  | .mgtFwStatus => ⟨0x3E00100, 8, 3, 1, 0x0, 1, 0x0, [0, 1, 2], [0], .anyMode, false, false, 0,
      [ro 63 32, ro 31 31, ro 30 30, ro 29 29, ro 28 28, ro 19 16, ro 15 12, ro 6 0]⟩
  | .mgtFuseShadow => ⟨0x3E00108, 8, 3, 1, 0x0, 1, 0x0, [0, 1, 2], [0], .anyMode, false, false, 0,
      [fl 63 48, fl 39 37, fl 36 36, fl 35 35, fl 34 34, fl 31 28, fl 27 24, fl 14 8, fl 6 0]⟩
  | .mgtAsset => ⟨0x3E00110, 8, 3, 1, 0x0, 1, 0x0, [0, 2], [0], .anyMode, false, false, 0,
      [fl 63 0]⟩
  | .mgtKrStatus => ⟨0x3E00118, 8, 3, 1, 0x0, 1, 0x0, [0, 2], [0], .anyMode, false, false, 0,
      [ro 63 63, ro 62 48, ro 47 36, ro 31 0]⟩
  | .mgtSensCtrl => ⟨0x3E00120, 4, 3, 1, 0x0, 1, 0x0, [0, 2], [0], .anyMode, false, false, 30000,
      [rwIn 15 0 1 65535]⟩
  | .mgtModBudget => ⟨0x3E00140, 4, 3, 1, 0x0, 16, 0x4, [0, 2], [0], .config, false, false, 0x11111111,
      [rwTo 3 0 8, rwTo 7 4 8, rwTo 11 8 8, rwTo 15 12 8, rwTo 19 16 8, rwTo 23 20 8, rwTo 27 24 8, rwTo 31 28 8]⟩

/-- Reset value of element (i, j), where the elements of an array differ. -/
def RegName.resetAt (r : RegName) (i j : Nat) : Nat :=
  match r with
  -- Table 14.2
  | .fltThr => if j = 5 ∨ j = 6 then 0x000203E8 else if j = 7 then 0x0003EA60 else 0x0003000A
  -- Table 15.1: the module pins are level and asynchronous, 1PPS is asynchronous, the thermal alarm is level
  | .eicSrcCfg =>
    if 1025 ≤ j ∧ j ≤ 1280 then 0x60000400 else if j = 1283 then 0x20000400
    else if j = 1284 then 0x40000400 else if j = 0 ∨ 1920 < j then 0 else 0x400
  | .burProg => if j = 0 then 2 ^ 31 else 0
  | .emtHashSeed => if j = 0 then 0xFFFFFFFF else 0x0F0F0F0F
  | .rsaTileMap => j
  | r => let _ := i; r.info.reset

/-- BAR0 offset of element (i, j). -/
def RegName.addr (r : RegName) (i j : Nat) : Nat := r.info.base + i * r.info.s1 + j * r.info.s2

/-- Key under which the register array holds element (i, j) of function `fn`'s copy: one key for the four copies of a
mirrored register, and one per function for a banked one. -/
def RegName.key (r : RegName) (fn i j : Nat) : Nat :=
  (if r.info.banked then fn * 2 ^ 26 else 0) + r.addr (if r.info.mirrored then 0 else i) j

/-- The element of `r` that holds BAR0 offset `a`, with the byte offset within it. -/
def RegName.match? (r : RegName) (a : Nat) : Option (Nat × Nat × Nat) :=
  let x := r.info
  if a < x.base then none else
  let d := a - x.base
  let i := if x.n1 = 1 then 0 else d / x.s1
  let d := d - i * x.s1
  let j := if x.n2 = 1 then 0 else d / x.s2
  let o := d - j * x.s2
  if i < x.n1 ∧ j < x.n2 ∧ o < x.size then some (i, j, o) else none

/-- A register element and the byte offset that an address names in it. -/
structure RegAt where
  name : RegName
  i : Nat
  j : Nat
  off : Nat
  deriving DecidableEq, Repr

/-- Find the register that holds an offset in a list of names. -/
def findRegIn : List RegName → Nat → Option RegAt
  | [], _ => none
  | r :: rest, a =>
    match r.match? a with
    | some (i, j, o) => some ⟨r, i, j, o⟩
    | none => findRegIn rest a

/-- The register that holds a BAR0 offset, or none for a hole (R535). -/
def findReg (a : Nat) : Option RegAt := findRegIn allRegs a

/-- Whether a field takes this value without a reserved encoding. -/
def Legal.ok (l : Legal) (v : Nat) : Bool :=
  match l with
  | .any => true
  | .within lo hi => lo ≤ v && v ≤ hi
  | .outside lo hi => v < lo || hi < v
  | .fours max => v % 4 == 0 && v ≤ max

/-- The value a write gives one field: a reserved encoding that differs from the old value keeps the old value (R6). -/
def Field.apply (f : Field) (old new acc : Nat) : Nat :=
  let o := bitsOf f.hi f.lo old
  let n := bitsOf f.hi f.lo new
  let v := match f.acc with
    | .rw => if n = o ∨ f.legal.ok n then n else o
    | .w1s => o ||| n
    | .w1c => o - (o &&& n)
    | .ro | .wo | .fl => o
  withBits f.hi f.lo acc v

/-- Whether a write names a reserved encoding in this field that differs from its value (R6). -/
def Field.reservedWrite (f : Field) (old new : Nat) : Bool :=
  f.acc = .rw && bitsOf f.hi f.lo new ≠ bitsOf f.hi f.lo old && !f.legal.ok (bitsOf f.hi f.lo new)

/-- The register's value after a write of all its bits (R4 to R6); reserved bits keep 0. -/
def applyFields (fs : List Field) (old new : Nat) : Nat :=
  fs.foldl (fun acc f => f.apply old new acc) old

/-- Whether a write holds a reserved encoding for some field (R6). -/
def anyReserved (fs : List Field) (old new : Nat) : Bool := fs.any (·.reservedWrite old new)

/-- A group of 48-bit counters: counter (i, k) lies at base + i * stride + 8 * k. -/
structure CntGroup where
  base : Nat
  n : Nat
  stride : Nat
  count : Nat
  domain : Nat
  /-- One copy per physical function. -/
  banked : Bool
  /-- Functions that read it. -/
  readers : List Nat
  deriving DecidableEq, Repr

/-- Every counter group of BAR0 that has the form of R114 (Tables 03.16, 04.9, 05.15, 06.20, 07.18, 08.14, 08.19,
09.7, 09.14, 10.14, 11.12, 11.13, 12.25, 13.7, 13.15, 14.16, 15.12 and 18.5). -/
def cntGroups : List CntGroup :=
  [⟨0x0800100, 128, 0x1000, 8, 8, false, [0, 2]⟩,
   ⟨0x1000400, 16, 0x10000, 32, 8, false, [0]⟩,
   ⟨0x1000500, 16, 0x10000, 32, 8, false, [0]⟩,
   ⟨0x1400500, 4, 0x40000, 7, 6, false, [0, 2]⟩,
   ⟨0x1802000, 4, 0x100, 7, 6, false, [0, 2]⟩,
   ⟨0x2401040, 16, 0x100, 15, 8, false, [0, 2]⟩,
   ⟨0x1C00020, 1, 0, 2, 4, false, [0, 2]⟩,
   ⟨0x2002040, 16, 0x100, 8, 8, false, [0, 2]⟩,
   ⟨0x2800100, 1, 0, 18, 7, false, [0, 2]⟩,
   ⟨0x2800190, 1, 0, 1, 7, false, [0, 2]⟩] ++
  [⟨0x2801000, 16, 0x40, 6, 7, false, [0, 2]⟩,
   ⟨0x2C01000, 16, 0x100, 11, 8, false, [0, 2]⟩,
   ⟨0x3002000, 16, 0x100, 5, 8, false, [0, 2]⟩,
   ⟨0x3003000, 4, 0x100, 6, 6, false, [0, 2]⟩,
   ⟨0x0400200, 1, 0, 5, 4, true, [0, 1, 2]⟩,
   ⟨0x3800180, 1, 0, 2, 5, false, [0, 2]⟩,
   ⟨0x3801000, 4, 0x40, 7, 5, false, [0, 2]⟩,
   ⟨0x3802000, 16, 0x10, 1, 5, false, [0, 2]⟩,
   ⟨0x0200300, 1, 0, 4, 1, false, [0, 2]⟩,
   ⟨0x0300008, 1, 0, 1, 1, false, [0]⟩] ++
  [⟨0x0308010, 66, 0x40, 1, 1, false, [0, 1, 2]⟩,
   ⟨0x3C00040, 1, 0, 2, 1, false, [0, 2]⟩,
   ⟨0x3C10000, 1, 0, 4096, 1, false, [0, 2]⟩]

/-- Whether offset `a` lies in a counter of the group. -/
def CntGroup.holds (g : CntGroup) (a : Nat) : Bool :=
  g.base ≤ a &&
    (let d := a - g.base
     let i := if g.n = 1 then 0 else d / g.stride
     i < g.n && d - i * g.stride < 8 * g.count)

/-- The group of the counter that holds a BAR0 offset. -/
def findCnt (a : Nat) : Option CntGroup := cntGroups.find? (·.holds a)

/-- Key of the counter that holds offset `a`, in function `fn`'s copy for a banked one. -/
def cntKey (fn a : Nat) : Nat :=
  match findCnt a with
  | some g => (if g.banked then fn * 2 ^ 26 else 0) + a / 8 * 8
  | none => a / 8 * 8

/-- Port p's counter k of Table 03.16. -/
def cntPrt (p k : Nat) : Nat := 0x0800100 + p * 0x1000 + 8 * k
/-- PAR_FAIL_CNTr of slice s. -/
def cntParFail (s r : Nat) : Nat := 0x1000400 + s * 0x10000 + 8 * r
/-- PAR_PUNT_DROP_CNTr of slice s. -/
def cntParPuntDrop (s r : Nat) : Nat := 0x1000500 + s * 0x10000 + 8 * r
/-- Counter k of Table 05.15 in quad q. -/
def cntRsa (q k : Nat) : Nat := 0x1400500 + q * 0x40000 + 8 * k
/-- Counter k of Table 06.20 in quad q. -/
def cntEmt (q k : Nat) : Nat := 0x1802000 + q * 0x100 + 8 * k
/-- Counter k of Table 07.18 in slice s. -/
def cntGlz (s k : Nat) : Nat := 0x2401040 + s * 0x100 + 8 * k
/-- SEQ_MCHK_CNT (k = 0) and SEQ_RETRY_CNT (k = 1). -/
def cntSeq (k : Nat) : Nat := 0x1C00020 + 8 * k
/-- Counter k of Table 08.19 in slice s. -/
def cntBur (s k : Nat) : Nat := 0x2002040 + s * 0x100 + 8 * k
/-- FAB_PLANE_ERR_CNT of physical plane k. -/
def cntPlaneErr (k : Nat) : Nat := 0x2800100 + 8 * k
/-- FAB_MATCH_ERR_CNT. -/
def cntMatchErr : Nat := 0x2800190
/-- Counter k of Table 09.14 in slice s. -/
def cntFab (s k : Nat) : Nat := 0x2801000 + s * 0x40 + 8 * k
/-- Counter k of Table 10.14 in slice s. -/
def cntBpm (s k : Nat) : Nat := 0x2C01000 + s * 0x100 + 8 * k
/-- Counter k of Table 11.12 in slice s. -/
def cntCps (s k : Nat) : Nat := 0x3002000 + s * 0x100 + 8 * k
/-- Counter k of Table 11.13 in quad q. -/
def cntPol (q k : Nat) : Nat := 0x3003000 + q * 0x100 + 8 * k
/-- Counter k of Table 12.25 of function fn. -/
def cntHif (fn k : Nat) : Nat := fn * 2 ^ 26 + 0x0400200 + 8 * k
/-- Counter k of Table 13.15 of stack t. -/
def cntHbm (t k : Nat) : Nat := 0x3801000 + t * 0x40 + 8 * k
/-- HBM_DEEP_DISC_CNT of slice s. -/
def cntDeepDisc (s : Nat) : Nat := 0x3802000 + s * 0x10
/-- Counter k of Table 14.16. -/
def cntFlt (k : Nat) : Nat := 0x0200300 + 8 * k
/-- EIC_BAD_COMPLETE_CNT. -/
def cntBadComplete : Nat := 0x0300008
/-- EIC_SPURIOUS_CNT of context x. -/
def cntSpurious (x : Nat) : Nat := 0x0308010 + x * 0x40
/-- PMC_SAMP_DROP_CNT. -/
def cntSampDrop : Nat := 0x3C00040
/-- PMC_SAMP_REC_CNT. -/
def cntSampRec : Nat := 0x3C00048
/-- General counter n. -/
def cntPmc (n : Nat) : Nat := 0x3C10000 + 8 * n
/-- MIX_CE_CNT of memory instance i; the register shows the instance of MIX_SEL (the model's own key). -/
def cntMixCe (i : Nat) : Nat := 2 ^ 30 + 16 * i
/-- MIX_LOG_OVERFLOW of memory instance i (the model's own key). -/
def cntMixOvf (i : Nat) : Nat := 2 ^ 30 + 16 * i + 8
/-- Counts that the spec asks for and gives no register: FCS discards of port p (R17). -/
def cntFcs (p : Nat) : Nat := 2 ^ 31 + 8 * p
/-- Consumed markers of port p (R69); no register. -/
def cntMarker (p : Nat) : Nat := 2 ^ 31 + 0x1000 + 8 * p
/-- Frames discarded at a port that is not UP (R96); no register. -/
def cntNotUp (p : Nat) : Nat := 2 ^ 31 + 0x2000 + 8 * p
/-- Frames discarded by the mode at port p (R512); no register. -/
def cntModeDisc (p : Nat) : Nat := 2 ^ 31 + 0x3000 + 8 * p

end Sys2Proof.Machine
end

