-- ==== Sys2Proof/Machine/Parts.lean ====
section
/-! DEFINITION. The parts of the state: modes, versions, host rings, interrupts, faults, generations and the Kiln
Record. Each structure's default values are its values at reset. -/

namespace Sys2Proof.Machine

/-- Operating modes (Table 01.5). -/
inductive Mode where
  | reset | bringup | config | forward | drain | safe | standby | factoryTest
  deriving DecidableEq, Repr

/-- Code of a mode in GLB_MODE.MODE. -/
def Mode.code : Mode → Nat
  | .reset => 0 | .bringup => 1 | .config => 2 | .forward => 3
  | .drain => 4 | .safe => 5 | .standby => 6 | .factoryTest => 7

/-- Whether ALIVE_N is low (R508). -/
def Mode.alive (m : Mode) : Bool := m ≠ .reset && m ≠ .bringup

/-- A version tag (Table 02.3). -/
structure VTag where
  born : Gen
  died : Gen
  /-- Born settled. -/
  bs : Bool
  /-- Died set. -/
  ds : Bool
  deriving DecidableEq, Repr

/-- What the block puts out, in order: posted writes, messages, answers to reads and what leaves on pins and lines. -/
inductive Out where
  /-- A posted write to host memory with the requester ID of a function (R364, R367). -/
  | hostWrite (req : Requester) (addr : Nat) (data : Bytes)
  /-- A PCI Express error reported by AER (R386). -/
  | aer (req : Requester)
  /-- An MSI-X message (R450, R451). -/
  | msix (req : Requester) (vector : Nat) (addr data : Nat)
  /-- The line of a management core changes (R450). -/
  | coreLine (core : Nat) (level : Bool)
  /-- A management core is woken from STANDBY (R460). -/
  | coreWake (core : Nat)
  /-- The answer to a register read. -/
  | readData (value : Nat)
  /-- A frame leaves on a port's line, from DA to FCS. -/
  | line (port : Nat) (frame : Bytes)
  /-- A frame in transmission ends with an error control block (Table 14.5). -/
  | lineCut (port : Nat)
  /-- The answer to an SMBus block read (R505, R506). -/
  | smbus (data : Bytes)
  /-- A two-wire transaction on a slice's bus while MOD_SEL_N of this cage, 0 to 7 on the bus, is low; the others stay high,
  and between transactions all are (R112, R468, Table 03.6). -/
  | twoWire (slice cage : Nat) (data : Bytes)
  /-- The 1PPS output rises for 100 ms (R107). -/
  | pps
  /-- A Clause 45 transaction (R468). -/
  | mdio (bus : Nat) (write : Bool) (port dev reg value : Nat)
  deriving DecidableEq, Repr

/-- A ring context entry (Table 12.4). -/
structure RingCtx where
  base : Nat
  wbAddr : Nat
  kind : Nat
  log2n : Nat
  en : Bool
  irqEn : Bool
  irqSrc : Nat
  holdoffUs : Nat
  /-- A reserved bit or byte is nonzero. -/
  reserved : Bool
  deriving DecidableEq, Repr

/-- A punted frame or copy that waits for posted buffers to be fetched. It has not left the device: it holds a reference to
its generation (R59). -/
structure PuntJob where
  gen : Gen
  /-- Punt header and frame. -/
  data : Bytes
  deriving DecidableEq, Repr

/-- The live state of a ring (R370, Table 12.22). -/
structure RingState where
  /-- The entry last applied. -/
  ctx : Option RingCtx := none
  active : Bool := false
  halted : Bool := false
  err : Nat := 0
  hostIdx : Nat := 0
  devIdx : Nat := 0
  /-- Descriptors fetched and not handed on, oldest first. -/
  fetched : List Bytes := []
  /-- The command in execution. -/
  inExec : Option Bytes := none
  /-- EN was cleared and the ring is stopping (R388). -/
  stopping : Bool := false
  /-- Entries aborted while stopping (R388). -/
  aborted : Nat := 0
  /-- An enabling entry that waits for ACTIVE = 0 (R373). -/
  deferred : Option RingCtx := none
  /-- Event records written, wrapping (Table 12.17). -/
  seq : Nat := 0
  /-- Event records lost since the last OVERFLOW record (R393). -/
  lost : Nat := 0
  /-- Frames punted to the ring, wrapping (Table 12.14). -/
  punted : Nat := 0
  /-- Punted frames that wait for posted buffers to be fetched, oldest first. -/
  puntQ : List PuntJob := []
  /-- End of the interrupt holdoff, or 0 when none runs (R395). -/
  holdEnd : Nat := 0
  /-- An entry asked for an interrupt during the holdoff. -/
  irqHeld : Bool := false
  deriving DecidableEq, Repr

/-- An entry of a function's MSI-X table (R540); masked at reset. -/
structure Msix where
  addr : Nat := 0
  data : Nat := 0
  masked : Bool := true
  /-- Held in the pending bit array (R452). -/
  pending : Bool := false
  deriving DecidableEq, Repr

/-- The host interface (chapter 12). -/
structure Hif where
  rings : Tab RingState := .empty
  /-- Rings whose context is cached, most recently used first, at most 256 (R370). -/
  cached : List Nat := []
  /-- Fetches of sequencer commands, oldest first: ring and index (R285). -/
  seqOrder : List (Nat × Nat) := []
  /-- MSI-X tables: vector v of PF f at 32 f + v, of VF n at 32 (3 + n) + v. -/
  msix : Tab Msix := .empty
  linkUp : Bool := false
  linkWidth : Nat := 0
  linkSpeed : Nat := 0
  deriving DecidableEq, Repr

/-- An interrupt source (R446). -/
structure IntSource where
  /-- Pending state of an edge source. -/
  edge : Bool := false
  /-- Software latch. -/
  latch : Bool := false
  /-- The filtered input of a level source is at its active level. -/
  input : Bool := false
  /-- Free-running counter when the filter last accepted a level (R445). -/
  accepted : Nat := 0
  /-- The context it is active for. -/
  active : Option Nat := none
  /-- Free-running counter when the source last became pending. -/
  pendTime : Nat := 0
  deriving DecidableEq, Repr

/-- An interrupt context (R450, R454). -/
structure IntCtx where
  withdrawn : Bool := false
  /-- The condition of R450 was true when last looked at. -/
  notified : Bool := false
  /-- First AON cycle after the two quiet cycles of the last claim or completion. -/
  quietTo : Nat := 0
  deriving DecidableEq, Repr

/-- The event interrupt controller (chapter 15). -/
structure Eic where
  src : Tab IntSource := .empty
  ctx : Tab IntCtx := .empty
  deriving DecidableEq, Repr

/-- A fault source at Saggar (R418 to R424, R439). -/
structure FaultSource where
  /-- The newest 15 event times, oldest first. -/
  hist : List Nat := []
  /-- Classed permanent. -/
  perm : Bool := false
  /-- 1 plus the AON cycle of its classification, or 0 if it was classed before the AON island's last reset (R424). -/
  permCycle : Nat := 0
  /-- Retired: the error line is masked (R423). -/
  retired : Bool := false
  /-- FLT_STATUS flag, sticky across warm reset (R420). -/
  flag : Bool := false
  /-- End of the record holdoff, or 0 when none runs (R439). -/
  holdEnd : Nat := 0
  /-- Events since the source's previous record. -/
  count : Nat := 0
  firstTime : Nat := 0
  lastTime : Nat := 0
  cause : Nat := 0
  detail : Nat := 0
  deriving DecidableEq, Repr

/-- Triggers of a commit. -/
inductive Trigger where
  | immediate
  /-- With the marker's ID. -/
  | marker (id : Nat)
  /-- With T, in seconds and nanoseconds. -/
  | time (sec ns : Nat)
  deriving DecidableEq, Repr

/-- A commit that is armed and not completed (R63). -/
structure Armed where
  ring : Nat
  trigger : Trigger
  gen : Gen
  /-- Free-running counter at arming. -/
  at_ : Nat
  deriving DecidableEq, Repr

/-- A commit that has started and is not armed (R51, R64). -/
structure Waiting where
  ring : Nat
  trigger : Trigger
  /-- The window-space wait began at this time; none while another commit is armed. -/
  since : Option Nat
  deriving DecidableEq, Repr

/-- A port's part in a commit (R57, R70). -/
structure PortGen where
  latch : Gen := 0
  /-- It switched on the marker timeout of the armed commit. -/
  late : Bool := false
  deriving DecidableEq, Repr

/-- Generation control (chapter 02). CURRENT is STAGING − 1 (R49). -/
structure GenCtl where
  current : Gen := 0
  oldest : Gen := 0
  armed : Option Armed := none
  /-- Commits that wait, first come first. -/
  waiting : List Waiting := []
  ports : Tab PortGen := .empty
  /-- Reference count by generation number (R59). -/
  refs : Tab Nat := .empty
  /-- Change records by generation number (R54). -/
  log : Tab Nat := .empty
  /-- The settle of the oldest generation is complete (R55). -/
  settled : Bool := true
  /-- SA bindings made by SA_SELECT_TX: generation and SA index (R56, R213). -/
  bindings : List (Nat × Nat) := []
  deriving DecidableEq, Repr

/-- An entry of the Kiln Record (Table 16.10) but for its number and CRC. -/
structure KilnEntry where
  type : Nat
  fn : Nat
  recovered : Bool
  lifeS : Nat
  ptpS : Nat
  data : Bytes
  deriving DecidableEq, Repr

/-- Counters and histograms that accumulate in management SRAM and are kept by the hourly checkpoint (R489, Table
16.12). -/
structure KilnSram where
  logDrop : Nat := 0
  /-- Powered time over the life of the part, in ns. -/
  lifeNs : Nat := 0
  /-- Resets by cause, corrected errors by class, retries, flaps by port. -/
  resets : Tab Nat := .empty
  ce : Tab Nat := .empty
  retry : Tab Nat := .empty
  flaps : Tab Nat := .empty
  /-- Cones: first and latest frequency in kHz, drift in ppm. -/
  coneF0 : Tab Nat := .empty
  coneF : Tab Nat := .empty
  coneDrift : Tab Int := .empty
  /-- Histograms: 32 i + k, or 8 i + k for EYE. -/
  temp : Tab Nat := .empty
  volt : Tab Nat := .empty
  eye : Tab Nat := .empty
  deriving DecidableEq, Repr

/-- The header of a ring page (Table 16.11). -/
structure RingHeader where
  /-- 0 log, 1 to 5 checkpoint part. -/
  kind : Nat := 0
  pseq : Nat := 0
  ckSeq : Nat := 0
  erases : Nat := 0
  deriving DecidableEq, Repr

/-- The Kiln Record's flash and its buffers in management SRAM (R487 to R490). -/
structure Kiln extends KilnSram where
  /-- Permanent area, oldest entry first. -/
  perm : List KilnEntry := []
  permFull : Bool := false
  /-- Log entries in the ring, oldest first, with the number of the first. -/
  log : List KilnEntry := []
  logFirst : Nat := 0
  /-- Log entries in SRAM, not yet written. -/
  buffer : List KilnEntry := []
  /-- Pages of log entries in the ring, oldest first: page and entries. -/
  logPages : List (Nat × Nat) := []
  ckSeq : Nat := 0
  /-- Ring pages that failed and are skipped. -/
  badPages : List Nat := []
  /-- Pages of the ring written so far. -/
  pseq : Nat := 0
  /-- The page of the ring, 128 to 4,095, that the next write tries first. -/
  next : Nat := 128
  /-- Erases of each page, and the header of each page written. -/
  erases : Tab Nat := .empty
  ring : Tab RingHeader := .empty
  /-- Free-running counter at the last log page written early. -/
  lastEarly : Nat := 0
  /-- What the last checkpoint holds, and the number of the log entry that followed it. -/
  committed : KilnSram := {}
  commitLog : Nat := 0
  /-- Cones whose alarm has been raised (R471). -/
  coneAlarms : List Nat := []
  deriving DecidableEq, Repr

/-- A set of like units with spares: which physical unit serves each logical position (R37, Table 01.4). -/
structure UnitMap where
  /-- Physical unit of each logical position; none when the position is left empty. -/
  pos : List (Option Nat)
  fenced : List Nat := []
  retired : List Nat := []
  deriving DecidableEq, Repr

/-- The map of `n` positions with unit k at position k. -/
def UnitMap.straight (n : Nat) : UnitMap := { pos := (List.range n).map some }

/-- The units below `total` that serve no position and are not retired: the spares. -/
def UnitMap.spares (m : UnitMap) (total : Nat) : List Nat :=
  (List.range total).filter fun u => !(m.pos.contains (some u)) && !(m.retired.contains u)

/-- Put `spare` at every position that `u` serves. -/
def UnitMap.swap (m : UnitMap) (u : Nat) (spare : Option Nat) : UnitMap :=
  { m with pos := m.pos.map fun x => if x = some u then spare else x, retired := m.retired ++ [u] }

/-- State of a pseudo-channel group (Table 13.12). -/
structure GroupState where
  /-- STATE of HBM_GROUP_STATUS. -/
  state : Nat := 0
  /-- The member offline for retraining or repair, with the reason's end check. -/
  offline : Option Nat := none
  failed1 : Option Nat := none
  failed2 : Option Nat := none
  progress : Nat := 0
  /-- The offline work is a repair, not a retraining (R407, R413). -/
  repair : Bool := false
  /-- Failed tries of the offline work (R407). -/
  tries : Nat := 0
  /-- Stale map of the member offline: its segments that missed a write (R406). -/
  stale : List Nat := []
  deriving DecidableEq, Repr

/-- The units that have spares, and which serves what; rebuilt from the Kiln Record at bring-up (R490). -/
structure Units where
  planes : UnitMap := .straight 16
  /-- Encrypt lane pairs, decrypt lanes and Burin engines by slice. -/
  enc : Tab UnitMap := .empty
  dec : Tab UnitMap := .empty
  eng : Tab UnitMap := .empty
  /-- Rule tiles by quad; a lost tile serves no physical tile. -/
  tiles : Tab UnitMap := .empty
  groups : Tab GroupState := .empty
  deriving DecidableEq, Repr

/-- Classifications and retirements (R441). -/
structure Envelope where
  units : Units
  degraded : List Nat
  queue : List Nat
  perm : List Nat
  retired : List Nat
  deriving DecidableEq, Repr

/-- Saggar (chapter 14). -/
structure Saggar where
  src : Tab FaultSource := .empty
  /-- Sources whose retirement has not started, in order of classification (R424). -/
  queue : List Nat := []
  /-- Sources whose retirement runs. -/
  running : List Nat := []
  /-- Categories beyond their envelope (R429), kept in the Kiln Record. -/
  degraded : List Nat := []
  /-- Critical sources whose line is asserted (R431). -/
  lines : List Nat := []
  critV : Bool := false
  critSource : Nat := 0
  critCount : Nat := 0
  /-- The squelch of every transmitter (R432). -/
  squelch : Bool := false
  /-- FAULT_N is pulled low (R436). -/
  faultN : Bool := false
  /-- A critical fault met in bring-up; SAFE follows at its end (R435). -/
  critInBringup : List Nat := []
  /-- Corruptions that wait for the next operations of a source (R440). -/
  corrupt : Tab Nat := .empty
  /-- What the Kiln Record holds, while FACTORY_TEST shows a volatile table (R441). -/
  before : Option Envelope := none
  deriving DecidableEq, Repr

end Sys2Proof.Machine
end

