-- ==== Sys2Proof/Machine/Flow.lean ====
section
/-! DEFINITION. The parts of the state through which a frame passes: ports, frames, VOQs, buffers, fabric, egress
queues, shapers, policers, Constant Profiles, Glaze and Burin. Each structure's default values are its values at
reset. -/

namespace Sys2Proof.Machine

/-! Ports (chapter 03) -/

/-- Port link states (Table 03.3). -/
inductive LinkState where
  | disabled | training | up | hold | down
  deriving DecidableEq, Repr

/-- Code of a link state in PRT_STATUS.STATE. -/
def LinkState.code : LinkState → Nat
  | .disabled => 0 | .training => 1 | .up => 2 | .hold => 3 | .down => 4

/-- A port (chapter 03). -/
structure PortState where
  link : LinkState := .disabled
  /-- The PCS is aligned with no fault. -/
  pcsLock : Bool := false
  /-- MOD_PRS_N is low. -/
  present : Bool := false
  /-- Ewethes found the module's power class within the cage's budget: MOD_LPMODE is low (R110, R469). -/
  powered : Bool := false
  /-- The power class last read, in units of 0.25 W (R469). -/
  powerClass : Nat := 0
  /-- End of the hold. -/
  holdEnd : Nat := 0
  /-- The frame being received. -/
  rx : Option Nat := none
  /-- Frames in the landing area in arrival order, with the bytes each has taken there (R314). -/
  area : List (Nat × Nat) := []
  /-- Frames on the port's transmit path in dispatch order: selected, rewritten and not started (R224, R280). -/
  path : List Nat := []
  /-- The frame in transmission. -/
  tx : Option Nat := none
  deriving DecidableEq, Repr

/-! Frames -/

/-- How a walk stands (R118, R128). -/
inductive WalkState where
  | running
  /-- A security header was handed on; the SA is not resolved (R128). -/
  | waitSa
  /-- Waits for plaintext (R128). -/
  | waitPlain
  | accepted
  | failed (reason : Nat)
  deriving DecidableEq, Repr

/-- The walk of a frame (R118). -/
structure Walk where
  state : Nat := 0
  cur : Nat := 0
  steps : Nat := 0
  st : WalkState := .running
  /-- The state that follows a security header. -/
  next : Nat := 0
  /-- FAIL_RSN of the last transition. -/
  rsn : Nat := 0
  deriving DecidableEq, Repr

/-- A checked security header and its decryption (R128, R236 to R242). -/
structure SecPart where
  /-- 1 MACsec SecTAG, 2 ESP header. -/
  kind : Nat
  /-- Offset of the header. -/
  off : Nat
  /-- SA resolved, when one did. -/
  sa : Option Nat := none
  /-- The resolve step has run. -/
  asked : Bool := false
  /-- Full number used for the decryption (R238). -/
  number : Nat := 0
  /-- Attempts spent on a lane (R242). -/
  attempts : Nat := 0
  /-- Physical lane that decrypts it; none while it waits for a free one. -/
  lane : Option Nat := none
  /-- Plaintext of the protected data; none until a lane has produced it. -/
  plain : Option Bytes := none
  /-- The ICV was equal. -/
  icvOk : Bool := false
  /-- The replay unit has passed the frame and prepared it (R240, R241). -/
  checked : Bool := false
  deriving DecidableEq, Repr

/-- Which stage of ingress a frame has reached. -/
inductive Ingress where
  /-- Not at ingress. -/
  | none
  /-- In the landing area, its result not applied. -/
  | landing
  /-- Placed on die, its claim pending or shared with a pending claim (R320). -/
  | claiming
  /-- In an ingress buffer (R316). -/
  | onDie
  /-- In the spill write queue (R327). -/
  | spillQ
  /-- In deep buffer, its write acknowledged (R327). -/
  | deep
  /-- A return read is in flight (R329). -/
  | reading
  /-- Read back; its claim is pending (R329). -/
  | returning
  deriving DecidableEq, Repr

/-- Which stage of egress a frame has reached. -/
inductive Egress where
  | none
  /-- Its FFH has arrived and its egress claim is pending (R321). -/
  | claiming
  /-- Being reassembled in an egress buffer (R303). -/
  | filling
  /-- In an egress queue (R336). -/
  | queued
  /-- Selected, waiting for a Burin thread (R280). -/
  | selected
  /-- On a Burin thread (R264). -/
  | burin
  /-- Rewritten; waits for its turn in selection order (R280). -/
  | rewritten
  /-- Released by Burin; waits for room in a lane pair (R224, R232). -/
  | dispatch
  /-- In a lane pair (R224). -/
  | glaze
  /-- Ready for the MAC. -/
  | ready
  /-- In transmission. -/
  | sending
  deriving DecidableEq, Repr

/-- The proof a frame carries to the gate (R93). -/
inductive Proof where
  | none
  | lockstep
  | bypass (cls : Nat)
  deriving DecidableEq, Repr

/-- Where a frame came from. -/
inductive Origin where
  | wire | copy | inject | filler
  deriving DecidableEq, Repr

/-- A matched rule or default action, exact-match or route result: action data with its source (R153, R174). -/
structure Answer where
  /-- The answer has returned to the slice. -/
  back : Bool := false
  /-- The lookup hit. -/
  hit : Bool := false
  /-- ACTION or ADATA, as a number. -/
  data : Nat := 0
  /-- LENTRY of the rule that won, or 0xFFFF_FFFF. -/
  lentry : Nat := 0xFFFFFFFF
  /-- The search or lookup ended in an integrity punt (R162, R173). -/
  bad : Bool := false
  /-- The search met a lost tile (R164). -/
  lost : Bool := false
  deriving DecidableEq, Repr

/-- A meter request (R351). -/
inductive Meter where
  | none
  /-- Requested from the quad. -/
  | asked
  /-- The frame no longer holds its slice's watermark (R351). -/
  | late
  | done
  deriving DecidableEq, Repr

/-- The layout record that Burin passes on (Table 08.9), and the output. -/
structure Output where
  bytes : Bytes := []
  secOff : Nat := 0
  encOff : Nat := 0
  encLen : Nat := 0
  padLen : Nat := 0
  tfcLen : Nat := 0
  kind : Nat := 0
  deriving DecidableEq, Repr

/-- A frame in the device, from its first byte to its last. -/
structure Frame where
  origin : Origin := .wire
  /-- IN_PORT. -/
  port : Nat := 0
  gen : Gen := 0
  sofNs : Nat := 0
  /-- PTP time at start of frame: seconds, nanoseconds and 1/256 ns. -/
  sofSec : Nat := 0
  sofNano : Nat := 0
  sofFrac : Nat := 0
  /-- Bytes as received, FCS included; then without FCS and as prepared once `ended` and checked. -/
  bytes : Bytes := []
  /-- Reception had a PCS error. -/
  rxError : Bool := false
  /-- The FCS has been checked and passed. -/
  ended : Bool := false
  tags : Nat := 0
  marker : Bool := false
  walk : Walk := {}
  hv : Bytes := []
  sec : Option SecPart := none
  /-- The walk has ended and the lookups may be issued in the port's order (R120, R129). -/
  due : Bool := false
  /-- The frame takes no lookup (R129). -/
  barred : Bool := false
  issued : Bool := false
  /-- EMT_LRN_CTRL.MODE when the lookups were issued (Table 06.12). -/
  lrnMode : Nat := 0
  rule : Answer := {}
  exact : Answer := {}
  route : Answer := {}
  meter : Meter := .none
  /-- Result applied: the FFH fields and the record. -/
  outPort : Nat := 0
  cls : Nat := 0
  circuit : Option Nat := none
  prog : Nat := 0xFFFF
  colour : Nat := 0
  ecn : Bool := false
  /-- Transmit timestamp requested, and by which function's ring (R106). -/
  txTs : Option Nat := none
  txTsTag : Nat := 0
  byp : Option Nat := none
  /-- SAMPLE_TAG, or 0 when not tagged (R530). -/
  sample : Nat := 0
  /-- Stamps of a tagged frame: stage of Table 18.4 and free-running counter (R531). -/
  stamps : List (Nat × Nat) := []
  mirror : Bool := false
  /-- Group of a frame and its copies, by the original's number, and the member number (R322). -/
  group : Nat := 0
  member : Nat := 0
  ing : Ingress := .none
  /-- Pool set at ingress. -/
  set : Nat := 0
  /-- Ingress slice. -/
  slice : Nat := 0
  /-- Returned from deep buffer (Table 10.3). -/
  wasDeep : Bool := false
  eg : Egress := .none
  /-- Stream offset of its item in the VOQ's chain of pages (R328). -/
  deepOff : Nat := 0
  /-- Egress buffer: its pool and its index (R325). -/
  ebuf : Option Nat := none
  ebufIdx : Nat := 0
  /-- Holds a pin on its cache entry (R221). -/
  pinned : Bool := false
  /-- Constant Profile slot size and its number mod NSLOT. -/
  slot : Option (Nat × Nat) := none
  /-- COUNT of a filler. -/
  fillCount : Nat := 0
  burAttempts : Nat := 0
  burEngine : Nat := 0
  burThread : Nat := 0
  output : Output := {}
  /-- Packet or sequence number (R224). -/
  number : Nat := 0
  /-- SA index it leaves under. -/
  txSa : Nat := 0
  glzAttempts : Nat := 0
  /-- The pair it has been moved from. -/
  glzPair : Nat := 0
  proof : Proof := .none
  deriving DecidableEq, Repr

/-! VOQs, buffers and deep buffer (chapters 09 and 10) -/

/-- A VOQ (R289, R326). -/
structure Voq where
  spill : Bool := false
  /-- On-die portion in VOQ order, pending claims included. -/
  order : List Nat := []
  /-- Bytes of the head frame's stream already sent. -/
  sent : Nat := 0
  /-- Deep portion in VOQ order. -/
  deep : List Nat := []
  /-- Stream offset of the next item in the chain of pages (R328). -/
  tail : Nat := 0
  /-- Pages that the portion has and has not freed, unwritten ones included: place in the chain and page number (R400). -/
  pages : List (Nat × Nat) := []
  /-- Stripe group of its last segment (R400). -/
  group : Option Nat := none
  /-- Return reads in flight, oldest first. -/
  reading : List Nat := []
  /-- The return path has started below RETURN_KB and has not reached THR since (R329). -/
  returning : Bool := false
  deriving DecidableEq, Repr

/-- An ingress buffer, by the frame that allocated it (R316, R323). -/
structure IngBuf where
  slice : Nat
  set : Nat
  /-- Owner: port × 8 + class. -/
  owner : Nat
  pool : Nat
  /-- Buffer index in the pool (R325). -/
  idx : Nat
  /-- Frames that name it. -/
  names : List Nat
  /-- Its owner-set entry (R322, R325). -/
  oset : Option Nat
  deriving DecidableEq, Repr

/-- A claim (R319 to R321). -/
structure Claim where
  egress : Bool
  slice : Nat
  set : Nat
  pool : Nat
  first : Nat
  requester : Nat
  owner : Nat
  frame : Nat
  deriving DecidableEq, Repr

/-- Buffer pool manager (chapter 10). -/
structure Bpm where
  voqs : Tab Voq := .empty
  bufs : Tab (Option IngBuf) := .empty
  claims : List Claim := []
  /-- Buffers charged, by side, slice, set, owner and pool. -/
  charged : Tab Nat := .empty
  /-- Spill write queues by slice, oldest first. -/
  spillQ : Tab (List Nat) := .empty
  /-- Deep-area segments that are to be withdrawn or are, by stripe group and segment (R331, R414). -/
  withdrawn : List (Nat × Nat) := []
  /-- Indexes of the buffers withdrawn, by side, slice, set and pool (Table 13.5). -/
  gone : Tab (List Nat) := .empty
  /-- Slices in readback panic (R404). -/
  panic : List Nat := []
  deriving DecidableEq, Repr

/-- Payload bytes of one frame's stream in a cell: FFH first, then data (R292). -/
structure Seg where
  frame : Nat
  off : Nat
  len : Nat
  deriving DecidableEq, Repr

/-- A cell (R292, R293). -/
structure Cell where
  seq : Nat
  port : Nat
  cls : Nat
  segs : List Seg
  poison : Bool := false
  retx : Bool := false
  /-- Cell time of the last send. -/
  sentAt : Nat := 0
  /-- Physical planes in use at the last send, by logical plane (R294, R307). -/
  planes : List Nat := []
  /-- Failed transmissions (R306). -/
  failed : Nat := 0
  /-- Queued for resending. -/
  resend : Bool := false
  deriving DecidableEq, Repr

/-- A (SRC, DST) pair (R302 to R306). -/
structure Pair where
  /-- SEQ of the next new cell. -/
  next : Nat := 0
  unacked : List Cell := []
  /-- Cells on the planes. -/
  flying : List Cell := []
  /-- Next SEQ to place. -/
  expect : Nat := 0
  /-- Cells held behind a gap. -/
  held : List Cell := []
  /-- Placed in order, bytes still in the reassembly region, without what has been taken of the first. -/
  region : List Cell := []
  /-- SEQ after the last cell whose bytes have left: the next acknowledgement names it. -/
  left : Nat := 0
  /-- SEQ after the highest that has arrived, clean or not. -/
  seen : Nat := 0
  /-- NAKs on their way. -/
  naks : List Nat := []
  deriving DecidableEq, Repr

/-- A check of a spare plane (R309). -/
structure PlaneCheck where
  plane : Nat
  spare : Nat
  n0 : Nat
  deriving DecidableEq, Repr

/-- The switch core (chapter 09). -/
structure Fabric where
  pairs : Tab Pair := .empty
  gptr : Tab Nat := .empty
  aptr : Tab Nat := .empty
  pptr : Tab Nat := .empty
  /-- Cell times a reporting pair has not been matched, and its promotion (R299). -/
  starve : Tab Nat := .empty
  promoted : List Nat := []
  cellTime : Nat := 0
  /-- Matches made in the cell time before the last, whose cells cross next, and in the last (R297). -/
  dueNow : List (Nat × Nat) := []
  dueNext : List (Nat × Nat) := []
  /-- (port, class) marked not ready (R301). -/
  notReady : List Nat := []
  check : Option PlaneCheck := none
  deriving DecidableEq, Repr

/-! Egress scheduling, policing and Constant Profile (chapter 11) -/

/-- Parameters of a shaper (Table 11.1). -/
structure ShaperCfg where
  cir : Nat := 0
  pir : Nat := 0
  cbs : Nat := 0
  pbs : Nat := 0
  deriving DecidableEq, Repr

/-- The buckets of a shaper in µbits. -/
structure ShaperLevel where
  c : Int := 0
  p : Int := 0
  deriving DecidableEq, Repr

/-- A class node (Table 11.2). -/
structure ClassNode where
  wfq : Bool := false
  shape : Bool := false
  weight : Nat := 1
  ncWeight : Nat := 1
  shaper : ShaperCfg := {}
  deriving DecidableEq, Repr

/-- A circuit queue set (Table 11.3). -/
structure CirqNode where
  shape : Bool := false
  weights : List Nat := [1, 1, 1, 1, 1, 1, 1, 1]
  shaper : ShaperCfg := {}
  deriving DecidableEq, Repr

/-- The egress schedulers. -/
structure Sched where
  queues : Tab (List Nat) := .empty
  /-- Frames of a flow not yet selected, in reassembly order (R338). -/
  flows : Tab (List Nat) := .empty
  cls : Tab ClassNode := .empty
  cirq : Tab CirqNode := .empty
  /-- Buckets of the shapers by class node, circuit queue set and port; none while they are full (R346). -/
  clsLevel : Tab (Option ShaperLevel) := .empty
  cirqLevel : Tab (Option ShaperLevel) := .empty
  portLevel : Tab (Option ShaperLevel) := .empty
  /-- Virtual times and start tags of class nodes and port nodes. -/
  nodeV : Tab Nat := .empty
  memberS : Tab Nat := .empty
  portV : Tab Nat := .empty
  classS : Tab Nat := .empty
  /-- The port whose node a queue has joined, plus 1; 0 for a queue that is no member (R337, R344). -/
  memberAt : Tab Nat := .empty
  /-- Classes (port × 8 + class) that are backlogged at their port's node (R344). -/
  backlog : List Nat := []
  /-- The ports of a slice served in its cycle, and the time of the cycle (R341). -/
  served : Tab (Nat × List Nat) := .empty
  lastTick : Nat := 0
  deriving DecidableEq, Repr

/-- A policer version (Table 11.4). -/
structure PolVer where
  tag : VTag
  alg : Nat
  flags : Nat
  rate1 : Nat
  rate2 : Nat
  burst1 : Nat
  burst2 : Nat
  pair : Nat
  deriving DecidableEq, Repr

/-- Buckets of a policer version in one quad (R352). -/
structure PolBucket where
  tc : Int
  /-- te, or tp for RFC 2698. -/
  t2 : Int
  last : Nat
  deriving DecidableEq, Repr

/-- The policers. -/
structure Policers where
  vers : Tab (List PolVer) := .empty
  /-- By quad, policer and BORN; none before the first frame. -/
  bkts : Tab (Option PolBucket) := .empty
  deriving DecidableEq, Repr

/-- A Constant Profile that runs (R356, R357). -/
structure Profile where
  flags : Nat
  nslot : Nat
  rate : Nat
  sizes : List Nat
  fillDa : Bytes
  fillSa : Bytes
  pattern : List Nat
  due : Nat
  r : Nat
  n : Nat
  fillers : Nat
  /-- The standing pin: SA index and BORN of the version. -/
  pin : Option (Nat × Nat)
  deriving DecidableEq, Repr

/-! Circuits and Glaze (chapter 07) -/

/-- A circuit version (Table 07.2). -/
structure CirVer where
  tag : VTag
  mode : Nat
  port : Nat
  eq : Nat
  rewrite : Nat
  txSel : Nat
  flags : Nat
  ovh : Nat
  hdrMax : Nat
  data : Bytes
  /-- Its HBM copy is poisoned (R410). -/
  poison : Bool := false
  deriving DecidableEq, Repr

/-- KEY_STORE: a key encrypted under a storage key, with which alone it can be opened (R248). -/
structure KeyStore where
  under : Bytes
  plain : Bytes
  deriving DecidableEq, Repr

/-- An SA (Tables 07.3 and 07.4). -/
structure Sa where
  tag : VTag
  tx : Bool
  suite : Nat
  an : Nat
  flags : Nat
  rxPort : Nat
  kekSlot : Nat
  window : Nat
  sciSpi : Bytes
  salt : Bytes
  ssci : Nat
  softPn : Nat
  initPn : Nat
  keyStore : KeyStore
  poison : Bool := false
  rxTop : Nat := 0
  /-- Replay bitmap, bit n for number n mod 1,024. -/
  bitmap : Nat := 0
  /-- Slice and EQ it is bound to (R213). -/
  bound : Option (Nat × Nat) := none
  softSent : Bool := false
  exhaustSent : Bool := false
  deriving DecidableEq, Repr

/-- A flush of a circuit in deep buffer (R250, R252, R334). -/
structure CirFlush where
  /-- The last item that each deep portion held when the flush began: VOQ and frame. -/
  marks : List (Nat × Nat)
  /-- The circuit was suspended: its frames count in CIR_SUSPEND_DISC. -/
  suspend : Bool
  /-- The ring of the CIR_DISABLE that waits for it. -/
  ring : Option Nat
  deriving DecidableEq, Repr

/-- The unversioned state of a circuit (R249 to R253). -/
structure CirState where
  disabled : Bool := false
  suspended : Bool := false
  /-- `DRAIN` disables whose frames have not all left, oldest first: the frames that were queued (R250, R251). -/
  drains : List (List Nat) := []
  /-- `DISCARD` flushes that run, oldest first. -/
  flushes : List CirFlush := []
  /-- ICV_FAIL records: end of the holdoff, or 0, and failures since the last record (R243). -/
  icvEnd : Nat := 0
  icvCount : Nat := 0
  /-- SA of the last failure. -/
  icvSa : Nat := 0
  deriving DecidableEq, Repr

/-- One copy of what a transmit cache entry holds: an SA context and a circuit version (R220). -/
structure TxCopy where
  sa : Sa
  ver : CirVer
  deriving DecidableEq, Repr

/-- An entry of a transmit context cache (R220). -/
structure TxEntry where
  sa : Nat
  circuit : Nat
  born : Gen
  /-- Pin count, at most 2^24 − 1. -/
  pins : Nat
  resident : Bool
  /-- Its place in the arrays, 0 to 2,047. -/
  idx : Nat := 0
  /-- Copies A and B, as the last fill left them. -/
  copyA : Option TxCopy := none
  copyB : Option TxCopy := none
  deriving DecidableEq, Repr

/-- Glaze in one egress slice: encrypt pairs by physical number. -/
structure LanePair where
  /-- The last known-answer test passed. -/
  good : Bool := true
  frames : List Nat := []
  deriving DecidableEq, Repr

/-- Circuits, SAs and Glaze. -/
structure Glaze where
  cir : Tab (List CirVer) := .empty
  sa : Tab (Option Sa) := .empty
  /-- NEXT_PN by slice, EQ and slot, in two copies (R224). -/
  nextPn : Tab Nat := .empty
  nextPnB : Tab Nat := .empty
  /-- The storage key; none until the memory domain has left reset (R248). -/
  storageKey : Option Bytes := none
  state : Tab CirState := .empty
  /-- Transmit caches by slice, most recently used first. -/
  cache : Tab (List TxEntry) := .empty
  /-- Transmit cache entries withdrawn, by slice (Table 13.5). -/
  cacheGone : Tab (List Nat) := .empty
  /-- Prefetch requests that wait for an entry, by slice. -/
  wait : Tab (List Nat) := .empty
  /-- Receive caches by slice: SA indices, most recently used first. -/
  rxCache : Tab (List Nat) := .empty
  /-- Poisoned receive-index buckets (Table 13.4). -/
  rxPoison : List Nat := []
  /-- Encrypt pairs and decrypt lanes by slice × 12 + physical number. -/
  pairs : Tab LanePair := .empty
  lanes : Tab LanePair := .empty
  /-- Frames that wait for room in a pair: those that have their numbers, and the others (R232). -/
  moved : Tab (List Nat) := .empty
  waiting : Tab (List Nat) := .empty
  deriving DecidableEq, Repr

/-- A Burin engine (R264, R265), by slice × 5 + physical number. -/
structure Engine where
  /-- The last self-test passed. -/
  good : Bool := true
  /-- The frame on each thread. -/
  threads : List (Option Nat) := [none, none, none, none]
  deriving DecidableEq, Repr

/-- A control word as it is stored: 128 bits, and a parity bit for bits [63:0] and for bits [127:64] (R257). -/
structure ControlWord where
  bits : Nat
  parity : Bool × Bool
  deriving DecidableEq, Repr

/-- The patch RAM and match registers of an engine kind, as the last bundle left them (Table 08.4, R259). -/
structure Patch where
  matches_ : List Nat := []
  words : List ControlWord := []
  deriving DecidableEq, Repr

/-- Burin. -/
structure Burin where
  engines : Tab Engine := .empty
  /-- Frames selected and not released, in selection order, by slice (R280). -/
  sel : Tab (List Nat) := .empty
  patch : Patch := {}
  seqPatch : Patch := {}
  deriving DecidableEq, Repr

end Sys2Proof.Machine
end

