-- ==== Sys2Proof/Machine/Fuses.lean ====
section
/-! DEFINITION. The fuses and straps of the part (chapter 16, Table 17.6). Their default values are those of a part that
has left the factory with nothing provisioned: DESIGN CHOICE, log entry 7. -/

namespace Sys2Proof.Machine

/-- An operation that waits for the fuse controller or runs (R485, R486). -/
structure FuseOp where
  /-- FUSE_ID of Table 16.9. -/
  id : Nat
  index : Nat
  value : Nat
  /-- The mailbox of this function waits for the response; none for a key ring. -/
  mailbox : Option Fn
  /-- The key ring that waits. -/
  ring : Nat
  deriving DecidableEq, Repr

/-- Fuses as the shadows show them (R481). -/
structure Fuses where
  serial : Nat := 0
  /-- Anti-rollback counter, 0 to 64; parts leave the factory with 4 (R473). -/
  arb : Nat := 4
  kekSlot : Nat := 0
  kekLeft : Nat := 15
  bypDis : Bool := false
  debugLock : Bool := false
  ftLock : Bool := false
  /-- Bit s: domain lock of slice s. -/
  domLock : Nat := 0
  /-- Asset writes made, oldest first; a partly blown field counts. -/
  assets : List Nat := []
  /-- The 256-bit keys of fuse slots 0 to 15; an unlisted one is 32 bytes of 0. -/
  slotKeys : List Bytes := []
  /-- Operations in the order their requests reached the controller; the first is performed. -/
  ops : List FuseOp := []
  deriving DecidableEq, Repr

end Sys2Proof.Machine
end

