-- ==== Sys2Proof/Machine/MgtParts.lean ====
section
/-! DEFINITION. The management subsystem's parts of the state: mailboxes, firmware slots, sensors and telemetry (chapter
16). Each structure's default values are its values at reset. -/

namespace Sys2Proof.Machine

/-- The mailbox of a PF, beside its registers (R463, R464). -/
structure Mailbox where
  /-- The 64 bytes copied at GO, while a request runs. -/
  running : Option Bytes := none
  /-- The response that Ewethes will write. -/
  ready : Option Bytes := none
  /-- The request waits for the fuse controller (R485). -/
  fuse : Bool := false
  deriving DecidableEq, Repr

/-- What a slot of the boot flash holds, as far as the block tells (Tables 16.7 and 16.20). -/
structure Slot where
  state : SlotState := .empty
  release : Nat := 0
  svn : Nat := 0
  deriving DecidableEq, Repr

/-- The boot control record and what runs (Table 16.8, R475 to R480). Slot A is false, slot B is true. -/
structure Boot where
  preferred : Bool := false
  try_ : Bool := false
  tried : Bool := false
  gen : Nat := 0
  /-- The part leaves the factory with release 3.0 in slot A: DESIGN CHOICE, log entry 7. -/
  a : Slot := { state := .valid, release := 0x03000000, svn := 4 }
  b : Slot := {}
  /-- The slot whose image runs. -/
  run : Option Bool := none
  /-- The running image is an unconfirmed trial. -/
  trial : Bool := false
  deriving DecidableEq, Repr

/-- A telemetry configuration with EN = 1 (R493). -/
structure Telemetry where
  addr : Nat
  nbuf : Nat
  ring : Nat
  periodMs : Nat
  /-- INC_CNT. -/
  counters : Bool
  /-- When the next snapshot falls due. -/
  due : Nat
  /-- SNAP_SEQ of the next snapshot. -/
  seq : Nat := 0
  deriving DecidableEq, Repr

/-- The management subsystem. -/
structure Mgt where
  /-- Mailboxes by function. -/
  mbx : Tab Mailbox := .empty
  boot : Boot := {}
  /-- While a slot is being staged: what its check gives it, EMPTY for a flash that fails (R478). -/
  staged : Option Slot := none
  /-- The last reading of each sensor: thermal in 0.25 °C, 25 °C until the first; voltage in mV and clock in kHz, nominal
  until the first. Log entry 8. -/
  thermal : Tab Int := .empty
  volt : Tab Nat := .empty
  clock : Tab Nat := .empty
  /-- The thermal alarm (R470). -/
  alarm : Bool := false
  /-- The SMBus health bytes of the last refresh (R506). -/
  health : Bytes := []
  healthAt : Nat := 0
  telemetry : Option Telemetry := none
  /-- When Ewethes started: the minutes and hours of R491 and R488 count from there; the next ones due. -/
  minuteDue : Nat := 0
  commitDue : Nat := 0
  /-- When the management watchdog reached half its period (R476). -/
  warned : Option Nat := none
  deriving DecidableEq, Repr

end Sys2Proof.Machine
end

