-- ==== Sys2Proof/Machine/ResetParts.lean ====
section
/-! DEFINITION. The reset controller, the option loader and the boot state (chapters 16 and 17), as power-on leaves
them. -/

namespace Sys2Proof.Machine

/-- How a reset domain stands (R495, R499). -/
inductive DomainState where
  | held | released | ready
  deriving DecidableEq, Repr

/-- The reset controller (chapter 17). -/
structure ResetCtl where
  /-- Domains 1 to 8 by number. -/
  dom : Tab DomainState := .empty
  /-- Free-running counter when a domain became ready. -/
  readyAt : Tab Nat := .empty
  /-- Domains whose release is requested (R500). -/
  asked : List Nat := []
  /-- RESET_N is held low. -/
  resetN : Bool := false
  /-- PERST# is asserted; a board asserts it at power-on. -/
  perst : Bool := true
  /-- Option load phase: 0 none, 1 fuse, 2 strap, 3 trim, 4 complete (Table 17.4). -/
  phase : Nat := 0
  /-- RESET_N stopped the load (R503). -/
  interrupted : Bool := false
  /-- Times of the restarts of this load, oldest first, and how many there were (R503, R504). -/
  restarts : List Nat := []
  restartCount : Nat := 0
  /-- Phase of the last restart (Table 17.6). -/
  lastPhase : Nat := 0
  stalled : Bool := false
  /-- RESETS index of the last reset. -/
  cause : Nat := 0
  /-- Mode before that reset (Table 16.11). -/
  modeBefore : Nat := 0
  /-- Restarts in the last completed load (R504). -/
  loadRestarts : Nat := 0
  /-- When RESET_N was pulled low. -/
  resetNAt : Nat := 0
  /-- Ports and slices whose reset runs, by number and by 128 + slice (R517). -/
  blocks : List Nat := []
  /-- Straps latched: asserted. -/
  testEn : Bool := false
  pcieLrev : Bool := false
  /-- The boot ROM runs. -/
  booting : Bool := false
  /-- Ewethes runs (R506). -/
  ewethes : Bool := false
  recovery : Bool := false
  /-- Ewethes has begun the bring-up that follows the last reset (R509). -/
  begun : Bool := false
  /-- Voltage monitors that are not masked (R548). -/
  unmasked : List Nat := []
  /-- Transmit state arrays saved for STANDBY, and when it was entered (R515). -/
  saved : Bool := false
  standbyAt : Nat := 0
  /-- End of the staged SAFE_EXIT half, or 0 (R379). -/
  safeStaged : Nat := 0
  deriving DecidableEq, Repr

end Sys2Proof.Machine
end

