-- ==== Sys2Proof/Machine/Tables.lean ====
section
/-! DEFINITION. The parts of the state that hold the lookup tables, the parse programs, learning, aging, Proofing and
the table sequencer (chapters 04 to 06 and 08). Each structure's default values are its values at reset. -/

namespace Sys2Proof.Machine

/-- A bucket that fills by one token on a grid (R134). -/
structure TokenBucket where
  level : Nat
  /-- The last grid value of the free-running counter that has been taken. -/
  last : Nat := 0
  deriving DecidableEq, Repr

/-- A cell of a join of rule tiles (R143). -/
structure RuleCell where
  tag : VTag
  priority : Nat
  lrow : Nat
  width : Nat
  /-- Table 05.4. -/
  action : Nat
  value : Bytes
  mask : Bytes
  deriving DecidableEq, Repr

/-- A profile cell (Table 05.3). -/
structure ProfileCell where
  tag : VTag
  num : Nat
  width : Nat
  tiles : Nat
  dflt : Nat
  sel : Bytes
  stencil : Bytes
  deriving DecidableEq, Repr

/-- A slot in use of the exact-match table (Tables 06.1 and 06.2), without HIT, which each quad has for itself. -/
structure EmSlot where
  tag : VTag
  ktype : Nat
  key : Bytes
  /-- Table 06.3. -/
  adata : Nat
  lrn : Bool
  sw : Bool
  rpt : Bool
  deriving DecidableEq, Repr

/-- A route version (R198). -/
structure Route where
  tag : VTag
  fam : Nat
  vrf : Nat
  plen : Nat
  addr : Bytes
  adata : Nat
  deriving DecidableEq, Repr

/-- A key in a learn filter (R188). -/
structure LearnKey where
  ktype : Nat
  key : Bytes
  until_ : Nat
  deriving DecidableEq, Repr

/-- A learn that waits for the sequencer in immediate mode (R189, R191). -/
structure LearnJob where
  quad : Nat
  ktype : Nat
  key : Bytes
  adata : Nat
  inPort : Nat
  gen : Gen
  /-- The slot of a move. -/
  move : Option Nat
  deriving DecidableEq, Repr

/-- A saved class-5 routine: an EM_FLUSH and its cursor (R186, R284). -/
structure Flush where
  ring : Nat
  field : Nat
  value : Nat
  lrnOnly : Bool
  bucket : Nat
  deleted : Nat
  removed : Nat
  /-- Change records of STAGING kept free for its deletions (R382). -/
  room : Nat := 0
  deriving DecidableEq, Repr

/-- A GEN_ABORT that has begun: its ring, the change records of STAGING at its start and its cursor (R56, R284). -/
structure AbortRun where
  ring : Nat
  records : Nat
  cursor : Nat := 0
  deriving DecidableEq, Repr

/-- A tile copy that runs in a quad (Table 05.5). -/
structure TileCopy where
  source : Nat
  tile : Nat
  spare : Nat
  /-- Cells copied: the cursor (Table 08.12). -/
  cell : Nat := 0
  deriving DecidableEq, Repr

/-- Routines of class 6 (Table 08.12). -/
inductive Six where
  | aging | lap | rebuild
  deriving DecidableEq, Repr

/-- A bucket that the sweeper has read-cleared and whose removals are being written (R195). -/
structure Sweep where
  bucket : Nat
  /-- The slots to be removed, in scan order. -/
  gone : List Nat
  /-- Quads from which they have been removed. -/
  quads : Nat := 0
  deriving DecidableEq, Repr

/-- The lookup quads and the sequencer. -/
structure Tables where
  /-- Rule cells by lowest tile of the join × 1,024 + cell index. -/
  rules : Tab (Option RuleCell) := .empty
  profiles : Tab (Option ProfileCell) := .empty
  em : Tab (Option EmSlot) := .empty
  /-- Slots withdrawn, marked occupied in every quad and the shadow, and route nodes withdrawn (Table 13.5). -/
  emGone : List Nat := []
  lpmGone : Nat := 0
  /-- HIT by quad × 1,048,576 + slot index. -/
  hit : Tab Bool := .empty
  routes : List Route := []
  /-- Poisoned rule cells by quad × 65,536 + tile × 1,024 + cell (R161). -/
  rulePoison : List Nat := []
  /-- Rule cells that Proofing has restored, numbered likewise (R163). -/
  ruleRestored : List Nat := []
  /-- When the current scrub lap of a quad's tiles started (R160). -/
  scrubStart : Tab Nat := .empty
  /-- Poisoned profile cells by quad × 128 + cell (R204). -/
  profPoison : List Nat := []
  /-- Poisoned buckets by quad × 262,144 + way × 131,072 + bucket (R173). -/
  emPoison : List Nat := []
  /-- Poisoned route nodes: quad and node (R173). -/
  lpmPoison : List (Nat × Nat) := []
  /-- Copy meters by quad × 16 + meter. -/
  meters : Tab (Option TokenBucket) := .empty
  /-- Punt buckets by slice × 32 + reason. -/
  punts : Tab (Option TokenBucket) := .empty
  learn : Option TokenBucket := none
  /-- Learn filters by quad, oldest first. -/
  filter : Tab (List LearnKey) := .empty
  jobs : List LearnJob := []
  lfsr : Nat := 0xACE1
  /-- Aging: when the current lap started, whether it runs, and the first bucket not yet swept. -/
  ageStart : Nat := 0
  ageRuns : Bool := false
  ageNext : Nat := 0
  /-- The sweep step that is being written (R195). -/
  sweep : Option Sweep := none
  /-- Cursor of the settle of the oldest generation: the change records taken (R55, R284). -/
  settleAt : Nat := 0
  /-- A GEN_ABORT that has begun (R284). -/
  abort : Option AbortRun := none
  /-- The class-6 routine that runs or is saved: one at most (R284). -/
  six : Option Six := none
  /-- Cursor of REBUILD: the next location (R204, R284). -/
  rebuildAt : Nat := 0
  /-- When the current Proofing lap began, and the locations it has visited (R205). -/
  proofStart : Nat := 0
  proofSeen : List Nat := []
  /-- Tile copies by quad. -/
  copies : Tab (Option TileCopy) := .empty
  /-- Class-5 routine saved (R284). -/
  flush : Option Flush := none
  /-- EM_FLUSH commands that wait for class 5, in start order. -/
  flushWait : List Flush := []
  /-- The sequencer is classed permanent (R268). -/
  dead : Bool := false
  /-- Machine checks of the step that runs (R267). -/
  stepTries : Nat := 0
  deriving DecidableEq, Repr

end Sys2Proof.Machine
end

