-- ==== Sys2Proof/Machine/UnitParts.lean ====
section
/-! DEFINITION. The parts of the state that hold counter pairs and bandwidth windows (chapter 18). Each structure's
default values are its values at reset. -/

namespace Sys2Proof.Machine

/-- A counter pair in HBM (Table 18.2). -/
structure PairVal where
  bytes : Nat := 0
  frames : Nat := 0
  invalid : Bool := false
  deriving DecidableEq, Repr

/-- Updates of a pair that wait in the caches (R527). -/
structure PairWait where
  bytes : Nat
  frames : Nat
  /-- Time of the first update. -/
  first : Nat
  deriving DecidableEq, Repr

/-- An entry of a correction log (R408, Table 13.14). -/
structure CeEntry where
  addr : Nat
  syndrome : Nat
  rep : Nat := 1
  /-- 0 `SEEN`, 1 `WB_QUEUED`, 2 `WRITTEN_BACK`, 3 `HARD`. -/
  state : Nat := 0
  /-- Corrections logged before the entry was created: its age. -/
  born : Nat := 0
  deriving DecidableEq, Repr

/-- The HBM controllers and the memories' own state (chapter 13). -/
structure Hbm where
  /-- Correction logs by instance, entry n at place n. -/
  logs : Tab (List CeEntry) := .empty
  /-- Corrections logged so far. -/
  seen : Nat := 0
  /-- Locations classed `HARD` that have not been spared or withdrawn: instance and address (R408, R413). -/
  hard : List (Nat × Nat) := []
  /-- When a member was last trained, and the temperature then, by pseudo-channel. -/
  trained : Tab Nat := .empty
  trainedC : Tab (Option Int) := .empty
  /-- Poisoned words of on-die memories: instance and address (R411, R412). -/
  poison : List (Nat × Nat) := []
  /-- Objects of on-die memories that have been written since reset: their words' valid bits are 1 (R402). -/
  used : List (Nat × Nat) := []
  /-- Valid map: group and segment (R402). -/
  segs : List (Nat × Nat) := []
  /-- Poisoned units of HBM: pseudo-channel and stripe (R411). -/
  bad : List (Nat × Nat) := []
  /-- Steps of evacuations so far: structured data has been placed anew (R416). -/
  moves : Nat := 0
  /-- Refreshes postponed, less those pulled in, by pseudo-channel × 256 + bank (R405). -/
  postponed : Tab Int := .empty
  deriving DecidableEq, Repr

/-- The performance counter unit (chapter 18). -/
structure Pmc where
  /-- Shadows of the general counters (R523). -/
  shadow : Tab Nat := .empty
  pairs : Tab PairVal := .empty
  waiting : Tab (Option PairWait) := .empty
  /-- Bytes counted by window × 256 + 2 × port, plus 1 for transmit (R524). -/
  bw : Tab Nat := .empty
  /-- The window that ends next. -/
  bwWin : Nat := 0
  deriving DecidableEq, Repr

end Sys2Proof.Machine
end

