-- ==== Sys2Proof/Machine/State.lean ====
section
/-! DEFINITION. The state of the block, its faults and refusals, and the state right after power-on. -/

namespace Sys2Proof.Machine

/-- Faults of the model. The block never stops (R29, R38, R386): no command raises one, so there is no constructor. -/
inductive Fault where
  deriving DecidableEq, Repr

/-- Refusals of the model. -/
inductive Refusal where
  /-- The command has no meaning in the model yet; raised by exec alone. Safe: nothing is claimed about it. -/
  | notModelled (mnemonic : String)
  deriving DecidableEq, Repr

/-- PTP time and its clock (R104 to R107, R564). -/
structure Ptp where
  /-- PTP time in units of 2^-32 ns. -/
  time : Nat := 0
  /-- Rate adjustment, in units of 2^-32 ns per ns. -/
  rate : Int := 0
  /-- The 10 MHz input is selected. -/
  sel : Bool := false
  /-- The 10 MHz input is the source in use. -/
  inUse : Bool := false
  /-- PTP time has been set since reset (Table 16.10, PTP_S). -/
  isSet : Bool := false
  deriving DecidableEq, Repr

/-- The state of the block. -/
structure State where
  /-- Commands that wait, first in, first out. -/
  pending : List Instr
  /-- GLB_MODE.MODE (R39). -/
  mode : Mode
  /-- Free-running nanosecond counter (R108). -/
  now : Nat
  ptp : Ptp
  /-- Stored registers of BAR0, by RegName.key; an unlisted one holds its reset value. -/
  regs : Tab Nat
  /-- 48-bit counters (R114). -/
  cnts : Tab Nat
  /-- Upper halves latched by 4-byte reads (R114), each stored plus 1; 0 when none. -/
  latches : Tab Nat
  /-- What the block has put out, in order. -/
  out : List Out
  /-- Draws of free values made so far (the model's own). -/
  draws : Nat
  gen : GenCtl
  hif : Hif
  eic : Eic
  flt : Saggar
  kiln : Kiln
  units : Units
  prt : Tab PortState
  /-- Frames in the device by number; one not listed is not in the device. -/
  frames : Tab Frame
  /-- Number of the next frame. -/
  nextFrame : Nat
  bpm : Bpm
  fab : Fabric
  sched : Sched
  pol : Policers
  cps : Tab (Option Profile)
  glz : Glaze
  bur : Burin
  tabs : Tables
  fuses : Fuses
  /-- Sample buckets by slice and sampling LFSRs by slice (R529). -/
  sampBkt : Tab (Option TokenBucket)
  sampLfsr : Tab Nat
  /-- Sample sequence numbers by slice (R530). -/
  sampSeq : Tab Nat
  hbm : Hbm
  mgt : Mgt
  pmc : Pmc
  rst : ResetCtl
  /-- 156.25 MHz references that are lost (R553). -/
  refLost : List Nat
  deriving DecidableEq, Repr

/-- The block right after power-on is applied: mode RESET, every reset domain held, every register at its reset value
(R496, R498), the queue empty. -/
def State.reset : State :=
  { pending := []
    mode := .reset
    now := 0
    ptp := {}
    regs := .empty
    cnts := .empty
    latches := .empty
    out := []
    draws := 0
    gen := {}
    hif := {}
    eic := {}
    flt := { squelch := true }
    kiln := {}
    units := {}
    prt := .empty
    frames := .empty
    nextFrame := 0
    bpm := {}
    fab := {}
    sched := {}
    pol := {}
    cps := .empty
    glz := {}
    bur := {}
    tabs := {}
    fuses := {}
    sampBkt := .empty
    sampLfsr := .empty
    sampSeq := .empty
    hbm := {}
    mgt := {}
    pmc := {}
    rst := {}
    refLost := [] }

end Sys2Proof.Machine
end

