-- ==== Sys2Proof/Machine/Ops.lean ====
section
/-! DEFINITION. The operations that every chapter shares: time, registers, counters, outputs, free values, interrupt
pending, event records, the Kiln Record, fault events and configuration errors. -/

namespace Sys2Proof.Machine

/-! Time -/

/-- One millisecond and one microsecond of the free-running counter. -/
abbrev msNs : Nat := 1000000
/-- One microsecond. -/
abbrev usNs : Nat := 1000

/-- `dt` ns pass: the free-running counter and PTP time advance (R107, R108), and powered time accumulates. -/
def State.advance (s : State) (dt : Nat) : State :=
  { s with
    now := s.now + dt
    ptp := { s.ptp with time := (s.ptp.time + (dt : Int) * (2 ^ 32 + s.ptp.rate)).toNat }
    kiln := { s.kiln with lifeNs := s.kiln.lifeNs + dt } }

/-- Time passes up to a deadline; none when the deadline has passed. Log entry 4. -/
def State.advanceTo (s : State) (t : Nat) : State := s.advance (t - s.now)

/-- PTP seconds. -/
def State.ptpSec (s : State) : Nat := s.ptp.time / 2 ^ 32 / 1000000000
/-- PTP nanoseconds within the second. -/
def State.ptpNano (s : State) : Nat := s.ptp.time / 2 ^ 32 % 1000000000
/-- PTP fraction in 1/256 ns. -/
def State.ptpFrac (s : State) : Nat := s.ptp.time % 2 ^ 32 / 2 ^ 24

/-! Registers and counters -/

/-- The stored value of a register element, in function `fn`'s copy where it is banked. -/
def State.regOf (s : State) (r : RegName) (fn i j : Nat) : Nat := s.regs.get (r.resetAt i j) (r.key fn i j)

/-- The stored value of a register element of the device. -/
def State.reg (s : State) (r : RegName) (i j : Nat) : Nat := s.regOf r 0 i j

/-- Bits hi to lo of a register element. -/
def State.fld (s : State) (r : RegName) (i j hi lo : Nat) : Nat := bitsOf hi lo (s.reg r i j)

/-- Bit b of a register element. -/
def State.bit (s : State) (r : RegName) (i j b : Nat) : Bool := bitOf b (s.reg r i j)

/-- Replace a register element of function `fn`'s copy. -/
def State.setRegOf (s : State) (r : RegName) (fn i j v : Nat) : State :=
  { s with regs := s.regs.set (r.resetAt i j) (r.key fn i j) v }

/-- Replace a register element of the device. -/
def State.setReg (s : State) (r : RegName) (i j v : Nat) : State := s.setRegOf r 0 i j v

/-- A counter's value. -/
def State.cnt (s : State) (k : Nat) : Nat := s.cnts.get 0 k

/-- Count n events in a 48-bit counter that wraps (R114). -/
def State.bumpBy (s : State) (k n : Nat) : State :=
  { s with cnts := s.cnts.set 0 k ((s.cnts.get 0 k + n) % 2 ^ 48) }

/-- Count one event. -/
def State.bump (s : State) (k : Nat) : State := s.bumpBy k 1

/-! General counters (R520, R521, Table 18.1) -/

/-- PMC_CNT_CFG of counter k. -/
def State.pmcCfg (s : State) (k : Nat) : Nat := s.reg .pmcCntCfg 0 k

/-- Add to an enabled counter; a carry passes to a chained, enabled successor, or sets OVF when there is none. -/
def State.pmcAdd (s : State) (k n : Nat) : Nat → State
  | 0 => s
  | fuel + 1 =>
    let v := s.cnts.get 0 (cntPmc k) + n
    let t := { s with cnts := s.cnts.set 0 (cntPmc k) (v % 2 ^ 48) }
    if v < 2 ^ 48 then t
    else
      let next := s.pmcCfg (k + 1)
      if k < 4095 ∧ bitOf 30 next then (if bitOf 31 next then t.pmcAdd (k + 1) 1 fuel else t)
      else t.setReg .pmcCntCfg 0 k (withBits 29 29 (t.pmcCfg k) 1)

/-- The counters whose configuration is stored and selects an event. -/
def State.pmcSelected (s : State) (unit inst event : Nat) : List Nat :=
  let base := RegName.pmcCntCfg.key 0 0 0
  s.regs.cells.filterMap fun c =>
    if base ≤ c.1 ∧ c.1 < base + 16384 ∧ bitsOf 31 30 c.2 = 2 ∧ bitsOf 27 24 c.2 = unit ∧ bitsOf 23 16 c.2 = inst ∧
        bitsOf 7 0 c.2 = event then some ((c.1 - base) / 4) else none

/-- `n` events of Table 18.1 occur. -/
def State.pmcCount (s : State) (unit inst event n : Nat) : State :=
  if !s.bit .pmcCtrl 0 0 0 then s
  else runOver (s.pmcSelected unit inst event) (fun k s => s.pmcAdd k n 4096) s

/-- Payload bytes of what goes out on PCI Express (Table 18.1, unit 7). -/
def Out.payload : Out → Nat
  | .hostWrite _ _ d => d.length
  | .msix _ _ _ _ => 4
  | _ => 0

/-- Put something out. -/
def State.emit (s : State) (o : Out) : State :=
  let s := { s with out := s.out ++ [o] }
  if s.bit .pmcCtrl 0 0 0 && o.payload ≠ 0 then s.pmcCount 7 0 3 o.payload else s

/-- Draw a free value of w bits: the value, and the state with the draw counted. Log entry 20. -/
def State.draw (s : State) (w : Nat) : BitVec w × State :=
  (Config.freeValue w s.draws, { s with draws := s.draws + 1 })

/-- The Kiln Record's powered seconds. -/
def State.lifeS (s : State) : Nat := s.kiln.lifeNs / 1000000000

/-! Interrupt pending (R446) -/

/-- Whether an interrupt source is level triggered (Table 15.1). -/
def srcIsLevel (n : Nat) : Bool := (1025 ≤ n && n ≤ 1280) || n == 1284

/-- Whether a source is pending (R446). -/
def IntSource.isPending (x : IntSource) (n : Nat) : Bool := if srcIsLevel n then x.input || x.latch else x.edge

/-- The state of interrupt source n. -/
def State.intSrc (s : State) (n : Nat) : IntSource := s.eic.src.get {} n

/-- Change interrupt source n; sources outside 1 to 1,920 do not exist (R443). -/
def State.setIntSrc (s : State) (n : Nat) (x : IntSource) : State :=
  if 1 ≤ n ∧ n ≤ 1920 then { s with eic := { s.eic with src := s.eic.src.set {} n x } } else s

/-- Set a pending state, noting the time when the source was not pending before. -/
def State.setPendingWith (s : State) (n : Nat) (f : IntSource → IntSource) : State :=
  let x := s.intSrc n
  let y := f x
  s.setIntSrc n (if y.isPending n && !x.isPending n then { y with pendTime := s.now } else y)

/-- An event of an edge source, or a software set (R446, R447). -/
def State.eicEvent (s : State) (n : Nat) : State :=
  s.setPendingWith n fun x => if srcIsLevel n then { x with latch := true } else { x with edge := true }

/-! References to generations (R59) -/

/-- A reference to a generation is taken (R59). -/
def State.refUp (s : State) (g : Gen) : State :=
  { s with gen := { s.gen with refs := s.gen.refs.modify 0 g.toNat (· + 1) } }

/-- A reference is dropped (R59). -/
def State.refDown (s : State) (g : Gen) : State :=
  { s with gen := { s.gen with refs := s.gen.refs.modify 0 g.toNat (· - 1) } }

/-! Rings (R367 to R373) -/

/-- The function that owns a ring (Table 12.2). -/
def ringFn (r : Nat) : Fn := if r < 3584 then .pf0 else if r < 3840 then .pf1 else .pf2

/-- The live state of a ring. -/
def State.ring (s : State) (r : Nat) : RingState := s.hif.rings.get {} r

/-- Replace a ring's live state. -/
def State.setRing (s : State) (r : Nat) (x : RingState) : State :=
  { s with hif := { s.hif with rings := s.hif.rings.set {} r x } }

/-- The VF that owns a ring group of PF0, or 0 for PF0 itself (Table 12.24). -/
def State.groupVf (s : State) (g : Nat) : Nat :=
  bitsOf (8 * (g % 4) + 5) (8 * (g % 4)) (s.reg .hifVfGroup 0 (g / 4))

/-- Whose requester ID a ring's DMA uses (R367). -/
def State.ringReq (s : State) (r : Nat) : Requester :=
  match ringFn r with
  | .pf0 =>
    let v := s.groupVf (r / 16)
    if h : 1 ≤ v ∧ v ≤ 32 then .vf ⟨v - 1, by omega⟩ else .pf .pf0
  | f => .pf f

/-- Whether a ring is enabled (R369). -/
def RingState.enabled (x : RingState) : Bool :=
  x.active && !x.stopping && !x.halted && x.ctx.isSome

/-- Whether rings run in this mode (R380). -/
def Mode.ringsRun (m : Mode) : Bool := m ≠ .reset && m ≠ .bringup

/-- Whether a ring runs and is an enabled ring of this kind and function (R369, R380). -/
def State.ringIs (s : State) (r kind : Nat) (f : Fn) : Bool :=
  s.mode.ringsRun && (s.ring r).enabled && ((s.ring r).ctx.any fun c => c.kind = kind) && ringFn r = f

/-- Whether a ring has a descriptor fetched or in execution, so that its context stays cached (R370). -/
def RingState.busy (x : RingState) : Bool := !x.fetched.isEmpty || x.inExec.isSome

/-- The rings whose contexts stay cached when ring r uses its own: all but r, less the least recently used that is not
busy when the 256 entries are in use; none when every one is busy (R370). -/
def State.cacheRoom (s : State) (r : Nat) : Option (List Nat) :=
  let others := s.hif.cached.filter (· ≠ r)
  if others.length < 256 then some others
  else (others.reverse.find? fun x => !(s.ring x).busy).map fun v => others.filter (· ≠ v)

/-- Note the use of a ring's context in the cache of 256 entries; with no entry to evict the use leaves no trace in it
(R370). -/
def State.touchCtx (s : State) (r : Nat) : State :=
  match s.cacheRoom r with
  | some kept => { s with hif := { s.hif with cached := r :: kept } }
  | none => s

/-- Entries of a ring. -/
def RingState.size (x : RingState) : Nat := match x.ctx with
  | some c => 2 ^ c.log2n
  | none => 0

/-- Bytes of a ring entry (Table 12.3). -/
def entryBytes (kind : Nat) : Nat :=
  if kind = 1 ∨ kind = 2 then 32 else if kind = 5 then 64 else 16

/-- Host address of slot i mod N (R368). -/
def RingState.slotAddr (x : RingState) (i : Nat) : Nat := match x.ctx with
  | some c => c.base + i % 2 ^ c.log2n * entryBytes c.kind
  | none => 0

/-- Write the write-back word (Table 12.5). -/
def State.writeBack (s : State) (r : Nat) : State :=
  let x := s.ring r
  match x.ctx with
  | some c =>
    s.emit (.hostWrite (s.ringReq r) c.wbAddr
      (leBytes 8 (x.devIdx % 2 ^ 32 + boolBit x.halted * 2 ^ 32 + x.err % 256 * 2 ^ 40)))
  | none => s

/-- An entry that asks for an interrupt has been written (R395). -/
def State.ringIrq (s : State) (r : Nat) : State :=
  let x := s.ring r
  match x.ctx with
  | some c =>
    if !c.irqEn then s
    else if c.holdoffUs = 0 then s.eicEvent c.irqSrc
    else if x.holdEnd ≠ 0 ∧ s.now < x.holdEnd then s.setRing r { x with irqHeld := true }
    else (s.setRing r { x with holdEnd := s.now + c.holdoffUs * usNs, irqHeld := false }).eicEvent c.irqSrc
  | none => s

/-! Event records (R392, R393) -/

/-- Count a lost record of ring r in HIF_EVT_DROP_CNT of its function. -/
def State.loseRecord (s : State) (r : Nat) : State := s.bump (cntHif (ringFn r).num 1)

/-- Whether an event ring is full (R393). -/
def RingState.full (x : RingState) : Bool := (x.devIdx + 2 ^ 32 - x.hostIdx) % 2 ^ 32 ≥ x.size

/-- Write a record into the next slot, then the write-back word, then any interrupt (R392). -/
def State.putRecord (s : State) (r type time : Nat) (body : Bytes) : State :=
  let x := s.ring r
  let phase := boolBit (x.devIdx / x.size % 2 == 0)
  let bytes := leBytes 2 type ++ leBytes 1 phase ++ leBytes 1 0 ++ leBytes 4 x.seq ++ leBytes 8 time
    ++ sliceOf body 0 48
  let s := s.emit (.hostWrite (s.ringReq r) (x.slotAddr x.devIdx) bytes)
  let s := (s.touchCtx r).setRing r { x with devIdx := (x.devIdx + 1) % 2 ^ 32, seq := (x.seq + 1) % 2 ^ 32 }
  (s.writeBack r).ringIrq r

/-- Write the OVERFLOW record when records have been lost and there is room (R393). -/
def State.putOverflow (s : State) (r : Nat) : State :=
  let x := s.ring r
  if x.lost = 0 ∨ x.full then s
  else (s.setRing r { x with lost := 0 }).putRecord r 0x0001 s.now (leBytes 4 x.lost)

/-- A record for ring r of function f, whose source is allowed rings of f: an EVENT ring that is disabled, halted or full
counts it as lost, and any other ring that is not an enabled one leaves no trace of it (R369, R388, R393). -/
def State.writeRecord (s : State) (f : Fn) (r type time : Nat) (body : Bytes) : State :=
  if !s.ringIs r 5 f then
    if ringFn r = f && (s.ring r).ctx.any fun c => c.kind = 5 then
      let s := s.loseRecord r
      -- a halted EVENT ring loses its entries under R393
      if (s.ring r).halted then s.setRing r { s.ring r with lost := (s.ring r).lost + 1 } else s
    else s
  else
    let s := s.putOverflow r
    if (s.ring r).full then (s.loseRecord r).setRing r { s.ring r with lost := (s.ring r).lost + 1 }
    else s.putRecord r type time body

/-- Whether writeRecord would write the record. -/
def State.recordFits (s : State) (f : Fn) (r : Nat) : Bool :=
  s.ringIs r 5 f && (let x := s.ring r
    let used := (x.devIdx + 2 ^ 32 - x.hostIdx) % 2 ^ 32 + boolBit (x.lost ≠ 0)
    used < x.size)

/-- A record for the control ring of a function (R394). -/
def State.ctrlRecord (s : State) (f : Fn) (type : Nat) (body : Bytes) : State :=
  let v := s.regOf .hifEvtRoute f.num 0 0
  if bitOf 15 v then s.writeRecord f (bitsOf 11 0 v) type s.now body else s

/-! Counter pairs (R525 to R528) -/

/-- An update of counter pair i enters a cache (R526, R527). -/
def State.countPair (s : State) (i len : Nat) : State :=
  let w := (s.pmc.waiting.get none i).getD ⟨0, 0, s.now⟩
  { s with pmc := { s.pmc with waiting := s.pmc.waiting.set none i (some { w with bytes := w.bytes + len, frames := w.frames + 1 }) } }

/-! The Kiln Record (R487 to R489) -/

/-- Append a log entry to the buffer of 8 pages of 126 entries, or count it as lost (R488). -/
def State.kilnLog (s : State) (type fn : Nat) (data : Bytes) : State :=
  let e : KilnEntry := ⟨type, fn, false, s.lifeS, if s.ptp.isSet then s.ptpSec else 0, sliceOf data 0 10⟩
  if s.kiln.buffer.length < 1008 then { s with kiln := { s.kiln with buffer := s.kiln.buffer ++ [e] } }
  else { s with kiln := { s.kiln with logDrop := s.kiln.logDrop + 1 } }

/-- Set PERM_FULL (R487). -/
def State.setPermFull (s : State) : State := { s with kiln := { s.kiln with permFull := true } }

/-- Append a permanent entry; once the area is full, to the log with PERM_FULL set (R487). -/
def State.kilnPerm (s : State) (type fn : Nat) (data : Bytes) : State :=
  if s.kiln.perm.length < 16384 then
    { s with kiln := { s.kiln with
        perm := s.kiln.perm ++ [⟨type, fn, false, s.lifeS, if s.ptp.isSet then s.ptpSec else 0, sliceOf data 0 10⟩] } }
  else (s.kilnLog type fn data).setPermFull

/-! Units with spares -/

/-- Encrypt lane pairs of a slice. -/
def State.encMap (s : State) (i : Nat) : UnitMap := s.units.enc.get (.straight 10) i
/-- Decrypt lanes of a slice. -/
def State.decMap (s : State) (i : Nat) : UnitMap := s.units.dec.get (.straight 10) i
/-- Burin engines of a slice. -/
def State.engMap (s : State) (i : Nat) : UnitMap := s.units.eng.get (.straight 4) i
/-- Rule tiles of a quad. -/
def State.tileMap (s : State) (q : Nat) : UnitMap := s.units.tiles.get (.straight 64) q
/-- A pseudo-channel group. -/
def State.group (s : State) (g : Nat) : GroupState := s.units.groups.get {} g

/-- Replace a slice's encrypt map. -/
def State.setEncMap (s : State) (i : Nat) (m : UnitMap) : State :=
  { s with units := { s.units with enc := s.units.enc.set (.straight 10) i m } }
/-- Replace a slice's decrypt map. -/
def State.setDecMap (s : State) (i : Nat) (m : UnitMap) : State :=
  { s with units := { s.units with dec := s.units.dec.set (.straight 10) i m } }
/-- Replace a slice's engine map. -/
def State.setEngMap (s : State) (i : Nat) (m : UnitMap) : State :=
  { s with units := { s.units with eng := s.units.eng.set (.straight 4) i m } }
/-- Replace a quad's tile map. -/
def State.setTileMap (s : State) (q : Nat) (m : UnitMap) : State :=
  { s with units := { s.units with tiles := s.units.tiles.set (.straight 64) q m } }
/-- Replace a group's state. -/
def State.setGroup (s : State) (g : Nat) (x : GroupState) : State :=
  { s with units := { s.units with groups := s.units.groups.set {} g x } }

/-- When a pseudo-channel was last trained: at the release of domain 5 at the latest (Table 17.3, R407). -/
def State.lastTrained (s : State) (pc : Nat) : Nat := max (s.hbm.trained.get 0 pc) (s.rst.readyAt.get 0 5)

/-! Fault sources (Table 14.1) -/

/-- Kinds of a fault source. -/
inductive SourceKind where
  | retirable | countOnly | critical | information | unassigned
  deriving DecidableEq, Repr

/-- The kind of a source (Table 14.1). -/
def sourceKind (n : Nat) : SourceKind :=
  if n < 0x12 then .retirable
  else if 0x20 ≤ n ∧ n < 0x30 then .retirable
  else if n = 0x30 then .countOnly
  else if n = 0x31 then .retirable
  else if 0x34 ≤ n ∧ n < 0x38 then .countOnly
  else if 0x40 ≤ n ∧ n < 0x320 then .retirable
  else if 0x320 ≤ n ∧ n < 0x4A0 then .retirable
  else if 0x4A0 ≤ n ∧ n < 0x4CD then .critical
  else if 0x4D0 ≤ n ∧ n < 0x4F5 then .critical
  else if n = 0x4F8 ∨ n = 0x4FF then .information
  else .unassigned

/-- The category of a retirable source (Table 14.1). -/
def sourceCat (n : Nat) : Nat :=
  if n < 0x12 then 0 else if n < 0x30 then 1 else if n = 0x31 then 8
  else if n < 0x100 then 2 else if n < 0x1C0 then 3 else if n < 0x210 then 4
  else if n < 0x320 then 5 else if n < 0x3A0 then 6 else 7

/-- Spares left in a source's pool, or 0xFF for a source without one (Table 14.7). -/
def State.sparesLeft (s : State) (n : Nat) : Nat :=
  match sourceKind n with
  | .retirable =>
    match sourceCat n with
    | 0 => (s.units.planes.spares 18).length
    | 2 => ((s.encMap ((n - 0x40) / 12)).spares 12).length
    | 3 => ((s.decMap ((n - 0x100) / 12)).spares 12).length
    | 4 => ((s.engMap ((n - 0x1C0) / 5)).spares 5).length
    | 5 => ((s.tileMap ((n - 0x210) / 68)).spares 68).length
    | 6 => if (s.group ((n - 0x320) % 16)).failed1.isNone then 1 else 0
    | _ => 0xFF
  | _ => 0xFF

/-- A fault source's state. -/
def State.fsrc (s : State) (n : Nat) : FaultSource := s.flt.src.get {} n

/-- Replace a fault source's state. -/
def State.setFsrc (s : State) (n : Nat) (x : FaultSource) : State :=
  { s with flt := { s.flt with src := s.flt.src.set {} n x } }

/-! FAULT records (R438, Tables 14.7 and 14.8) -/

/-- REASON codes (Table 14.8). -/
inductive Reason where
  | transient | permanent | retired | spareRejected | noSpare | critical | poison | late | configError | safeLeft
  deriving DecidableEq, Repr

/-- Code of a reason. -/
def Reason.code : Reason → Nat
  | .transient => 1 | .permanent => 2 | .retired => 3 | .spareRejected => 4 | .noSpare => 5
  | .critical => 6 | .poison => 7 | .late => 8 | .configError => 9 | .safeLeft => 10

/-- What a FAULT record says. -/
structure FaultNote where
  source : Nat
  reason : Reason
  cause : Nat := 0
  count : Nat := 0
  detail : Nat := 0
  firstTime : Nat := 0
  time : Nat
  spare : Nat := 0xFFFF

/-- The body of a FAULT record (Table 14.7). -/
def State.faultBody (s : State) (n : FaultNote) : Bytes :=
  leBytes 2 n.source ++ leBytes 1 n.reason.code ++ leBytes 1 n.cause ++ leBytes 4 (min n.count (2 ^ 32 - 1))
    ++ leBytes 8 n.detail ++ leBytes 8 n.firstTime ++ leBytes 2 n.spare ++ leBytes 1 (s.sparesLeft n.source)
    ++ leBytes 1 s.mode.code

/-- Write a FAULT record to RING, and a copy to OBS_RING; a written record sets source 1,282 pending (R438). -/
def State.faultRecord (s : State) (n : FaultNote) : State :=
  let v := s.reg .fltEvtCtrl 0 0
  let body := s.faultBody n
  let toRing := bitOf 12 v
  let toObs := bitOf 44 v
  let ok := (toRing && s.recordFits .pf0 (bitsOf 11 0 v)) || (toObs && s.recordFits .pf2 (bitsOf 43 32 v))
  let s := if toRing then s.writeRecord .pf0 (bitsOf 11 0 v) 0x0050 n.time body else s
  let s := if toObs then s.writeRecord .pf2 (bitsOf 43 32 v) 0x0050 n.time body else s
  if ok then s.eicEvent 1282 else s

/-- The record of a source's events counted so far, which then count anew. -/
def State.flushRecord (s : State) (n : Nat) (why : Reason) : State :=
  let x := s.fsrc n
  let s := s.setFsrc n { x with count := 0, firstTime := 0 }
  s.faultRecord { source := n, reason := why, cause := x.cause, count := x.count, detail := x.detail,
                  firstTime := x.firstTime, time := x.lastTime }

/-- Count one event toward the next record of its source. -/
def State.noteEvent (s : State) (n t cause detail : Nat) : State :=
  let x := s.fsrc n
  s.setFsrc n { x with count := x.count + 1, firstTime := if x.count = 0 then t else x.firstTime,
                       lastTime := t, cause := cause, detail := detail }

/-- The record of a TRANSIENT or CONFIG_ERROR event, at most one per source in any holdoff (R439). -/
def State.heldRecord (s : State) (n : Nat) (why : Reason) : State :=
  let x := s.fsrc n
  let h := s.fld .fltEvtCtrl 0 0 63 48
  if x.holdEnd ≠ 0 ∧ s.now < x.holdEnd then s
  else if h = 0 then s.flushRecord n why
  else (s.setFsrc n { x with holdEnd := s.now + h * msNs }).flushRecord n why

/-- COUNT and WINDOW_MS of a category (R421). -/
def State.threshold (s : State) (cat : Nat) : Nat × Nat :=
  (s.fld .fltThr 0 cat 19 16, s.fld .fltThr 0 cat 15 0)

/-- Whether a history reaches COUNT events within WINDOW_MS at its newest event (R422). -/
def reachesThreshold (hist : List Nat) (count windowMs : Nat) : Bool :=
  if hist.length < count then false
  else hist.getD (hist.length - 1) 0 - hist.getD (hist.length - count) 0 ≤ windowMs * msNs

/-- The pool key of a retirable source with spares (R424); sources without spares have none. -/
def poolOf (n : Nat) : Option Nat :=
  match sourceKind n with
  | .retirable =>
    match sourceCat n with
    | 0 => some 0
    | 2 => some (100 + (n - 0x40) / 12)
    | 3 => some (200 + (n - 0x100) / 12)
    | 4 => some (300 + (n - 0x1C0) / 5)
    | 5 => some (400 + (n - 0x210) / 68)
    | 6 => some (500 + (n - 0x320) % 16)
    | _ => none
  | _ => none

/-- A category runs beyond its envelope: NO_SPARE record, FLT_DEGRADED and the Kiln Record (R429, R441). -/
def State.degrade (s : State) (n : Nat) : State :=
  let k := sourceCat n
  let s := s.faultRecord { source := n, reason := .noSpare, time := (s.fsrc n).lastTime,
                           firstTime := (s.fsrc n).lastTime }
  if s.flt.degraded.contains k then s
  else
    let s := { s with flt := { s.flt with degraded := s.flt.degraded ++ [k] } }
    if s.mode = .factoryTest then s else s.kilnPerm 0x0014 3 (leBytes 1 k)

/-- A source joins those whose retirement waits, in order of classification, and among those of one AON cycle of 10 ns in
ascending order (R424). -/
def State.enqueueRetirement (s : State) (n : Nat) : State :=
  let behind := fun m => (s.fsrc m).permCycle = (s.fsrc n).permCycle && n < m
  { s with flt := { s.flt with queue := s.flt.queue.takeWhile (!behind ·) ++ n :: s.flt.queue.dropWhile (!behind ·) } }

/-- A source is classed permanent (R422, R424, R426, R429): PERMANENT record, PENDING entry, and its retirement waits
its turn. Categories without spares degrade at once. -/
def State.classify (s : State) (n : Nat) : State :=
  let s := s.setFsrc n { s.fsrc n with perm := true, permCycle := s.now / 10 + 1 }
  let s := s.flushRecord n .permanent
  let s := if s.mode = .factoryTest then s
    else s.kilnPerm 0x0010 3 (leBytes 2 n ++ leBytes 1 (sourceCat n))
  match poolOf n with
  | some _ => s.enqueueRetirement n
  | none => s.degrade n

/-- One event of a retirable source at time t (R422). -/
def State.retirableEvent (s : State) (n t cause detail : Nat) : State :=
  let s := s.noteEvent n t cause detail
  let x := s.fsrc n
  let hist := (x.hist ++ [t]).drop (x.hist.length + 1 - 15)
  let s := s.setFsrc n { x with hist := hist }
  let (c, w) := s.threshold (sourceCat n)
  if reachesThreshold hist c w then s.classify n
  else
    let s := { s with kiln := { s.kiln with
      retry := s.kiln.retry.set 0 (sourceCat n) (s.kiln.retry.get 0 (sourceCat n) + 1) } }
    s.heldRecord n .transient

/-- k events of a retirable source, until it is classed permanent (R422). -/
def State.retirableEvents (s : State) (n t cause detail : Nat) : Nat → State
  | 0 => s
  | k + 1 =>
    if (s.fsrc n).perm then s
    else (s.retirableEvent n t cause detail).retirableEvents n t cause detail k

/-- k events of a source that is never retired: each counts toward a held record, or has its own (R418, R439). -/
def State.countedEvents (s : State) (n t cause detail : Nat) (why : Reason) : Nat → State
  | 0 => s
  | k + 1 =>
    let s := s.noteEvent n t cause detail
    (if why = .late then s.flushRecord n why else s.heldRecord n why).countedEvents n t cause detail why k

/-- Saggar accepts `k` events of a source detected at time t (R418, R420, R422, R423). -/
def State.faultEventAt (s : State) (n cause detail k t : Nat) : State :=
  let x := s.fsrc n
  if x.retired then s else
  let s := s.setFsrc n { x with flag := true }
  match sourceKind n with
  | .unassigned => s.setFsrc n x
  | .information =>
    if n = 0x4FF then (s.bumpBy (cntFlt 3) k).countedEvents n t cause detail .configError k
    else s.countedEvents n t cause detail .late k
  | .countOnly =>
    let s := s.bumpBy (cntFlt 0) k
    let slot := if n = 0x30 then 9 else 10
    let s := { s with kiln := { s.kiln with retry := s.kiln.retry.set 0 slot (s.kiln.retry.get 0 slot + k) } }
    s.countedEvents n t cause detail .transient k
  | .critical => s.bumpBy (cntFlt 0) k
  | .retirable => (s.bumpBy (cntFlt 0) k).retirableEvents n t cause detail k

/-- One fault event now. -/
def State.fault (s : State) (n cause detail : Nat) : State := s.faultEventAt n cause detail 1 s.now

/-- Take one of the corruptions that wait for the next operations of a source (R440). -/
def State.takeCorrupt (s : State) (n : Nat) : Bool × State :=
  let k := s.flt.corrupt.get 0 n
  (k ≠ 0, if k = 0 then s else { s with flt := { s.flt with corrupt := s.flt.corrupt.set 0 n (k - 1) } })

/-- Take up to k of the corruptions that wait for the next operations of a source: how many, and the state. -/
def State.takeCorrupts (s : State) (n k : Nat) : Nat × State :=
  let c := s.flt.corrupt.get 0 n
  let t := min c k
  (t, if t = 0 then s else { s with flt := { s.flt with corrupt := s.flt.corrupt.set 0 n (c - t) } })

/-- A configuration-error event for an access by function f at a BAR0 offset (R6, R42, Table 14.7). -/
def State.configError (s : State) (f : Fn) (addr : Nat) : State :=
  s.faultEventAt 0x4FF 0 (addr % 2 ^ 26 + f.num * 2 ^ 32) 1 s.now

/-- A background lap or sweep overran its limit: source 0x4F8, REASON LATE (R419, Table 14.8). -/
def State.lateLap (s : State) : State := s.faultEventAt 0x4F8 0 0 1 s.now

/-- A unit or word of a memory is poisoned: REASON POISON (Table 14.7). Its source is the unit's own. -/
def State.poisonRecord (s : State) (n inst addr : Nat) : State :=
  s.faultRecord { source := n, reason := .poison, count := 1, detail := inst % 2 ^ 12 + addr % 2 ^ 40 * 2 ^ 12,
                  firstTime := s.now, time := s.now }

/-- Record a RETIRED swap: the record, the Kiln entry and the masked line (R423, R426, Table 14.8). -/
def State.noteRetired (s : State) (n spare : Nat) : State :=
  let s := s.setFsrc n { s.fsrc n with retired := true }
  let s := { s with flt := { s.flt with running := s.flt.running.filter (· ≠ n) } }
  let s := s.faultRecord { source := n, reason := .retired, spare := spare, firstTime := s.now, time := s.now }
  if s.mode = .factoryTest then s
  else s.kilnPerm 0x0011 3 (leBytes 2 n ++ leBytes 2 spare ++ leBytes 1 (s.sparesLeft n))

/-- A retirement ends without a spare's taking the place: the source's line is masked (R423). -/
def State.endRetirement (s : State) (n : Nat) : State :=
  let s := s.setFsrc n { s.fsrc n with retired := true }
  { s with flt := { s.flt with running := s.flt.running.filter (· ≠ n) } }

end Sys2Proof.Machine
end

