-- ==== Sys2Proof/Machine/HostOps.lean ====
section
/-! DEFINITION. The operations of the host interface: opcodes and their operands, completions, halts, handing
descriptors on, disabling a ring, punts and messages (chapter 12). -/

namespace Sys2Proof.Machine

/-- Completion statuses (Table 12.11). -/
inductive Status where
  | ok | genMarkerLate | aborted
  | badOpcode | badDesc | privilege | mode | dmaError | seqFault
  | genFull | genTimePast | genBadTrigger | genLogFull | genBadState
  | ruleExists | ruleNotFound | ruleTileFull | ruleWidth | ruleTileLost | ruleBadRecord | ruleProfileFull
  | emExists | emNotFound | emTableFull | emBadRecord
  | lpmExists | lpmNotFound | lpmFull | lpmBadRecord
  | cirBadRecord | cirNotFound | cirEqBusy | cirPoolFull | cirHasSa | cirBusy | cirPoisonVisible
  | saSlotBusy | saKeyBusy | saBadRecord | saNotFound | saInUse | saNotTx | saBoundElsewhere
  | keyUnwrapFail | keyBinding | keyKekSlot | kekBudget
  | egsBadRecord | polBadRecord | polNotFound | cpsMode | cpsSize | cpsRate | cpsBadRecord
  | parseInvalid | notStaged | ptpRange
  deriving DecidableEq, Repr

/-- Code of a status (Table 12.11). -/
def Status.code : Status → Nat
  | .ok => 0x0000 | .genMarkerLate => 0x0001 | .aborted => 0x0002
  | .badOpcode => 0x0010 | .badDesc => 0x0011 | .privilege => 0x0012 | .mode => 0x0013
  | .dmaError => 0x0014 | .seqFault => 0x0015
  | .genFull => 0x0020 | .genTimePast => 0x0021 | .genBadTrigger => 0x0022 | .genLogFull => 0x0023
  | .genBadState => 0x0024
  | .ruleExists => 0x0030 | .ruleNotFound => 0x0031 | .ruleTileFull => 0x0032 | .ruleWidth => 0x0033
  | .ruleTileLost => 0x0034 | .ruleBadRecord => 0x0035 | .ruleProfileFull => 0x0036
  | .emExists => 0x0040 | .emNotFound => 0x0041 | .emTableFull => 0x0042 | .emBadRecord => 0x0043
  | .lpmExists => 0x0048 | .lpmNotFound => 0x0049 | .lpmFull => 0x004A | .lpmBadRecord => 0x004B
  | .cirBadRecord => 0x0050 | .cirNotFound => 0x0051 | .cirEqBusy => 0x0052 | .cirPoolFull => 0x0053
  | .cirHasSa => 0x0054 | .cirBusy => 0x0055 | .cirPoisonVisible => 0x0056
  | .saSlotBusy => 0x0060 | .saKeyBusy => 0x0061 | .saBadRecord => 0x0062 | .saNotFound => 0x0063
  | .saInUse => 0x0064 | .saNotTx => 0x0065 | .saBoundElsewhere => 0x0066
  | .keyUnwrapFail => 0x0067 | .keyBinding => 0x0068 | .keyKekSlot => 0x0069 | .kekBudget => 0x006A
  | .egsBadRecord => 0x0070 | .polBadRecord => 0x0071 | .polNotFound => 0x0072
  | .cpsMode => 0x0073 | .cpsSize => 0x0074 | .cpsRate => 0x0075 | .cpsBadRecord => 0x0076
  | .parseInvalid => 0x0080 | .notStaged => 0x0081 | .ptpRange => 0x0082

/-- Whether a status halts the ring (R382). -/
def Status.halts : Status → Bool
  | .ok | .genMarkerLate | .aborted => false
  | _ => true

/-- The modes in which an opcode runs (Table 12.10a). -/
inductive RunsIn where
  | always | working | configOnly | forwardOnly | safeOnly
  deriving DecidableEq, Repr

/-- Whether a command runs in this mode (Table 12.10a). -/
def RunsIn.ok (r : RunsIn) (m : Mode) : Bool :=
  match r with
  | .always => m = .config || m = .forward || m = .drain || m = .safe || m = .standby || m = .factoryTest
  | .working => m = .config || m = .forward || m = .drain || m = .factoryTest
  | .configOnly => m = .config
  | .forwardOnly => m = .forward
  | .safeOnly => m = .safe

/-- An operand: its descriptor offset, its bytes and the least and greatest value in range. -/
structure Operand where
  off : Nat
  bytes : Nat
  least : Nat
  most : Nat

/-- An opcode of Table 12.9. -/
structure OpInfo where
  code : Nat
  /-- Accepted on PF0 COMMAND rings, PF2 COMMAND rings and PF1 KEY rings. -/
  c0 : Bool
  c2 : Bool
  k : Bool
  usesAddr : Bool
  runs : RunsIn
  args : List Operand

/-- An operand with every value in range. -/
def anyOf (off bytes : Nat) : Operand := ⟨off, bytes, 0, 2 ^ (8 * bytes) - 1⟩

/-- Table 12.9. Operands with a limited range have it checked for BAD_DESC (R381). -/
def opTable : List OpInfo :=
  [⟨0x0001, true, true, true, false, .always, []⟩,
   ⟨0x0010, true, false, false, false, .working, [anyOf 0x10 1, anyOf 0x12 2, ⟨0x14, 4, 0, 2 ^ 30 - 1⟩, anyOf 0x18 6]⟩,
   ⟨0x0011, true, false, false, false, .working, []⟩,
   ⟨0x0020, true, false, false, true, .working, []⟩,
   ⟨0x0021, true, false, false, true, .working, []⟩,
   ⟨0x0022, true, false, false, false, .working, [anyOf 0x10 2]⟩,
   ⟨0x0023, true, false, false, true, .always, [anyOf 0x10 2, anyOf 0x12 2]⟩,
   ⟨0x0024, true, false, false, true, .working, []⟩,
   ⟨0x0025, true, false, false, false, .working, [⟨0x10, 1, 0, 31⟩]⟩] ++
  [⟨0x0030, true, false, false, true, .working, []⟩,
   ⟨0x0031, true, false, false, true, .working, []⟩,
   ⟨0x0032, true, false, false, true, .working, []⟩,
   ⟨0x0033, true, false, false, true, .always, [anyOf 0x10 2]⟩,
   ⟨0x0034, true, false, false, true, .always, [anyOf 0x10 2, ⟨0x12, 1, 0, 16⟩, ⟨0x13, 1, 1, 64⟩, anyOf 0x14 4]⟩,
   ⟨0x0035, true, false, false, false, .working, [⟨0x10, 1, 0, 1⟩, ⟨0x11, 1, 0, 1⟩, ⟨0x14, 4, 0, 65535⟩]⟩,
   ⟨0x0040, true, false, false, true, .working, []⟩,
   ⟨0x0041, true, false, false, true, .working, []⟩,
   ⟨0x0042, true, false, false, true, .working, []⟩] ++
  [⟨0x0050, true, false, false, true, .working, [anyOf 0x10 2]⟩,
   ⟨0x0051, true, false, false, false, .working, [anyOf 0x10 2]⟩,
   ⟨0x0052, true, false, true, true, .always, [anyOf 0x10 2, anyOf 0x12 2]⟩,
   ⟨0x0053, true, false, false, false, .working, [anyOf 0x10 2]⟩,
   ⟨0x0054, true, false, false, false, .working, [anyOf 0x10 2]⟩,
   ⟨0x0060, false, false, true, true, .working, []⟩,
   ⟨0x0061, false, false, true, false, .working, [anyOf 0x10 2, ⟨0x12, 1, 0, 3⟩]⟩,
   ⟨0x0062, false, false, true, false, .working, [anyOf 0x10 2, ⟨0x12, 1, 0, 255⟩]⟩,
   ⟨0x0063, false, false, true, true, .always, [anyOf 0x10 2, ⟨0x12, 1, 0, 3⟩, anyOf 0x14 2]⟩] ++
  [⟨0x0064, false, false, true, false, .working, [anyOf 0x10 2]⟩,
   ⟨0x0065, false, false, true, false, .working, []⟩,
   ⟨0x0066, false, false, true, false, .safeOnly, []⟩,
   ⟨0x0070, true, false, false, true, .working, []⟩,
   ⟨0x0071, true, false, false, true, .working, []⟩,
   ⟨0x0072, true, false, false, true, .working, []⟩,
   ⟨0x0078, true, false, false, true, .working, []⟩,
   ⟨0x0079, true, false, false, false, .working, [⟨0x10, 2, 0, 16383⟩]⟩,
   ⟨0x007A, true, false, false, true, .always, [⟨0x10, 2, 0, 16383⟩, anyOf 0x12 2, ⟨0x14, 1, 0, 3⟩]⟩] ++
  [⟨0x0080, true, false, false, false, .configOnly, []⟩,
   ⟨0x0081, true, false, false, false, .forwardOnly, []⟩,
   ⟨0x0082, true, false, false, false, .configOnly, []⟩,
   ⟨0x0083, true, false, false, false, .safeOnly, []⟩,
   ⟨0x0084, true, false, false, false, .always, [⟨0x10, 1, 1, 4⟩, anyOf 0x14 4, anyOf 0x18 8]⟩,
   ⟨0x0090, true, true, false, true, .always, [anyOf 0x10 4, ⟨0x14, 2, 1, 256⟩]⟩]

/-- Opcode, TAG and ADDR of a descriptor (Table 12.7). -/
def descOp (d : Bytes) : Nat := leAt d 0 2
/-- FLAGS. -/
def descFlags (d : Bytes) : Nat := byteAt d 2
/-- ADDR. -/
def descAddr (d : Bytes) : Nat := leAt d 8 8

/-- Whether byte `i` of the descriptor belongs to an operand. -/
def OpInfo.covers (o : OpInfo) (i : Nat) : Bool := o.args.any fun a => a.off ≤ i && i < a.off + a.bytes

/-- A nonzero reserved field, a misaligned ADDR, or an operand out of range (R381, R378). -/
def OpInfo.badDesc (o : OpInfo) (d : Bytes) : Bool :=
  descFlags d > 1 || byteAt d 3 ≠ 0 || descAddr d % 8 ≠ 0 || (!o.usesAddr && descAddr d ≠ 0) ||
  ((List.range 16).any fun i => !o.covers (16 + i) && byteAt d (16 + i) ≠ 0) ||
  (o.args.any fun a => leAt d a.off a.bytes < a.least || a.most < leAt d a.off a.bytes) ||
  -- CNT_READ whose range passes 1,048,575 (R378)
  (o.code = 0x0090 && leAt d 0x10 4 + leAt d 0x14 2 > 1048576) ||
  -- SA_SELECT_TX names a slot 0 to 3, or 0xFF for none (Table 07.2)
  (o.code = 0x0062 && 3 < byteAt d 0x12 && byteAt d 0x12 ≠ 0xFF) ||
  -- EM_FLUSH by port takes a port number (R186)
  (o.code = 0x0035 && byteAt d 0x10 = 0 && 127 < leAt d 0x14 4)

/-- Statuses 1 to 4 of R381, which need no record: the opcode, the function's role, the descriptor and the mode. -/
def State.handCheck (s : State) (r : Nat) (d : Bytes) : Option Status :=
  match opTable.find? (·.code = descOp d) with
  | none => some .badOpcode
  | some o =>
    let key := (s.ring r).ctx.any fun c => c.kind = 2
    if key && !o.k then some .badOpcode
    else if !key && !(o.c0 || o.c2) then some .badOpcode
    else if !key && ringFn r = .pf2 && !o.c2 then some .privilege
    else if !key && ringFn r = .pf0 && !o.c0 then some .privilege
    else if o.badDesc d then some .badDesc
    else if !o.runs.ok s.mode then some .mode
    else none

/-- Whether an opcode is run by the table sequencer. -/
def seqOpcode (o : Nat) : Bool := (0x10 ≤ o && o ≤ 0x63 && o ≠ 0x53 && o ≠ 0x54) || (0x78 ≤ o && o ≤ 0x7A)

/-- A descriptor has been fetched behind `held` others of its ring: the order in which sequencer commands are fetched is
kept for class 2 (R285); what the ring no longer holds leaves the order. -/
def State.noteFetch (s : State) (r held : Nat) (d : Bytes) : State :=
  let at_ := (s.ring r).devIdx
  let order := s.hif.seqOrder.filter fun e => e.1 ≠ r || (e.2 + 2 ^ 32 - at_) % 2 ^ 32 < held
  { s with hif := { s.hif with seqOrder := if seqOpcode (descOp d) then order ++ [(r, (at_ + held) % 2 ^ 32)] else order } }

/-- The completion of Table 12.8. -/
def completionBytes (d : Bytes) (st : Status) (info : Nat) (result : Bytes) : Bytes :=
  sliceOf d 0 3 ++ leBytes 1 1 ++ sliceOf d 4 4 ++ leBytes 2 st.code ++ zeros 2 ++ leBytes 4 info ++ sliceOf result 0 16

/-- The RING_ERROR record of a halt at an index (R386, R394). Log entry 94. -/
def State.ringErrorAt (s : State) (r err st index : Nat) : State :=
  s.ctrlRecord (ringFn r) 0x0002 (leBytes 2 r ++ leBytes 1 err ++ zeros 1 ++ leBytes 4 index ++ leBytes 2 st)

/-- The RING_ERROR record of a halt at the device index. -/
def State.ringErrorRecord (s : State) (r err : Nat) (st : Nat) : State := s.ringErrorAt r err st (s.ring r).devIdx

/-- A punted frame that waits on a ring leaves the device (R59). -/
def State.popPunt (s : State) (r : Nat) : State :=
  let x := s.ring r
  match x.puntQ with
  | job :: rest => (s.setRing r { x with puntQ := rest }).refDown job.gen
  | [] => s

/-- The punts that wait on a ring are lost: it halts or stops (R369, R386). Each is counted in HIF_PUNT_NOBUF_CNT: log
entry 97. -/
def State.dropPunts (s : State) (r : Nat) : State :=
  runOver (s.ring r).puntQ (fun _ s => (s.popPunt r).bump (cntHif (ringFn r).num 2)) s

/-- Halt a ring with an error that completes no command, concerning the entry `ahead` places past the device index: HALTED
and ERR, write-back, RING_ERROR, interrupt (R386, Table 12.10). -/
def State.haltRingAt (s : State) (r err ahead : Nat) : State :=
  let s := (s.dropPunts r).setRing r { s.ring r with halted := true, err := err, fetched := [], puntQ := [] }
  let s := s.writeBack r
  let s := s.ringErrorAt r err 0 (((s.ring r).devIdx + ahead) % 2 ^ 32)
  let s := if err = 4 ∨ err = 5 ∨ err = 6 then s.emit (.aer (s.ringReq r)) else s
  s.ringIrq r

/-- Halt a ring with an error at the device index. -/
def State.haltRing (s : State) (r err : Nat) : State := s.haltRingAt r err 0

/-- Write a completion at the device index and advance past the descriptor. -/
def State.putCompletion (s : State) (r : Nat) (d : Bytes) (st : Status) (info : Nat) (result : Bytes) : State :=
  let x := s.ring r
  let s := (s.pmcCount 7 0 2 1).emit (.hostWrite (s.ringReq r) (x.slotAddr x.devIdx) (completionBytes d st info result))
  s.setRing r { s.ring r with devIdx := (x.devIdx + 1) % 2 ^ 32 }

/-- Complete a command with a halting status (R382, R386). -/
def State.haltComplete (s : State) (r : Nat) (d : Bytes) (st : Status) (info : Nat) (result : Bytes) : State :=
  let s := s.setRing r { s.ring r with halted := true, err := 1, fetched := [], inExec := none }
  let s := s.putCompletion r d st info result
  let s := s.writeBack r
  let s := s.ringErrorRecord r 1 st.code
  s.ringIrq r

/-- Complete a command with a status that does not halt: completion, write-back word, interrupt when asked (R383). -/
def State.plainComplete (s : State) (r : Nat) (d : Bytes) (st : Status) (info : Nat) (result : Bytes) : State :=
  let s := s.setRing r { s.ring r with inExec := none }
  let s := s.putCompletion r d st info result
  let s := s.writeBack r
  if bitOf 0 (descFlags d) ∨ st = .aborted then s.ringIrq r else s

/-- Hand the next fetched descriptor to its unit, or complete it at once when R381's first four checks refuse it. -/
def State.handOn (s : State) (r : Nat) : State :=
  let x := s.ring r
  if x.halted || x.stopping || x.inExec.isSome || !x.active then s else
  match x.fetched with
  | [] => s
  | d :: rest =>
    let s := s.setRing r { x with fetched := rest }
    match s.handCheck r d with
    | some st => (if st = .privilege then s.configError (ringFn r) 0 else s).haltComplete r d st 0 []
    | none => s.setRing r { x with fetched := rest, inExec := some d }

/-- The fetched entries of a stopping COMMAND or KEY ring complete with ABORTED, in ring order (Table 12.13). -/
def State.abortFetched (s : State) (r : Nat) : State :=
  let x := s.ring r
  let s := s.setRing r { x with fetched := [], aborted := x.aborted + x.fetched.length }
  x.fetched.foldl (fun s d => s.plainComplete r d .aborted 0 []) s

/-- Complete the command in execution on ring r and hand on the next (R382, R383, R386, R388). -/
def State.complete (s : State) (r : Nat) (st : Status) (info : Nat := 0) (result : Bytes := []) : State :=
  match (s.ring r).inExec with
  | none => s
  | some d =>
    if st.halts then s.haltComplete r d st info result
    else
      let s := s.plainComplete r d st info result
      if (s.ring r).stopping then s.abortFetched r else s.handOn r

/-- The command in execution on ring r, when it has this opcode. -/
def State.executing (s : State) (r op : Nat) : Option Bytes :=
  match (s.ring r).inExec with
  | some d => if descOp d = op then some d else none
  | none => none

/-- Run a command that is in execution on ring r with this opcode; otherwise nothing happens. -/
def State.command (s : State) (r op : Nat) (f : Bytes → State → State) : State :=
  match s.executing r op with
  | some d => f d s
  | none => s

/-- Write a result buffer at an address with the ring's requester ID. -/
def State.dmaWrite (s : State) (r addr : Nat) (data : Bytes) : State := s.emit (.hostWrite (s.ringReq r) addr data)

/-! Context entries (R371, R372) -/

/-- Decode a ring context entry (Table 12.4). -/
def ctxOf (b : Bytes) : RingCtx :=
  { base := leAt b 0 8, wbAddr := leAt b 8 8, kind := byteAt b 0x10, log2n := byteAt b 0x11
    en := bitOf 0 (byteAt b 0x12), irqEn := bitOf 1 (byteAt b 0x12)
    irqSrc := leAt b 0x14 2, holdoffUs := leAt b 0x16 2
    reserved := byteAt b 0x12 ≥ 4 || byteAt b 0x13 ≠ 0 || !zeroAt b 0x18 40 }

/-- Whether a kind is allowed to the ring's function or VF (Table 12.2). -/
def State.kindAllowed (s : State) (r kind : Nat) : Bool :=
  match s.ringReq r with
  | .pf .pf0 => kind = 1 || kind = 3 || kind = 4 || kind = 5
  | .vf _ => kind = 3 || kind = 4 || kind = 5
  | .pf .pf1 => kind = 2 || kind = 5
  | .pf .pf2 => kind = 1 || kind = 5

/-- Whether a source is a ring-interrupt source of a function (R444). -/
def ringIrqSource (f : Fn) (n : Nat) : Bool :=
  match f with
  | .pf0 => 1 ≤ n && n ≤ 768
  | .pf1 => 769 ≤ n && n ≤ 896
  | .pf2 => 897 ≤ n && n ≤ 1024

/-- Whether an entry is valid (R372). -/
def State.ctxValid (s : State) (r : Nat) (c : RingCtx) : Bool :=
  s.kindAllowed r c.kind && 6 ≤ c.log2n && c.log2n ≤ 16 && c.base % 4096 = 0 && c.wbAddr % 8 = 0 && !c.reserved
    && (!c.irqEn || ringIrqSource (ringFn r) c.irqSrc)

/-- Enable a ring from an entry whose EN went from 0 to 1, or refuse it with BAD_CONTEXT (R371). -/
def State.enableRing (s : State) (r : Nat) (c : RingCtx) : State :=
  if s.ctxValid r c then
    s.setRing r { ctx := some c, active := true }
  else
    s.ringErrorRecord r 7 0

/-- The fetched buffers of a stopping PUNT or INJECT ring are written back with ABORTED (Table 12.13, Table 12.14). -/
def State.abortBuffers (s : State) (r kind : Nat) : State :=
  let s := s.dropPunts r
  let x := s.ring r
  let s := s.setRing r { x with fetched := [], aborted := x.aborted + x.fetched.length }
  x.fetched.foldl (fun s d =>
    let y := s.ring r
    let bytes := if kind = 3 then sliceOf d 0 8 ++ leBytes 2 0 ++ leBytes 1 9 ++ zeros 1 ++ leBytes 4 y.punted
      else sliceOf d 0 10 ++ leBytes 1 (byteAt d 10 ||| 1) ++ leBytes 1 1 ++ sliceOf d 12 4
    let s := s.emit (.hostWrite (s.ringReq r) (y.slotAddr y.devIdx) bytes)
    let s := s.setRing r { y with devIdx := (y.devIdx + 1) % 2 ^ 32 }
    (s.writeBack r).ringIrq r) s

/-- Begin to disable a ring: fetching stops, and what is fetched and not started is aborted once nothing is in
execution (R388). -/
def State.stopRing (s : State) (r : Nat) : State :=
  let x := s.ring r
  if !x.active || x.stopping then s else
  let s := s.setRing r { x with stopping := true, aborted := 0 }
  match x.ctx with
  | some c =>
    if c.kind = 1 ∨ c.kind = 2 then (if x.inExec.isSome then s else s.abortFetched r)
    else if c.kind = 3 ∨ c.kind = 4 then s.abortBuffers r c.kind
    else s
  | none => s

/-! Punted frames (R389) -/

/-- Whether a posted punt buffer is malformed (R389). -/
def badPuntBuffer (d : Bytes) : Bool :=
  leAt d 8 2 < 256 || 16384 < leAt d 8 2 || leAt d 8 2 % 64 ≠ 0 || leAt d 0 8 % 64 ≠ 0 || !zeroAt d 10 6

/-- The buffers that hold `n` bytes, taken in order from those posted; none when they cannot. -/
def takeBuffers : List Bytes → Nat → Option (List Bytes)
  | _, 0 => some []
  | [], _ => none
  | d :: rest, n + 1 => (takeBuffers rest (n + 1 - leAt d 8 2)).map (d :: ·)

/-- Fill buffers with a punted frame and write each descriptor back in place (Table 12.14). -/
def State.fillBuffers (s : State) (r : Nat) (first : Bool) : List Bytes → Bytes → State
  | [], _ => s
  | d :: rest, data =>
    let n := min (leAt d 8 2) data.length
    let last := rest.isEmpty
    let x := s.ring r
    let s := s.emit (.hostWrite (s.ringReq r) (leAt d 0 8) (data.take n))
    let s := s.emit (.hostWrite (s.ringReq r) (x.slotAddr x.devIdx)
      (sliceOf d 0 8 ++ leBytes 2 n ++ leBytes 1 (1 + boolBit first * 2 + boolBit last * 4) ++ zeros 1 ++ leBytes 4 x.punted))
    let s := s.setRing r { x with devIdx := (x.devIdx + 1) % 2 ^ 32, fetched := x.fetched.drop 1 }
    s.fillBuffers r false rest (data.drop n)

/-- Serve the first punt that waits on a ring: write it, discard it, halt on a malformed buffer, or leave it waiting
while posted buffers are still to be fetched (R389). The Bool says whether another punt may be served. -/
def State.servePunt (s : State) (r : Nat) : State × Bool :=
  let x := s.ring r
  match x.puntQ with
  | [] => (s, false)
  | job :: _ =>
    if !x.enabled then (s.dropPunts r, false)
    else
    let good := x.fetched.takeWhile fun d => !badPuntBuffer d
    match takeBuffers good job.data.length with
      | some bufs =>
        let s := ((s.touchCtx r).popPunt r).fillBuffers r true bufs job.data
        let s := s.setRing r { s.ring r with punted := (x.punted + 1) % 2 ^ 32 }
        ((((s.bump (cntHif (ringFn r).num 3)).writeBack r).ringIrq r), true)
      | none =>
        if good.length < x.fetched.length then (s.haltRingAt r 9 good.length, false)
        else if x.fetched.length < (x.hostIdx + 2 ^ 32 - x.devIdx) % 2 ^ 32 then (s, false)
        else ((s.popPunt r).bump (cntHif (ringFn r).num 2), true)

/-- Serve the punts that wait on a ring, in order. -/
def State.servePunts (s : State) (r : Nat) : Nat → State
  | 0 => s
  | n + 1 =>
    let (t, more) := s.servePunt r
    if more then t.servePunts r n else t

/-- Hand a frame of a generation, behind its punt header, to an enabled punt ring: it holds a reference until it is written
or lost (R59, R389). -/
def State.punt (s : State) (r : Nat) (g : Gen) (hdrAndFrame : Bytes) : State :=
  let x := s.ring r
  let s := (s.refUp g).setRing r { x with puntQ := x.puntQ ++ [⟨g, hdrAndFrame⟩] }
  s.servePunts r (x.puntQ.length + 1)

/-! MSI-X (R451, R452) -/

/-- Where a requester's MSI-X table begins. -/
def msixBase : Requester → Nat
  | .pf f => 32 * f.num
  | .vf n => 32 * (3 + n.val)

/-- Send a vector's message, or hold it in the pending bit array while the vector is masked (R452). -/
def State.sendMsix (s : State) (req : Requester) (v : Nat) : State :=
  let k := msixBase req + v
  let x := s.hif.msix.get {} k
  if x.masked then { s with hif := { s.hif with msix := s.hif.msix.set {} k { x with pending := true } } }
  else s.emit (.msix req v x.addr x.data)

end Sys2Proof.Machine
end

