-- ==== Sys2Proof/Machine/Eic.lean ====
section
/-! DEFINITION. The event interrupt controller: eligibility, notification, claim, completion, pending registers and
the input filter (chapter 15). -/

namespace Sys2Proof.Machine

/-- A step whose outcome is the next state `t`. -/
abbrev done (t : State) : Host.Outcome State Fault Refusal := .next t

/-- AON cycle number: 10 ns each (Table 00.4). -/
def State.cycle (s : State) : Nat := s.now / 10

/-- EN, PRIO and TARGET of a source. -/
def State.srcEn (s : State) (n : Nat) : Bool := s.bit .eicSrcCfg 0 n 31
/-- PRIO. -/
def State.srcPrio (s : State) (n : Nat) : Nat := s.fld .eicSrcCfg 0 n 27 24
/-- TARGET. -/
def State.srcTarget (s : State) (n : Nat) : Nat := s.fld .eicSrcCfg 0 n 22 16
/-- LOG. -/
def State.srcLog (s : State) (n : Nat) : Bool := s.bit .eicSrcCfg 0 n 28
/-- THRESH of a context. -/
def State.ctxThresh (s : State) (x : Nat) : Nat := s.fld .eicCtxCtrl 0 x 3 0
/-- AUTO of a context. -/
def State.ctxAuto (s : State) (x : Nat) : Bool := s.bit .eicCtxCtrl 0 x 29

/-- A context's state. -/
def State.intCtx (s : State) (x : Nat) : IntCtx := s.eic.ctx.get {} x
/-- Replace a context's state. -/
def State.setIntCtx (s : State) (x : Nat) (c : IntCtx) : State :=
  { s with eic := { s.eic with ctx := s.eic.ctx.set {} x c } }

/-- Whether source n is eligible for context x (R449). -/
def State.eligible (s : State) (n x : Nat) : Bool :=
  s.srcEn n && s.srcTarget n = x && 1 ≤ s.srcPrio n && s.ctxThresh x < s.srcPrio n &&
    (s.intSrc n).isPending n && (s.intSrc n).active.isNone

/-- The eligible source of highest priority, the lowest number among equals (R449). -/
def State.winner (s : State) (x : Nat) : Option Nat :=
  s.eic.src.keys.foldl (fun best n =>
    if s.eligible n x then
      match best with
      | some b => if s.srcPrio b < s.srcPrio n then some n else some b
      | none => some n
    else best) none

/-- Whether a source is active for context x. -/
def State.ctxActive (s : State) (x : Nat) : Bool := s.eic.src.any fun _ v => v.active = some x

/-- The notify condition of R450. -/
def State.notifyCond (s : State) (x : Nat) : Bool :=
  !s.bit .eicCtxCtrl 0 x 31 && (s.winner x).isSome && (!s.ctxActive x || s.bit .eicCtxCtrl 0 x 30) &&
    (s.intCtx x).quietTo ≤ s.cycle

/-- The condition has ended: it is noted, and a core's line falls (R450). -/
def State.eicSettle (s : State) (x : Nat) : State :=
  let c := s.intCtx x
  if c.notified && !s.notifyCond x then
    let s := s.setIntCtx x { c with notified := false }
    if x < 2 then s.emit (.coreLine x false) else s
  else s

/-- A claim or a completion of x takes effect now: two quiet cycles follow (R450). -/
def State.quiet (s : State) (x : Nat) : State :=
  (s.setIntCtx x { s.intCtx x with quietTo := s.cycle + 2 }).eicSettle x

/-- An INT_LOG record (R461, Table 15.3). -/
def State.intLog (s : State) (n x event pendTime : Nat) : State :=
  let v := s.reg .eicCtrl 0 0
  if bitOf 12 v && (event = 4 || s.srcLog n) then
    s.writeRecord .pf0 (bitsOf 11 0 v) 0x0060 s.now
      (leBytes 2 n ++ leBytes 1 x ++ leBytes 1 event ++ leBytes 1 (if event = 4 then 0 else s.srcPrio n) ++ zeros 3
        ++ leBytes 8 pendTime ++ leBytes 8 s.now)
  else s

/-- A claim clears the pending state: an edge source's pending, a level source's latch (R446). -/
def IntSource.claimed (v : IntSource) (n : Nat) : IntSource :=
  if srcIsLevel n then { v with latch := false } else { v with edge := false }

/-- Function and vector that a host context is tied to (R451). -/
def State.ctxVector (s : State) (x : Nat) : Requester × Nat :=
  if x < 34 then
    let o := s.fld .eicCtxCtrl 0 x 21 16
    if h : 1 ≤ o ∧ o ≤ 32 then (.vf ⟨o - 1, by omega⟩, s.fld .eicCtxCtrl 0 x 9 8) else (.pf .pf0, x - 2)
  else if x < 50 then (.pf .pf1, x - 34)
  else (.pf .pf2, x - 50)

/-- An AUTO context claims and completes the winner as its message is sent (R457). -/
def State.autoDeliver (s : State) (x : Nat) : State :=
  match s.winner x with
  | some n =>
    if s.ctxAuto x then
      let v := s.intSrc n
      let w := v.claimed n
      let s := s.setIntSrc n (if w.isPending n then { w with pendTime := s.now } else w)
      (s.intLog n x 3 v.pendTime).quiet x
    else s
  | none => s

/-- Send a host context's message, or hold it while its vector is masked (R450, R452). -/
def State.deliverMsix (s : State) (x : Nat) : State :=
  let (req, v) := s.ctxVector x
  let masked := (s.hif.msix.get {} (msixBase req + v)).masked
  let s := s.sendMsix req v
  if masked then s else s.autoDeliver x

/-- Context x is looked at in this cycle (R450). -/
def execEicNotify (x : Fin 66) (s : State) : Host.Outcome State Fault Refusal :=
  done <|
    let c := s.intCtx x
    if s.notifyCond x && !c.notified then
      let s := s.setIntCtx x { c with notified := true }
      if x.val < 2 then s.emit (.coreLine x true) else s.deliverMsix x
    else s.eicSettle x

/-- The contexts whose pages a function reaches (R462). -/
def ctxVisible (f : Fn) (x : Nat) : Bool :=
  match f with
  | .pf0 => x < 34
  | .pf1 => 34 ≤ x && x < 50
  | .pf2 => 50 ≤ x && x < 66

/-- A read of EIC_CLAIM of context x that reaches it (R453). -/
def State.claim (s : State) (x : Nat) : State :=
  if s.ctxAuto x then s.emit (.readData 0) else
  match s.winner x with
  | some n =>
    let v := s.intSrc n
    let s := s.setIntSrc n { v.claimed n with active := some x }
    let s := s.setIntCtx x { s.intCtx x with withdrawn := false }
    ((s.intLog n x 1 v.pendTime).quiet x).emit (.readData n)
  | none =>
    if (s.intCtx x).withdrawn then
      let s := s.setIntCtx x { s.intCtx x with withdrawn := false }
      ((s.bump (cntSpurious x)).intLog 2047 x 4 0).emit (.readData 2047)
    else s.emit (.readData 0)

/-- EIC_CLAIM is read by a function through BAR0 or by a management core (R453, R457, R458, R462). -/
def execEicClaim (a : EicAgent) (x : Fin 66) (s : State) : Host.Outcome State Fault Refusal :=
  done <| match a with
    | .host f => if ctxVisible f x && 2 ≤ x.val then s.claim x else s.emit (.readData 0)
    | .core k => if x.val = k.val then s.claim x else s.emit (.readData 0)

/-- A write of EIC_COMPLETE of context x that reaches it (R455). -/
def State.completeInt (s : State) (x n : Nat) : State :=
  let v := s.intSrc n
  if v.active = some x then
    let w := { v with active := none }
    let s := s.setIntSrc n (if w.isPending n && srcIsLevel n then { w with pendTime := s.now } else w)
    (s.intLog n x 2 v.pendTime).quiet x
  else s.bump cntBadComplete

/-- EIC_COMPLETE is written (R455, R458, R462, R536). -/
def execEicComplete (a : EicAgent) (x : Fin 66) (n : BitVec 11) (s : State) : Host.Outcome State Fault Refusal :=
  done <| match a with
    | .host f =>
      if !ctxVisible f x then s.configError f (RegName.addr .eicComplete 0 x)
      else if x.val < 2 then s
      else s.completeInt x n.toNat
    | .core k => if x.val = k.val then s.completeInt x n.toNat else s

/-- A source loses its pending state without a claim: WITHDRAWN is set when it was eligible (R454). -/
def State.losePending (s : State) (n : Nat) (f : IntSource → IntSource) : State :=
  let x := s.srcTarget n
  let was := s.eligible n x
  let s := s.setIntSrc n (f (s.intSrc n))
  if was && !(s.intSrc n).isPending n then
    (s.setIntCtx x { s.intCtx x with withdrawn := true }).eicSettle x
  else s

/-- A level source's filtered input changes (R446). -/
def State.levelInput (s : State) (n : Nat) (active : Bool) : State :=
  if active then s.setPendingWith n fun v => { v with input := true }
  else s.losePending n fun v => { v with input := false }

/-- An edge event, or the level, of a synchronous source (R446). Reserved and software sources never become pending
through hardware (R443). -/
def execEicSourceEvent (n : Nat) (level : Bool) (s : State) : Host.Outcome State Fault Refusal :=
  done <|
    if (1 ≤ n ∧ n ≤ 1024) ∨ n = 1281 ∨ n = 1282 ∨ (1285 ≤ n ∧ n ≤ 1287) ∨ (1409 ≤ n ∧ n ≤ 1536) then
      (if level then s.eicEvent n else s)
    else if n = 1284 then s.levelInput n level
    else s

/-- The filter of source n accepts a level: the pin has held it for FILT AON cycles since the filter last accepted the
other one (R445). -/
def State.filterAccepts (s : State) (n : Nat) : State :=
  let s := s.advanceTo ((s.intSrc n).accepted + s.fld .eicSrcCfg 0 n 15 8 * 10)
  s.setIntSrc n { s.intSrc n with accepted := s.now }

/-- The filter of an asynchronous input accepts a new level (R445): the module pins are active low, and 1PPS is a
rising edge (Table 15.1). -/
def execEicPinFiltered (n : Nat) (level : Bool) (s : State) : Host.Outcome State Fault Refusal :=
  done <|
    if 1025 ≤ n ∧ n ≤ 1280 then
      if (s.intSrc n).input = !level then s else (s.filterAccepts n).levelInput n (!level)
    else if n = 1283 && (s.intSrc n).input ≠ level then
      let s := s.filterAccepts n
      let s := if level then s.eicEvent n else s
      s.setIntSrc n { s.intSrc n with input := level }
    else s

/-- The sources of the bits set in a word of 32. -/
def wordSources (n : Nat) (value : Nat) : List Nat :=
  ((List.range 32).filter fun b => bitOf b value).map fun b => 32 * n + b

/-- EIC_PEND_SETn is written (R447, R462). -/
def execEicPendSet (f : Fn) (n : Fin 64) (value : BitVec 32) (s : State) : Host.Outcome State Fault Refusal :=
  done <| if f = .pf0 then runOver (wordSources n value.toNat) (fun b s => s.eicEvent b) s
    else s.configError f (RegName.addr .eicPendSet 0 n)

/-- EIC_PEND_CLRn is written (R447, R454, R462). -/
def execEicPendClr (f : Fn) (n : Fin 64) (value : BitVec 32) (s : State) : Host.Outcome State Fault Refusal :=
  done <| if f = .pf0 then
      runOver (wordSources n value.toNat) (fun b s => s.losePending b fun v => { v with latch := false, edge := false }) s
    else s.configError f (RegName.addr .eicPendClr 0 n)

/-- Vectors of a function (Table 19.1). -/
def msixCount : Requester → Nat
  | .pf .pf0 => 32
  | .pf _ => 16
  | .vf _ => 4

/-- Device ID of a function (Table 19.1). -/
def deviceId : Requester → Nat
  | .pf .pf0 => 0x7128
  | .pf .pf1 => 0x7129
  | .pf .pf2 => 0x712A
  | .vf _ => 0x712B

/-- Class code of every function: an encryption controller of subclass "other" (R534). -/
def classCode : Nat := 0x108000

/-- Sizes of BAR0 and BAR2, 64-bit and not prefetchable; a VF has no BAR0 (Table 19.1). -/
def barSizes : Requester → Nat × Nat
  | .pf .pf0 => (64 * 2 ^ 20, 2 ^ 20)
  | .pf _ => (64 * 2 ^ 20, 128 * 2 ^ 10)
  | .vf _ => (0, 128 * 2 ^ 10)

/-- An entry of a function's MSI-X table has a new value: with the vector unmasked, a held message is sent when the
condition of R450 still holds, and is held no more (R452). -/
def State.msixPut (s : State) (req : Requester) (v addr data : Nat) (masked : Bool) : State :=
  let k := msixBase req + v
  let held := (s.hif.msix.get {} k).pending
  let s := { s with hif := { s.hif with msix := s.hif.msix.set {} k ⟨addr, data, masked, held && masked⟩ } }
  if masked || !held then s
  else match (List.range 66).find? fun x => 2 ≤ x && s.ctxVector x = (req, v) && (s.intCtx x).notified with
    | some x => if s.notifyCond x then s.deliverMsix x else s
    | none => s

/-- A vector is unmasked (R452). -/
def execMsixUnmask (req : Requester) (v : Fin 32) (addr : BitVec 64) (data : BitVec 32) (s : State) :
    Host.Outcome State Fault Refusal :=
  done (if msixCount req ≤ v.val then s else s.msixPut req v addr.toNat data.toNat false)

/-! The MSI-X table and pending bit array (R365, R540) -/

/-- Offset of a function's MSI-X table in its BAR2 (Table 19.4). -/
def msixTable : Requester → Nat
  | .pf .pf0 => 0xE0000
  | _ => 0x10000

/-- Offset of its pending bit array. -/
def pendingArray : Requester → Nat
  | .pf .pf0 => 0xF0000
  | _ => 0x18000

/-- The vector whose table entry an access of 4 or 8 bytes lies in, and the place in the entry. -/
def msixAccess (req : Requester) (off size : Nat) : Option (Nat × Nat) :=
  let o := off - msixTable req
  if off < msixTable req || msixCount req ≤ o / 16 || !accessOk off size then none else some (o / 16, o % 16)

/-- A table entry as a number: address, data and vector control, whose bit 0 masks. -/
def Msix.word (x : Msix) : Nat := x.addr % 2 ^ 64 + x.data % 2 ^ 32 * 2 ^ 64 + boolBit x.masked * 2 ^ 96

/-- A read of BAR2: doorbell slots and every place that is not assigned read 0. -/
def State.bar2Read (s : State) (req : Requester) (off size : Nat) : Nat :=
  match msixAccess req off size with
  | some (v, o) => bitsOf (8 * (o + size) - 1) (8 * o) (s.hif.msix.get {} (msixBase req + v)).word
  | none =>
    let o := off - pendingArray req
    if off < pendingArray req || 8 ≤ o || !accessOk off size then 0
    else bitsOf (8 * (o + size) - 1) (8 * o) (bitsWhere (msixCount req) fun v => (s.hif.msix.get {} (msixBase req + v)).pending)

/-- A write to an entry of the MSI-X table. -/
def State.msixWrite (s : State) (req : Requester) (v o size value : Nat) : State :=
  let w := withBits (8 * (o + size) - 1) (8 * o) (s.hif.msix.get {} (msixBase req + v)).word value
  s.msixPut req v (w % 2 ^ 64) (w / 2 ^ 64 % 2 ^ 32) (w.testBit 96)

/-- The contexts of a physical function. -/
def fnContexts (f : Fn) : List Nat := (List.range 66).filter fun x => 2 ≤ x && ctxVisible f x

/-- A Function Level Reset of a PF: active bits, WITHDRAWN and EIC_CTX_CTRL of its contexts (R459). -/
def State.eicFlr (s : State) (f : Fn) : State :=
  let xs := fnContexts f
  let s := { s with eic := { s.eic with src := s.eic.src.mapCells {} fun _ v =>
    if (v.active.any fun x => xs.contains x) then { v with active := none } else v } }
  runOver xs (fun x s => ((s.setIntCtx x { s.intCtx x with withdrawn := false }).setReg .eicCtxCtrl 0 x
    (RegName.resetAt .eicCtxCtrl 0 x)).eicSettle x) s

/-- Whether a source wakes a core in STANDBY: enabled, pending and at PRIO 1 or more (R460). -/
def State.wakes (s : State) (n : Nat) : Bool := s.srcEn n && 1 ≤ s.srcPrio n && (s.intSrc n).isPending n

/-- Whether a wake source stands. -/
def State.wakeSource (s : State) : Bool := s.eic.src.any fun n _ => s.wakes n

/-- The core that a source wakes: the one it targets, or WAKE_CORE (R460). -/
def State.wokenBy (s : State) (n : Nat) : Nat :=
  if s.srcTarget n < 2 then s.srcTarget n else s.fld .eicCtrl 0 0 16 16

/-- The cores that are woken. -/
def State.wokenCores (s : State) : List Nat :=
  (List.range 2).filter fun c => s.eic.src.any fun n _ => s.wakes n && s.wokenBy n = c

end Sys2Proof.Machine
end

