-- ==== Sys2Proof/Machine/Stored.lean ====
section
/-! DEFINITION. The words of the on-die memories: which object a word belongs to, valid bits, poison and what a foreground
write does to them (R401, R402, R408, R411). Log entry 112. -/

namespace Sys2Proof.Machine

/-- Class of an instance number (Table 13.2). -/
def memClass (inst : Nat) : Nat := inst / 256

/-- Index of an instance number. -/
def memIndex (inst : Nat) : Nat := inst % 256

/-- Objects that an instance holds: buffers or their records with the rest of the memory after them, exact-match slots and
route nodes, or on the egress side of class 5 the copies of cache entries and of transmit numbers. -/
def objectCount (inst : Nat) : Nat :=
  match memClass inst with
  | 1 | 2 => 524289
  | 3 => 2097152
  | 5 => if inst % 2 = 1 then 36864 else 1
  | _ => 1

/-- The object that a word belongs to. -/
def wordObject (inst addr : Nat) : Nat := Config.onDieWord inst addr % objectCount inst

/-- Instance of the packet buffer of a slice's side; that of its frame records is 256 higher (Table 13.2). -/
def bufInst (egress : Bool) (slice : Nat) : Nat := 0x100 + 2 * slice + boolBit egress

/-- Instance of the class-5 memory of an egress slice. -/
def txInst (slice : Nat) : Nat := 0x500 + 2 * slice + 1

/-- The object of a packet buffer within its instance. -/
def bufObject (set pool idx : Nat) : Nat := (set * 4 + pool) * 65536 + idx % 65536

/-- The object of copy A or B of a cache entry. -/
def cacheObject (idx : Nat) (copyB : Bool) : Nat := idx % 2048 * 2 + boolBit copyB

/-- The object of a copy of NEXT_PN. -/
def numberObject (key : Nat) (copyB : Bool) : Nat := 4096 + key % 16384 * 2 + boolBit copyB

/-- A logged address is written by its owner: the entry is `SEEN` again (R408). -/
def CeEntry.fresh (e : CeEntry) : CeEntry := { e with rep := 0, state := 0 }

/-- An owner writes an object: its words are valid, their poison clears, and a queued write-back is cancelled (R402, R408,
R411). -/
def State.wordWrite (s : State) (inst obj : Nat) : State :=
  { s with hbm := { s.hbm with
    used := if s.hbm.used.contains (inst, obj) then s.hbm.used else s.hbm.used ++ [(inst, obj)]
    poison := s.hbm.poison.filter fun x => !(x.1 = inst && wordObject inst x.2 = obj)
    logs := s.hbm.logs.modify [] inst fun l => l.map fun e => if wordObject inst e.addr = obj then e.fresh else e } }

/-- Whether a word of an object is poisoned: a read of it returns an error (R411). -/
def State.wordBad (s : State) (inst obj : Nat) : Bool := s.hbm.poison.any fun x => x.1 = inst && wordObject inst x.2 = obj

/-- A frame is copied into a packet buffer, and its record into the buffer's record. -/
def State.bufWrite (s : State) (egress : Bool) (slice set pool idx : Nat) : State :=
  let obj := bufObject set pool idx
  (s.wordWrite (bufInst egress slice) obj).wordWrite (bufInst egress slice + 256) obj

/-- Whether a read of a packet buffer or of its record returns an error (R411). -/
def State.bufBad (s : State) (egress : Bool) (slice set pool idx : Nat) : Bool :=
  let obj := bufObject set pool idx
  s.wordBad (bufInst egress slice) obj || s.wordBad (bufInst egress slice + 256) obj

/-- Key of the transmit number of a (slice, EQ, slot) (R224). -/
def pnKey (slice eq slot : Nat) : Nat := slice * 16384 + eq * 4 + slot

/-- NEXT_PN is written, in both copies (R224). -/
def State.setPn (s : State) (key n : Nat) : State :=
  let s := { s with glz := { s.glz with nextPn := s.glz.nextPn.set 0 key n, nextPnB := s.glz.nextPnB.set 0 key n } }
  (s.wordWrite (txInst (key / 16384)) (numberObject key false)).wordWrite (txInst (key / 16384)) (numberObject key true)

/-- Whether the words of an object are valid (R402). What is no object of its own counts as valid. Log entry 112. -/
def State.wordValid (s : State) (inst obj : Nat) : Bool :=
  match memClass inst with
  | 1 | 2 => obj = 524288 || s.hbm.used.contains (inst, obj)
  | 5 => inst % 2 = 0 || s.hbm.used.contains (inst, obj)
  | _ => true

/-- The two copies of NEXT_PN disagree, or one of them cannot be read (R235). -/
def State.pnTorn (s : State) (key : Nat) : Bool :=
  s.glz.nextPn.get 0 key ≠ s.glz.nextPnB.get 0 key || s.wordBad (txInst (key / 16384)) (numberObject key false) ||
    s.wordBad (txInst (key / 16384)) (numberObject key true)

end Sys2Proof.Machine
end

