-- ==== Sys2Proof/Machine/Stripe.lean ====
section
/-! DEFINITION. Where HBM keeps data: stripe groups, units, segments and the spare band, the pages of the deep area, the
places of the structured data, and what a read or write of a unit does to the controllers' state (R397 to R402, R406, R408,
R411, R415, R416). A data unit is named by its group and its number u = address div 64. -/

namespace Sys2Proof.Machine

/-! Pseudo-channels (R397) -/

/-- Stripe group of a pseudo-channel. -/
def pcGroup (pc : Nat) : Nat := pc % 16

/-- Member number of a pseudo-channel. -/
def pcMember (pc : Nat) : Nat := pc / 16

/-- Stack of a pseudo-channel. -/
def pcStack (pc : Nat) : Nat := pc / 32

/-- Member m of group g. -/
def memberPc (g m : Nat) : Nat := 16 * m + g

/-- Fault source of a pseudo-channel (Table 14.1). -/
def pcSource (pc : Nat) : Nat := 0x320 + pc

/-- Stripes of a group: the stripe area is the first 448 MiB of each member, and the spare band follows it. -/
def stripeCount : Nat := 7340032

/-- Segments of a group. -/
def segmentCount : Nat := 114688

/-- Length of the spare band of a member, in units: 64 MiB. -/
def spareUnits : Nat := 1048576

/-! Stripes (R398) -/

/-- The member that holds the parity unit of stripe j. -/
def parityMember (j : Nat) : Nat := j % 8

/-- The member that holds data unit d of stripe j. -/
def unitMember (j d : Nat) : Nat := (j + 1 + d) % 8

/-- The data unit of stripe j that member m holds, 7 for the parity unit. -/
def memberUnit (j m : Nat) : Nat := (m + 7 - j % 8) % 8

/-- Group data address of byte b of data unit d of stripe j. -/
def groupAddr (j d b : Nat) : Nat := 448 * j + 64 * d + b

/-- Stripe of data unit u, and its number in the stripe. -/
def unitStripe (u : Nat) : Nat := u / 7

/-- Segment of a stripe. -/
def segmentOf (j : Nat) : Nat := j / 64

/-- The pseudo-channel of data unit u of group g. -/
def unitPc (g u : Nat) : Nat := memberPc g (unitMember (u / 7) (u % 7))

/-- Bytewise exclusive or. -/
def xorUnit (a b : Bytes) : Bytes := List.zipWith (· ^^^ ·) a b

/-- The parity unit of seven data units; also the unit that is missing, of the seven others. -/
def parityUnit (l : List Bytes) : Bytes := l.foldl xorUnit (zeros 64)

/-! The spare band (R415) -/

/-- The survivor of failed member m whose spare band holds its segment q. -/
def spareMember (m q : Nat) : Nat := ((List.range 8).filter (· ≠ m)).getD (q % 7) 0

/-- Unit offset in that survivor at which the segment begins. -/
def spareOffset (q : Nat) : Nat := stripeCount + q / 7 * 64

/-- Place of a survivor k among the survivors of failed member m. -/
def survivorIndex (m k : Nat) : Nat := if k < m then k else k - 1

/-- The stripe and member whose unit lies at a unit offset of a pseudo-channel: in the spare band, one of the failed
member's. -/
def GroupState.unitAt (x : GroupState) (m off : Nat) : Option (Nat × Nat) :=
  if off < stripeCount then some (m, off)
  else if stripeCount + spareUnits ≤ off then none
  else x.failed1.bind fun f =>
    let q := (off - stripeCount) / 64 * 7 + survivorIndex f m
    if f = m ∨ segmentCount ≤ q then none else some (f, q * 64 + (off - stripeCount) % 64)

/-! Areas (R399) -/

/-- Whether a group data address lies in the deep area. -/
def deepAddr (a : Nat) : Bool := a < 2 ^ 31

/-- Group of a deep-buffer page. -/
def pageGroup (p : Nat) : Nat := p % 16

/-- Group-local number of a page. -/
def pageLocal (p : Nat) : Nat := p / 16

/-- Segment of a page: seven pages fill one (R400). -/
def pageSegment (p : Nat) : Nat := p / 16 / 7

/-- The k-th page of segment q of group g. -/
def segmentPage (g q k : Nat) : Nat := 16 * (7 * q + k) + g

/-- Unit w of page p: its group and its number in the group. -/
def pageUnit (p w : Nat) : Nat × Nat := (p % 16, p / 16 * 64 + w)

/-- Kinds of structured data: SA contexts, circuit versions with their circuit's context, the two copies of the receive
index, and counter pairs. -/
inductive Struct where
  | sa (i : Nat)
  | version (circuit : Nat) (born : Gen)
  | rxIndex (bucket : Nat) (copyB : Bool)
  | pairs (u : Nat)
  deriving DecidableEq, Repr

/-- Units of an object of the structured area (Tables 07.2, 07.4, 18.2). -/
def Struct.units : Struct → Nat
  | .sa _ => 4
  | .version _ _ => 8
  | .rxIndex _ _ => 1
  | .pairs _ => 1

/-- The device's own choice of a place for an object, which it makes anew as a group is evacuated (R399, R416). DESIGN
CHOICE, log entry 116. -/
def State.structSeed (s : State) : Struct → Nat
  | .sa i => Config.structPlace s.hbm.moves 0 i
  | .version c b => Config.structPlace s.hbm.moves 1 (c * 65536 + b.toNat)
  | .rxIndex b _ => Config.structPlace s.hbm.moves 2 b
  | .pairs u => Config.structPlace s.hbm.moves 3 u

/-- Groups that can hold structured data. -/
def State.structGroups (s : State) : List Nat := (List.range 16).filter fun g => (s.group g).state ≠ 4

/-- The first unit of an object: the two copies of the receive index lie in different groups. -/
def State.structAt (s : State) (x : Struct) : Nat × Nat :=
  let v := s.structSeed x
  let l := s.structGroups
  let step := match x with
    | .rxIndex _ true => 1 + v / 16 % (l.length - 1)
    | _ => 0
  (l.getD ((v + step) % l.length) 0, 33554432 + v / 256 % 17825785)

/-- The units of an object. -/
def State.structUnits (s : State) (x : Struct) : List (Nat × Nat) :=
  (List.range x.units).map fun k => ((s.structAt x).1, (s.structAt x).2 + k)

/-! What can be read (R406, R411, R415, R416) -/

/-- Members of a group whose units in segment q cannot be read directly: the member offline, the failed member until its
segment is switched, the second failed member, and what of the first lay on one of these. -/
def GroupState.down (x : GroupState) (q : Nat) : List Nat :=
  let l := x.offline.toList ++ (if 3 ≤ x.state then x.failed2.toList else [])
  match x.failed1 with
  | some m =>
    if x.state = 1 then (if x.progress ≤ q then l ++ [m] else l)
    else if 2 ≤ x.state && l.contains (spareMember m q) then l ++ [m] else l
  | none => l

/-- Members of stripe j of group g whose units are not there to reconstruct from. -/
def State.stripeLost (s : State) (g j : Nat) : List Nat :=
  (List.range 8).filter fun m => ((s.group g).down (segmentOf j)).contains m || s.hbm.bad.contains (memberPc g m, j)

/-- Whether a read of data unit u answers an error: it is poisoned, or it and another unit of its stripe are lost. -/
def State.unitBad (s : State) (g u : Nat) : Bool :=
  let j := unitStripe u
  let m := unitMember j (u % 7)
  s.hbm.bad.contains (memberPc g m, j) || ((s.stripeLost g j).contains m && 1 < (s.stripeLost g j).length)

/-- A unit is served or rebuilt by reconstruction. -/
def State.countRecon (s : State) (t : Nat) : State := (s.bump (cntHbm t 2)).pmcCount 6 t 2 1

/-- A data unit is read; a unit of a member that is down is reconstructed from the seven others (R406, R409, R416). -/
def State.unitRead (s : State) (x : Nat × Nat) : State :=
  let j := unitStripe x.2
  let m := unitMember j (x.2 % 7)
  let s := s.pmcCount 6 (pcStack (memberPc x.1 m)) 0 1
  if s.unitBad x.1 x.2 || !((s.group x.1).down (segmentOf j)).contains m then s
  else s.countRecon (pcStack (memberPc x.1 m))

/-- A set of data units is read, in order. -/
def State.unitsRead (s : State) (l : List (Nat × Nat)) : State := runOver l (fun x s => s.unitRead x) s

/-! What a write does (R402, R406, R408, R411) -/

/-- The member offline misses a write to a stripe, its data unit's or its parity unit's: the segment is stale. -/
def State.markStale (s : State) (g j m : Nat) : State :=
  let x := s.group g
  let q := segmentOf j
  if x.offline.any (fun o => o = m ∨ o = parityMember j) && !x.stale.contains q then s.setGroup g { x with stale := x.stale ++ [q] } else s

/-- A logged address is written by its owner: a queued write-back is cancelled (R408). -/
def State.freshen (s : State) (pc j : Nat) : State :=
  if (s.hbm.logs.get [] pc).isEmpty then s
  else { s with hbm := { s.hbm with logs := s.hbm.logs.modify [] pc fun l => l.map fun e => if e.addr = j then e.fresh else e } }

/-- A data unit is written: its segment is valid and its poison clears. -/
def State.unitWrite (s : State) (x : Nat × Nat) : State :=
  let j := unitStripe x.2
  let m := unitMember j (x.2 % 7)
  let pc := memberPc x.1 m
  let q := (x.1, segmentOf j)
  let s := { s with hbm := { s.hbm with
    segs := if s.hbm.segs.contains q then s.hbm.segs else s.hbm.segs ++ [q]
    bad := s.hbm.bad.filter (· ≠ (pc, j)) } }
  ((s.markStale x.1 j m).freshen pc j).pmcCount 6 (pcStack pc) 1 1

/-- The parity unit of a stripe is written. -/
def State.parityWrite (s : State) (g j : Nat) : State :=
  let pc := memberPc g (parityMember j)
  let s := { s with hbm := { s.hbm with bad := s.hbm.bad.filter (· ≠ (pc, j)) } }
  (s.freshen pc j).pmcCount 6 (pcStack pc) 1 1

/-- A write outside a segment that a portion fills: the old data and the old parity are read, and both are written
(R400). -/
def State.unitUpdate (s : State) (x : Nat × Nat) : State :=
  let j := unitStripe x.2
  let s := s.unitRead x
  let s := s.pmcCount 6 (pcStack (memberPc x.1 (parityMember j))) 0 1
  (s.unitWrite x).parityWrite x.1 j

/-- The segment of a group that straddles its two areas. -/
def straddling : Nat := 74898

/-- A portion writes a unit of a segment that it fills: the parity unit is written once, with the last data unit of its
stripe (R400). -/
def State.unitFill (s : State) (x : Nat × Nat) : State :=
  if segmentOf (unitStripe x.2) = straddling then s.unitUpdate x
  else
    let s := s.unitWrite x
    if x.2 % 7 = 6 then s.parityWrite x.1 (unitStripe x.2) else s

/-- An object of the structured area is written whole. -/
def State.structWrite (s : State) (x : Struct) : State := runOver (s.structUnits x) (fun u s => s.unitUpdate u) s

/-- An object of the structured area is read whole. -/
def State.structRead (s : State) (x : Struct) : State := s.unitsRead (s.structUnits x)

/-- Whether an object of the structured area cannot be read. -/
def State.structBad (s : State) (x : Struct) : Bool := (s.structUnits x).any fun u => s.unitBad u.1 u.2

/-! Counter pairs (R527, R528) -/

/-- The four counter pairs of a unit are marked invalid and restart from 0 (Table 13.4, R528). -/
def State.losePairs (s : State) (u : Nat) : State :=
  runOver (List.range 4) (fun k s => { s with pmc := { s.pmc with pairs := s.pmc.pairs.set {} (4 * u + k) ⟨0, 0, true⟩ } }) s

/-- A unit of counter pairs is read. -/
def State.readPairs (s : State) (u : Nat) : State :=
  if s.structBad (.pairs u) then s.losePairs u else s.structRead (.pairs u)

/-- The cached updates of pair i are written to HBM, as a read, an addition and a write (R527). -/
def State.flushPair (s : State) (i : Nat) : State :=
  match s.pmc.waiting.get none i with
  | some w =>
    let s := s.readPairs (i / 4)
    let s := { s with pmc := { s.pmc with
      waiting := s.pmc.waiting.set none i none
      pairs := s.pmc.pairs.modify {} i fun p =>
        { p with bytes := (p.bytes + w.bytes) % 2 ^ 64, frames := (p.frames + w.frames) % 2 ^ 48 } } }
    s.structWrite (.pairs (i / 4))
  | none => s

end Sys2Proof.Machine
end

