-- ==== Sys2Proof/Machine/Frames.lean ====
section
/-! DEFINITION. The operations on frames that every stage shares: references, versions visible in a generation, the
transmit context cache, buffers and their owners, VOQ places, and leaving the device (R52, R59, R220 to R222, R316 to
R324). -/

namespace Sys2Proof.Machine

/-! Frames and ports -/

/-- A frame in the device. -/
def State.frame (s : State) (f : Nat) : Frame := s.frames.get {} f

/-- Replace a frame. -/
def State.setFrame (s : State) (f : Nat) (x : Frame) : State := { s with frames := s.frames.set {} f x }

/-- Change a frame. -/
def State.modFrame (s : State) (f : Nat) (g : Frame → Frame) : State := s.setFrame f (g (s.frame f))

/-- A port. -/
def State.port (s : State) (p : Nat) : PortState := s.prt.get {} p

/-- Replace a port; a change of its link state is an event of its interrupt source (Table 15.1). -/
def State.setPort (s : State) (p : Nat) (x : PortState) : State :=
  let t := { s with prt := s.prt.set {} p x }
  if (s.prt.get {} p).link = x.link then t else t.eicEvent (1409 + p)

/-- Whether a port is in the BLACK domain; a blown domain-lock fuse makes it so (R89, R90). -/
def State.black (s : State) (p : Nat) : Bool := s.fuses.domLock.testBit (p / 8) || s.bit .prtDomain p 0 0

/-- Whether the port next below runs a four-lane mode and absorbs this one (R84). -/
def State.absorbed (s : State) (p : Nat) : Bool :=
  p % 2 = 1 && s.bit .prtCfg (p - 1) 0 0 && s.fld .prtCfg (p - 1) 0 5 4 = 2

/-- Whether a port is enabled (R84). -/
def State.portOn (s : State) (p : Nat) : Bool := s.bit .prtCfg p 0 0 && !s.absorbed p

/-- The effective set of bypass classes that the gates apply (R92, R95). -/
def State.bypassOk (s : State) (k : Nat) : Bool := s.bit .prtBypEffective 0 0 k

/-- W of the bandwidth windows, in ns (R524). -/
def State.bwWindow (s : State) : Nat := s.fld .pmcBwCtrl 0 0 19 0 * usNs

/-- Count a frame of `n` bytes in the window that holds time t. -/
def State.countBw (s : State) (p : Nat) (tx : Bool) (t n : Nat) : State :=
  let w := t / s.bwWindow
  if w < s.pmc.bwWin then s
  else { s with pmc := { s.pmc with bw := s.pmc.bw.modify 0 (w * 256 + 2 * p + boolBit tx) (· + n) } }

/-! Generations (R52, R59) -/

/-- visible() of R52. -/
def VTag.visible (t : VTag) (g : Gen) : Bool :=
  (t.bs || (g - t.born).toNat ≤ 15) && (!t.ds || (1 ≤ (t.died - g).toNat && (t.died - g).toNat ≤ 15))

/-- STAGING (R49). -/
def State.staging (s : State) : Gen := s.gen.current + 1

/-- Live generations, oldest first (R49). -/
def State.liveCount (s : State) : Nat := (s.staging - s.gen.oldest).toNat + 1

/-- Whether a generation is live. -/
def State.live (s : State) (g : Gen) : Bool := (g - s.gen.oldest).toNat < s.liveCount

/-- The version of circuit c visible in g. -/
def State.cirAt (s : State) (c : Nat) (g : Gen) : Option CirVer :=
  (s.glz.cir.get [] c).find? fun v => v.tag.visible g

/-- An SA. -/
def State.saOf (s : State) (i : Nat) : Option Sa := s.glz.sa.get none i

/-- Replace an SA. -/
def State.setSa (s : State) (i : Nat) (x : Option Sa) : State := { s with glz := { s.glz with sa := s.glz.sa.set none i x } }

/-- The unversioned state of a circuit. -/
def State.cirState (s : State) (c : Nat) : CirState := s.glz.state.get {} c

/-- Replace it. -/
def State.setCirState (s : State) (c : Nat) (x : CirState) : State :=
  { s with glz := { s.glz with state := s.glz.state.set {} c x } }

/-- The transmit SA that circuit c selects in g: its index and the circuit version (R80). -/
def State.txSaAt (s : State) (c : Nat) (g : Gen) : Option (Nat × CirVer) :=
  match s.cirAt c g with
  | some v => if v.txSel ≤ 3 then some (4 * c + v.txSel, v) else none
  | none => none

/-! The transmit context cache (R220 to R222) -/

/-- A key of the cache: SA index, circuit and BORN of the circuit version. -/
structure CacheKey where
  sa : Nat
  circuit : Nat
  born : Gen
  deriving DecidableEq, Repr

/-- The entry of a key. -/
def TxEntry.is (e : TxEntry) (k : CacheKey) : Bool := e.sa = k.sa && e.circuit = k.circuit && e.born = k.born

/-- The cache of a slice. -/
def State.cache (s : State) (i : Nat) : List TxEntry := s.glz.cache.get [] i

/-- Replace it. -/
def State.setCache (s : State) (i : Nat) (l : List TxEntry) : State :=
  { s with glz := { s.glz with cache := s.glz.cache.set [] i l } }

/-- Requests that wait in a slice. -/
def State.cacheWait (s : State) (i : Nat) : List Nat := s.glz.wait.get [] i

/-- Replace them. -/
def State.setCacheWait (s : State) (i : Nat) (l : List Nat) : State :=
  { s with glz := { s.glz with wait := s.glz.wait.set [] i l } }

/-- The key that circuit c uses in generation g. -/
def State.cacheKey (s : State) (c : Nat) (g : Gen) : Option CacheKey :=
  (s.txSaAt c g).map fun x => ⟨x.1, c, x.2.tag.born⟩

/-- Remove the last entry with no pin. -/
def dropUnpinned (l : List TxEntry) : Option (List TxEntry) :=
  match l.reverse.find? fun e => e.pins = 0 with
  | some v => some (l.filter fun e => e ≠ v)
  | none => none

/-- The lowest place of slice i's cache that no entry of `l` takes and that is not withdrawn. -/
def State.freePlace (s : State) (i : Nat) (l : List TxEntry) : Nat :=
  let taken := s.glz.cacheGone.get [] i ++ l.map (·.idx)
  ((List.range (taken.length + 1)).find? fun k => !taken.contains k).getD 0

/-- Pin a key: a hit adds a pin; a miss takes a free entry or the least recently used one without pins, to be filled
from HBM; none when no entry can be taken, or its 24-bit count is full (R220 to R222). -/
def State.pinKey (s : State) (i : Nat) (k : CacheKey) : Option State :=
  let l := s.cache i
  match l.find? (·.is k) with
  | some e =>
    if 2 ^ 24 - 1 ≤ e.pins then none else some (s.setCache i ({ e with pins := e.pins + 1 } :: l.filter fun x => !x.is k))
  | none =>
    let put := fun (l : List TxEntry) => s.setCache i (⟨k.sa, k.circuit, k.born, 1, false, s.freePlace i l, none, none⟩ :: l)
    if l.length + (s.glz.cacheGone.get [] i).length < 2048 then some (put l) else (dropUnpinned l).map put

/-- Drop a pin of a key. -/
def State.unpinKey (s : State) (i : Nat) (k : CacheKey) : State :=
  s.setCache i ((s.cache i).map fun e => if e.is k then { e with pins := e.pins - 1 } else e)

/-- The entry of a key. -/
def State.entryOf (s : State) (i : Nat) (k : CacheKey) : Option TxEntry := (s.cache i).find? (·.is k)

/-- What HBM holds for a cache entry (R220, R221). -/
def State.txContents (s : State) (e : TxEntry) : Option TxCopy :=
  match s.saOf e.sa, (s.glz.cir.get [] e.circuit).find? fun v => v.tag.born = e.born with
  | some a, some v => some ⟨a, v⟩
  | _, _ => none

/-- The entries of slice i that satisfy `p` change. -/
def State.mapCache (s : State) (i : Nat) (p : TxEntry → Bool) (g : TxEntry → TxEntry) : State :=
  s.setCache i ((s.cache i).map fun e => if p e then g e else e)

/-- An entry is filled: both copies hold what HBM holds (R220). -/
def State.fillEntry (s : State) (i : Nat) (e : TxEntry) : State :=
  let c := s.txContents e
  let s := s.mapCache i (· = e) fun x => { x with resident := true, copyA := c, copyB := c }
  (s.wordWrite (txInst i) (cacheObject e.idx false)).wordWrite (txInst i) (cacheObject e.idx true)

/-- Whether a key's entry is resident. -/
def State.resident (s : State) (i : Nat) (k : CacheKey) : Bool := (s.cache i).any fun e => e.is k && e.resident

/-- The cache key of a frame that names a circuit. -/
def State.frameKey (s : State) (f : Nat) : Option CacheKey :=
  let x := s.frame f
  x.circuit.bind fun c => s.cacheKey c x.gen

/-- Requests of Constant Profiles wait under numbers from here on. -/
abbrev cpsWait : Nat := 2 ^ 48

/-- Serve one waiting request: a frame's, or the standing pin of a Constant Profile; none when no entry can be taken. -/
def State.pinRequest (s : State) (i r : Nat) : Option State :=
  if cpsWait ≤ r then
    let c := r - cpsWait
    match s.cps.get none c, s.cacheKey c s.gen.current with
    | some p, some k => (s.pinKey i k).map fun t => { t with cps := t.cps.set none c (some { p with pin := some (k.sa, k.born.toNat) }) }
    | _, _ => some s
  else
    match s.frameKey r with
    | some k => (s.pinKey i k).map fun t => t.modFrame r fun x => { x with pinned := true }
    | none => some s

/-- Serve the requests that wait in a slice, in arrival order (R222). -/
def State.serveCacheN (s : State) (i : Nat) : Nat → State
  | 0 => s
  | n + 1 =>
    match s.cacheWait i with
    | [] => s
    | r :: rest =>
      match (s.setCacheWait i rest).pinRequest i r with
      | some t => t.serveCacheN i n
      | none => s

/-- Serve the requests that wait in a slice. -/
def State.serveCache (s : State) (i : Nat) : State := s.serveCacheN i (s.cacheWait i).length

/-- Prefetch for a frame, or for the standing pin of a Constant Profile (R221). -/
def State.prefetch (s : State) (i r : Nat) : State :=
  match s.pinRequest i r with
  | some t => t
  | none => (s.setCacheWait i (s.cacheWait i ++ [r])).bump (cntGlz i 3)

/-- Give up a frame's pin, or its place among the requests that wait (R99, R221). -/
def State.unpin (s : State) (f : Nat) : State :=
  let x := s.frame f
  let i := x.outPort / 8
  let s := s.setCacheWait i ((s.cacheWait i).filter (· ≠ f))
  if x.pinned then
    match s.frameKey f with
    | some k => ((s.unpinKey i k).setFrame f { x with pinned := false }).serveCache i
    | none => s.setFrame f { x with pinned := false }
  else s

/-! Buffers (R315 to R324) -/

/-- Buffer size of a pool (R315). -/
def bufSize (p : Nat) : Nat := if p = 0 then 256 else if p = 1 then 1024 else if p = 2 then 4096 else 12288

/-- The smallest pool whose buffers hold n bytes. -/
def firstPool (n : Nat) : Nat := if n ≤ 256 then 0 else if n ≤ 1024 then 1 else if n ≤ 4096 then 2 else 3

/-- Buffers of a pool in every set of a side (R315). -/
def State.poolCount (s : State) (egress : Bool) (p : Nat) : Nat :=
  s.fld (if egress then .bpmEpoolCfg else .bpmIpoolCfg) 0 0 (16 * p + 15) (16 * p)

/-- Key of what an owner is charged with in a pool. An owner is port × 8 + class (R317). -/
def chargeKey (egress : Bool) (slice set owner pool : Nat) : Nat :=
  (((boolBit egress * 16 + slice) * 2 + set) * 1024 + owner) * 4 + pool

/-- Buffers an owner is charged with in a pool. -/
def State.charged (s : State) (egress : Bool) (slice set owner pool : Nat) : Nat :=
  s.bpm.charged.get 0 (chargeKey egress slice set owner pool)

/-- Charge an owner. -/
def State.charge (s : State) (egress : Bool) (slice set owner pool : Nat) : State :=
  { s with bpm := { s.bpm with charged := s.bpm.charged.modify 0 (chargeKey egress slice set owner pool) (· + 1) } }

/-- Free a buffer that an owner is charged with. -/
def State.uncharge (s : State) (egress : Bool) (slice set owner pool : Nat) : State :=
  { s with bpm := { s.bpm with charged := s.bpm.charged.modify 0 (chargeKey egress slice set owner pool) (· - 1) } }

/-- Bytes an owner is charged with. -/
def State.chargedBytes (s : State) (egress : Bool) (slice set owner : Nat) : Nat :=
  (List.range 4).foldl (fun n p => n + bufSize p * s.charged egress slice set owner p) 0

/-- Key of a VOQ: slice, egress port and class (R289). -/
def voqKey (slice port cls : Nat) : Nat := slice * 1024 + port * 8 + cls

/-- A VOQ. -/
def State.voq (s : State) (k : Nat) : Voq := s.bpm.voqs.get {} k

/-- Replace a VOQ. -/
def State.setVoq (s : State) (k : Nat) (v : Voq) : State := { s with bpm := { s.bpm with voqs := s.bpm.voqs.set {} k v } }

/-- The VOQ of a frame. -/
def Frame.voqKey (x : Frame) : Nat := Machine.voqKey x.slice x.outPort x.cls

/-- Set index of a port in its slice (R313). -/
def portSet (p : Nat) : Nat := p % 8 / 4

/-- Set or clear the mark of an egress (port, class): not ready above XOFF_KB, ready again below XON_KB (R301). -/
def State.flowControl (s : State) (port cls : Nat) : State :=
  let k := port * 8 + cls
  let n := s.chargedBytes true (port / 8) (portSet port) k
  let xoff := s.fld .fabFcCfg 0 0 31 16 * 1024
  let xon := s.fld .fabFcCfg 0 0 15 0 * 1024
  let marked := s.fab.notReady.contains k
  if xoff < n then (if marked then s else { s with fab := { s.fab with notReady := k :: s.fab.notReady } })
  else if n < xon && marked then { s with fab := { s.fab with notReady := s.fab.notReady.filter (· ≠ k) } }
  else s

/-- Free a frame's egress buffer (R324). -/
def State.freeEgress (s : State) (f : Nat) : State :=
  let x := s.frame f
  match x.ebuf with
  | some p =>
    let s := s.uncharge true (x.outPort / 8) (portSet x.outPort) (x.outPort * 8 + x.cls) p
    (s.setFrame f { x with ebuf := none, ebufIdx := 0 }).flowControl x.outPort x.cls
  | none => s

/-- Clear a frame's name on its ingress buffer; the buffer is freed with its last name (R323). -/
def State.clearName (s : State) (f : Nat) : State :=
  match s.bpm.bufs.find? fun _ b => (b.any fun b => b.names.contains f) with
  | some (k, some b) =>
    let names := b.names.filter (· ≠ f)
    if names.isEmpty then
      ({ s with bpm := { s.bpm with bufs := s.bpm.bufs.set none k none } }).uncharge false b.slice b.set b.owner b.pool
    else { s with bpm := { s.bpm with bufs := s.bpm.bufs.set none k (some { b with names := names }) } }
  | _ => s

/-- The ingress buffer that a frame names. -/
def State.bufOf (s : State) (f : Nat) : Option IngBuf :=
  s.bpm.bufs.cells.findSome? fun c => c.2.filter fun b => b.names.contains f

/-- Pending claims. -/
def State.setClaims (s : State) (l : List Claim) : State := { s with bpm := { s.bpm with claims := l } }

/-- Members of a frame's group that are placed on die and wait for their buffer, lowest member first. -/
def State.claimants (s : State) (g : Nat) : List Nat :=
  (s.frames.cells.filter fun c => c.2.group = g && c.2.ing = .claiming).map Prod.fst

/-- LEN of a frame: its bytes without the FCS. -/
def Frame.len (x : Frame) : Nat := x.bytes.length

/-- A first claim for a frame's ingress buffer (R316, R320, R322). -/
def State.claimFor (s : State) (f : Nat) (requester : Nat) : State :=
  let x := s.frame f
  let p := firstPool x.len
  s.setClaims (s.bpm.claims ++ [⟨false, x.slice, x.set, p, p, requester, x.outPort * 8 + x.cls, f⟩])

/-- A frame gives up its pending claim; the next member of its group that waits claims instead. DEDUCED, log entry 30. -/
def State.dropClaim (s : State) (f : Nat) : State :=
  match s.bpm.claims.find? fun c => c.frame = f with
  | some c =>
    let s := s.setClaims (s.bpm.claims.filter fun c => c.frame ≠ f)
    if c.egress || (s.frame f).ing ≠ .claiming then s else
    match (s.claimants (s.frame f).group).find? (· ≠ f) with
    | some m => s.claimFor m c.requester
    | none => s
  | none => s

/-! Places -/

/-- Remove a frame from its VOQ. -/
def State.leaveVoq (s : State) (f : Nat) : State :=
  let x := s.frame f
  let v := s.voq x.voqKey
  s.setVoq x.voqKey { v with
    sent := if v.order.head? = some f then 0 else v.sent
    order := v.order.filter (· ≠ f)
    deep := v.deep.filter (· ≠ f)
    reading := v.reading.filter (· ≠ f) }

/-- Remove a frame from the spill write queue of its slice. -/
def State.leaveSpill (s : State) (f : Nat) : State :=
  let i := (s.frame f).slice
  { s with bpm := { s.bpm with spillQ := s.bpm.spillQ.modify [] i fun l => l.filter (· ≠ f) } }

/-! Pages (R327, R328, R400) -/

/-- Bytes of a frame's item (R327). -/
def Frame.itemBytes (x : Frame) : Nat := 64 + 64 * ceilDiv x.len 64

/-- The places in its VOQ's chain of pages that an item touches: 4,032 bytes of items in each (R328). -/
def pagesOf (off bytes : Nat) : List Nat :=
  (List.range ((off + bytes - 1) / 4032 + 1 - off / 4032)).map fun k => off / 4032 + k

/-- The places that a frame's item touches. -/
def Frame.itemPages (x : Frame) : List Nat := pagesOf x.deepOff x.itemBytes

/-- Items of a VOQ that wait in the spill write queue. -/
def State.spilling (s : State) (k : Nat) : List Nat :=
  (s.bpm.spillQ.get [] (k / 1024)).filter fun f => (s.frame f).voqKey = k

/-- The items that hold pages of a VOQ: admitted, and not yet read or discarded. -/
def State.deepItems (s : State) (k : Nat) : List Nat := (s.voq k).reading ++ (s.voq k).deep ++ s.spilling k

/-- Pages are freed once every item in them has been read or discarded; with the last item, the portion gives up its
unwritten pages too, and the next item starts a page (R328, Table 13.4). -/
def State.freePages (s : State) (k : Nat) : State :=
  let v := s.voq k
  let items := s.deepItems k
  if items.isEmpty then s.setVoq k { v with pages := [], tail := ceilDiv v.tail 4032 * 4032 }
  else s.setVoq k { v with pages := v.pages.filter fun x =>
    v.tail ≤ 4032 * x.1 || items.any fun f => (s.frame f).itemPages.contains x.1 }

/-- A VOQ returns to `ON_DIE` when its deep portion is empty, the spill write queue holds none of its items and no return
read is in flight (R330). -/
def State.settleVoq (s : State) (k : Nat) : State :=
  let s := s.freePages k
  let v := s.voq k
  if v.spill && (s.deepItems k).isEmpty then s.setVoq k { v with spill := false, returning := false } else s

/-! On-die bytes (R326) -/

/-- Bytes that a VOQ owner of a slice has charged in both sets, with the pool sizes of its pending claims. -/
def State.onDie (s : State) (slice owner : Nat) : Nat :=
  s.chargedBytes false slice 0 owner + s.chargedBytes false slice 1 owner +
    (s.bpm.claims.filter fun c => !c.egress && c.slice = slice && c.owner = owner).foldl (fun n c => n + bufSize c.pool) 0

/-- Field of BPM_ICLS_CFG of a class. -/
def State.icls (s : State) (c hi lo : Nat) : Nat := s.fld .bpmIclsCfg 0 c hi lo

/-- The on-die threshold of a class in bytes. -/
def State.spillThr (s : State) (c : Nat) : Nat := s.icls c 23 12 * 1024

/-- Slices in readback panic: a VOQ in `SPILL` that is ready, with a return read outstanding, has ONDIE below PANIC_KB
(R404). -/
def State.panicSlices (s : State) : List Nat :=
  let low := (s.bpm.voqs.cells.filter fun c =>
    c.2.spill && !c.2.reading.isEmpty && !s.fab.notReady.contains (c.1 % 1024) &&
      s.onDie (c.1 / 1024) (c.1 % 1024) < s.fld .hbmRtCfg 0 0 11 0 * 1024).map fun c => c.1 / 1024
  (List.range 16).filter low.contains

/-- Slices raise and lower panic toward every controller (R404). -/
def State.panicSync (s : State) : State :=
  let l := s.panicSlices
  let raised := l.filter fun i => !s.bpm.panic.contains i
  runOver (List.range 4) (fun t s => s.bumpBy (cntHbm t 6) raised.length) { s with bpm := { s.bpm with panic := l } }

/-! Queues -/

/-- Key of the egress queue that a frame joins: circuit queue (EQ, CLASS) or non-circuit queue (R336). -/
def State.queueKey (s : State) (x : Frame) : Nat :=
  match x.circuit.bind fun c => s.cirAt c x.gen with
  | some v => x.outPort / 8 * 32768 + v.eq * 8 + x.cls
  | none => 2 ^ 20 + x.outPort * 8 + x.cls

/-- Key of a flow (R338). -/
def Frame.flowKey (x : Frame) : Nat := (x.port * 128 + x.outPort) * 8 + x.cls

/-- An egress queue. -/
def State.queue (s : State) (k : Nat) : List Nat := s.sched.queues.get [] k

/-- Class of an egress queue. -/
def queueClass (k : Nat) : Nat := k % 8

/-- The port that the head frame of a queue names. -/
def State.headPort (s : State) (k : Nat) : Option Nat := (s.queue k).head?.map fun f => (s.frame f).outPort

/-- Whether some member of the class node (p, c) holds a frame. -/
def State.classHolds (s : State) (p c : Nat) : Bool :=
  s.sched.memberAt.cells.any fun m => m.2 = p + 1 && queueClass m.1 = c && !(s.queue m.1).isEmpty

/-- A queue leaves its class node; the class is no longer backlogged when it was the last member (R337, R344). -/
def State.leaveNode (s : State) (k : Nat) : State :=
  let p := s.sched.memberAt.get 0 k - 1
  let s := { s with sched := { s.sched with memberAt := s.sched.memberAt.set 0 k 0 } }
  if s.classHolds p (queueClass k) then s
  else { s with sched := { s.sched with backlog := s.sched.backlog.filter (· ≠ p * 8 + queueClass k) } }

/-- Whether a circuit queue of a slice serves a circuit under Constant Profile Shaping: no member of a class node. -/
def State.profiled (s : State) (k : Nat) : Bool :=
  (s.queue k).head?.any fun f => (s.frame f).circuit.any fun c => (s.cps.get none c).isSome

/-- A queue's membership follows its head frame: an empty queue is no member, one whose head names a port joins that
port's node with S = V, and a class that had no member joins the port node likewise (R337, R344). -/
def State.joinNode (s : State) (k : Nat) : State :=
  let at_ := s.sched.memberAt.get 0 k
  let leave := fun (s : State) => if at_ = 0 then s else s.leaveNode k
  match s.headPort k with
  | none => leave s
  | some p =>
    if s.profiled k then leave s
    else if at_ = p + 1 then s
    else
      let s := leave s
      let n := p * 8 + queueClass k
      let s := { s with sched := { s.sched with
        memberAt := s.sched.memberAt.set 0 k (p + 1), memberS := s.sched.memberS.set 0 k (s.sched.nodeV.get 0 n) } }
      if s.sched.backlog.contains n then s
      else { s with sched := { s.sched with
        backlog := s.sched.backlog ++ [n], classS := s.sched.classS.set 0 n (s.sched.portV.get 0 p) } }

/-- Replace an egress queue, and its membership with it. -/
def State.setQueue (s : State) (k : Nat) (l : List Nat) : State :=
  { s with sched := { s.sched with queues := s.sched.queues.set [] k l } }.joinNode k

/-- Whether a queue key belongs to slice i. -/
def queueIn (i k : Nat) : Bool := if k < 2 ^ 20 then k / 32768 = i else (k - 2 ^ 20) / 64 = i

/-- The memberships of slice i are brought up to date: a Constant Profile has started or stopped. -/
def State.joinNodes (s : State) (i : Nat) : State :=
  runOver (s.sched.queues.keys.filter (queueIn i)) (fun k s => s.joinNode k) s

/-- A frame is selected, or leaves: later frames of its flow no longer wait for it (R338). -/
def State.leaveFlow (s : State) (f : Nat) : State :=
  { s with sched := { s.sched with flows := s.sched.flows.modify [] (s.frame f).flowKey fun l => l.filter (· ≠ f) } }

/-- A Burin engine. -/
def State.engine (s : State) (slice e : Nat) : Engine := s.bur.engines.get {} (slice * 5 + e)

/-- Replace a Burin engine. -/
def State.setEngine (s : State) (slice e : Nat) (x : Engine) : State :=
  { s with bur := { s.bur with engines := s.bur.engines.set {} (slice * 5 + e) x } }

/-- An encrypt pair. -/
def State.pair (s : State) (slice p : Nat) : LanePair := s.glz.pairs.get {} (slice * 12 + p)

/-- Replace an encrypt pair. -/
def State.setPair (s : State) (slice p : Nat) (x : LanePair) : State :=
  { s with glz := { s.glz with pairs := s.glz.pairs.set {} (slice * 12 + p) x } }

/-- Remove a frame from the egress side: its queue, Burin, Glaze and the port's transmit path. -/
def State.leaveEgress (s : State) (f : Nat) : State :=
  let x := s.frame f
  let i := x.outPort / 8
  let s := s.setQueue (s.queueKey x) ((s.queue (s.queueKey x)).filter (· ≠ f))
  let s := { s with bur := { s.bur with
    sel := s.bur.sel.modify [] i fun l => l.filter (· ≠ f)
    engines := s.bur.engines.mapCells {} fun _ e =>
      { e with threads := e.threads.map fun t => if t = some f then none else t } } }
  let s := { s with glz := { s.glz with
    moved := s.glz.moved.modify [] i fun l => l.filter (· ≠ f)
    waiting := s.glz.waiting.modify [] i fun l => l.filter (· ≠ f)
    pairs := s.glz.pairs.mapCells {} fun _ p => { p with frames := p.frames.filter (· ≠ f) } } }
  let y := s.port x.outPort
  s.setPort x.outPort { y with path := y.path.filter (· ≠ f), tx := if y.tx = some f then none else y.tx }

/-- Landing areas hold a frame until its result is applied. -/
def State.leaveLanding (s : State) (f : Nat) : State :=
  let x := s.frame f
  let y := s.port x.port
  if x.origin = .wire then s.setPort x.port { y with rx := if y.rx = some f then none else y.rx } else s

/-! Samples (R531) -/

/-- How a frame leaves the device. -/
inductive Leaving where
  | sent | dropped | punted
  deriving DecidableEq, Repr

/-- A tagged frame passes stage k of Table 18.4; a stamp is never below the one before it. -/
def State.stamp (s : State) (f k : Nat) : State :=
  let x := s.frame f
  if x.sample = 0 then s else s.setFrame f { x with stamps := x.stamps ++ [(k, s.now)] }

/-- D_ field of stage k: ns after SOF_NS, or 0xFFFF_FFFF for a stage not reached. -/
def Frame.stampOf (x : Frame) (k : Nat) : Nat :=
  match x.stamps.reverse.find? fun p => p.1 = k with
  | some p => p.2 - x.sofNs
  | none => 0xFFFFFFFF

/-- OUTCOME of Table 18.4, by the place the frame leaves from. -/
def Frame.outcome (x : Frame) (how : Leaving) : Nat :=
  match how with
  | .sent => 0
  | .punted => 4
  | .dropped =>
    match x.eg with
    | .none => if x.ing = .none ∨ x.ing = .landing then 1 else 2
    | .claiming | .filling => 2
    | _ => 3

/-- The SAMPLE record of a tagged frame that leaves (R531, Table 18.4). -/
def State.sampleRecord (s : State) (f : Nat) (how : Leaving) : State :=
  let x := s.frame f
  if x.sample = 0 then s else
  let ring := s.fld .pmcSampCtrl 0 0 27 16
  let flags := x.cls + x.colour * 8 + boolBit x.wasDeep * 32 + boolBit x.circuit.isSome * 64 + boolBit x.mirror * 128
  let body := leBytes 4 x.sample ++ leBytes 1 x.port ++ leBytes 1 x.outPort ++ leBytes 1 flags
    ++ leBytes 1 (x.outcome how) ++ leBytes 2 x.gen.toNat ++ leBytes 2 (x.circuit.getD 0) ++ leBytes 2 x.len ++ zeros 2
    ++ leBytes 8 x.sofNs ++ leBytes 4 (x.stampOf 0) ++ leBytes 4 (x.stampOf 1) ++ leBytes 4 (x.stampOf 2)
    ++ leBytes 4 (x.stampOf 3) ++ leBytes 4 (x.stampOf 4)
  let fn := ringFn ring
  let s := if s.recordFits fn ring then s.bump cntSampRec else s
  s.writeRecord fn ring 0x0080 s.now body

/-- A frame leaves the device: its record when tagged, its reference, pin and buffers (R59, R221, R323, R324, R531). A
frame that was transmitted keeps its ingress name until its cells are acknowledged. -/
def State.leave (s : State) (f : Nat) (how : Leaving) : State :=
  let x := s.frame f
  let s := s.sampleRecord f how
  let s := (s.leaveFlow f).unpin f
  let s := s.freeEgress f
  let s := if how = .sent then s else s.clearName f
  (s.setFrame f {}).refDown x.gen

/-- The frames that satisfy a condition, in order of their numbers. -/
def State.framesWhere (s : State) (p : Frame → Bool) : List Nat :=
  (s.frames.cells.filter fun c => p c.2).map Prod.fst

/-! The issue of lookups (R120, R129) -/

/-- Whether a frame holds back the lookups of later frames of its port: its own are still to be issued. A failed walk issues
them only under the action CONTINUE. -/
def State.holdsIssue (s : State) (x : Frame) : Bool :=
  x.ing = .landing && !x.issued && !x.barred &&
    match x.walk.st with
    | .failed r => s.fld .parFailAct (x.port / 8) r 1 0 = 2
    | _ => true

/-- The lookups of a frame are issued. -/
def State.issueNow (s : State) (f : Nat) : State :=
  let x := s.frame f
  (s.setFrame f { x with issued := true, lrnMode := s.fld .emtLrnCtrl 0 0 1 0 }).pmcCount 4 (x.port / 32) 0 1

/-- Of a port's frames, oldest first, those that are due have their lookups issued up to the first that is not due. -/
def State.issueInOrder (s : State) : List Nat → State
  | [] => s
  | f :: rest =>
    let x := s.frame f
    if !s.holdsIssue x then s.issueInOrder rest else if x.due then (s.issueNow f).issueInOrder rest else s

/-- The header vectors of a port are passed to lookup issue in the port's frame order (R120). -/
def State.issueReady (s : State) (p : Nat) : State := s.issueInOrder (s.framesWhere fun y => y.port = p && y.ing = .landing)

/-- A frame is taken out of wherever it is, and leaves the device. -/
def State.remove (s : State) (f : Nat) (how : Leaving) : State :=
  let x := s.frame f
  if x = {} then s else
  let s := s.dropClaim f
  let s := s.leaveLanding f
  let s := if x.ing = .none ∨ x.ing = .landing then s else ((s.leaveVoq f).leaveSpill f).settleVoq x.voqKey
  let s := if x.eg = .none then s else s.leaveEgress f
  let s := s.leave f how
  -- later frames of the port may have waited for its header vector
  if x.ing = .landing then s.issueReady x.port else s

/-- A frame is discarded wherever it is, and leaves the device. -/
def State.discard (s : State) (f : Nat) : State := s.remove f .dropped

/-- Whether a frame's result has been applied: it is bound for its port. -/
def Frame.bound (x : Frame) : Bool := x.eg ≠ .none || (x.ing ≠ .none && x.ing ≠ .landing)

/-- The frames queued for a port: all that are bound for it and not in transmission (R99, R100). -/
def State.queuedFor (s : State) (p : Nat) : List Nat :=
  s.framesWhere fun x => x.bound && x.outPort = p && x.eg ≠ .sending

/-- Age of a frame in ns (R73). -/
def State.age (s : State) (x : Frame) : Nat := s.now - x.sofNs

/-- Maximum residency in ns. -/
def State.resLimit (s : State) : Nat := s.fld .genMaxRes 0 0 10 0 * msNs

/-- A residency discard (R73, R333). -/
def State.resDiscard (s : State) (f : Nat) : State :=
  let x := s.frame f
  let k := if x.eg = .none ∨ x.eg = .claiming ∨ x.eg = .filling then cntBpm x.slice 9 else cntBpm (x.outPort / 8) 10
  (s.bump k).discard f

/-- The VOQs of a port become empty and `ON_DIE` (R334). -/
def State.resetVoqs (s : State) (p : Nat) : State :=
  { s with bpm := { s.bpm with voqs := s.bpm.voqs.mapCells {} fun k v =>
      if k / 8 % 128 = p ∧ v.order.isEmpty ∧ v.deep.isEmpty ∧ v.reading.isEmpty then
        { v with spill := false, sent := 0, returning := false }
      else v } }

/-- Every frame queued for a port is flushed and counted as a link-hold drop; when a hold has expired, frames past
their maximum residency count as residency discards (R76, R100, R103, R334). -/
def State.flushPort (s : State) (p : Nat) (held : Bool) : State :=
  (runOver (s.queuedFor p) (fun f s =>
    if held && s.resLimit < s.age (s.frame f) then s.resDiscard f
    else (s.bump (cntPrt p 4)).discard f) s).resetVoqs p |>.panicSync

end Sys2Proof.Machine
end

