-- ==== Sys2Proof/Machine/Replica.lean ====
section
/-! DEFINITION. The lookup tables as the four quads and the shadow hold them: reading and writing one location, its image
in the shadow, its poison in a quad, and the changes of version tags that settle and abort make (chapters 02, 05, 06). -/

namespace Sys2Proof.Machine

/-- Replace the sequencer's tables. -/
def State.setTabs (s : State) (t : Tables) : State := { s with tabs := t }

/-! Locations and their images in the shadow (R200, R201) -/

/-- Number of an exact-match slot, a rule cell, a profile cell or a route node among all locations: log entry 105. -/
def emLoc (k : Nat) : Nat := k
/-- Number of a rule cell. -/
def ruleLoc (k : Nat) : Nat := 1048576 + k
/-- Number of a profile cell. -/
def profLoc (k : Nat) : Nat := 1048576 + 65536 + k
/-- Number of a route node. -/
def nodeLoc (n : Nat) : Nat := 2097152 + n

/-- The number of a location that Proofing visits. -/
def locNumber : TableLoc → Nat
  | .emSlot k => emLoc k
  | .ruleCell t c => ruleLoc (t.val * 1024 + c.val)
  | .profileCell c => profLoc c
  | .routeNode n => nodeLoc n

/-- The 34 bits of a version tag, in five bytes (Table 02.3). -/
def VTag.image (t : VTag) : Bytes := leBytes 5 (t.born.toNat + t.died.toNat * 2 ^ 16 + boolBit t.bs * 2 ^ 32 + boolBit t.ds * 2 ^ 33)

/-- The fields of a rule cell (R143). -/
def RuleCell.image (c : RuleCell) : Bytes :=
  c.tag.image ++ leBytes 2 c.priority ++ leBytes 2 c.lrow ++ leBytes 1 c.width ++ leBytes 16 c.action ++ c.value ++ c.mask

/-- The fields of a profile cell. -/
def ProfileCell.image (c : ProfileCell) : Bytes :=
  c.tag.image ++ leBytes 1 c.num ++ leBytes 1 c.width ++ leBytes 8 c.tiles ++ leBytes 16 c.dflt ++ c.sel ++ c.stencil

/-- The entry and sideband of a slot in use, without HIT (Tables 06.1 and 06.2). -/
def EmSlot.image (e : EmSlot) : Bytes :=
  e.tag.image ++ leBytes 1 (boolBit e.lrn + 2 * boolBit e.sw + 4 * boolBit e.rpt) ++ leBytes 8 (e.adata + e.ktype * 2 ^ 60) ++ e.key

/-- A route version in the image of its node. -/
def Route.image (r : Route) : Bytes :=
  r.tag.image ++ leBytes 1 r.fam ++ leBytes 2 r.vrf ++ leBytes 1 r.plen ++ r.addr ++ leBytes 8 r.adata

/-- The sequencer writes a location of the shadow, in the same step as the quads (R201). -/
def State.shadowPut (s : State) (loc : Nat) (content : Bytes) : State :=
  s.emit (.hostWrite (.pf .pf0) (s.reg .emtProofBase 0 0 + Config.shadowOffset loc % 2 ^ 26) (Config.shadowImage loc content))

/-! Rule and profile cells -/

/-- A rule cell. -/
def State.ruleAt (s : State) (k : Nat) : Option RuleCell := s.tabs.rules.get none k

/-- Write a rule cell to the quads and the shadow. -/
def State.setRule (s : State) (k : Nat) (c : Option RuleCell) : State :=
  (s.setTabs { s.tabs with rules := s.tabs.rules.set none k c }).shadowPut (ruleLoc k) ((c.map RuleCell.image).getD [])

/-- A profile cell. -/
def State.profAt (s : State) (k : Nat) : Option ProfileCell := s.tabs.profiles.get none k

/-- Write a profile cell to the quads and the shadow. -/
def State.setProf (s : State) (k : Nat) (c : Option ProfileCell) : State :=
  (s.setTabs { s.tabs with profiles := s.tabs.profiles.set none k c }).shadowPut (profLoc k) ((c.map ProfileCell.image).getD [])

/-! Exact-match slots -/

/-- First slot index of bucket b in way w. -/
def slotBase (w b : Nat) : Nat := w * 524288 + b * 4

/-- Way of a slot index. -/
def slotWay (k : Nat) : Nat := k / 524288
/-- Bucket of a slot index. -/
def slotBucket (k : Nat) : Nat := k % 524288 / 4

/-- A slot in use. -/
def State.slot (s : State) (k : Nat) : Option EmSlot := s.tabs.em.get none k

/-- Whether a slot can take an entry: free and not withdrawn (Table 13.5). -/
def State.slotFree (s : State) (k : Nat) : Bool := (s.slot k).isNone && !s.tabs.emGone.contains k

/-- Write a slot, but for HIT, to the quads and the shadow. -/
def State.setSlot (s : State) (k : Nat) (x : Option EmSlot) : State :=
  (s.setTabs { s.tabs with em := s.tabs.em.set none k x }).shadowPut (emLoc k) ((x.map EmSlot.image).getD [])

/-- HIT of a slot in quad q. -/
def State.hitAt (s : State) (q k : Nat) : Bool := s.tabs.hit.get false (q * 1048576 + k)

/-- Set HIT of a slot in a quad. -/
def State.setHit (s : State) (q k : Nat) (b : Bool) : State :=
  s.setTabs { s.tabs with hit := s.tabs.hit.set false (q * 1048576 + k) b }

/-- Set HIT of a slot in the four quads. -/
def State.setHits (s : State) (k : Nat) (b : Bool) : State := runOver (List.range 4) (fun q s => s.setHit q k b) s

/-- OR of the four quads' HIT. -/
def State.anyHit (s : State) (k : Nat) : Bool := (List.range 4).any fun q => s.hitAt q k

/-- Invalidate a slot; HIT clears with it. -/
def State.clearSlot (s : State) (k : Nat) : State := (s.setSlot k none).setHits k false

/-! Routes -/

/-- The route node that a lookup reads: the first stride of 16 bits of its family and VRF. The spec leaves the structure
of the route memory to the device; log entry 31. -/
def nodeOf (fam vrf : Nat) (addr : Bytes) : Nat := fam * 2 ^ 28 + vrf * 65536 + beAt addr 0 2

/-- The node that a route's address lies in. -/
def Route.node (r : Route) : Nat := nodeOf r.fam r.vrf r.addr

/-- The image of a route node. -/
def State.nodeImage (s : State) (n : Nat) : Bytes := ((s.tabs.routes.filter fun r => r.node = n).map Route.image).flatten

/-- Write the routes, of which those of node n have changed, to the quads and the shadow. -/
def State.setRoutes (s : State) (l : List Route) (n : Nat) : State :=
  let s := s.setTabs { s.tabs with routes := l }
  s.shadowPut (nodeLoc n) (s.nodeImage n)

/-- The nodes in use. -/
def State.nodesUsed (s : State) : List Nat := (s.tabs.routes.map Route.node).eraseDups

/-! Poison (R161, R173, R203) -/

/-- Number of a rule cell of a quad among the poisoned ones: cell index within its logical tile × 1,024. -/
def poisonKey (q cell : Nat) : Nat := q * 65536 + cell

/-- Number of a bucket among the poisoned ones. -/
def bucketKey (q w b : Nat) : Nat := q * 262144 + w * 131072 + b

/-- Whether a location is poisoned in quad q. -/
def State.poisonedAt (s : State) (q : Nat) (l : TableLoc) : Bool :=
  match l with
  | .emSlot k => s.tabs.emPoison.contains (bucketKey q (slotWay k) (slotBucket k))
  | .ruleCell t c => s.tabs.rulePoison.contains (poisonKey q (t.val * 1024 + c.val))
  | .profileCell c => s.tabs.profPoison.contains (q * 128 + c.val)
  | .routeNode n => s.tabs.lpmPoison.contains (q, n)

/-- Poison a location in quad q. -/
def State.poisonAt (s : State) (q : Nat) (l : TableLoc) : State :=
  if s.poisonedAt q l then s else
  match l with
  | .emSlot k => s.setTabs { s.tabs with emPoison := s.tabs.emPoison ++ [bucketKey q (slotWay k) (slotBucket k)] }
  | .ruleCell t c => s.setTabs { s.tabs with rulePoison := s.tabs.rulePoison ++ [poisonKey q (t.val * 1024 + c.val)] }
  | .profileCell c => s.setTabs { s.tabs with profPoison := s.tabs.profPoison ++ [q * 128 + c.val] }
  | .routeNode n => s.setTabs { s.tabs with lpmPoison := s.tabs.lpmPoison ++ [(q, n)] }

/-- Clear a location's poison in quad q. -/
def State.clearPoison (s : State) (q : Nat) (l : TableLoc) : State :=
  match l with
  | .emSlot k => s.setTabs { s.tabs with emPoison := s.tabs.emPoison.filter (· ≠ bucketKey q (slotWay k) (slotBucket k)) }
  | .ruleCell t c => s.setTabs { s.tabs with rulePoison := s.tabs.rulePoison.filter (· ≠ poisonKey q (t.val * 1024 + c.val)) }
  | .profileCell c => s.setTabs { s.tabs with profPoison := s.tabs.profPoison.filter (· ≠ q * 128 + c.val) }
  | .routeNode n => s.setTabs { s.tabs with lpmPoison := s.tabs.lpmPoison.filter (· ≠ (q, n)) }

/-- Whether some location is poisoned. -/
def State.anyPoison (s : State) : Bool :=
  !(s.tabs.rulePoison.isEmpty && s.tabs.profPoison.isEmpty && s.tabs.emPoison.isEmpty && s.tabs.lpmPoison.isEmpty)

/-- The image of a location in the shadow. -/
def State.imageAt (s : State) (l : TableLoc) : Bytes :=
  match l with
  | .emSlot k => ((s.slot k).map EmSlot.image).getD []
  | .ruleCell t c => ((s.ruleAt (t.val * 1024 + c.val)).map RuleCell.image).getD []
  | .profileCell c => ((s.profAt c).map ProfileCell.image).getD []
  | .routeNode n => s.nodeImage n

/-! Changes of version tags (R55, R56, Table 02.1) -/

/-- Where a version tag stands: a location of a versioned table. -/
inductive Tagged where
  | rule (k : Nat)
  | profile (k : Nat)
  | slot (k : Nat)
  /-- By its place among the routes. -/
  | route (i : Nat)
  /-- The versions of a circuit. -/
  | circuit (c : Nat)
  | sa (k : Nat)
  /-- The versions of a policer. -/
  | policer (k : Nat)
  deriving DecidableEq, Repr

/-- The first location, in the order of Tagged, with a tag that satisfies `p`; the change log does not tell which entry
a record changed (log entry 106). -/
def State.firstTagged (s : State) (p : VTag → Bool) : Option Tagged :=
  match s.tabs.rules.find? fun _ c => c.any fun c => p c.tag, s.tabs.profiles.find? fun _ c => c.any fun c => p c.tag,
      s.tabs.em.find? fun _ c => c.any fun c => p c.tag, s.tabs.routes.findIdx? fun r => p r.tag,
      s.glz.cir.find? fun _ l => l.any fun c => p c.tag, s.glz.sa.find? fun _ c => c.any fun c => p c.tag,
      s.pol.vers.find? fun _ l => l.any fun c => p c.tag with
  | some (k, _), _, _, _, _, _, _ => some (.rule k)
  | none, some (k, _), _, _, _, _, _ => some (.profile k)
  | none, none, some (k, _), _, _, _, _ => some (.slot k)
  | none, none, none, some i, _, _, _ => some (.route i)
  | none, none, none, none, some (c, _), _, _ => some (.circuit c)
  | none, none, none, none, none, some (k, _), _ => some (.sa k)
  | none, none, none, none, none, none, some (k, _) => some (.policer k)
  | none, none, none, none, none, none, none => none

/-- Change the tags of one location; an entry that `f` gives no tag is removed. -/
def State.retag (s : State) (f : VTag → Option VTag) (l : Tagged) : State :=
  match l with
  | .rule k => s.setRule k ((s.ruleAt k).bind fun c => (f c.tag).map fun t => { c with tag := t })
  | .profile k => s.setProf k ((s.profAt k).bind fun c => (f c.tag).map fun t => { c with tag := t })
  | .slot k =>
    match (s.slot k).bind fun c => (f c.tag).map fun t => { c with tag := t } with
    | some e => s.setSlot k (some e)
    | none => s.clearSlot k
  | .route i =>
    match s.tabs.routes[i]? with
    | some r => s.setRoutes (s.tabs.routes.take i ++ ((f r.tag).map fun t => { r with tag := t }).toList ++ s.tabs.routes.drop (i + 1)) r.node
    | none => s
  | .circuit c =>
    { s with glz := { s.glz with cir := s.glz.cir.modify [] c fun l => l.filterMap fun c => (f c.tag).map fun t => { c with tag := t } } }
  | .sa k =>
    { s with glz := { s.glz with sa := s.glz.sa.modify none k fun c => c.bind fun c => (f c.tag).map fun t => { c with tag := t } } }
  | .policer k =>
    { s with pol := { s.pol with vers := s.pol.vers.modify [] k fun l => l.filterMap fun c => (f c.tag).map fun t => { c with tag := t } } }

end Sys2Proof.Machine
end

