-- ==== Sys2Proof/Machine/Gen.lean ====
section
/-! DEFINITION. Generations: changes to STAGING, settle, abort, commit, the port latches and retirement (chapter 02). -/

namespace Sys2Proof.Machine

/-! Changes to STAGING (R54) -/

/-- Change records of a generation (R54). -/
def State.logUsed (s : State) (g : Gen) : Nat := s.gen.log.get 0 g.toNat

/-- Set them. -/
def State.setLog (s : State) (g : Gen) (n : Nat) : State :=
  { s with gen := { s.gen with log := s.gen.log.set 0 g.toNat n } }

/-- Change records of STAGING that a flush has taken up in advance (R382). -/
def State.logKept (s : State) : Nat := (s.tabs.flush.map fun f => f.room).getD 0

/-- Whether the change log of STAGING has room for n records beside those (R54). -/
def State.logRoom (s : State) (n : Nat) : Bool := s.logUsed s.staging + s.logKept + n ≤ 1048576

/-- n change records are made in STAGING. -/
def State.logChange (s : State) (n : Nat) : State := s.setLog s.staging (s.logUsed s.staging + n)

/-- The tag of an insert into STAGING. -/
def State.bornTag (s : State) : VTag := ⟨s.staging, 0, false, false⟩

/-- Whether an entry was made in STAGING: it is changed in place or removed at once (R54). -/
def State.madeInStaging (s : State) (t : VTag) : Bool := !t.bs && t.born = s.staging

/-- The tag of an entry that dies in STAGING. -/
def State.diedTag (s : State) (t : VTag) : VTag := { t with died := s.staging, ds := true }

/-- A commit has started and has not armed (R287). -/
def State.commitStarted (s : State) : Bool :=
  match s.gen.waiting with
  | w :: _ => w.since.isSome
  | [] => false

/-- A GEN_COMMIT has been fetched on some ring and has not armed (R62). -/
def State.commitFetched (s : State) : Bool :=
  s.hif.rings.any fun r x =>
    x.fetched.any (descOp · = 0x0010) || (x.inExec.any (descOp · = 0x0010) && !s.gen.armed.any fun a => a.ring = r)

/-- Whether a table change of ring r waits for a commit: the sequencer begins none between a commit's start and its arming
(R61, R287), and a change on a PF1 ring that had not completed when a GEN_COMMIT was fetched is not in that commit (R62). -/
def State.changeWaits (s : State) (r : Nat) : Bool := s.commitStarted || (ringFn r = .pf1 && s.commitFetched)

/-! The sequencer's classes (R284, R285, Table 08.12) -/

/-- Class of a command of the table sequencer. -/
def seqClass (op : Nat) : Nat := if op = 0x10 ∨ op = 0x11 ∨ op = 0x34 ∨ op = 0x35 then 5 else 2

/-- Whether a sequencer command changes a table. -/
def seqChange (o : Nat) : Bool := o ≠ 0x23 && o ≠ 0x33 && o ≠ 0x34 && o ≠ 0x52 && o ≠ 0x63 && o ≠ 0x7A && o ≠ 0x10

/-- Whether Proofing runs (R202, R203). -/
def State.proofOn (s : State) : Bool := s.bit .emtProofCtrl 0 0 0 && !s.bit .emtProofStatus 0 0 0

/-- Whether a poisoned location waits for Proofing (R203). -/
def State.poisonWaits (s : State) : Bool := s.proofOn && s.anyPoison && s.mode ≠ .standby

/-- The tile copy that is under way: of two that may run, the one that has begun, and else that of the lower quad. -/
def State.copyNext (s : State) : Option (Nat × TileCopy) :=
  let open_ := s.tabs.copies.cells.filterMap fun c => c.2.bind fun x => if x.cell < 1024 then some (c.1, x) else none
  match open_.find? fun x => 0 < x.2.cell with
  | some x => some x
  | none => open_.head?

/-- Whether the class-5 routine of ring r's command has begun. -/
def State.begun (s : State) (r op : Nat) : Bool :=
  (op = 0x10 && ((s.gen.waiting.any fun w => w.ring = r) || s.gen.armed.any fun a => a.ring = r)) ||
    (op = 0x35 && ((s.tabs.flush.any fun f => f.ring = r) || s.tabs.flushWait.any fun f => f.ring = r)) ||
    (op = 0x11 && s.tabs.abort.any fun a => a.ring = r)

/-- Whether a command of this class stands in execution on ring r, has not begun and may begin. -/
def State.cmdWaits (s : State) (r cls : Nat) : Bool :=
  (s.ring r).inExec.any fun d =>
    let op := descOp d
    seqOpcode op && seqClass op = cls && !(seqChange op && s.changeWaits r) && !s.begun r op

/-- Whether some ring's command of this class may begin. -/
def State.anyCmd (s : State) (cls : Nat) : Bool := s.hif.rings.any fun r _ => s.cmdWaits r cls

/-- Class 2 runs in fetch order across rings: ring r's command was fetched first of those that may begin (R285). -/
def State.seqTurn (s : State) (r : Nat) : Bool :=
  (s.hif.seqOrder.find? fun e => s.cmdWaits e.1 2 && (s.ring e.1).devIdx = e.2).all fun e => e.1 = r

/-- A class-5 routine that has begun: a flush or an abort. -/
def State.fiveBusy (s : State) : Bool := s.tabs.flush.isSome || s.tabs.abort.isSome

/-- The code of a class-5 command that may begin (Table 08.12). -/
def State.fiveCode (s : State) : Nat :=
  let is := fun op => s.hif.rings.any fun r x => s.cmdWaits r 5 && x.inExec.any (descOp · = op)
  if is 0x34 then 6 else if is 0x35 then 7 else if is 0x11 then 8 else 9

/-- The class and code of the highest class of work that runs or waits: the routine that runs, since none of a lower class
does while it waits (R285, Table 08.12). -/
def State.seqRuns (s : State) : Option (Nat × Nat) :=
  if s.tabs.dead then none
  else if s.poisonWaits then some (1, 1)
  else if s.copyNext.isSome then some (1, 2)
  else if s.tabs.sweep.isSome then some (6, 10)
  else if s.anyCmd 2 then some (2, 3)
  else if !s.gen.settled then some (3, 4)
  else if !s.tabs.jobs.isEmpty then some (4, 5)
  else if s.tabs.abort.isSome then some (5, 8)
  else if s.tabs.flush.isSome then some (5, 7)
  else if s.commitStarted then some (5, 9)
  else if s.anyCmd 5 then some (5, s.fiveCode)
  else match s.tabs.six with
    | some .aging => some (6, 10)
    | some .lap => some (6, 11)
    | some .rebuild => some (6, 12)
    | none => if s.tabs.ageRuns then some (6, 10) else if s.bit .emtProofCtrl 0 0 1 then some (6, 12) else none

/-- Whether a class-6 routine may take a step: it is the one that runs or is saved, or none is (R284, R285). -/
def State.sixFree (s : State) (x : Six) : Bool :=
  s.tabs.six.all fun y => y = x || !(match y with
    | .aging => s.bit .emtAgeCtrl 0 0 16 && s.tabs.ageRuns
    | .lap => s.proofOn
    | .rebuild => s.bit .emtProofCtrl 0 0 1)

/-- Whether work of a class above `cls` waits, or a sweep step is being written: a routine of that class yields or does not
begin (R285, R287, R195). A commit that waits for window space holds back no class but 5. -/
def State.seqAhead (s : State) (cls : Nat) : Bool :=
  s.tabs.sweep.isSome || (1 < cls && (s.poisonWaits || s.copyNext.isSome)) || (2 < cls && s.anyCmd 2) ||
    (3 < cls && !s.gen.settled) || (4 < cls && !s.tabs.jobs.isEmpty) || (5 < cls && (s.fiveBusy || s.anyCmd 5))

/-- Whether a command on ring r waits: for work of a higher class, for one fetched before it (R285), or, of class 5, for a
flush or an abort that has begun. -/
def State.seqHeld (s : State) (r op : Nat) : Bool :=
  s.seqAhead (seqClass op) || (if seqClass op = 2 then !s.seqTurn r else op ≠ 0x35 && op ≠ 0x10 && s.fiveBusy)

/-- A step of the sequencer has ended: the machine checks of the next one count anew (R267). -/
def State.stepDone (s : State) : State := { s with tabs := { s.tabs with stepTries := 0 } }

/-- The command in execution on a ring, when it has this opcode, completes with SEQ_FAULT. -/
def State.seqFail (s : State) (r op : Nat) : State :=
  if (s.executing r op).isSome then s.complete r .seqFault else s

/-- The sequencer is classed permanent: flushes, aborts and commits that wait complete with SEQ_FAULT (R268). -/
def State.seqDeath (s : State) : State :=
  if s.tabs.dead then s else
  let flushes := (s.tabs.flush.toList ++ s.tabs.flushWait).map fun f => f.ring
  let aborts := s.tabs.abort.toList.map fun a => a.ring
  let commits := s.gen.waiting.map fun w => w.ring
  let s := { s with tabs := { s.tabs with dead := true, flush := none, flushWait := [], abort := none, stepTries := 0 } }
  let s := { s with gen := { s.gen with waiting := [] } }
  let s := runOver flushes (fun r s => s.seqFail r 0x0035) s
  let s := runOver aborts (fun r s => s.seqFail r 0x0011) s
  runOver commits (fun r s => s.seqFail r 0x0010) s

/-- What an event of the sequencer's source brings with it, given whether it was classed permanent before: a new
classification ends the sequencer (R268). One that a reset of the host domain has revived keeps its old classification and
runs on. -/
def State.seqConsequence (s : State) (before : Bool) : State := if (s.fsrc 0x31).perm && !before then s.seqDeath else s

/-- A machine check of the sequencer is recorded, counted and reported (R263). -/
def State.seqReport (s : State) (cause word : Nat) : State :=
  ((s.setReg .seqMchk 0 0 word).bump (cntSeq 0)).fault 0x31 cause 0

/-- The sequencer is classed permanent whatever the threshold, and stops (R267, R268). -/
def State.seqClassify (s : State) : State := (if (s.fsrc 0x31).perm then s else s.classify 0x31).seqDeath

/-- The sequencer fails its bring-up self-test: a machine check of cause SELFTEST at an address that is a free value, and
the sequencer stops (R263, R268, R509). -/
def State.seqSelftestFails (s : State) : State :=
  let (a, s) := s.draw 12
  (s.seqReport 6 (6 * 2 ^ 28 + a.toNat * 2 ^ 12)).seqClassify

/-- A step of the sequencer takes a machine check: the third at one step classes it permanent (R263, R267). -/
def State.seqCheck (s : State) (cause word : Nat) : State :=
  let before := (s.fsrc 0x31).perm
  let s := s.seqReport cause word
  let n := s.tabs.stepTries + 1
  let s := { s with tabs := { s.tabs with stepTries := n } }
  if 3 ≤ n then s.seqClassify else s.seqConsequence before

/-- The sequencer fetches the words of a step: a corrupted word is fetched again, and one that fails three times is a
machine check, after which the step runs again (R262, R267, R440). The address of such a word is a free value. -/
def State.seqFetch (s : State) : Nat → State
  | 0 => s
  | n + 1 =>
    let (k, s) := s.takeCorrupts 0x31 3
    if k = 0 then s
    else if k < 3 then s.bump (cntSeq 1)
    else
      let (a, s) := s.draw 12
      let s := s.seqCheck 1 (2 ^ 28 + a.toNat * 2 ^ 12)
      if s.tabs.dead then s else s.seqFetch n

/-- A step runs to its END word, if the sequencer lives. -/
def State.seqStep (s : State) (f : State → State) (dead : State → State) : State :=
  let s := s.seqFetch 5
  if s.tabs.dead then dead s else f s.stepDone

/-- Run a command of the table sequencer that reads no record: SEQ_FAULT when it is dead (R268); a table change waits
for a commit that R61 and R62 put before it, and any command for what R285 puts before it. -/
def State.seqCommand (s : State) (r op : Nat) (change : Bool) (f : Bytes → State → State) : State :=
  s.command r op fun d s =>
    if s.tabs.dead then s.complete r .seqFault
    else if (change && s.changeWaits r) || s.seqHeld r op then s
    else s.seqStep (f d) fun s => s.complete r .seqFault

/-- Run a command of the table sequencer that reads a record (R377, R381). -/
def State.recCommand (s : State) (r op : Nat) (change : Bool) (rec : Dma) (f : Bytes → Bytes → State → State) : State :=
  s.command r op fun d s =>
    match rec with
    | none => s.complete r .dmaError
    | some b =>
      if s.tabs.dead then s.complete r .seqFault
      else if (change && s.changeWaits r) || s.seqHeld r op then s
      else s.seqStep (f d b) fun s => s.complete r .seqFault

/-- Run a command of the table sequencer that writes a result buffer; `written` says whether the write succeeds. -/
def State.resultCommand (s : State) (r op : Nat) (written : Bool) (f : Bytes → State → State) : State :=
  s.command r op fun d s =>
    if !written then s.complete r .dmaError
    else if s.tabs.dead then s.complete r .seqFault
    else if s.seqHeld r op then s
    else s.seqStep (f d) fun s => s.complete r .seqFault

/-! Settle and abort (R55, R56) -/

/-- A tag when generation d is settled; none when the entry is removed. -/
def settleTag (d : Gen) (t : VTag) : Option VTag :=
  if t.ds && t.died = d then none else some { t with bs := t.bs || t.born = d }

/-- A tag when STAGING g is aborted; none when the entry is removed. -/
def abortTag (g : Gen) (t : VTag) : Option VTag :=
  if !t.bs && t.born = g then none
  else some (if t.ds && t.died = g then { t with died := 0, ds := false } else t)

/-- Undo a binding: the SA becomes unbound and its transmit state is released (R56). -/
def State.unbind (s : State) (sa : Nat) : State :=
  match s.saOf sa with
  | some x =>
    match x.bound with
    | some (sl, eq) =>
      let s := s.setSa sa (some { x with bound := none })
      s.setPn (pnKey sl eq (sa % 4)) 0
    | none => s
  | none => s

/-- Whether settling generation d changes an entry with this tag. -/
def settles (d : Gen) (t : VTag) : Bool := (t.ds && t.died = d) || (!t.bs && t.born = d)

/-- Whether aborting STAGING g changes an entry with this tag. -/
def aborts (g : Gen) (t : VTag) : Bool := (!t.bs && t.born = g) || (t.ds && t.died = g)

/-- A step of the settle of the oldest generation: one change record. The settle is complete with the last (R55, R284). -/
def State.settleStep (s : State) : State :=
  s.seqStep (dead := id) fun s =>
    let d := s.gen.oldest
    let s := match s.firstTagged (settles d) with
      | some l =>
        let t := s.retag (settleTag d) l
        t.setTabs { t.tabs with settleAt := t.tabs.settleAt + 1 }
      | none => s
    if (s.firstTagged (settles d)).isSome then s
    else { s with gen := { s.gen with settled := true }, tabs := { s.tabs with settleAt := 0 } }

/-- Steps of the settle, until it ends or yields (R285). -/
def State.settleRun (s : State) : Nat → State
  | 0 => s
  | n + 1 => if s.gen.settled || s.tabs.dead || s.seqAhead 3 then s else s.settleStep.settleRun n

/-- The sequencer settles the change log of the oldest generation: it takes up to `records` change records of it before it
next looks for other work (R55, R284, R285). -/
def execGenSettle (records : Nat) (s : State) : Host.Outcome State Fault Refusal := done (s.settleRun records)

/-- Every binding made in STAGING is undone (R56). -/
def State.unbindStaging (s : State) : State :=
  let g := s.staging
  let s := runOver (s.gen.bindings.filter fun b => b.1 = g.toNat) (fun b s => s.unbind b.2) s
  { s with gen := { s.gen with bindings := s.gen.bindings.filter fun b => b.1 ≠ g.toNat } }

/-! Commits begin (R64, R287) -/

/-- The first commit that waits starts: no other is armed, and no flush or abort has begun (R64, R285, R287). -/
def State.startCommit (s : State) : State :=
  if s.gen.armed.isSome || s.fiveBusy then s else
  match s.gen.waiting with
  | ⟨r, t, none⟩ :: rest => { s with gen := { s.gen with waiting := ⟨r, t, some s.now⟩ :: rest } }
  | _ => s

/-! EM_FLUSH begins (R186, R285, R382) -/

/-- Whether an EM_FLUSH selects an entry (R186). -/
def Flush.selects (f : Flush) (e : EmSlot) : Bool :=
  let v := bitsOf 3 0 e.adata
  (!f.lrnOnly || e.lrn) &&
    (if f.field = 0 then (v = 2 || v = 4) && bitsOf 10 4 e.adata = f.value else v = 3 && bitsOf 26 11 e.adata = f.value)

/-- The software entries that a flush is to delete in STAGING. -/
def State.flushCount (s : State) (f : Flush) : Nat :=
  s.tabs.em.count fun _ x => x.any fun e => f.selects e && !e.lrn && e.tag.visible s.staging

/-- A flush begins: the change log must have room for every entry it is to delete, or it fails with nothing changed (R382).
Log entry 17. -/
def State.beginFlush (s : State) (f : Flush) : State :=
  let n := s.flushCount f
  if s.logRoom n then s.setTabs { s.tabs with flush := some { f with room := n } }
  else s.complete f.ring .genLogFull 0 (leBytes 4 0)

/-- The class-5 routine has ended: the first flush that waits begins, and with none a commit may (R285, R287). -/
def State.nextFive (s : State) : Nat → State
  | 0 => s
  | n + 1 =>
    if s.fiveBusy then s else
    match s.tabs.flushWait with
    | f :: rest => ((s.setTabs { s.tabs with flushWait := rest }).beginFlush f).nextFive n
    | [] => s.startCommit

/-! GEN_ABORT (R56, R284) -/

/-- The last change record has been undone: the bindings of STAGING and its change log go, and the command completes. -/
def State.endAbort (s : State) (a : AbortRun) : State :=
  let s := s.unbindStaging.setLog s.staging 0
  let s := s.setTabs { s.tabs with abort := none }
  (s.nextFive (s.tabs.flushWait.length + 1)).complete a.ring .ok a.records

/-- A step of the abort: one change record is undone. -/
def State.abortStep (s : State) (a : AbortRun) : State :=
  s.seqStep (dead := id) fun s =>
    let g := s.staging
    let s := match s.firstTagged (aborts g) with
      | some l =>
        let t := s.retag (abortTag g) l
        t.setTabs { t.tabs with abort := some { a with cursor := a.cursor + 1 } }
      | none => s
    if (s.firstTagged (aborts g)).isSome then s else s.endAbort a

/-- Steps of the abort, until it ends or yields (R285). -/
def State.abortRun (s : State) : Nat → State
  | 0 => s
  | n + 1 =>
    match s.tabs.abort with
    | some a => if s.tabs.dead || s.seqAhead 5 then s else (s.abortStep a).abortRun n
    | none => s

/-- A GEN_ABORT command: it begins, and takes up to `records` change records before it next looks for other work (R56,
R284, R285). -/
def execGenAbort (r : Ring) (records : Nat) (s : State) : Host.Outcome State Fault Refusal :=
  done <| s.seqCommand r 0x0011 true fun _ s =>
    if s.gen.armed.isSome then s.complete r .genBadState
    else
      let t := s.unbindStaging
      (t.setTabs { t.tabs with abort := some ⟨r, s.logUsed s.staging, 0⟩ }).abortRun records

/-- Whether a port's latch holds a generation. -/
def State.latched (s : State) (g : Gen) : Bool := (List.range 128).any fun p => (s.gen.ports.get {} p).latch = g

/-- The oldest DRAINING generation retires (R60, R268). -/
def execGenRetire (s : State) : Host.Outcome State Fault Refusal :=
  done <|
    let d := s.gen.oldest
    if d = s.gen.current || s.tabs.dead || !s.gen.settled || s.latched d || s.gen.refs.get 0 d.toNat ≠ 0 then s
    else { s with gen := { s.gen with
      oldest := d + 1, settled := false, log := s.gen.log.set 0 d.toNat 0
      bindings := s.gen.bindings.filter fun b => b.1 ≠ d.toNat } }

/-! Port latches (R57, R65 to R72) -/

/-- A port's part in a commit. -/
def State.portGen (s : State) (p : Nat) : PortGen := s.gen.ports.get {} p

/-- A port switches its latch to the armed generation. -/
def State.switchPort (s : State) (p : Nat) (late : Bool) : State :=
  match s.gen.armed with
  | some a =>
    if (s.portGen p).latch = a.gen then s
    else { s with gen := { s.gen with ports := s.gen.ports.set {} p ⟨a.gen, late⟩ } }
  | none => s

/-- Whether an armed commit waits for a port. -/
def State.unswitched (s : State) (p : Nat) : Bool :=
  match s.gen.armed with
  | some a => (s.portGen p).latch ≠ a.gen
  | none => false

/-- Marker of the armed commit. -/
def State.armedMarker (s : State) : Option Nat :=
  match s.gen.armed with
  | some ⟨_, .marker m, _, _⟩ => some m
  | _ => none

/-- A port leaves UP, or is not UP at arming: it switches under a marker commit (R67, R565). -/
def State.switchDown (s : State) (p : Nat) : State :=
  if s.armedMarker.isSome then s.switchPort p false else s

/-- Whether marker frames are recognised on a port (R66). -/
def State.markerPort (s : State) (p : Nat) : Bool := !s.black p && s.bit .genMkrEn 0 (p / 32) (p % 32)

/-- PTP time of a commit's T, in units of 2^-32 ns. -/
def ptpUnits (sec ns : Nat) : Nat := (sec * 1000000000 + ns) * 2 ^ 32

/-! Commit (R61 to R64) -/

/-- The trigger that a GEN_COMMIT descriptor names; none when reserved (R378). -/
def triggerOf (d : Bytes) : Option Trigger :=
  let ns := leAt d 0x14 4
  if 1000000000 ≤ ns then none else
  match byteAt d 0x10 with
  | 1 => some .immediate
  | 2 => some (.marker (leAt d 0x12 2))
  | 3 => some (.time (leAt d 0x18 6) ns)
  | _ => none

/-- A GEN_COMMIT command starts a commit (R61 to R64). -/
def execGenCommit (r : Ring) (s : State) : Host.Outcome State Fault Refusal :=
  done <| s.seqCommand r 0x0010 false fun d s =>
    if (s.gen.waiting.any fun w => w.ring = r.val) || (s.gen.armed.any fun a => a.ring = r.val) then s else
    match triggerOf d with
    | none => s.complete r .genBadTrigger
    | some t => ({ s with gen := { s.gen with waiting := s.gen.waiting ++ [Waiting.mk r.val t none] } }).startCommit

/-- The commit that waits first ends unarmed with a status. -/
def State.refuseCommit (s : State) (st : Status) : State :=
  match s.gen.waiting with
  | w :: rest => (({ s with gen := { s.gen with waiting := rest } }).complete w.ring st).startCommit
  | [] => s

/-! Constant Profiles at a commit (R357, R361) -/

/-- Replace a Constant Profile. -/
def State.setCps (s : State) (c : Nat) (p : Option Profile) : State := { s with cps := s.cps.set none c p }

/-- Give up the standing pin of a circuit's profile. -/
def State.cpsUnpin (s : State) (c : Nat) (port : Nat) : State :=
  let i := port / 8
  let s := s.setCacheWait i ((s.cacheWait i).filter (· ≠ cpsWait + c))
  match s.cps.get none c with
  | some p =>
    match p.pin with
    | some (sa, born) =>
      ((s.setCps c (some { p with pin := none })).unpinKey i ⟨sa, c, BitVec.ofNat 16 born⟩).serveCache i
    | none => s
  | none => s

/-- A running profile takes its standing pin, unless it has it, waits for it, or its port is in HOLD (R99, R361). -/
def State.cpsPin (s : State) (c port : Nat) : State :=
  let i := port / 8
  if (s.port port).link = .hold || (s.cps.get none c).all (fun q => q.pin.isSome) || (s.cacheWait i).contains (cpsWait + c) then s
  else s.prefetch i (cpsWait + c)

/-- A profile stops at a commit: record CPS_STOPPED (R357). -/
def State.cpsStop (s : State) (c port : Nat) : State :=
  ((s.setCps c none).joinNodes (port / 8)).ctrlRecord .pf0 0x0021 (leBytes 2 c ++ leBytes 2 s.gen.current.toNat)

/-- A circuit's profile at a commit that made `old` its former CURRENT version: it stops, or takes its standing pin
anew. -/
def State.cpsCommit (s : State) (c : Nat) (old : Option CirVer) : State :=
  let port := (old.map fun v => v.port).getD 0
  match s.cirAt c s.gen.current with
  | some v =>
    if (old.any fun o => o.port = v.port && o.eq = v.eq) && (v.mode = 1 ∨ v.mode = 2) then
      (s.cpsUnpin c port).cpsPin c v.port
    else (s.cpsUnpin c port).cpsStop c port
  | none => (s.cpsUnpin c port).cpsStop c port

/-- The record GEN_ARMED (R63). -/
def State.armedRecord (s : State) (t : Trigger) : State :=
  let body := match t with
    | .immediate => []
    | .marker m => leBytes 2 s.gen.current.toNat ++ leBytes 2 2 ++ leBytes 2 m
    | .time sec ns => leBytes 2 s.gen.current.toNat ++ leBytes 2 3 ++ zeros 4 ++ leBytes 6 sec ++ zeros 2 ++ leBytes 4 ns
  if t = .immediate then s else s.ctrlRecord .pf0 0x0020 body

/-- Arm the commit that waits first (R63, R65, R67, R71). -/
def State.armCommit (s : State) (r : Nat) (t : Trigger) : State :=
  let g := s.staging
  let old := s.cps.keys.map fun c => (c, s.cirAt c s.gen.current)
  let s := { s with gen := { s.gen with
    waiting := s.gen.waiting.drop 1, armed := some ⟨r, t, g, s.now⟩, current := g
    log := s.gen.log.set 0 (g + 1).toNat 0 } }
  let s := runOver old (fun x s => s.cpsCommit x.1 x.2) s
  let s := s.armedRecord t
  match t with
  | .immediate => runOver (List.range 128) (fun p s => s.switchPort p false) s
  | .marker _ => runOver (List.range 128) (fun p s =>
      if s.markerPort p && (s.port p).link = .up then s else s.switchPort p false) s
  | .time _ _ => s

/-- The commit arms, or is refused for its time (R51, R63, R71). -/
def execGenCommitArm (s : State) : Host.Outcome State Fault Refusal :=
  done <|
    match s.gen.waiting with
    | ⟨r, t, some _⟩ :: _ =>
      if s.gen.armed.isSome || 15 < s.liveCount || s.tabs.dead then s else
      s.seqStep (dead := id) fun s =>
      match t with
      | .time sec ns =>
        let T := ptpUnits sec ns
        if T < s.ptp.time + ptpUnits 0 2000 then s.refuseCommit .genTimePast
        else if s.ptp.time + ptpUnits 60 0 < T then s.refuseCommit .genBadTrigger
        else s.armCommit r t
      | t => s.armCommit r t
    | _ => s

/-- GEN_COMMIT_TIMEOUT passes with the window still full (R51). -/
def execGenCommitTimeout (s : State) : Host.Outcome State Fault Refusal :=
  done <|
    match s.gen.waiting with
    | ⟨_, _, some t⟩ :: _ =>
      if s.gen.armed.isSome || s.liveCount ≤ 15 then s
      else (s.advanceTo (t + s.fld .genCommitTimeout 0 0 13 0 * msNs)).refuseCommit .genFull
    | _ => s

/-- The ports that have not switched. -/
def State.unswitchedPorts (s : State) : List Nat := (List.range 128).filter fun p => s.unswitched p

/-- The marker timeout passes: the ports that have not switched switch at once (R70). -/
def execMarkerTimeout (s : State) : Host.Outcome State Fault Refusal :=
  done <|
    match s.gen.armed with
    | some ⟨_, .marker _, _, at_⟩ =>
      if s.unswitchedPorts.isEmpty then s else
      let s := s.advanceTo (at_ + s.fld .genMkrCtrl 0 0 31 20 * msNs)
      runOver s.unswitchedPorts (fun p s => s.switchPort p true) s
    | _ => s

/-- Time passes until PTP time has reached a value. -/
def State.advancePtp (s : State) (t : Nat) : State :=
  s.advance (ceilDiv (t - s.ptp.time) (2 ^ 32 + s.ptp.rate).toNat)

/-- PTP time reaches T + 1 µs: every port that has not switched switches (R72). -/
def execTimeTriggerDeadline (s : State) : Host.Outcome State Fault Refusal :=
  done <|
    match s.gen.armed with
    | some ⟨_, .time sec ns, _, _⟩ =>
      if s.unswitchedPorts.isEmpty then s else
      let s := s.advancePtp (ptpUnits sec ns + ptpUnits 0 1000)
      runOver s.unswitchedPorts (fun p s => s.switchPort p false) s
    | _ => s

/-- The mask of ports that switched late. -/
def State.lateMask (s : State) : Nat :=
  (List.range 128).foldl (fun m p => if (s.portGen p).late then m + 2 ^ p else m) 0

/-- Every port has switched: the commit completes (R63, R70). -/
def execGenCommitComplete (s : State) : Host.Outcome State Fault Refusal :=
  done <|
    match s.gen.armed with
    | some a =>
      if !s.unswitchedPorts.isEmpty then s else
      let mask := s.lateMask
      let s := { s with gen := { s.gen with
        armed := none, ports := s.gen.ports.mapCells {} fun _ x => { x with late := false } } }
      let s := if mask = 0 then s.complete a.ring .ok a.gen.toNat
        else s.complete a.ring .genMarkerLate a.gen.toNat (leBytes 16 mask)
      s.startCommit
    | none => s

end Sys2Proof.Machine
end

