-- ==== Sys2Proof/Machine/Circuit.lean ====
section
/-! DEFINITION. Circuits and security associations: their records, the commands of Table 07.1, disable, suspension and
poison (chapter 07). -/

namespace Sys2Proof.Machine

/-! Versions -/

/-- The live generations, oldest first (R49). -/
def State.liveGens (s : State) : List Gen := (List.range s.liveCount).map fun k => s.gen.oldest + BitVec.ofNat 16 k

/-- Whether a tag is visible in some live generation. -/
def State.tagLive (s : State) (t : VTag) : Bool := s.liveGens.any fun g => t.visible g

/-- An SA visible in g. -/
def State.saIn (s : State) (i : Nat) (g : Gen) : Option Sa := (s.saOf i).filter fun x => x.tag.visible g

/-- Cells of the version pool in use: every version of a circuit but one (R211). -/
def State.poolUsed (s : State) : Nat := s.glz.cir.cells.foldl (fun n c => n + (c.2.length - 1)) 0

/-- The versions of a circuit. -/
def State.cirVers (s : State) (c : Nat) : List CirVer := s.glz.cir.get [] c

/-- Replace the versions of a circuit. -/
def State.setCirVers (s : State) (c : Nat) (l : List CirVer) : State :=
  { s with glz := { s.glz with cir := s.glz.cir.set [] c l } }

/-- Bytes of a version tag (Table 02.3). -/
def VTag.bytes (t : VTag) : Bytes :=
  leBytes 8 (t.born.toNat + t.died.toNat * 2 ^ 16 + boolBit t.bs * 2 ^ 32 + boolBit t.ds * 2 ^ 33)

/-! Circuit records (Tables 07.2 and 08.7) -/

/-- Growth of the L2 header: 4 × NTAGS under REPLACE or PUSH (R271). -/
def State.growth (s : State) (rewrite ntags : Nat) : Nat :=
  if 2 ≤ s.fld .burProg 0 rewrite 27 26 then 4 * ntags else 0

/-- Protection overhead (R218). -/
def State.overhead (s : State) (mode flags rewrite ntags : Nat) : Nat :=
  (if mode = 1 then 24 + 8 * boolBit (bitOf 0 flags) else if mode = 2 then 57 + 20 * boolBit (bitOf 5 flags) else 37)
    + s.growth rewrite ntags

/-- Whether a tag in use has TPID 0x8100 or 0x88A8. -/
def tagOk (d : Bytes) (off : Nat) : Bool := beAt d off 2 = 0x8100 || beAt d off 2 = 0x88A8

/-- The checks of Table 08.7. -/
def badRewriteData (mode : Nat) (d : Bytes) : Bool :=
  let n := byteAt d 0x0C
  2 < n || (1 ≤ n && !tagOk d 0x10) || (2 ≤ n && !tagOk d 0x14) || (mode = 2 && byteAt d 0x40 = 0) ||
    !zeroAt d 0x0D 3 || !zeroAt d 0x18 8 || 63 < byteAt d 0x41 || !zeroAt d 0x42 2 || 2 ^ 20 ≤ beAt d 0x44 4 || !zeroAt d 0x48 376

/-- Whether a CIR_WRITE record is refused (Table 07.2, R270). -/
def State.badCircuit (s : State) (b : Bytes) : Bool :=
  let mode := byteAt b 8
  let flags := byteAt b 0x0F
  let rewrite := leAt b 0x0C 2
  mode = 0 || 3 < mode || 127 < byteAt b 9 || 4095 < leAt b 0x0A 2 || 127 < flags || !zeroAt b 0x13 29 || !zeroAt b 0x34 12 ||
    (bitOf 1 flags && bitOf 0 flags) || (bitOf 2 flags && bitOf 0 flags) || (bitOf 5 flags && mode ≠ 2) ||
    byteAt b 0x12 < 14 || 128 < byteAt b 0x12 || 1023 < rewrite || !s.bit .burProg 0 rewrite 31 ||
    s.fld .burProg 0 rewrite 30 28 ≠ mode || badRewriteData mode (sliceOf b 0x40 448)

/-- The version of a record, with TX_SEL taken from `old` unless the slice or EQ changes, or `old` is poisoned (R208,
R212, R218, R410). -/
def State.cirOf (s : State) (b : Bytes) (old : Option CirVer) : CirVer :=
  let port := byteAt b 9
  let eq := leAt b 0x0A 2
  let keep := old.filter fun o => o.port / 8 = port / 8 && o.eq = eq && !o.poison
  { tag := s.bornTag, mode := byteAt b 8, port := port, eq := eq, rewrite := leAt b 0x0C 2
    txSel := (keep.map fun o => o.txSel).getD 0xFF, flags := byteAt b 0x0F
    ovh := s.overhead (byteAt b 8) (byteAt b 0x0F) (leAt b 0x0C 2) (byteAt b 0x4C)
    hdrMax := byteAt b 0x12, data := sliceOf b 0x40 448 }

/-- Whether a version of another circuit in the same slice names an EQ in a live generation (R212). -/
def State.eqBusy (s : State) (c port eq : Nat) : Bool :=
  s.glz.cir.any fun k l => k ≠ c && l.any fun v => v.port / 8 = port / 8 && v.eq = eq && s.tagLive v.tag

/-- Write a version of circuit c into STAGING and complete: in place when it was made there, as a new version otherwise
(R54, R211, R562). `after` is what else the command does. -/
def State.putCircuit (s : State) (r c : Nat) (v : CirVer) (after : State → State) : State :=
  let l := s.cirVers c
  let mine := fun (x : CirVer) => s.madeInStaging x.tag
  let grows := !l.any mine && !l.isEmpty
  if grows && 65536 ≤ s.poolUsed then s.complete r .cirPoolFull
  else if !s.logRoom 1 then s.complete r .genLogFull
  else
    let l := if l.any mine then l.map fun x => if mine x then v else x
      else (l.map fun x => if x.tag.visible s.staging then { x with tag := s.diedTag x.tag } else x) ++ [v]
    (after (((s.setCirVers c l).structWrite (.version c v.tag.born)).logChange 1)).complete r .ok

/-- CIR_WRITE (R54, R208, R212, R218, R270, R562). -/
def execCirWrite (r : Ring) (rec : Dma) (s : State) : Host.Outcome State Fault Refusal :=
  done <| s.recCommand r 0x0050 true rec fun d b s =>
    let c := leAt d 0x10 2
    if s.badCircuit b then s.complete r .cirBadRecord
    else if s.eqBusy c (byteAt b 9) (leAt b 0x0A 2) then s.complete r .cirEqBusy
    else s.putCircuit r c (s.cirOf b (s.cirAt c s.staging)) id

/-- CIR_DELETE (R54, R214, R562). -/
def execCirDelete (r : Ring) (s : State) : Host.Outcome State Fault Refusal :=
  done <| s.seqCommand r 0x0051 true fun d s =>
    let c := leAt d 0x10 2
    match s.cirAt c s.staging with
    | none => s.complete r .cirNotFound
    | some v =>
      if (List.range 4).any fun k => (s.saIn (4 * c + k) s.staging).isSome then s.complete r .cirHasSa
      else if !s.logRoom 1 then s.complete r .genLogFull
      else
        let l := if s.madeInStaging v.tag then (s.cirVers c).filter (· ≠ v)
          else (s.cirVers c).map fun x => if x = v then { x with tag := s.diedTag x.tag } else x
        ((s.setCirVers c l).logChange 1).complete r .ok

/-- The bytes of a circuit context, with NEXT_VER as given (Table 07.2). -/
def CirVer.bytes (v : CirVer) (next : Nat) : Bytes :=
  v.tag.bytes ++ leBytes 1 v.mode ++ leBytes 1 v.port ++ leBytes 2 v.eq ++ leBytes 2 v.rewrite ++ leBytes 1 v.txSel
    ++ leBytes 1 v.flags ++ leBytes 2 v.ovh ++ leBytes 1 v.hdrMax ++ zeros 29 ++ leBytes 4 next ++ zeros 12 ++ sliceOf v.data 0 448

/-- CIR_READ (R207, R249, R562); NEXT_VER is the device's own, a free value. -/
def execCirRead (r : Ring) (written : Bool) (s : State) : Host.Outcome State Fault Refusal :=
  done <| s.resultCommand r 0x0052 written fun d s =>
    let c := leAt d 0x10 2
    let g := BitVec.ofNat 16 (leAt d 0x12 2)
    if !s.live g then s.complete r .genBadState else
    match s.cirAt c g with
    | none => s.complete r .cirNotFound
    | some v =>
      let (next, s) := s.draw 32
      let x := s.cirState c
      let flags := boolBit x.disabled + 2 * boolBit x.suspended + 4 * boolBit (!x.flushes.isEmpty)
      (s.dmaWrite r (descAddr d) (v.bytes next.toNat)).complete r .ok 0 (leBytes 1 flags)

/-! Disable, drain, flush and suspension (R249 to R253, R334) -/

/-- A frame of a disabled or suspended circuit is discarded, and counted where it is: suspended circuits count apart
(R236, R252). -/
def State.offDiscard (s : State) (f : Nat) (suspended : Bool) : State :=
  let x := s.frame f
  let here := if x.eg = .queued then x.outPort / 8 else x.slice
  (s.bump (cntGlz here (if suspended then 13 else 12))).discard f

/-- Whether a frame is queued for its port and not yet selected: VOQ, deep buffer, fabric or egress queue. -/
def Frame.queuedNow (x : Frame) : Bool :=
  x.bound && (x.eg = .none || x.eg = .claiming || x.eg = .filling || x.eg = .queued)

/-- Whether a frame's item stands in a deep portion, to be read or being read. -/
def Frame.inDeep (x : Frame) : Bool := x.ing = .deep || x.ing = .reading

/-- Frames of circuit c that satisfy p. -/
def State.cirFrames (s : State) (c : Nat) (p : Frame → Bool) : List Nat := s.framesWhere fun x => x.circuit = some c && p x

/-- The VOQs of a circuit's ports: those of all its versions (R289). -/
def State.cirVoqs (s : State) (c : Nat) : List Nat :=
  s.bpm.voqs.keys.filter fun k => (s.cirVers c).any fun v => v.port = k % 1024 / 8

/-- Where each deep portion of a circuit's ports ends: VOQ and last item (R334). -/
def State.flushMarks (s : State) (c : Nat) : List (Nat × Nat) :=
  (s.cirVoqs c).filterMap fun k => ((s.voq k).reading ++ (s.voq k).deep).getLast?.map fun f => (k, f)

/-- Frames of circuit c that are queued on die leave at once, and the return path discards the others as it reads them
(R250, R252, R334). -/
def State.startFlush (s : State) (c : Nat) (ring : Option Nat) : State :=
  let x := s.cirState c
  let s := s.setCirState c { x with flushes := x.flushes ++ [⟨s.flushMarks c, x.suspended, ring⟩] }
  (runOver (s.cirFrames c fun x => x.queuedNow && !x.inDeep) (fun f s => s.offDiscard f x.suspended) s).panicSync

/-- Whether a flush is complete: no portion holds the item that was its last (R334). -/
def State.flushOver (s : State) (w : CirFlush) : Bool :=
  w.marks.all fun m => !((s.voq m.1).reading ++ (s.voq m.1).deep).contains m.2

/-- The flushes of circuit c that are complete end, and with them the CIR_DISABLE that waits for each. -/
def State.endFlush (s : State) (c : Nat) : State :=
  let x := s.cirState c
  let ended := x.flushes.filter s.flushOver
  let s := s.setCirState c { x with flushes := x.flushes.filter fun w => !s.flushOver w }
  runOver (ended.filterMap (·.ring)) (fun r s => s.complete r .ok) s

/-- The flushes that wait for a portion of VOQ k end when they are complete. -/
def State.endFlushes (s : State) (k : Nat) : State :=
  runOver (s.glz.state.keys.filter fun c => (s.cirState c).flushes.any fun w => w.marks.any fun m => m.1 = k) (fun c s => s.endFlush c) s

/-- The flush of its circuit that takes a frame as its item is read: the portion had it when the flush began (R334). -/
def State.flushOf (s : State) (f : Nat) : Option CirFlush :=
  let x := s.frame f
  let l := (s.voq x.voqKey).reading ++ (s.voq x.voqKey).deep
  (x.circuit.map fun c => (s.cirState c).flushes).bind fun ws =>
    ws.find? fun w => w.marks.any fun m => m.1 = x.voqKey && l.contains m.2

/-- Whether every frame of a drain has left the device. -/
def State.drainOver (s : State) (l : List Nat) : Bool := l.all fun f => s.frame f = {}

/-- The CIR_DRAINED record of each drain of circuit c whose last frame has left (R250, R251). -/
def State.endDrain (s : State) (c : Nat) : State :=
  let x := s.cirState c
  let ended := x.drains.filter s.drainOver
  let s := s.setCirState c { x with drains := x.drains.filter fun l => !s.drainOver l }
  runOver ended (fun _ s => s.writeRecord .pf0 (s.fld .cirDisableMode 0 0 27 16) 0x0030 s.now (leBytes 2 c)) s

/-- CIR_DISABLE (R249 to R252). -/
def execCirDisable (r : Ring) (s : State) : Host.Outcome State Fault Refusal :=
  done <| s.command r 0x0053 fun d s =>
    let c := leAt d 0x10 2
    let x := s.cirState c
    if x.flushes.any fun w => w.ring = some r.val then s
    else if !x.flushes.isEmpty then s.complete r .cirBusy
    else
      let s := s.setCirState c { x with disabled := true }
      if s.bit .cirDisableMode 0 0 0 then (s.startFlush c (some r.val)).endFlush c
      else
        let y := s.cirState c
        ((s.setCirState c { y with drains := y.drains ++ [s.cirFrames c Frame.queuedNow] }).endDrain c).complete r .ok

/-- CIR_ENABLE (R251). -/
def execCirEnable (r : Ring) (s : State) : Host.Outcome State Fault Refusal :=
  done <| s.command r 0x0054 fun d s =>
    let c := leAt d 0x10 2
    let x := s.cirState c
    if !x.flushes.isEmpty then s.complete r .cirBusy
    else (s.setCirState c { x with disabled := false }).complete r .ok

/-- The last queued frame of a circuit disabled in DRAIN mode has left (R250). -/
def execCirDrainDone (c : Circuit) (s : State) : Host.Outcome State Fault Refusal := done (s.endDrain c)

/-- The DISCARD flush of a circuit completes (R250, R334). -/
def execCirFlushDone (c : Circuit) (s : State) : Host.Outcome State Fault Refusal := done (s.endFlush c)

/-! Records to the PF1 event ring (Table 12.18) -/

/-- A record of chapter 07 about SA `sa`. -/
def State.glzRecord (s : State) (type sa an count number : Nat) : State :=
  s.writeRecord .pf1 (s.fld .cirEvtCtrl 0 0 27 16) type s.now
    (leBytes 2 (sa / 4) ++ leBytes 1 (sa % 4) ++ leBytes 1 an ++ leBytes 4 count ++ leBytes 8 number)

/-- The live number of an SA: NEXT_PN in its bound slice, 0 when unbound; RX_TOP of a receive SA (R378). -/
def State.liveNumber (s : State) (i : Nat) (x : Sa) : Nat :=
  if x.tx then
    match x.bound with
    | some (sl, eq) => s.glz.nextPn.get 0 (pnKey sl eq (i % 4))
    | none => 0
  else x.rxTop

/-- A circuit is suspended (R252). `why` is the SA poisoned; without one, SLOT, AN and NUMBER of the record are free
values. -/
def State.suspend (s : State) (c : Nat) (why : Option Nat) : State :=
  let x := s.cirState c
  if x.suspended then s else
  let s := s.setCirState c { x with suspended := true }
  let s := match why.bind fun i => (s.saOf i).map fun a => (i, a) with
    | some (i, a) => s.glzRecord 0x0031 i a.an 0 (s.liveNumber i a)
    | none =>
      let (v, s) := s.draw 68
      s.glzRecord 0x0031 (4 * c + v.toNat % 4) (v.toNat / 4 % 4) 0 (v.toNat / 16)
  (s.startFlush c none).endFlush c

/-- An SA is poisoned (R235). -/
def State.poisonSa (s : State) (i : Nat) : State :=
  match s.saOf i with
  | some a =>
    if a.poison then s else
    let s := (s.setSa i (some { a with poison := true })).suspend (i / 4) (some i)
    s.glzRecord 0x0032 i a.an 0 (s.liveNumber i a)
  | none => s

/-- The version of circuit c born in g is poisoned and the circuit suspended (Table 13.4). -/
def State.poisonVersion (s : State) (c : Nat) (born : Gen) : State :=
  (s.setCirVers c ((s.cirVers c).map fun v => if v.tag.born = born then { v with poison := true } else v)).suspend c none

/-- Whether a poisoned SA or version of circuit c is visible in g (R253, R410). -/
def State.poisonIn (s : State) (c : Nat) (g : Gen) : Bool :=
  ((s.cirAt c g).any fun v => v.poison) || (List.range 4).any fun k => (s.saIn (4 * c + k) g).any fun x => x.poison

/-- CIR_RESUME (R253, R410). -/
def execCirResume (r : Ring) (s : State) : Host.Outcome State Fault Refusal :=
  done <| s.command r 0x0064 fun d s =>
    let c := leAt d 0x10 2
    if s.poisonIn c s.gen.current || s.poisonIn c s.staging then s.complete r .cirPoisonVisible
    else (s.setCirState c { s.cirState c with suspended := false }).complete r .ok

/-! Security associations (R209 to R216, R244 to R247) -/

/-- Whether a suite is MACsec (Table 07.5). -/
def suiteMacsec (suite : Nat) : Bool := suite ≤ 4
/-- Whether its key has 32 bytes. -/
def suiteLong (suite : Nat) : Bool := suite % 2 = 0
/-- Whether it is XPN. -/
def suiteXpn (suite : Nat) : Bool := suite = 3 || suite = 4

/-- ESN. -/
def Sa.esn (x : Sa) : Bool := bitOf 0 x.flags
/-- REPLAY_EN. -/
def Sa.replayEn (x : Sa) : Bool := bitOf 1 x.flags
/-- Whether the full number has 64 bits (Table 07.5). -/
def Sa.wide (x : Sa) : Bool := suiteXpn x.suite || (5 ≤ x.suite && x.esn)

/-- Faults of an SA_LOAD record alone (Table 07.3). -/
def badSaRecord (b : Bytes) : Bool :=
  let suite := byteAt b 4
  let rx := byteAt b 3 = 1
  3 < byteAt b 2 || 1 < byteAt b 3 || suite = 0 || 6 < suite || 3 < byteAt b 5 || 3 < byteAt b 6 || (!rx && bitOf 1 (byteAt b 6)) ||
    127 < byteAt b 7 || 1024 < leAt b 32 2 || !zeroAt b 34 6 || leAt b 48 8 = 0 || !zeroAt b 56 8 ||
    (suiteMacsec suite && (bitOf 0 (byteAt b 6) || (!suiteXpn suite && (!zeroAt b 16 12 || !zeroAt b 28 4)))) ||
    (!suiteMacsec suite && (byteAt b 5 ≠ 0 || !zeroAt b 12 4 || !zeroAt b 20 8 || !zeroAt b 28 4 || beAt b 8 4 < 256))

/-- Faults of the blob header: MAGIC, VERSION, WLEN and reserved fields (Table 07.8, R245). -/
def badBlob (b : Bytes) : Bool :=
  let n := leAt b 8 2
  leAt b 0 2 ≠ 0x574B || byteAt b 2 ≠ 1 || !zeroAt b 6 2 || (n ≠ 32 && n ≠ 48) || (byteAt b 4 = 1 && n ≠ 32) ||
    (byteAt b 4 = 2 && n ≠ 48) || !zeroAt b 10 6 || !zeroAt b (16 + n) (48 - n)

/-- Whether the binding block matches the header and the header fits the suite (R244, R245). -/
def bindingOk (blob plain : Bytes) (suite : Nat) : Bool :=
  sliceOf plain 0 8 = [0x59] ++ sliceOf blob 2 4 ++ zeros 3 &&
    byteAt blob 4 = (if suiteLong suite then 2 else 1) && byteAt blob 5 = (if suiteMacsec suite then 1 else 2)

/-- Whether two receive SAs hold the same receive key (R210). -/
def Sa.sameKey (x y : Sa) : Bool :=
  !x.tx && !y.tx && x.rxPort = y.rxPort && suiteMacsec x.suite == suiteMacsec y.suite && x.sciSpi = y.sciSpi &&
    (!suiteMacsec x.suite || x.an = y.an)

/-- The storage key in force (R248). -/
def State.storageKey (s : State) : Bytes := s.glz.storageKey.getD []

/-- The key of an SA, which only the storage key under which it was stored opens (R248). -/
def Sa.openKey (a : Sa) (storage : Bytes) : Bytes := if a.keyStore.under = storage then a.keyStore.plain else []

/-- The SA of a record and key (Table 07.4, R240, R248). -/
def State.saFrom (s : State) (b key : Bytes) : Sa :=
  { tag := s.bornTag, tx := byteAt b 3 = 0, suite := byteAt b 4, an := byteAt b 5, flags := byteAt b 6, rxPort := byteAt b 7
    kekSlot := byteAt b 67, window := leAt b 32 2, sciSpi := sliceOf b 8 8, salt := sliceOf b 16 12, ssci := beAt b 28 4
    softPn := leAt b 40 8, initPn := leAt b 48 8, keyStore := ⟨s.storageKey, key⟩
    rxTop := if byteAt b 3 = 1 then leAt b 48 8 - 1 else 0, bitmap := if byteAt b 3 = 1 then 2 ^ 1024 - 1 else 0 }

/-- The bucket of the receive index of a receive key. -/
def rxBucket (key : Bytes × Nat) (port kind : Nat) : Nat :=
  Config.receiveBucket (((leNat key.1 * 4 + key.2) * 128 + port) * 2 + kind % 2)

/-- The receive index takes an SA, in both copies (R399). -/
def State.indexWrite (s : State) (a : Sa) : State :=
  let b := if suiteMacsec a.suite then rxBucket (a.sciSpi, a.an) a.rxPort 1 else rxBucket (a.sciSpi, 0) a.rxPort 2
  if a.tx then s else (s.structWrite (.rxIndex b false)).structWrite (.rxIndex b true)

/-- The KEK of a fuse slot (R246). -/
def State.kek (s : State) (slot : Nat) : Bytes := deriveKek (s.fuses.slotKeys.getD slot (zeros 32)) s.fuses.serial

/-- SA_LOAD (R54, R209, R210, R244 to R246, R562). -/
def execSaLoad (r : Ring) (rec : Dma) (s : State) : Host.Outcome State Fault Refusal :=
  done <| s.recCommand r 0x0060 true rec fun _ b s =>
    let blob := sliceOf b 64 64
    let c := leAt b 0 2
    let i := 4 * c + byteAt b 2
    let suite := byteAt b 4
    if badSaRecord b || badBlob blob then s.complete r .saBadRecord else
    match s.cirAt c s.staging with
    | none => s.complete r .cirNotFound
    | some v =>
      if suiteMacsec suite ≠ (v.mode = 1) || (byteAt b 3 = 1 && byteAt b 7 / 8 ≠ v.port / 8) then s.complete r .saBadRecord
      else if (s.saOf i).isSome then s.complete r .saSlotBusy
      else if s.glz.sa.any fun _ x => x.any fun x => x.sameKey (s.saFrom b []) then s.complete r .saKeyBusy
      else if byteAt blob 3 ≠ s.fuses.kekSlot then s.complete r .keyKekSlot
      else
        match kwUnwrap (s.kek s.fuses.kekSlot) (sliceOf blob 16 (leAt blob 8 2)) with
        | none => s.complete r .keyUnwrapFail
        | some plain =>
          if !bindingOk blob plain suite then s.complete r .keyBinding
          else if !s.logRoom 1 then s.complete r .genLogFull
          else
            let a := s.saFrom b (plain.drop 8)
            ((((s.setSa i (some a)).structWrite (.sa i)).indexWrite a).logChange 1).complete r .ok

/-- SA_DELETE (R54, R214, R562). -/
def execSaDelete (r : Ring) (s : State) : Host.Outcome State Fault Refusal :=
  done <| s.seqCommand r 0x0061 true fun d s =>
    let c := leAt d 0x10 2
    let k := byteAt d 0x12
    let i := 4 * c + k
    match s.saIn i s.staging with
    | none => s.complete r .saNotFound
    | some x =>
      if (s.cirAt c s.staging).any fun v => v.txSel = k then s.complete r .saInUse
      else if !s.logRoom 1 then s.complete r .genLogFull
      else
        ((s.setSa i (if s.madeInStaging x.tag then none else some { x with tag := s.diedTag x.tag })).logChange 1).complete r .ok

/-- SA_PN_SOFT, once per SA, when NEXT_PN has reached SOFT_PN (R228). -/
def State.softCheck (s : State) (k : Nat) : State :=
  match s.saOf k with
  | some a =>
    let n := s.liveNumber k a
    if a.softPn = 0 || a.softSent || n < a.softPn then s
    else (s.setSa k (some { a with softSent := true })).glzRecord 0x0033 k a.an 0 n
  | none => s

/-- SA i is bound to a slice and EQ, and its transmit number starts at INIT_PN (R213). -/
def State.bindSa (s : State) (i slice eq : Nat) : State :=
  match s.saOf i with
  | some x =>
    if x.bound.isSome then s else
    let s := s.setSa i (some { x with bound := some (slice, eq) })
    let s := { s with gen := { s.gen with bindings := s.gen.bindings ++ [(s.staging.toNat, i)] } }
    (s.setPn (pnKey slice eq (i % 4)) x.initPn).softCheck i
  | none => s

/-- SA_SELECT_TX (R208, R213, R562). -/
def execSaSelectTx (r : Ring) (s : State) : Host.Outcome State Fault Refusal :=
  done <| s.seqCommand r 0x0062 true fun d s =>
    let c := leAt d 0x10 2
    let k := byteAt d 0x12
    let i := 4 * c + k
    match s.cirAt c s.staging with
    | none => s.complete r .cirNotFound
    | some v =>
      match (if k ≤ 3 then s.saIn i s.staging else none) with
      | none => s.complete r .saNotTx
      | some x =>
        if !x.tx then s.complete r .saNotTx
        else if x.bound.any fun b => b ≠ (v.port / 8, v.eq) then s.complete r .saBoundElsewhere
        else s.putCircuit r c { v with tag := s.bornTag, txSel := k } fun s => s.bindSa i (v.port / 8) v.eq

/-- The result of SA_READ (R378). -/
def State.saBytes (s : State) (i : Nat) (x : Sa) : Bytes :=
  let bound := x.bound.getD (0, 0)
  leBytes 2 (i / 4) ++ leBytes 1 (i % 4) ++ leBytes 1 (boolBit !x.tx) ++ leBytes 1 x.suite ++ leBytes 1 x.an ++ leBytes 1 x.flags
    ++ leBytes 1 x.rxPort ++ sliceOf x.sciSpi 0 8 ++ sliceOf x.salt 0 12 ++ beBytes 4 x.ssci ++ leBytes 2 x.window ++ zeros 6
    ++ leBytes 8 x.softPn ++ leBytes 8 x.initPn ++ zeros 8 ++ leBytes 8 (s.liveNumber i x)
    ++ leBytes 1 (boolBit x.poison + 2 * boolBit x.bound.isSome) ++ leBytes 1 bound.1 ++ leBytes 2 bound.2 ++ leBytes 1 x.kekSlot
    ++ zeros 51

/-- SA_READ (R248, R378, R562). -/
def execSaRead (r : Ring) (written : Bool) (s : State) : Host.Outcome State Fault Refusal :=
  done <| s.resultCommand r 0x0063 written fun d s =>
    let i := 4 * leAt d 0x10 2 + byteAt d 0x12
    let g := BitVec.ofNat 16 (leAt d 0x14 2)
    if !s.live g then s.complete r .genBadState else
    match s.saIn i g with
    | none => s.complete r .saNotFound
    | some x => (s.dmaWrite r (descAddr d) (s.saBytes i x)).complete r .ok

/-! ICV failures (R243) -/

/-- The ICV_FAIL record of a circuit, with the failures since the record before it; a new holdoff starts. -/
def State.icvRecord (s : State) (sa : Nat) : State :=
  let c := sa / 4
  let x := s.cirState c
  let h := s.fld .cirEvtCtrl 0 0 15 0
  let s := s.setCirState c { x with icvCount := 0, icvEnd := if h = 0 then 0 else s.now + h * msNs, icvSa := sa }
  let a := s.saOf sa
  s.glzRecord 0x0035 sa ((a.map fun y => y.an).getD 0) x.icvCount ((a.map fun y => y.rxTop).getD 0)

/-- A frame that SA `sa` decrypted fails its ICV. -/
def State.icvFailed (s : State) (sa : Nat) : State :=
  let c := sa / 4
  let x := s.cirState c
  let s := s.setCirState c { x with icvCount := x.icvCount + 1, icvSa := sa }
  if x.icvEnd ≠ 0 ∧ s.now < x.icvEnd then s else s.icvRecord sa

/-- A circuit's ICV holdoff ends (R243). -/
def execIcvHoldoffEnd (c : Circuit) (s : State) : Host.Outcome State Fault Refusal :=
  done <|
    let x := s.cirState c
    if x.icvEnd = 0 then s else
    let s := s.advanceTo x.icvEnd
    if x.icvCount = 0 then s.setCirState c { x with icvEnd := 0 } else s.icvRecord x.icvSa

end Sys2Proof.Machine
end

