-- ==== Sys2Proof/Machine/Safe.lean ====
section
/-! DEFINITION. Critical faults and the safe-state chain (R33, R431 to R436). -/

namespace Sys2Proof.Machine

/-- Whether a critical line follows a measurement, and so falls when the measurement returns into range (R431). -/
def measuredLine (n : Nat) : Bool := n < 0x4CD || n = 0x4F0 || n = 0x4F1

/-- The record of a critical fault (Table 14.8). -/
def State.criticalRecord (s : State) (n : Nat) : State := (s.noteEvent n s.now 0 0).flushRecord n .critical

/-- Every MAC takes the squelch: a frame in transmission is cut short (Table 14.5, step 3). In FACTORY_TEST, which has
no purge, it leaves the device at once. -/
def State.squelchAll (s : State) : State :=
  runOver (List.range 128) (fun p s =>
    match (s.port p).tx with
    | some f =>
      let s := (s.emit (.lineCut p)).setPort p { s.port p with tx := none }
      if s.mode = .factoryTest then s.discard f else s.modFrame f fun x => { x with eg := .ready }
    | none => s) { s with flt := { s.flt with squelch := true } }

/-- DRAIN and STANDBY commands that wait complete with ABORTED (R511). -/
def State.abortModeCommand (s : State) : State :=
  runOver s.hif.rings.keys (fun r s =>
    if (s.executing r 0x0081).isSome || (s.executing r 0x0082).isSome then s.complete r .aborted else s) s

/-- Every transmit and receive cache entry is invalidated, and what waits for one is dropped (Table 14.5, steps 6 and
7). -/
def State.dropCaches (s : State) : State :=
  { s with
    glz := { s.glz with cache := .empty, wait := .empty, rxCache := .empty }
    cps := s.cps.mapCells none fun _ p => p.map fun p => { p with pin := none } }

/-- Every frame in the device is discarded and counted in FLT_SAFE_DISC_CNT (Table 14.5, step 7). -/
def State.purge (s : State) : State :=
  let s := runOver s.frames.keys (fun f s => (s.bump (cntFlt 2)).discard f) s
  (runOver (List.range 128) (fun p s => s.resetVoqs p) s).panicSync

/-- Steps 6 and 7 of Table 14.5 for the sources that have asserted, the first of them named by the entry.
Its record is written in the mode that SAFE follows (Table 14.6). -/
def State.enterSafe (s : State) (sources : List Nat) : State :=
  let s := runOver (sources.take 1) (fun n s => s.criticalRecord n) s
  let s := (({ s with mode := .safe }).bump (cntFlt 1)).kilnLog 0x0005 3 (leBytes 2 (sources.headD 0) ++ [1])
  let s := s.abortModeCommand
  let s := runOver (sources.drop 1) (fun n s => s.criticalRecord n) s
  (s.purge.dropCaches).eicEvent 1281

/-- The sources of a list whose assertion is new. -/
def State.newLines (s : State) (l : List Nat) : List Nat := l.filter fun n => !s.flt.lines.contains n

/-- Latch a critical fault in FLT_CRIT_CAUSE: the first gives SOURCE, the others count (R434). -/
def State.latchCause (s : State) (n : Nat) : State :=
  if s.flt.critV then { s with flt := { s.flt with critCount := s.flt.critCount + 1 } }
  else { s with flt := { s.flt with critV := true, critSource := n, critCount := 0 } }

/-- Critical lines assert in one AON cycle, lowest source first (R431 to R436). -/
def State.critical (s : State) (l : List Nat) : State :=
  let new := s.newLines l
  let s := { s with flt := { s.flt with lines := s.flt.lines ++ l.filter fun n => !s.flt.lines.contains n } }
  if new.isEmpty || s.mode = .reset then s else
  let s := runOver new (fun n s => (s.fault n 0 0).latchCause n) s
  let s := { s.squelchAll with flt := { s.squelchAll.flt with faultN := true } }
  match s.mode with
  | .bringup => { s with flt := { s.flt with critInBringup := s.flt.critInBringup ++ new } }
  | .safe => runOver new (fun n s => s.criticalRecord n) s
  | .factoryTest => runOver new (fun n s => s.criticalRecord n) s
  | _ => s.enterSafe new

/-- One critical line asserts. -/
def State.criticalLine (s : State) (n : Nat) : State := s.critical [n]

/-- The lines of measurements that have returned into range fall (R431). -/
def State.endLines (s : State) (l : List Nat) : State :=
  { s with flt := { s.flt with lines := s.flt.lines.filter fun n => !(measuredLine n && l.contains n) } }

/-- CRITICAL_FAULT: the critical lines change. Those of the measurements in `ended` fall, and the sources assert (R431, R433).
Sources that are not critical do not exist on these lines. -/
def execCriticalFault (sources ended : List Nat) (s : State) : Host.Outcome State Fault Refusal :=
  done ((s.endLines ended).critical ((List.range 0x500).filter fun n => sources.contains n && sourceKind n = .critical))

end Sys2Proof.Machine
end

