-- ==== Sys2Proof/Machine/Glaze.lean ====
section
/-! DEFINITION. The transmit path of Glaze: the context cache, numbering and dispatch, lockstep, known-answer tests and
the retirement of lanes (chapter 07). -/

namespace Sys2Proof.Machine

/-! Spares (R233, R242, R266, R425) -/

/-- The lowest-numbered spare of `total` units whose last test passed. -/
def UnitMap.goodSpare (m : UnitMap) (total : Nat) (good : Nat → Bool) : Option Nat :=
  (m.spares total).find? fun u => good u && !m.fenced.contains u

/-- Fence a unit. -/
def UnitMap.fence (m : UnitMap) (u : Nat) : UnitMap := if m.fenced.contains u then m else { m with fenced := m.fenced ++ [u] }

/-- Lift a fence. -/
def UnitMap.unfence (m : UnitMap) (u : Nat) : UnitMap := { m with fenced := m.fenced.filter (· ≠ u) }

/-- The units that serve positions and are not fenced, in order of position (R224). -/
def UnitMap.active (m : UnitMap) : List Nat := (m.pos.filterMap id).filter fun u => !m.fenced.contains u

/-- A spare fails its test while out of service: it is permanent and consumes the envelope (R425). -/
def State.rejectSpare (s : State) (n : Nat) : State :=
  let s := s.setFsrc n { s.fsrc n with perm := true, retired := true }
  let s := { s with flt := { s.flt with queue := s.flt.queue.filter (· ≠ n) } }
  let s := s.faultRecord { source := n, reason := .spareRejected, firstTime := s.now, time := s.now }
  if s.mode = .factoryTest then s else s.kilnPerm 0x0012 3 (leBytes 2 n)

/-! The transmit context cache (R220 to R222, R235) -/

/-- The entry of slice i that waits longest for its contents. -/
def State.fillNext (s : State) (i : Nat) : Option TxEntry := (s.cache i).reverse.find? fun e => !e.resident

/-- A cache entry is refilled from HBM, or the read fails (R221, R235, Table 13.4). -/
def execTxCacheFill (i : Slice) (res : FillResult) (s : State) : Host.Outcome State Fault Refusal :=
  done <|
    match s.fillNext i with
    | none => s
    | some e =>
      let s := (s.structRead (.sa e.sa)).structRead (.version e.circuit e.born)
      let res := if s.structBad (.sa e.sa) then FillResult.saError else if s.structBad (.version e.circuit e.born) then .versionError else res
      match res with
      | .ok => s.fillEntry i e
      | .saError => s.poisonSa e.sa
      | .versionError => s.poisonVersion e.circuit e.born

/-! Dispatch and numbering (R224, R228) -/

/-- Fault source of an encrypt pair. -/
def pairSource (i u : Nat) : Nat := 0x40 + 12 * i + u

/-- Hard limit of an SA's numbers (R228). -/
def Sa.hardLimit (a : Sa) : Nat := if a.wide then 2 ^ 64 - 1 else 2 ^ 32 - 1

/-- The frame takes NEXT_PN of its SA; none when the SA is exhausted (R224, R228). -/
def State.takeNumber (s : State) (f : Nat) : Option State :=
  let x := s.frame f
  match s.frameKey f with
  | some k =>
    match (s.saOf k.sa).bind fun a => a.bound.map fun b => (a, b) with
    | some (a, (sl, eq)) =>
      let key := pnKey sl eq (k.sa % 4)
      let n := s.glz.nextPn.get 0 key
      if a.hardLimit < n then none
      else
        let s := s.setPn key (n + 1)
        some ((s.setFrame f { x with number := n, txSa := k.sa }).softCheck k.sa)
    | none => none
  | none => none

/-- The SA under which a frame would take its number, when the copies of NEXT_PN cannot be used (R235). -/
def State.tornSa (s : State) (f : Nat) : Option Nat :=
  (s.frameKey f).bind fun k =>
    ((s.saOf k.sa).bind (·.bound)).bind fun b => if s.pnTorn (pnKey b.1 b.2 (k.sa % 4)) then some k.sa else none

/-- The SA of a frame is poisoned for its numbers, and the frame is discarded as one under a poisoned SA (R235, R253). -/
def State.tornDiscard (s : State) (f sa : Nat) : State :=
  let i := (s.frame f).outPort / 8
  ((s.poisonSa sa).bump (cntGlz i 13)).discard f

/-- SA_PN_EXHAUST, once per SA (R228). -/
def State.exhausted (s : State) (f : Nat) : State :=
  let x := s.frame f
  let s := s.bump (cntGlz (x.outPort / 8) 5)
  let s := match (s.frameKey f).bind fun k => (s.saOf k.sa).map fun a => (k.sa, a) with
    | some (k, a) =>
      if a.exhaustSent then s
      else (s.setSa k (some { a with exhaustSent := true })).glzRecord 0x0034 k a.an 0 (s.liveNumber k a)
    | none => s
  s.discard f

/-- The pair used for a third attempt, other than `u`: a spare whose last test passed, otherwise another active pair
(Table 07.6). -/
def State.thirdPair (s : State) (i u : Nat) : Option Nat :=
  match (s.encMap i).goodSpare 12 fun v => v ≠ u && (s.pair i v).good with
  | some v => some v
  | none => (s.encMap i).active.find? (· ≠ u)

/-- Put a frame that has its number into the first of these pairs with room. -/
def State.placeIn (s : State) (i f : Nat) (pairs : List Nat) : Option State :=
  (pairs.find? fun u => (s.pair i u).frames.length < 2).map fun u =>
    (s.setPair i u { s.pair i u with frames := (s.pair i u).frames ++ [f] }).modFrame f fun x => { x with eg := .glaze }

/-- Frames of slice i that have their numbers and wait for room. -/
def State.movedIn (s : State) (i : Nat) : List Nat := s.glz.moved.get [] i

/-- Replace them. -/
def State.setMoved (s : State) (i : Nat) (l : List Nat) : State := { s with glz := { s.glz with moved := s.glz.moved.set [] i l } }

/-- Frames of slice i that wait for dispatch. -/
def State.waitingIn (s : State) (i : Nat) : List Nat := s.glz.waiting.get [] i

/-- Replace them. -/
def State.setWaiting (s : State) (i : Nat) (l : List Nat) : State :=
  { s with glz := { s.glz with waiting := s.glz.waiting.set [] i l } }

/-- Moved frames take room first, in order (R232). -/
def State.serveMoved (s : State) (i : Nat) : Nat → State
  | 0 => s
  | n + 1 =>
    match s.movedIn i with
    | [] => s
    | f :: rest =>
      let alt := (s.thirdPair i (s.frame f).glzPair).toList
      match s.placeIn i f (alt ++ (s.encMap i).active) with
      | some t => (t.setMoved i rest).serveMoved i n
      | none => s

/-- Frames are dispatched in selection order while a pair has room; a frame of an exhausted SA is discarded. -/
def State.serveWaiting (s : State) (i : Nat) : Nat → State
  | 0 => s
  | n + 1 =>
    match s.waitingIn i with
    | [] => s
    | f :: rest =>
      if ((s.encMap i).active.any fun u => (s.pair i u).frames.length < 2) then
        let s := s.setWaiting i rest
        match s.tornSa f, s.takeNumber f with
        | some sa, _ => (s.tornDiscard f sa).serveWaiting i n
        | none, some t => ((t.placeIn i f (t.encMap i).active).getD t).serveWaiting i n
        | none, none => (s.exhausted f).serveWaiting i n
      else s

/-- Room may have freed in slice i: moved frames, then new ones. -/
def State.dispatch (s : State) (i : Nat) : State :=
  let s := s.serveMoved i ((s.movedIn i).length + 1)
  if (s.movedIn i).isEmpty then s.serveWaiting i ((s.waitingIn i).length + 1) else s

/-- The frames on a pair move, with their numbers and in order (R232). -/
def State.movePair (s : State) (i u : Nat) : State :=
  let l := (s.pair i u).frames
  let s := s.setPair i u { s.pair i u with frames := [] }
  let s := runOver l (fun f s => s.modFrame f fun x => { x with eg := .dispatch, glzPair := u }) s
  (s.setMoved i (s.movedIn i ++ l)).dispatch i

/-! Protection (R225 to R227, R229) -/

/-- A frame's protected bytes: Burin's output with the number, the IV, the ciphertext and the ICV filled in. -/
def protect (o : Output) (a : Sa) (key : Bytes) (v : CirVer) (n : Nat) : Bytes :=
  let icvAt := o.encOff + o.encLen
  if o.kind = 1 then
    let bs := putAt o.bytes (o.secOff + 4) (beBytes 4 (n % 2 ^ 32))
    let iv := if suiteXpn a.suite then xorBytes (beBytes 4 a.ssci ++ beBytes 8 n) a.salt else a.sciSpi ++ beBytes 4 n
    let head := sliceOf bs 0 12 ++ sliceOf bs o.secOff (if bitOf 0 v.flags then 16 else 8)
    let data := sliceOf bs o.encOff o.encLen
    if bitOf 3 v.flags then
      let ct := gcmStream key iv data
      bs.take o.encOff ++ ct ++ gcmTag key iv head ct
    else bs.take icvAt ++ gcmTag key iv (head ++ data) []
  else
    let bs := putAt (putAt o.bytes (o.secOff + 4) (beBytes 4 (n % 2 ^ 32))) (o.secOff + 8) (beBytes 8 n)
    let iv := sliceOf a.salt 0 4 ++ beBytes 8 n
    let spi := sliceOf bs o.secOff 4
    let aad := if a.esn then spi ++ beBytes 8 n else spi ++ beBytes 4 (n % 2 ^ 32)
    let ct := gcmStream key iv (sliceOf bs o.encOff o.encLen)
    bs.take o.encOff ++ ct ++ gcmTag key iv aad ct

/-- What one lane computes from its copy of the entry: none when the header is longer than HDR_MAX (R229). -/
def TxCopy.lane (c : TxCopy) (storage : Bytes) (o : Output) (n : Nat) : Option Bytes :=
  if c.ver.hdrMax < o.secOff then none else some (protect o c.sa (c.sa.openKey storage) c.ver n)

/-- The cache entry of a frame that is in a lane pair. -/
def State.laneEntry (s : State) (f : Nat) : Option TxEntry := (s.frameKey f).bind fun k => s.entryOf ((s.frame f).outPort / 8) k

/-- What the two lanes compute for a frame, lane A from copy A and lane B from copy B (R229). -/
def State.lanes (s : State) (f : Nat) (e : TxEntry) : Option Bytes × Option Bytes :=
  let x := s.frame f
  (e.copyA.bind fun c => c.lane s.storageKey x.output x.number, e.copyB.bind fun c => c.lane s.storageKey x.output x.number)

/-- The two computations agree: the frame is released with its proof, or discarded for its header (R229, R230). -/
def State.matched (s : State) (f : Nat) (result : Option Bytes) : State :=
  let x := s.frame f
  match result with
  | some bs => s.setFrame f { x with eg := .ready, proof := .lockstep, output := { x.output with bytes := bs } }
  | none => (s.bump (cntGlz (x.outPort / 8) 14)).discard f

/-! Lockstep (R231 to R234) -/

/-- One error event of a pair. -/
def State.miscompare (s : State) (i u : Nat) : State := (s.bump (cntGlz i 0)).fault (pairSource i u) 0 0

/-- An entry whose copy A or B cannot be read is refilled from HBM, and the frame waits; a transient event (R235). -/
def State.refill (s : State) (i : Nat) (e : TxEntry) : State :=
  let s := { s with kiln := { s.kiln with retry := s.kiln.retry.modify 0 2 (· + 1) } }
  s.mapCache i (· = e) fun x => { x with resident := false }

/-- The outcome of a compare, given the entry that the lanes read: a copy that is poisoned cannot be read, an injected
corruption or differing copies give a miscompare (R229, R235, R411, R440). -/
def State.laneOutcome (s : State) (f : Nat) (e : TxEntry) (hurt : Bool) (o : LockstepOutcome) : LockstepOutcome :=
  let i := (s.frame f).outPort / 8
  if s.wordBad (txInst i) (cacheObject e.idx false) then .copyError false
  else if s.wordBad (txInst i) (cacheObject e.idx true) then .copyError true
  else if o = .equal && (hurt || (s.lanes f e).1 ≠ (s.lanes f e).2) then .miscompare
  else o

/-- A pair has computed a frame (R229 to R235, Table 07.6). A frame whose entry is being refilled waits. -/
def execLockstepCompare (i : Slice) (u : Fin 12) (outcome : LockstepOutcome) (s : State) :
    Host.Outcome State Fault Refusal :=
  done <|
    if s.mode = .safe then s else
    match (s.pair i u).frames with
    | [] => s
    | f :: rest =>
      match s.laneEntry f with
      | none => s
      | some e =>
      if !e.resident then s else
      let (hurt, s) := s.takeCorrupt (pairSource i u)
      let drop := fun (s : State) => s.setPair i u { s.pair i u with frames := rest }
      match s.laneOutcome f e hurt outcome with
      | .equal => ((drop s).matched f (s.lanes f e).1).dispatch i
      | .comparatorsDisagree => s.criticalLine (0x4E0 + i.val)
      | .copyError _ => s.refill i e
      | .numbersDisagree => ((drop s).tornDiscard f (s.frame f).txSa).dispatch i
      | .miscompare =>
        let s := s.miscompare i u
        let k := (s.frame f).glzAttempts + 1
        let s := s.modFrame f fun x => { x with glzAttempts := k }
        if k = 1 then s
        else if k = 2 then (s.setEncMap i ((s.encMap i).fence u)).movePair i u
        else (((drop s).bump (cntGlz i 1)).discard f).dispatch i

/-- Keep what the last known-answer test of a pair or a lane found. -/
def State.setGood (s : State) (decrypt : Bool) (i u : Nat) (g : Bool) : State :=
  if decrypt then { s with glz := { s.glz with lanes := s.glz.lanes.modify {} (i * 12 + u) fun x => { x with good := g } } }
  else s.setPair i u { s.pair i u with good := g }

/-- A pair or a lane has run its known-answer test: a pass lifts a pair's fence; a failure is one event, and a spare that
fails is classed permanent (R232, R425). -/
def State.laneTest (s : State) (decrypt : Bool) (i u : Nat) (pass : Bool) : State :=
  let m := if decrypt then s.decMap i else s.encMap i
  let src := (if decrypt then 0x100 else 0x40) + 12 * i + u
  let s := s.setGood decrypt i u pass
  if pass then (if decrypt then s else (s.setEncMap i (m.unfence u)).dispatch i)
  else
    let s := s.fault src 0 0
    if (m.spares 12).contains u then
      let m := { m with retired := m.retired ++ [u] }
      (if decrypt then s.setDecMap i m else s.setEncMap i m).rejectSpare src
    else s

/-- The known-answer test of a fenced pair, or of a spare pair or lane (R232, R425). -/
def execLaneKat (i : Slice) (decrypt : Bool) (u : Fin 12) (pass : Bool) (s : State) : Host.Outcome State Fault Refusal :=
  done <|
    let m := if decrypt then s.decMap i else s.encMap i
    let spare := (m.spares 12).contains u.val && !(s.fsrc ((if decrypt then 0x100 else 0x40) + 12 * i.val + u.val)).retired
    if spare || m.fenced.contains u.val then s.laneTest decrypt i u pass else s

/-- A spare pair takes a retired pair's logical position at a dispatch boundary (R233). -/
def execEncPairRetire (i : Slice) (u : Fin 12) (s : State) : Host.Outcome State Fault Refusal :=
  done <|
    let src := pairSource i u
    if !s.flt.running.contains src then s else
    match (s.encMap i).goodSpare 12 fun v => (s.pair i v).good with
    | some v => (((s.setEncMap i (((s.encMap i).swap u (some v)).unfence u)).noteRetired src v).movePair i u).dispatch i
    | none =>
      -- no spare: the position is left empty (Table 01.4, R429)
      ((((s.setEncMap i (((s.encMap i).swap u none).unfence u)).endRetirement src).degrade src).movePair i u).dispatch i

/-- A spare decrypt lane takes a retired lane's logical position (R242). -/
def execDecLaneRetire (i : Slice) (l : Fin 12) (s : State) : Host.Outcome State Fault Refusal :=
  done <|
    let src := 0x100 + 12 * i.val + l.val
    if !s.flt.running.contains src then s else
    match (s.decMap i).goodSpare 12 fun v => (s.glz.lanes.get {} (i.val * 12 + v)).good with
    | some v => (s.setDecMap i ((s.decMap i).swap l (some v))).noteRetired src v
    | none => ((s.setDecMap i ((s.decMap i).swap l none)).endRetirement src).degrade src

end Sys2Proof.Machine
end

