-- ==== Sys2Proof/Machine/Port.lean ====
section
/-! DEFINITION. Ports: configuration, domains, bypass classes, link states, lanes, reference clocks and PTP time
(chapter 03, R541, R542, R553). -/

namespace Sys2Proof.Machine

/-! Register writes that have a row of their own -/

/-- State of a reset domain. -/
def State.domain (s : State) (d : Nat) : DomainState := s.rst.dom.get .held d

/-- Whether the registers of a block can be accessed: GLB and the mailbox once domain 4 is ready, other blocks once
their domain is released (R501). -/
def State.reachable (s : State) (r : RegName) : Bool :=
  s.domain 4 = .ready && s.domain r.info.domain ≠ .held

/-- A write by function f of element (i, j) of a register: refused and logged outside the writers' roles, ignored
while the block cannot be accessed (R42, R501). -/
def State.rowWrite (s : State) (f : Fn) (r : RegName) (i j : Nat) (act : State → State) : State :=
  if !s.reachable r then s
  else if !r.info.writers.contains f.num then s.configError f (r.addr i j)
  else act s

/-! Link states (R96 to R103) -/

/-- Lanes of a port's mode (R83). -/
def lanesOf (cfg : Nat) : Nat := 2 ^ bitsOf 5 4 cfg

/-- The lanes of a port. -/
def State.portLanes (s : State) (p : Nat) : List Nat :=
  (List.range (lanesOf (s.reg .prtCfg p 0))).map fun k => 2 * p + k

/-- The port that uses a lane, when one does (R83, R84). -/
def State.lanePort (s : State) (l : Nat) : Option Nat :=
  let p := if s.absorbed (l / 2) then l / 2 - 1 else l / 2
  if (s.portLanes p).contains l then some p else none

/-- Fault source of a SerDes lane (Table 14.1). -/
def laneSource (l : Nat) : Nat := 0x3A0 + l

/-- Frames queued for a port give up their pins (R99). -/
def State.unpinPort (s : State) (p : Nat) : State :=
  let s := runOver (s.queuedFor p) (fun f s => s.unpin f) s
  runOver (s.cps.keys.filter fun c => ((s.cirAt c s.gen.current).any fun v => v.port = p)) (fun c s => s.cpsUnpin c p) s

/-- They are pinned again, and so are the profiles of the port that have no standing pin (R100, R361). -/
def State.pinPort (s : State) (p : Nat) : State :=
  let s := runOver ((s.queuedFor p).filter fun f => (s.frame f).circuit.isSome && !(s.frame f).pinned)
    (fun f s => s.prefetch (p / 8) f) s
  runOver (s.cps.keys.filter fun c => ((s.cirAt c s.gen.current).any fun v => v.port = p)) (fun c s => s.cpsPin c p) s

/-- A flap is counted in the Kiln Record's SRAM (Table 16.12). -/
def State.noteFlap (s : State) (p : Nat) : State :=
  { s with kiln := { s.kiln with flaps := s.kiln.flaps.modify 0 p (· + 1) } }

/-- Link loss is declared in UP (R97 to R100). -/
def State.linkLoss (s : State) (p : Nat) : State :=
  let x := s.port p
  if x.link ≠ .up then s else
  let s := (s.switchDown p).noteFlap p
  let h := s.fld .prtHoldTime p 0 9 0
  if h = 0 then
    let s := s.setPort p { s.port p with link := .down }
    s.flushPort p false
  else
    let s := s.setPort p { s.port p with link := .hold, holdEnd := s.now + h * msNs }
    s.unpinPort p

/-- The hold expires: the flush, then DOWN (R100). -/
def State.holdExpire (s : State) (p : Nat) : State :=
  let x := s.port p
  if x.link ≠ .hold then s else
  let s := s.setPort p { x with link := .down, holdEnd := 0 }
  s.flushPort p true

/-- The PCS reports a fault for DOWN_US (R97). -/
def execPcsLinkLoss (p : Port) (s : State) : Host.Outcome State Fault Refusal :=
  done <| (s.setPort p { s.port p with pcsLock := false }).linkLoss p

/-- Whether some lane of a port is classed permanent (R427). -/
def State.lanePermanent (s : State) (p : Nat) : Bool := (s.portLanes p).any fun l => (s.fsrc (laneSource l)).perm

/-- Whether link up can be declared on a port: it is enabled and neither its lanes nor its reference clock forbid it
(R427, R515, R553). -/
def State.linkable (s : State) (p : Nat) : Bool :=
  s.portOn p && !s.lanePermanent p && !s.refLost.contains (p / 16)

/-- The PCS has stayed aligned for UP_MS: link up (R97, R100, R101). -/
def execPcsLinkUp (p : Port) (s : State) : Host.Outcome State Fault Refusal :=
  done <|
    if !s.linkable p || (s.port p).link = .disabled then s else
    let s := if (s.port p).link = .hold && (s.port p).holdEnd ≤ s.now then s.holdExpire p else s
    let x := s.port p
    let s := s.setPort p { x with pcsLock := true, link := .up, holdEnd := 0 }
    if x.link = .up then s else s.pinPort p

/-- PRT_HOLD_TIME passes in HOLD (R100). -/
def execHoldExpire (p : Port) (s : State) : Host.Outcome State Fault Refusal :=
  done <| if (s.port p).link = .hold then (s.advanceTo (s.port p).holdEnd).holdExpire p else s

/-- Ewethes has read the class of a module (R469). -/
def State.readClass (s : State) (p cls : Nat) : State :=
  let budget := s.fld .mgtModBudget 0 (p / 8) (4 * (p % 8) + 3) (4 * (p % 8))
  let x := s.port p
  s.setPort p { x with powerClass := cls, powered := x.present && 1 ≤ budget && cls ≤ budget }

/-- MOD_PRS_N changes: a module that goes takes the link with it; Ewethes reads the class of one that comes (R97,
R469). -/
def execModulePresenceChange (p : Port) (present : Bool) (powerClass : Nat) (s : State) :
    Host.Outcome State Fault Refusal :=
  done <|
    let x := s.port p
    if x.present = present then s
    else if present then
      let s := s.setPort p { x with present := true }
      if s.rst.ewethes then s.readClass p powerClass else s
    else (s.setPort p { x with present := false, powered := false, powerClass := 0 }).linkLoss p

/-- The levels of a port's transmitter (Table 03.3). -/
inductive Transmitter where
  /-- Electrical idle. -/
  | quiet
  /-- Auto-negotiation, training or idle, or a squelched line. -/
  | training
  /-- Frames and idle. -/
  | frames
  deriving DecidableEq, Repr

/-- What a port's transmitter does: a disabled port completes the frame that it has started and then goes to electrical idle;
squelch and the modes RESET, BRINGUP and STANDBY quieten it too (R96, R103, R498, Table 01.5). -/
def State.transmitter (s : State) (p : Nat) : Transmitter :=
  let x := s.port p
  if s.mode = .reset || s.mode = .bringup || s.mode = .standby then .quiet
  else if x.link = .disabled then (if x.tx.isSome then .frames else .quiet)
  else if x.link = .up && !s.flt.squelch then .frames else .training

/-- Whether the device drives MOD_TXDIS_c high: the port is not enabled, or the mode is RESET, BRINGUP or STANDBY (R96, R103,
R110, Table 03.6). -/
def State.modTxdis (s : State) (p : Nat) : Bool :=
  !(s.portOn p && (s.mode = .config || s.mode = .forward || s.mode = .drain || s.mode = .safe || s.mode = .factoryTest))

/-- Whether the device drives MOD_LPMODE_c high: until the module's class is read and within the budget of its cage (R110,
R469). -/
def State.modLpmode (s : State) (p : Nat) : Bool := !(s.port p).powered

/-- CMOS outputs of the part (Table 17.7). -/
inductive OutPin where
  | modTxdis (cage : Nat) | modSelN (cage : Nat) | modLpmode (cage : Nat) | aliveN | faultN | flashSelect | moduleBus (slice : Nat)
  | pps
  deriving DecidableEq, Repr

/-- Whether an output is high between the events that the state puts out: the pull-up, or the level it is driven to (R507,
R508, Table 17.7). A transaction on a module bus and a pulse of the 1PPS output are put out as events. -/
def State.pinHigh (s : State) : OutPin → Bool
  | .modTxdis c => s.modTxdis c
  | .modSelN _ => true
  | .modLpmode c => s.modLpmode c
  | .aliveN => !s.mode.alive
  | .faultN => !s.flt.faultN
  | .flashSelect => true
  | .moduleBus _ => true
  | .pps => !s.ptp.isSet

/-- A port is disabled: it acts as on link loss with HOLD_MS = 0; the frame being received is discarded (R103). -/
def State.disablePort (s : State) (p : Nat) : State :=
  let x := s.port p
  let s := if x.link = .disabled then s else s.switchDown p
  let s := match x.rx with
    | some f => (s.bump (cntPrt p 6)).discard f
    | none => s
  let s := s.setPort p { s.port p with link := .disabled, holdEnd := 0, pcsLock := false }
  s.flushPort p false

/-- Whether PRT_CFG's SPEED, LANES and FEC name a row of Table 03.1 (R85). -/
def portModeOk (v : Nat) : Bool :=
  match bitsOf 3 1 v, bitsOf 5 4 v, bitsOf 7 6 v with
  | 0, 0, 0 | 1, 0, 0 => true
  | 2, 0, 1 | 3, 0, 1 | 3, 1, 1 | 4, 1, 1 | 5, 2, 1 => true
  | _, _, _ => false

/-- The fields of a write of PRT_CFG: SPEED, LANES and FEC keep their values where the new ones are reserved (R6). Log entry
96. -/
def prtCfgKept (old v : Nat) : Nat :=
  let x := bitsOf 9 0 v
  let x := if 5 < bitsOf 3 1 v then withBits 3 1 x (bitsOf 3 1 old) else x
  let x := if bitsOf 5 4 v = 3 then withBits 5 4 x (bitsOf 5 4 old) else x
  if 1 < bitsOf 7 6 v then withBits 7 6 x (bitsOf 7 6 old) else x

/-- A write of PRT_CFG (R6, R84, R88, R103, R515, R517). -/
def State.writePrtCfg (s : State) (f : Fn) (p v : Nat) : State :=
  let old := s.reg .prtCfg p 0
  let kept := prtCfgKept old v
  let bad := s.configError f (RegName.addr .prtCfg p 0)
  -- an absorbed port's EN reads 0 and ignores writes
  let new := if s.absorbed p then withBits 0 0 kept 0 else kept
  let on := bitOf 0 old && !s.absorbed p
  let lanes := withBits 0 0 new 0 ≠ withBits 0 0 old 0
  if !portModeOk new || (bitsOf 5 4 new = 2 && p % 2 = 1) then bad
  else if on && bitOf 0 new && lanes then bad
  else if bitOf 0 new && !on && (s.rst.blocks.contains p || s.rst.blocks.contains (128 + p / 8)) then bad
  else
    let s := (if kept = bitsOf 9 0 v then s else bad).setReg .prtCfg p 0 new
    if on && !bitOf 0 new then s.disablePort p
    else if !on && bitOf 0 new then
      -- enabling a four-lane port absorbs the next one
      let s := if bitsOf 5 4 new = 2 && bitOf 0 (s.reg .prtCfg (p + 1) 0) then
          (s.setReg .prtCfg (p + 1) 0 (withBits 0 0 (s.reg .prtCfg (p + 1) 0) 0)).disablePort (p + 1)
        else s
      let s := s.setPort p { s.port p with link := if s.mode = .standby then .disabled else .training }
      if (s.port p).present && s.rst.ewethes then s.readClass p (s.port p).powerClass else s
    else s

/-- PRT_CFG is written (R103). -/
def execPrtCfgWrite (f : Fn) (p : Port) (v : BitVec 32) (s : State) : Host.Outcome State Fault Refusal :=
  done <| s.rowWrite f .prtCfg p 0 fun s => s.writePrtCfg f p v.toNat

/-- PRT_DOMAIN is written (R41, R89 to R91, R542). -/
def execPrtDomainWrite (f : Fn) (p : Port) (v : BitVec 32) (s : State) : Host.Outcome State Fault Refusal :=
  done <| s.rowWrite f .prtDomain p 0 fun s =>
    let d := bitOf 0 v.toNat
    if s.fuses.domLock.testBit (p.val / 8) || d = s.black p then s
    else if s.mode ≠ .config || s.bit .glbSeal 0 0 0 || s.portOn p then
      s.configError f (RegName.addr .prtDomain p 0)
    else
      let s := s.setReg .prtDomain p 0 (boolBit d)
      -- the marker enable bit of a BLACK port reads 0
      if d then s.setReg .genMkrEn 0 (p.val / 32) (withBits (p.val % 32) (p.val % 32) (s.reg .genMkrEn 0 (p.val / 32)) 0)
      else s

/-! Bypass classes (R91, R92, R95) -/

/-- A write of PRT_BYP_STAGE or PRT_BYP_APPROVE: ignored once the fuse is blown; no bit is set under the seal. -/
def State.writeBypass (s : State) (f : Fn) (r : RegName) (v : Nat) : State :=
  let old := s.reg r 0 0
  let new := bitsOf 15 0 v
  if s.fuses.bypDis then s
  else if s.bit .glbSeal 0 0 0 && new &&& old ≠ new then s.configError f (r.addr 0 0)
  else s.setReg r 0 0 new

/-- PRT_BYP_STAGE is written by PF0 (R92). -/
def execPrtBypStageWrite (f : Fn) (v : BitVec 32) (s : State) : Host.Outcome State Fault Refusal :=
  done <| s.rowWrite f .prtBypStage 0 0 fun s => s.writeBypass f .prtBypStage v.toNat

/-- PRT_BYP_APPROVE is written by PF1 (R92). -/
def execPrtBypApproveWrite (f : Fn) (v : BitVec 32) (s : State) : Host.Outcome State Fault Refusal :=
  done <| s.rowWrite f .prtBypApprove 0 0 fun s => s.writeBypass f .prtBypApprove v.toNat

/-- The set of R92. -/
def State.effectiveSet (s : State) : Nat :=
  if s.fuses.bypDis then 0 else s.reg .prtBypStage 0 0 &&& s.reg .prtBypApprove 0 0

/-- Every gate applies the new effective set, and PRT_BYP_EFFECTIVE shows it (R95). -/
def execBypassGateUpdate (s : State) : Host.Outcome State Fault Refusal :=
  done (s.setReg .prtBypEffective 0 0 s.effectiveSet)

/-- CFG_SEAL is set (R91, R541, R542). -/
def execCfgSealSet (f : Fn) (s : State) : Host.Outcome State Fault Refusal :=
  done <| s.rowWrite f .glbSeal 0 0 fun s => s.setReg .glbSeal 0 0 1

/-! Lanes and reference clocks (R427, R553) -/

/-- A lane has been classed permanent: its port declares link loss at once (R427). -/
def State.laneConsequence (s : State) (n : Nat) : State :=
  if laneSource 0 ≤ n ∧ n ≤ laneSource 255 ∧ (s.fsrc n).perm then
    match s.lanePort (n - laneSource 0) with
    | some p => (s.setPort p { s.port p with pcsLock := false }).linkLoss p
    | none => s
  else s

/-- A SerDes lane delivers an event in TRAINING, UP or HOLD (R427); those of a lost reference are suppressed (R553). -/
def execSerdesLaneEvent (l : Lane) (cause : BitVec 8) (s : State) : Host.Outcome State Fault Refusal :=
  done <|
    match s.lanePort l with
    | some p =>
      let k := (s.port p).link
      if (k = .training ∨ k = .up ∨ k = .hold) ∧ !s.refLost.contains (p / 16) then
        (s.fault (laneSource l) cause.toNat 0).laneConsequence (laneSource l)
      else s
    | none => s

/-- A 156.25 MHz reference stops: the ports of its two slices declare link loss (R553). -/
def execRefclk156Loss (k : Fin 8) (s : State) : Host.Outcome State Fault Refusal :=
  done <| if s.refLost.contains k.val then s else
    let s := { s with refLost := k.val :: s.refLost }
    runOver ((List.range 16).map fun i => 16 * k.val + i) (fun p s =>
      (s.setPort p { s.port p with pcsLock := false }).linkLoss p) s

/-- It has been present again for 1 ms (R553). -/
def execRefclk156Return (k : Fin 8) (s : State) : Host.Outcome State Fault Refusal :=
  done { s with refLost := s.refLost.filter (· ≠ k.val) }

/-! PTP (R104 to R108, R378, R564) -/

/-- An edge of the 1PPS input captures PTP time (R107, R394). -/
def execPpsInEdge (s : State) : Host.Outcome State Fault Refusal :=
  done <| s.ctrlRecord .pf0 0x0041
    (zeros 8 ++ leBytes 6 s.ptpSec ++ zeros 2 ++ leBytes 4 s.ptpNano ++ leBytes 1 s.ptpFrac)

/-- PTP time reaches a whole second: the output rises, once PTP time has been set (R107, Table 17.7). -/
def execPpsOutEdge (s : State) : Host.Outcome State Fault Refusal :=
  done <|
    let s := s.advancePtp (ptpUnits (s.ptpSec + 1) 0)
    if s.ptp.isSet then s.emit .pps else s

/-- OP of a PTP_ADJUST descriptor. -/
def ptpOp (d : Bytes) : Nat := byteAt d 0x10
/-- NS. -/
def ptpNs (d : Bytes) : Nat := leAt d 0x14 4
/-- VALUE as an unsigned number. -/
def ptpValue (d : Bytes) : Nat := leAt d 0x18 8
/-- VALUE as a signed number. -/
def ptpSigned (d : Bytes) : Int := signedOf 64 (ptpValue d)

/-- Run a PTP_ADJUST command with this OP; `range` says that its operands give PTP_RANGE (R378). -/
def State.ptpCommand (s : State) (r op : Nat) (range : Bytes → State → Bool) (f : Bytes → Ptp → Ptp) : State :=
  s.command r 0x0084 fun d s =>
    if ptpOp d ≠ op then s
    else if 1000000000 ≤ ptpNs d || range d s then s.complete r .ptpRange
    else ({ s with ptp := f d s.ptp }).complete r .ok

/-- PTP_ADJUST SET: VALUE[47:0] seconds and NS nanoseconds (R378). -/
def execPtpSet (r : Ring) (s : State) : Host.Outcome State Fault Refusal :=
  done <| s.ptpCommand r 1 (fun _ _ => false) fun d p =>
    { p with time := ptpUnits (ptpValue d % 2 ^ 48) (ptpNs d), isSet := true }

/-- PTP time after a step, in units of 2^-32 ns. -/
def stepped (d : Bytes) (p : Ptp) : Int := (p.time : Int) + ptpSigned d * (2 ^ 32 : Nat)

/-- PTP_ADJUST STEP (R378). -/
def execPtpStep (r : Ring) (s : State) : Host.Outcome State Fault Refusal :=
  done <| s.ptpCommand r 2
    (fun d s => 2 ^ 40 ≤ (ptpSigned d).natAbs || stepped d s.ptp < 0 || (ptpUnits (2 ^ 48) 0 : Int) ≤ stepped d s.ptp)
    fun d p => { p with time := (stepped d p).toNat }

/-- PTP_ADJUST RATE (R378). -/
def execPtpRate (r : Ring) (s : State) : Host.Outcome State Fault Refusal :=
  done <| s.ptpCommand r 3 (fun d _ => 4294967 < (ptpSigned d).natAbs) fun d p => { p with rate := ptpSigned d }

/-- PTP_ADJUST SOURCE; `inWindow` says whether the 10 MHz input lies within its window now (R564). -/
def execPtpSource (r : Ring) (inWindow : Bool) (s : State) : Host.Outcome State Fault Refusal :=
  done <| s.ptpCommand r 4 (fun d _ => 1 < ptpValue d || ptpNs d ≠ 0) fun d p =>
    { p with sel := ptpValue d = 1, inUse := ptpValue d = 1 && inWindow }

/-- The 10 MHz input leaves its window (R553). -/
def execPtpSourceRevert (s : State) : Host.Outcome State Fault Refusal :=
  done { s with ptp := { s.ptp with inUse := false } }

/-- The 10 MHz input has stayed within its window for 1 s (R553, R564). -/
def execPtpSourceReturn (s : State) : Host.Outcome State Fault Refusal :=
  done { s with ptp := { s.ptp with inUse := s.ptp.sel } }

end Sys2Proof.Machine
end

