-- ==== Sys2Proof/Machine/RegOps.lean ====
section
/-! DEFINITION. What every write of a register shares: alignment, reach, role, mode, reserved encodings, halves (R4 to
R6, R42, R501, R536 to R538, R558), and the buckets whose rate registers they set (R134). -/

namespace Sys2Proof.Machine

/-- Whether a register takes a write in this mode. -/
def WriteWhen.ok (w : WriteWhen) (m : Mode) : Bool :=
  match w with
  | .anyMode => true
  | .config => m = .config
  | .configOrTest => m = .config || m = .factoryTest
  | .configOrForward => m = .config || m = .forward
  | .factoryTest => m = .factoryTest

/-- The bank that a function writes of a register. -/
def RegName.bank (r : RegName) (f : Fn) : Nat := if r.info.banked then f.num else 0

/-- A register's value with `size` bytes at `off` replaced: the other half keeps its value (R537). -/
def mergeBytes (old off size v : Nat) : Nat := withBits (8 * (off + size) - 1) (8 * off) old v

/-- What a field write comes to. -/
inductive FieldWrite where
  /-- The block does not answer yet: nothing happens (R501). -/
  | ignored
  /-- Refused as a whole, with a configuration-error event (R42, R558). -/
  | refused
  /-- Stored; `logged` says that a field kept its value because its encoding is reserved (R6). -/
  | stored (value : Nat) (logged : Bool)
  deriving DecidableEq, Repr

/-- First index of the stored element: a mirrored register holds one value for the four quads (R165). -/
def RegAt.row (m : RegAt) : Nat := if m.name.info.mirrored then 0 else m.i

/-- Judge a write of `size` bytes at byte `off` of register element (i, j) by function f. -/
def State.judgeWrite (s : State) (f : Fn) (m : RegAt) (size v : Nat) : FieldWrite :=
  let r := m.name
  if !s.reachable r then .ignored
  else if !r.info.writers.contains f.num || !r.info.when.ok s.mode then .refused
  else
    let old := s.regOf r (r.bank f) m.row m.j
    let new := mergeBytes old m.off size v
    .stored (applyFields r.info.fields old new) (anyReserved r.info.fields old new)

/-- A write that stores its fields: `refuse` judges the combination the register would hold (R558), and `after` is what
the new value does besides. -/
def State.fieldWrite (s : State) (f : Fn) (m : RegAt) (size v : Nat) (refuse : Nat → Bool) (after : Nat → State → State) :
    State :=
  let bad := s.configError f (m.name.addr m.i m.j + m.off)
  match s.judgeWrite f m size v with
  | .ignored => s
  | .refused => bad
  | .stored x logged =>
    if refuse x then bad
    else
      let s := if logged then bad else s
      after x (s.setRegOf m.name (m.name.bank f) m.row m.j x)

/-! Buckets (R134) -/

/-- BURST of a rate register. -/
def rateBurst (v : Nat) : Nat := bitsOf 27 20 v

/-- Step of a rate register's grid: (PERIOD + 1) × 1,000 ns. -/
def ratePeriod (v : Nat) : Nat := (bitsOf 19 0 v + 1) * 1000

/-- The next grid value after `last`. -/
def nextTick (v last : Nat) : Nat := (last / ratePeriod v + 1) * ratePeriod v

/-- A tick adds one token up to BURST. -/
def TokenBucket.tick (b : TokenBucket) (v : Nat) : TokenBucket :=
  ⟨min (b.level + 1) (max b.level (rateBurst v)), nextTick v b.last⟩

/-- The bucket as the ticks since it was last looked at leave it at time `now`: one token for each grid value, up to BURST. -/
def TokenBucket.upTo (b : TokenBucket) (v now : Nat) : TokenBucket :=
  ⟨min (b.level + (now / ratePeriod v - b.last / ratePeriod v)) (max b.level (rateBurst v)), max b.last now⟩

/-- The rate register that rules a bucket. -/
def State.bucketReg (s : State) (b : Bucket) : Nat :=
  match b with
  | .punt i r => s.reg .parPuntRate i r
  | .copy _ m => s.reg .rsaCopyRate 0 m
  | .learn => s.reg .emtLrnRate 0 0
  | .sample _ => s.reg .pmcSampRate 0 0

/-- A bucket as stored; none since its block left reset, when it was full. -/
def State.tokensOf (s : State) (b : Bucket) : Option TokenBucket :=
  match b with
  | .punt i r => s.tabs.punts.get none (i.val * 32 + r.val)
  | .copy q m => s.tabs.meters.get none (q.val * 16 + m.val)
  | .learn => s.tabs.learn
  | .sample i => s.sampBkt.get none i

/-- A bucket as it is now under a value of its rate register. -/
def State.bucketAt (s : State) (b : Bucket) (v : Nat) : TokenBucket :=
  ((s.tokensOf b).getD ⟨rateBurst v, s.now⟩).upTo v s.now

/-- A bucket as it is now, and the rate register that rules it. -/
def State.bucketRate (s : State) (b : Bucket) : TokenBucket × Nat := (s.bucketAt b (s.bucketReg b), s.bucketReg b)

/-- Replace a bucket. -/
def State.setBucket (s : State) (b : Bucket) (x : TokenBucket) : State :=
  match b with
  | .punt i r => { s with tabs := { s.tabs with punts := s.tabs.punts.set none (i.val * 32 + r.val) (some x) } }
  | .copy q m => { s with tabs := { s.tabs with meters := s.tabs.meters.set none (q.val * 16 + m.val) (some x) } }
  | .learn => { s with tabs := { s.tabs with learn := some x } }
  | .sample i => { s with sampBkt := s.sampBkt.set none i (some x) }

/-- A bucket gains a token at the next value of its grid (R134). -/
def execTokenTick (b : Bucket) (s : State) : Host.Outcome State Fault Refusal :=
  done <|
    let (x, v) := s.bucketRate b
    (s.advanceTo (nextTick v x.last)).setBucket b (x.tick v)

/-- Take a token; none when the bucket is empty or BURST is 0. -/
def State.takeToken (s : State) (b : Bucket) : Option State :=
  let (x, v) := s.bucketRate b
  if x.level = 0 ∨ rateBurst v = 0 then none else some (s.setBucket b { x with level := x.level - 1 })

/-- A rate register that held `old` has been written: the level stays, but for one above the new BURST, and ticks fall on the
new grid from now on. -/
def State.rerate (s : State) (b : Bucket) (old : Nat) : State :=
  s.setBucket b ⟨min (s.bucketAt b old).level (rateBurst (s.bucketReg b)), s.now⟩

end Sys2Proof.Machine
end

