-- ==== Sys2Proof/Machine/Parse.lean ====
section
/-! DEFINITION. A frame arrives: its start, the tag front end, the walk of the parse automaton, its end, and the
parse-failure actions (chapters 01 to 04). -/

namespace Sys2Proof.Machine

/-! Bytes of a frame -/

/-- A frame from DA to its last byte before the FCS. -/
def Frame.body (x : Frame) : Bytes := if x.ended then x.bytes else x.bytes.take (x.bytes.length - 4)

/-- Bytes of the security header at `off` (R126, R127). -/
def headerLen (kind : Nat) (bs : Bytes) (off : Nat) : Nat :=
  if kind = 2 then 16 else if bitOf 5 (byteAt bs (off + 2)) then 16 else 8

/-- Offset of the protected data. -/
def Frame.dataOff (x : Frame) (p : SecPart) : Nat := p.off + headerLen p.kind x.body p.off

/-- Length of the protected data: SL when it is not 0, otherwise up to the ICV of 16 bytes. -/
def Frame.dataLen (x : Frame) (p : SecPart) : Nat :=
  let sl := byteAt x.body (p.off + 3)
  if p.kind = 1 && sl ≠ 0 then sl else x.body.length - x.dataOff p - 16

/-- Whether byte `off` is part of the ICV of a frame that Glaze decrypts. -/
def Frame.inIcv (x : Frame) (off : Nat) : Bool :=
  match x.sec with
  | some p =>
    let i := x.dataOff p + x.dataLen p
    p.sa.isSome && i ≤ off && off < i + 16
  | none => false

/-- The frame as the walk sees it: plaintext in place of the protected data once produced (R116). -/
def Frame.seen (x : Frame) : Bytes :=
  match x.sec with
  | some p =>
    match p.plain with
    | some t => putAt x.body (x.dataOff p) t
    | none => x.body
  | none => x.body

/-- How a stage of reads is judged (R119). -/
inductive Reads where
  | good | window | short
  deriving DecidableEq, Repr

/-- Judge reads, each an offset and a number of bytes, together. -/
def Frame.judge (x : Frame) (reads : List (Nat × Nat)) : Reads :=
  if reads.any fun r => 256 < r.1 + r.2 then .window
  else if reads.any fun r => x.body.length < r.1 + r.2 || (List.range r.2).any fun k => x.inIcv (r.1 + k) then .short
  else .good

/-! Header vector (Table 04.5) -/

/-- Put bytes into the header vector. -/
def Frame.putHv (x : Frame) (off : Nat) (bs : Bytes) : Frame := { x with hv := putAt x.hv off bs }

/-- Set a flag of HV byte 1. -/
def Frame.flagHv (x : Frame) (bit : Nat) : Frame :=
  x.putHv 1 [BitVec.ofNat 8 (byteAt x.hv 1 ||| 2 ^ bit)]

/-- DOMAIN. -/
def Frame.hvBlack (x : Frame) : Bool := bitOf 7 (byteAt x.hv 0)

/-- A walk fails with a reason (R132). -/
def Frame.failWalk (x : Frame) (r : Nat) : Frame :=
  let x := (x.flagHv 4).putHv 2 [BitVec.ofNat 8 r]
  { x with walk := { x.walk with st := .failed r } }

/-- A walk ends in acceptance. -/
def Frame.acceptWalk (x : Frame) : Frame := { x with walk := { x.walk with st := .accepted } }

/-- The walk goes on in state `next`, whose transition held FAIL_RSN `rsn` (R118, R131). -/
def Frame.enter (x : Frame) (next rsn : Nat) : Frame :=
  if next = 252 then x.acceptWalk
  else if next = 253 then x.failWalk (if 16 ≤ rsn then rsn else 1)
  else if 254 ≤ next then x.failWalk 1
  else
    let x := x.putHv 3 [BitVec.ofNat 8 next]
    { x with walk := { x.walk with state := next, st := .running } }

/-- Copy one extraction operation's bytes (R124): source offset, bytes, first container byte. -/
def Frame.extract (x : Frame) (op : Nat × Nat × Nat) : Frame :=
  (List.range op.2.1).foldl (fun y k =>
    if op.2.2 + k ≤ 127 then y.putHv (32 + op.2.2 + k) [x.seen.getD (op.1 + k) 0] else y) x

/-- Marks of a transition: layer, profile and type (Table 04.3, R131). -/
def Frame.mark (x : Frame) (a cur : Nat) : Frame :=
  let x := if bitOf 32 a then x.putHv (16 + bitsOf 36 33 a) [BitVec.ofNat 8 (if cur < 256 then cur else 0xFF)] else x
  let x := if bitOf 37 a then x.putHv 4 [BitVec.ofNat 8 (bitsOf 42 38 a)] else x
  if bitOf 43 a then x.putHv 5 [BitVec.ofNat 8 (bitsOf 51 44 a)] else x

/-- Whether a SecTAG at `off` passes the check of R126. -/
def secTagOk (bs : Bytes) (off : Nat) : Bool :=
  let t := byteAt bs (off + 2)
  beAt bs off 2 = 0x88E5 && !bitOf 7 t && !(bitOf 6 t && bitOf 5 t) && !(bitOf 4 t && bitOf 5 t) &&
    !(bitOf 3 t && !bitOf 2 t) && byteAt bs (off + 3) ≤ 47 && beAt bs (off + 4) 4 ≠ 0

/-- Whether an ESP header at `off` passes the check of R127. -/
def espOk (bs : Bytes) (off : Nat) : Bool := 255 < beAt bs off 4 && beAt bs (off + 4) 4 ≠ 0

/-- A read past the window: acceptance under ACCEPT_ON_CUT, otherwise `WINDOW` (R119). -/
def Frame.cut (x : Frame) (onCut : Bool) : Frame := if onCut then (x.flagHv 3).acceptWalk else x.failWalk 3

/-- A transition with a security header at the cursor (R125 to R128): `x` as before the step, `y` with the transition's
extractions and marks. -/
def Frame.handOff (x y : Frame) (kind next rsn : Nat) (onCut : Bool) : Frame :=
  let cur := x.walk.cur
  if !x.hvBlack then (y.flagHv 6).acceptWalk
  else
    let n := if kind = 2 then 16 else 8
    match x.judge [(cur, n)] with
    | .window => x.cut onCut
    | .short => x.failWalk 4
    | .good =>
      if !(if kind = 2 then espOk x.seen cur else secTagOk x.seen cur) then x.failWalk 6
      else
        let h := headerLen kind x.seen cur
        match x.judge [(cur, h)] with
        | .window => x.cut onCut
        | .short => x.failWalk 4
        | .good =>
          let y := y.flagHv 6
          { y with
            -- the decrypt path keeps the header that it resolved: log entry 104
            sec := if x.sec.isSome then x.sec else some { kind := kind, off := cur }
            walk := { y.walk with cur := if 255 < cur + h then 256 else cur + h, next := next, rsn := rsn, st := .waitSa } }

/-! The program (R122 to R124) -/

/-- The transition selected in a state for a key. -/
def State.transition (s : State) (i state key : Nat) : Option Nat :=
  firstBelow 1024 fun k =>
    let m := s.reg .parMatch i k
    let mask := bitsOf 31 0 (s.reg .parMask i k)
    bitOf 63 m && bitsOf 39 32 m = state && (bitsOf 31 0 m) &&& mask = key &&& mask

/-- The extraction operations of a transition that do something: source offset from the cursor, bytes, destination. -/
def State.extractions (s : State) (i a : Nat) : List (Nat × Nat × Nat) :=
  ((List.range (min 8 (bitsOf 31 28 a))).map fun k => s.reg .parExtract i ((bitsOf 27 17 a + k) % 2048)).filterMap
    fun w => if bitOf 31 w then some (bitsOf 30 23 w, bitsOf 22 19 w + 1, bitsOf 18 12 w) else none

/-- One step of a walk (R118, R119, R137). -/
def State.walkStep (s : State) (x : Frame) : Frame :=
  let i := x.port / 8
  let w := x.walk
  let cur := w.cur
  if !s.bit .parProgCtrl i 0 0 then x.failWalk 1
  else if 24 ≤ w.steps then x.failWalk 2
  else
    let x := { x with walk := { w with steps := w.steps + 1 } }
    let st := s.reg .parState i w.state
    let onCut := bitOf 49 st
    let k0 := (cur + bitsOf 63 58 st, 2)
    let k1 := (cur + bitsOf 57 52 st, 2)
    match x.judge ((if bitOf 51 st then [k0] else []) ++ (if bitOf 50 st then [k1] else [])) with
    | .window => x.cut onCut
    | .short => x.failWalk 4
    | .good =>
      let key := (if bitOf 51 st then beAt x.seen k0.1 2 else 0) * 65536 + (if bitOf 50 st then beAt x.seen k1.1 2 else 0)
      match s.transition i w.state key with
      | none => x.failWalk 1
      | some k =>
        let a := s.reg .parAction i k
        let sec := bitsOf 53 52 a
        let var := bitOf 16 a && (sec = 0 || sec = 3)
        let ops := (s.extractions i a).map fun o => (cur + o.1, o.2.1, o.2.2)
        match x.judge ((if var then [(cur + bitsOf 47 42 st, 1)] else []) ++ ops.map fun o => (o.1, o.2.1)) with
        | .window => x.cut onCut
        | .short => x.failWalk 4
        | .good =>
          let y := (ops.foldl Frame.extract x).mark a cur
          let next := bitsOf 7 0 a
          let rsn := bitsOf 58 54 a
          if sec = 1 ∨ sec = 2 then x.handOff y sec next rsn onCut
          else
            let b := byteAt x.seen (cur + bitsOf 47 42 st)
            let adv := if var then (b &&& bitsOf 41 34 st) / 2 ^ bitsOf 33 31 st * 2 ^ bitsOf 30 29 st + bitsOf 28 21 st
              else bitsOf 15 8 a
            { y with walk := { y.walk with cur := if 255 < cur + adv then 256 else cur + adv } }.enter next rsn

/-! Punts and parse-failure actions (R133, R134, R559, Table 12.15) -/

/-- The punt header of a frame. -/
def Frame.puntHeader (x : Frame) (kind code cls quad lentry len : Nat) : Bytes :=
  leBytes 2 len ++ leBytes 1 kind ++ leBytes 1 code ++ sliceOf x.hv 0 2 ++ leBytes 2 x.gen.toNat
    ++ leBytes 2 (beAt x.hv 12 2) ++ leBytes 1 cls ++ leBytes 1 quad ++ leBytes 4 lentry
    ++ leBytes 6 x.sofSec ++ leBytes 4 x.sofNano ++ leBytes 1 x.sofFrac ++ zeros 5 ++ leBytes 8 x.sofNs ++ zeros 24

/-- A frame is written to a punt ring and leaves the device. -/
def State.puntFrame (s : State) (f ring kind code cls lentry : Nat) : State :=
  let x := s.frame f
  (s.punt ring x.gen (x.puntHeader kind code cls (x.slice / 4) lentry x.bytes.length ++ x.bytes)).remove f .punted

/-- Check the ring first, then take a token (R559); none when the punt is discarded. -/
def State.puntTake (s : State) (ring : Nat) (b : Bucket) : Option State :=
  if s.ringIs ring 3 .pf0 then s.takeToken b else none

/-- The lookups of a frame are due: they are issued in the port's frame order (R120, R129). -/
def State.issueLookups (s : State) (f : Nat) : State :=
  (s.modFrame f fun x => { x with due := true }).issueReady (s.frame f).port

/-- A frame takes no lookup (R129). -/
def State.barLookups (s : State) (f : Nat) : State :=
  (s.modFrame f fun x => { x with barred := true }).issueReady (s.frame f).port

/-- Protected data of a MACsec frame with E = 0, whose bytes are plain from the start; otherwise the plaintext produced. -/
def Frame.clearData (x : Frame) : Option Bytes :=
  x.sec.bind fun p =>
    if p.sa.isNone then none
    else if p.kind = 1 && !bitOf 3 (byteAt x.body (p.off + 2)) then some (sliceOf x.body (x.dataOff p) (x.dataLen p))
    else p.plain

/-- Whether a decrypted MACsec frame is filler: RX_FILLER and the EtherType of CIR_FILLER (R241). -/
def State.isFiller (s : State) (x : Frame) : Bool :=
  match x.sec.bind fun p => p.sa.map fun i => (p, i) with
  | some (p, i) =>
    p.kind = 1 && ((s.cirAt (i / 4) x.gen).any fun v => bitOf 6 v.flags) &&
      x.clearData.any fun d => 2 ≤ d.length && beAt d 0 2 = s.fld .cirFiller 0 0 15 0
  | none => false

/-- Whether the checks of R20 are over: the frame is not protected, or the replay unit has passed it. -/
def Frame.cleared (x : Frame) : Bool :=
  match x.sec with
  | some p => p.sa.isNone || p.checked
  | none => true

/-- The parse-failure action of a failed frame whose FCS and R20 checks have passed (R132, R133). -/
def State.failAction (s : State) (f r : Nat) : State :=
  let x := s.frame f
  let i := x.port / 8
  let s := s.bump (cntParFail i r)
  let v := s.reg .parFailAct i r
  match bitsOf 1 0 v with
  | 1 =>
    match s.puntTake (bitsOf 27 16 v) (.punt (Fin.ofNat 16 i) (Fin.ofNat 32 r)) with
    | some s => s.puntFrame f (bitsOf 27 16 v) 1 r 0 0xFFFFFFFF
    | none => (s.bump (cntParPuntDrop i r)).discard f
  | 2 => s.issueLookups f
  | _ => s.discard f

/-- Whether no earlier frame of the same port waits for its result (R17, R314). -/
def State.headOfPort (s : State) (f : Nat) : Bool :=
  let p := (s.frame f).port
  !(s.framesWhere fun y => y.port = p && y.ing = .landing).any (· < f)

/-- What a frame's ingress has waited for may be complete: a failed frame meets its action; a punt keeps the order of
its port (R385). -/
def State.ingressSettle (s : State) (f : Nat) : State :=
  let x := s.frame f
  match x.walk.st with
  | .failed r =>
    if x.ended && x.cleared && !x.due && x.ing = .landing &&
        (s.fld .parFailAct (x.port / 8) r 1 0 ≠ 1 || s.headOfPort f) then s.failAction f r
    else s
  | _ => s

/-- A walk has ended, or waits: lookups are issued at acceptance (R129). -/
def State.walkDone (s : State) (f : Nat) : State :=
  let x := s.frame f
  match x.walk.st with
  | .accepted => if s.isFiller x then s.barLookups f else s.issueLookups f
  | .failed _ => (s.ingressSettle f).issueReady x.port
  | _ => s

/-- One walk step of a frame (R118). -/
def execParseStep (f : Nat) (s : State) : Host.Outcome State Fault Refusal :=
  done <|
    let x := s.frame f
    if x.walk.st = .running && x.ing = .landing then (s.setFrame f (s.walkStep x)).walkDone f else s

/-! The start of a frame -/

/-- Recognised tags of a frame: at most `max`, each with a TPID that TPID_EN enables (R117). -/
def countTags (bs : Bytes) (en : Nat) : Nat → Nat → Nat
  | 0, t => t
  | n + 1, t =>
    let tpid := beAt bs (12 + 4 * t) 2
    if (tpid = 0x8100 && bitOf 0 en) || (tpid = 0x88A8 && bitOf 1 en) then countTags bs en n (t + 1) else t

/-- Whether an enabled TPID follows t tags. -/
def tagFollows (bs : Bytes) (en t : Nat) : Bool := countTags bs en 1 t = t + 1

/-- The tag front end (R117, R130) and the header vector before the walk (R131). -/
def State.frontEnd (s : State) (x : Frame) : Frame :=
  let cfg := s.reg .parPortCfg (x.port / 8) (x.port % 8)
  let bs := x.body
  let en := bitsOf 17 16 cfg
  let t := countTags bs en (bitsOf 19 18 cfg) 0
  let start := bitsOf 31 24 cfg
  let total := bs.length + 4
  let mkr := s.markerPort x.port && beAt bs (12 + 4 * t) 2 = s.fld .genMkrCtrl 0 0 15 0 &&
    beAt bs (14 + 4 * t) 2 = 0x594D && 64 ≤ total && total ≤ 1518
  let outer := if t = 0 then bitsOf 23 21 cfg * 8192 + bitsOf 11 0 cfg else beAt bs 14 2
  let inner := if t = 2 then beAt bs 18 2 else 0
  let hv := [BitVec.ofNat 8 (boolBit (s.black x.port) * 128 + x.port), BitVec.ofNat 8 (boolBit mkr * 128 + t), 0,
    BitVec.ofNat 8 start, 0, 0] ++ beBytes 2 x.gen.toNat ++ beBytes 2 outer ++ beBytes 2 inner ++ zeros 4
    ++ List.replicate 16 0xFF ++ zeros 128
  let x := { x with tags := t, marker := mkr, hv := hv, walk := { state := start, cur := 12 + 4 * t } }
  if bitOf 20 cfg && tagFollows bs en t then x.failWalk 5 else x

/-- Whether a frame has not taken its route out of the landing area: its result has not been applied, or its claim or that of
a copy waits (R314, R321). -/
def State.inLanding (s : State) (f : Nat) : Bool :=
  let x := s.frame f
  x.ing = .landing || x.ing = .claiming || s.frames.any fun _ y => y.group = f && y.origin = .copy && y.ing = .claiming

/-- What a landing area still holds: frames leave it in their arrival order (R314). -/
def State.areaOf (s : State) (p : Nat) : List (Nat × Nat) := (s.port p).area.dropWhile fun e => !s.inLanding e.1

/-- Bytes that a port's landing area holds (R314). -/
def State.landed (s : State) (p : Nat) : Nat := (s.areaOf p).foldl (fun n e => n + e.2) 0

/-- A frame takes bytes of its port's landing area. -/
def State.takeArea (s : State) (p f n : Nat) : State :=
  let l := s.areaOf p
  let l := if l.any fun e => e.1 = f then l.map fun e => if e.1 = f then (f, e.2 + n) else e else l ++ [(f, n)]
  s.setPort p { s.port p with area := l }

/-- Size of a port's landing area: that of an absorbed port is added (R314). -/
def State.landingSize (s : State) (p : Nat) : Nat := if s.absorbed (p + 1) then 131072 else 65536

/-- Under the time trigger, a port switches with the first frame at T or later (R71, R72). -/
def State.timeSwitch (s : State) (p : Nat) : State :=
  match s.gen.armed with
  | some ⟨_, .time sec ns, _, _⟩ =>
    if sec * 1000000000 + ns ≤ s.ptpSec * 1000000000 + s.ptpNano then s.switchPort p false else s
  | _ => s

/-- A new frame takes the next number, its stamps and its generation; its reference is counted (R57 to R59, R104). -/
def State.addFrame (s : State) (x : Frame) : State :=
  let f := s.nextFrame
  let x := { x with sofNs := s.now, sofSec := s.ptpSec, sofNano := s.ptpNano, sofFrac := s.ptpFrac, group := f }
  ({ s with nextFrame := f + 1, frames := s.frames.set {} f x }).refUp x.gen

/-- A frame's start arrives (R57, R71, R96, R104, R117, R314, R512). A port receives one frame at a time. -/
def execFrameStart (p : Port) (dt : Nat) (bytes : Bytes) (rxEnd : RxEnd) (s : State) :
    Host.Outcome State Fault Refusal :=
  done <|
    if (s.port p).rx.isSome then s else
    let s := s.advance dt
    if s.mode ≠ .forward ∧ s.mode ≠ .factoryTest then s.bump (cntModeDisc p)
    else if (s.port p).link ≠ .up then s.bump (cntNotUp p)
    else
      let s := s.timeSwitch p
      let s := s.countBw p false s.now bytes.length
      let full := s.landingSize p < s.landed p + bytes.length
      let f := s.nextFrame
      let s := s.addFrame { port := p, gen := (s.portGen p).latch, bytes := bytes, rxError := rxEnd = .error
                            slice := p.val / 8, set := portSet p, ing := .landing }
      let s := (s.setPort p { s.port p with rx := some f }).takeArea p f bytes.length
      let s := s.setFrame f (s.frontEnd (s.frame f))
      if full then (s.bump (cntBpm (p.val / 8) 0)).discard f else s

/-! The end of a frame -/

/-- The EtherType after at most two tags with TPID 0x8100 or 0x88A8 (R86). -/
def etherTypeOf (bs : Bytes) : Nat := beAt bs (12 + 4 * countTags bs 3 2 0) 2

/-- Whether a received frame's FCS is right. -/
def fcsOk (bs : Bytes) : Bool := leNat (bs.drop (bs.length - 4)) = crc32 (bs.take (bs.length - 4))

/-- A marker frame whose FCS has passed switches its port (R67, R69). -/
def State.markerSwitch (s : State) (x : Frame) : State :=
  if s.armedMarker = some (beAt x.body (16 + 4 * x.tags) 2) then s.switchPort x.port false else s

/-- A walk that only waits for bytes runs to its end once every byte is there. -/
def State.finishWalk (s : State) (x : Frame) : Nat → Frame
  | 0 => x
  | n + 1 => if x.walk.st = .running then s.finishWalk (s.walkStep x) n else x

/-- A frame whose FCS has passed is discarded by no rule that excepts it from PAR_FAIL_CNT: a failed walk is counted (R132). -/
def State.countFailed (s : State) (x : Frame) : State :=
  match (s.finishWalk { x with bytes := x.body, ended := true } 25).walk.st with
  | .failed r => s.bump (cntParFail (x.port / 8) r)
  | _ => s

/-- A frame's last byte arrives (R17, R66 to R69, R86, R87, R132, R133). The order of the MAC's checks: log entry 100. -/
def execFrameEnd (f : Nat) (s : State) : Host.Outcome State Fault Refusal :=
  done <|
    let x := s.frame f
    let p := x.port
    if (s.port p).rx ≠ some f then s else
    let n := x.bytes.length
    let s := s.setPort p { s.port p with rx := none }
    if x.rxError || n < 4 || !fcsOk x.bytes then (s.bump (cntFcs p)).discard f
    else if n < 64 ∨ (if s.black p then 10368 else 10240) < n then (s.bump (cntPrt p 0)).discard f
    else if etherTypeOf x.body = 0x8808 then ((s.countFailed x).bump (cntPrt p 1)).discard f
    else
      let s := (s.pmcCount 1 p 0 1).pmcCount 1 p 1 n
      let s := s.setFrame f { x with bytes := x.body, ended := true }
      let s := if x.marker then s.markerSwitch x else s
      if x.marker && s.bit .genMkrCtrl 0 0 16 then ((s.countFailed x).bump (cntMarker p)).discard f
      else s.ingressSettle f

/-! Loading a program (R135, R136) -/

/-- Whether an offset in a PAR block lies in a program memory (Table 04.9). -/
def inProgram (off : Nat) : Bool := (0x800 ≤ off && off < 0x1000) || (0x2000 ≤ off && off < 0x4000) || 0x8000 ≤ off

/-- VALID of a slice is cleared. -/
def State.clearValid (s : State) (i : Nat) : State := s.setReg .parProgCtrl i 0 (withBits 0 0 (s.reg .parProgCtrl i 0) 0)

/-- A write to a slice's parse program memory (R135). -/
def execParseProgramWrite (f : Fn) (i : Slice) (off : BitVec 16) (size : Nat) (v : BitVec 64) (s : State) :
    Host.Outcome State Fault Refusal :=
  done <|
    let a := 0x1000000 + i.val * 0x10000 + off.toNat
    if !inProgram off.toNat then s
    else if !accessOk a size then (if s.reachable .parState then s.configError f a else s)
    else
      match findReg a with
      | some m =>
        if m.name.info.size < size then
          -- two extraction operations side by side
          let s := s.fieldWrite f m 4 v.toNat (fun _ => false) fun _ s => s.clearValid i
          match findReg (a + 4) with
          | some m' => s.fieldWrite f m' 4 (v.toNat / 2 ^ 32) (fun _ => false) fun _ s => s.clearValid i
          | none => s
        else s.fieldWrite f m size v.toNat (fun _ => false) fun _ s => s.clearValid i
      | none =>
        if !s.reachable .parState then s
        else if f ≠ .pf0 || (s.mode ≠ .config && s.mode ≠ .factoryTest) then s.configError f a
        else s.clearValid i

/-- CHECK is written 1 (R136). -/
def execParseCrcCheck (f : Fn) (i : Slice) (s : State) : Host.Outcome State Fault Refusal :=
  done <| s.rowWrite f .parProgCtrl i 0 fun s => s.setReg .parProgCtrl i 0 (withBits 1 1 (s.reg .parProgCtrl i 0) 1)

/-- The program of a slice in the order of R136: state table, extraction RAM, transition table. -/
def State.programBytes (s : State) (i : Nat) : Bytes :=
  ((List.range 256).flatMap fun k => leBytes 8 (s.reg .parState i k)) ++
  ((List.range 2048).flatMap fun k => leBytes 4 (s.reg .parExtract i k)) ++
  ((List.range 1024).flatMap fun k => leBytes 8 (s.reg .parMatch i k) ++ leBytes 8 (s.reg .parMask i k)
    ++ leBytes 8 (s.reg .parAction i k) ++ zeros 8)

/-- The CRC completes: PAR_PROG_CRC is written and CHECK clears (R136). -/
def execParseCrcDone (i : Slice) (s : State) : Host.Outcome State Fault Refusal :=
  done <|
    let v := s.reg .parProgCtrl i 0
    if !bitOf 1 v then s
    else (s.setReg .parProgCrc i 0 (crc32 (s.programBytes i))).setReg .parProgCtrl i 0 (withBits 1 1 v 0)

end Sys2Proof.Machine
end

