-- ==== Sys2Proof/Machine/Place.lean ====
section
/-! DEFINITION. Where a forwarded frame goes: its port's state, the VOQ's placement, deep admission, copies and the
congestion mark (R98, R99, R311, R322, R326 to R331). -/

namespace Sys2Proof.Machine

/-! Deep buffer (R327, R328, R331, R400) -/

/-- Whether a frame's item holds pages: admitted and not yet read. -/
def Frame.paged (x : Frame) : Bool := x.ing = .spillQ || x.ing = .deep || x.ing = .reading

/-- Pages in use in the device, unwritten ones included (R327, R400). -/
def State.pagesUsed (s : State) : Nat := s.bpm.voqs.cells.foldl (fun n c => n + c.2.pages.length) 0

/-- The pages in use of a stripe group. -/
def State.groupPages (s : State) (g : Nat) : List Nat :=
  s.bpm.voqs.cells.flatMap fun c => (c.2.pages.map Prod.snd).filter fun p => pageGroup p = g

/-- Deep bytes of a VOQ. -/
def State.deepBytes (s : State) (k : Nat) : Nat := (s.deepItems k).foldl (fun n f => n + (s.frame f).itemBytes) 0

/-- Bytes of the spill write queue of a slice in use. -/
def State.spillBytes (s : State) (i : Nat) : Nat :=
  (s.bpm.spillQ.get [] i).foldl (fun n f => n + (s.frame f).itemBytes) 0

/-- Whether a stripe group counts as retired: `EVACUATING` or `RETIRED` (R416). -/
def State.retiredGroup (s : State) (g : Nat) : Bool := 3 ≤ (s.group g).state

/-- Stripe groups that count as retired. -/
def State.retiredGroups (s : State) : Nat := ((List.range 16).filter s.retiredGroup).length

/-- Whether a segment is withdrawn: it is to be, and its pages are free (Table 13.5). -/
def State.segmentGone (s : State) (w : Nat × Nat) : Bool := !(s.groupPages w.1).any fun p => pageSegment p = w.2

/-- Deep-area segments withdrawn in groups that are not retired. -/
def State.withdrawnSegs (s : State) : Nat :=
  (s.bpm.withdrawn.filter fun w => !s.retiredGroup w.1 && s.segmentGone w).length

/-- Deep-buffer capacity in bytes (R331). -/
def State.deepCapacity (s : State) : Nat :=
  s.fld .bpmDbCfg 0 0 5 0 * 2 ^ 30 - s.retiredGroups * 2 ^ 31 - s.withdrawnSegs * 28672

/-- Group-local pages of the deep-buffer region in each group. -/
def State.localPages (s : State) : Nat := s.fld .bpmDbCfg 0 0 5 0 * 16384

/-- The pages of segment q of group g that lie in the region, in page order: seven but in the last segment. -/
def State.segmentPages (s : State) (g q : Nat) : List Nat :=
  ((List.range 7).filter fun k => 7 * q + k < s.localPages).map fun k => segmentPage g q k

/-- Pages in use in groups that are not retired. -/
def State.livePages (s : State) : Nat :=
  ((List.range 16).filter fun g => !s.retiredGroup g).foldl (fun n g => n + (s.groupPages g).length) 0

/-- A free segment of group g: the first at or after `v`. DESIGN CHOICE, log entry 117. -/
def State.freeSegment (s : State) (g v : Nat) : Option Nat :=
  if s.retiredGroup g then none else
  let n := ceilDiv s.localPages 7
  let taken := ((s.groupPages g).map pageSegment).eraseDups ++ (s.bpm.withdrawn.filter fun w => w.1 = g).map Prod.snd
  if n = 0 then none else
  ((List.range (taken.length + 1)).map fun d => (v + d) % n).find? fun q =>
    !taken.contains q && s.livePages + (s.segmentPages g q).length ≤ s.deepCapacity / 4096

/-- The next segment of a portion, from the next group in rotation; the group of its first segment, and the segment of the
group, are the device's. DESIGN CHOICE, log entry 117. -/
def State.nextSegment (s : State) (k v : Nat) : Option (Nat × Nat) :=
  let first := match (s.voq k).group with
    | some g => g + 1
    | none => v
  (List.range 16).findSome? fun d => (s.freeSegment ((first + d) % 16) (v / 16)).map fun q => ((first + d) % 16, q)

/-- A segment is handed to a portion (R400). -/
def State.handSegment (s : State) (k : Nat) : Option State :=
  let (v, s) := s.draw 21
  (s.nextSegment k v.toNat).map fun w =>
    let x := s.voq k
    let first := match x.pages.getLast? with
      | some p => p.1 + 1
      | none => x.tail / 4032
    let l := s.segmentPages w.1 w.2
    s.setVoq k { x with group := some w.1, pages := x.pages ++ (List.range l.length).map fun n => (first + n, l.getD n 0) }

/-- A portion gets segments until it has a page for every place in the chain below `last`; none when no free page is
left (R327). -/
def State.takePages (s : State) (k last : Nat) : Nat → Option State
  | 0 => some s
  | n + 1 =>
    if (s.voq k).pages.any fun p => last ≤ p.1 then some s
    else (s.handSegment k).bind fun s => s.takePages k last n

/-! Placement (Table 10.4) -/

/-- Where a frame is placed. -/
inductive Placement where
  | holdOverflow | onDie
  /-- `enters`: the VOQ enters SPILL. -/
  | deep (enters : Bool)
  deriving DecidableEq, Repr

/-- Table 10.4. -/
def State.placement (s : State) (x : Frame) : Placement :=
  let held := (s.port x.outPort).link = .hold
  let spill := (s.voq x.voqKey).spill
  let above := s.spillThr x.cls < s.onDie x.slice (x.outPort * 8 + x.cls) + bufSize (firstPool x.len)
  if held then (if spill || above then .holdOverflow else .onDie)
  else if spill then .deep false
  else if s.bit .bpmIclsCfg 0 x.cls 36 && 0 < s.deepCapacity && above then .deep true
  else .onDie

/-- A frame placed deep: admitted to the spill write queue, or discarded (R327). -/
def State.placeDeep (s : State) (f : Nat) (enters : Bool) : State :=
  let x := s.frame f
  let k := x.voqKey
  let s := s.setVoq k { s.voq k with spill := (s.voq k).spill || enters }
  let v := s.voq k
  let n := x.itemBytes
  let refuse := fun (c : Nat) => ((s.bump (cntBpm x.slice c)).discard f).settleVoq k
  if 262144 < s.spillBytes x.slice + n then refuse 5
  else if s.icls x.cls 55 40 * 2 ^ 20 < s.deepBytes k + n then refuse 6
  else match s.takePages k ((v.tail + n - 1) / 4032) ((pagesOf v.tail n).length) with
    | none => refuse 7
    | some t =>
      let t := (t.setFrame f { x with ing := .spillQ, deepOff := v.tail }).bump (cntBpm x.slice 8)
      let t := t.setVoq k { t.voq k with tail := v.tail + n }
      { t with bpm := { t.bpm with spillQ := t.bpm.spillQ.modify [] x.slice (· ++ [f]) } }

/-- Members of a group that are on die already: placed, their shared buffer granted or not. -/
def State.groupOnDie (s : State) (g : Nat) : List Nat :=
  s.framesWhere fun y => y.group = g && (y.ing = .claiming || y.ing = .onDie)

/-- Copy records of a pool set in use: members that name a buffer another member allocated (R322). -/
def State.copyRecords (s : State) (slice set : Nat) : Nat :=
  s.bpm.bufs.cells.foldl (fun n c =>
    match c.2 with
    | some b => if b.slice = slice && b.set = set then n + (b.names.filter (· ≠ c.1)).length else n
    | none => n)
    ((s.framesWhere fun y => y.slice = slice && y.set = set && y.ing = .claiming).filter fun f =>
      !s.bpm.claims.any fun c => c.frame = f).length

/-- Owner-set entries of a pool set in use. -/
def State.ownerSets (s : State) (slice set : Nat) : Nat :=
  (s.bpm.bufs.cells.filter fun c => c.2.any fun b => b.slice = slice && b.set = set && b.oset.isSome).length +
    (s.bpm.claims.filter fun c => !c.egress && c.slice = slice && c.set = set && 1 < (s.claimants (s.frame c.frame).group).length).length

/-- A frame placed on die: it claims a buffer as this requester, or shares the one its group claims; a copy that gets no
copy record or owner-set entry is not made (R320, R322). -/
def State.placeOnDie (s : State) (f requester : Nat) : State :=
  let x := s.frame f
  let mates := s.groupOnDie x.group
  let full := 1024 ≤ s.copyRecords x.slice x.set || (mates.length = 1 && 1024 ≤ s.ownerSets x.slice x.set)
  if !mates.isEmpty && full then (s.bump (cntBpm x.slice 4)).discard f
  else
    let s := s.setFrame f { x with ing := .claiming }
    let v := s.voq x.voqKey
    let s := s.setVoq x.voqKey { v with order := v.order ++ [f] }
    if mates.isEmpty then s.claimFor f requester else s

/-- Whether the VOQ that a frame is linked into holds more than the threshold of R311. -/
def State.ecnDue (s : State) (x : Frame) : Bool :=
  s.bit .fabEcnCfg 0 x.cls 31 &&
    s.fld .fabEcnCfg 0 x.cls 19 0 * 1024 < s.onDie x.slice (x.outPort * 8 + x.cls) + s.deepBytes x.voqKey

/-- The congestion mark of a frame that has been linked (R311). -/
def State.ecnMark (s : State) (f : Nat) : State :=
  (s.modFrame f fun x => { x with ecn := true }).bump (cntFab (s.frame f).slice 5)

/-- A frame whose OUT_PORT, CLASS and circuit are set is linked into its VOQ: the port's state, the mark, the placement,
the prefetch (R98, R99, R221, R289, R311, R326). -/
def State.link (s : State) (f requester : Nat) : State :=
  let x := s.frame f
  let l := (s.port x.outPort).link
  if l ≠ .up ∧ l ≠ .hold then (s.bump (cntPrt x.outPort 5)).discard f
  else
    match s.placement x with
    | .holdOverflow => (s.bump (cntPrt x.outPort 3)).discard f
    | p =>
      let mark := s.ecnDue x
      let s := s.stamp f 0
      let s := match p with
        | .deep enters => s.placeDeep f enters
        | _ => s.placeOnDie f requester
      let s := if (s.frame f).bound then s.pmcCount 2 x.slice 0 1 else s
      let s := if mark && (s.frame f).bound then s.ecnMark f else s
      let s := if (s.frame f).ing = .spillQ then s.pmcCount 2 x.slice 1 1 else s
      if (s.frame f).bound && x.circuit.isSome && l = .up then s.prefetch (x.outPort / 8) f else s

end Sys2Proof.Machine
end

