-- ==== Sys2Proof/Machine/Packet.lean ====
section
/-! DEFINITION. Ethernet tags and IP headers, as Burin and the receive path read and rebuild them (chapters 07 and
08). -/

namespace Sys2Proof.Machine

/-- Leading tags with TPID 0x8100 or 0x88A8, at most 2 (R272). -/
def leadTags (bs : Bytes) : Nat :=
  let tag := fun o => beAt bs o 2 = 0x8100 || beAt bs o 2 = 0x88A8
  if tag 12 then (if tag 16 then 2 else 1) else 0

/-- Offset of the EtherType after the leading tags. -/
def typeOff (bs : Bytes) : Nat := 12 + 4 * leadTags bs

/-- One's complement sum of 16-bit words, network order. -/
def onesSum : Bytes → Nat
  | a :: b :: rest =>
    let n := a.toNat * 256 + b.toNat + onesSum rest
    if 65535 < n then n - 65535 else n
  | [a] => a.toNat * 256
  | [] => 0

/-- IHL in bytes. -/
def ihlBytes (p : Bytes) : Nat := byteAt p 0 % 16 * 4

/-- An IPv4 packet with its header checksum computed anew (RFC 1071, R275). -/
def fixIpv4 (p : Bytes) : Bytes :=
  let z := putAt p 10 [0, 0]
  putAt p 10 (beBytes 2 (65535 - onesSum (z.take (ihlBytes p))))

/-- IP version of a packet. -/
def ipVersion (p : Bytes) : Nat := byteAt p 0 / 16

/-- Bytes of a packet by its own length fields. -/
def ipLength (p : Bytes) : Nat := if ipVersion p = 4 then beAt p 2 2 else 40 + beAt p 4 2

/-- ECN of an IPv4 or IPv6 packet. -/
def ecnBy (v4 : Bool) (p : Bytes) : Nat := if v4 then byteAt p 1 % 4 else byteAt p 1 / 16 % 4

/-- DSCP of an IPv4 or IPv6 packet. -/
def dscpBy (v4 : Bool) (p : Bytes) : Nat := if v4 then byteAt p 1 / 4 else beAt p 0 2 / 64 % 64

/-- ECN of a packet, by its version. -/
def ecnOf (p : Bytes) : Nat := ecnBy (ipVersion p = 4) p

/-- A packet with its ECN replaced; an IPv4 checksum is computed anew. -/
def setEcn (p : Bytes) (e : Nat) : Bytes :=
  let b := byteAt p 1
  if ipVersion p = 4 then fixIpv4 (putAt p 1 [BitVec.ofNat 8 (b / 4 * 4 + e)])
  else putAt p 1 [BitVec.ofNat 8 (b / 64 * 64 + e * 16 + b % 16)]

/-- Inner ECN at decapsulation (Table 08.10); none is Drop. Not-ECT 0, ECT(1) 1, ECT(0) 2, CE 3. -/
def decapEcn (inner outer : Nat) : Option Nat :=
  if inner = 3 then some 3
  else if outer = 3 then (if inner = 0 then none else some 3)
  else if inner = 2 ∧ outer = 1 then some 1
  else some inner

end Sys2Proof.Machine
end

