-- ==== Sys2Proof/Machine/Sched.lean ====
section
/-! DEFINITION. The egress scheduler: queues and nodes, fair queueing, shapers, Constant Profile Shaping and selection
(R336 to R349, R356 to R361). -/

namespace Sys2Proof.Machine

/-! Tags (R343 to R345) -/

/-- cost(L, W) (R343). -/
def fairCost (l w : Nat) : Nat := ceilDiv (l * 65536) w

/-- A tag moved on by n. -/
def tagAdd (a n : Nat) : Nat := (a + n) % 2 ^ 48

/-- Whether tag a precedes tag b. -/
def tagBefore (a b : Nat) : Bool :=
  let d := (b + 2 ^ 48 - a) % 2 ^ 48
  1 ≤ d && d ≤ 2 ^ 47 - 1

/-- A start tag raised to V − 2^40 when it lies further behind (R345). -/
def tagClamp (v x : Nat) : Nat :=
  let d := (v + 2 ^ 48 - x) % 2 ^ 48
  if 2 ^ 40 < d && d ≤ 2 ^ 47 - 1 then (v + 2 ^ 48 - 2 ^ 40) % 2 ^ 48 else x

/-! Queues and their nodes (R336, R337, R344) -/

/-- A frame is passed from reassembly to its egress queue, and takes its place in its flow (R303, R336, R338). -/
def State.enqueue (s : State) (f : Nat) : State :=
  let x := s.frame f
  let k := s.queueKey x
  let s := (s.setFrame f { x with eg := .queued }).stamp f 2
  let s := s.setQueue k (s.queue k ++ [f])
  { s with sched := { s.sched with flows := s.sched.flows.modify [] x.flowKey (· ++ [f]) } }

/-! Shapers (R346, R347) -/

/-- Levels of a shaper. -/
inductive Level where
  | c | e | x
  deriving DecidableEq, Repr

/-- A shaper's level (R346). -/
def ShaperLevel.level (b : ShaperLevel) (cfg : ShaperCfg) : Level :=
  if b.p < 0 then .x else if b.c < 0 ∨ cfg.cir = 0 then .e else .c

/-- µbits of n bytes. -/
def shaperBits (n : Nat) : Int := (n * 8000000 : Nat)

/-- Full buckets. -/
def ShaperCfg.full (cfg : ShaperCfg) : ShaperLevel := ⟨shaperBits cfg.cbs, shaperBits cfg.pbs⟩

/-- `n` ticks of 64 ns. -/
def ShaperLevel.ticks (b : ShaperLevel) (cfg : ShaperCfg) (n : Nat) : ShaperLevel :=
  ⟨min (b.c + (n * 64 * cfg.cir : Nat)) (max b.c (shaperBits cfg.cbs)), min (b.p + (n * 64 * cfg.pir : Nat)) (max b.p (shaperBits cfg.pbs))⟩

/-- A selection of L bytes at this level is charged. -/
def ShaperLevel.charge (b : ShaperLevel) (at_ : Level) (l : Nat) : ShaperLevel :=
  ⟨if at_ = .c then b.c - shaperBits l else b.c, b.p - shaperBits l⟩

/-- The port shaper as a single-rate peak bucket (R347). -/
def State.portShaper (s : State) (p : Nat) : ShaperCfg :=
  { cir := 0, pir := s.fld .egsPortShape 0 p 63 32, cbs := 0, pbs := s.fld .egsPortShape 0 p 31 8 }

/-- A class node (Table 11.2), key port × 8 + class. -/
def State.classNode (s : State) (n : Nat) : ClassNode := s.sched.cls.get {} n

/-- A circuit queue set (Table 11.3), key slice × 4,096 + EQ. -/
def State.cirqNode (s : State) (n : Nat) : CirqNode := s.sched.cirq.get {} n

/-- Buckets of a port shaper. -/
def State.portBuckets (s : State) (p : Nat) : ShaperLevel := (s.sched.portLevel.get none p).getD (s.portShaper p).full

/-- Buckets of a class shaper. -/
def State.classBuckets (s : State) (n : Nat) : ShaperLevel := (s.sched.clsLevel.get none n).getD (s.classNode n).shaper.full

/-- Buckets of a circuit shaper. -/
def State.cirqBuckets (s : State) (n : Nat) : ShaperLevel := (s.sched.cirqLevel.get none n).getD (s.cirqNode n).shaper.full

/-- Every tick due by now is taken (R346). -/
def State.shaperSync (s : State) : State :=
  let n := s.now / 64 - s.sched.lastTick
  if n = 0 then s else
  { s with sched := { s.sched with
    lastTick := s.now / 64
    clsLevel := s.sched.clsLevel.mapCells none fun k b => b.map fun b => b.ticks (s.classNode k).shaper n
    cirqLevel := s.sched.cirqLevel.mapCells none fun k b => b.map fun b => b.ticks (s.cirqNode k).shaper n
    portLevel := s.sched.portLevel.mapCells none fun p b => b.map fun b => b.ticks (s.portShaper p) n } }

/-- Every 64 ns each shaper adds tokens to its buckets (R346). -/
def execShaperTick (s : State) : Host.Outcome State Fault Refusal :=
  done (s.advanceTo ((s.sched.lastTick + 1) * 64)).shaperSync

/-- Level of the port shaper. -/
def State.portLevelOf (s : State) (p : Nat) : Level :=
  if s.bit .egsPortShape 0 p 0 then (s.portBuckets p).level { s.portShaper p with cir := 1 } else .c

/-- Level of a class shaper. -/
def State.classLevel (s : State) (n : Nat) : Level :=
  if (s.classNode n).shape then (s.classBuckets n).level (s.classNode n).shaper else .c

/-- Key of the circuit queue set of a circuit queue. -/
def cirqOf (k : Nat) : Nat := k / 8

/-- Level of a queue: that of its circuit queue set, C for a non-circuit queue. -/
def State.queueLevel (s : State) (k : Nat) : Level :=
  if k < 2 ^ 20 ∧ (s.cirqNode (cirqOf k)).shape then (s.cirqBuckets (cirqOf k)).level (s.cirqNode (cirqOf k)).shaper
  else .c

/-! Frames at the scheduler (R338 to R340) -/

/-- Scheduling length of a frame that fills no slot (R340). -/
def State.schedLen (s : State) (x : Frame) : Nat :=
  let extra := match x.circuit with
    | some c => ((s.cirAt c x.gen).map fun v => v.ovh).getD 0
    | none =>
      let prog := if x.prog = 0xFFFF then s.fld .burPortCfg 0 x.outPort 9 0 else x.prog
      if 2 ≤ s.fld .burProg 0 prog 27 26 then 4 else 0
  x.len + 4 + extra + 20

/-- L of a selected frame: a slot's size plus 20 for a frame that fills one. -/
def State.chargedLen (s : State) (x : Frame) : Nat :=
  match x.slot with
  | some (n, _) => n + 20
  | none => s.schedLen x

/-- A head frame is neither gated nor without its cache entry (R338, R339). -/
def State.canGo (s : State) (f : Nat) : Bool :=
  let x := s.frame f
  (s.sched.flows.get [] x.flowKey).head? = some f &&
    (x.circuit.isNone || (x.pinned && (s.frameKey f).any fun k => s.resident (x.outPort / 8) k))

/-- Bytes a port has selected and not started (R341). -/
def State.selectedBytes (s : State) (p : Nat) : Nat :=
  s.frames.cells.foldl (fun n c =>
    if c.2.outPort = p && (c.2.eg = .selected || c.2.eg = .burin || c.2.eg = .rewritten || c.2.eg = .dispatch ||
        c.2.eg = .glaze || c.2.eg = .ready) then n + s.chargedLen c.2 else n) 0

/-! Selection (R342 to R348) -/

/-- Members of class node (p, c): queues whose head names the port. -/
def State.members (s : State) (p c : Nat) : List Nat :=
  (s.sched.memberAt.cells.filter fun m => m.2 = p + 1 && queueClass m.1 = c).map Prod.fst

/-- Weight of a queue in its class node (Tables 11.2 and 11.3). -/
def State.weightOf (s : State) (k : Nat) : Nat :=
  if k < 2 ^ 20 then (s.cirqNode (cirqOf k)).weights.getD (queueClass k) 1 else (s.classNode (k - 2 ^ 20)).ncWeight

/-- Member number of a queue (R345). -/
def memberNo (k : Nat) : Nat := if k < 2 ^ 20 then k / 8 % 4096 else 4096

/-- Head of a queue. -/
def State.headOf (s : State) (k : Nat) : Nat := (s.queue k).headD 0

/-- Finish tag of a queue's head (R343). -/
def State.finish (s : State) (k : Nat) : Nat :=
  tagAdd (s.sched.memberS.get 0 k) (fairCost (s.schedLen (s.frame (s.headOf k))) (s.weightOf k))

/-- The better of two members with finish tags: the earlier tag, then the lower number. -/
def betterTag (a b : Nat × Nat) : Bool := tagBefore b.1 a.1 || (a.1 = b.1 && b.2 < a.2)

/-- The queue with the least finish tag. -/
def State.leastFinish (s : State) (l : List Nat) : Option Nat :=
  l.foldl (fun (best : Option Nat) k =>
    match best with
    | some b => some (if betterTag (s.finish b, memberNo b) (s.finish k, memberNo k) then k else b)
    | none => some k) none

/-- pick() of R342: the member of a class node that would be selected. -/
def State.pick (s : State) (p c : Nat) : Option Nat :=
  let ok := (s.members p c).filter fun k => s.canGo (s.headOf k)
  let atC := ok.filter fun k => s.queueLevel k = .c
  if atC.isEmpty then s.leastFinish (ok.filter fun k => s.queueLevel k = .e) else s.leastFinish atC

/-- Finish tag of a class at the port node for the queue that pick() chose. -/
def State.classFinish (s : State) (p c k : Nat) : Nat :=
  tagAdd (s.sched.classS.get 0 (p * 8 + c)) (fairCost (s.schedLen (s.frame (s.headOf k))) (s.classNode (p * 8 + c)).weight)

/-- The class and queue selected at a port (R342). -/
def State.choose (s : State) (p : Nat) : Option (Nat × Nat) :=
  let m := (List.range 8).filterMap fun c =>
    if s.classLevel (p * 8 + c) = .x then none else (s.pick p c).map fun k => (c, k)
  let atC := m.filter fun x => s.classLevel (p * 8 + x.1) = .c
  let set := if atC.isEmpty then m else atC
  match (set.filter fun x => !(s.classNode (p * 8 + x.1)).wfq).getLast? with
  | some x => some x
  | none => set.foldl (fun (best : Option (Nat × Nat)) x =>
      match best with
      | some b => some (if betterTag (s.classFinish p b.1 b.2, b.1) (s.classFinish p x.1 x.2, x.1) then x else b)
      | none => some x) none

/-- Charge the port shaper with L bytes. -/
def State.chargePort (s : State) (p l : Nat) : State :=
  if !s.bit .egsPortShape 0 p 0 then s
  else { s with sched := { s.sched with portLevel := s.sched.portLevel.set none p (some ((s.portBuckets p).charge .x l)) } }

/-- Charge the class shaper. -/
def State.chargeClass (s : State) (n l : Nat) : State :=
  if !(s.classNode n).shape then s
  else
    let at_ := s.classLevel n
    { s with sched := { s.sched with clsLevel := s.sched.clsLevel.set none n (some ((s.classBuckets n).charge at_ l)) } }

/-- Charge the circuit shaper of a queue. -/
def State.chargeCirq (s : State) (k l : Nat) : State :=
  if k < 2 ^ 20 ∧ (s.cirqNode (cirqOf k)).shape then
    let at_ := s.queueLevel k
    { s with sched := { s.sched with cirqLevel := s.sched.cirqLevel.set none (cirqOf k) (some ((s.cirqBuckets (cirqOf k)).charge at_ l)) } }
  else s

/-- The class node advances past the member selected (R344, R345). -/
def State.advanceNode (s : State) (p c k : Nat) : State :=
  let n := p * 8 + c
  let fin := s.finish k
  let v := if tagBefore (s.sched.nodeV.get 0 n) fin then fin else s.sched.nodeV.get 0 n
  let memberS := s.sched.memberS.set 0 k fin
  { s with sched := { s.sched with
    nodeV := s.sched.nodeV.set 0 n v
    memberS := (s.members p c).foldl (fun t m => t.modify 0 m (tagClamp v)) memberS } }

/-- The port node advances past the class selected, when the class is in WFQ mode (R344, R345, R348). -/
def State.advancePort (s : State) (p c fin : Nat) : State :=
  let n := p * 8 + c
  if !(s.classNode n).wfq then s else
  let v := if tagBefore (s.sched.portV.get 0 p) fin then fin else s.sched.portV.get 0 p
  let classS := s.sched.classS.set 0 n fin
  let mates := (List.range 8).filter fun d => s.sched.backlog.contains (p * 8 + d) && (s.classNode (p * 8 + d)).wfq
  { s with sched := { s.sched with
    portV := s.sched.portV.set 0 p v
    classS := mates.foldl (fun t d => t.modify 0 (p * 8 + d) (tagClamp v)) classS } }

/-- A frame is selected: it leaves its queue and its flow's gate, and waits for Burin in selection order (R280, R338). -/
def State.takeSelected (s : State) (f : Nat) : State :=
  let x := s.frame f
  let i := x.outPort / 8
  let k := s.queueKey x
  let s := (s.leaveFlow f).setQueue k ((s.queue k).filter (· ≠ f))
  let s := ((s.setFrame f { x with eg := .selected }).stamp f 3).pmcCount 3 i 0 1
  { s with bur := { s.bur with sel := s.bur.sel.modify [] i (· ++ [f]) } }

/-- One selection by class; frames past their residency are discarded and the choice is made again (R74, R339, R342,
R348). -/
def State.selectClass (s : State) (p : Nat) : Nat → State
  | 0 => s
  | n + 1 =>
    match s.choose p with
    | none => s
    | some (c, k) =>
      let f := s.headOf k
      let x := s.frame f
      if s.resLimit < s.age x then (s.resDiscard f).selectClass p n
      else
        let l := s.schedLen x
        let fin := s.classFinish p c k
        let s := ((s.chargePort p l).chargeClass (p * 8 + c) l).chargeCirq k l
        ((s.advanceNode p c k).advancePort p c fin).takeSelected f

/-! Constant Profile Shaping (R356 to R361) -/

/-- Sizes in use of a profile. -/
def Profile.used (q : Profile) : List Nat := q.sizes.filter (· ≠ 0)

/-- Size of the current slot. -/
def Profile.size (q : Profile) : Nat := q.sizes.getD (q.pattern.getD (q.n % q.nslot) 0 % 8) 0

/-- µbits of the current slot with the 20 bytes of preamble and gap, and what remains (R357). -/
def Profile.bits (q : Profile) : Nat := q.r + (q.size + 20) * 8000000

/-- The slot completes, sent or skipped (R357). -/
def Profile.next (q : Profile) : Profile :=
  { q with r := q.bits % q.rate, due := q.due + q.bits / q.rate, n := q.n + 1 }

/-- A slot falls due: time reaches its D (R357). -/
def execCpsSlotDue (c : Circuit) (s : State) : Host.Outcome State Fault Refusal :=
  done <| match s.cps.get none c with
    | some q => s.advanceTo q.due
    | none => s

/-- The CURRENT version of a circuit. -/
def State.cirNow (s : State) (c : Nat) : Option CirVer := s.cirAt c s.gen.current

/-- Put a slot, as its D and circuit, in its place: earliest D first, then lower circuit (R358). -/
def dueInsert (x : Nat × Nat) : List (Nat × Nat) → List (Nat × Nat)
  | [] => [x]
  | y :: rest => if x.1 < y.1 ∨ (x.1 = y.1 ∧ x.2 ≤ y.2) then x :: y :: rest else y :: dueInsert x rest

/-- CPS circuits of a port whose slot is due: earliest D first, then lower circuit (R358). -/
def State.dueSlots (s : State) (p : Nat) : List Nat :=
  let l := s.cps.cells.filterMap fun c =>
    c.2.bind fun q => if q.due ≤ s.now && (s.cirNow c.1).any fun v => v.port = p then some (q.due, c.1) else none
  (l.foldr dueInsert []).map Prod.snd

/-- The slot of a profile completes, after `g`. -/
def State.slotDone (s : State) (c : Nat) (g : Profile → Profile) : State :=
  s.setCps c ((s.cps.get none c).map fun q => (g q).next)

/-- Slots whose successor is due are skipped (R358). -/
def State.skipSlots (s : State) (c : Nat) : Nat → State
  | 0 => s
  | n + 1 =>
    match s.cps.get none c, s.cirNow c with
    | some q, some v =>
      if q.next.due ≤ s.now then ((s.slotDone c id).bump (cntCps (v.port / 8) 2)).skipSlots c n else s
    | _, _ => s

/-- LEN + 4 + OVH of a frame of a circuit. -/
def State.wireNeed (s : State) (x : Frame) : Nat :=
  x.len + 4 + ((x.circuit.bind fun c => s.cirAt c x.gen).map fun v => v.ovh).getD 0

/-- Offer the slot to one class queue: frames past every bucket or their residency are discarded as they come to the
head, and the head that fits is answered (R74, R358). -/
def State.offerQueue (s : State) (p k most size : Nat) : Nat → State × Option Nat
  | 0 => (s, none)
  | n + 1 =>
    match (s.queue k).head? with
    | none => (s, none)
    | some f =>
      let x := s.frame f
      if x.outPort ≠ p then (s, none)
      else if most < s.wireNeed x then ((s.bump (cntCps (p / 8) 3)).discard f).offerQueue p k most size n
      else if !s.canGo f || size < s.wireNeed x then (s, none)
      else if s.resLimit < s.age x then (s.resDiscard f).offerQueue p k most size n
      else (s, some f)

/-- Offer the slot to the circuit's class queues, highest class first (R358). -/
def State.offer (s : State) (p eq most size : Nat) : Nat → State × Option Nat
  | 0 => (s, none)
  | c + 1 =>
    let k := p / 8 * 32768 + eq * 8 + c
    match s.offerQueue p k most size ((s.queue k).length + 1) with
    | (t, some f) => (t, some f)
    | (t, none) => t.offer p eq most size c

/-- Whether a filler frame can be made for circuit c (R361). -/
def State.canFill (s : State) (c : Nat) (q : Profile) (v : CirVer) : Bool :=
  let x := s.cirState c
  let k := s.cacheKey c s.gen.current
  k.any fun k => q.pin = some (k.sa, k.born.toNat) && s.resident (v.port / 8) k && !x.disabled && !x.suspended &&
    (s.saOf k.sa).any fun a => a.bound.any fun b => s.glz.nextPn.get 0 (pnKey b.1 b.2 (k.sa % 4)) ≤ (if a.wide then 2 ^ 64 - 1 else 2 ^ 32 - 1)

/-- A filler frame, as Burin's input: addresses, EtherType and filler body (Table 11.6, R58, R360). Its class and the
DSCP and ECN of its outer header are not given: free values. -/
def State.filler (s : State) (c : Nat) (q : Profile) (v : CirVer) : State × Nat :=
  let (cls, s) := s.draw 3
  let f := s.nextFrame
  let body := [0x59, 0x46, 1, 0] ++ beBytes 2 c ++ beBytes 2 (q.n % q.nslot) ++ beBytes 8 q.fillers
  let x : Frame := { origin := .filler, port := v.port, gen := s.gen.current, sofNs := s.now, sofSec := s.ptpSec
                     sofNano := s.ptpNano, sofFrac := s.ptpFrac, ended := true
                     bytes := q.fillDa ++ q.fillSa ++ beBytes 2 (s.fld .cirFiller 0 0 15 0) ++ body
                     outPort := v.port, cls := cls.toNat, circuit := some c, prog := v.rewrite
                     slot := some (q.size, q.n % q.nslot), fillCount := q.fillers, group := f, eg := .queued }
  (({ s with nextFrame := f + 1, frames := s.frames.set {} f x }).refUp x.gen, f)

/-- Serve the due slot of one circuit: a padded frame, a filler frame, or a skip; the Bool says that a frame was
selected (R358). -/
def State.serveSlot (s : State) (p c : Nat) : State × Bool :=
  let s := s.skipSlots c (s.now + 1 - ((s.cps.get none c).map fun q => q.due).getD 0)
  match s.cps.get none c, s.cirNow c with
  | some q, some v =>
    if s.now < q.due then (s, false) else
    let size := q.size
    match s.offer p v.eq (q.used.foldl max 0) size 8 with
    | (s, some f) =>
      let s := (s.modFrame f fun x => { x with slot := some (size, q.n % q.nslot) }).bump (cntCps (p / 8) 0)
      (((s.chargePort p (size + 20)).takeSelected f).slotDone c id, true)
    | (s, none) =>
      let q := (s.cps.get none c).getD q
      if s.canFill c q v then
        let (s, f) := s.filler c q v
        let s := (s.bump (cntCps (p / 8) 1)).pmcCount 3 (p / 8) 1 1
        (((s.chargePort p (size + 20)).takeSelected f).slotDone c fun q => { q with fillers := q.fillers + 1 }, true)
      else ((s.slotDone c id).bump (cntCps (p / 8) 2), false)
  | _, _ => (s, false)

/-- cps_serve() (R358): the Bool says that a frame was selected. -/
def State.serveSlots (s : State) (p : Nat) : List Nat → State × Bool
  | [] => (s, false)
  | c :: rest =>
    match s.serveSlot p c with
    | (s, true) => (s, true)
    | (s, false) => s.serveSlots p rest

/-- Whether a port may receive a selection: it is UP, with less than 16 KiB selected and not started (R341). -/
def State.mayReceive (s : State) (p : Nat) : Bool := (s.port p).link = .up && s.selectedBytes p < 16384

/-- Whether the scheduler has something to do at a port: a slot is due, or a frame would be selected. -/
def State.wouldSelect (s : State) (p : Nat) : Bool :=
  s.mayReceive p && (!(s.dueSlots p).isEmpty || (s.portLevelOf p ≠ .x && (s.choose p).isSome))

/-- Ports of slice i that have had a selection in this cycle: two selections, or time that passes, end a cycle. -/
def State.servedNow (s : State) (i : Nat) : List Nat :=
  let (t, l) := s.sched.served.get (0, []) i
  if t = s.now && l.length < 2 then l else []

/-- Whether it is this port's turn among the ports of its slice: the fewest bytes selected and not started first, then the
lower port; one selection in a cycle (R341). A cycle in which no other port has anything to select is over. -/
def State.portTurn (s : State) (p : Nat) : Bool :=
  let rivals := ((List.range 8).map fun q => p / 8 * 8 + q).filter fun q => q ≠ p && s.wouldSelect q
  let done := s.servedNow (p / 8)
  let left := rivals.filter fun q => !done.contains q
  if done.contains p then left.isEmpty
  else left.all fun q => s.selectedBytes p < s.selectedBytes q || (s.selectedBytes p = s.selectedBytes q && p < q)

/-- A port has its selection of the cycle. -/
def State.noteServed (s : State) (p : Nat) : State :=
  let l := (s.servedNow (p / 8)).filter (· ≠ p) ++ [p]
  { s with sched := { s.sched with served := s.sched.served.set (0, []) (p / 8) (s.now, l) } }

/-- One selection at a port: a slot of a Constant Profile, or a frame by class. -/
def State.selectAt (s : State) (p : Nat) : State :=
  match s.serveSlots p (s.dueSlots p) with
  | (s, true) => s
  | (s, false) => if s.portLevelOf p = .x then s else s.selectClass p (s.frames.cells.length + 1)

/-- The egress scheduler selects at a port, in its turn (R341, R342). -/
def execEgressSelect (p : Port) (s : State) : Host.Outcome State Fault Refusal :=
  done <|
    let s := s.shaperSync
    if s.mode = .safe || !s.mayReceive p || !s.portTurn p then s else (s.noteServed p).selectAt p

/-! Node configuration (R349) -/

/-- A shaper record (Table 11.1). -/
def shaperOf (b : Bytes) : ShaperCfg := ⟨leAt b 0 4, leAt b 4 4, leAt b 8 4, leAt b 12 4⟩

/-- Whether a shaper record is refused. -/
def badShaper (x : ShaperCfg) : Bool := 400000000 < x.pir || x.pir < x.cir || 16777215 < x.cbs || 16777215 < x.pbs

/-- Whether a weight is out of range. -/
def badWeight (w : Nat) : Bool := w = 0 || 4095 < w

/-- A command of the egress slices that reads a record, which the table sequencer takes no part in. -/
def State.egsCommand (s : State) (r op : Nat) (rec : Dma) (f : Bytes → State → State) : State :=
  s.command r op fun _ s =>
    match rec with
    | none => s.complete r .dmaError
    | some b => f b s

/-- EGS_CLASS_WRITE (R346, R349). -/
def execEgsClassWrite (r : Ring) (rec : Dma) (s : State) : Host.Outcome State Fault Refusal :=
  done <| s.egsCommand r 0x0070 rec fun b s =>
    let sh := shaperOf (sliceOf b 16 16)
    let n := byteAt b 0 * 8 + byteAt b 1
    if 127 < byteAt b 0 || 7 < byteAt b 1 || 3 < byteAt b 2 || byteAt b 3 ≠ 0 || badWeight (leAt b 4 2) ||
        badWeight (leAt b 6 2) || !zeroAt b 8 8 || badShaper sh then s.complete r .egsBadRecord
    else
      let s := s.shaperSync
      let node : ClassNode := ⟨bitOf 0 (byteAt b 2), bitOf 1 (byteAt b 2), leAt b 4 2, leAt b 6 2, sh⟩
      ({ s with sched := { s.sched with
        cls := s.sched.cls.set {} n node, clsLevel := s.sched.clsLevel.set none n none } }).complete r .ok

/-- EGS_CIRQ_WRITE (R346, R349). -/
def execEgsCirqWrite (r : Ring) (rec : Dma) (s : State) : Host.Outcome State Fault Refusal :=
  done <| s.egsCommand r 0x0071 rec fun b s =>
    let sh := shaperOf (sliceOf b 32 16)
    let ws := (List.range 8).map fun c => leAt b (16 + 2 * c) 2
    let n := byteAt b 0 * 4096 + leAt b 2 2
    if 15 < byteAt b 0 || (byteAt b 1 ≠ 0 && byteAt b 1 ≠ 2) || 4095 < leAt b 2 2 || !zeroAt b 4 12 || ws.any badWeight ||
        badShaper sh then s.complete r .egsBadRecord
    else
      let s := s.shaperSync
      let node : CirqNode := ⟨bitOf 1 (byteAt b 1), ws, sh⟩
      ({ s with sched := { s.sched with
        cirq := s.sched.cirq.set {} n node, cirqLevel := s.sched.cirqLevel.set none n none } }).complete r .ok

/-! CPS_WRITE (R356, R357) -/

/-- Speed of a port in kb/s (Table 03.1). -/
def State.portKbps (s : State) (p : Nat) : Nat :=
  match s.fld .prtCfg p 0 3 1 with
  | 0 => 10000000 | 1 => 25000000 | 2 => 50000000 | 3 => 100000000 | 4 => 200000000 | _ => 400000000

/-- Fmin (R356). -/
def State.leastSlot (s : State) (v : CirVer) : Nat :=
  let t := s.growth v.rewrite (byteAt v.data 0x0C)
  max 64 (if v.mode = 1 then 50 + t + (if bitOf 0 v.flags then 16 else 8) else if bitOf 5 v.flags then 108 + t else 88 + t)

/-- The profile of a CPS record (Table 11.5), its first slot due at D. -/
def profileOfRecord (b : Bytes) (due : Nat) : Profile :=
  { flags := byteAt b 2, nslot := byteAt b 3, rate := leAt b 4 4, sizes := (List.range 8).map fun k => leAt b (8 + 2 * k) 2
    fillDa := sliceOf b 24 6, fillSa := sliceOf b 30 6, pattern := (List.range 32).map fun k => byteAt b (64 + k)
    due := due, r := 0, n := 0, fillers := 0, pin := none }

/-- Whether a CPS record has a reserved bit or a field out of range. -/
def badCps (b : Bytes) : Bool :=
  3 < byteAt b 2 || byteAt b 3 = 0 || 32 < byteAt b 3 || leAt b 4 4 < 1000 || 400000000 < leAt b 4 4 || !zeroAt b 36 28 ||
    (List.range 32).any fun k => 7 < byteAt b (64 + k)

/-- CPS_SIZE (R356). -/
def State.badSizes (s : State) (q : Profile) (v : CirVer) : Bool :=
  ((List.range q.nslot).any fun k => q.sizes.getD (q.pattern.getD k 0) 0 = 0) ||
    q.used.any fun n => 10368 < n || n < s.leastSlot v || (v.mode = 2 && n % 4 ≠ 2)

/-- CPS_RATE (R356): a write that stops the profile adds no rate. -/
def State.overRate (s : State) (c rate port : Nat) : Bool :=
  let sum := s.cps.cells.foldl (fun n x =>
    match x.2 with
    | some q => if x.1 ≠ c && (s.cirNow x.1).any fun v => v.port = port then n + q.rate else n
    | none => n) rate
  s.portKbps port * 95 < sum * 100

/-- CPS_WRITE (R356, R357, R361). -/
def execCpsWrite (r : Ring) (rec : Dma) (s : State) : Host.Outcome State Fault Refusal :=
  done <| s.egsCommand r 0x0072 rec fun b s =>
    let c := leAt b 0 2
    let q := profileOfRecord b (s.now + 1000)
    if badCps b then s.complete r .cpsBadRecord else
    match s.cirNow c with
    | none => s.complete r .cpsMode
    | some v =>
      if (v.mode ≠ 1 && v.mode ≠ 2) || !s.black v.port then s.complete r .cpsMode
      else if s.badSizes q v then s.complete r .cpsSize
      else if s.overRate c (if bitOf 0 q.flags then q.rate else 0) v.port then s.complete r .cpsRate
      else
        let s := s.cpsUnpin c v.port
        if !bitOf 0 q.flags then ((s.setCps c none).joinNodes (v.port / 8)).complete r .ok
        else
          let s := (s.setCps c (some q)).joinNodes (v.port / 8)
          (s.cpsPin c v.port).complete r .ok

end Sys2Proof.Machine
end

