-- ==== Sys2Proof/Machine/Fabric.lean ====
section
/-! DEFINITION. The switch core: eligibility, the matcher, building cells, reassembly, acknowledgements, retransmission
and planes (R291 to R310). -/

namespace Sys2Proof.Machine

/-! Pairs (R302) -/

/-- A (SRC, DST) pair. -/
def State.fpair (s : State) (a b : Nat) : Pair := s.fab.pairs.get {} (a * 16 + b)

/-- Replace a pair. -/
def State.setFpair (s : State) (a b : Nat) (x : Pair) : State :=
  { s with fab := { s.fab with pairs := s.fab.pairs.set {} (a * 16 + b) x } }

/-- Change a pair. -/
def State.modFpair (s : State) (a b : Nat) (g : Pair → Pair) : State := s.setFpair a b (g (s.fpair a b))

/-- Whether SEQ x comes before SEQ y, modulo 65,536. -/
def seqBefore (x y : Nat) : Bool :=
  let d := (y + 65536 - x) % 65536
  1 ≤ d && d < 32768

/-- The SEQs from x up to and not including y. -/
def seqFrom (x y : Nat) : List Nat :=
  if seqBefore x y then (List.range ((y + 65536 - x) % 65536)).map fun k => (x + k) % 65536 else []

/-- FAB_RETX_CFG.RETRY_MAX. -/
def State.retryMax (s : State) : Nat := s.fld .fabRetxCfg 0 0 7 0

/-! Planes (R294, R309, R310) -/

/-- Logical planes in use. -/
def State.planesInUse (s : State) : Nat := s.units.planes.pos.countP Option.isSome

/-- The physical planes of the logical planes in use, in their order. -/
def State.planeList (s : State) : List Nat := s.units.planes.pos.filterMap id

/-- Length of a cell time in FAB cycles of 1 ns (R294). -/
def State.cellNs (s : State) : Nat := ceilDiv 32 s.planesInUse

/-! Eligibility (R296) -/

/-- Bytes of a frame's stream: its FFH and its LEN bytes (R292). -/
def Frame.streamLen (x : Frame) : Nat := 16 + x.len

/-- Whether an egress (port, class) is ready: not marked under R301, and its slice not in a reset (R518). -/
def State.egressReady (s : State) (k : Nat) : Bool :=
  !s.fab.notReady.contains k && !s.rst.blocks.contains (128 + k / 64)

/-- Whether a VOQ holds bytes not yet sent, at its head and on die, for a (port, class) that is ready. -/
def State.voqReady (s : State) (k : Nat) : Bool :=
  ((s.voq k).order.head?.any fun f => (s.frame f).ing = .onDie) && s.egressReady (k % 1024)

/-- The VOQs of slice a for ports of slice b that may send a new cell. -/
def State.eligibleVoqs (s : State) (a b : Nat) : List Nat :=
  if 64 ≤ (s.fpair a b).unacked.length then []
  else (s.bpm.voqs.keys.filter fun k => k / 1024 = a && k % 1024 / 64 = b).filter s.voqReady

/-- Whether a cell waits to be sent again: its poison, or a failure below RETRY_MAX (R305, R306). -/
def State.canResend (s : State) (c : Cell) : Bool := c.resend && (c.poison || c.failed < s.retryMax)

/-- The request of (a, b): 1 + class, 9 when promoted, 0 for none (R296, R299). A cell that waits for resending reports
its class. DEDUCED, log entry 32. -/
def State.request (s : State) (a b : Nat) : Nat :=
  let again := (((s.fpair a b).unacked.filter s.canResend).map Cell.cls)
  let top := (again ++ (s.eligibleVoqs a b).map (· % 8)).foldl (fun m c => max m (c + 1)) 0
  if top = 0 then 0
  else if s.fab.promoted.contains (a * 16 + b) || s.fld .fabMatchCfg 0 0 15 0 ≤ s.fab.starve.get 0 (a * 16 + b) then 9
  else top

/-! The matcher (R297 to R299) -/

/-- The first of 16 values at or after `ptr` that is greatest and not 0. -/
def bestFrom (ptr : Nat) (val : Nat → Nat) : Option Nat :=
  ((List.range 16).foldl (fun (best : Option (Nat × Nat)) k =>
    let x := (ptr + k) % 16
    let v := val x
    match best with
    | some (_, w) => if w < v then some (x, v) else best
    | none => if 0 < v then some (x, v) else none) none).map Prod.fst

/-- One round: the new matches, given those made before. -/
def matchRound (req : Nat → Nat → Nat) (gptr aptr : Nat → Nat) (made : List (Nat × Nat)) : List (Nat × Nat) :=
  let inFree := fun i => !made.any fun m => m.1 = i
  let outFree := fun j => !made.any fun m => m.2 = j
  let grants := (List.range 16).map fun j =>
    if outFree j then bestFrom (gptr j) (fun i => if inFree i then req i j else 0) else none
  (List.range 16).filterMap fun i =>
    if inFree i then
      (bestFrom (aptr i) fun j => if grants.getD j none = some i then req i j else 0).map fun j => (i, j)
    else none

/-- Round-robin pointers move on a first-round accept (R298). -/
def State.movePointers (s : State) (made : List (Nat × Nat)) : State :=
  runOver made (fun m s => { s with fab := { s.fab with
    gptr := s.fab.gptr.set 0 m.2 ((m.1 + 1) % 16)
    aptr := s.fab.aptr.set 0 m.1 ((m.2 + 1) % 16) } }) s

/-- A reporting pair that was not matched counts a cell time; a match, or no report, ends the count (R299). -/
def State.countStarve (s : State) (req : Nat → Nat → Nat) (made : List (Nat × Nat)) : State :=
  { s with fab := { s.fab with
    starve := runOver (List.range 256) (fun k t =>
      if req (k / 16) (k % 16) = 0 ∨ made.contains (k / 16, k % 16) then t.set 0 k 0 else t.modify 0 k (· + 1)) s.fab.starve
    promoted := s.fab.promoted.filter fun k => !made.contains (k / 16, k % 16) } }

/-! Building a cell (R292, R300, R302, R305) -/

/-- Fill up to `room` payload bytes from the frames of a VOQ, the head's first `off` bytes sent already: the segments,
the frames not fully sent and the head's bytes sent. -/
def State.packCell (s : State) : List Nat → Nat → Nat → List Seg × List Nat × Nat
  | [], _, _ => ([], [], 0)
  | f :: rest, off, room =>
    let x := s.frame f
    if x.ing ≠ .onDie ∨ room = 0 then ([], f :: rest, off)
    else
      let n := min room (x.streamLen - off)
      if off + n = x.streamLen then
        let (segs, order, sent) := s.packCell rest 0 (room - n)
        (⟨f, off, n⟩ :: segs, order, sent)
      else ([⟨f, off, n⟩], f :: rest, off + n)

/-- The VOQ that a match serves: the highest class, then the first port at or after the slice's pointer (R300). -/
def State.pickVoq (s : State) (a b : Nat) : Option Nat :=
  let l := s.eligibleVoqs a b
  let c := l.foldl (fun m k => max m (k % 8)) 0
  let ptr := s.fab.pptr.get 0 (a * 16 + b)
  ((List.range 8).map fun k => a * 1024 + (b * 8 + (ptr + k) % 8) * 8 + c).find? fun k => l.contains k

/-- A cell goes onto the planes. -/
def State.sendCell (s : State) (a b : Nat) (c : Cell) : State :=
  s.modFpair a b fun p => { p with flying := p.flying ++ [c] }

/-- The first frames of a VOQ whose bytes a cell would take and whose buffer cannot be read are integrity discards (R38,
R411). The counter is the model's choice: log entry 112. -/
def State.dropUnread (s : State) (k : Nat) : State :=
  let (segs, _, _) := s.packCell (s.voq k).order (s.voq k).sent 496
  let bad := (segs.map Seg.frame).filter fun f => (s.bufOf f).any fun b => s.bufBad false b.slice b.set b.pool b.idx
  runOver bad (fun f s => (s.bump (cntFab (s.frame f).slice 4)).discard f) s

/-- A new cell of a VOQ. -/
def State.newCell (s : State) (a b k : Nat) : State :=
  let s := s.dropUnread k
  if !s.voqReady k then s else
  let v := s.voq k
  let p := s.fpair a b
  let (segs, order, sent) := s.packCell v.order v.sent 496
  let c : Cell := { seq := p.next, port := k % 1024 / 8, cls := k % 8, segs := segs, sentAt := s.fab.cellTime, planes := s.planeList }
  let s := s.setVoq k { v with order := order, sent := sent }
  let s := { s with fab := { s.fab with pptr := s.fab.pptr.set 0 (a * 16 + b) ((c.port + 1) % 8) } }
  let s := s.setFpair a b { p with next := (p.next + 1) % 65536, unacked := p.unacked ++ [c] }
  let s := runOver segs (fun g s => if g.off = 0 then s.stamp g.frame 1 else s) s
  ((s.sendCell a b c).bump (cntFab a 0)).pmcCount 5 a 0 1

/-- A cell is sent again, with RETX = 1 (R305). -/
def State.resendCell (s : State) (a b : Nat) (c : Cell) : State :=
  let d := { c with retx := true, resend := false, sentAt := s.fab.cellTime, planes := s.planeList }
  let s := s.modFpair a b fun p => { p with unacked := p.unacked.map fun x => if x.seq = c.seq then d else x }
  ((s.sendCell a b d).bump (cntFab a 1)).pmcCount 5 a 2 1

/-- A match carries a cell: one that waits for resending, before any new one (R300, R305). -/
def State.carry (s : State) (a b : Nat) : State :=
  let s := s.pmcCount 5 a 1 1
  match (s.fpair a b).unacked.find? s.canResend with
  | some c => s.resendCell a b c
  | none =>
    match s.pickVoq a b with
    | some k => s.newCell a b k
    | none => s

/-- The requests of all pairs. -/
def State.requests (s : State) : Nat → Nat → Nat :=
  let l := (List.range 256).map fun k => s.request (k / 16) (k % 16)
  fun i j => l.getD (i * 16 + j) 0

/-- The matcher's rounds for one cell time, on the classes reported at its start (R297, R308): the matches, and the pointers
and counts after them. -/
def State.runMatcher (s : State) (req : Nat → Nat → Nat) : List (Nat × Nat) × State :=
  let round := fun made => matchRound req (s.fab.gptr.get 0) (s.fab.aptr.get 0) made
  let m1 := round []
  let s' := s.movePointers m1
  let round := fun made => matchRound req (s'.fab.gptr.get 0) (s'.fab.aptr.get 0) made
  let m2 := m1 ++ round m1
  let m3 := m2 ++ round m2
  (m3, s'.countStarve req m3)

/-- The matches of this cell time are known, and those of the cell time before last carry their cells (R297). -/
def State.carryDue (s : State) (made : List (Nat × Nat)) : State :=
  let due := s.fab.dueNow
  runOver due (fun m s => s.carry m.1 m.2) { s with fab := { s.fab with dueNow := s.fab.dueNext, dueNext := made } }

/-- MATCH_CELL_TIME: one cell time passes: the slices report, the matcher matches, and the cells of the matches made two cell
times ago cross. When a copy of the matcher's state fails parity, its matches are void (R297, R308). -/
def execMatchCellTime (parityBad : Bool) (s : State) : Host.Outcome State Fault Refusal :=
  done <|
    let s := s.advance s.cellNs
    let s := { s with fab := { s.fab with cellTime := s.fab.cellTime + 1 } }
    let req := s.requests
    if parityBad then (((s.bump cntMatchErr).countStarve req []).fault 0x30 0 0).carryDue []
    else
      let (made, s) := s.runMatcher req
      s.carryDue made

/-- A pair that has not been matched for STARVE_CT cell times ranks above every class until it is (R299). -/
def execStarvePromote (a b : Slice) (s : State) : Host.Outcome State Fault Refusal :=
  done <|
    let k := a.val * 16 + b.val
    if s.fld .fabMatchCfg 0 0 15 0 ≤ s.fab.starve.get 0 k ∧ !s.fab.promoted.contains k then
      { s with fab := { s.fab with promoted := s.fab.promoted ++ [k] } }
    else s

/-! Reassembly (R301 to R304, R306) -/

/-- An egress claim for a frame whose FFH has arrived (R316, R321). -/
def State.claimEgress (s : State) (f src : Nat) : State :=
  let x := s.frame f
  let p := firstPool x.len
  (s.setFrame f { x with eg := .claiming }).setClaims
    (s.bpm.claims ++ [⟨true, x.outPort / 8, portSet x.outPort, p, p, src, x.outPort * 8 + x.cls, f⟩])

/-- What becomes of the first segment in the region. -/
inductive Take where
  /-- Its bytes leave the region. -/
  | all
  /-- They wait for the frame's egress buffer. -/
  | wait
  deriving DecidableEq, Repr

/-- The first segment of a cell in the region: bytes of a frame that is gone are passed over, a frame whose FFH is whole
claims its buffer, and a frame whose last byte is appended goes to its egress queue (R303, R321, R336). -/
def State.takeSeg (s : State) (src : Nat) (g : Seg) : State × Take :=
  let x := s.frame g.frame
  if x = {} then (s, .all)
  else
    let s := if x.eg = .none ∧ 16 ≤ g.off + g.len then s.claimEgress g.frame src else s
    match (s.frame g.frame).eg with
    | .claiming => (s, .wait)
    | .filling => if g.off + g.len = x.streamLen then (s.enqueue g.frame, .all) else (s, .all)
    | _ => (s, .all)

/-- The segments of a cell leave the region in order: those that stay. -/
def State.takeSegs (s : State) (src : Nat) : List Seg → State × List Seg
  | [] => (s, [])
  | g :: rest =>
    match s.takeSeg src g with
    | (t, .all) => t.takeSegs src rest
    | (t, .wait) => (t, g :: rest)

/-- Cells of a pair leave the region in SEQ order until one waits (R303, R304). -/
def State.drainCells (s : State) (a b : Nat) : Nat → State
  | 0 => s
  | n + 1 =>
    match (s.fpair a b).region with
    | [] => s
    | c :: rest =>
      if c.poison then (s.modFpair a b fun p => { p with region := rest, left := (c.seq + 1) % 65536 }).drainCells a b n
      else
        match s.takeSegs a c.segs with
        | (t, []) => (t.modFpair a b fun p => { p with region := rest, left := (c.seq + 1) % 65536 }).drainCells a b n
        | (t, segs) => t.modFpair a b fun p => { p with region := { c with segs := segs } :: rest }

/-- Let what can leave the region of (a, b) leave it. -/
def State.drain (s : State) (a b : Nat) : State := s.drainCells a b (s.fpair a b).region.length

/-- Every region of egress slice b. -/
def State.drainSlice (s : State) (b : Nat) : State := runOver (List.range 16) (fun a s => s.drain a b) s

/-- Held cells are placed while no gap is before them (R303). -/
def placeHeld (p : Pair) : Nat → Pair
  | 0 => p
  | n + 1 =>
    match p.held.find? fun c => c.seq = p.expect with
    | some c => placeHeld { p with held := p.held.filter (fun x => x.seq ≠ c.seq), region := p.region ++ [c]
                                   expect := (p.expect + 1) % 65536 } n
    | none => p

/-- SEQ `q` has arrived, clean or not. -/
def Pair.see (p : Pair) (q : Nat) : Pair := if seqBefore q p.seen then p else { p with seen := (q + 1) % 65536 }

/-- A NAK is sent (R305). -/
def Pair.nak (p : Pair) (q : Nat) : Pair := { p with naks := p.naks ++ [q] }

/-- A clean cell: a duplicate is dropped, a cell after a gap is held with a NAK for each missing SEQ that has none yet
(R303, R305). -/
def State.placeCell (s : State) (a b : Nat) (c : Cell) : State :=
  let p := s.fpair a b
  if seqBefore c.seq p.expect ∨ p.held.any fun x => x.seq = c.seq then s.bump (cntFab b 3)
  else
    let missing := (seqFrom p.seen c.seq)
    let p := missing.foldl Pair.nak p
    let p := { p.see c.seq with held := p.held ++ [c] }
    (s.setFpair a b (placeHeld p p.held.length)).drain a b

/-- Whether an injected corruption waits for a plane in use: the first such plane (R440). -/
def State.corruptPlane (s : State) : Option Nat :=
  (s.units.planes.pos.filterMap id).find? fun k => s.flt.corrupt.get 0 k ≠ 0

/-- A cell fails: a NAK is sent for it (R305, R307). -/
def State.badCell (s : State) (a b seq : Nat) : State :=
  (s.modFpair a b fun p => (p.see seq).nak seq).bump (cntFab b 2)

/-- The physical plane that carries beat n of a cell (R294). -/
def Cell.planeOf (c : Cell) (n : Nat) : Nat := c.planes.getD (n % c.planes.length) 0

/-- Each beat that fails its CRC is an event of the plane that carried it (R307). -/
def State.beatErrors (s : State) (c : Cell) (beats : List Nat) : State :=
  runOver beats (fun n s => (s.bump (cntPlaneErr (c.planeOf n))).fault (c.planeOf n) 0 0) s

/-- A cell of which some beats or the header fail (R305, R307). -/
def State.failedCell (s : State) (a b : Nat) (c : Cell) (e : CellError) : State :=
  let beats := (List.range 32).filter fun n => e.beats.any fun x => x.val = n
  let s := (s.badCell a b c.seq).beatErrors c beats
  if e.header && !beats.contains 0 then s.fault (0x20 + a) 0 0 else s

/-- A cell arrives that the planes and the port have not hurt: one injected corruption may hurt it (R440). -/
def State.cleanCell (s : State) (a b : Nat) (c : Cell) : State :=
  match s.corruptPlane with
  | some k => (((s.takeCorrupt k).2.badCell a b c.seq).bump (cntPlaneErr k)).fault k 0 0
  | none =>
    match s.takeCorrupt (0x20 + a) with
    | (true, s) => (s.badCell a b c.seq).fault (0x20 + a) 0 0
    | (false, s) => s.placeCell a b c

/-- CELL_RECEIVE: the first cell on the planes with this SEQ arrives (R303 to R307). -/
def execCellReceive (a b : Slice) (seq : BitVec 16) (err : CellError) (s : State) : Host.Outcome State Fault Refusal :=
  done <|
    let p := s.fpair a b
    match p.flying.find? fun c => c.seq = seq.toNat with
    | none => s
    | some c =>
      let s := s.setFpair a b { p with flying := p.flying.eraseP fun c => c.seq = seq.toNat }
      if err.beats.isEmpty && !err.header then s.cleanCell a b c else s.failedCell a b c err

/-! Acknowledgements and resends (R304 to R306, R323) -/

/-- Frames with bytes in these cells. -/
def framesIn (l : List Cell) : List Nat := (l.flatMap fun c => c.segs.map Seg.frame).eraseDups

/-- CELL_ACK: the cumulative acknowledgement frees the cells up to it, and the names of the frames of which every cell
is acknowledged (R304, R323). -/
def execCellAck (a b : Slice) (s : State) : Host.Outcome State Fault Refusal :=
  done <|
    let s := s.drain a b
    let p := s.fpair a b
    let gone := p.unacked.filter fun c => seqBefore c.seq p.left
    let kept := p.unacked.filter fun c => !seqBefore c.seq p.left
    let tooMany := (framesIn gone).filter fun f =>
      !(framesIn kept).contains f && !(s.bpm.voqs.any fun _ v => v.order.contains f)
    let s := s.setFpair a b { p with unacked := kept, naks := p.naks.filter fun q => kept.any fun c => c.seq = q }
    (runOver tooMany (fun f s => s.clearName f) s).panicSync

/-- A cell's transmission has failed once more; it waits to be sent again (R305, R306). -/
def State.failCell (s : State) (a b seq : Nat) : State :=
  s.modFpair a b fun p => { p with unacked := p.unacked.map fun c =>
    if c.seq = seq ∧ !c.resend then { c with failed := c.failed + 1, resend := true } else c }

/-- CELL_NAK: a NAK reaches the ingress slice (R305). -/
def execCellNak (a b : Slice) (seq : BitVec 16) (s : State) : Host.Outcome State Fault Refusal :=
  done <|
    let p := s.fpair a b
    if p.naks.contains seq.toNat then
      (s.setFpair a b { p with naks := p.naks.erase seq.toNat }).failCell a b seq.toNat
    else s

/-- CELL_RETX_TIMEOUT: a cell has been neither acknowledged nor NAKed for RTO_CT cell times (R305). -/
def execCellRetxTimeout (a b : Slice) (seq : BitVec 16) (s : State) : Host.Outcome State Fault Refusal :=
  done <|
    if (s.fpair a b).unacked.any fun c => c.seq = seq.toNat && !c.resend &&
        s.fld .fabRetxCfg 0 0 19 8 ≤ s.fab.cellTime - c.sentAt then s.failCell a b seq.toNat
    else s

/-- CELL_POISON: a cell that has failed RETRY_MAX times goes out void, and its frames are discarded (R306). -/
def execCellPoison (a b : Slice) (seq : BitVec 16) (s : State) : Host.Outcome State Fault Refusal :=
  done <|
    match (s.fpair a b).unacked.find? fun c => c.seq = seq.toNat && !c.poison && s.retryMax ≤ c.failed with
    | none => s
    | some c =>
      let s := s.modFpair a b fun p => { p with unacked := p.unacked.map fun x =>
        if x.seq = c.seq then { x with poison := true, resend := true } else x }
      -- every frame with a byte in the cell that is still in the device
      let lost := (framesIn [c]).filter fun f => s.frame f ≠ {}
      ((runOver lost (fun f s => (s.bump (cntFab a 4)).discard f) s).drain a b).panicSync

/-! Planes (R309, R310) -/

/-- A check begins on the lowest spare, or none is left (R309, R424). -/
def State.startPlaneCheck (s : State) (p : Nat) : State :=
  let check := match s.units.planes.spares 18 with
    | v :: _ => some ⟨p, v, s.fab.cellTime⟩
    | [] => none
  { s with fab := { s.fab with check := check } }

/-- PLANE_CHECK_END: 4,096 cell times of compare end; a good spare takes the logical plane, a bad one is retired and the
check restarts with the next (Table 09.6). -/
def execPlaneCheckEnd (good : Bool) (s : State) : Host.Outcome State Fault Refusal :=
  done <|
    match s.fab.check with
    | none => s
    | some c =>
      if good then
        let left := c.n0 + 4096 - s.fab.cellTime
        let s := s.advance (left * s.cellNs)
        let s := { s with
          fab := { s.fab with check := none, cellTime := s.fab.cellTime + left }
          units := { s.units with planes := s.units.planes.swap c.plane (some c.spare) } }
        s.noteRetired c.plane c.spare
      else
        let s := { s with units := { s.units with planes := { s.units.planes with retired := s.units.planes.retired ++ [c.spare] } } }
        let s := (s.rejectSpare c.spare).startPlaneCheck c.plane
        if s.fab.check.isSome then s else s.degrade c.plane

/-- PLANE_REMOVE: a permanent plane with no spare left gives up its logical position; the last one is a critical fault
instead (R310). -/
def execPlaneRemove (k : Fin 18) (s : State) : Host.Outcome State Fault Refusal :=
  done <|
    let m := s.units.planes
    if !s.flt.running.contains k.val ∨ !m.pos.contains (some k.val) ∨ !(m.spares 18).isEmpty ∨ s.fab.check.isSome then s
    else if s.planesInUse = 1 then s.criticalLine 0x4F2
    else ({ s with units := { s.units with planes := m.swap k.val none } }).endRetirement k

end Sys2Proof.Machine
end

