-- ==== Sys2Proof/Machine/Buffers.lean ====
section
/-! DEFINITION. The buffer pool manager: entitlement, grants, spill writes and the return path (R315 to R330). -/

namespace Sys2Proof.Machine

/-! Entitlement (R318, R319) -/

/-- Buffers that an owner of class c reserves in a pool (R318). -/
def State.reserve (s : State) (egress : Bool) (c pool : Nat) : Nat :=
  s.fld (if egress then .bpmEclsCfg else .bpmIrsv) 0 c (8 * pool + 7) (8 * pool)

/-- Charges in a pool of a set, by owner. -/
def State.poolCharges (s : State) (egress : Bool) (slice set pool : Nat) : List (Nat × Nat) :=
  (s.bpm.charged.cells.filter fun c => c.1 / 4096 = (boolBit egress * 16 + slice) * 2 + set && c.1 % 4 = pool).map
    fun c => (c.1 / 4 % 1024, c.2)

/-- Owners of each class in a set: every egress port at ingress, the set's four ports at egress (R317). -/
def ownersPerClass (egress : Bool) : Nat := if egress then 4 else 128

/-- Key of a pool. -/
def poolKey (egress : Bool) (slice set pool : Nat) : Nat := ((boolBit egress * 16 + slice) * 2 + set) * 4 + pool

/-- Indexes of the buffers of a pool that frames hold. -/
def State.heldIdx (s : State) (egress : Bool) (slice set pool : Nat) : List Nat :=
  if egress then
    (s.frames.cells.filter fun c => c.2.ebuf = some pool && c.2.outPort / 8 = slice && portSet c.2.outPort = set).map fun c => c.2.ebufIdx
  else s.bpm.bufs.cells.filterMap fun c =>
    (c.2.filter fun b => b.slice = slice && b.set = set && b.pool = pool).map IngBuf.idx

/-- Buffers that have left a pool: withdrawn, and the frame that held them has left (Table 13.5). -/
def State.goneFree (s : State) (egress : Bool) (slice set pool : Nat) : List Nat :=
  (s.bpm.gone.get [] (poolKey egress slice set pool)).filter fun n =>
    n < s.poolCount egress pool && !(s.heldIdx egress slice set pool).contains n

/-- A free buffer of a pool: the first at or after `v`. DESIGN CHOICE, log entry 118. -/
def State.freeIdx (s : State) (egress : Bool) (slice set pool v : Nat) : Nat :=
  let n := s.poolCount egress pool
  let taken := s.heldIdx egress slice set pool ++ s.bpm.gone.get [] (poolKey egress slice set pool)
  (((List.range (taken.length + 1)).map fun d => (v + d) % n).find? fun k => !taken.contains k).getD 0

/-- A free owner-set entry of a pool set (R322, R325). DESIGN CHOICE, log entry 118. -/
def State.freeOset (s : State) (slice set v : Nat) : Nat :=
  let taken := s.bpm.bufs.cells.filterMap fun c => (c.2.filter fun b => b.slice = slice && b.set = set).bind IngBuf.oset
  (((List.range (taken.length + 1)).map fun d => (v + d) % 1024).find? fun k => !taken.contains k).getD 0

/-- The shared free count S = F − U of a pool (R318). -/
def State.sharedFree (s : State) (egress : Bool) (slice set pool : Nat) : Nat :=
  let l := s.poolCharges egress slice set pool
  let used := l.foldl (fun n c => n + c.2) 0
  let kept := (List.range 8).foldl (fun n c => n + ownersPerClass egress * s.reserve egress c pool) 0
  let held := l.foldl (fun n c => n + min c.2 (s.reserve egress (c.1 % 8) pool)) 0
  s.poolCount egress pool - (s.goneFree egress slice set pool).length - used - (kept - held)

/-- An owner's shared bytes (R319). -/
def State.sharedBytes (s : State) (egress : Bool) (slice set owner : Nat) : Nat :=
  (List.range 4).foldl (fun n p =>
    n + bufSize p * (s.charged egress slice set owner p - s.reserve egress (owner % 8) p)) 0

/-- CAP_KB of a class (R319). -/
def State.capKb (s : State) (egress : Bool) (c : Nat) : Nat :=
  if egress then s.fld .bpmEclsCfg 0 c 43 32 else s.icls c 35 24

/-- UPSIZE of a class (R321). -/
def State.upsize (s : State) (egress : Bool) (c : Nat) : Bool :=
  if egress then s.bit .bpmEclsCfg 0 c 44 else s.bit .bpmIclsCfg 0 c 37

/-- Whether a claim is reserved in a pool (R319). -/
def State.reservedIn (s : State) (c : Claim) (p : Nat) : Bool :=
  s.charged c.egress c.slice c.set c.owner p < s.reserve c.egress (c.owner % 8) p

/-- Whether a claim is entitled in a pool (R319). -/
def State.entitledIn (s : State) (c : Claim) (p : Nat) : Bool :=
  s.reservedIn c p ||
    (1 ≤ s.sharedFree c.egress c.slice c.set p &&
      s.sharedBytes c.egress c.slice c.set c.owner + bufSize p ≤ s.capKb c.egress (c.owner % 8) * 1024)

/-- The requester of the return path, whose claims never discard their frames (R320, R321). -/
abbrev returnPath : Nat := 8

/-- Whether a claim is one of the return path. -/
def Claim.isReturn (c : Claim) : Bool := !c.egress && c.requester = returnPath

/-- The pool in which a claim that is not entitled waits next: the first larger pool where it is entitled; none when it
is entitled nowhere (R321). -/
def State.nextPool (s : State) (c : Claim) : Option Nat :=
  if s.upsize c.egress (c.owner % 8) then (List.range 4).find? fun p => c.pool < p && s.entitledIn c p else none

/-! Grants (R320 to R322) -/

/-- A claim is granted in its pool. -/
def State.grant (s : State) (c : Claim) : State :=
  let s := s.setClaims (s.bpm.claims.erase c)
  let s := if c.pool = c.first then s else s.bump (cntBpm c.slice 3)
  let s := s.charge c.egress c.slice c.set c.owner c.pool
  let x := s.frame c.frame
  let (v, s) := s.draw 26
  let idx := s.freeIdx c.egress c.slice c.set c.pool (v.toNat / 1024)
  let s := s.bufWrite c.egress c.slice c.set c.pool idx
  if c.egress then
    let s := s.setFrame c.frame { x with eg := .filling, ebuf := some c.pool, ebufIdx := idx }
    (s.flowControl x.outPort x.cls).drain c.requester c.slice
  else
    let names := if c.isReturn then [c.frame] else s.claimants x.group
    let oset := if 1 < names.length then some (s.freeOset c.slice c.set v.toNat) else none
    let b : IngBuf := ⟨c.slice, c.set, c.owner, c.pool, idx, names, oset⟩
    let s := { s with bpm := { s.bpm with bufs := s.bpm.bufs.set none c.frame (some b) } }
    runOver names (fun f s => s.modFrame f fun x => { x with ing := .onDie }) s

/-- A claim that was not entitled at the start of the cycle moves to a larger pool, or its frame is discarded (R321). -/
def State.turnAway (s : State) (c : Claim) (next : Option Nat) : State :=
  if c.isReturn then s else
  match next with
  | some p => s.setClaims (s.bpm.claims.map fun d => if d = c then { c with pool := p } else d)
  | none =>
    if c.egress then ((s.bump (cntBpm c.slice 2)).discard c.frame).drain c.requester c.slice
    else (s.bump (cntBpm c.slice 1)).discard c.frame

/-- Rank of an entitled claim: reserved claims first, then the lower requester (R320). -/
def State.claimRank (s : State) (c : Claim) : Nat := (if s.reservedIn c c.pool then 0 else 16) + c.requester

/-- The claim that a pool grants: the oldest of the least rank. -/
def State.bestClaim (s : State) (l : List Claim) : Option Claim :=
  l.foldl (fun (best : Option Claim) c =>
    match best with
    | some b => if s.claimRank c < s.claimRank b then some c else best
    | none => some c) none

/-- POOL_GRANT: one cycle of a pool, on the counts at its start. -/
def execPoolGrant (side : Side) (slice : Slice) (set : Fin 2) (pool : Fin 4) (s : State) : Host.Outcome State Fault Refusal :=
  done <|
    let here := s.bpm.claims.filter fun c =>
      c.egress = decide (side = .egress) && c.slice = slice.val && c.set = set.val && c.pool = pool.val
    let refused := (here.filter fun c => !s.entitledIn c c.pool).map fun c => (c, s.nextPool c)
    let s := match s.bestClaim (here.filter fun c => s.entitledIn c c.pool) with
      | some c => s.grant c
      | none => s
    (runOver refused (fun c s => s.turnAway c.1 c.2) s).panicSync

/-! Spill writes and the return path (R327 to R330, R404) -/

/-- The unit of a page of a portion. -/
def Voq.unit (v : Voq) (n w : Nat) : Option (Nat × Nat) := (v.pages.find? fun p => p.1 = n).map fun p => pageUnit p.2 w

/-- The headers of the pages that an item enters. -/
def State.headerUnits (s : State) (x : Frame) : List (Nat × Nat) :=
  (x.itemPages.filter fun n => x.deepOff ≤ 4032 * n).filterMap fun n => (s.voq x.voqKey).unit n 0

/-- The units of an item: its record, and its data. -/
def State.itemUnits (s : State) (x : Frame) : List (Nat × Nat) :=
  (List.range (x.itemBytes / 64)).filterMap fun k =>
    let pos := x.deepOff + 64 * k
    (s.voq x.voqKey).unit (pos / 4032) (1 + pos % 4032 / 64)

/-- SPILL_WRITE_ACK: the first item of its VOQ in the spill write queue is written and joins the deep portion (R327,
R400). -/
def execSpillWriteAck (f : Nat) (s : State) : Host.Outcome State Fault Refusal :=
  done <|
    let x := s.frame f
    let first := (s.bpm.spillQ.get [] x.slice).find? fun g => (s.frame g).voqKey = x.voqKey
    if x.ing = .spillQ ∧ first = some f then
      let s := runOver (s.headerUnits x ++ s.itemUnits x) (fun u s => s.unitFill u) s
      let s := (s.leaveSpill f).setFrame f { x with ing := .deep }
      let v := s.voq x.voqKey
      s.setVoq x.voqKey { v with deep := v.deep ++ [f] }
    else s

/-- Bytes of a VOQ's items that are being read. -/
def State.readingBytes (s : State) (k : Nat) : Nat := (s.voq k).reading.foldl (fun n f => n + (s.frame f).itemBytes) 0

/-- ONDIE of a VOQ (R326). -/
def State.onDieOf (s : State) (k : Nat) : Nat := s.onDie (k / 1024) (k % 1024)

/-- Whether a VOQ's ONDIE and the items being read are below THR. -/
def State.belowThr (s : State) (k : Nat) : Bool := s.onDieOf k + s.readingBytes k < s.spillThr (k % 8)

/-- The return path of a VOQ stops at THR (R329). -/
def State.returnSync (s : State) (k : Nat) : State :=
  let v := s.voq k
  if v.returning && !s.belowThr k then s.setVoq k { v with returning := false } else s

/-- RETURN_READ: the read of the head of a deep portion starts (R329). -/
def execReturnRead (i : Slice) (p : Port) (c : Fin 8) (s : State) : Host.Outcome State Fault Refusal :=
  done <|
    let k := voqKey i p c
    let v := s.voq k
    let start := s.onDieOf k < s.icls c 11 0 * 1024
    match v.deep with
    | f :: rest =>
      if v.spill && (start || v.returning) && s.belowThr k then
        let s := s.setVoq k { v with deep := rest, reading := v.reading ++ [f], returning := true }
        ((s.modFrame f fun x => { x with ing := .reading }).returnSync k).panicSync
      else s
    | [] => s

/-- A frame in deep buffer is lost to an uncorrectable error. -/
def State.deepDiscard (s : State) (f : Nat) : State := (s.bump (cntDeepDisc (s.frame f).slice)).discard f

/-- Every item that remains in a deep portion is lost (Table 13.4). -/
def State.loseDeep (s : State) (k : Nat) : State :=
  runOver ((s.voq k).reading ++ (s.voq k).deep) (fun f s => s.deepDiscard f) s

/-- Whether the record of an item, or the header of a page that it enters, cannot be read. -/
def State.recordBad (s : State) (x : Frame) : Bool :=
  (s.headerUnits x ++ (s.itemUnits x).take 1).any fun u => s.unitBad u.1 u.2

/-- Whether some of an item's data cannot be read. -/
def State.dataBad (s : State) (x : Frame) : Bool := ((s.itemUnits x).drop 1).any fun u => s.unitBad u.1 u.2

/-- A frame read back claims a buffer, linked behind every frame already placed (R329). -/
def State.linkReturned (s : State) (f : Nat) : State :=
  let x := s.frame f
  let v := s.voq x.voqKey
  let s := s.setVoq x.voqKey { v with reading := v.reading.filter (· ≠ f), order := v.order ++ [f] }
  (s.setFrame f { x with ing := .returning, wasDeep := true }).claimFor f returnPath

/-- RETURN_READ_DONE: the oldest read of a VOQ returns its item, whose frame is claimed and linked, or discarded; with a
record or page header that cannot be read, every item that remains in the portion is lost (R73, R329, R330, R334,
Table 13.4). -/
def execReturnReadDone (f : Nat) (s : State) : Host.Outcome State Fault Refusal :=
  done <|
    let x := s.frame f
    let k := x.voqKey
    if x.ing ≠ .reading ∨ (s.voq k).reading.head? ≠ some f then s else
    let s := s.unitsRead (s.headerUnits x ++ s.itemUnits x)
    let s :=
      if s.recordBad x then s.loseDeep k
      else if s.resLimit < s.age x then s.resDiscard f
      else if s.dataBad x then s.deepDiscard f
      else match s.flushOf f with
        | some w => s.offDiscard f w.suspend
        | none => s.linkReturned f
    let s := (s.settleVoq k).returnSync k
    (s.endFlushes k).panicSync

end Sys2Proof.Machine
end

