-- ==== Sys2Proof/Machine/Micro.lean ====
section
/-! DEFINITION. The control word of the microcoded engines: its fields, its parity, the next address, and the fetch from
ROM, patch RAM and match registers (chapter 08, R256 to R263). Log entry 109. -/

namespace Sys2Proof.Machine

/-- The two kinds of engine (Table 08.1). -/
inductive EngineKind where
  | burin | sequencer
  deriving DecidableEq, Repr

/-- ROM words (Table 08.1). -/
def EngineKind.romSize : EngineKind → Nat
  | .burin => 4096
  | .sequencer => 2048

/-- Patch RAM words (Table 08.1). -/
def EngineKind.patchSize : EngineKind → Nat
  | .burin => 256
  | .sequencer => 128

/-- Word limit: of a frame, or of a step (Table 08.1). -/
def EngineKind.wordLimit : EngineKind → Nat
  | .burin => 64
  | .sequencer => 256

/-- A ROM word. -/
def EngineKind.rom (k : EngineKind) (a : Nat) : Nat :=
  match k with
  | .burin => Config.burRom a % 2 ^ 128
  | .sequencer => Config.seqRom a % 2 ^ 128

/-! Fields (Table 08.2) -/

/-- NEXT. -/
def wordNext (w : Nat) : Nat := bitsOf 127 116 w
/-- NC. -/
def wordNc (w : Nat) : Nat := bitsOf 115 113 w
/-- Condition select Ci. -/
def wordCond (w i : Nat) : Nat := bitsOf (97 + 5 * i) (93 + 5 * i) w
/-- OP. -/
def wordOp (w : Nat) : Nat := bitsOf 92 88 w
/-- MEM. -/
def wordMem (w : Nat) : Nat := bitsOf 74 72 w
/-- CKPT: in Burin it must be 0. -/
def wordCkpt (w : Nat) : Bool := bitOf 71 w
/-- END. -/
def wordEnd (w : Nat) : Bool := bitOf 69 w
/-- XP. -/
def wordXp (w : Nat) : Bool := bitOf 68 w

/-- Whether a word raises ILLEGAL_OP: a reserved NC, OP or MEM (Tables 08.2, 08.3 and 08.5). -/
def illegalOp (w : Nat) : Bool := 4 < wordNc w || 12 < wordOp w || 5 < wordMem w

/-! Parity (R257) -/

/-- Even parity of the bits of a number below 2^64. -/
def parityBit (v : Nat) : Bool := (List.range 64).foldl (fun p i => p ^^ v.testBit i) false

/-- A word with its parity bits, as the loader stores it (Table 08.4). -/
def storeWord (w : Nat) : ControlWord := ⟨w, parityBit (w % 2 ^ 64), parityBit (w / 2 ^ 64)⟩

/-- Whether both parity bits hold at a fetch. -/
def ControlWord.sound (c : ControlWord) : Bool := storeWord c.bits = c

/-! Addresses (R258, R259) -/

/-- The patch index of the valid match register that names a ROM address. -/
def Patch.hit (p : Patch) (a : Nat) : Option Nat :=
  (p.matches_.find? fun m => bitOf 31 m && bitsOf 27 16 m = a).map fun m => bitsOf 7 0 m

/-- What a fetch at an address reads: a word from ROM or from patch RAM, a word of patch RAM that no bundle has written, or
nothing, which is ILLEGAL_ADDR. -/
inductive Fetched where
  | rom (w : Nat)
  | patch (c : ControlWord)
  | unwritten
  | illegal
  deriving DecidableEq, Repr

/-- A word of patch RAM. -/
def Patch.at_ (p : Patch) (i : Nat) : Fetched :=
  match p.words[i]? with
  | some c => .patch c
  | none => .unwritten

/-- The fetch at address a: in patch RAM when the word before had XP, and otherwise in ROM space, where a match register
overrides the ROM (R258, R259). -/
def Patch.fetch (p : Patch) (k : EngineKind) (xp : Bool) (a : Nat) : Fetched :=
  if xp then (if a < k.patchSize then p.at_ a else .illegal)
  else
    match p.hit a with
    | some i => p.at_ i
    | none => if a < k.romSize then .rom (k.rom a) else .illegal

/-- The next address after word w, given what each condition select reads: C0 goes into bit 0 (R258). -/
def nextAddr (w : Nat) (cond : Nat → Bool) : Nat :=
  (List.range (wordNc w)).foldl (fun a i => a ||| boolBit (cond (wordCond w i)) * 2 ^ i) (wordNext w)

/-- Whether a machine check of this cause can be taken at an address, where `inPatch` says that the word came from patch RAM
(R258, Table 08.5): an address that reads nothing for ILLEGAL_ADDR, a word that is illegal for ILLEGAL_OP, and a word for
the others. A self-test has its own report. -/
def Patch.mayCheck (p : Patch) (k : EngineKind) (cause a : Nat) (inPatch : Bool) : Bool :=
  let here := if inPatch then (if (p.hit a).isSome then p.fetch k false a else p.fetch k true a) else p.fetch k false a
  let source := match here with
    | .rom _ => !inPatch
    | .patch _ | .unwritten => inPatch
    | .illegal => false
  match cause with
  | 2 => here = .illegal
  | 3 => source && (match here with
    | .rom w => illegalOp w
    | .patch c => illegalOp c.bits
    | .unwritten => true
    | .illegal => false)
  | 1 | 4 | 5 => source
  | _ => false

end Sys2Proof.Machine
end

