-- ==== Sys2Proof/Machine/Burin.lean ====
section
/-! DEFINITION. Burin: rewriting a frame into its output, threads, machine checks, self-tests and the release of frames
(chapter 08, R358 to R361). -/

namespace Sys2Proof.Machine

/-! Rewriting (R269 to R278, R281, R282, R359, R360) -/

/-- What a rewrite reads besides the frame's bytes. -/
structure RewriteIn where
  /-- BUR_PROG of the program. -/
  prog : Nat
  cls : Nat
  /-- Congestion mark (R281). -/
  ecn : Bool
  /-- Constant Profile slot size. -/
  slot : Option Nat
  filler : Bool
  /-- PAD_NONIP. -/
  padNonIp : Bool
  /-- TAG of BUR_PORT_CFG. -/
  portTag : Nat
  /-- FLAGS and REWRITE_DATA of the circuit version. -/
  flags : Nat
  data : Bytes
  /-- AN and SCI_SPI of the transmit SA. -/
  an : Nat
  sciSpi : Bytes
  /-- Free DSCP and ECN bits for the outer header of a dummy packet, which has no inner header. -/
  free : Nat

/-- Why Burin discards a frame: a counter of Table 08.19, or CPS_NONIP_DISC_CNT. -/
inductive BurinDrop where
  | tag | nonIp | padding
  deriving DecidableEq, Repr

/-- KIND of a program. -/
def progKind (v : Nat) : Nat := bitsOf 30 28 v
/-- TAGOP of a program. -/
def progTagOp (v : Nat) : Nat := bitsOf 27 26 v

/-- The inserted tags (R273). -/
def RewriteIn.inserted (r : RewriteIn) : List Bytes :=
  let tags := if progKind r.prog = 0 then [beBytes 4 r.portTag]
    else ([sliceOf r.data 0x10 4, sliceOf r.data 0x14 4]).take (byteAt r.data 0x0C)
  if bitOf 25 r.prog then tags.map fun t => putAt t 2 [BitVec.ofNat 8 (r.cls * 32 + byteAt t 2 % 32)] else tags

/-- Input tags of a frame; a filler frame has none (R360). -/
def RewriteIn.inputTags (r : RewriteIn) (bs : Bytes) : List Bytes :=
  if r.filler then [] else (List.range (leadTags bs)).map fun k => sliceOf bs (12 + 4 * k) 4

/-- Offset of a frame's EtherType. -/
def RewriteIn.typeAt (r : RewriteIn) (bs : Bytes) : Nat := if r.filler then 12 else typeOff bs

/-- The output tags (R273); none when PUSH would give more than 2. -/
def RewriteIn.tags (r : RewriteIn) (bs : Bytes) : Option (List Bytes) :=
  match progTagOp r.prog with
  | 0 => some (r.inputTags bs)
  | 1 => some []
  | 2 => some r.inserted
  | _ => if 2 < (r.inputTags bs).length + r.inserted.length then none else some (r.inserted ++ r.inputTags bs)

/-- Set CE in an ECN-capable IP header of a marked frame (R281). -/
def markCe (bs : Bytes) : Bytes :=
  let t := typeOff bs
  let ip := bs.drop (t + 2)
  let ok := (beAt bs t 2 = 0x0800 && 20 ≤ ip.length && ipVersion ip = 4) || (beAt bs t 2 = 0x86DD && 40 ≤ ip.length && ipVersion ip = 6)
  if ok && (ecnOf ip = 1 || ecnOf ip = 2) then bs.take (t + 2) ++ setEcn ip 3 else bs

/-- Whether the frame is IP by its EtherType. -/
def isIp (bs : Bytes) : Bool := beAt bs (typeOff bs) 2 = 0x0800 || beAt bs (typeOff bs) 2 = 0x86DD

/-- The frame's IP packet without Ethernet padding; none when R276 discards the frame. -/
def ipPacket (bs : Bytes) : Option Bytes :=
  let t := typeOff bs
  let ip := bs.drop (t + 2)
  if beAt bs t 2 = 0x0800 then
    if ip.length < beAt ip 2 2 || ihlBytes ip < 20 || beAt ip 2 2 < ihlBytes ip then none else some (ip.take (beAt ip 2 2))
  else if beAt bs t 2 = 0x86DD then (if ip.length < 40 + beAt ip 4 2 then none else some (ip.take (40 + beAt ip 4 2)))
  else none

/-- ESP padding bytes 1, 2, 3 (R227). -/
def espPad (n : Nat) : Bytes := (List.range n).map fun k => BitVec.ofNat 8 (k + 1)

/-- Padding that makes n bytes of payload and the trailer a multiple of 4. -/
def espPadLen (n : Nat) : Nat := (4 - (n + 2) % 4) % 4

/-- The SecTAG with PN 0 (R225, R277). -/
def RewriteIn.secTag (r : RewriteIn) (secure : Nat) : Bytes :=
  let sc := bitOf 0 r.flags
  let conf := boolBit (bitOf 3 r.flags)
  let tci := boolBit (bitOf 1 r.flags) * 64 + boolBit sc * 32 + boolBit (bitOf 2 r.flags) * 16 + conf * 12 + r.an
  [0x88, 0xE5, BitVec.ofNat 8 tci, BitVec.ofNat 8 (if secure < 48 then secure else 0)] ++ zeros 4 ++
    (if sc then sliceOf r.sciSpi 0 8 else [])

/-- Output of a MACSEC program (Table 08.8, R359). -/
def RewriteIn.macsec (r : RewriteIn) (bs : Bytes) (tags : Bytes) : BurinDrop ⊕ Output :=
  let clear := bitOf 4 r.flags
  let rest := bs.drop (r.typeAt bs)
  let body := if clear then rest else tags ++ rest
  let off := 12 + if clear then tags.length else 0
  let tagLen := if bitOf 0 r.flags then 16 else 8
  let wire := off + tagLen + body.length + 16 + 4
  let pad := (r.slot.map fun n => n - wire).getD 0
  if 0 < pad && !r.filler && !isIp bs && !r.padNonIp then .inl .padding
  else
    let secure := body ++ zeros pad
    .inr { bytes := sliceOf bs 0 12 ++ (if clear then tags else []) ++ r.secTag secure.length ++ secure ++ zeros 16
           secOff := off, encOff := off + tagLen, encLen := secure.length, tfcLen := pad, kind := 1 }

/-- The outer IP header of an ESP tunnel packet with `n` bytes after it (R275, R282). -/
def RewriteIn.outer (r : RewriteIn) (dscp ecn n : Nat) : Bytes :=
  let d := r.data
  let ds := if bitOf 23 r.prog then byteAt d 0x41 % 64 else dscp
  let ec := if bitOf 24 r.prog then 0 else ecn
  let tc := ds * 4 + ec
  if bitOf 5 r.flags then
    beBytes 4 (6 * 2 ^ 28 + tc * 2 ^ 20 + beAt d 0x44 4 % 2 ^ 20) ++ beBytes 2 n ++ [50] ++ sliceOf d 0x40 1 ++ sliceOf d 0x20 16
      ++ sliceOf d 0x30 16
  else
    fixIpv4 ([0x45, BitVec.ofNat 8 tc] ++ beBytes 2 (20 + n) ++ [0, 0, 0x40, 0] ++ sliceOf d 0x40 1 ++ [50, 0, 0]
      ++ sliceOf d 0x20 4 ++ sliceOf d 0x30 4)

/-- Output of an ESP_TUNNEL program around an inner packet (Tables 08.8 and R359, R360). -/
def RewriteIn.tunnel (r : RewriteIn) (tags inner : Bytes) (next dscp ecn : Nat) : Output :=
  let v6 := bitOf 5 r.flags
  let head := 12 + tags.length + 2 + (if v6 then 40 else 20)
  let tfc := (r.slot.map fun n => n - (head + 16 + inner.length + 2 + 16 + 4)).getD 0
  let pad := if r.slot.isSome then 0 else espPadLen inner.length
  let enc := inner ++ zeros tfc ++ espPad pad ++ [BitVec.ofNat 8 pad, BitVec.ofNat 8 next]
  { bytes := sliceOf r.data 0 12 ++ tags ++ (if v6 then [0x86, 0xDD] else [0x08, 0x00]) ++ r.outer dscp ecn (16 + enc.length + 16)
      ++ sliceOf r.sciSpi 0 4 ++ zeros 12 ++ enc ++ zeros 16
    secOff := head, encOff := head + 16, encLen := enc.length, padLen := pad, tfcLen := tfc, kind := 2 }

/-- Output of an ESP_TRANSPORT program around an IPv4 or IPv6 packet (Table 08.8, R276). -/
def RewriteIn.transport (r : RewriteIn) (v4 : Bool) (tags type pkt : Bytes) : Output :=
  let hl := if v4 then ihlBytes pkt else 40
  let payload := pkt.drop hl
  let next := byteAt pkt (if v4 then 9 else 6)
  let pad := espPadLen payload.length
  let enc := payload ++ espPad pad ++ [BitVec.ofNat 8 pad, BitVec.ofNat 8 next]
  let n := 16 + enc.length + 16
  let h := pkt.take hl
  let h := if v4 then fixIpv4 (putAt (putAt h 9 [50]) 2 (beBytes 2 (hl + n))) else putAt (putAt h 6 [50]) 4 (beBytes 2 n)
  let off := 12 + tags.length + 2 + hl
  { bytes := sliceOf r.data 0 12 ++ tags ++ type ++ h ++ sliceOf r.sciSpi 0 4 ++ zeros 12 ++ enc ++ zeros 16
    secOff := off, encOff := off + 16, encLen := enc.length, padLen := pad, kind := 3 }

/-- Burin's output for a frame's bytes from DA to the byte before the FCS (R269 to R277). -/
def RewriteIn.run (r : RewriteIn) (input : Bytes) : BurinDrop ⊕ Output :=
  let bs := if r.ecn then markCe input else input
  match r.tags bs with
  | none => .inl .tag
  | some l =>
    let tags := l.flatten
    let v4 : Bool := beAt bs (typeOff bs) 2 = 0x0800
    match progKind r.prog with
    | 0 => .inr { bytes := sliceOf bs 0 12 ++ tags ++ bs.drop (r.typeAt bs) }
    | 1 => r.macsec bs tags
    | 2 =>
      if r.filler then .inr (r.tunnel tags (bs.drop 14) 59 (r.free / 4 % 64) (r.free % 4)) else
      match ipPacket bs with
      | some p => .inr (r.tunnel tags p (if v4 then 4 else 41) (dscpBy v4 p) (ecnBy v4 p))
      | none => .inl .nonIp
    | _ =>
      match ipPacket bs with
      | some p =>
        if !v4 && byteAt p 6 = 0 then .inl .nonIp
        else .inr (r.transport v4 tags (sliceOf bs (typeOff bs) 2) p)
      | none => .inl .nonIp

/-- The rewrite of a frame, with its own free bits (R269). -/
def State.rewriteOf (s : State) (x : Frame) (free : Nat) : RewriteIn :=
  let p := x.outPort
  let cfg := s.reg .burPortCfg 0 p
  let key := x.circuit.bind fun c => s.cacheKey c x.gen
  let sa := key.bind fun k => s.saOf k.sa
  let v := x.circuit.bind fun c => s.cirAt c x.gen
  { prog := s.reg .burProg 0 (if x.prog = 0xFFFF then bitsOf 9 0 cfg else x.prog)
    cls := x.cls, ecn := x.ecn, slot := x.slot.map Prod.fst, filler := x.origin = .filler
    padNonIp := (x.circuit.bind fun c => s.cps.get none c).any fun q => bitOf 1 q.flags
    portTag := bitsOf 63 32 cfg, flags := (v.map fun v => v.flags).getD 0, data := (v.map fun v => v.data).getD []
    an := (sa.map fun a => a.an).getD 0, sciSpi := (sa.map fun a => a.sciSpi).getD [], free := free }

/-! Threads (R264, R279, R280) -/

/-- Frames of slice i that are selected and not released, in selection order. -/
def State.selIn (s : State) (i : Nat) : List Nat := s.bur.sel.get [] i

/-- Replace them. -/
def State.setSel (s : State) (i : Nat) (l : List Nat) : State := { s with bur := { s.bur with sel := s.bur.sel.set [] i l } }

/-- A free thread of the lowest-numbered active engine that has one. -/
def State.freeThread (s : State) (i : Nat) : Option (Nat × Nat) :=
  (s.engMap i).active.findSome? fun e =>
    (firstBelow 4 fun k => ((s.engine i e).threads.getD k none).isNone).map fun k => (e, k)

/-- Put a frame on a thread. -/
def State.putThread (s : State) (i e k : Nat) (f : Option Nat) : State :=
  s.setEngine i e { s.engine i e with threads := (s.engine i e).threads.set k f }

/-- The next selected frame takes a free thread, when there is one. -/
def State.startRewrite (s : State) (i : Nat) : State :=
  match (s.selIn i).find? fun f => (s.frame f).eg = .selected, s.freeThread i with
  | some f, some (e, k) =>
    let x := s.frame f
    -- a buffer that cannot be read ends in an integrity discard (R38, R411); the counter is the model's choice: log entry 112
    if x.ebuf.any fun p => s.bufBad true i (portSet x.outPort) p x.ebufIdx then (s.bump (cntGlz i 1)).discard f else
    (s.putThread i e k (some f)).modFrame f fun x => { x with eg := .burin, burEngine := e, burThread := k }
  | _, _ => s

/-- A Burin thread takes a selected frame (R269, R279). Engines stop in SAFE. -/
def execBurinRewrite (i : Slice) (s : State) : Host.Outcome State Fault Refusal :=
  done <| if s.mode = .safe then s else s.startRewrite i

/-- The MAC side takes a released frame: protected frames go to the dispatcher, others are ready with the proof of their
bypass class (R93, R224, R280). -/
def State.release (s : State) (f : Nat) : State :=
  let x := s.frame f
  let i := x.outPort / 8
  let s := s.setPort x.outPort { s.port x.outPort with path := (s.port x.outPort).path ++ [f] }
  if x.circuit.isSome then ((s.setFrame f { x with eg := .dispatch }).setWaiting i (s.waitingIn i ++ [f])).dispatch i
  else
    let proof := match x.byp with
      | some k => Proof.bypass k
      | none => .none
    s.setFrame f { x with eg := .ready, proof := proof }

/-- Frames leave Burin in selection order (R280). -/
def State.releaseAll (s : State) (i : Nat) : Nat → State
  | 0 => s
  | n + 1 =>
    match s.selIn i with
    | f :: rest => if (s.frame f).eg = .rewritten then ((s.setSel i rest).release f).releaseAll i n else s
    | [] => s

/-- Release what can be released in slice i. -/
def State.burinRelease (s : State) (i : Nat) : State := s.releaseAll i (s.selIn i).length

/-- Burin discards a frame: it releases no output and takes no number (R280). -/
def State.burinDrop (s : State) (f : Nat) (why : BurinDrop) : State :=
  let i := (s.frame f).outPort / 8
  let k := match why with
    | .tag => cntBur i 4
    | .nonIp => cntBur i 5
    | .padding => cntCps i 4
  (s.bump k).discard f

/-! Machine checks, self-tests and retirement (R262 to R266) -/

/-- Fault source of an engine. -/
def engineSource (i e : Nat) : Nat := 0x1C0 + 5 * i + e

/-- The contents of BUR_MCHK or SEQ_MCHK (Table 08.18). -/
def mchkWord (cause : Nat) (inPatch : Bool) (addr thread engine : Nat) : Nat :=
  cause * 2 ^ 28 + boolBit inPatch * 2 ^ 27 + addr * 2 ^ 12 + thread * 8 + engine

/-- Fence an engine: the frames on its threads restart in selection order on free threads (R264). -/
def State.fenceEngine (s : State) (i e : Nat) : State :=
  let cut := (s.selIn i).filter fun f => (s.engine i e).threads.contains (some f)
  let s := s.setEngMap i ((s.engMap i).fence e)
  let s := s.setEngine i e { s.engine i e with threads := [none, none, none, none] }
  runOver cut (fun f s =>
    ((s.modFrame f fun x => { x with eg := .selected }).bump (cntBur i 2) |>.pmcCount 3 i 3 1).startRewrite i) s

/-- A thread takes a machine check: its engine is fenced, and a frame's third attempt is its last (R263, R264). -/
def State.threadCheck (s : State) (i e k cause addr : Nat) (inPatch : Bool) : State :=
  match (s.engine i e).threads.getD k none with
  | none => s
  | some f =>
    let s := (s.setReg .burMchk i 0 (mchkWord cause inPatch addr k e)).bump (cntBur i 1)
    let s := s.fault (engineSource i e) cause 0
    let n := (s.frame f).burAttempts + 1
    let s := s.modFrame f fun x => { x with burAttempts := n }
    let s := if 3 ≤ n then (s.bump (cntBur i 3)).discard f else s
    s.fenceEngine i e

/-- The oldest running rewrite of a slice ends (R273 to R280). -/
def State.endRewrite (s : State) (i : Nat) : State :=
  match (s.selIn i).find? fun f => (s.frame f).eg = .burin with
  | none => s.burinRelease i
  | some f =>
    let x := s.frame f
    let (c, s) := s.takeCorrupts (engineSource i x.burEngine) 3
    if c = 3 then
      let (a, s) := s.draw 12
      (s.threadCheck i x.burEngine x.burThread 1 a.toNat false).burinRelease i
    else
    let s := if c = 0 then s else s.bump (cntBur i 0)
    let (free, s) := if x.origin = .filler then s.draw 8 else (0, s)
    let s := s.putThread i x.burEngine x.burThread none
    let s := match (s.rewriteOf x free.toNat).run x.bytes with
      | .inl why => s.burinDrop f why
      | .inr o =>
        let most := if s.black x.outPort then 10368 else 10240
        if most < o.bytes.length + 4 then (s.bump (cntBur i 6)).discard f
        else s.setFrame f { x with eg := .rewritten, output := o }
    s.burinRelease i

/-- A Burin rewrite ends (R280). -/
def execBurinRewriteEnd (i : Slice) (s : State) : Host.Outcome State Fault Refusal :=
  done <| if s.mode = .safe then s else s.endRewrite i

/-- A machine check on a thread, of a cause that its address can have (R258, R263, R264). -/
def execBurinMachineCheck (i : Slice) (e : Fin 5) (k : Fin 4) (cause : Fin 7) (addr : BitVec 12) (inPatch : Bool) (s : State) :
    Host.Outcome State Fault Refusal :=
  done <| if !s.bur.patch.mayCheck .burin cause addr.toNat inPatch then s else (s.threadCheck i e k cause addr.toNat inPatch).burinRelease i

/-- An engine has failed its self-test with this cause (R263, R265): a machine check that fences it; a spare is classed
permanent (R425). ADDR is not given, so it is a free value. -/
def State.selftestFails (s : State) (i e cause : Nat) : State :=
  let src := engineSource i e
  let m := s.engMap i
  let (a, s) := s.draw 12
  let s := (s.setReg .burMchk i 0 (mchkWord cause false a.toNat 0 e)).bump (cntBur i 1)
  let s := (s.setEngine i e { s.engine i e with good := false }).fault src cause 0
  if (m.spares 5).contains e then (s.setEngMap i { m with retired := m.retired ++ [e] }).rejectSpare src
  else s.fenceEngine i e

/-- An engine runs its self-test, which fetches every word: a word that fails three fetches fails it (R262, R265). -/
def State.engineTest (s : State) (i e : Nat) (pass : Bool) : State :=
  let (c, s) := s.takeCorrupts (engineSource i e) 3
  if c = 3 then s.selftestFails i e 1
  else
    let s := if c = 0 then s else s.bump (cntBur i 0)
    if pass then (s.setEngine i e { s.engine i e with good := true }).setEngMap i ((s.engMap i).unfence e)
    else s.selftestFails i e 6

/-- A fenced or spare engine runs its self-test (R265, R425). -/
def execBurinSelftest (i : Slice) (e : Fin 5) (pass : Bool) (s : State) : Host.Outcome State Fault Refusal :=
  done <|
    let spare := ((s.engMap i).spares 5).contains e.val && !(s.fsrc (engineSource i e)).retired
    if spare || (s.engMap i).fenced.contains e.val then s.engineTest i e pass else s

/-- A spare engine takes a retired engine's logical position (R266). -/
def execBurinEngineRetire (i : Slice) (e : Fin 5) (s : State) : Host.Outcome State Fault Refusal :=
  done <|
    let src := engineSource i e
    if !s.flt.running.contains src then s else
    match (s.engMap i).goodSpare 5 fun v => (s.engine i v).good with
    | some v => ((s.fenceEngine i e).setEngMap i (((s.engMap i).swap e (some v)).unfence e)).noteRetired src v
    | none => (((s.fenceEngine i e).setEngMap i (((s.engMap i).swap e none).unfence e)).endRetirement src).degrade src

end Sys2Proof.Machine
end

