-- ==== Sys2Proof/Machine/Rule.lean ====
section
/-! DEFINITION. The rule search array: joins, rule and profile commands, the search, poisoned and lost tiles
(chapter 05). -/

namespace Sys2Proof.Machine

/-! Joins (R139, R140) -/

/-- Width code of the group of logical tile t. -/
def State.widthAt (s : State) (t : Nat) : Nat := s.fld .rsaGroupCfg 0 0 (2 * (t / 4) + 1) (2 * (t / 4))

/-- Tiles in a join of a width. -/
def joinSpan (w : Nat) : Nat := if w = 0 then 1 else if w = 1 then 2 else 4

/-- The lowest tile of the join that holds tile t. -/
def State.joinOf (s : State) (t : Nat) : Nat := t - t % joinSpan (s.widthAt t)

/-- Whether t is the lowest tile of a join. -/
def State.isJoin (s : State) (t : Nat) : Bool := s.joinOf t = t

/-- Key bytes of a width. -/
def keyBytes (w : Nat) : Nat := if w = 0 then 20 else if w = 1 then 40 else 80

/-- Whether logical tile t is lost in quad q (R164). -/
def State.tileLost (s : State) (q t : Nat) : Bool := (s.tileMap q).pos.getD t none = none

/-- Whether the join of t has a lost tile in quad q. -/
def State.joinLost (s : State) (q t : Nat) : Bool :=
  (List.range (joinSpan (s.widthAt t))).any fun k => s.tileLost q (s.joinOf t + k)

/-- Whether it has one in any quad. -/
def State.joinLostAny (s : State) (t : Nat) : Bool := (List.range 4).any fun q => s.joinLost q t

/-! Records (Tables 05.1 and 05.3, R146) -/

/-- Whether an action record holds a reserved verdict or a nonzero reserved bit. -/
def badAction (a : Nat) : Bool :=
  5 < bitsOf 3 0 a || bitsOf 7 5 a ≠ 0 || bitOf 15 a || bitsOf 127 99 a ≠ 0

/-- Whether a rule record fails R146. -/
def State.badRule (s : State) (b : Bytes) : Bool :=
  2 < byteAt b 4 || badAction (leAt b 16 16) || !s.isJoin (leAt b 0 2 / 1024) || !zeroAt b 5 11

/-- The cell a rule record describes, with a tag. -/
def ruleCellOf (b : Bytes) (tag : VTag) : RuleCell :=
  { tag := tag, priority := leAt b 2 2, lrow := leAt b 0 2 % 1024, width := byteAt b 4
    action := leAt b 16 16, value := sliceOf b 32 80, mask := sliceOf b 112 80 }

/-- The rule record of a cell (RULE_READ). -/
def RuleCell.record (c : RuleCell) (lentry : Nat) : Bytes :=
  leBytes 2 lentry ++ leBytes 2 c.priority ++ leBytes 1 c.width ++ zeros 11 ++ leBytes 16 c.action ++ c.value ++ c.mask

/-- The cell that is visible in g at a logical entry number (R145): its index and content. -/
def State.ruleIn (s : State) (lentry : Nat) (g : Gen) : Option (Nat × RuleCell) :=
  s.tabs.rules.cells.findSome? fun c =>
    match c.2 with
    | some r => if c.1 / 1024 = lentry / 1024 ∧ r.lrow = lentry % 1024 ∧ r.tag.visible g then some (c.1, r) else none
    | none => none

/-- The lowest free cell of the join whose lowest tile is t (R143, R144). -/
def State.freeRule (s : State) (t : Nat) : Option Nat :=
  (firstBelow 1024 fun c => (s.ruleAt (t * 1024 + c)).isNone).map fun c => t * 1024 + c

/-- Errors 2 to 4 of R560 for a rule record. -/
def State.ruleCheck (s : State) (b : Bytes) : Option Status :=
  let t := leAt b 0 2 / 1024
  if s.badRule b then some .ruleBadRecord
  else if byteAt b 4 ≠ s.widthAt t then some .ruleWidth
  else if s.joinLostAny t then some .ruleTileLost
  else none

/-! Commands (Table 05.2) -/

/-- RULE_INSERT (R54, R143, R145, R560). -/
def execRuleInsert (r : Ring) (rec : Dma) (s : State) : Host.Outcome State Fault Refusal :=
  done <| s.recCommand r 0x0020 true rec fun _ b s =>
    let n := leAt b 0 2
    match s.ruleCheck b with
    | some st => s.complete r st
    | none =>
      if (s.ruleIn n s.staging).isSome then s.complete r .ruleExists else
      match s.freeRule (n / 1024) with
      | none => s.complete r .ruleTileFull
      | some k =>
        if !s.logRoom 1 then s.complete r .genLogFull
        else ((s.setRule k (some (ruleCellOf b s.bornTag))).logChange 1).complete r .ok

/-- RULE_MODIFY (R54, R144, R560). -/
def execRuleModify (r : Ring) (rec : Dma) (s : State) : Host.Outcome State Fault Refusal :=
  done <| s.recCommand r 0x0021 true rec fun _ b s =>
    let n := leAt b 0 2
    match s.ruleCheck b with
    | some st => s.complete r st
    | none =>
      match s.ruleIn n s.staging with
      | none => s.complete r .ruleNotFound
      | some (k, c) =>
        if s.madeInStaging c.tag then
          if !s.logRoom 1 then s.complete r .genLogFull
          else ((s.setRule k (some (ruleCellOf b c.tag))).logChange 1).complete r .ok
        else
          match s.freeRule (n / 1024) with
          | none => s.complete r .ruleTileFull
          | some k' =>
            if !s.logRoom 1 then s.complete r .genLogFull
            else
              let s := s.setRule k (some { c with tag := s.diedTag c.tag })
              ((s.setRule k' (some (ruleCellOf b s.bornTag))).logChange 1).complete r .ok

/-- RULE_DELETE (R54, R560). -/
def execRuleDelete (r : Ring) (s : State) : Host.Outcome State Fault Refusal :=
  done <| s.seqCommand r 0x0022 true fun d s =>
    match s.ruleIn (leAt d 0x10 2) s.staging with
    | none => s.complete r .ruleNotFound
    | some (k, c) =>
      if !s.logRoom 1 then s.complete r .genLogFull
      else
        let s := s.setRule k (if s.madeInStaging c.tag then none else some { c with tag := s.diedTag c.tag })
        (s.logChange 1).complete r .ok

/-- RULE_READ (Table 05.2, R560). -/
def execRuleRead (r : Ring) (written : Bool) (s : State) : Host.Outcome State Fault Refusal :=
  done <| s.resultCommand r 0x0023 written fun d s =>
    let n := leAt d 0x10 2
    let g := BitVec.ofNat 16 (leAt d 0x12 2)
    if !s.live g then s.complete r .genBadState else
    match s.ruleIn n g with
    | none => s.complete r .ruleNotFound
    | some (_, c) => (s.dmaWrite r (descAddr d) (c.record n)).complete r .ok

/-- The profile of a number visible in g (R148). -/
def State.profIn (s : State) (n : Nat) (g : Gen) : Option (Nat × ProfileCell) :=
  s.tabs.profiles.cells.findSome? fun c =>
    match c.2 with
    | some p => if p.num = n ∧ p.tag.visible g then some (c.1, p) else none
    | none => none

/-- Whether a profile record fails R146 or R147's selector check. -/
def badProfile (b : Bytes) : Bool :=
  31 < byteAt b 0 || 2 < byteAt b 1 || !zeroAt b 2 6 || badAction (leAt b 16 16) ||
    (sliceOf b 32 80).any fun x => 159 < x.toNat && x.toNat ≠ 255

/-- The profile cell of a record. -/
def profileOf (b : Bytes) (tag : VTag) : ProfileCell :=
  { tag := tag, num := byteAt b 0, width := byteAt b 1, tiles := leAt b 8 8, dflt := leAt b 16 16
    sel := sliceOf b 32 80, stencil := sliceOf b 112 80 }

/-- The logical tiles that TILES selects. -/
def tilesOf (tiles : Nat) : List Nat := (List.range 64).filter fun t => bitOf t tiles

/-- PROFILE_WRITE (R147, R148, R54, R560). -/
def execProfileWrite (r : Ring) (rec : Dma) (s : State) : Host.Outcome State Fault Refusal :=
  done <| s.recCommand r 0x0024 true rec fun _ b s =>
    let sel := tilesOf (leAt b 8 8)
    if badProfile b then s.complete r .ruleBadRecord
    else if sel.any fun t => s.widthAt t ≠ byteAt b 1 || !s.isJoin t then s.complete r .ruleWidth
    else if sel.any fun t => s.joinLostAny t then s.complete r .ruleTileLost
    else
      let old := s.profIn (byteAt b 0) s.staging
      let place := match old with
        | some (k, c) => if s.madeInStaging c.tag then some k else firstBelow 128 fun k => (s.profAt k).isNone
        | none => firstBelow 128 fun k => (s.profAt k).isNone
      match place with
      | none => s.complete r .ruleProfileFull
      | some k' =>
        if !s.logRoom 1 then s.complete r .genLogFull
        else
          let s := match old with
            | some (k, c) => s.setProf k (some { c with tag := s.diedTag c.tag })
            | none => s
          ((s.setProf k' (some (profileOf b s.bornTag))).logChange 1).complete r .ok

/-- PROFILE_DELETE (R54, R560). -/
def execProfileDelete (r : Ring) (s : State) : Host.Outcome State Fault Refusal :=
  done <| s.seqCommand r 0x0025 true fun d s =>
    match s.profIn (byteAt d 0x10) s.staging with
    | none => s.complete r .ruleNotFound
    | some (k, c) =>
      if !s.logRoom 1 then s.complete r .genLogFull
      else
        let s := s.setProf k (if s.madeInStaging c.tag then none else some { c with tag := s.diedTag c.tag })
        (s.logChange 1).complete r .ok

/-- RSA_GROUP_CFG is written: a group takes a new width when its cells are all free (R142). -/
def execRsaGroupCfgWrite (f : Fn) (q : Quad) (v : BitVec 32) (s : State) : Host.Outcome State Fault Refusal :=
  done <| s.rowWrite f .rsaGroupCfg q 0 fun s =>
    let bad := s.configError f (RegName.addr .rsaGroupCfg q 0)
    if s.mode ≠ .config then bad else
    let w := fun g => bitsOf (2 * g + 1) (2 * g) v.toNat
    let changed := (List.range 16).filter fun g => w g ≠ s.widthAt (4 * g)
    let kept := changed.filter fun g => w g = 3 || s.tabs.rules.any fun k c => c.isSome && k / 4096 = g
    let new := changed.foldl (fun x g => if kept.contains g then x else withBits (2 * g + 1) (2 * g) x (w g))
      (s.reg .rsaGroupCfg 0 0)
    let s := if kept.isEmpty then s else bad
    s.setReg .rsaGroupCfg 0 0 new

/-! The search (R147 to R152) -/

/-- Key byte j of a search. -/
def ProfileCell.keyByte (p : ProfileCell) (hv : Bytes) (j : Nat) : Byte :=
  let c := (p.sel.getD j 0).toNat
  if c = 255 then 0 else hv.getD c 0

/-- Whether a cell matches a search (R149). -/
def RuleCell.matches (c : RuleCell) (p : ProfileCell) (hv : Bytes) (g : Gen) : Bool :=
  c.tag.visible g && (List.range (keyBytes p.width)).all fun j =>
    (p.keyByte hv j ^^^ c.value.getD j 0) &&& p.stencil.getD j 0 &&& c.mask.getD j 0 = 0

/-! Parity (R160) -/

/-- Even parity over bytes. -/
def evenParity (b : Bytes) : Bool := b.foldl (fun p x => p ^^ (List.range 8).foldl (fun q i => q ^^ x.getLsbD i) false) false

/-- The 10 parity bits that the cell of the join's i-th tile carries: one over each 40-bit quarter of its VALUE, one over
each quarter of its MASK, and two over the sideband, which the spec does not divide: log entry 107. -/
def RuleCell.parity (c : RuleCell) (i : Nat) : List Bool :=
  let quarters := fun (b : Bytes) => (List.range 4).map fun j => evenParity (sliceOf b (20 * i + 5 * j) 5)
  quarters c.value ++ quarters c.mask ++
    [evenParity (c.tag.image ++ leBytes 2 c.priority ++ leBytes 2 c.lrow), evenParity (leBytes 16 c.action)]

/-- The better of two candidates: higher PRIORITY, then lower logical entry number (R151). -/
def betterRule (a b : Nat × RuleCell) : Nat × RuleCell :=
  if a.2.priority < b.2.priority then b
  else if b.2.priority < a.2.priority then a
  else if b.1 / 1024 * 1024 + b.2.lrow < a.1 / 1024 * 1024 + a.2.lrow then b
  else a

/-- The rule a search returns: its cell index and content (R151). -/
def State.searchRules (s : State) (p : ProfileCell) (hv : Bytes) (g : Gen) : Option (Nat × RuleCell) :=
  s.tabs.rules.cells.foldl (fun best c =>
    match c.2 with
    | some r =>
      if bitOf (c.1 / 1024) p.tiles && r.matches p hv g then
        some (match best with
          | some b => betterRule b (c.1, r)
          | none => (c.1, r))
      else best
    | none => best) none

/-- The winning cell of the join whose lowest tile is t, among the cells that match (R149, R150). -/
def State.tileBest (s : State) (p : ProfileCell) (hv : Bytes) (g : Gen) (t : Nat) : Option (Nat × RuleCell) :=
  s.tabs.rules.cells.foldl (fun best c =>
    match c.2 with
    | some r =>
      if c.1 / 1024 = t && r.matches p hv g then
        some (match best with
          | some b => betterRule b (c.1, r)
          | none => (c.1, r))
      else best
    | none => best) none

/-- The cells whose parity a search checks: the winning cell of each selected join, in every tile of the join (R160). -/
def State.checkedCells (s : State) (x : Frame) : List (Nat × Nat) :=
  match s.profIn (byteAt x.hv 4 % 32) x.gen with
  | some (_, p) =>
    ((tilesOf p.tiles).filterMap fun t => s.tileBest p x.hv x.gen t).flatMap fun w =>
      (List.range (joinSpan (s.widthAt (w.1 / 1024)))).map fun i => (w.1 / 1024 + i, w.1 % 1024)
  | none => []

/-- Whether a quad has a poisoned cell in a tile that the profile selects (R162). -/
def State.rulePoisoned (s : State) (q : Nat) (p : ProfileCell) : Bool :=
  s.tabs.rulePoison.any fun k => k / 65536 = q && bitOf (s.joinOf (k % 65536 / 1024)) p.tiles

/-- A rule cell, in one tile of its join, becomes poisoned (R161). -/
def State.poisonRule (s : State) (q cell : Nat) : State :=
  let k := poisonKey q cell
  if s.tabs.rulePoison.contains k then s else s.setTabs { s.tabs with rulePoison := s.tabs.rulePoison ++ [k] }

/-- Fault source of the physical tile that serves logical tile t of quad q. -/
def State.tileSource (s : State) (q t : Nat) : Nat := 0x210 + 68 * q + (((s.tileMap q).pos.getD t none).getD t)

/-- The answer of a rule search in a quad, poisoned and lost tiles included (R148, R151, R162, R164). -/
def State.ruleAnswer (s : State) (q : Nat) (x : Frame) : Answer :=
  match s.profIn (byteAt x.hv 4 % 32) x.gen with
  | none => { back := true }
  | some (k, p) =>
    if s.tabs.profPoison.contains (q * 128 + k) then { back := true, bad := true }
    else if (tilesOf p.tiles).any fun t => s.joinLost q t then { back := true, lost := true }
    else if s.rulePoisoned q p then { back := true, bad := true }
    else
      match s.searchRules p x.hv x.gen with
      | some (k, c) => { back := true, hit := true, data := c.action, lentry := k / 1024 * 1024 + c.lrow }
      | none => { back := true, data := p.dflt }

/-- The parity check of one tile's winning cell, which failed `n` times in a row: the tile's error line is asserted, and
after the third reissue the cell is poisoned (R161). Also the reissues asked for. -/
def State.tileCheck (s : State) (q t c n : Nat) : Nat × State :=
  let (k, s) := s.takeCorrupts (s.tileSource q t) (4 - n)
  let n := n + k
  if n = 0 then (0, s)
  else
    let s := s.fault (s.tileSource q t) 0 0
    (min n 3, if 3 < n then s.poisonRule q (t * 1024 + c) else s)

/-- The checks of a search: the reissues, as many as the tile that fails most often asks for. -/
def State.tileChecks (s : State) (q : Nat) (fails : List (Fin 64 × Nat)) : List (Nat × Nat) → Nat × State
  | [] => (0, s)
  | (t, c) :: rest =>
    let (n, s) := s.tileCheck q t c (((fails.find? fun x => x.1.val = t).map Prod.snd).getD 0)
    let (m, s) := s.tileChecks q fails rest
    (max n m, s)

/-- A rule search result returns; `fails` says of tiles how many times in a row their winning cell failed parity (R150,
R160, R161). -/
def execRsaSearchResult (f : Nat) (fails : List (Fin 64 × Nat)) (s : State) : Host.Outcome State Fault Refusal :=
  done <|
    let x := s.frame f
    if !x.issued || x.rule.back || x.ing ≠ .landing then s else
    let q := x.slice / 4
    let (n, s) := s.tileChecks q fails (s.checkedCells x)
    let s := if n = 0 then s else (s.bumpBy (cntRsa q 6) n).pmcCount 2 x.slice 3 n
    s.setFrame f { x with rule := s.ruleAnswer q x }

/-- The scrub reads a cell; a parity error poisons it at once, and one that returns after Proofing restored the cell is
an event (R160, R161, R163). A lap ends with the last cell. -/
def execTileScrubStep (q : Quad) (t : Fin 64) (cell : Fin 1024) (parityOk : Bool) (s : State) :
    Host.Outcome State Fault Refusal :=
  done <|
    if s.mode = .standby then s else
    let k := t.val * 1024 + cell.val
    let s := if parityOk then s else
      let s := if s.tabs.ruleRestored.contains (poisonKey q k) then s.fault (s.tileSource q t) 0 0 else s
      s.poisonRule q k
    if t.val = 63 ∧ cell.val = 1023 then
      let lap := min 255 ((s.now - s.tabs.scrubStart.get 0 q) / msNs)
      let s := s.setReg .rsaTileStatus q 0 (withBits 31 24 (s.reg .rsaTileStatus q 0) lap)
      s.setTabs { s.tabs with scrubStart := s.tabs.scrubStart.set 0 q s.now }
    else s

end Sys2Proof.Machine
end

