-- ==== Sys2Proof/Machine/Exact.lean ====
section
/-! DEFINITION. The exact-match table: keys, buckets, placement, relocation and eviction, its commands, lookups, learning
and aging (chapter 06). -/

namespace Sys2Proof.Machine

/-! Keys and slots (R167 to R171) -/

/-- Reflected CRC-32C of R169. -/
def crc32c (seed : Nat) (m : Bytes) : Nat := m.foldl (crcByte 0x82F63B78) seed ^^^ 0xFFFFFFFF

/-- Bucket of a key in way w. -/
def State.bucketOf (s : State) (w ktype : Nat) (key : Bytes) : Nat :=
  crc32c (s.reg .emtHashSeed 0 w) (BitVec.ofNat 8 (ktype % 16) :: key) % 131072

/-- The 8 slots of a key's two buckets in scan order. -/
def State.scanSlots (s : State) (ktype : Nat) (key : Bytes) : List Nat :=
  (List.range 2).flatMap fun w => (List.range 4).map fun i => slotBase w (s.bucketOf w ktype key) + i

/-- The slots in use that hold a key, in scan order. -/
def State.keySlots (s : State) (ktype : Nat) (key : Bytes) : List (Nat × EmSlot) :=
  (s.scanSlots ktype key).filterMap fun k => (s.slot k).bind fun e => if e.ktype = ktype ∧ e.key = key then some (k, e) else none

/-- The entry that matches a key in a generation; the way-0 copy of two (R170). -/
def State.emIn (s : State) (ktype : Nat) (key : Bytes) (g : Gen) : Option (Nat × EmSlot) :=
  (s.keySlots ktype key).find? fun x => x.2.tag.visible g

/-! Placement (R178 to R181) -/

/-- One relocation: the copy, whose HIT starts clear, then the source is invalidated and its HIT carried over (R180). -/
def State.relocate (s : State) (src dst : Nat) : State :=
  let hits := (List.range 4).map fun q => s.hitAt q src
  let s := (s.setSlot dst (s.slot src)).setSlot src none
  let s := runOver (List.range 4) (fun q s => (s.setHit q dst (hits.getD q false)).setHit q src false) s
  s.setReg .emtRelocCnt 0 0 ((s.reg .emtRelocCnt 0 0 + 1) % 2 ^ 32)

/-- The breadth-first search of R179. `queue` holds chains of slots, each from a root to an occupied slot, latest first;
at most 126 buckets are read. -/
def State.bfs (s : State) (max : Nat) : Nat → List (List Nat) → List Nat → Option (List Nat)
  | 0, _, _ => none
  | _, [], _ => none
  | fuel + 1, c :: rest, seen =>
    match c with
    | [] => s.bfs max fuel rest seen
    | k :: _ =>
      if max < c.length then s.bfs max fuel rest seen else
      match s.slot k with
      | none => s.bfs max fuel rest seen
      | some e =>
        let w := 1 - slotWay k
        let ks := (List.range 4).map fun i => slotBase w (s.bucketOf w e.ktype e.key) + i
        match ks.find? s.slotFree with
        | some j => some (j :: c)
        | none =>
          let new := ks.filter fun j => !seen.contains j && (s.slot j).isSome
          s.bfs max fuel (rest ++ new.map fun j => j :: c) (seen ++ new)

/-- Carry out a chain of moves, farthest first: the chain starts with the free slot. The root is freed. -/
def State.moveChain (s : State) : List Nat → State
  | dst :: src :: rest => (s.relocate src dst).moveChain (src :: rest)
  | _ => s

/-- One advance of the eviction LFSR. -/
def lfsr16 (l : Nat) : Nat := l / 2 + ((l ^^^ l / 4 ^^^ l / 8 ^^^ l / 32) % 2) * 32768

/-- Body of a learning or aging record (Table 12.18). -/
def learnBody (ktype flags inPort quad : Nat) (g : Gen) (slot : Nat) (key : Bytes) (adata old : Nat) : Bytes :=
  leBytes 1 ktype ++ leBytes 1 flags ++ leBytes 1 inPort ++ leBytes 1 quad ++ leBytes 2 g.toNat ++ zeros 2
    ++ leBytes 4 slot ++ zeros 4 ++ sliceOf key 0 16 ++ leBytes 8 adata ++ leBytes 8 old

/-- A record to the learning event ring (EMT_LRN_CTRL.RING). -/
def State.learnRecord (s : State) (type : Nat) (body : Bytes) : State :=
  s.writeRecord .pf0 (s.fld .emtLrnCtrl 0 0 27 16) type s.now body

/-- The victim of R181 among slots in scan order, and the state with the LFSR advanced. -/
def State.pickVictim (s : State) (slots : List Nat) : Option (Nat × State) :=
  let cand := slots.filter fun k => (s.slot k).any fun e => e.lrn && !e.tag.ds
  let s' := s.setTabs { s.tabs with lfsr := lfsr16 s.tabs.lfsr }
  match s.fld .emtInsCfg 0 0 5 4 with
  | 1 => (cand[s.tabs.lfsr % cand.length]?).map fun k => (k, s')
  | 2 =>
    let cold := cand.filter fun k => !s.anyHit k
    match cold.find? (fun k => (s.slot k).any fun e => e.sw), cold, cand with
    | some k, _, _ => some (k, s')
    | none, k :: _, _ => some (k, s')
    | none, [], k :: _ => some (k, s')
    | none, [], [] => none
  | _ => none

/-- Evict a slot: it is removed and an EVICT record is written (R181); its FLAGS.REMOVED is 0: log entry 25. -/
def State.evict (s : State) (k : Nat) : State :=
  match s.slot k with
  | some e =>
    let s := (s.setSlot k none).setHits k false
    s.learnRecord 0x0014 (learnBody e.ktype 0 0 0 0 k e.key e.adata 0)
  | none => s

/-- Find and free a slot for a key (R178): the slot, and the state with the moves or the eviction made. -/
def State.makeRoom (s : State) (ktype : Nat) (key : Bytes) : Option (Nat × State) :=
  let slots := s.scanSlots ktype key
  match slots.find? s.slotFree with
  | some k => some (k, s)
  | none =>
    match s.bfs (s.fld .emtInsCfg 0 0 2 0) 126 ((slots.filter fun k => (s.slot k).isSome).map fun k => [k]) slots with
    | some c => some (c.getLastD 0, s.moveChain c)
    | none => (s.pickVictim slots).map fun (k, t) => (k, t.evict k)

/-- Write a new entry or version: HIT = 1 in every quad, SW = 0, RPT = 0 (R177). -/
def State.writeEntry (s : State) (k : Nat) (e : EmSlot) : State := (s.setSlot k (some e)).setHits k true

/-- An entry visible in CURRENT dies in STAGING. -/
def State.killSlot (s : State) (k : Nat) : State :=
  match s.slot k with
  | some e => s.setSlot k (some { e with tag := s.diedTag e.tag })
  | none => s

/-! Records and commands (Tables 06.4 and 06.5) -/

/-- Whether ADATA holds a reserved verdict or a nonzero reserved bit (Table 06.3). -/
def badAdata (a : Nat) : Bool := 5 < bitsOf 3 0 a || bitsOf 63 51 a ≠ 0

/-- Whether an exact-match record is refused (R177). -/
def badEm (b : Bytes) : Bool := 15 < byteAt b 0 || !zeroAt b 1 7 || badAdata (leAt b 8 8)

/-- KTYPE of a record. -/
def emKtype (b : Bytes) : Nat := byteAt b 0 % 16
/-- KEY of a record. -/
def emKey (b : Bytes) : Bytes := sliceOf b 16 16

/-- The record of an entry. -/
def State.emRecord (s : State) (k : Nat) (e : EmSlot) : Bytes :=
  leBytes 1 e.ktype ++ leBytes 1 (boolBit e.lrn + 2 * boolBit (s.anyHit k)) ++ zeros 6 ++ leBytes 8 e.adata ++ sliceOf e.key 0 16

/-- The entry that a software record makes in STAGING. -/
def State.softEntry (s : State) (b : Bytes) : EmSlot :=
  { tag := s.bornTag, ktype := emKtype b, key := emKey b, adata := leAt b 8 8, lrn := false, sw := false, rpt := false }

/-- Place the record's entry as a change of STAGING, and complete with its slot; nothing changes on a failure. -/
def State.placeSoft (s t : State) (r : Nat) (b : Bytes) : State :=
  match t.makeRoom (emKtype b) (emKey b) with
  | none => s.complete r .emTableFull
  | some (k, t) =>
    if !s.logRoom 1 then s.complete r .genLogFull
    else ((t.writeEntry k (t.softEntry b)).logChange 1).complete r .ok k

/-- EM_INSERT (R54, R78, R177, R178, R561). -/
def execEmInsert (r : Ring) (rec : Dma) (s : State) : Host.Outcome State Fault Refusal :=
  done <| s.recCommand r 0x0030 true rec fun _ b s =>
    if badEm b then s.complete r .emBadRecord else
    match s.emIn (emKtype b) (emKey b) s.staging with
    | some (k, e) => if e.lrn && e.tag.bs then s.placeSoft (s.killSlot k) r b else s.complete r .emExists
    | none => s.placeSoft s r b

/-- EM_MODIFY (R54, R177, R561). -/
def execEmModify (r : Ring) (rec : Dma) (s : State) : Host.Outcome State Fault Refusal :=
  done <| s.recCommand r 0x0031 true rec fun _ b s =>
    if badEm b then s.complete r .emBadRecord else
    match s.emIn (emKtype b) (emKey b) s.staging with
    | none => s.complete r .emNotFound
    | some (k, e) =>
      if s.madeInStaging e.tag then
        if !s.logRoom 1 then s.complete r .genLogFull
        else ((s.setSlot k (some { e with adata := leAt b 8 8 })).logChange 1).complete r .ok k
      else s.placeSoft (s.killSlot k) r b

/-- EM_DELETE (R54, R561). -/
def execEmDelete (r : Ring) (rec : Dma) (s : State) : Host.Outcome State Fault Refusal :=
  done <| s.recCommand r 0x0032 true rec fun _ b s =>
    match s.emIn (emKtype b) (emKey b) s.staging with
    | none => s.complete r .emNotFound
    | some (k, e) =>
      if !s.logRoom 1 then s.complete r .genLogFull
      else ((if s.madeInStaging e.tag then s.clearSlot k else s.killSlot k).logChange 1).complete r .ok

/-- EM_SEARCH (R184). -/
def execEmSearch (r : Ring) (rec : Dma) (written : Bool) (s : State) : Host.Outcome State Fault Refusal :=
  done <| s.recCommand r 0x0033 false (if written then rec else none) fun d b s =>
    let g := BitVec.ofNat 16 (leAt d 0x10 2)
    if !s.live g then s.complete r .genBadState else
    match s.emIn (emKtype b) (emKey b) g with
    | some (k, e) => (s.dmaWrite r (descAddr d + 32) (s.emRecord k e)).complete r .ok k [1]
    | none => s.complete r .ok 0 [0]

/-- EM_NEXT (R185). -/
def execEmNext (r : Ring) (written : Bool) (s : State) : Host.Outcome State Fault Refusal :=
  done <| s.resultCommand r 0x0034 written fun d s =>
    let g := BitVec.ofNat 16 (leAt d 0x10 2)
    if !s.live g then s.complete r .genBadState else
    let filter := byteAt d 0x12
    let cursor := leAt d 0x14 4
    let found := (s.tabs.em.cells.filterMap fun c =>
      c.2.bind fun e =>
        if cursor ≤ c.1 ∧ e.tag.visible g ∧ (filter = 16 ∨ e.ktype = filter) then some (c.1, e) else none).take (byteAt d 0x13)
    let next := if found.length < byteAt d 0x13 then 1048576 else ((found.getLast?.map Prod.fst).getD 0) + 1
    let s := if found.isEmpty then s
      else s.dmaWrite r (descAddr d) (found.flatMap fun x => s.emRecord x.1 x.2)
    s.complete r .ok found.length (leBytes 4 next)

/-! Lookups (R170 to R173) -/

/-- Lookup profile of a frame. -/
def Frame.profile (x : Frame) : Nat := byteAt x.hv 4 % 32

/-- ROLE of a frame's lookup profile. -/
def State.role (s : State) (x : Frame) : Nat := s.fld .emtKeyselCtrl 0 x.profile 5 4

/-- KTYPE of a frame's lookup profile. -/
def State.frameKtype (s : State) (x : Frame) : Nat := s.fld .emtKeyselCtrl 0 x.profile 3 0

/-- The key of a frame's exact-match lookup (R167). -/
def State.frameKey16 (s : State) (x : Frame) : Bytes :=
  let v := s.reg .emtKeysel 0 x.profile
  (List.range 16).map fun j =>
    let c := bitsOf (8 * j + 7) (8 * j) v
    if c = 255 then 0 else x.hv.getD c 0

/-- The events of a lookup that read an uncorrectable error `errors` times (R173): reissues and one event. -/
def State.lookupErrors (s : State) (slice errors : Nat) : State :=
  let q := slice / 4
  if errors = 0 then s
  else ((s.bumpBy (cntEmt q 3) (min errors 3)).pmcCount 2 slice 3 (min errors 3)).fault (0x34 + q) 0 0

/-- Whether the sweep has already removed a slot from quad q, and not from all (R195). -/
def State.removedIn (s : State) (q k : Nat) : Bool := s.tabs.sweep.any fun w => w.gone.contains k && q < w.quads

/-- An exact-match result returns (R170 to R173). When every reissue failed, one of the two buckets read is poisoned;
the spec does not say which read failed, so a free value picks the way. -/
def execEmLookupResult (f : Nat) (errors : Nat) (s : State) : Host.Outcome State Fault Refusal :=
  done <|
    let x := s.frame f
    if !x.issued || x.exact.back || x.ing ≠ .landing || s.role x = 0 then s else
    let q := x.slice / 4
    let kt := s.frameKtype x
    let key := s.frameKey16 x
    let s := s.lookupErrors x.slice errors
    let s := if errors ≤ 3 then s else
      let (w, s) := s.draw 1
      s.setTabs { s.tabs with emPoison := s.tabs.emPoison ++ [bucketKey q w.toNat (s.bucketOf w.toNat kt key)] }
    if (List.range 2).any fun w => s.tabs.emPoison.contains (bucketKey q w (s.bucketOf w kt key)) then
      s.setFrame f { x with exact := { back := true, bad := true } }
    else
      match (s.emIn kt key x.gen).filter fun e => !s.removedIn q e.1 with
      | some (k, e) => (s.setFrame f { x with exact := { back := true, hit := true, data := e.adata, lentry := k } }).setHit q k true |>.pmcCount 4 q 1 1
      | none => s.setFrame f { x with exact := { back := true } }

/-! Learning (R187 to R191) -/

/-- The filter of a quad. -/
def State.learnFilter (s : State) (q : Nat) : List LearnKey := s.tabs.filter.get [] q

/-- Replace a quad's filter. -/
def State.setFilter (s : State) (q : Nat) (l : List LearnKey) : State :=
  s.setTabs { s.tabs with filter := s.tabs.filter.set [] q l }

/-- Whether a key is held in a quad's filter. -/
def State.filtered (s : State) (q kt : Nat) (key : Bytes) : Bool :=
  s.fld .emtLrnCtrl 0 0 15 8 ≠ 0 && (s.learnFilter q).any fun k => k.ktype = kt && k.key = key && s.now < k.until_

/-- A key enters the filter, the oldest leaving for it when 64 are held (R188). -/
def State.enterFilter (s : State) (q kt : Nat) (key : Bytes) : State :=
  let h := s.fld .emtLrnCtrl 0 0 15 8
  if h = 0 then s else
  let l := s.learnFilter q
  s.setFilter q ((if l.length < 64 then l else l.drop 1) ++ [⟨kt, key, s.now + h * msNs⟩])

/-- HOLDOFF_MS ends for the oldest key of a quad's filter (R188). -/
def execLearnFilterExpire (q : Quad) (s : State) : Host.Outcome State Fault Refusal :=
  done <| match s.learnFilter q with
    | k :: rest => (s.advanceTo k.until_).setFilter q rest
    | [] => s

/-- What a frame teaches (R187). -/
def Frame.learned (x : Frame) : Nat :=
  2 ^ 50 + (if bitOf 5 (byteAt x.hv 1) then 3 + beAt x.hv 12 2 * 2 ^ 11 else 2 + x.port * 16)

/-- Whether a hit's VERDICT, PORT or CIRCUIT differs from the learned data (R187). -/
def moved (adata new : Nat) : Bool := bitsOf 26 0 adata ≠ bitsOf 26 0 new

/-- A `LEARN` lookup raises a learn or a move as its frame's result is applied (R187 to R191). -/
def State.learnEvent (s : State) (f : Nat) : State :=
  let x := s.frame f
  let q := x.slice / 4
  let kt := s.frameKtype x
  let key := s.frameKey16 x
  let new := x.learned
  let move := x.exact.hit
  if s.role x ≠ 2 || x.lrnMode = 0 || x.origin ≠ .wire || x.exact.bad || (move && !moved x.exact.data new) then s
  else if s.filtered q kt key then s
  else if x.lrnMode = 2 then
    let ring := s.fld .emtLrnCtrl 0 0 27 16
    let s := if s.recordFits .pf0 ring then s else s.bump (cntEmt q 1)
    let s := if move then s.learnRecord 0x0011 (learnBody kt 0 x.port q x.gen x.exact.lentry key new x.exact.data)
      else s.learnRecord 0x0010 (learnBody kt 0 x.port q x.gen 0xFFFFFFFF key new 0)
    s.enterFilter q kt key
  else
    let job : LearnJob := ⟨q, kt, key, new, x.port, x.gen, if move then some x.exact.lentry else none⟩
    if move then (s.setTabs { s.tabs with jobs := s.tabs.jobs ++ [job] }).enterFilter q kt key
    else
      match s.takeToken .learn with
      | none => s.bump (cntEmt q 1)
      | some s => (s.setTabs { s.tabs with jobs := s.tabs.jobs ++ [job] }).enterFilter q kt key

/-- The sequencer carries out a learn (R189). -/
def State.placeLearn (s : State) (j : LearnJob) : State :=
  if !(s.keySlots j.ktype j.key).isEmpty then s else
  match s.makeRoom j.ktype j.key with
  | none => s.bump (cntEmt j.quad 1)
  | some (k, s) =>
    let s := s.writeEntry k { tag := ⟨j.gen, 0, true, false⟩, ktype := j.ktype, key := j.key, adata := j.adata
                              lrn := true, sw := false, rpt := false }
    if s.bit .emtLrnCtrl 0 0 2 then s.learnRecord 0x0012 (learnBody j.ktype 0 j.inPort j.quad j.gen k j.key j.adata 0) else s

/-- The sequencer carries out a move of the entry that the frame's lookup hit, wherever it now stands: the one visible in the
frame's generation (R191). -/
def State.placeMove (s : State) (j : LearnJob) : State :=
  match s.emIn j.ktype j.key j.gen with
  | some (k, e) =>
    let s := if e.lrn && !e.tag.ds then s.setSlot k (some { e with adata := j.adata }) else s
    s.learnRecord 0x0011 (learnBody j.ktype 0 j.inPort j.quad j.gen k j.key j.adata e.adata)
  | none => s

/-- The sequencer takes the oldest learn or move that waits, as a routine of class 4 (R189, R191, R284, R285). -/
def execLearnPlace (s : State) : Host.Outcome State Fault Refusal :=
  done <| if s.tabs.dead || s.seqAhead 4 then s else
    match s.tabs.jobs with
    | j :: rest =>
      s.seqStep (dead := id) fun s =>
        let s := s.setTabs { s.tabs with jobs := rest }
        if j.move.isSome then s.placeMove j else s.placeLearn j
    | [] => s

/-! Aging (R192 to R196) -/

/-- A new lap starts every PERIOD_S seconds, or at once when the last one ran late (R193). -/
def execAgingLapStart (s : State) : Host.Outcome State Fault Refusal :=
  done <| if !s.bit .emtAgeCtrl 0 0 16 || s.tabs.ageRuns then s else
    let s := s.advanceTo (s.tabs.ageStart + s.fld .emtAgeCtrl 0 0 15 0 * 1000000000)
    s.setTabs { s.tabs with ageStart := s.now, ageRuns := true, ageNext := 0 }

/-- Whether the sweep removes a slot whose HIT was h (Table 06.6). -/
def State.ageRemoves (s : State) (e : EmSlot) (h : Bool) : Bool :=
  (e.lrn || bitOf 50 e.adata) && !h && e.sw && s.fld .emtLrnCtrl 0 0 1 0 = 1 && e.lrn && !e.tag.ds

/-- Table 06.6 on a slot that stays, whose HIT was h. -/
def State.ageSlot (s : State) (k : Nat) (h : Bool) : State :=
  match s.slot k with
  | none => s
  | some e =>
    if !(e.lrn || bitOf 50 e.adata) || s.ageRemoves e h then s
    else if h then s.setSlot k (some { e with sw := false, rpt := false })
    else if !e.sw then s.setSlot k (some { e with sw := true })
    else if !e.rpt then
      (s.setSlot k (some { e with rpt := true })).learnRecord 0x0013 (learnBody e.ktype 0 0 0 0 k e.key e.adata 0)
    else s

/-- The slots of bucket b of both ways. -/
def bothWays (b : Nat) : List Nat := (List.range 2).flatMap fun w => (List.range 4).map fun i => slotBase w b + i

/-- The sweeper has done with bucket b: the last bucket ends the lap (R193, R196). -/
def State.sweptBucket (s : State) (b : Nat) : State :=
  if b < 131071 then s.setTabs { s.tabs with ageNext := b + 1, sweep := none }
  else
    let lap := (s.now - s.tabs.ageStart) / 1000000000
    let period := s.fld .emtAgeCtrl 0 0 15 0
    let late := period * 1000000000 < s.now - s.tabs.ageStart
    let v := withBits 47 32 (withBits 48 48 (s.reg .emtStatus 0 0) (boolBit late)) (min lap 65535)
    let s := (s.setReg .emtStatus 0 0 v).setTabs { s.tabs with ageRuns := false, ageNext := 0, sweep := none, six := none }
    if late then s.lateLap else s

/-- A removal reaches one quad after the other; with the fourth the entry is gone and its record is written (R195). -/
def State.sweepRemove (s : State) (w : Sweep) : State :=
  if w.quads < 3 then s.setTabs { s.tabs with sweep := some { w with quads := w.quads + 1 } }
  else
    let s := runOver w.gone (fun k s =>
      match s.slot k with
      | some e => (s.clearSlot k).learnRecord 0x0013 (learnBody e.ktype 1 0 0 0 k e.key e.adata 0)
      | none => s) s
    s.sweptBucket w.bucket

/-- The sweeper visits a bucket of both ways: it read-clears HIT, decides, and changes the slots that stay; removals are
then written to quads 0 to 3 in order, one at each further AGING_SWEEP_STEP of the bucket (R193, R195, R196). -/
def execAgingSweepStep (b : Fin 131072) (s : State) : Host.Outcome State Fault Refusal :=
  done <|
    match s.tabs.sweep with
    | some w => if w.bucket = b.val then s.sweepRemove w else s
    | none =>
      if !s.bit .emtAgeCtrl 0 0 16 || !s.tabs.ageRuns || s.tabs.ageNext ≠ b.val || s.tabs.dead || s.mode = .standby ||
          s.seqAhead 6 || !s.sixFree .aging then s else
      s.seqStep (dead := id) fun s =>
      let s := s.setTabs { s.tabs with six := some .aging }
      let ks := bothWays b
      let gone := ks.filter fun k => (s.slot k).any fun e => s.ageRemoves e (s.anyHit k)
      let s := runOver ks (fun k s =>
        let h := s.anyHit k
        (s.setHits k false).ageSlot k h) s
      if gone.isEmpty then s.sweptBucket b else s.setTabs { s.tabs with sweep := some ⟨b, gone, 0⟩ }

end Sys2Proof.Machine
end

