-- ==== Sys2Proof/Machine/Hbm.lean ====
section
/-! DEFINITION. HBM and the integrity of stored data: correction logs, uncorrectable errors, the scrubbers, members
offline, sparing and withdrawal, and the repair of a group (R397 to R416). -/

namespace Sys2Proof.Machine

/-! Memories (R401, Table 13.2) -/

/-- Instances of a class that has a correction log; 0 for the parity classes and for a class that does not exist. -/
def loggedCount (c : Nat) : Nat :=
  if c = 0 then 128 else if c = 1 ∨ c = 2 ∨ c = 5 then 32 else if c = 3 ∨ c = 7 then 4 else if c = 8 then 1 else 0

/-- Whether an instance has a correction log (R408). -/
def hasLog (inst : Nat) : Bool := memIndex inst < loggedCount (memClass inst)

/-! Correction logs (R408) -/

/-- The log of an instance. -/
def State.ceLog (s : State) (inst : Nat) : List CeEntry := s.hbm.logs.get [] inst

/-- Replace a log. -/
def State.setCeLog (s : State) (inst : Nat) (l : List CeEntry) : State :=
  { s with hbm := { s.hbm with logs := s.hbm.logs.set [] inst l } }

/-- One correction of an address that has an entry. -/
def CeEntry.again (e : CeEntry) (syn : Nat) : CeEntry :=
  let r := min 15 (e.rep + 1)
  { e with syndrome := syn, rep := r
           state := if e.state = 2 then 3 else if e.state = 0 ∧ r = 4 then 1 else e.state }

/-- The entry that a full log gives up: not `HARD`, the lowest REPEAT, the oldest among equals. -/
def ceVictim (l : List CeEntry) : Option CeEntry :=
  (l.filter fun e => e.state ≠ 3).foldl (fun (best : Option CeEntry) e =>
    match best with
    | some b => if e.rep < b.rep ∨ (e.rep = b.rep ∧ e.born < b.born) then some e else best
    | none => some e) none

/-- Count a correction by memory class (Table 16.12). -/
def State.countCe (s : State) (inst : Nat) : State :=
  { s with kiln := { s.kiln with ce := s.kiln.ce.modify 0 (memClass inst) (· + 1) } }

/-- One correction is logged (R408); a location of HBM that turns `HARD` raises a fault event of its pseudo-channel
(Table 13.6, step 5). -/
def State.logCorrection (s : State) (inst addr syn : Nat) : State :=
  let l := s.ceLog inst
  let s := (s.bump (cntMixCe inst)).countCe inst
  let s := if memClass inst = 0 then s.bump (cntHbm (pcStack (memIndex inst)) 0) else s
  let n := s.hbm.seen
  let s := { s with hbm := { s.hbm with seen := n + 1 } }
  match l.find? fun e => e.addr = addr with
  | some e =>
    let e' := e.again syn
    let s := s.setCeLog inst (l.map fun x => if x.addr = addr then e' else x)
    if e.state ≠ 2 then s
    else
      let s := { s with hbm := { s.hbm with hard := s.hbm.hard.filter (· ≠ (inst, addr)) ++ [(inst, addr)] } }
      if memClass inst = 0 then s.fault (pcSource (memIndex inst)) 0 0 else s
  | none =>
    let new : CeEntry := { addr := addr, syndrome := syn, born := n }
    if l.length < 16 then s.setCeLog inst (l ++ [new])
    else match ceVictim l with
      | some v => (s.setCeLog inst (l.map fun x => if x = v then new else x)).bump (cntMixOvf inst)
      | none => s

/-- The unit of HBM at an address of an instance: its group, and its member and stripe. -/
def State.hbmUnit (s : State) (pc addr : Nat) : Option (Nat × Nat) := (s.group (pcGroup pc)).unitAt (pcMember pc) addr

/-- Whether a location of an instance is in use: a read of a word or segment that is not valid makes no access (R402). -/
def State.validAt (s : State) (inst addr : Nat) : Bool :=
  if memClass inst = 0 then
    (s.hbmUnit inst addr).any fun x => s.hbm.segs.contains (pcGroup inst, segmentOf x.2)
  else s.wordValid inst (wordObject inst addr)

/-- A correction of a unit of HBM takes an injected corruption of its pseudo-channel, when one waits for its next read
(R440). -/
def State.meetCorrupt (s : State) (inst : Nat) : State :=
  if memClass inst = 0 then (s.takeCorrupt (pcSource (memIndex inst))).2 else s

/-- MEM_CORRECTION: a memory corrects an error in what it reads. -/
def execMemCorrection (inst : BitVec 12) (addr : BitVec 40) (syn : BitVec 8) (s : State) :
    Host.Outcome State Fault Refusal :=
  done <|
    if hasLog inst.toNat && s.validAt inst.toNat addr.toNat then
      (s.meetCorrupt inst.toNat).logCorrection inst.toNat addr.toNat syn.toNat
    else s

/-- WRITEBACK_COMPLETE: a queued write-back is done (R408, step 4). -/
def execWritebackComplete (inst : BitVec 12) (addr : BitVec 40) (s : State) : Host.Outcome State Fault Refusal :=
  done <| s.setCeLog inst.toNat ((s.ceLog inst.toNat).map fun e =>
    if e.addr = addr.toNat ∧ e.state = 1 then { e with state := 2, rep := 0 } else e)

/-! Uncorrectable errors (R409, R411, Table 13.4) -/

/-- The object of the structured area that a requester reads. -/
def targetObjects : HbmTarget → List Struct
  | .deep => []
  | .saContext i => [.sa i]
  | .circuitVersion c b => [.version c b]
  | .receiveIndex b _ => [.rxIndex b false, .rxIndex b true]
  | .counterUnit u => [.pairs u]

/-- Whether what a requester reads lies in a unit of member m and stripe j of group g. -/
def State.liesIn (s : State) (t : HbmTarget) (g m j : Nat) : Bool :=
  (targetObjects t).any fun x => (s.structUnits x).any fun u => u.1 = g && unitStripe u.2 = j && unitMember j (u.2 % 7) = m

/-- The requester of structured data acts on an error response; a bucket of which one copy is left is read from it, and the
failed copy is rewritten. The return path acts when its read is done (Table 13.4). -/
def State.errorResponse (s : State) : HbmTarget → State
  | .deep => s
  | .saContext sa => s.poisonSa sa
  | .circuitVersion c born => s.poisonVersion c born
  | .receiveIndex b both =>
    if !both then (s.structWrite (.rxIndex b false)).structWrite (.rxIndex b true)
    else if s.glz.rxPoison.contains b then s
    else { s with glz := { s.glz with rxPoison := b :: s.glz.rxPoison } }
  | .counterUnit u => s.losePairs u

/-- A unit is poisoned (R411): its counter and its record. -/
def State.poisonUnit (s : State) (g m j : Nat) : State :=
  let pc := memberPc g m
  if s.hbm.bad.contains (pc, j) then s
  else (({ s with hbm := { s.hbm with bad := s.hbm.bad ++ [(pc, j)] } }.bump (cntHbm (pcStack pc) 3)).poisonRecord
    (pcSource pc) pc j)

/-- HBM_READ_ERROR: a unit cannot be corrected; it is read again, then reconstructed, then poisoned (R409). A unit that is
poisoned already answers the error at once (R411). -/
def execHbmReadError (pc : Fin 128) (rereadOk reconOk : Bool) (addr : Nat) (target : HbmTarget) (s : State) :
    Host.Outcome State Fault Refusal :=
  done <|
    let g := pcGroup pc
    match s.hbmUnit pc addr with
    | none => s
    | some (m, j) =>
      let answer := fun (s : State) => if s.liesIn target g m j then s.errorResponse target else s
      if !s.validAt pc addr then s
      else if s.hbm.bad.contains (memberPc g m, j) then answer s
      else if rereadOk then s
      else
        let s := s.fault (pcSource pc) 0 0
        if reconOk && (s.stripeLost g j).all (· = m) then (s.countRecon (pcStack pc)).freshen (memberPc g m) j
        else answer ((s.bump (cntHbm (pcStack pc) 1)).poisonUnit g m j)

/-- RECEIVE_INDEX_REBUILD_DONE: a poisoned bucket has been rebuilt from the receive keys of the SA contexts (R412). -/
def execReceiveIndexRebuildDone (b : Nat) (s : State) : Host.Outcome State Fault Refusal :=
  done { s with glz := { s.glz with rxPoison := s.glz.rxPoison.filter (· ≠ b) } }

/-! Refresh (R405) -/

/-- Key of a bank. -/
def bankKey (pc bank : Nat) : Nat := pc * 256 + bank % 256

/-- Refreshes of a bank that are postponed, less those pulled in. -/
def State.postponed (s : State) (pc bank : Nat) : Int := s.hbm.postponed.get 0 (bankKey pc bank)

/-- Replace it. -/
def State.setPostponed (s : State) (pc bank : Nat) (n : Int) : State :=
  { s with hbm := { s.hbm with postponed := s.hbm.postponed.set 0 (bankKey pc bank) n } }

/-- So many refreshes of a bank fall due. -/
def State.refreshDue (s : State) (pc bank fellDue : Nat) : State := s.setPostponed pc bank (s.postponed pc bank + fellDue)

/-- HBM_REF_CTRL.MAX_POSTPONE. -/
def State.maxPostpone (s : State) : Nat := s.fld .hbmRefCtrl 0 0 3 0

/-- HBM_REFRESH: refreshes fall due, and one issues: one that is due and below the limit, or one pulled in while no slice is
in panic, as far ahead as JESD238 permits. -/
def execHbmRefresh (pc : Fin 128) (bank : Nat) (pulledIn : Bool) (fellDue : Nat) (s : State) :
    Host.Outcome State Fault Refusal :=
  done <|
    let s := s.refreshDue pc bank fellDue
    let n := s.postponed pc bank
    let may := if pulledIn then n ≤ 0 ∧ s.bpm.panic.isEmpty ∧ -n < Config.jesd238PullInLimit else 1 ≤ n ∧ n < s.maxPostpone
    if may then s.setPostponed pc bank (n - 1) else s

/-- REFRESH_FORCED: refreshes fall due, and one that has reached the limit issues at rank 1. -/
def execRefreshForced (pc : Fin 128) (bank : Nat) (fellDue : Nat) (s : State) : Host.Outcome State Fault Refusal :=
  done <|
    let s := s.refreshDue pc bank fellDue
    let n := s.postponed pc bank
    if 1 ≤ n ∧ s.maxPostpone ≤ n then (s.setPostponed pc bank (n - 1)).bump (cntHbm (pcStack pc) 5) else s

/-! Members offline (R406, R407) -/

/-- Whether a member of a group may be taken offline. -/
def State.mayGoOffline (s : State) (g : Nat) : Bool :=
  (s.group g).offline.isNone && ((s.group g).state = 0 || (s.group g).state = 2) && s.bpm.panic.isEmpty

/-- A member goes offline. -/
def State.goOffline (s : State) (pc : Nat) (repair : Bool) : State :=
  s.setGroup (pcGroup pc) { s.group (pcGroup pc) with offline := some (pcMember pc), repair := repair, tries := 0 }

/-- When a member's training period ends. -/
def State.trainDue (s : State) (pc : Nat) : Nat := s.lastTrained pc + s.fld .hbmTrainCtrl 0 0 15 0 * 1000 * msNs

/-- Whether the temperature has moved more than DELTA_C since the last training. -/
def State.trainDrift (s : State) (pc : Nat) (temp : Int) : Bool :=
  (s.hbm.trainedC.get none pc).any fun t => s.fld .hbmTrainCtrl 0 0 23 16 < (temp - t).natAbs

/-- HBM_RETRAIN_START: a member goes offline for retraining, for its stack's temperature or at the end of its period
(R407). Retraining pauses in STANDBY (R515). -/
def execHbmRetrainStart (pc : Fin 128) (temp : Int) (s : State) : Host.Outcome State Fault Refusal :=
  done <|
    if !s.mayGoOffline (pcGroup pc) || s.mode = .standby then s
    else
      let s := if s.trainDrift pc temp then s else s.advanceTo (s.trainDue pc)
      { s.goOffline pc false with hbm := { s.hbm with
        trained := s.hbm.trained.set 0 pc s.now, trainedC := s.hbm.trainedC.set none pc (some temp) } }

/-- A member returns to service: its stale segments have been rewritten from reconstruction (R406). -/
def State.memberBack (s : State) (g : Nat) : State :=
  s.setGroup g { s.group g with offline := none, repair := false, tries := 0, stale := [] }

/-- MEMBER_RETURN: the offline work ends; a training that fails is repeated once, and then counts as an event of the
pseudo-channel while the member stays offline (R406, R407). -/
def execMemberReturn (pc : Fin 128) (workOk : Bool) (s : State) : Host.Outcome State Fault Refusal :=
  done <|
    let g := s.group (pcGroup pc)
    if g.offline ≠ some (pcMember pc) then s
    else if g.repair then (if workOk then s.memberBack (pcGroup pc) else s)
    else if 2 ≤ g.tries then s
    else if workOk then s.memberBack (pcGroup pc)
    else
      let s := s.setGroup (pcGroup pc) { g with tries := g.tries + 1 }
      if g.tries = 1 then s.fault (pcSource pc) 0 0 else s

/-! Scrubbers (R412) -/

/-- An HBM lap of this many minutes ends. -/
def State.hbmLap (s : State) (minutes : Nat) : State :=
  let late := s.fld .hbmScrubCtrl 0 0 15 8 * 60 < minutes
  let v := withBits 31 31 (withBits 15 0 (s.reg .hbmScrubStatus 0 0) (min 65535 minutes)) (boolBit late)
  let s := s.setReg .hbmScrubStatus 0 0 v
  if late then s.lateLap else s

/-- What a scrub step does with the members of a stripe that it cannot correct: one alone is rebuilt and rewritten; with
another that is lost, each is poisoned, and structured data in them is handled by its content. Deep data is handled when it
is read. -/
def State.scrubBad (s : State) (g j : Nat) (bad : List Nat) (targets : List HbmTarget) : State :=
  let new := bad.filter fun m => !s.hbm.bad.contains (memberPc g m, j)
  let lost := (List.range 8).filter fun m => new.contains m || (s.stripeLost g j).contains m
  match new, lost with
  | [], _ => s
  | [m], [_] =>
    let pc := memberPc g m
    ((((s.bump (cntHbm (pcStack pc) 4)).countRecon (pcStack pc)).freshen pc j).fault (pcSource pc) 0 0)
  | _, _ =>
    let s := runOver lost (fun m s => s.poisonUnit g m j) s
    runOver (targets.filter fun t => lost.any fun m => s.liesIn t g m j) (fun t s => s.errorResponse t) s

/-- The scrubber reads a stripe of a valid segment (R412). A correction's syndrome is a free value. -/
def State.scrubStripe (s : State) (g j : Nat) (corrected bad : List Nat) (parityDisagrees : Bool) (targets : List HbmTarget) :
    State :=
  let here := fun (l : List Nat) => (List.range 8).filter l.contains
  let hurt := (List.range 8).filter fun m => s.flt.corrupt.get 0 (pcSource (memberPc g m)) ≠ 0
  let s := runOver hurt (fun m s => (s.takeCorrupt (pcSource (memberPc g m))).2) s
  let fixed := (here (corrected ++ hurt)).filter fun m => !bad.contains m
  let s := runOver fixed (fun m s =>
    let (v, s) := s.draw 8
    s.logCorrection (memberPc g m) j v.toNat) s
  let s := if fixed.isEmpty && (here bad).isEmpty && parityDisagrees then s.bump (cntHbm (pcStack (memberPc g (parityMember j))) 4)
    else s
  s.scrubBad g j (here bad) targets

/-- HBM_SCRUB_STEP: the scrubber reads one stripe. It takes no step while a slice is in panic, and pauses in STANDBY (R404,
R515); a segment that is not valid is skipped (R402). -/
def execHbmScrubStep (g : Slice) (stripe : Nat) (corrected bad : List Nat) (parityDisagrees : Bool) (targets : List HbmTarget)
    (lapEnd : Option Nat) (s : State) : Host.Outcome State Fault Refusal :=
  done <|
    if !s.bit .hbmScrubCtrl 0 0 0 || !s.bpm.panic.isEmpty || s.mode = .standby then s
    else
      let s := if s.hbm.segs.contains (g.val, segmentOf stripe) then s.scrubStripe g stripe corrected bad parityDisagrees targets
        else s
      match lapEnd with
      | some m => s.hbmLap m
      | none => s

/-- A class whose memories have their own scrubbers. -/
def scrubbedOnDie (c : Nat) : Bool := c = 1 || c = 2 || c = 3 || c = 5 || c = 7 || c = 8

/-- An on-die lap of this many ms ends. -/
def State.onDieLap (s : State) (ms : Nat) : State :=
  if s.fld .mixScrubCtrl 0 0 15 0 < ms then
    (s.setReg .hbmScrubStatus 0 0 (withBits 30 30 (s.reg .hbmScrubStatus 0 0) 1)).lateLap
  else s

/-- The location of the tables that a word of a quad's exact-match and route memory belongs to. -/
def quadLoc (obj : Nat) : TableLoc :=
  if h : obj < 1048576 then .emSlot ⟨obj, h⟩ else .routeNode (obj - 1048576)

/-- A word that a scrubber cannot correct: one of class 3 is restored by Proofing, and in the other classes it is poisoned;
the SOURCE of its record is a free value (R411, R412). -/
def State.scrubLost (s : State) (n addr : Nat) : State :=
  if memClass n = 3 then s.poisonAt (memIndex n) (quadLoc (wordObject n addr))
  else if s.hbm.poison.contains (n, addr) then s
  else
    let (v, s) := s.draw 16
    { s with hbm := { s.hbm with poison := s.hbm.poison ++ [(n, addr)] } }.poisonRecord v.toNat n addr

/-- ONDIE_SCRUB_STEP: an on-die scrubber reads one word, and skips one that is not valid (R402). -/
def execOndieScrubStep (inst : BitVec 12) (addr : BitVec 40) (found : ScrubFinding) (lapEnd : Option Nat) (s : State) :
    Host.Outcome State Fault Refusal :=
  done <|
    let n := inst.toNat
    if !hasLog n || !scrubbedOnDie (memClass n) || s.mode = .standby then s
    else
      let s := if !s.validAt n addr.toNat then s
        else match found with
        | .clean => s
        | .corrected syn => s.logCorrection n addr.toNat syn.toNat
        | .uncorrectable => s.scrubLost n addr.toNat
      match lapEnd with
      | some ms => s.onDieLap ms
      | none => s

/-! Sparing and withdrawal (R413, R414, Table 13.5) -/

/-- The buffer that holds a location leaves its pool, once its frame has left the device. A location outside the pools
belongs to no buffer. -/
def State.withdrawBuffer (s : State) (inst addr : Nat) : State :=
  let obj := wordObject inst addr
  let k := poolKey (memIndex inst % 2 = 1) (memIndex inst / 2) (obj / 262144) (obj / 65536 % 4)
  let l := s.bpm.gone.get [] k
  if obj = 524288 ∨ l.contains (obj % 65536) then s
  else { s with bpm := { s.bpm with gone := s.bpm.gone.set [] k (l ++ [obj % 65536]) } }

/-- A slot or a route node is marked occupied, in the quads and the shadow. -/
def State.withdrawSlot (s : State) (inst addr : Nat) : State :=
  let obj := wordObject inst addr
  if obj < 2 ^ 20 then { s with tabs := { s.tabs with emGone := s.tabs.emGone ++ [obj] } }.shadowPut (emLoc obj) [255]
  else { s with tabs := { s.tabs with lpmGone := s.tabs.lpmGone + 1 } }.shadowPut (nodeLoc (obj % 2 ^ 20)) [255]

/-- A unit of HBM with no spare left: its segment of the deep area is to be withdrawn; in the structured area, the location
counts as a permanent-fault event. A parity unit of the stripe that straddles the areas counts as structured. Log entry
61. -/
def State.withdrawUnit (s : State) (pc addr : Nat) : State :=
  match s.hbmUnit pc addr with
  | none => s
  | some (m, j) =>
    let d := memberUnit j m
    if deepAddr (groupAddr j (if d = 7 then 6 else d) 0) then
      let w := (pcGroup pc, segmentOf j)
      if s.bpm.withdrawn.contains w then s else { s with bpm := { s.bpm with withdrawn := s.bpm.withdrawn ++ [w] } }
    else s.fault (pcSource pc) 0 0

/-- The loss of a location is reported (R38, R414): a NO_SPARE record, whose SOURCE for an on-die memory is a free value. -/
def State.reportLoss (s : State) (inst addr : Nat) : State :=
  let (v, s) := if memClass inst = 0 then (pcSource (memIndex inst), s) else ((s.draw 16).1.toNat, (s.draw 16).2)
  s.faultRecord { source := v, reason := .noSpare, detail := inst + addr * 2 ^ 12, firstTime := s.now, time := s.now }

/-- A location with no spare left is withdrawn (Table 13.5). -/
def State.withdraw (s : State) (inst addr : Nat) : State :=
  let idx := memIndex inst
  let s := match memClass inst with
    | 0 => s.withdrawUnit idx addr
    | 1 => s.withdrawBuffer inst addr
    | 2 => s.withdrawBuffer inst addr
    | 3 => s.withdrawSlot inst addr
    | 5 =>
      let e := wordObject inst addr / 2
      if idx % 2 = 1 && e < 2048 then
        let gone := s.glz.cacheGone.get [] (idx / 2)
        if gone.contains e then s else { s with glz := { s.glz with cacheGone := s.glz.cacheGone.set [] (idx / 2) (gone ++ [e]) } }
      else s.criticalLine 0x4F3
    | _ => s.criticalLine 0x4F3
  s.reportLoss inst addr

/-- Record a repair in the Kiln Record; `how` is 0 row, 1 column, 2 post-package repair (Table 16.11). -/
def State.repaired (s : State) (inst addr how : Nat) : State :=
  s.kilnPerm 0x0013 3 (leBytes 2 inst ++ leBytes 5 addr ++ leBytes 1 how)

/-- MEM_SPARE: a hard location is spared, or withdrawn when no spare is left. A post-package repair takes its member
offline. -/
def execMemSpare (inst : BitVec 12) (addr : BitVec 40) (how : SpareKind) (s : State) : Host.Outcome State Fault Refusal :=
  done <|
    let n := inst.toNat
    let a := addr.toNat
    let dealt := fun (s : State) => { s with hbm := { s.hbm with hard := s.hbm.hard.filter (· ≠ (n, a)) } }
    if !s.hbm.hard.contains (n, a) then s
    else match how with
      | .row => if memClass n = 0 then s else (dealt s).repaired n a 0
      | .column => if memClass n = 0 then s else (dealt s).repaired n a 1
      | .ppr =>
        if memClass n ≠ 0 || !s.mayGoOffline (pcGroup (memIndex n)) then s
        else ((dealt s).goOffline (memIndex n) true).repaired n a 2
      | .noneLeft => (dealt s).withdraw n a

/-! Repair of a pseudo-channel (R415, R416) -/

/-- A group's state changes, and the Kiln Record has it (Table 16.11). -/
def State.groupState (s : State) (g : Nat) (x : GroupState) (member : Nat) : State :=
  let s := s.setGroup g x
  if s.mode = .factoryTest then s else s.kilnPerm 0x0015 3 (leBytes 1 g ++ leBytes 1 x.state ++ leBytes 1 member)

/-- The source that runs in a group's pool. -/
def State.groupRunning (s : State) (g : Nat) : Option Nat := s.flt.running.find? fun n => poolOf n = some (500 + g)

/-- GROUP_REBUILD_DONE: segments up to this number have been switched to the spare bands, in order; with the last, the group
is `REBUILT` (R415). -/
def execGroupRebuildDone (g : Slice) (switched : Nat) (s : State) : Host.Outcome State Fault Refusal :=
  done <|
    let x := s.group g
    if x.state ≠ 1 then s
    else
      let n := max x.progress (min switched segmentCount)
      if n < segmentCount then s.setGroup g { x with progress := n }
      else
        let s := s.groupState g { x with state := 2, progress := n } (x.failed1.getD 0)
        match s.groupRunning g with
        | some n => s.noteRetired n 0xFFFF
        | none => s

/-- GROUP_EVACUATION_DONE: structured units have moved until so many times 1,024 are left, and are placed anew; when none is
left and the last page of the group is free, it is `RETIRED` (R416). -/
def execGroupEvacuationDone (g : Slice) (left : Nat) (s : State) : Host.Outcome State Fault Refusal :=
  done <|
    let x := s.group g
    if x.state ≠ 3 then s
    else
      let n := min x.progress left
      let s := { s with hbm := { s.hbm with moves := s.hbm.moves + 1 } }
      if n ≠ 0 || !(s.groupPages g).isEmpty then s.setGroup g { x with progress := n }
      else
        let s := s.groupState g { x with state := 4, progress := 0 } (x.failed2.getD 0)
        match s.groupRunning g with
        | some n => s.endRetirement n
        | none => s

/-- The retirement of a member starts: the group is rebuilt, or evacuated when it is not `NORMAL` (R415, R416). -/
def State.retireMember (s : State) (n : Nat) : State :=
  let pc := n - 0x320
  let g := pcGroup pc
  let x := s.group g
  let clear := fun (x : GroupState) =>
    if x.offline = some (pcMember pc) then { x with offline := none, tries := 0, repair := false, stale := [] } else x
  if x.state = 0 then s.groupState g (clear { x with state := 1, failed1 := some (pcMember pc), progress := 0 }) (pcMember pc)
  else if x.state = 2 then
    -- how much structured data lies in the group is the device's own, at most 17,408 times 1,024 units
    let (v, s) := s.draw 15
    (s.groupState g (clear { x with state := 3, failed2 := some (pcMember pc), progress := v.toNat % 17409 }) (pcMember pc)).degrade n
  else s.endRetirement n

end Sys2Proof.Machine
end

