-- ==== Sys2Proof/Machine/Route.lean ====
section
/-! DEFINITION. Longest-prefix routes, the replicas and Proofing (chapter 06). -/

namespace Sys2Proof.Machine

/-! Routes (R197 to R199) -/

/-- Bytes of an address of a family. -/
def famBytes (fam : Nat) : Nat := if fam = 1 then 4 else 16

/-- Whether two addresses agree in their first n bits. -/
def prefixEqual (a b : Bytes) (len n : Nat) : Bool := beNat (sliceOf a 0 len) / 2 ^ (8 * len - n) = beNat (sliceOf b 0 len) / 2 ^ (8 * len - n)

/-- The route chosen in a generation (R198). -/
def State.bestRoute (s : State) (fam vrf : Nat) (addr : Bytes) (g : Gen) : Option Route :=
  s.tabs.routes.foldl (fun best r =>
    if r.tag.visible g && r.fam = fam && r.vrf = vrf && prefixEqual r.addr addr (famBytes fam) r.plen &&
        (best.all fun b => b.plen < r.plen) then some r else best) none

/-- Whether a route record is refused (R177, R199, Table 06.7). -/
def badRoute (b : Bytes) : Bool :=
  let fam := byteAt b 0
  let n := famBytes fam
  let plen := byteAt b 1
  (fam ≠ 1 && fam ≠ 2) || 8 * n < plen || 4095 < leAt b 2 2 || !zeroAt b 4 4 || badAdata (leAt b 8 8) || bitOf 50 (leAt b 8 8) ||
    (fam = 1 && !zeroAt b 20 12) || beAt b 16 n % 2 ^ (8 * n - plen) ≠ 0

/-- The route of a record. -/
def routeOf (b : Bytes) (tag : VTag) : Route :=
  ⟨tag, byteAt b 0, leAt b 2 2, byteAt b 1, sliceOf b 16 16, leAt b 8 8⟩

/-- Whether two route versions have the same FAMILY, VRF, PLEN and PREFIX. -/
def Route.same (a b : Route) : Bool := a.fam = b.fam && a.vrf = b.vrf && a.plen = b.plen && a.addr = b.addr

/-- The version visible in STAGING with the key of `x`. -/
def State.routeIn (s : State) (x : Route) : Option Route := s.tabs.routes.find? fun r => r.same x && r.tag.visible s.staging

/-- Whether there is room for one more version of a family (R199). -/
def State.routeRoom (s : State) (fam : Nat) : Bool :=
  (s.tabs.routes.countP fun r => r.fam = fam) < (if fam = 1 then 1048576 else 262144) - s.tabs.lpmGone

/-- LPM_ADD (R54, R199, R561). -/
def execLpmAdd (r : Ring) (rec : Dma) (s : State) : Host.Outcome State Fault Refusal :=
  done <| s.recCommand r 0x0040 true rec fun _ b s =>
    let x := routeOf b s.bornTag
    if badRoute b then s.complete r .lpmBadRecord
    else if (s.routeIn x).isSome then s.complete r .lpmExists
    else if !s.routeRoom x.fam then s.complete r .lpmFull
    else if !s.logRoom 1 then s.complete r .genLogFull
    else ((s.setRoutes (s.tabs.routes ++ [x]) x.node).logChange 1).complete r .ok

/-- LPM_MODIFY: ADATA only (R54, R199, R561). -/
def execLpmModify (r : Ring) (rec : Dma) (s : State) : Host.Outcome State Fault Refusal :=
  done <| s.recCommand r 0x0041 true rec fun _ b s =>
    let x := routeOf b s.bornTag
    if badRoute b then s.complete r .lpmBadRecord else
    match s.routeIn x with
    | none => s.complete r .lpmNotFound
    | some old =>
      if s.madeInStaging old.tag then
        if !s.logRoom 1 then s.complete r .genLogFull
        else ((s.setRoutes (s.tabs.routes.map fun y => if y = old then { old with adata := x.adata } else y) x.node).logChange 1).complete r .ok
      else if !s.routeRoom x.fam then s.complete r .lpmFull
      else if !s.logRoom 1 then s.complete r .genLogFull
      else
        let l := s.tabs.routes.map fun y => if y = old then { old with tag := s.diedTag old.tag } else y
        ((s.setRoutes (l ++ [x]) x.node).logChange 1).complete r .ok

/-- LPM_DELETE (R54, R199, R561). -/
def execLpmDelete (r : Ring) (rec : Dma) (s : State) : Host.Outcome State Fault Refusal :=
  done <| s.recCommand r 0x0042 true rec fun _ b s =>
    let x := routeOf b s.bornTag
    if badRoute b then s.complete r .lpmBadRecord else
    match s.routeIn x with
    | none => s.complete r .lpmNotFound
    | some old =>
      if !s.logRoom 1 then s.complete r .genLogFull
      else
        let l := if s.madeInStaging old.tag then s.tabs.routes.filter fun y => y ≠ old
          else s.tabs.routes.map fun y => if y = old then { old with tag := s.diedTag old.tag } else y
        ((s.setRoutes l x.node).logChange 1).complete r .ok

/-- LPM_FAM of a frame's lookup profile. -/
def State.lpmFam (s : State) (x : Frame) : Nat := s.fld .emtKeyselCtrl 0 x.profile 7 6

/-- The address of a frame's route lookup (R197). -/
def State.lpmAddr (s : State) (x : Frame) : Bytes :=
  sliceOf x.hv (s.fld .emtKeyselCtrl 0 x.profile 15 8) (famBytes (s.lpmFam x))

/-- The VRF of a frame's route lookup (R197). -/
def State.lpmVrf (s : State) (x : Frame) : Nat :=
  let o := s.fld .emtKeyselCtrl 0 x.profile 23 16
  if o = 255 then s.fld .emtKeyselCtrl 0 x.profile 35 24 else beAt x.hv o 2 % 4096

/-- A route result returns (R172, R173, R198). -/
def execLpmLookupResult (f : Nat) (errors : Nat) (s : State) : Host.Outcome State Fault Refusal :=
  done <|
    let x := s.frame f
    let fam := s.lpmFam x
    if !x.issued || x.route.back || x.ing ≠ .landing || fam = 0 then s else
    let q := x.slice / 4
    let addr := s.lpmAddr x
    let vrf := s.lpmVrf x
    let node := nodeOf fam vrf addr
    let s := s.lookupErrors x.slice errors
    let s := if errors ≤ 3 then s else s.setTabs { s.tabs with lpmPoison := s.tabs.lpmPoison ++ [(q, node)] }
    if s.tabs.lpmPoison.contains (q, node) then s.setFrame f { x with route := { back := true, bad := true } }
    else
      match s.bestRoute fam vrf addr x.gen with
      | some r => (s.setFrame f { x with route := { back := true, hit := true, data := r.adata } }).pmcCount 4 q 2 1
      | none => s.setFrame f { x with route := { back := true } }

/-! Proofing (R200 to R205) -/

/-- Set a field of EMT_PROOF_STATUS. -/
def State.proofStatus (s : State) (hi lo v : Nat) : State :=
  s.setReg .emtProofStatus 0 0 (withBits hi lo (s.reg .emtProofStatus 0 0) v)

/-- The error line of a location's memory is asserted (R202, Table 14.1). Profile cells have no source of their own in the
table and take that of their quad's memory: log entry 108. -/
def State.proofError (s : State) (q : Nat) (l : TableLoc) : State :=
  match l with
  | .emSlot _ | .routeNode _ | .profileCell _ => s.fault (0x34 + q) 0 0
  | .ruleCell t c =>
    let k := poisonKey q (t.val * 1024 + c.val)
    let s := s.fault (s.tileSource q t) 0 0
    if s.tabs.ruleRestored.contains k then s else s.setTabs { s.tabs with ruleRestored := s.tabs.ruleRestored ++ [k] }

/-- Quad q is rewritten from the shadow at a location (R202). -/
def State.proofFix (s : State) (q : Nat) (l : TableLoc) : State := ((s.clearPoison q l).bump (cntEmt q 4)).proofError q l

/-- A read of a rule cell fails parity in quad q: the cell is poisoned at once, and one that Proofing had restored is an
event (R161, R163). -/
def State.proofParity (s : State) (q : Nat) (l : TableLoc) : State :=
  match l with
  | .ruleCell t c =>
    let k := t.val * 1024 + c.val
    (if s.tabs.ruleRestored.contains (poisonKey q k) then s.fault (s.tileSource q t) 0 0 else s).poisonRule q k
  | _ => s

/-- Whether the lap of Proofing has visited every exact-match slot, rule cell and profile cell, and the node of every
route (R205). -/
def State.lapCovers (s : State) : Bool :=
  1048576 + 65536 + 128 ≤ (s.tabs.proofSeen.filter (· < nodeLoc 0)).length &&
    s.nodesUsed.all fun n => s.tabs.proofSeen.contains (nodeLoc n)

/-- A location is visited in the current lap. -/
def State.proofVisit (s : State) (l : TableLoc) : State :=
  let s := s.setTabs { s.tabs with six := some .lap }
  if s.tabs.proofSeen.contains (locNumber l) then s else s.setTabs { s.tabs with proofSeen := s.tabs.proofSeen ++ [locNumber l] }

/-- The lap ends: PROOF_LAP_S, PROOF_LATE and the late event (R205). -/
def State.proofLapEnd (s : State) : State :=
  let ns := s.now - s.tabs.proofStart
  let late := s.fld .emtProofCtrl 0 0 31 16 * 1000000000 < ns
  let s := (s.proofStatus 31 16 (min (ns / 1000000000) 65535)).proofStatus 2 2 (boolBit late)
  let s := s.setTabs { s.tabs with proofStart := s.now, proofSeen := [], six := none }
  if late then s.lateLap else s

/-- Whether Proofing may visit a location: a poisoned one in class 1, ahead of the lap; any other as a step of the lap
(R203, Table 08.12). -/
def State.mayProof (s : State) (l : TableLoc) : Bool :=
  s.proofOn && !s.tabs.dead && s.mode ≠ .standby &&
    (if (List.range 4).any fun q => s.poisonedAt q l then !s.seqAhead 1 else !s.seqAhead 6 && s.sixFree .lap)

/-- Proofing visits a location, or ends a lap (R202, R203, R205). -/
def execProofingStep (l : TableLoc) (finding : ProofFinding) (s : State) : Host.Outcome State Fault Refusal :=
  done <|
    if finding = .lapEnd then (if s.proofOn && !s.tabs.dead && s.sixFree .lap && s.lapCovers then s.proofLapEnd else s)
    else if !s.mayProof l then s
    else
      s.seqStep (dead := id) fun s =>
      let poisoned := (List.range 4).filter fun q => s.poisonedAt q l
      let fix := fun (qs : List Nat) (s : State) => runOver qs (fun q s => s.proofFix q l) s
      let s := if poisoned.isEmpty then s.proofVisit l else s
      match finding with
      | .same => fix poisoned s
      | .quadsDiffer qs => fix ((List.range 4).filter fun q => poisoned.contains q || (qs.map Fin.val).contains q) s
      | .shadowDiffers => (s.shadowPut (locNumber l) (s.imageAt l)).proofStatus 15 8 (min 255 (s.fld .emtProofStatus 0 0 15 8 + 1))
      | .shadowReadFailed => s.proofStatus 0 0 1
      | .parity qs => runOver (qs.map Fin.val) (fun q s => s.proofParity q l) (fix poisoned s)
      | .lapEnd => s

/-- REBUILD is written 1 (R204). -/
def execProofRebuild (f : Fn) (s : State) : Host.Outcome State Fault Refusal :=
  done <| s.rowWrite f .emtProofCtrl 0 0 fun s =>
    if s.tabs.dead || s.bit .emtProofCtrl 0 0 1 then s
    else
      let s := (s.setReg .emtProofCtrl 0 0 (withBits 1 1 (s.reg .emtProofCtrl 0 0) 1)).proofStatus 1 1 1
      s.setTabs { s.tabs with rebuildAt := 0 }

/-- The least listed node that is not below `n`. -/
def leastFrom (n : Nat) (l : List Nat) : Option Nat := leastWhere (n ≤ ·) l

/-- The location at REBUILD's cursor, by its number, and the number after it; none when every location has been rewritten. -/
def State.rebuildNext (s : State) : Option (TableLoc × Nat) :=
  let k := s.tabs.rebuildAt
  if h : k < 1048576 then some (.emSlot ⟨k, h⟩, k + 1)
  else if k < 1048576 + 65536 then
    let c := k - 1048576
    some (.ruleCell (Fin.ofNat 64 (c / 1024)) (Fin.ofNat 1024 c), k + 1)
  else if k < 1048576 + 65536 + 128 then some (.profileCell (Fin.ofNat 128 (k - 1048576 - 65536)), k + 1)
  else (leastFrom (k - nodeLoc 0) (s.nodesUsed ++ s.tabs.lpmPoison.map Prod.snd)).map fun n => (.routeNode n, nodeLoc n + 1)

/-- One location of REBUILD: the shadow takes the value that at least three quads hold, and a location without such a
majority is poisoned in every quad (R204). The quads agree wherever none is poisoned (R200). -/
def State.rebuildStep (s : State) (l : TableLoc) (next : Nat) : State :=
  s.seqStep (dead := id) fun s =>
    let s := s.setTabs { s.tabs with rebuildAt := next, six := some .rebuild }
    if 2 ≤ (List.range 4).countP fun q => s.poisonedAt q l then runOver (List.range 4) (fun q s => s.poisonAt q l) s
    else s.shadowPut (locNumber l) (s.imageAt l)

/-- The rebuild ends once every location has been rewritten (R204). -/
def execProofRebuildDone (s : State) : Host.Outcome State Fault Refusal :=
  done <| if !s.bit .emtProofCtrl 0 0 1 || s.tabs.dead || s.rebuildNext.isSome then s else
    let s := s.setReg .emtProofCtrl 0 0 (withBits 1 1 (s.reg .emtProofCtrl 0 0) 0)
    let s := s.setTabs { s.tabs with rebuildAt := 0, six := if s.tabs.six = some .rebuild then none else s.tabs.six }
    (s.proofStatus 1 1 0).proofStatus 0 0 0

end Sys2Proof.Machine
end

