-- ==== Sys2Proof/Machine/Seq.lean ====
section
/-! DEFINITION. The table sequencer: flushes, saved routines and machine checks (chapter 08, R186). -/

namespace Sys2Proof.Machine

/-! EM_FLUSH (R186, R284 to R287) -/

/-- Replace the saved flush. -/
def State.setFlush (s : State) (f : Option Flush) : State := s.setTabs { s.tabs with flush := f }

/-- EM_FLUSH starts, or waits its turn in class 5: behind a routine that has begun, and behind a commit that waits for one
(R186, R285). -/
def execEmFlush (r : Ring) (s : State) : Host.Outcome State Fault Refusal :=
  done <|
    if s.begun r 0x35 || (!s.gen.waiting.isEmpty && s.gen.armed.isNone) then s else
    s.seqCommand r 0x0035 true fun d s =>
      let f : Flush := ⟨r, byteAt d 0x10, leAt d 0x14 4, byteAt d 0x11 = 1, 0, 0, 0, 0⟩
      if s.fiveBusy then s.setTabs { s.tabs with flushWait := s.tabs.flushWait ++ [f] } else s.beginFlush f

/-- What an EM_FLUSH does to one slot. A software entry placed since the flush began for which the change log has no room is
passed over: log entry 17. -/
def State.flushSlot (s : State) (f : Flush) (k : Nat) : State × Flush :=
  match s.slot k with
  | none => (s, f)
  | some e =>
    if !f.selects e then (s, f)
    else if e.lrn then (if e.tag.ds then (s, f) else (s.clearSlot k, { f with removed := f.removed + 1 }))
    else if !e.tag.visible s.staging || 1048576 ≤ s.logUsed s.staging then (s, f)
    else
      let t := if s.madeInStaging e.tag then s.clearSlot k else s.killSlot k
      (t.logChange 1, { f with deleted := f.deleted + 1, room := f.room - 1 })

/-- A list of slots. -/
def State.flushSlots (s : State) (f : Flush) : List Nat → State × Flush
  | [] => (s, f)
  | k :: rest => let p := s.flushSlot f k; p.1.flushSlots p.2 rest

/-- A flush ends: the next class-5 routine begins, and the command completes with its counts (R186). -/
def State.finishFlush (s : State) (f : Flush) : State :=
  ((s.setFlush none).nextFive (s.tabs.flushWait.length + 1)).complete f.ring .ok f.deleted (leBytes 4 f.removed)

/-- One step of the saved flush: both ways of one bucket (R186). -/
def State.flushStep (s : State) (f : Flush) : State :=
  s.seqStep (dead := id) fun s =>
    let (t, f) := s.flushSlots f (bothWays f.bucket)
    let f := { f with bucket := f.bucket + 1 }
    if f.bucket < 131072 then t.setFlush (some f) else t.finishFlush f

/-- One cell of a tile copy: a step of class 1 (Tables 05.5 and 08.12). -/
def State.copyStep (s : State) (q : Nat) (c : TileCopy) : State :=
  s.seqStep (dead := id) fun s => s.setTabs { s.tabs with copies := s.tabs.copies.set none q (some { c with cell := c.cell + 1 }) }

/-- One step of the saved or waiting routine of the highest class, of those that need nothing from outside: a tile copy, a
settle, an abort, a flush or a rebuild. None when work of a higher class waits that has a row of its own, or nothing is
left (R285). -/
def State.routineStep (s : State) : Option State :=
  if s.tabs.dead || s.seqAhead 1 then none
  else
    match s.copyNext with
    | some (q, c) => if s.poisonWaits && c.cell = 0 then none else some (s.copyStep q c)
    | none =>
      if s.poisonWaits || s.anyCmd 2 then none
      else if !s.gen.settled then some s.settleStep
      else if !s.tabs.jobs.isEmpty then none
      else
        match s.tabs.abort, s.tabs.flush with
        | some a, _ => some (s.abortStep a)
        | none, some f => some (s.flushStep f)
        | none, none =>
          if s.seqAhead 6 || !s.bit .emtProofCtrl 0 0 1 || !s.sixFree .rebuild then none
          else s.rebuildNext.map fun x => s.rebuildStep x.1 x.2

/-- Steps of routines, until none is left to take. -/
def State.routineSteps (s : State) : Nat → State
  | 0 => s
  | n + 1 =>
    match s.routineStep with
    | some t => t.routineSteps n
    | none => s

/-- The sequencer is free: it resumes the saved routine, or starts the work, of the highest class for up to `steps` steps
(R285). Commands, learns, sweeps and Proofing's visits have rows of their own. -/
def execSeqRoutineResume (steps : Nat) (s : State) : Host.Outcome State Fault Refusal := done (s.routineSteps steps)

/-! Machine checks (R262, R263, R267, R268) -/

/-- A step of the sequencer takes a machine check, of a cause that its address can have (R258, R263, R267). -/
def execSeqMachineCheck (cause : Fin 7) (addr : BitVec 12) (inPatch : Bool) (s : State) :
    Host.Outcome State Fault Refusal :=
  done <| if s.tabs.dead || !s.bur.seqPatch.mayCheck .sequencer cause addr.toNat inPatch then s else
    s.seqCheck cause (cause.val * 2 ^ 28 + boolBit inPatch * 2 ^ 27 + addr.toNat * 2 ^ 12)

/-! Patch bundles (Table 08.4, R261) -/

/-- MATCH records of a bundle. -/
def bundleMatches (b : Bytes) : List Nat := (List.range (byteAt b 3)).map fun k => leAt b (16 + 4 * k) 4

/-- Control words of a bundle. -/
def bundleWords (b : Bytes) : List Nat := (List.range (leAt b 12 2)).map fun k => leAt b (16 + 4 * byteAt b 3 + 16 * k) 16

/-- Whether a bundle is refused for an engine kind with this ROM: a field outside its range, another ROM, an index at or
beyond NWORDS, an address named twice, or a wrong CRC (R261). A word's reserved bits, and CKPT in a Burin word, must be 0
(Table 08.2). -/
def badBundle (b : Bytes) (k : EngineKind) (romId : Nat) : Bool :=
  let n := byteAt b 3
  let w := leAt b 12 2
  let len := 16 + 4 * n + 16 * w
  let ms := bundleMatches b
  let valid := ms.filter fun m => bitOf 31 m
  leAt b 0 2 ≠ 0x5450 || 32 < n || leAt b 4 4 ≠ romId || leAt b 8 4 = 0 || k.patchSize < w || leAt b 14 2 ≠ 0 || b.length ≠ len + 4 ||
    (ms.any fun m => bitsOf 30 28 m ≠ 0 || bitsOf 15 8 m ≠ 0 || w ≤ bitsOf 7 0 m) ||
    ((List.range valid.length).any fun i => (List.range i).any fun j => bitsOf 27 16 (valid.getD i 0) = bitsOf 27 16 (valid.getD j 0)) ||
    ((bundleWords b).any fun x => bitsOf 67 64 x ≠ 0 || (k = .burin && wordCkpt x)) || leAt b len 4 ≠ crc32 (b.take len)

/-- Load a bundle; none when it is refused, which leaves the engines as they were (R260, R261). -/
def State.loadBundle (s : State) (b : Bytes) : Option State :=
  let p : Patch := ⟨bundleMatches b, (bundleWords b).map storeWord⟩
  match byteAt b 2 with
  | 1 =>
    if badBundle b .burin (s.reg .burRomId 0 0) then none
    else some ({ s with bur := { s.bur with patch := p } }.setReg .burPatchId 0 0 (leAt b 8 4))
  | 2 =>
    if badBundle b .sequencer (s.reg .seqRomId 0 0) then none
    else some ({ s with bur := { s.bur with seqPatch := p } }.setReg .seqPatchId 0 0 (leAt b 8 4))
  | _ => none

end Sys2Proof.Machine
end

