-- ==== Sys2Proof/Machine/Fault.lean ====
section
/-! DEFINITION. Fault events, the order of retirements, the sparing of rule tiles, record holdoffs and fault injection
(chapter 14, R163, R164, R309, R310). -/

namespace Sys2Proof.Machine

/-! Events and records (R418 to R423, R439) -/

/-- The counter of its own chapter in which an event of a count-only source counts (R420): FAB_MATCH_ERR_CNT of the matcher,
EMT_RETRY_CNT of a quad. -/
def chapterCounter (n : Nat) : Nat := if n = 0x30 then cntMatchErr else cntEmt (n - 0x34) 3

/-- Events of a source, with what a new classification of it brings (R268, R420, R427). -/
def State.faultWith (s : State) (n cause detail k : Nat) : State :=
  let before := (s.fsrc 0x31).perm
  let s := if sourceKind n = .countOnly then s.bumpBy (chapterCounter n) k else s
  let s := s.faultEventAt n cause detail k s.now
  if n = 0x31 then s.seqConsequence before else s.laneConsequence n

/-- FAULT_EVENT: `count` events that a block delivers now (R418, R422). Critical lines have a row of their own (R431). -/
def execFaultEvent (n : Nat) (cause : BitVec 8) (detail : BitVec 64) (count : Nat) (s : State) :
    Host.Outcome State Fault Refusal :=
  done <|
    if count = 0 || sourceKind n = .critical then s
    else s.faultWith n cause.toNat detail.toNat count

/-- FAULT_HOLDOFF_END: the record of the events held back is written (R439). -/
def execFaultHoldoffEnd (n : Nat) (s : State) : Host.Outcome State Fault Refusal :=
  done <|
    let x := s.fsrc n
    if x.holdEnd = 0 then s
    else
      let s := (s.advanceTo x.holdEnd).setFsrc n { x with holdEnd := 0 }
      if x.count = 0 then s else s.heldRecord n (if n = 0x4FF then .configError else .transient)

/-! Rule tiles (R163, R164, Table 05.5) -/

/-- Logical tile t of quad q is lost (R164): no physical tile serves it. -/
def State.loseTile (s : State) (q n p : Nat) : State :=
  ((s.setTileMap q ((s.tileMap q).swap p none)).endRetirement n).degrade n

/-- Replace the copy of a quad. -/
def State.setCopy (s : State) (q : Nat) (c : Option TileCopy) : State :=
  { s with tabs := { s.tabs with copies := s.tabs.copies.set none q c } }

/-- The copy of a permanent tile's position into the lowest spare begins, or the tile is lost. -/
def State.startTileCopy (s : State) (q n p t : Nat) : State :=
  match (s.tileMap q).spares 68 with
  | v :: _ => s.setCopy q (some ⟨n, t, v, 0⟩)
  | [] => (s.setCopy q none).loseTile q n p

/-- TILE_COPY_DONE: once its 1,024 cells are copied the spare is read back and compared; it takes the tile's position, or is
retired and the copy begins again with the next (Table 05.5, R425). A sequencer classed permanent copies no more (R268). -/
def execTileCopyDone (q : Quad) (good : Bool) (s : State) : Host.Outcome State Fault Refusal :=
  done <|
    match s.tabs.copies.get none q with
    | none => s
    | some c =>
      if c.cell < 1024 || s.tabs.dead then s else
      let m := s.tileMap q
      let p := ((m.pos.getD c.tile none).getD c.tile)
      if good then
        let here := fun k => k / 65536 = q.val && k % 65536 / 1024 = c.tile
        let s := (s.setTileMap q (m.swap p (some c.spare))).setCopy q none
        let s := s.setTabs { s.tabs with
          rulePoison := s.tabs.rulePoison.filter (!here ·)
          ruleRestored := s.tabs.ruleRestored.filter (!here ·) }
        s.noteRetired c.source c.spare
      else
        let s := s.setTileMap q { m with retired := m.retired ++ [c.spare] }
        (s.rejectSpare (0x210 + 68 * q.val + c.spare)).startTileCopy q c.source p c.tile

/-! The order of retirements (R424, R426) -/

/-- A unit that serves no position is classed permanent: it is a spare no more. -/
def UnitMap.drop (m : UnitMap) (u : Nat) : UnitMap := { m with retired := m.retired ++ [u] }

/-- The retirement of a source runs. Lanes, pairs and engines that serve have rows of their own for the swap. -/
def State.startRetirement (s : State) (n : Nat) : State :=
  match sourceCat n with
  | 0 =>
    if s.units.planes.pos.contains (some n) then
      let s := s.startPlaneCheck n
      if s.fab.check.isSome then s else s.degrade n
    else ({ s with units := { s.units with planes := s.units.planes.drop n } }).endRetirement n
  | 2 =>
    let i := (n - 0x40) / 12
    let u := (n - 0x40) % 12
    if (s.encMap i).pos.contains (some u) then s else (s.setEncMap i ((s.encMap i).drop u)).endRetirement n
  | 3 =>
    let i := (n - 0x100) / 12
    let u := (n - 0x100) % 12
    if (s.decMap i).pos.contains (some u) then s else (s.setDecMap i ((s.decMap i).drop u)).endRetirement n
  | 4 =>
    let i := (n - 0x1C0) / 5
    let u := (n - 0x1C0) % 5
    if (s.engMap i).pos.contains (some u) then s else (s.setEngMap i ((s.engMap i).drop u)).endRetirement n
  | 5 =>
    let q := (n - 0x210) / 68
    let p := (n - 0x210) % 68
    match (List.range 64).find? fun t => (s.tileMap q).pos.getD t none = some p with
    | some t => s.startTileCopy q n p t
    | none => (s.setTileMap q ((s.tileMap q).drop p)).endRetirement n
  | 6 => s.retireMember n
  | _ => s.endRetirement n

/-- Whether a source's retirement may start: it is the first that waits for its pool, which is free (R424). -/
def State.mayRetire (s : State) (n : Nat) : Bool :=
  (s.flt.queue.find? fun m => poolOf m = poolOf n) = some n && !(s.flt.running.any fun m => poolOf m = poolOf n)

/-- RETIREMENT_START (R424). -/
def execRetirementStart (n : Nat) (s : State) : Host.Outcome State Fault Refusal :=
  done <|
    if !s.mayRetire n then s
    else
      let s := { s with flt := { s.flt with queue := s.flt.queue.filter (· ≠ n), running := s.flt.running ++ [n] } }
      s.startRetirement n

/-! Fault injection (R440) -/

/-- Whether a source's block has an operation that TYPE 2 corrupts (R440). -/
def corruptible (n : Nat) : Bool :=
  n < 0x12 || n = 0x31 || (sourceKind n = .retirable && 2 ≤ sourceCat n && sourceCat n ≤ 6)

/-- Whether TYPE and SOURCE of FLT_INJECT, neither reserved alone, are reserved together (R440, R558). -/
def injectClash (v : Nat) : Bool :=
  let n := bitsOf 42 32 v
  sourceKind n ≠ .unassigned &&
    match bitsOf 62 60 v with
    | 1 => sourceKind n = .critical
    | 2 => !corruptible n
    | 3 => sourceKind n ≠ .critical
    | _ => false

/-- Whether TYPE, COUNT and SOURCE of FLT_INJECT hold no reserved value or combination (R440). -/
def injectOk (v : Nat) : Bool :=
  bitsOf 51 48 v ≠ 0 && sourceKind (bitsOf 42 32 v) ≠ .unassigned && 1 ≤ bitsOf 62 60 v && bitsOf 62 60 v ≤ 3 && !injectClash v

/-- The faults that a write of GO injects. -/
def State.injectFaults (s : State) (v : Nat) : State :=
  let n := bitsOf 42 32 v
  let k := bitsOf 51 48 v
  match bitsOf 62 60 v with
  | 1 => s.faultWith n (bitsOf 7 0 v) 0 k
  | 2 => { s with flt := { s.flt with corrupt := s.flt.corrupt.set 0 n (s.flt.corrupt.get 0 n + k) } }
  | _ =>
    let s := (s.criticalLine n).advance usNs
    { s with flt := { s.flt with lines := s.flt.lines.filter (· ≠ n) } }

/-- A write of FLT_INJECT, whole or by halves (R440, R537). A SOURCE that is not assigned keeps its value (R6), and a
combination that is reserved refuses the whole write (R558). -/
def State.injectWrite (s : State) (f : Fn) (m : RegAt) (size v : Nat) : State :=
  let bad := s.configError f (m.name.addr 0 0 + m.off)
  match s.judgeWrite f m size v with
  | .ignored => s
  | .refused => bad
  | .stored x logged =>
    let old := s.reg .fltInject 0 0
    let keep := sourceKind (bitsOf 42 32 x) = .unassigned
    let y := withBits 63 63 (if keep then withBits 42 32 x (bitsOf 42 32 old) else x) 0
    let go := bitOf 63 x
    let refused := go && !injectOk y
    if injectClash y then bad else
    let s := if logged || keep || refused then bad else s
    let s := s.setReg .fltInject 0 0 y
    if go && !refused then s.injectFaults y else s

/-- A write of all of FLT_INJECT with GO and this TYPE. -/
def State.injectRow (s : State) (f : Fn) (type v : Nat) : State :=
  if bitOf 63 v && bitsOf 62 60 v = type then s.injectWrite f ⟨.fltInject, 0, 0, 0⟩ 8 v else s

/-- INJECT_EVENT (R440). -/
def execInjectEvent (f : Fn) (v : BitVec 64) (s : State) : Host.Outcome State Fault Refusal :=
  done (s.injectRow f 1 v.toNat)

/-- INJECT_CORRUPT (R440). -/
def execInjectCorrupt (f : Fn) (v : BitVec 64) (s : State) : Host.Outcome State Fault Refusal :=
  done (s.injectRow f 2 v.toNat)

/-- INJECT_CRITICAL (R440). -/
def execInjectCritical (f : Fn) (v : BitVec 64) (s : State) : Host.Outcome State Fault Refusal :=
  done (s.injectRow f 3 v.toNat)

end Sys2Proof.Machine
end

