-- ==== Sys2Proof/Machine/Package.lean ====
section
/-! DEFINITION. The package and its limits: the ball map, the supply rails, power by mode, reference clocks and pin levels
(chapter 20, R543 to R556). They are facts of the part that no command changes. -/

namespace Sys2Proof.Machine

/-! The grid (R544) -/

/-- The letters of a row's name. -/
def rowLetters : List Char := "ABCDEFGHJKLMNPTUVWY".toList

/-- The name of row n, 1 to 86. -/
def rowName (n : Nat) : String :=
  if n ≤ 19 then String.ofList [rowLetters.getD (n - 1) 'A']
  else String.ofList [rowLetters.getD ((n - 20) / 19) 'A', rowLetters.getD ((n - 20) % 19) 'A']

/-- The name of the ball in row r and column c. -/
def ballName (r c : Nat) : String := rowName r ++ toString c

/-- Whether a position holds a ball: neither in a corner square of 5 by 5 nor in the centre square. -/
def populated (r c : Nat) : Bool :=
  1 ≤ r && r ≤ 86 && 1 ≤ c && c ≤ 86 && !((r ≤ 5 || 82 ≤ r) && (c ≤ 5 || 82 ≤ c)) && !(28 ≤ r && r ≤ 59 && 28 ≤ c && c ≤ 59)

/-- The depth of a position. -/
def ballDepth (r c : Nat) : Nat := min (min r c) (min (87 - r) (87 - c))

/-- The position at depth d, along a, of edge e. -/
def edgePlace (e d a : Nat) : Nat × Nat :=
  match e with
  | 0 => (d, a)
  | 1 => (a, 87 - d)
  | 2 => (87 - d, a)
  | _ => (a, d)

/-- The coordinate along an edge of a position. -/
def edgeAlong (e r c : Nat) : Nat := if e = 0 ∨ e = 2 then c else r

/-- The sideband origin of an edge. -/
def sidebandOrigin (e : Nat) : Nat := if e ≤ 1 then 14 else 10

/-! Signals (R545, Table 20.1) -/

/-- The four balls of a serial lane. -/
inductive LaneBall where
  | txp | txn | rxp | rxn
  deriving DecidableEq, Repr

/-- Signal balls. -/
inductive Signal where
  | lane (l : Nat) (b : LaneBall)
  | refclk156 (k : Nat) (negative : Bool)
  | modTxdis (cage : Nat)
  | modSelN (cage : Nat)
  | modLpmode (cage : Nat)
  | modPrsN (cage : Nat)
  | modIntN (cage : Nat)
  | mdc (slice : Nat)
  | mdio (slice : Nat)
  | modScl (slice : Nat)
  | modSda (slice : Nat)
  | pcie (lane : Nat) (b : LaneBall)
  | refclk100 (negative : Bool)
  | pin (name : String)
  deriving DecidableEq, Repr

/-- Pins of row Y from column 14 on. -/
def pinsY : List String :=
  ["REFCLK25", "PTP_10M_IN", "PPS_IN", "PPS_OUT", "RESET_N", "PERST_N", "FAULT_N", "ALIVE_N", "TEST_EN", "PCIE_LREV"]

/-- Pins of row AA from column 14 on. -/
def pinsAA : List String :=
  ["SMB_SCL", "SMB_SDA", "TCK", "TMS", "TDI", "TDO", "TRST_N", "SPI_CS_N", "SPI_SCK", "SPI_IO0", "SPI_IO1", "SPI_IO2", "SPI_IO3"]

/-- The lane ball at a depth. -/
def laneBallAt (d : Nat) : Option LaneBall :=
  if d = 2 then some .txp else if d = 3 then some .txn else if d = 6 then some .rxp else if d = 7 then some .rxn else none

/-- The signal at depth d, along a, of edge e. -/
def edgeSignal (e d a : Nat) : Option Signal :=
  let o := sidebandOrigin e
  let m := (a - o) / 2
  let second : Bool := (a - o) % 2 = 1
  if 10 ≤ a ∧ a ≤ 73 ∧ (laneBallAt d).isSome then (laneBallAt d).map fun b => .lane (64 * e + (a - 10)) b
  else if (a = 76 ∨ a = 77) ∧ d = 2 then some (.refclk156 (2 * e) (a = 77))
  else if (a = 76 ∨ a = 77) ∧ d = 6 then some (.refclk156 (2 * e + 1) (a = 77))
  else if a < o ∨ o + 64 ≤ a then none
  else if d = 10 then some (if second then .modSelN (32 * e + m) else .modTxdis (32 * e + m))
  else if d = 11 then some (if second then .modPrsN (32 * e + m) else .modLpmode (32 * e + m))
  else if d = 12 ∧ !second then some (.modIntN (32 * e + m))
  else if d = 13 then
    let s := 4 * e + (a - o) / 16
    match (a - o) % 16 with
    | 0 => some (.mdc s)
    | 1 => some (.mdio s)
    | 2 => some (.modScl s)
    | 3 => some (.modSda s)
    | _ => none
  else none

/-- The signal at an inner position. -/
def innerSignal (r c : Nat) : Option Signal :=
  let k := (c - 40) / 2
  let second : Bool := (c - 40) % 2 = 1
  if r = 14 ∧ 40 ≤ c ∧ c < 72 then some (.pcie k (if second then .txn else .txp))
  else if r = 16 ∧ 40 ≤ c ∧ c < 72 then some (.pcie k (if second then .rxn else .rxp))
  else if r = 18 ∧ (c = 40 ∨ c = 41) then some (.refclk100 (c = 41))
  else if r = 19 ∧ 14 ≤ c then (pinsY[c - 14]?).map .pin
  else if r = 20 ∧ 14 ≤ c then (pinsAA[c - 14]?).map .pin
  else none

/-- The signal at a position. -/
def signalAt (r c : Nat) : Option Signal :=
  let d := ballDepth r c
  match (List.range 4).findSome? fun e => if edgePlace e d (edgeAlong e r c) = (r, c) then edgeSignal e d (edgeAlong e r c) else none with
  | some x => some x
  | none => innerSignal r c

/-! Supplies (R546, R547, Table 20.2) -/

/-- Supply rails. -/
inductive Rail where
  | vddCore | vddaSerdes | vddHbm | vddqHbm | vppHbm | vddHif | vddMgt | vddAon | vddio
  deriving DecidableEq, Repr

/-- Nominal voltage in mV. -/
def Rail.nominalMv : Rail → Nat
  | .vddCore => 750 | .vddaSerdes => 900 | .vddHbm => 1100 | .vddqHbm => 400 | .vppHbm => 1800
  | .vddHif => 800 | .vddMgt => 800 | .vddAon => 800 | .vddio => 1800

/-- Typical and maximum current in mA. -/
def Rail.current : Rail → Nat × Nat
  | .vddCore => (400000, 460000) | .vddaSerdes => (167000, 189000) | .vddHbm => (27300, 32000) | .vddqHbm => (50000, 60000)
  | .vppHbm => (5600, 6100) | .vddHif => (6300, 9400) | .vddMgt => (3800, 5600) | .vddAon => (600, 1000) | .vddio => (800, 1200)

/-- The rail that a voltage monitor measures. -/
def monitorRail (m : Nat) : Rail :=
  if m ≤ 20 then .vddCore else if m = 21 then .vddAon else if m = 22 then .vddMgt else if m = 23 then .vddHif
  else if m ≤ 39 then .vddaSerdes else if m ≤ 43 then .vddqHbm else .vddHbm

/-- Whether a voltage lies within so many percent of nominal: 3 is the operating range, 8 the absolute limits. -/
def Rail.within (x : Rail) (percent mv : Nat) : Bool :=
  (100 - percent) * x.nominalMv ≤ 100 * mv && 100 * mv ≤ (100 + percent) * x.nominalMv

/-- The step of the power-up sequence in which a rail comes up (R550). -/
def Rail.step : Rail → Nat
  | .vddio | .vddAon => 1
  | .vddCore | .vddMgt | .vddHif => 2
  | .vddaSerdes => 3
  | .vppHbm => 4
  | .vddHbm => 5
  | .vddqHbm => 6

/-- Whether rails that come up in the order of a list follow R550. -/
def sequenceOk (l : List Rail) : Bool := l.Pairwise fun a b => a.step ≤ b.step

/-- What a ball carries. -/
inductive Ball where
  | signal (x : Signal)
  | vss
  | supply (x : Rail)
  /-- A rail of an HBM stack. -/
  | stack (x : Rail) (s : Nat)
  deriving DecidableEq, Repr

/-- The supply or ground at a populated position that no signal takes: the first rule of R546 that matches. -/
def supplyAt (r c : Nat) : Ball :=
  let even : Bool := (r + c) % 2 = 0
  if ballDepth r c ≤ 13 then (if ballDepth r c = 9 then .supply .vddaSerdes else .vss)
  else if 14 ≤ r ∧ r ≤ 26 ∧ 14 ≤ c ∧ c ≤ 26 then
    if even ∨ r ≤ 20 then .vss
    else if r = 21 then .supply .vddio
    else if r = 22 then .supply .vddAon
    else if r ≤ 24 then .supply .vddMgt
    else .supply .vddHif
  else if 24 ≤ r ∧ r ≤ 63 ∧ 24 ≤ c ∧ c ≤ 63 then
    let h := max (max (28 - r) (r - 59)) (max (28 - c) (c - 59))
    let s := (if r ≤ 43 then 0 else 2) + (if c ≤ 43 then 0 else 1)
    if even then .vss else .stack (if h ≤ 2 then .vddqHbm else if h = 3 then .vddHbm else .vppHbm) s
  else if even then .vss else .supply .vddCore

/-- What the ball in row r and column c carries; none where no ball is. -/
def ballAt (r c : Nat) : Option Ball :=
  if !populated r c then none
  else match signalAt r c with
    | some x => some (.signal x)
    | none => some (supplyAt r c)

/-! Power, clocks and levels (R549, R552, R554) -/

/-- Device power in a mode in W: typical, where Table 20.3 gives it, and maximum. -/
def Mode.power : Mode → Option Nat × Nat
  | .reset => (some 70, 140)
  | .bringup => (some 200, 300)
  | .config => (some 260, 320)
  | .forward => (some 520, 600)
  | .drain => (some 520, 600)
  | .safe => (some 260, 320)
  | .standby => (some 35, 50)
  | .factoryTest => (none, 600)

/-- Reference clock inputs. -/
inductive RefClock where
  | refclk156 (k : Nat) | refclk100 | refclk25 | ptp10m | pps
  deriving DecidableEq, Repr

/-- Frequency in Hz and tolerance in ppm, where Table 20.4 gives one. -/
def RefClock.spec : RefClock → Nat × Option Nat
  | .refclk156 _ => (156250000, some 50)
  | .refclk100 => (100000000, some 300)
  | .refclk25 => (25000000, some 50)
  | .ptp10m => (10000000, some 100)
  | .pps => (1, none)

/-- The level of a CMOS input at so many mV: low up to VIL, high from VIH on, and undefined between (Table 20.5). -/
def inputLevel (mv : Nat) : Option Bool := if mv ≤ 630 then some false else if 1170 ≤ mv then some true else none

end Sys2Proof.Machine
end

