-- ==== Sys2Proof/Machine/Kiln.lean ====
section
/-! DEFINITION. Sensors and Cones, the Kiln Record's commits and histograms, the SMBus answers, performance shadows and
telemetry (chapters 16 to 18). -/

namespace Sys2Proof.Machine

/-! Sensors (Table 16.5, Table 20.2) -/

/-- Nominal voltage of monitor i in mV. -/
def nominalMv (i : Nat) : Nat := (monitorRail i).nominalMv

/-- Set frequency of island i in kHz. -/
def setKhz (i : Nat) : Nat :=
  if i = 0 then 100000 else if i ≤ 2 then 1000000 else if i ≤ 38 then 1300000 else if i = 39 then 1000000
  else if i = 40 then 1500000 else 1600000

/-- Last reading of thermal sensor i, in 0.25 °C. -/
def State.thermal (s : State) (i : Nat) : Int := s.mgt.thermal.get 100 i
/-- Last reading of voltage monitor i. -/
def State.volt (s : State) (i : Nat) : Nat := s.mgt.volt.get (nominalMv i) i
/-- Last reading of clock i. -/
def State.clockKhz (s : State) (i : Nat) : Nat := s.mgt.clock.get (setKhz i) i

/-- The measured lines that a whole set of readings shows in range: every sensor below 110 °C, every monitor within 8 % of
its nominal voltage, a clock within 5 % of its set frequency (Tables 14.4 and 20.2). -/
def readingsInRange (r : Readings) : List Nat :=
  (if r.thermal.length = 64 && r.thermal.all (· < 440) then [0x4F0] else []) ++
  (if r.volt.length = 48 && (List.range 48).all fun i => (monitorRail i).within 8 (r.volt.getD i 0) then [0x4F1] else []) ++
  (((List.range (min 45 r.clock.length)).filter fun i =>
      95 * setKhz i ≤ 100 * r.clock.getD i 0 && 100 * r.clock.getD i 0 ≤ 105 * setKhz i).map (0x4A0 + ·))

/-- Little-endian two's complement bytes of an integer. -/
def intBytes (n : Nat) (v : Int) : Bytes := leBytes n (codeOf (8 * n) v)

/-- The thermal alarm asserts at 100 °C, with an entry for the first of these sensors that reads as much, and clears once
every sensor reads below 97 °C (R470). -/
def State.alarmCheck (s : State) (sensors : List Nat) : State :=
  if s.mgt.alarm then
    if (List.range 64).all fun i => s.thermal i < 388 then
      ({ s with mgt := { s.mgt with alarm := false } }).levelInput 1284 false
    else s
  else
    match sensors.find? fun i => 400 ≤ s.thermal i with
    | some i =>
      let s := { s with mgt := { s.mgt with alarm := true } }
      (s.kilnLog 0x0006 3 (leBytes 1 1 ++ leBytes 1 i ++ intBytes 4 (s.thermal i))).levelInput 1284 true
    | none => s

/-- Store a set of readings; a sensor that the list leaves out keeps its last one. A line whose measurement the readings
show in range falls (R431), and the thermal alarm follows them. -/
def State.sense (s : State) (r : Readings) : State :=
  let s := s.endLines (readingsInRange r)
  State.alarmCheck (sensors := List.range 64) { s with mgt := { s.mgt with
      thermal := runOver (List.range 64) (fun i (t : Tab Int) => t.set 100 i (r.thermal.getD i (t.get 100 i))) s.mgt.thermal
      volt := runOver (List.range 48) (fun i (t : Tab Nat) => t.set (nominalMv i) i (r.volt.getD i (t.get (nominalMv i) i))) s.mgt.volt
      clock := runOver (List.range 45) (fun i (t : Tab Nat) => t.set (setKhz i) i (r.clock.getD i (t.get (setKhz i) i))) s.mgt.clock } }

/-- Whether R483 holds fuse operations off: a sensor above 95 °C, or a monitor outside ±3 % of its nominal voltage. -/
def State.fuseHold (s : State) : Bool :=
  ((List.range 64).any fun i => 380 < s.thermal i) ||
    (List.range 48).any fun i => !(monitorRail i).within 3 (s.volt i)

/-- THERMAL_ALARM: a sensor crosses 100 °C, or falls so that every one reads below 97 °C (R470). -/
def execThermalAlarm (sensor : Fin 64) (q : Int) (s : State) : Host.Outcome State Fault Refusal :=
  done <|
    let s := { s with mgt := { s.mgt with thermal := s.mgt.thermal.set 100 sensor q } }
    let s := if (List.range 64).all fun i => s.thermal i < 388 then s.endLines [0x4F0] else s
    s.alarmCheck [sensor.val]

/-! Checkpoints and log pages (R487 to R492, Tables 16.10 to 16.12) -/

/-- CRC-16 of Table 09.3, most significant bit first. -/
def crc16 (bs : Bytes) : Nat :=
  bs.foldl (fun c b => (List.range 8).foldl (fun c _ => if 0x8000 ≤ c then c * 2 % 65536 ^^^ 0x1021 else c * 2) (c ^^^ b.toNat * 256))
    0xFFFF

/-- The 32 bytes of entry n of its area (Table 16.10). -/
def KilnEntry.bytes (e : KilnEntry) (n : Nat) : Bytes :=
  let b := leBytes 2 e.type ++ leBytes 1 e.fn ++ leBytes 1 (boolBit e.recovered) ++ leBytes 4 n ++ leBytes 6 e.lifeS
    ++ leBytes 6 e.ptpS ++ e.data
  b ++ leBytes 2 (crc16 b)

/-- A counter of n bytes saturates. -/
def satBytes (n v : Nat) : Bytes := leBytes n (min v (2 ^ (8 * n) - 1))

/-- The bytes of a list of numbered parts. -/
def bytesOver (n : Nat) (f : Nat → Bytes) : Bytes := (List.range n).flatMap f

/-- A checkpoint (Table 16.12). -/
def KilnSram.bytes (k : KilnSram) (ckSeq : Nat) : Bytes :=
  let b := leBytes 2 0x4B52 ++ leBytes 2 1 ++ leBytes 4 ckSeq ++ leBytes 8 (k.lifeNs / 1000000000) ++ satBytes 4 k.logDrop ++ zeros 12
    ++ (bytesOver 16 fun i => satBytes 4 (k.resets.get 0 i))
    ++ (bytesOver 9 fun i => satBytes 8 (k.ce.get 0 i))
    ++ (bytesOver 32 fun i => satBytes 8 (k.retry.get 0 i))
    ++ (bytesOver 128 fun i => satBytes 4 (k.flaps.get 0 i))
    ++ (bytesOver 16 fun i => leBytes 4 (k.coneF0.get 0 i) ++ leBytes 4 (k.coneF.get 0 i) ++ intBytes 4 (k.coneDrift.get 0 i))
    ++ (bytesOver 2048 fun i => satBytes 3 (k.temp.get 0 i))
    ++ (bytesOver 1536 fun i => satBytes 3 (k.volt.get 0 i))
    ++ (bytesOver 2048 fun i => satBytes 3 (k.eye.get 0 i))
  b ++ leBytes 4 (crc32 b)

/-- The page after page p of the ring, which wraps. -/
def ringAfter (p : Nat) : Nat := if p < 4095 then p + 1 else 128

/-- The first page from p on, of so many, that is not skipped. -/
def Kiln.goodFrom (k : Kiln) : Nat → Nat → Nat
  | 0, p => p
  | n + 1, p => if k.badPages.contains p then k.goodFrom n (ringAfter p) else p

/-- A page is erased; the log entries that it held are gone (R488). -/
def Kiln.erase (k : Kiln) (p : Nat) : Kiln :=
  let (gone, kept) := k.logPages.partition fun x => x.1 = p
  let lost := (gone.map Prod.snd).foldl (· + ·) 0
  { k with next := p, erases := k.erases.modify 0 p (· + 1), logPages := kept, log := k.log.drop lost, logFirst := k.logFirst + lost }

/-- The next page of the ring is erased. A page that fails gets a KR_BADPAGE entry and is skipped from then on (R488). -/
def State.turnRing (s : State) (failing : List Nat) : Nat → State
  | 0 => s
  | n + 1 =>
    let s := { s with kiln := s.kiln.erase (s.kiln.goodFrom 3968 s.kiln.next) }
    let p := s.kiln.next
    if failing.contains p then
      (({ s with kiln := { s.kiln with badPages := s.kiln.badPages ++ [p], next := ringAfter p } }).kilnPerm 0x0022 3
        (leBytes 2 p)).turnRing failing n
    else s

/-- A page of the ring is written: its header takes PSEQ, CKSEQ and its count of erases (R487, R488). The answer names the
page. -/
def State.writeRing (s : State) (failing : List Nat) (kind ckSeq : Nat) : Nat × State :=
  let s := s.turnRing failing (failing.length + 1)
  let k := s.kiln
  let p := k.next
  (p, { s with kiln := { k with
    ring := k.ring.set {} p ⟨kind, k.pseq, ckSeq, k.erases.get 0 p⟩, pseq := k.pseq + 1, next := ringAfter p } })

/-- The oldest entries of the buffer, up to 126, are written as a log page. -/
def State.writeLogPage (s : State) (failing : List Nat) : State :=
  let new := s.kiln.buffer.take 126
  if new.isEmpty then s
  else
    let (page, s) := s.writeRing failing 0 s.kiln.ckSeq
    let k := s.kiln
    { s with kiln := { k with
      log := k.log ++ new, buffer := k.buffer.drop 126, logPages := k.logPages ++ [(page, new.length)] } }

/-- Every buffered entry is written; the buffer holds at most 8 pages. -/
def State.writeLogPages (s : State) (failing : List Nat) : State := runOver (List.range 8) (fun _ s => s.writeLogPage failing) s

/-- The five parts of a checkpoint are written. -/
def State.writeCheckpoint (s : State) (failing : List Nat) : State :=
  let n := s.kiln.ckSeq + 1
  let c := s.kiln.toKilnSram
  let s := runOver [1, 2, 3, 4, 5] (fun part s => (s.writeRing failing part n).2) s
  { s with kiln := { s.kiln with ckSeq := n, committed := c, commitLog := s.kiln.logFirst + s.kiln.log.length } }

/-- A ring page: its header of 64 bytes and its content (Table 16.11). -/
def RingHeader.page (h : RingHeader) (content : Bytes) : Bytes :=
  let b := leBytes 2 0x4B50 ++ leBytes 1 h.kind ++ zeros 1 ++ leBytes 4 h.pseq ++ leBytes 4 h.ckSeq ++ leBytes 4 h.erases ++ zeros 44
  let c := sliceOf content 0 4032
  b ++ leBytes 4 (crc32 (b ++ c)) ++ c

/-- What a ring page holds: the part of the last checkpoint, or the log entries (R487). -/
def Kiln.content (k : Kiln) (p : Nat) : Bytes :=
  let h := k.ring.get {} p
  if h.kind ≠ 0 then sliceOf (k.committed.bytes k.ckSeq) (4032 * (h.kind - 1)) 4032
  else
    let before := (k.logPages.takeWhile fun x => x.1 ≠ p).foldl (fun n x => n + x.2) 0
    let here := ((k.logPages.find? fun x => x.1 = p).map Prod.snd).getD 0
    (((k.log.drop before).take here).zipIdx (k.logFirst + before)).flatMap fun e => e.1.bytes e.2

/-- A TELEMETRY record on a ring (Table 16.14). -/
def State.telemetryRecord (s : State) (ring seq buf kind sensor : Nat) (value : Int) (time : Nat) : State :=
  s.writeRecord (ringFn ring) ring 0x0070 time
    (leBytes 4 seq ++ leBytes 2 buf ++ leBytes 1 kind ++ leBytes 1 sensor ++ intBytes 4 value)

/-- Cone i is measured, scaled, at f kHz (R471). -/
def State.measureCone (s : State) (i f : Nat) : State :=
  let f0 := if s.kiln.coneF0.get 0 i = 0 then f else s.kiln.coneF0.get 0 i
  let drift : Int := Int.tdiv (((f : Int) - f0) * 1000000) f0
  let s := { s with kiln := { s.kiln with
    coneF0 := s.kiln.coneF0.set 0 i f0, coneF := s.kiln.coneF.set 0 i f, coneDrift := s.kiln.coneDrift.set 0 i drift } }
  if drift ≤ -(s.fld .mgtSensCtrl 0 0 15 0 : Int) ∧ !s.kiln.coneAlarms.contains i then
    let s := { s with kiln := { s.kiln with coneAlarms := s.kiln.coneAlarms ++ [i] } }
    let s := s.kilnLog 0x0006 3 (leBytes 1 2 ++ leBytes 1 i ++ intBytes 4 drift)
    match s.mgt.telemetry with
    | some t => s.telemetryRecord t.ring 0 0 2 i drift s.now
    | none => s
  else s

/-- EYE bin of a reading in mV above the floor (R491). -/
def eyeBin (mv : Int) : Nat := if mv < 0 then 0 else min 7 (1 + mv.toNat / 5)

/-- The eye readings of an hour: lanes of ports in UP gain a bin (R491). -/
def State.eyeHour (s : State) (readings : List (Nat × Int)) : State :=
  runOver readings (fun r s =>
    match s.lanePort r.1 with
    | some p =>
      if (s.port p).link = .up then
        { s with kiln := { s.kiln with eye := s.kiln.eye.modify 0 (8 * r.1 + eyeBin r.2) (· + 1) } }
      else s
    | none => s) s

/-- KILN_COMMIT: the hourly commit measures the Cones and writes the log and a checkpoint; `failing` lists the pages whose
erase or verify fails (R471, R488, R489). -/
def execKilnCommit (cones : List Nat) (eyes : List (Nat × Int)) (failing : List Nat) (s : State) : Host.Outcome State Fault Refusal :=
  done <|
    if !s.rst.ewethes then s
    else
      let s := s.advanceTo s.mgt.commitDue
      let s := { s with mgt := { s.mgt with commitDue := s.mgt.commitDue + 3600 * 1000000000 } }
      let s := runOver (List.range (min 16 cones.length)) (fun i s => s.measureCone i (cones.getD i 0)) s
      let s := s.eyeHour (eyes.filter fun e => e.1 < 256)
      (s.writeLogPages failing).writeCheckpoint failing

/-- KILN_LOG_PAGE_WRITE: a full page is written early, at most once a minute (R488). -/
def execKilnLogPageWrite (failing : List Nat) (s : State) : Host.Outcome State Fault Refusal :=
  done <|
    if !s.rst.ewethes || s.kiln.buffer.length < 126 then s
    else
      let s := if s.kiln.lastEarly = 0 then s else s.advanceTo (s.kiln.lastEarly + 60 * 1000000000)
      let s := s.writeLogPage failing
      { s with kiln := { s.kiln with lastEarly := s.now } }

/-- TEMP bin of a reading in 0.25 °C (R491). -/
def tempBin (q : Int) : Nat := min 31 ((q + 160) / 20).toNat

/-- VOLT bin of a reading (R491). -/
def voltBin (i mv : Nat) : Nat := min 31 (mv * 200 / nominalMv i - 184)

/-- HISTOGRAM_MINUTE: each sensor and monitor gains the bin of the minute's extreme reading (R491). -/
def execHistogramMinute (r : Readings) (s : State) : Host.Outcome State Fault Refusal :=
  done <|
    if !s.rst.ewethes then s
    else
      let s := s.advanceTo s.mgt.minuteDue
      let s := { s with mgt := { s.mgt with minuteDue := s.mgt.minuteDue + 60 * 1000000000 } }
      { s with kiln := { s.kiln with
        temp := runOver (List.range 64) (fun i (t : Tab Nat) => t.modify 0 (32 * i + tempBin (r.thermal.getD i (s.thermal i))) (· + 1)) s.kiln.temp
        volt := runOver (List.range 48) (fun i (t : Tab Nat) => t.modify 0 (32 * i + voltBin i (r.volt.getD i (s.volt i))) (· + 1)) s.kiln.volt } }

/-! SMBus (R505, R506) -/

/-- FLT_DEGRADED (Table 14.12). -/
def State.degradedBits (s : State) : Nat := s.flt.degraded.foldl (fun v k => v ||| 2 ^ k) 0

/-- The slot that runs. -/
def Boot.running (b : Boot) : Slot := match b.run with
  | some true => b.b
  | some false => b.a
  | none => {}

/-- The health bytes (Table 17.16): the hottest sensor, the lowest-numbered among equals. -/
def State.healthBytes (s : State) : Bytes :=
  let hot := (List.range 64).foldl (fun k i => if s.thermal k < s.thermal i then i else k) 0
  let d := s.degradedBits
  let b := s.mgt.boot
  intBytes 2 (s.thermal hot) ++ leBytes 1 hot ++ leBytes 1 d
    ++ leBytes 1 (boolBit b.trial * 8 + boolBit (!s.kiln.coneAlarms.isEmpty) * 4 + boolBit s.mgt.alarm * 2 + d / 256 % 2)
    ++ leBytes 1 (boolBit (b.run = some true) * 128 + b.running.svn)

/-- HEALTH_REFRESH: every 10 ms (R506). -/
def execHealthRefresh (r : Readings) (s : State) : Host.Outcome State Fault Refusal :=
  done <|
    if !s.rst.ewethes then s
    else
      let s := s.advanceTo s.mgt.healthAt
      let s := { s with mgt := { s.mgt with healthAt := s.mgt.healthAt + 10 * msNs, warned := none } }
      let s := s.sense r
      { s with mgt := { s.mgt with health := s.healthBytes } }

/-- SMBUS_STATUS_READ: the four status bytes, once domain 1 is ready (R505, Table 17.6). -/
def execSmbusStatusRead (s : State) : Host.Outcome State Fault Refusal :=
  done <|
    if s.domain 1 ≠ .ready then s
    else
      let recent := s.rst.restarts.countP fun t => s.now < t + 1000000000
      s.emit (.smbus
        (leBytes 1 (boolBit s.flt.faultN * 64 + boolBit s.mode.alive * 32 + boolBit s.rst.recovery * 16
          + boolBit s.rst.stalled * 8 + s.mode.code)
        ++ leBytes 1 s.rst.lastPhase ++ leBytes 1 (min 8 recent) ++ leBytes 1 s.rst.cause))

/-- SMBUS_HEALTH_READ: the six health bytes of the last refresh, while Ewethes runs (R506). -/
def execSmbusHealthRead (s : State) : Host.Outcome State Fault Refusal :=
  done <| if s.rst.ewethes then s.emit (.smbus (sliceOf s.mgt.health 0 6)) else s

/-! Performance shadows and telemetry snapshots (R493, R523) -/

/-- All 4,096 shadows are latched (R523). -/
def State.latchShadows (s : State) : State :=
  let base := cntPmc 0
  let live := s.cnts.cells.filter fun (c : Nat × Nat) => base ≤ c.1 && c.1 < base + 8 * 4096
  let s := { s with pmc := { s.pmc with shadow := ⟨live.map fun (c : Nat × Nat) => ((c.1 - base) / 8, c.2)⟩ } }
  let s := s.setReg .pmcSnapTime 0 0 s.now
  s.setReg .pmcSnap 0 0 (withBits 30 0 (s.reg .pmcSnap 0 0) (s.fld .pmcSnap 0 0 30 0 + 1))

/-- Bytes 0x000 to 0x1FF of a snapshot (Table 16.13). -/
def State.sensorBytes (s : State) (seq time : Nat) (counters : Bool) : Bytes :=
  leBytes 2 0x5453 ++ leBytes 2 1 ++ leBytes 4 seq ++ leBytes 8 time ++ zeros 16
    ++ (bytesOver 64 fun i => intBytes 2 (s.thermal i)) ++ (bytesOver 48 fun i => leBytes 2 (s.volt i))
    ++ (bytesOver 45 fun i => leBytes 4 (s.clockKhz i)) ++ (bytesOver 16 fun i => intBytes 4 (s.kiln.coneDrift.get 0 i))
    ++ leBytes 1 s.mode.code
    ++ leBytes 1 (boolBit s.mgt.alarm + 2 * boolBit (!s.kiln.coneAlarms.isEmpty) + 4 * boolBit counters) ++ zeros 10

/-- TELEMETRY_SNAPSHOT: a snapshot falls due (R493). -/
def execTelemetrySnapshot (r : Readings) (s : State) : Host.Outcome State Fault Refusal :=
  done <|
    match s.mgt.telemetry with
    | none => s
    | some t =>
      if !s.rst.ewethes then s
      else
        let s := (s.advanceTo t.due).sense r
        let s := if t.counters then s.latchShadows else s
        let s := { s with mgt := { s.mgt with telemetry := some { t with due := t.due + t.periodMs * msNs, seq := (t.seq + 1) % 2 ^ 32 } } }
        let counters := if t.counters then bytesOver 4096 fun n => leBytes 8 (s.pmc.shadow.get 0 n) else zeros 32768
        let buf := t.seq % t.nbuf
        let s := s.emit (.hostWrite (s.ringReq t.ring) (t.addr + buf * 65536)
          (s.sensorBytes t.seq s.now t.counters ++ zeros 3584 ++ counters))
        s.telemetryRecord t.ring t.seq buf 1 0 0 s.now

end Sys2Proof.Machine
end

