-- ==== Sys2Proof/Machine/Mailbox.lean ====
section
/-! DEFINITION. The mailbox and its commands (R463 to R468, R477 to R480, R492, R493, Tables 16.1 to 16.4). -/

namespace Sys2Proof.Machine

/-! Requests and responses -/

/-- Mailbox status (Table 16.4). -/
inductive MailStatus where
  | ok | badOpcode | privilege | badArg | mode | dmaError | imageFormat | sigFail | rollback
  | flashError | budget | fuseCond | fuseFail | noModule | nak | busy | patchRefused
  deriving DecidableEq, Repr

/-- Its code. -/
def MailStatus.code : MailStatus → Nat
  | .ok => 0 | .badOpcode => 1 | .privilege => 2 | .badArg => 3 | .mode => 4 | .dmaError => 5 | .imageFormat => 6
  | .sigFail => 7 | .rollback => 8 | .flashError => 9 | .budget => 10 | .fuseCond => 11 | .fuseFail => 12
  | .noModule => 13 | .nak => 14 | .busy => 15 | .patchRefused => 16

/-- Opcodes of Table 16.3. -/
def mailOpcodes : List Nat :=
  [0x0001, 0x0002, 0x0010, 0x0011, 0x0012, 0x0020, 0x0030, 0x0040, 0x0041, 0x0050, 0x0060]

/-- A function's mailbox. -/
def State.mailbox (s : State) (f : Fn) : Mailbox := s.mgt.mbx.get {} f.num

/-- Replace it. -/
def State.setMailbox (s : State) (f : Fn) (m : Mailbox) : State :=
  { s with mgt := { s.mgt with mbx := s.mgt.mbx.set {} f.num m } }

/-- The boot record and the slots. -/
def State.boot (s : State) : Boot := s.mgt.boot

/-- Replace them. -/
def State.setBoot (s : State) (b : Boot) : State := { s with mgt := { s.mgt with boot := b } }

/-- MBX_REQ of a function. -/
def State.mailRequest (s : State) (f : Fn) : Bytes := (List.range 8).flatMap fun k => leBytes 8 (s.regOf .mbxReq f.num 0 k)

/-- Set a field of MBX_STATUS. -/
def State.mailStatus (s : State) (f : Fn) (hi lo v : Nat) : State :=
  s.setRegOf .mbxStatus f.num 0 0 (withBits hi lo (s.regOf .mbxStatus f.num 0 0) v)

/-- GO is written 1 (R464). -/
def State.mailGo (s : State) (f : Fn) : State :=
  if (s.mailbox f).running.isSome then s.configError f (RegName.mbxCtrl.addr 0 0)
  else ((s.setMailbox f { running := some (s.mailRequest f) }).mailStatus f 0 0 1).eicEvent 1285

/-- MAILBOX_GO (R464). -/
def execMailboxGo (f : Fn) (s : State) : Host.Outcome State Fault Refusal :=
  done (s.rowWrite f .mbxCtrl 0 0 fun s => s.mailGo f)

/-- A response (Table 16.2). -/
def mailBytes (q : Bytes) (st : MailStatus) (info : Nat) (result : Bytes) : Bytes :=
  sliceOf q 0 2 ++ leBytes 2 st.code ++ sliceOf q 4 4 ++ leBytes 4 info ++ zeros 4 ++ sliceOf result 0 48

/-- Ewethes has the response of a function's request. -/
def State.mailAnswer (s : State) (f : Fn) (st : MailStatus) (info : Nat := 0) (result : Bytes := []) : State :=
  match (s.mailbox f).running with
  | some q => s.setMailbox f { s.mailbox f with ready := some (mailBytes q st info result), fuse := false }
  | none => s

/-- A PRIVILEGE response is logged (R42). -/
def State.mailDeny (s : State) (f : Fn) : State := (s.configError f (RegName.mbxCtrl.addr 0 0)).mailAnswer f .privilege

/-- Opcode, flags and argument fields of a request. -/
def mailOp (q : Bytes) : Nat := leAt q 0 2
/-- ADDR. -/
def mailAddr (q : Bytes) : Nat := leAt q 8 8
/-- LEN. -/
def mailLen (q : Bytes) : Nat := leAt q 16 4

/-- Whether the bytes that Table 16.1 gives as 0 are 0; `used` lists the ARGS bytes of the command. -/
def mailClean (q : Bytes) (used : List Nat) : Bool :=
  byteAt q 2 ≤ 1 && byteAt q 3 = 0 && mailAddr q % 8 = 0 && zeroAt q 0x14 4 &&
    (List.range 40).all fun k => used.contains (0x18 + k) || byteAt q (0x18 + k) = 0

/-- A request of this opcode that runs and that Ewethes, or in recovery the boot ROM, has not answered. -/
def State.mailRuns (s : State) (f : Fn) (op : Nat) : Option Bytes :=
  let m := s.mailbox f
  if m.ready.isSome || m.fuse || !(s.rst.ewethes || s.rst.recovery) then none
  else m.running.bind fun q => if mailOp q = op then some q else none

/-- The four commands that recovery accepts (Table 16.3). -/
def recoveryOps : List Nat := [0x0001, 0x0002, 0x0010, 0x0011]

/-- Whether a command is accepted in the mode, or in recovery. -/
def State.mailMode (s : State) (op : Nat) (modes : Mode → Bool) : Bool :=
  if s.rst.recovery then recoveryOps.contains op else modes s.mode

/-- Run a mailbox command: PRIVILEGE, BAD_ARG and MODE come first (R467). -/
def State.mailCommand (s : State) (f : Fn) (op : Nat) (fns : List Fn) (badArg : Bytes → Bool) (modes : Mode → Bool)
    (run : Bytes → State → State) : State :=
  match s.mailRuns f op with
  | none => s
  | some q =>
    if !fns.contains f then s.mailDeny f
    else if badArg q then s.mailAnswer f .badArg
    else if !s.mailMode op modes then s.mailAnswer f .mode
    else run q s

/-! The slot that is staged (R478) -/

/-- Code of a slot state (Table 16.20). -/
def slotCode : SlotState → Nat
  | .empty => 0 | .valid => 1 | .active => 2 | .format => 3 | .sigFail => 4 | .rollback => 5 | .failed => 6 | .staging => 7

/-- A slot of the flash. -/
def Boot.slot (b : Boot) (x : Bool) : Slot := if x then b.b else b.a

/-- Replace a slot. -/
def Boot.setSlot (b : Boot) (x : Bool) (y : Slot) : Boot := if x then { b with b := y } else { b with a := y }

/-- The slot that FW_STAGE writes: the one that does not run. In recovery no slot runs, and the slot that is not preferred is
written. -/
def Boot.target (b : Boot) : Bool := !(b.run.getD b.preferred)

/-- The status of FW_STAGE that goes with the resulting state of the slot. -/
def stageStatus : SlotState → MailStatus
  | .valid => .ok
  | .sigFail => .sigFail
  | .rollback => .rollback
  | .empty => .flashError
  | _ => .imageFormat

/-- No slot is being staged. -/
def State.dropStaged (s : State) : State := { s with mgt := { s.mgt with staged := none } }

/-- The image has been copied and checked: the slot's state becomes the result of the check. -/
def State.endStaging (s : State) : State :=
  match s.mgt.staged with
  | none => s
  | some y =>
    let b := s.boot
    let x := b.target
    let s := (s.setBoot { (b.setSlot x y) with gen := b.gen + 1 }).dropStaged
    let s := if y.state = .empty then s
      else s.kilnLog 0x0003 0 (leBytes 1 (boolBit x) ++ leBytes 1 (slotCode y.state) ++ leBytes 4 y.release ++ leBytes 1 y.svn)
    s.mailAnswer .pf0 (stageStatus y.state) (if y.state = .valid then boolBit x else 0)

/-- Commands that show how far they have come (R465). -/
def progressOps : List Nat := [0x0010, 0x0012, 0x0020, 0x0030, 0x0040]

/-- MBX_STATUS as a function reads it: PROGRESS shows the percentage done while such a command runs. -/
def State.mailStatusWord (s : State) (f : Fn) : Nat :=
  let v := s.regOf .mbxStatus f.num 0 0
  let m := s.mailbox f
  if m.ready.isNone && (s.rst.ewethes || s.rst.recovery) && m.running.any fun q => progressOps.contains (mailOp q) then
    withBits 31 24 v (Config.mailProgress f.num s.now % 101)
  else v

/-- Requests that no command of Table 16.3 serves: an unknown opcode, or a FUSE_PROGRAM that names no setting of its own
(R467, R482). -/
def State.mailOther (s : State) (f : Fn) : State :=
  match (s.mailbox f).running with
  | none => s
  | some q =>
    if (s.mailbox f).ready.isSome || !(s.rst.ewethes || s.rst.recovery) then s
    else if f = .pf0 && mailOp q = 0x0010 && s.mgt.staged.isSome then s.endStaging
    else if !mailOpcodes.contains (mailOp q) then s.mailAnswer f .badOpcode
    else if mailOp q = 0x0030 ∧ (byteAt q 0x18 < 3 ∨ 7 < byteAt q 0x18) then
      (if f = .pf2 then s.mailDeny f else s.mailAnswer f .badArg)
    else s

/-- MAILBOX_RESPONSE: the response is written, BUSY clears, DONE is set and SEQ counts; the request may ask for an
interrupt (R464). -/
def execMailboxResponse (f : Fn) (s : State) : Host.Outcome State Fault Refusal :=
  done <|
    let s := s.mailOther f
    match (s.mailbox f).running, (s.mailbox f).ready with
    | some q, some b =>
      let s := runOver (List.range 8) (fun k s => s.setRegOf .mbxRsp f.num 0 k (leAt b (8 * k) 8)) (s.setMailbox f {})
      let seq := bitsOf 15 8 (s.regOf .mbxStatus f.num 0 0)
      let s := ((s.mailStatus f 31 24 0).mailStatus f 15 8 (seq + 1)).mailStatus f 1 0 2
      if bitOf 0 (byteAt q 2) then s.eicEvent (bitsOf 27 16 (s.regOf .mbxCtrl f.num 0 0)) else s
    | _, _ => s

/-- Modes of a command that runs in all but RESET. -/
def notReset (m : Mode) : Bool := m ≠ .reset
/-- CONFIG, FORWARD, DRAIN, SAFE. -/
def upModes (m : Mode) : Bool := m = .config || m = .forward || m = .drain || m = .safe
/-- Those and STANDBY. -/
def upOrStandby (m : Mode) : Bool := upModes m || m = .standby

/-! Information and sensors -/

/-- MGT_FW_STATUS (Table 16.20). -/
def State.fwStatus (s : State) : Nat :=
  let b := s.boot
  b.running.svn + slotCode b.a.state * 2 ^ 12 + slotCode b.b.state * 2 ^ 16 + boolBit (b.run = some true) * 2 ^ 28
    + boolBit b.preferred * 2 ^ 29 + boolBit b.trial * 2 ^ 30 + boolBit s.rst.recovery * 2 ^ 31 + b.running.release * 2 ^ 32

/-- GET_INFO (Table 16.3). -/
def execGetInfo (f : Fn) (s : State) : Host.Outcome State Fault Refusal :=
  done <| s.mailCommand f 0x0001 [.pf0, .pf1, .pf2] (fun q => !mailClean q []) notReset fun _ s =>
    let b := s.boot
    s.mailAnswer f .ok 0 (leBytes 8 s.fwStatus ++ leBytes 4 Config.bootRomRelease.toNat ++ leBytes 1 b.a.svn ++ leBytes 1 b.b.svn
      ++ zeros 2 ++ leBytes 4 b.a.release ++ leBytes 4 b.b.release)

/-- SENSOR_READ: the sensor values are written to host memory (R493, Table 16.13). -/
def execSensorRead (f : Fn) (r : Readings) (written : Bool) (s : State) : Host.Outcome State Fault Refusal :=
  done <| s.mailCommand f 0x0002 [.pf0, .pf2] (fun q => !mailClean q [] || mailLen q < 512) notReset fun q s =>
    if !written then s.mailAnswer f .dmaError
    else
      let s := s.sense r
      (s.emit (.hostWrite (.pf f) (mailAddr q) (s.sensorBytes 0 s.now false))).mailAnswer f .ok

/-! Firmware (R472 to R480) -/

/-- The sections of an image, used entries only: type, offset and length (Table 16.7). -/
def imageSections (b : Bytes) : List (Nat × Nat × Nat) :=
  (List.range (leAt b 0x0E 2)).map fun k => (byteAt b (0x20 + 16 * k), leAt b (0x24 + 16 * k) 4, leAt b (0x28 + 16 * k) 4)

/-- Whether every field of Table 16.7 is in range and every section lies inside the image, apart from the others (R473). -/
def imageFormatOk (b : Bytes) : Bool :=
  let n := leAt b 0x0E 2
  let len := leAt b 0x10 4
  let l := imageSections b
  leAt b 0 4 = 0x45575448 && leAt b 4 2 = 1 && zeroAt b 6 2 && byteAt b 0x0C ≤ 64 && byteAt b 0x0D = 2 && 1 ≤ n && n ≤ 16 &&
    0x260 ≤ len && len ≤ 7 * 2 ^ 20 && zeroAt b 0x14 12 && zeroAt b 0x120 224 &&
    ((List.range n).all fun k => zeroAt b (0x21 + 16 * k) 3 && zeroAt b (0x2C + 16 * k) 4) &&
    zeroAt b (0x20 + 16 * n) (16 * (16 - n)) &&
    (l.all fun x => 1 ≤ x.1 && x.1 ≤ 6 && 0x200 ≤ x.2.1 && x.2.1 % 64 = 0 && x.2.1 + x.2.2 ≤ len) &&
    (List.range n).all fun i => (List.range i).all fun j =>
      let x := (l.getD i (0, 0, 0)).2
      let y := (l.getD j (0, 0, 0)).2
      x.1 + x.2 ≤ y.1 || y.1 + y.2 ≤ x.1

/-- The result of the check of R473; `sigOk` says whether the signature verifies under the ROM's key. -/
def State.checkImage (s : State) (b : Bytes) (sigOk : Bool) : SlotState :=
  if !imageFormatOk b then .format else if !sigOk then .sigFail
  else if byteAt b 0x0C < s.fuses.arb then .rollback else .valid

/-- FW_STAGE: the image goes into the slot that does not run, which is STAGING until its check is done and the response is
written (R478). -/
def execFwStage (f : Fn) (image : Dma) (sigOk flashOk : Bool) (s : State) : Host.Outcome State Fault Refusal :=
  done <| s.mailCommand f 0x0010 [.pf0] (fun q => !mailClean q []) upOrStandby fun q s =>
    match image with
    | none => if s.mgt.staged.isSome then s else s.mailAnswer f .dmaError
    | some b =>
      let b := sliceOf b 0 (min (mailLen q) (7 * 2 ^ 20 + 1))
      if s.mgt.staged.isSome then s
      else if 7 * 2 ^ 20 < mailLen q || byteAt b 0x0D ≠ 2 then s.mailAnswer f .imageFormat
      else
        let y : Slot := if flashOk then { state := s.checkImage b sigOk, release := leAt b 8 4, svn := byteAt b 0x0C } else {}
        let bk := s.boot
        let s := s.setBoot { (bk.setSlot bk.target { state := .staging }) with gen := bk.gen + 1 }
        { s with mgt := { s.mgt with staged := some y } }

/-- FW_ACTIVATE names the slot of the next boot (R479). -/
def execFwActivate (f : Fn) (s : State) : Host.Outcome State Fault Refusal :=
  done <|
    let b := s.boot
    let bad := fun (q : Bytes) =>
      let x : Bool := byteAt q 0x18 = 1
      !mailClean q [0x18] || 1 < byteAt q 0x18 || ((b.slot x).state ≠ .valid && b.run ≠ some x)
    s.mailCommand f 0x0011 [.pf0] bad upOrStandby fun q s =>
      let x : Bool := byteAt q 0x18 = 1
      let t : Bool := b.run ≠ some x
      let s := s.setBoot { b with preferred := x, try_ := t, gen := b.gen + 1 }
      (s.kilnLog 0x0004 0 (leBytes 1 (boolBit x) ++ leBytes 1 (boolBit t))).mailAnswer f .ok

/-! KR_READ (R492) -/

/-- The entries of an area from SEQ c on, with the SEQ of the first: at most n of them. -/
def readEntries (l : List KilnEntry) (first c n : Nat) : Nat × List Bytes :=
  let c := max c first
  let x := (l.drop (c - first)).take n
  (c, (List.range x.length).zipWith (fun k e => e.bytes (c + k)) x)

/-- KR_READ (R492). At most as many entries are written as the buffer holds. -/
def execKrRead (f : Fn) (written : Bool) (s : State) : Host.Outcome State Fault Refusal :=
  done <|
    let used := [0x18, 0x1C, 0x1D, 0x1E, 0x1F, 0x20, 0x21, 0x22, 0x23]
    let bad := fun (q : Bytes) =>
      let area := byteAt q 0x18
      !mailClean q used || 3 < area || (2 ≤ area && (mailLen q < 18028 || !zeroAt q 0x1C 8))
    s.mailCommand f 0x0020 [.pf0, .pf2] bad notReset fun q s =>
      if !written then s.mailAnswer f .dmaError
      else
        let put := fun (b : Bytes) (info next first : Nat) =>
          (if b.isEmpty then s else s.emit (.hostWrite (.pf f) (mailAddr q) b)).mailAnswer f .ok info (leBytes 4 next ++ leBytes 4 first)
        let entries := fun (l : List KilnEntry) (first : Nat) =>
          let (c, bs) := readEntries l first (leAt q 0x1C 4) (min (leAt q 0x20 4) (mailLen q / 32))
          put bs.flatten bs.length (c + bs.length) c
        match byteAt q 0x18 with
        | 0 => entries s.kiln.perm 0
        | 1 => entries s.kiln.log s.kiln.logFirst
        | 2 => put (s.kiln.committed.bytes s.kiln.ckSeq) 18028 0 0
        | _ => put (s.kiln.toKilnSram.bytes s.kiln.ckSeq) 18028 0 0

/-! Modules, retimers, telemetry and patches -/

/-- MOD_I2C: one two-wire transaction on a cage (R468). -/
def execModI2c (f : Fn) (host : Dma) (bus : Option Bytes) (written : Bool) (s : State) : Host.Outcome State Fault Refusal :=
  done <|
    let bad := fun (q : Bytes) =>
      let n := byteAt q 0x1C
      !mailClean q [0x18, 0x19, 0x1A, 0x1B, 0x1C] || 127 < byteAt q 0x18 || 127 < byteAt q 0x19 || 1 < byteAt q 0x1A || n = 0 || 128 < n ||
        mailLen q < n
    s.mailCommand f 0x0040 [.pf0] bad upModes fun q s =>
      let cage := byteAt q 0x18
      let n := byteAt q 0x1C
      let head := sliceOf q 0x19 4
      if byteAt q 0x1A = 1 then
        match host with
        | none => s.mailAnswer f .dmaError
        | some d =>
          if !(s.port cage).present then s.mailAnswer f .noModule
          else if bus.isNone then s.mailAnswer f .nak
          else (s.emit (.twoWire (cage / 8) (cage % 8) (head ++ sliceOf d 0 n))).mailAnswer f .ok n
      else if !(s.port cage).present then s.mailAnswer f .noModule
      else
        match bus with
        | none => s.mailAnswer f .nak
        | some d =>
          let s := s.emit (.twoWire (cage / 8) (cage % 8) head)
          if !written then s.mailAnswer f .dmaError
          else (s.emit (.hostWrite (.pf f) (mailAddr q) (sliceOf d 0 n))).mailAnswer f .ok n

/-- MDIO: one Clause 45 transaction (R468). -/
def execMdio (f : Fn) (valueRead : BitVec 16) (s : State) : Host.Outcome State Fault Refusal :=
  done <|
    let bad := fun (q : Bytes) =>
      !mailClean q [0x18, 0x19, 0x1A, 0x1B, 0x1C, 0x1D, 0x1E, 0x1F] || 15 < byteAt q 0x18 || 31 < byteAt q 0x19 || 31 < byteAt q 0x1A ||
        1 < byteAt q 0x1B
    s.mailCommand f 0x0041 [.pf0] bad upModes fun q s =>
      let w : Bool := byteAt q 0x1B = 1
      let s := s.emit (.mdio (byteAt q 0x18) w (byteAt q 0x19) (byteAt q 0x1A) (leAt q 0x1C 2) (if w then leAt q 0x1E 2 else 0))
      s.mailAnswer f .ok 0 (if w then [] else leBytes 2 valueRead.toNat)

/-- TELEM_CFG configures the snapshots, or ends them (R493). -/
def execTelemCfg (f : Fn) (s : State) : Host.Outcome State Fault Refusal :=
  done <|
    let used := [0x18, 0x19, 0x1A, 0x1B, 0x1C, 0x1D, 0x1E, 0x1F]
    let bad := fun (q : Bytes) =>
      let n := byteAt q 0x19
      let r := leAt q 0x1A 2
      let p := leAt q 0x1C 4
      !mailClean q used || 3 < byteAt q 0x18 || n = 0 || 64 < n || p = 0 || 60000 < p || mailAddr q % 65536 ≠ 0 || mailLen q < n * 65536 ||
        !(s.ringIs r 5 .pf0 || s.ringIs r 5 .pf2)
    s.mailCommand f 0x0050 [.pf0] bad upOrStandby fun q s =>
      let p := leAt q 0x1C 4
      let t : Telemetry :=
        { addr := mailAddr q, nbuf := byteAt q 0x19, ring := leAt q 0x1A 2, periodMs := p, counters := bitOf 1 (byteAt q 0x18),
          due := s.now + p * msNs }
      let s := { s with mgt := { s.mgt with telemetry := if bitOf 0 (byteAt q 0x18) then some t else none } }
      s.mailAnswer f .ok

/-- Whether the sequencer is idle: SEQ_STATUS.CLASS is 0, and none of its commands is fetched (R260). -/
def State.seqIdle (s : State) : Bool :=
  s.seqRuns.isNone && s.gen.waiting.isEmpty &&
    !s.hif.rings.any fun _ x => (x.inExec.toList ++ x.fetched).any fun d => seqOpcode (descOp d)

/-- PATCH_LOAD loads a bundle of the running image (R260, R261, R468). -/
def execPatchLoad (f : Fn) (bundle : Bytes) (s : State) : Host.Outcome State Fault Refusal :=
  done <|
    let bad := fun (q : Bytes) => !mailClean q [0x18] || byteAt q 0x18 = 0 || 2 < byteAt q 0x18
    s.mailCommand f 0x0060 [.pf0] bad (fun m => m = .config) fun q s =>
      if !s.seqIdle then s.mailAnswer f .busy
      else if byteAt bundle 2 ≠ byteAt q 0x18 then s.mailAnswer f .patchRefused
      else
        match s.loadBundle bundle with
        | some t => t.mailAnswer f .ok 0 (leBytes 4 (leAt bundle 8 4))
        | none => s.mailAnswer f .patchRefused

end Sys2Proof.Machine
end

