-- ==== Sys2Proof/Machine/FuseOps.lean ====
section
/-! DEFINITION. The settings that change a limited number of times and the fuse controller (R90, R247, R480 to R486,
Table 16.9). -/

namespace Sys2Proof.Machine

/-! Requests -/

/-- Add an operation to the controller's queue (R485). -/
def State.queueFuse (s : State) (o : FuseOp) : State := { s with fuses := { s.fuses with ops := s.fuses.ops ++ [o] } }

/-- A mailbox request waits for the controller. -/
def State.mailFuse (s : State) (f : Fn) (id index value : Nat) : State :=
  (s.queueFuse ⟨id, index, value, some f, 0⟩).setMailbox f { s.mailbox f with fuse := true }

/-- The conditions of R90: all eight ports of the slice BLACK, CONFIG, and CFG_SEAL clear. -/
def State.domainLockOk (s : State) (slice : Nat) : Bool :=
  ((List.range 8).all fun k => s.black (8 * slice + k)) && s.mode = .config && !s.bit .glbSeal 0 0 0

/-- Budget left of a setting. -/
def Fuses.left (x : Fuses) (id : Nat) : Nat :=
  match id with
  | 1 => 64 - x.arb
  | 2 => x.kekLeft
  | 3 => boolBit (!x.bypDis)
  | 4 => boolBit (!x.debugLock)
  | 5 => boolBit (!x.ftLock)
  | 6 => (List.range 16).countP fun i => !x.domLock.testBit i
  | _ => 4 - x.assets.length

/-- Whether a one-way bit is already 1. -/
def Fuses.blown (x : Fuses) (id index : Nat) : Bool :=
  match id with
  | 3 => x.bypDis
  | 4 => x.debugLock
  | 5 => x.ftLock
  | 6 => x.domLock.testBit index
  | _ => false

/-- A FUSE_PROGRAM request for setting `id` of this function and these modes (R481 to R483). -/
def State.fuseRequest (s : State) (f : Fn) (id : Nat) (owner : Fn) (modes : Mode → Bool) : State :=
  match s.mailRuns f 0x0030 with
  | none => s
  | some q =>
    if byteAt q 0x18 ≠ id then s
    else
      let used := [0x18, 0x19, 0x1A, 0x20, 0x21, 0x22, 0x23, 0x24, 0x25, 0x26, 0x27]
      let bad := fun (q : Bytes) =>
        let k := byteAt q 0x1A
        !mailClean q used || byteAt q 0x19 ≠ (id ^^^ 0xA5) || (if id = 6 then 15 < k else k ≠ 0) || (id = 7 && leAt q 0x20 8 = 0)
      s.mailCommand f 0x0030 [owner] bad modes fun q s =>
        let k := byteAt q 0x1A
        if s.fuses.blown id k then s.mailAnswer f .ok (s.fuses.left id)
        else if id = 7 ∧ s.fuses.left 7 = 0 then s.mailAnswer f .budget
        else if s.fuseHold || (id = 6 && !s.domainLockOk k) then s.mailAnswer f .fuseCond
        else s.mailFuse f id k (leAt q 0x20 8)

/-- FUSE_BYPASS_DISABLE: in any mode but RESET and BRINGUP (Table 16.9). -/
def execFuseBypassDisable (f : Fn) (s : State) : Host.Outcome State Fault Refusal :=
  done (s.fuseRequest f 3 .pf1 fun m => m ≠ .reset && m ≠ .bringup)

/-- FUSE_DEBUG_LOCK. -/
def execFuseDebugLock (f : Fn) (s : State) : Host.Outcome State Fault Refusal :=
  done (s.fuseRequest f 4 .pf0 fun m => m = .config)

/-- FUSE_FT_LOCKOUT. -/
def execFuseFtLockout (f : Fn) (s : State) : Host.Outcome State Fault Refusal :=
  done (s.fuseRequest f 5 .pf0 fun m => m = .config)

/-- FUSE_DOMAIN_LOCK (R90). -/
def execFuseDomainLock (f : Fn) (s : State) : Host.Outcome State Fault Refusal :=
  done (s.fuseRequest f 6 .pf0 fun m => m = .config)

/-- FUSE_ASSET_TAG (R484). -/
def execFuseAssetTag (f : Fn) (s : State) : Host.Outcome State Fault Refusal :=
  done (s.fuseRequest f 7 .pf0 fun m => m = .config)

/-- ARB_ADVANCE raises the anti-rollback counter to the SVN of the running image (R480). -/
def execArbAdvance (f : Fn) (s : State) : Host.Outcome State Fault Refusal :=
  done <| s.mailCommand f 0x0012 [.pf0] (fun q => !mailClean q []) (fun m => m = .config || m = .forward) fun _ s =>
    let v := s.boot.running.svn
    if s.boot.trial then s.mailAnswer f .mode
    else if v ≤ s.fuses.arb then s.mailAnswer f .ok
    else if s.fuseHold then s.mailAnswer f .fuseCond
    else s.mailFuse f 1 0 v

/-- KEK_ADVANCE makes the next fuse key slot active; its ring waits while the controller works (R247, R485). -/
def execKekAdvance (r : Ring) (s : State) : Host.Outcome State Fault Refusal :=
  done <| s.command r 0x0065 fun _ s =>
    if s.fuses.kekLeft = 0 then s.complete r .kekBudget
    else if s.fuses.ops.any fun o => o.id = 2 ∧ o.ring = r.val then s
    else s.queueFuse ⟨2, 0, s.fuses.kekSlot + 1, none, r⟩

/-! The controller (R486) -/

/-- Steps or bits that an operation blows. -/
def FuseOp.size (o : FuseOp) (x : Fuses) : Nat :=
  match o.id with
  | 1 => o.value - x.arb
  | 7 => 1 + (List.range 64).countP fun i => o.value.testBit i
  | _ => 1

/-- The lowest n set bits of a number of 64 bits. -/
def lowestOnes (v n : Nat) : Nat :=
  (List.range 64).foldl (fun acc i =>
    if v.testBit i ∧ (List.range i).countP (fun j => v.testBit j) < n then acc + 2 ^ i else acc) 0

/-- The fuses after the first n steps or bits of an operation; an asset's USED bit is the first (R484). -/
def FuseOp.program (o : FuseOp) (n : Nat) (x : Fuses) : Fuses :=
  if n = 0 then x
  else
    match o.id with
    | 1 => { x with arb := x.arb + n }
    | 2 => { x with kekSlot := x.kekSlot + 1, kekLeft := x.kekLeft - 1 }
    | 3 => { x with bypDis := true }
    | 4 => { x with debugLock := true }
    | 5 => { x with ftLock := true }
    | 6 => { x with domLock := x.domLock ||| 2 ^ o.index }
    | _ => { x with assets := x.assets ++ [lowestOnes o.value (n - 1)] }

/-- A slot whose SVN is below the counter reads ROLLBACK (R480). -/
def Slot.aged (x : Slot) (arb : Nat) : Slot :=
  if (x.state = .valid ∨ x.state = .failed) ∧ x.svn < arb then { x with state := .rollback } else x

/-- The slots after a change of the anti-rollback counter. -/
def State.ageSlots (s : State) : State :=
  let b := s.boot
  s.setBoot { b with a := b.a.aged s.fuses.arb, b := b.b.aged s.fuses.arb }

/-- Whether the requester of an operation still waits for it. -/
def State.fuseWanted (s : State) (o : FuseOp) : Bool :=
  match o.mailbox with
  | some f => (s.mailbox f).fuse
  | none => (s.executing o.ring 0x0065).isSome

/-- The requester of an operation gets its result. INFO of ARB_ADVANCE is the steps consumed, of KEK_ADVANCE the active
slot, otherwise the budget left. A KEK_ADVANCE whose fuses read back wrong completes with a status the spec does not
give: a free choice among those of its ring. -/
def State.fuseAnswer (s : State) (o : FuseOp) (good : Bool) (n : Nat) : State :=
  match o.mailbox with
  | some f => s.mailAnswer f (if good then .ok else .fuseFail) (if o.id = 1 then n else s.fuses.left o.id)
  | none =>
    if good then s.complete o.ring .ok s.fuses.kekSlot
    else
      let (v, s) := s.draw 3
      s.complete o.ring
        (([.ok, .aborted, .badDesc, .privilege, .mode, .dmaError, .seqFault, .kekBudget] : List Status).getD v.toNat .ok) s.fuses.kekSlot

/-- Every gate applies the bypass-disable fuse once it is blown, and PRT_BYP_EFFECTIVE reads 0 (R92, R95). -/
def State.gateFuse (s : State) : State := if s.fuses.bypDis then s.setReg .prtBypEffective 0 0 0 else s

/-- Whether the fuses show what a FUSE_INTENT asked for. -/
def Fuses.shows (x : Fuses) (id index value : Nat) : Bool :=
  match id with
  | 1 => value ≤ x.arb
  | 2 => value ≤ x.kekSlot
  | 7 => x.assets.getLast? = some value
  | _ => x.blown id index

/-- The FUSE_INTENT entries of a list that no FUSE_DONE of the same setting follows. -/
def openIntents : List KilnEntry → List KilnEntry
  | [] => []
  | e :: rest =>
    if e.type = 0x0020 && !rest.any fun d => d.type = 0x0021 && sliceOf d.data 0 2 = sliceOf e.data 0 2 then e :: openIntents rest
    else openIntents rest

/-- At bring-up, an intent that a reset cut off from its FUSE_DONE is given one, with the result that the fuses as read
show and FLAGS.RECOVERED set (R486). -/
def State.recoverIntents (s : State) : State :=
  runOver (openIntents s.kiln.perm) (fun e s =>
    let id := byteAt e.data 0
    let bad := !s.fuses.shows id (byteAt e.data 1) (leAt e.data 2 8)
    let mark := fun (n : Nat) (l : List KilnEntry) => l.take n ++ (l.drop n).map fun d => { d with recovered := true }
    let n := s.kiln.perm.length
    let m := s.kiln.buffer.length
    let s := s.kilnPerm 0x0021 e.fn (sliceOf e.data 0 2 ++ leBytes 1 (boolBit bad) ++ leBytes 1 (s.fuses.left id))
    { s with kiln := { s.kiln with perm := mark n s.kiln.perm, buffer := mark m s.kiln.buffer } }) s

/-- FUSE_OPERATION: the controller takes the first operation: intent, programming, read-back, result, response (R486).
While R483 holds, a mailbox request gets FUSE_COND and a key ring waits. -/
def execFuseOperation (back : FuseReadBack) (s : State) : Host.Outcome State Fault Refusal :=
  done <|
    match s.fuses.ops with
    | [] => s
    | o :: rest =>
      let drop := fun (s : State) => { s with fuses := { s.fuses with ops := rest } }
      if !s.fuseWanted o then drop s
      else if s.fuseHold || (o.id = 6 && !s.domainLockOk o.index) then
        match o.mailbox with
        | some f => (drop s).mailAnswer f .fuseCond
        | none => s
      else
        let s := drop s
        if o.id = 2 ∧ s.fuses.kekLeft = 0 then s.complete o.ring .kekBudget
        else
          let fn := if o.id = 2 ∨ o.id = 3 then 1 else 0
          let want := o.size s.fuses
          let n := match back with
            | .asRequested => want
            | .partialBits k => min k want
          let good : Bool := n = want
          let value := if o.id = 2 then s.fuses.kekSlot + 1 else o.value
          let s := s.kilnPerm 0x0020 fn (leBytes 1 o.id ++ leBytes 1 o.index ++ leBytes 8 value)
          let s := { s with fuses := o.program n s.fuses }
          let s := if o.id = 1 then s.ageSlots else if o.id = 3 then s.gateFuse else s
          let s := s.kilnPerm 0x0021 fn (leBytes 1 o.id ++ leBytes 1 o.index ++ leBytes 1 (boolBit (!good)) ++ leBytes 1 (s.fuses.left o.id))
          s.fuseAnswer o good n

end Sys2Proof.Machine
end

