-- ==== Sys2Proof/Machine/Host.lean ====
section
/-! DEFINITION. Meanings of the doorbells and of the ring events (chapter 12). -/

namespace Sys2Proof.Machine

/-- The physical function whose counters and role a requester has. -/
def reqFn : Requester → Fn
  | .pf f => f
  | .vf _ => .pf0

/-- The groups a VF owns, in ascending order. -/
def State.vfGroups (s : State) (n : Nat) : List Nat := (List.range 224).filter fun g => s.groupVf g = n + 1

/-- The ring group whose doorbell page lies at page number `p` of a requester's BAR2 (R374, Table 19.4). -/
def State.doorbellGroup (s : State) (req : Requester) (p : Nat) : Option Nat :=
  match req with
  | .pf .pf0 => if p < 224 then some p else none
  | .pf .pf1 => if p < 16 then some (224 + p) else none
  | .pf .pf2 => if p < 16 then some (240 + p) else none
  | .vf n => (s.vfGroups n)[p]?

/-- The ring of a well-formed doorbell (R374, Table 12.6): an 8-byte write in the ring's slot. -/
def State.doorbellRing (s : State) (req : Requester) (off size value : Nat) : Option Nat :=
  match s.doorbellGroup req (off / 4096) with
  | some g =>
    let o := off % 4096
    let r := 16 * g + o / 8
    if size = 8 ∧ o % 8 = 0 ∧ o < 128 ∧ bitsOf 43 32 value = r ∧ bitsOf 47 44 value = 0 ∧ bitsOf 63 51 value = 0 ∧
        bitsOf 50 48 value ≤ 2 then some r else none
  | none => none

/-- A doorbell is ignored and counted (R374). -/
def State.ignoreDoorbell (s : State) (req : Requester) : State := s.bump (cntHif (reqFn req).num 0)

/-- A write to BAR2 that is no doorbell: to the MSI-X table, to the pending bit array, which keeps its value, or ignored and
counted (R374, R540). -/
def State.bar2Write (s : State) (req : Requester) (off size value : Nat) : State :=
  match msixAccess req off size with
  | some (v, o) => s.msixWrite req v o size value
  | none => if pendingArray req ≤ off && off < pendingArray req + 8 then s else s.ignoreDoorbell req

/-- An INDEX doorbell of ring r (R375). -/
def State.applyIndex (s : State) (req : Requester) (r index : Nat) : State :=
  let x := s.ring r
  if !x.active then s.ignoreDoorbell req else
  let event := x.ctx.any fun c => c.kind = 5
  let dist := if event then (x.devIdx + 2 ^ 32 - index) % 2 ^ 32 else (index + 2 ^ 32 - x.devIdx) % 2 ^ 32
  if dist ≤ x.size then (s.pmcCount 7 0 0 1).setRing r { x with hostIdx := index } else s.haltRing r 2

/-- An INDEX doorbell (R374, R375). -/
def execDoorbellIndex (req : Requester) (off size : Nat) (value : BitVec 64) (s : State) :
    Host.Outcome State Fault Refusal :=
  done <| match s.doorbellRing req off size value.toNat with
    | some r => if bitsOf 50 48 value.toNat = 0 then s.applyIndex req r (bitsOf 31 0 value.toNat) else s
    | none => s.bar2Write req off size value.toNat

/-- Whether two entries differ only in IRQ_EN, IRQ_SRC or HOLDOFF_US (R371). -/
def RingCtx.sameBut (a b : RingCtx) : Bool :=
  a.base = b.base && a.wbAddr = b.wbAddr && a.kind = b.kind && a.log2n = b.log2n && a.reserved = b.reserved

/-- Compare a new entry with the one last applied (R371, R373). -/
def State.applyContext (s : State) (r : Nat) (c : RingCtx) : State :=
  let x := s.ring r
  let wasOn := x.active && !x.stopping
  if c.en then
    if !wasOn then (if x.active then s.setRing r { x with deferred := some c } else s.enableRing r c)
    else if (x.ctx.any fun o => o.sameBut c) then s.setRing r { x with ctx := some c }
    else s.haltRing r 3
  else if wasOn then s.stopRing r
  else s.setRing r { x with deferred := none }

/-- An INVALIDATE doorbell: the device reads the ring's context entry (R370, R371). -/
def execDoorbellInvalidate (req : Requester) (off size : Nat) (value : BitVec 64) (ctx : Dma) (s : State) :
    Host.Outcome State Fault Refusal :=
  done <| match s.doorbellRing req off size value.toNat with
    | some r =>
      if bitsOf 50 48 value.toNat = 1 then
        match ctx with
        | some b => ((s.pmcCount 7 0 0 1).touchCtx r).applyContext r (ctxOf b)
        | none => s.haltRing r 4
      else s
    | none => s.bar2Write req off size value.toNat

/-- A RESUME doorbell (R387). -/
def execDoorbellResume (req : Requester) (off size : Nat) (value : BitVec 64) (s : State) :
    Host.Outcome State Fault Refusal :=
  done <| match s.doorbellRing req off size value.toNat with
    | some r =>
      if bitsOf 50 48 value.toNat = 2 then
        let x := s.ring r
        if x.halted then (s.pmcCount 7 0 0 1).setRing r { x with halted := false, err := 0 } else s.ignoreDoorbell req
      else s
    | none => s.bar2Write req off size value.toNat

/-- An enabling entry that waited for ACTIVE = 0 is applied (R373). -/
def execDeferredRingEnable (r : Ring) (s : State) : Host.Outcome State Fault Refusal :=
  done <|
    let x := s.ring r
    match x.deferred with
    | some c => if x.active then s else (s.setRing r { x with deferred := none }).enableRing r c
    | none => s

/-- Whether a ring has a posted descriptor that has not been fetched. -/
def RingState.hasWork (x : RingState) : Bool :=
  x.fetched.length + boolBit x.inExec.isSome < (x.hostIdx + 2 ^ 32 - x.devIdx) % 2 ^ 32

/-- The next descriptor of ring r is fetched, or the fetch fails (R370, R383, R384, R386). No ring runs in RESET or
BRINGUP (R380). -/
def State.fetchDescriptor (s : State) (r : Nat) (res : FetchResult) : State :=
  let x := s.ring r
  if !x.enabled || !s.mode.ringsRun then s else
  match res with
  | .writeFail => s.haltRing r 6
  | .contextReadFail => if s.hif.cached.contains r then s else s.haltRing r 4
  | .descReadFail =>
    if x.hasWork && x.fetched.isEmpty && x.inExec.isNone && !(x.ctx.any fun c => c.kind = 5) then s.haltRing r 5 else s
  | .data d =>
    match x.ctx with
    | some c =>
      if c.kind = 5 || !x.hasWork || (s.cacheRoom r).isNone then s else
      let s := ((s.pmcCount 7 0 1 1).touchCtx r).setRing r { x with fetched := x.fetched ++ [d] }
      if c.kind = 3 then s.servePunts r x.puntQ.length
      else if c.kind = 4 then s
      else (s.noteFetch r (x.fetched.length + boolBit x.inExec.isSome) d).handOn r
    | none => s

/-- A descriptor fetch (R383). -/
def execDescriptorFetch (r : Ring) (res : FetchResult) (s : State) : Host.Outcome State Fault Refusal :=
  done (s.fetchDescriptor r res)

/-- Every entry of a stopping ring has been dealt with: write-back word, RING_STOPPED, ACTIVE 0 (R388). -/
def execRingStopped (r : Ring) (s : State) : Host.Outcome State Fault Refusal :=
  done <|
    let x := s.ring r
    if x.active && x.stopping && x.inExec.isNone && x.fetched.isEmpty then
      let s := s.writeBack r
      let s := s.ctrlRecord (ringFn r) 0x0003 (leBytes 2 r.val ++ zeros 2 ++ leBytes 4 x.aborted)
      s.setRing r { s.ring r with active := false, stopping := false }
    else s

/-- NOP completes with OK (R377). -/
def execNop (r : Ring) (s : State) : Host.Outcome State Fault Refusal :=
  done <| s.command r 0x0001 fun _ s => s.complete r .ok

/-- A full event ring has room again: the OVERFLOW record is written (R393). -/
def execEventOverflowRecord (r : Ring) (s : State) : Host.Outcome State Fault Refusal :=
  done <|
    if s.ringIs r 5 (ringFn r) then s.putOverflow r else s

/-- A ring's interrupt holdoff ends (R395). -/
def execIrqHoldoffEnd (r : Ring) (s : State) : Host.Outcome State Fault Refusal :=
  done <|
    let x := s.ring r
    if x.holdEnd = 0 then s else
    let s := s.advanceTo x.holdEnd
    if x.irqHeld then (s.setRing r { x with holdEnd := 0, irqHeld := false }).ringIrq r
    else s.setRing r { x with holdEnd := 0 }

end Sys2Proof.Machine
end

