-- ==== Sys2Proof/Machine/Ingress.lean ====
section
/-! DEFINITION. The policers, and a frame's combined result and what it does (R94, R106, R153 to R157, R162, R173 to
R176, R350 to R354, R529, R563). -/

namespace Sys2Proof.Machine

/-! The combined result (R153, R174) -/

/-- Action data of the base result, the exact-match hit under FORWARD before the route hit (R174). -/
def State.baseSources (s : State) (x : Frame) : List Nat :=
  (if s.role x = 1 && x.exact.hit then [x.exact.data] else []) ++ (if x.route.hit then [x.route.data] else [])

/-- A combined result. -/
structure Plan where
  /-- Codes of Table 05.4; 0 when the result has no destination. -/
  verdict : Nat
  /-- The verdict comes from the rule or the profile's default action. -/
  fromRule : Bool
  port : Nat
  circuit : Nat
  byp : Nat
  cls : Nat
  pol : Option Nat
  deriving DecidableEq, Repr

/-- Class of a frame from the base result: the first source that sets one, or the PCP (R174). -/
def State.baseClass (s : State) (x : Frame) : Nat :=
  match (s.baseSources x).find? fun a => bitOf 34 a with
  | some a => bitsOf 33 31 a
  | none => beAt x.hv 8 2 / 8192

/-- The combined result of a frame whose lookups have returned (R153, R174). -/
def State.plan (s : State) (x : Frame) : Plan :=
  let a := x.rule.data
  let src := s.baseSources x
  let base := (src.find? fun d => bitsOf 3 0 d ≠ 0).getD 0
  let cls := if bitOf 58 a then bitsOf 61 59 a else s.baseClass x
  let pol := if bitOf 63 a then some (bitsOf 77 64 a) else (src.find? fun d => bitOf 49 d).map fun d => bitsOf 48 35 d
  if bitsOf 3 0 a ≠ 0 then ⟨bitsOf 3 0 a, true, bitsOf 14 8 a, bitsOf 31 16 a, bitsOf 35 32 a, cls, pol⟩
  else ⟨bitsOf 3 0 base, false, bitsOf 10 4 base, bitsOf 26 11 base, bitsOf 30 27 base, cls, pol⟩

/-- Whether every lookup of a frame has returned and its last byte and checks have passed (R351). -/
def State.ready (s : State) (x : Frame) : Bool :=
  x.ing = .landing && x.ended && x.issued && x.cleared && x.rule.back && (s.role x = 0 || x.exact.back) &&
    (s.lpmFam x = 0 || x.route.back)

/-- Whether a result ends in an integrity discard or punt. -/
def Frame.broken (x : Frame) : Bool := x.rule.lost || x.rule.bad || x.exact.bad || x.route.bad

/-! Policers (R350 to R354) -/

/-- The version of policer n visible in g. -/
def State.polAt (s : State) (n : Nat) (g : Gen) : Option PolVer := (s.pol.vers.get [] n).find? fun v => v.tag.visible g

/-- The policer that meters a ready frame: POL_EN and a visible version. -/
def State.meteredBy (s : State) (x : Frame) : Option (Nat × PolVer) :=
  if x.broken then none else (s.plan x).pol.bind fun n => (s.polAt n x.gen).map fun v => (n, v)

/-- Whether a frame's meter request has been sent and its colour has not returned. -/
def State.requested (s : State) (x : Frame) : Bool := s.ready x && x.meter ≠ .done && (s.meteredBy x).isSome

/-- Whether a frame holds its slice's watermark: received, neither requested nor resolved, and not late. -/
def State.holdsMark (s : State) (x : Frame) : Bool := x.ing = .landing && !s.ready x && x.meter ≠ .late

/-- The watermark of a slice (R351). -/
def State.watermark (s : State) (i : Nat) : Nat :=
  s.frames.cells.foldl (fun m c => if c.2.slice = i && s.holdsMark c.2 then min m c.2.sofNs else m)
    (if s.frames.cells.any fun c => c.2.slice = i && s.holdsMark c.2 then 2 ^ 64 else s.now - 256)

/-- Input colour of a frame (R353). -/
def State.inColour (s : State) (x : Frame) : Nat :=
  match s.fld .polPrecolour 0 0 1 0 with
  | 1 => if byteAt x.hv 1 % 4 = 0 then 0 else boolBit (bitOf 12 (beAt x.hv 8 2))
  | 2 =>
    let d := byteAt x.hv (s.fld .polPrecolour 0 0 15 8) / 4
    s.fld .polDscpMap 0 (d / 16) (2 * (d % 16) + 1) (2 * (d % 16))
  | _ => 0

/-- Bytes as µbits. -/
def mubits (n : Nat) : Int := (n * 8000000 : Nat)

/-- Meter a frame: `d` ns after the last one, b µbits, input colour `inc`; the new buckets and the colour (R352). -/
def PolVer.meter (v : PolVer) (k : PolBucket) (d : Nat) (b : Int) (inc : Nat) : Int × Int × Nat :=
  let add := fun (rate : Nat) => (d * rate : Nat)
  let b1 := mubits v.burst1
  let b2 := mubits v.burst2
  let t := k.tc + add v.rate1
  let tc := min t b1
  let t2 := if v.alg = 1 then min (k.t2 + (t - tc)) b2 else min (k.t2 + add v.rate2) b2
  if v.alg = 2 then
    if inc = 2 ∨ t2 < b then (tc, t2, 2)
    else if inc = 1 ∨ tc < b then (tc, t2 - b, 1)
    else (tc - b, t2 - b, 0)
  else if inc = 0 ∧ b ≤ tc then (tc - b, t2, 0)
  else if inc ≠ 2 ∧ b ≤ t2 then (tc, t2 - b, 1)
  else (tc, t2, 2)

/-- Key of a bucket by quad, policer and BORN. -/
def polKey (q n : Nat) (born : Gen) : Nat := (q * 16384 + n) * 65536 + born.toNat

/-- The buckets of a version that has metered nothing are full. -/
def PolVer.full (v : PolVer) (last : Nat) : PolBucket := ⟨mubits v.burst1, mubits v.burst2, last⟩

/-- A quad meters a frame (R351, R352, R354). -/
def State.meterFrame (s : State) (f : Nat) : State :=
  let x := s.frame f
  let q := x.slice / 4
  match s.meteredBy x with
  | none => s
  | some (n, v) =>
    let late := x.meter = .late
    let key := polKey q n v.tag.born
    let k := (s.pol.bkts.get none key).getD (v.full x.sofNs)
    let d := if late then 0 else min (x.sofNs - k.last) (2 ^ 32)
    let len := x.len + 4
    let (tc, t2, col) := v.meter k d (mubits len) (if bitOf 0 v.flags then s.inColour x else 0)
    let s := { s with pol := { s.pol with bkts := s.pol.bkts.set none key (some ⟨tc, t2, if late then k.last else x.sofNs⟩) } }
    let s := if late then s.bump (cntPol q 5) else s
    let s := s.bump (cntPol q col)
    let s := if bitOf 3 v.flags then s.countPair (v.pair + col) len else s
    s.setFrame f { x with colour := col, meter := .done }

/-- The request of a quad that is metered next: one that came late, or the least key once every slice's watermark
passes it. -/
def State.nextMeter (s : State) (q : Nat) : Option Nat :=
  let l := s.framesWhere fun x => x.slice / 4 = q && s.requested x
  match l.find? fun f => (s.frame f).meter = .late with
  | some f => some f
  | none =>
    let key := fun f => (s.frame f).sofNs * 128 + (s.frame f).port
    (l.foldl (fun (best : Option Nat) f =>
      match best with
      | some g => some (if key f < key g then f else g)
      | none => some f) none).filter fun f =>
        (List.range 4).all fun i => (s.frame f).sofNs < s.watermark (4 * q + i)

/-- A quad meters its least pending request (R351). -/
def execPolicerMeter (q : Quad) (s : State) : Host.Outcome State Fault Refusal :=
  done <|
    match s.nextMeter q with
    | some f => s.meterFrame f
    | none => s

/-- A frame has not sent its request 16 µs after its SOF_NS (R351). -/
def execPolicerLate (f : Nat) (s : State) : Host.Outcome State Fault Refusal :=
  done <| if s.holdsMark (s.frame f) then (s.advanceTo ((s.frame f).sofNs + 16000)).modFrame f fun x => { x with meter := .late }
    else s

/-! Sampling (R529, R530) -/

/-- One step of the sampling LFSR. -/
def galois (v : Nat) : Nat := v / 2 ^^^ (if v % 2 = 1 then 0x80200003 else 0)

/-- The sampling decision for a frame. -/
def State.sampleFrame (s : State) (f : Nat) : State :=
  if !s.bit .pmcSampCtrl 0 0 28 then s else
  let i := (s.frame f).slice
  let v := galois (s.sampLfsr.get 0 i)
  let s := { s with sampLfsr := s.sampLfsr.set 0 i v }
  if v % 2 ^ s.fld .pmcSampCtrl 0 0 4 0 ≠ 0 then s else
  match s.takeToken (.sample (Fin.ofNat 16 i)) with
  | none => s.bump cntSampDrop
  | some s =>
    let n := s.sampSeq.get 0 i
    let s := { s with sampSeq := s.sampSeq.set 0 i ((n + 1) % 2 ^ 27) }
    s.modFrame f fun x => { x with sample := 2 ^ 31 + i * 2 ^ 27 + n }

/-! Copies and punts (R154, R157, R162, R173, R176) -/

/-- A token of a copy meter for a ring. -/
def State.copyTake (s : State) (ring q meter : Nat) : Option State :=
  s.puntTake ring (.copy (Fin.ofNat 4 q) (Fin.ofNat 16 meter))

/-- A frame is punted through a copy meter, or discarded and counted. -/
def State.meteredPunt (s : State) (f ring meter kind cls lentry drop : Nat) : State :=
  match s.copyTake ring ((s.frame f).slice / 4) meter with
  | some s => s.puntFrame f ring kind 0 cls lentry
  | none => (s.bump drop).discard f

/-- CLASS of a punt header (Table 12.15). -/
def Frame.classByte (x : Frame) (cls : Nat) : Nat := cls + 8 * x.colour

/-- A copy goes to the host (R154, R157). -/
def State.hostCopy (s : State) (f cls : Nat) : State :=
  let x := s.frame f
  let a := x.rule.data
  if !bitOf 48 a then s else
  let ring := bitsOf 47 36 a
  match s.copyTake ring (x.slice / 4) (bitsOf 52 49 a) with
  | some s => s.punt ring x.gen (x.puntHeader 3 0 (x.classByte cls) (x.slice / 4) x.rule.lentry x.len ++ x.bytes)
  | none => s.bump (cntRsa (x.slice / 4) 4)

/-- An integrity punt through copy meter 15, or its discard under counter `k` (R162, R173). -/
def State.integrityPunt (s : State) (f k : Nat) : State :=
  let v := s.reg .rsaIntegPunt 0 0
  let x := s.frame f
  if bitOf 0 v then s.meteredPunt f (bitsOf 27 16 v) 15 5 (x.classByte (s.baseClass x)) 0xFFFFFFFF k
  else (s.bump k).discard f

/-- The integrity outcomes of a frame's lookups. -/
def State.applyBroken (s : State) (f : Nat) : State :=
  let x := s.frame f
  let q := x.slice / 4
  if x.rule.lost then (s.bump (cntRsa q 5)).discard f
  else if x.rule.bad then s.integrityPunt f (cntRsa q 5)
  else s.integrityPunt f (cntEmt q 2)

/-! Forwarding (R94, R153, R155, R156, R563) -/

/-- The checks of R563 on a frame of slice `slice` whose length with FCS is `len`: the counter that takes the discard, or
the circuit version. -/
def State.encryptCheck (s : State) (slice c len : Nat) (g : Gen) : Nat ⊕ CirVer :=
  match s.cirAt c g with
  | none => .inl (cntRsa (slice / 4) 3)
  | some v =>
    let sa := (s.txSaAt c g).bind fun k => s.saOf k.1
    if !s.black v.port || v.txSel = 0xFF then .inl (cntRsa (slice / 4) 3)
    else if (s.cirState c).suspended || sa.any fun a => a.poison then .inl (cntGlz slice 13)
    else if (s.cirState c).disabled then .inl (cntGlz slice 12)
    else if 10368 < len + v.ovh then .inl (cntGlz slice 4)
    else .inr v

/-- A frame goes on under a circuit (R153, R563). -/
def State.sendEncrypted (s : State) (f c requester : Nat) : State :=
  let x := s.frame f
  match s.encryptCheck x.slice c (x.len + 4) x.gen with
  | .inl k => (s.bump k).discard f
  | .inr v => (s.setFrame f { x with outPort := v.port, circuit := some c, prog := v.rewrite }).link f requester

/-- A frame goes on in plaintext, with the bypass class that is its proof (R153, R156). -/
def State.sendPlain (s : State) (f port : Nat) (byp : Option Nat) (requester : Nat) : State :=
  let x := s.frame f
  if s.black port && byp.isNone then (s.bump (cntRsa (x.slice / 4) 2)).discard f
  else (s.setFrame f { x with outPort := port, byp := byp }).link f requester

/-- Requester of a frame's claims (R320). -/
def Frame.requester (x : Frame) : Nat := if x.origin = .inject then 9 else x.port % 8

/-- A rule's PUNT (R157). -/
def State.rulePunt (s : State) (f cls : Nat) : State :=
  let x := s.frame f
  let a := x.rule.data
  s.meteredPunt f (bitsOf 47 36 a) (bitsOf 52 49 a) 2 (x.classByte cls) x.rule.lentry (cntRsa (x.slice / 4) 4)

/-- A base PUNT (R176). -/
def State.basePunt (s : State) (f cls : Nat) : State :=
  let x := s.frame f
  let v := s.reg .emtPuntCfg 0 0
  let k := cntEmt (x.slice / 4) 5
  if bitOf 0 v then s.meteredPunt f (bitsOf 27 16 v) 14 4 (x.classByte cls) 0xFFFFFFFF k else (s.bump k).discard f

/-- Whether a frame came unprotected from a BLACK port (R155). -/
def Frame.unprotected (x : Frame) : Bool := x.hvBlack && !bitOf 5 (byteAt x.hv 1)

/-- The verdict of a combined result (R153, R155, R156, R175, R176). -/
def State.applyVerdict (s : State) (f : Nat) (p : Plan) : State :=
  let x := s.frame f
  let q := x.slice / 4
  let s := s.setFrame f { x with cls := p.cls }
  let open_ := x.unprotected
  let refuse := (s.bump (cntRsa q 1)).discard f
  match p.verdict with
  | 1 => (s.bump (if p.fromRule then cntRsa q 0 else cntEmt q 6)).discard f
  | 5 => if p.fromRule then s.rulePunt f p.cls else s.basePunt f p.cls
  | 4 =>
    if open_ && !s.bypassOk p.byp then (if bitOf 4 x.rule.data then s.rulePunt f p.cls else refuse)
    else s.sendPlain f p.port (some p.byp) x.requester
  | 2 => if open_ then refuse else s.sendPlain f p.port none x.requester
  | 3 => if open_ then refuse else s.sendEncrypted f p.circuit x.requester
  | _ => if open_ then refuse else (s.bump (cntEmt q 0)).discard f

/-- The mirror copy of a frame, made from the frame as its result was applied (R58, R157, R322, R530, Table 05.14). -/
def State.mirrorCopy (s : State) (x : Frame) : State :=
  let v := s.reg .rsaMirSess 0 (bitsOf 57 54 x.rule.data)
  if !bitOf 53 x.rule.data || !bitOf 30 v then s else
  let n := bitsOf 63 56 v
  let f := s.nextFrame
  let y : Frame := { origin := .copy, port := x.port, gen := x.gen, sofNs := x.sofNs, sofSec := x.sofSec, sofNano := x.sofNano
                     sofFrac := x.sofFrac, bytes := if n = 0 then x.bytes else x.bytes.take (64 * n), ended := true, hv := x.hv
                     cls := bitsOf 33 31 v, colour := x.colour, sample := x.sample, mirror := true, group := x.group
                     member := 1, set := x.set, slice := x.slice }
  let s := ({ s with nextFrame := f + 1, frames := s.frames.set {} f y }).refUp y.gen
  if bitOf 39 v then s.sendEncrypted f (bitsOf 55 40 v) x.requester
  else s.sendPlain f (bitsOf 6 0 v) (if bitOf 38 v then some (bitsOf 37 34 v) else none) x.requester

/-- Whether a frame's colour discards it (R354). -/
def State.colourDrop (s : State) (x : Frame) : Bool :=
  (s.meteredBy x).any fun p => (x.colour = 1 && bitOf 1 p.2.flags) || (x.colour = 2 && bitOf 2 p.2.flags)

/-- The effects of a combined result, in order: counter pair, host copy, policer, verdict, mirror copy. -/
def State.applyPlan (s : State) (f : Nat) : State :=
  let x := s.frame f
  let q := x.slice / 4
  let a := x.rule.data
  let p := s.plan x
  let s := if bitOf 78 a then s.countPair (bitsOf 98 79 a) (x.len + 4) else s
  let s := s.setFrame f { x with txTs := if bitOf 62 a then some 0 else x.txTs }
  let x := s.frame f
  let s := s.hostCopy f p.cls
  let drop := s.colourDrop x
  let s := if p.pol.any fun n => (s.polAt n x.gen).isNone then s.bump (cntPol q 4) else s
  let s := if drop then (s.bump (cntPol q 3)).discard f else s.applyVerdict f p
  s.mirrorCopy x

/-- A frame whose results are in, its colour returned, first of its port: the result is applied (R17, R351). -/
def State.resultDue (s : State) (f : Nat) : Bool :=
  let x := s.frame f
  s.ready x && !s.requested x && s.headOfPort f

/-- RESULT_APPLY; a failed frame that took no lookups meets its action. -/
def execResultApply (f : Nat) (s : State) : Host.Outcome State Fault Refusal :=
  done <|
    if !s.resultDue f then (if (s.frame f).issued then s else s.ingressSettle f)
    else
      let s := (s.sampleFrame f).learnEvent f
      if (s.frame f).broken then s.applyBroken f else s.applyPlan f

end Sys2Proof.Machine
end

