-- ==== Sys2Proof/Machine/Inject.lean ====
section
/-! DEFINITION. Injected frames and reads of counter pairs (R58, R378, R390, R391, R525 to R528). -/

namespace Sys2Proof.Machine

/-! Runs of an INJECT ring (R390, Table 12.14) -/

/-- SOP, EOP and IRQ of an inject descriptor. -/
def injectFlag (b : Nat) (d : Bytes) : Bool := bitOf b (byteAt d 10)

/-- The descriptors up to and including one with EOP, or up to the next SOP; none while no such end is fetched. -/
def runOf : List Bytes → List Bytes → Option (List Bytes)
  | acc, [] => if acc.any (injectFlag 2) then some acc else none
  | acc, d :: rest =>
    if acc.any (injectFlag 2) then some acc
    else if !acc.isEmpty && injectFlag 1 d then some acc
    else runOf (acc ++ [d]) rest

/-- Whether a descriptor has a reserved or out-of-range value. -/
def badInjectDesc (d : Bytes) : Bool :=
  leAt d 8 2 = 0 || 16384 < leAt d 8 2 || bitsOf 7 4 (byteAt d 10) ≠ 0 || bitOf 0 (byteAt d 10) || byteAt d 11 ≠ 0

/-- Total bytes of a run's buffers. -/
def runBytes (l : List Bytes) : Nat := l.foldl (fun n d => n + leAt d 8 2) 0

/-- Whether an inject header has a reserved value (Table 12.16). -/
def badInjectHeader (h : Bytes) : Bool :=
  let mode := byteAt h 0
  let flags := byteAt h 2
  (mode ≠ 1 && mode ≠ 2) || 127 < byteAt h 1 || 127 < byteAt h 6 || !zeroAt h 7 25 ||
  (mode = 1 && (2 ≤ flags || byteAt h 3 ≠ 0 || byteAt h 6 ≠ 0)) ||
  (mode = 2 && (6 ≤ flags || bitOf 3 (byteAt h 3)))

/-- Whether a run is malformed: SOP and EOP out of order, a length out of range, or a reserved value. -/
def badRun (l : List Bytes) (data : Bytes) : Bool :=
  !(l.head?.any (injectFlag 1)) || !(l.getLast?.any (injectFlag 2)) || l.any badInjectDesc ||
  runBytes l < 92 || 10268 < runBytes l || badInjectHeader data

/-- Write a run's descriptors back in place with a status (Table 12.14). -/
def State.putRun (s : State) (r status : Nat) (l : List Bytes) : State :=
  let x := s.ring r
  runOver (List.range l.length) (fun k s =>
    let d := l.getD k []
    s.emit (.hostWrite (s.ringReq r) (x.slotAddr (x.devIdx + k))
      (sliceOf d 0 10 ++ leBytes 1 (byteAt d 10 ||| 1) ++ leBytes 1 status ++ sliceOf d 12 4))) s

/-! Admission (R391) -/

/-- The frame of a run in `LOOKUP` mode: parsed as though received on its port. -/
def State.admitLookup (s : State) (h : Bytes) (x : Frame) : State :=
  let p := byteAt h 1
  let f := s.nextFrame
  let s := s.addFrame { x with port := p, slice := p / 8, set := portSet p, ing := .landing }
  s.setFrame f (s.frontEnd (s.frame f))

/-- The frame of a run in `DIRECT` mode: it takes no lookup. A circuit whose PORT is not the named egress port fails the
first check of R563: DESIGN CHOICE, log entry 33. -/
def State.admitDirect (s : State) (h : Bytes) (x : Frame) : State :=
  let p := byteAt h 6
  let c := leAt h 4 2
  let f := s.nextFrame
  let s := s.addFrame { x with port := p, slice := p / 8, set := portSet p, ing := .landing, issued := true
                               cls := byteAt h 3 % 8 }
  if bitOf 1 (byteAt h 2) then
    if (s.cirAt c x.gen).any fun v => v.port ≠ byteAt h 1 then (s.bump (cntRsa (p / 32) 3)).discard f
    else s.sendEncrypted f c 9
  else s.sendPlain f (byteAt h 1) (if bitOf 2 (byteAt h 2) then some (byteAt h 3 / 16) else none) 9

/-- A frame is admitted in CURRENT (R58). -/
def State.admitRun (s : State) (h frame : Bytes) (cookie : Nat) : State :=
  let x : Frame := { origin := .inject, gen := s.gen.current, bytes := frame, ended := true
                     txTs := if bitOf 0 (byteAt h 2) then some 1 else none, txTsTag := cookie }
  if byteAt h 0 = 1 then s.admitLookup h x else s.admitDirect h x

/-- Modes in which INJECT rings are served (R512 to R514). -/
def State.servesInject (s : State) : Bool := s.mode = .forward || s.mode = .factoryTest

/-- INJECT_ADMIT: the next whole run of an INJECT ring is admitted, or the ring halts with INJECT_FORMAT; `data` is what
its buffers hold. -/
def execInjectAdmit (r : Ring) (data : Dma) (s : State) : Host.Outcome State Fault Refusal :=
  done <|
    let x := s.ring r
    if !x.enabled || !(x.ctx.any fun c => c.kind = 4) || !s.servesInject then s else
    match runOf [] x.fetched, data with
    | none, _ => s
    | some _, none => s.haltRing r 5
    | some l, some b =>
      let b := sliceOf b 0 (runBytes l)
      if badRun l b then (s.putRun r 2 l).haltRing r 8
      else
        let s := ((s.touchCtx r).setRing r { x with fetched := x.fetched.drop l.length }).admitRun (b.take 32) (b.drop 32) (leAt (l.headD []) 12 4)
        let s := (s.bump (cntHif (ringFn r).num 4)).putRun r 0 l
        let s := s.setRing r { s.ring r with devIdx := (x.devIdx + l.length) % 2 ^ 32 }
        let s := s.writeBack r
        if l.getLast?.any (injectFlag 3) then s.ringIrq r else s

/-! Counter pairs (R525 to R528) -/

/-- The bytes of a pair (Table 18.2). -/
def PairVal.bytes16 (p : PairVal) : Bytes := leBytes 8 p.bytes ++ leBytes 8 (p.frames % 2 ^ 48 + boolBit p.invalid * 2 ^ 63)

/-- Updates that have waited 10 µs or more are in HBM (R527). -/
def State.flushOldPairs (s : State) : State :=
  runOver (s.pmc.waiting.keys.filter fun i => (s.pmc.waiting.get none i).any fun w => w.first + 10000 ≤ s.now)
    (fun i s => s.flushPair i) s

/-- CNT_READ: a range of counter pairs is written to the host; INVALID clears as it is reported (R378, R528). -/
def execCntRead (r : Ring) (written : Bool) (s : State) : Host.Outcome State Fault Refusal :=
  done <| s.command r 0x0090 fun d s =>
    if !written then s.complete r .dmaError
    else
      let first := leAt d 0x10 4
      let n := leAt d 0x14 2
      let s := s.flushOldPairs
      let s := runOver ((List.range n).map fun k => (first + k) / 4).eraseDups (fun u s => s.readPairs u) s
      let data := (List.range n).flatMap fun k => (s.pmc.pairs.get {} (first + k)).bytes16
      let s := { s with pmc := { s.pmc with pairs := s.pmc.pairs.mapCells {} fun i p =>
        if first ≤ i ∧ i < first + n then { p with invalid := false } else p } }
      (s.dmaWrite r (descAddr d) data).complete r .ok

/-- COUNTER_PAIR_FLUSH: a cache entry is written to HBM (R527). -/
def execCounterPairFlush (i : Nat) (s : State) : Host.Outcome State Fault Refusal := done (s.flushPair i)

end Sys2Proof.Machine
end

