-- ==== Sys2Proof/Machine/Modes.lean ====
section
/-! DEFINITION. The mode commands: FORWARD, DRAIN, STANDBY and the way out of SAFE (R379, R437, R476, R511 to R516). -/

namespace Sys2Proof.Machine

/-- FORWARD is refused while a slice that holds an enabled port has no valid parse program (R137). -/
def State.parseReady (s : State) : Bool :=
  (List.range 128).all fun p => !s.bit .prtCfg p 0 0 || s.bit .parProgCtrl (p / 8) 0 0

/-- A profile's slots fall due from the entry into FORWARD, and its standing pin is taken when it has none (R361, R513). -/
def State.resumeProfile (s : State) (c : Nat) : State :=
  match s.cps.get none c with
  | none => s
  | some p =>
    let s := if p.due < s.now then s.setCps c (some { p with due := s.now }) else s
    match s.cirAt c s.gen.current with
    | some v =>
      if p.pin.isSome || (s.cacheWait (v.port / 8)).contains (cpsWait + c) then s else s.prefetch (v.port / 8) (cpsWait + c)
    | none => s

/-- FORWARD (R513). -/
def execForward (r : Ring) (s : State) : Host.Outcome State Fault Refusal :=
  done <| s.command r 0x0080 fun _ s =>
    if s.mode ≠ .config then s.complete r .mode
    else if !s.parseReady then s.complete r .parseInvalid
    else (runOver s.cps.keys (fun c (s : State) => s.resumeProfile c) { s with mode := .forward }).complete r .ok

/-- DRAIN (R514). -/
def execDrain (r : Ring) (s : State) : Host.Outcome State Fault Refusal :=
  done <| s.command r 0x0081 fun _ s =>
    if s.mode ≠ .forward then s.complete r .mode else ({ s with mode := .drain }).complete r .ok

/-- DRAIN_DONE: every reference count is 0 (R514). -/
def execDrainDone (s : State) : Host.Outcome State Fault Refusal :=
  done <| if s.mode = .drain && s.gen.refs.cells.isEmpty then { s with mode := .config } else s

/-- Voltage monitors that are masked in STANDBY (R548). -/
def standbyMasked (m : Nat) : Bool := m ≤ 20 || (24 ≤ m && m ≤ 39)

/-- The datapath goes to rest: enabled ports are DISABLED, the transmit state arrays are saved, and the monitors of what
loses power are masked (R515, R548). -/
def State.rest (s : State) : State :=
  let s := runOver ((List.range 128).filter fun p => (s.port p).link ≠ .disabled) (fun p s => s.disablePort p) s
  { s with mode := .standby, rst := { s.rst with
      saved := true, standbyAt := s.now, unmasked := s.rst.unmasked.filter fun m => !standbyMasked m } }

/-- STANDBY (R515). -/
def execStandby (r : Ring) (s : State) : Host.Outcome State Fault Refusal :=
  done <| s.command r 0x0082 fun _ s =>
    if s.mode ≠ .config then s.complete r .mode else s.rest.complete r .ok

/-- Power and the transmit state return; lap timers go on from where they stopped, and enabled ports train (R515). -/
def State.wake (s : State) : State :=
  let d := s.now - s.rst.standbyAt
  let s := { s with
    mode := .config
    tabs := { s.tabs with ageStart := s.tabs.ageStart + d, proofStart := s.tabs.proofStart + d, scrubStart := runOver (List.range 4) (fun q (t : Tab Nat) => t.modify 0 q (· + d)) s.tabs.scrubStart }
    hbm := { s.hbm with trained := runOver (List.range 128) (fun pc (t : Tab Nat) => t.set 0 pc (s.lastTrained pc + d)) s.hbm.trained }
    rst := { s.rst with
      saved := false
      readyAt := runOver [6, 7, 8] (fun k (t : Tab Nat) => t.set 0 k s.now) s.rst.readyAt } }
  runOver ((List.range 128).filter fun p => s.bit .prtCfg p 0 0) (fun p s => s.setPort p { s.port p with link := .training }) s

/-- STANDBY_WAKE: a wake source stands (R460, R515). -/
def execStandbyWake (s : State) : Host.Outcome State Fault Refusal :=
  done <|
    if s.mode = .standby && s.wakeSource then (runOver s.wokenCores (fun c s => s.emit (.coreWake c)) s).wake else s

/-! The way out of SAFE -/

/-- SAFE_EXIT stages a half that lapses 10 s after its completion (R379). -/
def execSafeExit (r : Ring) (s : State) : Host.Outcome State Fault Refusal :=
  done <| s.command r 0x0083 fun _ s =>
    if s.mode ≠ .safe then s.complete r .mode
    else
      let s := s.complete r .ok
      { s with rst := { s.rst with safeStaged := s.now + 10000 * msNs } }

/-- SAFE_EXIT_LAPSE (R379). -/
def execSafeExitLapse (s : State) : Host.Outcome State Fault Refusal :=
  done <|
    if s.rst.safeStaged = 0 then s
    else
      let s := s.advanceTo s.rst.safeStaged
      { s with rst := { s.rst with safeStaged := 0 } }

/-- The first time the device is in CONFIG or FACTORY_TEST, a trial boot is confirmed (R476). -/
def State.confirmTrial (s : State) : State :=
  let b := s.boot
  if b.trial then s.setBoot { b with try_ := false, tried := false, trial := false, gen := b.gen + 1 } else s

/-- The device leaves SAFE, in the order of R437: the cause clears, the mode changes, the squelch and FAULT_N are
released and the SAFE_LEFT record is written, with the source of the cause that is cleared. -/
def State.leaveSafe (s : State) : State :=
  let n := s.flt.critSource
  let s := { s with
    mode := .config
    rst := { s.rst with safeStaged := 0 }
    flt := { s.flt with critV := false, critSource := 0, critCount := 0, squelch := false, faultN := false } }
  let s := s.faultRecord { source := n, reason := .safeLeft, time := s.now }
  s.kilnLog 0x0005 3 (leBytes 2 n ++ [2])

/-- SAFE_EXIT_CONFIRM: `measured` lists the measured sources that are still out of range. A line that is still asserted
sends the device straight back to SAFE (R437, R516). -/
def execSafeExitConfirm (r : Ring) (measured : List Nat) (s : State) : Host.Outcome State Fault Refusal :=
  done <| s.command r 0x0066 fun _ s =>
    if s.mode ≠ .safe then s.complete r .mode
    else if s.rst.safeStaged = 0 || s.rst.safeStaged ≤ s.now then s.complete r .notStaged
    else
      let still := ((List.range 0x500).filter fun n => sourceKind n = .critical &&
        (if measuredLine n then measured.contains n else s.flt.lines.contains n))
      let s := s.leaveSafe
      let s := { s with flt := { s.flt with lines := [] } }
      let s := if still.isEmpty then s.confirmTrial else s
      (s.complete r .ok).critical still

end Sys2Proof.Machine
end

