-- ==== Sys2Proof/Machine/Pmc.lean ====
section
/-! DEFINITION. General counters, snapshots, bandwidth windows and sampling: their registers (R520 to R524, R529,
R533). -/

namespace Sys2Proof.Machine

/-- Whether UNIT, INST and EVENT name a row and column of Table 18.1; UNIT 0 counts nothing. -/
def pmcEventOk (unit inst event : Nat) : Bool :=
  match unit with
  | 0 => true
  | 1 => inst < 128 && event < 4
  | 2 | 3 => inst < 16 && event < 4
  | 4 => inst < 4 && event < 4
  | 5 => inst < 16 && event < 3
  | 6 => inst < 4 && event < 4
  | 7 => inst = 0 && event < 4
  | 8 => inst < 45 && event = 0
  | _ => false

/-- PMC_SNAP is written with GO (R523). -/
def State.snapWrite (s : State) (f : Fn) : State := s.rowWrite f .pmcSnap 0 0 fun s => s.latchShadows

/-- PMC_SNAPSHOT (R523). -/
def execPmcSnapshot (f : Fn) (s : State) : Host.Outcome State Fault Refusal := done (s.snapWrite f)

/-- A write to a general counter: 8 bytes replace it, 4 bytes are refused (R522, R537). -/
def State.pmcCntWrite (s : State) (f : Fn) (n off size v : Nat) : State :=
  s.rowWrite f .pmcCnt 0 n fun s =>
    if size = 8 ∧ off = 0 then { s with cnts := s.cnts.set 0 (cntPmc n) (v % 2 ^ 48) }
    else s.configError f (RegName.addr .pmcCnt 0 n + off)

/-- PMC_COUNTER_WRITE (R522). -/
def execPmcCounterWrite (f : Fn) (n : Fin 4096) (size : Nat) (v : BitVec 64) (s : State) :
    Host.Outcome State Fault Refusal :=
  done (s.pmcCntWrite f n 0 size v.toNat)

/-! Bandwidth windows (R524) -/

/-- A bandwidth register of a port: k = 0 RX_LAST, 1 RX_PEAK, 2 TX_LAST, 3 TX_PEAK. -/
def State.bwReg (s : State) (p k : Nat) : Nat := s.reg .pmcBw p k

/-- CLR_PEAK is written 1: it stays 1 until the next window boundary. -/
def State.askClearPeak (s : State) : State := s.setReg .pmcBwCtrl 0 0 (withBits 31 31 (s.reg .pmcBwCtrl 0 0) 1)

/-- BW_CLR_PEAK (R524). -/
def execBwClrPeak (f : Fn) (s : State) : Host.Outcome State Fault Refusal :=
  done (s.rowWrite f .pmcBwCtrl 0 0 fun s => s.askClearPeak)

/-- LAST takes the count of the window that ends, and PEAK the greater of itself and LAST, or 0 when CLR_PEAK waits. -/
def State.closeWindow (s : State) (clear : Bool) (p : Nat) : State :=
  runOver [0, 1] (fun t s =>
    let n := s.pmc.bw.get 0 (s.pmc.bwWin * 256 + 2 * p + t)
    let s := s.setReg .pmcBw p (2 * t) n
    s.setReg .pmcBw p (2 * t + 1) (if clear then 0 else max (s.bwReg p (2 * t + 1)) n)) s

/-- BW_WINDOW_END: every port closes its window and the next one counts (R524). -/
def execBwWindowEnd (s : State) : Host.Outcome State Fault Refusal :=
  done <|
    let s := s.advanceTo ((s.pmc.bwWin + 1) * s.bwWindow)
    let clear := s.bit .pmcBwCtrl 0 0 31
    let s := runOver (List.range 128) (fun p s => s.closeWindow clear p) s
    let s := s.setReg .pmcBwCtrl 0 0 (withBits 31 31 (s.reg .pmcBwCtrl 0 0) 0)
    let w := s.pmc.bwWin + 1
    { s with pmc := { s.pmc with bwWin := w, bw := s.pmc.bw.keep fun k => w ≤ k / 256 } }

/-- WINDOW_US has a new value: LAST reads 0, and counting starts at the next boundary of the new length. -/
def State.restartWindows (s : State) : State :=
  let s := runOver (List.range 128) (fun p s => (s.setReg .pmcBw p 0 0).setReg .pmcBw p 2 0) s
  { s with pmc := { s.pmc with bw := .empty, bwWin := ceilDiv s.now s.bwWindow } }

/-! Sampling (R529, R533) -/

/-- Whether a ring may take SAMPLE records: an event ring of PF0 or PF2. -/
def State.sampleRing (s : State) (r : Nat) : Bool := s.ringIs r 5 .pf0 || s.ringIs r 5 .pf2

/-- EN is written 1: slice i's LFSR takes SEED XOR i. -/
def State.loadLfsrs (s : State) : State :=
  let seed := s.fld .pmcSampCtrl 0 0 63 32
  { s with sampLfsr := (List.range 16).foldl (fun t i => t.set 0 i (seed ^^^ i)) s.sampLfsr }

/-- A write of PMC_SAMP_CTRL: a RING that is no event ring of PF0 or PF2 keeps its value (R6, R533). -/
def State.sampWrite (s : State) (f : Fn) (m : RegAt) (size v : Nat) : State :=
  let bad := s.configError f (m.name.addr 0 0 + m.off)
  match s.judgeWrite f m size v with
  | .ignored => s
  | .refused => bad
  | .stored x logged =>
    let old := s.reg .pmcSampCtrl 0 0
    let keep := bitsOf 27 16 x ≠ bitsOf 27 16 old && !s.sampleRing (bitsOf 27 16 x)
    let s := if logged || keep then bad else s
    let s := s.setReg .pmcSampCtrl 0 0 (if keep then withBits 27 16 x (bitsOf 27 16 old) else x)
    if m.off = 0 ∧ bitOf 28 v then s.loadLfsrs else s

/-- SAMPLING_ENABLE: a write of all of PMC_SAMP_CTRL with EN = 1 (R529). -/
def execSamplingEnable (f : Fn) (v : BitVec 64) (s : State) : Host.Outcome State Fault Refusal :=
  done (if bitOf 28 v.toNat then s.sampWrite f ⟨.pmcSampCtrl, 0, 0, 0⟩ 8 v.toNat else s)

end Sys2Proof.Machine
end

