-- ==== Sys2Proof/Machine/Police.lean ====
section
/-! DEFINITION. The policer commands (R48, R54, R355, Table 11.4). -/

namespace Sys2Proof.Machine

/-- The version of a policer record. -/
def State.polOf (s : State) (b : Bytes) : PolVer :=
  { tag := s.bornTag, alg := byteAt b 2, flags := byteAt b 3, rate1 := leAt b 4 4, rate2 := leAt b 8 4
    burst1 := leAt b 12 4, burst2 := leAt b 16 4, pair := leAt b 20 4 }

/-- A record with a reserved or out-of-range value, ALG 1 with RATE2, or ALG 2 with PIR below CIR (R355, Table 11.4). -/
def badPolicer (b : Bytes) : Bool :=
  16384 ≤ leAt b 0 2 || !(1 ≤ byteAt b 2 && byteAt b 2 ≤ 3) || 16 ≤ byteAt b 3 || 400000000 < leAt b 4 4 ||
  (byteAt b 2 = 1 && leAt b 8 4 ≠ 0) || (byteAt b 2 = 2 && leAt b 8 4 < leAt b 4 4) ||
  2 ^ 24 ≤ leAt b 12 4 || 2 ^ 24 ≤ leAt b 16 4 || 1048573 < leAt b 20 4 || !zeroAt b 24 8

/-- The record of a version. -/
def PolVer.bytes (v : PolVer) (n : Nat) : Bytes :=
  leBytes 2 n ++ leBytes 1 v.alg ++ leBytes 1 v.flags ++ leBytes 4 v.rate1 ++ leBytes 4 v.rate2 ++ leBytes 4 v.burst1
    ++ leBytes 4 v.burst2 ++ leBytes 4 v.pair ++ zeros 8

/-- The versions of a policer. -/
def State.polVers (s : State) (n : Nat) : List PolVer := s.pol.vers.get [] n

/-- Replace them. -/
def State.setPolVers (s : State) (n : Nat) (l : List PolVer) : State :=
  { s with pol := { s.pol with vers := s.pol.vers.set [] n l } }

/-- The buckets of a version just written are full in every quad (R48, R352). -/
def State.fillPolicer (s : State) (n : Nat) (born : Gen) : State :=
  runOver (List.range 4) (fun q s => { s with pol := { s.pol with bkts := s.pol.bkts.set none (polKey q n born) none } }) s

/-- POL_WRITE: a policer is inserted in STAGING, or changed there by a new version (R48, R54, R355). -/
def execPolWrite (r : Ring) (rec : Dma) (s : State) : Host.Outcome State Fault Refusal :=
  done <| s.recCommand r 0x0078 true rec fun _ b s =>
    let n := leAt b 0 2
    let v := s.polOf b
    let l := s.polVers n
    let mine := fun (x : PolVer) => s.madeInStaging x.tag
    if badPolicer b then s.complete r .polBadRecord
    else if !s.logRoom 1 then s.complete r .genLogFull
    else
      let l := if l.any mine then l.map fun x => if mine x then v else x
        else (l.map fun x => if x.tag.visible s.staging then { x with tag := s.diedTag x.tag } else x) ++ [v]
      (((s.setPolVers n l).fillPolicer n s.staging).logChange 1).complete r .ok

/-- POL_DELETE (R54, R355). -/
def execPolDelete (r : Ring) (s : State) : Host.Outcome State Fault Refusal :=
  done <| s.seqCommand r 0x0079 true fun d s =>
    let n := leAt d 0x10 2
    match s.polAt n s.staging with
    | none => s.complete r .polNotFound
    | some v =>
      if !s.logRoom 1 then s.complete r .genLogFull
      else
        let l := if s.madeInStaging v.tag then (s.polVers n).filter (· ≠ v)
          else (s.polVers n).map fun x => if x = v then { x with tag := s.diedTag x.tag } else x
        ((s.setPolVers n l).logChange 1).complete r .ok

/-- The levels of the three buckets, in the order tc, te, tp: 0 for one that the algorithm does not use (R378). -/
def PolVer.levels (v : PolVer) (k : PolBucket) : Bytes :=
  leBytes 8 (codeOf 64 k.tc) ++ leBytes 8 (if v.alg = 2 then 0 else codeOf 64 k.t2)
    ++ leBytes 8 (if v.alg = 2 then codeOf 64 k.t2 else 0)

/-- POL_READ: the record visible in a live generation and one quad's bucket levels for it (R355, R378). -/
def execPolRead (r : Ring) (written : Bool) (s : State) : Host.Outcome State Fault Refusal :=
  done <| s.resultCommand r 0x007A written fun d s =>
    let n := leAt d 0x10 2
    let g := BitVec.ofNat 16 (leAt d 0x12 2)
    if !s.live g then s.complete r .genBadState else
    match s.polAt n g with
    | none => s.complete r .polNotFound
    | some v =>
      let k := (s.pol.bkts.get none (polKey (byteAt d 0x14) n v.tag.born)).getD (v.full 0)
      (s.dmaWrite r (descAddr d) (v.bytes n ++ v.levels k)).complete r .ok

end Sys2Proof.Machine
end

