-- ==== Sys2Proof/Machine/Receive.lean ====
section
/-! DEFINITION. The receive path of Glaze: SA resolution, decryption, the replay unit and the preparation of a decrypted
frame (chapter 07, R283). -/

namespace Sys2Proof.Machine

/-! SA resolution (R236, R237) -/

/-- SCI of a SecTAG at `off`, or the source address and port identifier 0x0001 (R236). -/
def sciOf (bs : Bytes) (off : Nat) : Bytes :=
  if bitOf 5 (byteAt bs (off + 2)) then sliceOf bs (off + 8) 8 else sliceOf bs 6 6 ++ [0x00, 0x01]

/-- Receive key of a security header: SCI or SPI as Table 07.3 stores it, and AN (R210). -/
def SecPart.key (p : SecPart) (bs : Bytes) : Bytes × Nat :=
  if p.kind = 1 then (sciOf bs p.off, byteAt bs (p.off + 2) % 4) else (sliceOf bs p.off 4 ++ zeros 4, 0)

/-- The SA that holds a receive key, in any state (R210). -/
def State.holder (s : State) (port kind : Nat) (key : Bytes × Nat) : Option (Nat × Sa) :=
  s.glz.sa.cells.findSome? fun c =>
    c.2.bind fun a =>
      if !a.tx && a.rxPort = port && suiteMacsec a.suite = (kind = 1) && a.sciSpi = key.1 && (kind ≠ 1 || a.an = key.2)
      then some (c.1, a) else none

/-- Whether the receive index can name the holder of a key. -/
def State.indexed (s : State) (port kind : Nat) (key : Bytes × Nat) : Bool :=
  !s.glz.rxPoison.contains (rxBucket key port kind)

/-- Full number of a frame (R238). -/
def Sa.infer (a : Sa) (lo : Nat) : Nat :=
  if !a.wide then lo else
  let w := max 1 a.window
  let th := a.rxTop / 2 ^ 32
  let tl := a.rxTop % 2 ^ 32
  let b := (tl + 2 ^ 32 + 1 - w) % 2 ^ 32
  let th := if w - 1 ≤ tl then (if b ≤ lo then th else th + 1) else (if b ≤ lo then th + 2 ^ 32 - 1 else th)
  th % 2 ^ 32 * 2 ^ 32 + lo

/-- The 32 bits of the number on the wire. -/
def SecPart.wireNumber (p : SecPart) (bs : Bytes) : Nat := beAt bs (p.off + 4) 4

/-- Frames of slice i that are being decrypted, in arrival order. -/
def State.decrypting (s : State) (i : Nat) : List Nat :=
  s.framesWhere fun x => x.slice = i && x.ing = .landing && x.sec.any fun p => p.sa.isSome && p.plain.isNone

/-- The active decrypt lanes of slice i, in order of the logical positions they serve, fenced ones left out (R224). -/
def State.activeLanes (s : State) (i : Nat) : List Nat :=
  ((s.decMap i).pos.filterMap id).filter fun u => !((s.decMap i).fenced.contains u)

/-- The lanes of slice i that hold a frame. -/
def State.busyLanes (s : State) (i : Nat) : List Nat :=
  (s.decrypting i).filterMap fun f => (s.frame f).sec.bind fun p => p.lane

/-- Put a frame on a lane. -/
def State.setLane (s : State) (f : Nat) (l : Option Nat) : State :=
  s.modFrame f fun x => { x with sec := x.sec.map fun p => { p with lane := l } }

/-- Frames that wait take free active lanes, in arrival order, each the lowest-numbered (R239). -/
def State.assignLanes (s : State) (i : Nat) : State :=
  runOver (s.decrypting i) (fun f s =>
    if (s.frame f).sec.any fun p => p.lane.isNone then
      match (s.activeLanes i).find? fun u => !(s.busyLanes i).contains u with
      | some u => s.setLane f (some u)
      | none => s
    else s) s

/-- The receive cache of a slice takes an SA, the least recently used entry leaving for it (R237). -/
def State.touchRx (s : State) (i sa : Nat) : State :=
  { s with glz := { s.glz with rxCache := s.glz.rxCache.modify [] i fun l => (sa :: l.filter (· ≠ sa)).take 2048 } }

/-- No SA resolves: the walk ends in acceptance with DEC = 0, and frames of a circuit that is suspended or disabled are
discarded (R128, R236). -/
def State.noSa (s : State) (f : Nat) (held : Option Nat) : State :=
  let x := s.frame f
  let s := s.bump (cntGlz x.slice 6)
  let off := held.bind fun i =>
    let c := s.cirState (i / 4)
    if c.suspended then some 13 else if c.disabled then some 12 else none
  match off with
  | some k => (s.bump (cntGlz x.slice k)).discard f
  | none =>
    let y : Frame := { x with sec := x.sec.map fun p => { p with asked := true } }
    (s.setFrame f y.acceptWalk).walkDone f

/-- An SA resolves: RX_CIRCUIT, RX_AN and DEC are written, and the walk waits or goes on (R128, R236, R238). -/
def State.saFound (s : State) (f : Nat) (p : SecPart) (i : Nat) (a : Sa) (mode : Nat) : State :=
  let x := s.frame f
  let y := ((x.putHv 12 (beBytes 2 (i / 4))).putHv 14 [BitVec.ofNat 8 (a.an * 64)]).flagHv 5
  let y := { y with sec := some { p with asked := true, sa := some i, number := a.infer (p.wireNumber x.body) } }
  let wait := if p.kind = 1 then bitOf 3 (byteAt x.body (p.off + 2)) else mode = 2
  let y := if wait then { y with walk := { y.walk with st := .waitPlain } }
    else if p.kind = 1 then y.enter y.walk.next y.walk.rsn
    else y.acceptWalk
  let s := ((s.setFrame f y).touchRx x.slice i).assignLanes x.slice
  -- lookups of a transport-mode frame wait for ESP_NH (R129)
  if p.kind = 2 then s else s.walkDone f

/-- A second security header inside a frame that has its SA resolves none: the walk ends in acceptance, and the header vector
shows DEC = 0 (R128). The checks and the preparation of the outer header stand. Log entry 104. -/
def State.noSecondSa (s : State) (f : Nat) : State :=
  let x := s.frame f
  let y := ((x.putHv 12 [0, 0]).putHv 14 [0]).putHv 1 [BitVec.ofNat 8 (byteAt x.hv 1 &&& 0xDF)]
  ((s.bump (cntGlz x.slice 6)).setFrame f y.acceptWalk).walkDone f

/-- The decrypt path resolves a receive SA (R128, R210, R236 to R238). -/
def execRxSaResolve (f : Nat) (s : State) : Host.Outcome State Fault Refusal :=
  done <|
    let x := s.frame f
    match x.sec with
    | some p =>
      if x.walk.st ≠ .waitSa || x.ing ≠ .landing then s
      else if p.asked then (if p.sa.isSome then s.noSecondSa f else s) else
      let key := p.key x.body
      match s.holder x.port p.kind key with
      | none => s.noSa f none
      | some (i, a) =>
        let c := s.cirState (i / 4)
        match s.cirAt (i / 4) x.gen with
        | some v =>
          if s.indexed x.port p.kind key && a.tag.visible x.gen && !c.disabled && !c.suspended then s.saFound f p i a v.mode
          else s.noSa f (some i)
        | none => s.noSa f (some i)
    | none => s

/-! Decryption (R225 to R227, R239, R242) -/

/-- IV, AAD and ciphertext of a frame under an SA, with the bytes that are not encrypted left in the AAD. -/
def Frame.gcmInput (x : Frame) (p : SecPart) (a : Sa) : Bytes × Bytes × Bytes :=
  let bs := x.body
  let data := sliceOf bs (x.dataOff p) (x.dataLen p)
  if p.kind = 1 then
    let iv := if suiteXpn a.suite then xorBytes (beBytes 4 a.ssci ++ beBytes 8 p.number) a.salt else a.sciSpi ++ beBytes 4 p.number
    let aad := sliceOf bs 0 12 ++ sliceOf bs p.off (headerLen 1 bs p.off)
    if bitOf 3 (byteAt bs (p.off + 2)) then (iv, aad, data) else (iv, aad ++ data, [])
  else
    let spi := sliceOf bs p.off 4
    let aad := if a.esn then spi ++ beBytes 8 p.number else spi ++ sliceOf bs (p.off + 4) 4
    (sliceOf a.salt 0 4 ++ sliceOf bs (p.off + 8) 8, aad, data)

/-- Plaintext of a frame, and whether its ICV is equal. -/
def Frame.decrypted (x : Frame) (p : SecPart) (a : Sa) (key : Bytes) : Bytes × Bool :=
  let (iv, aad, ct) := x.gcmInput p a
  let icv := sliceOf x.body (x.dataOff p + x.dataLen p) 16
  (if ct.isEmpty then sliceOf x.body (x.dataOff p) (x.dataLen p) else gcmStream key iv ct, gcmTag key iv aad ct = icv)

/-- Next header of decrypted ESP data: its last byte. -/
def espNext (d : Bytes) : Nat := byteAt d (d.length - 1)

/-- Bytes of decrypted ESP data before the trailer: padding, pad length and next header. -/
def espBody (d : Bytes) : Bytes := d.take (d.length - 2 - byteAt d (d.length - 2))

/-- How a tunnel frame's inner packet is found (R241). -/
inductive Inner where
  | dummy | bad | good (packet : Bytes)
  deriving DecidableEq, Repr

/-- Judge the inner packet of a tunnel frame (R241). -/
def innerOf (d : Bytes) : Inner :=
  let nh := espNext d
  let b := espBody d
  let n := ipLength b
  if nh = 59 then .dummy
  else if (nh = 4 && ipVersion b = 4) then
    if ihlBytes b < 20 || n < ihlBytes b || b.length < n then .bad else .good (b.take n)
  else if (nh = 41 && ipVersion b = 6) then (if b.length < n then .bad else .good (b.take n))
  else .bad

/-- Circuit mode under which a frame is decrypted. -/
def State.rxMode (s : State) (x : Frame) : Nat :=
  ((x.sec.bind fun p => p.sa).bind fun i => (s.cirAt (i / 4) x.gen).map fun v => v.mode).getD 0

/-- Counter pair k of a circuit (R255), with the bytes of the protected frame. -/
def State.circuitPair (s : State) (c k len : Nat) : State :=
  let v := s.reg .cirCntCtrl 0 0
  if bitOf 31 v then s.countPair (bitsOf 19 0 v + 4 * c + k) len else s

/-- Plaintext has been produced: the walk goes on, or the lookups of a transport-mode frame are issued (R128, R129). A
frame that will be removed takes no lookup. -/
def State.plainDone (s : State) (f : Nat) (kind : Nat) (d : Bytes) : State :=
  let x := s.frame f
  let x := if kind = 2 then x.putHv 15 [BitVec.ofNat 8 (espNext d)] else x
  let s := s.setFrame f x
  if x.due then s
  else if x.walk.st = .waitPlain then
    let removed := if kind = 2 then innerOf d = .dummy || innerOf d = .bad else s.isFiller x
    if removed then s.barLookups f else (s.setFrame f (x.enter x.walk.next x.walk.rsn)).walkDone f
  else if kind = 2 then (if espNext d ≠ 59 then s.issueLookups f else s.barLookups f)
  else s

/-- A lane finishes a frame: plaintext and ICV, or a failed check of the lane and another attempt (R239, R242, R243). -/
def execDecryptComplete (f : Nat) (laneFail : Bool) (s : State) : Host.Outcome State Fault Refusal :=
  done <|
    let x := s.frame f
    let i := x.slice
    let s := s.assignLanes i
    match x.sec.bind fun p => p.sa.bind fun k => (s.saOf k).map fun a => (k, a), (s.frame f).sec with
    | some (k, a), some p =>
      if !x.ended || p.plain.isSome || x.ing ≠ .landing then s else
      match p.lane with
      | none => s
      | some l =>
        let src := 0x100 + 12 * i + l
        let (hurt, s) := s.takeCorrupt src
        if laneFail || hurt then
          let s := s.fault src 0 0
          match (s.activeLanes i).find? (· ≠ l) with
          | some l' =>
            if 2 ≤ p.attempts then ((s.bump (cntGlz i 1)).discard f).assignLanes i
            else (s.bump (cntGlz i 2)).setFrame f { x with sec := some { p with attempts := p.attempts + 1, lane := some l' } }
          | none => ((s.bump (cntGlz i 1)).discard f).assignLanes i
        else
          let (d, ok) := x.decrypted p a (a.openKey s.storageKey)
          if !ok then
            let s := (s.bump (cntGlz i 7)).circuitPair (k / 4) 2 (x.bytes.length + 4)
            ((s.icvFailed k).discard f).assignLanes i
          else
            let s := (s.setFrame f { x with sec := some { p with plain := some d, icvOk := true, lane := none } }).takeArea x.port f d.length
            (s.plainDone f p.kind d).assignLanes i
    | _, _ => s

/-! The replay unit (R240) -/

/-- replay_accept of R240. -/
def Sa.accepts (a : Sa) (n : Nat) : Bool :=
  if !a.replayEn || a.rxTop < n then true
  else if a.window ≤ a.rxTop - n then false
  else !a.bitmap.testBit (n % 1024)

/-- Clear a bit of a number. -/
def clearBit (v i : Nat) : Nat := if v.testBit i then v - 2 ^ i else v

/-- Set a bit of a number. -/
def setBit (v i : Nat) : Nat := if v.testBit i then v else v + 2 ^ i

/-- replay_update of R240. -/
def Sa.accepted (a : Sa) (n : Nat) : Sa :=
  let passed := (List.range (min (n - a.rxTop - 1) 1024)).map fun k => (a.rxTop + 1 + k) % 1024
  { a with bitmap := setBit (passed.foldl clearBit a.bitmap) (n % 1024), rxTop := max a.rxTop n }

/-! The prepared frame (R241, R283) -/

/-- What preparation comes to: a counter of the slice with the frame removed, or the new bytes. -/
inductive Prepared where
  | glzDiscard (k : Nat)
  | ecnDrop
  | frame (bytes : Bytes)
  deriving DecidableEq, Repr

/-- A tunnel frame's prepared bytes (R241, R283). -/
def tunnelOut (bs d : Bytes) : Prepared :=
  match innerOf d with
  | .dummy => .glzDiscard 10
  | .bad => .glzDiscard 9
  | .good p =>
    let t := typeOff bs
    match decapEcn (ecnOf p) (ecnOf (bs.drop (t + 2))) with
    | none => .ecnDrop
    | some e => .frame (bs.take t ++ (if ipVersion p = 4 then [0x08, 0x00] else [0x86, 0xDD]) ++ setEcn p e)

/-- A transport frame's prepared bytes (R241). -/
def transportOut (bs : Bytes) (off : Nat) (d : Bytes) : Prepared :=
  if espNext d = 59 then .glzDiscard 10 else
  let t := typeOff bs + 2
  let payload := espBody d
  let head := (bs.take off).drop t
  let pkt := head ++ payload
  let nh := [BitVec.ofNat 8 (espNext d)]
  let pkt := if ipVersion pkt = 4 then fixIpv4 (putAt (putAt pkt 9 nh) 2 (beBytes 2 pkt.length))
    else putAt (putAt pkt 6 nh) 4 (beBytes 2 (pkt.length - 40))
  .frame (bs.take t ++ pkt)

/-- The prepared frame (R241). -/
def State.prepare (s : State) (x : Frame) (p : SecPart) (d : Bytes) : Prepared :=
  if p.kind = 1 then (if s.isFiller x then .glzDiscard 10 else .frame (x.body.take p.off ++ d))
  else if s.rxMode x = 2 then tunnelOut x.body d
  else transportOut x.body p.off d

/-- Frames of the same port that arrived before f and have not passed the replay unit (R240). -/
def State.replayBefore (s : State) (f : Nat) : Bool :=
  let x := s.frame f
  (s.framesWhere fun y => y.port = x.port && y.ing = .landing &&
    (y.walk.st = .waitSa || y.walk.st = .running || y.sec.any fun p => p.sa.isSome && !p.checked)).any (· < f)

/-- The replay unit passes a frame in port order: the replay check, the window, and the preparation (R238, R240, R241,
R255). -/
def execReplayCheck (f : Nat) (s : State) : Host.Outcome State Fault Refusal :=
  done <|
    let x := s.frame f
    match x.sec.bind fun p => p.sa.bind fun k => (s.saOf k).map fun a => (p, k, a) with
    | some (p, k, a) =>
      match p.plain with
      | none => s
      | some d =>
        if p.checked || x.ing ≠ .landing || x.walk.st = .running || s.replayBefore f then s else
        let n := a.infer (p.wireNumber x.body)
        let i := x.slice
        let c := k / 4
        let len := x.bytes.length + 4
        if n ≠ p.number then
          (s.setFrame f { x with sec := some { p with number := n, plain := none, icvOk := false } }).assignLanes i
        else if !a.accepts n then ((s.bump (cntGlz i 8)).circuitPair c 3 len).discard f
        else
          let s := (s.setSa k (some (a.accepted n))).circuitPair c 1 len
          match s.prepare x p d with
          | .glzDiscard j => (s.bump (cntGlz i j)).discard f
          | .ecnDrop => (s.bump (cntBur i 7)).discard f
          | .frame bs =>
            if 10240 < bs.length + 4 then (s.bump (cntGlz i 11)).discard f
            else (s.setFrame f { x with bytes := bs, sec := some { p with checked := true } }).ingressSettle f
    | none => s

end Sys2Proof.Machine
end

