-- ==== Sys2Proof/Machine/Reset.lean ====
section
/-! DEFINITION. Function Level Reset, the reset sources and domains, option loading, boot, bring-up and per-block resets
(chapter 17, R366, R459, R466, R475, R476, R548). -/

namespace Sys2Proof.Machine

/-! Function Level Reset (R366, R459, R466) -/

/-- The active rings of a function, or of a VF. A reset of PF0 takes the rings of every VF too. -/
def State.ringsOf (s : State) (t : Requester) : List Nat :=
  s.hif.rings.keys.filter fun r =>
    match t with
    | .pf f => ringFn r = f
    | .vf _ => s.ringReq r = t

/-- MSI-X tables return to their PCI Express reset state. -/
def State.msixFlr (s : State) (t : Requester) : State :=
  let gone := fun (k : Nat) => (msixBase t ≤ k && k < msixBase t + 32) || (t = .pf .pf0 && 96 ≤ k)
  { s with hif := { s.hif with msix := s.hif.msix.keep fun k => !gone k } }

/-- A PF's mailbox request ends: a staging is abandoned and its slot is EMPTY, an operation that has not begun is dropped,
and BUSY and DONE return to 0 (R466). -/
def State.mailFlr (s : State) (f : Fn) : State :=
  let staging : Bool := match s.mailRuns f 0x0010 with
    | some q => f = .pf0 && ((mailClean q [] && s.mailMode 0x0010 upOrStandby) || s.mgt.staged.isSome)
    | none => false
  let b := s.boot
  let s := if staging then (s.setBoot { (b.setSlot b.target {}) with gen := b.gen + 1 }).dropStaged else s
  let s := { s with fuses := { s.fuses with ops := s.fuses.ops.filter fun o => o.mailbox ≠ some f } }
  (s.setMailbox f {}).mailStatus f 1 0 0

/-- A Function Level Reset of one function. -/
def State.flr (s : State) (t : Requester) : State :=
  let s := runOver (s.ringsOf t) (fun r s => (s.setRing r { s.ring r with deferred := none }).stopRing r) s
  let s := s.msixFlr t
  match t with
  | .pf f =>
    let s := (s.setRegOf .hifRctBase f.num 0 0 0).setRegOf .hifEvtRoute f.num 0 0 0
    (s.eicFlr f).mailFlr f
  | .vf _ => s

/-- FUNCTION_LEVEL_RESET (R366). -/
def execFunctionLevelReset (t : Requester) (s : State) : Host.Outcome State Fault Refusal :=
  done (if s.domain 4 = .ready then s.flr t else s)

/-! Reset sources (R495 to R498) -/

/-- The domain that holds a stored register: the MGT block's contents belong to domain 3, whose access needs domain 4. -/
def contentDomain (key : Nat) : Nat :=
  let a := key % 2 ^ 26
  if 0x3E00000 ≤ a then 3
  else match findReg a with
    | some m => m.name.info.domain
    | none => 8

/-- The domain of a counter; those of memory instances and of ports are of the datapath. -/
def counterDomain (key : Nat) : Nat :=
  if 2 ^ 30 ≤ key then 8
  else match findCnt (key % 2 ^ 26) with
    | some g => g.domain
    | none => 8

/-- Registers and counters of these domains return to their reset values. -/
def State.clearRegs (s : State) (ds : List Nat) : State :=
  { s with
    regs := s.regs.keep fun k => !ds.contains (contentDomain k)
    cnts := s.cnts.keep fun k => !ds.contains (counterDomain k)
    latches := s.latches.keep fun k => !ds.contains (counterDomain k) }

/-- The other state of domains 4 to 8 (R50, R248, R402, R497): what is in flight is lost without being counted. The pins
and the reference clocks stay as they are. -/
def State.clearDatapath (s : State) : State :=
  { s with
    gen := {}, hif := {}, tabs := {}, frames := .empty, bpm := {}, fab := {}, sched := {}, pol := {}, cps := .empty,
    glz := {}, bur := {}, sampBkt := .empty, sampLfsr := .empty, sampSeq := .empty, hbm := {}
    pmc := { s.pmc with pairs := .empty, waiting := .empty }
    prt := s.prt.mapCells {} fun _ x => { present := x.present } }

/-- Whether a critical line falls with a reset of domains 4 to 8: those that are no measurement, but for the comparison of
Saggar's own copies (R431). -/
def datapathLine (n : Nat) : Bool := !measuredLine n && n ≠ 0x4F4

/-- The reset takes the device out of SAFE (R497) and out of FACTORY_TEST, whose retirements end with it (R441). A
retirement whose work was lost starts again in its turn. -/
def State.resetFaults (s : State) : State :=
  let x := s.flt
  let again := x.running.filter fun n => sourceCat n = 0 || sourceCat n = 5
  let x := { x with
    queue := again ++ x.queue, running := x.running.filter fun n => !again.contains n
    lines := x.lines.filter fun n => !datapathLine n
    critV := false, critSource := 0, critCount := 0, critInBringup := [], squelch := true, faultN := false, corrupt := .empty }
  match x.before with
  | none => { s with flt := x }
  | some b =>
    { s with
      units := b.units
      flt := { x with
        before := none, degraded := b.degraded, queue := b.queue, running := []
        src := x.src.mapCells {} fun n v => { v with perm := b.perm.contains n, retired := b.retired.contains n } } }

/-- Every fence is lifted, and no member is offline: FENCED of the maps, OFFLINE and PROGRESS reset to 0 (Tables 07.16, 08.17
and 13.12). -/
def Units.unfenced (u : Units) : Units :=
  let lift := fun (_ : Nat) (m : UnitMap) => { m with fenced := [] }
  let u := { u with groups := u.groups.mapCells {} fun _ x =>
    { x with offline := none, repair := false, tries := 0, stale := [], progress := 0 } }
  { u with enc := u.enc.mapCells (.straight 10) lift, dec := u.dec.mapCells (.straight 10) lift, eng := u.eng.mapCells (.straight 4) lift }

/-- A source that covers domains 4 to 8 asserts (R498). -/
def State.resetDatapath (s : State) (cause : Nat) : State :=
  let before := s.mode.code
  let s := (s.clearRegs [4, 5, 6, 7, 8]).clearDatapath.resetFaults
  let s := { s with
    mode := .reset
    units := s.units.unfenced
    rst := { s.rst with
      dom := s.rst.dom.keep fun d => d < 4, readyAt := s.rst.readyAt.keep fun d => d < 4
      asked := [], blocks := [], saved := false, standbyAt := 0, safeStaged := 0, begun := false
      unmasked := s.rst.unmasked.filter fun m => m = 21 || m = 22
      cause := cause, modeBefore := before } }
  s.setReg .rstCause 0 0 (cause + boolBit (cause = 0) * 16 + s.rst.loadRestarts % 256 * 65536)

/-- What the Kiln Record's SRAM holds after a reset of the management domain: the last checkpoint, with the resets that
log entries written since then name (R489, R490). -/
def Kiln.adopt (k : Kiln) : Kiln :=
  let since := k.log.drop (k.commitLog - k.logFirst)
  let c := k.committed
  let resets := runOver (since.filter fun e => e.type = 0x0001) (fun e (t : Tab Nat) => t.modify 0 (byteAt e.data 0) (· + 1)) c.resets
  let life := since.foldl (fun v e => max v (e.lifeS * 1000000000)) c.lifeNs
  { k with toKilnSram := { c with resets := resets, lifeNs := life }, buffer := [], lastEarly := 0 }

/-- A source that covers domains 2 to 8 asserts. -/
def State.resetManagement (s : State) (cause : Nat) : State :=
  let s := (s.clearRegs [2, 3]).resetDatapath cause
  let m := s.mgt
  { s with
    kiln := s.kiln.adopt
    fuses := { s.fuses with ops := [] }
    mgt := { boot := { m.boot with run := none, trial := false }, thermal := m.thermal, volt := m.volt, clock := m.clock, alarm := m.alarm }
    rst := { s.rst with
      dom := s.rst.dom.keep fun d => d < 2, readyAt := s.rst.readyAt.keep fun d => d < 2
      phase := 0, interrupted := false, testEn := false, pcieLrev := false, booting := false, ewethes := false, recovery := false
      unmasked := s.rst.unmasked.filter fun x => x = 21 } }

/-- A source that covers every domain asserts: time restarts, and only power-on clears FLT_STATUS (R496, R497). -/
def State.resetAll (s : State) (cause : Nat) : State :=
  let powerOn : Bool := cause = 0
  let s := (s.clearRegs [1]).resetManagement cause
  let keepSrc := fun (x : FaultSource) => ({ perm := x.perm, retired := x.retired, flag := x.flag && !powerOn } : FaultSource)
  { s with
    now := 0
    ptp := {}
    eic := {}
    pmc := {}
    flt := { src := s.flt.src.mapCells {} fun _ x => keepSrc x, queue := s.flt.queue, running := s.flt.running, degraded := s.flt.degraded,
             lines := s.flt.lines.filter fun n => measuredLine n && n ≠ 0x4F1, squelch := true }
    rst := { s.rst with
      dom := .empty, readyAt := .empty, lastPhase := 0, restarts := [], restartCount := 0, loadRestarts := 0, stalled := false, unmasked := [] } }
    |>.setReg .rstCause 0 0 (cause + boolBit powerOn * 16)

/-- Ewethes counts a reset and logs it (Tables 16.11 and 16.12). -/
def State.logReset (s : State) (cause before restarts : Nat) : State :=
  let s := { s with kiln := { s.kiln with resets := s.kiln.resets.modify 0 cause (· + 1) } }
  s.kilnLog 0x0001 3 (leBytes 1 cause ++ leBytes 1 before ++ leBytes 4 restarts)

/-- Domains 1 to 3 are ready and no source is asserted: the mode becomes BRINGUP, and critical lines that stand assert at
that moment (R435, Table 17.9). -/
def State.tryBringup (s : State) : State :=
  if s.mode = .reset && s.domain 1 = .ready && s.domain 2 = .ready && s.domain 3 = .ready && !s.rst.resetN && !s.rst.perst then
    let l := s.flt.lines
    ({ s with mode := .bringup, flt := { s.flt with lines := [] } }).critical l
  else s

/-- POWER_ON (R496). -/
def execPowerOn (s : State) : Host.Outcome State Fault Refusal := done (s.resetAll 0)

/-- Whether the option load runs (R503). -/
def ResetCtl.loading (x : ResetCtl) : Bool := x.dom.get .held 1 = .ready && 1 ≤ x.phase && x.phase ≤ 3

/-- RESET_N_ASSERT: shorter than 4 reference cycles it has no effect; during loading it stops the load (R496, R503), and in
a stall it does nothing until it has lasted (R504). -/
def execResetNAssert (cycles : Nat) (s : State) : Host.Outcome State Fault Refusal :=
  done <|
    if cycles < 4 || s.rst.resetN then s
    else if s.rst.stalled then { s with rst := { s.rst with resetN := true, resetNAt := s.now } }
    else if s.rst.loading then { s with rst := { s.rst with resetN := true, resetNAt := s.now, interrupted := true } }
    else
      let s := s.resetAll 1
      { s with rst := { s.rst with resetN := true, resetNAt := 0 } }

/-- RESET_N_DEASSERT: release begins, or the phase that was interrupted starts again (R503). -/
def execResetNDeassert (s : State) : Host.Outcome State Fault Refusal :=
  done <|
    if !s.rst.resetN then s
    else
      let x := { s.rst with resetN := false }
      if x.interrupted then
        { s with rst := { x with
          interrupted := false, lastPhase := x.phase, restartCount := x.restartCount + 1, restarts := x.restarts ++ [s.now] } }
      else ({ s with rst := x }).tryBringup

/-- PERST_ASSERT (R496). -/
def execPerstAssert (s : State) : Host.Outcome State Fault Refusal :=
  done <|
    if s.rst.perst then s
    else
      let before := s.mode.code
      let s := s.resetDatapath 2
      let s := { s with rst := { s.rst with perst := true } }
      if s.rst.ewethes then s.logReset 2 before s.rst.loadRestarts else s

/-- PERST_DEASSERT (R499). -/
def execPerstDeassert (s : State) : Host.Outcome State Fault Refusal :=
  done <|
    let x := { s.rst with perst := false, asked := if s.rst.booting || s.rst.ewethes || s.rst.recovery then [4] else s.rst.asked }
    ({ s with rst := x }).tryBringup

/-- PCIE_HOT_RESET: every function undergoes a Function Level Reset (R496). -/
def execPcieHotReset (s : State) : Host.Outcome State Fault Refusal :=
  done <|
    if s.domain 4 ≠ .ready then s
    else
      let s := runOver [Requester.pf .pf0, .pf .pf1, .pf .pf2] (fun t s => s.flr t) s
      let s := { s with rst := { s.rst with cause := 3 } }
      if s.rst.ewethes then s.logReset 3 s.mode.code s.rst.loadRestarts else s

/-- SOFTWARE_DEVICE_RESET: 0x5D written to RST_DEVICE resets domains 2 to 8 after 1 µs (R496, Table 17.14). -/
def execSoftwareDeviceReset (f : Fn) (key : BitVec 8) (s : State) : Host.Outcome State Fault Refusal :=
  done <| s.rowWrite f .rstDevice 0 0 fun s =>
    if key ≠ 0x5D then s.configError f (RegName.rstDevice.addr 0 0) else (s.advance usNs).resetManagement 5

/-- WATCHDOG_WARNING: the watchdog is 1 s from expiry (R476). -/
def execWatchdogWarning (s : State) : Host.Outcome State Fault Refusal :=
  done <|
    if s.domain 3 ≠ .ready || s.mgt.warned.isSome then s
    else ({ s with mgt := { s.mgt with warned := some s.now } }).eicEvent 1287

/-- WATCHDOG_EXPIRE resets domains 2 to 8 (R476, Table 17.2). -/
def execWatchdogExpire (s : State) : Host.Outcome State Fault Refusal :=
  done <|
    match s.mgt.warned with
    | none => s
    | some t => (s.advanceTo (t + 1000 * msNs)).resetManagement 4

/-! Release of domains (R499, R500) -/

/-- Gap after a domain's becoming ready, in ns (Table 17.3). -/
def domainGap (d : Nat) : Nat := (if d = 5 then 250 else 25) * 40

/-- Whether every source that covers a domain has deasserted. -/
def ResetCtl.clear (x : ResetCtl) (d : Nat) : Bool := !x.resetN && (d < 4 || !x.perst)

/-- Set a domain's state. -/
def State.setDomain (s : State) (d : Nat) (x : DomainState) : State := { s with rst := { s.rst with dom := s.rst.dom.set .held d x } }

/-- DOMAIN_RELEASE (R499, R500): `d` counts domains from 0. -/
def execDomainRelease (d : Fin 8) (s : State) : Host.Outcome State Fault Refusal :=
  done <|
    let k := d.val + 1
    let due := s.domain k = .held && s.rst.clear k && (k = 1 || s.domain (k - 1) = .ready) && (k < 4 || s.rst.asked.contains k) &&
      (k ≠ 2 || !s.rst.stalled) && (k < 5 || !s.rst.recovery)
    if !due then s
    else
      let s := if k = 1 then s else s.advanceTo (s.rst.readyAt.get 0 (k - 1) + domainGap (k - 1))
      let s := s.setDomain k .released
      -- the free-running counter starts at 0 when the AON island leaves reset (R108)
      if k = 1 then { s with now := 0, ptp := { s.ptp with time := 0 } }
      -- the memory domain draws its storage key (R248)
      else if k = 5 then
        let (v, s) := s.draw 256
        { s with glz := { s.glz with storageKey := some (beBytes 32 v.toNat) } }
      else if k = 2 then { s with rst := { s.rst with phase := 1, restartCount := 0 } } else s

/-- PCI Express trains once domain 4 is ready; the width and the speed it reaches are free values. -/
def State.trainLink (s : State) : State :=
  let (w, s) := s.draw 3
  let (v, s) := s.draw 3
  { s with hif := { s.hif with linkUp := true, linkWidth := 2 ^ (w.toNat % 5), linkSpeed := 1 + v.toNat % 5 } }

/-- DOMAIN_READY (R499, R511). -/
def execDomainReady (d : Fin 8) (s : State) : Host.Outcome State Fault Refusal :=
  done <|
    let k := d.val + 1
    if s.domain k ≠ .released || (k = 2 && s.rst.phase ≠ 4) then s
    else
      let s := s.setDomain k .ready
      let s := { s with rst := { s.rst with readyAt := s.rst.readyAt.set 0 k s.now } }
      if k = 3 then ({ s with rst := { s.rst with booting := true, asked := s.rst.asked ++ [4] } }).tryBringup
      else if k = 4 then s.trainLink
      else s

/-! Option loading (R502 to R504) -/

/-- The eighth restart within 1 s of the AON clock has happened. -/
def State.mayStall (s : State) : Bool := 8 ≤ s.rst.restarts.countP fun t => s.now < t + 1000 * msNs

/-- OPTION_LOAD_PHASE_DONE: the fuse phase ends when its two reads agree, the strap phase latches the straps, and the trim
phase completes the load (R502). -/
def execOptionLoadPhaseDone (agree testEn pcieLrev : Bool) (s : State) : Host.Outcome State Fault Refusal :=
  done <|
    let x := s.rst
    if !x.loading || x.interrupted || x.resetN || x.stalled || s.mayStall then s
    else if x.phase = 1 then
      let s := s.advance (4096 * 40)
      if agree then { s with rst := { x with phase := 2 } } else s
    else if x.phase = 2 then
      let s := s.advance (64 * 40)
      { s with rst := { x with phase := 3, testEn := testEn, pcieLrev := pcieLrev } }
    else
      let s := s.advance (1024 * 40)
      let s := { s with rst := { x with phase := 4, loadRestarts := x.restartCount } }
      s.setReg .rstCause 0 0 (withBits 23 16 (s.reg .rstCause 0 0) x.restartCount)

/-- LOAD_STALL (R504). -/
def execLoadStall (s : State) : Host.Outcome State Fault Refusal :=
  done <|
    if s.rst.loading && !s.rst.stalled && s.mayStall then
      let s := s.setDomain 2 .held
      { s with rst := { s.rst with stalled := true, interrupted := false } }
    else s

/-- LOAD_STALL_CLEAR: RESET_N has been low for 100 ms (R504). -/
def execLoadStallClear (s : State) : Host.Outcome State Fault Refusal :=
  done <|
    if s.rst.stalled && s.rst.resetN then
      let s := s.advanceTo (s.rst.resetNAt + 100 * msNs)
      { s with rst := { s.rst with stalled := false, phase := 0, restarts := [], restartCount := 0, lastPhase := 0 } }
    else s

/-! Boot and bring-up (R475 to R477, R509) -/

/-- The state that the check of a slot gives (R473): `found` is what the ROM finds in the flash; an SVN below the counter is
ROLLBACK, and what is no image fails FORMAT. -/
def bootCheck (x : Slot) (found : SlotState) (arb : Nat) : SlotState :=
  match found with
  | .valid => if x.svn < arb then .rollback else .valid
  | .sigFail => .sigFail
  | .rollback => .rollback
  | _ => .format

/-- A FW_BOOT entry for a fallback to a slot (Table 16.11). -/
def State.logFallback (s : State) (x : Bool) : State :=
  let y := s.boot.slot x
  s.kilnLog 0x0002 3 (leBytes 1 (boolBit x) ++ leBytes 1 1 ++ leBytes 4 y.release ++ leBytes 1 y.svn)

/-- Start a slot's image: it is ACTIVE, and the slot that ran before is VALID again. -/
def State.startImage (s : State) (x trial : Bool) : State :=
  let b := s.boot
  let other := b.slot (!x)
  let b := b.setSlot (!x) (if other.state = .active then { other with state := .valid } else other)
  let b := b.setSlot x { b.slot x with state := .active }
  let s := s.setBoot { b with run := some x, trial := trial }
  { s with rst := { s.rst with booting := false } }

/-- BOOT_SELECT (R475). -/
def execBootSelect (checkA checkB : SlotState) (s : State) : Host.Outcome State Fault Refusal :=
  done <|
    if !s.rst.booting then s
    else
      let b := s.boot
      let s := if b.tried then
          let b := b.setSlot b.preferred { b.slot b.preferred with state := .failed }
          (s.setBoot { b with preferred := !b.preferred, try_ := false, tried := false, gen := b.gen + 1 }).logFallback (!b.preferred)
        else s
      let check := fun (s : State) (x : Bool) => bootCheck (s.boot.slot x) (if x then checkB else checkA) s.fuses.arb
      let mark := fun (s : State) (x : Bool) => s.setBoot (s.boot.setSlot x { s.boot.slot x with state := check s x })
      let first := s.boot.preferred
      let ok := check s first = .valid
      let s := mark s first
      if ok then
        let trial := s.boot.try_
        let b := s.boot
        (if trial then s.setBoot { b with tried := true, gen := b.gen + 1 } else s).startImage first trial
      else
        let ok := check s (!first) = .valid
        let s := mark s (!first)
        if ok then (s.logFallback (!first)).startImage (!first) false
        else { s with rst := { s.rst with booting := false, recovery := true } }

/-- A bundle of the image is loaded; a refused one leaves the engines with their ROM (R260, R261). -/
def State.bootBundle (s : State) (b : Bytes) : State := (s.loadBundle b).getD s

/-- A lane, a pair or an engine fails its bring-up test (R509); one that has been retired is not tested. -/
def State.bringupFails (s : State) (n : Nat) : State :=
  if (s.fsrc n).retired then s else
  match sourceCat n with
  | 2 => s.laneTest false ((n - 0x40) / 12) ((n - 0x40) % 12) false
  | 3 => s.laneTest true ((n - 0x100) / 12) ((n - 0x100) % 12) false
  | _ => s.engineTest ((n - 0x1C0) / 5) ((n - 0x1C0) % 5) false

/-- EWETHES_START: bring-up begins. Domains 5 to 8 are requested, the image's patch bundles are loaded, the sequencer's
self-test may leave it dead, and each failed test of a lane or an engine counts as an event (R263, R425, R509). A fuse
operation that a reset cut off is given its FUSE_DONE (R486). -/
def execEwethesStart (bundles : List Bytes) (seqOk : Bool) (failed : List Nat) (s : State) : Host.Outcome State Fault Refusal :=
  done <|
    if s.boot.run.isNone || s.rst.begun then s
    else
      let fresh := !s.rst.ewethes
      let s := { s with rst := { s.rst with ewethes := true, begun := true, asked := s.rst.asked ++ [5, 6, 7, 8] } }
      let s := if !fresh then s
        else
          let s := (s.logReset s.rst.cause s.rst.modeBefore s.rst.loadRestarts).recoverIntents
          { s with mgt := { s.mgt with
            health := s.healthBytes, healthAt := s.now + 10 * msNs, minuteDue := s.now + 60000 * msNs, commitDue := s.now + 3600000 * msNs } }
      let s := runOver bundles (fun b s => s.bootBundle b) s
      let s := if seqOk then s else s.seqSelftestFails
      let tested := failed.filter fun n => sourceKind n = .retirable && 2 ≤ sourceCat n && sourceCat n ≤ 4
      runOver tested (fun n s => s.bringupFails n) s

/-- Whether every pending retirement has been carried out (R426): all but that of the last plane, which is critical. -/
def State.retirementsDone (s : State) : Bool :=
  s.flt.queue.isEmpty && s.flt.running.all fun n => sourceCat n = 0 && s.planesInUse = 1

/-- FACTORY_TEST is entered: what the Kiln Record holds is set aside until the next reset (R441). -/
def State.enterTest (s : State) : State :=
  let srcs := s.flt.src.cells
  let b : Envelope :=
    { units := s.units, degraded := s.flt.degraded, queue := s.flt.queue
      perm := (srcs.filter fun c => c.2.perm).map Prod.fst, retired := (srcs.filter fun c => c.2.retired).map Prod.fst }
  { s with mode := .factoryTest, flt := { s.flt with before := some b } }

/-- BRINGUP_END (R509, steps 6 and 7). -/
def execBringupEnd (s : State) : Host.Outcome State Fault Refusal :=
  done <|
    if s.mode ≠ .bringup || !s.rst.begun || s.domain 8 ≠ .ready || !s.retirementsDone then s
    else if !s.flt.critInBringup.isEmpty then
      let l := s.flt.critInBringup
      ({ s with mode := .safe, flt := { s.flt with critInBringup := [] } }).enterSafe l
    else
      let s := { s with flt := { s.flt with squelch := false } }
      if s.rst.testEn && !s.fuses.ftLock then s.enterTest.confirmTrial
      else
        let s := ({ s with mode := .config }).confirmTrial
        if s.rst.testEn then s.configError .pf0 (RegName.rstStrap.addr 0 0) else s

/-- Domain of a voltage monitor (Table 16.5). -/
def monitorDomain (m : Nat) : Nat :=
  if m ≤ 15 then 8 else if m ≤ 19 then 6 else if m = 20 then 7 else if m = 21 then 1 else if m = 22 then 3 else if m = 23 then 4
  else if m ≤ 39 then 8 else 5

/-- MONITOR_UNMASK: 10 µs after its domain became ready (R548). -/
def execMonitorUnmask (m : Fin 48) (withinLimits : Bool) (s : State) : Host.Outcome State Fault Refusal :=
  done <|
    let d := monitorDomain m
    if s.domain d ≠ .ready || s.rst.unmasked.contains m.val || (s.mode = .standby && standbyMasked m) then s
    else
      let s := s.advanceTo (s.rst.readyAt.get 0 d + 10 * usNs)
      let s := { s with rst := { s.rst with unmasked := s.rst.unmasked ++ [m.val] } }
      if withinLimits then s else s.criticalLine 0x4F1

/-! Per-block resets (R517, R518) -/

/-- Whether slice i holds no frame and no prefetch, and its ports are DISABLED (Table 17.10). -/
def State.sliceIdle (s : State) (i : Nat) : Bool :=
  ((List.range 8).all fun k => (s.port (8 * i + k)).link = .disabled) &&
    !(s.frames.any fun _ x => (x.ing ≠ .none && x.slice = i) || (x.eg ≠ .none && x.outPort / 8 = i)) && (s.cacheWait i).isEmpty

/-- Whether a block reports idle: port p, or 128 + slice. -/
def State.blockIdle (s : State) (b : Nat) : Bool :=
  if b < 128 then (s.port b).link = .disabled else s.sliceIdle (b - 128)

/-- Registers of RST_BLK_PORT and RST_BLK_SLICE show the blocks that are being reset. -/
def State.showBlocks (s : State) : State :=
  let word := fun (base n : Nat) => (List.range n).foldl (fun v k => if s.rst.blocks.contains (base + k) then v + 2 ^ k else v) 0
  let s := runOver (List.range 4) (fun k s => s.setReg .rstBlkPort 0 k (word (32 * k) 32)) s
  s.setReg .rstBlkSlice 0 0 (word 128 16)

/-- A write of 1 to block bits: idle blocks are reset, and a busy one leaves its bit 0 and is logged (R517). -/
def State.resetBlocks (s : State) (f : Fn) (addr base n v : Nat) : State :=
  let asked := ((List.range n).filter v.testBit).map (base + ·)
  let okMode := s.mode = .config || s.mode = .forward || s.mode = .drain
  let new := asked.filter fun b => okMode && s.blockIdle b && !s.rst.blocks.contains b
  let refused := asked.any fun b => !(okMode && s.blockIdle b)
  let s := if refused then s.configError f addr else s
  ({ s with rst := { s.rst with blocks := s.rst.blocks ++ new } }).showBlocks

/-- RST_BLK_PORT (R517). -/
def execRstBlkPort (f : Fn) (n : Fin 4) (v : BitVec 32) (s : State) : Host.Outcome State Fault Refusal :=
  done <| s.rowWrite f .rstBlkPort 0 n fun s => s.resetBlocks f (RegName.rstBlkPort.addr 0 n) (32 * n.val) 32 v.toNat

/-- RST_BLK_SLICE (R517). -/
def execRstBlkSlice (f : Fn) (v : BitVec 32) (s : State) : Host.Outcome State Fault Refusal :=
  done <| s.rowWrite f .rstBlkSlice 0 0 fun s => s.resetBlocks f (RegName.rstBlkSlice.addr 0 0) 128 16 v.toNat

/-- Whether a counter belongs to slice i or to one of its ports: domain 8, and HBM_DEEP_DISC_CNT, by the group's numbering
(R417). -/
def sliceCounter (i key : Nat) : Bool :=
  if 2 ^ 31 ≤ key then (key - 2 ^ 31) % 0x1000 / 64 = i
  else if 2 ^ 30 ≤ key then false
  else match findCnt (key % 2 ^ 26) with
    | some g =>
      let k := (key % 2 ^ 26 - g.base) / g.stride
      (g.domain = 8 || g.base = 0x3802000) && (if g.n = 128 then k / 8 = i else g.n = 16 && k = i)
    | none => false

/-- Whether an object of an on-die memory returns to its reset state with slice i: buffers, records and caches, but not the
transmit state array (R402, Table 17.10). -/
def sliceObject (i : Nat) (x : Nat × Nat) : Bool :=
  memIndex x.1 / 2 = i && (memClass x.1 = 1 || memClass x.1 = 2 || (memClass x.1 = 5 && (x.1 % 2 = 0 || x.2 < 4096)))

/-- The volatile state of an idle slice returns to its reset state; registers, the parse program, the transmit state array
and the retirement maps stay (Table 17.10). Profiles give up their standing pins with the cache and take them again. -/
def State.clearSlice (s : State) (i : Nat) : State :=
  let mine := s.cps.keys.filter fun c => (s.cirAt c s.gen.current).any fun v => v.port / 8 = i
  let s := { s with
    cnts := s.cnts.keep fun k => !sliceCounter i k
    latches := s.latches.keep fun k => !sliceCounter i k
    tabs := { s.tabs with punts := s.tabs.punts.keep fun k => k / 32 ≠ i }
    sampBkt := s.sampBkt.keep (· ≠ i), sampLfsr := s.sampLfsr.keep (· ≠ i), sampSeq := s.sampSeq.keep (· ≠ i)
    fab := { s.fab with notReady := s.fab.notReady.filter fun k => k / 64 ≠ i }
    sched := { s.sched with
      portLevel := s.sched.portLevel.keep fun p => p / 8 ≠ i, clsLevel := s.sched.clsLevel.keep fun n => n / 64 ≠ i
      cirqLevel := s.sched.cirqLevel.keep fun n => n / 4096 ≠ i, served := s.sched.served.keep (· ≠ i) }
    glz := { s.glz with
      cache := s.glz.cache.keep (· ≠ i), cacheGone := s.glz.cacheGone.keep (· ≠ i), rxCache := s.glz.rxCache.keep (· ≠ i)
      pairs := s.glz.pairs.keep fun k => k / 12 ≠ i, lanes := s.glz.lanes.keep fun k => k / 12 ≠ i }
    bur := { s.bur with engines := s.bur.engines.keep fun k => k / 5 ≠ i }
    hbm := { s.hbm with used := s.hbm.used.filter fun x => !sliceObject i x, poison := s.hbm.poison.filter fun x => !sliceObject i (x.1, wordObject x.1 x.2) }
    cps := s.cps.mapCells none fun c p => if mine.contains c then p.map fun p => { p with pin := none } else p }
  runOver mine (fun c s => if (s.cps.get none c).isSome then s.prefetch i (cpsWait + c) else s) s

/-- BLOCK_RESET_DONE (R517). -/
def execBlockResetDone (b : ResetBlock) (s : State) : Host.Outcome State Fault Refusal :=
  done <|
    let k := match b with
      | .port p => p.val
      | .slice i => 128 + i.val
    if !s.rst.blocks.contains k then s
    else
      let s := ({ s with rst := { s.rst with blocks := s.rst.blocks.filter (· ≠ k), cause := 6 } }).showBlocks
      let s := match b with
        | .port p => s.setPort p { s.port p with pcsLock := false }
        | .slice i => s.clearSlice i
      if s.rst.ewethes then s.logReset 6 s.mode.code s.rst.loadRestarts else s

end Sys2Proof.Machine
end

