-- ==== Sys2Proof/Machine/RegWrite.lean ====
section
/-! DEFINITION. REGISTER_WRITE: what a BAR0 write does to each register, beyond what every write shares (R4 to R6, R42,
R501, R536 to R538, R558 and the register rules of each chapter). -/

namespace Sys2Proof.Machine

/-! Blocks (Table 19.2) -/

/-- Reset domain of the block that an offset lies in. -/
def blockDomain (a : Nat) : Nat :=
  if a < 0x0100000 then 4 else if a < 0x0400000 then 1 else if a < 0x0800000 then 4 else if a < 0x1400000 then 8
  else if a < 0x1C00000 then 6 else if a < 0x2000000 then 4 else if a < 0x2800000 then 8 else if a < 0x2C00000 then 7
  else if a < 0x3000000 then 8 else if a < 0x3003000 then 8 else if a < 0x3800000 then 6 else if a < 0x3C00000 then 5
  else if a < 0x3E00000 then 1 else if a < 0x3E00100 then 4 else 3

/-- Whether the block that an offset lies in answers (R501). -/
def State.blockAnswers (s : State) (a : Nat) : Bool := s.domain 4 = .ready && s.domain (blockDomain a) ≠ .held

/-- A write to a hole or to an unexposed offset: ignored and logged (R536). -/
def State.holeWrite (s : State) (f : Fn) (a : Nat) : State := if s.blockAnswers a then s.configError f a else s

/-! Fields that keep their value (R6), and writes refused as a whole (R558) -/

/-- Whether a live circuit version, or a port's configuration, names a rewrite program (R270). -/
def State.progNamed (s : State) (n : Nat) : Bool :=
  (s.glz.cir.any fun _ l => l.any fun v => v.rewrite = n && s.tagLive v.tag) ||
    (List.range 128).any fun p => s.fld .burPortCfg 0 p 9 0 = n

/-- Whether a value of BUR_PROG is one that Table 08.6 marks reserved. -/
def progReserved (v : Nat) : Bool :=
  (bitsOf 30 28 v = 2 && (bitsOf 27 26 v = 0 || bitsOf 27 26 v = 3)) ||
    ((bitOf 24 v || bitOf 23 v) && bitsOf 30 28 v ≠ 2)

/-- Slots of the exact-match table in use, withdrawn ones included (Table 06.16). -/
def State.emUsed (s : State) : Nat := s.tabs.em.cells.length + s.tabs.emGone.length

/-- Whether the bytes of a set's pools fit its size (R315), given BPM_IPOOL_CFG or BPM_EPOOL_CFG. -/
def poolsFit (v size : Nat) : Bool :=
  bitsOf 15 0 v * 256 + bitsOf 31 16 v * 1024 + bitsOf 47 32 v * 4096 + bitsOf 63 48 v * 12288 ≤ size

/-- Whether the reserves of R318 fit the pools: `rsv c` is class c's four reserve bytes. -/
def reservesFit (pools per : Nat) (rsv : Nat → Nat) : Bool :=
  (List.range 4).all fun p =>
    per * (List.range 8).foldl (fun n c => n + bitsOf (8 * p + 7) (8 * p) (rsv c)) 0 ≤ bitsOf (16 * p + 15) (16 * p) pools

/-- Whether a source may target a context (R448). -/
def mayTarget (n x : Nat) : Bool :=
  if ringIrqSource .pf0 n then x < 34 else if ringIrqSource .pf1 n then 34 ≤ x && x < 50
  else if ringIrqSource .pf2 n then 50 ≤ x && x < 66 else true

/-- The owners of the ring groups after a write of HIF_VF_GROUPn. -/
def State.groupOwners (s : State) (n x : Nat) : List Nat :=
  (List.range 224).map fun g => if g / 4 = n then bitsOf (8 * (g % 4) + 5) (8 * (g % 4)) x else s.groupVf g

/-- Whether a ring of a group is enabled or stopping. -/
def State.groupActive (s : State) (g : Nat) : Bool := s.hif.rings.any fun r v => r / 16 = g && v.active

/-- Whether a write that would leave `x` in element (i, j) is refused as a whole; `old` is the value held. -/
def State.refuses (s : State) (f : Fn) (r : RegName) (j old x : Nat) : Bool :=
  match r with
  | .emtHashSeed => s.emUsed ≠ 0 || x = s.reg .emtHashSeed 0 (1 - j)
  | .emtProofBase => s.bit .emtProofCtrl 0 0 0
  | .emtKeyselCtrl =>
    let fam := bitsOf 7 6 x
    fam ≠ 0 && 160 < bitsOf 15 8 x + (if fam = 1 then 4 else 16)
  | .burProg => progReserved x || (bitsOf 31 26 x ≠ bitsOf 31 26 old && s.progNamed j)
  | .burPortCfg => s.bit .prtCfg j 0 0 || s.fld .burProg 0 (bitsOf 9 0 x) 31 28 ≠ 8
  | .fabFcCfg => bitsOf 31 16 x ≤ bitsOf 15 0 x
  | .bpmIclsCfg => bitsOf 23 12 x ≤ bitsOf 11 0 x
  | .bpmIpoolCfg => !s.bpm.charged.cells.isEmpty || !poolsFit x 2752512 || !reservesFit x 128 fun c => s.reg .bpmIrsv 0 c
  | .bpmEpoolCfg => !s.bpm.charged.cells.isEmpty || !poolsFit x 1048576 || !reservesFit x 4 fun c => s.reg .bpmEclsCfg 0 c
  | .bpmIrsv => !reservesFit (s.reg .bpmIpoolCfg 0 0) 128 fun c => if c = j then x else s.reg .bpmIrsv 0 c
  | .bpmEclsCfg =>
    bitsOf 31 0 x ≠ bitsOf 31 0 old &&
      (s.mode ≠ .config || !reservesFit (s.reg .bpmEpoolCfg 0 0) 4 fun c => if c = j then x else s.reg .bpmEclsCfg 0 c)
  | .bpmDbCfg => s.bpm.voqs.any fun _ v => v.spill
  | .hifRctBase => s.hif.rings.any fun n v => ringFn n = f && v.active
  | .hifVfGroup =>
    let owners := s.groupOwners j x
    (List.range 4).any (fun k =>
      bitsOf (8 * k + 5) (8 * k) x ≠ bitsOf (8 * k + 5) (8 * k) old && s.groupActive (4 * j + k)) ||
      (List.range 4).any fun k => let v := bitsOf (8 * k + 5) (8 * k) x; v ≠ 0 && 16 < owners.count v
  | .eicSrcCfg =>
    (bitsOf 22 16 x ≠ bitsOf 22 16 old && !mayTarget j (bitsOf 22 16 x)) ||
      (bitOf 31 old && bitOf 31 x && (bitsOf 22 16 x ≠ bitsOf 22 16 old || bitsOf 27 24 x ≠ bitsOf 27 24 old))
  | .eicCtxCtrl => 2 ≤ j && j < 34 && bitsOf 21 16 x ≠ 0 && !bitOf 29 x
  | .pmcCntCfg => !pmcEventOk (bitsOf 27 24 x) (bitsOf 23 16 x) (bitsOf 7 0 x)
  | _ => false

/-- `x` with a field of `old` put back. -/
def putBack (hi lo old x : Nat) : Nat := withBits hi lo x (bitsOf hi lo old)

/-- The value stored, and whether a field kept its value because its new encoding is reserved in a way that the field's
own numbers do not show. Bits that read 0 by a rule ignore writes in silence. -/
def State.keeps (s : State) (f : Fn) (r : RegName) (j old x : Nat) : Nat × Bool :=
  let kept := fun (hi lo : Nat) (bad : Bool) =>
    if bad && bitsOf hi lo x ≠ bitsOf hi lo old then (putBack hi lo old x, true) else (x, false)
  match r with
  | .genMkrEn =>
    ((List.range 32).foldl (fun v b => if s.black (32 * j + b) then withBits b b v 0 else v) x, false)
  | .hbmRefCtrl => kept 3 0 (Config.jesd238PostponeLimit < bitsOf 3 0 x)
  | .mixSel => kept 11 0 (!hasLog (bitsOf 11 0 x))
  | .pmcCntCfg => kept 30 30 (j = 0)
  | .mbxCtrl =>
    let n := bitsOf 27 16 x
    kept 27 16 (!((f = .pf0 && n = 1286) || ringIrqSource f n))
  | .eicSrcCfg => if j = 0 || 1920 < j then (old, false) else kept 15 8 (bitsOf 15 8 x = 0 && bitOf 29 x)
  | .eicCtxCtrl =>
    let y := if j < 2 || 34 ≤ j then withBits 21 16 x 0 else x
    if j < 2 && bitOf 29 y then (putBack 29 29 old y, true) else (y, false)
  | .hifEvtRoute => (if f = .pf0 then x else withBits 31 31 x 0, false)
  | .parFailAct | .parPuntRate => (if j = 0 then old else x, false)
  | _ => (x, false)

/-! What a new value does besides -/

/-- What follows a write of element (i, j) that left `x` where `old` was. -/
def State.afterWrite (s : State) (r : RegName) (i j old x : Nat) : State :=
  match r with
  | .parPuntRate => s.rerate (.punt (Fin.ofNat 16 i) (Fin.ofNat 32 j)) old
  | .rsaCopyRate => runOver (List.range 4) (fun q s => s.rerate (.copy (Fin.ofNat 4 q) (Fin.ofNat 16 j)) old) s
  | .emtLrnRate => s.rerate .learn old
  | .pmcSampRate => runOver (List.range 16) (fun k s => s.rerate (.sample (Fin.ofNat 16 k)) old) s
  | .egsPortShape => { s with sched := { s.sched with portLevel := s.sched.portLevel.set none j none } }
  -- a Proofing lap begins when Proofing is switched on (R205)
  | .emtProofCtrl => if bitOf 0 x && !bitOf 0 old then s.setTabs { s.tabs with proofStart := s.now, proofSeen := [] } else s
  | .eicSrcCfg => (s.eicSettle (bitsOf 22 16 old)).eicSettle (bitsOf 22 16 x)
  | .eicCtxCtrl => s.eicSettle j
  | .pmcBwCtrl => if bitsOf 19 0 x ≠ bitsOf 19 0 old then s.restartWindows else s
  | _ => s

/-- A write that stores fields: roles, modes, halves, reserved encodings and combinations, then the effect. -/
def State.plainWrite (s : State) (f : Fn) (m : RegAt) (size v : Nat) : State :=
  let bad := s.configError f (m.name.addr m.i m.j + m.off)
  match s.judgeWrite f m size v with
  | .ignored => s
  | .refused => bad
  | .stored x logged =>
    let old := s.regOf m.name (m.name.bank f) m.row m.j
    if s.refuses f m.name m.j old x then bad
    else
      let (y, kept) := s.keeps f m.name m.j old x
      let s := if logged || kept then bad else s
      -- ticks so far run at the old rate
      let s := if m.name = .egsPortShape then s.shaperSync else s
      (s.setRegOf m.name (m.name.bank f) m.row m.j y).afterWrite m.name m.i m.j old y

/-! Registers whose write has a row of its own, or whose bits live elsewhere -/

/-- The state that a command leaves. -/
def leftBy (o : Host.Outcome State Fault Refusal) (s : State) : State :=
  match o with
  | .next t => t
  | _ => s

/-- A write of 1 to bits of FLT_STATUSn clears their flags (R420). -/
def State.clearFlags (s : State) (n v : Nat) : State :=
  runOver (wordSources n v) (fun k s => s.setFsrc k { s.fsrc k with flag := false }) s

/-- A write of MBX_CTRL: IRQ_SRC first, then GO (R464). -/
def State.mailCtrlWrite (s : State) (f : Fn) (m : RegAt) (size v : Nat) : State :=
  let s := s.plainWrite f m size (withBits 0 0 v 0)
  if bitOf 0 v then s.rowWrite f .mbxCtrl 0 0 fun s => s.mailGo f else s

/-- A write of EMT_PROOF_CTRL: EN and LAP_LIMIT_S, then REBUILD; writing 0 to REBUILD stops nothing (R204). -/
def State.proofCtrlWrite (s : State) (f : Fn) (m : RegAt) (size v : Nat) : State :=
  let running := boolBit (s.bit .emtProofCtrl 0 0 1)
  let s := s.plainWrite f m size (withBits 1 1 v running)
  if bitOf 1 v then leftBy (execProofRebuild f s) s else s

/-- A write of PAR_PROG_CTRL: VALID, then CHECK; writing 0 to CHECK stops nothing (R136). -/
def State.progCtrlWrite (s : State) (f : Fn) (m : RegAt) (size v : Nat) : State :=
  let running := boolBit (s.bit .parProgCtrl m.i 0 1)
  let s := s.plainWrite f m size (withBits 1 1 v running)
  if bitOf 1 v then leftBy (execParseCrcCheck f (Fin.ofNat 16 m.i) s) s else s

/-- MOD_BUDGET_WRITE: after an accepted write Ewethes reads the power class of each module of the register's cages again;
`classes` holds what it finds (R469). -/
def execModBudgetWrite (f : Fn) (n : Fin 16) (v : BitVec 32) (classes : List Nat) (s : State) :
    Host.Outcome State Fault Refusal :=
  done <| s.fieldWrite f ⟨.mgtModBudget, 0, n, 0⟩ 4 v.toNat (fun _ => false) fun _ s =>
    if !s.rst.ewethes then s
    else runOver (List.range 8) (fun k s =>
      let p := 8 * n.val + k
      if (s.port p).present then s.readClass p (classes.getD k (s.port p).powerClass) else s) s

/-- A write of `size` bytes that one register takes. -/
def State.writeAt (s : State) (f : Fn) (m : RegAt) (size v : Nat) : State :=
  let w := BitVec.ofNat 32 v
  match m.name with
  | .glbSeal => if bitOf 0 v then leftBy (execCfgSealSet f s) s else s.rowWrite f .glbSeal 0 0 id
  | .prtCfg => leftBy (execPrtCfgWrite f (Fin.ofNat 128 m.i) w s) s
  | .prtDomain => leftBy (execPrtDomainWrite f (Fin.ofNat 128 m.i) w s) s
  | .prtBypStage => leftBy (execPrtBypStageWrite f w s) s
  | .prtBypApprove => leftBy (execPrtBypApproveWrite f w s) s
  | .parState | .parExtract | .parMatch | .parMask | .parAction =>
    leftBy (execParseProgramWrite f (Fin.ofNat 16 m.i)
      (BitVec.ofNat 16 (m.name.addr m.i m.j + m.off - 0x1000000 - m.i * 0x10000)) size (BitVec.ofNat 64 v) s) s
  | .parProgCtrl => s.progCtrlWrite f m size v
  | .rsaGroupCfg => leftBy (execRsaGroupCfgWrite f (Fin.ofNat 4 m.i) w s) s
  | .emtProofCtrl => s.proofCtrlWrite f m size v
  | .rstDevice => leftBy (execSoftwareDeviceReset f (BitVec.ofNat 8 v) s) s
  | .rstBlkPort => leftBy (execRstBlkPort f (Fin.ofNat 4 m.j) w s) s
  | .rstBlkSlice => leftBy (execRstBlkSlice f w s) s
  | .fltInject => s.injectWrite f m size v
  | .fltStatus => s.rowWrite f .fltStatus 0 m.j fun s => s.clearFlags m.j v
  | .eicComplete => s.rowWrite f .eicComplete 0 m.j fun s =>
      leftBy (execEicComplete (.host f) (Fin.ofNat 66 m.j) (BitVec.ofNat 11 v) s) s
  | .eicPendSet => s.rowWrite f .eicPendSet 0 m.j fun s => leftBy (execEicPendSet f (Fin.ofNat 64 m.j) w s) s
  | .eicPendClr => s.rowWrite f .eicPendClr 0 m.j fun s => leftBy (execEicPendClr f (Fin.ofNat 64 m.j) w s) s
  | .eicCtxCtrl => if ctxVisible f m.j then s.plainWrite f m size v else s.rowWrite f .eicCtxCtrl 0 m.j fun s =>
      s.configError f (m.name.addr m.i m.j)
  | .pmcSnap => if bitOf 31 v then s.snapWrite f else s.rowWrite f .pmcSnap 0 0 id
  | .pmcCnt => s.pmcCntWrite f m.j m.off size v
  | .pmcSampCtrl => s.sampWrite f m size v
  | .mbxCtrl => s.mailCtrlWrite f m size v
  -- writes of the user window are ignored (R532)
  | .pmcUserShadow | .pmcUserBw | .pmcUserSnap | .pmcUserSnapTime => if f = .pf1 then s.holeWrite f (m.name.addr m.i m.j) else s
  | .mgtModBudget => leftBy (execModBudgetWrite f (Fin.ofNat 16 m.j) w [] s) s
  | _ => s.plainWrite f m size v

/-- A write of 4 bytes, or of 8 bytes to one register that long. -/
def State.writePiece (s : State) (f : Fn) (a size v : Nat) : State :=
  match findReg a with
  | some m => s.writeAt f m size v
  | none =>
    match findCnt a with
    -- counters are read only; a write outside the function's role is logged (R42, R114)
    | some _ => if f = .pf0 then s else s.holeWrite f a
    | none => s.holeWrite f a

/-- Whether an offset lies in a 4-byte register. -/
def isWord (a : Nat) : Bool := (findReg a).any fun m => m.name.info.size = 4

/-- A BAR0 write (R536, R537): 8 bytes at 4-byte registers are two writes, the lower first. -/
def State.writeBar0 (s : State) (f : Fn) (a size v : Nat) : State :=
  if !accessOk a size then s.holeWrite f a
  else if size = 8 && (isWord a || isWord (a + 4)) then
    (s.writePiece f a 4 (v % 2 ^ 32)).writePiece f (a + 4) 4 (v / 2 ^ 32)
  else s.writePiece f a size (v % 2 ^ (8 * size))

/-- REGISTER_WRITE (R6). -/
def execRegisterWrite (f : Fn) (a : BitVec 26) (size : Nat) (v : BitVec 64) (s : State) :
    Host.Outcome State Fault Refusal :=
  done (s.writeBar0 f a.toNat size v.toNat)

end Sys2Proof.Machine
end

