-- ==== Sys2Proof/Machine/Transmit.lean ====
section
/-! DEFINITION. A frame leaves at a MAC, and frames that wait too long (R31, R59, R73, R74, R86, R93, R95, R106, R255,
R333). -/

namespace Sys2Proof.Machine

/-! The transmit gate (R93) and the MAC (R86, R106) -/

/-- What the gate of a BLACK MAC does with a frame. -/
inductive Gate where
  | passes | refused | noProof
  deriving DecidableEq, Repr

/-- The gate's answer at the moment it takes the frame's first byte. -/
def State.gate (s : State) (p : Nat) (x : Frame) : Gate :=
  if !s.black p then .passes
  else match x.proof with
    | .lockstep => .passes
    | .bypass k => if s.bypassOk k then .passes else .refused
    | .none => .noProof

/-- The TX_TS record of a frame that asked for a transmit timestamp (R106, R394). -/
def State.txTsRecord (s : State) (f : Nat) : State :=
  let x := s.frame f
  let v := s.regOf .hifEvtRoute 0 0 0
  match x.txTs with
  | some src =>
    if bitOf 31 v then
      s.writeRecord .pf0 (bitsOf 27 16 v) 0x0040 s.now (leBytes 1 x.outPort ++ leBytes 1 src ++ leBytes 1 x.port ++ zeros 1
        ++ leBytes 4 x.txTsTag ++ leBytes 6 s.ptpSec ++ zeros 2 ++ leBytes 4 s.ptpNano ++ leBytes 1 s.ptpFrac ++ zeros 3
        ++ leBytes 8 x.sofNs)
    else s
  | none => s

/-- The bytes of a frame as sent, from DA to FCS (R274). -/
def Frame.wire (x : Frame) : Bytes := x.output.bytes ++ leBytes 4 (crc32 x.output.bytes)

/-- FRAME_TX_START: the MAC of a port that is up takes the first byte of the frame at the head of its transmit path; the
gate or the MAC control check discards it instead. -/
def execFrameTxStart (p : Port) (s : State) : Host.Outcome State Fault Refusal :=
  done <|
    let y := s.port p
    match y.path with
    | [] => s
    | f :: rest =>
      let x := s.frame f
      if y.tx.isSome || y.link ≠ .up || s.flt.squelch || x.eg ≠ .ready then s
      else match s.gate p x with
        | .refused => (s.bump (cntPrt p 2)).discard f
        | .noProof => ((s.bump (cntPrt p 2)).discard f).criticalLine (0x4D0 + p.val / 8)
        | .passes =>
          if etherTypeOf x.output.bytes = 0x8808 then (s.bump (cntPrt p 7)).discard f
          else
            let s := s.setPort p { y with path := rest, tx := some f }
            let s := (s.setFrame f { x with eg := .sending }).stamp f 4
            (s.countBw p true s.now (x.output.bytes.length + 4)).txTsRecord f

/-- FRAME_TX_END: the last byte is transmitted, and the frame leaves the device (R59, R255, R324). -/
def execFrameTxEnd (p : Port) (s : State) : Host.Outcome State Fault Refusal :=
  done <|
    match (s.port p).tx with
    | none => s
    | some f =>
      let x := s.frame f
      let n := x.wire.length
      let s := (s.emit (.line p x.wire)).setPort p { s.port p with tx := none }
      let s := (s.pmcCount 1 p 2 1).pmcCount 1 p 3 n
      let s := match x.circuit with
        | some c => s.circuitPair c 0 n
        | none => s
      (s.leave f .sent).panicSync

/-! The residency sweeper (R73, R74, R333) -/

/-- Whether a frame has passed its maximum residency. -/
def State.expired (s : State) (f : Nat) : Bool := s.resLimit < s.age (s.frame f)

/-- Discard the head of a queue while it has passed its maximum residency. -/
def State.sweepQueue (s : State) (queue : State → List Nat) : Nat → State
  | 0 => s
  | n + 1 =>
    match queue s with
    | f :: _ => if s.expired f then (s.resDiscard f).sweepQueue queue n else s
    | [] => s

/-- Sweep one queue. -/
def State.sweep (s : State) (queue : State → List Nat) : State := s.sweepQueue queue (queue s).length

/-- Frames in the landing areas that wait for a receive SA (R237). -/
def State.waitingForSa (s : State) : List Nat :=
  s.framesWhere fun x => x.ing = .landing && x.walk.st = .waitSa

/-- RESIDENCY_SWEEP: the sweeper visits the head of every queue: on-die and deep portions of VOQs, egress queues, and
frames that wait for a receive SA. -/
def execResidencySweep (s : State) : Host.Outcome State Fault Refusal :=
  done <|
    let s := runOver s.bpm.voqs.keys (fun k s => (s.sweep fun s => (s.voq k).order).sweep fun s => (s.voq k).deep) s
    let s := runOver s.sched.queues.keys (fun k s => s.sweep fun s => s.queue k) s
    runOver (s.waitingForSa.filter s.expired) (fun f s => s.resDiscard f) s

end Sys2Proof.Machine
end

