-- ==== Sys2Proof/Machine/Views.lean ====
section
/-! DEFINITION. What a BAR0 read returns: status registers as views of the state, counters and their latches, holes
(R114, R412, R501, R536 to R539 and the register tables of each chapter). -/

namespace Sys2Proof.Machine

/-- A map register (Tables 07.16 and 08.17): a nibble for each of n positions, RETIRED and FENCED above. -/
def mapWord (m : UnitMap) (n units retiredAt fencedAt : Nat) : Nat :=
  (List.range n).foldl (fun v k => v + ((m.pos.getD k none).getD 15) * 2 ^ (4 * k)) 0
    + bitsWhere units m.retired.contains * 2 ^ retiredAt + bitsWhere units m.fenced.contains * 2 ^ fencedAt

/-- PRT_STATUS (Table 03.14). -/
def State.portStatus (s : State) (p : Nat) : Nat :=
  let x := s.port p
  let left := if x.link = .hold then ceilDiv (x.holdEnd - s.now) msNs else 0
  x.link.code + boolBit x.pcsLock * 2 ^ 3 + boolBit x.present * 2 ^ 4 + left * 2 ^ 16

/-- EIC_CTX_STATUS (Table 15.11). -/
def State.ctxStatus (s : State) (x : Nat) : Nat :=
  let top := (s.winner x).getD 0
  top + (if top = 0 then 0 else s.srcPrio top) * 2 ^ 24 + boolBit (s.ctxActive x) * 2 ^ 29
    + boolBit (s.intCtx x).withdrawn * 2 ^ 30 + boolBit (s.notifyCond x) * 2 ^ 31

/-- The sources of a word of 32 that exist and satisfy p. -/
def sourceWord (n : Nat) (p : Nat → Bool) : Nat :=
  bitsWhere 32 fun b => 1 ≤ 32 * n + b && 32 * n + b ≤ 1920 && p (32 * n + b)

/-- HIF_RING_STATE of a function (Table 12.22). -/
def State.ringStateWord (s : State) (f : Fn) : Nat :=
  let r := bitsOf 11 0 (s.regOf .hifRingSel f.num 0 0)
  let x := s.ring r
  if ringFn r ≠ f then 0
  else x.devIdx % 2 ^ 32 + x.hostIdx % 2 ^ 32 * 2 ^ 32 + x.err % 256 * 2 ^ 64 + boolBit x.halted * 2 ^ 73
    + boolBit x.active * 2 ^ 74 + boolBit (s.hif.cached.contains r) * 2 ^ 75

/-- RSA_TILE_STATUS of a quad (Table 05.9). -/
def State.tileStatus (s : State) (q : Nat) : Nat :=
  let copy := s.tabs.copies.get none q
  bitsOf 31 24 (s.reg .rsaTileStatus q 0) * 2 ^ 24 + ((s.tileMap q).spares 68).length * 2 ^ 16
    + boolBit copy.isSome * 2 ^ 7 + (match copy with | some c => c.tile | none => 0x7F)

/-- RSA_TILE_MAPt of a quad (Table 05.12); nothing serves a lost tile, so PHYS is open there. -/
def State.tileMapWord (s : State) (q t : Nat) : Nat :=
  match (s.tileMap q).pos.getD t none with
  | some p => p + boolBit (p ≠ t) * 2 ^ 7
  | none => (Config.freeValue 7 s.draws).toNat

/-- RSA_FREE_CELLSt (Table 05.13). -/
def State.freeCells (s : State) (t : Nat) : Nat :=
  if s.isJoin t then 1024 - s.tabs.rules.count fun k c => c.isSome && k / 1024 = t else 0

/-- The class-5 routine that runs or is saved: its code, ring and cursor (Table 08.12). -/
def State.fiveRoutine (s : State) : Option (Nat × Nat × Nat) :=
  match s.tabs.abort, s.tabs.flush, s.gen.waiting with
  | some a, _, _ => some (8, a.ring, a.cursor)
  | none, some x, _ => some (7, x.ring, x.bucket)
  | none, none, w :: _ => if w.since.isSome then some (9, w.ring, 0) else none
  | none, none, [] => none

/-- Whether a routine of this class has begun and has not ended: it runs, or is saved (R284). -/
def State.hasBegun (s : State) (cls : Nat) : Bool :=
  if cls = 1 then s.tabs.copies.any fun _ c => c.any fun c => 0 < c.cell && c.cell < 1024
  else if cls = 3 then s.tabs.settleAt ≠ 0
  else if cls = 5 then s.fiveRoutine.isSome
  else cls = 6 && s.tabs.six.isSome

/-- SEQ_STATUS (Table 08.20). -/
def State.seqStatusWord (s : State) : Nat :=
  let (cls, code) := s.seqRuns.getD (0, 0)
  boolBit s.tabs.dead * 2 ^ 31 + code * 2 ^ 8 + cls * 2 ^ 16
    + (List.range 6).foldl (fun v k => v + boolBit (s.hasBegun (k + 1) && cls ≠ k + 1) * 2 ^ (20 + k)) 0

/-- SEQ_CURSOR (Table 08.20). -/
def State.seqCursorWord (s : State) : Nat :=
  match s.fiveRoutine with
  | some (code, ring, cursor) => 2 ^ 63 + ring * 2 ^ 48 + code * 2 ^ 32 + cursor
  | none => 0

/-- GEN_WINDOW (Table 02.11). -/
def State.genWindowWord (s : State) : Nat :=
  let trig := match s.gen.armed with
    | none => 0
    | some a => match a.trigger with
      | .immediate => 1
      | .marker _ => 2
      | .time _ _ => 3
  s.gen.oldest.toNat + s.liveCount * 2 ^ 16 + boolBit s.gen.armed.isSome * 2 ^ 24 + trig * 2 ^ 25
    + boolBit (s.gen.armed.isNone && s.commitStarted && 15 < s.liveCount) * 2 ^ 27

/-- GEN_REFCNTk (Table 02.17). -/
def State.refCount (s : State) (k : Nat) : Nat :=
  match (List.range s.liveCount).find? fun n => (s.gen.oldest.toNat + n) % 16 = k with
  | some n => s.gen.refs.get 0 ((s.gen.oldest.toNat + n) % 65536)
  | none => 0

/-- KEK_STATUS (Table 07.14, R246). -/
def State.kekWord (s : State) : Nat :=
  let kek := deriveKek (s.fuses.slotKeys.getD s.fuses.kekSlot (zeros 32)) s.fuses.serial
  s.fuses.kekSlot + s.fuses.kekLeft * 2 ^ 4 + beNat ((aesBlock kek (zeros 16)).take 3) * 2 ^ 8

/-- GLZ_CACHE_STATUS of a slice (Table 07.17). -/
def State.cacheStatus (s : State) (i : Nat) : Nat :=
  ((s.cache i).filter (·.resident)).length + ((s.cache i).filter fun e => 0 < e.pins).length * 2 ^ 16
    + (s.cacheWait i).length * 2 ^ 32

/-- FAB_PLANE_STATUS (Table 09.9). -/
def State.planeStatus (s : State) : Nat :=
  bitsWhere 18 s.units.planes.retired.contains + s.planesInUse % 16 * 2 ^ 18 + s.cellNs % 16 * 2 ^ 22
    + (match s.fab.check with | some c => c.spare * 2 ^ 26 + 2 ^ 31 | none => 0)

/-- BPM_DB_STATUS (Table 10.10). -/
def State.deepStatus (s : State) : Nat :=
  s.pagesUsed + min s.withdrawnSegs 65535 * 2 ^ 24 + s.deepCapacity / 2 ^ 30 * 2 ^ 40
    + (8000 - 500 * s.retiredGroups) * 2 ^ 48

/-- HBM_GROUP_STATUSg (Table 13.12). -/
def State.groupStatus (s : State) (g : Nat) : Nat :=
  let x := s.group g
  x.progress + x.failed2.getD 0 * 2 ^ 18 + x.failed1.getD 0 * 2 ^ 21 + x.offline.getD 0 * 2 ^ 25
    + boolBit x.offline.isSome * 2 ^ 28 + x.state * 2 ^ 29

/-- MIX_LOGn of the instance that MIX_SEL names (Table 13.14). -/
def State.mixLogWord (s : State) (n : Nat) : Nat :=
  match (s.ceLog (s.fld .mixSel 0 0 11 0))[n]? with
  | some e => e.addr + e.syndrome % 256 * 2 ^ 40 + min e.rep 15 * 2 ^ 57 + e.state * 2 ^ 61 + 2 ^ 63
  | none => 0

/-- MGT_FUSE_SHADOW (Table 16.18). -/
def State.fuseShadow (s : State) : Nat :=
  let x := s.fuses
  x.arb + (64 - x.arb) * 2 ^ 8 + x.kekLeft * 2 ^ 24 + x.kekSlot * 2 ^ 28 + boolBit x.bypDis * 2 ^ 34
    + boolBit x.debugLock * 2 ^ 35 + boolBit x.ftLock * 2 ^ 36 + x.assets.length * 2 ^ 37 + x.domLock % 2 ^ 16 * 2 ^ 48

/-- MGT_KR_STATUS (Table 16.19). -/
def State.krStatus (s : State) : Nat :=
  s.kiln.ckSeq + s.kiln.badPages.length * 2 ^ 36 + s.kiln.perm.length * 2 ^ 48 + boolBit s.kiln.permFull * 2 ^ 63

/-- Whether the user window answers a function (R532). -/
def State.userWindow (s : State) (f : Fn) : Bool := f = .pf0 || s.bit .pmcCtrl 0 0 1

/-- The value of a register, as a read by function f finds it. -/
def State.readReg (s : State) (f : Fn) (r : RegName) (i j : Nat) : Nat :=
  match r with
  | .glbSerial => s.fuses.serial
  | .glbMode => s.mode.code + boolBit (s.now < s.rst.safeStaged) * 2 ^ 8
  | .rstStrap => boolBit s.rst.testEn + boolBit s.rst.pcieLrev * 2
  | .fltCritCause => s.flt.critSource + min s.flt.critCount 255 * 2 ^ 16 + boolBit s.flt.critV * 2 ^ 31
  -- GO reads 1 until the last fault has been injected (Table 14.13)
  | .fltInject => if s.mode = .factoryTest then withBits 63 63 (s.reg .fltInject 0 0) (boolBit (!s.flt.corrupt.cells.isEmpty)) else 0
  | .fltDegraded => s.degradedBits
  | .fltStatus => bitsWhere 32 fun b => (s.fsrc (32 * j + b)).flag
  | .fltPerm => bitsWhere 32 fun b => (s.fsrc (32 * j + b)).perm
  | .eicPend => sourceWord j fun n => (s.intSrc n).isPending n
  | .eicActive => sourceWord j fun n => (s.intSrc n).active.isSome
  | .eicCtxStatus => s.ctxStatus j
  | .eicClaim | .eicComplete | .eicPendSet | .eicPendClr | .rstDevice => 0
  | .hifRingState => s.ringStateWord f
  | .hifLinkStatus => s.hif.linkSpeed + s.hif.linkWidth * 2 ^ 4 + boolBit s.hif.linkUp * 2 ^ 16
  | .prtCfg => let v := s.reg .prtCfg i 0; if s.absorbed i then withBits 0 0 v 0 else v
  | .prtDomain => boolBit (s.black i) + boolBit (s.fuses.domLock.testBit (i / 8)) * 2
  | .prtStatus => s.portStatus i
  | .prtPtpStatus => boolBit s.ptp.sel + boolBit s.ptp.inUse * 2
  | .parFailAct | .parPuntRate => if j = 0 then 0 else s.reg r i j
  | .rsaTileStatus => s.tileStatus i
  | .rsaTileLost => bitsWhere 64 fun t => s.tileLost i t
  | .rsaTileMap => s.tileMapWord i j
  | .rsaFreeCells => s.freeCells j
  | .emtStatus => withBits 20 0 (s.reg .emtStatus 0 0) s.emUsed
  | .lpmStatus => (s.tabs.routes.countP fun x => x.fam = 1) + (s.tabs.routes.countP fun x => x.fam = 2) * 2 ^ 32
  | .seqStatus => s.seqStatusWord
  | .seqCursor => s.seqCursorWord
  | .genStatus => s.gen.current.toNat + s.staging.toNat * 2 ^ 16
  | .genWindow => s.genWindowWord
  | .genLogUsed => s.logUsed s.staging
  | .genRefcnt => s.refCount j
  | .burEngMap => mapWord (s.engMap i) 4 5 16 24
  | .kekStatus => s.kekWord
  | .cirPoolUsed => s.poolUsed
  | .glzEncMap => mapWord (s.encMap i) 10 12 40 52
  | .glzDecMap => mapWord (s.decMap i) 10 12 40 52
  | .glzCacheStatus => s.cacheStatus i
  | .fabPlaneMap => (s.units.planes.pos.getD j none).getD 0x1F
  | .fabPlaneStatus => s.planeStatus
  | .bpmDbStatus => s.deepStatus
  | .hbmGroupStatus => s.groupStatus j
  | .mixLog => s.mixLogWord j
  | .pmcCnt => s.cnt (cntPmc j)
  | .pmcUserShadow => if s.userWindow f then s.pmc.shadow.get 0 j else 0
  | .pmcUserBw => if s.userWindow f then s.reg .pmcBw i j else 0
  | .pmcUserSnap => if s.userWindow f then s.reg .pmcSnap 0 0 else 0
  | .pmcUserSnapTime => if s.userWindow f then s.reg .pmcSnapTime 0 0 else 0
  | .mbxStatus => s.mailStatusWord f
  | .mgtFwStatus => s.fwStatus
  | .mgtFuseShadow => s.fuseShadow
  | .mgtAsset => s.fuses.assets.getLastD 0
  | .mgtKrStatus => s.krStatus
  | r => s.regOf r (r.bank f) (if r.info.mirrored then 0 else i) j

/-! Who sees what (R462, R539, Table 19.3) -/

/-- Whether a function sees a register. -/
def seesReg (f : Fn) (m : RegAt) : Bool :=
  m.name.info.readers.contains f.num &&
    (match m.name with
     | .eicClaim | .eicComplete | .eicCtxCtrl | .eicCtxStatus => ctxVisible f m.j
     | _ => true)

/-- Whether a function sees the counter at an offset. -/
def seesCnt (f : Fn) (a : Nat) : Bool :=
  (findCnt a).any fun g => g.readers.contains f.num && (g.base ≠ 0x0308010 || ctxVisible f ((a - g.base) / g.stride))

/-- Whether an access of 4 or 8 bytes finds no register that the function sees (R536, R537). -/
def isHole (f : Fn) (a size : Nat) : Bool :=
  !accessOk a size || !(match findReg a with | some m => seesReg f m | none => seesCnt f a)

/-! Counters (R114) -/

/-- The live value of the counter at an offset: the counters at 0x380_0180 show the instance of MIX_SEL. -/
def State.counterAt (s : State) (f : Fn) (a : Nat) : Nat :=
  let inst := s.fld .mixSel 0 0 11 0
  if a / 8 * 8 = 0x3800180 then s.cnt (cntMixCe inst)
  else if a / 8 * 8 = 0x3800188 then s.cnt (cntMixOvf inst)
  else s.cnt (cntKey f.num a)

/-- Whether the counter's block answers. -/
def State.counterAnswers (s : State) (a : Nat) : Bool :=
  s.domain 4 = .ready && (findCnt a).any fun g => s.domain g.domain ≠ .held

/-- A read of a counter: 8 bytes give all of it, the lower half latches the upper, and the upper half gives the latch once
or the live value (R114). A latch holds the upper half plus 1; 0 is empty. -/
def State.readCounter (s : State) (f : Fn) (a size : Nat) : State :=
  if !s.counterAnswers a then s.emit (.readData 0) else
  let v := s.counterAt f a
  let k := cntKey f.num a
  if size = 8 then s.emit (.readData v)
  else if a % 8 = 0 then ({ s with latches := s.latches.set 0 k (v / 2 ^ 32 + 1) }).emit (.readData (v % 2 ^ 32))
  else
    let x := s.latches.get 0 k
    if x = 0 then s.emit (.readData (v / 2 ^ 32))
    else ({ s with latches := s.latches.set 0 k 0 }).emit (.readData (x - 1))

/-- COUNTER_HALF_READ (R114). -/
def execCounterHalfRead (f : Fn) (a : BitVec 26) (size : Nat) (s : State) : Host.Outcome State Fault Refusal :=
  done <|
    if accessOk a.toNat size && (findCnt a.toNat).isSome then
      (if seesCnt f a.toNat then s.readCounter f a.toNat size else s.emit (.readData 0))
    else s

/-! Reads -/

/-- 4 bytes of BAR0 as a read finds them, for a register that a read does not change. -/
def State.readWord (s : State) (f : Fn) (a size : Nat) : Nat :=
  match findReg a with
  | some m => if seesReg f m && s.reachable m.name then bitsOf (8 * (m.off + size) - 1) (8 * m.off) (s.readReg f m.name m.i m.j) else 0
  | none => 0

/-- A read of HBM_SCRUB_STATUS clears MIX_LATE; `beside` is what the upper half of an 8-byte read gives (Table 13.11). -/
def State.readScrub (s : State) (beside : Nat) : State :=
  let v := s.reg .hbmScrubStatus 0 0
  (s.setReg .hbmScrubStatus 0 0 (withBits 30 30 v 0)).emit (.readData (v + beside * 2 ^ 32))

/-- SCRUB_STATUS_READ (R412). -/
def execScrubStatusRead (f : Fn) (s : State) : Host.Outcome State Fault Refusal :=
  done (if f ≠ .pf1 && s.reachable .hbmScrubStatus then s.readScrub 0 else s.emit (.readData 0))

/-- A served read: registers with a side effect have it; two 4-byte registers read side by side. -/
def State.readBar0 (s : State) (f : Fn) (a size : Nat) : State :=
  if (findCnt a).isSome then s.readCounter f a size
  else if (findReg a).any (fun m => m.name = .eicClaim) then
    leftBy (execEicClaim (.host f) (Fin.ofNat 66 ((a - RegName.addr .eicClaim 0 0) / 0x40)) s) s
  else if a = RegName.addr .hbmScrubStatus 0 0 && s.reachable .hbmScrubStatus then
    s.readScrub (if size = 8 then s.readWord f (a + 4) 4 else 0)
  else if isWord a && size = 8 then s.emit (.readData (s.readWord f a 4 + s.readWord f (a + 4) 4 * 2 ^ 32))
  else s.emit (.readData (s.readWord f a size))

/-- HOLE_ACCESS (R365, R536, R537). The table has no row for an ordinary read, nor for a write of the MSI-X table but the
one that unmasks: an access here that meets a register the function sees, or what BAR2 holds, is served as one (log entry
35). A doorbell has a row of its own. -/
def execHoleAccess (bar : Bar) (a : BitVec 26) (size : Nat) (write : Option (BitVec 64)) (s : State) :
    Host.Outcome State Fault Refusal :=
  done <|
    let a := a.toNat
    match bar, write with
    | .bar0 f, some _ => if isHole f a size then s.holeWrite f a else s
    | .bar0 f, none => if isHole f a size then s.emit (.readData 0) else s.readBar0 f a size
    | .bar2 req, some v => if (s.doorbellRing req a size v.toNat).isSome then s else s.bar2Write req a size v.toNat
    | .bar2 req, none => s.emit (.readData (s.bar2Read req a size))

end Sys2Proof.Machine
end

