-- ==== Sys2Proof/Machine/Dispatch.lean ====
section
/-! DEFINITION. The meaning of every command: one arm per constructor of Instr. -/

namespace Sys2Proof.Machine

/-- The effect of a command on everything but the queue. -/
def exec (i : Instr) (s : State) : Host.Outcome State Fault Refusal :=
  match i with
  | .registerWrite fn addr size value => Sys2Proof.Machine.execRegisterWrite fn addr size value s
  | .holeAccess bar addr size write => Sys2Proof.Machine.execHoleAccess bar addr size write s
  | .counterHalfRead fn addr size => Sys2Proof.Machine.execCounterHalfRead fn addr size s
  | .prtCfgWrite fn port value => Sys2Proof.Machine.execPrtCfgWrite fn port value s
  | .prtDomainWrite fn port value => Sys2Proof.Machine.execPrtDomainWrite fn port value s
  | .prtBypStageWrite fn value => Sys2Proof.Machine.execPrtBypStageWrite fn value s
  | .prtBypApproveWrite fn value => Sys2Proof.Machine.execPrtBypApproveWrite fn value s
  | .bypassGateUpdate => Sys2Proof.Machine.execBypassGateUpdate s
  | .cfgSealSet fn => Sys2Proof.Machine.execCfgSealSet fn s
  | .parseProgramWrite fn slice off size value => Sys2Proof.Machine.execParseProgramWrite fn slice off size value s
  | .parseCrcCheck fn slice => Sys2Proof.Machine.execParseCrcCheck fn slice s
  | .parseCrcDone slice => Sys2Proof.Machine.execParseCrcDone slice s
  | .rsaGroupCfgWrite fn quad value => Sys2Proof.Machine.execRsaGroupCfgWrite fn quad value s
  | .proofRebuild fn => Sys2Proof.Machine.execProofRebuild fn s
  | .proofRebuildDone => Sys2Proof.Machine.execProofRebuildDone s
  | .modBudgetWrite fn n value classes => Sys2Proof.Machine.execModBudgetWrite fn n value classes s
  | .pmcSnapshot fn => Sys2Proof.Machine.execPmcSnapshot fn s
  | .pmcCounterWrite fn n size value => Sys2Proof.Machine.execPmcCounterWrite fn n size value s
  | .bwClrPeak fn => Sys2Proof.Machine.execBwClrPeak fn s
  | .bwWindowEnd => Sys2Proof.Machine.execBwWindowEnd s
  | .samplingEnable fn value => Sys2Proof.Machine.execSamplingEnable fn value s
  | .scrubStatusRead fn => Sys2Proof.Machine.execScrubStatusRead fn s
  | .doorbellIndex req off size value => Sys2Proof.Machine.execDoorbellIndex req off size value s
  | .doorbellInvalidate req off size value ctx => Sys2Proof.Machine.execDoorbellInvalidate req off size value ctx s
  | .deferredRingEnable ring => Sys2Proof.Machine.execDeferredRingEnable ring s
  | .doorbellResume req off size value => Sys2Proof.Machine.execDoorbellResume req off size value s
  | .descriptorFetch ring res => Sys2Proof.Machine.execDescriptorFetch ring res s
  | .ringStopped ring => Sys2Proof.Machine.execRingStopped ring s
  | .functionLevelReset target => Sys2Proof.Machine.execFunctionLevelReset target s
  | .nop ring => Sys2Proof.Machine.execNop ring s
  | .genCommit ring => Sys2Proof.Machine.execGenCommit ring s
  | .genCommitArm => Sys2Proof.Machine.execGenCommitArm s
  | .genCommitTimeout => Sys2Proof.Machine.execGenCommitTimeout s
  | .markerTimeout => Sys2Proof.Machine.execMarkerTimeout s
  | .timeTriggerDeadline => Sys2Proof.Machine.execTimeTriggerDeadline s
  | .genCommitComplete => Sys2Proof.Machine.execGenCommitComplete s
  | .genAbort ring records => Sys2Proof.Machine.execGenAbort ring records s
  | .genSettle records => Sys2Proof.Machine.execGenSettle records s
  | .genRetire => Sys2Proof.Machine.execGenRetire s
  | .ruleInsert ring rec => Sys2Proof.Machine.execRuleInsert ring rec s
  | .ruleModify ring rec => Sys2Proof.Machine.execRuleModify ring rec s
  | .ruleDelete ring => Sys2Proof.Machine.execRuleDelete ring s
  | .ruleRead ring written => Sys2Proof.Machine.execRuleRead ring written s
  | .profileWrite ring rec => Sys2Proof.Machine.execProfileWrite ring rec s
  | .profileDelete ring => Sys2Proof.Machine.execProfileDelete ring s
  | .emInsert ring rec => Sys2Proof.Machine.execEmInsert ring rec s
  | .emModify ring rec => Sys2Proof.Machine.execEmModify ring rec s
  | .emDelete ring rec => Sys2Proof.Machine.execEmDelete ring rec s
  | .emSearch ring rec written => Sys2Proof.Machine.execEmSearch ring rec written s
  | .emNext ring written => Sys2Proof.Machine.execEmNext ring written s
  | .emFlush ring => Sys2Proof.Machine.execEmFlush ring s
  | .lpmAdd ring rec => Sys2Proof.Machine.execLpmAdd ring rec s
  | .lpmModify ring rec => Sys2Proof.Machine.execLpmModify ring rec s
  | .lpmDelete ring rec => Sys2Proof.Machine.execLpmDelete ring rec s
  | .seqRoutineResume steps => Sys2Proof.Machine.execSeqRoutineResume steps s
  | .seqMachineCheck cause addr inPatch => Sys2Proof.Machine.execSeqMachineCheck cause addr inPatch s
  | .cirWrite ring rec => Sys2Proof.Machine.execCirWrite ring rec s
  | .cirDelete ring => Sys2Proof.Machine.execCirDelete ring s
  | .cirRead ring written => Sys2Proof.Machine.execCirRead ring written s
  | .cirDisable ring => Sys2Proof.Machine.execCirDisable ring s
  | .cirEnable ring => Sys2Proof.Machine.execCirEnable ring s
  | .cirDrainDone circuit => Sys2Proof.Machine.execCirDrainDone circuit s
  | .cirFlushDone circuit => Sys2Proof.Machine.execCirFlushDone circuit s
  | .saLoad ring rec => Sys2Proof.Machine.execSaLoad ring rec s
  | .saDelete ring => Sys2Proof.Machine.execSaDelete ring s
  | .saSelectTx ring => Sys2Proof.Machine.execSaSelectTx ring s
  | .saRead ring written => Sys2Proof.Machine.execSaRead ring written s
  | .cirResume ring => Sys2Proof.Machine.execCirResume ring s
  | .kekAdvance ring => Sys2Proof.Machine.execKekAdvance ring s
  | .egsClassWrite ring rec => Sys2Proof.Machine.execEgsClassWrite ring rec s
  | .egsCirqWrite ring rec => Sys2Proof.Machine.execEgsCirqWrite ring rec s
  | .cpsWrite ring rec => Sys2Proof.Machine.execCpsWrite ring rec s
  | .polWrite ring rec => Sys2Proof.Machine.execPolWrite ring rec s
  | .polDelete ring => Sys2Proof.Machine.execPolDelete ring s
  | .polRead ring written => Sys2Proof.Machine.execPolRead ring written s
  | .forward ring => Sys2Proof.Machine.execForward ring s
  | .drain ring => Sys2Proof.Machine.execDrain ring s
  | .drainDone => Sys2Proof.Machine.execDrainDone s
  | .standby ring => Sys2Proof.Machine.execStandby ring s
  | .standbyWake => Sys2Proof.Machine.execStandbyWake s
  | .safeExit ring => Sys2Proof.Machine.execSafeExit ring s
  | .safeExitLapse => Sys2Proof.Machine.execSafeExitLapse s
  | .safeExitConfirm ring measured => Sys2Proof.Machine.execSafeExitConfirm ring measured s
  | .ptpSet ring => Sys2Proof.Machine.execPtpSet ring s
  | .ptpStep ring => Sys2Proof.Machine.execPtpStep ring s
  | .ptpRate ring => Sys2Proof.Machine.execPtpRate ring s
  | .ptpSource ring inWindow => Sys2Proof.Machine.execPtpSource ring inWindow s
  | .ptpSourceRevert => Sys2Proof.Machine.execPtpSourceRevert s
  | .ptpSourceReturn => Sys2Proof.Machine.execPtpSourceReturn s
  | .cntRead ring written => Sys2Proof.Machine.execCntRead ring written s
  | .mailboxGo fn => Sys2Proof.Machine.execMailboxGo fn s
  | .mailboxResponse fn => Sys2Proof.Machine.execMailboxResponse fn s
  | .getInfo fn => Sys2Proof.Machine.execGetInfo fn s
  | .sensorRead fn readings written => Sys2Proof.Machine.execSensorRead fn readings written s
  | .fwStage fn image sigOk flashOk => Sys2Proof.Machine.execFwStage fn image sigOk flashOk s
  | .fwActivate fn => Sys2Proof.Machine.execFwActivate fn s
  | .arbAdvance fn => Sys2Proof.Machine.execArbAdvance fn s
  | .krRead fn written => Sys2Proof.Machine.execKrRead fn written s
  | .fuseBypassDisable fn => Sys2Proof.Machine.execFuseBypassDisable fn s
  | .fuseDebugLock fn => Sys2Proof.Machine.execFuseDebugLock fn s
  | .fuseFtLockout fn => Sys2Proof.Machine.execFuseFtLockout fn s
  | .fuseDomainLock fn => Sys2Proof.Machine.execFuseDomainLock fn s
  | .fuseAssetTag fn => Sys2Proof.Machine.execFuseAssetTag fn s
  | .fuseOperation readBack => Sys2Proof.Machine.execFuseOperation readBack s
  | .modI2c fn host bus written => Sys2Proof.Machine.execModI2c fn host bus written s
  | .mdio fn valueRead => Sys2Proof.Machine.execMdio fn valueRead s
  | .telemCfg fn => Sys2Proof.Machine.execTelemCfg fn s
  | .patchLoad fn bundle => Sys2Proof.Machine.execPatchLoad fn bundle s
  | .telemetrySnapshot readings => Sys2Proof.Machine.execTelemetrySnapshot readings s
  | .frameStart port dt frame rxEnd => Sys2Proof.Machine.execFrameStart port dt frame rxEnd s
  | .parseStep frame => Sys2Proof.Machine.execParseStep frame s
  | .rxSaResolve frame => Sys2Proof.Machine.execRxSaResolve frame s
  | .decryptComplete frame laneFail => Sys2Proof.Machine.execDecryptComplete frame laneFail s
  | .replayCheck frame => Sys2Proof.Machine.execReplayCheck frame s
  | .frameEnd frame => Sys2Proof.Machine.execFrameEnd frame s
  | .rsaSearchResult frame parityFails => Sys2Proof.Machine.execRsaSearchResult frame parityFails s
  | .emLookupResult frame errors => Sys2Proof.Machine.execEmLookupResult frame errors s
  | .lpmLookupResult frame errors => Sys2Proof.Machine.execLpmLookupResult frame errors s
  | .policerMeter quad => Sys2Proof.Machine.execPolicerMeter quad s
  | .policerLate frame => Sys2Proof.Machine.execPolicerLate frame s
  | .resultApply frame => Sys2Proof.Machine.execResultApply frame s
  | .learnPlace => Sys2Proof.Machine.execLearnPlace s
  | .learnFilterExpire quad => Sys2Proof.Machine.execLearnFilterExpire quad s
  | .poolGrant side slice bufSet pool => Sys2Proof.Machine.execPoolGrant side slice bufSet pool s
  | .spillWriteAck frame => Sys2Proof.Machine.execSpillWriteAck frame s
  | .returnRead slice port cls => Sys2Proof.Machine.execReturnRead slice port cls s
  | .returnReadDone frame => Sys2Proof.Machine.execReturnReadDone frame s
  | .matchCellTime parityBad => Sys2Proof.Machine.execMatchCellTime parityBad s
  | .starvePromote src dst => Sys2Proof.Machine.execStarvePromote src dst s
  | .cellReceive src dst seq err => Sys2Proof.Machine.execCellReceive src dst seq err s
  | .cellAck src dst => Sys2Proof.Machine.execCellAck src dst s
  | .cellNak src dst seq => Sys2Proof.Machine.execCellNak src dst seq s
  | .cellRetxTimeout src dst seq => Sys2Proof.Machine.execCellRetxTimeout src dst seq s
  | .cellPoison src dst seq => Sys2Proof.Machine.execCellPoison src dst seq s
  | .shaperTick => Sys2Proof.Machine.execShaperTick s
  | .tokenTick bucket => Sys2Proof.Machine.execTokenTick bucket s
  | .cpsSlotDue circuit => Sys2Proof.Machine.execCpsSlotDue circuit s
  | .egressSelect port => Sys2Proof.Machine.execEgressSelect port s
  | .txCacheFill slice res => Sys2Proof.Machine.execTxCacheFill slice res s
  | .burinRewrite slice => Sys2Proof.Machine.execBurinRewrite slice s
  | .burinRewriteEnd slice => Sys2Proof.Machine.execBurinRewriteEnd slice s
  | .burinMachineCheck slice engine thread cause addr inPatch => Sys2Proof.Machine.execBurinMachineCheck slice engine thread cause addr inPatch s
  | .burinSelftest slice engine pass => Sys2Proof.Machine.execBurinSelftest slice engine pass s
  | .lockstepCompare slice pair outcome => Sys2Proof.Machine.execLockstepCompare slice pair outcome s
  | .laneKat slice decrypt unit pass => Sys2Proof.Machine.execLaneKat slice decrypt unit pass s
  | .frameTxStart port => Sys2Proof.Machine.execFrameTxStart port s
  | .frameTxEnd port => Sys2Proof.Machine.execFrameTxEnd port s
  | .injectAdmit ring data => Sys2Proof.Machine.execInjectAdmit ring data s
  | .eventOverflowRecord ring => Sys2Proof.Machine.execEventOverflowRecord ring s
  | .irqHoldoffEnd ring => Sys2Proof.Machine.execIrqHoldoffEnd ring s
  | .icvHoldoffEnd circuit => Sys2Proof.Machine.execIcvHoldoffEnd circuit s
  | .residencySweep => Sys2Proof.Machine.execResidencySweep s
  | .pcsLinkLoss port => Sys2Proof.Machine.execPcsLinkLoss port s
  | .pcsLinkUp port => Sys2Proof.Machine.execPcsLinkUp port s
  | .holdExpire port => Sys2Proof.Machine.execHoldExpire port s
  | .modulePresenceChange port present powerClass => Sys2Proof.Machine.execModulePresenceChange port present powerClass s
  | .serdesLaneEvent lane cause => Sys2Proof.Machine.execSerdesLaneEvent lane cause s
  | .refclk156Loss k => Sys2Proof.Machine.execRefclk156Loss k s
  | .ppsInEdge => Sys2Proof.Machine.execPpsInEdge s
  | .ppsOutEdge => Sys2Proof.Machine.execPpsOutEdge s
  | .agingLapStart => Sys2Proof.Machine.execAgingLapStart s
  | .agingSweepStep bucket => Sys2Proof.Machine.execAgingSweepStep bucket s
  | .proofingStep loc finding => Sys2Proof.Machine.execProofingStep loc finding s
  | .tileScrubStep quad tile cell parityOk => Sys2Proof.Machine.execTileScrubStep quad tile cell parityOk s
  | .counterPairFlush pair => Sys2Proof.Machine.execCounterPairFlush pair s
  | .hbmReadError pc rereadOk reconOk addr target => Sys2Proof.Machine.execHbmReadError pc rereadOk reconOk addr target s
  | .memCorrection inst addr syndrome => Sys2Proof.Machine.execMemCorrection inst addr syndrome s
  | .writebackComplete inst addr => Sys2Proof.Machine.execWritebackComplete inst addr s
  | .hbmRefresh pc bank pulledIn fellDue => Sys2Proof.Machine.execHbmRefresh pc bank pulledIn fellDue s
  | .refreshForced pc bank fellDue => Sys2Proof.Machine.execRefreshForced pc bank fellDue s
  | .hbmRetrainStart pc temperature => Sys2Proof.Machine.execHbmRetrainStart pc temperature s
  | .memberReturn pc workOk => Sys2Proof.Machine.execMemberReturn pc workOk s
  | .hbmScrubStep group stripe corrected bad parityDisagrees targets lapEnd => Sys2Proof.Machine.execHbmScrubStep group stripe corrected bad parityDisagrees targets lapEnd s
  | .ondieScrubStep inst addr found lapEnd => Sys2Proof.Machine.execOndieScrubStep inst addr found lapEnd s
  | .memSpare inst addr how => Sys2Proof.Machine.execMemSpare inst addr how s
  | .groupRebuildDone group switched => Sys2Proof.Machine.execGroupRebuildDone group switched s
  | .groupEvacuationDone group left => Sys2Proof.Machine.execGroupEvacuationDone group left s
  | .faultEvent source cause detail count => Sys2Proof.Machine.execFaultEvent source cause detail count s
  | .retirementStart source => Sys2Proof.Machine.execRetirementStart source s
  | .encPairRetire slice pair => Sys2Proof.Machine.execEncPairRetire slice pair s
  | .decLaneRetire slice lane => Sys2Proof.Machine.execDecLaneRetire slice lane s
  | .burinEngineRetire slice engine => Sys2Proof.Machine.execBurinEngineRetire slice engine s
  | .tileCopyDone quad good => Sys2Proof.Machine.execTileCopyDone quad good s
  | .planeCheckEnd good => Sys2Proof.Machine.execPlaneCheckEnd good s
  | .planeRemove plane => Sys2Proof.Machine.execPlaneRemove plane s
  | .faultHoldoffEnd source => Sys2Proof.Machine.execFaultHoldoffEnd source s
  | .criticalFault sources ended => Sys2Proof.Machine.execCriticalFault sources ended s
  | .injectEvent fn value => Sys2Proof.Machine.execInjectEvent fn value s
  | .injectCorrupt fn value => Sys2Proof.Machine.execInjectCorrupt fn value s
  | .injectCritical fn value => Sys2Proof.Machine.execInjectCritical fn value s
  | .eicSourceEvent source level => Sys2Proof.Machine.execEicSourceEvent source level s
  | .eicPinFiltered source level => Sys2Proof.Machine.execEicPinFiltered source level s
  | .eicNotify ctx => Sys2Proof.Machine.execEicNotify ctx s
  | .eicClaim agent ctx => Sys2Proof.Machine.execEicClaim agent ctx s
  | .eicComplete agent ctx source => Sys2Proof.Machine.execEicComplete agent ctx source s
  | .eicPendSet fn n value => Sys2Proof.Machine.execEicPendSet fn n value s
  | .eicPendClr fn n value => Sys2Proof.Machine.execEicPendClr fn n value s
  | .msixUnmask req vector msgAddr msgData => Sys2Proof.Machine.execMsixUnmask req vector msgAddr msgData s
  | .thermalAlarm sensor quarterDegrees => Sys2Proof.Machine.execThermalAlarm sensor quarterDegrees s
  | .histogramMinute readings => Sys2Proof.Machine.execHistogramMinute readings s
  | .kilnCommit coneKHz eyeMillivolts failing => Sys2Proof.Machine.execKilnCommit coneKHz eyeMillivolts failing s
  | .kilnLogPageWrite failing => Sys2Proof.Machine.execKilnLogPageWrite failing s
  | .watchdogWarning => Sys2Proof.Machine.execWatchdogWarning s
  | .watchdogExpire => Sys2Proof.Machine.execWatchdogExpire s
  | .healthRefresh readings => Sys2Proof.Machine.execHealthRefresh readings s
  | .smbusStatusRead => Sys2Proof.Machine.execSmbusStatusRead s
  | .smbusHealthRead => Sys2Proof.Machine.execSmbusHealthRead s
  | .powerOn => Sys2Proof.Machine.execPowerOn s
  | .resetNAssert cycles => Sys2Proof.Machine.execResetNAssert cycles s
  | .resetNDeassert => Sys2Proof.Machine.execResetNDeassert s
  | .perstAssert => Sys2Proof.Machine.execPerstAssert s
  | .perstDeassert => Sys2Proof.Machine.execPerstDeassert s
  | .pcieHotReset => Sys2Proof.Machine.execPcieHotReset s
  | .softwareDeviceReset fn key => Sys2Proof.Machine.execSoftwareDeviceReset fn key s
  | .rstBlkPort fn n value => Sys2Proof.Machine.execRstBlkPort fn n value s
  | .rstBlkSlice fn value => Sys2Proof.Machine.execRstBlkSlice fn value s
  | .blockResetDone block => Sys2Proof.Machine.execBlockResetDone block s
  | .domainRelease domain => Sys2Proof.Machine.execDomainRelease domain s
  | .domainReady domain => Sys2Proof.Machine.execDomainReady domain s
  | .optionLoadPhaseDone fuseReadsAgree testEn pcieLrev => Sys2Proof.Machine.execOptionLoadPhaseDone fuseReadsAgree testEn pcieLrev s
  | .loadStall => Sys2Proof.Machine.execLoadStall s
  | .loadStallClear => Sys2Proof.Machine.execLoadStallClear s
  | .bootSelect checkA checkB => Sys2Proof.Machine.execBootSelect checkA checkB s
  | .ewethesStart bundles seqSelfTestOk failed => Sys2Proof.Machine.execEwethesStart bundles seqSelfTestOk failed s
  | .bringupEnd => Sys2Proof.Machine.execBringupEnd s
  | .receiveIndexRebuildDone bucket => Sys2Proof.Machine.execReceiveIndexRebuildDone bucket s
  | .refclk156Return k => Sys2Proof.Machine.execRefclk156Return k s
  | .monitorUnmask monitor withinLimits => Sys2Proof.Machine.execMonitorUnmask monitor withinLimits s

end Sys2Proof.Machine
end

