-- ==== Sys2Proof/Claims.lean ====
section
/-! DEFINITION. The words in which claims are stated: the parts of the state that a command leaves as they were, what
it puts out, and a command in execution on a ring. -/

namespace Sys2Proof.Claims

open Sys2Proof.Machine

/-- The parts of the state. -/
inductive Part where
  | pending | mode
  /-- The free-running counter, PTP time and the Kiln Record's powered time. -/
  | time
  /-- The rest of the PTP clock. -/
  | ptp
  /-- Registers other than PMC_CNT_CFG, and PMC_CNT_CFG (whose OVF a count may set). -/
  | regs | cntCfg
  | cnts | latches | out | draws | gen | hif | eic | flt
  /-- The Kiln Record but for its powered time. -/
  | kiln
  | units
  /-- Link states of ports, modules and holds; and the frames on a port's way in and out. -/
  | links | lanes
  | frames | nextFrame | bpm | fab | sched | pol | cps | glz | bur | tabs | fuses | sampBkt | sampLfsr | sampSeq | hbm
  | mgt | pmc | rst | refLost
  deriving DecidableEq, Repr

/-- Whether a key of the register array lies in PMC_CNT_CFG. -/
def inCntCfg (k : Nat) : Prop :=
  RegName.key .pmcCntCfg 0 0 0 ≤ k ∧ k < RegName.key .pmcCntCfg 0 0 0 + 16384

/-- A port's link, lock, module and hold are the same in `x` and `y`. -/
def sameLink (x y : PortState) : Prop :=
  y.link = x.link ∧ y.pcsLock = x.pcsLock ∧ y.present = x.present ∧ y.powered = x.powered ∧
    y.powerClass = x.powerClass ∧ y.holdEnd = x.holdEnd

/-- The frames on a port's way in and out are the same in `x` and `y`. -/
def sameLane (x y : PortState) : Prop := y.rx = x.rx ∧ y.area = x.area ∧ y.path = x.path ∧ y.tx = x.tx

/-- Part `p` of `t` is that of `s`. -/
def SamePart (s t : State) : Part → Prop
  | .pending => t.pending = s.pending
  | .mode => t.mode = s.mode
  | .time => t.now = s.now ∧ t.ptp.time = s.ptp.time ∧ t.kiln.lifeNs = s.kiln.lifeNs
  | .ptp => { t.ptp with time := 0 } = { s.ptp with time := 0 }
  | .regs => ∀ r fn i j, ¬ inCntCfg (RegName.key r fn i j) → t.regOf r fn i j = s.regOf r fn i j
  | .cntCfg => ∀ r fn i j, inCntCfg (RegName.key r fn i j) → t.regOf r fn i j = s.regOf r fn i j
  | .cnts => t.cnts = s.cnts
  | .latches => t.latches = s.latches
  | .out => t.out = s.out
  | .draws => t.draws = s.draws
  | .gen => t.gen = s.gen
  | .hif => t.hif = s.hif
  | .eic => t.eic = s.eic
  | .flt => t.flt = s.flt
  | .kiln => { t.kiln with lifeNs := 0 } = { s.kiln with lifeNs := 0 }
  | .units => t.units = s.units
  | .links => ∀ p, sameLink (s.port p) (t.port p)
  | .lanes => ∀ p, sameLane (s.port p) (t.port p)
  | .frames => t.frames = s.frames
  | .nextFrame => t.nextFrame = s.nextFrame
  | .bpm => t.bpm = s.bpm
  | .fab => t.fab = s.fab
  | .sched => t.sched = s.sched
  | .pol => t.pol = s.pol
  | .cps => t.cps = s.cps
  | .glz => t.glz = s.glz
  | .bur => t.bur = s.bur
  | .tabs => t.tabs = s.tabs
  | .fuses => t.fuses = s.fuses
  | .sampBkt => t.sampBkt = s.sampBkt
  | .sampLfsr => t.sampLfsr = s.sampLfsr
  | .sampSeq => t.sampSeq = s.sampSeq
  | .hbm => t.hbm = s.hbm
  | .mgt => t.mgt = s.mgt
  | .pmc => t.pmc = s.pmc
  | .rst => t.rst = s.rst
  | .refLost => t.refLost = s.refLost

/-- From `s` to `t` nothing changes outside the listed parts. -/
def OnlyIn (ps : List Part) (s t : State) : Prop := ∀ p, p ∉ ps → SamePart s t p

/-- `o` is put out between `s` and `t`. -/
def Emits (s t : State) (o : Out) : Prop := ∃ before after, t.out = s.out ++ before ++ o :: after

/-- Descriptor `d`, with opcode `op`, is in execution on ring `r`, a COMMAND or KEY ring (R383). -/
def Executing (s : State) (r : Ring) (op : Nat) (d : Bytes) : Prop :=
  s.executing r op = some d ∧ ∃ c, (s.ring r).ctx = some c ∧ (c.kind = 1 ∨ c.kind = 2)

/-- The completion of `d`, with this status, INFO and RESULT, is written into the ring slot of the command that was in
execution at `s` (Table 12.8). -/
def Completed (s t : State) (r : Ring) (d : Bytes) (st : Status) (info : Nat) (result : Bytes) : Prop :=
  Emits s t (.hostWrite (s.ringReq r) ((s.ring r).slotAddr (s.ring r).devIdx) (completionBytes d st info result))

/-- The table sequencer may take a step of the command with opcode `op`, a table change, on ring `r`: it is alive, none of
its words is corrupt, the change waits for no commit, and nothing that R285 puts before it waits (R61, R62, R262, R268, R285,
R440). -/
def SeqIdle (s : State) (r : Ring) (op : Nat) : Prop :=
  s.tabs.dead = false ∧ s.flt.corrupt.get 0 0x31 = 0 ∧ s.changeWaits r = false ∧ s.seqHeld r op = false

/-- The versioned tables are in canonical form. -/
def TaggedWf (s : State) : Prop :=
  s.tabs.rules.wf none = true ∧ s.tabs.profiles.wf none = true ∧ s.tabs.em.wf none = true ∧ s.glz.cir.wf [] = true ∧
    s.glz.sa.wf none = true ∧ s.pol.vers.wf [] = true

/-- No earlier frame of its port holds back the lookups of frame `f`, which takes them (R120, R129). -/
def FirstToIssue (s : State) (f : Nat) : Prop :=
  s.frames.wf {} = true ∧ (s.frame f).barred = false ∧
    ∀ g, g < f → (s.frame g).port = (s.frame f).port → s.holdsIssue (s.frame g) = false

/-- Frame `f` is due and its result is sound; it is not metered, asks for no counter, copy or mirror copy, learns
nothing, and sampling is off. -/
def PlainResult (s : State) (f : Nat) : Prop :=
  s.resultDue f = true ∧ (s.frame f).broken = false ∧ s.bit .pmcSampCtrl 0 0 28 = false ∧ s.role (s.frame f) ≠ 2 ∧
    (s.plan (s.frame f)).pol = none ∧ bitOf 78 (s.frame f).rule.data = false ∧ bitOf 48 (s.frame f).rule.data = false ∧
    bitOf 53 (s.frame f).rule.data = false

/-- The versions of a circuit once `v` is written into STAGING (R54): in place of one made there; otherwise the visible
one is marked to die there and `v` is added. -/
def newVersions (s : State) (l : List CirVer) (v : CirVer) : List CirVer :=
  if l.any fun x => s.madeInStaging x.tag then l.map fun x => if s.madeInStaging x.tag then v else x
  else (l.map fun x => if x.tag.visible s.staging then { x with tag := { x.tag with died := s.staging, ds := true } } else x) ++ [v]

/-- Whether the version pool has room for a new version of circuit `c` (R211). -/
def PoolRoom (s : State) (c : Nat) : Prop :=
  s.cirVers c = [] ∨ ((s.cirVers c).any fun x => s.madeInStaging x.tag) = true ∨ s.poolUsed < 65536

/-- Registers whose write stores their fields and does nothing else: no rule gives them a row of their own, a refusal of
a combination, a field kept for another reason than its own encoding, or an effect beside. -/
def plainReg (r : RegName) : Bool :=
  !([RegName.glbSeal, .prtCfg, .prtDomain, .prtBypStage, .prtBypApprove, .parState, .parExtract, .parMatch, .parMask, .parAction,
    .parProgCtrl, .rsaGroupCfg, .emtProofCtrl, .rstDevice, .rstBlkPort, .rstBlkSlice, .fltInject, .fltStatus].contains r) &&
  !([RegName.eicComplete, .eicPendSet, .eicPendClr, .eicCtxCtrl, .pmcSnap, .pmcCnt, .pmcSampCtrl, .mbxCtrl, .pmcUserShadow,
    .pmcUserBw, .pmcUserSnap, .pmcUserSnapTime, .mgtModBudget, .emtHashSeed, .emtProofBase, .emtKeyselCtrl].contains r) &&
  !([RegName.burProg, .burPortCfg, .fabFcCfg, .bpmIclsCfg, .bpmIpoolCfg, .bpmEpoolCfg, .bpmIrsv, .bpmEclsCfg, .bpmDbCfg,
    .hifRctBase, .hifVfGroup, .eicSrcCfg, .pmcCntCfg, .genMkrEn, .hbmRefCtrl, .mixSel, .hifEvtRoute, .parFailAct].contains r) &&
  !([RegName.parPuntRate, .rsaCopyRate, .emtLrnRate, .pmcSampRate, .egsPortShape, .pmcBwCtrl].contains r)

end Sys2Proof.Claims
end

