-- ==== Sys2Proof/Certificates/Slice0/Obligations.lean ====
section
/-! DEFINITION. The statements for the provers, one definition for each obligation of OBLIGATIONS.json. -/

open Sys2Proof Sys2Proof.Machine Sys2Proof.Claims

/-- O1. For every register whose write only stores fields (Claims.plainReg): while the block does not answer, nothing
happens; a 4-byte write by a function that may not write it, or in a mode in which it takes no write, only records a
configuration error; any other 4-byte write replaces the named half, field by field, and records a configuration
error exactly when a field with a reserved encoding kept its value. An 8-byte write of an 8-byte register replaces
both halves at once. In the value that a write leaves, each read/write field holds the bits written when they are no
reserved encoding or are the bits it held, and its old bits otherwise; read-only, write-only and fuse-limited fields
hold their old bits. This holds for every list of disjoint fields. (R4, R5, R6, R42, R165, R501, R537.) -/
def Obligations.RegisterWritesStoreFields : Prop :=
  (∀ (f : Fn) (a : BitVec 26) (v : BitVec 64) (m : RegAt) (s : State),
    findReg a.toNat = some m → plainReg m.name = true → a.toNat % 4 = 0 →
    (s.reachable m.name = false → exec (.registerWrite f a 4 v) s = .next s) ∧
    (s.reachable m.name = true → (m.name.info.writers.contains f.num && m.name.info.when.ok s.mode) = false →
      exec (.registerWrite f a 4 v) s = .next (s.configError f (m.name.addr m.i m.j + m.off))) ∧
    (s.reachable m.name = true → (m.name.info.writers.contains f.num && m.name.info.when.ok s.mode) = true →
      let old := s.regOf m.name (m.name.bank f) m.row m.j
      let new := mergeBytes old m.off 4 (v.toNat % 2 ^ 32)
      let x := applyFields m.name.info.fields old new
      exec (.registerWrite f a 4 v) s = .next
        ((if anyReserved m.name.info.fields old new then s.configError f (m.name.addr m.i m.j + m.off) else s).setRegOf
          m.name (m.name.bank f) m.row m.j x))) ∧
  (∀ (f : Fn) (a : BitVec 26) (v : BitVec 64) (m : RegAt) (s : State),
    findReg a.toNat = some m → plainReg m.name = true → a.toNat % 8 = 0 → isWord a.toNat = false →
    isWord (a.toNat + 4) = false → s.reachable m.name = true →
    (m.name.info.writers.contains f.num && m.name.info.when.ok s.mode) = true →
    let old := s.regOf m.name (m.name.bank f) m.row m.j
    let new := mergeBytes old m.off 8 (v.toNat % 2 ^ 64)
    anyReserved m.name.info.fields old new = false →
    exec (.registerWrite f a 8 v) s = .next
      (s.setRegOf m.name (m.name.bank f) m.row m.j (applyFields m.name.info.fields old new))) ∧
  (∀ (fs : List Field) (old new : Nat), (∀ f ∈ fs, f.lo ≤ f.hi) →
    fs.Pairwise (fun f g => f.hi < g.lo ∨ g.hi < f.lo) →
    ∀ f ∈ fs,
      (f.acc = .rw → bitsOf f.hi f.lo (applyFields fs old new) =
        if bitsOf f.hi f.lo new = bitsOf f.hi f.lo old ∨ f.legal.ok (bitsOf f.hi f.lo new) = true
        then bitsOf f.hi f.lo new else bitsOf f.hi f.lo old) ∧
      (f.acc = .ro ∨ f.acc = .wo ∨ f.acc = .fl → bitsOf f.hi f.lo (applyFields fs old new) = bitsOf f.hi f.lo old))

/-- O2. A read of a hole answers 0 and changes nothing else; a write to one is recorded as a configuration error when
its block answers and is lost otherwise. A read of BAR2 that lies neither in the MSI-X table nor in the pending bit
array answers 0; the address and data of a table entry read back as they were written. A read of HBM_SCRUB_STATUS by
PF0 or PF2 answers the register and clears MIX_LATE. An accepted write of a cage budget register stores it, and
while Ewethes runs each module present in its cages is powered exactly when the class just read is within the new
budget. A 4-byte read of the lower half of a counter answers its lower 32 bits and latches its upper bits; whatever
the counter has become, the next 4-byte read of the upper half answers the latched bits and empties the latch; with
the latch empty such a read answers the live upper half; an 8-byte read answers the whole counter and leaves the
latch alone. One latch serves every function that shares the counter. (R114, R365, R412, R469, R501, R536, R537,
R540.) -/
def Obligations.HolesStatusReadsAndCounterHalves : Prop :=
  (∀ (f : Fn) (a : BitVec 26) (size : Nat) (s : State), isHole f a.toNat size = true →
    exec (.holeAccess (.bar0 f) a size none) s = .next (s.emit (.readData 0))) ∧
  (∀ (f : Fn) (a : BitVec 26) (size : Nat) (v : BitVec 64) (s : State), isHole f a.toNat size = true →
    exec (.holeAccess (.bar0 f) a size (some v)) s =
      .next (if s.blockAnswers a.toNat then s.configError f a.toNat else s)) ∧
  (∀ (q : Requester) (a : BitVec 26) (size : Nat) (s : State), msixAccess q a.toNat size = none →
    (a.toNat < pendingArray q ∨ pendingArray q + 8 ≤ a.toNat) →
    exec (.holeAccess (.bar2 q) a size none) s = .next (s.emit (.readData 0))) ∧
  (∀ (q : Requester) (a : BitVec 26) (size e o : Nat) (v : BitVec 64) (s : State),
    msixAccess q a.toNat size = some (e, o) → o + size ≤ 12 → s.doorbellRing q a.toNat size v.toNat = none →
    ∃ t, exec (.holeAccess (.bar2 q) a size (some v)) s = .next t ∧
      exec (.holeAccess (.bar2 q) a size none) t = .next (t.emit (.readData (v.toNat % 2 ^ (8 * size)))) ∧
      OnlyIn [.regs, .cntCfg, .cnts, .latches, .out, .hif, .eic, .flt, .kiln] s t) ∧
  (∀ (f : Fn) (s : State), f ≠ .pf1 → s.reachable .hbmScrubStatus = true →
    ∃ t, exec (.scrubStatusRead f) s = .next t ∧ t.out = s.out ++ [.readData (s.reg .hbmScrubStatus 0 0)] ∧
      t.reg .hbmScrubStatus 0 0 = withBits 30 30 (s.reg .hbmScrubStatus 0 0) 0 ∧ OnlyIn [.regs, .out] s t) ∧
  (∀ (n : Fin 16) (v : BitVec 32) (classes : List Nat) (s : State), s.reachable .mgtModBudget = true →
    s.mode = .config → (∀ k, k < 8 → bitsOf (4 * k + 3) (4 * k) v.toNat ≤ 8) → s.rst.ewethes = true →
    ∃ t, exec (.modBudgetWrite .pf0 n v classes) s = .next t ∧ t.reg .mgtModBudget 0 n = v.toNat ∧
      (∀ k, k < 8 → (s.port (8 * n.val + k)).present = true →
        (t.port (8 * n.val + k)).powered =
          decide (1 ≤ bitsOf (4 * k + 3) (4 * k) v.toNat ∧
            classes.getD k (s.port (8 * n.val + k)).powerClass ≤ bitsOf (4 * k + 3) (4 * k) v.toNat)) ∧
      OnlyIn [.regs, .cntCfg, .cnts, .out, .hif, .eic, .flt, .kiln, .links, .lanes] s t) ∧
  (∀ (f g : Fn) (a b : BitVec 26) (s u : State), a.toNat % 8 = 0 → b.toNat = a.toNat + 4 →
    seesCnt f a.toNat = true → seesCnt g a.toNat = true → s.counterAnswers a.toNat = true →
    u.counterAnswers a.toNat = true → cntKey g.num a.toNat = cntKey f.num a.toNat →
    (∃ t, exec (.counterHalfRead f a 4) s = .next t ∧
      t.out = s.out ++ [.readData (s.counterAt f a.toNat % 2 ^ 32)] ∧
      (u.latches = t.latches →
        ∃ w, exec (.counterHalfRead g b 4) u = .next w ∧
          w.out = u.out ++ [.readData (s.counterAt f a.toNat / 2 ^ 32)] ∧
          w.latches.get 0 (cntKey f.num a.toNat) = 0 ∧ OnlyIn [.latches, .out] u w) ∧ OnlyIn [.latches, .out] s t) ∧
    (u.latches.get 0 (cntKey g.num a.toNat) = 0 →
      exec (.counterHalfRead g b 4) u = .next (u.emit (.readData (u.counterAt g a.toNat / 2 ^ 32)))) ∧
    exec (.counterHalfRead f a 8) s = .next (s.emit (.readData (s.counterAt f a.toNat))))

/-- O3. For every command c and state s, the step of s with c at the front of its queue is exec c on s with the queue's
rest, and on an empty queue 1 ns passes (the model's choice, log entry 2). (spec/95_what_each_step_holds.md.) -/
def Obligations.StepRunsTheFrontCommand : Prop :=
  (∀ (c : Instr) (rest : List Instr) (s : State),
      step { s with pending := c :: rest } = exec c { s with pending := rest }) ∧
  ∀ s : State, s.pending = [] → step s = .next (s.advance 1)

/-- O4. Whatever command is at the front, a step that ends in a next state leaves exactly the commands that waited
behind it, in their order. No command at any state ends in a fault or a refusal, so every run goes on; what a
command comes to is said by the other statements. (spec/95_what_each_step_holds.md, R29, R38, R386.) -/
def Obligations.EveryStepCompletesInQueueOrder : Prop :=
  (∀ s t : State, step s = .next t → t.pending = s.pending.tail) ∧
  (∀ (i : Instr) (s : State), ∃ t, exec i s = .next t) ∧ ∀ s : State, ∃ t, step s = .next t

/-- O5. GEN_COMMIT, with no work before it (R285), starts at once when no other commit is armed or waits and no flush or
abort has begun, and waits its turn otherwise. Arming makes STAGING the CURRENT generation and names it armed; the
immediate trigger switches every port's latch to it, the marker trigger every port but the recognised marker ports
that are UP, and the time trigger none. A time less than 2 µs ahead completes with GEN_TIME_PAST, one more than 60 s
ahead with GEN_BAD_TRIGGER, and a window still full at the timeout with GEN_FULL. (R51, R61, R63, R64, R65, R67,
R71, Table 02.2, Table 02.4.) -/
def Obligations.CommitsStartAndArm : Prop :=
  (∀ (r : Ring) (d : Bytes) (g : Trigger) (s : State), Executing s r 0x0010 d → s.tabs.dead = false →
    s.flt.corrupt.get 0 0x31 = 0 → s.seqHeld r 0x0010 = false → (∀ w ∈ s.gen.waiting, w.ring ≠ r.val) → (∀ a, s.gen.armed = some a → a.ring ≠ r.val) →
    triggerOf d = some g →
    ∃ t, exec (.genCommit r) s = .next t ∧
      (s.gen.armed = none → s.fiveBusy = false → s.gen.waiting = [] → t.gen = { s.gen with waiting := [⟨r, g, some s.now⟩] }) ∧
      (s.gen.armed ≠ none ∨ s.fiveBusy = true → t.gen = { s.gen with waiting := s.gen.waiting ++ [⟨r, g, none⟩] }) ∧
      OnlyIn [.regs, .cntCfg, .cnts, .out, .draws, .gen, .hif, .eic, .flt, .kiln, .tabs] s t) ∧
  (∀ (r : Ring) (at_ : Nat) (rest : List Waiting) (s : State), s.gen.waiting = ⟨r, .immediate, some at_⟩ :: rest →
    s.gen.armed = none → s.liveCount ≤ 15 → s.tabs.dead = false → s.flt.corrupt.get 0 0x31 = 0 →
    ∃ t, exec .genCommitArm s = .next t ∧ t.gen.current = s.staging ∧ t.gen.oldest = s.gen.oldest ∧
      t.gen.armed = some ⟨r, .immediate, s.staging, s.now⟩ ∧ t.gen.waiting = rest ∧
      (∀ p : Port, (t.portGen p).latch = s.staging) ∧ OnlyIn [.regs, .cntCfg, .cnts, .out, .draws, .gen, .hif, .eic, .flt, .kiln, .frames, .sched, .cps, .glz, .tabs] s t) ∧
  (∀ (r : Ring) (at_ m : Nat) (rest : List Waiting) (s : State), s.gen.waiting = ⟨r, .marker m, some at_⟩ :: rest →
    s.gen.armed = none → s.liveCount ≤ 15 → s.tabs.dead = false → s.flt.corrupt.get 0 0x31 = 0 →
    ∃ t, exec .genCommitArm s = .next t ∧ t.gen.current = s.staging ∧ t.gen.oldest = s.gen.oldest ∧
      t.gen.armed = some ⟨r, .marker m, s.staging, s.now⟩ ∧ t.gen.waiting = rest ∧
      (∀ p : Port, (t.portGen p).latch =
        if s.markerPort p && (s.port p).link = .up then (s.portGen p).latch else s.staging) ∧ OnlyIn [.regs, .cntCfg, .cnts, .out, .draws, .gen, .hif, .eic, .flt, .kiln, .frames, .sched, .cps, .glz, .tabs] s t) ∧
  (∀ (r : Ring) (at_ sec ns : Nat) (rest : List Waiting) (s : State), s.gen.waiting = ⟨r, .time sec ns, some at_⟩ :: rest →
    s.gen.armed = none → s.liveCount ≤ 15 → s.tabs.dead = false → s.flt.corrupt.get 0 0x31 = 0 → s.ptp.time + ptpUnits 0 2000 ≤ ptpUnits sec ns →
    ptpUnits sec ns ≤ s.ptp.time + ptpUnits 60 0 →
    ∃ t, exec .genCommitArm s = .next t ∧ t.gen.current = s.staging ∧ t.gen.oldest = s.gen.oldest ∧
      t.gen.armed = some ⟨r, .time sec ns, s.staging, s.now⟩ ∧ t.gen.waiting = rest ∧
      t.gen.ports = s.gen.ports ∧ OnlyIn [.regs, .cntCfg, .cnts, .out, .draws, .gen, .hif, .eic, .flt, .kiln, .frames, .sched, .cps, .glz, .tabs] s t) ∧
  (∀ (r : Ring) (d : Bytes) (at_ sec ns : Nat) (rest : List Waiting) (s : State),
    s.gen.waiting = ⟨r, .time sec ns, some at_⟩ :: rest → s.gen.armed = none → s.liveCount ≤ 15 → s.tabs.dead = false → s.flt.corrupt.get 0 0x31 = 0 →
    (s.ring r).inExec = some d → (∃ c, (s.ring r).ctx = some c ∧ c.kind = 1) →
    (ptpUnits sec ns < s.ptp.time + ptpUnits 0 2000 →
      ∃ t, exec .genCommitArm s = .next t ∧ Completed s t r d .genTimePast 0 [] ∧ (t.ring r).halted = true ∧
        t.gen.current = s.gen.current ∧ t.gen.armed = none) ∧
    (s.ptp.time + ptpUnits 60 0 < ptpUnits sec ns →
      ∃ t, exec .genCommitArm s = .next t ∧ Completed s t r d .genBadTrigger 0 [] ∧ (t.ring r).halted = true ∧
        t.gen.current = s.gen.current ∧ t.gen.armed = none)) ∧
  (∀ (r : Ring) (d : Bytes) (g : Trigger) (at_ : Nat) (rest : List Waiting) (s : State),
    s.gen.waiting = ⟨r, g, some at_⟩ :: rest → s.gen.armed = none → 15 < s.liveCount →
    (s.ring r).inExec = some d → (∃ c, (s.ring r).ctx = some c ∧ c.kind = 1) →
    ∃ t, exec .genCommitTimeout s = .next t ∧ Completed s t r d .genFull 0 [] ∧ (t.ring r).halted = true ∧
      t.now = max s.now (at_ + s.fld .genCommitTimeout 0 0 13 0 * 1000000) ∧ t.gen.current = s.gen.current ∧
      t.gen.armed = none ∧ OnlyIn [.time, .cntCfg, .cnts, .out, .gen, .hif, .eic, .flt, .kiln] s t)

/-- O6. At the marker timeout every port that has not switched switches and is marked late; at T + 1 µs of PTP time
every port that has not switched switches. A commit whose ports have all switched completes with OK, or with
GEN_MARKER_LATE and the mask of the late ports, and is no longer armed. (R63, R70, R72, Table 02.4.) -/
def Obligations.CommitsSwitchPortsAndComplete : Prop :=
  (∀ (r m at_ : Nat) (g : Gen) (s : State), s.gen.armed = some ⟨r, .marker m, g, at_⟩ → s.unswitchedPorts ≠ [] →
    ∃ t, exec .markerTimeout s = .next t ∧ t.now = max s.now (at_ + s.fld .genMkrCtrl 0 0 31 20 * 1000000) ∧
      (∀ p : Port, t.portGen p = if s.unswitched p then ⟨g, true⟩ else s.portGen p) ∧ t.gen.armed = s.gen.armed ∧
      OnlyIn [.time, .gen] s t) ∧
  (∀ (r sec ns at_ : Nat) (g : Gen) (s : State), s.gen.armed = some ⟨r, .time sec ns, g, at_⟩ → s.unswitchedPorts ≠ [] →
    - 2 ^ 32 < s.ptp.rate →
    ∃ t, exec .timeTriggerDeadline s = .next t ∧ ptpUnits sec ns + ptpUnits 0 1000 ≤ t.ptp.time ∧
      (∀ p : Port, t.portGen p = if s.unswitched p then ⟨g, false⟩ else s.portGen p) ∧ t.gen.armed = s.gen.armed ∧
      OnlyIn [.time, .gen] s t) ∧
  (∀ (r : Ring) (tr : Trigger) (at_ : Nat) (g : Gen) (d : Bytes) (s : State), s.gen.armed = some ⟨r, tr, g, at_⟩ →
    s.unswitchedPorts = [] → (s.ring r).inExec = some d → (∃ c, (s.ring r).ctx = some c ∧ c.kind = 1) →
    ∃ t, exec .genCommitComplete s = .next t ∧ t.gen.armed = none ∧ t.gen.current = s.gen.current ∧
      (s.lateMask = 0 → Completed s t r d .ok g.toNat []) ∧
      (s.lateMask ≠ 0 → Completed s t r d .genMarkerLate g.toNat (leBytes 16 s.lateMask)) ∧ OnlyIn [.cntCfg, .cnts, .out, .gen, .hif, .eic, .flt, .kiln] s t)

/-- O7. GEN_ABORT with nothing armed and nothing before it (R285), given steps enough, removes every rule, profile,
exact-match entry and route born in STAGING, clears DIED of those that die in it, empties its change log and
completes with OK. A settle with no work of a higher class waiting, given steps enough, marks every entry of the
oldest generation settled and removes those that died in it. The oldest generation retires when it is not CURRENT,
settled, on no latch and without references. (R49, R52, R54, R55, R56, R60, Table 02.2.) -/
def Obligations.GenerationsAreUndoneSettledAndRetired : Prop :=
  (∀ (r : Ring) (d : Bytes) (s : State), Executing s r 0x0011 d → SeqIdle s r 0x0011 → s.tabs.flushWait = [] → s.gen.armed = none →
    TaggedWf s →
    ∃ (t : State) (n : Nat), (∀ m, n ≤ m → exec (.genAbort r m) s = .next t) ∧
      (∀ k, t.ruleAt k = (s.ruleAt k).bind fun c => (abortTag s.staging c.tag).map fun g => { c with tag := g }) ∧
      (∀ k, t.profAt k = (s.profAt k).bind fun c => (abortTag s.staging c.tag).map fun g => { c with tag := g }) ∧
      (∀ k, t.slot k = (s.slot k).bind fun c => (abortTag s.staging c.tag).map fun g => { c with tag := g }) ∧
      t.tabs.routes = s.tabs.routes.filterMap (fun c => (abortTag s.staging c.tag).map fun g => { c with tag := g }) ∧
      t.logUsed s.staging = 0 ∧ (∀ b ∈ t.gen.bindings, b.1 ≠ s.staging.toNat) ∧
      Completed s t r d .ok (s.logUsed s.staging) [] ∧ OnlyIn [.regs, .cntCfg, .cnts, .out, .draws, .gen, .hif, .eic, .flt, .kiln, .pol, .glz, .tabs, .hbm] s t) ∧
  (∀ s : State, s.gen.settled = false → s.tabs.dead = false → s.flt.corrupt.get 0 0x31 = 0 → s.seqAhead 3 = false →
    TaggedWf s →
    ∃ (t : State) (n : Nat), (∀ m, n ≤ m → exec (.genSettle m) s = .next t) ∧ t.gen = { s.gen with settled := true } ∧
      (∀ k, t.ruleAt k = (s.ruleAt k).bind fun c => (settleTag s.gen.oldest c.tag).map fun g => { c with tag := g }) ∧
      (∀ k, t.profAt k = (s.profAt k).bind fun c => (settleTag s.gen.oldest c.tag).map fun g => { c with tag := g }) ∧
      (∀ k, t.slot k = (s.slot k).bind fun c => (settleTag s.gen.oldest c.tag).map fun g => { c with tag := g }) ∧
      t.tabs.routes = s.tabs.routes.filterMap (fun c => (settleTag s.gen.oldest c.tag).map fun g => { c with tag := g }) ∧
      OnlyIn [.out, .gen, .tabs, .glz, .pol] s t) ∧
  (∀ s : State, s.gen.oldest ≠ s.gen.current → s.tabs.dead = false → s.gen.settled = true →
    s.latched s.gen.oldest = false → s.gen.refs.get 0 s.gen.oldest.toNat = 0 →
    ∃ t, exec .genRetire s = .next t ∧ t.gen.oldest = s.gen.oldest + 1 ∧ t.gen.current = s.gen.current ∧
      t.gen.settled = false ∧ t.gen.armed = s.gen.armed ∧ t.gen.refs = s.gen.refs ∧ OnlyIn [.gen] s t) ∧
  (∀ (d : Gen) (x : VTag), d ≠ x.died ∨ x.ds = false →
    settleTag d x = some { x with bs := x.bs || x.born = d }) ∧
  (∀ (d : Gen) (x : VTag), x.ds = true → x.died = d → settleTag d x = none) ∧
  (∀ (g : Gen) (x : VTag), x.bs = false → x.born = g → abortTag g x = none) ∧
  (∀ (g : Gen) (x : VTag), x.bs = true ∨ x.born ≠ g → x.ds = true → x.died = g →
    abortTag g x = some { x with died := 0, ds := false })

/-- O8. From every state whose window holds 2 to 16 live generations (CURRENT lies at most 14 after the oldest), every
step of the block, whatever the command, leaves a state whose window does, and STAGING is CURRENT + 1 modulo 2^16.
The live generations are STAGING, CURRENT and the DRAINING ones, of which there are as many as CURRENT lies after
the oldest; their number is (STAGING − OLDEST) mod 2^16 + 1. (R49.) -/
def Obligations.LiveGenerationsStayInTheirWindow : Prop :=
  ∀ s t : State, (s.gen.current - s.gen.oldest).toNat ≤ 14 → step s = .next t →
    (t.gen.current - t.gen.oldest).toNat ≤ 14 ∧ t.liveCount = (t.staging - t.gen.oldest).toNat + 1 ∧
      2 ≤ t.liveCount ∧ t.liveCount ≤ 16 ∧ t.staging.toNat = (t.gen.current.toNat + 1) % 65536 ∧
      (∀ g, t.live g = true ↔
        g = t.staging ∨ (t.gen.current - g).toNat ≤ (t.gen.current - t.gen.oldest).toNat)

/-- O9. Where the block answers and the writer has the role: a write of PRT_CFG with a listed mode stores it while the
port stays disabled, and brings an idle port to TRAINING when it sets EN; clearing EN disables the port, whose
module the device then tells to stop transmitting and whose transmitter is quiet once no frame is being sent; a
write that names a reserved SPEED, LANES or FEC keeps that field, stores the others and is logged. In CONFIG,
unsealed, a disabled port of an unlocked slice takes its new domain, and a port made BLACK loses its marker enable.
PF0 stages and PF1 approves bypass classes while the disable fuse is not blown; under the seal no bit is set. The
gate update makes the effective set the intersection, or 0 once the fuse is blown. CFG_SEAL is set by PF0. Outside
the writer's role the write is only logged. (R6, R41, R42, R84, R88, R89, R90, R91, R92, R95, R103, R110.) -/
def Obligations.PortRegistersTakeTheirWrites : Prop :=
  (∀ (p : Port) (v : BitVec 32) (s : State), s.reachable .prtCfg = true → portModeOk (bitsOf 9 0 v.toNat) = true →
    ¬ (bitsOf 5 4 (bitsOf 9 0 v.toNat) = 2 ∧ p.val % 2 = 1) → s.absorbed p = false →
    bitOf 0 (s.reg .prtCfg p 0) = false → bitOf 0 (bitsOf 9 0 v.toNat) = false →
    exec (.prtCfgWrite .pf0 p v) s = .next (s.setReg .prtCfg p 0 (bitsOf 9 0 v.toNat))) ∧
  (∀ (p : Port) (v : BitVec 32) (s : State), s.reachable .prtCfg = true → portModeOk (bitsOf 9 0 v.toNat) = true →
    ¬ (bitsOf 5 4 (bitsOf 9 0 v.toNat) = 2 ∧ p.val % 2 = 1) → s.absorbed p = false → s.mode ≠ .standby →
    bitOf 0 (s.reg .prtCfg p 0) = false → bitOf 0 (bitsOf 9 0 v.toNat) = true → s.rst.blocks = [] →
    ∃ t, exec (.prtCfgWrite .pf0 p v) s = .next t ∧ (t.port p).link = .training ∧
      t.reg .prtCfg p 0 = bitsOf 9 0 v.toNat ∧ OnlyIn [.regs, .cntCfg, .cnts, .out, .gen, .hif, .eic, .flt, .kiln, .links, .lanes, .frames, .bpm, .fab, .sched, .cps, .glz, .bur] s t) ∧
  (∀ (p : Port) (v : BitVec 32) (s : State), s.reachable .prtCfg = true → portModeOk (bitsOf 9 0 v.toNat) = true →
    ¬ (bitsOf 5 4 (bitsOf 9 0 v.toNat) = 2 ∧ p.val % 2 = 1) → s.absorbed p = false →
    bitOf 0 (s.reg .prtCfg p 0) = true → bitOf 0 (bitsOf 9 0 v.toNat) = false →
    ∃ t, exec (.prtCfgWrite .pf0 p v) s = .next t ∧ (t.port p).link = .disabled ∧
      t.reg .prtCfg p 0 = bitsOf 9 0 v.toNat ∧ t.modTxdis p = true ∧
      ((t.port p).tx = none → t.transmitter p = .quiet) ∧ OnlyIn [.regs, .cntCfg, .cnts, .out, .gen, .hif, .eic, .flt, .kiln, .links, .lanes, .frames, .bpm, .fab, .sched, .cps, .glz, .bur] s t) ∧
  (∀ (p : Port) (v : BitVec 32) (s : State), s.reachable .prtCfg = true → s.absorbed p = false →
    (let x := prtCfgKept (s.reg .prtCfg p 0) v.toNat
     x ≠ bitsOf 9 0 v.toNat → portModeOk x = true → ¬ (bitsOf 5 4 x = 2 ∧ p.val % 2 = 1) →
     bitOf 0 (s.reg .prtCfg p 0) = false → bitOf 0 v.toNat = false →
     exec (.prtCfgWrite .pf0 p v) s = .next ((s.configError .pf0 (RegName.addr .prtCfg p 0)).setReg .prtCfg p 0 x))) ∧
  (∀ old v : Nat,
    bitsOf 3 1 (prtCfgKept old v) = (if bitsOf 3 1 v ≤ 5 then bitsOf 3 1 v else bitsOf 3 1 old) ∧
    bitsOf 5 4 (prtCfgKept old v) = (if bitsOf 5 4 v ≤ 2 then bitsOf 5 4 v else bitsOf 5 4 old) ∧
    bitsOf 7 6 (prtCfgKept old v) = (if bitsOf 7 6 v ≤ 1 then bitsOf 7 6 v else bitsOf 7 6 old) ∧
    bitsOf 0 0 (prtCfgKept old v) = bitsOf 0 0 v ∧ bitsOf 9 8 (prtCfgKept old v) = bitsOf 9 8 v) ∧
  (∀ (p : Port) (v : BitVec 32) (s : State), s.reachable .prtDomain = true → s.mode = .config →
    s.bit .glbSeal 0 0 0 = false → s.portOn p = false → s.fuses.domLock.testBit (p.val / 8) = false →
    bitOf 0 v.toNat ≠ s.black p →
    exec (.prtDomainWrite .pf0 p v) s = .next
      (if bitOf 0 v.toNat then
        (s.setReg .prtDomain p 0 1).setReg .genMkrEn 0 (p.val / 32)
          (withBits (p.val % 32) (p.val % 32) ((s.setReg .prtDomain p 0 1).reg .genMkrEn 0 (p.val / 32)) 0)
       else s.setReg .prtDomain p 0 0)) ∧
  (∀ (v : BitVec 32) (s : State), s.reachable .prtBypStage = true → s.fuses.bypDis = false →
    (s.bit .glbSeal 0 0 0 = false ∨ bitsOf 15 0 v.toNat &&& s.reg .prtBypStage 0 0 = bitsOf 15 0 v.toNat) →
    exec (.prtBypStageWrite .pf0 v) s = .next (s.setReg .prtBypStage 0 0 (bitsOf 15 0 v.toNat))) ∧
  (∀ (v : BitVec 32) (s : State), s.reachable .prtBypApprove = true → s.fuses.bypDis = false →
    (s.bit .glbSeal 0 0 0 = false ∨ bitsOf 15 0 v.toNat &&& s.reg .prtBypApprove 0 0 = bitsOf 15 0 v.toNat) →
    exec (.prtBypApproveWrite .pf1 v) s = .next (s.setReg .prtBypApprove 0 0 (bitsOf 15 0 v.toNat))) ∧
  (∀ s : State, exec .bypassGateUpdate s = .next (s.setReg .prtBypEffective 0 0
    (if s.fuses.bypDis then 0 else s.reg .prtBypStage 0 0 &&& s.reg .prtBypApprove 0 0))) ∧
  (∀ s : State, s.reachable .glbSeal = true → exec (.cfgSealSet .pf0) s = .next (s.setReg .glbSeal 0 0 1)) ∧
  (∀ (f : Fn) (p : Port) (v : BitVec 32) (s : State), s.reachable .prtCfg = true → f ≠ .pf0 →
    exec (.prtCfgWrite f p v) s = .next (s.configError f (RegName.addr .prtCfg p 0)))

/-- O10. A link loss declared in UP takes a port to HOLD with its hold time running, or to DOWN when the hold time is 0;
so do a module that is pulled out and a lost 156.25 MHz reference for each port of its slices. A hold that expires
takes the port to DOWN. Link up takes an enabled port whose lanes and reference allow it to UP. A module that is
plugged in while Ewethes runs is powered exactly when its class is within the cage's budget. A returned reference is
no longer counted lost. An event of a lane whose port trains or runs is a fault event of the lane's source. (R96,
R97, R98, R99, R100, R101, R427, R469, R553.) -/
def Obligations.LinksRiseAndFall : Prop :=
  (∀ (p : Port) (s : State), (s.port p).link = .up → s.fld .prtHoldTime p 0 9 0 ≠ 0 →
    ∃ t, exec (.pcsLinkLoss p) s = .next t ∧ (t.port p).link = .hold ∧ (t.port p).pcsLock = false ∧
      (t.port p).holdEnd = s.now + s.fld .prtHoldTime p 0 9 0 * 1000000 ∧ (∀ q, q ≠ p.val → sameLink (s.port q) (t.port q)) ∧
      OnlyIn [.cntCfg, .cnts, .out, .gen, .hif, .eic, .kiln, .links, .lanes, .frames, .bpm, .fab, .sched, .cps, .glz, .bur] s t) ∧
  (∀ (p : Port) (s : State), (s.port p).link = .up → s.fld .prtHoldTime p 0 9 0 = 0 →
    ∃ t, exec (.pcsLinkLoss p) s = .next t ∧ (t.port p).link = .down ∧ (∀ q, q ≠ p.val → sameLink (s.port q) (t.port q)) ∧
      OnlyIn [.cntCfg, .cnts, .out, .gen, .hif, .eic, .kiln, .links, .lanes, .frames, .bpm, .fab, .sched, .cps, .glz, .bur] s t) ∧
  (∀ (p : Port) (s : State), (s.port p).link = .hold →
    ∃ t, exec (.holdExpire p) s = .next t ∧ (t.port p).link = .down ∧ t.now = max s.now (s.port p).holdEnd ∧
      (∀ q, q ≠ p.val → sameLink (s.port q) (t.port q)) ∧ OnlyIn [.time, .cntCfg, .cnts, .out, .gen, .hif, .eic, .links, .lanes, .frames, .bpm, .fab, .sched, .cps, .glz, .bur] s t) ∧
  (∀ (p : Port) (s : State), s.linkable p = true → (s.port p).link ≠ .disabled →
    ∃ t, exec (.pcsLinkUp p) s = .next t ∧ (t.port p).link = .up ∧ (t.port p).pcsLock = true ∧
      (∀ q, q ≠ p.val → sameLink (s.port q) (t.port q)) ∧ OnlyIn [.cntCfg, .cnts, .out, .gen, .hif, .eic, .links, .lanes, .frames, .bpm, .fab, .sched, .cps, .glz, .bur] s t) ∧
  (∀ (p : Port) (cls : Nat) (s : State), (s.port p).present = true → (s.port p).link = .up →
    ∃ t, exec (.modulePresenceChange p false cls) s = .next t ∧ (t.port p).present = false ∧
      (t.port p).powered = false ∧ ((t.port p).link = .hold ∨ (t.port p).link = .down) ∧ OnlyIn [.cntCfg, .cnts, .out, .gen, .hif, .eic, .kiln, .links, .lanes, .frames, .bpm, .fab, .sched, .cps, .glz, .bur] s t) ∧
  (∀ (p : Port) (cls : Nat) (s : State), (s.port p).present = false → s.rst.ewethes = true →
    ∃ t, exec (.modulePresenceChange p true cls) s = .next t ∧ (t.port p).present = true ∧ (t.port p).powerClass = cls ∧
      (let b := s.fld .mgtModBudget 0 (p.val / 8) (4 * (p.val % 8) + 3) (4 * (p.val % 8))
       (t.port p).powered = decide (1 ≤ b ∧ cls ≤ b)) ∧ OnlyIn [.links] s t) ∧
  (∀ (k : Fin 8) (s : State), s.refLost.contains k.val = false →
    ∃ t, exec (.refclk156Loss k) s = .next t ∧ t.refLost = k.val :: s.refLost ∧
      (∀ i, i < 16 → (t.port (16 * k.val + i)).link ≠ .up ∧ (t.port (16 * k.val + i)).pcsLock = false) ∧
      OnlyIn [.cntCfg, .cnts, .out, .gen, .hif, .eic, .kiln, .links, .lanes, .frames, .bpm, .fab, .sched, .cps, .glz, .bur, .refLost] s t) ∧
  (∀ (k : Fin 8) (s : State), ∃ t, exec (.refclk156Return k) s = .next t ∧ k.val ∉ t.refLost ∧
      (∀ j, j ≠ k.val → (j ∈ t.refLost ↔ j ∈ s.refLost)) ∧ OnlyIn [.refLost] s t) ∧
  (∀ (l : Lane) (p : Nat) (c : BitVec 8) (s : State), s.lanePort l = some p →
    ((s.port p).link = .training ∨ (s.port p).link = .up ∨ (s.port p).link = .hold) → s.refLost.contains (p / 16) = false →
    (s.fsrc (laneSource l)).retired = false →
    ∃ t, exec (.serdesLaneEvent l c) s = .next t ∧ (t.fsrc (laneSource l)).flag = true ∧ OnlyIn [.cntCfg, .cnts, .out, .gen, .hif, .eic, .flt, .kiln, .links, .lanes, .frames, .bpm, .fab, .sched, .cps, .glz, .bur] s t)

/-- O11. PTP_ADJUST with operands in range completes with OK: SET makes PTP time VALUE seconds and NS nanoseconds, STEP
adds VALUE ns, RATE replaces the rate adjustment, SOURCE selects the 10 MHz input, which is in use only within its
window. The input's leaving its window and its return change the source in use. A 1PPS input edge writes a PPS_IN
record of PTP time on an open control ring, and the output edge emits a pulse at a whole second once PTP time has
been set. (R107, R378, R394, R553, R564.) -/
def Obligations.PtpClockIsSetAndAdjusted : Prop :=
  (∀ (r : Ring) (d : Bytes) (s : State), Executing s r 0x0084 d → ptpOp d = 1 → ptpNs d < 1000000000 →
    ∃ t, exec (.ptpSet r) s = .next t ∧ t.ptp.time = ptpUnits (ptpValue d % 2 ^ 48) (ptpNs d) ∧ t.ptp.isSet = true ∧
      t.ptp.rate = s.ptp.rate ∧ Completed s t r d .ok 0 [] ∧ OnlyIn [.time, .ptp, .cntCfg, .cnts, .out, .hif, .eic, .flt, .kiln] s t) ∧
  (∀ (r : Ring) (d : Bytes) (s : State), Executing s r 0x0084 d → ptpOp d = 2 → ptpNs d < 1000000000 →
    (ptpSigned d).natAbs < 2 ^ 40 → 0 ≤ (s.ptp.time : Int) + ptpSigned d * 2 ^ 32 →
    (s.ptp.time : Int) + ptpSigned d * 2 ^ 32 < ptpUnits (2 ^ 48) 0 →
    ∃ t, exec (.ptpStep r) s = .next t ∧ (t.ptp.time : Int) = s.ptp.time + ptpSigned d * 2 ^ 32 ∧
      t.ptp.isSet = s.ptp.isSet ∧ Completed s t r d .ok 0 [] ∧ OnlyIn [.time, .ptp, .cntCfg, .cnts, .out, .hif, .eic, .flt, .kiln] s t) ∧
  (∀ (r : Ring) (d : Bytes) (s : State), Executing s r 0x0084 d → ptpOp d = 3 → ptpNs d < 1000000000 →
    (ptpSigned d).natAbs ≤ 4294967 →
    ∃ t, exec (.ptpRate r) s = .next t ∧ t.ptp = { s.ptp with rate := ptpSigned d } ∧ Completed s t r d .ok 0 [] ∧
      OnlyIn [.time, .ptp, .cntCfg, .cnts, .out, .hif, .eic, .flt, .kiln] s t) ∧
  (∀ (r : Ring) (w : Bool) (d : Bytes) (s : State), Executing s r 0x0084 d → ptpOp d = 4 → ptpNs d = 0 → ptpValue d ≤ 1 →
    ∃ t, exec (.ptpSource r w) s = .next t ∧
      t.ptp = { s.ptp with sel := decide (ptpValue d = 1), inUse := decide (ptpValue d = 1) && w } ∧
      Completed s t r d .ok 0 [] ∧ OnlyIn [.time, .ptp, .cntCfg, .cnts, .out, .hif, .eic, .flt, .kiln] s t) ∧
  (∀ s : State, exec .ptpSourceRevert s = .next { s with ptp := { s.ptp with inUse := false } }) ∧
  (∀ s : State, exec .ptpSourceReturn s = .next { s with ptp := { s.ptp with inUse := s.ptp.sel } }) ∧
  (∀ (c : RingCtx) (s : State),
    (let r := bitsOf 11 0 (s.regOf .hifEvtRoute 0 0 0)
     bitOf 15 (s.regOf .hifEvtRoute 0 0 0) = true → s.ringIs r 5 .pf0 = true → (s.ring r).ctx = some c →
     (s.ring r).full = false → (s.ring r).lost = 0 →
     ∃ t b, exec .ppsInEdge s = .next t ∧ Emits s t (.hostWrite (s.ringReq r) ((s.ring r).slotAddr (s.ring r).devIdx) b) ∧
       leAt b 0 2 = 0x0041 ∧ leAt b 0x18 6 = s.ptpSec % 2 ^ 48 ∧ leAt b 0x20 4 = s.ptpNano ∧
       (t.ring r).devIdx = ((s.ring r).devIdx + 1) % 2 ^ 32 ∧ OnlyIn [.cntCfg, .cnts, .out, .hif, .eic] s t)) ∧
  (∀ s : State, s.ptp.isSet = true → -(2 ^ 32) < s.ptp.rate →
    ∃ t, exec .ppsOutEdge s = .next t ∧ Emits s t .pps ∧ ptpUnits (s.ptpSec + 1) 0 ≤ t.ptp.time ∧ OnlyIn [.time, .cntCfg, .cnts, .out] s t)

/-- O12. In FORWARD and FACTORY_TEST a frame that starts on a port that is UP, with room in the landing area, takes the
next number, the port's latched generation and the time of its start, and is being received. In another mode, or on
a port that is not UP, it is only counted. The last byte of a frame with a right FCS, a permitted length and another
EtherType than MAC control leaves the frame in the landing area without its FCS; a wrong FCS, a wrong length or MAC
control discards it. (R17, R57, R58, R66, R86, R87, R104, R117, R314, R512.) -/
def Obligations.FramesAreReceived : Prop :=
  (∀ (p : Port) (dt : Nat) (bytes : Bytes) (e : RxEnd) (s : State), (s.port p).rx = none →
    (s.mode = .forward ∨ s.mode = .factoryTest) → (s.port p).link = .up → s.landed p + bytes.length ≤ s.landingSize p →
    ∃ t, exec (.frameStart p dt bytes e) s = .next t ∧ (t.port p).rx = some s.nextFrame ∧ t.nextFrame = s.nextFrame + 1 ∧
      t.now = s.now + dt ∧
      (let x := t.frame s.nextFrame
       x.origin = .wire ∧ x.port = p.val ∧ x.bytes = bytes ∧ x.ended = false ∧ x.ing = .landing ∧ x.eg = .none ∧ x.sofNs = s.now + dt ∧
       x.slice = p.val / 8 ∧ x.rxError = decide (e = .error) ∧ x.gen = (t.portGen p).latch) ∧
      (∀ g, g ≠ s.nextFrame → t.frame g = s.frame g) ∧ (∀ q : Port, q ≠ p → t.port q = s.port q) ∧
      OnlyIn [.time, .gen, .lanes, .frames, .nextFrame, .pmc] s t) ∧
  (∀ (p : Port) (dt : Nat) (bytes : Bytes) (e : RxEnd) (s : State), (s.port p).rx = none →
    (s.mode ≠ .forward → s.mode ≠ .factoryTest →
      exec (.frameStart p dt bytes e) s = .next ((s.advance dt).bump (cntModeDisc p))) ∧
    (s.mode = .forward ∨ s.mode = .factoryTest → (s.port p).link ≠ .up →
      exec (.frameStart p dt bytes e) s = .next ((s.advance dt).bump (cntNotUp p)))) ∧
  (∀ (f : Nat) (s : State), (s.port (s.frame f).port).rx = some f → (s.frame f).rxError = false →
    fcsOk (s.frame f).bytes = true → 64 ≤ (s.frame f).bytes.length →
    (s.frame f).bytes.length ≤ (if s.black (s.frame f).port then 10368 else 10240) →
    etherTypeOf (s.frame f).body ≠ 0x8808 → (s.frame f).marker = false → (∀ k, (s.frame f).walk.st ≠ .failed k) →
    ∃ t, exec (.frameEnd f) s = .next t ∧ (t.port (s.frame f).port).rx = none ∧
      t.frame f = { s.frame f with bytes := (s.frame f).body, ended := true } ∧ (∀ g, g ≠ f → t.frame g = s.frame g) ∧
      OnlyIn [.cntCfg, .cnts, .lanes, .frames] s t) ∧
  (∀ (f : Nat) (s : State), (s.port (s.frame f).port).rx = some f →
    ((s.frame f).rxError = true ∨ fcsOk (s.frame f).bytes = false ∨ (s.frame f).bytes.length < 64 ∨
      (if s.black (s.frame f).port then 10368 else 10240) < (s.frame f).bytes.length ∨ etherTypeOf (s.frame f).body = 0x8808) →
    ∃ t, exec (.frameEnd f) s = .next t ∧ (t.port (s.frame f).port).rx = none ∧ t.frame f = {} ∧ OnlyIn [.cntCfg, .cnts, .out, .gen, .hif, .eic, .lanes, .frames, .bpm, .fab, .sched, .cps, .glz, .bur, .tabs, .sampBkt] s t)

/-- O13. The MAC of a port that is UP takes the frame at the head of its transmit path. At a BLACK port it passes only
with a lockstep proof, or a bypass class in the effective set; a class outside the set discards it, and no proof at
all discards it and is a critical fault. A frame in MAC control is discarded. The last byte puts the frame with its
FCS out on the line, and the frame leaves the device. (R59, R86, R92, R93, R106, R255, R274, R432.) -/
def Obligations.FramesPassTheGateAndLeave : Prop :=
  (∀ (p : Port) (f : Nat) (rest : List Nat) (s : State), (s.port p).path = f :: rest → (s.port p).tx = none →
    (s.port p).link = .up → s.flt.squelch = false → (s.frame f).eg = .ready →
    ((s.black p = false ∨ (s.frame f).proof = .lockstep ∨ ∃ k, (s.frame f).proof = .bypass k ∧ s.bypassOk k = true) →
      etherTypeOf (s.frame f).output.bytes ≠ 0x8808 →
      ∃ t, exec (.frameTxStart p) s = .next t ∧ (t.port p).tx = some f ∧ (t.port p).path = rest ∧
        (t.frame f).eg = .sending ∧ (∀ g, g ≠ f → t.frame g = s.frame g) ∧ (∀ q : Port, q ≠ p → t.port q = s.port q) ∧
        OnlyIn [.cntCfg, .cnts, .out, .hif, .eic, .lanes, .frames, .pmc] s t) ∧
    ((∃ k, s.black p = true ∧ (s.frame f).proof = .bypass k ∧ s.bypassOk k = false) →
      ∃ t, exec (.frameTxStart p) s = .next t ∧ t.frame f = {} ∧ (t.port p).tx = none ∧ t.mode = s.mode) ∧
    (s.black p = true → (s.frame f).proof = .none → (∀ q : Port, (s.port q).tx ≠ some f) →
      ∃ t, exec (.frameTxStart p) s = .next t ∧ t.frame f = {} ∧ (t.port p).tx = none ∧
        0x4D0 + p.val / 8 ∈ t.flt.lines)) ∧
  (∀ (p : Port) (f : Nat) (s : State), (s.port p).tx = some f →
    ∃ t, exec (.frameTxEnd p) s = .next t ∧ Emits s t (.line p ((s.frame f).output.bytes ++ leBytes 4 (crc32 (s.frame f).output.bytes))) ∧
      (t.port p).tx = none ∧ t.frame f = {} ∧ (∀ q : Port, q ≠ p → t.port q = s.port q) ∧ OnlyIn [.cntCfg, .cnts, .out, .gen, .hif, .eic, .lanes, .frames, .bpm, .fab, .sched, .cps, .glz, .pmc] s t)

/-- O14. A whole, well-formed run of an enabled INJECT ring gives one new frame of CURRENT, in LOOKUP mode the run's
bytes after the header on the header's port, and the device index passes its descriptors. A malformed run halts the
ring with INJECT_FORMAT. CNT_READ writes the pairs of its range to the result buffer, after the updates that have
waited 10 µs, and clears their INVALID. (R58, R378, R390, R391, R525, R526, R527, R528, Table 12.14.) -/
def Obligations.FramesAreInjectedAndPairsRead : Prop :=
  (∀ (r : Ring) (c : RingCtx) (l : List Bytes) (b : Bytes) (s : State), (s.ring r).enabled = true → (s.ring r).ctx = some c →
    c.kind = 4 → (s.mode = .forward ∨ s.mode = .factoryTest) → runOf [] (s.ring r).fetched = some l →
    (badRun l (sliceOf b 0 (runBytes l)) = false →
      ∃ t, exec (.injectAdmit r (some b)) s = .next t ∧ t.nextFrame = s.nextFrame + 1 ∧
        (t.ring r).devIdx = ((s.ring r).devIdx + l.length) % 2 ^ 32 ∧ (t.ring r).fetched = (s.ring r).fetched.drop l.length ∧
        (byteAt (sliceOf b 0 (runBytes l)) 0 = 1 →
          (let x := t.frame s.nextFrame
           x.origin = .inject ∧ x.gen = s.gen.current ∧ x.port = byteAt (sliceOf b 0 (runBytes l)) 1 ∧
           x.bytes = (sliceOf b 0 (runBytes l)).drop 32 ∧ x.ing = .landing ∧ x.ended = true)) ∧ OnlyIn [.cntCfg, .cnts, .out, .draws, .gen, .hif, .eic, .lanes, .frames, .nextFrame, .bpm, .fab, .sched, .cps, .glz, .bur] s t) ∧
    (badRun l (sliceOf b 0 (runBytes l)) = true →
      ∃ t, exec (.injectAdmit r (some b)) s = .next t ∧ (t.ring r).halted = true ∧ (t.ring r).err = 8 ∧
        t.frames = s.frames ∧ t.nextFrame = s.nextFrame)) ∧
  (∀ (r : Ring) (d : Bytes) (s : State), Executing s r 0x0090 d →
    ∃ t, exec (.cntRead r true) s = .next t ∧
      Emits s t (.hostWrite (s.ringReq r) (descAddr d) ((List.range (leAt d 0x14 2)).flatMap fun k =>
        (s.flushOldPairs.pmc.pairs.get {} (leAt d 0x10 4 + k)).bytes16)) ∧
      (∀ k, k < leAt d 0x14 2 → (t.pmc.pairs.get {} (leAt d 0x10 4 + k)) =
        { s.flushOldPairs.pmc.pairs.get {} (leAt d 0x10 4 + k) with invalid := false }) ∧
      Completed s t r d .ok 0 [] ∧ OnlyIn [.cntCfg, .cnts, .out, .hif, .eic, .flt, .kiln, .units, .hbm, .pmc] s t)

/-- O15. In CONFIG, PF0's write of a state entry, an extraction operation or a MATCH, MASK or ACTION word replaces its
fields and clears VALID of the slice. In a mode other than CONFIG and FACTORY_TEST a program write changes nothing
but the configuration error it records. CHECK is set by writing it, and its end leaves the CRC-32 of the program in
PAR_PROG_CRC and CHECK 0. (R122, R123, R124, R135, R136, Table 04.9.) -/
def Obligations.ParseProgramsLoadAndCheck : Prop :=
  (∀ (i : Slice) (k : Nat) (v : BitVec 64) (s : State), k < 256 → s.reachable .parState = true → s.mode = .config →
    ∃ t, exec (.parseProgramWrite .pf0 i (BitVec.ofNat 16 (0x800 + 8 * k)) 8 v) s = .next t ∧
      t.reg .parState i k = applyFields (RegName.info .parState).fields (s.reg .parState i k)
        (mergeBytes (s.reg .parState i k) 0 8 v.toNat) ∧
      t.bit .parProgCtrl i 0 0 = false ∧ OnlyIn [.regs, .cntCfg, .cnts, .out, .hif, .eic, .flt, .kiln] s t) ∧
  (∀ (i : Slice) (k : Nat) (v : BitVec 64) (s : State), k < 2048 → s.reachable .parState = true → s.mode = .config →
    ∃ t, exec (.parseProgramWrite .pf0 i (BitVec.ofNat 16 (0x2000 + 4 * k)) 4 v) s = .next t ∧
      t.reg .parExtract i k = applyFields (RegName.info .parExtract).fields (s.reg .parExtract i k)
        (mergeBytes (s.reg .parExtract i k) 0 4 v.toNat) ∧
      t.bit .parProgCtrl i 0 0 = false ∧ OnlyIn [.regs, .cntCfg, .cnts, .out, .hif, .eic, .flt, .kiln] s t) ∧
  (∀ (i : Slice) (k : Nat) (v : BitVec 64) (s : State), k < 1024 → s.reachable .parState = true → s.mode = .config →
    (∃ t, exec (.parseProgramWrite .pf0 i (BitVec.ofNat 16 (0x8000 + 32 * k)) 8 v) s = .next t ∧
      t.reg .parMatch i k = applyFields (RegName.info .parMatch).fields (s.reg .parMatch i k)
        (mergeBytes (s.reg .parMatch i k) 0 8 v.toNat) ∧
      t.bit .parProgCtrl i 0 0 = false ∧ OnlyIn [.regs, .cntCfg, .cnts, .out, .hif, .eic, .flt, .kiln] s t) ∧
    (∃ t, exec (.parseProgramWrite .pf0 i (BitVec.ofNat 16 (0x8008 + 32 * k)) 4 v) s = .next t ∧
      t.reg .parMask i k = applyFields (RegName.info .parMask).fields (s.reg .parMask i k)
        (mergeBytes (s.reg .parMask i k) 0 4 v.toNat) ∧
      t.bit .parProgCtrl i 0 0 = false ∧ OnlyIn [.regs, .cntCfg, .cnts, .out, .hif, .eic, .flt, .kiln] s t) ∧
    (∃ t, exec (.parseProgramWrite .pf0 i (BitVec.ofNat 16 (0x8010 + 32 * k)) 8 v) s = .next t ∧
      t.reg .parAction i k = applyFields (RegName.info .parAction).fields (s.reg .parAction i k)
        (mergeBytes (s.reg .parAction i k) 0 8 v.toNat) ∧
      t.bit .parProgCtrl i 0 0 = false ∧ OnlyIn [.regs, .cntCfg, .cnts, .out, .hif, .eic, .flt, .kiln] s t)) ∧
  (∀ (f : Fn) (i : Slice) (off : BitVec 16) (size : Nat) (v : BitVec 64) (s : State), inProgram off.toNat = true →
    accessOk off.toNat size = true → (size = 4 ∨ off.toNat < 0x1000 ∨ 0x8000 ≤ off.toNat) → s.reachable .parState = true →
    s.mode ≠ .config → s.mode ≠ .factoryTest →
    exec (.parseProgramWrite f i off size v) s = .next (s.configError f (0x1000000 + i.val * 0x10000 + off.toNat))) ∧
  (∀ (i : Slice) (s : State), s.reachable .parProgCtrl = true →
    ∃ t, exec (.parseCrcCheck .pf0 i) s = .next t ∧ t.bit .parProgCtrl i 0 1 = true ∧
      t.bit .parProgCtrl i 0 0 = s.bit .parProgCtrl i 0 0 ∧ OnlyIn [.regs] s t) ∧
  (∀ (i : Slice) (s : State), s.bit .parProgCtrl i 0 1 = true →
    ∃ t, exec (.parseCrcDone i) s = .next t ∧ t.reg .parProgCrc i 0 = crc32 (s.programBytes i) ∧
      t.bit .parProgCtrl i 0 1 = false ∧ t.bit .parProgCtrl i 0 0 = s.bit .parProgCtrl i 0 0 ∧ OnlyIn [.regs] s t)

/-- O16. A step of a running walk in a slice with VALID = 1 whose reads succeed and whose transition has SEC 0 or 3 and
a NEXT below 252 moves to NEXT with the cursor advanced (256 once past the window), counts one step and writes
LAST_STATE. NEXT = 252 accepts and issues the lookups. With VALID = 0 the walk fails with NO_MATCH, after 24 steps
with STEP_LIMIT; a key read past the window fails with WINDOW, or accepts with CUT under ACCEPT_ON_CUT; no
transition fails with NO_MATCH. A failed step leaves the header vector but for FAIL and FAIL_REASON. No walk takes
more than 24 steps. (R118, R119, R123, R124, R131, R132, R133, R137.) -/
def Obligations.WalksFollowTheProgram : Prop :=
  (∀ (f k : Nat) (s : State), (s.frame f).walk.st = .running → (s.frame f).ing = .landing →
    (let x := s.frame f
     let i := x.port / 8
     let st := s.reg .parState i x.walk.state
     let k0 := (x.walk.cur + bitsOf 63 58 st, 2)
     let k1 := (x.walk.cur + bitsOf 57 52 st, 2)
     let key := (if bitOf 51 st then beAt x.seen k0.1 2 else 0) * 65536 + (if bitOf 50 st then beAt x.seen k1.1 2 else 0)
     let a := s.reg .parAction i k
     let ops := (s.extractions i a).map fun o => (x.walk.cur + o.1, o.2.1, o.2.2)
     let adv := if bitOf 16 a then
         (byteAt x.seen (x.walk.cur + bitsOf 47 42 st) &&& bitsOf 41 34 st) / 2 ^ bitsOf 33 31 st * 2 ^ bitsOf 30 29 st
           + bitsOf 28 21 st
       else bitsOf 15 8 a
     s.bit .parProgCtrl i 0 0 = true → x.walk.steps < 24 →
     x.judge ((if bitOf 51 st then [k0] else []) ++ (if bitOf 50 st then [k1] else [])) = .good →
     s.transition i x.walk.state key = some k → (bitsOf 53 52 a = 0 ∨ bitsOf 53 52 a = 3) →
     x.judge ((if bitOf 16 a then [(x.walk.cur + bitsOf 47 42 st, 1)] else []) ++ ops.map fun o => (o.1, o.2.1)) = .good →
     (bitsOf 7 0 a < 252 →
       ∃ t, exec (.parseStep f) s = .next t ∧
         (t.frame f).walk.state = bitsOf 7 0 a ∧ (t.frame f).walk.steps = x.walk.steps + 1 ∧ (t.frame f).walk.st = .running ∧
         (t.frame f).walk.cur = (if 255 < x.walk.cur + adv then 256 else x.walk.cur + adv) ∧
         (t.frame f).hv = (((ops.foldl Frame.extract x).mark a x.walk.cur).putHv 3 [BitVec.ofNat 8 (bitsOf 7 0 a)]).hv ∧
         (∀ g, g ≠ f → t.frame g = s.frame g) ∧ OnlyIn [.frames] s t) ∧
     (bitsOf 7 0 a = 252 → s.isFiller (s.walkStep x) = false → FirstToIssue s f →
       ∃ t, exec (.parseStep f) s = .next t ∧ (t.frame f).walk.st = .accepted ∧ (t.frame f).issued = true ∧
         (t.frame f).hv = ((ops.foldl Frame.extract x).mark a x.walk.cur).hv ∧
         (∀ g, g ≠ f → (s.frame g).due = false → t.frame g = s.frame g) ∧ OnlyIn [.frames, .cnts, .cntCfg] s t))) ∧
  (∀ (s : State) (x : Frame), s.bit .parProgCtrl (x.port / 8) 0 0 = false → s.walkStep x = x.failWalk 1) ∧
  (∀ (s : State) (x : Frame), s.bit .parProgCtrl (x.port / 8) 0 0 = true → 24 ≤ x.walk.steps →
    s.walkStep x = x.failWalk 2) ∧
  (∀ (s : State) (x : Frame),
    (let st := s.reg .parState (x.port / 8) x.walk.state
     let reads := (if bitOf 51 st then [(x.walk.cur + bitsOf 63 58 st, 2)] else []) ++
       (if bitOf 50 st then [(x.walk.cur + bitsOf 57 52 st, 2)] else [])
     s.bit .parProgCtrl (x.port / 8) 0 0 = true → x.walk.steps < 24 → (∃ r ∈ reads, 256 < r.1 + r.2) →
     (bitOf 49 st = true → (s.walkStep x).walk.st = .accepted ∧ (s.walkStep x).hv = (x.flagHv 3).hv) ∧
     (bitOf 49 st = false → (s.walkStep x).walk.st = .failed 3))) ∧
  (∀ (s : State) (x : Frame) (r : Nat), x.walk.st = .running → (s.walkStep x).walk.st = .failed r →
    r ≠ 0 ∧ (r ≤ 6 ∨ (16 ≤ r ∧ r ≤ 31))) ∧
  (∀ (s : State) (x : Frame), x.walk.steps ≤ 24 → (s.walkStep x).walk.steps ≤ 24)

/-- O17. A bucket is full from the reset of its block, and gains one token up to BURST at each multiple of (PERIOD + 1)
x 1,000 of the free-running counter since it was last looked at. A tick of a bucket happens at the next multiple of
(PERIOD + 1) x 1,000 of the free-running counter and adds one token unless the level has reached BURST. A token is
taken exactly when the level and BURST are not 0, and leaves the grid. A new rate keeps the level, as the old rate
left it, but for what exceeds the new BURST, and ticks fall on its own grid from now on. (R134, R157, R189, R529.) -/
def Obligations.BucketsFillOnTheirGrid : Prop :=
  (∀ (b : Bucket) (s : State),
    ∃ t, exec (.tokenTick b) s = .next t ∧
      (let old := (s.bucketRate b).1
       let rate := (s.bucketRate b).2
       let p := (bitsOf 19 0 rate + 1) * 1000
       s.now ≤ old.last ∧ (t.bucketRate b).1.last = (old.last / p + 1) * p ∧ t.now = max s.now ((old.last / p + 1) * p) ∧
       (t.bucketRate b).1.level = (if old.level < bitsOf 27 20 rate then old.level + 1 else old.level) ∧
       (∀ c, c ≠ b → t.tokensOf c = s.tokensOf c)) ∧ OnlyIn [.time, .tabs, .sampBkt] s t) ∧
  (∀ (b : Bucket) (s : State) (v : Nat), s.tokensOf b = none → (s.bucketAt b v).level = bitsOf 27 20 v) ∧
  (∀ (b : Bucket) (s : State) (v : Nat) (x : TokenBucket), s.tokensOf b = some x → x.level ≤ bitsOf 27 20 v →
    (s.bucketAt b v).level = min (x.level + (s.now / ((bitsOf 19 0 v + 1) * 1000) - x.last / ((bitsOf 19 0 v + 1) * 1000))) (bitsOf 27 20 v)) ∧
  (∀ (b : Bucket) (s : State), (s.bucketRate b).1.level = 0 ∨ bitsOf 27 20 (s.bucketRate b).2 = 0 → s.takeToken b = none) ∧
  (∀ (b : Bucket) (s : State), (s.bucketRate b).1.level ≠ 0 → bitsOf 27 20 (s.bucketRate b).2 ≠ 0 →
    ∃ t, s.takeToken b = some t ∧ (t.bucketRate b).1 = { (s.bucketRate b).1 with level := (s.bucketRate b).1.level - 1 } ∧
      OnlyIn [.tabs, .sampBkt] s t) ∧
  (∀ (b : Bucket) (old : Nat) (s : State),
    ((s.rerate b old).bucketRate b).1.level = min (s.bucketAt b old).level (bitsOf 27 20 (s.bucketReg b)) ∧
      (s.rerate b old).bucketReg b = s.bucketReg b ∧ ((s.rerate b old).bucketRate b).1.last = s.now ∧ OnlyIn [.tabs, .sampBkt] s (s.rerate b old))

/-- O18. When the checks of R560 pass, RULE_INSERT puts the record, born in STAGING, into the lowest free cell of its
join; RULE_MODIFY replaces a version made in STAGING in place and otherwise marks the old one to die in STAGING and
puts the new one into the lowest free cell; RULE_DELETE removes or marks likewise. Each records one change and
completes with OK. RULE_READ writes the record visible in a live generation to the result buffer. No other cell
changes. (R54, R143, R144, R145, R146, R560, Table 05.2.) -/
def Obligations.RulesAreInsertedModifiedAndDeleted : Prop :=
  (∀ (r : Ring) (d b : Bytes) (k : Nat) (s : State), Executing s r 0x0020 d → SeqIdle s r 0x0020 → s.ruleCheck b = none →
    s.ruleIn (leAt b 0 2) s.staging = none → s.freeRule (leAt b 0 2 / 1024) = some k → s.logRoom 1 = true →
    ∃ t, exec (.ruleInsert r (some b)) s = .next t ∧
      t.ruleAt k = some { tag := ⟨s.staging, 0, false, false⟩, priority := leAt b 2 2, lrow := leAt b 0 2 % 1024,
                          width := byteAt b 4, action := leAt b 16 16, value := sliceOf b 32 80, mask := sliceOf b 112 80 } ∧
      (∀ j, j ≠ k → t.ruleAt j = s.ruleAt j) ∧ t.logUsed s.staging = s.logUsed s.staging + 1 ∧
      Completed s t r d .ok 0 [] ∧ OnlyIn [.regs, .cntCfg, .cnts, .out, .draws, .gen, .hif, .eic, .flt, .kiln, .tabs] s t) ∧
  (∀ (r : Ring) (d b : Bytes) (k : Nat) (c : RuleCell) (s : State), Executing s r 0x0021 d → SeqIdle s r 0x0021 →
    s.ruleCheck b = none → s.ruleIn (leAt b 0 2) s.staging = some (k, c) → s.logRoom 1 = true →
    (s.madeInStaging c.tag = true →
      ∃ t, exec (.ruleModify r (some b)) s = .next t ∧ t.ruleAt k = some (ruleCellOf b c.tag) ∧
        (∀ j, j ≠ k → t.ruleAt j = s.ruleAt j) ∧ t.logUsed s.staging = s.logUsed s.staging + 1 ∧
        Completed s t r d .ok 0 [] ∧ OnlyIn [.regs, .cntCfg, .cnts, .out, .draws, .gen, .hif, .eic, .flt, .kiln, .tabs] s t) ∧
    (s.madeInStaging c.tag = false → ∀ k', s.freeRule (leAt b 0 2 / 1024) = some k' → k ≠ k' →
      ∃ t, exec (.ruleModify r (some b)) s = .next t ∧
        t.ruleAt k = some { c with tag := { c.tag with died := s.staging, ds := true } } ∧
        t.ruleAt k' = some (ruleCellOf b ⟨s.staging, 0, false, false⟩) ∧
        (∀ j, j ≠ k → j ≠ k' → t.ruleAt j = s.ruleAt j) ∧ t.logUsed s.staging = s.logUsed s.staging + 1 ∧
        Completed s t r d .ok 0 [] ∧ OnlyIn [.regs, .cntCfg, .cnts, .out, .draws, .gen, .hif, .eic, .flt, .kiln, .tabs] s t)) ∧
  (∀ (r : Ring) (d : Bytes) (k : Nat) (c : RuleCell) (s : State), Executing s r 0x0022 d → SeqIdle s r 0x0022 →
    s.ruleIn (leAt d 0x10 2) s.staging = some (k, c) → s.logRoom 1 = true →
    ∃ t, exec (.ruleDelete r) s = .next t ∧
      t.ruleAt k = (if s.madeInStaging c.tag then none
        else some { c with tag := { c.tag with died := s.staging, ds := true } }) ∧
      (∀ j, j ≠ k → t.ruleAt j = s.ruleAt j) ∧ t.logUsed s.staging = s.logUsed s.staging + 1 ∧
      Completed s t r d .ok 0 [] ∧ OnlyIn [.regs, .cntCfg, .cnts, .out, .draws, .gen, .hif, .eic, .flt, .kiln, .tabs] s t) ∧
  (∀ (r : Ring) (d : Bytes) (k : Nat) (c : RuleCell) (s : State), Executing s r 0x0023 d → s.tabs.dead = false →
    s.flt.corrupt.get 0 0x31 = 0 → s.seqHeld r 0x0023 = false → s.live (BitVec.ofNat 16 (leAt d 0x12 2)) = true →
    s.ruleIn (leAt d 0x10 2) (BitVec.ofNat 16 (leAt d 0x12 2)) = some (k, c) →
    ∃ t, exec (.ruleRead r true) s = .next t ∧
      Emits s t (.hostWrite (s.ringReq r) (descAddr d) (c.record (leAt d 0x10 2))) ∧
      (∀ j, t.ruleAt j = s.ruleAt j) ∧ Completed s t r d .ok 0 [] ∧ OnlyIn [.regs, .cntCfg, .cnts, .out, .draws, .gen, .hif, .eic, .flt, .kiln, .tabs] s t)

/-- O19. When its record is good, its tiles match its width and are not lost, a cell is free and the log has room,
PROFILE_WRITE puts the profile, born in STAGING, into the lowest free cell, or over a version made in STAGING, and
marks an older version to die in STAGING. PROFILE_DELETE removes or marks the version visible in STAGING. A write of
RSA_GROUP_CFG in CONFIG gives each group whose cells are all free its width, unless the width is reserved, and keeps
the others. (R54, R139, R142, R146, R147, R148, R560.) -/
def Obligations.ProfilesAndGroupsAreSet : Prop :=
  (∀ (r : Ring) (d b : Bytes) (k : Nat) (s : State), Executing s r 0x0024 d → SeqIdle s r 0x0024 → badProfile b = false →
    (∀ x ∈ tilesOf (leAt b 8 8), s.widthAt x = byteAt b 1 ∧ s.isJoin x = true ∧ s.joinLostAny x = false) →
    s.logRoom 1 = true →
    (match s.profIn (byteAt b 0) s.staging with
      | none => firstBelow 128 (fun j => (s.profAt j).isNone) = some k
      | some (o, c) => if s.madeInStaging c.tag then k = o
          else firstBelow 128 (fun j => (s.profAt j).isNone) = some k ∧ k ≠ o) →
    ∃ t, exec (.profileWrite r (some b)) s = .next t ∧
      t.profAt k = some { tag := ⟨s.staging, 0, false, false⟩, num := byteAt b 0, width := byteAt b 1, tiles := leAt b 8 8,
                          dflt := leAt b 16 16, sel := sliceOf b 32 80, stencil := sliceOf b 112 80 } ∧
      (∀ o c, s.profIn (byteAt b 0) s.staging = some (o, c) → o ≠ k →
        t.profAt o = some { c with tag := { c.tag with died := s.staging, ds := true } }) ∧
      (∀ j, j ≠ k → (∀ c, s.profIn (byteAt b 0) s.staging ≠ some (j, c)) → t.profAt j = s.profAt j) ∧
      t.logUsed s.staging = s.logUsed s.staging + 1 ∧ Completed s t r d .ok 0 [] ∧ OnlyIn [.regs, .cntCfg, .cnts, .out, .draws, .gen, .hif, .eic, .flt, .kiln, .tabs] s t) ∧
  (∀ (r : Ring) (d : Bytes) (k : Nat) (c : ProfileCell) (s : State), Executing s r 0x0025 d → SeqIdle s r 0x0025 →
    s.profIn (byteAt d 0x10) s.staging = some (k, c) → s.logRoom 1 = true →
    ∃ t, exec (.profileDelete r) s = .next t ∧
      t.profAt k = (if s.madeInStaging c.tag then none
        else some { c with tag := { c.tag with died := s.staging, ds := true } }) ∧
      (∀ j, j ≠ k → t.profAt j = s.profAt j) ∧ t.logUsed s.staging = s.logUsed s.staging + 1 ∧
      Completed s t r d .ok 0 [] ∧ OnlyIn [.regs, .cntCfg, .cnts, .out, .draws, .gen, .hif, .eic, .flt, .kiln, .tabs] s t) ∧
  (∀ (q : Quad) (v : BitVec 32) (s : State), s.reachable .rsaGroupCfg = true → s.mode = .config →
    ∃ t, exec (.rsaGroupCfgWrite .pf0 q v) s = .next t ∧
      (∀ g, g < 16 → t.widthAt (4 * g) =
        if bitsOf (2 * g + 1) (2 * g) v.toNat = 3 ∨ (s.tabs.rules.any fun k c => c.isSome && k / 4096 = g) = true
        then s.widthAt (4 * g) else bitsOf (2 * g + 1) (2 * g) v.toNat) ∧ OnlyIn [.regs, .cntCfg, .cnts, .out, .hif, .eic, .flt, .kiln] s t) ∧
  (∀ (f : Fn) (q : Quad) (v : BitVec 32) (s : State), s.reachable .rsaGroupCfg = true → s.mode ≠ .config ∨ f ≠ .pf0 →
    exec (.rsaGroupCfgWrite f q v) s = .next (s.configError f (RegName.addr .rsaGroupCfg q 0)))

/-- O20. A search result that returns with no parity failure answers with the rule that searchRules finds, or with
DEFAULT when none matches, and drops the result when a selected tile is lost, a selected cell or the profile is
poisoned, or no profile is visible. That rule is visible and matches in a selected tile, and no other matching rule
has a higher priority, or an equal priority and a lower logical entry number. The parity of the best cell of each
selected join is checked in every tile of the join, that of the rule found among them; a fourth failure poisons the
cell in that tile. A scrub poisons the cell that fails. (R149, R151, R160, R161, R162, R164.) -/
def Obligations.RuleSearchReturnsTheBestRule : Prop :=
  (∀ (f : Nat) (s : State), (s.frame f).issued = true → (s.frame f).rule.back = false → (s.frame f).ing = .landing →
    (∀ n, s.flt.corrupt.get 0 n = 0) →
    ∃ t, exec (.rsaSearchResult f []) s = .next t ∧ (t.frame f).rule.back = true ∧
      (s.profIn (byteAt (s.frame f).hv 4 % 32) (s.frame f).gen = none →
        (t.frame f).rule.hit = false ∧ (t.frame f).rule.bad = false ∧ (t.frame f).rule.lost = false) ∧
      (∀ j p, s.profIn (byteAt (s.frame f).hv 4 % 32) (s.frame f).gen = some (j, p) →
        (let q := (s.frame f).slice / 4
         let lost := (tilesOf p.tiles).any fun x => s.joinLost q x
         let profBad := s.tabs.profPoison.contains (q * 128 + j)
         (profBad = true → (t.frame f).rule.bad = true ∧ (t.frame f).rule.hit = false) ∧
         (profBad = false → lost = true → (t.frame f).rule.lost = true ∧ (t.frame f).rule.hit = false) ∧
         (profBad = false → lost = false → s.rulePoisoned q p = true →
           (t.frame f).rule.bad = true ∧ (t.frame f).rule.hit = false) ∧
         (profBad = false → lost = false → s.rulePoisoned q p = false →
           match s.searchRules p (s.frame f).hv (s.frame f).gen with
           | some (k, c) => (t.frame f).rule.hit = true ∧ (t.frame f).rule.data = c.action ∧
               (t.frame f).rule.lentry = k / 1024 * 1024 + c.lrow
           | none => (t.frame f).rule.hit = false ∧ (t.frame f).rule.data = p.dflt))) ∧
      (∀ g, g ≠ f → t.frame g = s.frame g) ∧ OnlyIn [.frames] s t) ∧
  (∀ (p : ProfileCell) (hv : Bytes) (g : Gen) (k : Nat) (c : RuleCell) (s : State), s.searchRules p hv g = some (k, c) →
    (k, some c) ∈ s.tabs.rules.cells ∧ bitOf (k / 1024) p.tiles = true ∧ c.matches p hv g = true ∧
    (∀ k' c', (k', some c') ∈ s.tabs.rules.cells → bitOf (k' / 1024) p.tiles = true → c'.matches p hv g = true →
      c'.priority < c.priority ∨
        (c'.priority = c.priority ∧ k / 1024 * 1024 + c.lrow ≤ k' / 1024 * 1024 + c'.lrow))) ∧
  (∀ (p : ProfileCell) (hv : Bytes) (g : Gen) (s : State), s.searchRules p hv g = none →
    ∀ k' c', (k', some c') ∈ s.tabs.rules.cells → bitOf (k' / 1024) p.tiles = true → c'.matches p hv g = false) ∧
  (∀ (x : Frame) (j k : Nat) (p : ProfileCell) (c : RuleCell) (s : State),
    s.profIn (byteAt x.hv 4 % 32) x.gen = some (j, p) → s.searchRules p x.hv x.gen = some (k, c) → k < 65536 →
    ∀ i, i < joinSpan (s.widthAt (k / 1024)) → (k / 1024 + i, k % 1024) ∈ s.checkedCells x) ∧
  (∀ (f c : Nat) (x : Fin 64) (s : State), (s.frame f).issued = true → (s.frame f).rule.back = false →
    (s.frame f).ing = .landing → (x.val, c) ∈ s.checkedCells (s.frame f) →
    ∃ t, exec (.rsaSearchResult f [(x, 4)]) s = .next t ∧
      t.tabs.rulePoison.contains (poisonKey ((s.frame f).slice / 4) (x.val * 1024 + c)) = true ∧
      (t.frame f).rule.back = true ∧ OnlyIn [.cntCfg, .cnts, .out, .hif, .eic, .flt, .kiln, .frames, .tabs] s t) ∧
  (∀ (q : Quad) (x : Fin 64) (c : Fin 1024) (s : State), s.mode ≠ .standby → ¬ (x.val = 63 ∧ c.val = 1023) →
    exec (.tileScrubStep q x c true) s = .next s ∧
    ∃ t, exec (.tileScrubStep q x c false) s = .next t ∧
      t.tabs.rulePoison.contains (poisonKey q (x.val * 1024 + c.val)) = true ∧ OnlyIn [.regs, .cntCfg, .cnts, .out, .hif, .eic, .flt, .kiln, .tabs] s t)

/-- O21. With a good record, EM_INSERT of a key not visible in STAGING, or of one that only a learned entry holds, puts
the entry into the first free of its key's eight slots, born in STAGING with HIT 1 in every quad, and the learned
entry dies in STAGING. EM_MODIFY changes ADATA in place of an entry made in STAGING, and otherwise marks it and
places a new version; EM_DELETE removes or marks it. Each is one change and completes with OK and its slot.
EM_SEARCH and EM_NEXT return records of a live generation and change no table. When a slot of the key's two buckets
is free, or the breadth-first search finds a chain, the room made is a free slot of the key's own buckets, and every
entry of the table is still in the table: in its own slot, or in a slot of one of its own key's two buckets. Nothing
but the table, its HIT bits, EMT_RELOC_CNT and the shadow that is written with it changes. (R54, R168, R171, R177,
R178, R179, R180, R184, R185, R561, Table 06.5.) -/
def Obligations.ExactMatchCommandsChangeStaging : Prop :=
  (∀ (r : Ring) (d b : Bytes) (k : Nat) (s : State), Executing s r 0x0030 d → SeqIdle s r 0x0030 → badEm b = false →
    (∀ j e, s.emIn (emKtype b) (emKey b) s.staging = some (j, e) → (e.lrn && e.tag.bs) = true) →
    (s.scanSlots (emKtype b) (emKey b)).find? s.slotFree = some k → s.logRoom 1 = true →
    ∃ t, exec (.emInsert r (some b)) s = .next t ∧
      t.slot k = some { tag := ⟨s.staging, 0, false, false⟩, ktype := emKtype b, key := emKey b, adata := leAt b 8 8,
                        lrn := false, sw := false, rpt := false } ∧
      (∀ q, q < 4 → t.hitAt q k = true) ∧
      (∀ j e, s.emIn (emKtype b) (emKey b) s.staging = some (j, e) →
        t.slot j = some { e with tag := { e.tag with died := s.staging, ds := true } }) ∧
      (∀ j, j ≠ k → (∀ e, s.emIn (emKtype b) (emKey b) s.staging ≠ some (j, e)) → t.slot j = s.slot j) ∧
      t.logUsed s.staging = s.logUsed s.staging + 1 ∧ Completed s t r d .ok k [] ∧ OnlyIn [.regs, .cntCfg, .cnts, .out, .draws, .gen, .hif, .eic, .flt, .kiln, .tabs] s t) ∧
  (∀ (r : Ring) (d b : Bytes) (k : Nat) (e : EmSlot) (s : State), Executing s r 0x0031 d → SeqIdle s r 0x0031 → badEm b = false →
    s.emIn (emKtype b) (emKey b) s.staging = some (k, e) → s.logRoom 1 = true →
    (s.madeInStaging e.tag = true →
      ∃ t, exec (.emModify r (some b)) s = .next t ∧ t.slot k = some { e with adata := leAt b 8 8 } ∧
        (∀ j, j ≠ k → t.slot j = s.slot j) ∧ t.logUsed s.staging = s.logUsed s.staging + 1 ∧
        Completed s t r d .ok k [] ∧ OnlyIn [.regs, .cntCfg, .cnts, .out, .draws, .gen, .hif, .eic, .flt, .kiln, .tabs] s t) ∧
    (s.madeInStaging e.tag = false → ∀ k', (s.scanSlots (emKtype b) (emKey b)).find? s.slotFree = some k' →
      ∃ t, exec (.emModify r (some b)) s = .next t ∧
        t.slot k = some { e with tag := { e.tag with died := s.staging, ds := true } } ∧
        t.slot k' = some { tag := ⟨s.staging, 0, false, false⟩, ktype := emKtype b, key := emKey b, adata := leAt b 8 8,
                           lrn := false, sw := false, rpt := false } ∧
        (∀ j, j ≠ k → j ≠ k' → t.slot j = s.slot j) ∧ t.logUsed s.staging = s.logUsed s.staging + 1 ∧
        Completed s t r d .ok k' [] ∧ OnlyIn [.regs, .cntCfg, .cnts, .out, .draws, .gen, .hif, .eic, .flt, .kiln, .tabs] s t)) ∧
  (∀ (r : Ring) (d b : Bytes) (k : Nat) (e : EmSlot) (s : State), Executing s r 0x0032 d → SeqIdle s r 0x0032 →
    s.emIn (emKtype b) (emKey b) s.staging = some (k, e) → s.logRoom 1 = true →
    ∃ t, exec (.emDelete r (some b)) s = .next t ∧
      t.slot k = (if s.madeInStaging e.tag then none
        else some { e with tag := { e.tag with died := s.staging, ds := true } }) ∧
      (∀ j, j ≠ k → t.slot j = s.slot j) ∧ t.logUsed s.staging = s.logUsed s.staging + 1 ∧
      Completed s t r d .ok 0 [] ∧ OnlyIn [.regs, .cntCfg, .cnts, .out, .draws, .gen, .hif, .eic, .flt, .kiln, .tabs] s t) ∧
  (∀ (r : Ring) (d b : Bytes) (s : State), Executing s r 0x0033 d → s.tabs.dead = false →
    s.flt.corrupt.get 0 0x31 = 0 → s.seqHeld r 0x0033 = false → s.live (BitVec.ofNat 16 (leAt d 0x10 2)) = true →
    ∃ t, exec (.emSearch r (some b) true) s = .next t ∧ (∀ j, t.slot j = s.slot j) ∧
      (match s.emIn (emKtype b) (emKey b) (BitVec.ofNat 16 (leAt d 0x10 2)) with
        | some (k, e) => Emits s t (.hostWrite (s.ringReq r) (descAddr d + 32) (s.emRecord k e)) ∧ Completed s t r d .ok k [1]
        | none => Completed s t r d .ok 0 [0]) ∧ OnlyIn [.regs, .cntCfg, .cnts, .out, .draws, .gen, .hif, .eic, .flt, .kiln, .tabs] s t) ∧
  (∀ (r : Ring) (d : Bytes) (s : State), Executing s r 0x0034 d → s.tabs.dead = false → s.flt.corrupt.get 0 0x31 = 0 →
    s.seqHeld r 0x0034 = false → s.live (BitVec.ofNat 16 (leAt d 0x10 2)) = true →
    ∃ t, exec (.emNext r true) s = .next t ∧ (∀ j, t.slot j = s.slot j) ∧
      (let hits := s.tabs.em.cells.filterMap fun c => c.2.bind fun e =>
         if leAt d 0x14 4 ≤ c.1 ∧ e.tag.visible (BitVec.ofNat 16 (leAt d 0x10 2)) = true ∧
             (byteAt d 0x12 = 16 ∨ e.ktype = byteAt d 0x12) then some (c.1, e) else none
       let found := hits.take (byteAt d 0x13)
       (found ≠ [] → Emits s t (.hostWrite (s.ringReq r) (descAddr d) (found.flatMap fun x => s.emRecord x.1 x.2))) ∧
       (hits.length < byteAt d 0x13 → Completed s t r d .ok hits.length (leBytes 4 1048576))) ∧ OnlyIn [.regs, .cntCfg, .cnts, .out, .draws, .gen, .hif, .eic, .flt, .kiln, .tabs] s t) ∧
  (∀ (kt : Nat) (key : Bytes) (k : Nat) (s t : State), s.makeRoom kt key = some (k, t) →
    ((s.scanSlots kt key).find? s.slotFree ≠ none ∨
      s.bfs (s.fld .emtInsCfg 0 0 2 0) 126 (((s.scanSlots kt key).filter fun j => (s.slot j).isSome).map fun j => [j])
        (s.scanSlots kt key) ≠ none) →
    k ∈ s.scanSlots kt key ∧ t.slot k = none ∧
    (∀ j e, s.slot j = some e → ∃ j', t.slot j' = some e ∧ (j' = j ∨ j' ∈ s.scanSlots e.ktype e.key)) ∧
    (∀ kt' key', t.scanSlots kt' key' = s.scanSlots kt' key') ∧ OnlyIn [.tabs, .regs, .out] s t)

/-- O22. With nothing before it (R285), EM_FLUSH becomes the saved routine when no flush or abort has begun and the
change log has room for every entry it is to delete, fails with GEN_LOG_FULL and changes no slot when it has not,
and otherwise waits its turn. A step of the routine removes every selected learned entry with DS = 0 of the bucket,
deletes every selected software entry visible in STAGING, leaves every other slot, and moves to the next bucket; the
last bucket's step completes the command with OK, INFO the entries deleted and RESULT those removed. With EN = 1 and
no lap running, a lap starts PERIOD_S after the last one started. A sweep step clears HIT of the bucket's eight
slots in every quad and, on each slot that is learned or has AGE_EN, clears SW and RPT when HIT was set, sets SW
when it was clear, and otherwise sets RPT or, on a learned entry with DS = 0 in immediate mode, notes the slot for
removal. The removal then reaches the quads one step after another, and with the fourth the slots noted are free.
Every other slot stays. (R54, R186, R284, R285, R287, R192, R193, R196, Table 06.6.) -/
def Obligations.FlushesAndAgingSweepTheTable : Prop :=
  (∀ (r : Ring) (d : Bytes) (s : State), Executing s r 0x0035 d → SeqIdle s r 0x0035 →
    s.begun r 0x0035 = false → (s.gen.waiting = [] ∨ s.gen.armed ≠ none) →
    (let f : Flush := ⟨r, byteAt d 0x10, leAt d 0x14 4, byteAt d 0x11 = 1, 0, 0, 0, 0⟩
     (s.fiveBusy = false → s.logRoom (s.flushCount f) = true →
       ∃ t, exec (.emFlush r) s = .next t ∧ t.tabs.flush = some { f with room := s.flushCount f } ∧
         t.tabs.flushWait = s.tabs.flushWait ∧ OnlyIn [.tabs] s t) ∧
     (s.fiveBusy = false → s.logRoom (s.flushCount f) = false →
       ∃ t, exec (.emFlush r) s = .next t ∧ Completed s t r d .genLogFull 0 (leBytes 4 0) ∧ (∀ k, t.slot k = s.slot k) ∧
         t.tabs.flush = none ∧ OnlyIn [.regs, .cntCfg, .cnts, .out, .draws, .gen, .hif, .eic, .flt, .kiln, .tabs] s t) ∧
     (s.fiveBusy = true →
       ∃ t, exec (.emFlush r) s = .next t ∧ t.tabs.flush = s.tabs.flush ∧ t.tabs.flushWait = s.tabs.flushWait ++ [f] ∧
         OnlyIn [.tabs] s t))) ∧
  (∀ (f : Flush) (s : State), s.tabs.flush = some f → s.tabs.abort = none → s.tabs.dead = false →
    s.flt.corrupt.get 0 0x31 = 0 → s.seqAhead 5 = false → f.bucket < 131071 → s.logUsed s.staging + 8 ≤ 1048576 →
    ∃ t, exec (.seqRoutineResume 1) s = .next t ∧
      (∃ g, t.tabs.flush = some g ∧ g.bucket = f.bucket + 1 ∧ g.ring = f.ring ∧ f.deleted ≤ g.deleted ∧
        f.removed ≤ g.removed) ∧
      (∀ k, t.slot k =
        if (k / 4 = f.bucket ∨ k / 4 = 131072 + f.bucket) ∧ k < 1048576 then
          (s.slot k).bind fun e =>
            if !f.selects e then some e
            else if e.lrn then (if e.tag.ds then some e else none)
            else if !e.tag.visible s.staging then some e
            else if s.madeInStaging e.tag then none
            else some { e with tag := { e.tag with died := s.staging, ds := true } }
        else s.slot k) ∧ OnlyIn [.out, .tabs, .gen] s t) ∧
  (∀ (f : Flush) (r : Ring) (d : Bytes) (s : State), s.tabs.flush = some f → f.ring = r.val → s.tabs.abort = none →
    s.tabs.dead = false → s.flt.corrupt.get 0 0x31 = 0 → s.seqAhead 5 = false → f.bucket = 131071 →
    (∀ k, (k / 4 = 131071 ∨ k / 4 = 262143) → s.slot k = none) → (s.ring r).inExec = some d →
    (∃ c, (s.ring r).ctx = some c ∧ c.kind = 1) → (∀ g ∈ s.tabs.flushWait, g.ring ≠ r.val) →
    ∃ t, exec (.seqRoutineResume 1) s = .next t ∧
      (∀ g, t.tabs.flush = some g → ∃ w ∈ s.tabs.flushWait, g = { w with room := g.room }) ∧
      Completed s t r d .ok f.deleted (leBytes 4 f.removed) ∧ OnlyIn [.regs, .cntCfg, .cnts, .out, .draws, .gen, .hif, .eic, .flt, .kiln, .pol, .glz, .tabs, .hbm] s t) ∧
  (∀ s : State, s.bit .emtAgeCtrl 0 0 16 = true → s.tabs.ageRuns = false →
    ∃ t, exec .agingLapStart s = .next t ∧ t.now = max s.now (s.tabs.ageStart + s.fld .emtAgeCtrl 0 0 15 0 * 1000000000) ∧
      t.tabs = { s.tabs with ageStart := t.now, ageRuns := true, ageNext := 0 } ∧ OnlyIn [.time, .tabs] s t) ∧
  (∀ (b : Fin 131072) (s : State), s.bit .emtAgeCtrl 0 0 16 = true → s.tabs.ageRuns = true → s.tabs.ageNext = b.val →
    s.tabs.sweep = none → s.tabs.dead = false → s.mode ≠ .standby → s.seqAhead 6 = false → s.sixFree .aging = true →
    s.flt.corrupt.get 0 0x31 = 0 → b.val < 131071 →
    ∃ t, exec (.agingSweepStep b) s = .next t ∧
      (let gone := (bothWays b).filter fun k => (s.slot k).any fun e => s.ageRemoves e (s.anyHit k)
       (gone = [] → t.tabs.ageNext = b.val + 1 ∧ t.tabs.sweep = none) ∧
       (gone ≠ [] → t.tabs.ageNext = b.val ∧ t.tabs.sweep = some ⟨b, gone, 0⟩)) ∧
      (∀ k, t.slot k =
        if (k / 4 = b.val ∨ k / 4 = 131072 + b.val) ∧ k < 1048576 then
          (s.slot k).bind fun e =>
            if !(e.lrn || bitOf 50 e.adata) then some e
            else if s.anyHit k then some { e with sw := false, rpt := false }
            else if !e.sw then some { e with sw := true }
            else if s.fld .emtLrnCtrl 0 0 1 0 = 1 && e.lrn && !e.tag.ds then some e
            else some { e with rpt := true }
        else s.slot k) ∧
      (∀ q k, q < 4 → k < 1048576 → t.hitAt q k =
        if k / 4 = b.val ∨ k / 4 = 131072 + b.val then false else s.hitAt q k) ∧ OnlyIn [.regs, .cntCfg, .cnts, .out, .draws, .gen, .hif, .eic, .flt, .kiln, .tabs] s t) ∧
  (∀ (b : Fin 131072) (gone : List Nat) (n : Nat) (s : State), s.tabs.sweep = some ⟨b, gone, n⟩ →
    (n < 3 → exec (.agingSweepStep b) s = .next { s with tabs := { s.tabs with sweep := some ⟨b, gone, n + 1⟩ } }) ∧
    (3 ≤ n → b.val < 131071 →
      ∃ t, exec (.agingSweepStep b) s = .next t ∧ t.tabs.sweep = none ∧ t.tabs.ageNext = b.val + 1 ∧
        (∀ k, t.slot k = if k ∈ gone then none else s.slot k) ∧ OnlyIn [.regs, .cntCfg, .cnts, .out, .draws, .gen, .hif, .eic, .flt, .kiln, .tabs] s t))

/-- O23. A clean exact-match result answers the matching visible entry's ADATA and slot, unless a sweep has already
removed it from the frame's quad, and sets HIT in that quad only; a fourth failure ends in an integrity punt. A
clean route result answers the ADATA of the visible route of the frame's family and VRF that agrees with the address
in the longest prefix. A learn of an absent key with a free slot makes a settled learned entry; a move rewrites the
ADATA of the learned entry that is visible in the frame's generation; the oldest key leaves the filter when its hold
ends. (R170, R171, R173, R188, R189, R191, R198, R199.) -/
def Obligations.LookupsAnswerAndLearn : Prop :=
  (∀ (f : Nat) (s : State), (s.frame f).issued = true → (s.frame f).exact.back = false → (s.frame f).ing = .landing →
    s.role (s.frame f) ≠ 0 →
    (let q := (s.frame f).slice / 4
     let kt := s.frameKtype (s.frame f)
     let key := s.frameKey16 (s.frame f)
     let bad := (List.range 2).any fun w => s.tabs.emPoison.contains (bucketKey q w (s.bucketOf w kt key))
     (bad = false →
       ∃ t, exec (.emLookupResult f 0) s = .next t ∧
         (match (s.emIn kt key (s.frame f).gen).filter fun e => !s.removedIn q e.1 with
           | some (k, e) => (t.frame f).exact = { back := true, hit := true, data := e.adata, lentry := k } ∧
               (∀ j p, t.hitAt j p = if j * 1048576 + p = q * 1048576 + k then true else s.hitAt j p)
           | none => (t.frame f).exact = { back := true } ∧ t.tabs = s.tabs) ∧
         (∀ j, t.slot j = s.slot j) ∧ (∀ g, g ≠ f → t.frame g = s.frame g) ∧ OnlyIn [.frames, .tabs, .cnts, .cntCfg] s t) ∧
     (∃ t, exec (.emLookupResult f 4) s = .next t ∧ (t.frame f).exact = { back := true, bad := true } ∧ OnlyIn [.cntCfg, .cnts, .out, .draws, .hif, .eic, .flt, .kiln, .frames, .tabs] s t))) ∧
  (∀ (f : Nat) (s : State), (s.frame f).issued = true → (s.frame f).route.back = false → (s.frame f).ing = .landing →
    s.lpmFam (s.frame f) ≠ 0 →
    (let x := s.frame f
     let node := nodeOf (s.lpmFam x) (s.lpmVrf x) (s.lpmAddr x)
     (s.tabs.lpmPoison.contains (x.slice / 4, node) = false →
       ∃ t, exec (.lpmLookupResult f 0) s = .next t ∧
         (match s.bestRoute (s.lpmFam x) (s.lpmVrf x) (s.lpmAddr x) x.gen with
           | some r => (t.frame f).route = { back := true, hit := true, data := r.adata }
           | none => (t.frame f).route = { back := true }) ∧
         (∀ g, g ≠ f → t.frame g = s.frame g) ∧ OnlyIn [.frames, .cnts, .cntCfg] s t) ∧
     (∃ t, exec (.lpmLookupResult f 4) s = .next t ∧ (t.frame f).route = { back := true, bad := true } ∧
       OnlyIn [.cntCfg, .cnts, .out, .hif, .eic, .flt, .kiln, .frames, .tabs] s t))) ∧
  (∀ (fam vrf : Nat) (addr : Bytes) (g : Gen) (r : Route) (s : State), s.bestRoute fam vrf addr g = some r →
    r ∈ s.tabs.routes ∧ r.tag.visible g = true ∧ r.fam = fam ∧ r.vrf = vrf ∧
    prefixEqual r.addr addr (famBytes fam) r.plen = true ∧
    (∀ x ∈ s.tabs.routes, x.tag.visible g = true → x.fam = fam → x.vrf = vrf →
      prefixEqual x.addr addr (famBytes fam) x.plen = true → x.plen ≤ r.plen)) ∧
  (∀ (j : LearnJob) (rest : List LearnJob) (s : State), s.tabs.dead = false → s.tabs.jobs = j :: rest →
    s.seqAhead 4 = false → s.flt.corrupt.get 0 0x31 = 0 →
    (∀ k, j.move = none → s.keySlots j.ktype j.key = [] → (s.scanSlots j.ktype j.key).find? s.slotFree = some k →
      ∃ t, exec .learnPlace s = .next t ∧ t.tabs.jobs = rest ∧
        t.slot k = some { tag := ⟨j.gen, 0, true, false⟩, ktype := j.ktype, key := j.key, adata := j.adata,
                          lrn := true, sw := false, rpt := false } ∧
        (∀ q, q < 4 → t.hitAt q k = true) ∧ (∀ p, p ≠ k → t.slot p = s.slot p) ∧ OnlyIn [.regs, .cntCfg, .cnts, .out, .draws, .gen, .hif, .eic, .flt, .kiln, .tabs] s t) ∧
    (∀ k e, j.move ≠ none → s.emIn j.ktype j.key j.gen = some (k, e) → e.lrn = true → e.tag.ds = false →
      ∃ t, exec .learnPlace s = .next t ∧ t.tabs.jobs = rest ∧ t.slot k = some { e with adata := j.adata } ∧
        (∀ p, p ≠ k → t.slot p = s.slot p) ∧ OnlyIn [.regs, .cntCfg, .cnts, .out, .draws, .gen, .hif, .eic, .flt, .kiln, .tabs] s t)) ∧
  (∀ (q : Quad) (k : LearnKey) (rest : List LearnKey) (s : State), s.learnFilter q = k :: rest →
    ∃ t, exec (.learnFilterExpire q) s = .next t ∧ t.learnFilter q = rest ∧ t.now = max s.now k.until_ ∧
      (∀ p, p ≠ q.val → t.learnFilter p = s.learnFilter p) ∧ OnlyIn [.time, .tabs] s t)

/-- O24. With a good record, room and log room, LPM_ADD appends a version born in STAGING; LPM_MODIFY changes ADATA of a
version made in STAGING, or marks the visible version to die in STAGING and appends a new one; LPM_DELETE removes or
marks it. Each is one change and completes with OK. (R54, R177, R198, R199, R561, Table 06.7.) -/
def Obligations.RoutesAreAddedModifiedAndDeleted : Prop :=
  (∀ (r : Ring) (d b : Bytes) (s : State), Executing s r 0x0040 d → SeqIdle s r 0x0040 → badRoute b = false →
    s.routeIn (routeOf b s.bornTag) = none → s.routeRoom (byteAt b 0) = true → s.logRoom 1 = true →
    ∃ t, exec (.lpmAdd r (some b)) s = .next t ∧
      t.tabs.routes = s.tabs.routes ++ [⟨⟨s.staging, 0, false, false⟩, byteAt b 0, leAt b 2 2, byteAt b 1,
        sliceOf b 16 16, leAt b 8 8⟩] ∧
      t.logUsed s.staging = s.logUsed s.staging + 1 ∧ Completed s t r d .ok 0 [] ∧ OnlyIn [.regs, .cntCfg, .cnts, .out, .draws, .gen, .hif, .eic, .flt, .kiln, .tabs] s t) ∧
  (∀ (r : Ring) (d b : Bytes) (old : Route) (s : State), Executing s r 0x0041 d → SeqIdle s r 0x0041 → badRoute b = false →
    s.routeIn (routeOf b s.bornTag) = some old → s.logRoom 1 = true →
    (s.madeInStaging old.tag = true ∨ s.routeRoom (byteAt b 0) = true) →
    ∃ t, exec (.lpmModify r (some b)) s = .next t ∧
      t.tabs.routes = (if s.madeInStaging old.tag then
          s.tabs.routes.map fun y => if y = old then { old with adata := leAt b 8 8 } else y
        else (s.tabs.routes.map fun y => if y = old then { old with tag := { old.tag with died := s.staging, ds := true } } else y)
          ++ [routeOf b ⟨s.staging, 0, false, false⟩]) ∧
      t.logUsed s.staging = s.logUsed s.staging + 1 ∧ Completed s t r d .ok 0 [] ∧ OnlyIn [.regs, .cntCfg, .cnts, .out, .draws, .gen, .hif, .eic, .flt, .kiln, .tabs] s t) ∧
  (∀ (r : Ring) (d b : Bytes) (old : Route) (s : State), Executing s r 0x0042 d → SeqIdle s r 0x0042 → badRoute b = false →
    s.routeIn (routeOf b s.bornTag) = some old → s.logRoom 1 = true →
    ∃ t, exec (.lpmDelete r (some b)) s = .next t ∧
      t.tabs.routes = (if s.madeInStaging old.tag then s.tabs.routes.filter fun y => y ≠ old
        else s.tabs.routes.map fun y => if y = old then { old with tag := { old.tag with died := s.staging, ds := true } } else y) ∧
      t.logUsed s.staging = s.logUsed s.staging + 1 ∧ Completed s t r d .ok 0 [] ∧ OnlyIn [.regs, .cntCfg, .cnts, .out, .draws, .gen, .hif, .eic, .flt, .kiln, .tabs] s t)

/-- O25. Where Proofing may visit a location, its visit leaves the location poisoned in no quad and counts a fix in each
quad it rewrote; a rule cell whose parity fails when it is read is poisoned in those quads; a shadow that differs
from agreeing quads counts in SHADOW_FIXES; a failed shadow read sets SHADOW_ERR and stops Proofing. The end of a
lap that has visited every location reports the whole seconds since the lap began, and PROOF_LATE exactly when they
exceed the limit. REBUILD sets REBUILD and REBUILDING and begins with the first location; a step of it poisons in
all quads a location that two or more hold poisoned, and writes the shadow of any other; the end, once no location
is left, clears REBUILD, REBUILDING and SHADOW_ERR. (R160, R161, R200, R201, R202, R203, R204, R205, R285.) -/
def Obligations.ProofingRepairsTheReplicas : Prop :=
  (∀ (l : TableLoc) (s : State), s.mayProof l = true → s.flt.corrupt.get 0 0x31 = 0 →
    (∃ t, exec (.proofingStep l .same) s = .next t ∧ (∀ q, q < 4 → t.poisonedAt q l = false) ∧
      (∀ q, q < 4 → t.cnt (cntEmt q 4) = if s.poisonedAt q l then (s.cnt (cntEmt q 4) + 1) % 2 ^ 48 else s.cnt (cntEmt q 4)) ∧
      OnlyIn [.regs, .cntCfg, .cnts, .out, .draws, .gen, .hif, .eic, .flt, .kiln, .tabs] s t) ∧
    (∀ qs : List Quad, ∃ t, exec (.proofingStep l (.quadsDiffer qs)) s = .next t ∧ (∀ q, q < 4 → t.poisonedAt q l = false) ∧
      (∀ q : Quad, t.cnt (cntEmt q 4) = if s.poisonedAt q l ∨ q ∈ qs then (s.cnt (cntEmt q 4) + 1) % 2 ^ 48
        else s.cnt (cntEmt q 4)) ∧ OnlyIn [.regs, .cntCfg, .cnts, .out, .draws, .gen, .hif, .eic, .flt, .kiln, .tabs] s t) ∧
    (∀ (qs : List Quad) (x : Fin 64) (c : Fin 1024), l = .ruleCell x c →
      ∃ t, exec (.proofingStep l (.parity qs)) s = .next t ∧ (∀ q : Quad, t.poisonedAt q l = decide (q ∈ qs)) ∧
        OnlyIn [.regs, .cntCfg, .cnts, .out, .draws, .gen, .hif, .eic, .flt, .kiln, .tabs] s t) ∧
    (∃ t, exec (.proofingStep l .shadowDiffers) s = .next t ∧
      t.fld .emtProofStatus 0 0 15 8 = min 255 (s.fld .emtProofStatus 0 0 15 8 + 1) ∧ OnlyIn [.regs, .out, .tabs] s t) ∧
    (∃ t, exec (.proofingStep l .shadowReadFailed) s = .next t ∧ t.proofOn = false ∧ OnlyIn [.regs, .tabs] s t)) ∧
  (∀ (l : TableLoc) (s : State), s.proofOn = true → s.tabs.dead = false → s.sixFree .lap = true → s.lapCovers = true →
    ∃ t, exec (.proofingStep l .lapEnd) s = .next t ∧
      t.fld .emtProofStatus 0 0 31 16 = min ((s.now - s.tabs.proofStart) / 1000000000) 65535 ∧
      t.bit .emtProofStatus 0 0 2 = decide (s.fld .emtProofCtrl 0 0 31 16 * 1000000000 < s.now - s.tabs.proofStart) ∧
      t.tabs.proofStart = s.now ∧ t.tabs.proofSeen = [] ∧ OnlyIn [.regs, .cntCfg, .cnts, .out, .draws, .gen, .hif, .eic, .flt, .kiln, .tabs] s t) ∧
  (∀ s : State, s.reachable .emtProofCtrl = true → s.tabs.dead = false → s.bit .emtProofCtrl 0 0 1 = false →
    ∃ t, exec (.proofRebuild .pf0) s = .next t ∧ t.bit .emtProofCtrl 0 0 1 = true ∧ t.bit .emtProofStatus 0 0 1 = true ∧
      t.tabs.rebuildAt = 0 ∧ OnlyIn [.regs, .tabs] s t) ∧
  (∀ (l : TableLoc) (n : Nat) (s : State), s.bit .emtProofCtrl 0 0 1 = true → s.tabs.dead = false →
    s.flt.corrupt.get 0 0x31 = 0 → s.seqAhead 6 = false → s.sixFree .rebuild = true → s.rebuildNext = some (l, n) →
    ∃ t, exec (.seqRoutineResume 1) s = .next t ∧ t.tabs.rebuildAt = n ∧
      (let many := 2 ≤ (List.range 4).countP fun q => s.poisonedAt q l
       (many → ∀ q, q < 4 → t.poisonedAt q l = true) ∧
       (¬ many → (∀ q, q < 4 → t.poisonedAt q l = s.poisonedAt q l) ∧
         Emits s t (.hostWrite (.pf .pf0) (s.reg .emtProofBase 0 0 + Config.shadowOffset (locNumber l) % 2 ^ 26)
           (Config.shadowImage (locNumber l) (s.imageAt l))))) ∧ OnlyIn [.out, .tabs] s t) ∧
  (∀ s : State, s.bit .emtProofCtrl 0 0 1 = true → s.tabs.dead = false → s.rebuildNext = none →
    ∃ t, exec .proofRebuildDone s = .next t ∧ t.bit .emtProofCtrl 0 0 1 = false ∧ t.bit .emtProofStatus 0 0 1 = false ∧
      t.bit .emtProofStatus 0 0 0 = false ∧ t.tabs.rebuildAt = 0 ∧ OnlyIn [.regs, .tabs] s t)

/-- O26. A due frame whose combined verdict is DROP is discarded and counted for the rule or for the base result; with
no destination it counts in EMT_NOROUTE, and an unprotected BLACK frame with such a verdict, FORWARD or ENCRYPT in
RSA_UNPROT_IN. FORWARD or BYPASS to an UP port, and ENCRYPT to a usable circuit, placed on die, joins the end of its
VOQ and claims a buffer of the smallest pool that fits; FORWARD to a BLACK port is discarded as RSA_UNPROT_OUT. A
lost tile's answer is an integrity discard. (R153, R155, R156, R157, R162, R174, R175, R320, R326, R563.) -/
def Obligations.ResultsTakeTheirVerdict : Prop :=
  (∀ (f : Nat) (s : State), PlainResult s f → (s.plan (s.frame f)).verdict = 1 →
    ∃ t, exec (.resultApply f) s = .next t ∧ t.frame f = {} ∧
      (let k := if (s.plan (s.frame f)).fromRule then cntRsa ((s.frame f).slice / 4) 0 else cntEmt ((s.frame f).slice / 4) 6
       t.cnt k = (s.cnt k + 1) % 2 ^ 48) ∧
      t.gen.refs.get 0 (s.frame f).gen.toNat = s.gen.refs.get 0 (s.frame f).gen.toNat - 1 ∧ OnlyIn [.cntCfg, .cnts, .out, .draws, .gen, .hif, .eic, .lanes, .frames, .nextFrame, .bpm, .fab, .sched, .cps, .glz, .bur, .tabs, .sampBkt, .sampLfsr, .sampSeq, .pmc] s t) ∧
  (∀ (f : Nat) (s : State), PlainResult s f → (s.plan (s.frame f)).verdict = 0 →
    ∃ t, exec (.resultApply f) s = .next t ∧ t.frame f = {} ∧
      (let k := if (s.frame f).unprotected then cntRsa ((s.frame f).slice / 4) 1 else cntEmt ((s.frame f).slice / 4) 0
       t.cnt k = (s.cnt k + 1) % 2 ^ 48) ∧ OnlyIn [.cntCfg, .cnts, .out, .draws, .gen, .hif, .eic, .lanes, .frames, .nextFrame, .bpm, .fab, .sched, .cps, .glz, .bur, .tabs, .sampBkt, .sampLfsr, .sampSeq, .pmc] s t) ∧
  (∀ (f : Nat) (s : State), PlainResult s f → (s.frame f).unprotected = true →
    ((s.plan (s.frame f)).verdict = 2 ∨ (s.plan (s.frame f)).verdict = 3) →
    ∃ t, exec (.resultApply f) s = .next t ∧ t.frame f = {} ∧
      t.cnt (cntRsa ((s.frame f).slice / 4) 1) = (s.cnt (cntRsa ((s.frame f).slice / 4) 1) + 1) % 2 ^ 48 ∧
      OnlyIn [.cntCfg, .cnts, .out, .draws, .gen, .hif, .eic, .lanes, .frames, .nextFrame, .bpm, .fab, .sched, .cps, .glz, .bur, .tabs, .sampBkt, .sampLfsr, .sampSeq, .pmc] s t) ∧
  (∀ (f : Nat) (s : State), PlainResult s f → (s.frame f).unprotected = false → (s.plan (s.frame f)).verdict = 2 →
    s.black (s.plan (s.frame f)).port = true →
    ∃ t, exec (.resultApply f) s = .next t ∧ t.frame f = {} ∧
      t.cnt (cntRsa ((s.frame f).slice / 4) 2) = (s.cnt (cntRsa ((s.frame f).slice / 4) 2) + 1) % 2 ^ 48 ∧
      OnlyIn [.cntCfg, .cnts, .out, .draws, .gen, .hif, .eic, .lanes, .frames, .nextFrame, .bpm, .fab, .sched, .cps, .glz, .bur, .tabs, .sampBkt, .sampLfsr, .sampSeq, .pmc] s t) ∧
  (∀ (f : Nat) (byp : Option Nat) (s : State), PlainResult s f →
    (let x := s.frame f
     let p := s.plan x
     let y := { x with outPort := p.port, cls := p.cls }
     ((p.verdict = 2 ∧ x.unprotected = false ∧ s.black p.port = false ∧ byp = none) ∨
       (p.verdict = 4 ∧ (x.unprotected = false ∨ s.bypassOk p.byp = true) ∧ byp = some p.byp)) →
     (s.port p.port).link = .up → s.placement y = .onDie → s.groupOnDie x.group = [] →
     ∃ t, exec (.resultApply f) s = .next t ∧ (t.frame f).outPort = p.port ∧ (t.frame f).cls = p.cls ∧
       (t.frame f).byp = byp ∧ (t.frame f).ing = .claiming ∧ (t.frame f).circuit = x.circuit ∧
       (t.voq y.voqKey).order = (s.voq y.voqKey).order ++ [f] ∧
       t.bpm.claims = s.bpm.claims ++ [⟨false, x.slice, x.set, firstPool x.len, firstPool x.len, x.requester, p.port * 8 + p.cls, f⟩] ∧
       OnlyIn [.cntCfg, .cnts, .out, .draws, .gen, .hif, .eic, .lanes, .frames, .nextFrame, .bpm, .fab, .sched, .cps, .glz, .bur, .tabs, .sampBkt, .sampLfsr, .sampSeq, .pmc] s t)) ∧
  (∀ (f : Nat) (v : CirVer) (s : State), PlainResult s f →
    (let x := s.frame f
     let p := s.plan x
     let y := { x with outPort := v.port, cls := p.cls }
     p.verdict = 3 → x.unprotected = false → s.encryptCheck x.slice p.circuit (x.len + 4) x.gen = .inr v →
     (s.port v.port).link = .up → s.placement y = .onDie → s.groupOnDie x.group = [] →
     ∃ t, exec (.resultApply f) s = .next t ∧ (t.frame f).outPort = v.port ∧ (t.frame f).cls = p.cls ∧
       (t.frame f).circuit = some p.circuit ∧ (t.frame f).prog = v.rewrite ∧ (t.frame f).ing = .claiming ∧
       (t.voq y.voqKey).order = (s.voq y.voqKey).order ++ [f] ∧
       t.bpm.claims = s.bpm.claims ++ [⟨false, x.slice, x.set, firstPool x.len, firstPool x.len, x.requester, v.port * 8 + p.cls, f⟩] ∧
       OnlyIn [.cntCfg, .cnts, .out, .draws, .gen, .hif, .eic, .lanes, .frames, .nextFrame, .bpm, .fab, .sched, .cps, .glz, .bur, .tabs, .sampBkt, .sampLfsr, .sampSeq, .pmc] s t)) ∧
  (∀ (f : Nat) (s : State), PlainResult s f → (s.plan (s.frame f)).verdict = 5 → (s.plan (s.frame f)).fromRule = true →
    s.copyTake (bitsOf 47 36 (s.frame f).rule.data) ((s.frame f).slice / 4) (bitsOf 52 49 (s.frame f).rule.data) = none →
    ∃ t, exec (.resultApply f) s = .next t ∧ t.frame f = {} ∧
      t.cnt (cntRsa ((s.frame f).slice / 4) 4) = (s.cnt (cntRsa ((s.frame f).slice / 4) 4) + 1) % 2 ^ 48 ∧
      OnlyIn [.cntCfg, .cnts, .out, .draws, .gen, .hif, .eic, .lanes, .frames, .nextFrame, .bpm, .fab, .sched, .cps, .glz, .bur, .tabs, .sampBkt, .sampLfsr, .sampSeq, .pmc] s t) ∧
  (∀ (f : Nat) (s : State), s.resultDue f = true → (s.frame f).rule.lost = true → s.bit .pmcSampCtrl 0 0 28 = false →
    s.role (s.frame f) ≠ 2 →
    ∃ t, exec (.resultApply f) s = .next t ∧ t.frame f = {} ∧
      t.cnt (cntRsa ((s.frame f).slice / 4) 5) = (s.cnt (cntRsa ((s.frame f).slice / 4) 5) + 1) % 2 ^ 48 ∧
      OnlyIn [.cntCfg, .cnts, .out, .draws, .gen, .hif, .eic, .lanes, .frames, .nextFrame, .bpm, .fab, .sched, .cps, .glz, .bur, .tabs, .sampBkt, .sampLfsr, .sampSeq, .pmc] s t)

/-- O27. A good CIR_WRITE record whose EQ no other circuit of the slice uses, with room in the pool and the log, becomes
the version of STAGING, with TX_SEL of the version visible there unless the slice or the EQ changes, and OVH as R218
gives. CIR_DELETE of a circuit without SAs removes or marks the visible version. CIR_READ writes the context visible
in a live generation, with NEXT_VER free, and answers the circuit's state. All complete with OK and touch no other
circuit. (R54, R207, R208, R211, R212, R214, R215, R218, R562, Table 07.2.) -/
def Obligations.CircuitsAreWrittenDeletedAndRead : Prop :=
  (∀ (r : Ring) (d b : Bytes) (s : State), Executing s r 0x0050 d → SeqIdle s r 0x0050 → s.badCircuit b = false →
    s.eqBusy (leAt d 0x10 2) (byteAt b 9) (leAt b 0x0A 2) = false → PoolRoom s (leAt d 0x10 2) → s.logRoom 1 = true →
    ∃ t v, exec (.cirWrite r (some b)) s = .next t ∧
      t.cirVers (leAt d 0x10 2) = newVersions s (s.cirVers (leAt d 0x10 2)) v ∧
      v.tag = ⟨s.staging, 0, false, false⟩ ∧ v.mode = byteAt b 8 ∧ v.port = byteAt b 9 ∧ v.eq = leAt b 0x0A 2 ∧
      v.rewrite = leAt b 0x0C 2 ∧ v.flags = byteAt b 0x0F ∧ v.hdrMax = byteAt b 0x12 ∧ v.data = sliceOf b 0x40 448 ∧
      v.poison = false ∧
      (∀ o, s.cirAt (leAt d 0x10 2) s.staging = some o → o.poison = false →
        v.txSel = if o.port / 8 = v.port / 8 ∧ o.eq = v.eq then o.txSel else 0xFF) ∧
      (s.cirAt (leAt d 0x10 2) s.staging = none → v.txSel = 0xFF) ∧
      (v.mode = 1 → v.ovh = 24 + 8 * boolBit (bitOf 0 v.flags) + s.growth v.rewrite (byteAt b 0x4C)) ∧
      (v.mode = 2 → v.ovh = 57 + 20 * boolBit (bitOf 5 v.flags) + s.growth v.rewrite (byteAt b 0x4C)) ∧
      (v.mode = 3 → v.ovh = 37 + s.growth v.rewrite (byteAt b 0x4C)) ∧
      (∀ c, c ≠ leAt d 0x10 2 → t.cirVers c = s.cirVers c) ∧ t.logUsed s.staging = s.logUsed s.staging + 1 ∧
      Completed s t r d .ok 0 [] ∧ OnlyIn [.regs, .cntCfg, .cnts, .out, .draws, .gen, .hif, .eic, .flt, .kiln, .units, .glz, .tabs, .hbm] s t) ∧
  (∀ (r : Ring) (d : Bytes) (v : CirVer) (s : State), Executing s r 0x0051 d → SeqIdle s r 0x0051 →
    s.cirAt (leAt d 0x10 2) s.staging = some v →
    (∀ k, k < 4 → s.saIn (4 * leAt d 0x10 2 + k) s.staging = none) → s.logRoom 1 = true →
    ∃ t, exec (.cirDelete r) s = .next t ∧
      t.cirVers (leAt d 0x10 2) = (if s.madeInStaging v.tag then (s.cirVers (leAt d 0x10 2)).filter (· ≠ v)
        else (s.cirVers (leAt d 0x10 2)).map fun x =>
          if x = v then { x with tag := { x.tag with died := s.staging, ds := true } } else x) ∧
      (∀ c, c ≠ leAt d 0x10 2 → t.cirVers c = s.cirVers c) ∧ t.logUsed s.staging = s.logUsed s.staging + 1 ∧
      Completed s t r d .ok 0 [] ∧ OnlyIn [.regs, .cntCfg, .cnts, .out, .draws, .gen, .hif, .eic, .flt, .kiln, .glz, .tabs] s t) ∧
  (∀ (r : Ring) (d : Bytes) (v : CirVer) (s : State), Executing s r 0x0052 d → SeqIdle s r 0x0052 →
    s.live (BitVec.ofNat 16 (leAt d 0x12 2)) = true →
    s.cirAt (leAt d 0x10 2) (BitVec.ofNat 16 (leAt d 0x12 2)) = some v →
    ∃ t next, exec (.cirRead r true) s = .next t ∧ Emits s t (.hostWrite (s.ringReq r) (descAddr d) (v.bytes next)) ∧
      (let x := s.cirState (leAt d 0x10 2)
       Completed s t r d .ok 0 (leBytes 1 (boolBit x.disabled + 2 * boolBit x.suspended + 4 * boolBit (!x.flushes.isEmpty)))) ∧
      t.glz = s.glz ∧ OnlyIn [.regs, .cntCfg, .cnts, .out, .draws, .gen, .hif, .eic, .flt, .kiln, .tabs] s t)

/-- O28. CIR_DISABLE disables the circuit; in DRAIN mode it completes with OK at once and waits with a drain for the
frames then queued, and in DISCARD mode every frame of the circuit queued on die leaves the device, and the command
completes at once where no deep portion of the circuit's ports holds an item. A drain ends when the last frame
queued at its disable has left, and a flush when each deep portion is past the item that was its last, which
completes its command. CIR_ENABLE enables the circuit while no flush runs; CIR_RESUME lifts the suspension while no
poisoned SA or version is visible in CURRENT or STAGING. (R249, R250, R251, R252, R253, R334.) -/
def Obligations.CircuitsAreDisabledEnabledAndResumed : Prop :=
  (∀ (r : Ring) (d : Bytes) (s : State), Executing s r 0x0053 d → (s.cirState (leAt d 0x10 2)).flushes = [] →
    (s.bit .cirDisableMode 0 0 0 = false →
      ∃ t, exec (.cirDisable r) s = .next t ∧ (t.cirState (leAt d 0x10 2)).disabled = true ∧
        (t.cirState (leAt d 0x10 2)).flushes = [] ∧
        (t.cirState (leAt d 0x10 2)).drains = ((s.cirState (leAt d 0x10 2)).drains ++
          [s.cirFrames (leAt d 0x10 2) Frame.queuedNow]).filter (fun l => !s.drainOver l) ∧ (∀ f, t.frame f = s.frame f) ∧
        (∀ c, c ≠ leAt d 0x10 2 → t.cirState c = s.cirState c) ∧ Completed s t r d .ok 0 [] ∧
        OnlyIn [.cntCfg, .cnts, .out, .hif, .eic, .flt, .kiln, .glz] s t) ∧
    (s.bit .cirDisableMode 0 0 0 = true →
      ∃ t, exec (.cirDisable r) s = .next t ∧ (t.cirState (leAt d 0x10 2)).disabled = true ∧
        (∀ f ∈ s.cirFrames (leAt d 0x10 2) (fun x => x.queuedNow && !x.inDeep), t.frame f = {}) ∧
        ((∀ k ∈ s.cirVoqs (leAt d 0x10 2), (s.voq k).reading = [] ∧ (s.voq k).deep = []) →
          (t.cirState (leAt d 0x10 2)).flushes = [] ∧ (t.ring r).inExec = none) ∧
        OnlyIn [.cntCfg, .cnts, .out, .gen, .hif, .eic, .flt, .kiln, .lanes, .frames, .bpm, .fab, .sched, .cps, .glz, .bur] s t)) ∧
  (∀ (r : Ring) (d : Bytes) (s : State), Executing s r 0x0054 d → (s.cirState (leAt d 0x10 2)).flushes = [] →
    ∃ t, exec (.cirEnable r) s = .next t ∧
      t.cirState (leAt d 0x10 2) = { s.cirState (leAt d 0x10 2) with disabled := false } ∧
      (∀ c, c ≠ leAt d 0x10 2 → t.cirState c = s.cirState c) ∧ Completed s t r d .ok 0 [] ∧ OnlyIn [.cntCfg, .cnts, .out, .hif, .eic, .flt, .kiln, .glz] s t) ∧
  (∀ (c : Circuit) (s : State), ∃ t, exec (.cirDrainDone c) s = .next t ∧
      (t.cirState c).drains = (s.cirState c).drains.filter (fun l => !s.drainOver l) ∧
      (t.cirState c).flushes = (s.cirState c).flushes ∧ (t.cirState c).disabled = (s.cirState c).disabled ∧ OnlyIn [.cntCfg, .cnts, .out, .hif, .eic, .glz] s t) ∧
  (∀ (c : Circuit) (r : Ring) (d : Bytes) (w : CirFlush) (s : State),
    (s.cirState c).flushes.filter s.flushOver = [w] → w.ring = some r.val → (s.ring r).inExec = some d → (∃ x, (s.ring r).ctx = some x ∧ x.kind = 1) →
    ∃ t, exec (.cirFlushDone c) s = .next t ∧ (t.cirState c).flushes = (s.cirState c).flushes.filter (fun y => !s.flushOver y) ∧ Completed s t r d .ok 0 [] ∧
      OnlyIn [.cntCfg, .cnts, .out, .hif, .eic, .flt, .kiln, .glz] s t) ∧
  (∀ (r : Ring) (d : Bytes) (s : State), Executing s r 0x0064 d → s.poisonIn (leAt d 0x10 2) s.gen.current = false →
    s.poisonIn (leAt d 0x10 2) s.staging = false →
    ∃ t, exec (.cirResume r) s = .next t ∧
      t.cirState (leAt d 0x10 2) = { s.cirState (leAt d 0x10 2) with suspended := false } ∧
      (∀ c, c ≠ leAt d 0x10 2 → t.cirState c = s.cirState c) ∧ Completed s t r d .ok 0 [] ∧ OnlyIn [.cntCfg, .cnts, .out, .hif, .eic, .flt, .kiln, .glz] s t)

/-- O29. SA_LOAD of a record and blob that pass R562's checks, into an empty slot, stores an SA born in STAGING with the
unwrapped key under the storage key in force. SA_DELETE of a slot that TX_SEL does not name removes or marks it.
SA_SELECT_TX of a TX SA that is unbound, or bound to the circuit's slice and EQ, writes a version with that TX_SEL;
an unbound SA becomes bound and its number starts at INIT_PN. SA_READ writes no key. The end of a holdoff with
failures writes their number and starts anew. (R54, R209, R210, R213, R214, R243, R244, R245, R246, R562, Table
07.3.) -/
def Obligations.SecurityAssociationsAreLoadedAndSelected : Prop :=
  (∀ (r : Ring) (d b plain : Bytes) (v : CirVer) (s : State), Executing s r 0x0060 d → SeqIdle s r 0x0060 →
    badSaRecord b = false → badBlob (sliceOf b 64 64) = false → s.cirAt (leAt b 0 2) s.staging = some v →
    suiteMacsec (byteAt b 4) = decide (v.mode = 1) → (byteAt b 3 = 1 → byteAt b 7 / 8 = v.port / 8) →
    s.saOf (4 * leAt b 0 2 + byteAt b 2) = none →
    (s.glz.sa.any fun _ x => x.any fun x => x.sameKey (s.saFrom b [])) = false → byteAt b 67 = s.fuses.kekSlot →
    kwUnwrap (s.kek s.fuses.kekSlot) (sliceOf (sliceOf b 64 64) 16 (leAt (sliceOf b 64 64) 8 2)) = some plain →
    bindingOk (sliceOf b 64 64) plain (byteAt b 4) = true → s.logRoom 1 = true →
    ∃ t a, exec (.saLoad r (some b)) s = .next t ∧ t.saOf (4 * leAt b 0 2 + byteAt b 2) = some a ∧
      a.tag = ⟨s.staging, 0, false, false⟩ ∧ a.tx = decide (byteAt b 3 = 0) ∧ a.suite = byteAt b 4 ∧ a.an = byteAt b 5 ∧
      a.initPn = leAt b 48 8 ∧ a.softPn = leAt b 40 8 ∧ a.window = leAt b 32 2 ∧ a.keyStore = ⟨s.storageKey, plain.drop 8⟩ ∧ a.bound = none ∧
      (byteAt b 3 = 1 → a.rxTop = leAt b 48 8 - 1 ∧ a.bitmap = 2 ^ 1024 - 1) ∧
      (∀ i, i ≠ 4 * leAt b 0 2 + byteAt b 2 → t.saOf i = s.saOf i) ∧ Completed s t r d .ok 0 [] ∧ OnlyIn [.regs, .cntCfg, .cnts, .out, .draws, .gen, .hif, .eic, .flt, .kiln, .units, .glz, .tabs, .hbm] s t) ∧
  (∀ (r : Ring) (d : Bytes) (x : Sa) (s : State), Executing s r 0x0061 d → SeqIdle s r 0x0061 →
    s.saIn (4 * leAt d 0x10 2 + byteAt d 0x12) s.staging = some x →
    (∀ v, s.cirAt (leAt d 0x10 2) s.staging = some v → v.txSel ≠ byteAt d 0x12) → s.logRoom 1 = true →
    ∃ t, exec (.saDelete r) s = .next t ∧
      t.saOf (4 * leAt d 0x10 2 + byteAt d 0x12) = (if s.madeInStaging x.tag then none
        else some { x with tag := { x.tag with died := s.staging, ds := true } }) ∧
      (∀ i, i ≠ 4 * leAt d 0x10 2 + byteAt d 0x12 → t.saOf i = s.saOf i) ∧ Completed s t r d .ok 0 [] ∧ OnlyIn [.regs, .cntCfg, .cnts, .out, .draws, .gen, .hif, .eic, .flt, .kiln, .glz, .tabs] s t) ∧
  (∀ (r : Ring) (d : Bytes) (v : CirVer) (x : Sa) (s : State), Executing s r 0x0062 d → SeqIdle s r 0x0062 →
    s.cirAt (leAt d 0x10 2) s.staging = some v → byteAt d 0x12 ≤ 3 →
    s.saIn (4 * leAt d 0x10 2 + byteAt d 0x12) s.staging = some x → x.tx = true →
    (x.bound = none ∨ x.bound = some (v.port / 8, v.eq)) → PoolRoom s (leAt d 0x10 2) → s.logRoom 1 = true →
    ∃ t, exec (.saSelectTx r) s = .next t ∧
      t.cirVers (leAt d 0x10 2) = newVersions s (s.cirVers (leAt d 0x10 2))
        { v with tag := ⟨s.staging, 0, false, false⟩, txSel := byteAt d 0x12 } ∧
      (t.saOf (4 * leAt d 0x10 2 + byteAt d 0x12)).map (fun a => (a.bound, a.keyStore, a.initPn)) =
        some (some (v.port / 8, v.eq), x.keyStore, x.initPn) ∧
      (x.bound = none → t.glz.nextPn.get 0 (pnKey (v.port / 8) v.eq (byteAt d 0x12)) = x.initPn ∧
        t.glz.nextPnB.get 0 (pnKey (v.port / 8) v.eq (byteAt d 0x12)) = x.initPn ∧
        (s.staging.toNat, 4 * leAt d 0x10 2 + byteAt d 0x12) ∈ t.gen.bindings) ∧
      (x.bound ≠ none → t.glz.nextPn = s.glz.nextPn ∧ t.glz.nextPnB = s.glz.nextPnB) ∧ Completed s t r d .ok 0 [] ∧ OnlyIn [.regs, .cntCfg, .cnts, .out, .draws, .gen, .hif, .eic, .flt, .kiln, .units, .glz, .tabs, .hbm] s t) ∧
  (∀ (r : Ring) (d : Bytes) (x : Sa) (s : State), Executing s r 0x0063 d → SeqIdle s r 0x0063 →
    s.live (BitVec.ofNat 16 (leAt d 0x14 2)) = true →
    s.saIn (4 * leAt d 0x10 2 + byteAt d 0x12) (BitVec.ofNat 16 (leAt d 0x14 2)) = some x →
    ∃ t, exec (.saRead r true) s = .next t ∧ Completed s t r d .ok 0 [] ∧
      Emits s t (.hostWrite (s.ringReq r) (descAddr d) (s.saBytes (4 * leAt d 0x10 2 + byteAt d 0x12) x)) ∧
      (∀ k, s.saBytes (4 * leAt d 0x10 2 + byteAt d 0x12) { x with keyStore := k } =
        s.saBytes (4 * leAt d 0x10 2 + byteAt d 0x12) x) ∧ t.glz = s.glz ∧ OnlyIn [.regs, .cntCfg, .cnts, .out, .draws, .gen, .hif, .eic, .flt, .kiln, .tabs] s t) ∧
  (∀ (c : Circuit) (s : State), (s.cirState c).icvEnd ≠ 0 →
    ((s.cirState c).icvCount = 0 ∨ (s.cirState c).icvSa / 4 = c.val) →
    ∃ t, exec (.icvHoldoffEnd c) s = .next t ∧ t.now = max s.now (s.cirState c).icvEnd ∧ (t.cirState c).icvCount = 0 ∧
      ((s.cirState c).icvCount = 0 → (t.cirState c).icvEnd = 0) ∧
      ((s.cirState c).icvCount ≠ 0 → s.fld .cirEvtCtrl 0 0 15 0 ≠ 0 →
        (t.cirState c).icvEnd = t.now + s.fld .cirEvtCtrl 0 0 15 0 * 1000000) ∧ OnlyIn [.time, .cntCfg, .cnts, .out, .hif, .eic, .glz] s t)

/-- O30. A security header whose key is held by an SA visible in the frame's generation, of a circuit that is neither
disabled nor suspended, resolves to it, with the number inferred from RX_TOP, and a frame to be decrypted waits for
plaintext; one whose key no SA holds ends its walk in acceptance and counts in CIR_RX_NOSA. A lane whose ICV is
equal yields the plaintext; one whose ICV differs discards the frame as CIR_ICV_FAIL; a failed lane check tries
another lane. (R20, R128, R236, R238, R239, R242, R243.) -/
def Obligations.ReceivedFramesAreDecrypted : Prop :=
  (∀ (f i : Nat) (p : SecPart) (a : Sa) (v : CirVer) (s : State),
    (s.frame f).sec = some p → (s.frame f).walk.st = .waitSa → p.asked = false → (s.frame f).ing = .landing →
    s.holder (s.frame f).port p.kind (p.key (s.frame f).body) = some (i, a) → s.cirAt (i / 4) (s.frame f).gen = some v →
    s.indexed (s.frame f).port p.kind (p.key (s.frame f).body) = true → a.tag.visible (s.frame f).gen = true →
    (s.cirState (i / 4)).disabled = false → (s.cirState (i / 4)).suspended = false →
    (if p.kind = 1 then bitOf 3 (byteAt (s.frame f).body (p.off + 2)) = true else v.mode = 2) →
    ∃ t, exec (.rxSaResolve f) s = .next t ∧ (t.frame f).walk.st = .waitPlain ∧
      ((t.frame f).sec.any fun q => q.sa = some i && q.number = a.infer (p.wireNumber (s.frame f).body) && q.off = p.off) = true ∧
      OnlyIn [.cntCfg, .cnts, .out, .gen, .hif, .eic, .lanes, .frames, .bpm, .fab, .sched, .cps, .glz, .bur, .tabs, .sampBkt] s t) ∧
  (∀ (f : Nat) (p : SecPart) (s : State), (s.frame f).sec = some p → p.sa = none → (s.frame f).walk.st = .waitSa →
    p.asked = false → (s.frame f).ing = .landing →
    s.holder (s.frame f).port p.kind (p.key (s.frame f).body) = none → FirstToIssue s f →
    ∃ t, exec (.rxSaResolve f) s = .next t ∧ (t.frame f).walk.st = .accepted ∧ (t.frame f).issued = true ∧
      t.cnt (cntGlz (s.frame f).slice 6) = (s.cnt (cntGlz (s.frame f).slice 6) + 1) % 2 ^ 48 ∧ OnlyIn [.cntCfg, .cnts, .out, .gen, .hif, .eic, .lanes, .frames, .bpm, .fab, .sched, .cps, .glz, .bur, .tabs, .sampBkt] s t) ∧
  (∀ (f k l : Nat) (p : SecPart) (a : Sa) (s : State), (s.frame f).sec = some p → p.sa = some k → s.saOf k = some a →
    p.lane = some l → p.plain = none → (s.frame f).ended = true → (s.frame f).ing = .landing → (s.frame f).due = true →
    s.flt.corrupt.get 0 (0x100 + 12 * (s.frame f).slice + l) = 0 →
    (((s.frame f).decrypted p a (a.openKey s.storageKey)).2 = true →
      ∃ t, exec (.decryptComplete f false) s = .next t ∧
        ((t.frame f).sec.any fun q => q.plain = some ((s.frame f).decrypted p a (a.openKey s.storageKey)).1 && q.icvOk && q.lane.isNone) = true ∧
        OnlyIn [.cntCfg, .cnts, .out, .gen, .hif, .eic, .flt, .kiln, .lanes, .frames, .bpm, .fab, .sched, .cps, .glz, .bur, .tabs, .sampBkt, .pmc] s t) ∧
    (((s.frame f).decrypted p a (a.openKey s.storageKey)).2 = false →
      ∃ t, exec (.decryptComplete f false) s = .next t ∧ t.frame f = {} ∧
        t.cnt (cntGlz (s.frame f).slice 7) = (s.cnt (cntGlz (s.frame f).slice 7) + 1) % 2 ^ 48 ∧ OnlyIn [.cntCfg, .cnts, .out, .gen, .hif, .eic, .flt, .kiln, .lanes, .frames, .bpm, .fab, .sched, .cps, .glz, .bur, .tabs, .sampBkt, .pmc] s t) ∧
    (∀ l', (s.activeLanes (s.frame f).slice).find? (· ≠ l) = some l' → p.attempts < 2 →
      ∃ t, exec (.decryptComplete f true) s = .next t ∧
        (t.frame f).sec = some { p with attempts := p.attempts + 1, lane := some l' } ∧ OnlyIn [.cntCfg, .cnts, .out, .gen, .hif, .eic, .flt, .kiln, .lanes, .frames, .bpm, .fab, .sched, .cps, .glz, .bur, .tabs, .sampBkt, .pmc] s t))

/-- O31. The first frame of its port, decrypted with the number that the SA infers now and accepted, updates the SA's
window and takes its prepared bytes; a rejected one is discarded, counted in CIR_REPLAY, and leaves the window; one
with another number is decrypted again with that number. For every receive SA with REPLAY_EN and a window of at most
1,024, after a number is accepted, and after any further sequence of numbers is accepted, each acceptable when its
turn came, the number is rejected. (R20, R238, R240, R241.) -/
def Obligations.ReplayUnitAcceptsEachNumberOnce : Prop :=
  (∀ (f k : Nat) (p : SecPart) (a : Sa) (d : Bytes) (s : State), (s.frame f).sec = some p → p.sa = some k →
    s.saOf k = some a → p.plain = some d → p.checked = false → (s.frame f).ing = .landing →
    (s.frame f).walk.st = .accepted → s.replayBefore f = false →
    (let n := a.infer (p.wireNumber (s.frame f).body)
     (n = p.number → a.accepts n = true → ∀ bs, s.prepare (s.frame f) p d = .frame bs → bs.length + 4 ≤ 10240 →
       ∃ t, exec (.replayCheck f) s = .next t ∧ t.saOf k = some (a.accepted n) ∧ (t.frame f).bytes = bs ∧
         ((t.frame f).sec.any fun q => q.checked) = true ∧ (∀ g, g ≠ f → t.frame g = s.frame g) ∧ OnlyIn [.cntCfg, .cnts, .out, .gen, .hif, .eic, .lanes, .frames, .bpm, .fab, .sched, .cps, .glz, .bur, .tabs, .sampBkt, .pmc] s t) ∧
     (n = p.number → a.accepts n = false →
       ∃ t, exec (.replayCheck f) s = .next t ∧ t.saOf k = some a ∧ t.frame f = {} ∧
         t.cnt (cntGlz (s.frame f).slice 8) = (s.cnt (cntGlz (s.frame f).slice 8) + 1) % 2 ^ 48 ∧ OnlyIn [.cntCfg, .cnts, .out, .gen, .hif, .eic, .lanes, .frames, .bpm, .fab, .sched, .cps, .glz, .bur, .tabs, .sampBkt, .pmc] s t) ∧
     (n ≠ p.number →
       ∃ t, exec (.replayCheck f) s = .next t ∧ t.saOf k = some a ∧
         ((t.frame f).sec.any fun q => q.number = n && q.plain.isNone && q.sa = some k) = true ∧ OnlyIn [.cntCfg, .cnts, .out, .gen, .hif, .eic, .lanes, .frames, .bpm, .fab, .sched, .cps, .glz, .bur, .tabs, .sampBkt, .pmc] s t))) ∧
  (∀ (a : Sa) (n : Nat) (later : List Nat), a.replayEn = true → a.window ≤ 1024 → a.accepts n = true →
    (later.foldl (fun (x : Sa) m => if x.accepts m then x.accepted m else x) (a.accepted n)).accepts n = false)

/-- O32. When both computations of the first frame of a pair are equal, and its header is within HDR_MAX, the frame is
protected and ready with a lockstep match as its proof; a longer header discards it. A first miscompare counts and
leaves the frame on the pair, a second fences the pair, a third discards the frame. When the comparators disagree,
the slice's critical line is asserted. Lanes that read differing copies of the entry miscompare; a copy that cannot
be read sends the entry to be refilled, as one transient event, while the frame waits; when the copies of NEXT_PN
disagree the SA is poisoned and the frame discarded. When a frame takes its number, the number is NEXT_PN of the
SA's bound slice and EQ, is within the hard limit, and NEXT_PN is then one more in both copies, so that no later
frame takes it; the transmit state of every other slice, EQ and slot is unchanged. At a NEXT_PN beyond the hard
limit no number is taken. (R32, R93, R229, R230, R231, R232, R234, Table 07.6, R19, R224, R228.) -/
def Obligations.LanePairsReleaseOnlyMatchedFrames : Prop :=
  (∀ (i : Slice) (u : Fin 12) (f : Nat) (rest : List Nat) (e : TxEntry) (a : Sa) (v : CirVer) (s : State), s.mode ≠ .safe →
    (s.pair i u).frames = f :: rest → s.flt.corrupt.get 0 (pairSource i u) = 0 → f ∉ s.movedIn i → f ∉ s.waitingIn i →
    (s.frame f).outPort / 8 = i.val → s.laneEntry f = some e → e.resident = true → e.copyA = some ⟨a, v⟩ →
    e.copyB = some ⟨a, v⟩ → s.wordBad (txInst i) (cacheObject e.idx false) = false →
    s.wordBad (txInst i) (cacheObject e.idx true) = false →
    ((s.frame f).output.secOff ≤ v.hdrMax →
      ∃ t, exec (.lockstepCompare i u .equal) s = .next t ∧ (t.frame f).eg = .ready ∧ (t.frame f).proof = .lockstep ∧
        (t.frame f).output.bytes = protect (s.frame f).output a (a.openKey s.storageKey) v (s.frame f).number ∧ OnlyIn [.mode, .cntCfg, .cnts, .out, .draws, .gen, .hif, .eic, .flt, .kiln, .units, .lanes, .frames, .bpm, .fab, .sched, .cps, .glz, .bur, .hbm] s t) ∧
    (v.hdrMax < (s.frame f).output.secOff →
      ∃ t, exec (.lockstepCompare i u .equal) s = .next t ∧ t.frame f = {} ∧ OnlyIn [.mode, .cntCfg, .cnts, .out, .draws, .gen, .hif, .eic, .flt, .kiln, .units, .lanes, .frames, .bpm, .fab, .sched, .cps, .glz, .bur, .hbm] s t)) ∧
  (∀ (i : Slice) (u : Fin 12) (f : Nat) (rest : List Nat) (e : TxEntry) (s : State), s.mode ≠ .safe →
    (s.pair i u).frames = f :: rest → s.flt.corrupt.get 0 (pairSource i u) = 0 → (s.frame f).outPort / 8 = i.val →
    s.laneEntry f = some e → e.resident = true → s.wordBad (txInst i) (cacheObject e.idx false) = false →
    s.wordBad (txInst i) (cacheObject e.idx true) = false →
    ((s.lanes f e).1 ≠ (s.lanes f e).2 →
      exec (.lockstepCompare i u .equal) s = exec (.lockstepCompare i u .miscompare) s) ∧
    (∀ b, ∃ t, exec (.lockstepCompare i u (.copyError b)) s = .next t ∧ t.frames = s.frames ∧
      t.cache i = (s.cache i).map (fun x => if x = e then { x with resident := false } else x) ∧
      t.kiln.retry.get 0 2 = s.kiln.retry.get 0 2 + 1 ∧ OnlyIn [.glz, .kiln] s t) ∧
    (s.frame f ≠ {} →
      ∃ t, exec (.lockstepCompare i u .numbersDisagree) s = .next t ∧ t.frame f = {} ∧
        (∀ a, s.saOf (s.frame f).txSa = some a → a.poison = false →
          ((t.saOf (s.frame f).txSa).any fun x => x.poison) = true ∧ (t.cirState ((s.frame f).txSa / 4)).suspended = true) ∧
        OnlyIn [.mode, .cntCfg, .cnts, .out, .draws, .gen, .hif, .eic, .flt, .kiln, .units, .lanes, .frames, .bpm, .fab, .sched, .cps, .glz, .bur, .hbm] s t) ∧
    exec (.lockstepCompare i u .comparatorsDisagree) s = .next (s.criticalLine (0x4E0 + i.val)) ∧
    ((s.frame f).glzAttempts = 0 →
      ∃ t, exec (.lockstepCompare i u .miscompare) s = .next t ∧ (t.frame f).glzAttempts = 1 ∧
        (t.frame f).proof = (s.frame f).proof ∧ (t.pair i u).frames = f :: rest ∧
        t.cnt (cntGlz i 0) = (s.cnt (cntGlz i 0) + 1) % 2 ^ 48 ∧ OnlyIn [.mode, .cntCfg, .cnts, .out, .draws, .gen, .hif, .eic, .flt, .kiln, .units, .lanes, .frames, .bpm, .fab, .sched, .cps, .glz, .bur, .hbm] s t) ∧
    ((s.frame f).glzAttempts = 1 →
      ∃ t, exec (.lockstepCompare i u .miscompare) s = .next t ∧ (t.encMap i).fenced.contains u.val = true ∧
        t.cnt (cntGlz i 0) = (s.cnt (cntGlz i 0) + 1) % 2 ^ 48 ∧ OnlyIn [.mode, .cntCfg, .cnts, .out, .draws, .gen, .hif, .eic, .flt, .kiln, .units, .lanes, .frames, .bpm, .fab, .sched, .cps, .glz, .bur, .hbm] s t) ∧
    (2 ≤ (s.frame f).glzAttempts → s.frame f ≠ {} →
      ∃ t, exec (.lockstepCompare i u .miscompare) s = .next t ∧ t.frame f = {} ∧ OnlyIn [.mode, .cntCfg, .cnts, .out, .draws, .gen, .hif, .eic, .flt, .kiln, .units, .lanes, .frames, .bpm, .fab, .sched, .cps, .glz, .bur, .hbm] s t)) ∧
  (∀ (f sl eq : Nat) (c : CacheKey) (a : Sa) (s : State), s.frameKey f = some c → s.saOf c.sa = some a → a.bound = some (sl, eq) →
    (let key := pnKey sl eq (c.sa % 4)
     (s.glz.nextPn.get 0 key ≤ a.hardLimit →
       ∃ t, s.takeNumber f = some t ∧ t.glz.nextPnB.get 0 key = s.glz.nextPn.get 0 key + 1 ∧ (t.frame f).number = s.glz.nextPn.get 0 key ∧ (t.frame f).txSa = c.sa ∧
         t.glz.nextPn.get 0 key = s.glz.nextPn.get 0 key + 1 ∧
         (∀ k, k ≠ key → t.glz.nextPn.get 0 k = s.glz.nextPn.get 0 k ∧ t.glz.nextPnB.get 0 k = s.glz.nextPnB.get 0 k) ∧
         (∀ g, g ≠ f → t.frame g = s.frame g) ∧
         OnlyIn [.frames, .glz, .hif, .hbm, .out, .cnts, .cntCfg, .eic] s t) ∧
     (a.hardLimit < s.glz.nextPn.get 0 key → s.takeNumber f = none)))

/-- O33. A spare that passes its test is good and unfenced, and one that fails is retired as permanent; a fenced pair
that passes is unfenced. A retired pair's or lane's position is taken by the lowest-numbered good spare, and its
error line is masked; with no good spare the position is left empty and its category runs beyond its envelope. A
cache entry is filled in both copies from what HBM holds, or its SA or version, read bad now or poisoned in HBM
before, is poisoned and the circuit suspended. (R37, R233, R242, R425, R429, Table 01.4.) -/
def Obligations.LanesAreTestedAndRetired : Prop :=
  (∀ (i : Slice) (u : Fin 12) (s : State), ((s.encMap i).spares 12).contains u.val = true →
    (s.fsrc (0x40 + 12 * i.val + u.val)).retired = false →
    (∃ t, exec (.laneKat i false u true) s = .next t ∧ (t.pair i u).good = true ∧ (t.encMap i).fenced.contains u.val = false ∧
      (t.encMap i).pos = (s.encMap i).pos ∧ OnlyIn [.cntCfg, .cnts, .out, .draws, .gen, .hif, .eic, .flt, .kiln, .units, .lanes, .frames, .bpm, .fab, .sched, .cps, .glz, .bur, .hbm] s t) ∧
    (∃ t, exec (.laneKat i false u false) s = .next t ∧ (t.pair i u).good = false ∧
      (t.encMap i).retired = (s.encMap i).retired ++ [u.val] ∧ (t.fsrc (0x40 + 12 * i.val + u.val)).perm = true ∧
      (t.fsrc (0x40 + 12 * i.val + u.val)).retired = true ∧ OnlyIn [.cntCfg, .cnts, .out, .draws, .gen, .hif, .eic, .flt, .kiln, .units, .lanes, .frames, .bpm, .fab, .sched, .cps, .glz, .bur, .hbm] s t)) ∧
  (∀ (i : Slice) (u : Fin 12) (s : State), ((s.decMap i).spares 12).contains u.val = true →
    (s.fsrc (0x100 + 12 * i.val + u.val)).retired = false →
    (∃ t, exec (.laneKat i true u true) s = .next t ∧ (t.glz.lanes.get {} (i.val * 12 + u.val)).good = true ∧
      t.units = s.units ∧ OnlyIn [.glz] s t) ∧
    (∃ t, exec (.laneKat i true u false) s = .next t ∧ (t.decMap i).retired = (s.decMap i).retired ++ [u.val] ∧
      (t.fsrc (0x100 + 12 * i.val + u.val)).retired = true ∧ OnlyIn [.cntCfg, .cnts, .out, .draws, .gen, .hif, .eic, .flt, .kiln, .units, .lanes, .frames, .bpm, .fab, .sched, .cps, .glz, .bur, .hbm] s t)) ∧
  (∀ (i : Slice) (u : Fin 12) (s : State), ((s.encMap i).spares 12).contains u.val = false →
    (s.encMap i).fenced.contains u.val = true →
    ∃ t, exec (.laneKat i false u true) s = .next t ∧ (t.encMap i).fenced.contains u.val = false ∧
      (t.encMap i).pos = (s.encMap i).pos ∧ OnlyIn [.cntCfg, .cnts, .out, .draws, .gen, .hif, .eic, .flt, .kiln, .units, .lanes, .frames, .bpm, .fab, .sched, .cps, .glz, .bur, .hbm] s t) ∧
  (∀ (i : Slice) (u : Fin 12) (s : State), s.flt.running.contains (pairSource i u) = true →
    (∀ v, ((s.encMap i).goodSpare 12 fun v => (s.pair i v).good) = some v →
      ∃ t, exec (.encPairRetire i u) s = .next t ∧
        (t.encMap i).pos = (s.encMap i).pos.map (fun x => if x = some u.val then some v else x) ∧
        (t.encMap i).retired = (s.encMap i).retired ++ [u.val] ∧ (t.fsrc (pairSource i u)).retired = true ∧
        t.flt.running.contains (pairSource i u) = false ∧ OnlyIn [.cntCfg, .cnts, .out, .draws, .gen, .hif, .eic, .flt, .kiln, .units, .lanes, .frames, .bpm, .fab, .sched, .cps, .glz, .bur, .hbm] s t) ∧
    (((s.encMap i).goodSpare 12 fun v => (s.pair i v).good) = none →
      ∃ t, exec (.encPairRetire i u) s = .next t ∧
        (t.encMap i).pos = (s.encMap i).pos.map (fun x => if x = some u.val then none else x) ∧
        t.flt.degraded.contains 2 = true ∧ (t.fsrc (pairSource i u)).retired = true ∧ OnlyIn [.cntCfg, .cnts, .out, .draws, .gen, .hif, .eic, .flt, .kiln, .units, .lanes, .frames, .bpm, .fab, .sched, .cps, .glz, .bur, .hbm] s t)) ∧
  (∀ (i : Slice) (l : Fin 12) (s : State), s.flt.running.contains (0x100 + 12 * i.val + l.val) = true →
    (∀ v, ((s.decMap i).goodSpare 12 fun v => (s.glz.lanes.get {} (i.val * 12 + v)).good) = some v →
      ∃ t, exec (.decLaneRetire i l) s = .next t ∧
        (t.decMap i).pos = (s.decMap i).pos.map (fun x => if x = some l.val then some v else x) ∧
        (t.fsrc (0x100 + 12 * i.val + l.val)).retired = true ∧ OnlyIn [.cntCfg, .cnts, .out, .hif, .eic, .flt, .kiln, .units] s t) ∧
    (((s.decMap i).goodSpare 12 fun v => (s.glz.lanes.get {} (i.val * 12 + v)).good) = none →
      ∃ t, exec (.decLaneRetire i l) s = .next t ∧
        (t.decMap i).pos = (s.decMap i).pos.map (fun x => if x = some l.val then none else x) ∧
        t.flt.degraded.contains 3 = true ∧ OnlyIn [.cntCfg, .cnts, .out, .hif, .eic, .flt, .kiln, .units] s t)) ∧
  (∀ (i : Slice) (e : TxEntry) (s : State), s.fillNext i = some e →
    (s.structBad (.sa e.sa) = false → s.structBad (.version e.circuit e.born) = false →
      ∃ t, exec (.txCacheFill i .ok) s = .next t ∧
        t.cache i = (s.cache i).map (fun x => if x = e then
          { x with resident := true, copyA := s.txContents e, copyB := s.txContents e } else x) ∧ OnlyIn [.cntCfg, .cnts, .out, .draws, .gen, .hif, .eic, .flt, .kiln, .lanes, .frames, .bpm, .fab, .sched, .cps, .glz, .bur, .hbm] s t) ∧
    exec (.txCacheFill i .ok) s = exec (.txCacheFill i (if s.structBad (.sa e.sa) then .saError
      else if s.structBad (.version e.circuit e.born) then .versionError else .ok)) s ∧
    (∀ a, s.structBad (.version e.circuit e.born) = false → s.saOf e.sa = some a → a.poison = false →
      ∃ t, exec (.txCacheFill i .saError) s = .next t ∧ t.saOf e.sa = some { a with poison := true } ∧
        (t.cirState (e.sa / 4)).suspended = true ∧ OnlyIn [.cntCfg, .cnts, .out, .draws, .gen, .hif, .eic, .flt, .kiln, .lanes, .frames, .bpm, .fab, .sched, .cps, .glz, .bur, .hbm] s t) ∧
    (s.structBad (.sa e.sa) = false →
      ∃ t, exec (.txCacheFill i .versionError) s = .next t ∧
        (∀ v ∈ t.cirVers e.circuit, v.tag.born = e.born → v.poison = true) ∧ (t.cirState e.circuit).suspended = true ∧
        OnlyIn [.cntCfg, .cnts, .out, .draws, .gen, .hif, .eic, .flt, .kiln, .lanes, .frames, .bpm, .fab, .sched, .cps, .glz, .bur, .hbm] s t))

/-- O34. A round of the matcher keeps every input and every output in at most one match. A cell time lasts ⌈32 ÷ planes
in use⌉ ns. When one pair alone reports a request for new bytes, it is matched: both round-robin pointers move past
the match, which carries its cell two cell times later. A match made two cell times ago carries the cell that waits
to be sent again, or the next cell of the chosen VOQ, with the pair's next SEQ, which waits for its acknowledgement;
no other pair changes. Without a request, or with a parity failure in the matcher, nothing is matched and no pointer
moves. A pair not matched for STARVE_CT cell times is promoted, and a promoted pair's request ranks 9. (R294, R296,
R297, R298, R299, R300, R302, R308.) -/
def Obligations.CellTimesMatchAndCarryCells : Prop :=
  (∀ (req : Nat → Nat → Nat) (g a : Nat → Nat) (made : List (Nat × Nat)), (made.map Prod.fst).Nodup → (made.map Prod.snd).Nodup →
    ((made ++ matchRound req g a made).map Prod.fst).Nodup ∧ ((made ++ matchRound req g a made).map Prod.snd).Nodup) ∧
  (∀ (a b : Slice) (s : State), s.request a b ≠ 0 → (∀ i j : Slice, (i, j) ≠ (a, b) → s.request i j = 0) →
    (s.fab.dueNow = [] ∨ s.fab.dueNow = [(a.val, b.val)]) →
    ∃ t, exec (.matchCellTime false) s = .next t ∧ t.now = s.now + ceilDiv 32 (s.units.planes.pos.countP Option.isSome) ∧
      t.fab.cellTime = s.fab.cellTime + 1 ∧ t.fab.dueNow = s.fab.dueNext ∧ t.fab.dueNext = [(a.val, b.val)] ∧
      t.fab.gptr.get 0 b = (a.val + 1) % 16 ∧ t.fab.aptr.get 0 a = (b.val + 1) % 16 ∧ t.fab.starve.get 0 (a.val * 16 + b.val) = 0 ∧
      (∀ i j : Slice, (i, j) ≠ (a, b) → t.fpair i j = s.fpair i j) ∧ (s.fab.dueNow = [] → t.fab.pairs = s.fab.pairs) ∧
      (∀ k, s.fab.dueNow = [(a.val, b.val)] → (s.fpair a b).unacked.find? s.canResend = none → s.pickVoq a b = some k →
        (∀ f ∈ (s.voq k).order, ((s.bufOf f).any fun x => s.bufBad false x.slice x.set x.pool x.idx) = false) →
        (t.fpair a b).next = ((s.fpair a b).next + 1) % 65536 ∧
        (t.voq k).order = (s.packCell (s.voq k).order (s.voq k).sent 496).2.1 ∧
        (∃ c, (t.fpair a b).flying = (s.fpair a b).flying ++ [c] ∧ (t.fpair a b).unacked = (s.fpair a b).unacked ++ [c] ∧
          c.seq = (s.fpair a b).next ∧ c.port = k % 1024 / 8 ∧ c.cls = k % 8 ∧ c.retx = false ∧ c.planes = s.planeList ∧
          c.segs = (s.packCell (s.voq k).order (s.voq k).sent 496).1) ∧
        OnlyIn [.time, .cntCfg, .cnts, .frames, .bpm, .fab] s t) ∧
      (∀ c, s.fab.dueNow = [(a.val, b.val)] → (s.fpair a b).unacked.find? s.canResend = some c →
        (t.fpair a b).next = (s.fpair a b).next ∧
        (∃ d, (t.fpair a b).flying = (s.fpair a b).flying ++ [d] ∧ d.seq = c.seq ∧ d.segs = c.segs ∧ d.poison = c.poison ∧
          d.retx = true ∧ d.resend = false ∧ d.planes = s.planeList) ∧
        OnlyIn [.time, .cntCfg, .cnts, .fab] s t) ∧ OnlyIn [.time, .cntCfg, .cnts, .out, .gen, .hif, .eic, .flt, .kiln, .lanes, .frames, .bpm, .fab, .sched, .cps, .glz, .bur] s t) ∧
  (∀ s : State, (∀ i j : Slice, s.request i j = 0) →
    ∃ t, exec (.matchCellTime false) s = .next t ∧ t.fab.cellTime = s.fab.cellTime + 1 ∧ t.fab.dueNow = s.fab.dueNext ∧
      t.fab.dueNext = [] ∧ t.fab.gptr = s.fab.gptr ∧ t.fab.aptr = s.fab.aptr ∧
      (s.fab.dueNow = [] → t.fab.pairs = s.fab.pairs ∧ t.fab.pptr = s.fab.pptr ∧ OnlyIn [.time, .fab] s t) ∧
      OnlyIn [.time, .cntCfg, .cnts, .out, .gen, .hif, .eic, .flt, .kiln, .lanes, .frames, .bpm, .fab, .sched, .cps, .glz, .bur] s t) ∧
  (∀ s : State, ∃ t, exec (.matchCellTime true) s = .next t ∧ t.fab.cellTime = s.fab.cellTime + 1 ∧ t.fab.dueNow = s.fab.dueNext ∧
      t.fab.dueNext = [] ∧ t.fab.gptr = s.fab.gptr ∧ t.fab.aptr = s.fab.aptr ∧
      (s.fab.dueNow = [] → t.fab.pairs = s.fab.pairs ∧
        OnlyIn [.time, .cntCfg, .cnts, .out, .hif, .eic, .flt, .kiln, .fab] s t) ∧ OnlyIn [.time, .cntCfg, .cnts, .out, .gen, .hif, .eic, .flt, .kiln, .lanes, .frames, .bpm, .fab, .sched, .cps, .glz, .bur] s t) ∧
  (∀ (a b : Slice) (s : State), s.fld .fabMatchCfg 0 0 15 0 ≤ s.fab.starve.get 0 (a.val * 16 + b.val) →
    s.fab.promoted.contains (a.val * 16 + b.val) = false →
    exec (.starvePromote a b) s = .next { s with fab := { s.fab with promoted := s.fab.promoted ++ [a.val * 16 + b.val] } }) ∧
  (∀ (a b : Slice) (s : State), a.val * 16 + b.val ∈ s.fab.promoted → s.request a b ≠ 0 → s.request a b = 9)

/-- O35. A clean cell with the expected SEQ is placed and the next SEQ is expected; one after a gap is held with a NAK
for each missing SEQ that has none; a duplicate is dropped and counted. A cell with bad beats or a bad header is
NAKed, and is a fault event of each plane that carried a bad beat, or of its source slice where the header fails and
the first beat does not. An acknowledgement frees the cells below the SEQ up to which bytes have left. A NAK, or a
timeout without an answer for RTO_CT cell times, counts one failure of the cell, which then waits to be sent again.
After RETRY_MAX failures the cell is poisoned and every frame with bytes in it leaves the device. (R302, R303, R304,
R305, R306, R307.) -/
def Obligations.CellsAreReceivedAcknowledgedAndResent : Prop :=
  (∀ (a b : Slice) (q : BitVec 16) (c : Cell) (s : State), (s.fpair a b).flying.find? (fun c => c.seq = q.toNat) = some c →
    s.corruptPlane = none → s.flt.corrupt.get 0 (0x20 + a.val) = 0 →
    (c.seq = (s.fpair a b).expect → (s.fpair a b).held = [] →
      ∃ t, exec (.cellReceive a b q ⟨[], false⟩) s = .next t ∧ (t.fpair a b).expect = ((s.fpair a b).expect + 1) % 65536 ∧
        (t.fpair a b).held = [] ∧ (t.fpair a b).naks = (s.fpair a b).naks ++ seqFrom (s.fpair a b).seen c.seq ∧
        (∀ i j : Slice, (i, j) ≠ (a, b) → t.fpair i j = s.fpair i j) ∧ OnlyIn [.cntCfg, .cnts, .out, .hif, .eic, .flt, .kiln, .frames, .bpm, .fab, .sched] s t) ∧
    (seqBefore c.seq (s.fpair a b).expect = false → c.seq ≠ (s.fpair a b).expect →
      (∀ d ∈ (s.fpair a b).held, d.seq ≠ c.seq ∧ d.seq ≠ (s.fpair a b).expect) →
      ∃ t, exec (.cellReceive a b q ⟨[], false⟩) s = .next t ∧ (t.fpair a b).expect = (s.fpair a b).expect ∧
        (t.fpair a b).held = (s.fpair a b).held ++ [c] ∧
        (t.fpair a b).naks = (s.fpair a b).naks ++ seqFrom (s.fpair a b).seen c.seq ∧
        (∀ i j : Slice, (i, j) ≠ (a, b) → t.fpair i j = s.fpair i j) ∧ OnlyIn [.cntCfg, .cnts, .out, .hif, .eic, .flt, .kiln, .frames, .bpm, .fab, .sched] s t) ∧
    (seqBefore c.seq (s.fpair a b).expect = true ∨ (s.fpair a b).held.any (fun x => x.seq = c.seq) = true →
      exec (.cellReceive a b q ⟨[], false⟩) s = .next
        ((s.modFpair a b fun p => { p with flying := p.flying.eraseP fun c => c.seq = q.toNat }).bump (cntFab b 3)))) ∧
  (∀ (a b : Slice) (q : BitVec 16) (e : CellError) (c : Cell) (s : State),
    (s.fpair a b).flying.find? (fun c => c.seq = q.toNat) = some c → (e.beats ≠ [] ∨ e.header = true) →
    ∃ t, exec (.cellReceive a b q e) s = .next t ∧ (t.fpair a b).naks = (s.fpair a b).naks ++ [c.seq] ∧
      (t.fpair a b).flying = (s.fpair a b).flying.eraseP (fun c => c.seq = q.toNat) ∧
      (t.fpair a b).expect = (s.fpair a b).expect ∧ (t.fpair a b).held = (s.fpair a b).held ∧
      (∀ n ∈ e.beats, sourceKind (c.planeOf n) ≠ .unassigned → (s.fsrc (c.planeOf n)).retired = false →
        (t.fsrc (c.planeOf n)).flag = true) ∧
      (e.header = true → 0 ∉ e.beats → (s.fsrc (0x20 + a.val)).retired = false → (t.fsrc (0x20 + a.val)).flag = true) ∧
      OnlyIn [.cntCfg, .cnts, .out, .hif, .eic, .flt, .kiln, .frames, .bpm, .fab, .sched] s t) ∧
  (∀ (a b : Slice) (s : State), ∃ t, exec (.cellAck a b) s = .next t ∧
      (t.fpair a b).unacked =
        (s.fpair a b).unacked.filter (fun c => !seqBefore c.seq ((s.drain a b).fpair a b).left) ∧
      (∀ i j : Slice, (i, j) ≠ (a, b) → t.fpair i j = s.fpair i j) ∧ OnlyIn [.cnts, .frames, .bpm, .fab, .sched] s t) ∧
  (∀ (a b : Slice) (q : BitVec 16) (s : State), q.toNat ∈ (s.fpair a b).naks →
    ∃ t, exec (.cellNak a b q) s = .next t ∧ (t.fpair a b).naks = (s.fpair a b).naks.erase q.toNat ∧
      (t.fpair a b).unacked = (s.fpair a b).unacked.map (fun c =>
        if c.seq = q.toNat ∧ c.resend = false then { c with failed := c.failed + 1, resend := true } else c) ∧
      (∀ i j : Slice, (i, j) ≠ (a, b) → t.fpair i j = s.fpair i j) ∧ OnlyIn [.fab] s t) ∧
  (∀ (a b : Slice) (q : BitVec 16) (c : Cell) (s : State), c ∈ (s.fpair a b).unacked → c.seq = q.toNat → c.resend = false →
    s.fld .fabRetxCfg 0 0 19 8 ≤ s.fab.cellTime - c.sentAt →
    ∃ t, exec (.cellRetxTimeout a b q) s = .next t ∧
      (t.fpair a b).unacked = (s.fpair a b).unacked.map (fun c =>
        if c.seq = q.toNat ∧ c.resend = false then { c with failed := c.failed + 1, resend := true } else c) ∧
      (∀ i j : Slice, (i, j) ≠ (a, b) → t.fpair i j = s.fpair i j) ∧ OnlyIn [.fab] s t) ∧
  (∀ (a b : Slice) (q : BitVec 16) (c : Cell) (s : State),
    (s.fpair a b).unacked.find? (fun c => c.seq = q.toNat && !c.poison && s.retryMax ≤ c.failed) = some c →
    ∃ t, exec (.cellPoison a b q) s = .next t ∧
      (t.fpair a b).unacked = (s.fpair a b).unacked.map (fun x =>
        if x.seq = c.seq then { x with poison := true, resend := true } else x) ∧
      (∀ f ∈ framesIn [c], t.frame f = {}) ∧ OnlyIn [.cntCfg, .cnts, .out, .gen, .hif, .eic, .lanes, .frames, .bpm, .fab, .sched, .cps, .glz, .bur] s t)

/-- O36. The end of a plane check with a good spare puts the spare at the failed plane's logical position, and the
source is retired; with a bad spare, the spare is retired and the check starts again with the next spare, or the
category is degraded. A permanent plane without a spare leaves its position empty, but the last plane in use is a
critical fault. A good tile copy, once its 1,024 cells are written, puts the spare at the tile's position and ends
the poison of the tile's cells; a bad one retires the spare and starts again, or the tile is lost. (R163, R164,
R309, R310, R423, R425, Table 05.5.) -/
def Obligations.PlanesAndTilesAreReplaced : Prop :=
  (∀ (c : PlaneCheck) (s : State), s.fab.check = some c →
    ∃ t, exec (.planeCheckEnd true) s = .next t ∧
      t.units = { s.units with planes := s.units.planes.swap c.plane (some c.spare) } ∧ t.fab.check = none ∧
      t.fab.cellTime = max s.fab.cellTime (c.n0 + 4096) ∧ (t.fsrc c.plane).retired = true ∧ c.plane ∉ t.flt.running ∧
      OnlyIn [.time, .cntCfg, .cnts, .out, .hif, .eic, .flt, .kiln, .units, .fab] s t) ∧
  (∀ (c : PlaneCheck) (s : State), s.fab.check = some c →
    ∃ t, exec (.planeCheckEnd false) s = .next t ∧
      t.units = { s.units with planes := { s.units.planes with retired := s.units.planes.retired ++ [c.spare] } } ∧
      (match t.units.planes.spares 18 with
       | v :: _ => t.fab.check = some ⟨c.plane, v, s.fab.cellTime⟩
       | [] => t.fab.check = none ∧ sourceCat c.plane ∈ t.flt.degraded) ∧ OnlyIn [.time, .cntCfg, .cnts, .out, .hif, .eic, .flt, .kiln, .units, .fab] s t) ∧
  (∀ (k : Fin 18) (s : State), s.flt.running.contains k.val = true → s.units.planes.pos.contains (some k.val) = true →
    s.units.planes.spares 18 = [] → s.fab.check = none →
    (s.planesInUse ≠ 1 → ∃ t, exec (.planeRemove k) s = .next t ∧
      t.units = { s.units with planes := s.units.planes.swap k none } ∧ (t.fsrc k).retired = true ∧ k.val ∉ t.flt.running ∧
      OnlyIn [.flt, .units] s t) ∧
    (s.planesInUse = 1 → s.mode ≠ .reset → 0x4F2 ∉ s.flt.lines →
      ∃ t, exec (.planeRemove k) s = .next t ∧ t.flt.squelch = true ∧ t.units = s.units)) ∧
  (∀ (q : Quad) (c : TileCopy) (s : State), s.tabs.copies.get none q = some c → 1024 ≤ c.cell → s.tabs.dead = false →
    ∃ t, exec (.tileCopyDone q true) s = .next t ∧ t.tabs.copies.get none q = none ∧
      t.tileMap q = (s.tileMap q).swap (((s.tileMap q).pos.getD c.tile none).getD c.tile) (some c.spare) ∧
      (∀ i : Quad, i ≠ q → t.tileMap i = s.tileMap i) ∧ (∀ k ∈ t.tabs.rulePoison, k ∈ s.tabs.rulePoison ∧ ¬(k / 65536 = q.val ∧ k % 65536 / 1024 = c.tile)) ∧
      (t.fsrc c.source).retired = true ∧ OnlyIn [.cntCfg, .cnts, .out, .hif, .eic, .flt, .kiln, .units, .tabs] s t) ∧
  (∀ (q : Quad) (c : TileCopy) (s : State), s.tabs.copies.get none q = some c → 1024 ≤ c.cell → s.tabs.dead = false →
    ∃ t, exec (.tileCopyDone q false) s = .next t ∧
      (let m := { s.tileMap q with retired := (s.tileMap q).retired ++ [c.spare] }
       match m.spares 68 with
       | v :: _ => t.tabs.copies.get none q = some ⟨c.source, c.tile, v, 0⟩ ∧ t.tileMap q = m
       | [] => t.tabs.copies.get none q = none ∧
           t.tileMap q = m.swap (((s.tileMap q).pos.getD c.tile none).getD c.tile) none) ∧ OnlyIn [.cntCfg, .cnts, .out, .hif, .eic, .flt, .kiln, .units, .tabs] s t)

/-- O37. Outside SAFE, the first selected frame takes a free thread of the lowest active engine. The oldest running
rewrite ends with the output its program gives, freeing its thread; a plain frame first in selection order goes to
its port's transmit path, ready, with its bypass class as its proof; a frame whose tags, form or length R273, R276
or R278 refuses is discarded and counted. Without a Constant Profile slot, the output of a program for a frame of at
least 60 bytes, ICV included, is longer than the frame by at most 24 + 8 x INCLUDE_SCI for MACsec, 57 + 20 x
OUTER_V6 for an ESP tunnel and 37 for ESP transport, plus 4 x NTAGS when the program replaces or pushes tags. A
PLAIN program with KEEP gives an unmarked frame unchanged. (R269, R273, R274, R276, R278, R280, R218, R271, R275,
R277, R227.) -/
def Obligations.BurinRewritesFrames : Prop :=
  (∀ (i : Slice) (f e k : Nat) (s : State), s.mode ≠ .safe →
    ((s.selIn i).find? fun f => (s.frame f).eg = .selected) = some f → s.freeThread i = some (e, k) →
    (s.engine i e).threads.length = 4 →
    ((s.frame f).ebuf.any fun p => s.bufBad true i (portSet (s.frame f).outPort) p (s.frame f).ebufIdx) = false →
    ∃ t, exec (.burinRewrite i) s = .next t ∧ (t.frame f).eg = .burin ∧ (t.frame f).burEngine = e ∧ (t.frame f).burThread = k ∧
      (t.engine i e).threads.getD k none = some f ∧ (∀ g, g ≠ f → t.frame g = s.frame g) ∧ OnlyIn [.frames, .bur] s t) ∧
  (∀ (i : Slice) (f : Nat) (o : Output) (s : State), s.mode ≠ .safe →
    ((s.selIn i).find? fun f => (s.frame f).eg = .burin) = some f →
    s.flt.corrupt.get 0 (engineSource i (s.frame f).burEngine) = 0 → (s.frame f).origin ≠ .filler →
    (s.rewriteOf (s.frame f) 0).run (s.frame f).bytes = .inr o →
    o.bytes.length + 4 ≤ (if s.black (s.frame f).outPort then 10368 else 10240) →
    ((s.frame f).circuit = none → (s.selIn i).head? = some f → (s.selIn i).tail.head? = none →
      ∃ t, exec (.burinRewriteEnd i) s = .next t ∧ (t.frame f).eg = .ready ∧ (t.frame f).output = o ∧
        (∀ k, (s.frame f).byp = some k → (t.frame f).proof = .bypass k) ∧
        ((s.frame f).byp = none → (t.frame f).proof = .none) ∧
        (t.port (s.frame f).outPort).path = (s.port (s.frame f).outPort).path ++ [f] ∧ t.selIn i = [] ∧
        OnlyIn [.regs, .cntCfg, .cnts, .out, .draws, .gen, .hif, .eic, .flt, .kiln, .units, .lanes, .frames, .bpm, .fab, .sched, .cps, .glz, .bur, .hbm] s t) ∧
    (∀ h, (s.selIn i).head? = some h → h ≠ f → (s.frame h).eg ≠ .rewritten →
      ∃ t, exec (.burinRewriteEnd i) s = .next t ∧ (t.frame f).eg = .rewritten ∧ (t.frame f).output = o ∧
        t.selIn i = s.selIn i ∧ (∀ g, g ≠ f → t.frame g = s.frame g) ∧ OnlyIn [.regs, .cntCfg, .cnts, .out, .draws, .gen, .hif, .eic, .flt, .kiln, .units, .lanes, .frames, .bpm, .fab, .sched, .cps, .glz, .bur, .hbm] s t)) ∧
  (∀ (i : Slice) (f h : Nat) (why : BurinDrop) (s : State), s.mode ≠ .safe →
    ((s.selIn i).find? fun f => (s.frame f).eg = .burin) = some f →
    s.flt.corrupt.get 0 (engineSource i (s.frame f).burEngine) = 0 → (s.frame f).origin ≠ .filler →
    (s.rewriteOf (s.frame f) 0).run (s.frame f).bytes = .inl why → (s.selIn i).head? = some h →
    (h ≠ f → (s.frame h).eg ≠ .rewritten) → (h = f → (s.selIn i).tail = []) →
    ∃ t, exec (.burinRewriteEnd i) s = .next t ∧ t.frame f = {} ∧
      (let k := match why with
        | .tag => cntBur ((s.frame f).outPort / 8) 4
        | .nonIp => cntBur ((s.frame f).outPort / 8) 5
        | .padding => cntCps ((s.frame f).outPort / 8) 4
       t.cnt k = (s.cnt k + 1) % 2 ^ 48) ∧ OnlyIn [.regs, .cntCfg, .cnts, .out, .draws, .gen, .hif, .eic, .flt, .kiln, .units, .lanes, .frames, .bpm, .fab, .sched, .cps, .glz, .bur, .hbm] s t) ∧
  (∀ (r : RewriteIn) (bs : Bytes) (o : Output), r.slot = none → r.filler = false → 60 ≤ bs.length → r.run bs = .inr o →
    (let g := if 2 ≤ progTagOp r.prog then 4 * byteAt r.data 0x0C else 0
     (progKind r.prog = 1 → o.bytes.length ≤ bs.length + (24 + 8 * boolBit (bitOf 0 r.flags)) + g) ∧
     (progKind r.prog = 2 → o.bytes.length ≤ bs.length + (57 + 20 * boolBit (bitOf 5 r.flags)) + g) ∧
     (progKind r.prog = 3 → o.bytes.length ≤ bs.length + 37 + g))) ∧
  (∀ (r : RewriteIn) (bs : Bytes), progKind r.prog = 0 → progTagOp r.prog = 0 → r.ecn = false → 60 ≤ bs.length →
    r.run bs = .inr { bytes := bs })

/-- O38. A machine check is taken only of a cause that the fetch at its address can have. On an occupied thread it is
counted and recorded in BUR_MCHK and fences the engine; a frame's third one discards it as an integrity discard. A
self-test that passes lifts the fence; one that fails, or meets a word that fails three fetches, is counted and
recorded, and a spare that fails is retired. A retired engine's position goes to the lowest-numbered good spare or
stays empty. A sequencer machine check is counted and recorded in SEQ_MCHK; the third at one step kills the
sequencer, and then its commands complete with SEQ_FAULT and halt their rings. (R262, R263, R264, R265, R266, R267,
R268.) -/
def Obligations.MachineChecksFenceAndRetire : Prop :=
  (∀ (i : Slice) (e : Fin 5) (k : Fin 4) (cause : Fin 7) (a : BitVec 12) (inPatch : Bool) (f : Nat) (s : State),
    s.bur.patch.mayCheck .burin cause a.toNat inPatch = true → (s.engine i e).threads.getD k none = some f →
    ∃ t, exec (.burinMachineCheck i e k cause a inPatch) s = .next t ∧
      t.reg .burMchk i 0 = cause.val * 2 ^ 28 + boolBit inPatch * 2 ^ 27 + a.toNat * 2 ^ 12 + k.val * 8 + e.val ∧
      t.cnt (cntBur i 1) = (s.cnt (cntBur i 1) + 1) % 2 ^ 48 ∧ (t.engMap i).fenced.contains e.val = true ∧
      (2 ≤ (s.frame f).burAttempts → t.frame f = {} ∧ t.cnt (cntBur i 3) = (s.cnt (cntBur i 3) + 1) % 2 ^ 48) ∧
      OnlyIn [.regs, .cntCfg, .cnts, .out, .draws, .gen, .hif, .eic, .flt, .kiln, .units, .lanes, .frames, .bpm, .fab, .sched, .cps, .glz, .bur, .hbm] s t) ∧
  (∀ (i : Slice) (e : Fin 5) (k : Fin 4) (cause : Fin 7) (a : BitVec 12) (inPatch : Bool) (s : State),
    s.bur.patch.mayCheck .burin cause a.toNat inPatch = false →
    exec (.burinMachineCheck i e k cause a inPatch) s = .next s) ∧
  (∀ (i : Slice) (e : Fin 5) (s : State), s.flt.corrupt.get 0 (engineSource i e) = 0 →
    ((s.engMap i).fenced.contains e.val = true ∨
      (((s.engMap i).spares 5).contains e.val = true ∧ (s.fsrc (engineSource i e)).retired = false)) →
    ∃ t, exec (.burinSelftest i e true) s = .next t ∧ (t.engMap i).fenced.contains e.val = false ∧
      (t.engMap i).pos = (s.engMap i).pos ∧ (t.engine i e).good = true ∧ OnlyIn [.units, .bur] s t) ∧
  (∀ (i : Slice) (e : Fin 5) (s : State), ((s.engMap i).spares 5).contains e.val = true →
    (s.fsrc (engineSource i e)).retired = false → s.flt.corrupt.get 0 (engineSource i e) = 0 →
    ∃ t, exec (.burinSelftest i e false) s = .next t ∧ (t.engine i e).good = false ∧
      (t.engMap i).retired = (s.engMap i).retired ++ [e.val] ∧ (t.fsrc (engineSource i e)).retired = true ∧
      t.cnt (cntBur i 1) = (s.cnt (cntBur i 1) + 1) % 2 ^ 48 ∧
      (∃ a < 2 ^ 12, t.reg .burMchk i 0 = 6 * 2 ^ 28 + a * 2 ^ 12 + e.val) ∧ OnlyIn [.regs, .cntCfg, .cnts, .out, .draws, .gen, .hif, .eic, .flt, .kiln, .units, .lanes, .frames, .bpm, .fab, .sched, .cps, .glz, .bur] s t) ∧
  (∀ (i : Slice) (e : Fin 5) (pass : Bool) (s : State), 3 ≤ s.flt.corrupt.get 0 (engineSource i e) →
    (s.engMap i).fenced.contains e.val = true →
    ∃ t a, exec (.burinSelftest i e pass) s = .next t ∧ a < 2 ^ 12 ∧ t.reg .burMchk i 0 = 2 ^ 28 + a * 2 ^ 12 + e.val ∧
      (t.engine i e).good = false ∧ (t.engMap i).fenced.contains e.val = true ∧ OnlyIn [.regs, .cntCfg, .cnts, .out, .draws, .gen, .hif, .eic, .flt, .kiln, .units, .lanes, .frames, .bpm, .fab, .sched, .cps, .glz, .bur] s t) ∧
  (∀ (i : Slice) (e : Fin 5) (s : State), s.flt.running.contains (engineSource i e) = true →
    (∀ v, ((s.engMap i).goodSpare 5 fun v => (s.engine i v).good) = some v →
      ∃ t, exec (.burinEngineRetire i e) s = .next t ∧
        (t.engMap i).pos = (s.engMap i).pos.map (fun x => if x = some e.val then some v else x) ∧
        (t.fsrc (engineSource i e)).retired = true ∧ OnlyIn [.cntCfg, .cnts, .out, .gen, .hif, .eic, .flt, .kiln, .units, .lanes, .frames, .bpm, .fab, .sched, .cps, .glz, .bur] s t) ∧
    (((s.engMap i).goodSpare 5 fun v => (s.engine i v).good) = none →
      ∃ t, exec (.burinEngineRetire i e) s = .next t ∧
        (t.engMap i).pos = (s.engMap i).pos.map (fun x => if x = some e.val then none else x) ∧
        t.flt.degraded.contains 4 = true ∧ OnlyIn [.cntCfg, .cnts, .out, .gen, .hif, .eic, .flt, .kiln, .units, .lanes, .frames, .bpm, .fab, .sched, .cps, .glz, .bur] s t)) ∧
  (∀ (cause : Fin 7) (a : BitVec 12) (inPatch : Bool) (s : State), s.bur.seqPatch.mayCheck .sequencer cause a.toNat inPatch = true →
    s.tabs.dead = false →
    ∃ t, exec (.seqMachineCheck cause a inPatch) s = .next t ∧
      t.reg .seqMchk 0 0 = cause.val * 2 ^ 28 + boolBit inPatch * 2 ^ 27 + a.toNat * 2 ^ 12 ∧
      t.cnt (cntSeq 0) = (s.cnt (cntSeq 0) + 1) % 2 ^ 48 ∧ (2 ≤ s.tabs.stepTries → t.tabs.dead = true) ∧
      OnlyIn [.regs, .cntCfg, .cnts, .out, .gen, .hif, .eic, .flt, .kiln, .tabs] s t) ∧
  (∀ (cause : Fin 7) (a : BitVec 12) (inPatch : Bool) (s : State),
    (s.bur.seqPatch.mayCheck .sequencer cause a.toNat inPatch = false ∨ s.tabs.dead = true) →
    exec (.seqMachineCheck cause a inPatch) s = .next s) ∧
  (∀ (r : Ring) (d : Bytes) (s : State), Executing s r 0x0022 d → s.tabs.dead = true →
    ∃ t, exec (.ruleDelete r) s = .next t ∧ Completed s t r d .seqFault 0 [] ∧ (t.ring r).halted = true ∧ t.tabs = s.tabs)

/-- O39. For a claim that waits alone at its pool: when it is entitled, its owner is charged one free buffer of the pool
and the claim ends; an ingress claim's frame and the members of its group that wait come to share the buffer on die,
an egress claim's frame has its buffer. When it is not entitled, it moves to the first larger pool where it is
entitled if the class has UPSIZE, and otherwise its frame is discarded; a claim of the return path waits. (R316,
R317, R319, R320, R321, R322, R323.) -/
def Obligations.PoolsGrantOrTurnAwayClaims : Prop :=
  (∀ (side : Side) (i : Slice) (b : Fin 2) (p : Fin 4) (c : Claim) (s : State),
    s.bpm.claims.filter (fun c => c.egress = decide (side = .egress) && c.slice = i.val && c.set = b.val && c.pool = p.val) = [c] →
    (s.entitledIn c c.pool = true → c.egress = false → c.isReturn = false →
      ∃ t, exec (.poolGrant side i b p) s = .next t ∧ t.bpm.claims = s.bpm.claims.erase c ∧
        t.charged false c.slice c.set c.owner c.pool = s.charged false c.slice c.set c.owner c.pool + 1 ∧
        (let names := s.claimants (s.frame c.frame).group
         (∃ v w, t.bpm.bufs.get none c.frame = some ⟨c.slice, c.set, c.owner, c.pool, s.freeIdx false c.slice c.set c.pool v, names,
           if 1 < names.length then some (s.freeOset c.slice c.set w) else none⟩) ∧
         (∀ f ∈ names, (t.frame f).ing = .onDie) ∧ (∀ f, f ∉ names → t.frame f = s.frame f)) ∧
        OnlyIn [.frames, .bpm, .cnts, .draws, .hbm] s t) ∧
    (s.entitledIn c c.pool = true → c.isReturn = true →
      ∃ t, exec (.poolGrant side i b p) s = .next t ∧ t.bpm.claims = s.bpm.claims.erase c ∧
        (∃ v, t.bpm.bufs.get none c.frame =
          some ⟨c.slice, c.set, c.owner, c.pool, s.freeIdx false c.slice c.set c.pool v, [c.frame], none⟩) ∧
        (t.frame c.frame).ing = .onDie ∧ OnlyIn [.frames, .bpm, .cnts, .draws, .hbm] s t) ∧
    (s.entitledIn c c.pool = true → c.egress = true →
      ∃ t, exec (.poolGrant side i b p) s = .next t ∧ (t.frame c.frame).ebuf = some c.pool ∧
        (∃ v, (t.frame c.frame).ebufIdx = s.freeIdx true c.slice c.set c.pool v) ∧
        t.charged true c.slice c.set c.owner c.pool = s.charged true c.slice c.set c.owner c.pool + 1 ∧
        OnlyIn [.cntCfg, .cnts, .out, .draws, .gen, .hif, .eic, .lanes, .frames, .bpm, .fab, .sched, .cps, .glz, .bur, .hbm] s t) ∧
    (∀ q, s.entitledIn c c.pool = false → c.isReturn = false → s.nextPool c = some q →
      ∃ t, exec (.poolGrant side i b p) s = .next t ∧
        t.bpm.claims = s.bpm.claims.map (fun d => if d = c then { c with pool := q } else d) ∧ OnlyIn [.bpm, .cnts] s t) ∧
    (s.entitledIn c c.pool = false → c.isReturn = false → s.nextPool c = none →
      ∃ t, exec (.poolGrant side i b p) s = .next t ∧ t.frame c.frame = {} ∧ OnlyIn [.cntCfg, .cnts, .out, .draws, .gen, .hif, .eic, .lanes, .frames, .bpm, .fab, .sched, .cps, .glz, .bur, .hbm] s t) ∧
    (s.entitledIn c c.pool = false → c.isReturn = true →
      ∃ t, exec (.poolGrant side i b p) s = .next t ∧ t.bpm.claims = s.bpm.claims ∧ OnlyIn [.bpm, .cnts] s t))

/-- O40. An acknowledged write of a VOQ's first item in the spill write queue puts it at the end of the deep portion. A
return read takes the head of the deep portion when ONDIE is below RETURN_KB or the return path runs, as long as
ONDIE and the items being read are below the threshold. A finished read links its frame behind every frame placed
and claims a buffer for it, or discards it: past its maximum residency, with data that cannot be read, or flushed;
with a record or page header that cannot be read, every item of the deep portion is lost. The sweep discards frames
that have passed their maximum residency while they wait for a receive SA, and changes nothing where no head of a
queue and no such frame has passed it. (R73, R74, R237, R327, R329, R330, R333, R334, R412.) -/
def Obligations.DeepItemsAreWrittenAndReturned : Prop :=
  (∀ (f : Nat) (s : State), (s.frame f).ing = .spillQ →
    (s.bpm.spillQ.get [] (s.frame f).slice).find? (fun g => (s.frame g).voqKey = (s.frame f).voqKey) = some f →
    ∃ t, exec (.spillWriteAck f) s = .next t ∧ t.frame f = { s.frame f with ing := .deep } ∧
      (t.voq (s.frame f).voqKey).deep = (s.voq (s.frame f).voqKey).deep ++ [f] ∧
      f ∉ t.bpm.spillQ.get [] (s.frame f).slice ∧ (∀ g, g ≠ f → t.frame g = s.frame g) ∧ OnlyIn [.cntCfg, .cnts, .units, .frames, .bpm, .hbm] s t) ∧
  (∀ (i : Slice) (p : Port) (c : Fin 8) (f : Nat) (rest : List Nat) (s : State),
    (s.voq (voqKey i p c)).deep = f :: rest → (s.voq (voqKey i p c)).spill = true →
    (s.onDieOf (voqKey i p c) < s.icls c 11 0 * 1024 ∨ (s.voq (voqKey i p c)).returning = true) →
    s.belowThr (voqKey i p c) = true →
    ∃ t, exec (.returnRead i p c) s = .next t ∧ (t.voq (voqKey i p c)).deep = rest ∧
      (t.voq (voqKey i p c)).reading = (s.voq (voqKey i p c)).reading ++ [f] ∧
      t.frame f = { s.frame f with ing := .reading } ∧ (∀ g, g ≠ f → t.frame g = s.frame g) ∧
      OnlyIn [.cnts, .frames, .bpm] s t) ∧
  (∀ (f : Nat) (s : State), (s.frame f).ing = .reading → (s.voq (s.frame f).voqKey).reading.head? = some f →
    (s.recordBad (s.frame f) = false → s.age (s.frame f) ≤ s.resLimit → s.dataBad (s.frame f) = false → s.flushOf f = none →
      ∃ t, exec (.returnReadDone f) s = .next t ∧ t.frame f = { s.frame f with ing := .returning, wasDeep := true } ∧
        (t.voq (s.frame f).voqKey).order = (s.voq (s.frame f).voqKey).order ++ [f] ∧
        (t.voq (s.frame f).voqKey).reading = (s.voq (s.frame f).voqKey).reading.filter (· ≠ f) ∧
        t.bpm.claims = s.bpm.claims ++ [⟨false, (s.frame f).slice, (s.frame f).set, firstPool (s.frame f).len,
          firstPool (s.frame f).len, returnPath, (s.frame f).outPort * 8 + (s.frame f).cls, f⟩] ∧ OnlyIn [.cntCfg, .cnts, .out, .gen, .hif, .eic, .flt, .kiln, .lanes, .frames, .bpm, .fab, .sched, .cps, .glz, .bur] s t) ∧
    (s.recordBad (s.frame f) = true →
      ∃ t, exec (.returnReadDone f) s = .next t ∧
        (∀ g ∈ (s.voq (s.frame f).voqKey).reading ++ (s.voq (s.frame f).voqKey).deep, t.frame g = {}) ∧ OnlyIn [.cntCfg, .cnts, .out, .gen, .hif, .eic, .flt, .kiln, .lanes, .frames, .bpm, .fab, .sched, .cps, .glz, .bur] s t) ∧
    (s.resLimit < s.age (s.frame f) ∨ s.dataBad (s.frame f) = true ∨ s.flushOf f ≠ none →
      ∃ t, exec (.returnReadDone f) s = .next t ∧ t.frame f = {} ∧ OnlyIn [.cntCfg, .cnts, .out, .gen, .hif, .eic, .flt, .kiln, .lanes, .frames, .bpm, .fab, .sched, .cps, .glz, .bur] s t)) ∧
  (∀ s : State, (∀ k ∈ s.bpm.voqs.keys, ∀ f, ((s.voq k).order.head? = some f ∨ (s.voq k).deep.head? = some f) → s.expired f = false) →
    (∀ k ∈ s.sched.queues.keys, ∀ f, (s.queue k).head? = some f → s.expired f = false) →
    (∀ f ∈ s.waitingForSa, s.expired f = false) → exec .residencySweep s = .next s) ∧
  (∀ s : State, s.bpm.voqs.keys = [] → s.sched.queues.keys = [] →
    ∃ t, exec .residencySweep s = .next t ∧ (∀ f ∈ s.waitingForSa, s.expired f = true → t.frame f = {}) ∧ OnlyIn [.cntCfg, .cnts, .out, .gen, .hif, .eic, .lanes, .frames, .bpm, .fab, .sched, .cps, .glz, .bur] s t)

/-- O41. A good class record replaces its class node and a good circuit queue record its queue set, each with full
buckets; CPS_WRITE with EN starts the profile with its first slot due 1 µs later, and without EN ends it. A bad
record changes nothing of the schedulers, and a profile write that stops adds no rate to its port; the refusals
complete with EGS_BAD_RECORD, CPS_BAD_RECORD, CPS_MODE, CPS_SIZE or CPS_RATE. A shaper tick adds 64 x CIR and 64 x
PIR to every shaper's buckets for each 64 ns, up to full. Time reaches the D of a slot when the slot falls due.
(R346, R349, R356, R357, R361, Table 11.2, Table 11.3, Table 11.5.) -/
def Obligations.NodesShapersAndProfilesAreWritten : Prop :=
  (∀ (r : Ring) (d b : Bytes) (s : State), Executing s r 0x0070 d → byteAt b 0 ≤ 127 → byteAt b 1 ≤ 7 → byteAt b 2 ≤ 3 →
    byteAt b 3 = 0 → badWeight (leAt b 4 2) = false → badWeight (leAt b 6 2) = false → zeroAt b 8 8 = true →
    badShaper (shaperOf (sliceOf b 16 16)) = false →
    ∃ t, exec (.egsClassWrite r (some b)) s = .next t ∧
      (let n := byteAt b 0 * 8 + byteAt b 1
       t.classNode n = ⟨bitOf 0 (byteAt b 2), bitOf 1 (byteAt b 2), leAt b 4 2, leAt b 6 2, shaperOf (sliceOf b 16 16)⟩ ∧
       t.classBuckets n = (shaperOf (sliceOf b 16 16)).full ∧ (∀ m, m ≠ n → t.classNode m = s.classNode m)) ∧
      t.sched.queues = s.sched.queues ∧ t.sched.nodeV = s.sched.nodeV ∧ t.sched.memberS = s.sched.memberS ∧
      Completed s t r d .ok 0 [] ∧ OnlyIn [.cntCfg, .cnts, .out, .hif, .eic, .flt, .kiln, .sched] s t) ∧
  (∀ (r : Ring) (d b : Bytes) (s : State), Executing s r 0x0070 d →
    (127 < byteAt b 0 ∨ 7 < byteAt b 1 ∨ 3 < byteAt b 2 ∨ byteAt b 3 ≠ 0 ∨ badWeight (leAt b 4 2) = true ∨
      badWeight (leAt b 6 2) = true ∨ zeroAt b 8 8 = false ∨ badShaper (shaperOf (sliceOf b 16 16)) = true) →
    ∃ t, exec (.egsClassWrite r (some b)) s = .next t ∧ t.sched = s.sched ∧ (t.ring r).halted = true ∧
      Completed s t r d .egsBadRecord 0 []) ∧
  (∀ (r : Ring) (d b : Bytes) (s : State), Executing s r 0x0071 d → byteAt b 0 ≤ 15 → (byteAt b 1 = 0 ∨ byteAt b 1 = 2) →
    leAt b 2 2 ≤ 4095 → zeroAt b 4 12 = true → (∀ c, c < 8 → badWeight (leAt b (16 + 2 * c) 2) = false) →
    badShaper (shaperOf (sliceOf b 32 16)) = false →
    ∃ t, exec (.egsCirqWrite r (some b)) s = .next t ∧
      (let n := byteAt b 0 * 4096 + leAt b 2 2
       t.cirqNode n = ⟨bitOf 1 (byteAt b 1), (List.range 8).map (fun c => leAt b (16 + 2 * c) 2), shaperOf (sliceOf b 32 16)⟩ ∧
       t.cirqBuckets n = (shaperOf (sliceOf b 32 16)).full ∧ (∀ m, m ≠ n → t.cirqNode m = s.cirqNode m)) ∧
      t.sched.queues = s.sched.queues ∧ Completed s t r d .ok 0 [] ∧ OnlyIn [.cntCfg, .cnts, .out, .hif, .eic, .flt, .kiln, .sched] s t) ∧
  (∀ s : State, ∃ t, exec .shaperTick s = .next t ∧ t.now = max s.now ((s.sched.lastTick + 1) * 64) ∧
      t.sched.lastTick = t.now / 64 ∧
      (∀ k, t.classBuckets k = (s.classBuckets k).ticks (s.classNode k).shaper (t.now / 64 - s.sched.lastTick)) ∧
      (∀ k, t.cirqBuckets k = (s.cirqBuckets k).ticks (s.cirqNode k).shaper (t.now / 64 - s.sched.lastTick)) ∧
      (∀ p, t.portBuckets p = (s.portBuckets p).ticks (s.portShaper p) (t.now / 64 - s.sched.lastTick)) ∧
      OnlyIn [.time, .sched] s t) ∧
  (∀ (r : Ring) (d b : Bytes) (v : CirVer) (s : State), Executing s r 0x0072 d → badCps b = false →
    s.cirNow (leAt b 0 2) = some v → (v.mode = 1 ∨ v.mode = 2) → s.black v.port = true →
    (let q := profileOfRecord b (s.now + 1000)
     (s.badSizes q v = true → ∃ t, exec (.cpsWrite r (some b)) s = .next t ∧ t.cps = s.cps ∧ Completed s t r d .cpsSize 0 []) ∧
     (s.badSizes q v = false → s.overRate (leAt b 0 2) (if bitOf 0 q.flags then q.rate else 0) v.port = true →
       ∃ t, exec (.cpsWrite r (some b)) s = .next t ∧ t.cps = s.cps ∧ Completed s t r d .cpsRate 0 []) ∧
     (s.badSizes q v = false → s.overRate (leAt b 0 2) (if bitOf 0 q.flags then q.rate else 0) v.port = false →
       ∃ t, exec (.cpsWrite r (some b)) s = .next t ∧
         (bitOf 0 q.flags = true → (t.cps.get none (leAt b 0 2)).map (fun x => { x with pin := none }) = some q) ∧
         (bitOf 0 q.flags = false → t.cps.get none (leAt b 0 2) = none) ∧
         Completed s t r d .ok 0 [] ∧ OnlyIn [.cntCfg, .cnts, .out, .hif, .eic, .flt, .kiln, .frames, .sched, .cps, .glz] s t))) ∧
  (∀ (r : Ring) (d b : Bytes) (s : State), Executing s r 0x0072 d →
    (badCps b = true → ∃ t, exec (.cpsWrite r (some b)) s = .next t ∧ t.cps = s.cps ∧ Completed s t r d .cpsBadRecord 0 []) ∧
    (badCps b = false →
      (s.cirNow (leAt b 0 2)).all (fun v => (v.mode ≠ 1 && v.mode ≠ 2) || !s.black v.port) = true →
      ∃ t, exec (.cpsWrite r (some b)) s = .next t ∧ t.cps = s.cps ∧ Completed s t r d .cpsMode 0 [])) ∧
  (∀ (c : Circuit) (q : Profile) (s : State), s.cps.get none c = some q →
    ∃ t, exec (.cpsSlotDue c) s = .next t ∧ t.now = max s.now q.due ∧ OnlyIn [.time] s t)

/-- O42. A port's turn among the ports of its slice goes to the one with fewest bytes selected and not started, the
lower number first, of those that have something to select and no selection in this cycle. A port that is not UP,
that runs in SAFE, that has 16 KiB selected and not started or whose turn it is not in its slice selects nothing. A
due slot takes the frame that fits, which is selected with the slot's size and number, or a filler frame when the
circuit can fill, and the slot's due time moves on; a slot with neither is skipped and counted. Without due slots
and below level X of the port shaper, the head of the queue that the choice of R342 names is selected: it leaves its
queue and waits for Burin, and its class node's V and start tag advance. (R74, R338, R341, R342, R344, R346, R348,
R357, R358, R361.) -/
def Obligations.SchedulerSelectsFrames : Prop :=
  (∀ (p q : Port) (s : State), p.val / 8 = q.val / 8 → s.portTurn p = true → s.wouldSelect q = true → p ≠ q →
    q.val ∉ s.servedNow (q.val / 8) → p.val ∉ s.servedNow (p.val / 8) ∧
      (s.selectedBytes p < s.selectedBytes q ∨ (s.selectedBytes p = s.selectedBytes q ∧ p.val < q.val))) ∧
  (∀ (p : Port) (s : State), ((s.port p).link ≠ .up ∨ s.mode = .safe ∨ 16384 ≤ s.selectedBytes p ∨ s.shaperSync.portTurn p = false) →
    exec (.egressSelect p) s = .next s.shaperSync) ∧
  (∀ (p : Port) (c k : Nat) (s u : State), (s.port p).link = .up → s.mode ≠ .safe → s.selectedBytes p < 16384 →
    s.shaperSync.portTurn p = true → u = s.shaperSync.noteServed p → u.dueSlots p = [] →
    u.portLevelOf p ≠ .x → u.choose p = some (c, k) → u.age (u.frame (u.headOf k)) ≤ u.resLimit →
    ∃ t, exec (.egressSelect p) s = .next t ∧ (t.frame (u.headOf k)).eg = .selected ∧
      t.bur.sel.get [] ((s.frame (u.headOf k)).outPort / 8) =
        s.bur.sel.get [] ((s.frame (u.headOf k)).outPort / 8) ++ [u.headOf k] ∧
      u.headOf k ∉ t.queue (u.queueKey (u.frame (u.headOf k))) ∧
      t.sched.nodeV.get 0 (p.val * 8 + c) =
        (if tagBefore (u.sched.nodeV.get 0 (p.val * 8 + c)) (u.finish k) then u.finish k
         else u.sched.nodeV.get 0 (p.val * 8 + c)) ∧
      (∀ g, g ≠ u.headOf k → t.frame g = s.frame g) ∧ OnlyIn [.cntCfg, .cnts, .frames, .sched, .bur] s t) ∧
  (∀ (p : Port) (c f : Nat) (rest : List Nat) (q : Profile) (v : CirVer) (s u w : State), (s.port p).link = .up → s.mode ≠ .safe →
    s.selectedBytes p < 16384 → s.shaperSync.portTurn p = true → u = s.shaperSync.noteServed p → u.dueSlots p = c :: rest → u.cps.get none c = some q →
    u.cirNow c = some v → q.due ≤ u.now → u.now < q.next.due → u.offer p v.eq (q.used.foldl max 0) q.size 8 = (w, some f) →
    ∃ t, exec (.egressSelect p) s = .next t ∧ (t.frame f).eg = .selected ∧ (t.frame f).slot = some (q.size, q.n % q.nslot) ∧
      (t.cps.get none c).map (fun x => { x with pin := none }) = some { q.next with pin := none } ∧
      OnlyIn [.cntCfg, .cnts, .out, .draws, .gen, .hif, .eic, .lanes, .frames, .nextFrame, .bpm, .fab, .sched, .cps, .glz, .bur] s t) ∧
  (∀ (p : Port) (c : Nat) (rest : List Nat) (q : Profile) (v : CirVer) (s u : State), (s.port p).link = .up → s.mode ≠ .safe →
    s.selectedBytes p < 16384 → s.shaperSync.portTurn p = true → u = s.shaperSync.noteServed p → u.dueSlots p = c :: rest → u.cps.get none c = some q →
    u.cirNow c = some v → q.due ≤ u.now → u.now < q.next.due → u.offer p v.eq (q.used.foldl max 0) q.size 8 = (u, none) →
    (u.canFill c q v = true →
      ∃ t, exec (.egressSelect p) s = .next t ∧ t.nextFrame = s.nextFrame + 1 ∧ (t.frame s.nextFrame).origin = .filler ∧
        (t.frame s.nextFrame).eg = .selected ∧ (t.frame s.nextFrame).circuit = some c ∧
        (t.frame s.nextFrame).slot = some (q.size, q.n % q.nslot) ∧ (t.frame s.nextFrame).fillCount = q.fillers ∧
        t.cps.get none c = some { q.next with fillers := q.fillers + 1 } ∧ OnlyIn [.cntCfg, .cnts, .out, .draws, .gen, .hif, .eic, .lanes, .frames, .nextFrame, .bpm, .fab, .sched, .cps, .glz, .bur] s t) ∧
    (u.canFill c q v = false → rest = [] → u.portLevelOf p = .x →
      ∃ t, exec (.egressSelect p) s = .next t ∧ t.cps.get none c = some q.next ∧ t.frames = s.frames ∧
        t.cnt (cntCps (p / 8) 2) = (s.cnt (cntCps (p / 8) 2) + 1) % 2 ^ 48))

/-- O43. A good POL_WRITE record becomes the version of STAGING with full buckets in every quad; POL_DELETE removes or
marks the visible version; POL_READ writes the record and the bucket levels of a live generation. A quad meters its
next request: the buckets of its version move as R352 says and the frame takes the colour. A frame that keeps its
slice's watermark for 16 µs counts as late. Metering keeps every bucket between 0 and its burst. (R48, R54, R350,
R351, R352, R353, R354, R355, Table 11.4.) -/
def Obligations.PolicersAreWrittenAndMeter : Prop :=
  (∀ (r : Ring) (d b : Bytes) (s : State), Executing s r 0x0078 d → SeqIdle s r 0x0078 → badPolicer b = false → s.logRoom 1 = true →
    ∃ t, exec (.polWrite r (some b)) s = .next t ∧
      t.polVers (leAt b 0 2) =
        (if (s.polVers (leAt b 0 2)).any (fun x => s.madeInStaging x.tag) then
          (s.polVers (leAt b 0 2)).map (fun x => if s.madeInStaging x.tag then s.polOf b else x)
         else (s.polVers (leAt b 0 2)).map (fun x =>
            if x.tag.visible s.staging then { x with tag := { x.tag with died := s.staging, ds := true } } else x) ++ [s.polOf b]) ∧
      (∀ q, q < 4 → t.pol.bkts.get none (polKey q (leAt b 0 2) s.staging) = none) ∧
      (∀ m, m ≠ leAt b 0 2 → t.polVers m = s.polVers m) ∧ t.logUsed s.staging = s.logUsed s.staging + 1 ∧
      Completed s t r d .ok 0 [] ∧ OnlyIn [.regs, .cntCfg, .cnts, .out, .draws, .gen, .hif, .eic, .flt, .kiln, .pol, .tabs] s t) ∧
  (∀ (r : Ring) (d : Bytes) (v : PolVer) (s : State), Executing s r 0x0079 d → SeqIdle s r 0x0079 →
    s.polAt (leAt d 0x10 2) s.staging = some v → s.logRoom 1 = true →
    ∃ t, exec (.polDelete r) s = .next t ∧
      t.polVers (leAt d 0x10 2) = (if s.madeInStaging v.tag then (s.polVers (leAt d 0x10 2)).filter (· ≠ v)
        else (s.polVers (leAt d 0x10 2)).map (fun x =>
          if x = v then { x with tag := { x.tag with died := s.staging, ds := true } } else x)) ∧
      (∀ m, m ≠ leAt d 0x10 2 → t.polVers m = s.polVers m) ∧ t.logUsed s.staging = s.logUsed s.staging + 1 ∧
      Completed s t r d .ok 0 [] ∧ OnlyIn [.regs, .cntCfg, .cnts, .out, .draws, .gen, .hif, .eic, .flt, .kiln, .pol, .tabs] s t) ∧
  (∀ (r : Ring) (d : Bytes) (v : PolVer) (s : State), Executing s r 0x007A d → SeqIdle s r 0x007A →
    s.live (BitVec.ofNat 16 (leAt d 0x12 2)) = true →
    s.polAt (leAt d 0x10 2) (BitVec.ofNat 16 (leAt d 0x12 2)) = some v →
    ∃ t, exec (.polRead r true) s = .next t ∧
      Emits s t (.hostWrite (s.ringReq r) (descAddr d) (v.bytes (leAt d 0x10 2) ++
        v.levels ((s.pol.bkts.get none (polKey (byteAt d 0x14) (leAt d 0x10 2) v.tag.born)).getD (v.full 0)))) ∧
      t.pol = s.pol ∧ Completed s t r d .ok 0 [] ∧ OnlyIn [.regs, .cntCfg, .cnts, .out, .draws, .gen, .hif, .eic, .flt, .kiln, .tabs] s t) ∧
  (∀ (q : Quad) (f n : Nat) (v : PolVer) (k : PolBucket) (s : State), s.nextMeter q = some f →
    s.meteredBy (s.frame f) = some (n, v) → (s.frame f).meter ≠ .late →
    k = (s.pol.bkts.get none (polKey ((s.frame f).slice / 4) n v.tag.born)).getD (v.full (s.frame f).sofNs) →
    ∃ t, exec (.policerMeter q) s = .next t ∧
      (let m := v.meter k (min ((s.frame f).sofNs - k.last) (2 ^ 32)) (mubits ((s.frame f).len + 4))
          (if bitOf 0 v.flags then s.inColour (s.frame f) else 0)
       t.pol.bkts.get none (polKey ((s.frame f).slice / 4) n v.tag.born) = some ⟨m.1, m.2.1, (s.frame f).sofNs⟩ ∧
       t.frame f = { s.frame f with colour := m.2.2, meter := .done }) ∧
      (∀ g, g ≠ f → t.frame g = s.frame g) ∧ t.pol.vers = s.pol.vers ∧ OnlyIn [.cnts, .frames, .pol, .pmc] s t) ∧
  (∀ (f : Nat) (s : State), s.holdsMark (s.frame f) = true →
    ∃ t, exec (.policerLate f) s = .next t ∧ t.now = max s.now ((s.frame f).sofNs + 16000) ∧
      t.frame f = { s.frame f with meter := .late } ∧ (∀ g, g ≠ f → t.frame g = s.frame g) ∧ OnlyIn [.time, .frames] s t) ∧
  (∀ (v : PolVer) (k : PolBucket) (d inc n : Nat), 0 ≤ k.tc → 0 ≤ k.t2 →
    0 ≤ (v.meter k d (mubits n) inc).1 ∧ (v.meter k d (mubits n) inc).1 ≤ mubits v.burst1 ∧
    0 ≤ (v.meter k d (mubits n) inc).2.1 ∧ (v.meter k d (mubits n) inc).2.1 ≤ mubits v.burst2)

/-- O44. A well-formed INDEX doorbell whose index lies within the ring's size of the device index sets the host index of
an active ring and nothing else of it. An INVALIDATE doorbell that reads a valid entry with EN = 1 enables a ring
that is not active, and a deferred entry does the same once ACTIVE is 0. A RESUME doorbell clears HALTED and ERR of
a halted ring. A doorbell that is not well formed, outside the MSI-X table and the pending bit array, counts in
HIF_DB_IGNORED_CNT. A descriptor fetched on an idle COMMAND or KEY ring, whose context has room in the cache, that
passes the first four checks of R381 is in execution. NOP completes with OK. A stopping ring with nothing left
writes its write-back word and becomes inactive. An event ring that has room again writes the OVERFLOW record with
the number of lost records. The end of an interrupt holdoff sets the ring's source pending once more when entries
arrived during it. (R371, R373, R374, R375, R387, R377, R383, R388, R393, R395.) -/
def Obligations.DoorbellsAndDescriptorsDriveRings : Prop :=
  (∀ (req : Requester) (off size : Nat) (v : BitVec 64) (r : Nat) (s : State),
    s.doorbellRing req off size v.toNat = some r → bitsOf 50 48 v.toNat = 0 → (s.ring r).active = true →
    (if (s.ring r).ctx.any (fun c => c.kind = 5) then ((s.ring r).devIdx + 2 ^ 32 - bitsOf 31 0 v.toNat) % 2 ^ 32
      else (bitsOf 31 0 v.toNat + 2 ^ 32 - (s.ring r).devIdx) % 2 ^ 32) ≤ (s.ring r).size →
    ∃ t, exec (.doorbellIndex req off size v) s = .next t ∧
      t.ring r = { s.ring r with hostIdx := bitsOf 31 0 v.toNat } ∧
      (∀ q, q ≠ r → t.ring q = s.ring q) ∧ OnlyIn [.cntCfg, .cnts, .hif] s t) ∧
  (∀ (req : Requester) (off size : Nat) (v : BitVec 64) (b : Bytes) (r : Nat) (s : State),
    s.doorbellRing req off size v.toNat = some r → bitsOf 50 48 v.toNat = 1 → (s.ring r).active = false →
    (ctxOf b).en = true → s.ctxValid r (ctxOf b) = true →
    ∃ t, exec (.doorbellInvalidate req off size v (some b)) s = .next t ∧
      t.ring r = { ctx := some (ctxOf b), active := true } ∧
      (∀ q, q ≠ r → t.ring q = s.ring q) ∧ OnlyIn [.cntCfg, .cnts, .hif] s t) ∧
  (∀ (r : Ring) (c : RingCtx) (s : State),
    (s.ring r).deferred = some c → (s.ring r).active = false → s.ctxValid r c = true →
    ∃ t, exec (.deferredRingEnable r) s = .next t ∧ t.ring r = { ctx := some c, active := true } ∧
      (∀ q, q ≠ r.val → t.ring q = s.ring q) ∧ OnlyIn [.hif] s t) ∧
  (∀ (req : Requester) (off size : Nat) (v : BitVec 64) (r : Nat) (s : State),
    s.doorbellRing req off size v.toNat = some r → bitsOf 50 48 v.toNat = 2 → (s.ring r).halted = true →
    ∃ t, exec (.doorbellResume req off size v) s = .next t ∧
      t.ring r = { s.ring r with halted := false, err := 0 } ∧
      (∀ q, q ≠ r → t.ring q = s.ring q) ∧ OnlyIn [.cntCfg, .cnts, .hif] s t) ∧
  (∀ (req : Requester) (off size : Nat) (v : BitVec 64) (b : Dma) (s : State),
    s.doorbellRing req off size v.toNat = none → msixAccess req off size = none →
    (off < pendingArray req ∨ pendingArray req + 8 ≤ off) →
    exec (.doorbellIndex req off size v) s = .next (s.bump (cntHif (reqFn req).num 0)) ∧
    exec (.doorbellInvalidate req off size v b) s = .next (s.bump (cntHif (reqFn req).num 0)) ∧
    exec (.doorbellResume req off size v) s = .next (s.bump (cntHif (reqFn req).num 0))) ∧
  (∀ (r : Ring) (d : Bytes) (c : RingCtx) (s : State),
    s.mode ≠ .reset → s.mode ≠ .bringup → (s.ring r).enabled = true → (s.ring r).ctx = some c →
    (c.kind = 1 ∨ c.kind = 2) → (s.ring r).hasWork = true → (s.ring r).fetched = [] → (s.ring r).inExec = none →
    s.handCheck r d = none → s.cacheRoom r ≠ none →
    ∃ t, exec (.descriptorFetch r (.data d)) s = .next t ∧ t.ring r = { s.ring r with inExec := some d } ∧
      (∀ q, q ≠ r.val → t.ring q = s.ring q) ∧ OnlyIn [.cntCfg, .cnts, .hif] s t) ∧
  (∀ (r : Ring) (d : Bytes) (s : State), Executing s r 0x0001 d →
    ∃ t, exec (.nop r) s = .next t ∧ Completed s t r d .ok 0 [] ∧
      OnlyIn [.cntCfg, .cnts, .out, .hif, .eic, .flt, .kiln] s t) ∧
  (∀ (r : Ring) (c : RingCtx) (s : State),
    (s.ring r).active = true → (s.ring r).stopping = true → (s.ring r).inExec = none → (s.ring r).fetched = [] →
    (s.ring r).ctx = some c →
    ∃ t, exec (.ringStopped r) s = .next t ∧ (t.ring r).active = false ∧ (t.ring r).stopping = false ∧
      Emits s t (.hostWrite (s.ringReq r) c.wbAddr (leBytes 8
        ((s.ring r).devIdx % 2 ^ 32 + boolBit (s.ring r).halted * 2 ^ 32 + (s.ring r).err % 256 * 2 ^ 40))) ∧
      OnlyIn [.cntCfg, .cnts, .out, .hif, .eic] s t) ∧
  (∀ (r : Ring) (c : RingCtx) (s : State), s.mode ≠ .reset → s.mode ≠ .bringup →
    (s.ring r).enabled = true → (s.ring r).ctx = some c → c.kind = 5 → (s.ring r).lost ≠ 0 → (s.ring r).full = false →
    ∃ t, exec (.eventOverflowRecord r) s = .next t ∧ (t.ring r).lost = 0 ∧
      (t.ring r).devIdx = ((s.ring r).devIdx + 1) % 2 ^ 32 ∧
      (∃ b, Emits s t (.hostWrite (s.ringReq r) ((s.ring r).slotAddr (s.ring r).devIdx) b) ∧ leAt b 0 2 = 0x0001 ∧
        leAt b 16 4 = (s.ring r).lost % 2 ^ 32) ∧
      OnlyIn [.cntCfg, .cnts, .out, .hif, .eic] s t) ∧
  (∀ (r : Ring) (c : RingCtx) (s : State),
    (s.ring r).holdEnd ≠ 0 → (s.ring r).ctx = some c →
    ∃ t, exec (.irqHoldoffEnd r) s = .next t ∧ t.now = max s.now (s.ring r).holdEnd ∧ (t.ring r).irqHeld = false ∧
      ((s.ring r).irqHeld = false → (t.ring r).holdEnd = 0) ∧
      ((s.ring r).irqHeld = true → c.irqEn = true → 1 ≤ c.irqSrc → c.irqSrc ≤ 1920 →
        (t.intSrc c.irqSrc).isPending c.irqSrc = true) ∧
      OnlyIn [.time, .hif, .eic] s t)

/-- O45. A correction of a word or segment that is not valid changes nothing. Another of a location that the log of its
memory does not hold enters the log when there is room, and a further one raises its REPEAT and, at the fourth,
queues a write-back; a correction after the write-back makes the location HARD; a write by its owner makes it SEEN
anew. A completed write-back moves a queued location to WRITTEN_BACK. A scrub step in a valid segment that finds one
bad member, with no other unit of the stripe lost, repairs it and counts an event of its pseudo-channel; with
another lost it poisons the unit; and the end of a lap writes the lap's minutes into HBM_SCRUB_STATUS; nothing is
scrubbed in a segment that is not valid, or while a slice is in panic or in STANDBY. An on-die word that cannot be
corrected is poisoned, outside the tables that Proofing restores. A hard location that a row, a column or a post-
package repair spares is noted in the Kiln Record; without a spare its segment of the deep area is withdrawn. (R404,
R408, R411, R412, R413, R515, Table 13.4.) -/
def Obligations.CorrectionsAreLoggedAndScrubbed : Prop :=
  (∀ (inst : BitVec 12) (addr : BitVec 40) (syn : BitVec 8) (s : State), hasLog inst.toNat = true →
    s.validAt inst.toNat addr.toNat = true →
    ((∀ e ∈ s.ceLog inst.toNat, e.addr ≠ addr.toNat) → (s.ceLog inst.toNat).length < 16 →
      ∃ t e, exec (.memCorrection inst addr syn) s = .next t ∧ t.ceLog inst.toNat = s.ceLog inst.toNat ++ [e] ∧
        e.addr = addr.toNat ∧ e.syndrome = syn.toNat ∧ e.rep = 1 ∧ e.state = 0 ∧
        (∀ j, j ≠ inst.toNat → t.ceLog j = s.ceLog j) ∧
        t.flt = (s.meetCorrupt inst.toNat).flt ∧ OnlyIn [.cnts, .flt, .kiln, .hbm] s t) ∧
    (∀ e, (s.ceLog inst.toNat).find? (fun e => e.addr = addr.toNat) = some e →
      ∃ t e', exec (.memCorrection inst addr syn) s = .next t ∧
        t.ceLog inst.toNat = (s.ceLog inst.toNat).map (fun x => if x.addr = addr.toNat then e' else x) ∧
        e'.addr = addr.toNat ∧ e'.syndrome = syn.toNat ∧ e'.rep = min 15 (e.rep + 1) ∧
        e'.state = (if e.state = 2 then 3 else if e.state = 0 ∧ min 15 (e.rep + 1) = 4 then 1 else e.state) ∧
        (e.state = 2 → (inst.toNat, addr.toNat) ∈ t.hbm.hard) ∧
        (∀ j, j ≠ inst.toNat → t.ceLog j = s.ceLog j) ∧ OnlyIn [.cntCfg, .cnts, .out, .hif, .eic, .flt, .kiln, .hbm] s t)) ∧
  (∀ (inst : BitVec 12) (addr : BitVec 40) (syn : BitVec 8) (s : State), s.validAt inst.toNat addr.toNat = false →
    exec (.memCorrection inst addr syn) s = .next s) ∧
  (∀ (pc : Fin 128) (j : Nat) (s : State),
    (s.freshen pc j).ceLog pc = (s.ceLog pc).map (fun e => if e.addr = j then { e with state := 0, rep := 0 } else e)) ∧
  (∀ (inst : BitVec 12) (addr : BitVec 40) (s : State),
    ∃ t, exec (.writebackComplete inst addr) s = .next t ∧
      t.ceLog inst.toNat = (s.ceLog inst.toNat).map (fun e =>
        if e.addr = addr.toNat ∧ e.state = 1 then { e with state := 2, rep := 0 } else e) ∧
      (∀ j, j ≠ inst.toNat → t.ceLog j = s.ceLog j) ∧ OnlyIn [.hbm] s t) ∧
  (∀ (g : Slice) (stripe m : Nat) (d : Bool) (targets : List HbmTarget) (lap : Option Nat) (s : State),
    s.bit .hbmScrubCtrl 0 0 0 = true → s.bpm.panic = [] → s.mode ≠ .standby →
    (∀ k, k < 8 → s.flt.corrupt.get 0 (pcSource (memberPc g k)) = 0) → m < 8 →
    (s.hbm.segs.contains (g.val, segmentOf stripe) = false → lap = none →
      exec (.hbmScrubStep g stripe [] [m] d targets lap) s = .next s) ∧
    (s.hbm.segs.contains (g.val, segmentOf stripe) = true → s.hbm.bad.contains (memberPc g m, stripe) = false →
      (s.stripeLost g stripe).all (· = m) = true →
      ∃ t, exec (.hbmScrubStep g stripe [] [m] d targets lap) s = .next t ∧
        ((s.fsrc (pcSource (memberPc g m))).retired = false → (t.fsrc (pcSource (memberPc g m))).flag = true) ∧
        t.hbm.bad = s.hbm.bad ∧ t.cnt (cntHbm (pcStack (memberPc g m)) 4) = (s.cnt (cntHbm (pcStack (memberPc g m)) 4) + 1) % 2 ^ 48 ∧
        (∀ n, lap = some n → bitsOf 15 0 (t.reg .hbmScrubStatus 0 0) = min 65535 n) ∧ OnlyIn [.regs, .cntCfg, .cnts, .out, .draws, .gen, .hif, .eic, .flt, .kiln, .units, .lanes, .frames, .bpm, .fab, .sched, .cps, .glz, .bur, .hbm, .pmc] s t) ∧
    (targets = [] → s.hbm.segs.contains (g.val, segmentOf stripe) = true → s.hbm.bad.contains (memberPc g m, stripe) = false →
      (s.stripeLost g stripe).all (· = m) = false →
      ∃ t, exec (.hbmScrubStep g stripe [] [m] d targets lap) s = .next t ∧ (memberPc g m, stripe) ∈ t.hbm.bad ∧
        OnlyIn [.regs, .cntCfg, .cnts, .out, .draws, .gen, .hif, .eic, .flt, .kiln, .units, .lanes, .frames, .bpm, .fab, .sched, .cps, .glz, .bur, .hbm, .pmc] s t)) ∧
  (∀ (g : Slice) (stripe : Nat) (c b : List Nat) (d : Bool) (targets : List HbmTarget) (lap : Option Nat) (s : State),
    (s.bit .hbmScrubCtrl 0 0 0 = false ∨ s.bpm.panic ≠ [] ∨ s.mode = .standby) →
    exec (.hbmScrubStep g stripe c b d targets lap) s = .next s) ∧
  (∀ (inst : BitVec 12) (addr : BitVec 40) (s : State), hasLog inst.toNat = true →
    scrubbedOnDie (memClass inst.toNat) = true → memClass inst.toNat ≠ 3 → s.mode ≠ .standby →
    s.validAt inst.toNat addr.toNat = true → (inst.toNat, addr.toNat) ∉ s.hbm.poison →
    ∃ t, exec (.ondieScrubStep inst addr .uncorrectable none) s = .next t ∧
      t.hbm = { s.hbm with poison := s.hbm.poison ++ [(inst.toNat, addr.toNat)] } ∧ OnlyIn [.regs, .cntCfg, .cnts, .out, .draws, .hif, .eic, .flt, .kiln, .tabs, .hbm] s t) ∧
  (∀ (inst : BitVec 12) (addr : BitVec 40) (s : State), (inst.toNat, addr.toNat) ∈ s.hbm.hard → s.kiln.perm.length < 16384 →
    (∀ how, (how = .row ∨ how = .column) → memClass inst.toNat ≠ 0 →
      ∃ t k, exec (.memSpare inst addr how) s = .next t ∧
        t.hbm = { s.hbm with hard := s.hbm.hard.filter (· ≠ (inst.toNat, addr.toNat)) } ∧
        t.kiln.perm = s.kiln.perm ++ [k] ∧ k.type = 0x0013 ∧
        k.data = leBytes 2 inst.toNat ++ leBytes 5 addr.toNat ++ leBytes 1 (if how = .row then 0 else 1) ++ zeros 2 ∧
        OnlyIn [.hbm, .kiln] s t) ∧
    (memClass inst.toNat = 0 → s.mayGoOffline (pcGroup (memIndex inst.toNat)) = true →
      ∃ t, exec (.memSpare inst addr .ppr) s = .next t ∧
        (t.group (pcGroup (memIndex inst.toNat))).offline = some (pcMember (memIndex inst.toNat)) ∧
        (t.group (pcGroup (memIndex inst.toNat))).repair = true ∧ OnlyIn [.hbm, .kiln, .units] s t) ∧
    (∀ m j, memClass inst.toNat = 0 → s.hbmUnit (memIndex inst.toNat) addr.toNat = some (m, j) → j < 4793490 →
      (pcGroup (memIndex inst.toNat), segmentOf j) ∉ s.bpm.withdrawn →
      ∃ t, exec (.memSpare inst addr .noneLeft) s = .next t ∧
        t.bpm.withdrawn = s.bpm.withdrawn ++ [(pcGroup (memIndex inst.toNat), segmentOf j)] ∧
        (inst.toNat, addr.toNat) ∉ t.hbm.hard ∧ OnlyIn [.mode, .cntCfg, .cnts, .out, .draws, .gen, .hif, .eic, .flt, .kiln, .units, .lanes, .frames, .bpm, .fab, .sched, .cps, .glz, .bur, .tabs, .hbm] s t))

/-- O46. A read error of a location outside the stripes in use, or that a second read corrects, changes nothing; one
that reconstruction serves is counted and is a fault event of its pseudo-channel; otherwise the unit is poisoned,
and the structured data in it is lost as Table 13.4 says: the four counter pairs become 0 and invalid, both lost
copies of a receive-index bucket poison it. A rebuilt bucket is no longer poisoned. A refresh that is due takes one
from the bank's postponed refreshes, one pulled in adds ahead of them outside panic, and one at the limit is forced
and counted. A member that may go offline for its temperature does so, and a good end of the work returns it. A
group under repair advances its PROGRESS, and becomes REBUILT with its last segment; an evacuated one becomes
RETIRED once no unit and no page is left. (R405, R406, R407, R409, R410, R411, R412, R415, R416, R515.) -/
def Obligations.StackErrorsAndMembersAreHandled : Prop :=
  (∀ (pc : Fin 128) (reread recon : Bool) (addr : Nat) (target : HbmTarget) (s : State),
    (s.hbmUnit pc addr = none ∨ s.validAt pc addr = false) →
    exec (.hbmReadError pc reread recon addr target) s = .next s) ∧
  (∀ (pc : Fin 128) (recon : Bool) (addr m j : Nat) (target : HbmTarget) (s : State), s.hbmUnit pc addr = some (m, j) →
    s.validAt pc addr = true → s.hbm.bad.contains (memberPc (pcGroup pc) m, j) = false →
    exec (.hbmReadError pc true recon addr target) s = .next s ∧
    ((s.stripeLost (pcGroup pc) j).all (· = m) = true →
      ∃ t, exec (.hbmReadError pc false true addr target) s = .next t ∧
        ((s.fsrc (pcSource pc)).retired = false → (t.fsrc (pcSource pc)).flag = true) ∧
        t.cnt (cntHbm (pcStack pc) 2) = (s.cnt (cntHbm (pcStack pc) 2) + 1) % 2 ^ 48 ∧ t.hbm.bad = s.hbm.bad ∧
        OnlyIn [.cntCfg, .cnts, .out, .hif, .eic, .flt, .kiln, .hbm, .pmc] s t)) ∧
  (∀ (pc : Fin 128) (addr m j : Nat) (u : Fin 262144) (s : State), s.hbmUnit pc addr = some (m, j) →
    s.validAt pc addr = true →
    ∃ t, exec (.hbmReadError pc false false addr (.counterUnit u)) s = .next t ∧
      (memberPc (pcGroup pc) m, j) ∈ t.hbm.bad ∧
      (∀ k, t.pmc.pairs.get {} k = if s.liesIn (.counterUnit u) (pcGroup pc) m j = true ∧ k / 4 = u.val then ⟨0, 0, true⟩
        else s.pmc.pairs.get {} k) ∧ OnlyIn [.cntCfg, .cnts, .out, .draws, .gen, .hif, .eic, .flt, .kiln, .units, .lanes, .frames, .bpm, .fab, .sched, .cps, .glz, .bur, .hbm, .pmc] s t) ∧
  (∀ (pc : Fin 128) (addr m j b : Nat) (s : State), s.hbmUnit pc addr = some (m, j) → s.validAt pc addr = true →
    ∃ t, exec (.hbmReadError pc false false addr (.receiveIndex b true)) s = .next t ∧
      (memberPc (pcGroup pc) m, j) ∈ t.hbm.bad ∧
      (∀ c, c ∈ t.glz.rxPoison ↔ c ∈ s.glz.rxPoison ∨
        (c = b ∧ s.liesIn (.receiveIndex b true) (pcGroup pc) m j = true)) ∧ OnlyIn [.cntCfg, .cnts, .out, .draws, .gen, .hif, .eic, .flt, .kiln, .units, .lanes, .frames, .bpm, .fab, .sched, .cps, .glz, .bur, .hbm, .pmc] s t) ∧
  (∀ (b : Nat) (s : State), ∃ t, exec (.receiveIndexRebuildDone b) s = .next t ∧
      t.glz = { s.glz with rxPoison := s.glz.rxPoison.filter (· ≠ b) } ∧ OnlyIn [.glz] s t) ∧
  (∀ (pc : Fin 128) (bank due : Nat) (s : State),
    (let n := s.postponed pc bank + due
     (∀ pulled, s.bpm.panic = [] ∨ pulled = false →
       ∃ t, exec (.hbmRefresh pc bank pulled due) s = .next t ∧
         t.postponed pc bank = (if pulled then (if n ≤ 0 ∧ -n < Config.jesd238PullInLimit then n - 1 else n)
           else if 1 ≤ n ∧ n < s.maxPostpone then n - 1 else n) ∧
         (∀ k, k ≠ bankKey pc bank → t.hbm.postponed.get 0 k = s.hbm.postponed.get 0 k) ∧ OnlyIn [.hbm] s t) ∧
     (s.bpm.panic ≠ [] →
       ∃ t, exec (.hbmRefresh pc bank true due) s = .next t ∧ t.postponed pc bank = n ∧ OnlyIn [.hbm] s t) ∧
     (1 ≤ n → s.maxPostpone ≤ n →
       ∃ t, exec (.refreshForced pc bank due) s = .next t ∧ t.postponed pc bank = n - 1 ∧
         t.cnt (cntHbm (pcStack pc) 5) = (s.cnt (cntHbm (pcStack pc) 5) + 1) % 2 ^ 48 ∧ OnlyIn [.hbm, .cnts] s t) ∧
     ((n < 1 ∨ n < s.maxPostpone) →
       ∃ t, exec (.refreshForced pc bank due) s = .next t ∧ t.postponed pc bank = n ∧ OnlyIn [.hbm] s t))) ∧
  (∀ (pc : Fin 128) (temp : Int) (s : State), s.mayGoOffline (pc.val % 16) = true → s.mode ≠ .standby →
    ∃ t, exec (.hbmRetrainStart pc temp) s = .next t ∧
      t.group (pc.val % 16) = { s.group (pc.val % 16) with offline := some (pc.val / 16), repair := false, tries := 0 } ∧
      (∀ g, g ≠ pc.val % 16 → t.group g = s.group g) ∧
      t.now = (if s.trainDrift pc temp then s.now
        else max s.now (s.lastTrained pc + s.fld .hbmTrainCtrl 0 0 15 0 * 1000000000)) ∧
      t.hbm.trained.get 0 pc = t.now ∧ t.hbm.trainedC.get none pc = some temp ∧ OnlyIn [.time, .units, .hbm] s t) ∧
  (∀ (pc : Fin 128) (s : State), (s.group (pc.val % 16)).offline = some (pc.val / 16) → (s.group (pc.val % 16)).tries < 2 →
    ∃ t, exec (.memberReturn pc true) s = .next t ∧ t.group (pc.val % 16) =
        { s.group (pc.val % 16) with offline := none, repair := false, tries := 0, stale := [] } ∧
      (∀ g, g ≠ pc.val % 16 → t.group g = s.group g) ∧ OnlyIn [.units] s t) ∧
  (∀ (g : Slice) (switched : Nat) (s : State), (s.group g).state = 1 →
    (let n := max (s.group g).progress (min switched 114688)
     (n < 114688 → ∃ t, exec (.groupRebuildDone g switched) s = .next t ∧ t.group g = { s.group g with progress := n } ∧
       (∀ j, j ≠ g.val → t.group j = s.group j) ∧ OnlyIn [.units] s t) ∧
     (114688 ≤ n → ∃ t, exec (.groupRebuildDone g switched) s = .next t ∧
       t.group g = { s.group g with state := 2, progress := n } ∧
       (∀ j, j ≠ g.val → t.group j = s.group j) ∧ OnlyIn [.cntCfg, .cnts, .out, .hif, .eic, .flt, .kiln, .units] s t))) ∧
  (∀ (g : Slice) (left : Nat) (s : State), (s.group g).state = 3 →
    (let n := min (s.group g).progress left
     (n ≠ 0 ∨ s.groupPages g ≠ [] →
       ∃ t, exec (.groupEvacuationDone g left) s = .next t ∧ t.group g = { s.group g with progress := n } ∧
         (∀ j, j ≠ g.val → t.group j = s.group j) ∧ OnlyIn [.units, .hbm] s t) ∧
     (n = 0 → s.groupPages g = [] →
       ∃ t, exec (.groupEvacuationDone g left) s = .next t ∧ t.group g = { s.group g with state := 4, progress := 0 } ∧
         (∀ j, j ≠ g.val → t.group j = s.group j) ∧ OnlyIn [.flt, .kiln, .units, .hbm] s t)))

/-- O47. One event of a source that is neither retired nor permanent sets its FLT_STATUS flag; a retirable source
becomes permanent exactly when its newest COUNT events, this one included, lie within WINDOW_MS. The retirement of a
source that may start leaves the queue. The end of a record holdoff starts a new count for the source. An event of a
count-only source counts in its chapter's counter. Sources classed in one AON cycle wait in ascending order. A
retired source's events change nothing. In FACTORY_TEST a write of FLT_INJECT by PF0 with GO and legal fields
injects what TYPE says: events at a retirable source that set its flag, corruptions that wait for the source's next
operations, or a critical line that squelches for 1 µs and leaves the mode FACTORY_TEST. (R418, R420, R421, R422,
R423, R424, R439, R440.) -/
def Obligations.FaultEventsAreCountedAndClassified : Prop :=
  (∀ (n : Nat) (cause : BitVec 8) (detail : BitVec 64) (s : State), sourceKind n = .retirable →
    (s.fsrc n).retired = false → (s.fsrc n).perm = false →
    ∃ t, exec (.faultEvent n cause detail 1) s = .next t ∧ (t.fsrc n).flag = true ∧
      (t.fsrc n).perm = reachesThreshold
        (((s.fsrc n).hist ++ [s.now]).drop ((s.fsrc n).hist.length + 1 - 15))
        (s.fld .fltThr 0 (sourceCat n) 19 16) (s.fld .fltThr 0 (sourceCat n) 15 0) ∧ OnlyIn [.cntCfg, .cnts, .out, .gen, .hif, .eic, .flt, .kiln, .links, .lanes, .frames, .bpm, .fab, .sched, .cps, .glz, .bur, .tabs] s t) ∧
  (∀ (n : Nat) (cause : BitVec 8) (detail : BitVec 64) (count : Nat) (s : State), sourceKind n = .countOnly →
    (s.fsrc n).retired = false → 1 ≤ count →
    ∃ t, exec (.faultEvent n cause detail count) s = .next t ∧ (t.fsrc n).flag = true ∧
      (t.fsrc n).perm = (s.fsrc n).perm ∧
      t.cnt (chapterCounter n) = (s.cnt (chapterCounter n) + count) % 2 ^ 48 ∧ OnlyIn [.cntCfg, .cnts, .out, .gen, .hif, .eic, .flt, .kiln, .links, .lanes, .frames, .bpm, .fab, .sched, .cps, .glz, .bur, .tabs] s t) ∧
  (∀ (n : Nat) (s : State), n ∉ s.flt.queue → (∀ a ∈ s.flt.queue, (s.fsrc a).permCycle ≤ (s.fsrc n).permCycle) →
    s.flt.queue.Pairwise (fun a b => (s.fsrc a).permCycle < (s.fsrc b).permCycle ∨
      ((s.fsrc a).permCycle = (s.fsrc b).permCycle ∧ a < b)) →
    (s.enqueueRetirement n).flt.queue.Pairwise (fun a b => (s.fsrc a).permCycle < (s.fsrc b).permCycle ∨
      ((s.fsrc a).permCycle = (s.fsrc b).permCycle ∧ a < b))) ∧
  (∀ (n : Nat) (s : State), s.mayRetire n = true →
    ∃ t, exec (.retirementStart n) s = .next t ∧ n ∉ t.flt.queue ∧ OnlyIn [.cntCfg, .cnts, .out, .draws, .hif, .eic, .flt, .kiln, .units, .fab, .tabs] s t) ∧
  (∀ (n : Nat) (s : State), (s.fsrc n).holdEnd ≠ 0 →
    ∃ t, exec (.faultHoldoffEnd n) s = .next t ∧ t.now = max s.now (s.fsrc n).holdEnd ∧
      (if (s.fsrc n).count = 0 then (t.fsrc n).holdEnd = 0 else (t.fsrc n).count = 0) ∧ OnlyIn [.time, .cntCfg, .cnts, .out, .hif, .eic, .flt] s t) ∧
  (∀ (n : Nat) (cause : BitVec 8) (detail : BitVec 64) (s : State), (s.fsrc n).retired = true →
    s.faultEventAt n cause.toNat detail.toNat 1 s.now = s) ∧
  (∀ (v : BitVec 64) (s : State), s.reachable .fltInject = true → s.mode = .factoryTest → bitOf 63 v.toNat = true →
    bitsOf 51 48 v.toNat ≠ 0 →
    (∀ n, bitsOf 42 32 v.toNat = n → bitsOf 62 60 v.toNat = 1 → sourceKind n = .retirable → (s.fsrc n).retired = false →
      ∃ t, exec (.injectEvent .pf0 v) s = .next t ∧ (t.fsrc n).flag = true ∧ OnlyIn [.mode, .time, .regs, .cntCfg, .cnts, .out, .gen, .hif, .eic, .flt, .kiln, .links, .lanes, .frames, .bpm, .fab, .sched, .cps, .glz, .bur, .tabs] s t) ∧
    (∀ n, bitsOf 42 32 v.toNat = n → bitsOf 62 60 v.toNat = 2 → corruptible n = true →
      ∃ t, exec (.injectCorrupt .pf0 v) s = .next t ∧
        t.flt.corrupt.get 0 n = s.flt.corrupt.get 0 n + bitsOf 51 48 v.toNat ∧ OnlyIn [.regs, .flt] s t) ∧
    (∀ n, bitsOf 42 32 v.toNat = n → bitsOf 62 60 v.toNat = 3 → sourceKind n = .critical → n ∉ s.flt.lines →
      ∃ t, exec (.injectCritical .pf0 v) s = .next t ∧ t.flt.squelch = true ∧ t.flt.faultN = true ∧ n ∉ t.flt.lines ∧
        t.mode = .factoryTest ∧ t.now = s.now + 1000 ∧ OnlyIn [.mode, .time, .regs, .cntCfg, .cnts, .out, .gen, .hif, .eic, .flt, .kiln, .links, .lanes, .frames, .bpm, .fab, .sched, .cps, .glz, .bur, .tabs] s t))

/-- O48. When a critical line asserts that was not asserted, in CONFIG, FORWARD, DRAIN or STANDBY, the mode becomes
SAFE; in every mode but RESET the squelch is set, FAULT_N is low and a cause is latched, which is the least asserted
source when none was latched before. In RESET only the line is remembered. The line of a measurement that has
returned into range falls, and nothing else changes. (R431, R432, R433, R434, R435, R436.) -/
def Obligations.CriticalFaultsSquelchAndEnterSafe : Prop :=
  ∀ (n : Nat) (s : State), sourceKind n = .critical → n ∉ s.flt.lines →
    (s.mode ≠ .reset →
      ∃ t, exec (.criticalFault [n] []) s = .next t ∧ t.flt.squelch = true ∧ t.flt.faultN = true ∧ t.flt.critV = true ∧
        (s.flt.critV = false → t.flt.critSource = n) ∧
        (s.mode = .config ∨ s.mode = .forward ∨ s.mode = .drain ∨ s.mode = .standby → t.mode = .safe) ∧
        (s.mode = .bringup ∨ s.mode = .safe ∨ s.mode = .factoryTest → t.mode = s.mode) ∧ OnlyIn [.mode, .cntCfg, .cnts, .out, .gen, .hif, .eic, .flt, .kiln, .lanes, .frames, .bpm, .fab, .sched, .cps, .glz, .bur] s t) ∧
    (s.mode = .reset → exec (.criticalFault [n] []) s = .next { s with flt := { s.flt with lines := s.flt.lines ++ [n] } }) ∧
    (∀ ended, exec (.criticalFault [] ended) s = .next { s with flt := { s.flt with
      lines := s.flt.lines.filter (fun k => !(measuredLine k && ended.contains k)) } })

/-- O49. An edge event sets the pending state of its source alone; the level source 1,284 and the active-low module
inputs follow their level, a new level of a module input being accepted no sooner than FILT cycles after the last (a
level that stands already changes nothing); a rising edge of the filtered 1PPS input, FILT cycles after the last
accepted level, sets source 1,283 pending; a write of EIC_PEND_SET by PF0 sets every named source that exists
pending, and a write of EIC_PEND_CLR clears edge pending states and latches. When the notify condition of a context
becomes true, a core's line rises or the message of the context's unmasked vector is sent (a masked vector holds
it). A read of EIC_CLAIM that reaches a context without AUTO answers the winner's number and makes it active for the
context. A write of EIC_COMPLETE ends the active state of a source active for the context and otherwise counts in
EIC_BAD_COMPLETE_CNT. Unmasking a vector installs its address and data and clears its pending bit; a held message is
sent when the notify condition still holds. (R443, R445, R446, R447, R450, R452, R453, R455, R458, R462.) -/
def Obligations.InterruptsArePendedClaimedAndCompleted : Prop :=
  (∀ (n : Nat) (s : State),
    ((1 ≤ n ∧ n ≤ 1024) ∨ n = 1281 ∨ n = 1282 ∨ (1285 ≤ n ∧ n ≤ 1287) ∨ (1409 ≤ n ∧ n ≤ 1536)) →
    ∃ t, exec (.eicSourceEvent n true) s = .next t ∧ (t.intSrc n).edge = true ∧
      (t.intSrc n).active = (s.intSrc n).active ∧ (∀ m, m ≠ n → t.intSrc m = s.intSrc m) ∧ OnlyIn [.eic] s t) ∧
  (∀ s : State, ∃ t, exec (.eicSourceEvent 1284 true) s = .next t ∧ (t.intSrc 1284).input = true ∧
      (∀ m, m ≠ 1284 → t.intSrc m = s.intSrc m) ∧ OnlyIn [.eic] s t) ∧
  (∀ s : State, ∃ t, exec (.eicSourceEvent 1284 false) s = .next t ∧ (t.intSrc 1284).input = false ∧
      (∀ m, m ≠ 1284 → t.intSrc m = s.intSrc m) ∧ OnlyIn [.cntCfg, .cnts, .out, .eic] s t) ∧
  (∀ (n : Nat) (level : Bool) (s : State), 1025 ≤ n → n ≤ 1280 →
    ∃ t, exec (.eicPinFiltered n level) s = .next t ∧ (t.intSrc n).input = !level ∧
      (t.intSrc n).latch = (s.intSrc n).latch ∧ (∀ m, m ≠ n → t.intSrc m = s.intSrc m) ∧
      ((s.intSrc n).input = level → (t.intSrc n).accepted = t.now ∧
        t.now = max s.now ((s.intSrc n).accepted + s.fld .eicSrcCfg 0 n 15 8 * 10)) ∧
      ((s.intSrc n).input = !level → t = s) ∧ OnlyIn [.time, .cntCfg, .cnts, .out, .eic] s t) ∧
  (∀ s : State, (s.intSrc 1283).input = false →
    ∃ t, exec (.eicPinFiltered 1283 true) s = .next t ∧ (t.intSrc 1283).edge = true ∧ (t.intSrc 1283).input = true ∧
      t.now = max s.now ((s.intSrc 1283).accepted + s.fld .eicSrcCfg 0 1283 15 8 * 10) ∧
      (∀ m, m ≠ 1283 → t.intSrc m = s.intSrc m) ∧ OnlyIn [.time, .eic] s t) ∧
  (∀ (n : Fin 64) (v : BitVec 32) (s : State),
    ∃ t, exec (.eicPendSet .pf0 n v) s = .next t ∧
      (∀ b, b < 32 → bitOf b v.toNat = true → 1 ≤ 32 * n.val + b → 32 * n.val + b ≤ 1920 →
        (t.intSrc (32 * n.val + b)).isPending (32 * n.val + b) = true) ∧
      (∀ m, ¬ (m / 32 = n.val ∧ bitOf (m % 32) v.toNat = true) → t.intSrc m = s.intSrc m) ∧ OnlyIn [.eic] s t) ∧
  (∀ (n : Fin 64) (v : BitVec 32) (s : State),
    ∃ t, exec (.eicPendClr .pf0 n v) s = .next t ∧
      (∀ b, b < 32 → bitOf b v.toNat = true → 1 ≤ 32 * n.val + b → 32 * n.val + b ≤ 1920 →
        (t.intSrc (32 * n.val + b)).edge = false ∧ (t.intSrc (32 * n.val + b)).latch = false) ∧
      (∀ m, ¬ (m / 32 = n.val ∧ bitOf (m % 32) v.toNat = true) → t.intSrc m = s.intSrc m) ∧
      OnlyIn [.cntCfg, .cnts, .out, .eic] s t) ∧
  (∀ (x : Fin 66) (s : State), s.notifyCond x = true → (s.intCtx x).notified = false →
    ∃ t, exec (.eicNotify x) s = .next t ∧
      (x.val < 2 → Emits s t (.coreLine x true) ∧ (t.intCtx x).notified = true) ∧
      (2 ≤ x.val →
        (let k := msixBase (s.ctxVector x).1 + (s.ctxVector x).2
         let m := s.hif.msix.get {} k
         if m.masked then (t.hif.msix.get {} k) = { m with pending := true }
         else Emits s t (.msix (s.ctxVector x).1 (s.ctxVector x).2 m.addr m.data))) ∧
      OnlyIn [.cntCfg, .cnts, .out, .hif, .eic] s t) ∧
  (∀ (a : EicAgent) (x : Fin 66) (n : Nat) (s : State),
    (match a with | .host f => ctxVisible f x = true ∧ 2 ≤ x.val | .core k => x.val = k.val) →
    s.ctxAuto x = false → s.winner x = some n → 1 ≤ n → n ≤ 1920 →
    ∃ t, exec (.eicClaim a x) s = .next t ∧ (t.intSrc n).active = some x.val ∧ Emits s t (.readData n) ∧
      OnlyIn [.cntCfg, .cnts, .out, .hif, .eic] s t) ∧
  (∀ (a : EicAgent) (x : Fin 66) (n : BitVec 11) (s : State),
    (match a with | .host f => ctxVisible f x = true ∧ 2 ≤ x.val | .core k => x.val = k.val) →
    1 ≤ n.toNat → n.toNat ≤ 1920 →
    ∃ t, exec (.eicComplete a x n) s = .next t ∧
      (if (s.intSrc n.toNat).active = some x.val then (t.intSrc n.toNat).active = none
       else t = s.bump cntBadComplete) ∧
      OnlyIn [.cntCfg, .cnts, .out, .hif, .eic, .flt, .kiln] s t) ∧
  (∀ (req : Requester) (v : Fin 32) (addr : BitVec 64) (data : BitVec 32) (s : State), v.val < msixCount req →
    ∃ t, exec (.msixUnmask req v addr data) s = .next t ∧
      t.hif.msix.get {} (msixBase req + v.val) = ⟨addr.toNat, data.toNat, false, false⟩ ∧
      ((s.hif.msix.get {} (msixBase req + v.val)).pending = false → OnlyIn [.hif] s t) ∧
      (∀ x, (s.hif.msix.get {} (msixBase req + v.val)).pending = true →
        (List.range 66).find? (fun x => 2 ≤ x && s.ctxVector x = (req, v.val) && (s.intCtx x).notified) = some x →
        s.notifyCond x = true → Emits s t (.msix req v.val addr.toNat data.toNat)) ∧ OnlyIn [.cntCfg, .cnts, .out, .hif, .eic] s t)

/-- O50. A write of GO by a function whose mailbox runs nothing copies the request, sets BUSY and sets source 1,285
pending. A response that Ewethes has is written to MBX_RSP; BUSY clears, DONE is set, SEQ counts and the mailbox is
free again; other functions' mailboxes are untouched. A request in range, by a function and in a mode that may run
it, is answered OK with its result: GET_INFO with the firmware words; SENSOR_READ after writing the sensor snapshot;
KR_READ of area 2 after writing the last checkpoint; a MOD_I2C write after its two-wire transaction on the cage's
bus; MDIO with the value read; TELEM_CFG after storing or ending the configuration. (R463, R464, R466, R467, R492,
R493, R468, Table 16.3.) -/
def Obligations.MailboxRequestsAreAnswered : Prop :=
  (∀ (f : Fn) (s : State), s.reachable .mbxCtrl = true → (s.mailbox f).running = none →
    ∃ t, exec (.mailboxGo f) s = .next t ∧ t.mailbox f = { running := some (s.mailRequest f) } ∧
      bitsOf 0 0 (t.regOf .mbxStatus f.num 0 0) = 1 ∧ (t.intSrc 1285).isPending 1285 = true ∧
      (∀ g, g ≠ f → t.mailbox g = s.mailbox g) ∧ OnlyIn [.regs, .eic, .mgt] s t) ∧
  (∀ (f : Fn) (q b : Bytes) (s : State), (s.mailbox f).running = some q → (s.mailbox f).ready = some b →
    ∃ t, exec (.mailboxResponse f) s = .next t ∧ t.mailbox f = {} ∧
      (∀ k, k < 8 → t.regOf .mbxRsp f.num 0 k = leAt b (8 * k) 8) ∧
      bitsOf 1 0 (t.regOf .mbxStatus f.num 0 0) = 2 ∧ bitsOf 31 24 (t.regOf .mbxStatus f.num 0 0) = 0 ∧
      bitsOf 15 8 (t.regOf .mbxStatus f.num 0 0) = (bitsOf 15 8 (s.regOf .mbxStatus f.num 0 0) + 1) % 256 ∧
      (∀ g, g ≠ f → t.mailbox g = s.mailbox g) ∧ OnlyIn [.regs, .eic, .mgt] s t) ∧
  (∀ (f : Fn) (q : Bytes) (s : State), s.mailRuns f 0x0001 = some q → mailClean q [] = true →
    s.mailMode 0x0001 notReset = true →
    ∃ t, exec (.getInfo f) s = .next t ∧
      (t.mailbox f).ready = some (mailBytes q .ok 0 (leBytes 8 s.fwStatus ++ leBytes 4 Config.bootRomRelease.toNat
        ++ leBytes 1 s.boot.a.svn ++ leBytes 1 s.boot.b.svn ++ zeros 2 ++ leBytes 4 s.boot.a.release
        ++ leBytes 4 s.boot.b.release)) ∧ OnlyIn [.mgt] s t) ∧
  (∀ (f : Fn) (q : Bytes) (r : Readings) (s : State), s.mailRuns f 0x0002 = some q → f ≠ .pf1 → mailClean q [] = true →
    512 ≤ mailLen q → s.mailMode 0x0002 notReset = true →
    ∃ t, exec (.sensorRead f r true) s = .next t ∧ (t.mailbox f).ready = some (mailBytes q .ok 0 []) ∧
      Emits s t (.hostWrite (.pf f) (mailAddr q) ((s.sense r).sensorBytes 0 s.now false)) ∧
      OnlyIn [.cntCfg, .cnts, .out, .hif, .eic, .flt, .kiln, .mgt] s t) ∧
  (∀ (f : Fn) (q : Bytes) (s : State), s.mailRuns f 0x0020 = some q → f ≠ .pf1 → byteAt q 0x18 = 2 →
    mailClean q [0x18, 0x1C, 0x1D, 0x1E, 0x1F, 0x20, 0x21, 0x22, 0x23] = true → 18028 ≤ mailLen q → zeroAt q 0x1C 8 = true →
    s.mailMode 0x0020 notReset = true →
    ∃ t, exec (.krRead f true) s = .next t ∧
      (t.mailbox f).ready = some (mailBytes q .ok 18028 (leBytes 4 0 ++ leBytes 4 0)) ∧
      Emits s t (.hostWrite (.pf f) (mailAddr q) (s.kiln.committed.bytes s.kiln.ckSeq)) ∧
      OnlyIn [.cntCfg, .cnts, .out, .mgt] s t) ∧
  (∀ (q d b : Bytes) (w : Bool) (s : State), s.mailRuns .pf0 0x0040 = some q →
    mailClean q [0x18, 0x19, 0x1A, 0x1B, 0x1C] = true → byteAt q 0x18 ≤ 127 → byteAt q 0x19 ≤ 127 → byteAt q 0x1A = 1 →
    1 ≤ byteAt q 0x1C → byteAt q 0x1C ≤ 128 → byteAt q 0x1C ≤ mailLen q → s.mailMode 0x0040 upModes = true →
    (s.port (byteAt q 0x18)).present = true →
    ∃ t, exec (.modI2c .pf0 (some d) (some b) w) s = .next t ∧
      (t.mailbox .pf0).ready = some (mailBytes q .ok (byteAt q 0x1C) []) ∧
      t.out = s.out ++ [.twoWire (byteAt q 0x18 / 8) (byteAt q 0x18 % 8) (sliceOf q 0x19 4 ++ sliceOf d 0 (byteAt q 0x1C))] ∧
      OnlyIn [.out, .mgt] s t) ∧
  (∀ (q : Bytes) (v : BitVec 16) (s : State), s.mailRuns .pf0 0x0041 = some q →
    mailClean q [0x18, 0x19, 0x1A, 0x1B, 0x1C, 0x1D, 0x1E, 0x1F] = true → byteAt q 0x18 ≤ 15 → byteAt q 0x19 ≤ 31 →
    byteAt q 0x1A ≤ 31 → byteAt q 0x1B = 0 → s.mailMode 0x0041 upModes = true →
    ∃ t, exec (.mdio .pf0 v) s = .next t ∧ (t.mailbox .pf0).ready = some (mailBytes q .ok 0 (leBytes 2 v.toNat)) ∧
      t.out = s.out ++ [.mdio (byteAt q 0x18) false (byteAt q 0x19) (byteAt q 0x1A) (leAt q 0x1C 2) 0] ∧
      OnlyIn [.out, .mgt] s t) ∧
  (∀ (q : Bytes) (s : State), s.mailRuns .pf0 0x0050 = some q →
    mailClean q [0x18, 0x19, 0x1A, 0x1B, 0x1C, 0x1D, 0x1E, 0x1F] = true → byteAt q 0x18 ≤ 3 → 1 ≤ byteAt q 0x19 →
    byteAt q 0x19 ≤ 64 → 1 ≤ leAt q 0x1C 4 → leAt q 0x1C 4 ≤ 60000 → mailAddr q % 65536 = 0 →
    byteAt q 0x19 * 65536 ≤ mailLen q → (s.ringIs (leAt q 0x1A 2) 5 .pf0 || s.ringIs (leAt q 0x1A 2) 5 .pf2) = true →
    s.mailMode 0x0050 upOrStandby = true →
    ∃ t, exec (.telemCfg .pf0) s = .next t ∧ (t.mailbox .pf0).ready = some (mailBytes q .ok 0 []) ∧
      t.mgt.telemetry = (if bitOf 0 (byteAt q 0x18) then
        some { addr := mailAddr q, nbuf := byteAt q 0x19, ring := leAt q 0x1A 2, periodMs := leAt q 0x1C 4,
               counters := bitOf 1 (byteAt q 0x18), due := s.now + leAt q 0x1C 4 * 1000000 } else none) ∧
      OnlyIn [.mgt] s t)

/-- O51. FW_STAGE of an image that passes the checks of R473 leaves the slot that does not run STAGING, and the response
of a staging gives that slot the result of its check (VALID, with its release and SVN, for such an image) and
answers with the status of the same name, for VALID with the slot. FW_ACTIVATE of a slot that is VALID or runs makes
it preferred, with the trial flag set unless it runs. PATCH_LOAD in CONFIG, with the sequencer idle, loads a bundle
of the named kind that R261 accepts. (R260, R261, R473, R478, R479.) -/
def Obligations.FirmwareIsStagedAndActivated : Prop :=
  (∀ (q b : Bytes) (s : State), s.mailRuns .pf0 0x0010 = some q → mailClean q [] = true →
    s.mailMode 0x0010 upOrStandby = true → mailLen q ≤ 7 * 2 ^ 20 → byteAt (sliceOf b 0 (mailLen q)) 0x0D = 2 →
    s.checkImage (sliceOf b 0 (mailLen q)) true = .valid →
    s.mgt.staged = none →
    ∃ t, exec (.fwStage .pf0 (some b) true true) s = .next t ∧
      (let x : Bool := s.boot.target
       (t.boot.slot x).state = .staging ∧ t.boot.slot (!x) = s.boot.slot (!x) ∧ t.mailbox .pf0 = s.mailbox .pf0 ∧
       t.mgt.staged = some { state := .valid, release := leAt (sliceOf b 0 (mailLen q)) 8 4,
                             svn := byteAt (sliceOf b 0 (mailLen q)) 0x0C }) ∧ OnlyIn [.mgt] s t) ∧
  (∀ (q : Bytes) (y : Slot) (s : State), s.mailRuns .pf0 0x0010 = some q → s.mgt.staged = some y →
    ∃ t, exec (.mailboxResponse .pf0) s = .next t ∧
      (let x : Bool := s.boot.target
       t.boot.slot x = y ∧ t.boot.slot (!x) = s.boot.slot (!x) ∧ t.mgt.staged = none ∧ t.mailbox .pf0 = {} ∧
       ∀ k, k < 8 → t.regOf .mbxRsp 0 0 k =
         leAt (mailBytes q (stageStatus y.state) (if y.state = .valid then boolBit x else 0) []) (8 * k) 8) ∧
      OnlyIn [.regs, .eic, .kiln, .mgt] s t) ∧
  (∀ (q : Bytes) (x : Bool) (s : State), s.mailRuns .pf0 0x0011 = some q → mailClean q [0x18] = true →
    byteAt q 0x18 = boolBit x → ((s.boot.slot x).state = .valid ∨ s.boot.run = some x) →
    s.mailMode 0x0011 upOrStandby = true →
    ∃ t, exec (.fwActivate .pf0) s = .next t ∧ t.boot.preferred = x ∧ t.boot.try_ = decide (s.boot.run ≠ some x) ∧
      t.boot.slot x = s.boot.slot x ∧ t.boot.run = s.boot.run ∧
      (t.mailbox .pf0).ready = some (mailBytes q .ok 0 []) ∧ OnlyIn [.kiln, .mgt] s t) ∧
  (∀ (q b : Bytes) (s u : State), s.mailRuns .pf0 0x0060 = some q → mailClean q [0x18] = true →
    (byteAt q 0x18 = 1 ∨ byteAt q 0x18 = 2) → s.mailMode 0x0060 (fun m => m = .config) = true → s.seqIdle = true →
    byteAt b 2 = byteAt q 0x18 → s.loadBundle b = some u →
    ∃ t, exec (.patchLoad .pf0 b) s = .next t ∧
      (t.mailbox .pf0).ready = some (mailBytes q .ok 0 (leBytes 4 (leAt b 8 4))) ∧
      (byteAt q 0x18 = 1 → t.bur.patch = ⟨bundleMatches b, (bundleWords b).map storeWord⟩ ∧ t.reg .burPatchId 0 0 = leAt b 8 4) ∧
      (byteAt q 0x18 = 2 → t.bur.seqPatch = ⟨bundleMatches b, (bundleWords b).map storeWord⟩ ∧ t.reg .seqPatchId 0 0 = leAt b 8 4) ∧
      OnlyIn [.regs, .bur, .mgt] s t)

/-- O52. A FUSE_PROGRAM request with its key, by its owner in its modes, for a setting that is not blown and has budget
left, while R483 does not hold, waits for the controller; so do ARB_ADVANCE to a greater SVN outside a trial and
KEK_ADVANCE with budget left, and nothing is blown yet. The controller takes the oldest operation that is still
wanted, writes an intent and a result entry, and an operation that reads back as requested blows exactly its steps
and is answered OK. (R90, R247, R480, R481, R482, R483, R484, R485, R486.) -/
def Obligations.FuseRequestsWaitAndBlow : Prop :=
  (∀ (i : Instr) (f : Fn) (id : Nat) (q : Bytes) (s : State),
    (i, f, id) ∈ [(Instr.fuseBypassDisable .pf1, Fn.pf1, 3), (.fuseDebugLock .pf0, .pf0, 4), (.fuseFtLockout .pf0, .pf0, 5),
      (.fuseDomainLock .pf0, .pf0, 6), (.fuseAssetTag .pf0, .pf0, 7)] →
    s.mailRuns f 0x0030 = some q → byteAt q 0x18 = id → byteAt q 0x19 = id ^^^ 0xA5 →
    mailClean q [0x18, 0x19, 0x1A, 0x20, 0x21, 0x22, 0x23, 0x24, 0x25, 0x26, 0x27] = true →
    (if id = 6 then byteAt q 0x1A ≤ 15 else byteAt q 0x1A = 0) → (id = 7 → leAt q 0x20 8 ≠ 0 ∧ s.fuses.assets.length < 4) →
    (id = 6 → s.domainLockOk (byteAt q 0x1A) = true) → s.mode = .config → s.rst.recovery = false →
    s.fuses.blown id (byteAt q 0x1A) = false → s.fuseHold = false →
    ∃ t, exec i s = .next t ∧
      t.fuses = { s.fuses with ops := s.fuses.ops ++ [⟨id, byteAt q 0x1A, leAt q 0x20 8, some f, 0⟩] } ∧
      t.mailbox f = { s.mailbox f with fuse := true } ∧ OnlyIn [.fuses, .mgt] s t) ∧
  (∀ (q : Bytes) (s : State), s.mailRuns .pf0 0x0012 = some q → mailClean q [] = true → s.rst.recovery = false →
    (s.mode = .config ∨ s.mode = .forward) → s.boot.trial = false → s.fuses.arb < s.boot.running.svn → s.fuseHold = false →
    ∃ t, exec (.arbAdvance .pf0) s = .next t ∧
      t.fuses = { s.fuses with ops := s.fuses.ops ++ [⟨1, 0, s.boot.running.svn, some .pf0, 0⟩] } ∧
      (t.mailbox .pf0).fuse = true ∧ OnlyIn [.fuses, .mgt] s t) ∧
  (∀ (r : Ring) (d : Bytes) (s : State), Executing s r 0x0065 d → s.fuses.kekLeft ≠ 0 →
    (∀ o ∈ s.fuses.ops, ¬ (o.id = 2 ∧ o.ring = r.val)) →
    exec (.kekAdvance r) s = .next
      { s with fuses := { s.fuses with ops := s.fuses.ops ++ [⟨2, 0, s.fuses.kekSlot + 1, none, r⟩] } }) ∧
  (∀ (o : FuseOp) (rest : List FuseOp) (f : Fn) (q : Bytes) (s : State), s.fuses.ops = o :: rest → o.mailbox = some f →
    (s.mailbox f).fuse = true → (s.mailbox f).running = some q → s.fuseHold = false →
    (o.id = 6 → s.domainLockOk o.index = true) → o.id ≠ 2 →
    ∃ t, exec (.fuseOperation .asRequested) s = .next t ∧
      t.fuses = o.program (o.size s.fuses) { s.fuses with ops := rest } ∧
      (t.mailbox f).ready = some (mailBytes q .ok
        (if o.id = 1 then o.size s.fuses else (o.program (o.size s.fuses) s.fuses).left o.id) []) ∧
      OnlyIn [.kiln, .fuses, .mgt] s t) ∧
  (∀ (o : FuseOp) (rest : List FuseOp) (r : Ring) (d : Bytes) (s : State), s.fuses.ops = o :: rest → o.mailbox = none →
    o.id = 2 → o.ring = r.val → Executing s r 0x0065 d → s.fuseHold = false → s.fuses.kekLeft ≠ 0 →
    ∃ t, exec (.fuseOperation .asRequested) s = .next t ∧
      t.fuses = { s.fuses with ops := rest, kekSlot := s.fuses.kekSlot + 1, kekLeft := s.fuses.kekLeft - 1 } ∧
      Completed s t r d .ok (s.fuses.kekSlot + 1) [] ∧ OnlyIn [.cntCfg, .cnts, .out, .hif, .eic, .flt, .kiln, .fuses] s t)

/-- O53. While Ewethes runs, the hourly commit empties the buffer into the ring and writes a checkpoint of the counters
with the next CKSEQ; a full log page is written early, at the next page of the ring that is not skipped, whose count
of erases rises, and a page that fails gets a KR_BADPAGE entry and is skipped; each minute the bins of the readings
gain one; a refresh stores the readings and the health bytes; a telemetry snapshot is written to its buffer and the
next falls due one period later. The SMBus reads answer the four status bytes and the six health bytes. A sensor at
100 °C raises the alarm and source 1,284, also when a refresh brings the reading; with every sensor below 97 °C the
alarm, source 1,284 and the thermal critical line fall. (R470, R471, R487, R488, R489, R491, R493, R505, R506,
R476.) -/
def Obligations.KilnRecordAndHealth : Prop :=
  (∀ (cones : List Nat) (eyes : List (Nat × Int)) (s : State), s.rst.ewethes = true → s.kiln.buffer.length ≤ 1008 →
    ∃ t, exec (.kilnCommit cones eyes []) s = .next t ∧ t.kiln.ckSeq = s.kiln.ckSeq + 1 ∧ t.kiln.buffer = [] ∧
      t.kiln.committed = t.kiln.toKilnSram ∧ t.mgt.commitDue = s.mgt.commitDue + 3600000000000 ∧
      t.kiln.perm = s.kiln.perm ∧ OnlyIn [.time, .cntCfg, .cnts, .out, .hif, .eic, .kiln, .mgt] s t) ∧
  (∀ s : State, s.rst.ewethes = true → 126 ≤ s.kiln.buffer.length →
    ∃ t, exec (.kilnLogPageWrite []) s = .next t ∧ t.kiln.buffer = s.kiln.buffer.drop 126 ∧ t.kiln.pseq = s.kiln.pseq + 1 ∧
      (let p := s.kiln.goodFrom 3968 s.kiln.next
       t.kiln.erases.get 0 p = s.kiln.erases.get 0 p + 1 ∧ t.kiln.next = ringAfter p ∧
       t.kiln.ring.get {} p = ⟨0, s.kiln.pseq, s.kiln.ckSeq, s.kiln.erases.get 0 p + 1⟩) ∧
      t.kiln.perm = s.kiln.perm ∧ t.kiln.lastEarly = t.now ∧ OnlyIn [.time, .kiln] s t) ∧
  (∀ (failing : List Nat) (s : State), s.rst.ewethes = true → 126 ≤ s.kiln.buffer.length → s.kiln.next ∈ failing →
    s.kiln.badPages = [] → s.kiln.perm.length < 16384 →
    ∃ t e, exec (.kilnLogPageWrite failing) s = .next t ∧ s.kiln.next ∈ t.kiln.badPages ∧
      (∀ p ∈ t.kiln.badPages, p ∈ failing) ∧ t.kiln.perm[s.kiln.perm.length]? = some e ∧ e.type = 0x0022 ∧
      leAt e.data 0 2 = s.kiln.next % 65536 ∧ OnlyIn [.time, .kiln] s t) ∧
  (∀ (r : Readings) (s : State), s.rst.ewethes = true →
    ∃ t, exec (.histogramMinute r) s = .next t ∧
      (∀ i, i < 64 → t.kiln.temp.get 0 (32 * i + tempBin (r.thermal.getD i (s.thermal i))) =
        s.kiln.temp.get 0 (32 * i + tempBin (r.thermal.getD i (s.thermal i))) + 1) ∧
      (∀ i, i < 48 → t.kiln.volt.get 0 (32 * i + voltBin i (r.volt.getD i (s.volt i))) =
        s.kiln.volt.get 0 (32 * i + voltBin i (r.volt.getD i (s.volt i))) + 1) ∧
      t.mgt.minuteDue = s.mgt.minuteDue + 60000000000 ∧ OnlyIn [.time, .kiln, .mgt] s t) ∧
  (∀ (r : Readings) (s : State), s.rst.ewethes = true → r.thermal.length = 64 →
    ∃ t, exec (.healthRefresh r) s = .next t ∧ (∀ i, i < 64 → t.thermal i = r.thermal.getD i 0) ∧
      (s.mgt.alarm = false → (∃ i, i < 64 ∧ 400 ≤ r.thermal.getD i 0) → t.mgt.alarm = true ∧ (t.intSrc 1284).input = true) ∧
      t.mgt.health = t.healthBytes ∧ t.mgt.warned = none ∧ t.mgt.healthAt = s.mgt.healthAt + 10000000 ∧
      OnlyIn [.time, .cntCfg, .cnts, .out, .eic, .flt, .kiln, .mgt] s t) ∧
  (∀ (c : Telemetry) (r : Readings) (s : State), s.mgt.telemetry = some c → s.rst.ewethes = true →
    ∃ t b, exec (.telemetrySnapshot r) s = .next t ∧
      t.mgt.telemetry = some { c with due := c.due + c.periodMs * 1000000, seq := (c.seq + 1) % 2 ^ 32 } ∧
      Emits s t (.hostWrite (s.ringReq c.ring) (c.addr + c.seq % c.nbuf * 65536) b) ∧ b.length = 36864 ∧
      OnlyIn [.time, .regs, .cntCfg, .cnts, .out, .hif, .eic, .flt, .kiln, .mgt, .pmc] s t) ∧
  (∀ s : State, s.domain 1 = .ready →
    ∃ t b, exec .smbusStatusRead s = .next t ∧ t.out = s.out ++ [.smbus b] ∧ b.length = 4 ∧
      byteAt b 0 % 8 = s.mode.code ∧ byteAt b 3 = s.rst.cause % 256 ∧ OnlyIn [.out] s t) ∧
  (∀ s : State, s.rst.ewethes = true →
    exec .smbusHealthRead s = .next { s with out := s.out ++ [.smbus (sliceOf s.mgt.health 0 6)] }) ∧
  (∀ (k : Fin 64) (q : Int) (s : State), s.mgt.alarm = false → 400 ≤ q →
    ∃ t, exec (.thermalAlarm k q) s = .next t ∧ t.mgt.alarm = true ∧ t.thermal k = q ∧ (t.intSrc 1284).input = true ∧
      OnlyIn [.eic, .kiln, .mgt] s t) ∧
  (∀ (k : Fin 64) (q : Int) (s : State), s.mgt.alarm = true → q < 388 → (∀ i, i < 64 → i ≠ k.val → s.thermal i < 388) →
    ∃ t, exec (.thermalAlarm k q) s = .next t ∧ t.mgt.alarm = false ∧ t.thermal k = q ∧ (t.intSrc 1284).input = false ∧
      0x4F0 ∉ t.flt.lines ∧ OnlyIn [.cntCfg, .cnts, .out, .eic, .flt, .kiln, .mgt] s t)

/-- O54. FORWARD in CONFIG with valid parse programs, DRAIN in FORWARD and STANDBY in CONFIG change the mode; an empty
device leaves DRAIN for CONFIG; a wake source takes STANDBY to CONFIG with every enabled port in training, and core
0 is woken by a source that targets it. In SAFE, SAFE_EXIT stages a half for 10 s, which lapses; a SAFE_EXIT_CONFIRM
within that time, with no critical line asserted, takes the device to CONFIG and releases the squelch and FAULT_N.
In CONFIG, FORWARD or DRAIN a write of 1 by PF0 to the bit of an idle port, or of an idle slice, starts its reset,
shown by the bit, and a busy block's is refused. The reset's end clears the bit; a port loses its PCS lock and a
slice its caches and cached counters. (R379, R437, R460, R511, R513, R514, R515, R516, R517, R518.) -/
def Obligations.ModesChangeAndBlocksAreReset : Prop :=
  (∀ (r : Ring) (d : Bytes) (s : State), Executing s r 0x0080 d → s.mode = .config → s.parseReady = true →
    ∃ t, exec (.forward r) s = .next t ∧ t.mode = .forward ∧ Completed s t r d .ok 0 [] ∧ OnlyIn [.mode, .cntCfg, .cnts, .out, .hif, .eic, .flt, .kiln, .frames, .cps, .glz] s t) ∧
  (∀ (r : Ring) (d : Bytes) (s : State), Executing s r 0x0081 d → s.mode = .forward →
    ∃ t, exec (.drain r) s = .next t ∧ t.mode = .drain ∧ Completed s t r d .ok 0 [] ∧ OnlyIn [.mode, .cntCfg, .cnts, .out, .hif, .eic, .flt, .kiln] s t) ∧
  (∀ s : State, s.mode = .drain → s.gen.refs = .empty → exec .drainDone s = .next { s with mode := .config }) ∧
  (∀ (r : Ring) (d : Bytes) (s : State), Executing s r 0x0082 d → s.mode = .config →
    ∃ t, exec (.standby r) s = .next t ∧ t.mode = .standby ∧ t.rst.saved = true ∧ t.rst.standbyAt = s.now ∧
      (∀ p, p < 128 → (t.port p).link = .disabled) ∧ OnlyIn [.mode, .cntCfg, .cnts, .out, .gen, .hif, .eic, .flt, .kiln, .links, .lanes, .frames, .bpm, .fab, .sched, .cps, .glz, .bur, .rst] s t) ∧
  (∀ s : State, s.mode = .standby → s.wakeSource = true →
    ∃ t, exec .standbyWake s = .next t ∧ t.mode = .config ∧ t.rst.saved = false ∧
      (∀ n ∈ s.eic.src.keys, s.wakes n = true → s.srcTarget n = 0 → Emits s t (.coreWake 0)) ∧
      (∀ p, p < 128 → s.bit .prtCfg p 0 0 = true → (t.port p).link = .training) ∧ OnlyIn [.mode, .cntCfg, .cnts, .out, .eic, .links, .lanes, .tabs, .hbm, .rst] s t) ∧
  (∀ (r : Ring) (d : Bytes) (s : State), Executing s r 0x0083 d → s.mode = .safe →
    ∃ t, exec (.safeExit r) s = .next t ∧ t.rst.safeStaged = s.now + 10000000000 ∧ t.mode = .safe ∧
      Completed s t r d .ok 0 [] ∧ OnlyIn [.cntCfg, .cnts, .out, .hif, .eic, .flt, .kiln, .rst] s t) ∧
  (∀ s : State, s.rst.safeStaged ≠ 0 →
    ∃ t, exec .safeExitLapse s = .next t ∧ t.rst.safeStaged = 0 ∧ t.now = max s.now s.rst.safeStaged ∧
      OnlyIn [.time, .rst] s t) ∧
  (∀ (r : Ring) (d : Bytes) (s : State), Executing s r 0x0066 d → s.mode = .safe → s.now < s.rst.safeStaged →
    (∀ n ∈ s.flt.lines, sourceKind n = .critical → measuredLine n = true) →
    ∃ t, exec (.safeExitConfirm r []) s = .next t ∧ t.mode = .config ∧ t.flt.squelch = false ∧ t.flt.faultN = false ∧
      t.flt.critV = false ∧ t.rst.safeStaged = 0 ∧ OnlyIn [.mode, .cntCfg, .cnts, .out, .gen, .hif, .eic, .flt, .kiln, .lanes, .frames, .bpm, .fab, .sched, .cps, .glz, .bur, .mgt, .rst] s t) ∧
  (∀ (n : Fin 4) (k : Fin 32) (s : State), s.reachable .rstBlkPort = true →
    (s.mode = .config ∨ s.mode = .forward ∨ s.mode = .drain) → (s.port (32 * n.val + k.val)).link = .disabled →
    (32 * n.val + k.val) ∉ s.rst.blocks →
    ∃ t, exec (.rstBlkPort .pf0 n (BitVec.ofNat 32 (2 ^ k.val))) s = .next t ∧
      t.rst.blocks = s.rst.blocks ++ [32 * n.val + k.val] ∧ t.bit .rstBlkPort 0 n k = true ∧ OnlyIn [.regs, .rst] s t) ∧
  (∀ (k : Slice) (s : State), s.reachable .rstBlkSlice = true →
    (s.mode = .config ∨ s.mode = .forward ∨ s.mode = .drain) → s.sliceIdle k = true → (128 + k.val) ∉ s.rst.blocks →
    ∃ t, exec (.rstBlkSlice .pf0 (BitVec.ofNat 32 (2 ^ k.val))) s = .next t ∧
      t.rst.blocks = s.rst.blocks ++ [128 + k.val] ∧ t.bit .rstBlkSlice 0 0 k = true ∧ OnlyIn [.regs, .rst] s t) ∧
  (∀ (n : Fin 4) (k : Fin 32) (s : State), s.reachable .rstBlkPort = true → (s.port (32 * n.val + k.val)).link ≠ .disabled →
    ∃ t, exec (.rstBlkPort .pf0 n (BitVec.ofNat 32 (2 ^ k.val))) s = .next t ∧ t.rst.blocks = s.rst.blocks) ∧
  (∀ (p : Port) (s : State), p.val ∈ s.rst.blocks →
    ∃ t, exec (.blockResetDone (.port p)) s = .next t ∧ p.val ∉ t.rst.blocks ∧ (t.port p).pcsLock = false ∧
      (t.port p).link = (s.port p).link ∧ OnlyIn [.regs, .kiln, .links, .rst] s t) ∧
  (∀ (i : Slice) (s : State), (128 + i.val) ∈ s.rst.blocks →
    ∃ t, exec (.blockResetDone (.slice i)) s = .next t ∧ (128 + i.val) ∉ t.rst.blocks ∧
      t.glz.rxCache.keys.contains i.val = false ∧ OnlyIn [.regs, .cntCfg, .cnts, .latches, .eic, .kiln, .links, .lanes, .frames, .fab, .sched, .cps, .glz, .bur, .tabs, .sampBkt, .sampLfsr, .sampSeq, .hbm, .rst] s t)

/-- O55. A power-on and RESET_N hold every domain, PERST# holds domains 4 to 8, and a software device reset by PF0 with
its key and an expired watchdog hold domains 2 to 8; each takes the mode to RESET, empties the generations, rings,
frames and tables of the datapath and keeps the permanent Kiln entries and every blown fuse. A Function Level Reset
clears its function's base, event route and mailbox; a hot reset does so for every function and records its cause.
The watchdog's warning sets source 1,287 pending. (R366, R476, R495, R496, R497, R498, R499, R503.) -/
def Obligations.ResetSourcesResetTheirDomains : Prop :=
  (∀ s : State, ∃ t, exec .powerOn s = .next t ∧ t.mode = .reset ∧ (∀ d, t.domain d = .held) ∧ t.now = 0 ∧
      t.gen = {} ∧ t.hif = {} ∧ t.frames = .empty ∧ t.tabs = {} ∧ t.eic = {} ∧ t.kiln.perm = s.kiln.perm ∧
      t.fuses = { s.fuses with ops := [] } ∧ OnlyIn [.mode, .time, .ptp, .regs, .cntCfg, .cnts, .latches, .gen, .hif, .eic, .flt, .kiln, .units, .links, .lanes, .frames, .bpm, .fab, .sched, .pol, .cps, .glz, .bur, .tabs, .fuses, .sampBkt, .sampLfsr, .sampSeq, .hbm, .mgt, .pmc, .rst] s t) ∧
  (∀ (n : Nat) (s : State), 4 ≤ n → s.rst.resetN = false → s.rst.stalled = false → s.rst.loading = false →
    ∃ t, exec (.resetNAssert n) s = .next t ∧ t.mode = .reset ∧ (∀ d, t.domain d = .held) ∧ t.rst.resetN = true ∧
      t.gen = {} ∧ t.hif = {} ∧ t.frames = .empty ∧ t.kiln.perm = s.kiln.perm ∧ t.fuses = { s.fuses with ops := [] } ∧
      OnlyIn [.mode, .time, .ptp, .regs, .cntCfg, .cnts, .latches, .gen, .hif, .eic, .flt, .kiln, .units, .links, .lanes, .frames, .bpm, .fab, .sched, .pol, .cps, .glz, .bur, .tabs, .fuses, .sampBkt, .sampLfsr, .sampSeq, .hbm, .mgt, .pmc, .rst] s t) ∧
  (∀ s : State, s.rst.perst = false →
    ∃ t, exec .perstAssert s = .next t ∧ t.mode = .reset ∧ t.rst.perst = true ∧
      (∀ d, t.domain d = if d < 4 then s.domain d else .held) ∧ t.gen = {} ∧ t.hif = {} ∧ t.frames = .empty ∧
      t.tabs = {} ∧ t.kiln.perm = s.kiln.perm ∧ OnlyIn [.mode, .regs, .cntCfg, .cnts, .latches, .gen, .hif, .flt, .kiln, .units, .links, .lanes, .frames, .bpm, .fab, .sched, .pol, .cps, .glz, .bur, .tabs, .sampBkt, .sampLfsr, .sampSeq, .hbm, .pmc, .rst] s t) ∧
  (∀ s : State, s.reachable .rstDevice = true →
    ∃ t, exec (.softwareDeviceReset .pf0 0x5D) s = .next t ∧ t.mode = .reset ∧ t.now = s.now + 1000 ∧
      (∀ d, t.domain d = if d < 2 then s.domain d else .held) ∧ t.gen = {} ∧ t.hif = {} ∧ t.frames = .empty ∧
      t.kiln.perm = s.kiln.perm ∧ t.fuses = { s.fuses with ops := [] } ∧ OnlyIn [.mode, .time, .regs, .cntCfg, .cnts, .latches, .out, .gen, .hif, .eic, .flt, .kiln, .units, .links, .lanes, .frames, .bpm, .fab, .sched, .pol, .cps, .glz, .bur, .tabs, .fuses, .sampBkt, .sampLfsr, .sampSeq, .hbm, .mgt, .pmc, .rst] s t) ∧
  (∀ (w : Nat) (s : State), s.mgt.warned = some w →
    ∃ t, exec .watchdogExpire s = .next t ∧ t.mode = .reset ∧ t.now = max s.now (w + 1000000000) ∧
      (∀ d, t.domain d = if d < 2 then s.domain d else .held) ∧ t.gen = {} ∧ t.hif = {} ∧ t.frames = .empty ∧
      t.kiln.perm = s.kiln.perm ∧ OnlyIn [.mode, .time, .regs, .cntCfg, .cnts, .latches, .gen, .hif, .flt, .kiln, .units, .links, .lanes, .frames, .bpm, .fab, .sched, .pol, .cps, .glz, .bur, .tabs, .fuses, .sampBkt, .sampLfsr, .sampSeq, .hbm, .mgt, .pmc, .rst] s t) ∧
  (∀ s : State, s.domain 3 = .ready → s.mgt.warned = none →
    ∃ t, exec .watchdogWarning s = .next t ∧ t.mgt = { s.mgt with warned := some s.now } ∧
      (t.intSrc 1287).isPending 1287 = true ∧ OnlyIn [.eic, .mgt] s t) ∧
  (∀ (f : Fn) (s : State), s.domain 4 = .ready →
    ∃ t, exec (.functionLevelReset (.pf f)) s = .next t ∧ t.regOf .hifRctBase f.num 0 0 = 0 ∧
      t.regOf .hifEvtRoute f.num 0 0 = 0 ∧ t.mailbox f = {} ∧ (∀ g, g ≠ f → t.mailbox g = s.mailbox g) ∧
      OnlyIn [.regs, .cntCfg, .cnts, .out, .gen, .hif, .eic, .fuses, .mgt] s t) ∧
  (∀ s : State, s.domain 4 = .ready →
    ∃ t, exec .pcieHotReset s = .next t ∧ (∀ f : Fn, t.regOf .hifRctBase f.num 0 0 = 0 ∧ t.mailbox f = {}) ∧
      t.rst = { s.rst with cause := 3 } ∧ OnlyIn [.regs, .cntCfg, .cnts, .out, .gen, .hif, .eic, .kiln, .fuses, .mgt, .rst] s t)

/-- O56. A held domain whose predecessor is ready, whose sources have deasserted and, from domain 4 on, whose release is
requested is released no earlier than its gap after the predecessor's readiness; a released domain becomes ready
(domain 2 after its load). Each option-load phase gives way to the next, the fuse phase only when its two reads
agree and the strap phase latching the straps. Eight restarts within 1 s stall the load, which ends the wait only
after RESET_N has been low for 100 ms. An interrupted load restarts when RESET_N rises. PERST# that rises asks for
domain 4 once the boot ROM or Ewethes runs. A masked monitor of a ready domain is unmasked no earlier than 10 µs
after readiness. The boot ROM starts the preferred slot's image when it checks VALID, else the other's, else it
enters recovery. Ewethes asks for domains 5 to 8, and a fuse operation that a reset cut off from its result entry is
given one, marked recovered. Bring-up with every domain ready and every retirement done ends in SAFE when a critical
fault was met, in FACTORY_TEST with the test strap and no lockout fuse, and in CONFIG otherwise, with the squelch
released. (R499, R500, R502, R503, R504, R548, R553, R473, R475, R476, R509, R435.) -/
def Obligations.DomainsComeUpAndTheDeviceBoots : Prop :=
  (∀ (d : Fin 8) (s : State), s.domain (d.val + 1) = .held → s.rst.clear (d.val + 1) = true →
    (d.val ≠ 0 → s.domain d.val = .ready) → (3 ≤ d.val → (d.val + 1) ∈ s.rst.asked) →
    (d.val = 1 → s.rst.stalled = false) → (4 ≤ d.val → s.rst.recovery = false) →
    ∃ t, exec (.domainRelease d) s = .next t ∧ t.domain (d.val + 1) = .released ∧
      (d.val = 0 → t.now = 0) ∧ (d.val ≠ 0 → t.now = max s.now (s.rst.readyAt.get 0 d.val + domainGap d.val)) ∧
      (∀ k, k ≠ d.val + 1 → t.domain k = s.domain k) ∧ (d.val = 1 → t.rst.phase = 1) ∧ OnlyIn [.time, .rst] s t) ∧
  (∀ (d : Fin 8) (s : State), s.domain (d.val + 1) = .released → (d.val = 1 → s.rst.phase = 4) →
    ∃ t, exec (.domainReady d) s = .next t ∧ t.domain (d.val + 1) = .ready ∧ t.rst.readyAt.get 0 (d.val + 1) = s.now ∧
      (∀ k, k ≠ d.val + 1 → t.domain k = s.domain k) ∧ (d.val = 3 → t.hif.linkUp = true) ∧ OnlyIn [.mode, .cntCfg, .cnts, .out, .draws, .gen, .hif, .eic, .flt, .kiln, .lanes, .frames, .bpm, .fab, .sched, .cps, .glz, .bur, .rst] s t) ∧
  (∀ (agree te rev : Bool) (s : State), s.rst.loading = true → s.rst.interrupted = false → s.rst.resetN = false →
    s.rst.stalled = false → s.mayStall = false →
    ∃ t, exec (.optionLoadPhaseDone agree te rev) s = .next t ∧
      t.rst.phase = (if s.rst.phase = 1 ∧ agree = false then 1 else s.rst.phase + 1) ∧
      (s.rst.phase = 2 → t.rst.testEn = te ∧ t.rst.pcieLrev = rev) ∧ s.now < t.now ∧ OnlyIn [.time, .regs, .cntCfg, .rst] s t) ∧
  (∀ s : State, s.rst.loading = true → s.rst.stalled = false → s.mayStall = true →
    ∃ t, exec .loadStall s = .next t ∧ t.rst.stalled = true ∧ t.domain 2 = .held ∧
      (∀ k, k ≠ 2 → t.domain k = s.domain k) ∧ OnlyIn [.rst] s t) ∧
  (∀ s : State, s.rst.stalled = true → s.rst.resetN = true →
    ∃ t, exec .loadStallClear s = .next t ∧ t.rst.stalled = false ∧ t.rst.restartCount = 0 ∧
      t.now = max s.now (s.rst.resetNAt + 100000000) ∧ OnlyIn [.time, .rst] s t) ∧
  (∀ s : State, s.rst.resetN = true → s.rst.interrupted = true →
    exec .resetNDeassert s = .next { s with rst := { s.rst with
      resetN := false, interrupted := false, lastPhase := s.rst.phase, restartCount := s.rst.restartCount + 1,
      restarts := s.rst.restarts ++ [s.now] } }) ∧
  (∀ s : State, s.mode = .reset → s.domain 1 = .ready → s.domain 2 = .ready → s.domain 3 = .ready → s.rst.perst = false →
    s.rst.resetN = true → s.rst.interrupted = false → s.flt.lines = [] →
    ∃ t, exec .resetNDeassert s = .next t ∧ t.mode = .bringup ∧ t.rst.resetN = false ∧ OnlyIn [.mode, .cntCfg, .cnts, .out, .gen, .hif, .eic, .flt, .kiln, .lanes, .frames, .bpm, .fab, .sched, .cps, .glz, .bur, .rst] s t) ∧
  (∀ s : State, s.rst.booting = true → s.mode ≠ .reset →
    exec .perstDeassert s = .next { s with rst := { s.rst with perst := false, asked := [4] } }) ∧
  (∀ (m : Fin 48) (s : State), s.domain (monitorDomain m) = .ready → m.val ∉ s.rst.unmasked → s.mode ≠ .standby →
    ∃ t, exec (.monitorUnmask m true) s = .next t ∧ t.rst.unmasked = s.rst.unmasked ++ [m.val] ∧
      t.now = max s.now (s.rst.readyAt.get 0 (monitorDomain m) + 10000) ∧ OnlyIn [.time, .rst] s t) ∧
  (∀ (a b : SlotState) (s : State), s.rst.booting = true → s.boot.tried = false →
    bootCheck (s.boot.slot s.boot.preferred) (if s.boot.preferred then b else a) s.fuses.arb = .valid →
    ∃ t, exec (.bootSelect a b) s = .next t ∧ t.boot.run = some s.boot.preferred ∧ t.boot.trial = s.boot.try_ ∧
      (t.boot.slot s.boot.preferred).state = .active ∧ t.rst.booting = false ∧ OnlyIn [.mgt, .rst] s t) ∧
  (∀ (a b : SlotState) (s : State), s.rst.booting = true → s.boot.tried = false →
    bootCheck s.boot.a a s.fuses.arb ≠ .valid → bootCheck s.boot.b b s.fuses.arb ≠ .valid →
    ∃ t, exec (.bootSelect a b) s = .next t ∧ t.rst.recovery = true ∧ t.rst.booting = false ∧ t.boot.run = s.boot.run ∧
      OnlyIn [.mgt, .rst] s t) ∧
  (∀ s : State, s.boot.run.isSome = true → s.rst.begun = false →
    ∃ t, exec (.ewethesStart [] true []) s = .next t ∧ t.rst.ewethes = true ∧ t.rst.begun = true ∧
      t.rst.asked = s.rst.asked ++ [5, 6, 7, 8] ∧
      (s.rst.ewethes = false → openIntents s.kiln.perm ≠ [] → s.kiln.perm.length < 16384 →
        ∃ e, t.kiln.perm[s.kiln.perm.length]? = some e ∧ e.type = 0x0021 ∧ e.recovered = true) ∧
      OnlyIn [.kiln, .mgt, .rst] s t) ∧
  (∀ s : State, s.mode = .bringup → s.rst.begun = true → s.domain 8 = .ready → s.retirementsDone = true →
    ∃ t, exec .bringupEnd s = .next t ∧
      t.mode = (if s.flt.critInBringup ≠ [] then .safe
        else if s.rst.testEn ∧ s.fuses.ftLock = false then .factoryTest else .config) ∧
      (s.flt.critInBringup = [] → t.flt.squelch = false) ∧ OnlyIn [.mode, .cntCfg, .cnts, .out, .gen, .hif, .eic, .flt, .kiln, .lanes, .frames, .bpm, .fab, .sched, .cps, .glz, .bur, .mgt] s t)

/-- O57. An 8-byte write replaces a general counter (modulo 2^48). A snapshot latches all 4,096 shadows and counts
itself. CLR_PEAK waits in PMC_BW_CTRL. A window's end gives each port's LAST the window's count and PEAK the greater
of itself and LAST, or 0 when CLR_PEAK waited, and clears CLR_PEAK. Enabling sampling seeds every slice's LFSR with
SEED XOR its number. A flushed counter pair holds the sum of what it held and what waited, and the others are as
they were; where the unit they share cannot be read, its four pairs restart from 0 with INVALID set. (R522, R523,
R524, R527, R528, R529, Table 13.4.) -/
def Obligations.PerformanceCountersAndWindows : Prop :=
  (∀ (n : Fin 4096) (v : BitVec 64) (s : State), s.reachable .pmcCnt = true →
    ∃ t, exec (.pmcCounterWrite .pf0 n 8 v) s = .next t ∧ t.cnt (cntPmc n) = v.toNat % 2 ^ 48 ∧
      (∀ k, k ≠ cntPmc n → t.cnt k = s.cnt k) ∧ OnlyIn [.cnts] s t) ∧
  (∀ s : State, s.reachable .pmcSnap = true →
    ∃ t, exec (.pmcSnapshot .pf0) s = .next t ∧ t.reg .pmcSnapTime 0 0 = s.now ∧
      t.fld .pmcSnap 0 0 30 0 = (s.fld .pmcSnap 0 0 30 0 + 1) % 2 ^ 31 ∧
      ((∀ k ∈ s.cnts.keys, k % 8 = 0) → ∀ n, n < 4096 → t.pmc.shadow.get 0 n = s.cnt (cntPmc n)) ∧ OnlyIn [.regs, .pmc] s t) ∧
  (∀ s : State, s.reachable .pmcBwCtrl = true →
    exec (.bwClrPeak .pf0) s = .next (s.setReg .pmcBwCtrl 0 0 (withBits 31 31 (s.reg .pmcBwCtrl 0 0) 1))) ∧
  (∀ (p : Port) (d : Fin 2) (s : State),
    ∃ t, exec .bwWindowEnd s = .next t ∧
      (let n := s.pmc.bw.get 0 (s.pmc.bwWin * 256 + 2 * p.val + d.val)
       t.reg .pmcBw p (2 * d.val) = n ∧
       t.reg .pmcBw p (2 * d.val + 1) =
         if s.bit .pmcBwCtrl 0 0 31 then 0 else max (s.reg .pmcBw p (2 * d.val + 1)) n) ∧
      t.bit .pmcBwCtrl 0 0 31 = false ∧ t.pmc.bwWin = s.pmc.bwWin + 1 ∧ OnlyIn [.time, .regs, .cntCfg, .pmc] s t) ∧
  (∀ (v : BitVec 64) (s : State), s.reachable .pmcSampCtrl = true → s.sampleRing (bitsOf 27 16 v.toNat) = true →
    bitOf 28 v.toNat = true → anyReserved (RegName.info .pmcSampCtrl).fields (s.reg .pmcSampCtrl 0 0) v.toNat = false →
    ∃ t, exec (.samplingEnable .pf0 v) s = .next t ∧
      (∀ i, i < 16 → t.sampLfsr.get 0 i = bitsOf 63 32 v.toNat ^^^ i) ∧ OnlyIn [.regs, .sampLfsr] s t) ∧
  (∀ (i : Nat) (w : PairWait) (s : State), s.pmc.waiting.get none i = some w →
    ∃ t, exec (.counterPairFlush i) s = .next t ∧ t.pmc.waiting.get none i = none ∧
      (∀ j, j ≠ i → t.pmc.waiting.get none j = s.pmc.waiting.get none j) ∧
      (let was : Nat → PairVal := fun j =>
         if s.structBad (.pairs (i / 4)) = true ∧ j / 4 = i / 4 then ⟨0, 0, true⟩ else s.pmc.pairs.get {} j
       t.pmc.pairs.get {} i =
         { was i with bytes := ((was i).bytes + w.bytes) % 2 ^ 64, frames := ((was i).frames + w.frames) % 2 ^ 48 } ∧
       ∀ j, j ≠ i → t.pmc.pairs.get {} j = was j) ∧ OnlyIn [.cntCfg, .cnts, .units, .hbm, .pmc] s t)

/-- O58. Right after power-on the mode is RESET, no command waits, the free-running counter, PTP time and every counter
are 0, every register element holds its reset value, CURRENT is 0, STAGING 1 and no generation DRAINING, no frame is
in the device, every port is DISABLED, every ring is inactive, no interrupt source is pending, every MSI-X vector is
masked, the matcher's pointers are 0, every table is empty and nothing has been put out. The squelch is asserted.
What the fuses, the flash and the Kiln Record hold is the model's own (log entry 7), and no clause rests on it.
(R39, R50, R96, R108, R298, R446, R498, R519.) -/
def Obligations.ResetLeavesTheResetValues : Prop :=
  State.reset.mode = .reset ∧ State.reset.flt.squelch = true ∧ State.reset.pending = [] ∧ State.reset.now = 0 ∧ State.reset.ptp.time = 0 ∧
  State.reset.ptp.isSet = false ∧ (∀ k, State.reset.cnt k = 0) ∧
  (∀ r fn i j, State.reset.regOf r fn i j = r.resetAt i j) ∧
  State.reset.gen.current = 0 ∧ State.reset.staging = 1 ∧ State.reset.liveCount = 2 ∧
  (State.reset.gen.current - State.reset.gen.oldest).toNat ≤ 14 ∧ (∀ f, State.reset.frame f = {}) ∧
  (∀ p, (State.reset.port p).link = .disabled) ∧
  (∀ r, (State.reset.ring r).active = false ∧ (State.reset.ring r).inExec = none) ∧
  (∀ n, (State.reset.intSrc n).isPending n = false) ∧ (∀ v, (State.reset.hif.msix.get {} v).masked = true) ∧
  (∀ k, State.reset.fab.gptr.get 0 k = 0 ∧ State.reset.fab.aptr.get 0 k = 0) ∧
  (∀ k, State.reset.ruleAt k = none) ∧ (∀ c, State.reset.cirVers c = []) ∧ (∀ i, State.reset.saOf i = none) ∧
  (∀ n, State.reset.polVers n = []) ∧ (∀ d, State.reset.domain d = .held) ∧ State.reset.out = []

/-- O59. Whichever way link loss is declared on a port in UP (by its PCS, by its module's removal, by the loss of its
reference clock), and whatever hold end the port held before, the port is in HOLD and its hold ends HOLD_MS ms from
now; with HOLD_MS = 0 the port is DOWN at once. (R102.) -/
def Obligations.EachLinkLossStartsAFullHold : Prop :=
  (∀ (p : Port) (s : State), (s.port p).link = .up →
    ∃ t, exec (.pcsLinkLoss p) s = .next t ∧
      (if s.fld .prtHoldTime p 0 9 0 = 0 then (t.port p).link = .down
       else (t.port p).link = .hold ∧ (t.port p).holdEnd = s.now + s.fld .prtHoldTime p 0 9 0 * 1000000) ∧ t.now = s.now) ∧
  (∀ (p : Port) (c : Nat) (s : State), (s.port p).link = .up → (s.port p).present = true →
    ∃ t, exec (.modulePresenceChange p false c) s = .next t ∧
      (if s.fld .prtHoldTime p 0 9 0 = 0 then (t.port p).link = .down
       else (t.port p).link = .hold ∧ (t.port p).holdEnd = s.now + s.fld .prtHoldTime p 0 9 0 * 1000000) ∧ t.now = s.now) ∧
  (∀ (k : Fin 8) (s : State), s.refLost.contains k.val = false →
    ∃ t, exec (.refclk156Loss k) s = .next t ∧
      (∀ p : Port, p.val / 16 = k.val → (s.port p).link = .up →
        (if s.fld .prtHoldTime p 0 9 0 = 0 then (t.port p).link = .down
         else (t.port p).link = .hold ∧ (t.port p).holdEnd = s.now + s.fld .prtHoldTime p 0 9 0 * 1000000)) ∧ t.now = s.now)

/-- O60. An INVALIDATE doorbell whose entry has EN = 1, on a ring that is ACTIVE and stopping, leaves the ring as it was
but for the entry that now waits. While the ring is ACTIVE the waiting entry is not applied. Once ACTIVE is 0 it is:
a valid entry enables the ring with its indices 0, and an invalid one leaves it disabled. No other ring changes.
(R373.) -/
def Obligations.EnablingEntriesWaitForTheRing : Prop :=
  (∀ (req : Requester) (off size : Nat) (v : BitVec 64) (b : Bytes) (r : Nat) (s : State),
    s.doorbellRing req off size v.toNat = some r → bitsOf 50 48 v.toNat = 1 → (s.ring r).active = true →
    (s.ring r).stopping = true → (ctxOf b).en = true →
    ∃ t, exec (.doorbellInvalidate req off size v (some b)) s = .next t ∧
      t.ring r = { s.ring r with deferred := some (ctxOf b) } ∧ (∀ q, q ≠ r → t.ring q = s.ring q) ∧
      OnlyIn [.cntCfg, .cnts, .hif] s t) ∧
  (∀ (r : Ring) (c : RingCtx) (s : State), (s.ring r).deferred = some c → (s.ring r).active = true →
    exec (.deferredRingEnable r) s = .next s) ∧
  (∀ (r : Ring) (c : RingCtx) (s : State), (s.ring r).deferred = some c → (s.ring r).active = false →
    ∃ t, exec (.deferredRingEnable r) s = .next t ∧ (∀ q, q ≠ r.val → (t.ring q).active = (s.ring q).active) ∧
      (s.ctxValid r c = true → t.ring r = { ctx := some c, active := true }) ∧
      (s.ctxValid r c = false → (t.ring r).active = false ∧ (t.ring r).deferred = none))
end

