-- ==== Sys2Proof/Machine/Formats.lean ====
section
/-! DEFINITION. What the state's frames, cells and pages are as bytes: the fabric frame header and the frame record, the item
and the page of deep buffer, the cell and its beats (R290 to R294, R325, R328). -/

namespace Sys2Proof.Machine

/-! The fabric frame header and the frame record (Tables 09.1, 09.2 and 10.3) -/

/-- The fabric frame header as a 128-bit number (Table 09.2). -/
def Frame.ffh (x : Frame) : Nat :=
  x.sofNs % 2 ^ 32 + boolBit x.mirror * 2 ^ 43 + boolBit (x.sample ≠ 0) * 2 ^ 44 + x.byp.getD 0 % 16 * 2 ^ 45
    + boolBit x.byp.isSome * 2 ^ 49 + boolBit x.txTs.isSome * 2 ^ 50 + boolBit x.ecn * 2 ^ 51 + x.colour % 4 * 2 ^ 52
    + x.cls % 8 * 2 ^ 54 + x.prog % 1024 * 2 ^ 57 + boolBit x.circuit.isSome * 2 ^ 67 + x.circuit.getD 0 % 65536 * 2 ^ 68
    + x.outPort % 128 * 2 ^ 84 + x.port % 128 * 2 ^ 91 + x.gen.toNat * 2 ^ 98 + x.len % 16384 * 2 ^ 114

/-- Its bytes, most significant first (R291). -/
def Frame.ffhBytes (x : Frame) : Bytes := beBytes 16 x.ffh

/-- A buffer handle: V, SET, POOL and the buffer index. -/
def bufHandle (set pool idx : Nat) : Nat := idx % 65536 + pool % 4 * 2 ^ 28 + set % 2 * 2 ^ 30 + 2 ^ 31

/-- The frame behind another in its VOQ's on-die portion. -/
def State.nextInVoq (s : State) (f : Nat) : Option Nat :=
  match (s.voq (s.frame f).voqKey).order.dropWhile (· ≠ f) with
  | _ :: g :: _ => some g
  | _ => none

/-- Bytes 0x20 to 0x3F of a frame record (R325). How NEXT names a record is a free value. -/
def State.bufBytes (s : State) (f : Nat) : Bytes :=
  let x := s.frame f
  let b := s.bufOf f
  leBytes 4 ((b.map fun b => bufHandle b.set b.pool b.idx).getD 0)
    ++ leBytes 4 ((x.ebuf.map fun p => bufHandle (portSet x.outPort) p x.ebufIdx).getD 0)
    ++ leBytes 2 ((b.bind IngBuf.oset).getD 0xFFFF) ++ leBytes 1 x.member ++ leBytes 1 (boolBit x.wasDeep)
    ++ leBytes 4 ((s.nextInVoq f).elim 0xFFFFFFFF Config.recordName) ++ zeros 16

/-- The part of a frame record before its buffer fields, after the header. -/
def Frame.recordTail (x : Frame) : Bytes := leBytes 2 x.prog ++ zeros 2 ++ leBytes 4 x.sample ++ leBytes 8 x.sofNs

/-- A frame record (R290). -/
def State.frameRecord (s : State) (f : Nat) : Bytes :=
  let x := s.frame f
  x.ffhBytes ++ x.recordTail ++ s.bufBytes f

/-! Deep buffer (R328, Table 10.5) -/

/-- An item: the record with its buffer fields 0, and the frame's bytes padded to a multiple of 64. -/
def Frame.item (x : Frame) : Bytes :=
  x.ffhBytes ++ x.recordTail ++ zeros 32 ++ x.bytes ++ zeros (x.itemBytes - 64 - x.len)

/-- The header of the page at place n of a VOQ's chain. -/
def State.pageHeader (s : State) (k n : Nat) : Bytes :=
  let v := s.voq k
  let next := (v.pages.find? fun p => p.1 = n + 1).map Prod.snd
  leBytes 4 (next.getD 0xFFFFFFFF) ++ leBytes 2 k ++ leBytes 2 (min 4032 (v.tail - 4032 * n)) ++ leBytes 4 n ++ zeros 52

/-! Cells (R292 to R294) -/

/-- The stream bytes of a frame. -/
def Frame.stream (x : Frame) : Bytes := x.ffhBytes ++ x.bytes

/-- The bytes of one segment of a cell. -/
def State.segBytes (s : State) (g : Seg) : Bytes := sliceOf (s.frame g.frame).stream g.off g.len

/-- Payload bytes in use. -/
def Cell.fill (c : Cell) : Nat := c.segs.foldl (fun n g => n + g.len) 0

/-- Payload offset of the first FFH that starts in a cell, 511 when none does. -/
def firstFfh : List Seg → Nat → Nat
  | [], _ => 511
  | g :: rest, n => if g.off = 0 then n else firstFfh rest (n + g.len)

/-- One byte of a CRC that takes its most significant bit first. -/
def crcMsb (width poly : Nat) (c : Nat) (b : Byte) : Nat :=
  runOver (List.range 8) (fun _ c => if c.testBit (width - 1) then (2 * c) % 2 ^ width ^^^ poly else 2 * c % 2 ^ width)
    (c ^^^ b.toNat * 2 ^ (width - 8))

/-- HCRC of the first 14 bytes of a header. -/
def hcrc (b : Bytes) : Nat := b.foldl (crcMsb 16 0x1021) 0xFFFF

/-- The CRC of a beat (R294). -/
def beatCrc (b : Bytes) : Nat := b.foldl (crcMsb 8 0x07) 0

/-- Bits 127 to 16 of the header of a cell of (a, b) (Table 09.3). -/
def Cell.headBits (c : Cell) (a b : Nat) : Nat :=
  boolBit c.retx * 2 ^ 74 + boolBit c.poison * 2 ^ 75 + c.fill % 512 * 2 ^ 76 + firstFfh c.segs 0 % 512 * 2 ^ 85
    + c.seq % 65536 * 2 ^ 94 + c.cls % 8 * 2 ^ 110 + c.port % 128 * 2 ^ 113 + b % 16 * 2 ^ 120 + a % 16 * 2 ^ 124

/-- The header of a cell of (a, b), most significant byte first. -/
def Cell.header (c : Cell) (a b : Nat) : Bytes :=
  let h := beBytes 14 (c.headBits a b / 65536)
  h ++ beBytes 2 (hcrc h)

/-- The payload of a cell: unused bytes are 0, and so is all of a poisoned one (R292, R306). -/
def State.payload (s : State) (c : Cell) : Bytes :=
  let l := if c.poison then [] else c.segs.flatMap s.segBytes
  l ++ zeros (496 - l.length)

/-- The 512 bytes of a cell. -/
def State.cellBytes (s : State) (a b : Nat) (c : Cell) : Bytes := c.header a b ++ s.payload c

/-- Beat n of a cell, and the CRC on the sideband wires. -/
def State.beat (s : State) (a b : Nat) (c : Cell) (n : Nat) : Bytes × Nat :=
  let l := sliceOf (s.cellBytes a b c) (16 * n) 16
  (l, beatCrc l)

/-- The FAB cycle of a cell time in which beat n travels (R294). -/
def Cell.beatCycle (c : Cell) (n : Nat) : Nat := n / c.planes.length

end Sys2Proof.Machine
end

