-- ==== Sys2Proof/Laws/Formats.lean ====
section
/-! SUPPORT. Sizes of what is laid out as bytes, and where a stripe keeps its units. -/

namespace Sys2Proof.Machine

/-! Sizes -/

@[simp] theorem leBytes_length (n v : Nat) : (leBytes n v).length = n := by
  induction n generalizing v with
  | zero => rfl
  | succ n ih => simp [leBytes, ih]

@[simp] theorem beBytes_length (n v : Nat) : (beBytes n v).length = n := by simp [beBytes]

@[simp] theorem zeros_length (n : Nat) : (zeros n).length = n := List.length_replicate

@[simp] theorem sliceOf_length (bs : Bytes) (off n : Nat) : (sliceOf bs off n).length = n := by
  simp [sliceOf]

/-- A frame record is 64 bytes (Table 09.1). -/
theorem frameRecord_length (s : State) (f : Nat) : (s.frameRecord f).length = 64 := by
  simp [State.frameRecord, State.bufBytes, Frame.recordTail, Frame.ffhBytes]

/-- A page header is 64 bytes (Table 10.5). -/
theorem pageHeader_length (s : State) (k n : Nat) : (s.pageHeader k n).length = 64 := by simp [State.pageHeader]

theorem segBytes_length (s : State) (g : Seg) : (s.segBytes g).length = g.len := sliceOf_length _ _ _

/-- The segments of a cell fill as many payload bytes as FILL says. -/
theorem flatMap_segBytes_length (s : State) (c : Cell) : (c.segs.flatMap s.segBytes).length = c.fill := by
  have sum : ∀ (l : List Seg) (n : Nat), l.foldl (fun n g => n + g.len) n = n + (l.flatMap s.segBytes).length := by
    intro l
    induction l with
    | nil => intro n; rfl
    | cons g l ih => intro n; simp only [List.foldl_cons, ih, List.flatMap_cons, List.length_append, segBytes_length]; omega
  simp [Cell.fill, sum]

/-- A cell whose segments fit is 512 bytes: 16 of header and 496 of payload (R292). -/
theorem cellBytes_length (s : State) (a b : Nat) (c : Cell) (h : c.fill ≤ 496) : (s.cellBytes a b c).length = 512 := by
  have len : (if c.poison then [] else c.segs.flatMap s.segBytes).length ≤ 496 := by
    split
    · exact Nat.zero_le _
    · rw [flatMap_segBytes_length]; exact h
  simp only [State.cellBytes, Cell.header, State.payload, List.length_append, beBytes_length, zeros_length]
  omega

/-! Stripes (R398) -/

theorem unitMember_lt (j d : Nat) : unitMember j d < 8 := Nat.mod_lt _ (by decide)

/-- No data unit lies on the member of its stripe's parity. -/
theorem unitMember_ne_parity (j : Nat) {d : Nat} (h : d < 7) : unitMember j d ≠ parityMember j := by
  unfold unitMember parityMember; omega

/-- Of the eight members of a stripe, member m holds data unit `memberUnit j m`. -/
theorem memberUnit_unitMember (j : Nat) {d : Nat} (h : d < 7) : memberUnit j (unitMember j d) = d := by
  unfold memberUnit unitMember; omega

/-- A group data address names its stripe, its data unit and its byte. -/
theorem groupAddr_unit (j : Nat) {d b : Nat} (hd : d < 7) (hb : b < 64) :
    unitStripe (groupAddr j d b / 64) = j ∧ groupAddr j d b / 64 % 7 = d ∧ groupAddr j d b % 64 = b := by
  unfold unitStripe groupAddr; omega

theorem xorUnit_self (a : Bytes) : xorUnit a a = zeros a.length := by
  induction a with
  | nil => rfl
  | cons x a ih =>
    simp only [xorUnit, List.zipWith_cons_cons, BitVec.xor_self, List.length_cons, zeros, List.replicate_succ]
    exact congrArg _ ih

theorem parityUnit_length (l : List Bytes) (h : ∀ a ∈ l, a.length = 64) : (parityUnit l).length = 64 := by
  have run : ∀ (l : List Bytes) (a : Bytes), a.length = 64 → (∀ b ∈ l, b.length = 64) → (l.foldl xorUnit a).length = 64 := by
    intro l
    induction l with
    | nil => exact fun _ ha _ => ha
    | cons b l ih =>
      intro a ha hl
      refine ih _ ?_ fun c hc => hl c (List.mem_cons_of_mem _ hc)
      simp [xorUnit, ha, hl b List.mem_cons_self]
  exact run l _ (zeros_length 64) h

/-- The parity unit makes the eight units of a stripe add up to 0. -/
theorem parityUnit_closes (l : List Bytes) (h : ∀ a ∈ l, a.length = 64) : parityUnit (l ++ [parityUnit l]) = zeros 64 := by
  rw [show parityUnit (l ++ [parityUnit l]) = xorUnit (parityUnit l) (parityUnit l) by simp [parityUnit], xorUnit_self,
    parityUnit_length l h]

/-- A segment of a failed member lies on a survivor, in the survivor's spare band (R415). -/
theorem spareMember_ne (m q : Nat) (h : m < 8) : spareMember m q ≠ m := by
  unfold spareMember
  have : q % 7 < 7 := Nat.mod_lt _ (by decide)
  interval_cases m <;> interval_cases q % 7 <;> decide

theorem spareOffset_lt (q : Nat) (h : q < segmentCount) : spareOffset q + 64 ≤ stripeCount + spareUnits := by
  unfold spareOffset stripeCount spareUnits; unfold segmentCount at h; omega

end Sys2Proof.Machine
end

