-- ==== Sys2Proof/Laws/Tab.lean ====
section
/-! SUPPORT. Sparse arrays: what a read after a write gives, and that every operation keeps the canonical form. -/

namespace Sys2Proof.Machine

theorem lookupCell_eraseCell {α : Type} (d : α) (l : List (Nat × α)) (i j : Nat) :
    lookupCell d (eraseCell l i) j = if j = i then d else lookupCell d l j := by
  induction l with
  | nil => simp [eraseCell, lookupCell]
  | cons c l ih =>
    obtain ⟨k, v⟩ := c
    by_cases h : i = k
    · subst h; simp only [eraseCell, if_pos, ih, lookupCell]; split <;> rfl
    · simp only [eraseCell, if_neg h, lookupCell, ih]
      by_cases hk : j = k
      · subst hk; simp [Ne.symm h]
      · simp [hk]

theorem lookupCell_insertCell {α : Type} (d : α) (l : List (Nat × α)) (i j : Nat) (x : α) :
    lookupCell d (insertCell l i x) j = if j = i then x else lookupCell d l j := by
  induction l with
  | nil => simp [insertCell, lookupCell]
  | cons c l ih =>
    obtain ⟨k, v⟩ := c
    simp only [insertCell]
    split
    · rfl
    · split
      · subst_vars; simp only [lookupCell]; split <;> simp_all
      · next hk =>
        simp only [lookupCell, ih]
        by_cases h : j = k
        · subst h; simp [Ne.symm hk]
        · simp [h]

/-- A read after a write. -/
theorem Tab.get_set {α : Type} [DecidableEq α] (t : Tab α) (d x : α) (i j : Nat) :
    (t.set d i x).get d j = if j = i then x else t.get d j := by
  unfold Tab.get Tab.set
  split
  · subst_vars; exact lookupCell_eraseCell _ _ _ _
  · exact lookupCell_insertCell _ _ _ _ _

@[simp] theorem Tab.get_set_same {α : Type} [DecidableEq α] (t : Tab α) (d x : α) (i : Nat) :
    (t.set d i x).get d i = x := by simp [Tab.get_set]

theorem Tab.get_set_other {α : Type} [DecidableEq α] (t : Tab α) (d x : α) {i j : Nat} (h : j ≠ i) :
    (t.set d i x).get d j = t.get d j := by simp [Tab.get_set, h]

@[simp] theorem Tab.get_modify_same {α : Type} [DecidableEq α] (t : Tab α) (d : α) (i : Nat) (f : α → α) :
    (t.modify d i f).get d i = f (t.get d i) := Tab.get_set_same _ _ _ _

theorem Tab.get_modify_other {α : Type} [DecidableEq α] (t : Tab α) (d : α) (f : α → α) {i j : Nat} (h : j ≠ i) :
    (t.modify d i f).get d j = t.get d j := Tab.get_set_other _ _ _ h

@[simp] theorem Tab.get_empty {α : Type} (d : α) (i : Nat) : (Tab.empty : Tab α).get d i = d := rfl

/-- Another default reads a written array the same at every other index. -/
theorem Tab.get_set_other' {α : Type} [DecidableEq α] (t : Tab α) (d d' x : α) {i j : Nat} (h : j ≠ i) :
    (t.set d i x).get d' j = t.get d' j := by
  unfold Tab.get Tab.set
  split
  · rw [lookupCell_eraseCell, if_neg h]
  · rw [lookupCell_insertCell, if_neg h]

/-- What remains of an array after `keep`. -/
theorem Tab.get_keep {α : Type} (t : Tab α) (d : α) (p : Nat → Bool) (i : Nat) :
    (t.keep p).get d i = if p i then t.get d i else d := by
  obtain ⟨l⟩ := t
  simp only [Tab.get, Tab.keep]
  induction l with
  | nil => simp [lookupCell]
  | cons c l ih =>
    obtain ⟨k, v⟩ := c
    by_cases hk : p k = true
    · simp only [List.filter_cons, hk, if_true, lookupCell, ih]
      by_cases h : i = k
      · subst h; simp [hk]
      · simp [h]
    · have hk' : p k = false := by simpa using hk
      simp only [List.filter_cons, hk', lookupCell]
      by_cases h : i = k
      · subst h; simpa [hk'] using ih
      · simpa [h] using ih

/-- What an array reads after `mapCells`, for a function that keeps the default. -/
theorem Tab.get_mapCells {α : Type} [DecidableEq α] (t : Tab α) (d : α) (f : Nat → α → α) (i : Nat) (h : f i d = d) :
    (t.mapCells d f).get d i = f i (t.get d i) := by
  obtain ⟨l⟩ := t
  simp only [Tab.get, Tab.mapCells]
  induction l with
  | nil => simp [mapCellList, lookupCell, h]
  | cons c l ih =>
    obtain ⟨k, v⟩ := c
    simp only [mapCellList, lookupCell]
    split
    · next hd => rw [lookupCell_eraseCell, ih]; split <;> simp_all
    · simp only [lookupCell, ih]; split <;> simp_all

/-! The canonical form -/

/-- No index below `n` is listed. -/
def fromIndex {α : Type} (n : Nat) (l : List (Nat × α)) : Prop := ∀ c ∈ l, n ≤ c.1

theorem cellsOk_cons {α : Type} [DecidableEq α] (d : α) (k : Nat) (v : α) (l : List (Nat × α)) :
    cellsOk d ((k, v) :: l) = true ↔ v ≠ d ∧ fromIndex (k + 1) l ∧ cellsOk d l = true := by
  induction l generalizing k v with
  | nil => simp [cellsOk, fromIndex]
  | cons c l ih =>
    obtain ⟨k', v'⟩ := c
    simp only [cellsOk, Bool.and_eq_true, decide_eq_true_eq, ih]
    constructor
    · rintro ⟨⟨hv, hk⟩, hv', hf, hl⟩
      refine ⟨hv, ?_, hv', hf, hl⟩
      intro c hc
      rcases List.mem_cons.mp hc with rfl | hc
      · exact hk
      · have := hf c hc; omega
    · rintro ⟨hv, hf, hv', hf', hl⟩
      exact ⟨⟨hv, hf _ (List.mem_cons_self ..)⟩, hv', hf', hl⟩

theorem mem_eraseCell {α : Type} {l : List (Nat × α)} {i : Nat} {c : Nat × α} (h : c ∈ eraseCell l i) : c ∈ l := by
  induction l with
  | nil => exact h
  | cons x l ih =>
    obtain ⟨k, v⟩ := x
    simp only [eraseCell] at h
    split at h
    · exact List.mem_cons_of_mem _ (ih h)
    · rcases List.mem_cons.mp h with rfl | h
      · exact List.mem_cons_self ..
      · exact List.mem_cons_of_mem _ (ih h)

theorem cellsOk_eraseCell {α : Type} [DecidableEq α] (d : α) (l : List (Nat × α)) (i : Nat) (h : cellsOk d l = true) :
    cellsOk d (eraseCell l i) = true := by
  induction l with
  | nil => rfl
  | cons x l ih =>
    obtain ⟨k, v⟩ := x
    obtain ⟨hv, hf, hl⟩ := (cellsOk_cons ..).mp h
    simp only [eraseCell]
    split
    · exact ih hl
    · exact (cellsOk_cons ..).mpr ⟨hv, fun c hc => hf c (mem_eraseCell hc), ih hl⟩

theorem mem_insertCell {α : Type} {l : List (Nat × α)} {i : Nat} {x : α} {c : Nat × α} (h : c ∈ insertCell l i x) :
    c = (i, x) ∨ c ∈ l := by
  induction l with
  | nil => simpa [insertCell] using h
  | cons y l ih =>
    obtain ⟨k, v⟩ := y
    simp only [insertCell] at h
    split at h
    · simpa using h
    · split at h
      · rcases List.mem_cons.mp h with rfl | h
        · exact .inl rfl
        · exact .inr (List.mem_cons_of_mem _ h)
      · rcases List.mem_cons.mp h with rfl | h
        · exact .inr (List.mem_cons_self ..)
        · exact (ih h).imp id (List.mem_cons_of_mem _)

theorem cellsOk_insertCell {α : Type} [DecidableEq α] (d : α) (l : List (Nat × α)) (i : Nat) (x : α) (hx : x ≠ d)
    (h : cellsOk d l = true) : cellsOk d (insertCell l i x) = true := by
  induction l with
  | nil => simp [insertCell, cellsOk, hx]
  | cons y l ih =>
    obtain ⟨k, v⟩ := y
    obtain ⟨hv, hf, hl⟩ := (cellsOk_cons ..).mp h
    simp only [insertCell]
    split
    · next hk =>
      refine (cellsOk_cons ..).mpr ⟨hx, ?_, h⟩
      intro c hc
      rcases List.mem_cons.mp hc with rfl | hc
      · exact hk
      · have := hf c hc; omega
    · split
      · next hk => subst hk; exact (cellsOk_cons ..).mpr ⟨hx, hf, hl⟩
      · refine (cellsOk_cons ..).mpr ⟨hv, ?_, ih hl⟩
        intro c hc
        rcases mem_insertCell hc with rfl | hc
        · show k + 1 ≤ i; omega
        · exact hf c hc

/-- A write keeps the canonical form. -/
theorem Tab.wf_set {α : Type} [DecidableEq α] {t : Tab α} {d : α} (i : Nat) (x : α) (h : t.wf d = true) :
    (t.set d i x).wf d = true := by
  unfold Tab.wf Tab.set at *
  split
  · exact cellsOk_eraseCell _ _ _ h
  · next hx => exact cellsOk_insertCell _ _ _ _ hx h

theorem Tab.wf_modify {α : Type} [DecidableEq α] {t : Tab α} {d : α} (i : Nat) (f : α → α) (h : t.wf d = true) :
    (t.modify d i f).wf d = true := Tab.wf_set _ _ h

theorem Tab.wf_empty {α : Type} [DecidableEq α] (d : α) : (Tab.empty : Tab α).wf d = true := rfl

theorem Tab.wf_keep {α : Type} [DecidableEq α] {t : Tab α} {d : α} (p : Nat → Bool) (h : t.wf d = true) :
    (t.keep p).wf d = true := by
  obtain ⟨l⟩ := t
  simp only [Tab.wf, Tab.keep] at *
  induction l with
  | nil => rfl
  | cons y l ih =>
    obtain ⟨k, v⟩ := y
    obtain ⟨hv, hf, hl⟩ := (cellsOk_cons ..).mp h
    by_cases hp : p k = true
    · simp only [List.filter_cons, hp, if_true]
      exact (cellsOk_cons ..).mpr ⟨hv, fun c hc => hf c (List.mem_filter.mp hc).1, ih hl⟩
    · simp only [List.filter_cons, hp]
      exact ih hl

theorem mem_mapCellList {α : Type} [DecidableEq α] {d : α} {f : Nat → α → α} {l : List (Nat × α)} {c : Nat × α}
    (h : c ∈ mapCellList d f l) : ∃ v, (c.1, v) ∈ l := by
  induction l with
  | nil => cases h
  | cons y l ih =>
    obtain ⟨k, v⟩ := y
    simp only [mapCellList] at h
    split at h
    · obtain ⟨w, hw⟩ := ih (mem_eraseCell h); exact ⟨w, List.mem_cons_of_mem _ hw⟩
    · rcases List.mem_cons.mp h with rfl | h
      · exact ⟨v, List.mem_cons_self ..⟩
      · obtain ⟨w, hw⟩ := ih h; exact ⟨w, List.mem_cons_of_mem _ hw⟩

theorem Tab.wf_mapCells {α : Type} [DecidableEq α] {t : Tab α} {d : α} (f : Nat → α → α) (h : t.wf d = true) :
    (t.mapCells d f).wf d = true := by
  obtain ⟨l⟩ := t
  simp only [Tab.wf, Tab.mapCells] at *
  induction l with
  | nil => rfl
  | cons y l ih =>
    obtain ⟨k, v⟩ := y
    obtain ⟨hv, hf, hl⟩ := (cellsOk_cons ..).mp h
    simp only [mapCellList]
    split
    · exact cellsOk_eraseCell _ _ _ (ih hl)
    · next hd =>
      refine (cellsOk_cons ..).mpr ⟨hd, ?_, ih hl⟩
      intro c hc
      obtain ⟨w, hw⟩ := mem_mapCellList hc
      exact hf (c.1, w) hw

end Sys2Proof.Machine
end

