-- ==== Sys2Proof/Laws/State.lean ====
section
/-! SUPPORT. Each operation that replaces one part of the state: a read of that part after it, and every other field as
it was. -/

namespace Sys2Proof.Machine

set_option Elab.async false

/-! advance -/

@[simp] theorem State.advance_pending (s : State) (dt : Nat) : (s.advance dt).pending = s.pending := rfl
@[simp] theorem State.advance_mode (s : State) (dt : Nat) : (s.advance dt).mode = s.mode := rfl
@[simp] theorem State.advance_regs (s : State) (dt : Nat) : (s.advance dt).regs = s.regs := rfl
@[simp] theorem State.advance_cnts (s : State) (dt : Nat) : (s.advance dt).cnts = s.cnts := rfl
@[simp] theorem State.advance_latches (s : State) (dt : Nat) : (s.advance dt).latches = s.latches := rfl
@[simp] theorem State.advance_out (s : State) (dt : Nat) : (s.advance dt).out = s.out := rfl
@[simp] theorem State.advance_draws (s : State) (dt : Nat) : (s.advance dt).draws = s.draws := rfl
@[simp] theorem State.advance_gen (s : State) (dt : Nat) : (s.advance dt).gen = s.gen := rfl
@[simp] theorem State.advance_hif (s : State) (dt : Nat) : (s.advance dt).hif = s.hif := rfl
@[simp] theorem State.advance_eic (s : State) (dt : Nat) : (s.advance dt).eic = s.eic := rfl
@[simp] theorem State.advance_flt (s : State) (dt : Nat) : (s.advance dt).flt = s.flt := rfl
@[simp] theorem State.advance_units (s : State) (dt : Nat) : (s.advance dt).units = s.units := rfl
@[simp] theorem State.advance_prt (s : State) (dt : Nat) : (s.advance dt).prt = s.prt := rfl
@[simp] theorem State.advance_frames (s : State) (dt : Nat) : (s.advance dt).frames = s.frames := rfl
@[simp] theorem State.advance_nextFrame (s : State) (dt : Nat) : (s.advance dt).nextFrame = s.nextFrame := rfl
@[simp] theorem State.advance_bpm (s : State) (dt : Nat) : (s.advance dt).bpm = s.bpm := rfl
@[simp] theorem State.advance_fab (s : State) (dt : Nat) : (s.advance dt).fab = s.fab := rfl
@[simp] theorem State.advance_sched (s : State) (dt : Nat) : (s.advance dt).sched = s.sched := rfl
@[simp] theorem State.advance_pol (s : State) (dt : Nat) : (s.advance dt).pol = s.pol := rfl
@[simp] theorem State.advance_cps (s : State) (dt : Nat) : (s.advance dt).cps = s.cps := rfl
@[simp] theorem State.advance_glz (s : State) (dt : Nat) : (s.advance dt).glz = s.glz := rfl
@[simp] theorem State.advance_bur (s : State) (dt : Nat) : (s.advance dt).bur = s.bur := rfl
@[simp] theorem State.advance_tabs (s : State) (dt : Nat) : (s.advance dt).tabs = s.tabs := rfl
@[simp] theorem State.advance_fuses (s : State) (dt : Nat) : (s.advance dt).fuses = s.fuses := rfl
@[simp] theorem State.advance_sampBkt (s : State) (dt : Nat) : (s.advance dt).sampBkt = s.sampBkt := rfl
@[simp] theorem State.advance_sampLfsr (s : State) (dt : Nat) : (s.advance dt).sampLfsr = s.sampLfsr := rfl
@[simp] theorem State.advance_sampSeq (s : State) (dt : Nat) : (s.advance dt).sampSeq = s.sampSeq := rfl
@[simp] theorem State.advance_hbm (s : State) (dt : Nat) : (s.advance dt).hbm = s.hbm := rfl
@[simp] theorem State.advance_mgt (s : State) (dt : Nat) : (s.advance dt).mgt = s.mgt := rfl
@[simp] theorem State.advance_pmc (s : State) (dt : Nat) : (s.advance dt).pmc = s.pmc := rfl
@[simp] theorem State.advance_rst (s : State) (dt : Nat) : (s.advance dt).rst = s.rst := rfl
@[simp] theorem State.advance_refLost (s : State) (dt : Nat) : (s.advance dt).refLost = s.refLost := rfl

/-! setRegOf -/

@[simp] theorem State.setRegOf_pending (s : State) (r : RegName) (fn i j v : Nat) : (s.setRegOf r fn i j v).pending = s.pending := rfl
@[simp] theorem State.setRegOf_mode (s : State) (r : RegName) (fn i j v : Nat) : (s.setRegOf r fn i j v).mode = s.mode := rfl
@[simp] theorem State.setRegOf_now (s : State) (r : RegName) (fn i j v : Nat) : (s.setRegOf r fn i j v).now = s.now := rfl
@[simp] theorem State.setRegOf_ptp (s : State) (r : RegName) (fn i j v : Nat) : (s.setRegOf r fn i j v).ptp = s.ptp := rfl
@[simp] theorem State.setRegOf_cnts (s : State) (r : RegName) (fn i j v : Nat) : (s.setRegOf r fn i j v).cnts = s.cnts := rfl
@[simp] theorem State.setRegOf_latches (s : State) (r : RegName) (fn i j v : Nat) : (s.setRegOf r fn i j v).latches = s.latches := rfl
@[simp] theorem State.setRegOf_out (s : State) (r : RegName) (fn i j v : Nat) : (s.setRegOf r fn i j v).out = s.out := rfl
@[simp] theorem State.setRegOf_draws (s : State) (r : RegName) (fn i j v : Nat) : (s.setRegOf r fn i j v).draws = s.draws := rfl
@[simp] theorem State.setRegOf_gen (s : State) (r : RegName) (fn i j v : Nat) : (s.setRegOf r fn i j v).gen = s.gen := rfl
@[simp] theorem State.setRegOf_hif (s : State) (r : RegName) (fn i j v : Nat) : (s.setRegOf r fn i j v).hif = s.hif := rfl
@[simp] theorem State.setRegOf_eic (s : State) (r : RegName) (fn i j v : Nat) : (s.setRegOf r fn i j v).eic = s.eic := rfl
@[simp] theorem State.setRegOf_flt (s : State) (r : RegName) (fn i j v : Nat) : (s.setRegOf r fn i j v).flt = s.flt := rfl
@[simp] theorem State.setRegOf_kiln (s : State) (r : RegName) (fn i j v : Nat) : (s.setRegOf r fn i j v).kiln = s.kiln := rfl
@[simp] theorem State.setRegOf_units (s : State) (r : RegName) (fn i j v : Nat) : (s.setRegOf r fn i j v).units = s.units := rfl
@[simp] theorem State.setRegOf_prt (s : State) (r : RegName) (fn i j v : Nat) : (s.setRegOf r fn i j v).prt = s.prt := rfl
@[simp] theorem State.setRegOf_frames (s : State) (r : RegName) (fn i j v : Nat) : (s.setRegOf r fn i j v).frames = s.frames := rfl
@[simp] theorem State.setRegOf_nextFrame (s : State) (r : RegName) (fn i j v : Nat) : (s.setRegOf r fn i j v).nextFrame = s.nextFrame := rfl
@[simp] theorem State.setRegOf_bpm (s : State) (r : RegName) (fn i j v : Nat) : (s.setRegOf r fn i j v).bpm = s.bpm := rfl
@[simp] theorem State.setRegOf_fab (s : State) (r : RegName) (fn i j v : Nat) : (s.setRegOf r fn i j v).fab = s.fab := rfl
@[simp] theorem State.setRegOf_sched (s : State) (r : RegName) (fn i j v : Nat) : (s.setRegOf r fn i j v).sched = s.sched := rfl
@[simp] theorem State.setRegOf_pol (s : State) (r : RegName) (fn i j v : Nat) : (s.setRegOf r fn i j v).pol = s.pol := rfl
@[simp] theorem State.setRegOf_cps (s : State) (r : RegName) (fn i j v : Nat) : (s.setRegOf r fn i j v).cps = s.cps := rfl
@[simp] theorem State.setRegOf_glz (s : State) (r : RegName) (fn i j v : Nat) : (s.setRegOf r fn i j v).glz = s.glz := rfl
@[simp] theorem State.setRegOf_bur (s : State) (r : RegName) (fn i j v : Nat) : (s.setRegOf r fn i j v).bur = s.bur := rfl
@[simp] theorem State.setRegOf_tabs (s : State) (r : RegName) (fn i j v : Nat) : (s.setRegOf r fn i j v).tabs = s.tabs := rfl
@[simp] theorem State.setRegOf_fuses (s : State) (r : RegName) (fn i j v : Nat) : (s.setRegOf r fn i j v).fuses = s.fuses := rfl
@[simp] theorem State.setRegOf_sampBkt (s : State) (r : RegName) (fn i j v : Nat) : (s.setRegOf r fn i j v).sampBkt = s.sampBkt := rfl
@[simp] theorem State.setRegOf_sampLfsr (s : State) (r : RegName) (fn i j v : Nat) : (s.setRegOf r fn i j v).sampLfsr = s.sampLfsr := rfl
@[simp] theorem State.setRegOf_sampSeq (s : State) (r : RegName) (fn i j v : Nat) : (s.setRegOf r fn i j v).sampSeq = s.sampSeq := rfl
@[simp] theorem State.setRegOf_hbm (s : State) (r : RegName) (fn i j v : Nat) : (s.setRegOf r fn i j v).hbm = s.hbm := rfl
@[simp] theorem State.setRegOf_mgt (s : State) (r : RegName) (fn i j v : Nat) : (s.setRegOf r fn i j v).mgt = s.mgt := rfl
@[simp] theorem State.setRegOf_pmc (s : State) (r : RegName) (fn i j v : Nat) : (s.setRegOf r fn i j v).pmc = s.pmc := rfl
@[simp] theorem State.setRegOf_rst (s : State) (r : RegName) (fn i j v : Nat) : (s.setRegOf r fn i j v).rst = s.rst := rfl
@[simp] theorem State.setRegOf_refLost (s : State) (r : RegName) (fn i j v : Nat) : (s.setRegOf r fn i j v).refLost = s.refLost := rfl

/-! setReg -/

@[simp] theorem State.setReg_pending (s : State) (r : RegName) (i j v : Nat) : (s.setReg r i j v).pending = s.pending := rfl
@[simp] theorem State.setReg_mode (s : State) (r : RegName) (i j v : Nat) : (s.setReg r i j v).mode = s.mode := rfl
@[simp] theorem State.setReg_now (s : State) (r : RegName) (i j v : Nat) : (s.setReg r i j v).now = s.now := rfl
@[simp] theorem State.setReg_ptp (s : State) (r : RegName) (i j v : Nat) : (s.setReg r i j v).ptp = s.ptp := rfl
@[simp] theorem State.setReg_cnts (s : State) (r : RegName) (i j v : Nat) : (s.setReg r i j v).cnts = s.cnts := rfl
@[simp] theorem State.setReg_latches (s : State) (r : RegName) (i j v : Nat) : (s.setReg r i j v).latches = s.latches := rfl
@[simp] theorem State.setReg_out (s : State) (r : RegName) (i j v : Nat) : (s.setReg r i j v).out = s.out := rfl
@[simp] theorem State.setReg_draws (s : State) (r : RegName) (i j v : Nat) : (s.setReg r i j v).draws = s.draws := rfl
@[simp] theorem State.setReg_gen (s : State) (r : RegName) (i j v : Nat) : (s.setReg r i j v).gen = s.gen := rfl
@[simp] theorem State.setReg_hif (s : State) (r : RegName) (i j v : Nat) : (s.setReg r i j v).hif = s.hif := rfl
@[simp] theorem State.setReg_eic (s : State) (r : RegName) (i j v : Nat) : (s.setReg r i j v).eic = s.eic := rfl
@[simp] theorem State.setReg_flt (s : State) (r : RegName) (i j v : Nat) : (s.setReg r i j v).flt = s.flt := rfl
@[simp] theorem State.setReg_kiln (s : State) (r : RegName) (i j v : Nat) : (s.setReg r i j v).kiln = s.kiln := rfl
@[simp] theorem State.setReg_units (s : State) (r : RegName) (i j v : Nat) : (s.setReg r i j v).units = s.units := rfl
@[simp] theorem State.setReg_prt (s : State) (r : RegName) (i j v : Nat) : (s.setReg r i j v).prt = s.prt := rfl
@[simp] theorem State.setReg_frames (s : State) (r : RegName) (i j v : Nat) : (s.setReg r i j v).frames = s.frames := rfl
@[simp] theorem State.setReg_nextFrame (s : State) (r : RegName) (i j v : Nat) : (s.setReg r i j v).nextFrame = s.nextFrame := rfl
@[simp] theorem State.setReg_bpm (s : State) (r : RegName) (i j v : Nat) : (s.setReg r i j v).bpm = s.bpm := rfl
@[simp] theorem State.setReg_fab (s : State) (r : RegName) (i j v : Nat) : (s.setReg r i j v).fab = s.fab := rfl
@[simp] theorem State.setReg_sched (s : State) (r : RegName) (i j v : Nat) : (s.setReg r i j v).sched = s.sched := rfl
@[simp] theorem State.setReg_pol (s : State) (r : RegName) (i j v : Nat) : (s.setReg r i j v).pol = s.pol := rfl
@[simp] theorem State.setReg_cps (s : State) (r : RegName) (i j v : Nat) : (s.setReg r i j v).cps = s.cps := rfl
@[simp] theorem State.setReg_glz (s : State) (r : RegName) (i j v : Nat) : (s.setReg r i j v).glz = s.glz := rfl
@[simp] theorem State.setReg_bur (s : State) (r : RegName) (i j v : Nat) : (s.setReg r i j v).bur = s.bur := rfl
@[simp] theorem State.setReg_tabs (s : State) (r : RegName) (i j v : Nat) : (s.setReg r i j v).tabs = s.tabs := rfl
@[simp] theorem State.setReg_fuses (s : State) (r : RegName) (i j v : Nat) : (s.setReg r i j v).fuses = s.fuses := rfl
@[simp] theorem State.setReg_sampBkt (s : State) (r : RegName) (i j v : Nat) : (s.setReg r i j v).sampBkt = s.sampBkt := rfl
@[simp] theorem State.setReg_sampLfsr (s : State) (r : RegName) (i j v : Nat) : (s.setReg r i j v).sampLfsr = s.sampLfsr := rfl
@[simp] theorem State.setReg_sampSeq (s : State) (r : RegName) (i j v : Nat) : (s.setReg r i j v).sampSeq = s.sampSeq := rfl
@[simp] theorem State.setReg_hbm (s : State) (r : RegName) (i j v : Nat) : (s.setReg r i j v).hbm = s.hbm := rfl
@[simp] theorem State.setReg_mgt (s : State) (r : RegName) (i j v : Nat) : (s.setReg r i j v).mgt = s.mgt := rfl
@[simp] theorem State.setReg_pmc (s : State) (r : RegName) (i j v : Nat) : (s.setReg r i j v).pmc = s.pmc := rfl
@[simp] theorem State.setReg_rst (s : State) (r : RegName) (i j v : Nat) : (s.setReg r i j v).rst = s.rst := rfl
@[simp] theorem State.setReg_refLost (s : State) (r : RegName) (i j v : Nat) : (s.setReg r i j v).refLost = s.refLost := rfl

/-! bumpBy -/

@[simp] theorem State.bumpBy_pending (s : State) (k n : Nat) : (s.bumpBy k n).pending = s.pending := rfl
@[simp] theorem State.bumpBy_mode (s : State) (k n : Nat) : (s.bumpBy k n).mode = s.mode := rfl
@[simp] theorem State.bumpBy_now (s : State) (k n : Nat) : (s.bumpBy k n).now = s.now := rfl
@[simp] theorem State.bumpBy_ptp (s : State) (k n : Nat) : (s.bumpBy k n).ptp = s.ptp := rfl
@[simp] theorem State.bumpBy_regs (s : State) (k n : Nat) : (s.bumpBy k n).regs = s.regs := rfl
@[simp] theorem State.bumpBy_latches (s : State) (k n : Nat) : (s.bumpBy k n).latches = s.latches := rfl
@[simp] theorem State.bumpBy_out (s : State) (k n : Nat) : (s.bumpBy k n).out = s.out := rfl
@[simp] theorem State.bumpBy_draws (s : State) (k n : Nat) : (s.bumpBy k n).draws = s.draws := rfl
@[simp] theorem State.bumpBy_gen (s : State) (k n : Nat) : (s.bumpBy k n).gen = s.gen := rfl
@[simp] theorem State.bumpBy_hif (s : State) (k n : Nat) : (s.bumpBy k n).hif = s.hif := rfl
@[simp] theorem State.bumpBy_eic (s : State) (k n : Nat) : (s.bumpBy k n).eic = s.eic := rfl
@[simp] theorem State.bumpBy_flt (s : State) (k n : Nat) : (s.bumpBy k n).flt = s.flt := rfl
@[simp] theorem State.bumpBy_kiln (s : State) (k n : Nat) : (s.bumpBy k n).kiln = s.kiln := rfl
@[simp] theorem State.bumpBy_units (s : State) (k n : Nat) : (s.bumpBy k n).units = s.units := rfl
@[simp] theorem State.bumpBy_prt (s : State) (k n : Nat) : (s.bumpBy k n).prt = s.prt := rfl
@[simp] theorem State.bumpBy_frames (s : State) (k n : Nat) : (s.bumpBy k n).frames = s.frames := rfl
@[simp] theorem State.bumpBy_nextFrame (s : State) (k n : Nat) : (s.bumpBy k n).nextFrame = s.nextFrame := rfl
@[simp] theorem State.bumpBy_bpm (s : State) (k n : Nat) : (s.bumpBy k n).bpm = s.bpm := rfl
@[simp] theorem State.bumpBy_fab (s : State) (k n : Nat) : (s.bumpBy k n).fab = s.fab := rfl
@[simp] theorem State.bumpBy_sched (s : State) (k n : Nat) : (s.bumpBy k n).sched = s.sched := rfl
@[simp] theorem State.bumpBy_pol (s : State) (k n : Nat) : (s.bumpBy k n).pol = s.pol := rfl
@[simp] theorem State.bumpBy_cps (s : State) (k n : Nat) : (s.bumpBy k n).cps = s.cps := rfl
@[simp] theorem State.bumpBy_glz (s : State) (k n : Nat) : (s.bumpBy k n).glz = s.glz := rfl
@[simp] theorem State.bumpBy_bur (s : State) (k n : Nat) : (s.bumpBy k n).bur = s.bur := rfl
@[simp] theorem State.bumpBy_tabs (s : State) (k n : Nat) : (s.bumpBy k n).tabs = s.tabs := rfl
@[simp] theorem State.bumpBy_fuses (s : State) (k n : Nat) : (s.bumpBy k n).fuses = s.fuses := rfl
@[simp] theorem State.bumpBy_sampBkt (s : State) (k n : Nat) : (s.bumpBy k n).sampBkt = s.sampBkt := rfl
@[simp] theorem State.bumpBy_sampLfsr (s : State) (k n : Nat) : (s.bumpBy k n).sampLfsr = s.sampLfsr := rfl
@[simp] theorem State.bumpBy_sampSeq (s : State) (k n : Nat) : (s.bumpBy k n).sampSeq = s.sampSeq := rfl
@[simp] theorem State.bumpBy_hbm (s : State) (k n : Nat) : (s.bumpBy k n).hbm = s.hbm := rfl
@[simp] theorem State.bumpBy_mgt (s : State) (k n : Nat) : (s.bumpBy k n).mgt = s.mgt := rfl
@[simp] theorem State.bumpBy_pmc (s : State) (k n : Nat) : (s.bumpBy k n).pmc = s.pmc := rfl
@[simp] theorem State.bumpBy_rst (s : State) (k n : Nat) : (s.bumpBy k n).rst = s.rst := rfl
@[simp] theorem State.bumpBy_refLost (s : State) (k n : Nat) : (s.bumpBy k n).refLost = s.refLost := rfl

/-! bump -/

@[simp] theorem State.bump_pending (s : State) (k : Nat) : (s.bump k).pending = s.pending := rfl
@[simp] theorem State.bump_mode (s : State) (k : Nat) : (s.bump k).mode = s.mode := rfl
@[simp] theorem State.bump_now (s : State) (k : Nat) : (s.bump k).now = s.now := rfl
@[simp] theorem State.bump_ptp (s : State) (k : Nat) : (s.bump k).ptp = s.ptp := rfl
@[simp] theorem State.bump_regs (s : State) (k : Nat) : (s.bump k).regs = s.regs := rfl
@[simp] theorem State.bump_latches (s : State) (k : Nat) : (s.bump k).latches = s.latches := rfl
@[simp] theorem State.bump_out (s : State) (k : Nat) : (s.bump k).out = s.out := rfl
@[simp] theorem State.bump_draws (s : State) (k : Nat) : (s.bump k).draws = s.draws := rfl
@[simp] theorem State.bump_gen (s : State) (k : Nat) : (s.bump k).gen = s.gen := rfl
@[simp] theorem State.bump_hif (s : State) (k : Nat) : (s.bump k).hif = s.hif := rfl
@[simp] theorem State.bump_eic (s : State) (k : Nat) : (s.bump k).eic = s.eic := rfl
@[simp] theorem State.bump_flt (s : State) (k : Nat) : (s.bump k).flt = s.flt := rfl
@[simp] theorem State.bump_kiln (s : State) (k : Nat) : (s.bump k).kiln = s.kiln := rfl
@[simp] theorem State.bump_units (s : State) (k : Nat) : (s.bump k).units = s.units := rfl
@[simp] theorem State.bump_prt (s : State) (k : Nat) : (s.bump k).prt = s.prt := rfl
@[simp] theorem State.bump_frames (s : State) (k : Nat) : (s.bump k).frames = s.frames := rfl
@[simp] theorem State.bump_nextFrame (s : State) (k : Nat) : (s.bump k).nextFrame = s.nextFrame := rfl
@[simp] theorem State.bump_bpm (s : State) (k : Nat) : (s.bump k).bpm = s.bpm := rfl
@[simp] theorem State.bump_fab (s : State) (k : Nat) : (s.bump k).fab = s.fab := rfl
@[simp] theorem State.bump_sched (s : State) (k : Nat) : (s.bump k).sched = s.sched := rfl
@[simp] theorem State.bump_pol (s : State) (k : Nat) : (s.bump k).pol = s.pol := rfl
@[simp] theorem State.bump_cps (s : State) (k : Nat) : (s.bump k).cps = s.cps := rfl
@[simp] theorem State.bump_glz (s : State) (k : Nat) : (s.bump k).glz = s.glz := rfl
@[simp] theorem State.bump_bur (s : State) (k : Nat) : (s.bump k).bur = s.bur := rfl
@[simp] theorem State.bump_tabs (s : State) (k : Nat) : (s.bump k).tabs = s.tabs := rfl
@[simp] theorem State.bump_fuses (s : State) (k : Nat) : (s.bump k).fuses = s.fuses := rfl
@[simp] theorem State.bump_sampBkt (s : State) (k : Nat) : (s.bump k).sampBkt = s.sampBkt := rfl
@[simp] theorem State.bump_sampLfsr (s : State) (k : Nat) : (s.bump k).sampLfsr = s.sampLfsr := rfl
@[simp] theorem State.bump_sampSeq (s : State) (k : Nat) : (s.bump k).sampSeq = s.sampSeq := rfl
@[simp] theorem State.bump_hbm (s : State) (k : Nat) : (s.bump k).hbm = s.hbm := rfl
@[simp] theorem State.bump_mgt (s : State) (k : Nat) : (s.bump k).mgt = s.mgt := rfl
@[simp] theorem State.bump_pmc (s : State) (k : Nat) : (s.bump k).pmc = s.pmc := rfl
@[simp] theorem State.bump_rst (s : State) (k : Nat) : (s.bump k).rst = s.rst := rfl
@[simp] theorem State.bump_refLost (s : State) (k : Nat) : (s.bump k).refLost = s.refLost := rfl

/-! setRing -/

@[simp] theorem State.setRing_pending (s : State) (r : Nat) (x : RingState) : (s.setRing r x).pending = s.pending := rfl
@[simp] theorem State.setRing_mode (s : State) (r : Nat) (x : RingState) : (s.setRing r x).mode = s.mode := rfl
@[simp] theorem State.setRing_now (s : State) (r : Nat) (x : RingState) : (s.setRing r x).now = s.now := rfl
@[simp] theorem State.setRing_ptp (s : State) (r : Nat) (x : RingState) : (s.setRing r x).ptp = s.ptp := rfl
@[simp] theorem State.setRing_regs (s : State) (r : Nat) (x : RingState) : (s.setRing r x).regs = s.regs := rfl
@[simp] theorem State.setRing_cnts (s : State) (r : Nat) (x : RingState) : (s.setRing r x).cnts = s.cnts := rfl
@[simp] theorem State.setRing_latches (s : State) (r : Nat) (x : RingState) : (s.setRing r x).latches = s.latches := rfl
@[simp] theorem State.setRing_out (s : State) (r : Nat) (x : RingState) : (s.setRing r x).out = s.out := rfl
@[simp] theorem State.setRing_draws (s : State) (r : Nat) (x : RingState) : (s.setRing r x).draws = s.draws := rfl
@[simp] theorem State.setRing_gen (s : State) (r : Nat) (x : RingState) : (s.setRing r x).gen = s.gen := rfl
@[simp] theorem State.setRing_eic (s : State) (r : Nat) (x : RingState) : (s.setRing r x).eic = s.eic := rfl
@[simp] theorem State.setRing_flt (s : State) (r : Nat) (x : RingState) : (s.setRing r x).flt = s.flt := rfl
@[simp] theorem State.setRing_kiln (s : State) (r : Nat) (x : RingState) : (s.setRing r x).kiln = s.kiln := rfl
@[simp] theorem State.setRing_units (s : State) (r : Nat) (x : RingState) : (s.setRing r x).units = s.units := rfl
@[simp] theorem State.setRing_prt (s : State) (r : Nat) (x : RingState) : (s.setRing r x).prt = s.prt := rfl
@[simp] theorem State.setRing_frames (s : State) (r : Nat) (x : RingState) : (s.setRing r x).frames = s.frames := rfl
@[simp] theorem State.setRing_nextFrame (s : State) (r : Nat) (x : RingState) : (s.setRing r x).nextFrame = s.nextFrame := rfl
@[simp] theorem State.setRing_bpm (s : State) (r : Nat) (x : RingState) : (s.setRing r x).bpm = s.bpm := rfl
@[simp] theorem State.setRing_fab (s : State) (r : Nat) (x : RingState) : (s.setRing r x).fab = s.fab := rfl
@[simp] theorem State.setRing_sched (s : State) (r : Nat) (x : RingState) : (s.setRing r x).sched = s.sched := rfl
@[simp] theorem State.setRing_pol (s : State) (r : Nat) (x : RingState) : (s.setRing r x).pol = s.pol := rfl
@[simp] theorem State.setRing_cps (s : State) (r : Nat) (x : RingState) : (s.setRing r x).cps = s.cps := rfl
@[simp] theorem State.setRing_glz (s : State) (r : Nat) (x : RingState) : (s.setRing r x).glz = s.glz := rfl
@[simp] theorem State.setRing_bur (s : State) (r : Nat) (x : RingState) : (s.setRing r x).bur = s.bur := rfl
@[simp] theorem State.setRing_tabs (s : State) (r : Nat) (x : RingState) : (s.setRing r x).tabs = s.tabs := rfl
@[simp] theorem State.setRing_fuses (s : State) (r : Nat) (x : RingState) : (s.setRing r x).fuses = s.fuses := rfl
@[simp] theorem State.setRing_sampBkt (s : State) (r : Nat) (x : RingState) : (s.setRing r x).sampBkt = s.sampBkt := rfl
@[simp] theorem State.setRing_sampLfsr (s : State) (r : Nat) (x : RingState) : (s.setRing r x).sampLfsr = s.sampLfsr := rfl
@[simp] theorem State.setRing_sampSeq (s : State) (r : Nat) (x : RingState) : (s.setRing r x).sampSeq = s.sampSeq := rfl
@[simp] theorem State.setRing_hbm (s : State) (r : Nat) (x : RingState) : (s.setRing r x).hbm = s.hbm := rfl
@[simp] theorem State.setRing_mgt (s : State) (r : Nat) (x : RingState) : (s.setRing r x).mgt = s.mgt := rfl
@[simp] theorem State.setRing_pmc (s : State) (r : Nat) (x : RingState) : (s.setRing r x).pmc = s.pmc := rfl
@[simp] theorem State.setRing_rst (s : State) (r : Nat) (x : RingState) : (s.setRing r x).rst = s.rst := rfl
@[simp] theorem State.setRing_refLost (s : State) (r : Nat) (x : RingState) : (s.setRing r x).refLost = s.refLost := rfl

/-! countPair -/

@[simp] theorem State.countPair_pending (s : State) (i len : Nat) : (s.countPair i len).pending = s.pending := rfl
@[simp] theorem State.countPair_mode (s : State) (i len : Nat) : (s.countPair i len).mode = s.mode := rfl
@[simp] theorem State.countPair_now (s : State) (i len : Nat) : (s.countPair i len).now = s.now := rfl
@[simp] theorem State.countPair_ptp (s : State) (i len : Nat) : (s.countPair i len).ptp = s.ptp := rfl
@[simp] theorem State.countPair_regs (s : State) (i len : Nat) : (s.countPair i len).regs = s.regs := rfl
@[simp] theorem State.countPair_cnts (s : State) (i len : Nat) : (s.countPair i len).cnts = s.cnts := rfl
@[simp] theorem State.countPair_latches (s : State) (i len : Nat) : (s.countPair i len).latches = s.latches := rfl
@[simp] theorem State.countPair_out (s : State) (i len : Nat) : (s.countPair i len).out = s.out := rfl
@[simp] theorem State.countPair_draws (s : State) (i len : Nat) : (s.countPair i len).draws = s.draws := rfl
@[simp] theorem State.countPair_gen (s : State) (i len : Nat) : (s.countPair i len).gen = s.gen := rfl
@[simp] theorem State.countPair_hif (s : State) (i len : Nat) : (s.countPair i len).hif = s.hif := rfl
@[simp] theorem State.countPair_eic (s : State) (i len : Nat) : (s.countPair i len).eic = s.eic := rfl
@[simp] theorem State.countPair_flt (s : State) (i len : Nat) : (s.countPair i len).flt = s.flt := rfl
@[simp] theorem State.countPair_kiln (s : State) (i len : Nat) : (s.countPair i len).kiln = s.kiln := rfl
@[simp] theorem State.countPair_units (s : State) (i len : Nat) : (s.countPair i len).units = s.units := rfl
@[simp] theorem State.countPair_prt (s : State) (i len : Nat) : (s.countPair i len).prt = s.prt := rfl
@[simp] theorem State.countPair_frames (s : State) (i len : Nat) : (s.countPair i len).frames = s.frames := rfl
@[simp] theorem State.countPair_nextFrame (s : State) (i len : Nat) : (s.countPair i len).nextFrame = s.nextFrame := rfl
@[simp] theorem State.countPair_bpm (s : State) (i len : Nat) : (s.countPair i len).bpm = s.bpm := rfl
@[simp] theorem State.countPair_fab (s : State) (i len : Nat) : (s.countPair i len).fab = s.fab := rfl
@[simp] theorem State.countPair_sched (s : State) (i len : Nat) : (s.countPair i len).sched = s.sched := rfl
@[simp] theorem State.countPair_pol (s : State) (i len : Nat) : (s.countPair i len).pol = s.pol := rfl
@[simp] theorem State.countPair_cps (s : State) (i len : Nat) : (s.countPair i len).cps = s.cps := rfl
@[simp] theorem State.countPair_glz (s : State) (i len : Nat) : (s.countPair i len).glz = s.glz := rfl
@[simp] theorem State.countPair_bur (s : State) (i len : Nat) : (s.countPair i len).bur = s.bur := rfl
@[simp] theorem State.countPair_tabs (s : State) (i len : Nat) : (s.countPair i len).tabs = s.tabs := rfl
@[simp] theorem State.countPair_fuses (s : State) (i len : Nat) : (s.countPair i len).fuses = s.fuses := rfl
@[simp] theorem State.countPair_sampBkt (s : State) (i len : Nat) : (s.countPair i len).sampBkt = s.sampBkt := rfl
@[simp] theorem State.countPair_sampLfsr (s : State) (i len : Nat) : (s.countPair i len).sampLfsr = s.sampLfsr := rfl
@[simp] theorem State.countPair_sampSeq (s : State) (i len : Nat) : (s.countPair i len).sampSeq = s.sampSeq := rfl
@[simp] theorem State.countPair_hbm (s : State) (i len : Nat) : (s.countPair i len).hbm = s.hbm := rfl
@[simp] theorem State.countPair_mgt (s : State) (i len : Nat) : (s.countPair i len).mgt = s.mgt := rfl
@[simp] theorem State.countPair_rst (s : State) (i len : Nat) : (s.countPair i len).rst = s.rst := rfl
@[simp] theorem State.countPair_refLost (s : State) (i len : Nat) : (s.countPair i len).refLost = s.refLost := rfl

/-! setGroup -/

@[simp] theorem State.setGroup_pending (s : State) (g : Nat) (x : GroupState) : (s.setGroup g x).pending = s.pending := rfl
@[simp] theorem State.setGroup_mode (s : State) (g : Nat) (x : GroupState) : (s.setGroup g x).mode = s.mode := rfl
@[simp] theorem State.setGroup_now (s : State) (g : Nat) (x : GroupState) : (s.setGroup g x).now = s.now := rfl
@[simp] theorem State.setGroup_ptp (s : State) (g : Nat) (x : GroupState) : (s.setGroup g x).ptp = s.ptp := rfl
@[simp] theorem State.setGroup_regs (s : State) (g : Nat) (x : GroupState) : (s.setGroup g x).regs = s.regs := rfl
@[simp] theorem State.setGroup_cnts (s : State) (g : Nat) (x : GroupState) : (s.setGroup g x).cnts = s.cnts := rfl
@[simp] theorem State.setGroup_latches (s : State) (g : Nat) (x : GroupState) : (s.setGroup g x).latches = s.latches := rfl
@[simp] theorem State.setGroup_out (s : State) (g : Nat) (x : GroupState) : (s.setGroup g x).out = s.out := rfl
@[simp] theorem State.setGroup_draws (s : State) (g : Nat) (x : GroupState) : (s.setGroup g x).draws = s.draws := rfl
@[simp] theorem State.setGroup_gen (s : State) (g : Nat) (x : GroupState) : (s.setGroup g x).gen = s.gen := rfl
@[simp] theorem State.setGroup_hif (s : State) (g : Nat) (x : GroupState) : (s.setGroup g x).hif = s.hif := rfl
@[simp] theorem State.setGroup_eic (s : State) (g : Nat) (x : GroupState) : (s.setGroup g x).eic = s.eic := rfl
@[simp] theorem State.setGroup_flt (s : State) (g : Nat) (x : GroupState) : (s.setGroup g x).flt = s.flt := rfl
@[simp] theorem State.setGroup_kiln (s : State) (g : Nat) (x : GroupState) : (s.setGroup g x).kiln = s.kiln := rfl
@[simp] theorem State.setGroup_prt (s : State) (g : Nat) (x : GroupState) : (s.setGroup g x).prt = s.prt := rfl
@[simp] theorem State.setGroup_frames (s : State) (g : Nat) (x : GroupState) : (s.setGroup g x).frames = s.frames := rfl
@[simp] theorem State.setGroup_nextFrame (s : State) (g : Nat) (x : GroupState) : (s.setGroup g x).nextFrame = s.nextFrame := rfl
@[simp] theorem State.setGroup_bpm (s : State) (g : Nat) (x : GroupState) : (s.setGroup g x).bpm = s.bpm := rfl
@[simp] theorem State.setGroup_fab (s : State) (g : Nat) (x : GroupState) : (s.setGroup g x).fab = s.fab := rfl
@[simp] theorem State.setGroup_sched (s : State) (g : Nat) (x : GroupState) : (s.setGroup g x).sched = s.sched := rfl
@[simp] theorem State.setGroup_pol (s : State) (g : Nat) (x : GroupState) : (s.setGroup g x).pol = s.pol := rfl
@[simp] theorem State.setGroup_cps (s : State) (g : Nat) (x : GroupState) : (s.setGroup g x).cps = s.cps := rfl
@[simp] theorem State.setGroup_glz (s : State) (g : Nat) (x : GroupState) : (s.setGroup g x).glz = s.glz := rfl
@[simp] theorem State.setGroup_bur (s : State) (g : Nat) (x : GroupState) : (s.setGroup g x).bur = s.bur := rfl
@[simp] theorem State.setGroup_tabs (s : State) (g : Nat) (x : GroupState) : (s.setGroup g x).tabs = s.tabs := rfl
@[simp] theorem State.setGroup_fuses (s : State) (g : Nat) (x : GroupState) : (s.setGroup g x).fuses = s.fuses := rfl
@[simp] theorem State.setGroup_sampBkt (s : State) (g : Nat) (x : GroupState) : (s.setGroup g x).sampBkt = s.sampBkt := rfl
@[simp] theorem State.setGroup_sampLfsr (s : State) (g : Nat) (x : GroupState) : (s.setGroup g x).sampLfsr = s.sampLfsr := rfl
@[simp] theorem State.setGroup_sampSeq (s : State) (g : Nat) (x : GroupState) : (s.setGroup g x).sampSeq = s.sampSeq := rfl
@[simp] theorem State.setGroup_hbm (s : State) (g : Nat) (x : GroupState) : (s.setGroup g x).hbm = s.hbm := rfl
@[simp] theorem State.setGroup_mgt (s : State) (g : Nat) (x : GroupState) : (s.setGroup g x).mgt = s.mgt := rfl
@[simp] theorem State.setGroup_pmc (s : State) (g : Nat) (x : GroupState) : (s.setGroup g x).pmc = s.pmc := rfl
@[simp] theorem State.setGroup_rst (s : State) (g : Nat) (x : GroupState) : (s.setGroup g x).rst = s.rst := rfl
@[simp] theorem State.setGroup_refLost (s : State) (g : Nat) (x : GroupState) : (s.setGroup g x).refLost = s.refLost := rfl

/-! setFsrc -/

@[simp] theorem State.setFsrc_pending (s : State) (n : Nat) (x : FaultSource) : (s.setFsrc n x).pending = s.pending := rfl
@[simp] theorem State.setFsrc_mode (s : State) (n : Nat) (x : FaultSource) : (s.setFsrc n x).mode = s.mode := rfl
@[simp] theorem State.setFsrc_now (s : State) (n : Nat) (x : FaultSource) : (s.setFsrc n x).now = s.now := rfl
@[simp] theorem State.setFsrc_ptp (s : State) (n : Nat) (x : FaultSource) : (s.setFsrc n x).ptp = s.ptp := rfl
@[simp] theorem State.setFsrc_regs (s : State) (n : Nat) (x : FaultSource) : (s.setFsrc n x).regs = s.regs := rfl
@[simp] theorem State.setFsrc_cnts (s : State) (n : Nat) (x : FaultSource) : (s.setFsrc n x).cnts = s.cnts := rfl
@[simp] theorem State.setFsrc_latches (s : State) (n : Nat) (x : FaultSource) : (s.setFsrc n x).latches = s.latches := rfl
@[simp] theorem State.setFsrc_out (s : State) (n : Nat) (x : FaultSource) : (s.setFsrc n x).out = s.out := rfl
@[simp] theorem State.setFsrc_draws (s : State) (n : Nat) (x : FaultSource) : (s.setFsrc n x).draws = s.draws := rfl
@[simp] theorem State.setFsrc_gen (s : State) (n : Nat) (x : FaultSource) : (s.setFsrc n x).gen = s.gen := rfl
@[simp] theorem State.setFsrc_hif (s : State) (n : Nat) (x : FaultSource) : (s.setFsrc n x).hif = s.hif := rfl
@[simp] theorem State.setFsrc_eic (s : State) (n : Nat) (x : FaultSource) : (s.setFsrc n x).eic = s.eic := rfl
@[simp] theorem State.setFsrc_kiln (s : State) (n : Nat) (x : FaultSource) : (s.setFsrc n x).kiln = s.kiln := rfl
@[simp] theorem State.setFsrc_units (s : State) (n : Nat) (x : FaultSource) : (s.setFsrc n x).units = s.units := rfl
@[simp] theorem State.setFsrc_prt (s : State) (n : Nat) (x : FaultSource) : (s.setFsrc n x).prt = s.prt := rfl
@[simp] theorem State.setFsrc_frames (s : State) (n : Nat) (x : FaultSource) : (s.setFsrc n x).frames = s.frames := rfl
@[simp] theorem State.setFsrc_nextFrame (s : State) (n : Nat) (x : FaultSource) : (s.setFsrc n x).nextFrame = s.nextFrame := rfl
@[simp] theorem State.setFsrc_bpm (s : State) (n : Nat) (x : FaultSource) : (s.setFsrc n x).bpm = s.bpm := rfl
@[simp] theorem State.setFsrc_fab (s : State) (n : Nat) (x : FaultSource) : (s.setFsrc n x).fab = s.fab := rfl
@[simp] theorem State.setFsrc_sched (s : State) (n : Nat) (x : FaultSource) : (s.setFsrc n x).sched = s.sched := rfl
@[simp] theorem State.setFsrc_pol (s : State) (n : Nat) (x : FaultSource) : (s.setFsrc n x).pol = s.pol := rfl
@[simp] theorem State.setFsrc_cps (s : State) (n : Nat) (x : FaultSource) : (s.setFsrc n x).cps = s.cps := rfl
@[simp] theorem State.setFsrc_glz (s : State) (n : Nat) (x : FaultSource) : (s.setFsrc n x).glz = s.glz := rfl
@[simp] theorem State.setFsrc_bur (s : State) (n : Nat) (x : FaultSource) : (s.setFsrc n x).bur = s.bur := rfl
@[simp] theorem State.setFsrc_tabs (s : State) (n : Nat) (x : FaultSource) : (s.setFsrc n x).tabs = s.tabs := rfl
@[simp] theorem State.setFsrc_fuses (s : State) (n : Nat) (x : FaultSource) : (s.setFsrc n x).fuses = s.fuses := rfl
@[simp] theorem State.setFsrc_sampBkt (s : State) (n : Nat) (x : FaultSource) : (s.setFsrc n x).sampBkt = s.sampBkt := rfl
@[simp] theorem State.setFsrc_sampLfsr (s : State) (n : Nat) (x : FaultSource) : (s.setFsrc n x).sampLfsr = s.sampLfsr := rfl
@[simp] theorem State.setFsrc_sampSeq (s : State) (n : Nat) (x : FaultSource) : (s.setFsrc n x).sampSeq = s.sampSeq := rfl
@[simp] theorem State.setFsrc_hbm (s : State) (n : Nat) (x : FaultSource) : (s.setFsrc n x).hbm = s.hbm := rfl
@[simp] theorem State.setFsrc_mgt (s : State) (n : Nat) (x : FaultSource) : (s.setFsrc n x).mgt = s.mgt := rfl
@[simp] theorem State.setFsrc_pmc (s : State) (n : Nat) (x : FaultSource) : (s.setFsrc n x).pmc = s.pmc := rfl
@[simp] theorem State.setFsrc_rst (s : State) (n : Nat) (x : FaultSource) : (s.setFsrc n x).rst = s.rst := rfl
@[simp] theorem State.setFsrc_refLost (s : State) (n : Nat) (x : FaultSource) : (s.setFsrc n x).refLost = s.refLost := rfl

/-! setFrame -/

@[simp] theorem State.setFrame_pending (s : State) (f : Nat) (x : Frame) : (s.setFrame f x).pending = s.pending := rfl
@[simp] theorem State.setFrame_mode (s : State) (f : Nat) (x : Frame) : (s.setFrame f x).mode = s.mode := rfl
@[simp] theorem State.setFrame_now (s : State) (f : Nat) (x : Frame) : (s.setFrame f x).now = s.now := rfl
@[simp] theorem State.setFrame_ptp (s : State) (f : Nat) (x : Frame) : (s.setFrame f x).ptp = s.ptp := rfl
@[simp] theorem State.setFrame_regs (s : State) (f : Nat) (x : Frame) : (s.setFrame f x).regs = s.regs := rfl
@[simp] theorem State.setFrame_cnts (s : State) (f : Nat) (x : Frame) : (s.setFrame f x).cnts = s.cnts := rfl
@[simp] theorem State.setFrame_latches (s : State) (f : Nat) (x : Frame) : (s.setFrame f x).latches = s.latches := rfl
@[simp] theorem State.setFrame_out (s : State) (f : Nat) (x : Frame) : (s.setFrame f x).out = s.out := rfl
@[simp] theorem State.setFrame_draws (s : State) (f : Nat) (x : Frame) : (s.setFrame f x).draws = s.draws := rfl
@[simp] theorem State.setFrame_gen (s : State) (f : Nat) (x : Frame) : (s.setFrame f x).gen = s.gen := rfl
@[simp] theorem State.setFrame_hif (s : State) (f : Nat) (x : Frame) : (s.setFrame f x).hif = s.hif := rfl
@[simp] theorem State.setFrame_eic (s : State) (f : Nat) (x : Frame) : (s.setFrame f x).eic = s.eic := rfl
@[simp] theorem State.setFrame_flt (s : State) (f : Nat) (x : Frame) : (s.setFrame f x).flt = s.flt := rfl
@[simp] theorem State.setFrame_kiln (s : State) (f : Nat) (x : Frame) : (s.setFrame f x).kiln = s.kiln := rfl
@[simp] theorem State.setFrame_units (s : State) (f : Nat) (x : Frame) : (s.setFrame f x).units = s.units := rfl
@[simp] theorem State.setFrame_prt (s : State) (f : Nat) (x : Frame) : (s.setFrame f x).prt = s.prt := rfl
@[simp] theorem State.setFrame_nextFrame (s : State) (f : Nat) (x : Frame) : (s.setFrame f x).nextFrame = s.nextFrame := rfl
@[simp] theorem State.setFrame_bpm (s : State) (f : Nat) (x : Frame) : (s.setFrame f x).bpm = s.bpm := rfl
@[simp] theorem State.setFrame_fab (s : State) (f : Nat) (x : Frame) : (s.setFrame f x).fab = s.fab := rfl
@[simp] theorem State.setFrame_sched (s : State) (f : Nat) (x : Frame) : (s.setFrame f x).sched = s.sched := rfl
@[simp] theorem State.setFrame_pol (s : State) (f : Nat) (x : Frame) : (s.setFrame f x).pol = s.pol := rfl
@[simp] theorem State.setFrame_cps (s : State) (f : Nat) (x : Frame) : (s.setFrame f x).cps = s.cps := rfl
@[simp] theorem State.setFrame_glz (s : State) (f : Nat) (x : Frame) : (s.setFrame f x).glz = s.glz := rfl
@[simp] theorem State.setFrame_bur (s : State) (f : Nat) (x : Frame) : (s.setFrame f x).bur = s.bur := rfl
@[simp] theorem State.setFrame_tabs (s : State) (f : Nat) (x : Frame) : (s.setFrame f x).tabs = s.tabs := rfl
@[simp] theorem State.setFrame_fuses (s : State) (f : Nat) (x : Frame) : (s.setFrame f x).fuses = s.fuses := rfl
@[simp] theorem State.setFrame_sampBkt (s : State) (f : Nat) (x : Frame) : (s.setFrame f x).sampBkt = s.sampBkt := rfl
@[simp] theorem State.setFrame_sampLfsr (s : State) (f : Nat) (x : Frame) : (s.setFrame f x).sampLfsr = s.sampLfsr := rfl
@[simp] theorem State.setFrame_sampSeq (s : State) (f : Nat) (x : Frame) : (s.setFrame f x).sampSeq = s.sampSeq := rfl
@[simp] theorem State.setFrame_hbm (s : State) (f : Nat) (x : Frame) : (s.setFrame f x).hbm = s.hbm := rfl
@[simp] theorem State.setFrame_mgt (s : State) (f : Nat) (x : Frame) : (s.setFrame f x).mgt = s.mgt := rfl
@[simp] theorem State.setFrame_pmc (s : State) (f : Nat) (x : Frame) : (s.setFrame f x).pmc = s.pmc := rfl
@[simp] theorem State.setFrame_rst (s : State) (f : Nat) (x : Frame) : (s.setFrame f x).rst = s.rst := rfl
@[simp] theorem State.setFrame_refLost (s : State) (f : Nat) (x : Frame) : (s.setFrame f x).refLost = s.refLost := rfl

/-! modFrame -/

@[simp] theorem State.modFrame_pending (s : State) (f : Nat) (g : Frame → Frame) : (s.modFrame f g).pending = s.pending := rfl
@[simp] theorem State.modFrame_mode (s : State) (f : Nat) (g : Frame → Frame) : (s.modFrame f g).mode = s.mode := rfl
@[simp] theorem State.modFrame_now (s : State) (f : Nat) (g : Frame → Frame) : (s.modFrame f g).now = s.now := rfl
@[simp] theorem State.modFrame_ptp (s : State) (f : Nat) (g : Frame → Frame) : (s.modFrame f g).ptp = s.ptp := rfl
@[simp] theorem State.modFrame_regs (s : State) (f : Nat) (g : Frame → Frame) : (s.modFrame f g).regs = s.regs := rfl
@[simp] theorem State.modFrame_cnts (s : State) (f : Nat) (g : Frame → Frame) : (s.modFrame f g).cnts = s.cnts := rfl
@[simp] theorem State.modFrame_latches (s : State) (f : Nat) (g : Frame → Frame) : (s.modFrame f g).latches = s.latches := rfl
@[simp] theorem State.modFrame_out (s : State) (f : Nat) (g : Frame → Frame) : (s.modFrame f g).out = s.out := rfl
@[simp] theorem State.modFrame_draws (s : State) (f : Nat) (g : Frame → Frame) : (s.modFrame f g).draws = s.draws := rfl
@[simp] theorem State.modFrame_gen (s : State) (f : Nat) (g : Frame → Frame) : (s.modFrame f g).gen = s.gen := rfl
@[simp] theorem State.modFrame_hif (s : State) (f : Nat) (g : Frame → Frame) : (s.modFrame f g).hif = s.hif := rfl
@[simp] theorem State.modFrame_eic (s : State) (f : Nat) (g : Frame → Frame) : (s.modFrame f g).eic = s.eic := rfl
@[simp] theorem State.modFrame_flt (s : State) (f : Nat) (g : Frame → Frame) : (s.modFrame f g).flt = s.flt := rfl
@[simp] theorem State.modFrame_kiln (s : State) (f : Nat) (g : Frame → Frame) : (s.modFrame f g).kiln = s.kiln := rfl
@[simp] theorem State.modFrame_units (s : State) (f : Nat) (g : Frame → Frame) : (s.modFrame f g).units = s.units := rfl
@[simp] theorem State.modFrame_prt (s : State) (f : Nat) (g : Frame → Frame) : (s.modFrame f g).prt = s.prt := rfl
@[simp] theorem State.modFrame_nextFrame (s : State) (f : Nat) (g : Frame → Frame) : (s.modFrame f g).nextFrame = s.nextFrame := rfl
@[simp] theorem State.modFrame_bpm (s : State) (f : Nat) (g : Frame → Frame) : (s.modFrame f g).bpm = s.bpm := rfl
@[simp] theorem State.modFrame_fab (s : State) (f : Nat) (g : Frame → Frame) : (s.modFrame f g).fab = s.fab := rfl
@[simp] theorem State.modFrame_sched (s : State) (f : Nat) (g : Frame → Frame) : (s.modFrame f g).sched = s.sched := rfl
@[simp] theorem State.modFrame_pol (s : State) (f : Nat) (g : Frame → Frame) : (s.modFrame f g).pol = s.pol := rfl
@[simp] theorem State.modFrame_cps (s : State) (f : Nat) (g : Frame → Frame) : (s.modFrame f g).cps = s.cps := rfl
@[simp] theorem State.modFrame_glz (s : State) (f : Nat) (g : Frame → Frame) : (s.modFrame f g).glz = s.glz := rfl
@[simp] theorem State.modFrame_bur (s : State) (f : Nat) (g : Frame → Frame) : (s.modFrame f g).bur = s.bur := rfl
@[simp] theorem State.modFrame_tabs (s : State) (f : Nat) (g : Frame → Frame) : (s.modFrame f g).tabs = s.tabs := rfl
@[simp] theorem State.modFrame_fuses (s : State) (f : Nat) (g : Frame → Frame) : (s.modFrame f g).fuses = s.fuses := rfl
@[simp] theorem State.modFrame_sampBkt (s : State) (f : Nat) (g : Frame → Frame) : (s.modFrame f g).sampBkt = s.sampBkt := rfl
@[simp] theorem State.modFrame_sampLfsr (s : State) (f : Nat) (g : Frame → Frame) : (s.modFrame f g).sampLfsr = s.sampLfsr := rfl
@[simp] theorem State.modFrame_sampSeq (s : State) (f : Nat) (g : Frame → Frame) : (s.modFrame f g).sampSeq = s.sampSeq := rfl
@[simp] theorem State.modFrame_hbm (s : State) (f : Nat) (g : Frame → Frame) : (s.modFrame f g).hbm = s.hbm := rfl
@[simp] theorem State.modFrame_mgt (s : State) (f : Nat) (g : Frame → Frame) : (s.modFrame f g).mgt = s.mgt := rfl
@[simp] theorem State.modFrame_pmc (s : State) (f : Nat) (g : Frame → Frame) : (s.modFrame f g).pmc = s.pmc := rfl
@[simp] theorem State.modFrame_rst (s : State) (f : Nat) (g : Frame → Frame) : (s.modFrame f g).rst = s.rst := rfl
@[simp] theorem State.modFrame_refLost (s : State) (f : Nat) (g : Frame → Frame) : (s.modFrame f g).refLost = s.refLost := rfl

/-! setSa -/

@[simp] theorem State.setSa_pending (s : State) (i : Nat) (x : Option Sa) : (s.setSa i x).pending = s.pending := rfl
@[simp] theorem State.setSa_mode (s : State) (i : Nat) (x : Option Sa) : (s.setSa i x).mode = s.mode := rfl
@[simp] theorem State.setSa_now (s : State) (i : Nat) (x : Option Sa) : (s.setSa i x).now = s.now := rfl
@[simp] theorem State.setSa_ptp (s : State) (i : Nat) (x : Option Sa) : (s.setSa i x).ptp = s.ptp := rfl
@[simp] theorem State.setSa_regs (s : State) (i : Nat) (x : Option Sa) : (s.setSa i x).regs = s.regs := rfl
@[simp] theorem State.setSa_cnts (s : State) (i : Nat) (x : Option Sa) : (s.setSa i x).cnts = s.cnts := rfl
@[simp] theorem State.setSa_latches (s : State) (i : Nat) (x : Option Sa) : (s.setSa i x).latches = s.latches := rfl
@[simp] theorem State.setSa_out (s : State) (i : Nat) (x : Option Sa) : (s.setSa i x).out = s.out := rfl
@[simp] theorem State.setSa_draws (s : State) (i : Nat) (x : Option Sa) : (s.setSa i x).draws = s.draws := rfl
@[simp] theorem State.setSa_gen (s : State) (i : Nat) (x : Option Sa) : (s.setSa i x).gen = s.gen := rfl
@[simp] theorem State.setSa_hif (s : State) (i : Nat) (x : Option Sa) : (s.setSa i x).hif = s.hif := rfl
@[simp] theorem State.setSa_eic (s : State) (i : Nat) (x : Option Sa) : (s.setSa i x).eic = s.eic := rfl
@[simp] theorem State.setSa_flt (s : State) (i : Nat) (x : Option Sa) : (s.setSa i x).flt = s.flt := rfl
@[simp] theorem State.setSa_kiln (s : State) (i : Nat) (x : Option Sa) : (s.setSa i x).kiln = s.kiln := rfl
@[simp] theorem State.setSa_units (s : State) (i : Nat) (x : Option Sa) : (s.setSa i x).units = s.units := rfl
@[simp] theorem State.setSa_prt (s : State) (i : Nat) (x : Option Sa) : (s.setSa i x).prt = s.prt := rfl
@[simp] theorem State.setSa_frames (s : State) (i : Nat) (x : Option Sa) : (s.setSa i x).frames = s.frames := rfl
@[simp] theorem State.setSa_nextFrame (s : State) (i : Nat) (x : Option Sa) : (s.setSa i x).nextFrame = s.nextFrame := rfl
@[simp] theorem State.setSa_bpm (s : State) (i : Nat) (x : Option Sa) : (s.setSa i x).bpm = s.bpm := rfl
@[simp] theorem State.setSa_fab (s : State) (i : Nat) (x : Option Sa) : (s.setSa i x).fab = s.fab := rfl
@[simp] theorem State.setSa_sched (s : State) (i : Nat) (x : Option Sa) : (s.setSa i x).sched = s.sched := rfl
@[simp] theorem State.setSa_pol (s : State) (i : Nat) (x : Option Sa) : (s.setSa i x).pol = s.pol := rfl
@[simp] theorem State.setSa_cps (s : State) (i : Nat) (x : Option Sa) : (s.setSa i x).cps = s.cps := rfl
@[simp] theorem State.setSa_bur (s : State) (i : Nat) (x : Option Sa) : (s.setSa i x).bur = s.bur := rfl
@[simp] theorem State.setSa_tabs (s : State) (i : Nat) (x : Option Sa) : (s.setSa i x).tabs = s.tabs := rfl
@[simp] theorem State.setSa_fuses (s : State) (i : Nat) (x : Option Sa) : (s.setSa i x).fuses = s.fuses := rfl
@[simp] theorem State.setSa_sampBkt (s : State) (i : Nat) (x : Option Sa) : (s.setSa i x).sampBkt = s.sampBkt := rfl
@[simp] theorem State.setSa_sampLfsr (s : State) (i : Nat) (x : Option Sa) : (s.setSa i x).sampLfsr = s.sampLfsr := rfl
@[simp] theorem State.setSa_sampSeq (s : State) (i : Nat) (x : Option Sa) : (s.setSa i x).sampSeq = s.sampSeq := rfl
@[simp] theorem State.setSa_hbm (s : State) (i : Nat) (x : Option Sa) : (s.setSa i x).hbm = s.hbm := rfl
@[simp] theorem State.setSa_mgt (s : State) (i : Nat) (x : Option Sa) : (s.setSa i x).mgt = s.mgt := rfl
@[simp] theorem State.setSa_pmc (s : State) (i : Nat) (x : Option Sa) : (s.setSa i x).pmc = s.pmc := rfl
@[simp] theorem State.setSa_rst (s : State) (i : Nat) (x : Option Sa) : (s.setSa i x).rst = s.rst := rfl
@[simp] theorem State.setSa_refLost (s : State) (i : Nat) (x : Option Sa) : (s.setSa i x).refLost = s.refLost := rfl

/-! setCirState -/

@[simp] theorem State.setCirState_pending (s : State) (c : Nat) (x : CirState) : (s.setCirState c x).pending = s.pending := rfl
@[simp] theorem State.setCirState_mode (s : State) (c : Nat) (x : CirState) : (s.setCirState c x).mode = s.mode := rfl
@[simp] theorem State.setCirState_now (s : State) (c : Nat) (x : CirState) : (s.setCirState c x).now = s.now := rfl
@[simp] theorem State.setCirState_ptp (s : State) (c : Nat) (x : CirState) : (s.setCirState c x).ptp = s.ptp := rfl
@[simp] theorem State.setCirState_regs (s : State) (c : Nat) (x : CirState) : (s.setCirState c x).regs = s.regs := rfl
@[simp] theorem State.setCirState_cnts (s : State) (c : Nat) (x : CirState) : (s.setCirState c x).cnts = s.cnts := rfl
@[simp] theorem State.setCirState_latches (s : State) (c : Nat) (x : CirState) : (s.setCirState c x).latches = s.latches := rfl
@[simp] theorem State.setCirState_out (s : State) (c : Nat) (x : CirState) : (s.setCirState c x).out = s.out := rfl
@[simp] theorem State.setCirState_draws (s : State) (c : Nat) (x : CirState) : (s.setCirState c x).draws = s.draws := rfl
@[simp] theorem State.setCirState_gen (s : State) (c : Nat) (x : CirState) : (s.setCirState c x).gen = s.gen := rfl
@[simp] theorem State.setCirState_hif (s : State) (c : Nat) (x : CirState) : (s.setCirState c x).hif = s.hif := rfl
@[simp] theorem State.setCirState_eic (s : State) (c : Nat) (x : CirState) : (s.setCirState c x).eic = s.eic := rfl
@[simp] theorem State.setCirState_flt (s : State) (c : Nat) (x : CirState) : (s.setCirState c x).flt = s.flt := rfl
@[simp] theorem State.setCirState_kiln (s : State) (c : Nat) (x : CirState) : (s.setCirState c x).kiln = s.kiln := rfl
@[simp] theorem State.setCirState_units (s : State) (c : Nat) (x : CirState) : (s.setCirState c x).units = s.units := rfl
@[simp] theorem State.setCirState_prt (s : State) (c : Nat) (x : CirState) : (s.setCirState c x).prt = s.prt := rfl
@[simp] theorem State.setCirState_frames (s : State) (c : Nat) (x : CirState) : (s.setCirState c x).frames = s.frames := rfl
@[simp] theorem State.setCirState_nextFrame (s : State) (c : Nat) (x : CirState) : (s.setCirState c x).nextFrame = s.nextFrame := rfl
@[simp] theorem State.setCirState_bpm (s : State) (c : Nat) (x : CirState) : (s.setCirState c x).bpm = s.bpm := rfl
@[simp] theorem State.setCirState_fab (s : State) (c : Nat) (x : CirState) : (s.setCirState c x).fab = s.fab := rfl
@[simp] theorem State.setCirState_sched (s : State) (c : Nat) (x : CirState) : (s.setCirState c x).sched = s.sched := rfl
@[simp] theorem State.setCirState_pol (s : State) (c : Nat) (x : CirState) : (s.setCirState c x).pol = s.pol := rfl
@[simp] theorem State.setCirState_cps (s : State) (c : Nat) (x : CirState) : (s.setCirState c x).cps = s.cps := rfl
@[simp] theorem State.setCirState_bur (s : State) (c : Nat) (x : CirState) : (s.setCirState c x).bur = s.bur := rfl
@[simp] theorem State.setCirState_tabs (s : State) (c : Nat) (x : CirState) : (s.setCirState c x).tabs = s.tabs := rfl
@[simp] theorem State.setCirState_fuses (s : State) (c : Nat) (x : CirState) : (s.setCirState c x).fuses = s.fuses := rfl
@[simp] theorem State.setCirState_sampBkt (s : State) (c : Nat) (x : CirState) : (s.setCirState c x).sampBkt = s.sampBkt := rfl
@[simp] theorem State.setCirState_sampLfsr (s : State) (c : Nat) (x : CirState) : (s.setCirState c x).sampLfsr = s.sampLfsr := rfl
@[simp] theorem State.setCirState_sampSeq (s : State) (c : Nat) (x : CirState) : (s.setCirState c x).sampSeq = s.sampSeq := rfl
@[simp] theorem State.setCirState_hbm (s : State) (c : Nat) (x : CirState) : (s.setCirState c x).hbm = s.hbm := rfl
@[simp] theorem State.setCirState_mgt (s : State) (c : Nat) (x : CirState) : (s.setCirState c x).mgt = s.mgt := rfl
@[simp] theorem State.setCirState_pmc (s : State) (c : Nat) (x : CirState) : (s.setCirState c x).pmc = s.pmc := rfl
@[simp] theorem State.setCirState_rst (s : State) (c : Nat) (x : CirState) : (s.setCirState c x).rst = s.rst := rfl
@[simp] theorem State.setCirState_refLost (s : State) (c : Nat) (x : CirState) : (s.setCirState c x).refLost = s.refLost := rfl

/-! setCirVers -/

@[simp] theorem State.setCirVers_pending (s : State) (c : Nat) (l : List CirVer) : (s.setCirVers c l).pending = s.pending := rfl
@[simp] theorem State.setCirVers_mode (s : State) (c : Nat) (l : List CirVer) : (s.setCirVers c l).mode = s.mode := rfl
@[simp] theorem State.setCirVers_now (s : State) (c : Nat) (l : List CirVer) : (s.setCirVers c l).now = s.now := rfl
@[simp] theorem State.setCirVers_ptp (s : State) (c : Nat) (l : List CirVer) : (s.setCirVers c l).ptp = s.ptp := rfl
@[simp] theorem State.setCirVers_regs (s : State) (c : Nat) (l : List CirVer) : (s.setCirVers c l).regs = s.regs := rfl
@[simp] theorem State.setCirVers_cnts (s : State) (c : Nat) (l : List CirVer) : (s.setCirVers c l).cnts = s.cnts := rfl
@[simp] theorem State.setCirVers_latches (s : State) (c : Nat) (l : List CirVer) : (s.setCirVers c l).latches = s.latches := rfl
@[simp] theorem State.setCirVers_out (s : State) (c : Nat) (l : List CirVer) : (s.setCirVers c l).out = s.out := rfl
@[simp] theorem State.setCirVers_draws (s : State) (c : Nat) (l : List CirVer) : (s.setCirVers c l).draws = s.draws := rfl
@[simp] theorem State.setCirVers_gen (s : State) (c : Nat) (l : List CirVer) : (s.setCirVers c l).gen = s.gen := rfl
@[simp] theorem State.setCirVers_hif (s : State) (c : Nat) (l : List CirVer) : (s.setCirVers c l).hif = s.hif := rfl
@[simp] theorem State.setCirVers_eic (s : State) (c : Nat) (l : List CirVer) : (s.setCirVers c l).eic = s.eic := rfl
@[simp] theorem State.setCirVers_flt (s : State) (c : Nat) (l : List CirVer) : (s.setCirVers c l).flt = s.flt := rfl
@[simp] theorem State.setCirVers_kiln (s : State) (c : Nat) (l : List CirVer) : (s.setCirVers c l).kiln = s.kiln := rfl
@[simp] theorem State.setCirVers_units (s : State) (c : Nat) (l : List CirVer) : (s.setCirVers c l).units = s.units := rfl
@[simp] theorem State.setCirVers_prt (s : State) (c : Nat) (l : List CirVer) : (s.setCirVers c l).prt = s.prt := rfl
@[simp] theorem State.setCirVers_frames (s : State) (c : Nat) (l : List CirVer) : (s.setCirVers c l).frames = s.frames := rfl
@[simp] theorem State.setCirVers_nextFrame (s : State) (c : Nat) (l : List CirVer) : (s.setCirVers c l).nextFrame = s.nextFrame := rfl
@[simp] theorem State.setCirVers_bpm (s : State) (c : Nat) (l : List CirVer) : (s.setCirVers c l).bpm = s.bpm := rfl
@[simp] theorem State.setCirVers_fab (s : State) (c : Nat) (l : List CirVer) : (s.setCirVers c l).fab = s.fab := rfl
@[simp] theorem State.setCirVers_sched (s : State) (c : Nat) (l : List CirVer) : (s.setCirVers c l).sched = s.sched := rfl
@[simp] theorem State.setCirVers_pol (s : State) (c : Nat) (l : List CirVer) : (s.setCirVers c l).pol = s.pol := rfl
@[simp] theorem State.setCirVers_cps (s : State) (c : Nat) (l : List CirVer) : (s.setCirVers c l).cps = s.cps := rfl
@[simp] theorem State.setCirVers_bur (s : State) (c : Nat) (l : List CirVer) : (s.setCirVers c l).bur = s.bur := rfl
@[simp] theorem State.setCirVers_tabs (s : State) (c : Nat) (l : List CirVer) : (s.setCirVers c l).tabs = s.tabs := rfl
@[simp] theorem State.setCirVers_fuses (s : State) (c : Nat) (l : List CirVer) : (s.setCirVers c l).fuses = s.fuses := rfl
@[simp] theorem State.setCirVers_sampBkt (s : State) (c : Nat) (l : List CirVer) : (s.setCirVers c l).sampBkt = s.sampBkt := rfl
@[simp] theorem State.setCirVers_sampLfsr (s : State) (c : Nat) (l : List CirVer) : (s.setCirVers c l).sampLfsr = s.sampLfsr := rfl
@[simp] theorem State.setCirVers_sampSeq (s : State) (c : Nat) (l : List CirVer) : (s.setCirVers c l).sampSeq = s.sampSeq := rfl
@[simp] theorem State.setCirVers_hbm (s : State) (c : Nat) (l : List CirVer) : (s.setCirVers c l).hbm = s.hbm := rfl
@[simp] theorem State.setCirVers_mgt (s : State) (c : Nat) (l : List CirVer) : (s.setCirVers c l).mgt = s.mgt := rfl
@[simp] theorem State.setCirVers_pmc (s : State) (c : Nat) (l : List CirVer) : (s.setCirVers c l).pmc = s.pmc := rfl
@[simp] theorem State.setCirVers_rst (s : State) (c : Nat) (l : List CirVer) : (s.setCirVers c l).rst = s.rst := rfl
@[simp] theorem State.setCirVers_refLost (s : State) (c : Nat) (l : List CirVer) : (s.setCirVers c l).refLost = s.refLost := rfl

/-! setVoq -/

@[simp] theorem State.setVoq_pending (s : State) (k : Nat) (v : Voq) : (s.setVoq k v).pending = s.pending := rfl
@[simp] theorem State.setVoq_mode (s : State) (k : Nat) (v : Voq) : (s.setVoq k v).mode = s.mode := rfl
@[simp] theorem State.setVoq_now (s : State) (k : Nat) (v : Voq) : (s.setVoq k v).now = s.now := rfl
@[simp] theorem State.setVoq_ptp (s : State) (k : Nat) (v : Voq) : (s.setVoq k v).ptp = s.ptp := rfl
@[simp] theorem State.setVoq_regs (s : State) (k : Nat) (v : Voq) : (s.setVoq k v).regs = s.regs := rfl
@[simp] theorem State.setVoq_cnts (s : State) (k : Nat) (v : Voq) : (s.setVoq k v).cnts = s.cnts := rfl
@[simp] theorem State.setVoq_latches (s : State) (k : Nat) (v : Voq) : (s.setVoq k v).latches = s.latches := rfl
@[simp] theorem State.setVoq_out (s : State) (k : Nat) (v : Voq) : (s.setVoq k v).out = s.out := rfl
@[simp] theorem State.setVoq_draws (s : State) (k : Nat) (v : Voq) : (s.setVoq k v).draws = s.draws := rfl
@[simp] theorem State.setVoq_gen (s : State) (k : Nat) (v : Voq) : (s.setVoq k v).gen = s.gen := rfl
@[simp] theorem State.setVoq_hif (s : State) (k : Nat) (v : Voq) : (s.setVoq k v).hif = s.hif := rfl
@[simp] theorem State.setVoq_eic (s : State) (k : Nat) (v : Voq) : (s.setVoq k v).eic = s.eic := rfl
@[simp] theorem State.setVoq_flt (s : State) (k : Nat) (v : Voq) : (s.setVoq k v).flt = s.flt := rfl
@[simp] theorem State.setVoq_kiln (s : State) (k : Nat) (v : Voq) : (s.setVoq k v).kiln = s.kiln := rfl
@[simp] theorem State.setVoq_units (s : State) (k : Nat) (v : Voq) : (s.setVoq k v).units = s.units := rfl
@[simp] theorem State.setVoq_prt (s : State) (k : Nat) (v : Voq) : (s.setVoq k v).prt = s.prt := rfl
@[simp] theorem State.setVoq_frames (s : State) (k : Nat) (v : Voq) : (s.setVoq k v).frames = s.frames := rfl
@[simp] theorem State.setVoq_nextFrame (s : State) (k : Nat) (v : Voq) : (s.setVoq k v).nextFrame = s.nextFrame := rfl
@[simp] theorem State.setVoq_fab (s : State) (k : Nat) (v : Voq) : (s.setVoq k v).fab = s.fab := rfl
@[simp] theorem State.setVoq_sched (s : State) (k : Nat) (v : Voq) : (s.setVoq k v).sched = s.sched := rfl
@[simp] theorem State.setVoq_pol (s : State) (k : Nat) (v : Voq) : (s.setVoq k v).pol = s.pol := rfl
@[simp] theorem State.setVoq_cps (s : State) (k : Nat) (v : Voq) : (s.setVoq k v).cps = s.cps := rfl
@[simp] theorem State.setVoq_glz (s : State) (k : Nat) (v : Voq) : (s.setVoq k v).glz = s.glz := rfl
@[simp] theorem State.setVoq_bur (s : State) (k : Nat) (v : Voq) : (s.setVoq k v).bur = s.bur := rfl
@[simp] theorem State.setVoq_tabs (s : State) (k : Nat) (v : Voq) : (s.setVoq k v).tabs = s.tabs := rfl
@[simp] theorem State.setVoq_fuses (s : State) (k : Nat) (v : Voq) : (s.setVoq k v).fuses = s.fuses := rfl
@[simp] theorem State.setVoq_sampBkt (s : State) (k : Nat) (v : Voq) : (s.setVoq k v).sampBkt = s.sampBkt := rfl
@[simp] theorem State.setVoq_sampLfsr (s : State) (k : Nat) (v : Voq) : (s.setVoq k v).sampLfsr = s.sampLfsr := rfl
@[simp] theorem State.setVoq_sampSeq (s : State) (k : Nat) (v : Voq) : (s.setVoq k v).sampSeq = s.sampSeq := rfl
@[simp] theorem State.setVoq_hbm (s : State) (k : Nat) (v : Voq) : (s.setVoq k v).hbm = s.hbm := rfl
@[simp] theorem State.setVoq_mgt (s : State) (k : Nat) (v : Voq) : (s.setVoq k v).mgt = s.mgt := rfl
@[simp] theorem State.setVoq_pmc (s : State) (k : Nat) (v : Voq) : (s.setVoq k v).pmc = s.pmc := rfl
@[simp] theorem State.setVoq_rst (s : State) (k : Nat) (v : Voq) : (s.setVoq k v).rst = s.rst := rfl
@[simp] theorem State.setVoq_refLost (s : State) (k : Nat) (v : Voq) : (s.setVoq k v).refLost = s.refLost := rfl

/-! setClaims -/

@[simp] theorem State.setClaims_pending (s : State) (l : List Claim) : (s.setClaims l).pending = s.pending := rfl
@[simp] theorem State.setClaims_mode (s : State) (l : List Claim) : (s.setClaims l).mode = s.mode := rfl
@[simp] theorem State.setClaims_now (s : State) (l : List Claim) : (s.setClaims l).now = s.now := rfl
@[simp] theorem State.setClaims_ptp (s : State) (l : List Claim) : (s.setClaims l).ptp = s.ptp := rfl
@[simp] theorem State.setClaims_regs (s : State) (l : List Claim) : (s.setClaims l).regs = s.regs := rfl
@[simp] theorem State.setClaims_cnts (s : State) (l : List Claim) : (s.setClaims l).cnts = s.cnts := rfl
@[simp] theorem State.setClaims_latches (s : State) (l : List Claim) : (s.setClaims l).latches = s.latches := rfl
@[simp] theorem State.setClaims_out (s : State) (l : List Claim) : (s.setClaims l).out = s.out := rfl
@[simp] theorem State.setClaims_draws (s : State) (l : List Claim) : (s.setClaims l).draws = s.draws := rfl
@[simp] theorem State.setClaims_gen (s : State) (l : List Claim) : (s.setClaims l).gen = s.gen := rfl
@[simp] theorem State.setClaims_hif (s : State) (l : List Claim) : (s.setClaims l).hif = s.hif := rfl
@[simp] theorem State.setClaims_eic (s : State) (l : List Claim) : (s.setClaims l).eic = s.eic := rfl
@[simp] theorem State.setClaims_flt (s : State) (l : List Claim) : (s.setClaims l).flt = s.flt := rfl
@[simp] theorem State.setClaims_kiln (s : State) (l : List Claim) : (s.setClaims l).kiln = s.kiln := rfl
@[simp] theorem State.setClaims_units (s : State) (l : List Claim) : (s.setClaims l).units = s.units := rfl
@[simp] theorem State.setClaims_prt (s : State) (l : List Claim) : (s.setClaims l).prt = s.prt := rfl
@[simp] theorem State.setClaims_frames (s : State) (l : List Claim) : (s.setClaims l).frames = s.frames := rfl
@[simp] theorem State.setClaims_nextFrame (s : State) (l : List Claim) : (s.setClaims l).nextFrame = s.nextFrame := rfl
@[simp] theorem State.setClaims_fab (s : State) (l : List Claim) : (s.setClaims l).fab = s.fab := rfl
@[simp] theorem State.setClaims_sched (s : State) (l : List Claim) : (s.setClaims l).sched = s.sched := rfl
@[simp] theorem State.setClaims_pol (s : State) (l : List Claim) : (s.setClaims l).pol = s.pol := rfl
@[simp] theorem State.setClaims_cps (s : State) (l : List Claim) : (s.setClaims l).cps = s.cps := rfl
@[simp] theorem State.setClaims_glz (s : State) (l : List Claim) : (s.setClaims l).glz = s.glz := rfl
@[simp] theorem State.setClaims_bur (s : State) (l : List Claim) : (s.setClaims l).bur = s.bur := rfl
@[simp] theorem State.setClaims_tabs (s : State) (l : List Claim) : (s.setClaims l).tabs = s.tabs := rfl
@[simp] theorem State.setClaims_fuses (s : State) (l : List Claim) : (s.setClaims l).fuses = s.fuses := rfl
@[simp] theorem State.setClaims_sampBkt (s : State) (l : List Claim) : (s.setClaims l).sampBkt = s.sampBkt := rfl
@[simp] theorem State.setClaims_sampLfsr (s : State) (l : List Claim) : (s.setClaims l).sampLfsr = s.sampLfsr := rfl
@[simp] theorem State.setClaims_sampSeq (s : State) (l : List Claim) : (s.setClaims l).sampSeq = s.sampSeq := rfl
@[simp] theorem State.setClaims_hbm (s : State) (l : List Claim) : (s.setClaims l).hbm = s.hbm := rfl
@[simp] theorem State.setClaims_mgt (s : State) (l : List Claim) : (s.setClaims l).mgt = s.mgt := rfl
@[simp] theorem State.setClaims_pmc (s : State) (l : List Claim) : (s.setClaims l).pmc = s.pmc := rfl
@[simp] theorem State.setClaims_rst (s : State) (l : List Claim) : (s.setClaims l).rst = s.rst := rfl
@[simp] theorem State.setClaims_refLost (s : State) (l : List Claim) : (s.setClaims l).refLost = s.refLost := rfl

/-! setEngine -/

@[simp] theorem State.setEngine_pending (s : State) (i e : Nat) (x : Engine) : (s.setEngine i e x).pending = s.pending := rfl
@[simp] theorem State.setEngine_mode (s : State) (i e : Nat) (x : Engine) : (s.setEngine i e x).mode = s.mode := rfl
@[simp] theorem State.setEngine_now (s : State) (i e : Nat) (x : Engine) : (s.setEngine i e x).now = s.now := rfl
@[simp] theorem State.setEngine_ptp (s : State) (i e : Nat) (x : Engine) : (s.setEngine i e x).ptp = s.ptp := rfl
@[simp] theorem State.setEngine_regs (s : State) (i e : Nat) (x : Engine) : (s.setEngine i e x).regs = s.regs := rfl
@[simp] theorem State.setEngine_cnts (s : State) (i e : Nat) (x : Engine) : (s.setEngine i e x).cnts = s.cnts := rfl
@[simp] theorem State.setEngine_latches (s : State) (i e : Nat) (x : Engine) : (s.setEngine i e x).latches = s.latches := rfl
@[simp] theorem State.setEngine_out (s : State) (i e : Nat) (x : Engine) : (s.setEngine i e x).out = s.out := rfl
@[simp] theorem State.setEngine_draws (s : State) (i e : Nat) (x : Engine) : (s.setEngine i e x).draws = s.draws := rfl
@[simp] theorem State.setEngine_gen (s : State) (i e : Nat) (x : Engine) : (s.setEngine i e x).gen = s.gen := rfl
@[simp] theorem State.setEngine_hif (s : State) (i e : Nat) (x : Engine) : (s.setEngine i e x).hif = s.hif := rfl
@[simp] theorem State.setEngine_eic (s : State) (i e : Nat) (x : Engine) : (s.setEngine i e x).eic = s.eic := rfl
@[simp] theorem State.setEngine_flt (s : State) (i e : Nat) (x : Engine) : (s.setEngine i e x).flt = s.flt := rfl
@[simp] theorem State.setEngine_kiln (s : State) (i e : Nat) (x : Engine) : (s.setEngine i e x).kiln = s.kiln := rfl
@[simp] theorem State.setEngine_units (s : State) (i e : Nat) (x : Engine) : (s.setEngine i e x).units = s.units := rfl
@[simp] theorem State.setEngine_prt (s : State) (i e : Nat) (x : Engine) : (s.setEngine i e x).prt = s.prt := rfl
@[simp] theorem State.setEngine_frames (s : State) (i e : Nat) (x : Engine) : (s.setEngine i e x).frames = s.frames := rfl
@[simp] theorem State.setEngine_nextFrame (s : State) (i e : Nat) (x : Engine) : (s.setEngine i e x).nextFrame = s.nextFrame := rfl
@[simp] theorem State.setEngine_bpm (s : State) (i e : Nat) (x : Engine) : (s.setEngine i e x).bpm = s.bpm := rfl
@[simp] theorem State.setEngine_fab (s : State) (i e : Nat) (x : Engine) : (s.setEngine i e x).fab = s.fab := rfl
@[simp] theorem State.setEngine_sched (s : State) (i e : Nat) (x : Engine) : (s.setEngine i e x).sched = s.sched := rfl
@[simp] theorem State.setEngine_pol (s : State) (i e : Nat) (x : Engine) : (s.setEngine i e x).pol = s.pol := rfl
@[simp] theorem State.setEngine_cps (s : State) (i e : Nat) (x : Engine) : (s.setEngine i e x).cps = s.cps := rfl
@[simp] theorem State.setEngine_glz (s : State) (i e : Nat) (x : Engine) : (s.setEngine i e x).glz = s.glz := rfl
@[simp] theorem State.setEngine_tabs (s : State) (i e : Nat) (x : Engine) : (s.setEngine i e x).tabs = s.tabs := rfl
@[simp] theorem State.setEngine_fuses (s : State) (i e : Nat) (x : Engine) : (s.setEngine i e x).fuses = s.fuses := rfl
@[simp] theorem State.setEngine_sampBkt (s : State) (i e : Nat) (x : Engine) : (s.setEngine i e x).sampBkt = s.sampBkt := rfl
@[simp] theorem State.setEngine_sampLfsr (s : State) (i e : Nat) (x : Engine) : (s.setEngine i e x).sampLfsr = s.sampLfsr := rfl
@[simp] theorem State.setEngine_sampSeq (s : State) (i e : Nat) (x : Engine) : (s.setEngine i e x).sampSeq = s.sampSeq := rfl
@[simp] theorem State.setEngine_hbm (s : State) (i e : Nat) (x : Engine) : (s.setEngine i e x).hbm = s.hbm := rfl
@[simp] theorem State.setEngine_mgt (s : State) (i e : Nat) (x : Engine) : (s.setEngine i e x).mgt = s.mgt := rfl
@[simp] theorem State.setEngine_pmc (s : State) (i e : Nat) (x : Engine) : (s.setEngine i e x).pmc = s.pmc := rfl
@[simp] theorem State.setEngine_rst (s : State) (i e : Nat) (x : Engine) : (s.setEngine i e x).rst = s.rst := rfl
@[simp] theorem State.setEngine_refLost (s : State) (i e : Nat) (x : Engine) : (s.setEngine i e x).refLost = s.refLost := rfl

/-! setPair -/

@[simp] theorem State.setPair_pending (s : State) (i p : Nat) (x : LanePair) : (s.setPair i p x).pending = s.pending := rfl
@[simp] theorem State.setPair_mode (s : State) (i p : Nat) (x : LanePair) : (s.setPair i p x).mode = s.mode := rfl
@[simp] theorem State.setPair_now (s : State) (i p : Nat) (x : LanePair) : (s.setPair i p x).now = s.now := rfl
@[simp] theorem State.setPair_ptp (s : State) (i p : Nat) (x : LanePair) : (s.setPair i p x).ptp = s.ptp := rfl
@[simp] theorem State.setPair_regs (s : State) (i p : Nat) (x : LanePair) : (s.setPair i p x).regs = s.regs := rfl
@[simp] theorem State.setPair_cnts (s : State) (i p : Nat) (x : LanePair) : (s.setPair i p x).cnts = s.cnts := rfl
@[simp] theorem State.setPair_latches (s : State) (i p : Nat) (x : LanePair) : (s.setPair i p x).latches = s.latches := rfl
@[simp] theorem State.setPair_out (s : State) (i p : Nat) (x : LanePair) : (s.setPair i p x).out = s.out := rfl
@[simp] theorem State.setPair_draws (s : State) (i p : Nat) (x : LanePair) : (s.setPair i p x).draws = s.draws := rfl
@[simp] theorem State.setPair_gen (s : State) (i p : Nat) (x : LanePair) : (s.setPair i p x).gen = s.gen := rfl
@[simp] theorem State.setPair_hif (s : State) (i p : Nat) (x : LanePair) : (s.setPair i p x).hif = s.hif := rfl
@[simp] theorem State.setPair_eic (s : State) (i p : Nat) (x : LanePair) : (s.setPair i p x).eic = s.eic := rfl
@[simp] theorem State.setPair_flt (s : State) (i p : Nat) (x : LanePair) : (s.setPair i p x).flt = s.flt := rfl
@[simp] theorem State.setPair_kiln (s : State) (i p : Nat) (x : LanePair) : (s.setPair i p x).kiln = s.kiln := rfl
@[simp] theorem State.setPair_units (s : State) (i p : Nat) (x : LanePair) : (s.setPair i p x).units = s.units := rfl
@[simp] theorem State.setPair_prt (s : State) (i p : Nat) (x : LanePair) : (s.setPair i p x).prt = s.prt := rfl
@[simp] theorem State.setPair_frames (s : State) (i p : Nat) (x : LanePair) : (s.setPair i p x).frames = s.frames := rfl
@[simp] theorem State.setPair_nextFrame (s : State) (i p : Nat) (x : LanePair) : (s.setPair i p x).nextFrame = s.nextFrame := rfl
@[simp] theorem State.setPair_bpm (s : State) (i p : Nat) (x : LanePair) : (s.setPair i p x).bpm = s.bpm := rfl
@[simp] theorem State.setPair_fab (s : State) (i p : Nat) (x : LanePair) : (s.setPair i p x).fab = s.fab := rfl
@[simp] theorem State.setPair_sched (s : State) (i p : Nat) (x : LanePair) : (s.setPair i p x).sched = s.sched := rfl
@[simp] theorem State.setPair_pol (s : State) (i p : Nat) (x : LanePair) : (s.setPair i p x).pol = s.pol := rfl
@[simp] theorem State.setPair_cps (s : State) (i p : Nat) (x : LanePair) : (s.setPair i p x).cps = s.cps := rfl
@[simp] theorem State.setPair_bur (s : State) (i p : Nat) (x : LanePair) : (s.setPair i p x).bur = s.bur := rfl
@[simp] theorem State.setPair_tabs (s : State) (i p : Nat) (x : LanePair) : (s.setPair i p x).tabs = s.tabs := rfl
@[simp] theorem State.setPair_fuses (s : State) (i p : Nat) (x : LanePair) : (s.setPair i p x).fuses = s.fuses := rfl
@[simp] theorem State.setPair_sampBkt (s : State) (i p : Nat) (x : LanePair) : (s.setPair i p x).sampBkt = s.sampBkt := rfl
@[simp] theorem State.setPair_sampLfsr (s : State) (i p : Nat) (x : LanePair) : (s.setPair i p x).sampLfsr = s.sampLfsr := rfl
@[simp] theorem State.setPair_sampSeq (s : State) (i p : Nat) (x : LanePair) : (s.setPair i p x).sampSeq = s.sampSeq := rfl
@[simp] theorem State.setPair_hbm (s : State) (i p : Nat) (x : LanePair) : (s.setPair i p x).hbm = s.hbm := rfl
@[simp] theorem State.setPair_mgt (s : State) (i p : Nat) (x : LanePair) : (s.setPair i p x).mgt = s.mgt := rfl
@[simp] theorem State.setPair_pmc (s : State) (i p : Nat) (x : LanePair) : (s.setPair i p x).pmc = s.pmc := rfl
@[simp] theorem State.setPair_rst (s : State) (i p : Nat) (x : LanePair) : (s.setPair i p x).rst = s.rst := rfl
@[simp] theorem State.setPair_refLost (s : State) (i p : Nat) (x : LanePair) : (s.setPair i p x).refLost = s.refLost := rfl

/-! setFpair -/

@[simp] theorem State.setFpair_pending (s : State) (a b : Nat) (x : Pair) : (s.setFpair a b x).pending = s.pending := rfl
@[simp] theorem State.setFpair_mode (s : State) (a b : Nat) (x : Pair) : (s.setFpair a b x).mode = s.mode := rfl
@[simp] theorem State.setFpair_now (s : State) (a b : Nat) (x : Pair) : (s.setFpair a b x).now = s.now := rfl
@[simp] theorem State.setFpair_ptp (s : State) (a b : Nat) (x : Pair) : (s.setFpair a b x).ptp = s.ptp := rfl
@[simp] theorem State.setFpair_regs (s : State) (a b : Nat) (x : Pair) : (s.setFpair a b x).regs = s.regs := rfl
@[simp] theorem State.setFpair_cnts (s : State) (a b : Nat) (x : Pair) : (s.setFpair a b x).cnts = s.cnts := rfl
@[simp] theorem State.setFpair_latches (s : State) (a b : Nat) (x : Pair) : (s.setFpair a b x).latches = s.latches := rfl
@[simp] theorem State.setFpair_out (s : State) (a b : Nat) (x : Pair) : (s.setFpair a b x).out = s.out := rfl
@[simp] theorem State.setFpair_draws (s : State) (a b : Nat) (x : Pair) : (s.setFpair a b x).draws = s.draws := rfl
@[simp] theorem State.setFpair_gen (s : State) (a b : Nat) (x : Pair) : (s.setFpair a b x).gen = s.gen := rfl
@[simp] theorem State.setFpair_hif (s : State) (a b : Nat) (x : Pair) : (s.setFpair a b x).hif = s.hif := rfl
@[simp] theorem State.setFpair_eic (s : State) (a b : Nat) (x : Pair) : (s.setFpair a b x).eic = s.eic := rfl
@[simp] theorem State.setFpair_flt (s : State) (a b : Nat) (x : Pair) : (s.setFpair a b x).flt = s.flt := rfl
@[simp] theorem State.setFpair_kiln (s : State) (a b : Nat) (x : Pair) : (s.setFpair a b x).kiln = s.kiln := rfl
@[simp] theorem State.setFpair_units (s : State) (a b : Nat) (x : Pair) : (s.setFpair a b x).units = s.units := rfl
@[simp] theorem State.setFpair_prt (s : State) (a b : Nat) (x : Pair) : (s.setFpair a b x).prt = s.prt := rfl
@[simp] theorem State.setFpair_frames (s : State) (a b : Nat) (x : Pair) : (s.setFpair a b x).frames = s.frames := rfl
@[simp] theorem State.setFpair_nextFrame (s : State) (a b : Nat) (x : Pair) : (s.setFpair a b x).nextFrame = s.nextFrame := rfl
@[simp] theorem State.setFpair_bpm (s : State) (a b : Nat) (x : Pair) : (s.setFpair a b x).bpm = s.bpm := rfl
@[simp] theorem State.setFpair_sched (s : State) (a b : Nat) (x : Pair) : (s.setFpair a b x).sched = s.sched := rfl
@[simp] theorem State.setFpair_pol (s : State) (a b : Nat) (x : Pair) : (s.setFpair a b x).pol = s.pol := rfl
@[simp] theorem State.setFpair_cps (s : State) (a b : Nat) (x : Pair) : (s.setFpair a b x).cps = s.cps := rfl
@[simp] theorem State.setFpair_glz (s : State) (a b : Nat) (x : Pair) : (s.setFpair a b x).glz = s.glz := rfl
@[simp] theorem State.setFpair_bur (s : State) (a b : Nat) (x : Pair) : (s.setFpair a b x).bur = s.bur := rfl
@[simp] theorem State.setFpair_tabs (s : State) (a b : Nat) (x : Pair) : (s.setFpair a b x).tabs = s.tabs := rfl
@[simp] theorem State.setFpair_fuses (s : State) (a b : Nat) (x : Pair) : (s.setFpair a b x).fuses = s.fuses := rfl
@[simp] theorem State.setFpair_sampBkt (s : State) (a b : Nat) (x : Pair) : (s.setFpair a b x).sampBkt = s.sampBkt := rfl
@[simp] theorem State.setFpair_sampLfsr (s : State) (a b : Nat) (x : Pair) : (s.setFpair a b x).sampLfsr = s.sampLfsr := rfl
@[simp] theorem State.setFpair_sampSeq (s : State) (a b : Nat) (x : Pair) : (s.setFpair a b x).sampSeq = s.sampSeq := rfl
@[simp] theorem State.setFpair_hbm (s : State) (a b : Nat) (x : Pair) : (s.setFpair a b x).hbm = s.hbm := rfl
@[simp] theorem State.setFpair_mgt (s : State) (a b : Nat) (x : Pair) : (s.setFpair a b x).mgt = s.mgt := rfl
@[simp] theorem State.setFpair_pmc (s : State) (a b : Nat) (x : Pair) : (s.setFpair a b x).pmc = s.pmc := rfl
@[simp] theorem State.setFpair_rst (s : State) (a b : Nat) (x : Pair) : (s.setFpair a b x).rst = s.rst := rfl
@[simp] theorem State.setFpair_refLost (s : State) (a b : Nat) (x : Pair) : (s.setFpair a b x).refLost = s.refLost := rfl

/-! setIntCtx -/

@[simp] theorem State.setIntCtx_pending (s : State) (x : Nat) (c : IntCtx) : (s.setIntCtx x c).pending = s.pending := rfl
@[simp] theorem State.setIntCtx_mode (s : State) (x : Nat) (c : IntCtx) : (s.setIntCtx x c).mode = s.mode := rfl
@[simp] theorem State.setIntCtx_now (s : State) (x : Nat) (c : IntCtx) : (s.setIntCtx x c).now = s.now := rfl
@[simp] theorem State.setIntCtx_ptp (s : State) (x : Nat) (c : IntCtx) : (s.setIntCtx x c).ptp = s.ptp := rfl
@[simp] theorem State.setIntCtx_regs (s : State) (x : Nat) (c : IntCtx) : (s.setIntCtx x c).regs = s.regs := rfl
@[simp] theorem State.setIntCtx_cnts (s : State) (x : Nat) (c : IntCtx) : (s.setIntCtx x c).cnts = s.cnts := rfl
@[simp] theorem State.setIntCtx_latches (s : State) (x : Nat) (c : IntCtx) : (s.setIntCtx x c).latches = s.latches := rfl
@[simp] theorem State.setIntCtx_out (s : State) (x : Nat) (c : IntCtx) : (s.setIntCtx x c).out = s.out := rfl
@[simp] theorem State.setIntCtx_draws (s : State) (x : Nat) (c : IntCtx) : (s.setIntCtx x c).draws = s.draws := rfl
@[simp] theorem State.setIntCtx_gen (s : State) (x : Nat) (c : IntCtx) : (s.setIntCtx x c).gen = s.gen := rfl
@[simp] theorem State.setIntCtx_hif (s : State) (x : Nat) (c : IntCtx) : (s.setIntCtx x c).hif = s.hif := rfl
@[simp] theorem State.setIntCtx_flt (s : State) (x : Nat) (c : IntCtx) : (s.setIntCtx x c).flt = s.flt := rfl
@[simp] theorem State.setIntCtx_kiln (s : State) (x : Nat) (c : IntCtx) : (s.setIntCtx x c).kiln = s.kiln := rfl
@[simp] theorem State.setIntCtx_units (s : State) (x : Nat) (c : IntCtx) : (s.setIntCtx x c).units = s.units := rfl
@[simp] theorem State.setIntCtx_prt (s : State) (x : Nat) (c : IntCtx) : (s.setIntCtx x c).prt = s.prt := rfl
@[simp] theorem State.setIntCtx_frames (s : State) (x : Nat) (c : IntCtx) : (s.setIntCtx x c).frames = s.frames := rfl
@[simp] theorem State.setIntCtx_nextFrame (s : State) (x : Nat) (c : IntCtx) : (s.setIntCtx x c).nextFrame = s.nextFrame := rfl
@[simp] theorem State.setIntCtx_bpm (s : State) (x : Nat) (c : IntCtx) : (s.setIntCtx x c).bpm = s.bpm := rfl
@[simp] theorem State.setIntCtx_fab (s : State) (x : Nat) (c : IntCtx) : (s.setIntCtx x c).fab = s.fab := rfl
@[simp] theorem State.setIntCtx_sched (s : State) (x : Nat) (c : IntCtx) : (s.setIntCtx x c).sched = s.sched := rfl
@[simp] theorem State.setIntCtx_pol (s : State) (x : Nat) (c : IntCtx) : (s.setIntCtx x c).pol = s.pol := rfl
@[simp] theorem State.setIntCtx_cps (s : State) (x : Nat) (c : IntCtx) : (s.setIntCtx x c).cps = s.cps := rfl
@[simp] theorem State.setIntCtx_glz (s : State) (x : Nat) (c : IntCtx) : (s.setIntCtx x c).glz = s.glz := rfl
@[simp] theorem State.setIntCtx_bur (s : State) (x : Nat) (c : IntCtx) : (s.setIntCtx x c).bur = s.bur := rfl
@[simp] theorem State.setIntCtx_tabs (s : State) (x : Nat) (c : IntCtx) : (s.setIntCtx x c).tabs = s.tabs := rfl
@[simp] theorem State.setIntCtx_fuses (s : State) (x : Nat) (c : IntCtx) : (s.setIntCtx x c).fuses = s.fuses := rfl
@[simp] theorem State.setIntCtx_sampBkt (s : State) (x : Nat) (c : IntCtx) : (s.setIntCtx x c).sampBkt = s.sampBkt := rfl
@[simp] theorem State.setIntCtx_sampLfsr (s : State) (x : Nat) (c : IntCtx) : (s.setIntCtx x c).sampLfsr = s.sampLfsr := rfl
@[simp] theorem State.setIntCtx_sampSeq (s : State) (x : Nat) (c : IntCtx) : (s.setIntCtx x c).sampSeq = s.sampSeq := rfl
@[simp] theorem State.setIntCtx_hbm (s : State) (x : Nat) (c : IntCtx) : (s.setIntCtx x c).hbm = s.hbm := rfl
@[simp] theorem State.setIntCtx_mgt (s : State) (x : Nat) (c : IntCtx) : (s.setIntCtx x c).mgt = s.mgt := rfl
@[simp] theorem State.setIntCtx_pmc (s : State) (x : Nat) (c : IntCtx) : (s.setIntCtx x c).pmc = s.pmc := rfl
@[simp] theorem State.setIntCtx_rst (s : State) (x : Nat) (c : IntCtx) : (s.setIntCtx x c).rst = s.rst := rfl
@[simp] theorem State.setIntCtx_refLost (s : State) (x : Nat) (c : IntCtx) : (s.setIntCtx x c).refLost = s.refLost := rfl

/-! setMailbox -/

@[simp] theorem State.setMailbox_pending (s : State) (f : Fn) (m : Mailbox) : (s.setMailbox f m).pending = s.pending := rfl
@[simp] theorem State.setMailbox_mode (s : State) (f : Fn) (m : Mailbox) : (s.setMailbox f m).mode = s.mode := rfl
@[simp] theorem State.setMailbox_now (s : State) (f : Fn) (m : Mailbox) : (s.setMailbox f m).now = s.now := rfl
@[simp] theorem State.setMailbox_ptp (s : State) (f : Fn) (m : Mailbox) : (s.setMailbox f m).ptp = s.ptp := rfl
@[simp] theorem State.setMailbox_regs (s : State) (f : Fn) (m : Mailbox) : (s.setMailbox f m).regs = s.regs := rfl
@[simp] theorem State.setMailbox_cnts (s : State) (f : Fn) (m : Mailbox) : (s.setMailbox f m).cnts = s.cnts := rfl
@[simp] theorem State.setMailbox_latches (s : State) (f : Fn) (m : Mailbox) : (s.setMailbox f m).latches = s.latches := rfl
@[simp] theorem State.setMailbox_out (s : State) (f : Fn) (m : Mailbox) : (s.setMailbox f m).out = s.out := rfl
@[simp] theorem State.setMailbox_draws (s : State) (f : Fn) (m : Mailbox) : (s.setMailbox f m).draws = s.draws := rfl
@[simp] theorem State.setMailbox_gen (s : State) (f : Fn) (m : Mailbox) : (s.setMailbox f m).gen = s.gen := rfl
@[simp] theorem State.setMailbox_hif (s : State) (f : Fn) (m : Mailbox) : (s.setMailbox f m).hif = s.hif := rfl
@[simp] theorem State.setMailbox_eic (s : State) (f : Fn) (m : Mailbox) : (s.setMailbox f m).eic = s.eic := rfl
@[simp] theorem State.setMailbox_flt (s : State) (f : Fn) (m : Mailbox) : (s.setMailbox f m).flt = s.flt := rfl
@[simp] theorem State.setMailbox_kiln (s : State) (f : Fn) (m : Mailbox) : (s.setMailbox f m).kiln = s.kiln := rfl
@[simp] theorem State.setMailbox_units (s : State) (f : Fn) (m : Mailbox) : (s.setMailbox f m).units = s.units := rfl
@[simp] theorem State.setMailbox_prt (s : State) (f : Fn) (m : Mailbox) : (s.setMailbox f m).prt = s.prt := rfl
@[simp] theorem State.setMailbox_frames (s : State) (f : Fn) (m : Mailbox) : (s.setMailbox f m).frames = s.frames := rfl
@[simp] theorem State.setMailbox_nextFrame (s : State) (f : Fn) (m : Mailbox) : (s.setMailbox f m).nextFrame = s.nextFrame := rfl
@[simp] theorem State.setMailbox_bpm (s : State) (f : Fn) (m : Mailbox) : (s.setMailbox f m).bpm = s.bpm := rfl
@[simp] theorem State.setMailbox_fab (s : State) (f : Fn) (m : Mailbox) : (s.setMailbox f m).fab = s.fab := rfl
@[simp] theorem State.setMailbox_sched (s : State) (f : Fn) (m : Mailbox) : (s.setMailbox f m).sched = s.sched := rfl
@[simp] theorem State.setMailbox_pol (s : State) (f : Fn) (m : Mailbox) : (s.setMailbox f m).pol = s.pol := rfl
@[simp] theorem State.setMailbox_cps (s : State) (f : Fn) (m : Mailbox) : (s.setMailbox f m).cps = s.cps := rfl
@[simp] theorem State.setMailbox_glz (s : State) (f : Fn) (m : Mailbox) : (s.setMailbox f m).glz = s.glz := rfl
@[simp] theorem State.setMailbox_bur (s : State) (f : Fn) (m : Mailbox) : (s.setMailbox f m).bur = s.bur := rfl
@[simp] theorem State.setMailbox_tabs (s : State) (f : Fn) (m : Mailbox) : (s.setMailbox f m).tabs = s.tabs := rfl
@[simp] theorem State.setMailbox_fuses (s : State) (f : Fn) (m : Mailbox) : (s.setMailbox f m).fuses = s.fuses := rfl
@[simp] theorem State.setMailbox_sampBkt (s : State) (f : Fn) (m : Mailbox) : (s.setMailbox f m).sampBkt = s.sampBkt := rfl
@[simp] theorem State.setMailbox_sampLfsr (s : State) (f : Fn) (m : Mailbox) : (s.setMailbox f m).sampLfsr = s.sampLfsr := rfl
@[simp] theorem State.setMailbox_sampSeq (s : State) (f : Fn) (m : Mailbox) : (s.setMailbox f m).sampSeq = s.sampSeq := rfl
@[simp] theorem State.setMailbox_hbm (s : State) (f : Fn) (m : Mailbox) : (s.setMailbox f m).hbm = s.hbm := rfl
@[simp] theorem State.setMailbox_pmc (s : State) (f : Fn) (m : Mailbox) : (s.setMailbox f m).pmc = s.pmc := rfl
@[simp] theorem State.setMailbox_rst (s : State) (f : Fn) (m : Mailbox) : (s.setMailbox f m).rst = s.rst := rfl
@[simp] theorem State.setMailbox_refLost (s : State) (f : Fn) (m : Mailbox) : (s.setMailbox f m).refLost = s.refLost := rfl

/-! setBoot -/

@[simp] theorem State.setBoot_pending (s : State) (b : Boot) : (s.setBoot b).pending = s.pending := rfl
@[simp] theorem State.setBoot_mode (s : State) (b : Boot) : (s.setBoot b).mode = s.mode := rfl
@[simp] theorem State.setBoot_now (s : State) (b : Boot) : (s.setBoot b).now = s.now := rfl
@[simp] theorem State.setBoot_ptp (s : State) (b : Boot) : (s.setBoot b).ptp = s.ptp := rfl
@[simp] theorem State.setBoot_regs (s : State) (b : Boot) : (s.setBoot b).regs = s.regs := rfl
@[simp] theorem State.setBoot_cnts (s : State) (b : Boot) : (s.setBoot b).cnts = s.cnts := rfl
@[simp] theorem State.setBoot_latches (s : State) (b : Boot) : (s.setBoot b).latches = s.latches := rfl
@[simp] theorem State.setBoot_out (s : State) (b : Boot) : (s.setBoot b).out = s.out := rfl
@[simp] theorem State.setBoot_draws (s : State) (b : Boot) : (s.setBoot b).draws = s.draws := rfl
@[simp] theorem State.setBoot_gen (s : State) (b : Boot) : (s.setBoot b).gen = s.gen := rfl
@[simp] theorem State.setBoot_hif (s : State) (b : Boot) : (s.setBoot b).hif = s.hif := rfl
@[simp] theorem State.setBoot_eic (s : State) (b : Boot) : (s.setBoot b).eic = s.eic := rfl
@[simp] theorem State.setBoot_flt (s : State) (b : Boot) : (s.setBoot b).flt = s.flt := rfl
@[simp] theorem State.setBoot_kiln (s : State) (b : Boot) : (s.setBoot b).kiln = s.kiln := rfl
@[simp] theorem State.setBoot_units (s : State) (b : Boot) : (s.setBoot b).units = s.units := rfl
@[simp] theorem State.setBoot_prt (s : State) (b : Boot) : (s.setBoot b).prt = s.prt := rfl
@[simp] theorem State.setBoot_frames (s : State) (b : Boot) : (s.setBoot b).frames = s.frames := rfl
@[simp] theorem State.setBoot_nextFrame (s : State) (b : Boot) : (s.setBoot b).nextFrame = s.nextFrame := rfl
@[simp] theorem State.setBoot_bpm (s : State) (b : Boot) : (s.setBoot b).bpm = s.bpm := rfl
@[simp] theorem State.setBoot_fab (s : State) (b : Boot) : (s.setBoot b).fab = s.fab := rfl
@[simp] theorem State.setBoot_sched (s : State) (b : Boot) : (s.setBoot b).sched = s.sched := rfl
@[simp] theorem State.setBoot_pol (s : State) (b : Boot) : (s.setBoot b).pol = s.pol := rfl
@[simp] theorem State.setBoot_cps (s : State) (b : Boot) : (s.setBoot b).cps = s.cps := rfl
@[simp] theorem State.setBoot_glz (s : State) (b : Boot) : (s.setBoot b).glz = s.glz := rfl
@[simp] theorem State.setBoot_bur (s : State) (b : Boot) : (s.setBoot b).bur = s.bur := rfl
@[simp] theorem State.setBoot_tabs (s : State) (b : Boot) : (s.setBoot b).tabs = s.tabs := rfl
@[simp] theorem State.setBoot_fuses (s : State) (b : Boot) : (s.setBoot b).fuses = s.fuses := rfl
@[simp] theorem State.setBoot_sampBkt (s : State) (b : Boot) : (s.setBoot b).sampBkt = s.sampBkt := rfl
@[simp] theorem State.setBoot_sampLfsr (s : State) (b : Boot) : (s.setBoot b).sampLfsr = s.sampLfsr := rfl
@[simp] theorem State.setBoot_sampSeq (s : State) (b : Boot) : (s.setBoot b).sampSeq = s.sampSeq := rfl
@[simp] theorem State.setBoot_hbm (s : State) (b : Boot) : (s.setBoot b).hbm = s.hbm := rfl
@[simp] theorem State.setBoot_pmc (s : State) (b : Boot) : (s.setBoot b).pmc = s.pmc := rfl
@[simp] theorem State.setBoot_rst (s : State) (b : Boot) : (s.setBoot b).rst = s.rst := rfl
@[simp] theorem State.setBoot_refLost (s : State) (b : Boot) : (s.setBoot b).refLost = s.refLost := rfl

/-! setTabs -/

@[simp] theorem State.setTabs_pending (s : State) (t : Tables) : (s.setTabs t).pending = s.pending := rfl
@[simp] theorem State.setTabs_mode (s : State) (t : Tables) : (s.setTabs t).mode = s.mode := rfl
@[simp] theorem State.setTabs_now (s : State) (t : Tables) : (s.setTabs t).now = s.now := rfl
@[simp] theorem State.setTabs_ptp (s : State) (t : Tables) : (s.setTabs t).ptp = s.ptp := rfl
@[simp] theorem State.setTabs_regs (s : State) (t : Tables) : (s.setTabs t).regs = s.regs := rfl
@[simp] theorem State.setTabs_cnts (s : State) (t : Tables) : (s.setTabs t).cnts = s.cnts := rfl
@[simp] theorem State.setTabs_latches (s : State) (t : Tables) : (s.setTabs t).latches = s.latches := rfl
@[simp] theorem State.setTabs_out (s : State) (t : Tables) : (s.setTabs t).out = s.out := rfl
@[simp] theorem State.setTabs_draws (s : State) (t : Tables) : (s.setTabs t).draws = s.draws := rfl
@[simp] theorem State.setTabs_gen (s : State) (t : Tables) : (s.setTabs t).gen = s.gen := rfl
@[simp] theorem State.setTabs_hif (s : State) (t : Tables) : (s.setTabs t).hif = s.hif := rfl
@[simp] theorem State.setTabs_eic (s : State) (t : Tables) : (s.setTabs t).eic = s.eic := rfl
@[simp] theorem State.setTabs_flt (s : State) (t : Tables) : (s.setTabs t).flt = s.flt := rfl
@[simp] theorem State.setTabs_kiln (s : State) (t : Tables) : (s.setTabs t).kiln = s.kiln := rfl
@[simp] theorem State.setTabs_units (s : State) (t : Tables) : (s.setTabs t).units = s.units := rfl
@[simp] theorem State.setTabs_prt (s : State) (t : Tables) : (s.setTabs t).prt = s.prt := rfl
@[simp] theorem State.setTabs_frames (s : State) (t : Tables) : (s.setTabs t).frames = s.frames := rfl
@[simp] theorem State.setTabs_nextFrame (s : State) (t : Tables) : (s.setTabs t).nextFrame = s.nextFrame := rfl
@[simp] theorem State.setTabs_bpm (s : State) (t : Tables) : (s.setTabs t).bpm = s.bpm := rfl
@[simp] theorem State.setTabs_fab (s : State) (t : Tables) : (s.setTabs t).fab = s.fab := rfl
@[simp] theorem State.setTabs_sched (s : State) (t : Tables) : (s.setTabs t).sched = s.sched := rfl
@[simp] theorem State.setTabs_pol (s : State) (t : Tables) : (s.setTabs t).pol = s.pol := rfl
@[simp] theorem State.setTabs_cps (s : State) (t : Tables) : (s.setTabs t).cps = s.cps := rfl
@[simp] theorem State.setTabs_glz (s : State) (t : Tables) : (s.setTabs t).glz = s.glz := rfl
@[simp] theorem State.setTabs_bur (s : State) (t : Tables) : (s.setTabs t).bur = s.bur := rfl
@[simp] theorem State.setTabs_fuses (s : State) (t : Tables) : (s.setTabs t).fuses = s.fuses := rfl
@[simp] theorem State.setTabs_sampBkt (s : State) (t : Tables) : (s.setTabs t).sampBkt = s.sampBkt := rfl
@[simp] theorem State.setTabs_sampLfsr (s : State) (t : Tables) : (s.setTabs t).sampLfsr = s.sampLfsr := rfl
@[simp] theorem State.setTabs_sampSeq (s : State) (t : Tables) : (s.setTabs t).sampSeq = s.sampSeq := rfl
@[simp] theorem State.setTabs_hbm (s : State) (t : Tables) : (s.setTabs t).hbm = s.hbm := rfl
@[simp] theorem State.setTabs_mgt (s : State) (t : Tables) : (s.setTabs t).mgt = s.mgt := rfl
@[simp] theorem State.setTabs_pmc (s : State) (t : Tables) : (s.setTabs t).pmc = s.pmc := rfl
@[simp] theorem State.setTabs_rst (s : State) (t : Tables) : (s.setTabs t).rst = s.rst := rfl
@[simp] theorem State.setTabs_refLost (s : State) (t : Tables) : (s.setTabs t).refLost = s.refLost := rfl

/-! setPolVers -/

@[simp] theorem State.setPolVers_pending (s : State) (n : Nat) (l : List PolVer) : (s.setPolVers n l).pending = s.pending := rfl
@[simp] theorem State.setPolVers_mode (s : State) (n : Nat) (l : List PolVer) : (s.setPolVers n l).mode = s.mode := rfl
@[simp] theorem State.setPolVers_now (s : State) (n : Nat) (l : List PolVer) : (s.setPolVers n l).now = s.now := rfl
@[simp] theorem State.setPolVers_ptp (s : State) (n : Nat) (l : List PolVer) : (s.setPolVers n l).ptp = s.ptp := rfl
@[simp] theorem State.setPolVers_regs (s : State) (n : Nat) (l : List PolVer) : (s.setPolVers n l).regs = s.regs := rfl
@[simp] theorem State.setPolVers_cnts (s : State) (n : Nat) (l : List PolVer) : (s.setPolVers n l).cnts = s.cnts := rfl
@[simp] theorem State.setPolVers_latches (s : State) (n : Nat) (l : List PolVer) : (s.setPolVers n l).latches = s.latches := rfl
@[simp] theorem State.setPolVers_out (s : State) (n : Nat) (l : List PolVer) : (s.setPolVers n l).out = s.out := rfl
@[simp] theorem State.setPolVers_draws (s : State) (n : Nat) (l : List PolVer) : (s.setPolVers n l).draws = s.draws := rfl
@[simp] theorem State.setPolVers_gen (s : State) (n : Nat) (l : List PolVer) : (s.setPolVers n l).gen = s.gen := rfl
@[simp] theorem State.setPolVers_hif (s : State) (n : Nat) (l : List PolVer) : (s.setPolVers n l).hif = s.hif := rfl
@[simp] theorem State.setPolVers_eic (s : State) (n : Nat) (l : List PolVer) : (s.setPolVers n l).eic = s.eic := rfl
@[simp] theorem State.setPolVers_flt (s : State) (n : Nat) (l : List PolVer) : (s.setPolVers n l).flt = s.flt := rfl
@[simp] theorem State.setPolVers_kiln (s : State) (n : Nat) (l : List PolVer) : (s.setPolVers n l).kiln = s.kiln := rfl
@[simp] theorem State.setPolVers_units (s : State) (n : Nat) (l : List PolVer) : (s.setPolVers n l).units = s.units := rfl
@[simp] theorem State.setPolVers_prt (s : State) (n : Nat) (l : List PolVer) : (s.setPolVers n l).prt = s.prt := rfl
@[simp] theorem State.setPolVers_frames (s : State) (n : Nat) (l : List PolVer) : (s.setPolVers n l).frames = s.frames := rfl
@[simp] theorem State.setPolVers_nextFrame (s : State) (n : Nat) (l : List PolVer) : (s.setPolVers n l).nextFrame = s.nextFrame := rfl
@[simp] theorem State.setPolVers_bpm (s : State) (n : Nat) (l : List PolVer) : (s.setPolVers n l).bpm = s.bpm := rfl
@[simp] theorem State.setPolVers_fab (s : State) (n : Nat) (l : List PolVer) : (s.setPolVers n l).fab = s.fab := rfl
@[simp] theorem State.setPolVers_sched (s : State) (n : Nat) (l : List PolVer) : (s.setPolVers n l).sched = s.sched := rfl
@[simp] theorem State.setPolVers_cps (s : State) (n : Nat) (l : List PolVer) : (s.setPolVers n l).cps = s.cps := rfl
@[simp] theorem State.setPolVers_glz (s : State) (n : Nat) (l : List PolVer) : (s.setPolVers n l).glz = s.glz := rfl
@[simp] theorem State.setPolVers_bur (s : State) (n : Nat) (l : List PolVer) : (s.setPolVers n l).bur = s.bur := rfl
@[simp] theorem State.setPolVers_tabs (s : State) (n : Nat) (l : List PolVer) : (s.setPolVers n l).tabs = s.tabs := rfl
@[simp] theorem State.setPolVers_fuses (s : State) (n : Nat) (l : List PolVer) : (s.setPolVers n l).fuses = s.fuses := rfl
@[simp] theorem State.setPolVers_sampBkt (s : State) (n : Nat) (l : List PolVer) : (s.setPolVers n l).sampBkt = s.sampBkt := rfl
@[simp] theorem State.setPolVers_sampLfsr (s : State) (n : Nat) (l : List PolVer) : (s.setPolVers n l).sampLfsr = s.sampLfsr := rfl
@[simp] theorem State.setPolVers_sampSeq (s : State) (n : Nat) (l : List PolVer) : (s.setPolVers n l).sampSeq = s.sampSeq := rfl
@[simp] theorem State.setPolVers_hbm (s : State) (n : Nat) (l : List PolVer) : (s.setPolVers n l).hbm = s.hbm := rfl
@[simp] theorem State.setPolVers_mgt (s : State) (n : Nat) (l : List PolVer) : (s.setPolVers n l).mgt = s.mgt := rfl
@[simp] theorem State.setPolVers_pmc (s : State) (n : Nat) (l : List PolVer) : (s.setPolVers n l).pmc = s.pmc := rfl
@[simp] theorem State.setPolVers_rst (s : State) (n : Nat) (l : List PolVer) : (s.setPolVers n l).rst = s.rst := rfl
@[simp] theorem State.setPolVers_refLost (s : State) (n : Nat) (l : List PolVer) : (s.setPolVers n l).refLost = s.refLost := rfl

/-! setCps -/

@[simp] theorem State.setCps_pending (s : State) (c : Nat) (p : Option Profile) : (s.setCps c p).pending = s.pending := rfl
@[simp] theorem State.setCps_mode (s : State) (c : Nat) (p : Option Profile) : (s.setCps c p).mode = s.mode := rfl
@[simp] theorem State.setCps_now (s : State) (c : Nat) (p : Option Profile) : (s.setCps c p).now = s.now := rfl
@[simp] theorem State.setCps_ptp (s : State) (c : Nat) (p : Option Profile) : (s.setCps c p).ptp = s.ptp := rfl
@[simp] theorem State.setCps_regs (s : State) (c : Nat) (p : Option Profile) : (s.setCps c p).regs = s.regs := rfl
@[simp] theorem State.setCps_cnts (s : State) (c : Nat) (p : Option Profile) : (s.setCps c p).cnts = s.cnts := rfl
@[simp] theorem State.setCps_latches (s : State) (c : Nat) (p : Option Profile) : (s.setCps c p).latches = s.latches := rfl
@[simp] theorem State.setCps_out (s : State) (c : Nat) (p : Option Profile) : (s.setCps c p).out = s.out := rfl
@[simp] theorem State.setCps_draws (s : State) (c : Nat) (p : Option Profile) : (s.setCps c p).draws = s.draws := rfl
@[simp] theorem State.setCps_gen (s : State) (c : Nat) (p : Option Profile) : (s.setCps c p).gen = s.gen := rfl
@[simp] theorem State.setCps_hif (s : State) (c : Nat) (p : Option Profile) : (s.setCps c p).hif = s.hif := rfl
@[simp] theorem State.setCps_eic (s : State) (c : Nat) (p : Option Profile) : (s.setCps c p).eic = s.eic := rfl
@[simp] theorem State.setCps_flt (s : State) (c : Nat) (p : Option Profile) : (s.setCps c p).flt = s.flt := rfl
@[simp] theorem State.setCps_kiln (s : State) (c : Nat) (p : Option Profile) : (s.setCps c p).kiln = s.kiln := rfl
@[simp] theorem State.setCps_units (s : State) (c : Nat) (p : Option Profile) : (s.setCps c p).units = s.units := rfl
@[simp] theorem State.setCps_prt (s : State) (c : Nat) (p : Option Profile) : (s.setCps c p).prt = s.prt := rfl
@[simp] theorem State.setCps_frames (s : State) (c : Nat) (p : Option Profile) : (s.setCps c p).frames = s.frames := rfl
@[simp] theorem State.setCps_nextFrame (s : State) (c : Nat) (p : Option Profile) : (s.setCps c p).nextFrame = s.nextFrame := rfl
@[simp] theorem State.setCps_bpm (s : State) (c : Nat) (p : Option Profile) : (s.setCps c p).bpm = s.bpm := rfl
@[simp] theorem State.setCps_fab (s : State) (c : Nat) (p : Option Profile) : (s.setCps c p).fab = s.fab := rfl
@[simp] theorem State.setCps_sched (s : State) (c : Nat) (p : Option Profile) : (s.setCps c p).sched = s.sched := rfl
@[simp] theorem State.setCps_pol (s : State) (c : Nat) (p : Option Profile) : (s.setCps c p).pol = s.pol := rfl
@[simp] theorem State.setCps_glz (s : State) (c : Nat) (p : Option Profile) : (s.setCps c p).glz = s.glz := rfl
@[simp] theorem State.setCps_bur (s : State) (c : Nat) (p : Option Profile) : (s.setCps c p).bur = s.bur := rfl
@[simp] theorem State.setCps_tabs (s : State) (c : Nat) (p : Option Profile) : (s.setCps c p).tabs = s.tabs := rfl
@[simp] theorem State.setCps_fuses (s : State) (c : Nat) (p : Option Profile) : (s.setCps c p).fuses = s.fuses := rfl
@[simp] theorem State.setCps_sampBkt (s : State) (c : Nat) (p : Option Profile) : (s.setCps c p).sampBkt = s.sampBkt := rfl
@[simp] theorem State.setCps_sampLfsr (s : State) (c : Nat) (p : Option Profile) : (s.setCps c p).sampLfsr = s.sampLfsr := rfl
@[simp] theorem State.setCps_sampSeq (s : State) (c : Nat) (p : Option Profile) : (s.setCps c p).sampSeq = s.sampSeq := rfl
@[simp] theorem State.setCps_hbm (s : State) (c : Nat) (p : Option Profile) : (s.setCps c p).hbm = s.hbm := rfl
@[simp] theorem State.setCps_mgt (s : State) (c : Nat) (p : Option Profile) : (s.setCps c p).mgt = s.mgt := rfl
@[simp] theorem State.setCps_pmc (s : State) (c : Nat) (p : Option Profile) : (s.setCps c p).pmc = s.pmc := rfl
@[simp] theorem State.setCps_rst (s : State) (c : Nat) (p : Option Profile) : (s.setCps c p).rst = s.rst := rfl
@[simp] theorem State.setCps_refLost (s : State) (c : Nat) (p : Option Profile) : (s.setCps c p).refLost = s.refLost := rfl

/-! setCeLog -/

@[simp] theorem State.setCeLog_pending (s : State) (inst : Nat) (l : List CeEntry) : (s.setCeLog inst l).pending = s.pending := rfl
@[simp] theorem State.setCeLog_mode (s : State) (inst : Nat) (l : List CeEntry) : (s.setCeLog inst l).mode = s.mode := rfl
@[simp] theorem State.setCeLog_now (s : State) (inst : Nat) (l : List CeEntry) : (s.setCeLog inst l).now = s.now := rfl
@[simp] theorem State.setCeLog_ptp (s : State) (inst : Nat) (l : List CeEntry) : (s.setCeLog inst l).ptp = s.ptp := rfl
@[simp] theorem State.setCeLog_regs (s : State) (inst : Nat) (l : List CeEntry) : (s.setCeLog inst l).regs = s.regs := rfl
@[simp] theorem State.setCeLog_cnts (s : State) (inst : Nat) (l : List CeEntry) : (s.setCeLog inst l).cnts = s.cnts := rfl
@[simp] theorem State.setCeLog_latches (s : State) (inst : Nat) (l : List CeEntry) : (s.setCeLog inst l).latches = s.latches := rfl
@[simp] theorem State.setCeLog_out (s : State) (inst : Nat) (l : List CeEntry) : (s.setCeLog inst l).out = s.out := rfl
@[simp] theorem State.setCeLog_draws (s : State) (inst : Nat) (l : List CeEntry) : (s.setCeLog inst l).draws = s.draws := rfl
@[simp] theorem State.setCeLog_gen (s : State) (inst : Nat) (l : List CeEntry) : (s.setCeLog inst l).gen = s.gen := rfl
@[simp] theorem State.setCeLog_hif (s : State) (inst : Nat) (l : List CeEntry) : (s.setCeLog inst l).hif = s.hif := rfl
@[simp] theorem State.setCeLog_eic (s : State) (inst : Nat) (l : List CeEntry) : (s.setCeLog inst l).eic = s.eic := rfl
@[simp] theorem State.setCeLog_flt (s : State) (inst : Nat) (l : List CeEntry) : (s.setCeLog inst l).flt = s.flt := rfl
@[simp] theorem State.setCeLog_kiln (s : State) (inst : Nat) (l : List CeEntry) : (s.setCeLog inst l).kiln = s.kiln := rfl
@[simp] theorem State.setCeLog_units (s : State) (inst : Nat) (l : List CeEntry) : (s.setCeLog inst l).units = s.units := rfl
@[simp] theorem State.setCeLog_prt (s : State) (inst : Nat) (l : List CeEntry) : (s.setCeLog inst l).prt = s.prt := rfl
@[simp] theorem State.setCeLog_frames (s : State) (inst : Nat) (l : List CeEntry) : (s.setCeLog inst l).frames = s.frames := rfl
@[simp] theorem State.setCeLog_nextFrame (s : State) (inst : Nat) (l : List CeEntry) : (s.setCeLog inst l).nextFrame = s.nextFrame := rfl
@[simp] theorem State.setCeLog_bpm (s : State) (inst : Nat) (l : List CeEntry) : (s.setCeLog inst l).bpm = s.bpm := rfl
@[simp] theorem State.setCeLog_fab (s : State) (inst : Nat) (l : List CeEntry) : (s.setCeLog inst l).fab = s.fab := rfl
@[simp] theorem State.setCeLog_sched (s : State) (inst : Nat) (l : List CeEntry) : (s.setCeLog inst l).sched = s.sched := rfl
@[simp] theorem State.setCeLog_pol (s : State) (inst : Nat) (l : List CeEntry) : (s.setCeLog inst l).pol = s.pol := rfl
@[simp] theorem State.setCeLog_cps (s : State) (inst : Nat) (l : List CeEntry) : (s.setCeLog inst l).cps = s.cps := rfl
@[simp] theorem State.setCeLog_glz (s : State) (inst : Nat) (l : List CeEntry) : (s.setCeLog inst l).glz = s.glz := rfl
@[simp] theorem State.setCeLog_bur (s : State) (inst : Nat) (l : List CeEntry) : (s.setCeLog inst l).bur = s.bur := rfl
@[simp] theorem State.setCeLog_tabs (s : State) (inst : Nat) (l : List CeEntry) : (s.setCeLog inst l).tabs = s.tabs := rfl
@[simp] theorem State.setCeLog_fuses (s : State) (inst : Nat) (l : List CeEntry) : (s.setCeLog inst l).fuses = s.fuses := rfl
@[simp] theorem State.setCeLog_sampBkt (s : State) (inst : Nat) (l : List CeEntry) : (s.setCeLog inst l).sampBkt = s.sampBkt := rfl
@[simp] theorem State.setCeLog_sampLfsr (s : State) (inst : Nat) (l : List CeEntry) : (s.setCeLog inst l).sampLfsr = s.sampLfsr := rfl
@[simp] theorem State.setCeLog_sampSeq (s : State) (inst : Nat) (l : List CeEntry) : (s.setCeLog inst l).sampSeq = s.sampSeq := rfl
@[simp] theorem State.setCeLog_mgt (s : State) (inst : Nat) (l : List CeEntry) : (s.setCeLog inst l).mgt = s.mgt := rfl
@[simp] theorem State.setCeLog_pmc (s : State) (inst : Nat) (l : List CeEntry) : (s.setCeLog inst l).pmc = s.pmc := rfl
@[simp] theorem State.setCeLog_rst (s : State) (inst : Nat) (l : List CeEntry) : (s.setCeLog inst l).rst = s.rst := rfl
@[simp] theorem State.setCeLog_refLost (s : State) (inst : Nat) (l : List CeEntry) : (s.setCeLog inst l).refLost = s.refLost := rfl

/-! setDomain -/

@[simp] theorem State.setDomain_pending (s : State) (d : Nat) (x : DomainState) : (s.setDomain d x).pending = s.pending := rfl
@[simp] theorem State.setDomain_mode (s : State) (d : Nat) (x : DomainState) : (s.setDomain d x).mode = s.mode := rfl
@[simp] theorem State.setDomain_now (s : State) (d : Nat) (x : DomainState) : (s.setDomain d x).now = s.now := rfl
@[simp] theorem State.setDomain_ptp (s : State) (d : Nat) (x : DomainState) : (s.setDomain d x).ptp = s.ptp := rfl
@[simp] theorem State.setDomain_regs (s : State) (d : Nat) (x : DomainState) : (s.setDomain d x).regs = s.regs := rfl
@[simp] theorem State.setDomain_cnts (s : State) (d : Nat) (x : DomainState) : (s.setDomain d x).cnts = s.cnts := rfl
@[simp] theorem State.setDomain_latches (s : State) (d : Nat) (x : DomainState) : (s.setDomain d x).latches = s.latches := rfl
@[simp] theorem State.setDomain_out (s : State) (d : Nat) (x : DomainState) : (s.setDomain d x).out = s.out := rfl
@[simp] theorem State.setDomain_draws (s : State) (d : Nat) (x : DomainState) : (s.setDomain d x).draws = s.draws := rfl
@[simp] theorem State.setDomain_gen (s : State) (d : Nat) (x : DomainState) : (s.setDomain d x).gen = s.gen := rfl
@[simp] theorem State.setDomain_hif (s : State) (d : Nat) (x : DomainState) : (s.setDomain d x).hif = s.hif := rfl
@[simp] theorem State.setDomain_eic (s : State) (d : Nat) (x : DomainState) : (s.setDomain d x).eic = s.eic := rfl
@[simp] theorem State.setDomain_flt (s : State) (d : Nat) (x : DomainState) : (s.setDomain d x).flt = s.flt := rfl
@[simp] theorem State.setDomain_kiln (s : State) (d : Nat) (x : DomainState) : (s.setDomain d x).kiln = s.kiln := rfl
@[simp] theorem State.setDomain_units (s : State) (d : Nat) (x : DomainState) : (s.setDomain d x).units = s.units := rfl
@[simp] theorem State.setDomain_prt (s : State) (d : Nat) (x : DomainState) : (s.setDomain d x).prt = s.prt := rfl
@[simp] theorem State.setDomain_frames (s : State) (d : Nat) (x : DomainState) : (s.setDomain d x).frames = s.frames := rfl
@[simp] theorem State.setDomain_nextFrame (s : State) (d : Nat) (x : DomainState) : (s.setDomain d x).nextFrame = s.nextFrame := rfl
@[simp] theorem State.setDomain_bpm (s : State) (d : Nat) (x : DomainState) : (s.setDomain d x).bpm = s.bpm := rfl
@[simp] theorem State.setDomain_fab (s : State) (d : Nat) (x : DomainState) : (s.setDomain d x).fab = s.fab := rfl
@[simp] theorem State.setDomain_sched (s : State) (d : Nat) (x : DomainState) : (s.setDomain d x).sched = s.sched := rfl
@[simp] theorem State.setDomain_pol (s : State) (d : Nat) (x : DomainState) : (s.setDomain d x).pol = s.pol := rfl
@[simp] theorem State.setDomain_cps (s : State) (d : Nat) (x : DomainState) : (s.setDomain d x).cps = s.cps := rfl
@[simp] theorem State.setDomain_glz (s : State) (d : Nat) (x : DomainState) : (s.setDomain d x).glz = s.glz := rfl
@[simp] theorem State.setDomain_bur (s : State) (d : Nat) (x : DomainState) : (s.setDomain d x).bur = s.bur := rfl
@[simp] theorem State.setDomain_tabs (s : State) (d : Nat) (x : DomainState) : (s.setDomain d x).tabs = s.tabs := rfl
@[simp] theorem State.setDomain_fuses (s : State) (d : Nat) (x : DomainState) : (s.setDomain d x).fuses = s.fuses := rfl
@[simp] theorem State.setDomain_sampBkt (s : State) (d : Nat) (x : DomainState) : (s.setDomain d x).sampBkt = s.sampBkt := rfl
@[simp] theorem State.setDomain_sampLfsr (s : State) (d : Nat) (x : DomainState) : (s.setDomain d x).sampLfsr = s.sampLfsr := rfl
@[simp] theorem State.setDomain_sampSeq (s : State) (d : Nat) (x : DomainState) : (s.setDomain d x).sampSeq = s.sampSeq := rfl
@[simp] theorem State.setDomain_hbm (s : State) (d : Nat) (x : DomainState) : (s.setDomain d x).hbm = s.hbm := rfl
@[simp] theorem State.setDomain_mgt (s : State) (d : Nat) (x : DomainState) : (s.setDomain d x).mgt = s.mgt := rfl
@[simp] theorem State.setDomain_pmc (s : State) (d : Nat) (x : DomainState) : (s.setDomain d x).pmc = s.pmc := rfl
@[simp] theorem State.setDomain_refLost (s : State) (d : Nat) (x : DomainState) : (s.setDomain d x).refLost = s.refLost := rfl

/-! setSel -/

@[simp] theorem State.setSel_pending (s : State) (i : Nat) (l : List Nat) : (s.setSel i l).pending = s.pending := rfl
@[simp] theorem State.setSel_mode (s : State) (i : Nat) (l : List Nat) : (s.setSel i l).mode = s.mode := rfl
@[simp] theorem State.setSel_now (s : State) (i : Nat) (l : List Nat) : (s.setSel i l).now = s.now := rfl
@[simp] theorem State.setSel_ptp (s : State) (i : Nat) (l : List Nat) : (s.setSel i l).ptp = s.ptp := rfl
@[simp] theorem State.setSel_regs (s : State) (i : Nat) (l : List Nat) : (s.setSel i l).regs = s.regs := rfl
@[simp] theorem State.setSel_cnts (s : State) (i : Nat) (l : List Nat) : (s.setSel i l).cnts = s.cnts := rfl
@[simp] theorem State.setSel_latches (s : State) (i : Nat) (l : List Nat) : (s.setSel i l).latches = s.latches := rfl
@[simp] theorem State.setSel_out (s : State) (i : Nat) (l : List Nat) : (s.setSel i l).out = s.out := rfl
@[simp] theorem State.setSel_draws (s : State) (i : Nat) (l : List Nat) : (s.setSel i l).draws = s.draws := rfl
@[simp] theorem State.setSel_gen (s : State) (i : Nat) (l : List Nat) : (s.setSel i l).gen = s.gen := rfl
@[simp] theorem State.setSel_hif (s : State) (i : Nat) (l : List Nat) : (s.setSel i l).hif = s.hif := rfl
@[simp] theorem State.setSel_eic (s : State) (i : Nat) (l : List Nat) : (s.setSel i l).eic = s.eic := rfl
@[simp] theorem State.setSel_flt (s : State) (i : Nat) (l : List Nat) : (s.setSel i l).flt = s.flt := rfl
@[simp] theorem State.setSel_kiln (s : State) (i : Nat) (l : List Nat) : (s.setSel i l).kiln = s.kiln := rfl
@[simp] theorem State.setSel_units (s : State) (i : Nat) (l : List Nat) : (s.setSel i l).units = s.units := rfl
@[simp] theorem State.setSel_prt (s : State) (i : Nat) (l : List Nat) : (s.setSel i l).prt = s.prt := rfl
@[simp] theorem State.setSel_frames (s : State) (i : Nat) (l : List Nat) : (s.setSel i l).frames = s.frames := rfl
@[simp] theorem State.setSel_nextFrame (s : State) (i : Nat) (l : List Nat) : (s.setSel i l).nextFrame = s.nextFrame := rfl
@[simp] theorem State.setSel_bpm (s : State) (i : Nat) (l : List Nat) : (s.setSel i l).bpm = s.bpm := rfl
@[simp] theorem State.setSel_fab (s : State) (i : Nat) (l : List Nat) : (s.setSel i l).fab = s.fab := rfl
@[simp] theorem State.setSel_sched (s : State) (i : Nat) (l : List Nat) : (s.setSel i l).sched = s.sched := rfl
@[simp] theorem State.setSel_pol (s : State) (i : Nat) (l : List Nat) : (s.setSel i l).pol = s.pol := rfl
@[simp] theorem State.setSel_cps (s : State) (i : Nat) (l : List Nat) : (s.setSel i l).cps = s.cps := rfl
@[simp] theorem State.setSel_glz (s : State) (i : Nat) (l : List Nat) : (s.setSel i l).glz = s.glz := rfl
@[simp] theorem State.setSel_tabs (s : State) (i : Nat) (l : List Nat) : (s.setSel i l).tabs = s.tabs := rfl
@[simp] theorem State.setSel_fuses (s : State) (i : Nat) (l : List Nat) : (s.setSel i l).fuses = s.fuses := rfl
@[simp] theorem State.setSel_sampBkt (s : State) (i : Nat) (l : List Nat) : (s.setSel i l).sampBkt = s.sampBkt := rfl
@[simp] theorem State.setSel_sampLfsr (s : State) (i : Nat) (l : List Nat) : (s.setSel i l).sampLfsr = s.sampLfsr := rfl
@[simp] theorem State.setSel_sampSeq (s : State) (i : Nat) (l : List Nat) : (s.setSel i l).sampSeq = s.sampSeq := rfl
@[simp] theorem State.setSel_hbm (s : State) (i : Nat) (l : List Nat) : (s.setSel i l).hbm = s.hbm := rfl
@[simp] theorem State.setSel_mgt (s : State) (i : Nat) (l : List Nat) : (s.setSel i l).mgt = s.mgt := rfl
@[simp] theorem State.setSel_pmc (s : State) (i : Nat) (l : List Nat) : (s.setSel i l).pmc = s.pmc := rfl
@[simp] theorem State.setSel_rst (s : State) (i : Nat) (l : List Nat) : (s.setSel i l).rst = s.rst := rfl
@[simp] theorem State.setSel_refLost (s : State) (i : Nat) (l : List Nat) : (s.setSel i l).refLost = s.refLost := rfl

/-! setFilter -/

@[simp] theorem State.setFilter_pending (s : State) (q : Nat) (l : List LearnKey) : (s.setFilter q l).pending = s.pending := rfl
@[simp] theorem State.setFilter_mode (s : State) (q : Nat) (l : List LearnKey) : (s.setFilter q l).mode = s.mode := rfl
@[simp] theorem State.setFilter_now (s : State) (q : Nat) (l : List LearnKey) : (s.setFilter q l).now = s.now := rfl
@[simp] theorem State.setFilter_ptp (s : State) (q : Nat) (l : List LearnKey) : (s.setFilter q l).ptp = s.ptp := rfl
@[simp] theorem State.setFilter_regs (s : State) (q : Nat) (l : List LearnKey) : (s.setFilter q l).regs = s.regs := rfl
@[simp] theorem State.setFilter_cnts (s : State) (q : Nat) (l : List LearnKey) : (s.setFilter q l).cnts = s.cnts := rfl
@[simp] theorem State.setFilter_latches (s : State) (q : Nat) (l : List LearnKey) : (s.setFilter q l).latches = s.latches := rfl
@[simp] theorem State.setFilter_out (s : State) (q : Nat) (l : List LearnKey) : (s.setFilter q l).out = s.out := rfl
@[simp] theorem State.setFilter_draws (s : State) (q : Nat) (l : List LearnKey) : (s.setFilter q l).draws = s.draws := rfl
@[simp] theorem State.setFilter_gen (s : State) (q : Nat) (l : List LearnKey) : (s.setFilter q l).gen = s.gen := rfl
@[simp] theorem State.setFilter_hif (s : State) (q : Nat) (l : List LearnKey) : (s.setFilter q l).hif = s.hif := rfl
@[simp] theorem State.setFilter_eic (s : State) (q : Nat) (l : List LearnKey) : (s.setFilter q l).eic = s.eic := rfl
@[simp] theorem State.setFilter_flt (s : State) (q : Nat) (l : List LearnKey) : (s.setFilter q l).flt = s.flt := rfl
@[simp] theorem State.setFilter_kiln (s : State) (q : Nat) (l : List LearnKey) : (s.setFilter q l).kiln = s.kiln := rfl
@[simp] theorem State.setFilter_units (s : State) (q : Nat) (l : List LearnKey) : (s.setFilter q l).units = s.units := rfl
@[simp] theorem State.setFilter_prt (s : State) (q : Nat) (l : List LearnKey) : (s.setFilter q l).prt = s.prt := rfl
@[simp] theorem State.setFilter_frames (s : State) (q : Nat) (l : List LearnKey) : (s.setFilter q l).frames = s.frames := rfl
@[simp] theorem State.setFilter_nextFrame (s : State) (q : Nat) (l : List LearnKey) : (s.setFilter q l).nextFrame = s.nextFrame := rfl
@[simp] theorem State.setFilter_bpm (s : State) (q : Nat) (l : List LearnKey) : (s.setFilter q l).bpm = s.bpm := rfl
@[simp] theorem State.setFilter_fab (s : State) (q : Nat) (l : List LearnKey) : (s.setFilter q l).fab = s.fab := rfl
@[simp] theorem State.setFilter_sched (s : State) (q : Nat) (l : List LearnKey) : (s.setFilter q l).sched = s.sched := rfl
@[simp] theorem State.setFilter_pol (s : State) (q : Nat) (l : List LearnKey) : (s.setFilter q l).pol = s.pol := rfl
@[simp] theorem State.setFilter_cps (s : State) (q : Nat) (l : List LearnKey) : (s.setFilter q l).cps = s.cps := rfl
@[simp] theorem State.setFilter_glz (s : State) (q : Nat) (l : List LearnKey) : (s.setFilter q l).glz = s.glz := rfl
@[simp] theorem State.setFilter_bur (s : State) (q : Nat) (l : List LearnKey) : (s.setFilter q l).bur = s.bur := rfl
@[simp] theorem State.setFilter_fuses (s : State) (q : Nat) (l : List LearnKey) : (s.setFilter q l).fuses = s.fuses := rfl
@[simp] theorem State.setFilter_sampBkt (s : State) (q : Nat) (l : List LearnKey) : (s.setFilter q l).sampBkt = s.sampBkt := rfl
@[simp] theorem State.setFilter_sampLfsr (s : State) (q : Nat) (l : List LearnKey) : (s.setFilter q l).sampLfsr = s.sampLfsr := rfl
@[simp] theorem State.setFilter_sampSeq (s : State) (q : Nat) (l : List LearnKey) : (s.setFilter q l).sampSeq = s.sampSeq := rfl
@[simp] theorem State.setFilter_hbm (s : State) (q : Nat) (l : List LearnKey) : (s.setFilter q l).hbm = s.hbm := rfl
@[simp] theorem State.setFilter_mgt (s : State) (q : Nat) (l : List LearnKey) : (s.setFilter q l).mgt = s.mgt := rfl
@[simp] theorem State.setFilter_pmc (s : State) (q : Nat) (l : List LearnKey) : (s.setFilter q l).pmc = s.pmc := rfl
@[simp] theorem State.setFilter_rst (s : State) (q : Nat) (l : List LearnKey) : (s.setFilter q l).rst = s.rst := rfl
@[simp] theorem State.setFilter_refLost (s : State) (q : Nat) (l : List LearnKey) : (s.setFilter q l).refLost = s.refLost := rfl

/-! setCopy -/

@[simp] theorem State.setCopy_pending (s : State) (q : Nat) (c : Option TileCopy) : (s.setCopy q c).pending = s.pending := rfl
@[simp] theorem State.setCopy_mode (s : State) (q : Nat) (c : Option TileCopy) : (s.setCopy q c).mode = s.mode := rfl
@[simp] theorem State.setCopy_now (s : State) (q : Nat) (c : Option TileCopy) : (s.setCopy q c).now = s.now := rfl
@[simp] theorem State.setCopy_ptp (s : State) (q : Nat) (c : Option TileCopy) : (s.setCopy q c).ptp = s.ptp := rfl
@[simp] theorem State.setCopy_regs (s : State) (q : Nat) (c : Option TileCopy) : (s.setCopy q c).regs = s.regs := rfl
@[simp] theorem State.setCopy_cnts (s : State) (q : Nat) (c : Option TileCopy) : (s.setCopy q c).cnts = s.cnts := rfl
@[simp] theorem State.setCopy_latches (s : State) (q : Nat) (c : Option TileCopy) : (s.setCopy q c).latches = s.latches := rfl
@[simp] theorem State.setCopy_out (s : State) (q : Nat) (c : Option TileCopy) : (s.setCopy q c).out = s.out := rfl
@[simp] theorem State.setCopy_draws (s : State) (q : Nat) (c : Option TileCopy) : (s.setCopy q c).draws = s.draws := rfl
@[simp] theorem State.setCopy_gen (s : State) (q : Nat) (c : Option TileCopy) : (s.setCopy q c).gen = s.gen := rfl
@[simp] theorem State.setCopy_hif (s : State) (q : Nat) (c : Option TileCopy) : (s.setCopy q c).hif = s.hif := rfl
@[simp] theorem State.setCopy_eic (s : State) (q : Nat) (c : Option TileCopy) : (s.setCopy q c).eic = s.eic := rfl
@[simp] theorem State.setCopy_flt (s : State) (q : Nat) (c : Option TileCopy) : (s.setCopy q c).flt = s.flt := rfl
@[simp] theorem State.setCopy_kiln (s : State) (q : Nat) (c : Option TileCopy) : (s.setCopy q c).kiln = s.kiln := rfl
@[simp] theorem State.setCopy_units (s : State) (q : Nat) (c : Option TileCopy) : (s.setCopy q c).units = s.units := rfl
@[simp] theorem State.setCopy_prt (s : State) (q : Nat) (c : Option TileCopy) : (s.setCopy q c).prt = s.prt := rfl
@[simp] theorem State.setCopy_frames (s : State) (q : Nat) (c : Option TileCopy) : (s.setCopy q c).frames = s.frames := rfl
@[simp] theorem State.setCopy_nextFrame (s : State) (q : Nat) (c : Option TileCopy) : (s.setCopy q c).nextFrame = s.nextFrame := rfl
@[simp] theorem State.setCopy_bpm (s : State) (q : Nat) (c : Option TileCopy) : (s.setCopy q c).bpm = s.bpm := rfl
@[simp] theorem State.setCopy_fab (s : State) (q : Nat) (c : Option TileCopy) : (s.setCopy q c).fab = s.fab := rfl
@[simp] theorem State.setCopy_sched (s : State) (q : Nat) (c : Option TileCopy) : (s.setCopy q c).sched = s.sched := rfl
@[simp] theorem State.setCopy_pol (s : State) (q : Nat) (c : Option TileCopy) : (s.setCopy q c).pol = s.pol := rfl
@[simp] theorem State.setCopy_cps (s : State) (q : Nat) (c : Option TileCopy) : (s.setCopy q c).cps = s.cps := rfl
@[simp] theorem State.setCopy_glz (s : State) (q : Nat) (c : Option TileCopy) : (s.setCopy q c).glz = s.glz := rfl
@[simp] theorem State.setCopy_bur (s : State) (q : Nat) (c : Option TileCopy) : (s.setCopy q c).bur = s.bur := rfl
@[simp] theorem State.setCopy_fuses (s : State) (q : Nat) (c : Option TileCopy) : (s.setCopy q c).fuses = s.fuses := rfl
@[simp] theorem State.setCopy_sampBkt (s : State) (q : Nat) (c : Option TileCopy) : (s.setCopy q c).sampBkt = s.sampBkt := rfl
@[simp] theorem State.setCopy_sampLfsr (s : State) (q : Nat) (c : Option TileCopy) : (s.setCopy q c).sampLfsr = s.sampLfsr := rfl
@[simp] theorem State.setCopy_sampSeq (s : State) (q : Nat) (c : Option TileCopy) : (s.setCopy q c).sampSeq = s.sampSeq := rfl
@[simp] theorem State.setCopy_hbm (s : State) (q : Nat) (c : Option TileCopy) : (s.setCopy q c).hbm = s.hbm := rfl
@[simp] theorem State.setCopy_mgt (s : State) (q : Nat) (c : Option TileCopy) : (s.setCopy q c).mgt = s.mgt := rfl
@[simp] theorem State.setCopy_pmc (s : State) (q : Nat) (c : Option TileCopy) : (s.setCopy q c).pmc = s.pmc := rfl
@[simp] theorem State.setCopy_rst (s : State) (q : Nat) (c : Option TileCopy) : (s.setCopy q c).rst = s.rst := rfl
@[simp] theorem State.setCopy_refLost (s : State) (q : Nat) (c : Option TileCopy) : (s.setCopy q c).refLost = s.refLost := rfl

/-! setFlush -/

@[simp] theorem State.setFlush_pending (s : State) (f : Option Flush) : (s.setFlush f).pending = s.pending := rfl
@[simp] theorem State.setFlush_mode (s : State) (f : Option Flush) : (s.setFlush f).mode = s.mode := rfl
@[simp] theorem State.setFlush_now (s : State) (f : Option Flush) : (s.setFlush f).now = s.now := rfl
@[simp] theorem State.setFlush_ptp (s : State) (f : Option Flush) : (s.setFlush f).ptp = s.ptp := rfl
@[simp] theorem State.setFlush_regs (s : State) (f : Option Flush) : (s.setFlush f).regs = s.regs := rfl
@[simp] theorem State.setFlush_cnts (s : State) (f : Option Flush) : (s.setFlush f).cnts = s.cnts := rfl
@[simp] theorem State.setFlush_latches (s : State) (f : Option Flush) : (s.setFlush f).latches = s.latches := rfl
@[simp] theorem State.setFlush_out (s : State) (f : Option Flush) : (s.setFlush f).out = s.out := rfl
@[simp] theorem State.setFlush_draws (s : State) (f : Option Flush) : (s.setFlush f).draws = s.draws := rfl
@[simp] theorem State.setFlush_gen (s : State) (f : Option Flush) : (s.setFlush f).gen = s.gen := rfl
@[simp] theorem State.setFlush_hif (s : State) (f : Option Flush) : (s.setFlush f).hif = s.hif := rfl
@[simp] theorem State.setFlush_eic (s : State) (f : Option Flush) : (s.setFlush f).eic = s.eic := rfl
@[simp] theorem State.setFlush_flt (s : State) (f : Option Flush) : (s.setFlush f).flt = s.flt := rfl
@[simp] theorem State.setFlush_kiln (s : State) (f : Option Flush) : (s.setFlush f).kiln = s.kiln := rfl
@[simp] theorem State.setFlush_units (s : State) (f : Option Flush) : (s.setFlush f).units = s.units := rfl
@[simp] theorem State.setFlush_prt (s : State) (f : Option Flush) : (s.setFlush f).prt = s.prt := rfl
@[simp] theorem State.setFlush_frames (s : State) (f : Option Flush) : (s.setFlush f).frames = s.frames := rfl
@[simp] theorem State.setFlush_nextFrame (s : State) (f : Option Flush) : (s.setFlush f).nextFrame = s.nextFrame := rfl
@[simp] theorem State.setFlush_bpm (s : State) (f : Option Flush) : (s.setFlush f).bpm = s.bpm := rfl
@[simp] theorem State.setFlush_fab (s : State) (f : Option Flush) : (s.setFlush f).fab = s.fab := rfl
@[simp] theorem State.setFlush_sched (s : State) (f : Option Flush) : (s.setFlush f).sched = s.sched := rfl
@[simp] theorem State.setFlush_pol (s : State) (f : Option Flush) : (s.setFlush f).pol = s.pol := rfl
@[simp] theorem State.setFlush_cps (s : State) (f : Option Flush) : (s.setFlush f).cps = s.cps := rfl
@[simp] theorem State.setFlush_glz (s : State) (f : Option Flush) : (s.setFlush f).glz = s.glz := rfl
@[simp] theorem State.setFlush_bur (s : State) (f : Option Flush) : (s.setFlush f).bur = s.bur := rfl
@[simp] theorem State.setFlush_fuses (s : State) (f : Option Flush) : (s.setFlush f).fuses = s.fuses := rfl
@[simp] theorem State.setFlush_sampBkt (s : State) (f : Option Flush) : (s.setFlush f).sampBkt = s.sampBkt := rfl
@[simp] theorem State.setFlush_sampLfsr (s : State) (f : Option Flush) : (s.setFlush f).sampLfsr = s.sampLfsr := rfl
@[simp] theorem State.setFlush_sampSeq (s : State) (f : Option Flush) : (s.setFlush f).sampSeq = s.sampSeq := rfl
@[simp] theorem State.setFlush_hbm (s : State) (f : Option Flush) : (s.setFlush f).hbm = s.hbm := rfl
@[simp] theorem State.setFlush_mgt (s : State) (f : Option Flush) : (s.setFlush f).mgt = s.mgt := rfl
@[simp] theorem State.setFlush_pmc (s : State) (f : Option Flush) : (s.setFlush f).pmc = s.pmc := rfl
@[simp] theorem State.setFlush_rst (s : State) (f : Option Flush) : (s.setFlush f).rst = s.rst := rfl
@[simp] theorem State.setFlush_refLost (s : State) (f : Option Flush) : (s.setFlush f).refLost = s.refLost := rfl

/-! setCache -/

@[simp] theorem State.setCache_pending (s : State) (i : Nat) (l : List TxEntry) : (s.setCache i l).pending = s.pending := rfl
@[simp] theorem State.setCache_mode (s : State) (i : Nat) (l : List TxEntry) : (s.setCache i l).mode = s.mode := rfl
@[simp] theorem State.setCache_now (s : State) (i : Nat) (l : List TxEntry) : (s.setCache i l).now = s.now := rfl
@[simp] theorem State.setCache_ptp (s : State) (i : Nat) (l : List TxEntry) : (s.setCache i l).ptp = s.ptp := rfl
@[simp] theorem State.setCache_regs (s : State) (i : Nat) (l : List TxEntry) : (s.setCache i l).regs = s.regs := rfl
@[simp] theorem State.setCache_cnts (s : State) (i : Nat) (l : List TxEntry) : (s.setCache i l).cnts = s.cnts := rfl
@[simp] theorem State.setCache_latches (s : State) (i : Nat) (l : List TxEntry) : (s.setCache i l).latches = s.latches := rfl
@[simp] theorem State.setCache_out (s : State) (i : Nat) (l : List TxEntry) : (s.setCache i l).out = s.out := rfl
@[simp] theorem State.setCache_draws (s : State) (i : Nat) (l : List TxEntry) : (s.setCache i l).draws = s.draws := rfl
@[simp] theorem State.setCache_gen (s : State) (i : Nat) (l : List TxEntry) : (s.setCache i l).gen = s.gen := rfl
@[simp] theorem State.setCache_hif (s : State) (i : Nat) (l : List TxEntry) : (s.setCache i l).hif = s.hif := rfl
@[simp] theorem State.setCache_eic (s : State) (i : Nat) (l : List TxEntry) : (s.setCache i l).eic = s.eic := rfl
@[simp] theorem State.setCache_flt (s : State) (i : Nat) (l : List TxEntry) : (s.setCache i l).flt = s.flt := rfl
@[simp] theorem State.setCache_kiln (s : State) (i : Nat) (l : List TxEntry) : (s.setCache i l).kiln = s.kiln := rfl
@[simp] theorem State.setCache_units (s : State) (i : Nat) (l : List TxEntry) : (s.setCache i l).units = s.units := rfl
@[simp] theorem State.setCache_prt (s : State) (i : Nat) (l : List TxEntry) : (s.setCache i l).prt = s.prt := rfl
@[simp] theorem State.setCache_frames (s : State) (i : Nat) (l : List TxEntry) : (s.setCache i l).frames = s.frames := rfl
@[simp] theorem State.setCache_nextFrame (s : State) (i : Nat) (l : List TxEntry) : (s.setCache i l).nextFrame = s.nextFrame := rfl
@[simp] theorem State.setCache_bpm (s : State) (i : Nat) (l : List TxEntry) : (s.setCache i l).bpm = s.bpm := rfl
@[simp] theorem State.setCache_fab (s : State) (i : Nat) (l : List TxEntry) : (s.setCache i l).fab = s.fab := rfl
@[simp] theorem State.setCache_sched (s : State) (i : Nat) (l : List TxEntry) : (s.setCache i l).sched = s.sched := rfl
@[simp] theorem State.setCache_pol (s : State) (i : Nat) (l : List TxEntry) : (s.setCache i l).pol = s.pol := rfl
@[simp] theorem State.setCache_cps (s : State) (i : Nat) (l : List TxEntry) : (s.setCache i l).cps = s.cps := rfl
@[simp] theorem State.setCache_bur (s : State) (i : Nat) (l : List TxEntry) : (s.setCache i l).bur = s.bur := rfl
@[simp] theorem State.setCache_tabs (s : State) (i : Nat) (l : List TxEntry) : (s.setCache i l).tabs = s.tabs := rfl
@[simp] theorem State.setCache_fuses (s : State) (i : Nat) (l : List TxEntry) : (s.setCache i l).fuses = s.fuses := rfl
@[simp] theorem State.setCache_sampBkt (s : State) (i : Nat) (l : List TxEntry) : (s.setCache i l).sampBkt = s.sampBkt := rfl
@[simp] theorem State.setCache_sampLfsr (s : State) (i : Nat) (l : List TxEntry) : (s.setCache i l).sampLfsr = s.sampLfsr := rfl
@[simp] theorem State.setCache_sampSeq (s : State) (i : Nat) (l : List TxEntry) : (s.setCache i l).sampSeq = s.sampSeq := rfl
@[simp] theorem State.setCache_hbm (s : State) (i : Nat) (l : List TxEntry) : (s.setCache i l).hbm = s.hbm := rfl
@[simp] theorem State.setCache_mgt (s : State) (i : Nat) (l : List TxEntry) : (s.setCache i l).mgt = s.mgt := rfl
@[simp] theorem State.setCache_pmc (s : State) (i : Nat) (l : List TxEntry) : (s.setCache i l).pmc = s.pmc := rfl
@[simp] theorem State.setCache_rst (s : State) (i : Nat) (l : List TxEntry) : (s.setCache i l).rst = s.rst := rfl
@[simp] theorem State.setCache_refLost (s : State) (i : Nat) (l : List TxEntry) : (s.setCache i l).refLost = s.refLost := rfl

/-! setCacheWait -/

@[simp] theorem State.setCacheWait_pending (s : State) (i : Nat) (l : List Nat) : (s.setCacheWait i l).pending = s.pending := rfl
@[simp] theorem State.setCacheWait_mode (s : State) (i : Nat) (l : List Nat) : (s.setCacheWait i l).mode = s.mode := rfl
@[simp] theorem State.setCacheWait_now (s : State) (i : Nat) (l : List Nat) : (s.setCacheWait i l).now = s.now := rfl
@[simp] theorem State.setCacheWait_ptp (s : State) (i : Nat) (l : List Nat) : (s.setCacheWait i l).ptp = s.ptp := rfl
@[simp] theorem State.setCacheWait_regs (s : State) (i : Nat) (l : List Nat) : (s.setCacheWait i l).regs = s.regs := rfl
@[simp] theorem State.setCacheWait_cnts (s : State) (i : Nat) (l : List Nat) : (s.setCacheWait i l).cnts = s.cnts := rfl
@[simp] theorem State.setCacheWait_latches (s : State) (i : Nat) (l : List Nat) : (s.setCacheWait i l).latches = s.latches := rfl
@[simp] theorem State.setCacheWait_out (s : State) (i : Nat) (l : List Nat) : (s.setCacheWait i l).out = s.out := rfl
@[simp] theorem State.setCacheWait_draws (s : State) (i : Nat) (l : List Nat) : (s.setCacheWait i l).draws = s.draws := rfl
@[simp] theorem State.setCacheWait_gen (s : State) (i : Nat) (l : List Nat) : (s.setCacheWait i l).gen = s.gen := rfl
@[simp] theorem State.setCacheWait_hif (s : State) (i : Nat) (l : List Nat) : (s.setCacheWait i l).hif = s.hif := rfl
@[simp] theorem State.setCacheWait_eic (s : State) (i : Nat) (l : List Nat) : (s.setCacheWait i l).eic = s.eic := rfl
@[simp] theorem State.setCacheWait_flt (s : State) (i : Nat) (l : List Nat) : (s.setCacheWait i l).flt = s.flt := rfl
@[simp] theorem State.setCacheWait_kiln (s : State) (i : Nat) (l : List Nat) : (s.setCacheWait i l).kiln = s.kiln := rfl
@[simp] theorem State.setCacheWait_units (s : State) (i : Nat) (l : List Nat) : (s.setCacheWait i l).units = s.units := rfl
@[simp] theorem State.setCacheWait_prt (s : State) (i : Nat) (l : List Nat) : (s.setCacheWait i l).prt = s.prt := rfl
@[simp] theorem State.setCacheWait_frames (s : State) (i : Nat) (l : List Nat) : (s.setCacheWait i l).frames = s.frames := rfl
@[simp] theorem State.setCacheWait_nextFrame (s : State) (i : Nat) (l : List Nat) : (s.setCacheWait i l).nextFrame = s.nextFrame := rfl
@[simp] theorem State.setCacheWait_bpm (s : State) (i : Nat) (l : List Nat) : (s.setCacheWait i l).bpm = s.bpm := rfl
@[simp] theorem State.setCacheWait_fab (s : State) (i : Nat) (l : List Nat) : (s.setCacheWait i l).fab = s.fab := rfl
@[simp] theorem State.setCacheWait_sched (s : State) (i : Nat) (l : List Nat) : (s.setCacheWait i l).sched = s.sched := rfl
@[simp] theorem State.setCacheWait_pol (s : State) (i : Nat) (l : List Nat) : (s.setCacheWait i l).pol = s.pol := rfl
@[simp] theorem State.setCacheWait_cps (s : State) (i : Nat) (l : List Nat) : (s.setCacheWait i l).cps = s.cps := rfl
@[simp] theorem State.setCacheWait_bur (s : State) (i : Nat) (l : List Nat) : (s.setCacheWait i l).bur = s.bur := rfl
@[simp] theorem State.setCacheWait_tabs (s : State) (i : Nat) (l : List Nat) : (s.setCacheWait i l).tabs = s.tabs := rfl
@[simp] theorem State.setCacheWait_fuses (s : State) (i : Nat) (l : List Nat) : (s.setCacheWait i l).fuses = s.fuses := rfl
@[simp] theorem State.setCacheWait_sampBkt (s : State) (i : Nat) (l : List Nat) : (s.setCacheWait i l).sampBkt = s.sampBkt := rfl
@[simp] theorem State.setCacheWait_sampLfsr (s : State) (i : Nat) (l : List Nat) : (s.setCacheWait i l).sampLfsr = s.sampLfsr := rfl
@[simp] theorem State.setCacheWait_sampSeq (s : State) (i : Nat) (l : List Nat) : (s.setCacheWait i l).sampSeq = s.sampSeq := rfl
@[simp] theorem State.setCacheWait_hbm (s : State) (i : Nat) (l : List Nat) : (s.setCacheWait i l).hbm = s.hbm := rfl
@[simp] theorem State.setCacheWait_mgt (s : State) (i : Nat) (l : List Nat) : (s.setCacheWait i l).mgt = s.mgt := rfl
@[simp] theorem State.setCacheWait_pmc (s : State) (i : Nat) (l : List Nat) : (s.setCacheWait i l).pmc = s.pmc := rfl
@[simp] theorem State.setCacheWait_rst (s : State) (i : Nat) (l : List Nat) : (s.setCacheWait i l).rst = s.rst := rfl
@[simp] theorem State.setCacheWait_refLost (s : State) (i : Nat) (l : List Nat) : (s.setCacheWait i l).refLost = s.refLost := rfl

/-! setMoved -/

@[simp] theorem State.setMoved_pending (s : State) (i : Nat) (l : List Nat) : (s.setMoved i l).pending = s.pending := rfl
@[simp] theorem State.setMoved_mode (s : State) (i : Nat) (l : List Nat) : (s.setMoved i l).mode = s.mode := rfl
@[simp] theorem State.setMoved_now (s : State) (i : Nat) (l : List Nat) : (s.setMoved i l).now = s.now := rfl
@[simp] theorem State.setMoved_ptp (s : State) (i : Nat) (l : List Nat) : (s.setMoved i l).ptp = s.ptp := rfl
@[simp] theorem State.setMoved_regs (s : State) (i : Nat) (l : List Nat) : (s.setMoved i l).regs = s.regs := rfl
@[simp] theorem State.setMoved_cnts (s : State) (i : Nat) (l : List Nat) : (s.setMoved i l).cnts = s.cnts := rfl
@[simp] theorem State.setMoved_latches (s : State) (i : Nat) (l : List Nat) : (s.setMoved i l).latches = s.latches := rfl
@[simp] theorem State.setMoved_out (s : State) (i : Nat) (l : List Nat) : (s.setMoved i l).out = s.out := rfl
@[simp] theorem State.setMoved_draws (s : State) (i : Nat) (l : List Nat) : (s.setMoved i l).draws = s.draws := rfl
@[simp] theorem State.setMoved_gen (s : State) (i : Nat) (l : List Nat) : (s.setMoved i l).gen = s.gen := rfl
@[simp] theorem State.setMoved_hif (s : State) (i : Nat) (l : List Nat) : (s.setMoved i l).hif = s.hif := rfl
@[simp] theorem State.setMoved_eic (s : State) (i : Nat) (l : List Nat) : (s.setMoved i l).eic = s.eic := rfl
@[simp] theorem State.setMoved_flt (s : State) (i : Nat) (l : List Nat) : (s.setMoved i l).flt = s.flt := rfl
@[simp] theorem State.setMoved_kiln (s : State) (i : Nat) (l : List Nat) : (s.setMoved i l).kiln = s.kiln := rfl
@[simp] theorem State.setMoved_units (s : State) (i : Nat) (l : List Nat) : (s.setMoved i l).units = s.units := rfl
@[simp] theorem State.setMoved_prt (s : State) (i : Nat) (l : List Nat) : (s.setMoved i l).prt = s.prt := rfl
@[simp] theorem State.setMoved_frames (s : State) (i : Nat) (l : List Nat) : (s.setMoved i l).frames = s.frames := rfl
@[simp] theorem State.setMoved_nextFrame (s : State) (i : Nat) (l : List Nat) : (s.setMoved i l).nextFrame = s.nextFrame := rfl
@[simp] theorem State.setMoved_bpm (s : State) (i : Nat) (l : List Nat) : (s.setMoved i l).bpm = s.bpm := rfl
@[simp] theorem State.setMoved_fab (s : State) (i : Nat) (l : List Nat) : (s.setMoved i l).fab = s.fab := rfl
@[simp] theorem State.setMoved_sched (s : State) (i : Nat) (l : List Nat) : (s.setMoved i l).sched = s.sched := rfl
@[simp] theorem State.setMoved_pol (s : State) (i : Nat) (l : List Nat) : (s.setMoved i l).pol = s.pol := rfl
@[simp] theorem State.setMoved_cps (s : State) (i : Nat) (l : List Nat) : (s.setMoved i l).cps = s.cps := rfl
@[simp] theorem State.setMoved_bur (s : State) (i : Nat) (l : List Nat) : (s.setMoved i l).bur = s.bur := rfl
@[simp] theorem State.setMoved_tabs (s : State) (i : Nat) (l : List Nat) : (s.setMoved i l).tabs = s.tabs := rfl
@[simp] theorem State.setMoved_fuses (s : State) (i : Nat) (l : List Nat) : (s.setMoved i l).fuses = s.fuses := rfl
@[simp] theorem State.setMoved_sampBkt (s : State) (i : Nat) (l : List Nat) : (s.setMoved i l).sampBkt = s.sampBkt := rfl
@[simp] theorem State.setMoved_sampLfsr (s : State) (i : Nat) (l : List Nat) : (s.setMoved i l).sampLfsr = s.sampLfsr := rfl
@[simp] theorem State.setMoved_sampSeq (s : State) (i : Nat) (l : List Nat) : (s.setMoved i l).sampSeq = s.sampSeq := rfl
@[simp] theorem State.setMoved_hbm (s : State) (i : Nat) (l : List Nat) : (s.setMoved i l).hbm = s.hbm := rfl
@[simp] theorem State.setMoved_mgt (s : State) (i : Nat) (l : List Nat) : (s.setMoved i l).mgt = s.mgt := rfl
@[simp] theorem State.setMoved_pmc (s : State) (i : Nat) (l : List Nat) : (s.setMoved i l).pmc = s.pmc := rfl
@[simp] theorem State.setMoved_rst (s : State) (i : Nat) (l : List Nat) : (s.setMoved i l).rst = s.rst := rfl
@[simp] theorem State.setMoved_refLost (s : State) (i : Nat) (l : List Nat) : (s.setMoved i l).refLost = s.refLost := rfl

/-! setWaiting -/

@[simp] theorem State.setWaiting_pending (s : State) (i : Nat) (l : List Nat) : (s.setWaiting i l).pending = s.pending := rfl
@[simp] theorem State.setWaiting_mode (s : State) (i : Nat) (l : List Nat) : (s.setWaiting i l).mode = s.mode := rfl
@[simp] theorem State.setWaiting_now (s : State) (i : Nat) (l : List Nat) : (s.setWaiting i l).now = s.now := rfl
@[simp] theorem State.setWaiting_ptp (s : State) (i : Nat) (l : List Nat) : (s.setWaiting i l).ptp = s.ptp := rfl
@[simp] theorem State.setWaiting_regs (s : State) (i : Nat) (l : List Nat) : (s.setWaiting i l).regs = s.regs := rfl
@[simp] theorem State.setWaiting_cnts (s : State) (i : Nat) (l : List Nat) : (s.setWaiting i l).cnts = s.cnts := rfl
@[simp] theorem State.setWaiting_latches (s : State) (i : Nat) (l : List Nat) : (s.setWaiting i l).latches = s.latches := rfl
@[simp] theorem State.setWaiting_out (s : State) (i : Nat) (l : List Nat) : (s.setWaiting i l).out = s.out := rfl
@[simp] theorem State.setWaiting_draws (s : State) (i : Nat) (l : List Nat) : (s.setWaiting i l).draws = s.draws := rfl
@[simp] theorem State.setWaiting_gen (s : State) (i : Nat) (l : List Nat) : (s.setWaiting i l).gen = s.gen := rfl
@[simp] theorem State.setWaiting_hif (s : State) (i : Nat) (l : List Nat) : (s.setWaiting i l).hif = s.hif := rfl
@[simp] theorem State.setWaiting_eic (s : State) (i : Nat) (l : List Nat) : (s.setWaiting i l).eic = s.eic := rfl
@[simp] theorem State.setWaiting_flt (s : State) (i : Nat) (l : List Nat) : (s.setWaiting i l).flt = s.flt := rfl
@[simp] theorem State.setWaiting_kiln (s : State) (i : Nat) (l : List Nat) : (s.setWaiting i l).kiln = s.kiln := rfl
@[simp] theorem State.setWaiting_units (s : State) (i : Nat) (l : List Nat) : (s.setWaiting i l).units = s.units := rfl
@[simp] theorem State.setWaiting_prt (s : State) (i : Nat) (l : List Nat) : (s.setWaiting i l).prt = s.prt := rfl
@[simp] theorem State.setWaiting_frames (s : State) (i : Nat) (l : List Nat) : (s.setWaiting i l).frames = s.frames := rfl
@[simp] theorem State.setWaiting_nextFrame (s : State) (i : Nat) (l : List Nat) : (s.setWaiting i l).nextFrame = s.nextFrame := rfl
@[simp] theorem State.setWaiting_bpm (s : State) (i : Nat) (l : List Nat) : (s.setWaiting i l).bpm = s.bpm := rfl
@[simp] theorem State.setWaiting_fab (s : State) (i : Nat) (l : List Nat) : (s.setWaiting i l).fab = s.fab := rfl
@[simp] theorem State.setWaiting_sched (s : State) (i : Nat) (l : List Nat) : (s.setWaiting i l).sched = s.sched := rfl
@[simp] theorem State.setWaiting_pol (s : State) (i : Nat) (l : List Nat) : (s.setWaiting i l).pol = s.pol := rfl
@[simp] theorem State.setWaiting_cps (s : State) (i : Nat) (l : List Nat) : (s.setWaiting i l).cps = s.cps := rfl
@[simp] theorem State.setWaiting_bur (s : State) (i : Nat) (l : List Nat) : (s.setWaiting i l).bur = s.bur := rfl
@[simp] theorem State.setWaiting_tabs (s : State) (i : Nat) (l : List Nat) : (s.setWaiting i l).tabs = s.tabs := rfl
@[simp] theorem State.setWaiting_fuses (s : State) (i : Nat) (l : List Nat) : (s.setWaiting i l).fuses = s.fuses := rfl
@[simp] theorem State.setWaiting_sampBkt (s : State) (i : Nat) (l : List Nat) : (s.setWaiting i l).sampBkt = s.sampBkt := rfl
@[simp] theorem State.setWaiting_sampLfsr (s : State) (i : Nat) (l : List Nat) : (s.setWaiting i l).sampLfsr = s.sampLfsr := rfl
@[simp] theorem State.setWaiting_sampSeq (s : State) (i : Nat) (l : List Nat) : (s.setWaiting i l).sampSeq = s.sampSeq := rfl
@[simp] theorem State.setWaiting_hbm (s : State) (i : Nat) (l : List Nat) : (s.setWaiting i l).hbm = s.hbm := rfl
@[simp] theorem State.setWaiting_mgt (s : State) (i : Nat) (l : List Nat) : (s.setWaiting i l).mgt = s.mgt := rfl
@[simp] theorem State.setWaiting_pmc (s : State) (i : Nat) (l : List Nat) : (s.setWaiting i l).pmc = s.pmc := rfl
@[simp] theorem State.setWaiting_rst (s : State) (i : Nat) (l : List Nat) : (s.setWaiting i l).rst = s.rst := rfl
@[simp] theorem State.setWaiting_refLost (s : State) (i : Nat) (l : List Nat) : (s.setWaiting i l).refLost = s.refLost := rfl

/-! setEncMap -/

@[simp] theorem State.setEncMap_pending (s : State) (i : Nat) (m : UnitMap) : (s.setEncMap i m).pending = s.pending := rfl
@[simp] theorem State.setEncMap_mode (s : State) (i : Nat) (m : UnitMap) : (s.setEncMap i m).mode = s.mode := rfl
@[simp] theorem State.setEncMap_now (s : State) (i : Nat) (m : UnitMap) : (s.setEncMap i m).now = s.now := rfl
@[simp] theorem State.setEncMap_ptp (s : State) (i : Nat) (m : UnitMap) : (s.setEncMap i m).ptp = s.ptp := rfl
@[simp] theorem State.setEncMap_regs (s : State) (i : Nat) (m : UnitMap) : (s.setEncMap i m).regs = s.regs := rfl
@[simp] theorem State.setEncMap_cnts (s : State) (i : Nat) (m : UnitMap) : (s.setEncMap i m).cnts = s.cnts := rfl
@[simp] theorem State.setEncMap_latches (s : State) (i : Nat) (m : UnitMap) : (s.setEncMap i m).latches = s.latches := rfl
@[simp] theorem State.setEncMap_out (s : State) (i : Nat) (m : UnitMap) : (s.setEncMap i m).out = s.out := rfl
@[simp] theorem State.setEncMap_draws (s : State) (i : Nat) (m : UnitMap) : (s.setEncMap i m).draws = s.draws := rfl
@[simp] theorem State.setEncMap_gen (s : State) (i : Nat) (m : UnitMap) : (s.setEncMap i m).gen = s.gen := rfl
@[simp] theorem State.setEncMap_hif (s : State) (i : Nat) (m : UnitMap) : (s.setEncMap i m).hif = s.hif := rfl
@[simp] theorem State.setEncMap_eic (s : State) (i : Nat) (m : UnitMap) : (s.setEncMap i m).eic = s.eic := rfl
@[simp] theorem State.setEncMap_flt (s : State) (i : Nat) (m : UnitMap) : (s.setEncMap i m).flt = s.flt := rfl
@[simp] theorem State.setEncMap_kiln (s : State) (i : Nat) (m : UnitMap) : (s.setEncMap i m).kiln = s.kiln := rfl
@[simp] theorem State.setEncMap_prt (s : State) (i : Nat) (m : UnitMap) : (s.setEncMap i m).prt = s.prt := rfl
@[simp] theorem State.setEncMap_frames (s : State) (i : Nat) (m : UnitMap) : (s.setEncMap i m).frames = s.frames := rfl
@[simp] theorem State.setEncMap_nextFrame (s : State) (i : Nat) (m : UnitMap) : (s.setEncMap i m).nextFrame = s.nextFrame := rfl
@[simp] theorem State.setEncMap_bpm (s : State) (i : Nat) (m : UnitMap) : (s.setEncMap i m).bpm = s.bpm := rfl
@[simp] theorem State.setEncMap_fab (s : State) (i : Nat) (m : UnitMap) : (s.setEncMap i m).fab = s.fab := rfl
@[simp] theorem State.setEncMap_sched (s : State) (i : Nat) (m : UnitMap) : (s.setEncMap i m).sched = s.sched := rfl
@[simp] theorem State.setEncMap_pol (s : State) (i : Nat) (m : UnitMap) : (s.setEncMap i m).pol = s.pol := rfl
@[simp] theorem State.setEncMap_cps (s : State) (i : Nat) (m : UnitMap) : (s.setEncMap i m).cps = s.cps := rfl
@[simp] theorem State.setEncMap_glz (s : State) (i : Nat) (m : UnitMap) : (s.setEncMap i m).glz = s.glz := rfl
@[simp] theorem State.setEncMap_bur (s : State) (i : Nat) (m : UnitMap) : (s.setEncMap i m).bur = s.bur := rfl
@[simp] theorem State.setEncMap_tabs (s : State) (i : Nat) (m : UnitMap) : (s.setEncMap i m).tabs = s.tabs := rfl
@[simp] theorem State.setEncMap_fuses (s : State) (i : Nat) (m : UnitMap) : (s.setEncMap i m).fuses = s.fuses := rfl
@[simp] theorem State.setEncMap_sampBkt (s : State) (i : Nat) (m : UnitMap) : (s.setEncMap i m).sampBkt = s.sampBkt := rfl
@[simp] theorem State.setEncMap_sampLfsr (s : State) (i : Nat) (m : UnitMap) : (s.setEncMap i m).sampLfsr = s.sampLfsr := rfl
@[simp] theorem State.setEncMap_sampSeq (s : State) (i : Nat) (m : UnitMap) : (s.setEncMap i m).sampSeq = s.sampSeq := rfl
@[simp] theorem State.setEncMap_hbm (s : State) (i : Nat) (m : UnitMap) : (s.setEncMap i m).hbm = s.hbm := rfl
@[simp] theorem State.setEncMap_mgt (s : State) (i : Nat) (m : UnitMap) : (s.setEncMap i m).mgt = s.mgt := rfl
@[simp] theorem State.setEncMap_pmc (s : State) (i : Nat) (m : UnitMap) : (s.setEncMap i m).pmc = s.pmc := rfl
@[simp] theorem State.setEncMap_rst (s : State) (i : Nat) (m : UnitMap) : (s.setEncMap i m).rst = s.rst := rfl
@[simp] theorem State.setEncMap_refLost (s : State) (i : Nat) (m : UnitMap) : (s.setEncMap i m).refLost = s.refLost := rfl

/-! setDecMap -/

@[simp] theorem State.setDecMap_pending (s : State) (i : Nat) (m : UnitMap) : (s.setDecMap i m).pending = s.pending := rfl
@[simp] theorem State.setDecMap_mode (s : State) (i : Nat) (m : UnitMap) : (s.setDecMap i m).mode = s.mode := rfl
@[simp] theorem State.setDecMap_now (s : State) (i : Nat) (m : UnitMap) : (s.setDecMap i m).now = s.now := rfl
@[simp] theorem State.setDecMap_ptp (s : State) (i : Nat) (m : UnitMap) : (s.setDecMap i m).ptp = s.ptp := rfl
@[simp] theorem State.setDecMap_regs (s : State) (i : Nat) (m : UnitMap) : (s.setDecMap i m).regs = s.regs := rfl
@[simp] theorem State.setDecMap_cnts (s : State) (i : Nat) (m : UnitMap) : (s.setDecMap i m).cnts = s.cnts := rfl
@[simp] theorem State.setDecMap_latches (s : State) (i : Nat) (m : UnitMap) : (s.setDecMap i m).latches = s.latches := rfl
@[simp] theorem State.setDecMap_out (s : State) (i : Nat) (m : UnitMap) : (s.setDecMap i m).out = s.out := rfl
@[simp] theorem State.setDecMap_draws (s : State) (i : Nat) (m : UnitMap) : (s.setDecMap i m).draws = s.draws := rfl
@[simp] theorem State.setDecMap_gen (s : State) (i : Nat) (m : UnitMap) : (s.setDecMap i m).gen = s.gen := rfl
@[simp] theorem State.setDecMap_hif (s : State) (i : Nat) (m : UnitMap) : (s.setDecMap i m).hif = s.hif := rfl
@[simp] theorem State.setDecMap_eic (s : State) (i : Nat) (m : UnitMap) : (s.setDecMap i m).eic = s.eic := rfl
@[simp] theorem State.setDecMap_flt (s : State) (i : Nat) (m : UnitMap) : (s.setDecMap i m).flt = s.flt := rfl
@[simp] theorem State.setDecMap_kiln (s : State) (i : Nat) (m : UnitMap) : (s.setDecMap i m).kiln = s.kiln := rfl
@[simp] theorem State.setDecMap_prt (s : State) (i : Nat) (m : UnitMap) : (s.setDecMap i m).prt = s.prt := rfl
@[simp] theorem State.setDecMap_frames (s : State) (i : Nat) (m : UnitMap) : (s.setDecMap i m).frames = s.frames := rfl
@[simp] theorem State.setDecMap_nextFrame (s : State) (i : Nat) (m : UnitMap) : (s.setDecMap i m).nextFrame = s.nextFrame := rfl
@[simp] theorem State.setDecMap_bpm (s : State) (i : Nat) (m : UnitMap) : (s.setDecMap i m).bpm = s.bpm := rfl
@[simp] theorem State.setDecMap_fab (s : State) (i : Nat) (m : UnitMap) : (s.setDecMap i m).fab = s.fab := rfl
@[simp] theorem State.setDecMap_sched (s : State) (i : Nat) (m : UnitMap) : (s.setDecMap i m).sched = s.sched := rfl
@[simp] theorem State.setDecMap_pol (s : State) (i : Nat) (m : UnitMap) : (s.setDecMap i m).pol = s.pol := rfl
@[simp] theorem State.setDecMap_cps (s : State) (i : Nat) (m : UnitMap) : (s.setDecMap i m).cps = s.cps := rfl
@[simp] theorem State.setDecMap_glz (s : State) (i : Nat) (m : UnitMap) : (s.setDecMap i m).glz = s.glz := rfl
@[simp] theorem State.setDecMap_bur (s : State) (i : Nat) (m : UnitMap) : (s.setDecMap i m).bur = s.bur := rfl
@[simp] theorem State.setDecMap_tabs (s : State) (i : Nat) (m : UnitMap) : (s.setDecMap i m).tabs = s.tabs := rfl
@[simp] theorem State.setDecMap_fuses (s : State) (i : Nat) (m : UnitMap) : (s.setDecMap i m).fuses = s.fuses := rfl
@[simp] theorem State.setDecMap_sampBkt (s : State) (i : Nat) (m : UnitMap) : (s.setDecMap i m).sampBkt = s.sampBkt := rfl
@[simp] theorem State.setDecMap_sampLfsr (s : State) (i : Nat) (m : UnitMap) : (s.setDecMap i m).sampLfsr = s.sampLfsr := rfl
@[simp] theorem State.setDecMap_sampSeq (s : State) (i : Nat) (m : UnitMap) : (s.setDecMap i m).sampSeq = s.sampSeq := rfl
@[simp] theorem State.setDecMap_hbm (s : State) (i : Nat) (m : UnitMap) : (s.setDecMap i m).hbm = s.hbm := rfl
@[simp] theorem State.setDecMap_mgt (s : State) (i : Nat) (m : UnitMap) : (s.setDecMap i m).mgt = s.mgt := rfl
@[simp] theorem State.setDecMap_pmc (s : State) (i : Nat) (m : UnitMap) : (s.setDecMap i m).pmc = s.pmc := rfl
@[simp] theorem State.setDecMap_rst (s : State) (i : Nat) (m : UnitMap) : (s.setDecMap i m).rst = s.rst := rfl
@[simp] theorem State.setDecMap_refLost (s : State) (i : Nat) (m : UnitMap) : (s.setDecMap i m).refLost = s.refLost := rfl

/-! setEngMap -/

@[simp] theorem State.setEngMap_pending (s : State) (i : Nat) (m : UnitMap) : (s.setEngMap i m).pending = s.pending := rfl
@[simp] theorem State.setEngMap_mode (s : State) (i : Nat) (m : UnitMap) : (s.setEngMap i m).mode = s.mode := rfl
@[simp] theorem State.setEngMap_now (s : State) (i : Nat) (m : UnitMap) : (s.setEngMap i m).now = s.now := rfl
@[simp] theorem State.setEngMap_ptp (s : State) (i : Nat) (m : UnitMap) : (s.setEngMap i m).ptp = s.ptp := rfl
@[simp] theorem State.setEngMap_regs (s : State) (i : Nat) (m : UnitMap) : (s.setEngMap i m).regs = s.regs := rfl
@[simp] theorem State.setEngMap_cnts (s : State) (i : Nat) (m : UnitMap) : (s.setEngMap i m).cnts = s.cnts := rfl
@[simp] theorem State.setEngMap_latches (s : State) (i : Nat) (m : UnitMap) : (s.setEngMap i m).latches = s.latches := rfl
@[simp] theorem State.setEngMap_out (s : State) (i : Nat) (m : UnitMap) : (s.setEngMap i m).out = s.out := rfl
@[simp] theorem State.setEngMap_draws (s : State) (i : Nat) (m : UnitMap) : (s.setEngMap i m).draws = s.draws := rfl
@[simp] theorem State.setEngMap_gen (s : State) (i : Nat) (m : UnitMap) : (s.setEngMap i m).gen = s.gen := rfl
@[simp] theorem State.setEngMap_hif (s : State) (i : Nat) (m : UnitMap) : (s.setEngMap i m).hif = s.hif := rfl
@[simp] theorem State.setEngMap_eic (s : State) (i : Nat) (m : UnitMap) : (s.setEngMap i m).eic = s.eic := rfl
@[simp] theorem State.setEngMap_flt (s : State) (i : Nat) (m : UnitMap) : (s.setEngMap i m).flt = s.flt := rfl
@[simp] theorem State.setEngMap_kiln (s : State) (i : Nat) (m : UnitMap) : (s.setEngMap i m).kiln = s.kiln := rfl
@[simp] theorem State.setEngMap_prt (s : State) (i : Nat) (m : UnitMap) : (s.setEngMap i m).prt = s.prt := rfl
@[simp] theorem State.setEngMap_frames (s : State) (i : Nat) (m : UnitMap) : (s.setEngMap i m).frames = s.frames := rfl
@[simp] theorem State.setEngMap_nextFrame (s : State) (i : Nat) (m : UnitMap) : (s.setEngMap i m).nextFrame = s.nextFrame := rfl
@[simp] theorem State.setEngMap_bpm (s : State) (i : Nat) (m : UnitMap) : (s.setEngMap i m).bpm = s.bpm := rfl
@[simp] theorem State.setEngMap_fab (s : State) (i : Nat) (m : UnitMap) : (s.setEngMap i m).fab = s.fab := rfl
@[simp] theorem State.setEngMap_sched (s : State) (i : Nat) (m : UnitMap) : (s.setEngMap i m).sched = s.sched := rfl
@[simp] theorem State.setEngMap_pol (s : State) (i : Nat) (m : UnitMap) : (s.setEngMap i m).pol = s.pol := rfl
@[simp] theorem State.setEngMap_cps (s : State) (i : Nat) (m : UnitMap) : (s.setEngMap i m).cps = s.cps := rfl
@[simp] theorem State.setEngMap_glz (s : State) (i : Nat) (m : UnitMap) : (s.setEngMap i m).glz = s.glz := rfl
@[simp] theorem State.setEngMap_bur (s : State) (i : Nat) (m : UnitMap) : (s.setEngMap i m).bur = s.bur := rfl
@[simp] theorem State.setEngMap_tabs (s : State) (i : Nat) (m : UnitMap) : (s.setEngMap i m).tabs = s.tabs := rfl
@[simp] theorem State.setEngMap_fuses (s : State) (i : Nat) (m : UnitMap) : (s.setEngMap i m).fuses = s.fuses := rfl
@[simp] theorem State.setEngMap_sampBkt (s : State) (i : Nat) (m : UnitMap) : (s.setEngMap i m).sampBkt = s.sampBkt := rfl
@[simp] theorem State.setEngMap_sampLfsr (s : State) (i : Nat) (m : UnitMap) : (s.setEngMap i m).sampLfsr = s.sampLfsr := rfl
@[simp] theorem State.setEngMap_sampSeq (s : State) (i : Nat) (m : UnitMap) : (s.setEngMap i m).sampSeq = s.sampSeq := rfl
@[simp] theorem State.setEngMap_hbm (s : State) (i : Nat) (m : UnitMap) : (s.setEngMap i m).hbm = s.hbm := rfl
@[simp] theorem State.setEngMap_mgt (s : State) (i : Nat) (m : UnitMap) : (s.setEngMap i m).mgt = s.mgt := rfl
@[simp] theorem State.setEngMap_pmc (s : State) (i : Nat) (m : UnitMap) : (s.setEngMap i m).pmc = s.pmc := rfl
@[simp] theorem State.setEngMap_rst (s : State) (i : Nat) (m : UnitMap) : (s.setEngMap i m).rst = s.rst := rfl
@[simp] theorem State.setEngMap_refLost (s : State) (i : Nat) (m : UnitMap) : (s.setEngMap i m).refLost = s.refLost := rfl

/-! setTileMap -/

@[simp] theorem State.setTileMap_pending (s : State) (q : Nat) (m : UnitMap) : (s.setTileMap q m).pending = s.pending := rfl
@[simp] theorem State.setTileMap_mode (s : State) (q : Nat) (m : UnitMap) : (s.setTileMap q m).mode = s.mode := rfl
@[simp] theorem State.setTileMap_now (s : State) (q : Nat) (m : UnitMap) : (s.setTileMap q m).now = s.now := rfl
@[simp] theorem State.setTileMap_ptp (s : State) (q : Nat) (m : UnitMap) : (s.setTileMap q m).ptp = s.ptp := rfl
@[simp] theorem State.setTileMap_regs (s : State) (q : Nat) (m : UnitMap) : (s.setTileMap q m).regs = s.regs := rfl
@[simp] theorem State.setTileMap_cnts (s : State) (q : Nat) (m : UnitMap) : (s.setTileMap q m).cnts = s.cnts := rfl
@[simp] theorem State.setTileMap_latches (s : State) (q : Nat) (m : UnitMap) : (s.setTileMap q m).latches = s.latches := rfl
@[simp] theorem State.setTileMap_out (s : State) (q : Nat) (m : UnitMap) : (s.setTileMap q m).out = s.out := rfl
@[simp] theorem State.setTileMap_draws (s : State) (q : Nat) (m : UnitMap) : (s.setTileMap q m).draws = s.draws := rfl
@[simp] theorem State.setTileMap_gen (s : State) (q : Nat) (m : UnitMap) : (s.setTileMap q m).gen = s.gen := rfl
@[simp] theorem State.setTileMap_hif (s : State) (q : Nat) (m : UnitMap) : (s.setTileMap q m).hif = s.hif := rfl
@[simp] theorem State.setTileMap_eic (s : State) (q : Nat) (m : UnitMap) : (s.setTileMap q m).eic = s.eic := rfl
@[simp] theorem State.setTileMap_flt (s : State) (q : Nat) (m : UnitMap) : (s.setTileMap q m).flt = s.flt := rfl
@[simp] theorem State.setTileMap_kiln (s : State) (q : Nat) (m : UnitMap) : (s.setTileMap q m).kiln = s.kiln := rfl
@[simp] theorem State.setTileMap_prt (s : State) (q : Nat) (m : UnitMap) : (s.setTileMap q m).prt = s.prt := rfl
@[simp] theorem State.setTileMap_frames (s : State) (q : Nat) (m : UnitMap) : (s.setTileMap q m).frames = s.frames := rfl
@[simp] theorem State.setTileMap_nextFrame (s : State) (q : Nat) (m : UnitMap) : (s.setTileMap q m).nextFrame = s.nextFrame := rfl
@[simp] theorem State.setTileMap_bpm (s : State) (q : Nat) (m : UnitMap) : (s.setTileMap q m).bpm = s.bpm := rfl
@[simp] theorem State.setTileMap_fab (s : State) (q : Nat) (m : UnitMap) : (s.setTileMap q m).fab = s.fab := rfl
@[simp] theorem State.setTileMap_sched (s : State) (q : Nat) (m : UnitMap) : (s.setTileMap q m).sched = s.sched := rfl
@[simp] theorem State.setTileMap_pol (s : State) (q : Nat) (m : UnitMap) : (s.setTileMap q m).pol = s.pol := rfl
@[simp] theorem State.setTileMap_cps (s : State) (q : Nat) (m : UnitMap) : (s.setTileMap q m).cps = s.cps := rfl
@[simp] theorem State.setTileMap_glz (s : State) (q : Nat) (m : UnitMap) : (s.setTileMap q m).glz = s.glz := rfl
@[simp] theorem State.setTileMap_bur (s : State) (q : Nat) (m : UnitMap) : (s.setTileMap q m).bur = s.bur := rfl
@[simp] theorem State.setTileMap_tabs (s : State) (q : Nat) (m : UnitMap) : (s.setTileMap q m).tabs = s.tabs := rfl
@[simp] theorem State.setTileMap_fuses (s : State) (q : Nat) (m : UnitMap) : (s.setTileMap q m).fuses = s.fuses := rfl
@[simp] theorem State.setTileMap_sampBkt (s : State) (q : Nat) (m : UnitMap) : (s.setTileMap q m).sampBkt = s.sampBkt := rfl
@[simp] theorem State.setTileMap_sampLfsr (s : State) (q : Nat) (m : UnitMap) : (s.setTileMap q m).sampLfsr = s.sampLfsr := rfl
@[simp] theorem State.setTileMap_sampSeq (s : State) (q : Nat) (m : UnitMap) : (s.setTileMap q m).sampSeq = s.sampSeq := rfl
@[simp] theorem State.setTileMap_hbm (s : State) (q : Nat) (m : UnitMap) : (s.setTileMap q m).hbm = s.hbm := rfl
@[simp] theorem State.setTileMap_mgt (s : State) (q : Nat) (m : UnitMap) : (s.setTileMap q m).mgt = s.mgt := rfl
@[simp] theorem State.setTileMap_pmc (s : State) (q : Nat) (m : UnitMap) : (s.setTileMap q m).pmc = s.pmc := rfl
@[simp] theorem State.setTileMap_rst (s : State) (q : Nat) (m : UnitMap) : (s.setTileMap q m).rst = s.rst := rfl
@[simp] theorem State.setTileMap_refLost (s : State) (q : Nat) (m : UnitMap) : (s.setTileMap q m).refLost = s.refLost := rfl

/-! setPostponed -/

@[simp] theorem State.setPostponed_pending (s : State) (pc b : Nat) (n : Int) : (s.setPostponed pc b n).pending = s.pending := rfl
@[simp] theorem State.setPostponed_mode (s : State) (pc b : Nat) (n : Int) : (s.setPostponed pc b n).mode = s.mode := rfl
@[simp] theorem State.setPostponed_now (s : State) (pc b : Nat) (n : Int) : (s.setPostponed pc b n).now = s.now := rfl
@[simp] theorem State.setPostponed_ptp (s : State) (pc b : Nat) (n : Int) : (s.setPostponed pc b n).ptp = s.ptp := rfl
@[simp] theorem State.setPostponed_regs (s : State) (pc b : Nat) (n : Int) : (s.setPostponed pc b n).regs = s.regs := rfl
@[simp] theorem State.setPostponed_cnts (s : State) (pc b : Nat) (n : Int) : (s.setPostponed pc b n).cnts = s.cnts := rfl
@[simp] theorem State.setPostponed_latches (s : State) (pc b : Nat) (n : Int) : (s.setPostponed pc b n).latches = s.latches := rfl
@[simp] theorem State.setPostponed_out (s : State) (pc b : Nat) (n : Int) : (s.setPostponed pc b n).out = s.out := rfl
@[simp] theorem State.setPostponed_draws (s : State) (pc b : Nat) (n : Int) : (s.setPostponed pc b n).draws = s.draws := rfl
@[simp] theorem State.setPostponed_gen (s : State) (pc b : Nat) (n : Int) : (s.setPostponed pc b n).gen = s.gen := rfl
@[simp] theorem State.setPostponed_hif (s : State) (pc b : Nat) (n : Int) : (s.setPostponed pc b n).hif = s.hif := rfl
@[simp] theorem State.setPostponed_eic (s : State) (pc b : Nat) (n : Int) : (s.setPostponed pc b n).eic = s.eic := rfl
@[simp] theorem State.setPostponed_flt (s : State) (pc b : Nat) (n : Int) : (s.setPostponed pc b n).flt = s.flt := rfl
@[simp] theorem State.setPostponed_kiln (s : State) (pc b : Nat) (n : Int) : (s.setPostponed pc b n).kiln = s.kiln := rfl
@[simp] theorem State.setPostponed_units (s : State) (pc b : Nat) (n : Int) : (s.setPostponed pc b n).units = s.units := rfl
@[simp] theorem State.setPostponed_prt (s : State) (pc b : Nat) (n : Int) : (s.setPostponed pc b n).prt = s.prt := rfl
@[simp] theorem State.setPostponed_frames (s : State) (pc b : Nat) (n : Int) : (s.setPostponed pc b n).frames = s.frames := rfl
@[simp] theorem State.setPostponed_nextFrame (s : State) (pc b : Nat) (n : Int) : (s.setPostponed pc b n).nextFrame = s.nextFrame := rfl
@[simp] theorem State.setPostponed_bpm (s : State) (pc b : Nat) (n : Int) : (s.setPostponed pc b n).bpm = s.bpm := rfl
@[simp] theorem State.setPostponed_fab (s : State) (pc b : Nat) (n : Int) : (s.setPostponed pc b n).fab = s.fab := rfl
@[simp] theorem State.setPostponed_sched (s : State) (pc b : Nat) (n : Int) : (s.setPostponed pc b n).sched = s.sched := rfl
@[simp] theorem State.setPostponed_pol (s : State) (pc b : Nat) (n : Int) : (s.setPostponed pc b n).pol = s.pol := rfl
@[simp] theorem State.setPostponed_cps (s : State) (pc b : Nat) (n : Int) : (s.setPostponed pc b n).cps = s.cps := rfl
@[simp] theorem State.setPostponed_glz (s : State) (pc b : Nat) (n : Int) : (s.setPostponed pc b n).glz = s.glz := rfl
@[simp] theorem State.setPostponed_bur (s : State) (pc b : Nat) (n : Int) : (s.setPostponed pc b n).bur = s.bur := rfl
@[simp] theorem State.setPostponed_tabs (s : State) (pc b : Nat) (n : Int) : (s.setPostponed pc b n).tabs = s.tabs := rfl
@[simp] theorem State.setPostponed_fuses (s : State) (pc b : Nat) (n : Int) : (s.setPostponed pc b n).fuses = s.fuses := rfl
@[simp] theorem State.setPostponed_sampBkt (s : State) (pc b : Nat) (n : Int) : (s.setPostponed pc b n).sampBkt = s.sampBkt := rfl
@[simp] theorem State.setPostponed_sampLfsr (s : State) (pc b : Nat) (n : Int) : (s.setPostponed pc b n).sampLfsr = s.sampLfsr := rfl
@[simp] theorem State.setPostponed_sampSeq (s : State) (pc b : Nat) (n : Int) : (s.setPostponed pc b n).sampSeq = s.sampSeq := rfl
@[simp] theorem State.setPostponed_mgt (s : State) (pc b : Nat) (n : Int) : (s.setPostponed pc b n).mgt = s.mgt := rfl
@[simp] theorem State.setPostponed_pmc (s : State) (pc b : Nat) (n : Int) : (s.setPostponed pc b n).pmc = s.pmc := rfl
@[simp] theorem State.setPostponed_rst (s : State) (pc b : Nat) (n : Int) : (s.setPostponed pc b n).rst = s.rst := rfl
@[simp] theorem State.setPostponed_refLost (s : State) (pc b : Nat) (n : Int) : (s.setPostponed pc b n).refLost = s.refLost := rfl

/-! setLog -/

@[simp] theorem State.setLog_pending (s : State) (g : Gen) (n : Nat) : (s.setLog g n).pending = s.pending := rfl
@[simp] theorem State.setLog_mode (s : State) (g : Gen) (n : Nat) : (s.setLog g n).mode = s.mode := rfl
@[simp] theorem State.setLog_now (s : State) (g : Gen) (n : Nat) : (s.setLog g n).now = s.now := rfl
@[simp] theorem State.setLog_ptp (s : State) (g : Gen) (n : Nat) : (s.setLog g n).ptp = s.ptp := rfl
@[simp] theorem State.setLog_regs (s : State) (g : Gen) (n : Nat) : (s.setLog g n).regs = s.regs := rfl
@[simp] theorem State.setLog_cnts (s : State) (g : Gen) (n : Nat) : (s.setLog g n).cnts = s.cnts := rfl
@[simp] theorem State.setLog_latches (s : State) (g : Gen) (n : Nat) : (s.setLog g n).latches = s.latches := rfl
@[simp] theorem State.setLog_out (s : State) (g : Gen) (n : Nat) : (s.setLog g n).out = s.out := rfl
@[simp] theorem State.setLog_draws (s : State) (g : Gen) (n : Nat) : (s.setLog g n).draws = s.draws := rfl
@[simp] theorem State.setLog_hif (s : State) (g : Gen) (n : Nat) : (s.setLog g n).hif = s.hif := rfl
@[simp] theorem State.setLog_eic (s : State) (g : Gen) (n : Nat) : (s.setLog g n).eic = s.eic := rfl
@[simp] theorem State.setLog_flt (s : State) (g : Gen) (n : Nat) : (s.setLog g n).flt = s.flt := rfl
@[simp] theorem State.setLog_kiln (s : State) (g : Gen) (n : Nat) : (s.setLog g n).kiln = s.kiln := rfl
@[simp] theorem State.setLog_units (s : State) (g : Gen) (n : Nat) : (s.setLog g n).units = s.units := rfl
@[simp] theorem State.setLog_prt (s : State) (g : Gen) (n : Nat) : (s.setLog g n).prt = s.prt := rfl
@[simp] theorem State.setLog_frames (s : State) (g : Gen) (n : Nat) : (s.setLog g n).frames = s.frames := rfl
@[simp] theorem State.setLog_nextFrame (s : State) (g : Gen) (n : Nat) : (s.setLog g n).nextFrame = s.nextFrame := rfl
@[simp] theorem State.setLog_bpm (s : State) (g : Gen) (n : Nat) : (s.setLog g n).bpm = s.bpm := rfl
@[simp] theorem State.setLog_fab (s : State) (g : Gen) (n : Nat) : (s.setLog g n).fab = s.fab := rfl
@[simp] theorem State.setLog_sched (s : State) (g : Gen) (n : Nat) : (s.setLog g n).sched = s.sched := rfl
@[simp] theorem State.setLog_pol (s : State) (g : Gen) (n : Nat) : (s.setLog g n).pol = s.pol := rfl
@[simp] theorem State.setLog_cps (s : State) (g : Gen) (n : Nat) : (s.setLog g n).cps = s.cps := rfl
@[simp] theorem State.setLog_glz (s : State) (g : Gen) (n : Nat) : (s.setLog g n).glz = s.glz := rfl
@[simp] theorem State.setLog_bur (s : State) (g : Gen) (n : Nat) : (s.setLog g n).bur = s.bur := rfl
@[simp] theorem State.setLog_tabs (s : State) (g : Gen) (n : Nat) : (s.setLog g n).tabs = s.tabs := rfl
@[simp] theorem State.setLog_fuses (s : State) (g : Gen) (n : Nat) : (s.setLog g n).fuses = s.fuses := rfl
@[simp] theorem State.setLog_sampBkt (s : State) (g : Gen) (n : Nat) : (s.setLog g n).sampBkt = s.sampBkt := rfl
@[simp] theorem State.setLog_sampLfsr (s : State) (g : Gen) (n : Nat) : (s.setLog g n).sampLfsr = s.sampLfsr := rfl
@[simp] theorem State.setLog_sampSeq (s : State) (g : Gen) (n : Nat) : (s.setLog g n).sampSeq = s.sampSeq := rfl
@[simp] theorem State.setLog_hbm (s : State) (g : Gen) (n : Nat) : (s.setLog g n).hbm = s.hbm := rfl
@[simp] theorem State.setLog_mgt (s : State) (g : Gen) (n : Nat) : (s.setLog g n).mgt = s.mgt := rfl
@[simp] theorem State.setLog_pmc (s : State) (g : Gen) (n : Nat) : (s.setLog g n).pmc = s.pmc := rfl
@[simp] theorem State.setLog_rst (s : State) (g : Gen) (n : Nat) : (s.setLog g n).rst = s.rst := rfl
@[simp] theorem State.setLog_refLost (s : State) (g : Gen) (n : Nat) : (s.setLog g n).refLost = s.refLost := rfl

/-! Reads of what was written -/

@[simp] theorem State.advance_now (s : State) (dt : Nat) : (s.advance dt).now = s.now + dt := rfl
@[simp] theorem State.setTabs_tabs (s : State) (t : Tables) : (s.setTabs t).tabs = t := rfl
@[simp] theorem State.setBoot_boot (s : State) (b : Boot) : (s.setBoot b).boot = b := rfl
@[simp] theorem State.setClaims_claims (s : State) (l : List Claim) : (s.setClaims l).bpm.claims = l := rfl

/-- A register that was written reads as it was written. -/
@[simp] theorem State.regOf_setRegOf (s : State) (r : RegName) (fn i j v : Nat) :
    (s.setRegOf r fn i j v).regOf r fn i j = v := Tab.get_set_same _ _ _ _

/-- A register with another key reads as before. -/
theorem State.regOf_setRegOf_other (s : State) {r q : RegName} {fn i j v g k l : Nat} (h : q.key g k l ≠ r.key fn i j) :
    (s.setRegOf r fn i j v).regOf q g k l = s.regOf q g k l := Tab.get_set_other' _ _ _ _ h

@[simp] theorem State.reg_setReg (s : State) (r : RegName) (i j v : Nat) : (s.setReg r i j v).reg r i j = v :=
  Tab.get_set_same _ _ _ _

@[simp] theorem State.cnt_bumpBy (s : State) (k n : Nat) : (s.bumpBy k n).cnt k = (s.cnt k + n) % 2 ^ 48 :=
  Tab.get_set_same _ _ _ _

@[simp] theorem State.cnt_bump (s : State) (k : Nat) : (s.bump k).cnt k = (s.cnt k + 1) % 2 ^ 48 := Tab.get_set_same _ _ _ _

theorem State.cnt_bumpBy_other (s : State) {k n j : Nat} (h : j ≠ k) : (s.bumpBy k n).cnt j = s.cnt j :=
  Tab.get_set_other _ _ _ h

theorem State.cnt_bump_other (s : State) {k j : Nat} (h : j ≠ k) : (s.bump k).cnt j = s.cnt j := Tab.get_set_other _ _ _ h

@[simp] theorem State.ring_setRing (s : State) (r : Nat) (x : RingState) : (s.setRing r x).ring r = x := Tab.get_set_same _ _ _ _

theorem State.ring_setRing_other (s : State) {r q : Nat} (x : RingState) (h' : q ≠ r) :
    (s.setRing r x).ring q = s.ring q := Tab.get_set_other _ _ _ h'

@[simp] theorem State.fsrc_setFsrc (s : State) (n : Nat) (x : FaultSource) : (s.setFsrc n x).fsrc n = x := Tab.get_set_same _ _ _ _

theorem State.fsrc_setFsrc_other (s : State) {n m : Nat} (x : FaultSource) (h' : m ≠ n) :
    (s.setFsrc n x).fsrc m = s.fsrc m := Tab.get_set_other _ _ _ h'

@[simp] theorem State.group_setGroup (s : State) (g : Nat) (x : GroupState) : (s.setGroup g x).group g = x := Tab.get_set_same _ _ _ _

theorem State.group_setGroup_other (s : State) {g h : Nat} (x : GroupState) (h' : h ≠ g) :
    (s.setGroup g x).group h = s.group h := Tab.get_set_other _ _ _ h'

@[simp] theorem State.frame_setFrame (s : State) (f : Nat) (x : Frame) : (s.setFrame f x).frame f = x := Tab.get_set_same _ _ _ _

theorem State.frame_setFrame_other (s : State) {f g : Nat} (x : Frame) (h' : g ≠ f) :
    (s.setFrame f x).frame g = s.frame g := Tab.get_set_other _ _ _ h'

@[simp] theorem State.saOf_setSa (s : State) (i : Nat) (x : Option Sa) : (s.setSa i x).saOf i = x := Tab.get_set_same _ _ _ _

theorem State.saOf_setSa_other (s : State) {i j : Nat} (x : Option Sa) (h' : j ≠ i) :
    (s.setSa i x).saOf j = s.saOf j := Tab.get_set_other _ _ _ h'

@[simp] theorem State.cirState_setCirState (s : State) (c : Nat) (x : CirState) : (s.setCirState c x).cirState c = x := Tab.get_set_same _ _ _ _

theorem State.cirState_setCirState_other (s : State) {c d : Nat} (x : CirState) (h' : d ≠ c) :
    (s.setCirState c x).cirState d = s.cirState d := Tab.get_set_other _ _ _ h'

@[simp] theorem State.cirVers_setCirVers (s : State) (c : Nat) (l : List CirVer) : (s.setCirVers c l).cirVers c = l := Tab.get_set_same _ _ _ _

theorem State.cirVers_setCirVers_other (s : State) {c d : Nat} (l : List CirVer) (h' : d ≠ c) :
    (s.setCirVers c l).cirVers d = s.cirVers d := Tab.get_set_other _ _ _ h'

@[simp] theorem State.voq_setVoq (s : State) (k : Nat) (v : Voq) : (s.setVoq k v).voq k = v := Tab.get_set_same _ _ _ _

theorem State.voq_setVoq_other (s : State) {k j : Nat} (v : Voq) (h' : j ≠ k) :
    (s.setVoq k v).voq j = s.voq j := Tab.get_set_other _ _ _ h'

@[simp] theorem State.intCtx_setIntCtx (s : State) (x : Nat) (c : IntCtx) : (s.setIntCtx x c).intCtx x = c := Tab.get_set_same _ _ _ _

theorem State.intCtx_setIntCtx_other (s : State) {x y : Nat} (c : IntCtx) (h' : y ≠ x) :
    (s.setIntCtx x c).intCtx y = s.intCtx y := Tab.get_set_other _ _ _ h'

@[simp] theorem State.polVers_setPolVers (s : State) (n : Nat) (l : List PolVer) : (s.setPolVers n l).polVers n = l := Tab.get_set_same _ _ _ _

theorem State.polVers_setPolVers_other (s : State) {n m : Nat} (l : List PolVer) (h' : m ≠ n) :
    (s.setPolVers n l).polVers m = s.polVers m := Tab.get_set_other _ _ _ h'

@[simp] theorem State.encMap_setEncMap (s : State) (i : Nat) (m : UnitMap) : (s.setEncMap i m).encMap i = m := Tab.get_set_same _ _ _ _

theorem State.encMap_setEncMap_other (s : State) {i j : Nat} (m : UnitMap) (h' : j ≠ i) :
    (s.setEncMap i m).encMap j = s.encMap j := Tab.get_set_other _ _ _ h'

@[simp] theorem State.decMap_setDecMap (s : State) (i : Nat) (m : UnitMap) : (s.setDecMap i m).decMap i = m := Tab.get_set_same _ _ _ _

theorem State.decMap_setDecMap_other (s : State) {i j : Nat} (m : UnitMap) (h' : j ≠ i) :
    (s.setDecMap i m).decMap j = s.decMap j := Tab.get_set_other _ _ _ h'

@[simp] theorem State.engMap_setEngMap (s : State) (i : Nat) (m : UnitMap) : (s.setEngMap i m).engMap i = m := Tab.get_set_same _ _ _ _

theorem State.engMap_setEngMap_other (s : State) {i j : Nat} (m : UnitMap) (h' : j ≠ i) :
    (s.setEngMap i m).engMap j = s.engMap j := Tab.get_set_other _ _ _ h'

@[simp] theorem State.tileMap_setTileMap (s : State) (i : Nat) (m : UnitMap) : (s.setTileMap i m).tileMap i = m := Tab.get_set_same _ _ _ _

theorem State.tileMap_setTileMap_other (s : State) {i j : Nat} (m : UnitMap) (h' : j ≠ i) :
    (s.setTileMap i m).tileMap j = s.tileMap j := Tab.get_set_other _ _ _ h'

@[simp] theorem State.cache_setCache (s : State) (i : Nat) (l : List TxEntry) : (s.setCache i l).cache i = l := Tab.get_set_same _ _ _ _

theorem State.cache_setCache_other (s : State) {i j : Nat} (l : List TxEntry) (h' : j ≠ i) :
    (s.setCache i l).cache j = s.cache j := Tab.get_set_other _ _ _ h'

@[simp] theorem State.ceLog_setCeLog (s : State) (i : Nat) (l : List CeEntry) : (s.setCeLog i l).ceLog i = l := Tab.get_set_same _ _ _ _

theorem State.ceLog_setCeLog_other (s : State) {i j : Nat} (l : List CeEntry) (h' : j ≠ i) :
    (s.setCeLog i l).ceLog j = s.ceLog j := Tab.get_set_other _ _ _ h'

@[simp] theorem State.domain_setDomain (s : State) (d : Nat) (x : DomainState) : (s.setDomain d x).domain d = x := Tab.get_set_same _ _ _ _

theorem State.domain_setDomain_other (s : State) {d e : Nat} (x : DomainState) (h' : e ≠ d) :
    (s.setDomain d x).domain e = s.domain e := Tab.get_set_other _ _ _ h'

@[simp] theorem State.frame_modFrame (s : State) (f : Nat) (g : Frame → Frame) : (s.modFrame f g).frame f = g (s.frame f) :=
  Tab.get_set_same _ _ _ _

theorem State.frame_modFrame_other (s : State) {f k : Nat} (g : Frame → Frame) (h' : k ≠ f) :
    (s.modFrame f g).frame k = s.frame k := Tab.get_set_other _ _ _ h'

@[simp] theorem State.mailbox_setMailbox (s : State) (f : Fn) (m : Mailbox) : (s.setMailbox f m).mailbox f = m :=
  Tab.get_set_same _ _ _ _

theorem State.mailbox_setMailbox_other (s : State) {f g : Fn} (m : Mailbox) (h' : g ≠ f) :
    (s.setMailbox f m).mailbox g = s.mailbox g := by
  refine Tab.get_set_other _ _ _ ?_
  cases f <;> cases g <;> first | exact absurd rfl h' | decide

/-- An interrupt source that exists reads as it was written. -/
theorem State.intSrc_setIntSrc (s : State) (n m : Nat) (x : IntSource) :
    (s.setIntSrc n x).intSrc m = if m = n ∧ 1 ≤ n ∧ n ≤ 1920 then x else s.intSrc m := by
  unfold State.setIntSrc State.intSrc
  by_cases h : 1 ≤ n ∧ n ≤ 1920
  · rw [if_pos h]; simp only [Tab.get_set, h, and_true]
  · rw [if_neg h, if_neg fun k => h k.2]

/-! Setting a source pending, and replacing a port -/

@[simp] theorem State.setIntSrc_pending (s : State) (n : Nat) (x : IntSource) : (s.setIntSrc n x).pending = s.pending := by
  unfold State.setIntSrc; split <;> rfl
@[simp] theorem State.eicEvent_pending (s : State) (n : Nat) : (s.eicEvent n).pending = s.pending := State.setIntSrc_pending ..
@[simp] theorem State.setIntSrc_mode (s : State) (n : Nat) (x : IntSource) : (s.setIntSrc n x).mode = s.mode := by
  unfold State.setIntSrc; split <;> rfl
@[simp] theorem State.eicEvent_mode (s : State) (n : Nat) : (s.eicEvent n).mode = s.mode := State.setIntSrc_mode ..
@[simp] theorem State.setIntSrc_now (s : State) (n : Nat) (x : IntSource) : (s.setIntSrc n x).now = s.now := by
  unfold State.setIntSrc; split <;> rfl
@[simp] theorem State.eicEvent_now (s : State) (n : Nat) : (s.eicEvent n).now = s.now := State.setIntSrc_now ..
@[simp] theorem State.setIntSrc_ptp (s : State) (n : Nat) (x : IntSource) : (s.setIntSrc n x).ptp = s.ptp := by
  unfold State.setIntSrc; split <;> rfl
@[simp] theorem State.eicEvent_ptp (s : State) (n : Nat) : (s.eicEvent n).ptp = s.ptp := State.setIntSrc_ptp ..
@[simp] theorem State.setIntSrc_regs (s : State) (n : Nat) (x : IntSource) : (s.setIntSrc n x).regs = s.regs := by
  unfold State.setIntSrc; split <;> rfl
@[simp] theorem State.eicEvent_regs (s : State) (n : Nat) : (s.eicEvent n).regs = s.regs := State.setIntSrc_regs ..
@[simp] theorem State.setIntSrc_cnts (s : State) (n : Nat) (x : IntSource) : (s.setIntSrc n x).cnts = s.cnts := by
  unfold State.setIntSrc; split <;> rfl
@[simp] theorem State.eicEvent_cnts (s : State) (n : Nat) : (s.eicEvent n).cnts = s.cnts := State.setIntSrc_cnts ..
@[simp] theorem State.setIntSrc_latches (s : State) (n : Nat) (x : IntSource) : (s.setIntSrc n x).latches = s.latches := by
  unfold State.setIntSrc; split <;> rfl
@[simp] theorem State.eicEvent_latches (s : State) (n : Nat) : (s.eicEvent n).latches = s.latches := State.setIntSrc_latches ..
@[simp] theorem State.setIntSrc_out (s : State) (n : Nat) (x : IntSource) : (s.setIntSrc n x).out = s.out := by
  unfold State.setIntSrc; split <;> rfl
@[simp] theorem State.eicEvent_out (s : State) (n : Nat) : (s.eicEvent n).out = s.out := State.setIntSrc_out ..
@[simp] theorem State.setIntSrc_draws (s : State) (n : Nat) (x : IntSource) : (s.setIntSrc n x).draws = s.draws := by
  unfold State.setIntSrc; split <;> rfl
@[simp] theorem State.eicEvent_draws (s : State) (n : Nat) : (s.eicEvent n).draws = s.draws := State.setIntSrc_draws ..
@[simp] theorem State.setIntSrc_gen (s : State) (n : Nat) (x : IntSource) : (s.setIntSrc n x).gen = s.gen := by
  unfold State.setIntSrc; split <;> rfl
@[simp] theorem State.eicEvent_gen (s : State) (n : Nat) : (s.eicEvent n).gen = s.gen := State.setIntSrc_gen ..
@[simp] theorem State.setIntSrc_hif (s : State) (n : Nat) (x : IntSource) : (s.setIntSrc n x).hif = s.hif := by
  unfold State.setIntSrc; split <;> rfl
@[simp] theorem State.eicEvent_hif (s : State) (n : Nat) : (s.eicEvent n).hif = s.hif := State.setIntSrc_hif ..
@[simp] theorem State.setIntSrc_flt (s : State) (n : Nat) (x : IntSource) : (s.setIntSrc n x).flt = s.flt := by
  unfold State.setIntSrc; split <;> rfl
@[simp] theorem State.eicEvent_flt (s : State) (n : Nat) : (s.eicEvent n).flt = s.flt := State.setIntSrc_flt ..
@[simp] theorem State.setIntSrc_kiln (s : State) (n : Nat) (x : IntSource) : (s.setIntSrc n x).kiln = s.kiln := by
  unfold State.setIntSrc; split <;> rfl
@[simp] theorem State.eicEvent_kiln (s : State) (n : Nat) : (s.eicEvent n).kiln = s.kiln := State.setIntSrc_kiln ..
@[simp] theorem State.setIntSrc_units (s : State) (n : Nat) (x : IntSource) : (s.setIntSrc n x).units = s.units := by
  unfold State.setIntSrc; split <;> rfl
@[simp] theorem State.eicEvent_units (s : State) (n : Nat) : (s.eicEvent n).units = s.units := State.setIntSrc_units ..
@[simp] theorem State.setIntSrc_prt (s : State) (n : Nat) (x : IntSource) : (s.setIntSrc n x).prt = s.prt := by
  unfold State.setIntSrc; split <;> rfl
@[simp] theorem State.eicEvent_prt (s : State) (n : Nat) : (s.eicEvent n).prt = s.prt := State.setIntSrc_prt ..
@[simp] theorem State.setIntSrc_frames (s : State) (n : Nat) (x : IntSource) : (s.setIntSrc n x).frames = s.frames := by
  unfold State.setIntSrc; split <;> rfl
@[simp] theorem State.eicEvent_frames (s : State) (n : Nat) : (s.eicEvent n).frames = s.frames := State.setIntSrc_frames ..
@[simp] theorem State.setIntSrc_nextFrame (s : State) (n : Nat) (x : IntSource) : (s.setIntSrc n x).nextFrame = s.nextFrame := by
  unfold State.setIntSrc; split <;> rfl
@[simp] theorem State.eicEvent_nextFrame (s : State) (n : Nat) : (s.eicEvent n).nextFrame = s.nextFrame := State.setIntSrc_nextFrame ..
@[simp] theorem State.setIntSrc_bpm (s : State) (n : Nat) (x : IntSource) : (s.setIntSrc n x).bpm = s.bpm := by
  unfold State.setIntSrc; split <;> rfl
@[simp] theorem State.eicEvent_bpm (s : State) (n : Nat) : (s.eicEvent n).bpm = s.bpm := State.setIntSrc_bpm ..
@[simp] theorem State.setIntSrc_fab (s : State) (n : Nat) (x : IntSource) : (s.setIntSrc n x).fab = s.fab := by
  unfold State.setIntSrc; split <;> rfl
@[simp] theorem State.eicEvent_fab (s : State) (n : Nat) : (s.eicEvent n).fab = s.fab := State.setIntSrc_fab ..
@[simp] theorem State.setIntSrc_sched (s : State) (n : Nat) (x : IntSource) : (s.setIntSrc n x).sched = s.sched := by
  unfold State.setIntSrc; split <;> rfl
@[simp] theorem State.eicEvent_sched (s : State) (n : Nat) : (s.eicEvent n).sched = s.sched := State.setIntSrc_sched ..
@[simp] theorem State.setIntSrc_pol (s : State) (n : Nat) (x : IntSource) : (s.setIntSrc n x).pol = s.pol := by
  unfold State.setIntSrc; split <;> rfl
@[simp] theorem State.eicEvent_pol (s : State) (n : Nat) : (s.eicEvent n).pol = s.pol := State.setIntSrc_pol ..
@[simp] theorem State.setIntSrc_cps (s : State) (n : Nat) (x : IntSource) : (s.setIntSrc n x).cps = s.cps := by
  unfold State.setIntSrc; split <;> rfl
@[simp] theorem State.eicEvent_cps (s : State) (n : Nat) : (s.eicEvent n).cps = s.cps := State.setIntSrc_cps ..
@[simp] theorem State.setIntSrc_glz (s : State) (n : Nat) (x : IntSource) : (s.setIntSrc n x).glz = s.glz := by
  unfold State.setIntSrc; split <;> rfl
@[simp] theorem State.eicEvent_glz (s : State) (n : Nat) : (s.eicEvent n).glz = s.glz := State.setIntSrc_glz ..
@[simp] theorem State.setIntSrc_bur (s : State) (n : Nat) (x : IntSource) : (s.setIntSrc n x).bur = s.bur := by
  unfold State.setIntSrc; split <;> rfl
@[simp] theorem State.eicEvent_bur (s : State) (n : Nat) : (s.eicEvent n).bur = s.bur := State.setIntSrc_bur ..
@[simp] theorem State.setIntSrc_tabs (s : State) (n : Nat) (x : IntSource) : (s.setIntSrc n x).tabs = s.tabs := by
  unfold State.setIntSrc; split <;> rfl
@[simp] theorem State.eicEvent_tabs (s : State) (n : Nat) : (s.eicEvent n).tabs = s.tabs := State.setIntSrc_tabs ..
@[simp] theorem State.setIntSrc_fuses (s : State) (n : Nat) (x : IntSource) : (s.setIntSrc n x).fuses = s.fuses := by
  unfold State.setIntSrc; split <;> rfl
@[simp] theorem State.eicEvent_fuses (s : State) (n : Nat) : (s.eicEvent n).fuses = s.fuses := State.setIntSrc_fuses ..
@[simp] theorem State.setIntSrc_sampBkt (s : State) (n : Nat) (x : IntSource) : (s.setIntSrc n x).sampBkt = s.sampBkt := by
  unfold State.setIntSrc; split <;> rfl
@[simp] theorem State.eicEvent_sampBkt (s : State) (n : Nat) : (s.eicEvent n).sampBkt = s.sampBkt := State.setIntSrc_sampBkt ..
@[simp] theorem State.setIntSrc_sampLfsr (s : State) (n : Nat) (x : IntSource) : (s.setIntSrc n x).sampLfsr = s.sampLfsr := by
  unfold State.setIntSrc; split <;> rfl
@[simp] theorem State.eicEvent_sampLfsr (s : State) (n : Nat) : (s.eicEvent n).sampLfsr = s.sampLfsr := State.setIntSrc_sampLfsr ..
@[simp] theorem State.setIntSrc_sampSeq (s : State) (n : Nat) (x : IntSource) : (s.setIntSrc n x).sampSeq = s.sampSeq := by
  unfold State.setIntSrc; split <;> rfl
@[simp] theorem State.eicEvent_sampSeq (s : State) (n : Nat) : (s.eicEvent n).sampSeq = s.sampSeq := State.setIntSrc_sampSeq ..
@[simp] theorem State.setIntSrc_hbm (s : State) (n : Nat) (x : IntSource) : (s.setIntSrc n x).hbm = s.hbm := by
  unfold State.setIntSrc; split <;> rfl
@[simp] theorem State.eicEvent_hbm (s : State) (n : Nat) : (s.eicEvent n).hbm = s.hbm := State.setIntSrc_hbm ..
@[simp] theorem State.setIntSrc_mgt (s : State) (n : Nat) (x : IntSource) : (s.setIntSrc n x).mgt = s.mgt := by
  unfold State.setIntSrc; split <;> rfl
@[simp] theorem State.eicEvent_mgt (s : State) (n : Nat) : (s.eicEvent n).mgt = s.mgt := State.setIntSrc_mgt ..
@[simp] theorem State.setIntSrc_pmc (s : State) (n : Nat) (x : IntSource) : (s.setIntSrc n x).pmc = s.pmc := by
  unfold State.setIntSrc; split <;> rfl
@[simp] theorem State.eicEvent_pmc (s : State) (n : Nat) : (s.eicEvent n).pmc = s.pmc := State.setIntSrc_pmc ..
@[simp] theorem State.setIntSrc_rst (s : State) (n : Nat) (x : IntSource) : (s.setIntSrc n x).rst = s.rst := by
  unfold State.setIntSrc; split <;> rfl
@[simp] theorem State.eicEvent_rst (s : State) (n : Nat) : (s.eicEvent n).rst = s.rst := State.setIntSrc_rst ..
@[simp] theorem State.setIntSrc_refLost (s : State) (n : Nat) (x : IntSource) : (s.setIntSrc n x).refLost = s.refLost := by
  unfold State.setIntSrc; split <;> rfl
@[simp] theorem State.eicEvent_refLost (s : State) (n : Nat) : (s.eicEvent n).refLost = s.refLost := State.setIntSrc_refLost ..
@[simp] theorem State.setPort_pending (s : State) (p : Nat) (x : PortState) : (s.setPort p x).pending = s.pending := by
  simp only [State.setPort]; split <;> simp
@[simp] theorem State.setPort_mode (s : State) (p : Nat) (x : PortState) : (s.setPort p x).mode = s.mode := by
  simp only [State.setPort]; split <;> simp
@[simp] theorem State.setPort_now (s : State) (p : Nat) (x : PortState) : (s.setPort p x).now = s.now := by
  simp only [State.setPort]; split <;> simp
@[simp] theorem State.setPort_ptp (s : State) (p : Nat) (x : PortState) : (s.setPort p x).ptp = s.ptp := by
  simp only [State.setPort]; split <;> simp
@[simp] theorem State.setPort_regs (s : State) (p : Nat) (x : PortState) : (s.setPort p x).regs = s.regs := by
  simp only [State.setPort]; split <;> simp
@[simp] theorem State.setPort_cnts (s : State) (p : Nat) (x : PortState) : (s.setPort p x).cnts = s.cnts := by
  simp only [State.setPort]; split <;> simp
@[simp] theorem State.setPort_latches (s : State) (p : Nat) (x : PortState) : (s.setPort p x).latches = s.latches := by
  simp only [State.setPort]; split <;> simp
@[simp] theorem State.setPort_out (s : State) (p : Nat) (x : PortState) : (s.setPort p x).out = s.out := by
  simp only [State.setPort]; split <;> simp
@[simp] theorem State.setPort_draws (s : State) (p : Nat) (x : PortState) : (s.setPort p x).draws = s.draws := by
  simp only [State.setPort]; split <;> simp
@[simp] theorem State.setPort_gen (s : State) (p : Nat) (x : PortState) : (s.setPort p x).gen = s.gen := by
  simp only [State.setPort]; split <;> simp
@[simp] theorem State.setPort_hif (s : State) (p : Nat) (x : PortState) : (s.setPort p x).hif = s.hif := by
  simp only [State.setPort]; split <;> simp
@[simp] theorem State.setPort_flt (s : State) (p : Nat) (x : PortState) : (s.setPort p x).flt = s.flt := by
  simp only [State.setPort]; split <;> simp
@[simp] theorem State.setPort_kiln (s : State) (p : Nat) (x : PortState) : (s.setPort p x).kiln = s.kiln := by
  simp only [State.setPort]; split <;> simp
@[simp] theorem State.setPort_units (s : State) (p : Nat) (x : PortState) : (s.setPort p x).units = s.units := by
  simp only [State.setPort]; split <;> simp
@[simp] theorem State.setPort_frames (s : State) (p : Nat) (x : PortState) : (s.setPort p x).frames = s.frames := by
  simp only [State.setPort]; split <;> simp
@[simp] theorem State.setPort_nextFrame (s : State) (p : Nat) (x : PortState) : (s.setPort p x).nextFrame = s.nextFrame := by
  simp only [State.setPort]; split <;> simp
@[simp] theorem State.setPort_bpm (s : State) (p : Nat) (x : PortState) : (s.setPort p x).bpm = s.bpm := by
  simp only [State.setPort]; split <;> simp
@[simp] theorem State.setPort_fab (s : State) (p : Nat) (x : PortState) : (s.setPort p x).fab = s.fab := by
  simp only [State.setPort]; split <;> simp
@[simp] theorem State.setPort_sched (s : State) (p : Nat) (x : PortState) : (s.setPort p x).sched = s.sched := by
  simp only [State.setPort]; split <;> simp
@[simp] theorem State.setPort_pol (s : State) (p : Nat) (x : PortState) : (s.setPort p x).pol = s.pol := by
  simp only [State.setPort]; split <;> simp
@[simp] theorem State.setPort_cps (s : State) (p : Nat) (x : PortState) : (s.setPort p x).cps = s.cps := by
  simp only [State.setPort]; split <;> simp
@[simp] theorem State.setPort_glz (s : State) (p : Nat) (x : PortState) : (s.setPort p x).glz = s.glz := by
  simp only [State.setPort]; split <;> simp
@[simp] theorem State.setPort_bur (s : State) (p : Nat) (x : PortState) : (s.setPort p x).bur = s.bur := by
  simp only [State.setPort]; split <;> simp
@[simp] theorem State.setPort_tabs (s : State) (p : Nat) (x : PortState) : (s.setPort p x).tabs = s.tabs := by
  simp only [State.setPort]; split <;> simp
@[simp] theorem State.setPort_fuses (s : State) (p : Nat) (x : PortState) : (s.setPort p x).fuses = s.fuses := by
  simp only [State.setPort]; split <;> simp
@[simp] theorem State.setPort_sampBkt (s : State) (p : Nat) (x : PortState) : (s.setPort p x).sampBkt = s.sampBkt := by
  simp only [State.setPort]; split <;> simp
@[simp] theorem State.setPort_sampLfsr (s : State) (p : Nat) (x : PortState) : (s.setPort p x).sampLfsr = s.sampLfsr := by
  simp only [State.setPort]; split <;> simp
@[simp] theorem State.setPort_sampSeq (s : State) (p : Nat) (x : PortState) : (s.setPort p x).sampSeq = s.sampSeq := by
  simp only [State.setPort]; split <;> simp
@[simp] theorem State.setPort_hbm (s : State) (p : Nat) (x : PortState) : (s.setPort p x).hbm = s.hbm := by
  simp only [State.setPort]; split <;> simp
@[simp] theorem State.setPort_mgt (s : State) (p : Nat) (x : PortState) : (s.setPort p x).mgt = s.mgt := by
  simp only [State.setPort]; split <;> simp
@[simp] theorem State.setPort_pmc (s : State) (p : Nat) (x : PortState) : (s.setPort p x).pmc = s.pmc := by
  simp only [State.setPort]; split <;> simp
@[simp] theorem State.setPort_rst (s : State) (p : Nat) (x : PortState) : (s.setPort p x).rst = s.rst := by
  simp only [State.setPort]; split <;> simp
@[simp] theorem State.setPort_refLost (s : State) (p : Nat) (x : PortState) : (s.setPort p x).refLost = s.refLost := by
  simp only [State.setPort]; split <;> simp

/-- A port reads as it was written. -/
theorem State.port_setPort (s : State) (p q : Nat) (x : PortState) :
    (s.setPort p x).port q = if q = p then x else s.port q := by
  simp only [State.setPort, State.port]
  split <;> simp only [State.eicEvent_prt, Tab.get_set]

end Sys2Proof.Machine
end

