-- ==== Sys2Proof/Laws/Frame.lean ====
section
/-! SUPPORT. What each shared operation leaves as it was, said in the parts of the state: OnlyIn composes along a run of
operations, and each operation has one lemma. -/

namespace Sys2Proof.Claims

open Sys2Proof.Machine

set_option Elab.async false

/-! OnlyIn composes -/

theorem SamePart.refl (s : State) (p : Part) : SamePart s s p := by
  cases p <;> simp [SamePart, sameLink, sameLane]

theorem SamePart.trans {s t u : State} {p : Part} (h : SamePart s t p) (k : SamePart t u p) : SamePart s u p := by
  cases p
  case time => exact ⟨k.1.trans h.1, k.2.1.trans h.2.1, k.2.2.trans h.2.2⟩
  case regs => exact fun r fn i j n => (k r fn i j n).trans (h r fn i j n)
  case cntCfg => exact fun r fn i j n => (k r fn i j n).trans (h r fn i j n)
  case links =>
    intro p
    obtain ⟨a, b, c, d, e, f⟩ := h p
    obtain ⟨a', b', c', d', e', f'⟩ := k p
    exact ⟨a'.trans a, b'.trans b, c'.trans c, d'.trans d, e'.trans e, f'.trans f⟩
  case lanes =>
    intro p
    obtain ⟨a, b, c, d⟩ := h p
    obtain ⟨a', b', c', d'⟩ := k p
    exact ⟨a'.trans a, b'.trans b, c'.trans c, d'.trans d⟩
  all_goals exact Eq.trans (b := _) k h

theorem OnlyIn.refl (ps : List Part) (s : State) : OnlyIn ps s s := fun p _ => SamePart.refl s p

theorem OnlyIn.trans {ps : List Part} {s t u : State} (h : OnlyIn ps s t) (k : OnlyIn ps t u) : OnlyIn ps s u :=
  fun p hp => (h p hp).trans (k p hp)

/-- More parts may be listed. -/
theorem OnlyIn.mono {ps qs : List Part} {s t : State} (h : OnlyIn ps s t) (hs : ∀ p ∈ ps, p ∈ qs := by decide) :
    OnlyIn qs s t := fun p hp => h p fun k => hp (hs p k)

/-- Each part is listed or the same. -/
theorem OnlyIn.of {ps : List Part} {s t : State} (h : ∀ p, p ∈ ps ∨ SamePart s t p) : OnlyIn ps s t :=
  fun p hp => (h p).resolve_left hp

/-- A list of steps of one kind. -/
theorem OnlyIn.runOver {α : Type} {ps : List Part} {f : α → State → State} (h : ∀ a s, OnlyIn ps s (f a s)) (l : List α)
    (s : State) : OnlyIn ps s (Machine.runOver l f s) := by
  unfold Machine.runOver
  induction l generalizing s with
  | nil => exact .refl _ _
  | cons a l ih => exact (h a s).trans (ih _)

/-- A list of steps whose elements meet what each step needs. -/
theorem OnlyIn.runOver' {α : Type} {ps : List Part} {f : α → State → State} {l : List α}
    (h : ∀ a ∈ l, ∀ s, OnlyIn ps s (f a s)) (s : State) : OnlyIn ps s (Machine.runOver l f s) := by
  unfold Machine.runOver
  induction l generalizing s with
  | nil => exact .refl _ _
  | cons a l ih => exact (h a List.mem_cons_self s).trans (ih (fun b hb => h b (List.mem_cons_of_mem _ hb)) _)

theorem OnlyIn.foldl {α : Type} {ps : List Part} {f : State → α → State} (h : ∀ a s, OnlyIn ps s (f s a)) (l : List α)
    (s : State) : OnlyIn ps s (l.foldl f s) := by
  induction l generalizing s with
  | nil => exact .refl _ _
  | cons a l ih => exact (h a s).trans (ih _)

/-! Operations that replace one part -/

theorem onlyIn_advance (s : State) (dt : Nat) : OnlyIn [.time] s (s.advance dt) :=
  .of fun p => by
    cases p <;> first
      | (left; decide)
      | (right; exact rfl)
      | (right; exact ⟨rfl, rfl, rfl⟩)
      | (right; exact fun _ _ _ _ _ => rfl)
      | (right; exact fun _ => ⟨rfl, rfl, rfl, rfl, rfl, rfl⟩)
      | (right; exact fun _ => ⟨rfl, rfl, rfl, rfl⟩)

theorem onlyIn_setRegOf (s : State) (r : RegName) (fn i j v : Nat) : OnlyIn [.regs, .cntCfg] s (s.setRegOf r fn i j v) :=
  .of fun p => by
    cases p <;> first
      | (left; decide)
      | (right; exact rfl)
      | (right; exact ⟨rfl, rfl, rfl⟩)
      | (right; exact fun _ _ _ _ _ => rfl)
      | (right; exact fun _ => ⟨rfl, rfl, rfl, rfl, rfl, rfl⟩)
      | (right; exact fun _ => ⟨rfl, rfl, rfl, rfl⟩)

theorem onlyIn_setReg (s : State) (r : RegName) (i j v : Nat) : OnlyIn [.regs, .cntCfg] s (s.setReg r i j v) :=
  .of fun p => by
    cases p <;> first
      | (left; decide)
      | (right; exact rfl)
      | (right; exact ⟨rfl, rfl, rfl⟩)
      | (right; exact fun _ _ _ _ _ => rfl)
      | (right; exact fun _ => ⟨rfl, rfl, rfl, rfl, rfl, rfl⟩)
      | (right; exact fun _ => ⟨rfl, rfl, rfl, rfl⟩)

theorem onlyIn_bumpBy (s : State) (k n : Nat) : OnlyIn [.cnts] s (s.bumpBy k n) :=
  .of fun p => by
    cases p <;> first
      | (left; decide)
      | (right; exact rfl)
      | (right; exact ⟨rfl, rfl, rfl⟩)
      | (right; exact fun _ _ _ _ _ => rfl)
      | (right; exact fun _ => ⟨rfl, rfl, rfl, rfl, rfl, rfl⟩)
      | (right; exact fun _ => ⟨rfl, rfl, rfl, rfl⟩)

theorem onlyIn_bump (s : State) (k : Nat) : OnlyIn [.cnts] s (s.bump k) :=
  .of fun p => by
    cases p <;> first
      | (left; decide)
      | (right; exact rfl)
      | (right; exact ⟨rfl, rfl, rfl⟩)
      | (right; exact fun _ _ _ _ _ => rfl)
      | (right; exact fun _ => ⟨rfl, rfl, rfl, rfl, rfl, rfl⟩)
      | (right; exact fun _ => ⟨rfl, rfl, rfl, rfl⟩)

theorem onlyIn_setRing (s : State) (r : Nat) (x : RingState) : OnlyIn [.hif] s (s.setRing r x) :=
  .of fun p => by
    cases p <;> first
      | (left; decide)
      | (right; exact rfl)
      | (right; exact ⟨rfl, rfl, rfl⟩)
      | (right; exact fun _ _ _ _ _ => rfl)
      | (right; exact fun _ => ⟨rfl, rfl, rfl, rfl, rfl, rfl⟩)
      | (right; exact fun _ => ⟨rfl, rfl, rfl, rfl⟩)

theorem onlyIn_countPair (s : State) (i len : Nat) : OnlyIn [.pmc] s (s.countPair i len) :=
  .of fun p => by
    cases p <;> first
      | (left; decide)
      | (right; exact rfl)
      | (right; exact ⟨rfl, rfl, rfl⟩)
      | (right; exact fun _ _ _ _ _ => rfl)
      | (right; exact fun _ => ⟨rfl, rfl, rfl, rfl, rfl, rfl⟩)
      | (right; exact fun _ => ⟨rfl, rfl, rfl, rfl⟩)

theorem onlyIn_setGroup (s : State) (g : Nat) (x : GroupState) : OnlyIn [.units] s (s.setGroup g x) :=
  .of fun p => by
    cases p <;> first
      | (left; decide)
      | (right; exact rfl)
      | (right; exact ⟨rfl, rfl, rfl⟩)
      | (right; exact fun _ _ _ _ _ => rfl)
      | (right; exact fun _ => ⟨rfl, rfl, rfl, rfl, rfl, rfl⟩)
      | (right; exact fun _ => ⟨rfl, rfl, rfl, rfl⟩)

theorem onlyIn_setFsrc (s : State) (n : Nat) (x : FaultSource) : OnlyIn [.flt] s (s.setFsrc n x) :=
  .of fun p => by
    cases p <;> first
      | (left; decide)
      | (right; exact rfl)
      | (right; exact ⟨rfl, rfl, rfl⟩)
      | (right; exact fun _ _ _ _ _ => rfl)
      | (right; exact fun _ => ⟨rfl, rfl, rfl, rfl, rfl, rfl⟩)
      | (right; exact fun _ => ⟨rfl, rfl, rfl, rfl⟩)

theorem onlyIn_setFrame (s : State) (f : Nat) (x : Frame) : OnlyIn [.frames] s (s.setFrame f x) :=
  .of fun p => by
    cases p <;> first
      | (left; decide)
      | (right; exact rfl)
      | (right; exact ⟨rfl, rfl, rfl⟩)
      | (right; exact fun _ _ _ _ _ => rfl)
      | (right; exact fun _ => ⟨rfl, rfl, rfl, rfl, rfl, rfl⟩)
      | (right; exact fun _ => ⟨rfl, rfl, rfl, rfl⟩)

theorem onlyIn_modFrame (s : State) (f : Nat) (g : Frame → Frame) : OnlyIn [.frames] s (s.modFrame f g) :=
  .of fun p => by
    cases p <;> first
      | (left; decide)
      | (right; exact rfl)
      | (right; exact ⟨rfl, rfl, rfl⟩)
      | (right; exact fun _ _ _ _ _ => rfl)
      | (right; exact fun _ => ⟨rfl, rfl, rfl, rfl, rfl, rfl⟩)
      | (right; exact fun _ => ⟨rfl, rfl, rfl, rfl⟩)

theorem onlyIn_setSa (s : State) (i : Nat) (x : Option Sa) : OnlyIn [.glz] s (s.setSa i x) :=
  .of fun p => by
    cases p <;> first
      | (left; decide)
      | (right; exact rfl)
      | (right; exact ⟨rfl, rfl, rfl⟩)
      | (right; exact fun _ _ _ _ _ => rfl)
      | (right; exact fun _ => ⟨rfl, rfl, rfl, rfl, rfl, rfl⟩)
      | (right; exact fun _ => ⟨rfl, rfl, rfl, rfl⟩)

theorem onlyIn_setCirState (s : State) (c : Nat) (x : CirState) : OnlyIn [.glz] s (s.setCirState c x) :=
  .of fun p => by
    cases p <;> first
      | (left; decide)
      | (right; exact rfl)
      | (right; exact ⟨rfl, rfl, rfl⟩)
      | (right; exact fun _ _ _ _ _ => rfl)
      | (right; exact fun _ => ⟨rfl, rfl, rfl, rfl, rfl, rfl⟩)
      | (right; exact fun _ => ⟨rfl, rfl, rfl, rfl⟩)

theorem onlyIn_setCirVers (s : State) (c : Nat) (l : List CirVer) : OnlyIn [.glz] s (s.setCirVers c l) :=
  .of fun p => by
    cases p <;> first
      | (left; decide)
      | (right; exact rfl)
      | (right; exact ⟨rfl, rfl, rfl⟩)
      | (right; exact fun _ _ _ _ _ => rfl)
      | (right; exact fun _ => ⟨rfl, rfl, rfl, rfl, rfl, rfl⟩)
      | (right; exact fun _ => ⟨rfl, rfl, rfl, rfl⟩)

theorem onlyIn_setVoq (s : State) (k : Nat) (v : Voq) : OnlyIn [.bpm] s (s.setVoq k v) :=
  .of fun p => by
    cases p <;> first
      | (left; decide)
      | (right; exact rfl)
      | (right; exact ⟨rfl, rfl, rfl⟩)
      | (right; exact fun _ _ _ _ _ => rfl)
      | (right; exact fun _ => ⟨rfl, rfl, rfl, rfl, rfl, rfl⟩)
      | (right; exact fun _ => ⟨rfl, rfl, rfl, rfl⟩)

theorem onlyIn_setClaims (s : State) (l : List Claim) : OnlyIn [.bpm] s (s.setClaims l) :=
  .of fun p => by
    cases p <;> first
      | (left; decide)
      | (right; exact rfl)
      | (right; exact ⟨rfl, rfl, rfl⟩)
      | (right; exact fun _ _ _ _ _ => rfl)
      | (right; exact fun _ => ⟨rfl, rfl, rfl, rfl, rfl, rfl⟩)
      | (right; exact fun _ => ⟨rfl, rfl, rfl, rfl⟩)

theorem onlyIn_setEngine (s : State) (i e : Nat) (x : Engine) : OnlyIn [.bur] s (s.setEngine i e x) :=
  .of fun p => by
    cases p <;> first
      | (left; decide)
      | (right; exact rfl)
      | (right; exact ⟨rfl, rfl, rfl⟩)
      | (right; exact fun _ _ _ _ _ => rfl)
      | (right; exact fun _ => ⟨rfl, rfl, rfl, rfl, rfl, rfl⟩)
      | (right; exact fun _ => ⟨rfl, rfl, rfl, rfl⟩)

theorem onlyIn_setPair (s : State) (i p : Nat) (x : LanePair) : OnlyIn [.glz] s (s.setPair i p x) :=
  .of fun p => by
    cases p <;> first
      | (left; decide)
      | (right; exact rfl)
      | (right; exact ⟨rfl, rfl, rfl⟩)
      | (right; exact fun _ _ _ _ _ => rfl)
      | (right; exact fun _ => ⟨rfl, rfl, rfl, rfl, rfl, rfl⟩)
      | (right; exact fun _ => ⟨rfl, rfl, rfl, rfl⟩)

theorem onlyIn_setFpair (s : State) (a b : Nat) (x : Pair) : OnlyIn [.fab] s (s.setFpair a b x) :=
  .of fun p => by
    cases p <;> first
      | (left; decide)
      | (right; exact rfl)
      | (right; exact ⟨rfl, rfl, rfl⟩)
      | (right; exact fun _ _ _ _ _ => rfl)
      | (right; exact fun _ => ⟨rfl, rfl, rfl, rfl, rfl, rfl⟩)
      | (right; exact fun _ => ⟨rfl, rfl, rfl, rfl⟩)

theorem onlyIn_setIntCtx (s : State) (x : Nat) (c : IntCtx) : OnlyIn [.eic] s (s.setIntCtx x c) :=
  .of fun p => by
    cases p <;> first
      | (left; decide)
      | (right; exact rfl)
      | (right; exact ⟨rfl, rfl, rfl⟩)
      | (right; exact fun _ _ _ _ _ => rfl)
      | (right; exact fun _ => ⟨rfl, rfl, rfl, rfl, rfl, rfl⟩)
      | (right; exact fun _ => ⟨rfl, rfl, rfl, rfl⟩)

theorem onlyIn_setMailbox (s : State) (f : Fn) (m : Mailbox) : OnlyIn [.mgt] s (s.setMailbox f m) :=
  .of fun p => by
    cases p <;> first
      | (left; decide)
      | (right; exact rfl)
      | (right; exact ⟨rfl, rfl, rfl⟩)
      | (right; exact fun _ _ _ _ _ => rfl)
      | (right; exact fun _ => ⟨rfl, rfl, rfl, rfl, rfl, rfl⟩)
      | (right; exact fun _ => ⟨rfl, rfl, rfl, rfl⟩)

theorem onlyIn_setBoot (s : State) (b : Boot) : OnlyIn [.mgt] s (s.setBoot b) :=
  .of fun p => by
    cases p <;> first
      | (left; decide)
      | (right; exact rfl)
      | (right; exact ⟨rfl, rfl, rfl⟩)
      | (right; exact fun _ _ _ _ _ => rfl)
      | (right; exact fun _ => ⟨rfl, rfl, rfl, rfl, rfl, rfl⟩)
      | (right; exact fun _ => ⟨rfl, rfl, rfl, rfl⟩)

theorem onlyIn_setTabs (s : State) (t : Tables) : OnlyIn [.tabs] s (s.setTabs t) :=
  .of fun p => by
    cases p <;> first
      | (left; decide)
      | (right; exact rfl)
      | (right; exact ⟨rfl, rfl, rfl⟩)
      | (right; exact fun _ _ _ _ _ => rfl)
      | (right; exact fun _ => ⟨rfl, rfl, rfl, rfl, rfl, rfl⟩)
      | (right; exact fun _ => ⟨rfl, rfl, rfl, rfl⟩)

theorem onlyIn_setPolVers (s : State) (n : Nat) (l : List PolVer) : OnlyIn [.pol] s (s.setPolVers n l) :=
  .of fun p => by
    cases p <;> first
      | (left; decide)
      | (right; exact rfl)
      | (right; exact ⟨rfl, rfl, rfl⟩)
      | (right; exact fun _ _ _ _ _ => rfl)
      | (right; exact fun _ => ⟨rfl, rfl, rfl, rfl, rfl, rfl⟩)
      | (right; exact fun _ => ⟨rfl, rfl, rfl, rfl⟩)

theorem onlyIn_setCps (s : State) (c : Nat) (p : Option Profile) : OnlyIn [.cps] s (s.setCps c p) :=
  .of fun p => by
    cases p <;> first
      | (left; decide)
      | (right; exact rfl)
      | (right; exact ⟨rfl, rfl, rfl⟩)
      | (right; exact fun _ _ _ _ _ => rfl)
      | (right; exact fun _ => ⟨rfl, rfl, rfl, rfl, rfl, rfl⟩)
      | (right; exact fun _ => ⟨rfl, rfl, rfl, rfl⟩)

theorem onlyIn_setCeLog (s : State) (inst : Nat) (l : List CeEntry) : OnlyIn [.hbm] s (s.setCeLog inst l) :=
  .of fun p => by
    cases p <;> first
      | (left; decide)
      | (right; exact rfl)
      | (right; exact ⟨rfl, rfl, rfl⟩)
      | (right; exact fun _ _ _ _ _ => rfl)
      | (right; exact fun _ => ⟨rfl, rfl, rfl, rfl, rfl, rfl⟩)
      | (right; exact fun _ => ⟨rfl, rfl, rfl, rfl⟩)

theorem onlyIn_setDomain (s : State) (d : Nat) (x : DomainState) : OnlyIn [.rst] s (s.setDomain d x) :=
  .of fun p => by
    cases p <;> first
      | (left; decide)
      | (right; exact rfl)
      | (right; exact ⟨rfl, rfl, rfl⟩)
      | (right; exact fun _ _ _ _ _ => rfl)
      | (right; exact fun _ => ⟨rfl, rfl, rfl, rfl, rfl, rfl⟩)
      | (right; exact fun _ => ⟨rfl, rfl, rfl, rfl⟩)

theorem onlyIn_setSel (s : State) (i : Nat) (l : List Nat) : OnlyIn [.bur] s (s.setSel i l) :=
  .of fun p => by
    cases p <;> first
      | (left; decide)
      | (right; exact rfl)
      | (right; exact ⟨rfl, rfl, rfl⟩)
      | (right; exact fun _ _ _ _ _ => rfl)
      | (right; exact fun _ => ⟨rfl, rfl, rfl, rfl, rfl, rfl⟩)
      | (right; exact fun _ => ⟨rfl, rfl, rfl, rfl⟩)

theorem onlyIn_setFilter (s : State) (q : Nat) (l : List LearnKey) : OnlyIn [.tabs] s (s.setFilter q l) :=
  .of fun p => by
    cases p <;> first
      | (left; decide)
      | (right; exact rfl)
      | (right; exact ⟨rfl, rfl, rfl⟩)
      | (right; exact fun _ _ _ _ _ => rfl)
      | (right; exact fun _ => ⟨rfl, rfl, rfl, rfl, rfl, rfl⟩)
      | (right; exact fun _ => ⟨rfl, rfl, rfl, rfl⟩)

theorem onlyIn_setCopy (s : State) (q : Nat) (c : Option TileCopy) : OnlyIn [.tabs] s (s.setCopy q c) :=
  .of fun p => by
    cases p <;> first
      | (left; decide)
      | (right; exact rfl)
      | (right; exact ⟨rfl, rfl, rfl⟩)
      | (right; exact fun _ _ _ _ _ => rfl)
      | (right; exact fun _ => ⟨rfl, rfl, rfl, rfl, rfl, rfl⟩)
      | (right; exact fun _ => ⟨rfl, rfl, rfl, rfl⟩)

theorem onlyIn_setFlush (s : State) (f : Option Flush) : OnlyIn [.tabs] s (s.setFlush f) :=
  .of fun p => by
    cases p <;> first
      | (left; decide)
      | (right; exact rfl)
      | (right; exact ⟨rfl, rfl, rfl⟩)
      | (right; exact fun _ _ _ _ _ => rfl)
      | (right; exact fun _ => ⟨rfl, rfl, rfl, rfl, rfl, rfl⟩)
      | (right; exact fun _ => ⟨rfl, rfl, rfl, rfl⟩)

theorem onlyIn_setCache (s : State) (i : Nat) (l : List TxEntry) : OnlyIn [.glz] s (s.setCache i l) :=
  .of fun p => by
    cases p <;> first
      | (left; decide)
      | (right; exact rfl)
      | (right; exact ⟨rfl, rfl, rfl⟩)
      | (right; exact fun _ _ _ _ _ => rfl)
      | (right; exact fun _ => ⟨rfl, rfl, rfl, rfl, rfl, rfl⟩)
      | (right; exact fun _ => ⟨rfl, rfl, rfl, rfl⟩)

theorem onlyIn_setCacheWait (s : State) (i : Nat) (l : List Nat) : OnlyIn [.glz] s (s.setCacheWait i l) :=
  .of fun p => by
    cases p <;> first
      | (left; decide)
      | (right; exact rfl)
      | (right; exact ⟨rfl, rfl, rfl⟩)
      | (right; exact fun _ _ _ _ _ => rfl)
      | (right; exact fun _ => ⟨rfl, rfl, rfl, rfl, rfl, rfl⟩)
      | (right; exact fun _ => ⟨rfl, rfl, rfl, rfl⟩)

theorem onlyIn_setMoved (s : State) (i : Nat) (l : List Nat) : OnlyIn [.glz] s (s.setMoved i l) :=
  .of fun p => by
    cases p <;> first
      | (left; decide)
      | (right; exact rfl)
      | (right; exact ⟨rfl, rfl, rfl⟩)
      | (right; exact fun _ _ _ _ _ => rfl)
      | (right; exact fun _ => ⟨rfl, rfl, rfl, rfl, rfl, rfl⟩)
      | (right; exact fun _ => ⟨rfl, rfl, rfl, rfl⟩)

theorem onlyIn_setWaiting (s : State) (i : Nat) (l : List Nat) : OnlyIn [.glz] s (s.setWaiting i l) :=
  .of fun p => by
    cases p <;> first
      | (left; decide)
      | (right; exact rfl)
      | (right; exact ⟨rfl, rfl, rfl⟩)
      | (right; exact fun _ _ _ _ _ => rfl)
      | (right; exact fun _ => ⟨rfl, rfl, rfl, rfl, rfl, rfl⟩)
      | (right; exact fun _ => ⟨rfl, rfl, rfl, rfl⟩)

theorem onlyIn_setEncMap (s : State) (i : Nat) (m : UnitMap) : OnlyIn [.units] s (s.setEncMap i m) :=
  .of fun p => by
    cases p <;> first
      | (left; decide)
      | (right; exact rfl)
      | (right; exact ⟨rfl, rfl, rfl⟩)
      | (right; exact fun _ _ _ _ _ => rfl)
      | (right; exact fun _ => ⟨rfl, rfl, rfl, rfl, rfl, rfl⟩)
      | (right; exact fun _ => ⟨rfl, rfl, rfl, rfl⟩)

theorem onlyIn_setDecMap (s : State) (i : Nat) (m : UnitMap) : OnlyIn [.units] s (s.setDecMap i m) :=
  .of fun p => by
    cases p <;> first
      | (left; decide)
      | (right; exact rfl)
      | (right; exact ⟨rfl, rfl, rfl⟩)
      | (right; exact fun _ _ _ _ _ => rfl)
      | (right; exact fun _ => ⟨rfl, rfl, rfl, rfl, rfl, rfl⟩)
      | (right; exact fun _ => ⟨rfl, rfl, rfl, rfl⟩)

theorem onlyIn_setEngMap (s : State) (i : Nat) (m : UnitMap) : OnlyIn [.units] s (s.setEngMap i m) :=
  .of fun p => by
    cases p <;> first
      | (left; decide)
      | (right; exact rfl)
      | (right; exact ⟨rfl, rfl, rfl⟩)
      | (right; exact fun _ _ _ _ _ => rfl)
      | (right; exact fun _ => ⟨rfl, rfl, rfl, rfl, rfl, rfl⟩)
      | (right; exact fun _ => ⟨rfl, rfl, rfl, rfl⟩)

theorem onlyIn_setTileMap (s : State) (q : Nat) (m : UnitMap) : OnlyIn [.units] s (s.setTileMap q m) :=
  .of fun p => by
    cases p <;> first
      | (left; decide)
      | (right; exact rfl)
      | (right; exact ⟨rfl, rfl, rfl⟩)
      | (right; exact fun _ _ _ _ _ => rfl)
      | (right; exact fun _ => ⟨rfl, rfl, rfl, rfl, rfl, rfl⟩)
      | (right; exact fun _ => ⟨rfl, rfl, rfl, rfl⟩)

theorem onlyIn_setPostponed (s : State) (pc b : Nat) (n : Int) : OnlyIn [.hbm] s (s.setPostponed pc b n) :=
  .of fun p => by
    cases p <;> first
      | (left; decide)
      | (right; exact rfl)
      | (right; exact ⟨rfl, rfl, rfl⟩)
      | (right; exact fun _ _ _ _ _ => rfl)
      | (right; exact fun _ => ⟨rfl, rfl, rfl, rfl, rfl, rfl⟩)
      | (right; exact fun _ => ⟨rfl, rfl, rfl, rfl⟩)

theorem onlyIn_setLog (s : State) (g : Gen) (n : Nat) : OnlyIn [.gen] s (s.setLog g n) :=
  .of fun p => by
    cases p <;> first
      | (left; decide)
      | (right; exact rfl)
      | (right; exact ⟨rfl, rfl, rfl⟩)
      | (right; exact fun _ _ _ _ _ => rfl)
      | (right; exact fun _ => ⟨rfl, rfl, rfl, rfl, rfl, rfl⟩)
      | (right; exact fun _ => ⟨rfl, rfl, rfl, rfl⟩)

theorem onlyIn_draw (s : State) (w : Nat) : OnlyIn [.draws] s (s.draw w).2 :=
  .of fun p => by
    cases p <;> first
      | (left; decide)
      | (right; exact rfl)
      | (right; exact ⟨rfl, rfl, rfl⟩)
      | (right; exact fun _ _ _ _ _ => rfl)
      | (right; exact fun _ => ⟨rfl, rfl, rfl, rfl, rfl, rfl⟩)
      | (right; exact fun _ => ⟨rfl, rfl, rfl, rfl⟩)

/-- A register outside PMC_CNT_CFG. -/
theorem onlyIn_setRegOf_plain (s : State) (r : RegName) (fn i j v : Nat) (h : ¬ inCntCfg (r.key fn i j)) :
    OnlyIn [.regs] s (s.setRegOf r fn i j v) := by
  intro p hp
  by_cases hc : p = .cntCfg
  · subst hc
    exact fun q g k l hk => State.regOf_setRegOf_other _ fun e => h (e ▸ hk)
  · exact onlyIn_setRegOf s r fn i j v p (by simp_all)

/-- A register of PMC_CNT_CFG. -/
theorem onlyIn_setRegOf_cntCfg (s : State) (r : RegName) (fn i j v : Nat) (h : inCntCfg (r.key fn i j)) :
    OnlyIn [.cntCfg] s (s.setRegOf r fn i j v) := by
  intro p hp
  by_cases hc : p = .regs
  · subst hc
    exact fun q g k l hk => State.regOf_setRegOf_other _ fun e => hk (e ▸ h)
  · exact onlyIn_setRegOf s r fn i j v p (by simp_all)

/-! Counting and putting out -/

theorem inCntCfg_key (k : Nat) (h : k < 4096) : inCntCfg (RegName.key .pmcCntCfg 0 0 k) := by
  simp only [inCntCfg, RegName.key, RegName.addr, RegName.info]
  omega

theorem onlyIn_setCnts (s : State) (v : Tab Nat) : OnlyIn [.cnts] s { s with cnts := v } :=
  .of fun p => by
    cases p <;> first
      | (left; decide)
      | (right; exact rfl)
      | (right; exact ⟨rfl, rfl, rfl⟩)
      | (right; exact fun _ _ _ _ _ => rfl)
      | (right; exact fun _ => ⟨rfl, rfl, rfl, rfl, rfl, rfl⟩)
      | (right; exact fun _ => ⟨rfl, rfl, rfl, rfl⟩)

theorem onlyIn_pmcAdd (s : State) (k n fuel : Nat) (hk : k < 4096) : OnlyIn [.cnts, .cntCfg] s (s.pmcAdd k n fuel) := by
  induction fuel generalizing s k n with
  | zero => exact .refl _ _
  | succ fuel ih =>
    have put := fun v => (onlyIn_setCnts s v).mono (qs := [.cnts, .cntCfg])
    simp only [State.pmcAdd]
    split
    · exact put _
    · split
      · split
        · exact (put _).trans (ih _ _ _ (by omega))
        · exact put _
      · exact (put _).trans ((onlyIn_setRegOf_cntCfg _ _ _ _ _ _ (inCntCfg_key k hk)).mono)

theorem mem_pmcSelected {s : State} {u i e k : Nat} (h : k ∈ s.pmcSelected u i e) : k < 4096 := by
  simp only [State.pmcSelected, List.mem_filterMap] at h
  obtain ⟨c, -, hc⟩ := h
  split at hc
  · next h => cases hc; omega
  · cases hc

theorem onlyIn_pmcCount (s : State) (u i e n : Nat) : OnlyIn [.cnts, .cntCfg] s (s.pmcCount u i e n) := by
  unfold State.pmcCount
  split
  · exact .refl _ _
  · exact .runOver' (fun k hk s => onlyIn_pmcAdd s k n 4096 (mem_pmcSelected hk)) _

theorem onlyIn_emit (s : State) (o : Out) : OnlyIn [.out, .cnts, .cntCfg] s (s.emit o) := by
  have put : OnlyIn [.out] s { s with out := s.out ++ [o] } :=
    .of fun p => by
    cases p <;> first
      | (left; decide)
      | (right; exact rfl)
      | (right; exact ⟨rfl, rfl, rfl⟩)
      | (right; exact fun _ _ _ _ _ => rfl)
      | (right; exact fun _ => ⟨rfl, rfl, rfl, rfl, rfl, rfl⟩)
      | (right; exact fun _ => ⟨rfl, rfl, rfl, rfl⟩)
  simp only [State.emit]
  split
  · exact put.mono.trans (onlyIn_pmcCount _ _ _ _ _).mono
  · exact put.mono

theorem onlyIn_setIntSrc (s : State) (n : Nat) (x : IntSource) : OnlyIn [.eic] s (s.setIntSrc n x) := by
  unfold State.setIntSrc
  split
  · refine .of fun p => ?_
    cases p <;> first
      | (left; decide)
      | (right; exact rfl)
      | (right; exact ⟨rfl, rfl, rfl⟩)
      | (right; exact fun _ _ _ _ _ => rfl)
      | (right; exact fun _ => ⟨rfl, rfl, rfl, rfl, rfl, rfl⟩)
      | (right; exact fun _ => ⟨rfl, rfl, rfl, rfl⟩)
  · exact .refl _ _

theorem onlyIn_eicEvent (s : State) (n : Nat) : OnlyIn [.eic] s (s.eicEvent n) := onlyIn_setIntSrc _ _ _

theorem onlyIn_setPort (s : State) (p : Nat) (x : PortState) : OnlyIn [.eic, .links, .lanes] s (s.setPort p x) := by
  have put : OnlyIn [.links, .lanes] s { s with prt := s.prt.set {} p x } :=
    .of fun p => by
    cases p <;> first
      | (left; decide)
      | (right; exact rfl)
      | (right; exact ⟨rfl, rfl, rfl⟩)
      | (right; exact fun _ _ _ _ _ => rfl)
      | (right; exact fun _ => ⟨rfl, rfl, rfl, rfl, rfl, rfl⟩)
      | (right; exact fun _ => ⟨rfl, rfl, rfl, rfl⟩)
  simp only [State.setPort]
  split
  · exact put.mono
  · exact put.mono.trans (onlyIn_eicEvent _ _).mono

/-! Rings and event records -/

/-- What writing a record may change. -/
abbrev recordParts : List Part := [.out, .cnts, .cntCfg, .hif, .eic]

theorem onlyIn_writeBack (s : State) (r : Nat) : OnlyIn recordParts s (s.writeBack r) := by
  simp only [State.writeBack]
  split
  · exact (onlyIn_emit _ _).mono
  · exact .refl _ _

theorem onlyIn_ringIrq (s : State) (r : Nat) : OnlyIn [.hif, .eic] s (s.ringIrq r) := by
  simp only [State.ringIrq]
  split
  · split
    · exact .refl _ _
    · split
      · exact (onlyIn_eicEvent _ _).mono
      · split
        · exact (onlyIn_setRing _ _ _).mono
        · exact (onlyIn_setRing _ _ _).mono.trans (onlyIn_eicEvent _ _).mono
  · exact .refl _ _

theorem onlyIn_loseRecord (s : State) (r : Nat) : OnlyIn [.cnts] s (s.loseRecord r) := onlyIn_bump _ _

theorem onlyIn_touchCtx (s : State) (r : Nat) : OnlyIn [.hif] s (s.touchCtx r) := by
  unfold State.touchCtx
  split
  · refine .of fun p => ?_
    cases p <;> first
      | (left; decide)
      | (right; exact rfl)
      | (right; exact ⟨rfl, rfl, rfl⟩)
      | (right; exact fun _ _ _ _ _ => rfl)
      | (right; exact fun _ => ⟨rfl, rfl, rfl, rfl, rfl, rfl⟩)
      | (right; exact fun _ => ⟨rfl, rfl, rfl, rfl⟩)
  · exact .refl _ _

theorem onlyIn_putRecord (s : State) (r type time : Nat) (body : Bytes) :
    OnlyIn recordParts s (s.putRecord r type time body) := by
  simp only [State.putRecord]
  refine OnlyIn.trans ?_ (onlyIn_ringIrq _ _).mono
  refine OnlyIn.trans ?_ (onlyIn_writeBack _ _)
  refine OnlyIn.trans ?_ (onlyIn_setRing _ _ _).mono
  exact (onlyIn_emit _ _).mono.trans (onlyIn_touchCtx _ _).mono

theorem onlyIn_putOverflow (s : State) (r : Nat) : OnlyIn recordParts s (s.putOverflow r) := by
  simp only [State.putOverflow]
  split
  · exact .refl _ _
  · exact (onlyIn_setRing _ _ _).mono.trans (onlyIn_putRecord _ _ _ _ _)

theorem onlyIn_writeRecord (s : State) (f : Fn) (r type time : Nat) (body : Bytes) :
    OnlyIn recordParts s (s.writeRecord f r type time body) := by
  simp only [State.writeRecord]
  split
  · split
    · split
      · exact (onlyIn_loseRecord _ _).mono.trans (onlyIn_setRing _ _ _).mono
      · exact (onlyIn_loseRecord _ _).mono
    · exact .refl _ _
  · refine (onlyIn_putOverflow s r).trans ?_
    split
    · exact (onlyIn_loseRecord _ _).mono.trans (onlyIn_setRing _ _ _).mono
    · exact onlyIn_putRecord _ _ _ _ _

theorem onlyIn_ctrlRecord (s : State) (f : Fn) (type : Nat) (body : Bytes) :
    OnlyIn recordParts s (s.ctrlRecord f type body) := by
  simp only [State.ctrlRecord]
  split
  · exact onlyIn_writeRecord _ _ _ _ _ _
  · exact .refl _ _

/-! Stored units and objects -/

theorem onlyIn_hbm (s : State) (x : Hbm) : OnlyIn [.hbm] s { s with hbm := x } :=
  .of fun p => by
    cases p <;> first
      | (left; decide)
      | (right; exact rfl)
      | (right; exact ⟨rfl, rfl, rfl⟩)
      | (right; exact fun _ _ _ _ _ => rfl)
      | (right; exact fun _ => ⟨rfl, rfl, rfl, rfl, rfl, rfl⟩)
      | (right; exact fun _ => ⟨rfl, rfl, rfl, rfl⟩)

theorem onlyIn_pmc (s : State) (x : Pmc) : OnlyIn [.pmc] s { s with pmc := x } :=
  .of fun p => by
    cases p <;> first
      | (left; decide)
      | (right; exact rfl)
      | (right; exact ⟨rfl, rfl, rfl⟩)
      | (right; exact fun _ _ _ _ _ => rfl)
      | (right; exact fun _ => ⟨rfl, rfl, rfl, rfl, rfl, rfl⟩)
      | (right; exact fun _ => ⟨rfl, rfl, rfl, rfl⟩)

theorem onlyIn_wordWrite (s : State) (inst obj : Nat) : OnlyIn [.hbm] s (s.wordWrite inst obj) := onlyIn_hbm _ _

theorem onlyIn_bufWrite (s : State) (e : Bool) (i set pool idx : Nat) : OnlyIn [.hbm] s (s.bufWrite e i set pool idx) :=
  (onlyIn_wordWrite _ _ _).trans (onlyIn_wordWrite _ _ _)

theorem onlyIn_countRecon (s : State) (t : Nat) : OnlyIn [.cnts, .cntCfg] s (s.countRecon t) :=
  (onlyIn_bump _ _).mono.trans (onlyIn_pmcCount _ _ _ _ _)

theorem onlyIn_unitRead (s : State) (x : Nat × Nat) : OnlyIn [.cnts, .cntCfg] s (s.unitRead x) := by
  simp only [State.unitRead]
  split
  · exact onlyIn_pmcCount _ _ _ _ _
  · exact (onlyIn_pmcCount _ _ _ _ _).trans (onlyIn_countRecon _ _)

theorem onlyIn_unitsRead (s : State) (l : List (Nat × Nat)) : OnlyIn [.cnts, .cntCfg] s (s.unitsRead l) :=
  .runOver (fun x s => onlyIn_unitRead s x) _ _

theorem onlyIn_markStale (s : State) (g j m : Nat) : OnlyIn [.units] s (s.markStale g j m) := by
  simp only [State.markStale]
  split
  · exact onlyIn_setGroup _ _ _
  · exact .refl _ _

theorem onlyIn_freshen (s : State) (pc j : Nat) : OnlyIn [.hbm] s (s.freshen pc j) := by
  unfold State.freshen
  split
  · exact .refl _ _
  · exact onlyIn_hbm _ _

/-- What a write of a unit may change. -/
abbrev unitParts : List Part := [.cnts, .cntCfg, .units, .hbm]

theorem onlyIn_unitWrite (s : State) (x : Nat × Nat) : OnlyIn unitParts s (s.unitWrite x) := by
  simp only [State.unitWrite]
  refine OnlyIn.trans ?_ (onlyIn_pmcCount _ _ _ _ _).mono
  refine OnlyIn.trans ?_ (onlyIn_freshen _ _ _).mono
  exact (onlyIn_hbm s _).mono.trans (onlyIn_markStale _ _ _ _).mono

theorem onlyIn_parityWrite (s : State) (g j : Nat) : OnlyIn unitParts s (s.parityWrite g j) := by
  simp only [State.parityWrite]
  refine OnlyIn.trans ?_ (onlyIn_pmcCount _ _ _ _ _).mono
  exact (onlyIn_hbm s _).mono.trans (onlyIn_freshen _ _ _).mono

theorem onlyIn_unitUpdate (s : State) (x : Nat × Nat) : OnlyIn unitParts s (s.unitUpdate x) :=
  (((onlyIn_unitRead _ _).mono.trans (onlyIn_pmcCount _ _ _ _ _).mono).trans (onlyIn_unitWrite _ _)).trans
    (onlyIn_parityWrite _ _ _)

theorem onlyIn_unitFill (s : State) (x : Nat × Nat) : OnlyIn unitParts s (s.unitFill x) := by
  simp only [State.unitFill]
  split
  · exact onlyIn_unitUpdate _ _
  · split
    · exact (onlyIn_unitWrite _ _).trans (onlyIn_parityWrite _ _ _)
    · exact onlyIn_unitWrite _ _

theorem onlyIn_structWrite (s : State) (x : Struct) : OnlyIn unitParts s (s.structWrite x) :=
  .runOver (fun x s => onlyIn_unitUpdate s x) _ _

theorem onlyIn_structRead (s : State) (x : Struct) : OnlyIn [.cnts, .cntCfg] s (s.structRead x) := onlyIn_unitsRead _ _

theorem onlyIn_losePairs (s : State) (u : Nat) : OnlyIn [.pmc] s (s.losePairs u) := .runOver (fun _ _ => onlyIn_pmc _ _) _ _

theorem onlyIn_readPairs (s : State) (u : Nat) : OnlyIn [.cnts, .cntCfg, .pmc] s (s.readPairs u) := by
  unfold State.readPairs
  split
  · exact (onlyIn_losePairs _ _).mono
  · exact (onlyIn_structRead _ _).mono

theorem onlyIn_flushPair (s : State) (i : Nat) : OnlyIn [.cnts, .cntCfg, .units, .hbm, .pmc] s (s.flushPair i) := by
  unfold State.flushPair
  split
  · exact ((onlyIn_readPairs s (i / 4)).mono.trans (onlyIn_pmc _ _).mono).trans (onlyIn_structWrite _ _).mono
  · exact .refl _ _

/-! The Kiln Record -/

/-- A change of the Kiln Record that keeps its powered time. -/
theorem onlyIn_kiln (s : State) (k : Kiln) (h : k.lifeNs = s.kiln.lifeNs) : OnlyIn [.kiln] s { s with kiln := k } :=
  .of fun p => by
    cases p <;> first
      | (left; decide)
      | (right; exact rfl)
      | (right; exact ⟨rfl, rfl, rfl⟩)
      | (right; exact fun _ _ _ _ _ => rfl)
      | (right; exact fun _ => ⟨rfl, rfl, rfl, rfl, rfl, rfl⟩)
      | (right; exact fun _ => ⟨rfl, rfl, rfl, rfl⟩)
      | (right; exact ⟨rfl, rfl, h⟩)

theorem onlyIn_kilnLog (s : State) (type fn : Nat) (data : Bytes) : OnlyIn [.kiln] s (s.kilnLog type fn data) := by
  simp only [State.kilnLog]
  split <;> exact onlyIn_kiln _ _ rfl

theorem onlyIn_setPermFull (s : State) : OnlyIn [.kiln] s s.setPermFull := onlyIn_kiln _ _ rfl

theorem onlyIn_kilnPerm (s : State) (type fn : Nat) (data : Bytes) : OnlyIn [.kiln] s (s.kilnPerm type fn data) := by
  simp only [State.kilnPerm]
  split
  · exact onlyIn_kiln _ _ rfl
  · exact (onlyIn_kilnLog _ _ _ _).trans (onlyIn_setPermFull _)

/-! Fault events -/

/-- What a fault event may change. -/
abbrev faultParts : List Part := [.out, .cnts, .cntCfg, .hif, .eic, .flt, .kiln]

theorem onlyIn_flt (s : State) (x : Saggar) : OnlyIn [.flt] s { s with flt := x } :=
  .of fun p => by
    cases p <;> first
      | (left; decide)
      | (right; exact rfl)
      | (right; exact ⟨rfl, rfl, rfl⟩)
      | (right; exact fun _ _ _ _ _ => rfl)
      | (right; exact fun _ => ⟨rfl, rfl, rfl, rfl, rfl, rfl⟩)
      | (right; exact fun _ => ⟨rfl, rfl, rfl, rfl⟩)

theorem onlyIn_faultRecord (s : State) (n : FaultNote) : OnlyIn recordParts s (s.faultRecord n) := by
  have one : ∀ (b : Bool) (s : State) f r t time body,
      OnlyIn recordParts s (if b then s.writeRecord f r t time body else s) := by
    intro b s f r t time body
    split
    · exact onlyIn_writeRecord _ _ _ _ _ _
    · exact .refl _ _
  have irq : ∀ (b : Bool) (s : State) n, OnlyIn recordParts s (if b then s.eicEvent n else s) := by
    intro b s n
    split
    · exact (onlyIn_eicEvent _ _).mono
    · exact .refl _ _
  exact ((one _ _ _ _ _ _ _).trans (one _ _ _ _ _ _ _)).trans (irq _ _ _)

theorem onlyIn_flushRecord (s : State) (n : Nat) (why : Reason) : OnlyIn faultParts s (s.flushRecord n why) :=
  (onlyIn_setFsrc _ _ _).mono.trans (onlyIn_faultRecord _ _).mono

theorem onlyIn_noteEvent (s : State) (n t cause detail : Nat) : OnlyIn [.flt] s (s.noteEvent n t cause detail) :=
  onlyIn_setFsrc _ _ _

theorem onlyIn_heldRecord (s : State) (n : Nat) (why : Reason) : OnlyIn faultParts s (s.heldRecord n why) := by
  simp only [State.heldRecord]
  split
  · exact .refl _ _
  · split
    · exact onlyIn_flushRecord _ _ _
    · exact (onlyIn_setFsrc _ _ _).mono.trans (onlyIn_flushRecord _ _ _)

theorem onlyIn_degrade (s : State) (n : Nat) : OnlyIn faultParts s (s.degrade n) := by
  have perm : ∀ s : State, OnlyIn faultParts s
      (if s.mode = .factoryTest then s else s.kilnPerm 0x0014 3 (leBytes 1 (sourceCat n))) := by
    intro s
    split
    · exact .refl _ _
    · exact (onlyIn_kilnPerm _ _ _ _).mono
  unfold State.degrade
  refine OnlyIn.trans (onlyIn_faultRecord s ⟨n, .noSpare, 0, 0, 0, (s.fsrc n).lastTime, (s.fsrc n).lastTime, 0xFFFF⟩).mono ?_
  generalize s.faultRecord _ = u
  change OnlyIn faultParts u (if u.flt.degraded.contains (sourceCat n) then u else _)
  split
  · exact .refl _ _
  · exact (onlyIn_flt u { u.flt with degraded := u.flt.degraded ++ [sourceCat n] }).mono.trans (perm _)

theorem onlyIn_enqueueRetirement (s : State) (n : Nat) : OnlyIn [.flt] s (s.enqueueRetirement n) := onlyIn_flt _ _

theorem onlyIn_classify (s : State) (n : Nat) : OnlyIn faultParts s (s.classify n) := by
  have perm : ∀ (s : State) b, OnlyIn faultParts s (if s.mode = .factoryTest then s else s.kilnPerm 0x0010 3 b) := by
    intro s b
    split
    · exact .refl _ _
    · exact (onlyIn_kilnPerm _ _ _ _).mono
  unfold State.classify
  have head : ∀ t, OnlyIn faultParts (State.flushRecord (s.setFsrc n { s.fsrc n with perm := true, permCycle := s.now / 10 + 1 }) n .permanent) t →
      OnlyIn faultParts s t :=
    fun _ h => ((onlyIn_setFsrc _ _ _).mono.trans (onlyIn_flushRecord _ _ _)).trans h
  refine head _ ?_
  cases poolOf n with
  | some _ => exact (perm _ _).trans (onlyIn_enqueueRetirement _ _).mono
  | none => exact (perm _ _).trans (onlyIn_degrade _ _)

theorem onlyIn_retirableEvent (s : State) (n t cause detail : Nat) :
    OnlyIn faultParts s (s.retirableEvent n t cause detail) := by
  unfold State.retirableEvent
  refine OnlyIn.trans (onlyIn_noteEvent s n t cause detail).mono ?_
  generalize s.noteEvent n t cause detail = u
  refine OnlyIn.trans (onlyIn_setFsrc u n { u.fsrc n with
    hist := ((u.fsrc n).hist ++ [t]).drop ((u.fsrc n).hist.length + 1 - 15) }).mono ?_
  dsimp only
  generalize u.setFsrc n _ = v
  split
  · exact onlyIn_classify v n
  · exact (onlyIn_kiln v { v.kiln with
      retry := v.kiln.retry.set 0 (sourceCat n) (v.kiln.retry.get 0 (sourceCat n) + 1) } rfl).mono.trans
        (onlyIn_heldRecord _ _ _)

theorem onlyIn_retirableEvents (s : State) (n t cause detail k : Nat) :
    OnlyIn faultParts s (s.retirableEvents n t cause detail k) := by
  induction k generalizing s with
  | zero => exact .refl _ _
  | succ k ih =>
    simp only [State.retirableEvents]
    split
    · exact .refl _ _
    · exact (onlyIn_retirableEvent _ _ _ _ _).trans (ih _)

theorem onlyIn_countedEvents (s : State) (n t cause detail : Nat) (why : Reason) (k : Nat) :
    OnlyIn faultParts s (s.countedEvents n t cause detail why k) := by
  induction k generalizing s with
  | zero => exact .refl _ _
  | succ k ih =>
    simp only [State.countedEvents]
    refine (onlyIn_noteEvent s n t cause detail).mono.trans (OnlyIn.trans ?_ (ih _))
    split
    · exact onlyIn_flushRecord _ _ _
    · exact onlyIn_heldRecord _ _ _

theorem onlyIn_faultEventAt (s : State) (n cause detail k t : Nat) :
    OnlyIn faultParts s (s.faultEventAt n cause detail k t) := by
  have bump : ∀ (s : State) c, OnlyIn faultParts s (s.bumpBy c k) := fun s c => (onlyIn_bumpBy _ _ _).mono
  simp only [State.faultEventAt]
  split
  · exact .refl _ _
  · refine OnlyIn.trans (onlyIn_setFsrc s n { s.fsrc n with flag := true }).mono ?_
    generalize s.setFsrc n { s.fsrc n with flag := true } = u
    split
    · exact (onlyIn_setFsrc _ _ _).mono
    · split
      · exact (bump _ _).trans (onlyIn_countedEvents _ _ _ _ _ _ _)
      · exact onlyIn_countedEvents _ _ _ _ _ _ _
    · refine OnlyIn.trans (bump u (cntFlt 0)) ?_
      generalize u.bumpBy (cntFlt 0) k = v
      generalize (if n = 0x30 then 9 else 10) = slot
      refine OnlyIn.trans (OnlyIn.mono (onlyIn_kiln v
        { v.kiln with retry := v.kiln.retry.set 0 slot (v.kiln.retry.get 0 slot + k) } rfl)) ?_
      exact onlyIn_countedEvents _ _ _ _ _ _ _
    · exact bump _ _
    · exact (bump _ _).trans (onlyIn_retirableEvents _ _ _ _ _ _)

theorem onlyIn_fault (s : State) (n cause detail : Nat) : OnlyIn faultParts s (s.fault n cause detail) :=
  onlyIn_faultEventAt _ _ _ _ _ _

theorem onlyIn_configError (s : State) (f : Fn) (a : Nat) : OnlyIn faultParts s (s.configError f a) :=
  onlyIn_faultEventAt _ _ _ _ _ _

theorem onlyIn_lateLap (s : State) : OnlyIn faultParts s s.lateLap := onlyIn_faultEventAt _ _ _ _ _ _

theorem onlyIn_takeCorrupt (s : State) (n : Nat) : OnlyIn [.flt] s (s.takeCorrupt n).2 := by
  simp only [State.takeCorrupt]
  split
  · exact .refl _ _
  · exact onlyIn_flt _ _

theorem onlyIn_takeCorrupts (s : State) (n k : Nat) : OnlyIn [.flt] s (s.takeCorrupts n k).2 := by
  simp only [State.takeCorrupts]
  split
  · exact .refl _ _
  · exact onlyIn_flt _ _

theorem onlyIn_poisonRecord (s : State) (n inst a : Nat) : OnlyIn recordParts s (s.poisonRecord n inst a) :=
  onlyIn_faultRecord _ _

theorem onlyIn_endRetirement (s : State) (n : Nat) : OnlyIn [.flt] s (s.endRetirement n) :=
  (onlyIn_setFsrc _ _ _).trans (onlyIn_flt _ _)

theorem onlyIn_noteRetired (s : State) (n v : Nat) : OnlyIn faultParts s (s.noteRetired n v) := by
  simp only [State.noteRetired]
  split
  · exact ((onlyIn_setFsrc _ _ _).mono.trans (onlyIn_flt _ _).mono).trans (onlyIn_faultRecord _ _).mono
  · exact (((onlyIn_setFsrc _ _ _).mono.trans (onlyIn_flt _ _).mono).trans (onlyIn_faultRecord _ _).mono).trans
      (onlyIn_kilnPerm _ _ _ _).mono

/-! Completions -/

theorem onlyIn_ringErrorRecord (s : State) (r err st : Nat) : OnlyIn recordParts s (s.ringErrorRecord r err st) :=
  onlyIn_ctrlRecord _ _ _ _

/-- What a halt that completes no command may change: the frames that wait on the ring leave their generations. -/
abbrev haltParts : List Part := .gen :: recordParts

theorem onlyIn_refDown (s : State) (g : Gen) : OnlyIn [.gen] s (s.refDown g) :=
  .of fun p => by
    cases p <;> first
      | (left; decide)
      | (right; exact rfl)
      | (right; exact ⟨rfl, rfl, rfl⟩)
      | (right; exact fun _ _ _ _ _ => rfl)
      | (right; exact fun _ => ⟨rfl, rfl, rfl, rfl, rfl, rfl⟩)
      | (right; exact fun _ => ⟨rfl, rfl, rfl, rfl⟩)

theorem onlyIn_popPunt (s : State) (r : Nat) : OnlyIn haltParts s (s.popPunt r) := by
  simp only [State.popPunt]
  split
  · exact (onlyIn_setRing _ _ _).mono.trans (onlyIn_refDown _ _).mono
  · exact .refl _ _

theorem onlyIn_dropPunts (s : State) (r : Nat) : OnlyIn haltParts s (s.dropPunts r) :=
  .runOver (fun _ _ => (onlyIn_popPunt _ _).trans (onlyIn_bump _ _).mono) _ _

theorem onlyIn_ringErrorAt (s : State) (r err st i : Nat) : OnlyIn recordParts s (s.ringErrorAt r err st i) :=
  onlyIn_ctrlRecord _ _ _ _

theorem onlyIn_haltRingAt (s : State) (r err a : Nat) : OnlyIn haltParts s (s.haltRingAt r err a) := by
  have aer : ∀ (p : Prop) [Decidable p] (s : State) o, OnlyIn haltParts s (if p then s.emit o else s) := by
    intro p _ s o
    split
    · exact (onlyIn_emit _ _).mono
    · exact .refl _ _
  simp only [State.haltRingAt]
  refine OnlyIn.trans ?_ (onlyIn_ringIrq _ _).mono
  refine OnlyIn.trans ?_ (aer _ _ _)
  refine OnlyIn.trans ?_ (onlyIn_ringErrorAt _ _ _ _ _).mono
  refine OnlyIn.trans ?_ (onlyIn_writeBack _ _).mono
  exact (onlyIn_dropPunts _ _).trans (onlyIn_setRing _ _ _).mono

theorem onlyIn_haltRing (s : State) (r err : Nat) : OnlyIn haltParts s (s.haltRing r err) := onlyIn_haltRingAt _ _ _ _

theorem onlyIn_putCompletion (s : State) (r : Nat) (d : Bytes) (st : Status) (info : Nat) (result : Bytes) :
    OnlyIn recordParts s (s.putCompletion r d st info result) :=
  ((onlyIn_pmcCount _ _ _ _ _).mono.trans (onlyIn_emit _ _).mono).trans (onlyIn_setRing _ _ _).mono

theorem onlyIn_haltComplete (s : State) (r : Nat) (d : Bytes) (st : Status) (info : Nat) (result : Bytes) :
    OnlyIn recordParts s (s.haltComplete r d st info result) :=
  ((((onlyIn_setRing _ _ _).mono.trans (onlyIn_putCompletion _ _ _ _ _ _)).trans (onlyIn_writeBack _ _)).trans
    (onlyIn_ringErrorRecord _ _ _ _)).trans (onlyIn_ringIrq _ _).mono

theorem onlyIn_plainComplete (s : State) (r : Nat) (d : Bytes) (st : Status) (info : Nat) (result : Bytes) :
    OnlyIn recordParts s (s.plainComplete r d st info result) := by
  simp only [State.plainComplete]
  have head : OnlyIn recordParts s
      (((s.setRing r { s.ring r with inExec := none }).putCompletion r d st info result).writeBack r) :=
    ((onlyIn_setRing _ _ _).mono.trans (onlyIn_putCompletion _ _ _ _ _ _)).trans (onlyIn_writeBack _ _)
  split
  · exact head.trans (onlyIn_ringIrq _ _).mono
  · exact head

theorem onlyIn_handOn (s : State) (r : Nat) : OnlyIn faultParts s (s.handOn r) := by
  simp only [State.handOn]
  split
  · exact .refl _ _
  · split
    · exact .refl _ _
    · split
      · refine OnlyIn.trans ?_ (onlyIn_haltComplete _ _ _ _ _ _).mono
        split
        · exact (onlyIn_setRing _ _ _).mono.trans (onlyIn_configError _ _ _)
        · exact (onlyIn_setRing _ _ _).mono
      · exact (onlyIn_setRing _ _ _).mono.trans (onlyIn_setRing _ _ _).mono

theorem onlyIn_abortFetched (s : State) (r : Nat) : OnlyIn recordParts s (s.abortFetched r) :=
  (onlyIn_setRing _ _ _).mono.trans (.foldl (fun _ _ => onlyIn_plainComplete _ _ _ _ _ _) _ _)

theorem onlyIn_complete (s : State) (r : Nat) (st : Status) (info : Nat) (result : Bytes) :
    OnlyIn faultParts s (s.complete r st info result) := by
  simp only [State.complete]
  split
  · exact .refl _ _
  · split
    · exact (onlyIn_haltComplete _ _ _ _ _ _).mono
    · split
      · exact (onlyIn_plainComplete _ _ _ _ _ _).mono.trans (onlyIn_abortFetched _ _).mono
      · exact (onlyIn_plainComplete _ _ _ _ _ _).mono.trans (onlyIn_handOn _ _)

end Sys2Proof.Claims
end

