-- ==== Sys2Proof/Safety.lean ====
section
/-! DEFINITION. What counts as a safe run: every step ends in a next state. -/

namespace Sys2Proof.Safety

open Sys2Proof.Machine

/-- The step from `s` ends in a next state. -/
def Runs (s : State) : Prop := ∃ t, step s = .next t

/-- `n` steps from `s` all end in next states. -/
def RunsFor (s : State) : Nat → Prop
  | 0 => True
  | n + 1 => ∃ t, step s = .next t ∧ RunsFor t n

end Sys2Proof.Safety
end

