-- ==== Sys2Proof/WellFormed.lean ====
section
/-! DEFINITION. What an operand must meet, beyond its type, for a command to stand for something that can happen: the
lengths and ranges of the spec's formats. The meaning of a command does not depend on it. -/

namespace Sys2Proof

/-- Size of one PCI Express access below a page: 1, 2, 4 or 8 bytes (R537). -/
def accessSize (n : Nat) : Bool := n = 1 || n = 2 || n = 4 || n = 8

/-- A record read from host memory has its format's length, or the read failed (R377). -/
def recordOk (n : Nat) (d : Dma) : Bool := d.all fun b => b.length = n

/-- A descriptor has 16 or 32 bytes (Tables 12.3, 12.7 and 12.14). -/
def fetchOk : FetchResult → Bool
  | .data d => d.length = 16 || d.length = 32
  | .descReadFail | .contextReadFail | .writeFail => true

/-- A fault source number (Table 14.1). -/
def faultNumber (n : Nat) : Bool := n < 1280

/-- An interrupt source number (R443). -/
def eicNumber (n : Nat) : Bool := 1 ≤ n && n ≤ 1920

/-- A reading for every sensor (Table 16.5). -/
def Readings.complete (r : Readings) : Bool := r.thermal.length = 64 && r.volt.length = 48 && r.clock.length = 45

/-- Whether a command is well formed. -/
def Instr.wellFormed : Instr → Bool
  | .registerWrite _ _ size _ => accessSize size
  | .holeAccess _ _ size _ => accessSize size
  | .counterHalfRead _ _ size => accessSize size
  | .prtCfgWrite _ _ _ => true
  | .prtDomainWrite _ _ _ => true
  | .prtBypStageWrite _ _ => true
  | .prtBypApproveWrite _ _ => true
  | .bypassGateUpdate => true
  | .cfgSealSet _ => true
  | .parseProgramWrite _ _ _ size _ => accessSize size
  | .parseCrcCheck _ _ => true
  | .parseCrcDone _ => true
  | .rsaGroupCfgWrite _ _ _ => true
  | .proofRebuild _ => true
  | .proofRebuildDone => true
  | .modBudgetWrite _ _ _ classes => classes.length ≤ 8
  | .pmcSnapshot _ => true
  | .pmcCounterWrite _ _ size _ => accessSize size
  | .bwClrPeak _ => true
  | .bwWindowEnd => true
  | .samplingEnable _ _ => true
  | .scrubStatusRead _ => true
  | .doorbellIndex _ _ size _ => accessSize size
  | .doorbellInvalidate _ _ size _ ctx => accessSize size && recordOk 64 ctx
  | .deferredRingEnable _ => true
  | .doorbellResume _ _ size _ => accessSize size
  | .descriptorFetch _ res => fetchOk res
  | .ringStopped _ => true
  | .functionLevelReset _ => true
  | .nop _ => true
  | .genCommit _ => true
  | .genCommitArm => true
  | .genCommitTimeout => true
  | .markerTimeout => true
  | .timeTriggerDeadline => true
  | .genCommitComplete => true
  | .genAbort _ _ => true
  | .genSettle _ => true
  | .genRetire => true
  | .ruleInsert _ rec => recordOk 192 rec
  | .ruleModify _ rec => recordOk 192 rec
  | .ruleDelete _ => true
  | .ruleRead _ _ => true
  | .profileWrite _ rec => recordOk 192 rec
  | .profileDelete _ => true
  | .emInsert _ rec => recordOk 32 rec
  | .emModify _ rec => recordOk 32 rec
  | .emDelete _ rec => recordOk 32 rec
  | .emSearch _ rec _ => recordOk 32 rec
  | .emNext _ _ => true
  | .emFlush _ => true
  | .lpmAdd _ rec => recordOk 32 rec
  | .lpmModify _ rec => recordOk 32 rec
  | .lpmDelete _ rec => recordOk 32 rec
  | .seqRoutineResume _ => true
  | .seqMachineCheck _ _ _ => true
  | .cirWrite _ rec => recordOk 512 rec
  | .cirDelete _ => true
  | .cirRead _ _ => true
  | .cirDisable _ => true
  | .cirEnable _ => true
  | .cirDrainDone _ => true
  | .cirFlushDone _ => true
  | .saLoad _ rec => recordOk 128 rec
  | .saDelete _ => true
  | .saSelectTx _ => true
  | .saRead _ _ => true
  | .cirResume _ => true
  | .kekAdvance _ => true
  | .egsClassWrite _ rec => recordOk 32 rec
  | .egsCirqWrite _ rec => recordOk 48 rec
  | .cpsWrite _ rec => recordOk 96 rec
  | .polWrite _ rec => recordOk 32 rec
  | .polDelete _ => true
  | .polRead _ _ => true
  | .forward _ => true
  | .drain _ => true
  | .drainDone => true
  | .standby _ => true
  | .standbyWake => true
  | .safeExit _ => true
  | .safeExitLapse => true
  | .safeExitConfirm _ measured => measured.all faultNumber
  | .ptpSet _ => true
  | .ptpStep _ => true
  | .ptpRate _ => true
  | .ptpSource _ _ => true
  | .ptpSourceRevert => true
  | .ptpSourceReturn => true
  | .cntRead _ _ => true
  | .mailboxGo _ => true
  | .mailboxResponse _ => true
  | .getInfo _ => true
  | .sensorRead _ readings _ => readings.complete
  | .fwStage _ _ _ _ => true
  | .fwActivate _ => true
  | .arbAdvance _ => true
  | .krRead _ _ => true
  | .fuseBypassDisable _ => true
  | .fuseDebugLock _ => true
  | .fuseFtLockout _ => true
  | .fuseDomainLock _ => true
  | .fuseAssetTag _ => true
  | .fuseOperation _ => true
  | .modI2c _ _ _ _ => true
  | .mdio _ _ => true
  | .telemCfg _ => true
  | .patchLoad _ _ => true
  | .telemetrySnapshot readings => readings.complete
  | .frameStart _ _ frame _ => !frame.isEmpty
  | .parseStep _ => true
  | .rxSaResolve _ => true
  | .decryptComplete _ _ => true
  | .replayCheck _ => true
  | .frameEnd _ => true
  | .rsaSearchResult _ parityFails => parityFails.all fun x => x.2 ≤ 4
  | .emLookupResult _ errors => errors ≤ 4
  | .lpmLookupResult _ errors => errors ≤ 4
  | .policerMeter _ => true
  | .policerLate _ => true
  | .resultApply _ => true
  | .learnPlace => true
  | .learnFilterExpire _ => true
  | .poolGrant _ _ _ _ => true
  | .spillWriteAck _ => true
  | .returnRead _ _ _ => true
  | .returnReadDone _ => true
  | .matchCellTime _ => true
  | .starvePromote _ _ => true
  | .cellReceive _ _ _ _ => true
  | .cellAck _ _ => true
  | .cellNak _ _ _ => true
  | .cellRetxTimeout _ _ _ => true
  | .cellPoison _ _ _ => true
  | .shaperTick => true
  | .tokenTick _ => true
  | .cpsSlotDue _ => true
  | .egressSelect _ => true
  | .txCacheFill _ _ => true
  | .burinRewrite _ => true
  | .burinRewriteEnd _ => true
  | .burinMachineCheck _ _ _ _ _ _ => true
  | .burinSelftest _ _ _ => true
  | .lockstepCompare _ _ _ => true
  | .laneKat _ _ _ _ => true
  | .frameTxStart _ => true
  | .frameTxEnd _ => true
  | .injectAdmit _ _ => true
  | .eventOverflowRecord _ => true
  | .irqHoldoffEnd _ => true
  | .icvHoldoffEnd _ => true
  | .residencySweep => true
  | .pcsLinkLoss _ => true
  | .pcsLinkUp _ => true
  | .holdExpire _ => true
  | .modulePresenceChange _ _ powerClass => powerClass ≤ 15
  | .serdesLaneEvent _ _ => true
  | .refclk156Loss _ => true
  | .ppsInEdge => true
  | .ppsOutEdge => true
  | .agingLapStart => true
  | .agingSweepStep _ => true
  | .proofingStep _ _ => true
  | .tileScrubStep _ _ _ _ => true
  | .counterPairFlush pair => pair < 1048576
  | .hbmReadError _ _ _ _ _ => true
  | .memCorrection _ _ _ => true
  | .writebackComplete _ _ => true
  | .hbmRefresh _ _ _ _ => true
  | .refreshForced _ _ _ => true
  | .hbmRetrainStart _ _ => true
  | .memberReturn _ _ => true
  | .hbmScrubStep _ _ corrected bad _ targets _ => corrected.all (· < 8) && bad.all (· < 8) && targets.length ≤ 8
  | .ondieScrubStep _ _ _ _ => true
  | .memSpare _ _ _ => true
  | .groupRebuildDone _ switched => switched ≤ 114688
  | .groupEvacuationDone _ _ => true
  | .faultEvent source _ _ count => faultNumber source && 1 ≤ count
  | .retirementStart source => faultNumber source
  | .encPairRetire _ _ => true
  | .decLaneRetire _ _ => true
  | .burinEngineRetire _ _ => true
  | .tileCopyDone _ _ => true
  | .planeCheckEnd _ => true
  | .planeRemove _ => true
  | .faultHoldoffEnd source => faultNumber source
  | .criticalFault sources ended => !(sources.isEmpty && ended.isEmpty) && sources.all faultNumber && ended.all faultNumber
  | .injectEvent _ _ => true
  | .injectCorrupt _ _ => true
  | .injectCritical _ _ => true
  | .eicSourceEvent source _ => eicNumber source
  | .eicPinFiltered source _ => eicNumber source
  | .eicNotify _ => true
  | .eicClaim _ _ => true
  | .eicComplete _ _ _ => true
  | .eicPendSet _ _ _ => true
  | .eicPendClr _ _ _ => true
  | .msixUnmask _ _ _ _ => true
  | .thermalAlarm _ _ => true
  | .histogramMinute readings => readings.complete
  | .kilnCommit coneKHz eyeMillivolts failing =>
    coneKHz.length = 16 && (eyeMillivolts.all fun e => e.1 < 256) && failing.all fun p => 128 ≤ p && p < 4096
  | .kilnLogPageWrite failing => failing.all fun p => 128 ≤ p && p < 4096
  | .watchdogWarning => true
  | .watchdogExpire => true
  | .healthRefresh readings => readings.complete
  | .smbusStatusRead => true
  | .smbusHealthRead => true
  | .powerOn => true
  | .resetNAssert _ => true
  | .resetNDeassert => true
  | .perstAssert => true
  | .perstDeassert => true
  | .pcieHotReset => true
  | .softwareDeviceReset _ _ => true
  | .rstBlkPort _ _ _ => true
  | .rstBlkSlice _ _ => true
  | .blockResetDone _ => true
  | .domainRelease _ => true
  | .domainReady _ => true
  | .optionLoadPhaseDone _ _ _ => true
  | .loadStall => true
  | .loadStallClear => true
  | .bootSelect _ _ => true
  | .ewethesStart _ _ failed => failed.all faultNumber
  | .bringupEnd => true
  | .receiveIndexRebuildDone _ => true
  | .refclk156Return _ => true
  | .monitorUnmask _ _ => true

end Sys2Proof
end

