-- ==== Sys2Proof/Tests/Slice0.lean ====
section
/-! SUPPORT. The model's own tests: ill-formed terms that WellFormed refuses, known answers from the spec's examples and
the published standards it names, and for each obligation with hypotheses one concrete state and operands that meet
all of them, clause by clause. -/

namespace Sys2Proof.Tests

set_option Elab.async false

open Sys2Proof.Machine Sys2Proof.Claims

/-- Every domain ready and Ewethes running, in mode `m`. -/
def up (m : Mode) : State :=
  { State.reset with
    mode := m
    flt := {}
    rst := { dom := ⟨(List.range 8).map fun k => (k + 1, .ready)⟩, perst := false, phase := 4, ewethes := true, begun := true } }

/-- A ring context of kind `k`. -/
def ctx (k : Nat) : RingCtx := ⟨0x10000, 0, k, 6, true, false, 0, 0, false⟩

/-- An active ring of kind `k` with one entry posted. -/
def rg (k : Nat) : RingState := { ctx := some (ctx k), active := true, hostIdx := 1 }

/-- A descriptor with this opcode and these bytes from offset 0x10. -/
def cmd (op : Nat) (args : Bytes := []) : Bytes := leBytes 2 op ++ zeros 14 ++ args ++ zeros (48 - args.length)

/-- Ring 5 executes `d` in CONFIG. -/
def ex (d : Bytes) : State := (up .config).setRing 5 { rg 1 with inExec := some d }

/-- Port 3 stands as `x`. -/
def pt (x : PortState) (s : State) : State := { s with prt := s.prt.set {} 3 x }

/-- Frame 1 is `x`. -/
def fr (x : Frame) (s : State) : State := s.setFrame 1 x

/-- Every port latches generation `g`. -/
def allAt (g : Gen) : Tab PortGen := ⟨(List.range 128).map fun p => (p, { latch := g })⟩

/-- 64 bytes with a correct FCS. -/
def plain64 : Bytes := zeros 60 ++ leBytes 4 (crc32 (zeros 60))

/-- 24 bytes, the binding block first, wrapped under the KEK of a part with no key provisioned (R245, R246). -/
def wrapped : Bytes :=
  [25, 151, 30, 195, 246, 138, 255, 22, 88, 208, 12, 143, 34, 15, 173, 194, 224, 211, 141, 123, 252, 119, 89, 130, 239,
    197, 45, 180, 233, 75, 3, 252]

/-- 60 bytes with a SecTAG at offset 12 that is not encrypted, number 1 and a correct ICV under a key of 0. -/
def sealed : Bytes :=
  let a : Sa :=
    { tag := ⟨0, 0, true, false⟩, tx := false, suite := 1, an := 0, flags := 0, rxPort := 3, kekSlot := 0, window := 0
      sciSpi := zeros 6 ++ [0, 1], salt := zeros 12, ssci := 0, softPn := 9, initPn := 1, keyStore := ⟨[], zeros 16⟩ }
  let x := ({ bytes := zeros 60, ended := true } : Frame).gcmInput { kind := 1, off := 12, number := 1 } a
  zeros 44 ++ gcmTag (zeros 16) x.1 x.2.1 x.2.2

/-- Port 3 is UP with one frame queued for it. -/
def queued : State :=
  { pt { link := .up } (fr { eg := .queued, outPort := 3, bytes := zeros 60 } (up .forward)) with
    sched :=
      { queues := ⟨[(2 ^ 20 + 24, [1])]⟩, flows := ⟨[(24, [1])]⟩, memberAt := ⟨[(2 ^ 20 + 24, 4)]⟩, backlog := [24] } }

/-- The version and SA of circuit 0 on port 3, protected with MACsec in EQ 0 of slice 0. -/
def ver : CirVer :=
  { tag := ⟨0, 0, true, false⟩, mode := 1, port := 3, eq := 0, rewrite := 0, txSel := 0, flags := 0, ovh := 0, hdrMax := 128
    data := zeros 448 }
def assoc : Sa :=
  { tag := ⟨0, 0, true, false⟩, tx := true, suite := 1, an := 0, flags := 0, rxPort := 3, kekSlot := 0, window := 0
    sciSpi := zeros 6 ++ [0, 1], salt := zeros 12, ssci := 0, softPn := 9, initPn := 1, keyStore := ⟨[], zeros 16⟩, bound := some (0, 0) }

/-- A profile with slots of 128 bytes at 1,000 kbit/s, due at 1,000 ns. -/
def profile : Profile :=
  { flags := 1, nslot := 1, rate := 1000, sizes := [128], fillDa := zeros 6, fillSa := zeros 6, pattern := [0], due := 1000
    r := 0, n := 0, fillers := 0, pin := some (0, 0) }

/-- A slot of circuit 0 is due on port 3, which is UP; the queue of the circuit holds `l` in class 0. -/
def slotDue (l : List Nat) : State :=
  { pt { link := .up } (fr { eg := .queued, outPort := 3, circuit := some 0, pinned := true, bytes := zeros 60 } (up .forward)) with
    now := 1000
    cps := ⟨[(0, some profile)]⟩
    sched := { queues := ⟨if l = [] then [] else [(0, l)]⟩, flows := ⟨if l = [] then [] else [(24, l)]⟩ }
    glz :=
      { cir := ⟨[(0, [ver])]⟩, sa := ⟨[(0, some assoc)]⟩, nextPn := ⟨[(0, 1)]⟩, cache := ⟨[(0, [⟨0, 0, 0, 2, true, 0, none, none⟩])]⟩ } }

/-- `s` with the shapers brought up to date and port 3 served in this cycle. -/
def synced (s : State) : State := s.shaperSync.noteServed 3

/-- A mailbox request (Table 16.1). -/
def req (op len : Nat) (args : Bytes) : Bytes :=
  leBytes 2 op ++ zeros 14 ++ leBytes 4 len ++ zeros 4 ++ args ++ zeros (40 - args.length)

/-- An image of 608 bytes with one empty section (Table 16.7). -/
def image : Bytes :=
  [0x48, 0x54, 0x57, 0x45, 1] ++ zeros 7 ++ [4, 2, 1, 0] ++ leBytes 4 608 ++ zeros 12 ++ [1, 0, 0, 0, 0, 2] ++ zeros 570

/-- A Burin bundle without words (Table 08.4), for the ROM of the Burin engines. -/
def bundle : Bytes :=
  let b : Bytes := [0x50, 0x54, 1, 0] ++ leBytes 4 (State.reset.reg .burRomId 0 0) ++ [1] ++ zeros 7
  b ++ leBytes 4 (crc32 b)

/-- Nothing that HBM holds is lost while every group is whole and no unit is poisoned. -/
theorem noneBad {s : State} (hg : s.units.groups = .empty) (hb : s.hbm.bad = []) (x : Struct) : s.structBad x = false := by
  simp [State.structBad, State.unitBad, State.stripeLost, State.group, GroupState.down, Tab.get, Tab.empty, lookupCell, hg, hb]


theorem witness_RegisterWritesStoreFields :
    (∃ (a : BitVec 26) (m : RegAt) (s : State), (findReg a.toNat = some m) ∧ (plainReg m.name = true) ∧ (a.toNat % 4 = 0) ∧ (s.reachable m.name = false)) ∧
    (∃ (f : Fn) (a : BitVec 26) (m : RegAt) (s : State), (findReg a.toNat = some m) ∧ (plainReg m.name = true) ∧ (a.toNat % 4 = 0) ∧ (s.reachable m.name = true) ∧ ((m.name.info.writers.contains f.num && m.name.info.when.ok s.mode) = false)) ∧
    (∃ (f : Fn) (a : BitVec 26) (m : RegAt) (s : State), (findReg a.toNat = some m) ∧ (plainReg m.name = true) ∧ (a.toNat % 4 = 0) ∧ (s.reachable m.name = true) ∧ ((m.name.info.writers.contains f.num && m.name.info.when.ok s.mode) = true)) ∧
    (∃ (f : Fn) (a : BitVec 26) (m : RegAt) (s : State), (findReg a.toNat = some m) ∧ (plainReg m.name = true) ∧ (a.toNat % 8 = 0) ∧ (isWord a.toNat = false) ∧ (isWord (a.toNat + 4) = false) ∧ (s.reachable m.name = true) ∧ ((m.name.info.writers.contains f.num && m.name.info.when.ok s.mode) = true)) ∧
    (∃ (fs : List Field) (f : _), (∀ f ∈ fs, f.lo ≤ f.hi) ∧ (fs.Pairwise (fun f g => f.hi < g.lo ∨ g.hi < f.lo)) ∧ (f.acc = .rw) ∧ (f ∈ fs)) ∧
    (∃ (fs : List Field) (f : _), (∀ f ∈ fs, f.lo ≤ f.hi) ∧ (fs.Pairwise (fun f g => f.hi < g.lo ∨ g.hi < f.lo)) ∧ (f.acc = .ro ∨ f.acc = .wo ∨ f.acc = .fl) ∧ (f ∈ fs)) :=
  ⟨⟨(BitVec.ofNat 26 (RegName.addr .genCommitTimeout 0 0)), ⟨.genCommitTimeout, 0, 0, 0⟩, State.reset, (by decide +kernel), (by decide +kernel), (by decide +kernel), (by decide +kernel)⟩,
    ⟨.pf2, (BitVec.ofNat 26 (RegName.addr .genCommitTimeout 0 0)), ⟨.genCommitTimeout, 0, 0, 0⟩, up .config, (by decide +kernel), (by decide +kernel), (by decide +kernel), (by decide +kernel), (by decide +kernel)⟩,
    ⟨.pf0, (BitVec.ofNat 26 (RegName.addr .genCommitTimeout 0 0)), ⟨.genCommitTimeout, 0, 0, 0⟩, up .config, (by decide +kernel), (by decide +kernel), (by decide +kernel), (by decide +kernel), (by decide +kernel)⟩,
    ⟨.pf0, 0x0200000, ⟨.fltEvtCtrl, 0, 0, 0⟩, up .config, (by decide +kernel), (by decide +kernel), (by decide +kernel), (by decide +kernel), (by decide +kernel), (by decide +kernel), (by decide +kernel)⟩,
    ⟨[⟨3, 0, .rw, .any⟩], ⟨3, 0, .rw, .any⟩, (by decide +kernel), (by decide +kernel), (by decide +kernel), (by decide +kernel)⟩,
    ⟨[⟨3, 0, .ro, .any⟩, ⟨7, 4, .rw, .any⟩], ⟨3, 0, .ro, .any⟩, (by decide +kernel), (by decide +kernel), (by decide +kernel), (by decide +kernel)⟩⟩

theorem witness_HolesStatusReadsAndCounterHalves :
    (∃ (f : Fn) (a : BitVec 26) (size : Nat), (isHole f a.toNat size = true)) ∧
    (∃ (f : Fn) (a : BitVec 26) (size : Nat), (isHole f a.toNat size = true)) ∧
    (∃ (q : Requester) (a : BitVec 26) (size : Nat), (msixAccess q a.toNat size = none) ∧ (a.toNat < pendingArray q ∨ pendingArray q + 8 ≤ a.toNat)) ∧
    (∃ (q : Requester) (a : BitVec 26) (size : Nat) (e : Nat) (o : Nat) (v : BitVec 64) (s : State), (msixAccess q a.toNat size = some (e, o)) ∧ (o + size ≤ 12) ∧ (s.doorbellRing q a.toNat size v.toNat = none)) ∧
    (∃ (f : Fn) (s : State), (f ≠ .pf1) ∧ (s.reachable .hbmScrubStatus = true)) ∧
    (∃ (v : BitVec 32) (s : State), (s.reachable .mgtModBudget = true) ∧ (s.mode = .config) ∧ (∀ k, k < 8 → bitsOf (4 * k + 3) (4 * k) v.toNat ≤ 8) ∧ (s.rst.ewethes = true)) ∧
    (∃ (f : Fn) (g : Fn) (a : BitVec 26) (b : BitVec 26) (s : State) (u : State), (a.toNat % 8 = 0) ∧ (b.toNat = a.toNat + 4) ∧ (seesCnt f a.toNat = true) ∧ (seesCnt g a.toNat = true) ∧ (s.counterAnswers a.toNat = true) ∧ (u.counterAnswers a.toNat = true) ∧ (cntKey g.num a.toNat = cntKey f.num a.toNat) ∧ (u.latches.get 0 (cntKey g.num a.toNat) = 0)) :=
  ⟨⟨.pf0, 0x3FFFFF8, 8, (by decide +kernel)⟩,
    ⟨.pf0, 0x3FFFFF8, 8, (by decide +kernel)⟩,
    ⟨(.vf 0), 0x18008, 4, (by decide +kernel), (by decide +kernel)⟩,
    ⟨(.pf .pf0), 0xE01F8, 4, 31, 8, 0xFFFFFFFF, up .config, (by decide +kernel), (by decide +kernel), (by decide +kernel)⟩,
    ⟨.pf2, up .config, (by decide +kernel), (by decide +kernel)⟩,
    ⟨0x88888888, up .config, (by decide +kernel), (by decide +kernel), (by decide +kernel), (by decide +kernel)⟩,
    ⟨.pf0, .pf2, 0x0200300, 0x0200304, up .config, up .forward, (by decide +kernel), (by decide +kernel), (by decide +kernel), (by decide +kernel), (by decide +kernel), (by decide +kernel), (by decide +kernel), (by decide +kernel)⟩⟩

theorem witness_EveryStepCompletesInQueueOrder :
    (∃ (s : State) (t : State), (step s = .next t)) :=
  ⟨State.reset, State.reset.advance 1, (rfl)⟩

theorem witness_CommitsStartAndArm :
    (∃ (r : Ring) (d : Bytes) (g : Trigger) (s : State), (Executing s r 0x0010 d) ∧ (s.tabs.dead = false) ∧ (s.flt.corrupt.get 0 0x31 = 0) ∧ (s.seqHeld r 0x0010 = false) ∧ (∀ w ∈ s.gen.waiting, w.ring ≠ r.val) ∧ (∀ a, s.gen.armed = some a → a.ring ≠ r.val) ∧ (triggerOf d = some g)) ∧
    (∃ (r : Ring) (at_ : Nat) (rest : List Waiting) (s : State), (s.gen.waiting = ⟨r, .immediate, some at_⟩ :: rest) ∧ (s.gen.armed = none) ∧ (s.liveCount ≤ 15) ∧ (s.tabs.dead = false) ∧ (s.flt.corrupt.get 0 0x31 = 0)) ∧
    (∃ (r : Ring) (at_ : Nat) (m : Nat) (rest : List Waiting) (s : State), (s.gen.waiting = ⟨r, .marker m, some at_⟩ :: rest) ∧ (s.gen.armed = none) ∧ (s.liveCount ≤ 15) ∧ (s.tabs.dead = false) ∧ (s.flt.corrupt.get 0 0x31 = 0)) ∧
    (∃ (r : Ring) (at_ : Nat) (sec : Nat) (ns : Nat) (rest : List Waiting) (s : State), (s.gen.waiting = ⟨r, .time sec ns, some at_⟩ :: rest) ∧ (s.gen.armed = none) ∧ (s.liveCount ≤ 15) ∧ (s.tabs.dead = false) ∧ (s.flt.corrupt.get 0 0x31 = 0) ∧ (s.ptp.time + ptpUnits 0 2000 ≤ ptpUnits sec ns) ∧ (ptpUnits sec ns ≤ s.ptp.time + ptpUnits 60 0)) ∧
    (∃ (r : Ring) (d : Bytes) (at_ : Nat) (sec : Nat) (ns : Nat) (rest : List Waiting) (s : State), (s.gen.waiting = ⟨r, .time sec ns, some at_⟩ :: rest) ∧ (s.gen.armed = none) ∧ (s.liveCount ≤ 15) ∧ (s.tabs.dead = false) ∧ (s.flt.corrupt.get 0 0x31 = 0) ∧ ((s.ring r).inExec = some d) ∧ (∃ c, (s.ring r).ctx = some c ∧ c.kind = 1) ∧ (ptpUnits sec ns < s.ptp.time + ptpUnits 0 2000)) ∧
    (∃ (r : Ring) (d : Bytes) (at_ : Nat) (sec : Nat) (ns : Nat) (rest : List Waiting) (s : State), (s.gen.waiting = ⟨r, .time sec ns, some at_⟩ :: rest) ∧ (s.gen.armed = none) ∧ (s.liveCount ≤ 15) ∧ (s.tabs.dead = false) ∧ (s.flt.corrupt.get 0 0x31 = 0) ∧ ((s.ring r).inExec = some d) ∧ (∃ c, (s.ring r).ctx = some c ∧ c.kind = 1) ∧ (s.ptp.time + ptpUnits 60 0 < ptpUnits sec ns)) ∧
    (∃ (r : Ring) (d : Bytes) (g : Trigger) (at_ : Nat) (rest : List Waiting) (s : State), (s.gen.waiting = ⟨r, g, some at_⟩ :: rest) ∧ (s.gen.armed = none) ∧ (15 < s.liveCount) ∧ ((s.ring r).inExec = some d) ∧ (∃ c, (s.ring r).ctx = some c ∧ c.kind = 1)) :=
  ⟨⟨5, cmd 0x10 [1], .immediate, ex (cmd 0x10 [1]), (⟨by decide +kernel, _, rfl, by decide⟩), (by decide +kernel), (by decide +kernel), (by decide +kernel), (fun _ h => nomatch h), (by decide +kernel), (by decide +kernel)⟩,
    ⟨5, 0, [], { up .forward with gen := { current := 13, waiting := [⟨5, .immediate, some 0⟩] } }, (by decide +kernel), (by decide +kernel), (by decide +kernel), (by decide +kernel), (by decide +kernel)⟩,
    ⟨5, 0, 7, [], { up .forward with gen := { waiting := [⟨5, .marker 7, some 0⟩] } }, (by decide +kernel), (by decide +kernel), (by decide +kernel), (by decide +kernel), (by decide +kernel)⟩,
    ⟨5, 0, 60, 0, [], { up .forward with gen := { waiting := [⟨5, .time 60 0, some 0⟩] } }, (by decide +kernel), (by decide +kernel), (by decide +kernel), (by decide +kernel), (by decide +kernel), (by decide +kernel), (by decide +kernel)⟩,
    ⟨5, cmd 0x10 [3], 0, 0, 1999, [], { ex (cmd 0x10 [3]) with gen := { waiting := [⟨5, .time 0 1999, some 0⟩] } }, (by decide +kernel), (by decide +kernel), (by decide +kernel), (by decide +kernel), (by decide +kernel), (by decide +kernel), (⟨_, rfl, by decide⟩), (by decide +kernel)⟩,
    ⟨5, cmd 0x10 [3], 0, 60, 1, [], { ex (cmd 0x10 [3]) with gen := { waiting := [⟨5, .time 60 1, some 0⟩] } }, (by decide +kernel), (by decide +kernel), (by decide +kernel), (by decide +kernel), (by decide +kernel), (by decide +kernel), (⟨_, rfl, by decide⟩), (by decide +kernel)⟩,
    ⟨5, cmd 0x10 [1], .immediate, 0, [], { ex (cmd 0x10 [1]) with gen := { current := 14, waiting := [⟨5, .immediate, some 0⟩] } }, (by decide +kernel), (by decide +kernel), (by decide +kernel), (by decide +kernel), (⟨_, rfl, by decide⟩)⟩⟩

theorem witness_CommitsSwitchPortsAndComplete :
    (∃ (r : Nat) (m : Nat) (at_ : Nat) (g : Gen) (s : State), (s.gen.armed = some ⟨r, .marker m, g, at_⟩) ∧ (s.unswitchedPorts ≠ [])) ∧
    (∃ (r : Nat) (sec : Nat) (ns : Nat) (at_ : Nat) (g : Gen) (s : State), (s.gen.armed = some ⟨r, .time sec ns, g, at_⟩) ∧ (s.unswitchedPorts ≠ []) ∧ (- 2 ^ 32 < s.ptp.rate)) ∧
    (∃ (r : Ring) (tr : Trigger) (at_ : Nat) (g : Gen) (d : Bytes) (s : State), (s.gen.armed = some ⟨r, tr, g, at_⟩) ∧ (s.unswitchedPorts = []) ∧ ((s.ring r).inExec = some d) ∧ (∃ c, (s.ring r).ctx = some c ∧ c.kind = 1)) :=
  ⟨⟨5, 7, 0, 1, { up .forward with gen := { current := 1, armed := some ⟨5, .marker 7, 1, 0⟩ } }, (by decide +kernel), (by decide +kernel)⟩,
    ⟨5, 1, 0, 0, 1, { up .forward with gen := { current := 1, armed := some ⟨5, .time 1 0, 1, 0⟩ } }, (by decide +kernel), (by decide +kernel), (by decide +kernel)⟩,
    ⟨5, .marker 7, 0, 1, cmd 0x10 [2], { ex (cmd 0x10 [2]) with gen := { current := 1, armed := some ⟨5, .marker 7, 1, 0⟩, ports := allAt 1 } }, (by decide +kernel), (by decide +kernel), (by decide +kernel), (⟨_, rfl, by decide⟩)⟩⟩

theorem witness_GenerationsAreUndoneSettledAndRetired :
    (∃ (r : Ring) (d : Bytes) (s : State), (Executing s r 0x0011 d) ∧ (SeqIdle s r 0x0011) ∧ (s.tabs.flushWait = []) ∧ (s.gen.armed = none) ∧ (TaggedWf s)) ∧
    (∃ (s : State), (s.gen.settled = false) ∧ (s.tabs.dead = false) ∧ (s.flt.corrupt.get 0 0x31 = 0) ∧ (s.seqAhead 3 = false) ∧ (TaggedWf s)) ∧
    (∃ (s : State), (s.gen.oldest ≠ s.gen.current) ∧ (s.tabs.dead = false) ∧ (s.gen.settled = true) ∧ (s.latched s.gen.oldest = false) ∧ (s.gen.refs.get 0 s.gen.oldest.toNat = 0)) ∧
    (∃ (d : Gen) (x : VTag), (d ≠ x.died ∨ x.ds = false)) ∧
    (∃ (d : Gen) (x : VTag), (x.ds = true) ∧ (x.died = d)) ∧
    (∃ (g : Gen) (x : VTag), (x.bs = false) ∧ (x.born = g)) ∧
    (∃ (g : Gen) (x : VTag), (x.bs = true ∨ x.born ≠ g) ∧ (x.ds = true) ∧ (x.died = g)) :=
  ⟨⟨5, cmd 0x11, ex (cmd 0x11), (⟨by decide +kernel, _, rfl, by decide⟩), (⟨by decide +kernel, by decide +kernel, by decide +kernel, by decide +kernel⟩), (by decide +kernel), (by decide +kernel), (⟨by decide +kernel, by decide +kernel, by decide +kernel, by decide +kernel, by decide +kernel, by decide +kernel⟩)⟩,
    ⟨{ up .config with gen := { settled := false } }, (by decide +kernel), (by decide +kernel), (by decide +kernel), (by decide +kernel), (⟨by decide +kernel, by decide +kernel, by decide +kernel, by decide +kernel, by decide +kernel, by decide +kernel⟩)⟩,
    ⟨{ up .config with gen := { current := 1, ports := allAt 1 } }, (by decide +kernel), (by decide +kernel), (by decide +kernel), (by decide +kernel), (by decide +kernel)⟩,
    ⟨1, ⟨0, 0, false, false⟩, (by decide +kernel)⟩,
    ⟨1, ⟨0, 1, true, true⟩, (by decide +kernel), (by decide +kernel)⟩,
    ⟨1, ⟨1, 0, false, false⟩, (by decide +kernel), (by decide +kernel)⟩,
    ⟨1, ⟨0, 1, true, true⟩, (by decide +kernel), (by decide +kernel), (by decide +kernel)⟩⟩

theorem witness_LiveGenerationsStayInTheirWindow :
    (∃ (s : State) (t : State), ((s.gen.current - s.gen.oldest).toNat ≤ 14) ∧ (step s = .next t)) :=
  ⟨State.reset, State.reset.advance 1, (by decide +kernel), (rfl)⟩

theorem witness_PortRegistersTakeTheirWrites :
    (∃ (p : Port) (v : BitVec 32) (s : State), (s.reachable .prtCfg = true) ∧ (portModeOk (bitsOf 9 0 v.toNat) = true) ∧ (¬ (bitsOf 5 4 (bitsOf 9 0 v.toNat) = 2 ∧ p.val % 2 = 1)) ∧ (s.absorbed p = false) ∧ (bitOf 0 (s.reg .prtCfg p 0) = false) ∧ (bitOf 0 (bitsOf 9 0 v.toNat) = false)) ∧
    (∃ (p : Port) (v : BitVec 32) (s : State), (s.reachable .prtCfg = true) ∧ (portModeOk (bitsOf 9 0 v.toNat) = true) ∧ (¬ (bitsOf 5 4 (bitsOf 9 0 v.toNat) = 2 ∧ p.val % 2 = 1)) ∧ (s.absorbed p = false) ∧ (s.mode ≠ .standby) ∧ (bitOf 0 (s.reg .prtCfg p 0) = false) ∧ (bitOf 0 (bitsOf 9 0 v.toNat) = true) ∧ (s.rst.blocks = [])) ∧
    (∃ (p : Port) (v : BitVec 32) (s : State), (s.reachable .prtCfg = true) ∧ (portModeOk (bitsOf 9 0 v.toNat) = true) ∧ (¬ (bitsOf 5 4 (bitsOf 9 0 v.toNat) = 2 ∧ p.val % 2 = 1)) ∧ (s.absorbed p = false) ∧ (bitOf 0 (s.reg .prtCfg p 0) = true) ∧ (bitOf 0 (bitsOf 9 0 v.toNat) = false)) ∧
    (∃ (p : Port) (s : State), (s.reachable .prtCfg = true) ∧ (s.absorbed p = false)) ∧
    (∃ (p : Port) (v : BitVec 32) (s : State), (s.reachable .prtDomain = true) ∧ (s.mode = .config) ∧ (s.bit .glbSeal 0 0 0 = false) ∧ (s.portOn p = false) ∧ (s.fuses.domLock.testBit (p.val / 8) = false) ∧ (bitOf 0 v.toNat ≠ s.black p)) ∧
    (∃ (v : BitVec 32) (s : State), (s.reachable .prtBypStage = true) ∧ (s.fuses.bypDis = false) ∧ (s.bit .glbSeal 0 0 0 = false ∨ bitsOf 15 0 v.toNat &&& s.reg .prtBypStage 0 0 = bitsOf 15 0 v.toNat)) ∧
    (∃ (v : BitVec 32) (s : State), (s.reachable .prtBypApprove = true) ∧ (s.fuses.bypDis = false) ∧ (s.bit .glbSeal 0 0 0 = false ∨ bitsOf 15 0 v.toNat &&& s.reg .prtBypApprove 0 0 = bitsOf 15 0 v.toNat)) ∧
    (∃ (s : State), (s.reachable .glbSeal = true)) ∧
    (∃ (f : Fn) (s : State), (s.reachable .prtCfg = true) ∧ (f ≠ .pf0)) :=
  ⟨⟨3, 0, up .config, (by decide +kernel), (by decide +kernel), (by decide +kernel), (by decide +kernel), (by decide +kernel), (by decide +kernel)⟩,
    ⟨4, 0x6B, up .config, (by decide +kernel), (by decide +kernel), (by decide +kernel), (by decide +kernel), (by decide +kernel), (by decide +kernel), (by decide +kernel), (by decide +kernel)⟩,
    ⟨3, 0, (up .config).setReg .prtCfg 3 0 1, (by decide +kernel), (by decide +kernel), (by decide +kernel), (by decide +kernel), (by decide +kernel), (by decide +kernel)⟩,
    ⟨3, up .config, (by decide +kernel), (by decide +kernel)⟩,
    ⟨3, 0, up .config, (by decide +kernel), (by decide +kernel), (by decide +kernel), (by decide +kernel), (by decide +kernel), (by decide +kernel)⟩,
    ⟨0xFFFF, up .config, (by decide +kernel), (by decide +kernel), (by decide +kernel)⟩,
    ⟨0xFFFF, up .config, (by decide +kernel), (by decide +kernel), (by decide +kernel)⟩,
    ⟨up .config, (by decide +kernel)⟩,
    ⟨.pf1, up .config, (by decide +kernel), (by decide +kernel)⟩⟩

theorem witness_LinksRiseAndFall :
    (∃ (p : Port) (s : State), ((s.port p).link = .up) ∧ (s.fld .prtHoldTime p 0 9 0 ≠ 0)) ∧
    (∃ (p : Port) (s : State), ((s.port p).link = .up) ∧ (s.fld .prtHoldTime p 0 9 0 = 0)) ∧
    (∃ (p : Port) (s : State), ((s.port p).link = .hold)) ∧
    (∃ (p : Port) (s : State), (s.linkable p = true) ∧ ((s.port p).link ≠ .disabled)) ∧
    (∃ (p : Port) (s : State), ((s.port p).present = true) ∧ ((s.port p).link = .up)) ∧
    (∃ (p : Port) (s : State), ((s.port p).present = false) ∧ (s.rst.ewethes = true)) ∧
    (∃ (k : Fin 8) (s : State), (s.refLost.contains k.val = false)) ∧
    (∃ (l : Lane) (p : Nat) (s : State), (s.lanePort l = some p) ∧ ((s.port p).link = .training ∨ (s.port p).link = .up ∨ (s.port p).link = .hold) ∧ (s.refLost.contains (p / 16) = false) ∧ ((s.fsrc (laneSource l)).retired = false)) :=
  ⟨⟨3, pt { link := .up } (up .forward), (by decide +kernel), (by decide +kernel)⟩,
    ⟨3, pt { link := .up } ((up .forward).setReg .prtHoldTime 3 0 0), (by decide +kernel), (by decide +kernel)⟩,
    ⟨3, pt { link := .hold } (up .forward), (by decide +kernel)⟩,
    ⟨3, pt { link := .training } ((up .forward).setReg .prtCfg 3 0 1), (by decide +kernel), (by decide +kernel)⟩,
    ⟨3, pt { link := .up, present := true } (up .forward), (by decide +kernel), (by decide +kernel)⟩,
    ⟨3, up .config, (by decide +kernel), (by decide +kernel)⟩,
    ⟨0, up .config, (by decide +kernel)⟩,
    ⟨6, 3, pt { link := .up } ((up .forward).setReg .prtCfg 3 0 1), (by decide +kernel), (by decide +kernel), (by decide +kernel), (by decide +kernel)⟩⟩

theorem witness_PtpClockIsSetAndAdjusted :
    (∃ (r : Ring) (d : Bytes) (s : State), (Executing s r 0x0084 d) ∧ (ptpOp d = 1) ∧ (ptpNs d < 1000000000)) ∧
    (∃ (r : Ring) (d : Bytes) (s : State), (Executing s r 0x0084 d) ∧ (ptpOp d = 2) ∧ (ptpNs d < 1000000000) ∧ ((ptpSigned d).natAbs < 2 ^ 40) ∧ (0 ≤ (s.ptp.time : Int) + ptpSigned d * 2 ^ 32) ∧ ((s.ptp.time : Int) + ptpSigned d * 2 ^ 32 < ptpUnits (2 ^ 48) 0)) ∧
    (∃ (r : Ring) (d : Bytes) (s : State), (Executing s r 0x0084 d) ∧ (ptpOp d = 3) ∧ (ptpNs d < 1000000000) ∧ ((ptpSigned d).natAbs ≤ 4294967)) ∧
    (∃ (r : Ring) (d : Bytes) (s : State), (Executing s r 0x0084 d) ∧ (ptpOp d = 4) ∧ (ptpNs d = 0) ∧ (ptpValue d ≤ 1)) ∧
    (∃ (s : State), (s.ptp.isSet = true) ∧ (-(2 ^ 32) < s.ptp.rate)) :=
  ⟨⟨5, cmd 0x84 [1], ex (cmd 0x84 [1]), (⟨by decide +kernel, _, rfl, by decide⟩), (by decide +kernel), (by decide +kernel)⟩,
    ⟨5, cmd 0x84 [2, 0, 0, 0, 0, 0, 0, 0, 1], ex (cmd 0x84 [2, 0, 0, 0, 0, 0, 0, 0, 1]), (⟨by decide +kernel, _, rfl, by decide⟩), (by decide +kernel), (by decide +kernel), (by decide +kernel), (by decide +kernel), (by decide +kernel)⟩,
    ⟨5, cmd 0x84 [3], ex (cmd 0x84 [3]), (⟨by decide +kernel, _, rfl, by decide⟩), (by decide +kernel), (by decide +kernel), (by decide +kernel)⟩,
    ⟨5, cmd 0x84 [4, 0, 0, 0, 0, 0, 0, 0, 1], ex (cmd 0x84 [4, 0, 0, 0, 0, 0, 0, 0, 1]), (⟨by decide +kernel, _, rfl, by decide⟩), (by decide +kernel), (by decide +kernel), (by decide +kernel)⟩,
    ⟨{ up .forward with ptp := { isSet := true } }, (by decide +kernel), (by decide +kernel)⟩⟩

theorem witness_FramesAreReceived :
    (∃ (p : Port) (bytes : Bytes) (s : State), ((s.port p).rx = none) ∧ (s.mode = .forward ∨ s.mode = .factoryTest) ∧ ((s.port p).link = .up) ∧ (s.landed p + bytes.length ≤ s.landingSize p)) ∧
    (∃ (p : Port) (s : State), ((s.port p).rx = none) ∧ (s.mode ≠ .forward) ∧ (s.mode ≠ .factoryTest)) ∧
    (∃ (p : Port) (s : State), ((s.port p).rx = none) ∧ (s.mode = .forward ∨ s.mode = .factoryTest) ∧ ((s.port p).link ≠ .up)) ∧
    (∃ (f : Nat) (s : State), ((s.port (s.frame f).port).rx = some f) ∧ ((s.frame f).rxError = false) ∧ (fcsOk (s.frame f).bytes = true) ∧ (64 ≤ (s.frame f).bytes.length) ∧ ((s.frame f).bytes.length ≤ (if s.black (s.frame f).port then 10368 else 10240)) ∧ (etherTypeOf (s.frame f).body ≠ 0x8808) ∧ ((s.frame f).marker = false) ∧ (∀ k, (s.frame f).walk.st ≠ .failed k)) ∧
    (∃ (f : Nat) (s : State), ((s.port (s.frame f).port).rx = some f) ∧ ((s.frame f).rxError = true ∨ fcsOk (s.frame f).bytes = false ∨ (s.frame f).bytes.length < 64 ∨ (if s.black (s.frame f).port then 10368 else 10240) < (s.frame f).bytes.length ∨ etherTypeOf (s.frame f).body = 0x8808)) :=
  ⟨⟨3, zeros 64, pt { link := .up } (up .forward), (by decide +kernel), (by decide +kernel), (by decide +kernel), (by decide +kernel)⟩,
    ⟨3, up .config, (by decide +kernel), (by decide +kernel), (by decide +kernel)⟩,
    ⟨3, up .forward, (by decide +kernel), (by decide +kernel), (by decide +kernel)⟩,
    ⟨1, pt { link := .up, rx := some 1 } (fr { port := 3, bytes := plain64 } (up .forward)), (by decide +kernel), (by decide +kernel), (by decide +kernel), (by decide +kernel), (by decide +kernel), (by decide +kernel), (by decide +kernel), (fun _ h => nomatch (show WalkState.running = .failed _ from h))⟩,
    ⟨1, pt { link := .up, rx := some 1 } (fr { port := 3, bytes := zeros 63 } (up .forward)), (by decide +kernel), (by decide +kernel)⟩⟩

theorem witness_FramesPassTheGateAndLeave :
    (∃ (p : Port) (f : Nat) (rest : List Nat) (s : State), ((s.port p).path = f :: rest) ∧ ((s.port p).tx = none) ∧ ((s.port p).link = .up) ∧ (s.flt.squelch = false) ∧ ((s.frame f).eg = .ready) ∧ (s.black p = false ∨ (s.frame f).proof = .lockstep ∨ ∃ k, (s.frame f).proof = .bypass k ∧ s.bypassOk k = true) ∧ (etherTypeOf (s.frame f).output.bytes ≠ 0x8808)) ∧
    (∃ (p : Port) (f : Nat) (rest : List Nat) (s : State), ((s.port p).path = f :: rest) ∧ ((s.port p).tx = none) ∧ ((s.port p).link = .up) ∧ (s.flt.squelch = false) ∧ ((s.frame f).eg = .ready) ∧ (∃ k, s.black p = true ∧ (s.frame f).proof = .bypass k ∧ s.bypassOk k = false)) ∧
    (∃ (p : Port) (f : Nat) (rest : List Nat) (s : State), ((s.port p).path = f :: rest) ∧ ((s.port p).tx = none) ∧ ((s.port p).link = .up) ∧ (s.flt.squelch = false) ∧ ((s.frame f).eg = .ready) ∧ (s.black p = true) ∧ ((s.frame f).proof = .none) ∧ (∀ q : Port, (s.port q).tx ≠ some f)) ∧
    (∃ (p : Port) (f : Nat) (s : State), ((s.port p).tx = some f)) :=
  ⟨⟨3, 1, [], pt { link := .up, path := [1] } (fr { port := 3, eg := .ready } ((up .forward).setReg .prtDomain 3 0 0)), (by decide +kernel), (by decide +kernel), (by decide +kernel), (by decide +kernel), (by decide +kernel), (Or.inl (by decide +kernel)), (by decide +kernel)⟩,
    ⟨3, 1, [2], pt { link := .up, path := [1, 2] } (fr { port := 3, eg := .ready, proof := .bypass 4 } ((up .forward).setReg .prtDomain 3 0 1)), (by decide +kernel), (by decide +kernel), (by decide +kernel), (by decide +kernel), (by decide +kernel), (⟨4, by decide +kernel⟩)⟩,
    ⟨3, 1, [], pt { link := .up, path := [1] } (fr { port := 3, eg := .ready } ((up .forward).setReg .prtDomain 3 0 1)), (by decide +kernel), (by decide +kernel), (by decide +kernel), (by decide +kernel), (by decide +kernel), (by decide +kernel), (by decide +kernel), (by decide +kernel)⟩,
    ⟨3, 1, pt { link := .up, tx := some 1 } (fr { port := 3, eg := .sending } (up .forward)), (by decide +kernel)⟩⟩

theorem witness_FramesAreInjectedAndPairsRead :
    (∃ (r : Ring) (c : RingCtx) (l : List Bytes) (b : Bytes) (s : State), ((s.ring r).enabled = true) ∧ ((s.ring r).ctx = some c) ∧ (c.kind = 4) ∧ (s.mode = .forward ∨ s.mode = .factoryTest) ∧ (runOf [] (s.ring r).fetched = some l) ∧ (badRun l (sliceOf b 0 (runBytes l)) = false)) ∧
    (∃ (r : Ring) (c : RingCtx) (l : List Bytes) (b : Bytes) (s : State), ((s.ring r).enabled = true) ∧ ((s.ring r).ctx = some c) ∧ (c.kind = 4) ∧ (s.mode = .forward ∨ s.mode = .factoryTest) ∧ (runOf [] (s.ring r).fetched = some l) ∧ (badRun l (sliceOf b 0 (runBytes l)) = true)) ∧
    (∃ (r : Ring) (d : Bytes) (s : State), (Executing s r 0x0090 d)) :=
  ⟨⟨5, (ctx 4), [zeros 8 ++ [92, 0, 6, 0] ++ zeros 20], [1] ++ zeros 91, (up .forward).setRing 5 { rg 4 with fetched := [zeros 8 ++ [92, 0, 6, 0] ++ zeros 20] }, (by decide +kernel), (by decide +kernel), (by decide +kernel), (by decide +kernel), (by decide +kernel), (by decide +kernel)⟩,
    ⟨5, (ctx 4), [zeros 8 ++ [92, 0, 6, 0] ++ zeros 20], [3] ++ zeros 91, (up .forward).setRing 5 { rg 4 with fetched := [zeros 8 ++ [92, 0, 6, 0] ++ zeros 20] }, (by decide +kernel), (by decide +kernel), (by decide +kernel), (by decide +kernel), (by decide +kernel), (by decide +kernel)⟩,
    ⟨5, cmd 0x90, ex (cmd 0x90), (⟨by decide +kernel, _, rfl, by decide⟩)⟩⟩

theorem witness_ParseProgramsLoadAndCheck :
    (∃ (k : Nat) (s : State), (k < 256) ∧ (s.reachable .parState = true) ∧ (s.mode = .config)) ∧
    (∃ (k : Nat) (s : State), (k < 2048) ∧ (s.reachable .parState = true) ∧ (s.mode = .config)) ∧
    (∃ (k : Nat) (s : State), (k < 1024) ∧ (s.reachable .parState = true) ∧ (s.mode = .config)) ∧
    (∃ (off : BitVec 16) (size : Nat) (s : State), (inProgram off.toNat = true) ∧ (accessOk off.toNat size = true) ∧ (size = 4 ∨ off.toNat < 0x1000 ∨ 0x8000 ≤ off.toNat) ∧ (s.reachable .parState = true) ∧ (s.mode ≠ .config) ∧ (s.mode ≠ .factoryTest)) ∧
    (∃ (s : State), (s.reachable .parProgCtrl = true)) ∧
    (∃ (i : Slice) (s : State), (s.bit .parProgCtrl i 0 1 = true)) :=
  ⟨⟨255, up .config, (by decide +kernel), (by decide +kernel), (by decide +kernel)⟩,
    ⟨2047, up .config, (by decide +kernel), (by decide +kernel), (by decide +kernel)⟩,
    ⟨1023, up .config, (by decide +kernel), (by decide +kernel), (by decide +kernel)⟩,
    ⟨0x800, 8, up .forward, (by decide +kernel), (by decide +kernel), (by decide +kernel), (by decide +kernel), (by decide +kernel), (by decide +kernel)⟩,
    ⟨up .config, (by decide +kernel)⟩,
    ⟨3, (up .config).setReg .parProgCtrl 3 0 2, (by decide +kernel)⟩⟩

theorem witness_WalksFollowTheProgram :
    (∃ (f : Nat) (s : State), ((s.frame f).walk.st = .running) ∧ ((s.frame f).ing = .landing)) ∧
    (∃ (s : State) (x : Frame), (s.bit .parProgCtrl (x.port / 8) 0 0 = false)) ∧
    (∃ (s : State) (x : Frame), (s.bit .parProgCtrl (x.port / 8) 0 0 = true) ∧ (24 ≤ x.walk.steps)) ∧
    (∃ (s : State) (x : Frame) (r : Nat), (x.walk.st = .running) ∧ ((s.walkStep x).walk.st = .failed r)) ∧
    (∃ (x : Frame), (x.walk.steps ≤ 24)) :=
  ⟨⟨1, fr { ing := .landing } (up .forward), (by decide +kernel), (by decide +kernel)⟩,
    ⟨up .forward, {}, (by decide +kernel)⟩,
    ⟨(up .forward).setReg .parProgCtrl 0 0 1, { walk := { steps := 24 } }, (by decide +kernel), (by decide +kernel)⟩,
    ⟨up .forward, {}, 1, (by decide +kernel), (by decide +kernel)⟩,
    ⟨{ walk := { steps := 24 } }, (by decide +kernel)⟩⟩

theorem witness_BucketsFillOnTheirGrid :
    (∃ (b : Bucket) (s : State), (s.tokensOf b = none)) ∧
    (∃ (b : Bucket) (s : State) (v : Nat) (x : TokenBucket), (s.tokensOf b = some x) ∧ (x.level ≤ bitsOf 27 20 v)) ∧
    (∃ (b : Bucket) (s : State), ((s.bucketRate b).1.level = 0 ∨ bitsOf 27 20 (s.bucketRate b).2 = 0)) ∧
    (∃ (b : Bucket) (s : State), ((s.bucketRate b).1.level ≠ 0) ∧ (bitsOf 27 20 (s.bucketRate b).2 ≠ 0)) :=
  ⟨⟨.punt 3 3, up .forward, (by decide +kernel)⟩,
    ⟨.learn, { up .forward with tabs := { learn := some ⟨2, 0⟩ } }, 0x300000, ⟨2, 0⟩, (by decide +kernel), (by decide +kernel)⟩,
    ⟨.learn, { up .forward with tabs := { learn := some ⟨0, 0⟩ } }, (Or.inl (by decide +kernel))⟩,
    ⟨.learn, { (up .forward).setReg .emtLrnRate 0 0 0x300000 with tabs := { learn := some ⟨2, 0⟩ } }, (by decide +kernel), (by decide +kernel)⟩⟩

theorem witness_RulesAreInsertedModifiedAndDeleted :
    (∃ (r : Ring) (d : Bytes) (b : Bytes) (k : Nat) (s : State), (Executing s r 0x0020 d) ∧ (SeqIdle s r 0x0020) ∧ (s.ruleCheck b = none) ∧ (s.ruleIn (leAt b 0 2) s.staging = none) ∧ (s.freeRule (leAt b 0 2 / 1024) = some k) ∧ (s.logRoom 1 = true)) ∧
    (∃ (r : Ring) (d : Bytes) (b : Bytes) (k : Nat) (c : RuleCell) (s : State), (Executing s r 0x0021 d) ∧ (SeqIdle s r 0x0021) ∧ (s.ruleCheck b = none) ∧ (s.ruleIn (leAt b 0 2) s.staging = some (k, c)) ∧ (s.logRoom 1 = true) ∧ (s.madeInStaging c.tag = true)) ∧
    (∃ (r : Ring) (d : Bytes) (b : Bytes) (k : Nat) (c : RuleCell) (s : State) (k' : _), (Executing s r 0x0021 d) ∧ (SeqIdle s r 0x0021) ∧ (s.ruleCheck b = none) ∧ (s.ruleIn (leAt b 0 2) s.staging = some (k, c)) ∧ (s.logRoom 1 = true) ∧ (s.madeInStaging c.tag = false) ∧ (s.freeRule (leAt b 0 2 / 1024) = some k') ∧ (k ≠ k')) ∧
    (∃ (r : Ring) (d : Bytes) (k : Nat) (c : RuleCell) (s : State), (Executing s r 0x0022 d) ∧ (SeqIdle s r 0x0022) ∧ (s.ruleIn (leAt d 0x10 2) s.staging = some (k, c)) ∧ (s.logRoom 1 = true)) ∧
    (∃ (r : Ring) (d : Bytes) (k : Nat) (c : RuleCell) (s : State), (Executing s r 0x0023 d) ∧ (s.tabs.dead = false) ∧ (s.flt.corrupt.get 0 0x31 = 0) ∧ (s.seqHeld r 0x0023 = false) ∧ (s.live (BitVec.ofNat 16 (leAt d 0x12 2)) = true) ∧ (s.ruleIn (leAt d 0x10 2) (BitVec.ofNat 16 (leAt d 0x12 2)) = some (k, c))) :=
  ⟨⟨5, cmd 0x20, zeros 192, 0, ex (cmd 0x20), (⟨by decide +kernel, _, rfl, by decide⟩), (⟨by decide +kernel, by decide +kernel, by decide +kernel, by decide +kernel⟩), (by decide +kernel), (by decide +kernel), (by decide +kernel), (by decide +kernel)⟩,
    ⟨5, cmd 0x21, zeros 192, 0, { tag := ⟨1, 0, false, false⟩, priority := 5, lrow := 0, width := 0, action := 1, value := zeros 80, mask := zeros 80 }, { ex (cmd 0x21) with tabs := { rules := ⟨[(0, some { tag := ⟨1, 0, false, false⟩, priority := 5, lrow := 0, width := 0, action := 1, value := zeros 80, mask := zeros 80 })]⟩ } }, (⟨by decide +kernel, _, rfl, by decide⟩), (⟨by decide +kernel, by decide +kernel, by decide +kernel, by decide +kernel⟩), (by decide +kernel), (by decide +kernel), (by decide +kernel), (by decide +kernel)⟩,
    ⟨5, cmd 0x21, zeros 192, 0, { tag := ⟨0, 0, true, false⟩, priority := 5, lrow := 0, width := 0, action := 1, value := zeros 80, mask := zeros 80 }, { ex (cmd 0x21) with tabs := { rules := ⟨[(0, some { tag := ⟨0, 0, true, false⟩, priority := 5, lrow := 0, width := 0, action := 1, value := zeros 80, mask := zeros 80 })]⟩ } }, 1, (⟨by decide +kernel, _, rfl, by decide⟩), (⟨by decide +kernel, by decide +kernel, by decide +kernel, by decide +kernel⟩), (by decide +kernel), (by decide +kernel), (by decide +kernel), (by decide +kernel), (by decide +kernel), (by decide +kernel)⟩,
    ⟨5, cmd 0x22, 0, { tag := ⟨0, 0, true, false⟩, priority := 5, lrow := 0, width := 0, action := 1, value := zeros 80, mask := zeros 80 }, { ex (cmd 0x22) with tabs := { rules := ⟨[(0, some { tag := ⟨0, 0, true, false⟩, priority := 5, lrow := 0, width := 0, action := 1, value := zeros 80, mask := zeros 80 })]⟩ } }, (⟨by decide +kernel, _, rfl, by decide⟩), (⟨by decide +kernel, by decide +kernel, by decide +kernel, by decide +kernel⟩), (by decide +kernel), (by decide +kernel)⟩,
    ⟨5, cmd 0x23, 0, { tag := ⟨0, 0, true, false⟩, priority := 5, lrow := 0, width := 0, action := 1, value := zeros 80, mask := zeros 80 }, { ex (cmd 0x23) with tabs := { rules := ⟨[(0, some { tag := ⟨0, 0, true, false⟩, priority := 5, lrow := 0, width := 0, action := 1, value := zeros 80, mask := zeros 80 })]⟩ } }, (⟨by decide +kernel, _, rfl, by decide⟩), (by decide +kernel), (by decide +kernel), (by decide +kernel), (by decide +kernel), (by decide +kernel)⟩⟩

theorem witness_ProfilesAndGroupsAreSet :
    (∃ (r : Ring) (d : Bytes) (b : Bytes) (k : Nat) (s : State), (Executing s r 0x0024 d) ∧ (SeqIdle s r 0x0024) ∧ (badProfile b = false) ∧ (∀ x ∈ tilesOf (leAt b 8 8), s.widthAt x = byteAt b 1 ∧ s.isJoin x = true ∧ s.joinLostAny x = false) ∧ (s.logRoom 1 = true) ∧ (match s.profIn (byteAt b 0) s.staging with | none => firstBelow 128 (fun j => (s.profAt j).isNone) = some k | some (o, c) => if s.madeInStaging c.tag then k = o else firstBelow 128 (fun j => (s.profAt j).isNone) = some k ∧ k ≠ o)) ∧
    (∃ (r : Ring) (d : Bytes) (k : Nat) (c : ProfileCell) (s : State), (Executing s r 0x0025 d) ∧ (SeqIdle s r 0x0025) ∧ (s.profIn (byteAt d 0x10) s.staging = some (k, c)) ∧ (s.logRoom 1 = true)) ∧
    (∃ (s : State), (s.reachable .rsaGroupCfg = true) ∧ (s.mode = .config)) ∧
    (∃ (f : Fn) (s : State), (s.reachable .rsaGroupCfg = true) ∧ (s.mode ≠ .config ∨ f ≠ .pf0)) :=
  ⟨⟨5, cmd 0x24, zeros 192, 0, ex (cmd 0x24), (⟨by decide +kernel, _, rfl, by decide⟩), (⟨by decide +kernel, by decide +kernel, by decide +kernel, by decide +kernel⟩), (by decide +kernel), (by decide +kernel), (by decide +kernel), (by show (firstBelow 128 fun j => ((ex (cmd 0x24)).profAt j).isNone) = some 0; decide +kernel)⟩,
    ⟨5, cmd 0x25, 0, { tag := ⟨0, 0, true, false⟩, num := 0, width := 0, tiles := 0, dflt := 0, sel := zeros 80, stencil := zeros 80 }, { ex (cmd 0x25) with tabs := { profiles := ⟨[(0, some { tag := ⟨0, 0, true, false⟩, num := 0, width := 0, tiles := 0, dflt := 0, sel := zeros 80, stencil := zeros 80 })]⟩ } }, (⟨by decide +kernel, _, rfl, by decide⟩), (⟨by decide +kernel, by decide +kernel, by decide +kernel, by decide +kernel⟩), (by decide +kernel), (by decide +kernel)⟩,
    ⟨up .config, (by decide +kernel), (by decide +kernel)⟩,
    ⟨.pf1, up .config, (by decide +kernel), (by decide +kernel)⟩⟩

theorem witness_RuleSearchReturnsTheBestRule :
    (∃ (f : Nat) (s : State), ((s.frame f).issued = true) ∧ ((s.frame f).rule.back = false) ∧ ((s.frame f).ing = .landing) ∧ (∀ n, s.flt.corrupt.get 0 n = 0)) ∧
    (∃ (p : ProfileCell) (hv : Bytes) (g : Gen) (k : Nat) (c : RuleCell) (s : State) (k' : _) (c' : RuleCell), (s.searchRules p hv g = some (k, c)) ∧ ((k', some c') ∈ s.tabs.rules.cells) ∧ (bitOf (k' / 1024) p.tiles = true) ∧ (c'.matches p hv g = true)) ∧
    (∃ (p : ProfileCell) (hv : Bytes) (g : Gen) (s : State) (k' : _) (c' : RuleCell), (s.searchRules p hv g = none) ∧ ((k', some c') ∈ s.tabs.rules.cells) ∧ (bitOf (k' / 1024) p.tiles = true)) ∧
    (∃ (x : Frame) (j : Nat) (k : Nat) (p : ProfileCell) (c : RuleCell) (s : State) (i : _), (s.profIn (byteAt x.hv 4 % 32) x.gen = some (j, p)) ∧ (s.searchRules p x.hv x.gen = some (k, c)) ∧ (k < 65536) ∧ (i < joinSpan (s.widthAt (k / 1024)))) ∧
    (∃ (f : Nat) (c : Nat) (x : Fin 64) (s : State), ((s.frame f).issued = true) ∧ ((s.frame f).rule.back = false) ∧ ((s.frame f).ing = .landing) ∧ ((x.val, c) ∈ s.checkedCells (s.frame f))) ∧
    (∃ (x : Fin 64) (c : Fin 1024) (s : State), (s.mode ≠ .standby) ∧ (¬ (x.val = 63 ∧ c.val = 1023))) :=
  ⟨⟨1, fr { ing := .landing, issued := true } (up .forward), (by decide +kernel), (by decide +kernel), (by decide +kernel), (fun _ => rfl)⟩,
    ⟨{ tag := ⟨0, 0, true, false⟩, num := 0, width := 0, tiles := 1, dflt := 0, sel := zeros 80, stencil := zeros 80 }, [], 0, 0, { tag := ⟨0, 0, true, false⟩, priority := 5, lrow := 0, width := 0, action := 1, value := zeros 80, mask := zeros 80 }, { fr { ing := .landing, issued := true } (up .forward) with tabs := { rules := ⟨[(0, some { tag := ⟨0, 0, true, false⟩, priority := 5, lrow := 0, width := 0, action := 1, value := zeros 80, mask := zeros 80 })]⟩, profiles := ⟨[(0, some { tag := ⟨0, 0, true, false⟩, num := 0, width := 0, tiles := 1, dflt := 0, sel := zeros 80, stencil := zeros 80 })]⟩ } }, 0, { tag := ⟨0, 0, true, false⟩, priority := 5, lrow := 0, width := 0, action := 1, value := zeros 80, mask := zeros 80 }, (by decide +kernel), (by decide +kernel), (by decide +kernel), (by decide +kernel)⟩,
    ⟨{ tag := ⟨0, 0, true, false⟩, num := 0, width := 0, tiles := 3, dflt := 0, sel := zeros 80, stencil := List.replicate 80 255 }, [], 0, { up .forward with tabs := { rules := ⟨[(1024, some { tag := ⟨0, 0, true, false⟩, priority := 5, lrow := 0, width := 0, action := 1, value := List.replicate 80 255, mask := List.replicate 80 255 })]⟩ } }, 1024, { tag := ⟨0, 0, true, false⟩, priority := 5, lrow := 0, width := 0, action := 1, value := List.replicate 80 255, mask := List.replicate 80 255 }, (by decide +kernel), (by decide +kernel), (by decide +kernel)⟩,
    ⟨{}, 0, 0, { tag := ⟨0, 0, true, false⟩, num := 0, width := 0, tiles := 1, dflt := 0, sel := zeros 80, stencil := zeros 80 }, { tag := ⟨0, 0, true, false⟩, priority := 5, lrow := 0, width := 0, action := 1, value := zeros 80, mask := zeros 80 }, { fr { ing := .landing, issued := true } (up .forward) with tabs := { rules := ⟨[(0, some { tag := ⟨0, 0, true, false⟩, priority := 5, lrow := 0, width := 0, action := 1, value := zeros 80, mask := zeros 80 })]⟩, profiles := ⟨[(0, some { tag := ⟨0, 0, true, false⟩, num := 0, width := 0, tiles := 1, dflt := 0, sel := zeros 80, stencil := zeros 80 })]⟩ } }, 0, (by decide +kernel), (by decide +kernel), (by decide +kernel), (by decide +kernel)⟩,
    ⟨1, 0, 0, { fr { ing := .landing, issued := true } (up .forward) with tabs := { rules := ⟨[(0, some { tag := ⟨0, 0, true, false⟩, priority := 5, lrow := 0, width := 0, action := 1, value := zeros 80, mask := zeros 80 })]⟩, profiles := ⟨[(0, some { tag := ⟨0, 0, true, false⟩, num := 0, width := 0, tiles := 1, dflt := 0, sel := zeros 80, stencil := zeros 80 })]⟩ } }, (by decide +kernel), (by decide +kernel), (by decide +kernel), (by decide +kernel)⟩,
    ⟨63, 1022, up .forward, (by decide +kernel), (by decide +kernel)⟩⟩

theorem witness_ExactMatchCommandsChangeStaging :
    (∃ (r : Ring) (d : Bytes) (b : Bytes) (k : Nat) (s : State), (Executing s r 0x0030 d) ∧ (SeqIdle s r 0x0030) ∧ (badEm b = false) ∧ (∀ j e, s.emIn (emKtype b) (emKey b) s.staging = some (j, e) → (e.lrn && e.tag.bs) = true) ∧ ((s.scanSlots (emKtype b) (emKey b)).find? s.slotFree = some k) ∧ (s.logRoom 1 = true)) ∧
    (∃ (r : Ring) (d : Bytes) (b : Bytes) (k : Nat) (e : EmSlot) (s : State), (Executing s r 0x0031 d) ∧ (SeqIdle s r 0x0031) ∧ (badEm b = false) ∧ (s.emIn (emKtype b) (emKey b) s.staging = some (k, e)) ∧ (s.logRoom 1 = true) ∧ (s.madeInStaging e.tag = true)) ∧
    (∃ (r : Ring) (d : Bytes) (b : Bytes) (k : Nat) (e : EmSlot) (s : State) (k' : _), (Executing s r 0x0031 d) ∧ (SeqIdle s r 0x0031) ∧ (badEm b = false) ∧ (s.emIn (emKtype b) (emKey b) s.staging = some (k, e)) ∧ (s.logRoom 1 = true) ∧ (s.madeInStaging e.tag = false) ∧ ((s.scanSlots (emKtype b) (emKey b)).find? s.slotFree = some k')) ∧
    (∃ (r : Ring) (d : Bytes) (b : Bytes) (k : Nat) (e : EmSlot) (s : State), (Executing s r 0x0032 d) ∧ (SeqIdle s r 0x0032) ∧ (s.emIn (emKtype b) (emKey b) s.staging = some (k, e)) ∧ (s.logRoom 1 = true)) ∧
    (∃ (r : Ring) (d : Bytes) (s : State), (Executing s r 0x0033 d) ∧ (s.tabs.dead = false) ∧ (s.flt.corrupt.get 0 0x31 = 0) ∧ (s.seqHeld r 0x0033 = false) ∧ (s.live (BitVec.ofNat 16 (leAt d 0x10 2)) = true)) ∧
    (∃ (r : Ring) (d : Bytes) (s : State), (Executing s r 0x0034 d) ∧ (s.tabs.dead = false) ∧ (s.flt.corrupt.get 0 0x31 = 0) ∧ (s.seqHeld r 0x0034 = false) ∧ (s.live (BitVec.ofNat 16 (leAt d 0x10 2)) = true)) ∧
    (∃ (kt : Nat) (key : Bytes) (k : Nat) (s : State) (t : State) (j : _) (e : EmSlot), (s.makeRoom kt key = some (k, t)) ∧ ((s.scanSlots kt key).find? s.slotFree ≠ none ∨ s.bfs (s.fld .emtInsCfg 0 0 2 0) 126 (((s.scanSlots kt key).filter fun j => (s.slot j).isSome).map fun j => [j]) (s.scanSlots kt key) ≠ none) ∧ (s.slot j = some e)) :=
  ⟨⟨5, cmd 0x30, zeros 32, 429988, ex (cmd 0x30), (⟨by decide +kernel, _, rfl, by decide⟩), (⟨by decide +kernel, by decide +kernel, by decide +kernel, by decide +kernel⟩), (by decide +kernel), (by have e : (ex (cmd 0x30)).emIn (emKtype (zeros 32)) (emKey (zeros 32)) (ex (cmd 0x30)).staging = none := by { decide +kernel }; intro j x h; rw [e] at h; cases h), (by decide +kernel), (by decide +kernel)⟩,
    ⟨5, cmd 0x31, zeros 32, 429988, { tag := ⟨1, 0, false, false⟩, ktype := 0, key := zeros 16, adata := 1, lrn := false, sw := false, rpt := false }, { ex (cmd 0x31) with tabs := { em := ⟨[(429988, some { tag := ⟨1, 0, false, false⟩, ktype := 0, key := zeros 16, adata := 1, lrn := false, sw := false, rpt := false })]⟩ } }, (⟨by decide +kernel, _, rfl, by decide⟩), (⟨by decide +kernel, by decide +kernel, by decide +kernel, by decide +kernel⟩), (by decide +kernel), (by decide +kernel), (by decide +kernel), (by decide +kernel)⟩,
    ⟨5, cmd 0x31, zeros 32, 429988, { tag := ⟨0, 0, true, false⟩, ktype := 0, key := zeros 16, adata := 1, lrn := false, sw := false, rpt := false }, { ex (cmd 0x31) with tabs := { em := ⟨[(429988, some { tag := ⟨0, 0, true, false⟩, ktype := 0, key := zeros 16, adata := 1, lrn := false, sw := false, rpt := false })]⟩ } }, 429989, (⟨by decide +kernel, _, rfl, by decide⟩), (⟨by decide +kernel, by decide +kernel, by decide +kernel, by decide +kernel⟩), (by decide +kernel), (by decide +kernel), (by decide +kernel), (by decide +kernel), (by decide +kernel)⟩,
    ⟨5, cmd 0x32, zeros 32, 429988, { tag := ⟨0, 0, true, false⟩, ktype := 0, key := zeros 16, adata := 1, lrn := false, sw := false, rpt := false }, { ex (cmd 0x32) with tabs := { em := ⟨[(429988, some { tag := ⟨0, 0, true, false⟩, ktype := 0, key := zeros 16, adata := 1, lrn := false, sw := false, rpt := false })]⟩ } }, (⟨by decide +kernel, _, rfl, by decide⟩), (⟨by decide +kernel, by decide +kernel, by decide +kernel, by decide +kernel⟩), (by decide +kernel), (by decide +kernel)⟩,
    ⟨5, cmd 0x33, ex (cmd 0x33), (⟨by decide +kernel, _, rfl, by decide⟩), (by decide +kernel), (by decide +kernel), (by decide +kernel), (by decide +kernel)⟩,
    ⟨5, cmd 0x34, ex (cmd 0x34), (⟨by decide +kernel, _, rfl, by decide⟩), (by decide +kernel), (by decide +kernel), (by decide +kernel), (by decide +kernel)⟩,
    ⟨0, zeros 16, 429989, { up .config with tabs := { em := ⟨[(429988, some { tag := ⟨0, 0, true, false⟩, ktype := 0, key := zeros 16, adata := 1, lrn := false, sw := false, rpt := false })]⟩ } }, { up .config with tabs := { em := ⟨[(429988, some { tag := ⟨0, 0, true, false⟩, ktype := 0, key := zeros 16, adata := 1, lrn := false, sw := false, rpt := false })]⟩ } }, 429988, { tag := ⟨0, 0, true, false⟩, ktype := 0, key := zeros 16, adata := 1, lrn := false, sw := false, rpt := false }, (by decide +kernel), (Or.inl (by decide +kernel)), (by decide +kernel)⟩⟩

theorem witness_FlushesAndAgingSweepTheTable :
    (∃ (r : Ring) (d : Bytes) (s : State), (Executing s r 0x0035 d) ∧ (SeqIdle s r 0x0035) ∧ (s.begun r 0x0035 = false) ∧ (s.gen.waiting = [] ∨ s.gen.armed ≠ none)) ∧
    (∃ (f : Flush) (s : State), (s.tabs.flush = some f) ∧ (s.tabs.abort = none) ∧ (s.tabs.dead = false) ∧ (s.flt.corrupt.get 0 0x31 = 0) ∧ (s.seqAhead 5 = false) ∧ (f.bucket < 131071) ∧ (s.logUsed s.staging + 8 ≤ 1048576)) ∧
    (∃ (f : Flush) (r : Ring) (d : Bytes) (s : State), (s.tabs.flush = some f) ∧ (f.ring = r.val) ∧ (s.tabs.abort = none) ∧ (s.tabs.dead = false) ∧ (s.flt.corrupt.get 0 0x31 = 0) ∧ (s.seqAhead 5 = false) ∧ (f.bucket = 131071) ∧ (∀ k, (k / 4 = 131071 ∨ k / 4 = 262143) → s.slot k = none) ∧ ((s.ring r).inExec = some d) ∧ (∃ c, (s.ring r).ctx = some c ∧ c.kind = 1) ∧ (∀ g ∈ s.tabs.flushWait, g.ring ≠ r.val)) ∧
    (∃ (s : State), (s.bit .emtAgeCtrl 0 0 16 = true) ∧ (s.tabs.ageRuns = false)) ∧
    (∃ (b : Fin 131072) (s : State), (s.bit .emtAgeCtrl 0 0 16 = true) ∧ (s.tabs.ageRuns = true) ∧ (s.tabs.ageNext = b.val) ∧ (s.tabs.sweep = none) ∧ (s.tabs.dead = false) ∧ (s.mode ≠ .standby) ∧ (s.seqAhead 6 = false) ∧ (s.sixFree .aging = true) ∧ (s.flt.corrupt.get 0 0x31 = 0) ∧ (b.val < 131071)) ∧
    (∃ (b : Fin 131072) (gone : List Nat) (n : Nat) (s : State), (s.tabs.sweep = some ⟨b, gone, n⟩) ∧ (n < 3)) ∧
    (∃ (b : Fin 131072) (gone : List Nat) (n : Nat) (s : State), (s.tabs.sweep = some ⟨b, gone, n⟩) ∧ (3 ≤ n) ∧ (b.val < 131071)) :=
  ⟨⟨5, cmd 0x35, ex (cmd 0x35), (⟨by decide +kernel, _, rfl, by decide⟩), (⟨by decide +kernel, by decide +kernel, by decide +kernel, by decide +kernel⟩), (by decide +kernel), (by decide +kernel)⟩,
    ⟨⟨5, 0, 0, false, 131070, 0, 0, 0⟩, { ex (cmd 0x35) with tabs := { flush := some ⟨5, 0, 0, false, 131070, 0, 0, 0⟩ } }, (by decide +kernel), (by decide +kernel), (by decide +kernel), (by decide +kernel), (by decide +kernel), (by decide +kernel), (by decide +kernel)⟩,
    ⟨⟨5, 0, 0, false, 131071, 0, 0, 0⟩, 5, cmd 0x35, { ex (cmd 0x35) with tabs := { flush := some ⟨5, 0, 0, false, 131071, 0, 0, 0⟩ } }, (by decide +kernel), (by decide +kernel), (by decide +kernel), (by decide +kernel), (by decide +kernel), (by decide +kernel), (by decide +kernel), (fun _ _ => rfl), (by decide +kernel), (⟨_, rfl, by decide⟩), (fun _ h => nomatch h)⟩,
    ⟨(up .forward).setReg .emtAgeCtrl 0 0 0x10001, (by decide +kernel), (by decide +kernel)⟩,
    ⟨131070, { (up .forward).setReg .emtAgeCtrl 0 0 0x10001 with tabs := { ageRuns := true, ageNext := 131070 } }, (by decide +kernel), (by decide +kernel), (by decide +kernel), (by decide +kernel), (by decide +kernel), (by decide +kernel), (by decide +kernel), (by decide +kernel), (by decide +kernel), (by decide +kernel)⟩,
    ⟨131071, [5], 2, { up .forward with tabs := { sweep := some ⟨131071, [5], 2⟩ } }, (by decide +kernel), (by decide +kernel)⟩,
    ⟨131070, [5], 3, { up .forward with tabs := { sweep := some ⟨131070, [5], 3⟩ } }, (by decide +kernel), (by decide +kernel), (by decide +kernel)⟩⟩

theorem witness_LookupsAnswerAndLearn :
    (∃ (f : Nat) (s : State), ((s.frame f).issued = true) ∧ ((s.frame f).exact.back = false) ∧ ((s.frame f).ing = .landing) ∧ (s.role (s.frame f) ≠ 0)) ∧
    (∃ (f : Nat) (s : State), ((s.frame f).issued = true) ∧ ((s.frame f).route.back = false) ∧ ((s.frame f).ing = .landing) ∧ (s.lpmFam (s.frame f) ≠ 0)) ∧
    (∃ (fam : Nat) (vrf : Nat) (addr : Bytes) (g : Gen) (r : Route) (s : State) (x : _), (s.bestRoute fam vrf addr g = some r) ∧ (x.tag.visible g = true) ∧ (x.fam = fam) ∧ (x.vrf = vrf) ∧ (prefixEqual x.addr addr (famBytes fam) x.plen = true) ∧ (x ∈ s.tabs.routes)) ∧
    (∃ (j : LearnJob) (rest : List LearnJob) (s : State) (k : _), (s.tabs.dead = false) ∧ (s.tabs.jobs = j :: rest) ∧ (s.seqAhead 4 = false) ∧ (s.flt.corrupt.get 0 0x31 = 0) ∧ (j.move = none) ∧ (s.keySlots j.ktype j.key = []) ∧ ((s.scanSlots j.ktype j.key).find? s.slotFree = some k)) ∧
    (∃ (j : LearnJob) (rest : List LearnJob) (s : State) (k : _) (e : EmSlot), (s.tabs.dead = false) ∧ (s.tabs.jobs = j :: rest) ∧ (s.seqAhead 4 = false) ∧ (s.flt.corrupt.get 0 0x31 = 0) ∧ (j.move ≠ none) ∧ (s.emIn j.ktype j.key j.gen = some (k, e)) ∧ (e.lrn = true) ∧ (e.tag.ds = false)) ∧
    (∃ (q : Quad) (k : LearnKey) (rest : List LearnKey) (s : State), (s.learnFilter q = k :: rest)) :=
  ⟨⟨1, fr { ing := .landing, issued := true } ((up .forward).setReg .emtKeyselCtrl 0 0 0x10), (by decide +kernel), (by decide +kernel), (by decide +kernel), (by decide +kernel)⟩,
    ⟨1, fr { ing := .landing, issued := true } ((up .forward).setReg .emtKeyselCtrl 0 0 0x40), (by decide +kernel), (by decide +kernel), (by decide +kernel), (by decide +kernel)⟩,
    ⟨1, 0, [10, 0, 0, 1], 0, ⟨⟨0, 0, true, false⟩, 1, 0, 0, zeros 16, 1⟩, { up .forward with tabs := { routes := [⟨⟨0, 0, true, false⟩, 1, 0, 0, zeros 16, 1⟩] } }, ⟨⟨0, 0, true, false⟩, 1, 0, 0, zeros 16, 1⟩, (by decide +kernel), (by decide +kernel), (by decide +kernel), (by decide +kernel), (by decide +kernel), (by decide +kernel)⟩,
    ⟨⟨0, 0, zeros 16, 1, 3, 0, none⟩, [], { up .forward with tabs := { jobs := [⟨0, 0, zeros 16, 1, 3, 0, none⟩] } }, 429988, (by decide +kernel), (by decide +kernel), (by decide +kernel), (by decide +kernel), (by decide +kernel), (by decide +kernel), (by decide +kernel)⟩,
    ⟨⟨0, 0, zeros 16, 1, 3, 0, some 429988⟩, [], { up .forward with tabs := { jobs := [⟨0, 0, zeros 16, 1, 3, 0, some 429988⟩], em := ⟨[(429988, some { tag := ⟨0, 0, true, false⟩, ktype := 0, key := zeros 16, adata := 1, lrn := true, sw := false, rpt := false })]⟩ } }, 429988, { tag := ⟨0, 0, true, false⟩, ktype := 0, key := zeros 16, adata := 1, lrn := true, sw := false, rpt := false }, (by decide +kernel), (by decide +kernel), (by decide +kernel), (by decide +kernel), (by decide +kernel), (by decide +kernel), (by decide +kernel), (by decide +kernel)⟩,
    ⟨1, ⟨0, zeros 16, 5⟩, [], { up .forward with tabs := { filter := ⟨[(1, [⟨0, zeros 16, 5⟩])]⟩ } }, (by decide +kernel)⟩⟩

theorem witness_RoutesAreAddedModifiedAndDeleted :
    (∃ (r : Ring) (d : Bytes) (b : Bytes) (s : State), (Executing s r 0x0040 d) ∧ (SeqIdle s r 0x0040) ∧ (badRoute b = false) ∧ (s.routeIn (routeOf b s.bornTag) = none) ∧ (s.routeRoom (byteAt b 0) = true) ∧ (s.logRoom 1 = true)) ∧
    (∃ (r : Ring) (d : Bytes) (b : Bytes) (old : Route) (s : State), (Executing s r 0x0041 d) ∧ (SeqIdle s r 0x0041) ∧ (badRoute b = false) ∧ (s.routeIn (routeOf b s.bornTag) = some old) ∧ (s.logRoom 1 = true) ∧ (s.madeInStaging old.tag = true ∨ s.routeRoom (byteAt b 0) = true)) ∧
    (∃ (r : Ring) (d : Bytes) (b : Bytes) (old : Route) (s : State), (Executing s r 0x0042 d) ∧ (SeqIdle s r 0x0042) ∧ (badRoute b = false) ∧ (s.routeIn (routeOf b s.bornTag) = some old) ∧ (s.logRoom 1 = true)) :=
  ⟨⟨5, cmd 0x40, 1 :: zeros 31, ex (cmd 0x40), (⟨by decide +kernel, _, rfl, by decide⟩), (⟨by decide +kernel, by decide +kernel, by decide +kernel, by decide +kernel⟩), (by decide +kernel), (by decide +kernel), (by decide +kernel), (by decide +kernel)⟩,
    ⟨5, cmd 0x41, 1 :: zeros 31, ⟨⟨0, 0, true, false⟩, 1, 0, 0, zeros 16, 1⟩, { ex (cmd 0x41) with tabs := { routes := [⟨⟨0, 0, true, false⟩, 1, 0, 0, zeros 16, 1⟩] } }, (⟨by decide +kernel, _, rfl, by decide⟩), (⟨by decide +kernel, by decide +kernel, by decide +kernel, by decide +kernel⟩), (by decide +kernel), (by decide +kernel), (by decide +kernel), (by decide +kernel)⟩,
    ⟨5, cmd 0x42, 1 :: zeros 31, ⟨⟨0, 0, true, false⟩, 1, 0, 0, zeros 16, 1⟩, { ex (cmd 0x42) with tabs := { routes := [⟨⟨0, 0, true, false⟩, 1, 0, 0, zeros 16, 1⟩] } }, (⟨by decide +kernel, _, rfl, by decide⟩), (⟨by decide +kernel, by decide +kernel, by decide +kernel, by decide +kernel⟩), (by decide +kernel), (by decide +kernel), (by decide +kernel)⟩⟩

theorem witness_ProofingRepairsTheReplicas :
    (∃ (l : TableLoc) (s : State), (s.mayProof l = true) ∧ (s.flt.corrupt.get 0 0x31 = 0)) ∧
    (∃ (l : TableLoc) (s : State), (s.mayProof l = true) ∧ (s.flt.corrupt.get 0 0x31 = 0)) ∧
    (∃ (l : TableLoc) (s : State) (x : Fin 64) (c : Fin 1024), (s.mayProof l = true) ∧ (s.flt.corrupt.get 0 0x31 = 0) ∧ (l = .ruleCell x c)) ∧
    (∃ (l : TableLoc) (s : State), (s.mayProof l = true) ∧ (s.flt.corrupt.get 0 0x31 = 0)) ∧
    (∃ (l : TableLoc) (s : State), (s.mayProof l = true) ∧ (s.flt.corrupt.get 0 0x31 = 0)) ∧
    (∃ (s : State), (s.proofOn = true) ∧ (s.tabs.dead = false) ∧ (s.sixFree .lap = true) ∧ (s.lapCovers = true)) ∧
    (∃ (s : State), (s.reachable .emtProofCtrl = true) ∧ (s.tabs.dead = false) ∧ (s.bit .emtProofCtrl 0 0 1 = false)) ∧
    (∃ (l : TableLoc) (n : Nat) (s : State), (s.bit .emtProofCtrl 0 0 1 = true) ∧ (s.tabs.dead = false) ∧ (s.flt.corrupt.get 0 0x31 = 0) ∧ (s.seqAhead 6 = false) ∧ (s.sixFree .rebuild = true) ∧ (s.rebuildNext = some (l, n))) ∧
    (∃ (s : State), (s.bit .emtProofCtrl 0 0 1 = true) ∧ (s.tabs.dead = false) ∧ (s.rebuildNext = none)) :=
  ⟨⟨.profileCell 127, (up .forward).setReg .emtProofCtrl 0 0 1, (by decide +kernel), (by decide +kernel)⟩,
    ⟨.emSlot 1048575, (up .forward).setReg .emtProofCtrl 0 0 1, (by decide +kernel), (by decide +kernel)⟩,
    ⟨.ruleCell 63 1023, (up .forward).setReg .emtProofCtrl 0 0 1, 63, 1023, (by decide +kernel), (by decide +kernel), (by decide +kernel)⟩,
    ⟨.profileCell 127, (up .forward).setReg .emtProofCtrl 0 0 1, (by decide +kernel), (by decide +kernel)⟩,
    ⟨.routeNode 3, (up .forward).setReg .emtProofCtrl 0 0 1, (by decide +kernel), (by decide +kernel)⟩,
    ⟨{ (up .forward).setReg .emtProofCtrl 0 0 1 with tabs := { proofSeen := List.range 1114240 } }, (by decide +kernel), (by decide +kernel), (by decide +kernel), (by simp only [State.lapCovers, Bool.and_eq_true, decide_eq_true_eq]; refine ⟨?_, by decide +kernel⟩; rw [show (List.range 1114240).filter (fun x => decide (x < nodeLoc 0)) = List.range 1114240 from List.filter_eq_self.2 (fun a h => decide_eq_true (show a < 2097152 by have := List.mem_range.1 h; omega)), List.length_range] <;> decide)⟩,
    ⟨up .config, (by decide +kernel), (by decide +kernel), (by decide +kernel)⟩,
    ⟨.emSlot 1048575, 1048576, { (up .config).setReg .emtProofCtrl 0 0 2 with tabs := { rebuildAt := 1048575 } }, (by decide +kernel), (by decide +kernel), (by decide +kernel), (by decide +kernel), (by decide +kernel), (by decide +kernel)⟩,
    ⟨{ (up .config).setReg .emtProofCtrl 0 0 2 with tabs := { rebuildAt := 1114240 } }, (by decide +kernel), (by decide +kernel), (by decide +kernel)⟩⟩

theorem witness_ResultsTakeTheirVerdict :
    (∃ (f : Nat) (s : State), (PlainResult s f) ∧ ((s.plan (s.frame f)).verdict = 1)) ∧
    (∃ (f : Nat) (s : State), (PlainResult s f) ∧ ((s.plan (s.frame f)).verdict = 0)) ∧
    (∃ (f : Nat) (s : State), (PlainResult s f) ∧ ((s.frame f).unprotected = true) ∧ ((s.plan (s.frame f)).verdict = 2 ∨ (s.plan (s.frame f)).verdict = 3)) ∧
    (∃ (f : Nat) (s : State), (PlainResult s f) ∧ ((s.frame f).unprotected = false) ∧ ((s.plan (s.frame f)).verdict = 2) ∧ (s.black (s.plan (s.frame f)).port = true)) ∧
    (∃ (f : Nat) (s : State), (PlainResult s f)) ∧
    (∃ (f : Nat) (s : State), (PlainResult s f)) ∧
    (∃ (f : Nat) (s : State), (PlainResult s f) ∧ ((s.plan (s.frame f)).verdict = 5) ∧ ((s.plan (s.frame f)).fromRule = true) ∧ (s.copyTake (bitsOf 47 36 (s.frame f).rule.data) ((s.frame f).slice / 4) (bitsOf 52 49 (s.frame f).rule.data) = none)) ∧
    (∃ (f : Nat) (s : State), (s.resultDue f = true) ∧ ((s.frame f).rule.lost = true) ∧ (s.bit .pmcSampCtrl 0 0 28 = false) ∧ (s.role (s.frame f) ≠ 2)) :=
  ⟨⟨1, fr { ing := .landing, ended := true, issued := true, walk := { st := .accepted }, rule := { back := true, data := 1 }, hv := [] } (up .forward), (⟨by decide +kernel, by decide +kernel, by decide +kernel, by decide +kernel, by decide +kernel, by decide +kernel, by decide +kernel, by decide +kernel⟩), (by decide +kernel)⟩,
    ⟨1, fr { ing := .landing, ended := true, issued := true, walk := { st := .accepted }, rule := { back := true, data := 0 }, hv := [] } (up .forward), (⟨by decide +kernel, by decide +kernel, by decide +kernel, by decide +kernel, by decide +kernel, by decide +kernel, by decide +kernel, by decide +kernel⟩), (by decide +kernel)⟩,
    ⟨1, fr { ing := .landing, ended := true, issued := true, walk := { st := .accepted }, rule := { back := true, data := 3 }, hv := [128, 0] } (up .forward), (⟨by decide +kernel, by decide +kernel, by decide +kernel, by decide +kernel, by decide +kernel, by decide +kernel, by decide +kernel, by decide +kernel⟩), (by decide +kernel), (by decide +kernel)⟩,
    ⟨1, fr { ing := .landing, ended := true, issued := true, walk := { st := .accepted }, rule := { back := true, data := 2 }, hv := [] } (up .forward), (⟨by decide +kernel, by decide +kernel, by decide +kernel, by decide +kernel, by decide +kernel, by decide +kernel, by decide +kernel, by decide +kernel⟩), (by decide +kernel), (by decide +kernel), (by decide +kernel)⟩,
    ⟨1, fr { ing := .landing, ended := true, issued := true, walk := { st := .accepted }, rule := { back := true, data := 2 }, hv := [] } (up .forward), (⟨by decide +kernel, by decide +kernel, by decide +kernel, by decide +kernel, by decide +kernel, by decide +kernel, by decide +kernel, by decide +kernel⟩)⟩,
    ⟨1, fr { ing := .landing, ended := true, issued := true, walk := { st := .accepted }, rule := { back := true, data := 3 }, hv := [] } (up .forward), (⟨by decide +kernel, by decide +kernel, by decide +kernel, by decide +kernel, by decide +kernel, by decide +kernel, by decide +kernel, by decide +kernel⟩)⟩,
    ⟨1, fr { ing := .landing, ended := true, issued := true, walk := { st := .accepted }, rule := { back := true, data := 5 }, hv := [] } (up .forward), (⟨by decide +kernel, by decide +kernel, by decide +kernel, by decide +kernel, by decide +kernel, by decide +kernel, by decide +kernel, by decide +kernel⟩), (by decide +kernel), (by decide +kernel), (by decide +kernel)⟩,
    ⟨1, fr { ing := .landing, ended := true, issued := true, walk := { st := .accepted }, rule := { back := true, lost := true }, hv := [] } (up .forward), (by decide +kernel), (by decide +kernel), (by decide +kernel), (by decide +kernel)⟩⟩

theorem witness_CircuitsAreWrittenDeletedAndRead :
    (∃ (r : Ring) (d : Bytes) (b : Bytes) (s : State), (Executing s r 0x0050 d) ∧ (SeqIdle s r 0x0050) ∧ (s.badCircuit b = false) ∧ (s.eqBusy (leAt d 0x10 2) (byteAt b 9) (leAt b 0x0A 2) = false) ∧ (PoolRoom s (leAt d 0x10 2)) ∧ (s.logRoom 1 = true)) ∧
    (∃ (r : Ring) (d : Bytes) (v : CirVer) (s : State), (Executing s r 0x0051 d) ∧ (SeqIdle s r 0x0051) ∧ (s.cirAt (leAt d 0x10 2) s.staging = some v) ∧ (∀ k, k < 4 → s.saIn (4 * leAt d 0x10 2 + k) s.staging = none) ∧ (s.logRoom 1 = true)) ∧
    (∃ (r : Ring) (d : Bytes) (v : CirVer) (s : State), (Executing s r 0x0052 d) ∧ (SeqIdle s r 0x0052) ∧ (s.live (BitVec.ofNat 16 (leAt d 0x12 2)) = true) ∧ (s.cirAt (leAt d 0x10 2) (BitVec.ofNat 16 (leAt d 0x12 2)) = some v)) :=
  ⟨⟨5, cmd 0x50, zeros 8 ++ [1, 3] ++ zeros 8 ++ [14] ++ zeros 493, (ex (cmd 0x50)).setReg .burProg 0 0 0x90000000, (⟨by decide +kernel, _, rfl, by decide⟩), (⟨by decide +kernel, by decide +kernel, by decide +kernel, by decide +kernel⟩), (by decide +kernel), (by decide +kernel), (Or.inl (by decide +kernel)), (by decide +kernel)⟩,
    ⟨5, cmd 0x51, { tag := ⟨0, 0, true, false⟩, mode := 1, port := 3, eq := 0, rewrite := 0, txSel := 0xFF, flags := 0, ovh := 0, hdrMax := 128, data := zeros 448 }, { ex (cmd 0x51) with glz := { cir := ⟨[(0, [{ tag := ⟨0, 0, true, false⟩, mode := 1, port := 3, eq := 0, rewrite := 0, txSel := 0xFF, flags := 0, ovh := 0, hdrMax := 128, data := zeros 448 }])]⟩ } }, (⟨by decide +kernel, _, rfl, by decide⟩), (⟨by decide +kernel, by decide +kernel, by decide +kernel, by decide +kernel⟩), (by decide +kernel), (by decide +kernel), (by decide +kernel)⟩,
    ⟨5, cmd 0x52, { tag := ⟨0, 0, true, false⟩, mode := 1, port := 3, eq := 0, rewrite := 0, txSel := 0xFF, flags := 0, ovh := 0, hdrMax := 128, data := zeros 448 }, { ex (cmd 0x52) with glz := { cir := ⟨[(0, [{ tag := ⟨0, 0, true, false⟩, mode := 1, port := 3, eq := 0, rewrite := 0, txSel := 0xFF, flags := 0, ovh := 0, hdrMax := 128, data := zeros 448 }])]⟩ } }, (⟨by decide +kernel, _, rfl, by decide⟩), (⟨by decide +kernel, by decide +kernel, by decide +kernel, by decide +kernel⟩), (by decide +kernel), (by decide +kernel)⟩⟩

theorem witness_CircuitsAreDisabledEnabledAndResumed :
    (∃ (r : Ring) (d : Bytes) (s : State), (Executing s r 0x0053 d) ∧ ((s.cirState (leAt d 0x10 2)).flushes = []) ∧ (s.bit .cirDisableMode 0 0 0 = false)) ∧
    (∃ (r : Ring) (d : Bytes) (s : State), (Executing s r 0x0053 d) ∧ ((s.cirState (leAt d 0x10 2)).flushes = []) ∧ (s.bit .cirDisableMode 0 0 0 = true)) ∧
    (∃ (r : Ring) (d : Bytes) (s : State), (Executing s r 0x0054 d) ∧ ((s.cirState (leAt d 0x10 2)).flushes = [])) ∧
    (∃ (c : Circuit) (r : Ring) (d : Bytes) (w : CirFlush) (s : State), ((s.cirState c).flushes.filter s.flushOver = [w]) ∧ (w.ring = some r.val) ∧ ((s.ring r).inExec = some d) ∧ (∃ x, (s.ring r).ctx = some x ∧ x.kind = 1)) ∧
    (∃ (r : Ring) (d : Bytes) (s : State), (Executing s r 0x0064 d) ∧ (s.poisonIn (leAt d 0x10 2) s.gen.current = false) ∧ (s.poisonIn (leAt d 0x10 2) s.staging = false)) :=
  ⟨⟨5, cmd 0x53, ex (cmd 0x53), (⟨by decide +kernel, _, rfl, by decide⟩), (by decide +kernel), (by decide +kernel)⟩,
    ⟨5, cmd 0x53, (ex (cmd 0x53)).setReg .cirDisableMode 0 0 1, (⟨by decide +kernel, _, rfl, by decide⟩), (by decide +kernel), (by decide +kernel)⟩,
    ⟨5, cmd 0x54, { ex (cmd 0x54) with glz := { state := ⟨[(0, { disabled := true })]⟩ } }, (⟨by decide +kernel, _, rfl, by decide⟩), (by decide +kernel)⟩,
    ⟨7, 5, cmd 0x53, ⟨[(0, 4)], false, some 5⟩, { ex (cmd 0x53) with glz := { state := ⟨[(7, { disabled := true, flushes := [⟨[(0, 4)], false, some 5⟩] })]⟩ } }, (by decide +kernel), (by decide +kernel), (by decide +kernel), (⟨_, rfl, by decide⟩)⟩,
    ⟨5, cmd 0x64, { ex (cmd 0x64) with glz := { state := ⟨[(0, { suspended := true })]⟩ } }, (⟨by decide +kernel, _, rfl, by decide⟩), (by decide +kernel), (by decide +kernel)⟩⟩

theorem witness_SecurityAssociationsAreLoadedAndSelected :
    (∃ (r : Ring) (d : Bytes) (b : Bytes) (plain : Bytes) (v : CirVer) (s : State), (Executing s r 0x0060 d) ∧ (SeqIdle s r 0x0060) ∧ (badSaRecord b = false) ∧ (badBlob (sliceOf b 64 64) = false) ∧ (s.cirAt (leAt b 0 2) s.staging = some v) ∧ (suiteMacsec (byteAt b 4) = decide (v.mode = 1)) ∧ (byteAt b 3 = 1 → byteAt b 7 / 8 = v.port / 8) ∧ (s.saOf (4 * leAt b 0 2 + byteAt b 2) = none) ∧ ((s.glz.sa.any fun _ x => x.any fun x => x.sameKey (s.saFrom b [])) = false) ∧ (byteAt b 67 = s.fuses.kekSlot) ∧ (kwUnwrap (s.kek s.fuses.kekSlot) (sliceOf (sliceOf b 64 64) 16 (leAt (sliceOf b 64 64) 8 2)) = some plain) ∧ (bindingOk (sliceOf b 64 64) plain (byteAt b 4) = true) ∧ (s.logRoom 1 = true)) ∧
    (∃ (r : Ring) (d : Bytes) (x : Sa) (s : State), (Executing s r 0x0061 d) ∧ (SeqIdle s r 0x0061) ∧ (s.saIn (4 * leAt d 0x10 2 + byteAt d 0x12) s.staging = some x) ∧ (∀ v, s.cirAt (leAt d 0x10 2) s.staging = some v → v.txSel ≠ byteAt d 0x12) ∧ (s.logRoom 1 = true)) ∧
    (∃ (r : Ring) (d : Bytes) (v : CirVer) (x : Sa) (s : State), (Executing s r 0x0062 d) ∧ (SeqIdle s r 0x0062) ∧ (s.cirAt (leAt d 0x10 2) s.staging = some v) ∧ (byteAt d 0x12 ≤ 3) ∧ (s.saIn (4 * leAt d 0x10 2 + byteAt d 0x12) s.staging = some x) ∧ (x.tx = true) ∧ (x.bound = none ∨ x.bound = some (v.port / 8, v.eq)) ∧ (PoolRoom s (leAt d 0x10 2)) ∧ (s.logRoom 1 = true)) ∧
    (∃ (r : Ring) (d : Bytes) (x : Sa) (s : State), (Executing s r 0x0063 d) ∧ (SeqIdle s r 0x0063) ∧ (s.live (BitVec.ofNat 16 (leAt d 0x14 2)) = true) ∧ (s.saIn (4 * leAt d 0x10 2 + byteAt d 0x12) (BitVec.ofNat 16 (leAt d 0x14 2)) = some x)) ∧
    (∃ (c : Circuit) (s : State), ((s.cirState c).icvEnd ≠ 0) ∧ ((s.cirState c).icvCount = 0 ∨ (s.cirState c).icvSa / 4 = c.val)) :=
  ⟨⟨5, cmd 0x60, [0, 0, 0, 1, 1, 0, 0, 3] ++ zeros 40 ++ [1] ++ zeros 15 ++ ([0x4B, 0x57, 1, 0, 1, 1, 0, 0, 32] ++ zeros 7 ++ wrapped ++ zeros 16), [0x59, 1, 0, 1, 1, 0, 0, 0] ++ zeros 16, { tag := ⟨0, 0, true, false⟩, mode := 1, port := 3, eq := 0, rewrite := 0, txSel := 0xFF, flags := 0, ovh := 0, hdrMax := 128, data := zeros 448 }, { ex (cmd 0x60) with glz := { cir := ⟨[(0, [{ tag := ⟨0, 0, true, false⟩, mode := 1, port := 3, eq := 0, rewrite := 0, txSel := 0xFF, flags := 0, ovh := 0, hdrMax := 128, data := zeros 448 }])]⟩ } }, (⟨by decide +kernel, _, rfl, by decide⟩), (⟨by decide +kernel, by decide +kernel, by decide +kernel, by decide +kernel⟩), (by decide +kernel), (by decide +kernel), (by decide +kernel), (by decide +kernel), (by decide +kernel), (by decide +kernel), (by decide +kernel), (by decide +kernel), (by decide +kernel), (by decide +kernel), (by decide +kernel)⟩,
    ⟨5, cmd 0x61, { tag := ⟨0, 0, true, false⟩, tx := true, suite := 1, an := 0, flags := 0, rxPort := 3, kekSlot := 0, window := 0, sciSpi := zeros 6 ++ [0, 1], salt := zeros 12, ssci := 0, softPn := 9, initPn := 1, keyStore := ⟨[], zeros 16⟩ }, { ex (cmd 0x61) with glz := { sa := ⟨[(0, some { tag := ⟨0, 0, true, false⟩, tx := true, suite := 1, an := 0, flags := 0, rxPort := 3, kekSlot := 0, window := 0, sciSpi := zeros 6 ++ [0, 1], salt := zeros 12, ssci := 0, softPn := 9, initPn := 1, keyStore := ⟨[], zeros 16⟩ })]⟩ } }, (⟨by decide +kernel, _, rfl, by decide⟩), (⟨by decide +kernel, by decide +kernel, by decide +kernel, by decide +kernel⟩), (by decide +kernel), (fun v h => nomatch (show (none : Option CirVer) = some v from h)), (by decide +kernel)⟩,
    ⟨5, cmd 0x62, { tag := ⟨0, 0, true, false⟩, mode := 1, port := 3, eq := 0, rewrite := 0, txSel := 0xFF, flags := 0, ovh := 0, hdrMax := 128, data := zeros 448 }, { tag := ⟨0, 0, true, false⟩, tx := true, suite := 1, an := 0, flags := 0, rxPort := 3, kekSlot := 0, window := 0, sciSpi := zeros 6 ++ [0, 1], salt := zeros 12, ssci := 0, softPn := 9, initPn := 1, keyStore := ⟨[], zeros 16⟩ }, { ex (cmd 0x62) with glz := { cir := ⟨[(0, [{ tag := ⟨0, 0, true, false⟩, mode := 1, port := 3, eq := 0, rewrite := 0, txSel := 0xFF, flags := 0, ovh := 0, hdrMax := 128, data := zeros 448 }])]⟩, sa := ⟨[(0, some { tag := ⟨0, 0, true, false⟩, tx := true, suite := 1, an := 0, flags := 0, rxPort := 3, kekSlot := 0, window := 0, sciSpi := zeros 6 ++ [0, 1], salt := zeros 12, ssci := 0, softPn := 9, initPn := 1, keyStore := ⟨[], zeros 16⟩ })]⟩ } }, (⟨by decide +kernel, _, rfl, by decide⟩), (⟨by decide +kernel, by decide +kernel, by decide +kernel, by decide +kernel⟩), (by decide +kernel), (by decide +kernel), (by decide +kernel), (by decide +kernel), (by decide +kernel), (Or.inr (Or.inr (by decide +kernel))), (by decide +kernel)⟩,
    ⟨5, cmd 0x63, { tag := ⟨0, 0, true, false⟩, tx := true, suite := 1, an := 0, flags := 0, rxPort := 3, kekSlot := 0, window := 0, sciSpi := zeros 6 ++ [0, 1], salt := zeros 12, ssci := 0, softPn := 9, initPn := 1, keyStore := ⟨[], zeros 16⟩ }, { ex (cmd 0x63) with glz := { sa := ⟨[(0, some { tag := ⟨0, 0, true, false⟩, tx := true, suite := 1, an := 0, flags := 0, rxPort := 3, kekSlot := 0, window := 0, sciSpi := zeros 6 ++ [0, 1], salt := zeros 12, ssci := 0, softPn := 9, initPn := 1, keyStore := ⟨[], zeros 16⟩ })]⟩ } }, (⟨by decide +kernel, _, rfl, by decide⟩), (⟨by decide +kernel, by decide +kernel, by decide +kernel, by decide +kernel⟩), (by decide +kernel), (by decide +kernel)⟩,
    ⟨7, { up .forward with glz := { state := ⟨[(7, { icvEnd := 9, icvCount := 1, icvSa := 28 })]⟩ } }, (by decide +kernel), (by decide +kernel)⟩⟩

theorem witness_ReceivedFramesAreDecrypted :
    (∃ (f : Nat) (i : Nat) (p : SecPart) (a : Sa) (v : CirVer) (s : State), ((s.frame f).sec = some p) ∧ ((s.frame f).walk.st = .waitSa) ∧ (p.asked = false) ∧ ((s.frame f).ing = .landing) ∧ (s.holder (s.frame f).port p.kind (p.key (s.frame f).body) = some (i, a)) ∧ (s.cirAt (i / 4) (s.frame f).gen = some v) ∧ (s.indexed (s.frame f).port p.kind (p.key (s.frame f).body) = true) ∧ (a.tag.visible (s.frame f).gen = true) ∧ ((s.cirState (i / 4)).disabled = false) ∧ ((s.cirState (i / 4)).suspended = false) ∧ (if p.kind = 1 then bitOf 3 (byteAt (s.frame f).body (p.off + 2)) = true else v.mode = 2)) ∧
    (∃ (f : Nat) (p : SecPart) (s : State), ((s.frame f).sec = some p) ∧ (p.sa = none) ∧ ((s.frame f).walk.st = .waitSa) ∧ (p.asked = false) ∧ ((s.frame f).ing = .landing) ∧ (s.holder (s.frame f).port p.kind (p.key (s.frame f).body) = none) ∧ (FirstToIssue s f)) ∧
    (∃ (f : Nat) (k : Nat) (l : Nat) (p : SecPart) (a : Sa) (s : State), ((s.frame f).sec = some p) ∧ (p.sa = some k) ∧ (s.saOf k = some a) ∧ (p.lane = some l) ∧ (p.plain = none) ∧ ((s.frame f).ended = true) ∧ ((s.frame f).ing = .landing) ∧ ((s.frame f).due = true) ∧ (s.flt.corrupt.get 0 (0x100 + 12 * (s.frame f).slice + l) = 0) ∧ (((s.frame f).decrypted p a (a.openKey s.storageKey)).2 = true)) ∧
    (∃ (f : Nat) (k : Nat) (l : Nat) (p : SecPart) (a : Sa) (s : State), ((s.frame f).sec = some p) ∧ (p.sa = some k) ∧ (s.saOf k = some a) ∧ (p.lane = some l) ∧ (p.plain = none) ∧ ((s.frame f).ended = true) ∧ ((s.frame f).ing = .landing) ∧ ((s.frame f).due = true) ∧ (s.flt.corrupt.get 0 (0x100 + 12 * (s.frame f).slice + l) = 0) ∧ (((s.frame f).decrypted p a (a.openKey s.storageKey)).2 = false)) ∧
    (∃ (f : Nat) (k : Nat) (l : Nat) (p : SecPart) (a : Sa) (s : State) (l' : _), ((s.frame f).sec = some p) ∧ (p.sa = some k) ∧ (s.saOf k = some a) ∧ (p.lane = some l) ∧ (p.plain = none) ∧ ((s.frame f).ended = true) ∧ ((s.frame f).ing = .landing) ∧ ((s.frame f).due = true) ∧ (s.flt.corrupt.get 0 (0x100 + 12 * (s.frame f).slice + l) = 0) ∧ ((s.activeLanes (s.frame f).slice).find? (· ≠ l) = some l') ∧ (p.attempts < 2)) :=
  ⟨⟨1, 0, { kind := 1, off := 12 }, { tag := ⟨0, 0, true, false⟩, tx := false, suite := 1, an := 0, flags := 0, rxPort := 3, kekSlot := 0, window := 0, sciSpi := zeros 6 ++ [0, 1], salt := zeros 12, ssci := 0, softPn := 9, initPn := 1, keyStore := ⟨[], zeros 16⟩ }, { tag := ⟨0, 0, true, false⟩, mode := 1, port := 3, eq := 0, rewrite := 0, txSel := 0xFF, flags := 0, ovh := 0, hdrMax := 128, data := zeros 448 }, { fr { port := 3, ing := .landing, bytes := zeros 14 ++ [8] ++ zeros 49, walk := { st := .waitSa }, sec := some { kind := 1, off := 12 } } (up .forward) with glz := { cir := ⟨[(0, [{ tag := ⟨0, 0, true, false⟩, mode := 1, port := 3, eq := 0, rewrite := 0, txSel := 0xFF, flags := 0, ovh := 0, hdrMax := 128, data := zeros 448 }])]⟩, sa := ⟨[(0, some { tag := ⟨0, 0, true, false⟩, tx := false, suite := 1, an := 0, flags := 0, rxPort := 3, kekSlot := 0, window := 0, sciSpi := zeros 6 ++ [0, 1], salt := zeros 12, ssci := 0, softPn := 9, initPn := 1, keyStore := ⟨[], zeros 16⟩ })]⟩ } }, (by decide +kernel), (by decide +kernel), (by decide +kernel), (by decide +kernel), (by decide +kernel), (by decide +kernel), (by decide +kernel), (by decide +kernel), (by decide +kernel), (by decide +kernel), (by decide +kernel)⟩,
    ⟨1, { kind := 1, off := 12 }, fr { port := 3, ing := .landing, bytes := zeros 64, walk := { st := .waitSa }, sec := some { kind := 1, off := 12 } } (up .forward), (by decide +kernel), (by decide +kernel), (by decide +kernel), (by decide +kernel), (by decide +kernel), (by decide +kernel), (⟨by decide +kernel, by decide +kernel, fun g h _ => by obtain rfl : g = 0 := (by omega); decide +kernel⟩)⟩,
    ⟨1, 0, 2, { kind := 1, off := 12, sa := some 0, asked := true, number := 1, lane := some 2 }, { tag := ⟨0, 0, true, false⟩, tx := false, suite := 1, an := 0, flags := 0, rxPort := 3, kekSlot := 0, window := 0, sciSpi := zeros 6 ++ [0, 1], salt := zeros 12, ssci := 0, softPn := 9, initPn := 1, keyStore := ⟨[], zeros 16⟩ }, { fr { port := 3, ing := .landing, bytes := sealed, walk := { st := .waitPlain }, sec := some { kind := 1, off := 12, sa := some 0, asked := true, number := 1, lane := some 2 }, ended := true, due := true, issued := true } (up .forward) with glz := { sa := ⟨[(0, some { tag := ⟨0, 0, true, false⟩, tx := false, suite := 1, an := 0, flags := 0, rxPort := 3, kekSlot := 0, window := 0, sciSpi := zeros 6 ++ [0, 1], salt := zeros 12, ssci := 0, softPn := 9, initPn := 1, keyStore := ⟨[], zeros 16⟩ })]⟩ } }, (by decide +kernel), (by decide +kernel), (by decide +kernel), (by decide +kernel), (by decide +kernel), (by decide +kernel), (by decide +kernel), (by decide +kernel), (by decide +kernel), (by decide +kernel)⟩,
    ⟨1, 0, 2, { kind := 1, off := 12, sa := some 0, asked := true, number := 1, lane := some 2 }, { tag := ⟨0, 0, true, false⟩, tx := false, suite := 1, an := 0, flags := 0, rxPort := 3, kekSlot := 0, window := 0, sciSpi := zeros 6 ++ [0, 1], salt := zeros 12, ssci := 0, softPn := 9, initPn := 1, keyStore := ⟨[], zeros 16⟩ }, { fr { port := 3, ing := .landing, bytes := zeros 60, walk := { st := .waitPlain }, sec := some { kind := 1, off := 12, sa := some 0, asked := true, number := 1, lane := some 2 }, ended := true, due := true, issued := true } (up .forward) with glz := { sa := ⟨[(0, some { tag := ⟨0, 0, true, false⟩, tx := false, suite := 1, an := 0, flags := 0, rxPort := 3, kekSlot := 0, window := 0, sciSpi := zeros 6 ++ [0, 1], salt := zeros 12, ssci := 0, softPn := 9, initPn := 1, keyStore := ⟨[], zeros 16⟩ })]⟩ } }, (by decide +kernel), (by decide +kernel), (by decide +kernel), (by decide +kernel), (by decide +kernel), (by decide +kernel), (by decide +kernel), (by decide +kernel), (by decide +kernel), (by decide +kernel)⟩,
    ⟨1, 0, 2, { kind := 1, off := 12, sa := some 0, asked := true, number := 1, lane := some 2 }, { tag := ⟨0, 0, true, false⟩, tx := false, suite := 1, an := 0, flags := 0, rxPort := 3, kekSlot := 0, window := 0, sciSpi := zeros 6 ++ [0, 1], salt := zeros 12, ssci := 0, softPn := 9, initPn := 1, keyStore := ⟨[], zeros 16⟩ }, { fr { port := 3, ing := .landing, bytes := zeros 60, walk := { st := .waitPlain }, sec := some { kind := 1, off := 12, sa := some 0, asked := true, number := 1, lane := some 2 }, ended := true, due := true, issued := true } (up .forward) with glz := { sa := ⟨[(0, some { tag := ⟨0, 0, true, false⟩, tx := false, suite := 1, an := 0, flags := 0, rxPort := 3, kekSlot := 0, window := 0, sciSpi := zeros 6 ++ [0, 1], salt := zeros 12, ssci := 0, softPn := 9, initPn := 1, keyStore := ⟨[], zeros 16⟩ })]⟩ } }, 0, (by decide +kernel), (by decide +kernel), (by decide +kernel), (by decide +kernel), (by decide +kernel), (by decide +kernel), (by decide +kernel), (by decide +kernel), (by decide +kernel), (by decide +kernel), (by decide +kernel)⟩⟩

theorem witness_ReplayUnitAcceptsEachNumberOnce :
    (∃ (f : Nat) (k : Nat) (p : SecPart) (a : Sa) (d : Bytes) (s : State), ((s.frame f).sec = some p) ∧ (p.sa = some k) ∧ (s.saOf k = some a) ∧ (p.plain = some d) ∧ (p.checked = false) ∧ ((s.frame f).ing = .landing) ∧ ((s.frame f).walk.st = .accepted) ∧ (s.replayBefore f = false)) ∧
    (∃ (a : Sa) (n : Nat), (a.replayEn = true) ∧ (a.window ≤ 1024) ∧ (a.accepts n = true)) :=
  ⟨⟨1, 0, { kind := 1, off := 12, sa := some 0, asked := true, number := 1, plain := some [], icvOk := true }, { tag := ⟨0, 0, true, false⟩, tx := false, suite := 1, an := 0, flags := 0, rxPort := 3, kekSlot := 0, window := 0, sciSpi := zeros 6 ++ [0, 1], salt := zeros 12, ssci := 0, softPn := 9, initPn := 1, keyStore := ⟨[], zeros 16⟩ }, [], { fr { port := 3, ing := .landing, bytes := zeros 64, walk := { st := .accepted }, sec := some { kind := 1, off := 12, sa := some 0, asked := true, number := 1, plain := some [], icvOk := true }, ended := true } (up .forward) with glz := { sa := ⟨[(0, some { tag := ⟨0, 0, true, false⟩, tx := false, suite := 1, an := 0, flags := 0, rxPort := 3, kekSlot := 0, window := 0, sciSpi := zeros 6 ++ [0, 1], salt := zeros 12, ssci := 0, softPn := 9, initPn := 1, keyStore := ⟨[], zeros 16⟩ })]⟩ } }, (by decide +kernel), (by decide +kernel), (by decide +kernel), (by decide +kernel), (by decide +kernel), (by decide +kernel), (by decide +kernel), (by decide +kernel)⟩,
    ⟨{ tag := ⟨0, 0, true, false⟩, tx := false, suite := 1, an := 0, flags := 2, rxPort := 3, kekSlot := 0, window := 1024, sciSpi := zeros 6 ++ [0, 1], salt := zeros 12, ssci := 0, softPn := 9, initPn := 1, keyStore := ⟨[], zeros 16⟩ }, 1, (by decide +kernel), (by decide +kernel), (by decide +kernel)⟩⟩

theorem witness_LanePairsReleaseOnlyMatchedFrames :
    (∃ (i : Slice) (u : Fin 12) (f : Nat) (rest : List Nat) (e : TxEntry) (a : Sa) (v : CirVer) (s : State), (s.mode ≠ .safe) ∧ ((s.pair i u).frames = f :: rest) ∧ (s.flt.corrupt.get 0 (pairSource i u) = 0) ∧ (f ∉ s.movedIn i) ∧ (f ∉ s.waitingIn i) ∧ ((s.frame f).outPort / 8 = i.val) ∧ (s.laneEntry f = some e) ∧ (e.resident = true) ∧ (e.copyA = some ⟨a, v⟩) ∧ (e.copyB = some ⟨a, v⟩) ∧ (s.wordBad (txInst i) (cacheObject e.idx false) = false) ∧ (s.wordBad (txInst i) (cacheObject e.idx true) = false) ∧ ((s.frame f).output.secOff ≤ v.hdrMax)) ∧
    (∃ (i : Slice) (u : Fin 12) (f : Nat) (rest : List Nat) (e : TxEntry) (a : Sa) (v : CirVer) (s : State), (s.mode ≠ .safe) ∧ ((s.pair i u).frames = f :: rest) ∧ (s.flt.corrupt.get 0 (pairSource i u) = 0) ∧ (f ∉ s.movedIn i) ∧ (f ∉ s.waitingIn i) ∧ ((s.frame f).outPort / 8 = i.val) ∧ (s.laneEntry f = some e) ∧ (e.resident = true) ∧ (e.copyA = some ⟨a, v⟩) ∧ (e.copyB = some ⟨a, v⟩) ∧ (s.wordBad (txInst i) (cacheObject e.idx false) = false) ∧ (s.wordBad (txInst i) (cacheObject e.idx true) = false) ∧ (v.hdrMax < (s.frame f).output.secOff)) ∧
    (∃ (i : Slice) (u : Fin 12) (f : Nat) (rest : List Nat) (e : TxEntry) (s : State), (s.mode ≠ .safe) ∧ ((s.pair i u).frames = f :: rest) ∧ (s.flt.corrupt.get 0 (pairSource i u) = 0) ∧ ((s.frame f).outPort / 8 = i.val) ∧ (s.laneEntry f = some e) ∧ (e.resident = true) ∧ (s.wordBad (txInst i) (cacheObject e.idx false) = false) ∧ (s.wordBad (txInst i) (cacheObject e.idx true) = false) ∧ ((s.lanes f e).1 ≠ (s.lanes f e).2)) ∧
    (∃ (i : Slice) (u : Fin 12) (f : Nat) (rest : List Nat) (e : TxEntry) (s : State), (s.mode ≠ .safe) ∧ ((s.pair i u).frames = f :: rest) ∧ (s.flt.corrupt.get 0 (pairSource i u) = 0) ∧ ((s.frame f).outPort / 8 = i.val) ∧ (s.laneEntry f = some e) ∧ (e.resident = true) ∧ (s.wordBad (txInst i) (cacheObject e.idx false) = false) ∧ (s.wordBad (txInst i) (cacheObject e.idx true) = false)) ∧
    (∃ (i : Slice) (u : Fin 12) (f : Nat) (rest : List Nat) (e : TxEntry) (s : State), (s.mode ≠ .safe) ∧ ((s.pair i u).frames = f :: rest) ∧ (s.flt.corrupt.get 0 (pairSource i u) = 0) ∧ ((s.frame f).outPort / 8 = i.val) ∧ (s.laneEntry f = some e) ∧ (e.resident = true) ∧ (s.wordBad (txInst i) (cacheObject e.idx false) = false) ∧ (s.wordBad (txInst i) (cacheObject e.idx true) = false) ∧ (s.frame f ≠ {})) ∧
    (∃ (i : Slice) (u : Fin 12) (f : Nat) (rest : List Nat) (e : TxEntry) (s : State), (s.mode ≠ .safe) ∧ ((s.pair i u).frames = f :: rest) ∧ (s.flt.corrupt.get 0 (pairSource i u) = 0) ∧ ((s.frame f).outPort / 8 = i.val) ∧ (s.laneEntry f = some e) ∧ (e.resident = true) ∧ (s.wordBad (txInst i) (cacheObject e.idx false) = false) ∧ (s.wordBad (txInst i) (cacheObject e.idx true) = false)) ∧
    (∃ (i : Slice) (u : Fin 12) (f : Nat) (rest : List Nat) (e : TxEntry) (s : State), (s.mode ≠ .safe) ∧ ((s.pair i u).frames = f :: rest) ∧ (s.flt.corrupt.get 0 (pairSource i u) = 0) ∧ ((s.frame f).outPort / 8 = i.val) ∧ (s.laneEntry f = some e) ∧ (e.resident = true) ∧ (s.wordBad (txInst i) (cacheObject e.idx false) = false) ∧ (s.wordBad (txInst i) (cacheObject e.idx true) = false) ∧ ((s.frame f).glzAttempts = 0)) ∧
    (∃ (i : Slice) (u : Fin 12) (f : Nat) (rest : List Nat) (e : TxEntry) (s : State), (s.mode ≠ .safe) ∧ ((s.pair i u).frames = f :: rest) ∧ (s.flt.corrupt.get 0 (pairSource i u) = 0) ∧ ((s.frame f).outPort / 8 = i.val) ∧ (s.laneEntry f = some e) ∧ (e.resident = true) ∧ (s.wordBad (txInst i) (cacheObject e.idx false) = false) ∧ (s.wordBad (txInst i) (cacheObject e.idx true) = false) ∧ ((s.frame f).glzAttempts = 1)) ∧
    (∃ (i : Slice) (u : Fin 12) (f : Nat) (rest : List Nat) (e : TxEntry) (s : State), (s.mode ≠ .safe) ∧ ((s.pair i u).frames = f :: rest) ∧ (s.flt.corrupt.get 0 (pairSource i u) = 0) ∧ ((s.frame f).outPort / 8 = i.val) ∧ (s.laneEntry f = some e) ∧ (e.resident = true) ∧ (s.wordBad (txInst i) (cacheObject e.idx false) = false) ∧ (s.wordBad (txInst i) (cacheObject e.idx true) = false) ∧ (2 ≤ (s.frame f).glzAttempts) ∧ (s.frame f ≠ {})) ∧
    (∃ (f : Nat) (sl : Nat) (eq : Nat) (c : CacheKey) (a : Sa) (s : State), (s.frameKey f = some c) ∧ (s.saOf c.sa = some a) ∧ (a.bound = some (sl, eq))) :=
  ⟨⟨3, 4, 1, [], { sa := 0, circuit := 0, born := 0, pins := 1, resident := true, copyA := some ⟨{ tag := ⟨0, 0, true, false⟩, tx := true, suite := 1, an := 0, flags := 0, rxPort := 3, kekSlot := 0, window := 0, sciSpi := zeros 6 ++ [0, 1], salt := zeros 12, ssci := 0, softPn := 9, initPn := 1, keyStore := ⟨[], zeros 16⟩, bound := some (3, 0) }, { tag := ⟨0, 0, true, false⟩, mode := 1, port := 24, eq := 0, rewrite := 0, txSel := 0, flags := 0, ovh := 0, hdrMax := 128, data := zeros 448 }⟩, copyB := some ⟨{ tag := ⟨0, 0, true, false⟩, tx := true, suite := 1, an := 0, flags := 0, rxPort := 3, kekSlot := 0, window := 0, sciSpi := zeros 6 ++ [0, 1], salt := zeros 12, ssci := 0, softPn := 9, initPn := 1, keyStore := ⟨[], zeros 16⟩, bound := some (3, 0) }, { tag := ⟨0, 0, true, false⟩, mode := 1, port := 24, eq := 0, rewrite := 0, txSel := 0, flags := 0, ovh := 0, hdrMax := 128, data := zeros 448 }⟩ }, { tag := ⟨0, 0, true, false⟩, tx := true, suite := 1, an := 0, flags := 0, rxPort := 3, kekSlot := 0, window := 0, sciSpi := zeros 6 ++ [0, 1], salt := zeros 12, ssci := 0, softPn := 9, initPn := 1, keyStore := ⟨[], zeros 16⟩, bound := some (3, 0) }, { tag := ⟨0, 0, true, false⟩, mode := 1, port := 24, eq := 0, rewrite := 0, txSel := 0, flags := 0, ovh := 0, hdrMax := 128, data := zeros 448 }, { fr { eg := .glaze, outPort := 24, circuit := some 0, txSa := 0, output := { secOff := 128 } } (up .forward) with glz := { cir := ⟨[(0, [{ tag := ⟨0, 0, true, false⟩, mode := 1, port := 24, eq := 0, rewrite := 0, txSel := 0, flags := 0, ovh := 0, hdrMax := 128, data := zeros 448 }])]⟩, sa := ⟨[(0, some { tag := ⟨0, 0, true, false⟩, tx := true, suite := 1, an := 0, flags := 0, rxPort := 3, kekSlot := 0, window := 0, sciSpi := zeros 6 ++ [0, 1], salt := zeros 12, ssci := 0, softPn := 9, initPn := 1, keyStore := ⟨[], zeros 16⟩, bound := some (3, 0) })]⟩, cache := ⟨[(3, [{ sa := 0, circuit := 0, born := 0, pins := 1, resident := true, copyA := some ⟨{ tag := ⟨0, 0, true, false⟩, tx := true, suite := 1, an := 0, flags := 0, rxPort := 3, kekSlot := 0, window := 0, sciSpi := zeros 6 ++ [0, 1], salt := zeros 12, ssci := 0, softPn := 9, initPn := 1, keyStore := ⟨[], zeros 16⟩, bound := some (3, 0) }, { tag := ⟨0, 0, true, false⟩, mode := 1, port := 24, eq := 0, rewrite := 0, txSel := 0, flags := 0, ovh := 0, hdrMax := 128, data := zeros 448 }⟩, copyB := some ⟨{ tag := ⟨0, 0, true, false⟩, tx := true, suite := 1, an := 0, flags := 0, rxPort := 3, kekSlot := 0, window := 0, sciSpi := zeros 6 ++ [0, 1], salt := zeros 12, ssci := 0, softPn := 9, initPn := 1, keyStore := ⟨[], zeros 16⟩, bound := some (3, 0) }, { tag := ⟨0, 0, true, false⟩, mode := 1, port := 24, eq := 0, rewrite := 0, txSel := 0, flags := 0, ovh := 0, hdrMax := 128, data := zeros 448 }⟩ }])]⟩, pairs := ⟨[(40, { frames := [1] })]⟩ } }, (by decide +kernel), (by decide +kernel), (by decide +kernel), (by decide +kernel), (by decide +kernel), (by decide +kernel), (by decide +kernel), (by decide +kernel), (by decide +kernel), (by decide +kernel), (by decide +kernel), (by decide +kernel), (by decide +kernel)⟩,
    ⟨3, 4, 1, [], { sa := 0, circuit := 0, born := 0, pins := 1, resident := true, copyA := some ⟨{ tag := ⟨0, 0, true, false⟩, tx := true, suite := 1, an := 0, flags := 0, rxPort := 3, kekSlot := 0, window := 0, sciSpi := zeros 6 ++ [0, 1], salt := zeros 12, ssci := 0, softPn := 9, initPn := 1, keyStore := ⟨[], zeros 16⟩, bound := some (3, 0) }, { tag := ⟨0, 0, true, false⟩, mode := 1, port := 24, eq := 0, rewrite := 0, txSel := 0, flags := 0, ovh := 0, hdrMax := 128, data := zeros 448 }⟩, copyB := some ⟨{ tag := ⟨0, 0, true, false⟩, tx := true, suite := 1, an := 0, flags := 0, rxPort := 3, kekSlot := 0, window := 0, sciSpi := zeros 6 ++ [0, 1], salt := zeros 12, ssci := 0, softPn := 9, initPn := 1, keyStore := ⟨[], zeros 16⟩, bound := some (3, 0) }, { tag := ⟨0, 0, true, false⟩, mode := 1, port := 24, eq := 0, rewrite := 0, txSel := 0, flags := 0, ovh := 0, hdrMax := 128, data := zeros 448 }⟩ }, { tag := ⟨0, 0, true, false⟩, tx := true, suite := 1, an := 0, flags := 0, rxPort := 3, kekSlot := 0, window := 0, sciSpi := zeros 6 ++ [0, 1], salt := zeros 12, ssci := 0, softPn := 9, initPn := 1, keyStore := ⟨[], zeros 16⟩, bound := some (3, 0) }, { tag := ⟨0, 0, true, false⟩, mode := 1, port := 24, eq := 0, rewrite := 0, txSel := 0, flags := 0, ovh := 0, hdrMax := 128, data := zeros 448 }, { fr { eg := .glaze, outPort := 24, circuit := some 0, txSa := 0, output := { secOff := 129 } } (up .forward) with glz := { cir := ⟨[(0, [{ tag := ⟨0, 0, true, false⟩, mode := 1, port := 24, eq := 0, rewrite := 0, txSel := 0, flags := 0, ovh := 0, hdrMax := 128, data := zeros 448 }])]⟩, sa := ⟨[(0, some { tag := ⟨0, 0, true, false⟩, tx := true, suite := 1, an := 0, flags := 0, rxPort := 3, kekSlot := 0, window := 0, sciSpi := zeros 6 ++ [0, 1], salt := zeros 12, ssci := 0, softPn := 9, initPn := 1, keyStore := ⟨[], zeros 16⟩, bound := some (3, 0) })]⟩, cache := ⟨[(3, [{ sa := 0, circuit := 0, born := 0, pins := 1, resident := true, copyA := some ⟨{ tag := ⟨0, 0, true, false⟩, tx := true, suite := 1, an := 0, flags := 0, rxPort := 3, kekSlot := 0, window := 0, sciSpi := zeros 6 ++ [0, 1], salt := zeros 12, ssci := 0, softPn := 9, initPn := 1, keyStore := ⟨[], zeros 16⟩, bound := some (3, 0) }, { tag := ⟨0, 0, true, false⟩, mode := 1, port := 24, eq := 0, rewrite := 0, txSel := 0, flags := 0, ovh := 0, hdrMax := 128, data := zeros 448 }⟩, copyB := some ⟨{ tag := ⟨0, 0, true, false⟩, tx := true, suite := 1, an := 0, flags := 0, rxPort := 3, kekSlot := 0, window := 0, sciSpi := zeros 6 ++ [0, 1], salt := zeros 12, ssci := 0, softPn := 9, initPn := 1, keyStore := ⟨[], zeros 16⟩, bound := some (3, 0) }, { tag := ⟨0, 0, true, false⟩, mode := 1, port := 24, eq := 0, rewrite := 0, txSel := 0, flags := 0, ovh := 0, hdrMax := 128, data := zeros 448 }⟩ }])]⟩, pairs := ⟨[(40, { frames := [1] })]⟩ } }, (by decide +kernel), (by decide +kernel), (by decide +kernel), (by decide +kernel), (by decide +kernel), (by decide +kernel), (by decide +kernel), (by decide +kernel), (by decide +kernel), (by decide +kernel), (by decide +kernel), (by decide +kernel), (by decide +kernel)⟩,
    ⟨3, 4, 1, [], { sa := 0, circuit := 0, born := 0, pins := 1, resident := true, copyA := some ⟨{ tag := ⟨0, 0, true, false⟩, tx := true, suite := 1, an := 0, flags := 0, rxPort := 3, kekSlot := 0, window := 0, sciSpi := zeros 6 ++ [0, 1], salt := zeros 12, ssci := 0, softPn := 9, initPn := 1, keyStore := ⟨[], zeros 16⟩, bound := some (3, 0) }, { tag := ⟨0, 0, true, false⟩, mode := 1, port := 24, eq := 0, rewrite := 0, txSel := 0, flags := 0, ovh := 0, hdrMax := 128, data := zeros 448 }⟩, copyB := some ⟨{ tag := ⟨0, 0, true, false⟩, tx := true, suite := 1, an := 0, flags := 0, rxPort := 3, kekSlot := 0, window := 0, sciSpi := zeros 6 ++ [0, 1], salt := zeros 11 ++ [1], ssci := 0, softPn := 8, initPn := 1, keyStore := ⟨[], zeros 15 ++ [1]⟩, bound := some (3, 0) }, { tag := ⟨0, 0, true, false⟩, mode := 1, port := 24, eq := 0, rewrite := 0, txSel := 0, flags := 0, ovh := 0, hdrMax := 128, data := zeros 448 }⟩ }, { fr { eg := .glaze, outPort := 24, circuit := some 0, txSa := 0, output := { bytes := zeros 64, kind := 1, encOff := 28, encLen := 32, secOff := 12 }, number := 1 } (up .forward) with glz := { cir := ⟨[(0, [{ tag := ⟨0, 0, true, false⟩, mode := 1, port := 24, eq := 0, rewrite := 0, txSel := 0, flags := 0, ovh := 0, hdrMax := 128, data := zeros 448 }])]⟩, sa := ⟨[(0, some { tag := ⟨0, 0, true, false⟩, tx := true, suite := 1, an := 0, flags := 0, rxPort := 3, kekSlot := 0, window := 0, sciSpi := zeros 6 ++ [0, 1], salt := zeros 12, ssci := 0, softPn := 9, initPn := 1, keyStore := ⟨[], zeros 16⟩, bound := some (3, 0) })]⟩, cache := ⟨[(3, [{ sa := 0, circuit := 0, born := 0, pins := 1, resident := true, copyA := some ⟨{ tag := ⟨0, 0, true, false⟩, tx := true, suite := 1, an := 0, flags := 0, rxPort := 3, kekSlot := 0, window := 0, sciSpi := zeros 6 ++ [0, 1], salt := zeros 12, ssci := 0, softPn := 9, initPn := 1, keyStore := ⟨[], zeros 16⟩, bound := some (3, 0) }, { tag := ⟨0, 0, true, false⟩, mode := 1, port := 24, eq := 0, rewrite := 0, txSel := 0, flags := 0, ovh := 0, hdrMax := 128, data := zeros 448 }⟩, copyB := some ⟨{ tag := ⟨0, 0, true, false⟩, tx := true, suite := 1, an := 0, flags := 0, rxPort := 3, kekSlot := 0, window := 0, sciSpi := zeros 6 ++ [0, 1], salt := zeros 11 ++ [1], ssci := 0, softPn := 8, initPn := 1, keyStore := ⟨[], zeros 15 ++ [1]⟩, bound := some (3, 0) }, { tag := ⟨0, 0, true, false⟩, mode := 1, port := 24, eq := 0, rewrite := 0, txSel := 0, flags := 0, ovh := 0, hdrMax := 128, data := zeros 448 }⟩ }])]⟩, pairs := ⟨[(40, { frames := [1] })]⟩ } }, (by decide +kernel), (by decide +kernel), (by decide +kernel), (by decide +kernel), (by decide +kernel), (by decide +kernel), (by decide +kernel), (by decide +kernel), (by decide +kernel)⟩,
    ⟨3, 4, 1, [], { sa := 0, circuit := 0, born := 0, pins := 1, resident := true, copyA := some ⟨{ tag := ⟨0, 0, true, false⟩, tx := true, suite := 1, an := 0, flags := 0, rxPort := 3, kekSlot := 0, window := 0, sciSpi := zeros 6 ++ [0, 1], salt := zeros 12, ssci := 0, softPn := 9, initPn := 1, keyStore := ⟨[], zeros 16⟩, bound := some (3, 0) }, { tag := ⟨0, 0, true, false⟩, mode := 1, port := 24, eq := 0, rewrite := 0, txSel := 0, flags := 0, ovh := 0, hdrMax := 128, data := zeros 448 }⟩, copyB := some ⟨{ tag := ⟨0, 0, true, false⟩, tx := true, suite := 1, an := 0, flags := 0, rxPort := 3, kekSlot := 0, window := 0, sciSpi := zeros 6 ++ [0, 1], salt := zeros 12, ssci := 0, softPn := 9, initPn := 1, keyStore := ⟨[], zeros 16⟩, bound := some (3, 0) }, { tag := ⟨0, 0, true, false⟩, mode := 1, port := 24, eq := 0, rewrite := 0, txSel := 0, flags := 0, ovh := 0, hdrMax := 128, data := zeros 448 }⟩ }, { fr { eg := .glaze, outPort := 24, circuit := some 0, txSa := 0, output := { secOff := 12 } } (up .forward) with glz := { cir := ⟨[(0, [{ tag := ⟨0, 0, true, false⟩, mode := 1, port := 24, eq := 0, rewrite := 0, txSel := 0, flags := 0, ovh := 0, hdrMax := 128, data := zeros 448 }])]⟩, sa := ⟨[(0, some { tag := ⟨0, 0, true, false⟩, tx := true, suite := 1, an := 0, flags := 0, rxPort := 3, kekSlot := 0, window := 0, sciSpi := zeros 6 ++ [0, 1], salt := zeros 12, ssci := 0, softPn := 9, initPn := 1, keyStore := ⟨[], zeros 16⟩, bound := some (3, 0) })]⟩, cache := ⟨[(3, [{ sa := 0, circuit := 0, born := 0, pins := 1, resident := true, copyA := some ⟨{ tag := ⟨0, 0, true, false⟩, tx := true, suite := 1, an := 0, flags := 0, rxPort := 3, kekSlot := 0, window := 0, sciSpi := zeros 6 ++ [0, 1], salt := zeros 12, ssci := 0, softPn := 9, initPn := 1, keyStore := ⟨[], zeros 16⟩, bound := some (3, 0) }, { tag := ⟨0, 0, true, false⟩, mode := 1, port := 24, eq := 0, rewrite := 0, txSel := 0, flags := 0, ovh := 0, hdrMax := 128, data := zeros 448 }⟩, copyB := some ⟨{ tag := ⟨0, 0, true, false⟩, tx := true, suite := 1, an := 0, flags := 0, rxPort := 3, kekSlot := 0, window := 0, sciSpi := zeros 6 ++ [0, 1], salt := zeros 12, ssci := 0, softPn := 9, initPn := 1, keyStore := ⟨[], zeros 16⟩, bound := some (3, 0) }, { tag := ⟨0, 0, true, false⟩, mode := 1, port := 24, eq := 0, rewrite := 0, txSel := 0, flags := 0, ovh := 0, hdrMax := 128, data := zeros 448 }⟩ }])]⟩, pairs := ⟨[(40, { frames := [1] })]⟩ } }, (by decide +kernel), (by decide +kernel), (by decide +kernel), (by decide +kernel), (by decide +kernel), (by decide +kernel), (by decide +kernel), (by decide +kernel)⟩,
    ⟨3, 4, 1, [], { sa := 0, circuit := 0, born := 0, pins := 1, resident := true, copyA := some ⟨{ tag := ⟨0, 0, true, false⟩, tx := true, suite := 1, an := 0, flags := 0, rxPort := 3, kekSlot := 0, window := 0, sciSpi := zeros 6 ++ [0, 1], salt := zeros 12, ssci := 0, softPn := 9, initPn := 1, keyStore := ⟨[], zeros 16⟩, bound := some (3, 0) }, { tag := ⟨0, 0, true, false⟩, mode := 1, port := 24, eq := 0, rewrite := 0, txSel := 0, flags := 0, ovh := 0, hdrMax := 128, data := zeros 448 }⟩, copyB := some ⟨{ tag := ⟨0, 0, true, false⟩, tx := true, suite := 1, an := 0, flags := 0, rxPort := 3, kekSlot := 0, window := 0, sciSpi := zeros 6 ++ [0, 1], salt := zeros 12, ssci := 0, softPn := 9, initPn := 1, keyStore := ⟨[], zeros 16⟩, bound := some (3, 0) }, { tag := ⟨0, 0, true, false⟩, mode := 1, port := 24, eq := 0, rewrite := 0, txSel := 0, flags := 0, ovh := 0, hdrMax := 128, data := zeros 448 }⟩ }, { fr { eg := .glaze, outPort := 24, circuit := some 0, txSa := 0, output := { secOff := 12 } } (up .forward) with glz := { cir := ⟨[(0, [{ tag := ⟨0, 0, true, false⟩, mode := 1, port := 24, eq := 0, rewrite := 0, txSel := 0, flags := 0, ovh := 0, hdrMax := 128, data := zeros 448 }])]⟩, sa := ⟨[(0, some { tag := ⟨0, 0, true, false⟩, tx := true, suite := 1, an := 0, flags := 0, rxPort := 3, kekSlot := 0, window := 0, sciSpi := zeros 6 ++ [0, 1], salt := zeros 12, ssci := 0, softPn := 9, initPn := 1, keyStore := ⟨[], zeros 16⟩, bound := some (3, 0) })]⟩, cache := ⟨[(3, [{ sa := 0, circuit := 0, born := 0, pins := 1, resident := true, copyA := some ⟨{ tag := ⟨0, 0, true, false⟩, tx := true, suite := 1, an := 0, flags := 0, rxPort := 3, kekSlot := 0, window := 0, sciSpi := zeros 6 ++ [0, 1], salt := zeros 12, ssci := 0, softPn := 9, initPn := 1, keyStore := ⟨[], zeros 16⟩, bound := some (3, 0) }, { tag := ⟨0, 0, true, false⟩, mode := 1, port := 24, eq := 0, rewrite := 0, txSel := 0, flags := 0, ovh := 0, hdrMax := 128, data := zeros 448 }⟩, copyB := some ⟨{ tag := ⟨0, 0, true, false⟩, tx := true, suite := 1, an := 0, flags := 0, rxPort := 3, kekSlot := 0, window := 0, sciSpi := zeros 6 ++ [0, 1], salt := zeros 12, ssci := 0, softPn := 9, initPn := 1, keyStore := ⟨[], zeros 16⟩, bound := some (3, 0) }, { tag := ⟨0, 0, true, false⟩, mode := 1, port := 24, eq := 0, rewrite := 0, txSel := 0, flags := 0, ovh := 0, hdrMax := 128, data := zeros 448 }⟩ }])]⟩, pairs := ⟨[(40, { frames := [1] })]⟩ } }, (by decide +kernel), (by decide +kernel), (by decide +kernel), (by decide +kernel), (by decide +kernel), (by decide +kernel), (by decide +kernel), (by decide +kernel), (by decide +kernel)⟩,
    ⟨3, 4, 1, [], { sa := 0, circuit := 0, born := 0, pins := 1, resident := true, copyA := some ⟨{ tag := ⟨0, 0, true, false⟩, tx := true, suite := 1, an := 0, flags := 0, rxPort := 3, kekSlot := 0, window := 0, sciSpi := zeros 6 ++ [0, 1], salt := zeros 12, ssci := 0, softPn := 9, initPn := 1, keyStore := ⟨[], zeros 16⟩, bound := some (3, 0) }, { tag := ⟨0, 0, true, false⟩, mode := 1, port := 24, eq := 0, rewrite := 0, txSel := 0, flags := 0, ovh := 0, hdrMax := 128, data := zeros 448 }⟩, copyB := some ⟨{ tag := ⟨0, 0, true, false⟩, tx := true, suite := 1, an := 0, flags := 0, rxPort := 3, kekSlot := 0, window := 0, sciSpi := zeros 6 ++ [0, 1], salt := zeros 12, ssci := 0, softPn := 9, initPn := 1, keyStore := ⟨[], zeros 16⟩, bound := some (3, 0) }, { tag := ⟨0, 0, true, false⟩, mode := 1, port := 24, eq := 0, rewrite := 0, txSel := 0, flags := 0, ovh := 0, hdrMax := 128, data := zeros 448 }⟩ }, { fr { eg := .glaze, outPort := 24, circuit := some 0, txSa := 0, output := { secOff := 12 } } (up .forward) with glz := { cir := ⟨[(0, [{ tag := ⟨0, 0, true, false⟩, mode := 1, port := 24, eq := 0, rewrite := 0, txSel := 0, flags := 0, ovh := 0, hdrMax := 128, data := zeros 448 }])]⟩, sa := ⟨[(0, some { tag := ⟨0, 0, true, false⟩, tx := true, suite := 1, an := 0, flags := 0, rxPort := 3, kekSlot := 0, window := 0, sciSpi := zeros 6 ++ [0, 1], salt := zeros 12, ssci := 0, softPn := 9, initPn := 1, keyStore := ⟨[], zeros 16⟩, bound := some (3, 0) })]⟩, cache := ⟨[(3, [{ sa := 0, circuit := 0, born := 0, pins := 1, resident := true, copyA := some ⟨{ tag := ⟨0, 0, true, false⟩, tx := true, suite := 1, an := 0, flags := 0, rxPort := 3, kekSlot := 0, window := 0, sciSpi := zeros 6 ++ [0, 1], salt := zeros 12, ssci := 0, softPn := 9, initPn := 1, keyStore := ⟨[], zeros 16⟩, bound := some (3, 0) }, { tag := ⟨0, 0, true, false⟩, mode := 1, port := 24, eq := 0, rewrite := 0, txSel := 0, flags := 0, ovh := 0, hdrMax := 128, data := zeros 448 }⟩, copyB := some ⟨{ tag := ⟨0, 0, true, false⟩, tx := true, suite := 1, an := 0, flags := 0, rxPort := 3, kekSlot := 0, window := 0, sciSpi := zeros 6 ++ [0, 1], salt := zeros 12, ssci := 0, softPn := 9, initPn := 1, keyStore := ⟨[], zeros 16⟩, bound := some (3, 0) }, { tag := ⟨0, 0, true, false⟩, mode := 1, port := 24, eq := 0, rewrite := 0, txSel := 0, flags := 0, ovh := 0, hdrMax := 128, data := zeros 448 }⟩ }])]⟩, pairs := ⟨[(40, { frames := [1] })]⟩ } }, (by decide +kernel), (by decide +kernel), (by decide +kernel), (by decide +kernel), (by decide +kernel), (by decide +kernel), (by decide +kernel), (by decide +kernel)⟩,
    ⟨3, 4, 1, [], { sa := 0, circuit := 0, born := 0, pins := 1, resident := true, copyA := some ⟨{ tag := ⟨0, 0, true, false⟩, tx := true, suite := 1, an := 0, flags := 0, rxPort := 3, kekSlot := 0, window := 0, sciSpi := zeros 6 ++ [0, 1], salt := zeros 12, ssci := 0, softPn := 9, initPn := 1, keyStore := ⟨[], zeros 16⟩, bound := some (3, 0) }, { tag := ⟨0, 0, true, false⟩, mode := 1, port := 24, eq := 0, rewrite := 0, txSel := 0, flags := 0, ovh := 0, hdrMax := 128, data := zeros 448 }⟩, copyB := some ⟨{ tag := ⟨0, 0, true, false⟩, tx := true, suite := 1, an := 0, flags := 0, rxPort := 3, kekSlot := 0, window := 0, sciSpi := zeros 6 ++ [0, 1], salt := zeros 12, ssci := 0, softPn := 9, initPn := 1, keyStore := ⟨[], zeros 16⟩, bound := some (3, 0) }, { tag := ⟨0, 0, true, false⟩, mode := 1, port := 24, eq := 0, rewrite := 0, txSel := 0, flags := 0, ovh := 0, hdrMax := 128, data := zeros 448 }⟩ }, { fr { eg := .glaze, outPort := 24, circuit := some 0, txSa := 0, output := { secOff := 12 } } (up .forward) with glz := { cir := ⟨[(0, [{ tag := ⟨0, 0, true, false⟩, mode := 1, port := 24, eq := 0, rewrite := 0, txSel := 0, flags := 0, ovh := 0, hdrMax := 128, data := zeros 448 }])]⟩, sa := ⟨[(0, some { tag := ⟨0, 0, true, false⟩, tx := true, suite := 1, an := 0, flags := 0, rxPort := 3, kekSlot := 0, window := 0, sciSpi := zeros 6 ++ [0, 1], salt := zeros 12, ssci := 0, softPn := 9, initPn := 1, keyStore := ⟨[], zeros 16⟩, bound := some (3, 0) })]⟩, cache := ⟨[(3, [{ sa := 0, circuit := 0, born := 0, pins := 1, resident := true, copyA := some ⟨{ tag := ⟨0, 0, true, false⟩, tx := true, suite := 1, an := 0, flags := 0, rxPort := 3, kekSlot := 0, window := 0, sciSpi := zeros 6 ++ [0, 1], salt := zeros 12, ssci := 0, softPn := 9, initPn := 1, keyStore := ⟨[], zeros 16⟩, bound := some (3, 0) }, { tag := ⟨0, 0, true, false⟩, mode := 1, port := 24, eq := 0, rewrite := 0, txSel := 0, flags := 0, ovh := 0, hdrMax := 128, data := zeros 448 }⟩, copyB := some ⟨{ tag := ⟨0, 0, true, false⟩, tx := true, suite := 1, an := 0, flags := 0, rxPort := 3, kekSlot := 0, window := 0, sciSpi := zeros 6 ++ [0, 1], salt := zeros 12, ssci := 0, softPn := 9, initPn := 1, keyStore := ⟨[], zeros 16⟩, bound := some (3, 0) }, { tag := ⟨0, 0, true, false⟩, mode := 1, port := 24, eq := 0, rewrite := 0, txSel := 0, flags := 0, ovh := 0, hdrMax := 128, data := zeros 448 }⟩ }])]⟩, pairs := ⟨[(40, { frames := [1] })]⟩ } }, (by decide +kernel), (by decide +kernel), (by decide +kernel), (by decide +kernel), (by decide +kernel), (by decide +kernel), (by decide +kernel), (by decide +kernel), (by decide +kernel)⟩,
    ⟨3, 4, 1, [], { sa := 0, circuit := 0, born := 0, pins := 1, resident := true, copyA := some ⟨{ tag := ⟨0, 0, true, false⟩, tx := true, suite := 1, an := 0, flags := 0, rxPort := 3, kekSlot := 0, window := 0, sciSpi := zeros 6 ++ [0, 1], salt := zeros 12, ssci := 0, softPn := 9, initPn := 1, keyStore := ⟨[], zeros 16⟩, bound := some (3, 0) }, { tag := ⟨0, 0, true, false⟩, mode := 1, port := 24, eq := 0, rewrite := 0, txSel := 0, flags := 0, ovh := 0, hdrMax := 128, data := zeros 448 }⟩, copyB := some ⟨{ tag := ⟨0, 0, true, false⟩, tx := true, suite := 1, an := 0, flags := 0, rxPort := 3, kekSlot := 0, window := 0, sciSpi := zeros 6 ++ [0, 1], salt := zeros 12, ssci := 0, softPn := 9, initPn := 1, keyStore := ⟨[], zeros 16⟩, bound := some (3, 0) }, { tag := ⟨0, 0, true, false⟩, mode := 1, port := 24, eq := 0, rewrite := 0, txSel := 0, flags := 0, ovh := 0, hdrMax := 128, data := zeros 448 }⟩ }, { fr { eg := .glaze, outPort := 24, circuit := some 0, txSa := 0, output := { secOff := 12 }, glzAttempts := 1 } (up .forward) with glz := { cir := ⟨[(0, [{ tag := ⟨0, 0, true, false⟩, mode := 1, port := 24, eq := 0, rewrite := 0, txSel := 0, flags := 0, ovh := 0, hdrMax := 128, data := zeros 448 }])]⟩, sa := ⟨[(0, some { tag := ⟨0, 0, true, false⟩, tx := true, suite := 1, an := 0, flags := 0, rxPort := 3, kekSlot := 0, window := 0, sciSpi := zeros 6 ++ [0, 1], salt := zeros 12, ssci := 0, softPn := 9, initPn := 1, keyStore := ⟨[], zeros 16⟩, bound := some (3, 0) })]⟩, cache := ⟨[(3, [{ sa := 0, circuit := 0, born := 0, pins := 1, resident := true, copyA := some ⟨{ tag := ⟨0, 0, true, false⟩, tx := true, suite := 1, an := 0, flags := 0, rxPort := 3, kekSlot := 0, window := 0, sciSpi := zeros 6 ++ [0, 1], salt := zeros 12, ssci := 0, softPn := 9, initPn := 1, keyStore := ⟨[], zeros 16⟩, bound := some (3, 0) }, { tag := ⟨0, 0, true, false⟩, mode := 1, port := 24, eq := 0, rewrite := 0, txSel := 0, flags := 0, ovh := 0, hdrMax := 128, data := zeros 448 }⟩, copyB := some ⟨{ tag := ⟨0, 0, true, false⟩, tx := true, suite := 1, an := 0, flags := 0, rxPort := 3, kekSlot := 0, window := 0, sciSpi := zeros 6 ++ [0, 1], salt := zeros 12, ssci := 0, softPn := 9, initPn := 1, keyStore := ⟨[], zeros 16⟩, bound := some (3, 0) }, { tag := ⟨0, 0, true, false⟩, mode := 1, port := 24, eq := 0, rewrite := 0, txSel := 0, flags := 0, ovh := 0, hdrMax := 128, data := zeros 448 }⟩ }])]⟩, pairs := ⟨[(40, { frames := [1] })]⟩ } }, (by decide +kernel), (by decide +kernel), (by decide +kernel), (by decide +kernel), (by decide +kernel), (by decide +kernel), (by decide +kernel), (by decide +kernel), (by decide +kernel)⟩,
    ⟨3, 4, 1, [], { sa := 0, circuit := 0, born := 0, pins := 1, resident := true, copyA := some ⟨{ tag := ⟨0, 0, true, false⟩, tx := true, suite := 1, an := 0, flags := 0, rxPort := 3, kekSlot := 0, window := 0, sciSpi := zeros 6 ++ [0, 1], salt := zeros 12, ssci := 0, softPn := 9, initPn := 1, keyStore := ⟨[], zeros 16⟩, bound := some (3, 0) }, { tag := ⟨0, 0, true, false⟩, mode := 1, port := 24, eq := 0, rewrite := 0, txSel := 0, flags := 0, ovh := 0, hdrMax := 128, data := zeros 448 }⟩, copyB := some ⟨{ tag := ⟨0, 0, true, false⟩, tx := true, suite := 1, an := 0, flags := 0, rxPort := 3, kekSlot := 0, window := 0, sciSpi := zeros 6 ++ [0, 1], salt := zeros 12, ssci := 0, softPn := 9, initPn := 1, keyStore := ⟨[], zeros 16⟩, bound := some (3, 0) }, { tag := ⟨0, 0, true, false⟩, mode := 1, port := 24, eq := 0, rewrite := 0, txSel := 0, flags := 0, ovh := 0, hdrMax := 128, data := zeros 448 }⟩ }, { fr { eg := .glaze, outPort := 24, circuit := some 0, txSa := 0, output := { secOff := 12 }, glzAttempts := 2 } (up .forward) with glz := { cir := ⟨[(0, [{ tag := ⟨0, 0, true, false⟩, mode := 1, port := 24, eq := 0, rewrite := 0, txSel := 0, flags := 0, ovh := 0, hdrMax := 128, data := zeros 448 }])]⟩, sa := ⟨[(0, some { tag := ⟨0, 0, true, false⟩, tx := true, suite := 1, an := 0, flags := 0, rxPort := 3, kekSlot := 0, window := 0, sciSpi := zeros 6 ++ [0, 1], salt := zeros 12, ssci := 0, softPn := 9, initPn := 1, keyStore := ⟨[], zeros 16⟩, bound := some (3, 0) })]⟩, cache := ⟨[(3, [{ sa := 0, circuit := 0, born := 0, pins := 1, resident := true, copyA := some ⟨{ tag := ⟨0, 0, true, false⟩, tx := true, suite := 1, an := 0, flags := 0, rxPort := 3, kekSlot := 0, window := 0, sciSpi := zeros 6 ++ [0, 1], salt := zeros 12, ssci := 0, softPn := 9, initPn := 1, keyStore := ⟨[], zeros 16⟩, bound := some (3, 0) }, { tag := ⟨0, 0, true, false⟩, mode := 1, port := 24, eq := 0, rewrite := 0, txSel := 0, flags := 0, ovh := 0, hdrMax := 128, data := zeros 448 }⟩, copyB := some ⟨{ tag := ⟨0, 0, true, false⟩, tx := true, suite := 1, an := 0, flags := 0, rxPort := 3, kekSlot := 0, window := 0, sciSpi := zeros 6 ++ [0, 1], salt := zeros 12, ssci := 0, softPn := 9, initPn := 1, keyStore := ⟨[], zeros 16⟩, bound := some (3, 0) }, { tag := ⟨0, 0, true, false⟩, mode := 1, port := 24, eq := 0, rewrite := 0, txSel := 0, flags := 0, ovh := 0, hdrMax := 128, data := zeros 448 }⟩ }])]⟩, pairs := ⟨[(40, { frames := [1] })]⟩ } }, (by decide +kernel), (by decide +kernel), (by decide +kernel), (by decide +kernel), (by decide +kernel), (by decide +kernel), (by decide +kernel), (by decide +kernel), (by decide +kernel), (by decide +kernel)⟩,
    ⟨1, 3, 0, ⟨0, 0, 0⟩, { tag := ⟨0, 0, true, false⟩, tx := true, suite := 1, an := 0, flags := 0, rxPort := 3, kekSlot := 0, window := 0, sciSpi := zeros 6 ++ [0, 1], salt := zeros 12, ssci := 0, softPn := 9, initPn := 1, keyStore := ⟨[], zeros 16⟩, bound := some (3, 0) }, { fr { circuit := some 0, outPort := 24 } (up .forward) with glz := { cir := ⟨[(0, [{ tag := ⟨0, 0, true, false⟩, mode := 1, port := 24, eq := 0, rewrite := 0, txSel := 0, flags := 0, ovh := 0, hdrMax := 128, data := zeros 448 }])]⟩, sa := ⟨[(0, some { tag := ⟨0, 0, true, false⟩, tx := true, suite := 1, an := 0, flags := 0, rxPort := 3, kekSlot := 0, window := 0, sciSpi := zeros 6 ++ [0, 1], salt := zeros 12, ssci := 0, softPn := 9, initPn := 1, keyStore := ⟨[], zeros 16⟩, bound := some (3, 0) })]⟩ } }, (by decide +kernel), (by decide +kernel), (by decide +kernel)⟩⟩

theorem witness_LanesAreTestedAndRetired :
    (∃ (i : Slice) (u : Fin 12) (s : State), (((s.encMap i).spares 12).contains u.val = true) ∧ ((s.fsrc (0x40 + 12 * i.val + u.val)).retired = false)) ∧
    (∃ (i : Slice) (u : Fin 12) (s : State), (((s.decMap i).spares 12).contains u.val = true) ∧ ((s.fsrc (0x100 + 12 * i.val + u.val)).retired = false)) ∧
    (∃ (i : Slice) (u : Fin 12) (s : State), (((s.encMap i).spares 12).contains u.val = false) ∧ ((s.encMap i).fenced.contains u.val = true)) ∧
    (∃ (i : Slice) (u : Fin 12) (s : State) (v : _), (s.flt.running.contains (pairSource i u) = true) ∧ (((s.encMap i).goodSpare 12 fun v => (s.pair i v).good) = some v)) ∧
    (∃ (i : Slice) (u : Fin 12) (s : State), (s.flt.running.contains (pairSource i u) = true) ∧ (((s.encMap i).goodSpare 12 fun v => (s.pair i v).good) = none)) ∧
    (∃ (i : Slice) (l : Fin 12) (s : State) (v : _), (s.flt.running.contains (0x100 + 12 * i.val + l.val) = true) ∧ (((s.decMap i).goodSpare 12 fun v => (s.glz.lanes.get {} (i.val * 12 + v)).good) = some v)) ∧
    (∃ (i : Slice) (l : Fin 12) (s : State), (s.flt.running.contains (0x100 + 12 * i.val + l.val) = true) ∧ (((s.decMap i).goodSpare 12 fun v => (s.glz.lanes.get {} (i.val * 12 + v)).good) = none)) ∧
    (∃ (i : Slice) (e : TxEntry) (s : State), (s.fillNext i = some e) ∧ (s.structBad (.sa e.sa) = false) ∧ (s.structBad (.version e.circuit e.born) = false)) ∧
    (∃ (i : Slice) (e : TxEntry) (s : State), (s.fillNext i = some e)) ∧
    (∃ (i : Slice) (e : TxEntry) (s : State) (a : _), (s.fillNext i = some e) ∧ (s.structBad (.version e.circuit e.born) = false) ∧ (s.saOf e.sa = some a) ∧ (a.poison = false)) ∧
    (∃ (i : Slice) (e : TxEntry) (s : State), (s.fillNext i = some e) ∧ (s.structBad (.sa e.sa) = false)) :=
  ⟨⟨3, 11, up .config, (by decide +kernel), (by decide +kernel)⟩,
    ⟨3, 10, up .config, (by decide +kernel), (by decide +kernel)⟩,
    ⟨3, 4, { up .forward with units := { enc := ⟨[(3, { pos := (List.range 10).map some, fenced := [4] })]⟩ } }, (by decide +kernel), (by decide +kernel)⟩,
    ⟨3, 4, { up .forward with flt := { running := [pairSource 3 4] } }, 10, (by decide +kernel), (by decide +kernel)⟩,
    ⟨3, 4, { up .forward with flt := { running := [pairSource 3 4] }, units := { enc := ⟨[(3, { pos := (List.range 10).map some, retired := [10, 11] })]⟩ } }, (by decide +kernel), (by decide +kernel)⟩,
    ⟨3, 4, { up .forward with flt := { running := [0x100 + 40] } }, 10, (by decide +kernel), (by decide +kernel)⟩,
    ⟨3, 4, { up .forward with flt := { running := [0x100 + 40] }, units := { dec := ⟨[(3, { pos := (List.range 10).map some, retired := [10, 11] })]⟩ } }, (by decide +kernel), (by decide +kernel)⟩,
    ⟨3, { sa := 0, circuit := 0, born := 0, pins := 1, resident := false }, { up .forward with glz := { cache := ⟨[(3, [{ sa := 0, circuit := 0, born := 0, pins := 1, resident := false }])]⟩ } }, (by decide +kernel), (noneBad rfl rfl _), (noneBad rfl rfl _)⟩,
    ⟨3, { sa := 0, circuit := 0, born := 0, pins := 1, resident := false }, { up .forward with glz := { cache := ⟨[(3, [{ sa := 0, circuit := 0, born := 0, pins := 1, resident := false }])]⟩ } }, (by decide +kernel)⟩,
    ⟨3, { sa := 0, circuit := 0, born := 0, pins := 1, resident := false }, { up .forward with glz := { cache := ⟨[(3, [{ sa := 0, circuit := 0, born := 0, pins := 1, resident := false }])]⟩, sa := ⟨[(0, some { tag := ⟨0, 0, true, false⟩, tx := true, suite := 1, an := 0, flags := 0, rxPort := 3, kekSlot := 0, window := 0, sciSpi := zeros 6 ++ [0, 1], salt := zeros 12, ssci := 0, softPn := 9, initPn := 1, keyStore := ⟨[], zeros 16⟩ })]⟩ } }, { tag := ⟨0, 0, true, false⟩, tx := true, suite := 1, an := 0, flags := 0, rxPort := 3, kekSlot := 0, window := 0, sciSpi := zeros 6 ++ [0, 1], salt := zeros 12, ssci := 0, softPn := 9, initPn := 1, keyStore := ⟨[], zeros 16⟩ }, (by decide +kernel), (noneBad rfl rfl _), (by decide +kernel), (by decide +kernel)⟩,
    ⟨3, { sa := 0, circuit := 0, born := 0, pins := 1, resident := false }, { up .forward with glz := { cache := ⟨[(3, [{ sa := 0, circuit := 0, born := 0, pins := 1, resident := false }])]⟩ } }, (by decide +kernel), (noneBad rfl rfl _)⟩⟩

theorem witness_CellTimesMatchAndCarryCells :
    (∃ (made : List (Nat × Nat)), ((made.map Prod.fst).Nodup) ∧ ((made.map Prod.snd).Nodup)) ∧
    (∃ (a : Slice) (b : Slice) (s : State), (s.request a b ≠ 0) ∧ (∀ i j : Slice, (i, j) ≠ (a, b) → s.request i j = 0) ∧ (s.fab.dueNow = [] ∨ s.fab.dueNow = [(a.val, b.val)])) ∧
    (∃ (s : State), (∀ i j : Slice, s.request i j = 0)) ∧
    (∃ (a : Slice) (b : Slice) (s : State), (s.fld .fabMatchCfg 0 0 15 0 ≤ s.fab.starve.get 0 (a.val * 16 + b.val)) ∧ (s.fab.promoted.contains (a.val * 16 + b.val) = false)) ∧
    (∃ (a : Slice) (b : Slice) (s : State), (a.val * 16 + b.val ∈ s.fab.promoted) ∧ (s.request a b ≠ 0)) :=
  ⟨⟨[], (by decide +kernel), (by decide +kernel)⟩,
    ⟨3, 4, { fr { outPort := 32, slice := 3, cls := 5, ing := .onDie, bytes := zeros 60 } (up .forward) with bpm := { voqs := ⟨[(voqKey 3 32 5, { order := [1] })]⟩ } }, (by decide +kernel), (by decide +kernel), (Or.inl (by decide +kernel))⟩,
    ⟨up .forward, (by decide +kernel)⟩,
    ⟨3, 4, { (up .forward).setReg .fabMatchCfg 0 0 20 with fab := { starve := ⟨[(52, 20)]⟩ } }, (by decide +kernel), (by decide +kernel)⟩,
    ⟨3, 4, { { fr { outPort := 32, slice := 3, cls := 5, ing := .onDie, bytes := zeros 60 } (up .forward) with bpm := { voqs := ⟨[(voqKey 3 32 5, { order := [1] })]⟩ } } with fab := { promoted := [52] } }, (by decide +kernel), (by decide +kernel)⟩⟩

theorem witness_CellsAreReceivedAcknowledgedAndResent :
    (∃ (a : Slice) (b : Slice) (q : BitVec 16) (c : Cell) (s : State), ((s.fpair a b).flying.find? (fun c => c.seq = q.toNat) = some c) ∧ (s.corruptPlane = none) ∧ (s.flt.corrupt.get 0 (0x20 + a.val) = 0) ∧ (c.seq = (s.fpair a b).expect) ∧ ((s.fpair a b).held = [])) ∧
    (∃ (a : Slice) (b : Slice) (q : BitVec 16) (c : Cell) (s : State), ((s.fpair a b).flying.find? (fun c => c.seq = q.toNat) = some c) ∧ (s.corruptPlane = none) ∧ (s.flt.corrupt.get 0 (0x20 + a.val) = 0) ∧ (seqBefore c.seq (s.fpair a b).expect = false) ∧ (c.seq ≠ (s.fpair a b).expect) ∧ (∀ d ∈ (s.fpair a b).held, d.seq ≠ c.seq ∧ d.seq ≠ (s.fpair a b).expect)) ∧
    (∃ (a : Slice) (b : Slice) (q : BitVec 16) (c : Cell) (s : State), ((s.fpair a b).flying.find? (fun c => c.seq = q.toNat) = some c) ∧ (s.corruptPlane = none) ∧ (s.flt.corrupt.get 0 (0x20 + a.val) = 0) ∧ (seqBefore c.seq (s.fpair a b).expect = true ∨ (s.fpair a b).held.any (fun x => x.seq = c.seq) = true)) ∧
    (∃ (a : Slice) (b : Slice) (q : BitVec 16) (e : CellError) (c : Cell) (s : State), ((s.fpair a b).flying.find? (fun c => c.seq = q.toNat) = some c) ∧ (e.beats ≠ [] ∨ e.header = true)) ∧
    (∃ (a : Slice) (b : Slice) (q : BitVec 16) (s : State), (q.toNat ∈ (s.fpair a b).naks)) ∧
    (∃ (a : Slice) (b : Slice) (q : BitVec 16) (c : Cell) (s : State), (c ∈ (s.fpair a b).unacked) ∧ (c.seq = q.toNat) ∧ (c.resend = false) ∧ (s.fld .fabRetxCfg 0 0 19 8 ≤ s.fab.cellTime - c.sentAt)) ∧
    (∃ (a : Slice) (b : Slice) (q : BitVec 16) (c : Cell) (s : State), ((s.fpair a b).unacked.find? (fun c => c.seq = q.toNat && !c.poison && s.retryMax ≤ c.failed) = some c)) :=
  ⟨⟨3, 4, 0, { seq := 0, port := 32, cls := 5, segs := [] }, { up .forward with fab := { pairs := ⟨[(52, { next := 1, unacked := [{ seq := 0, port := 32, cls := 5, segs := [] }], flying := [{ seq := 0, port := 32, cls := 5, segs := [] }] })]⟩ } }, (by decide +kernel), (by decide +kernel), (by decide +kernel), (by decide +kernel), (by decide +kernel)⟩,
    ⟨3, 4, 1, { seq := 1, port := 32, cls := 5, segs := [] }, { up .forward with fab := { pairs := ⟨[(52, { next := 2, unacked := [{ seq := 0, port := 32, cls := 5, segs := [] }, { seq := 1, port := 32, cls := 5, segs := [] }], flying := [{ seq := 0, port := 32, cls := 5, segs := [] }, { seq := 1, port := 32, cls := 5, segs := [] }] })]⟩ } }, (by decide +kernel), (by decide +kernel), (by decide +kernel), (by decide +kernel), (by decide +kernel), (by decide +kernel)⟩,
    ⟨3, 4, 65535, { seq := 65535, port := 32, cls := 5, segs := [] }, { up .forward with fab := { pairs := ⟨[(52, { flying := [{ seq := 65535, port := 32, cls := 5, segs := [] }] })]⟩ } }, (by decide +kernel), (by decide +kernel), (by decide +kernel), (by decide +kernel)⟩,
    ⟨3, 4, 0, { beats := [31] }, { seq := 0, port := 32, cls := 5, segs := [] }, { up .forward with fab := { pairs := ⟨[(52, { next := 1, unacked := [{ seq := 0, port := 32, cls := 5, segs := [] }], flying := [{ seq := 0, port := 32, cls := 5, segs := [] }] })]⟩ } }, (by decide +kernel), (Or.inl (by decide +kernel))⟩,
    ⟨3, 4, 0, { up .forward with fab := { pairs := ⟨[(52, { next := 1, unacked := [{ seq := 0, port := 32, cls := 5, segs := [] }], naks := [0] })]⟩ } }, (by decide +kernel)⟩,
    ⟨3, 4, 0, { seq := 0, port := 32, cls := 5, segs := [] }, { (up .forward).setReg .fabRetxCfg 0 0 0x1003 with fab := { cellTime := 16, pairs := ⟨[(52, { next := 1, unacked := [{ seq := 0, port := 32, cls := 5, segs := [] }] })]⟩ } }, (by decide +kernel), (by decide +kernel), (by decide +kernel), (by decide +kernel)⟩,
    ⟨3, 4, 0, { seq := 0, port := 32, cls := 5, segs := [], failed := 15, resend := true }, { up .forward with fab := { pairs := ⟨[(52, { next := 1, unacked := [{ seq := 0, port := 32, cls := 5, segs := [], failed := 15, resend := true }] })]⟩ } }, (by decide +kernel)⟩⟩

theorem witness_PlanesAndTilesAreReplaced :
    (∃ (c : PlaneCheck) (s : State), (s.fab.check = some c)) ∧
    (∃ (c : PlaneCheck) (s : State), (s.fab.check = some c)) ∧
    (∃ (k : Fin 18) (s : State), (s.flt.running.contains k.val = true) ∧ (s.units.planes.pos.contains (some k.val) = true) ∧ (s.units.planes.spares 18 = []) ∧ (s.fab.check = none) ∧ (s.planesInUse ≠ 1)) ∧
    (∃ (k : Fin 18) (s : State), (s.flt.running.contains k.val = true) ∧ (s.units.planes.pos.contains (some k.val) = true) ∧ (s.units.planes.spares 18 = []) ∧ (s.fab.check = none) ∧ (s.planesInUse = 1) ∧ (s.mode ≠ .reset) ∧ (0x4F2 ∉ s.flt.lines)) ∧
    (∃ (q : Quad) (c : TileCopy) (s : State), (s.tabs.copies.get none q = some c) ∧ (1024 ≤ c.cell) ∧ (s.tabs.dead = false)) ∧
    (∃ (q : Quad) (c : TileCopy) (s : State), (s.tabs.copies.get none q = some c) ∧ (1024 ≤ c.cell) ∧ (s.tabs.dead = false)) :=
  ⟨⟨⟨4, 16, 0⟩, { up .forward with fab := { check := some ⟨4, 16, 0⟩ } }, (by decide +kernel)⟩,
    ⟨⟨4, 16, 0⟩, { up .forward with fab := { check := some ⟨4, 16, 0⟩ } }, (by decide +kernel)⟩,
    ⟨4, { up .forward with flt := { running := [4] }, units := { planes := { pos := (List.range 16).map some, retired := [16, 17] } } }, (by decide +kernel), (by decide +kernel), (by decide +kernel), (by decide +kernel), (by decide +kernel)⟩,
    ⟨4, { up .forward with flt := { running := [4] }, units := { planes := { pos := [some 4] ++ List.replicate 15 none, retired := (List.range 18).filter (· ≠ 4) } } }, (by decide +kernel), (by decide +kernel), (by decide +kernel), (by decide +kernel), (by decide +kernel), (by decide +kernel), (by decide +kernel)⟩,
    ⟨1, ⟨7, 7, 64, 1024⟩, { up .forward with tabs := { copies := ⟨[(1, some ⟨7, 7, 64, 1024⟩)]⟩ } }, (by decide +kernel), (by decide +kernel), (by decide +kernel)⟩,
    ⟨1, ⟨7, 7, 64, 1024⟩, { up .forward with tabs := { copies := ⟨[(1, some ⟨7, 7, 64, 1024⟩)]⟩ } }, (by decide +kernel), (by decide +kernel), (by decide +kernel)⟩⟩

theorem witness_BurinRewritesFrames :
    (∃ (i : Slice) (f : Nat) (e : Nat) (k : Nat) (s : State), (s.mode ≠ .safe) ∧ (((s.selIn i).find? fun f => (s.frame f).eg = .selected) = some f) ∧ (s.freeThread i = some (e, k)) ∧ ((s.engine i e).threads.length = 4) ∧ (((s.frame f).ebuf.any fun p => s.bufBad true i (portSet (s.frame f).outPort) p (s.frame f).ebufIdx) = false)) ∧
    (∃ (i : Slice) (f : Nat) (o : Output) (s : State), (s.mode ≠ .safe) ∧ (((s.selIn i).find? fun f => (s.frame f).eg = .burin) = some f) ∧ (s.flt.corrupt.get 0 (engineSource i (s.frame f).burEngine) = 0) ∧ ((s.frame f).origin ≠ .filler) ∧ ((s.rewriteOf (s.frame f) 0).run (s.frame f).bytes = .inr o) ∧ (o.bytes.length + 4 ≤ (if s.black (s.frame f).outPort then 10368 else 10240)) ∧ ((s.frame f).circuit = none) ∧ ((s.selIn i).head? = some f) ∧ ((s.selIn i).tail.head? = none)) ∧
    (∃ (i : Slice) (f : Nat) (o : Output) (s : State) (h : _), (s.mode ≠ .safe) ∧ (((s.selIn i).find? fun f => (s.frame f).eg = .burin) = some f) ∧ (s.flt.corrupt.get 0 (engineSource i (s.frame f).burEngine) = 0) ∧ ((s.frame f).origin ≠ .filler) ∧ ((s.rewriteOf (s.frame f) 0).run (s.frame f).bytes = .inr o) ∧ (o.bytes.length + 4 ≤ (if s.black (s.frame f).outPort then 10368 else 10240)) ∧ ((s.selIn i).head? = some h) ∧ (h ≠ f) ∧ ((s.frame h).eg ≠ .rewritten)) ∧
    (∃ (i : Slice) (f : Nat) (h : Nat) (why : BurinDrop) (s : State), (s.mode ≠ .safe) ∧ (((s.selIn i).find? fun f => (s.frame f).eg = .burin) = some f) ∧ (s.flt.corrupt.get 0 (engineSource i (s.frame f).burEngine) = 0) ∧ ((s.frame f).origin ≠ .filler) ∧ ((s.rewriteOf (s.frame f) 0).run (s.frame f).bytes = .inl why) ∧ ((s.selIn i).head? = some h) ∧ (h ≠ f → (s.frame h).eg ≠ .rewritten) ∧ (h = f → (s.selIn i).tail = [])) ∧
    (∃ (r : RewriteIn) (bs : Bytes) (o : Output), (r.slot = none) ∧ (r.filler = false) ∧ (60 ≤ bs.length) ∧ (r.run bs = .inr o)) ∧
    (∃ (r : RewriteIn) (bs : Bytes), (progKind r.prog = 0) ∧ (progTagOp r.prog = 0) ∧ (r.ecn = false) ∧ (60 ≤ bs.length)) :=
  ⟨⟨3, 1, 0, 0, { up .forward with frames := ⟨[(1, { eg := .selected, outPort := 24 })]⟩, bur := { sel := ⟨[(3, [1])]⟩ } }, (by decide +kernel), (by decide +kernel), (by decide +kernel), (by decide +kernel), (by decide +kernel)⟩,
    ⟨3, 1, { bytes := zeros 60 }, { up .forward with frames := ⟨[(1, { eg := .burin, outPort := 24, bytes := zeros 60 })]⟩, bur := { sel := ⟨[(3, [1])]⟩ } }, (by decide +kernel), (by decide +kernel), (by decide +kernel), (by decide +kernel), (by decide +kernel), (by decide +kernel), (by decide +kernel), (by decide +kernel), (by decide +kernel)⟩,
    ⟨3, 2, { bytes := zeros 60 }, { up .forward with frames := ⟨[(1, { eg := .selected, outPort := 24 }), (2, { eg := .burin, outPort := 24, bytes := zeros 60 })]⟩, bur := { sel := ⟨[(3, [1, 2])]⟩ } }, 1, (by decide +kernel), (by decide +kernel), (by decide +kernel), (by decide +kernel), (by decide +kernel), (by decide +kernel), (by decide +kernel), (by decide +kernel), (by decide +kernel)⟩,
    ⟨3, 1, 1, .nonIp, { (up .forward).setReg .burProg 0 0 0xA0000000 with frames := ⟨[(1, { eg := .burin, outPort := 24, bytes := zeros 60 })]⟩, bur := { sel := ⟨[(3, [1])]⟩ } }, (by decide +kernel), (by decide +kernel), (by decide +kernel), (by decide +kernel), (by decide +kernel), (by decide +kernel), (fun h => absurd rfl h), (fun _ => by decide +kernel)⟩,
    ⟨{ prog := 0x10000000, cls := 0, ecn := false, slot := none, filler := false, padNonIp := false, portTag := 0, flags := 0, data := zeros 448, an := 0, sciSpi := zeros 8, free := 0 }, zeros 60, (match RewriteIn.run { prog := 0x10000000, cls := 0, ecn := false, slot := none, filler := false, padNonIp := false, portTag := 0, flags := 0, data := zeros 448, an := 0, sciSpi := zeros 8, free := 0 } (zeros 60) with | .inr o => o | .inl _ => {}), (by decide +kernel), (by decide +kernel), (by decide +kernel), (by decide +kernel)⟩,
    ⟨{ prog := 0, cls := 0, ecn := false, slot := none, filler := false, padNonIp := false, portTag := 0, flags := 0, data := zeros 448, an := 0, sciSpi := zeros 8, free := 0 }, zeros 60, (by decide +kernel), (by decide +kernel), (by decide +kernel), (by decide +kernel)⟩⟩

theorem witness_MachineChecksFenceAndRetire :
    (∃ (i : Slice) (e : Fin 5) (k : Fin 4) (cause : Fin 7) (a : BitVec 12) (inPatch : Bool) (f : Nat) (s : State), (s.bur.patch.mayCheck .burin cause a.toNat inPatch = true) ∧ ((s.engine i e).threads.getD k none = some f)) ∧
    (∃ (cause : Fin 7) (a : BitVec 12) (inPatch : Bool) (s : State), (s.bur.patch.mayCheck .burin cause a.toNat inPatch = false)) ∧
    (∃ (i : Slice) (e : Fin 5) (s : State), (s.flt.corrupt.get 0 (engineSource i e) = 0) ∧ ((s.engMap i).fenced.contains e.val = true ∨ (((s.engMap i).spares 5).contains e.val = true ∧ (s.fsrc (engineSource i e)).retired = false))) ∧
    (∃ (i : Slice) (e : Fin 5) (s : State), (((s.engMap i).spares 5).contains e.val = true) ∧ ((s.fsrc (engineSource i e)).retired = false) ∧ (s.flt.corrupt.get 0 (engineSource i e) = 0)) ∧
    (∃ (i : Slice) (e : Fin 5) (s : State), (3 ≤ s.flt.corrupt.get 0 (engineSource i e)) ∧ ((s.engMap i).fenced.contains e.val = true)) ∧
    (∃ (i : Slice) (e : Fin 5) (s : State) (v : _), (s.flt.running.contains (engineSource i e) = true) ∧ (((s.engMap i).goodSpare 5 fun v => (s.engine i v).good) = some v)) ∧
    (∃ (i : Slice) (e : Fin 5) (s : State), (s.flt.running.contains (engineSource i e) = true) ∧ (((s.engMap i).goodSpare 5 fun v => (s.engine i v).good) = none)) ∧
    (∃ (cause : Fin 7) (a : BitVec 12) (inPatch : Bool) (s : State), (s.bur.seqPatch.mayCheck .sequencer cause a.toNat inPatch = true) ∧ (s.tabs.dead = false)) ∧
    (∃ (cause : Fin 7) (a : BitVec 12) (inPatch : Bool) (s : State), (s.bur.seqPatch.mayCheck .sequencer cause a.toNat inPatch = false ∨ s.tabs.dead = true)) ∧
    (∃ (r : Ring) (d : Bytes) (s : State), (Executing s r 0x0022 d) ∧ (s.tabs.dead = true)) :=
  ⟨⟨3, 2, 2, 1, 0xFFF, false, 1, { fr { eg := .burin, outPort := 24, bytes := zeros 60 } (up .forward) with bur := { engines := ⟨[(17, { threads := [none, none, some 1, none] })]⟩ } }, (by decide +kernel), (by decide +kernel)⟩,
    ⟨2, 0xFFE, false, up .config, (by decide +kernel)⟩,
    ⟨3, 2, { up .forward with units := { eng := ⟨[(3, { pos := (List.range 4).map some, fenced := [2] })]⟩ } }, (by decide +kernel), (Or.inl (by decide +kernel))⟩,
    ⟨3, 4, up .config, (by decide +kernel), (by decide +kernel), (by decide +kernel)⟩,
    ⟨3, 2, { up .forward with units := { eng := ⟨[(3, { pos := (List.range 4).map some, fenced := [2] })]⟩ }, flt := { corrupt := ⟨[(engineSource 3 2, 3)]⟩ } }, (by decide +kernel), (by decide +kernel)⟩,
    ⟨3, 2, { up .forward with flt := { running := [engineSource 3 2] } }, 4, (by decide +kernel), (by decide +kernel)⟩,
    ⟨3, 2, { up .forward with flt := { running := [engineSource 3 2] }, units := { eng := ⟨[(3, { pos := (List.range 4).map some, retired := [4] })]⟩ } }, (by decide +kernel), (by decide +kernel)⟩,
    ⟨1, 1, false, up .config, (by decide +kernel), (by decide +kernel)⟩,
    ⟨2, 1, false, up .config, (Or.inl (by decide +kernel))⟩,
    ⟨5, cmd 0x22, { ex (cmd 0x22) with tabs := { dead := true } }, (⟨by decide +kernel, _, rfl, by decide⟩), (by decide +kernel)⟩⟩

theorem witness_PoolsGrantOrTurnAwayClaims :
    (∃ (side : Side) (i : Slice) (b : Fin 2) (p : Fin 4) (c : Claim) (s : State), (s.bpm.claims.filter (fun c => c.egress = decide (side = .egress) && c.slice = i.val && c.set = b.val && c.pool = p.val) = [c]) ∧ (s.entitledIn c c.pool = true) ∧ (c.egress = false) ∧ (c.isReturn = false)) ∧
    (∃ (side : Side) (i : Slice) (b : Fin 2) (p : Fin 4) (c : Claim) (s : State), (s.bpm.claims.filter (fun c => c.egress = decide (side = .egress) && c.slice = i.val && c.set = b.val && c.pool = p.val) = [c]) ∧ (s.entitledIn c c.pool = true) ∧ (c.isReturn = true)) ∧
    (∃ (side : Side) (i : Slice) (b : Fin 2) (p : Fin 4) (c : Claim) (s : State), (s.bpm.claims.filter (fun c => c.egress = decide (side = .egress) && c.slice = i.val && c.set = b.val && c.pool = p.val) = [c]) ∧ (s.entitledIn c c.pool = true) ∧ (c.egress = true)) ∧
    (∃ (side : Side) (i : Slice) (b : Fin 2) (p : Fin 4) (c : Claim) (s : State) (q : _), (s.bpm.claims.filter (fun c => c.egress = decide (side = .egress) && c.slice = i.val && c.set = b.val && c.pool = p.val) = [c]) ∧ (s.entitledIn c c.pool = false) ∧ (c.isReturn = false) ∧ (s.nextPool c = some q)) ∧
    (∃ (side : Side) (i : Slice) (b : Fin 2) (p : Fin 4) (c : Claim) (s : State), (s.bpm.claims.filter (fun c => c.egress = decide (side = .egress) && c.slice = i.val && c.set = b.val && c.pool = p.val) = [c]) ∧ (s.entitledIn c c.pool = false) ∧ (c.isReturn = false) ∧ (s.nextPool c = none)) ∧
    (∃ (side : Side) (i : Slice) (b : Fin 2) (p : Fin 4) (c : Claim) (s : State), (s.bpm.claims.filter (fun c => c.egress = decide (side = .egress) && c.slice = i.val && c.set = b.val && c.pool = p.val) = [c]) ∧ (s.entitledIn c c.pool = false) ∧ (c.isReturn = true)) :=
  ⟨⟨.ingress, 3, 1, 2, ⟨false, 3, 1, 2, 0, 0, 261, 1⟩, { fr { slice := 3, set := 1, outPort := 32, cls := 5, bytes := zeros 60, ing := .claiming, eg := .claiming } (up .forward) with bpm := { claims := [⟨false, 3, 1, 2, 0, 0, 261, 1⟩] } }, (by decide +kernel), (by decide +kernel), (by decide +kernel), (by decide +kernel)⟩,
    ⟨.ingress, 3, 1, 2, ⟨false, 3, 1, 2, 0, 8, 261, 1⟩, { fr { slice := 3, set := 1, outPort := 32, cls := 5, bytes := zeros 60, ing := .claiming, eg := .claiming } (up .forward) with bpm := { claims := [⟨false, 3, 1, 2, 0, 8, 261, 1⟩] } }, (by decide +kernel), (by decide +kernel), (by decide +kernel)⟩,
    ⟨.egress, 3, 1, 2, ⟨true, 3, 1, 2, 0, 0, 261, 1⟩, { fr { slice := 3, set := 1, outPort := 32, cls := 5, bytes := zeros 60, ing := .claiming, eg := .claiming } (up .forward) with bpm := { claims := [⟨true, 3, 1, 2, 0, 0, 261, 1⟩] } }, (by decide +kernel), (by decide +kernel), (by decide +kernel)⟩,
    ⟨.ingress, 3, 1, 2, ⟨false, 3, 1, 2, 0, 0, 261, 1⟩, { fr { slice := 3, set := 1, outPort := 32, cls := 5, bytes := zeros 60, ing := .claiming, eg := .claiming } ((((up .forward).setReg .bpmIclsCfg 0 5 0x2000000000).setReg .bpmIrsv 0 5 0x01000000)) with bpm := { claims := [⟨false, 3, 1, 2, 0, 0, 261, 1⟩] } }, 3, (by decide +kernel), (by decide +kernel), (by decide +kernel), (by decide +kernel)⟩,
    ⟨.ingress, 3, 1, 2, ⟨false, 3, 1, 2, 0, 0, 261, 1⟩, { fr { slice := 3, set := 1, outPort := 32, cls := 5, bytes := zeros 60, ing := .claiming, eg := .claiming } (((up .forward).setReg .bpmIclsCfg 0 5 0).setReg .bpmIrsv 0 5 0) with bpm := { claims := [⟨false, 3, 1, 2, 0, 0, 261, 1⟩] } }, (by decide +kernel), (by decide +kernel), (by decide +kernel), (by decide +kernel)⟩,
    ⟨.ingress, 3, 1, 2, ⟨false, 3, 1, 2, 0, 8, 261, 1⟩, { fr { slice := 3, set := 1, outPort := 32, cls := 5, bytes := zeros 60, ing := .claiming, eg := .claiming } (((up .forward).setReg .bpmIclsCfg 0 5 0).setReg .bpmIrsv 0 5 0) with bpm := { claims := [⟨false, 3, 1, 2, 0, 8, 261, 1⟩] } }, (by decide +kernel), (by decide +kernel), (by decide +kernel)⟩⟩

theorem witness_DeepItemsAreWrittenAndReturned :
    (∃ (f : Nat) (s : State), ((s.frame f).ing = .spillQ) ∧ ((s.bpm.spillQ.get [] (s.frame f).slice).find? (fun g => (s.frame g).voqKey = (s.frame f).voqKey) = some f)) ∧
    (∃ (i : Slice) (p : Port) (c : Fin 8) (f : Nat) (rest : List Nat) (s : State), ((s.voq (voqKey i p c)).deep = f :: rest) ∧ ((s.voq (voqKey i p c)).spill = true) ∧ (s.onDieOf (voqKey i p c) < s.icls c 11 0 * 1024 ∨ (s.voq (voqKey i p c)).returning = true) ∧ (s.belowThr (voqKey i p c) = true)) ∧
    (∃ (f : Nat) (s : State), ((s.frame f).ing = .reading) ∧ ((s.voq (s.frame f).voqKey).reading.head? = some f) ∧ (s.recordBad (s.frame f) = false) ∧ (s.age (s.frame f) ≤ s.resLimit) ∧ (s.dataBad (s.frame f) = false) ∧ (s.flushOf f = none)) ∧
    (∃ (f : Nat) (s : State), ((s.frame f).ing = .reading) ∧ ((s.voq (s.frame f).voqKey).reading.head? = some f) ∧ (s.recordBad (s.frame f) = true)) ∧
    (∃ (f : Nat) (s : State), ((s.frame f).ing = .reading) ∧ ((s.voq (s.frame f).voqKey).reading.head? = some f) ∧ (s.resLimit < s.age (s.frame f) ∨ s.dataBad (s.frame f) = true ∨ s.flushOf f ≠ none)) ∧
    (∃ (s : State), (∀ k ∈ s.bpm.voqs.keys, ∀ f, ((s.voq k).order.head? = some f ∨ (s.voq k).deep.head? = some f) → s.expired f = false) ∧ (∀ k ∈ s.sched.queues.keys, ∀ f, (s.queue k).head? = some f → s.expired f = false) ∧ (∀ f ∈ s.waitingForSa, s.expired f = false)) ∧
    (∃ (s : State), (s.bpm.voqs.keys = []) ∧ (s.sched.queues.keys = [])) :=
  ⟨⟨1, { fr { slice := 3, outPort := 32, cls := 5, bytes := zeros 60, gen := 0, ing := .spillQ } (up .forward) with bpm := { voqs := ⟨[(voqKey 3 32 5, { spill := true, deep := [1] })]⟩, spillQ := ⟨[(3, [1])]⟩ } }, (by decide +kernel), (by decide +kernel)⟩,
    ⟨3, 32, 5, 1, [], { fr { slice := 3, outPort := 32, cls := 5, bytes := zeros 60, gen := 0, ing := .deep, wasDeep := true } (up .forward) with bpm := { voqs := ⟨[(voqKey 3 32 5, { spill := true, deep := [1] })]⟩ } }, (by decide +kernel), (by decide +kernel), (by decide +kernel), (by decide +kernel)⟩,
    ⟨1, { fr { slice := 3, outPort := 32, cls := 5, bytes := zeros 60, gen := 0, ing := .reading, wasDeep := true } (up .forward) with bpm := { voqs := ⟨[(voqKey 3 32 5, { spill := true, reading := [1], pages := [(0, 0)] })]⟩ }, hbm := { bad := [] } }, (by decide +kernel), (by decide +kernel), (by decide +kernel), (by decide +kernel), (by decide +kernel), (by decide +kernel)⟩,
    ⟨1, { fr { slice := 3, outPort := 32, cls := 5, bytes := zeros 60, gen := 0, ing := .reading, wasDeep := true } (up .forward) with bpm := { voqs := ⟨[(voqKey 3 32 5, { spill := true, reading := [1], pages := [(0, 0)] })]⟩ }, hbm := { bad := [(16, 0)] } }, (by decide +kernel), (by decide +kernel), (by decide +kernel)⟩,
    ⟨1, { fr { slice := 3, outPort := 32, cls := 5, bytes := zeros 60, gen := 0, ing := .reading, wasDeep := true } (up .forward) with bpm := { voqs := ⟨[(voqKey 3 32 5, { spill := true, reading := [1], pages := [(0, 0)] })]⟩ }, hbm := { bad := [(48, 0)] } }, (by decide +kernel), (by decide +kernel), (Or.inr (Or.inl (by decide +kernel)))⟩,
    ⟨up .forward, (fun _ h => nomatch h), (fun _ h => nomatch h), (by decide +kernel)⟩,
    ⟨fr { ing := .landing, sofNs := 5 } (up .forward), (by decide +kernel), (by decide +kernel)⟩⟩

theorem witness_NodesShapersAndProfilesAreWritten :
    (∃ (r : Ring) (d : Bytes) (b : Bytes) (s : State), (Executing s r 0x0070 d) ∧ (byteAt b 0 ≤ 127) ∧ (byteAt b 1 ≤ 7) ∧ (byteAt b 2 ≤ 3) ∧ (byteAt b 3 = 0) ∧ (badWeight (leAt b 4 2) = false) ∧ (badWeight (leAt b 6 2) = false) ∧ (zeroAt b 8 8 = true) ∧ (badShaper (shaperOf (sliceOf b 16 16)) = false)) ∧
    (∃ (r : Ring) (d : Bytes) (b : Bytes) (s : State), (Executing s r 0x0070 d) ∧ (127 < byteAt b 0 ∨ 7 < byteAt b 1 ∨ 3 < byteAt b 2 ∨ byteAt b 3 ≠ 0 ∨ badWeight (leAt b 4 2) = true ∨ badWeight (leAt b 6 2) = true ∨ zeroAt b 8 8 = false ∨ badShaper (shaperOf (sliceOf b 16 16)) = true)) ∧
    (∃ (r : Ring) (d : Bytes) (b : Bytes) (s : State), (Executing s r 0x0071 d) ∧ (byteAt b 0 ≤ 15) ∧ (byteAt b 1 = 0 ∨ byteAt b 1 = 2) ∧ (leAt b 2 2 ≤ 4095) ∧ (zeroAt b 4 12 = true) ∧ (∀ c, c < 8 → badWeight (leAt b (16 + 2 * c) 2) = false) ∧ (badShaper (shaperOf (sliceOf b 32 16)) = false)) ∧
    (∃ (r : Ring) (d : Bytes) (b : Bytes) (v : CirVer) (s : State), (Executing s r 0x0072 d) ∧ (badCps b = false) ∧ (s.cirNow (leAt b 0 2) = some v) ∧ (v.mode = 1 ∨ v.mode = 2) ∧ (s.black v.port = true)) ∧
    (∃ (r : Ring) (d : Bytes) (b : Bytes) (s : State), (Executing s r 0x0072 d) ∧ (badCps b = true)) ∧
    (∃ (r : Ring) (d : Bytes) (b : Bytes) (s : State), (Executing s r 0x0072 d) ∧ (badCps b = false) ∧ ((s.cirNow (leAt b 0 2)).all (fun v => (v.mode ≠ 1 && v.mode ≠ 2) || !s.black v.port) = true)) ∧
    (∃ (c : Circuit) (q : Profile) (s : State), (s.cps.get none c = some q)) :=
  ⟨⟨5, cmd 0x70, [127, 7, 3, 0, 1, 0, 1, 0] ++ zeros 24, ex (cmd 0x70), (⟨by decide +kernel, _, rfl, by decide⟩), (by decide +kernel), (by decide +kernel), (by decide +kernel), (by decide +kernel), (by decide +kernel), (by decide +kernel), (by decide +kernel), (by decide +kernel)⟩,
    ⟨5, cmd 0x70, zeros 32, ex (cmd 0x70), (⟨by decide +kernel, _, rfl, by decide⟩), (by decide +kernel)⟩,
    ⟨5, cmd 0x71, [15, 2] ++ [255, 15] ++ zeros 12 ++ [1, 0, 1, 0, 1, 0, 1, 0, 1, 0, 1, 0, 1, 0, 1, 0] ++ zeros 16, ex (cmd 0x71), (⟨by decide +kernel, _, rfl, by decide⟩), (by decide +kernel), (by decide +kernel), (by decide +kernel), (by decide +kernel), (by decide +kernel), (by decide +kernel)⟩,
    ⟨5, cmd 0x72, [0, 0, 1, 1, 232, 3, 0, 0] ++ zeros 88, { tag := ⟨0, 0, true, false⟩, mode := 1, port := 3, eq := 0, rewrite := 0, txSel := 0, flags := 0, ovh := 0, hdrMax := 128, data := zeros 448 }, { ex (cmd 0x72) with glz := { cir := ⟨[(0, [{ tag := ⟨0, 0, true, false⟩, mode := 1, port := 3, eq := 0, rewrite := 0, txSel := 0, flags := 0, ovh := 0, hdrMax := 128, data := zeros 448 }])]⟩ } }, (⟨by decide +kernel, _, rfl, by decide⟩), (by decide +kernel), (by decide +kernel), (by decide +kernel), (by decide +kernel)⟩,
    ⟨5, cmd 0x72, zeros 96, ex (cmd 0x72), (⟨by decide +kernel, _, rfl, by decide⟩), (by decide +kernel)⟩,
    ⟨5, cmd 0x72, [0, 0, 1, 1, 232, 3, 0, 0] ++ zeros 88, ex (cmd 0x72), (⟨by decide +kernel, _, rfl, by decide⟩), (by decide +kernel), (by decide +kernel)⟩,
    ⟨7, { flags := 1, nslot := 1, rate := 1000, sizes := [128], fillDa := zeros 6, fillSa := zeros 6, pattern := [0], due := 1000, r := 0, n := 0, fillers := 0, pin := none }, { up .forward with cps := ⟨[(7, some { flags := 1, nslot := 1, rate := 1000, sizes := [128], fillDa := zeros 6, fillSa := zeros 6, pattern := [0], due := 1000, r := 0, n := 0, fillers := 0, pin := none })]⟩ }, (by decide +kernel)⟩⟩

theorem witness_SchedulerSelectsFrames :
    (∃ (p : Port) (q : Port) (s : State), (p.val / 8 = q.val / 8) ∧ (s.portTurn p = true) ∧ (s.wouldSelect q = true) ∧ (p ≠ q) ∧ (q.val ∉ s.servedNow (q.val / 8))) ∧
    (∃ (p : Port) (s : State), ((s.port p).link ≠ .up ∨ s.mode = .safe ∨ 16384 ≤ s.selectedBytes p ∨ s.shaperSync.portTurn p = false)) ∧
    (∃ (p : Port) (c : Nat) (k : Nat) (s : State) (u : State), ((s.port p).link = .up) ∧ (s.mode ≠ .safe) ∧ (s.selectedBytes p < 16384) ∧ (s.shaperSync.portTurn p = true) ∧ (u = s.shaperSync.noteServed p) ∧ (u.dueSlots p = []) ∧ (u.portLevelOf p ≠ .x) ∧ (u.choose p = some (c, k)) ∧ (u.age (u.frame (u.headOf k)) ≤ u.resLimit)) ∧
    (∃ (p : Port) (c : Nat) (f : Nat) (rest : List Nat) (q : Profile) (v : CirVer) (s : State) (u : State) (w : State), ((s.port p).link = .up) ∧ (s.mode ≠ .safe) ∧ (s.selectedBytes p < 16384) ∧ (s.shaperSync.portTurn p = true) ∧ (u = s.shaperSync.noteServed p) ∧ (u.dueSlots p = c :: rest) ∧ (u.cps.get none c = some q) ∧ (u.cirNow c = some v) ∧ (q.due ≤ u.now) ∧ (u.now < q.next.due) ∧ (u.offer p v.eq (q.used.foldl max 0) q.size 8 = (w, some f))) ∧
    (∃ (p : Port) (c : Nat) (rest : List Nat) (q : Profile) (v : CirVer) (s : State) (u : State), ((s.port p).link = .up) ∧ (s.mode ≠ .safe) ∧ (s.selectedBytes p < 16384) ∧ (s.shaperSync.portTurn p = true) ∧ (u = s.shaperSync.noteServed p) ∧ (u.dueSlots p = c :: rest) ∧ (u.cps.get none c = some q) ∧ (u.cirNow c = some v) ∧ (q.due ≤ u.now) ∧ (u.now < q.next.due) ∧ (u.offer p v.eq (q.used.foldl max 0) q.size 8 = (u, none)) ∧ (u.canFill c q v = true)) ∧
    (∃ (p : Port) (c : Nat) (rest : List Nat) (q : Profile) (v : CirVer) (s : State) (u : State), ((s.port p).link = .up) ∧ (s.mode ≠ .safe) ∧ (s.selectedBytes p < 16384) ∧ (s.shaperSync.portTurn p = true) ∧ (u = s.shaperSync.noteServed p) ∧ (u.dueSlots p = c :: rest) ∧ (u.cps.get none c = some q) ∧ (u.cirNow c = some v) ∧ (q.due ≤ u.now) ∧ (u.now < q.next.due) ∧ (u.offer p v.eq (q.used.foldl max 0) q.size 8 = (u, none)) ∧ (u.canFill c q v = false) ∧ (rest = []) ∧ (u.portLevelOf p = .x)) :=
  ⟨⟨2, 3, queued, (by decide +kernel), (by decide +kernel), (by decide +kernel), (by decide +kernel), (by decide +kernel)⟩,
    ⟨3, up .forward, (Or.inl (by decide +kernel))⟩,
    ⟨3, 0, 2 ^ 20 + 24, queued, synced queued, (by decide +kernel), (by decide +kernel), (by decide +kernel), (by decide +kernel), (by decide +kernel), (by decide +kernel), (by decide +kernel), (by decide +kernel), (by decide +kernel)⟩,
    ⟨3, 0, 1, [], profile, ver, slotDue [1], synced (slotDue [1]), ((synced (slotDue [1])).offer 3 0 (profile.used.foldl max 0) profile.size 8).1, (by decide +kernel), (by decide +kernel), (by decide +kernel), (by decide +kernel), (by decide +kernel), (by decide +kernel), (by decide +kernel), (by decide +kernel), (by decide +kernel), (by decide +kernel), (by decide +kernel)⟩,
    ⟨3, 0, [], profile, ver, slotDue [], synced (slotDue []), (by decide +kernel), (by decide +kernel), (by decide +kernel), (by decide +kernel), (by decide +kernel), (by decide +kernel), (by decide +kernel), (by decide +kernel), (by decide +kernel), (by decide +kernel), (by decide +kernel), (by decide +kernel)⟩,
    ⟨3, 0, [], profile, ver, (({ slotDue [] with glz := { cir := ⟨[(0, [ver])]⟩ }, sched := { portLevel := ⟨[(3, some ⟨0, -1⟩)]⟩ } }).setReg .egsPortShape 0 3 1), synced (({ slotDue [] with glz := { cir := ⟨[(0, [ver])]⟩ }, sched := { portLevel := ⟨[(3, some ⟨0, -1⟩)]⟩ } }).setReg .egsPortShape 0 3 1), (by decide +kernel), (by decide +kernel), (by decide +kernel), (by decide +kernel), (by decide +kernel), (by decide +kernel), (by decide +kernel), (by decide +kernel), (by decide +kernel), (by decide +kernel), (by decide +kernel), (by decide +kernel), (by decide +kernel), (by decide +kernel)⟩⟩

theorem witness_PolicersAreWrittenAndMeter :
    (∃ (r : Ring) (d : Bytes) (b : Bytes) (s : State), (Executing s r 0x0078 d) ∧ (SeqIdle s r 0x0078) ∧ (badPolicer b = false) ∧ (s.logRoom 1 = true)) ∧
    (∃ (r : Ring) (d : Bytes) (v : PolVer) (s : State), (Executing s r 0x0079 d) ∧ (SeqIdle s r 0x0079) ∧ (s.polAt (leAt d 0x10 2) s.staging = some v) ∧ (s.logRoom 1 = true)) ∧
    (∃ (r : Ring) (d : Bytes) (v : PolVer) (s : State), (Executing s r 0x007A d) ∧ (SeqIdle s r 0x007A) ∧ (s.live (BitVec.ofNat 16 (leAt d 0x12 2)) = true) ∧ (s.polAt (leAt d 0x10 2) (BitVec.ofNat 16 (leAt d 0x12 2)) = some v)) ∧
    (∃ (q : Quad) (f : Nat) (n : Nat) (v : PolVer) (k : PolBucket) (s : State), (s.nextMeter q = some f) ∧ (s.meteredBy (s.frame f) = some (n, v)) ∧ ((s.frame f).meter ≠ .late) ∧ (k = (s.pol.bkts.get none (polKey ((s.frame f).slice / 4) n v.tag.born)).getD (v.full (s.frame f).sofNs))) ∧
    (∃ (f : Nat) (s : State), (s.holdsMark (s.frame f) = true)) ∧
    (∃ (k : PolBucket), (0 ≤ k.tc) ∧ (0 ≤ k.t2)) :=
  ⟨⟨5, cmd 0x78, [0, 0, 1, 0] ++ zeros 28, ex (cmd 0x78), (⟨by decide +kernel, _, rfl, by decide⟩), (⟨by decide +kernel, by decide +kernel, by decide +kernel, by decide +kernel⟩), (by decide +kernel), (by decide +kernel)⟩,
    ⟨5, cmd 0x79, ⟨⟨0, 0, true, false⟩, 1, 0, 1000, 0, 1000, 1000, 0⟩, { ex (cmd 0x79) with pol := { vers := ⟨[(0, [⟨⟨0, 0, true, false⟩, 1, 0, 1000, 0, 1000, 1000, 0⟩])]⟩ } }, (⟨by decide +kernel, _, rfl, by decide⟩), (⟨by decide +kernel, by decide +kernel, by decide +kernel, by decide +kernel⟩), (by decide +kernel), (by decide +kernel)⟩,
    ⟨5, cmd 0x7A, ⟨⟨0, 0, true, false⟩, 1, 0, 1000, 0, 1000, 1000, 0⟩, { ex (cmd 0x7A) with pol := { vers := ⟨[(0, [⟨⟨0, 0, true, false⟩, 1, 0, 1000, 0, 1000, 1000, 0⟩])]⟩ } }, (⟨by decide +kernel, _, rfl, by decide⟩), (⟨by decide +kernel, by decide +kernel, by decide +kernel, by decide +kernel⟩), (by decide +kernel), (by decide +kernel)⟩,
    ⟨1, 1, 0, ⟨⟨0, 0, true, false⟩, 1, 0, 1000, 0, 1000, 1000, 0⟩, ⟨8000000000, 8000000000, 100⟩, { fr { slice := 4, port := 32, sofNs := 100, ing := .landing, ended := true, issued := true, walk := { st := .accepted }, bytes := zeros 60, rule := { back := true, data := 0x8000000000000001 }, meter := .asked } (up .forward) with now := 1000, pol := { vers := ⟨[(0, [⟨⟨0, 0, true, false⟩, 1, 0, 1000, 0, 1000, 1000, 0⟩])]⟩ } }, (by decide +kernel), (by decide +kernel), (by decide +kernel), (by decide +kernel)⟩,
    ⟨1, fr { port := 3, ing := .landing, bytes := zeros 60, sofNs := 5 } (up .forward), (by decide +kernel)⟩,
    ⟨⟨0, 0, 0⟩, (by decide +kernel), (by decide +kernel)⟩⟩

theorem witness_DoorbellsAndDescriptorsDriveRings :
    (∃ (req : Requester) (off : Nat) (size : Nat) (v : BitVec 64) (r : Nat) (s : State), (s.doorbellRing req off size v.toNat = some r) ∧ (bitsOf 50 48 v.toNat = 0) ∧ ((s.ring r).active = true) ∧ ((if (s.ring r).ctx.any (fun c => c.kind = 5) then ((s.ring r).devIdx + 2 ^ 32 - bitsOf 31 0 v.toNat) % 2 ^ 32 else (bitsOf 31 0 v.toNat + 2 ^ 32 - (s.ring r).devIdx) % 2 ^ 32) ≤ (s.ring r).size)) ∧
    (∃ (req : Requester) (off : Nat) (size : Nat) (v : BitVec 64) (b : Bytes) (r : Nat) (s : State), (s.doorbellRing req off size v.toNat = some r) ∧ (bitsOf 50 48 v.toNat = 1) ∧ ((s.ring r).active = false) ∧ ((ctxOf b).en = true) ∧ (s.ctxValid r (ctxOf b) = true)) ∧
    (∃ (r : Ring) (c : RingCtx) (s : State), ((s.ring r).deferred = some c) ∧ ((s.ring r).active = false) ∧ (s.ctxValid r c = true)) ∧
    (∃ (req : Requester) (off : Nat) (size : Nat) (v : BitVec 64) (r : Nat) (s : State), (s.doorbellRing req off size v.toNat = some r) ∧ (bitsOf 50 48 v.toNat = 2) ∧ ((s.ring r).halted = true)) ∧
    (∃ (req : Requester) (off : Nat) (size : Nat) (v : BitVec 64) (s : State), (s.doorbellRing req off size v.toNat = none) ∧ (msixAccess req off size = none) ∧ (off < pendingArray req ∨ pendingArray req + 8 ≤ off)) ∧
    (∃ (r : Ring) (d : Bytes) (c : RingCtx) (s : State), (s.mode ≠ .reset) ∧ (s.mode ≠ .bringup) ∧ ((s.ring r).enabled = true) ∧ ((s.ring r).ctx = some c) ∧ (c.kind = 1 ∨ c.kind = 2) ∧ ((s.ring r).hasWork = true) ∧ ((s.ring r).fetched = []) ∧ ((s.ring r).inExec = none) ∧ (s.handCheck r d = none) ∧ (s.cacheRoom r ≠ none)) ∧
    (∃ (r : Ring) (d : Bytes) (s : State), (Executing s r 0x0001 d)) ∧
    (∃ (r : Ring) (c : RingCtx) (s : State), ((s.ring r).active = true) ∧ ((s.ring r).stopping = true) ∧ ((s.ring r).inExec = none) ∧ ((s.ring r).fetched = []) ∧ ((s.ring r).ctx = some c)) ∧
    (∃ (r : Ring) (c : RingCtx) (s : State), (s.mode ≠ .reset) ∧ (s.mode ≠ .bringup) ∧ ((s.ring r).enabled = true) ∧ ((s.ring r).ctx = some c) ∧ (c.kind = 5) ∧ ((s.ring r).lost ≠ 0) ∧ ((s.ring r).full = false)) ∧
    (∃ (r : Ring) (c : RingCtx) (s : State), ((s.ring r).holdEnd ≠ 0) ∧ ((s.ring r).ctx = some c)) :=
  ⟨⟨(.pf .pf0), 40, 8, 0x0000000500000001, 5, (up .config).setRing 5 (rg 1), (by decide +kernel), (by decide +kernel), (by decide +kernel), (by decide +kernel)⟩,
    ⟨(.pf .pf0), 40, 8, 0x0001000500000000, leBytes 8 0x10000 ++ zeros 8 ++ [1, 6, 1] ++ zeros 45, 5, up .config, (by decide +kernel), (by decide +kernel), (by decide +kernel), (by decide +kernel), (by decide +kernel)⟩,
    ⟨5, (ctx 1), (up .config).setRing 5 ({ deferred := some (ctx 1) }), (by decide +kernel), (by decide +kernel), (by decide +kernel)⟩,
    ⟨(.pf .pf0), 40, 8, 0x0002000500000000, 5, (up .config).setRing 5 ({ rg 1 with halted := true, err := 1 }), (by decide +kernel), (by decide +kernel), (by decide +kernel)⟩,
    ⟨(.pf .pf0), 40, 4, 0x500000001, (up .config).setRing 5 (rg 1), (by decide +kernel), (by decide +kernel), (by decide +kernel)⟩,
    ⟨5, cmd 1, (ctx 1), (up .config).setRing 5 (rg 1), (by decide +kernel), (by decide +kernel), (by decide +kernel), (by decide +kernel), (by decide +kernel), (by decide +kernel), (by decide +kernel), (by decide +kernel), (by decide +kernel), (by decide +kernel)⟩,
    ⟨5, cmd 1, ex (cmd 1), (⟨by decide +kernel, _, rfl, by decide⟩)⟩,
    ⟨5, (ctx 1), (up .config).setRing 5 ({ rg 1 with stopping := true }), (by decide +kernel), (by decide +kernel), (by decide +kernel), (by decide +kernel), (by decide +kernel)⟩,
    ⟨5, (ctx 5), (up .config).setRing 5 ({ rg 5 with lost := 3, hostIdx := 0 }), (by decide +kernel), (by decide +kernel), (by decide +kernel), (by decide +kernel), (by decide +kernel), (by decide +kernel), (by decide +kernel)⟩,
    ⟨5, (ctx 5), (up .config).setRing 5 ({ rg 5 with holdEnd := 5, irqHeld := true }), (by decide +kernel), (by decide +kernel)⟩⟩

theorem witness_CorrectionsAreLoggedAndScrubbed :
    (∃ (inst : BitVec 12) (addr : BitVec 40) (s : State), (hasLog inst.toNat = true) ∧ (s.validAt inst.toNat addr.toNat = true) ∧ (∀ e ∈ s.ceLog inst.toNat, e.addr ≠ addr.toNat) ∧ ((s.ceLog inst.toNat).length < 16)) ∧
    (∃ (inst : BitVec 12) (addr : BitVec 40) (s : State) (e : _), (hasLog inst.toNat = true) ∧ (s.validAt inst.toNat addr.toNat = true) ∧ ((s.ceLog inst.toNat).find? (fun e => e.addr = addr.toNat) = some e)) ∧
    (∃ (inst : BitVec 12) (addr : BitVec 40) (s : State), (s.validAt inst.toNat addr.toNat = false)) ∧
    (∃ (g : Slice) (stripe : Nat) (m : Nat) (lap : Option Nat) (s : State), (s.bit .hbmScrubCtrl 0 0 0 = true) ∧ (s.bpm.panic = []) ∧ (s.mode ≠ .standby) ∧ (∀ k, k < 8 → s.flt.corrupt.get 0 (pcSource (memberPc g k)) = 0) ∧ (m < 8) ∧ (s.hbm.segs.contains (g.val, segmentOf stripe) = false) ∧ (lap = none)) ∧
    (∃ (g : Slice) (stripe : Nat) (m : Nat) (s : State), (s.bit .hbmScrubCtrl 0 0 0 = true) ∧ (s.bpm.panic = []) ∧ (s.mode ≠ .standby) ∧ (∀ k, k < 8 → s.flt.corrupt.get 0 (pcSource (memberPc g k)) = 0) ∧ (m < 8) ∧ (s.hbm.segs.contains (g.val, segmentOf stripe) = true) ∧ (s.hbm.bad.contains (memberPc g m, stripe) = false) ∧ ((s.stripeLost g stripe).all (· = m) = true)) ∧
    (∃ (g : Slice) (stripe : Nat) (m : Nat) (targets : List HbmTarget) (s : State), (s.bit .hbmScrubCtrl 0 0 0 = true) ∧ (s.bpm.panic = []) ∧ (s.mode ≠ .standby) ∧ (∀ k, k < 8 → s.flt.corrupt.get 0 (pcSource (memberPc g k)) = 0) ∧ (m < 8) ∧ (targets = []) ∧ (s.hbm.segs.contains (g.val, segmentOf stripe) = true) ∧ (s.hbm.bad.contains (memberPc g m, stripe) = false) ∧ ((s.stripeLost g stripe).all (· = m) = false)) ∧
    (∃ (s : State), (s.bit .hbmScrubCtrl 0 0 0 = false ∨ s.bpm.panic ≠ [] ∨ s.mode = .standby)) ∧
    (∃ (inst : BitVec 12) (addr : BitVec 40) (s : State), (hasLog inst.toNat = true) ∧ (scrubbedOnDie (memClass inst.toNat) = true) ∧ (memClass inst.toNat ≠ 3) ∧ (s.mode ≠ .standby) ∧ (s.validAt inst.toNat addr.toNat = true) ∧ ((inst.toNat, addr.toNat) ∉ s.hbm.poison)) ∧
    (∃ (inst : BitVec 12) (addr : BitVec 40) (s : State) (how : SpareKind), ((inst.toNat, addr.toNat) ∈ s.hbm.hard) ∧ (s.kiln.perm.length < 16384) ∧ (how = .row ∨ how = .column) ∧ (memClass inst.toNat ≠ 0)) ∧
    (∃ (inst : BitVec 12) (addr : BitVec 40) (s : State), ((inst.toNat, addr.toNat) ∈ s.hbm.hard) ∧ (s.kiln.perm.length < 16384) ∧ (memClass inst.toNat = 0) ∧ (s.mayGoOffline (pcGroup (memIndex inst.toNat)) = true)) ∧
    (∃ (inst : BitVec 12) (addr : BitVec 40) (s : State) (m : _) (j : _), ((inst.toNat, addr.toNat) ∈ s.hbm.hard) ∧ (s.kiln.perm.length < 16384) ∧ (memClass inst.toNat = 0) ∧ (s.hbmUnit (memIndex inst.toNat) addr.toNat = some (m, j)) ∧ (j < 4793490) ∧ ((pcGroup (memIndex inst.toNat), segmentOf j) ∉ s.bpm.withdrawn)) :=
  ⟨⟨127, 7, { up .forward with hbm := { segs := [(15, 0)] } }, (by decide +kernel), (by decide +kernel), (by decide +kernel), (by decide +kernel)⟩,
    ⟨127, 7, { up .forward with hbm := { segs := [(15, 0)], logs := ⟨[(127, [{ addr := 7, syndrome := 1, rep := 2 }])]⟩ } }, { addr := 7, syndrome := 1, rep := 2 }, (by decide +kernel), (by decide +kernel), (by decide +kernel)⟩,
    ⟨127, 7, up .forward, (by decide +kernel)⟩,
    ⟨3, 0, 7, none, (up .forward).setReg .hbmScrubCtrl 0 0 1, (by decide +kernel), (by decide +kernel), (by decide +kernel), (by decide +kernel), (by decide +kernel), (by decide +kernel), (by decide +kernel)⟩,
    ⟨3, 0, 7, { (up .forward).setReg .hbmScrubCtrl 0 0 1 with hbm := { segs := [(3, 0)] } }, (by decide +kernel), (by decide +kernel), (by decide +kernel), (by decide +kernel), (by decide +kernel), (by decide +kernel), (by decide +kernel), (by decide +kernel)⟩,
    ⟨3, 0, 7, [], { (up .forward).setReg .hbmScrubCtrl 0 0 1 with hbm := { segs := [(3, 0)] }, units := { groups := ⟨[(3, { offline := some 2 })]⟩ } }, (by decide +kernel), (by decide +kernel), (by decide +kernel), (by decide +kernel), (by decide +kernel), (by decide +kernel), (by decide +kernel), (by decide +kernel), (by decide +kernel)⟩,
    ⟨(up .forward).setReg .hbmScrubCtrl 0 0 0, (Or.inl (by decide +kernel))⟩,
    ⟨0x500, 7, up .forward, (by decide +kernel), (by decide +kernel), (by decide +kernel), (by decide +kernel), (by decide +kernel), (by decide +kernel)⟩,
    ⟨0x500, 7, { up .forward with hbm := { hard := [(0x500, 7)] } }, .row, (by decide +kernel), (by decide +kernel), (Or.inl rfl), (by decide +kernel)⟩,
    ⟨127, 7, { up .forward with hbm := { hard := [(127, 7)] } }, (by decide +kernel), (by decide +kernel), (by decide +kernel), (by decide +kernel)⟩,
    ⟨127, 7, { up .forward with hbm := { hard := [(127, 7)] } }, 7, 7, (by decide +kernel), (by decide +kernel), (by decide +kernel), (by decide +kernel), (by decide +kernel), (by decide +kernel)⟩⟩

theorem witness_StackErrorsAndMembersAreHandled :
    (∃ (pc : Fin 128) (addr : Nat) (s : State), (s.hbmUnit pc addr = none ∨ s.validAt pc addr = false)) ∧
    (∃ (pc : Fin 128) (addr : Nat) (m : Nat) (j : Nat) (s : State), (s.hbmUnit pc addr = some (m, j)) ∧ (s.validAt pc addr = true) ∧ (s.hbm.bad.contains (memberPc (pcGroup pc) m, j) = false)) ∧
    (∃ (pc : Fin 128) (addr : Nat) (m : Nat) (j : Nat) (s : State), (s.hbmUnit pc addr = some (m, j)) ∧ (s.validAt pc addr = true) ∧ (s.hbm.bad.contains (memberPc (pcGroup pc) m, j) = false) ∧ ((s.stripeLost (pcGroup pc) j).all (· = m) = true)) ∧
    (∃ (pc : Fin 128) (addr : Nat) (m : Nat) (j : Nat) (s : State), (s.hbmUnit pc addr = some (m, j)) ∧ (s.validAt pc addr = true)) ∧
    (∃ (pc : Fin 128) (addr : Nat) (m : Nat) (j : Nat) (s : State), (s.hbmUnit pc addr = some (m, j)) ∧ (s.validAt pc addr = true)) ∧
    (∃ (pc : Fin 128) (s : State), (s.mayGoOffline (pc.val % 16) = true) ∧ (s.mode ≠ .standby)) ∧
    (∃ (pc : Fin 128) (s : State), ((s.group (pc.val % 16)).offline = some (pc.val / 16)) ∧ ((s.group (pc.val % 16)).tries < 2)) ∧
    (∃ (g : Slice) (s : State), ((s.group g).state = 1)) ∧
    (∃ (g : Slice) (s : State), ((s.group g).state = 3)) :=
  ⟨⟨127, 7, up .forward, (Or.inr (by decide +kernel))⟩,
    ⟨127, 7, 7, 7, { up .forward with hbm := { segs := [(15, 0)] } }, (by decide +kernel), (by decide +kernel), (by decide +kernel)⟩,
    ⟨127, 7, 7, 7, { up .forward with hbm := { segs := [(15, 0)] } }, (by decide +kernel), (by decide +kernel), (by decide +kernel), (by decide +kernel)⟩,
    ⟨127, 7, 7, 7, { up .forward with hbm := { segs := [(15, 0)] } }, (by decide +kernel), (by decide +kernel)⟩,
    ⟨127, 7, 7, 7, { up .forward with hbm := { segs := [(15, 0)] } }, (by decide +kernel), (by decide +kernel)⟩,
    ⟨127, up .forward, (by decide +kernel), (by decide +kernel)⟩,
    ⟨35, { up .forward with units := { groups := ⟨[(3, { offline := some 2, tries := 1 })]⟩ } }, (by decide +kernel), (by decide +kernel)⟩,
    ⟨3, { up .forward with units := { groups := ⟨[(3, { state := 1, failed1 := some 2 })]⟩ } }, (by decide +kernel)⟩,
    ⟨3, { up .forward with units := { groups := ⟨[(3, { state := 3, failed1 := some 2, failed2 := some 4 })]⟩ } }, (by decide +kernel)⟩⟩

theorem witness_FaultEventsAreCountedAndClassified :
    (∃ (n : Nat) (s : State), (sourceKind n = .retirable) ∧ ((s.fsrc n).retired = false) ∧ ((s.fsrc n).perm = false)) ∧
    (∃ (n : Nat) (count : Nat) (s : State), (sourceKind n = .countOnly) ∧ ((s.fsrc n).retired = false) ∧ (1 ≤ count)) ∧
    (∃ (n : Nat) (s : State), (n ∉ s.flt.queue) ∧ (∀ a ∈ s.flt.queue, (s.fsrc a).permCycle ≤ (s.fsrc n).permCycle) ∧ (s.flt.queue.Pairwise (fun a b => (s.fsrc a).permCycle < (s.fsrc b).permCycle ∨ ((s.fsrc a).permCycle = (s.fsrc b).permCycle ∧ a < b)))) ∧
    (∃ (n : Nat) (s : State), (s.mayRetire n = true)) ∧
    (∃ (n : Nat) (s : State), ((s.fsrc n).holdEnd ≠ 0)) ∧
    (∃ (n : Nat) (s : State), ((s.fsrc n).retired = true)) ∧
    (∃ (v : BitVec 64) (s : State) (n : _), (s.reachable .fltInject = true) ∧ (s.mode = .factoryTest) ∧ (bitOf 63 v.toNat = true) ∧ (bitsOf 51 48 v.toNat ≠ 0) ∧ (bitsOf 42 32 v.toNat = n) ∧ (bitsOf 62 60 v.toNat = 1) ∧ (sourceKind n = .retirable) ∧ ((s.fsrc n).retired = false)) ∧
    (∃ (v : BitVec 64) (s : State) (n : _), (s.reachable .fltInject = true) ∧ (s.mode = .factoryTest) ∧ (bitOf 63 v.toNat = true) ∧ (bitsOf 51 48 v.toNat ≠ 0) ∧ (bitsOf 42 32 v.toNat = n) ∧ (bitsOf 62 60 v.toNat = 2) ∧ (corruptible n = true)) ∧
    (∃ (v : BitVec 64) (s : State) (n : _), (s.reachable .fltInject = true) ∧ (s.mode = .factoryTest) ∧ (bitOf 63 v.toNat = true) ∧ (bitsOf 51 48 v.toNat ≠ 0) ∧ (bitsOf 42 32 v.toNat = n) ∧ (bitsOf 62 60 v.toNat = 3) ∧ (sourceKind n = .critical) ∧ (n ∉ s.flt.lines)) :=
  ⟨⟨17, up .forward, (by decide +kernel), (by decide +kernel), (by decide +kernel)⟩,
    ⟨0x30, 1, up .forward, (by decide +kernel), (by decide +kernel), (by decide +kernel)⟩,
    ⟨0x40, { up .forward with flt := { queue := [5], src := ⟨[(0x40, { permCycle := 3 })]⟩ } }, (by decide +kernel), (by decide +kernel), (by decide +kernel)⟩,
    ⟨0x40, { up .forward with flt := { queue := [0x40] } }, (by decide +kernel)⟩,
    ⟨0x40, (up .forward).setFsrc 0x40 { holdEnd := 5, count := 3 }, (by decide +kernel)⟩,
    ⟨0x40, (up .forward).setFsrc 0x40 { retired := true }, (by decide +kernel)⟩,
    ⟨0x9001004000000000, up .factoryTest, 0x40, (by decide +kernel), (by decide +kernel), (by decide +kernel), (by decide +kernel), (by decide +kernel), (by decide +kernel), (by decide +kernel), (by decide +kernel)⟩,
    ⟨0xa001003100000000, up .factoryTest, 0x31, (by decide +kernel), (by decide +kernel), (by decide +kernel), (by decide +kernel), (by decide +kernel), (by decide +kernel), (by decide +kernel)⟩,
    ⟨0xb00104a000000000, up .factoryTest, 0x4A0, (by decide +kernel), (by decide +kernel), (by decide +kernel), (by decide +kernel), (by decide +kernel), (by decide +kernel), (by decide +kernel), (by decide +kernel)⟩⟩

theorem witness_CriticalFaultsSquelchAndEnterSafe :
    (∃ (n : Nat) (s : State), (sourceKind n = .critical) ∧ (n ∉ s.flt.lines) ∧ (s.mode ≠ .reset)) ∧
    (∃ (n : Nat) (s : State), (sourceKind n = .critical) ∧ (n ∉ s.flt.lines) ∧ (s.mode = .reset)) :=
  ⟨⟨0x4A0, up .forward, (by decide +kernel), (by decide +kernel), (by decide +kernel)⟩,
    ⟨0x4F4, State.reset, (by decide +kernel), (by decide +kernel), (by decide +kernel)⟩⟩

theorem witness_InterruptsArePendedClaimedAndCompleted :
    (∃ (n : Nat), ((1 ≤ n ∧ n ≤ 1024) ∨ n = 1281 ∨ n = 1282 ∨ (1285 ≤ n ∧ n ≤ 1287) ∨ (1409 ≤ n ∧ n ≤ 1536))) ∧
    (∃ (n : Nat), (1025 ≤ n) ∧ (n ≤ 1280)) ∧
    (∃ (s : State), ((s.intSrc 1283).input = false)) ∧
    (∃ (x : Fin 66) (s : State), (s.notifyCond x = true) ∧ ((s.intCtx x).notified = false)) ∧
    (∃ (a : EicAgent) (x : Fin 66) (n : Nat) (s : State), (match a with | .host f => ctxVisible f x = true ∧ 2 ≤ x.val | .core k => x.val = k.val) ∧ (s.ctxAuto x = false) ∧ (s.winner x = some n) ∧ (1 ≤ n) ∧ (n ≤ 1920)) ∧
    (∃ (a : EicAgent) (x : Fin 66) (n : BitVec 11), (match a with | .host f => ctxVisible f x = true ∧ 2 ≤ x.val | .core k => x.val = k.val) ∧ (1 ≤ n.toNat) ∧ (n.toNat ≤ 1920)) ∧
    (∃ (req : Requester) (v : Fin 32), (v.val < msixCount req)) :=
  ⟨⟨1536, (by decide +kernel)⟩,
    ⟨1280, (by decide +kernel), (by decide +kernel)⟩,
    ⟨up .config, (by decide +kernel)⟩,
    ⟨2, (({ up .forward with eic := { src := ⟨[(5, { edge := true })]⟩ } }).setReg .eicSrcCfg 0 5 0x83020000), (by decide +kernel), (by decide +kernel)⟩,
    ⟨.host .pf0, 33, 5, (({ up .forward with eic := { src := ⟨[(5, { edge := true })]⟩ } }).setReg .eicSrcCfg 0 5 0x83210000), (by decide +kernel), (by decide +kernel), (by decide +kernel), (by decide +kernel), (by decide +kernel)⟩,
    ⟨.core 1, 1, 1920, (by decide +kernel), (by decide +kernel), (by decide +kernel)⟩,
    ⟨(.pf .pf0), 0, (by decide +kernel)⟩⟩

theorem witness_MailboxRequestsAreAnswered :
    (∃ (f : Fn) (s : State), (s.reachable .mbxCtrl = true) ∧ ((s.mailbox f).running = none)) ∧
    (∃ (f : Fn) (q : Bytes) (b : Bytes) (s : State), ((s.mailbox f).running = some q) ∧ ((s.mailbox f).ready = some b)) ∧
    (∃ (f : Fn) (q : Bytes) (s : State), (s.mailRuns f 0x0001 = some q) ∧ (mailClean q [] = true) ∧ (s.mailMode 0x0001 notReset = true)) ∧
    (∃ (f : Fn) (q : Bytes) (s : State), (s.mailRuns f 0x0002 = some q) ∧ (f ≠ .pf1) ∧ (mailClean q [] = true) ∧ (512 ≤ mailLen q) ∧ (s.mailMode 0x0002 notReset = true)) ∧
    (∃ (f : Fn) (q : Bytes) (s : State), (s.mailRuns f 0x0020 = some q) ∧ (f ≠ .pf1) ∧ (byteAt q 0x18 = 2) ∧ (mailClean q [0x18, 0x1C, 0x1D, 0x1E, 0x1F, 0x20, 0x21, 0x22, 0x23] = true) ∧ (18028 ≤ mailLen q) ∧ (zeroAt q 0x1C 8 = true) ∧ (s.mailMode 0x0020 notReset = true)) ∧
    (∃ (q : Bytes) (s : State), (s.mailRuns .pf0 0x0040 = some q) ∧ (mailClean q [0x18, 0x19, 0x1A, 0x1B, 0x1C] = true) ∧ (byteAt q 0x18 ≤ 127) ∧ (byteAt q 0x19 ≤ 127) ∧ (byteAt q 0x1A = 1) ∧ (1 ≤ byteAt q 0x1C) ∧ (byteAt q 0x1C ≤ 128) ∧ (byteAt q 0x1C ≤ mailLen q) ∧ (s.mailMode 0x0040 upModes = true) ∧ ((s.port (byteAt q 0x18)).present = true)) ∧
    (∃ (q : Bytes) (s : State), (s.mailRuns .pf0 0x0041 = some q) ∧ (mailClean q [0x18, 0x19, 0x1A, 0x1B, 0x1C, 0x1D, 0x1E, 0x1F] = true) ∧ (byteAt q 0x18 ≤ 15) ∧ (byteAt q 0x19 ≤ 31) ∧ (byteAt q 0x1A ≤ 31) ∧ (byteAt q 0x1B = 0) ∧ (s.mailMode 0x0041 upModes = true)) ∧
    (∃ (q : Bytes) (s : State), (s.mailRuns .pf0 0x0050 = some q) ∧ (mailClean q [0x18, 0x19, 0x1A, 0x1B, 0x1C, 0x1D, 0x1E, 0x1F] = true) ∧ (byteAt q 0x18 ≤ 3) ∧ (1 ≤ byteAt q 0x19) ∧ (byteAt q 0x19 ≤ 64) ∧ (1 ≤ leAt q 0x1C 4) ∧ (leAt q 0x1C 4 ≤ 60000) ∧ (mailAddr q % 65536 = 0) ∧ (byteAt q 0x19 * 65536 ≤ mailLen q) ∧ ((s.ringIs (leAt q 0x1A 2) 5 .pf0 || s.ringIs (leAt q 0x1A 2) 5 .pf2) = true) ∧ (s.mailMode 0x0050 upOrStandby = true)) :=
  ⟨⟨.pf0, up .config, (by decide +kernel), (by decide +kernel)⟩,
    ⟨.pf0, (req 1 0 []), zeros 64, { up .config with mgt := { mbx := ⟨[(0, { running := some (req 1 0 []), ready := some (zeros 64) })]⟩ } }, (by decide +kernel), (by decide +kernel)⟩,
    ⟨.pf1, (req 1 0 []), { up .config with mgt := { mbx := ⟨[(1, { running := some (req 1 0 []) })]⟩ } }, (by decide +kernel), (by decide +kernel), (by decide +kernel)⟩,
    ⟨.pf2, (req 2 512 []), { up .config with mgt := { mbx := ⟨[(2, { running := some (req 2 512 []) })]⟩ } }, (by decide +kernel), (by decide +kernel), (by decide +kernel), (by decide +kernel), (by decide +kernel)⟩,
    ⟨.pf0, (req 0x20 18028 [2]), { up .config with mgt := { mbx := ⟨[(0, { running := some (req 0x20 18028 [2]) })]⟩ } }, (by decide +kernel), (by decide +kernel), (by decide +kernel), (by decide +kernel), (by decide +kernel), (by decide +kernel), (by decide +kernel)⟩,
    ⟨(req 0x40 128 [127, 127, 1, 0, 128]), { up .forward with mgt := { mbx := ⟨[(0, { running := some (req 0x40 128 [127, 127, 1, 0, 128]) })]⟩ }, prt := ⟨[(127, { present := true })]⟩ }, (by decide +kernel), (by decide +kernel), (by decide +kernel), (by decide +kernel), (by decide +kernel), (by decide +kernel), (by decide +kernel), (by decide +kernel), (by decide +kernel), (by decide +kernel)⟩,
    ⟨(req 0x41 0 [15, 31, 31, 0]), { up .config with mgt := { mbx := ⟨[(0, { running := some (req 0x41 0 [15, 31, 31, 0]) })]⟩ } }, (by decide +kernel), (by decide +kernel), (by decide +kernel), (by decide +kernel), (by decide +kernel), (by decide +kernel), (by decide +kernel)⟩,
    ⟨(req 0x50 4194304 [3, 64, 5, 0, 0x60, 0xEA]), ({ up .config with mgt := { mbx := ⟨[(0, { running := some (req 0x50 4194304 [3, 64, 5, 0, 0x60, 0xEA]) })]⟩ } }).setRing 5 (rg 5), (by decide +kernel), (by decide +kernel), (by decide +kernel), (by decide +kernel), (by decide +kernel), (by decide +kernel), (by decide +kernel), (by decide +kernel), (by decide +kernel), (by decide +kernel), (by decide +kernel)⟩⟩

theorem witness_FirmwareIsStagedAndActivated :
    (∃ (q : Bytes) (b : Bytes) (s : State), (s.mailRuns .pf0 0x0010 = some q) ∧ (mailClean q [] = true) ∧ (s.mailMode 0x0010 upOrStandby = true) ∧ (mailLen q ≤ 7 * 2 ^ 20) ∧ (byteAt (sliceOf b 0 (mailLen q)) 0x0D = 2) ∧ (s.checkImage (sliceOf b 0 (mailLen q)) true = .valid) ∧ (s.mgt.staged = none)) ∧
    (∃ (q : Bytes) (y : Slot) (s : State), (s.mailRuns .pf0 0x0010 = some q) ∧ (s.mgt.staged = some y)) ∧
    (∃ (q : Bytes) (x : Bool) (s : State), (s.mailRuns .pf0 0x0011 = some q) ∧ (mailClean q [0x18] = true) ∧ (byteAt q 0x18 = boolBit x) ∧ ((s.boot.slot x).state = .valid ∨ s.boot.run = some x) ∧ (s.mailMode 0x0011 upOrStandby = true)) ∧
    (∃ (q : Bytes) (b : Bytes) (s : State) (u : State), (s.mailRuns .pf0 0x0060 = some q) ∧ (mailClean q [0x18] = true) ∧ (byteAt q 0x18 = 1 ∨ byteAt q 0x18 = 2) ∧ (s.mailMode 0x0060 (fun m => m = .config) = true) ∧ (s.seqIdle = true) ∧ (byteAt b 2 = byteAt q 0x18) ∧ (s.loadBundle b = some u)) :=
  ⟨⟨(req 0x10 608 []), image, { up .config with mgt := { mbx := ⟨[(0, { running := some (req 0x10 608 []) })]⟩ } }, (by decide +kernel), (by decide +kernel), (by decide +kernel), (by decide +kernel), (by decide +kernel), (by decide +kernel), (by decide +kernel)⟩,
    ⟨(req 0x10 608 []), { state := .valid, svn := 5 }, { up .config with mgt := { mbx := ⟨[(0, { running := some (req 0x10 608 []) })]⟩, boot := { b := { state := .staging } }, staged := some { state := .valid, svn := 5 } } }, (by decide +kernel), (by decide +kernel)⟩,
    ⟨(req 0x11 0 []), false, { up .config with mgt := { mbx := ⟨[(0, { running := some (req 0x11 0 []) })]⟩ } }, (by decide +kernel), (by decide +kernel), (by decide +kernel), (by decide +kernel), (by decide +kernel)⟩,
    ⟨(req 0x60 0 [1]), bundle, { up .config with mgt := { mbx := ⟨[(0, { running := some (req 0x60 0 [1]) })]⟩ } }, (({ up .config with mgt := { mbx := ⟨[(0, { running := some (req 0x60 0 [1]) })]⟩ } }).loadBundle bundle).getD State.reset, (by decide +kernel), (by decide +kernel), (by decide +kernel), (by decide +kernel), (by decide +kernel), (by decide +kernel), (by decide +kernel)⟩⟩

theorem witness_FuseRequestsWaitAndBlow :
    (∃ (i : Instr) (f : Fn) (id : Nat) (q : Bytes) (s : State), ((i, f, id) ∈ [(Instr.fuseBypassDisable .pf1, Fn.pf1, 3), (.fuseDebugLock .pf0, .pf0, 4), (.fuseFtLockout .pf0, .pf0, 5), (.fuseDomainLock .pf0, .pf0, 6), (.fuseAssetTag .pf0, .pf0, 7)]) ∧ (s.mailRuns f 0x0030 = some q) ∧ (byteAt q 0x18 = id) ∧ (byteAt q 0x19 = id ^^^ 0xA5) ∧ (mailClean q [0x18, 0x19, 0x1A, 0x20, 0x21, 0x22, 0x23, 0x24, 0x25, 0x26, 0x27] = true) ∧ (if id = 6 then byteAt q 0x1A ≤ 15 else byteAt q 0x1A = 0) ∧ (id = 7 → leAt q 0x20 8 ≠ 0 ∧ s.fuses.assets.length < 4) ∧ (id = 6 → s.domainLockOk (byteAt q 0x1A) = true) ∧ (s.mode = .config) ∧ (s.rst.recovery = false) ∧ (s.fuses.blown id (byteAt q 0x1A) = false) ∧ (s.fuseHold = false)) ∧
    (∃ (q : Bytes) (s : State), (s.mailRuns .pf0 0x0012 = some q) ∧ (mailClean q [] = true) ∧ (s.rst.recovery = false) ∧ (s.mode = .config ∨ s.mode = .forward) ∧ (s.boot.trial = false) ∧ (s.fuses.arb < s.boot.running.svn) ∧ (s.fuseHold = false)) ∧
    (∃ (r : Ring) (d : Bytes) (s : State), (Executing s r 0x0065 d) ∧ (s.fuses.kekLeft ≠ 0) ∧ (∀ o ∈ s.fuses.ops, ¬ (o.id = 2 ∧ o.ring = r.val))) ∧
    (∃ (o : FuseOp) (rest : List FuseOp) (f : Fn) (q : Bytes) (s : State), (s.fuses.ops = o :: rest) ∧ (o.mailbox = some f) ∧ ((s.mailbox f).fuse = true) ∧ ((s.mailbox f).running = some q) ∧ (s.fuseHold = false) ∧ (o.id = 6 → s.domainLockOk o.index = true) ∧ (o.id ≠ 2)) ∧
    (∃ (o : FuseOp) (rest : List FuseOp) (r : Ring) (d : Bytes) (s : State), (s.fuses.ops = o :: rest) ∧ (o.mailbox = none) ∧ (o.id = 2) ∧ (o.ring = r.val) ∧ (Executing s r 0x0065 d) ∧ (s.fuseHold = false) ∧ (s.fuses.kekLeft ≠ 0)) :=
  ⟨⟨.fuseDomainLock .pf0, .pf0, 6, (req 0x30 0 [6, 0xA3, 15]), { up .config with mgt := { mbx := ⟨[(0, { running := some (req 0x30 0 [6, 0xA3, 15]) })]⟩ } }, (by decide +kernel), (by decide +kernel), (by decide +kernel), (by decide +kernel), (by decide +kernel), (by decide +kernel), (fun h => absurd h (by decide)), (by decide +kernel), (by decide +kernel), (by decide +kernel), (by decide +kernel), (by decide +kernel)⟩,
    ⟨(req 0x12 0 []), { up .config with mgt := { mbx := ⟨[(0, { running := some (req 0x12 0 []) })]⟩, boot := { run := some false, a := { svn := 5 } } } }, (by decide +kernel), (by decide +kernel), (by decide +kernel), (by decide +kernel), (by decide +kernel), (by decide +kernel), (by decide +kernel)⟩,
    ⟨5, cmd 0x65, ex (cmd 0x65), (⟨by decide +kernel, _, rfl, by decide⟩), (by decide +kernel), (by decide +kernel)⟩,
    ⟨⟨6, 15, 0, some .pf0, 0⟩, [], .pf0, (req 0x30 0 [6, 0xA3, 15]), { up .config with fuses := { ops := [⟨6, 15, 0, some .pf0, 0⟩] }, mgt := { mbx := ⟨[(0, { running := some (req 0x30 0 [6, 0xA3, 15]), fuse := true })]⟩ } }, (by decide +kernel), (by decide +kernel), (by decide +kernel), (by decide +kernel), (by decide +kernel), (by decide +kernel), (by decide +kernel)⟩,
    ⟨⟨2, 0, 0, none, 5⟩, [], 5, cmd 0x65, { ex (cmd 0x65) with fuses := { ops := [⟨2, 0, 0, none, 5⟩] } }, (by decide +kernel), (by decide +kernel), (by decide +kernel), (by decide +kernel), (⟨by decide +kernel, _, rfl, by decide⟩), (by decide +kernel), (by decide +kernel)⟩⟩

theorem witness_KilnRecordAndHealth :
    (∃ (s : State), (s.rst.ewethes = true) ∧ (s.kiln.buffer.length ≤ 1008)) ∧
    (∃ (s : State), (s.rst.ewethes = true) ∧ (126 ≤ s.kiln.buffer.length)) ∧
    (∃ (failing : List Nat) (s : State), (s.rst.ewethes = true) ∧ (126 ≤ s.kiln.buffer.length) ∧ (s.kiln.next ∈ failing) ∧ (s.kiln.badPages = []) ∧ (s.kiln.perm.length < 16384)) ∧
    (∃ (s : State), (s.rst.ewethes = true)) ∧
    (∃ (r : Readings) (s : State), (s.rst.ewethes = true) ∧ (r.thermal.length = 64)) ∧
    (∃ (c : Telemetry) (s : State), (s.mgt.telemetry = some c) ∧ (s.rst.ewethes = true)) ∧
    (∃ (s : State), (s.domain 1 = .ready)) ∧
    (∃ (s : State), (s.rst.ewethes = true)) ∧
    (∃ (q : Int) (s : State), (s.mgt.alarm = false) ∧ (400 ≤ q)) ∧
    (∃ (k : Fin 64) (q : Int) (s : State), (s.mgt.alarm = true) ∧ (q < 388) ∧ (∀ i, i < 64 → i ≠ k.val → s.thermal i < 388)) :=
  ⟨⟨{ up .forward with kiln := { buffer := List.replicate 126 ⟨1, 0, false, 0, 0, []⟩ } }, (by decide +kernel), (by decide +kernel)⟩,
    ⟨{ up .forward with kiln := { buffer := List.replicate 126 ⟨1, 0, false, 0, 0, []⟩ } }, (by decide +kernel), (by decide +kernel)⟩,
    ⟨[128, 129], { up .forward with kiln := { buffer := List.replicate 126 ⟨1, 0, false, 0, 0, []⟩ } }, (by decide +kernel), (by decide +kernel), (by decide +kernel), (by decide +kernel), (by decide +kernel)⟩,
    ⟨up .config, (by decide +kernel)⟩,
    ⟨⟨List.replicate 64 100, [], []⟩, up .config, (by decide +kernel), (by decide +kernel)⟩,
    ⟨⟨0, 1, 5, 1000, false, 0, 0⟩, { (up .forward).setRing 5 (rg 5) with mgt := { telemetry := some ⟨0, 1, 5, 1000, false, 0, 0⟩ } }, (by decide +kernel), (by decide +kernel)⟩,
    ⟨{ State.reset with rst := { dom := ⟨[(1, .ready)]⟩ } }, (by decide +kernel)⟩,
    ⟨up .config, (by decide +kernel)⟩,
    ⟨400, up .forward, (by decide +kernel), (by decide +kernel)⟩,
    ⟨63, 387, { up .forward with mgt := { alarm := true } }, (by decide +kernel), (by decide +kernel), (by decide +kernel)⟩⟩

theorem witness_ModesChangeAndBlocksAreReset :
    (∃ (r : Ring) (d : Bytes) (s : State), (Executing s r 0x0080 d) ∧ (s.mode = .config) ∧ (s.parseReady = true)) ∧
    (∃ (r : Ring) (d : Bytes) (s : State), (Executing s r 0x0081 d) ∧ (s.mode = .forward)) ∧
    (∃ (s : State), (s.mode = .drain) ∧ (s.gen.refs = .empty)) ∧
    (∃ (r : Ring) (d : Bytes) (s : State), (Executing s r 0x0082 d) ∧ (s.mode = .config)) ∧
    (∃ (s : State), (s.mode = .standby) ∧ (s.wakeSource = true)) ∧
    (∃ (r : Ring) (d : Bytes) (s : State), (Executing s r 0x0083 d) ∧ (s.mode = .safe)) ∧
    (∃ (s : State), (s.rst.safeStaged ≠ 0)) ∧
    (∃ (r : Ring) (d : Bytes) (s : State), (Executing s r 0x0066 d) ∧ (s.mode = .safe) ∧ (s.now < s.rst.safeStaged) ∧ (∀ n ∈ s.flt.lines, sourceKind n = .critical → measuredLine n = true)) ∧
    (∃ (n : Fin 4) (k : Fin 32) (s : State), (s.reachable .rstBlkPort = true) ∧ (s.mode = .config ∨ s.mode = .forward ∨ s.mode = .drain) ∧ ((s.port (32 * n.val + k.val)).link = .disabled) ∧ ((32 * n.val + k.val) ∉ s.rst.blocks)) ∧
    (∃ (k : Slice) (s : State), (s.reachable .rstBlkSlice = true) ∧ (s.mode = .config ∨ s.mode = .forward ∨ s.mode = .drain) ∧ (s.sliceIdle k = true) ∧ ((128 + k.val) ∉ s.rst.blocks)) ∧
    (∃ (n : Fin 4) (k : Fin 32) (s : State), (s.reachable .rstBlkPort = true) ∧ ((s.port (32 * n.val + k.val)).link ≠ .disabled)) ∧
    (∃ (p : Port) (s : State), (p.val ∈ s.rst.blocks)) ∧
    (∃ (i : Slice) (s : State), ((128 + i.val) ∈ s.rst.blocks)) :=
  ⟨⟨5, cmd 0x80, ex (cmd 0x80), (⟨by decide +kernel, _, rfl, by decide⟩), (by decide +kernel), (by decide +kernel)⟩,
    ⟨5, cmd 0x81, { ex (cmd 0x81) with mode := .forward }, (⟨by decide +kernel, _, rfl, by decide⟩), (by decide +kernel)⟩,
    ⟨up .drain, (by decide +kernel), (by decide +kernel)⟩,
    ⟨5, cmd 0x82, ex (cmd 0x82), (⟨by decide +kernel, _, rfl, by decide⟩), (by decide +kernel)⟩,
    ⟨(({ up .standby with eic := { src := ⟨[(5, { edge := true })]⟩ } }).setReg .eicSrcCfg 0 5 0x83020000), (by decide +kernel), (by decide +kernel)⟩,
    ⟨5, cmd 0x83, { ex (cmd 0x83) with mode := .safe }, (⟨by decide +kernel, _, rfl, by decide⟩), (by decide +kernel)⟩,
    ⟨{ up .safe with rst := { (up .safe).rst with safeStaged := 5 } }, (by decide +kernel)⟩,
    ⟨5, cmd 0x66, { ({ ex (cmd 0x66) with mode := .safe } : State) with rst := { (({ ex (cmd 0x66) with mode := .safe } : State)).rst with safeStaged := 5 } }, (⟨by decide +kernel, _, rfl, by decide⟩), (by decide +kernel), (by decide +kernel), (by decide +kernel)⟩,
    ⟨3, 31, up .config, (by decide +kernel), (by decide +kernel), (by decide +kernel), (by decide +kernel)⟩,
    ⟨15, up .config, (by decide +kernel), (by decide +kernel), (by decide +kernel), (by decide +kernel)⟩,
    ⟨3, 31, { up .forward with prt := ⟨[(127, { link := .training })]⟩ }, (by decide +kernel), (by decide +kernel)⟩,
    ⟨127, { up .forward with rst := { (up .forward).rst with blocks := [127] } }, (by decide +kernel)⟩,
    ⟨15, { up .forward with rst := { (up .forward).rst with blocks := [143] } }, (by decide +kernel)⟩⟩

theorem witness_ResetSourcesResetTheirDomains :
    (∃ (n : Nat) (s : State), (4 ≤ n) ∧ (s.rst.resetN = false) ∧ (s.rst.stalled = false) ∧ (s.rst.loading = false)) ∧
    (∃ (s : State), (s.rst.perst = false)) ∧
    (∃ (s : State), (s.reachable .rstDevice = true)) ∧
    (∃ (w : Nat) (s : State), (s.mgt.warned = some w)) ∧
    (∃ (s : State), (s.domain 3 = .ready) ∧ (s.mgt.warned = none)) ∧
    (∃ (s : State), (s.domain 4 = .ready)) ∧
    (∃ (s : State), (s.domain 4 = .ready)) :=
  ⟨⟨4, up .forward, (by decide +kernel), (by decide +kernel), (by decide +kernel), (by decide +kernel)⟩,
    ⟨up .forward, (by decide +kernel)⟩,
    ⟨up .forward, (by decide +kernel)⟩,
    ⟨1, { up .forward with mgt := { warned := some 1 } }, (by decide +kernel)⟩,
    ⟨up .forward, (by decide +kernel), (by decide +kernel)⟩,
    ⟨up .forward, (by decide +kernel)⟩,
    ⟨up .forward, (by decide +kernel)⟩⟩

theorem witness_DomainsComeUpAndTheDeviceBoots :
    (∃ (d : Fin 8) (s : State), (s.domain (d.val + 1) = .held) ∧ (s.rst.clear (d.val + 1) = true) ∧ (d.val ≠ 0 → s.domain d.val = .ready) ∧ (3 ≤ d.val → (d.val + 1) ∈ s.rst.asked) ∧ (d.val = 1 → s.rst.stalled = false) ∧ (4 ≤ d.val → s.rst.recovery = false)) ∧
    (∃ (d : Fin 8) (s : State), (s.domain (d.val + 1) = .released) ∧ (d.val = 1 → s.rst.phase = 4)) ∧
    (∃ (s : State), (s.rst.loading = true) ∧ (s.rst.interrupted = false) ∧ (s.rst.resetN = false) ∧ (s.rst.stalled = false) ∧ (s.mayStall = false)) ∧
    (∃ (s : State), (s.rst.loading = true) ∧ (s.rst.stalled = false) ∧ (s.mayStall = true)) ∧
    (∃ (s : State), (s.rst.stalled = true) ∧ (s.rst.resetN = true)) ∧
    (∃ (s : State), (s.rst.resetN = true) ∧ (s.rst.interrupted = true)) ∧
    (∃ (s : State), (s.mode = .reset) ∧ (s.domain 1 = .ready) ∧ (s.domain 2 = .ready) ∧ (s.domain 3 = .ready) ∧ (s.rst.perst = false) ∧ (s.rst.resetN = true) ∧ (s.rst.interrupted = false) ∧ (s.flt.lines = [])) ∧
    (∃ (s : State), (s.rst.booting = true) ∧ (s.mode ≠ .reset)) ∧
    (∃ (m : Fin 48) (s : State), (s.domain (monitorDomain m) = .ready) ∧ (m.val ∉ s.rst.unmasked) ∧ (s.mode ≠ .standby)) ∧
    (∃ (a : SlotState) (b : SlotState) (s : State), (s.rst.booting = true) ∧ (s.boot.tried = false) ∧ (bootCheck (s.boot.slot s.boot.preferred) (if s.boot.preferred then b else a) s.fuses.arb = .valid)) ∧
    (∃ (a : SlotState) (b : SlotState) (s : State), (s.rst.booting = true) ∧ (s.boot.tried = false) ∧ (bootCheck s.boot.a a s.fuses.arb ≠ .valid) ∧ (bootCheck s.boot.b b s.fuses.arb ≠ .valid)) ∧
    (∃ (s : State), (s.boot.run.isSome = true) ∧ (s.rst.begun = false)) ∧
    (∃ (s : State), (s.mode = .bringup) ∧ (s.rst.begun = true) ∧ (s.domain 8 = .ready) ∧ (s.retirementsDone = true)) :=
  ⟨⟨0, State.reset, (by decide +kernel), (by decide +kernel), (by decide +kernel), (by decide +kernel), (by decide +kernel), (by decide +kernel)⟩,
    ⟨1, { State.reset with rst := { (State.reset).rst with dom := ⟨[(1, .ready), (2, .released)]⟩, phase := 4 } }, (by decide +kernel), (by decide +kernel)⟩,
    ⟨{ State.reset with rst := { (State.reset).rst with dom := ⟨[(1, .ready)]⟩, phase := 1 } }, (by decide +kernel), (by decide +kernel), (by decide +kernel), (by decide +kernel), (by decide +kernel)⟩,
    ⟨{ State.reset with rst := { (State.reset).rst with dom := ⟨[(1, .ready)]⟩, phase := 1, restarts := List.replicate 8 0 } }, (by decide +kernel), (by decide +kernel), (by decide +kernel)⟩,
    ⟨{ State.reset with rst := { (State.reset).rst with stalled := true, resetN := true } }, (by decide +kernel), (by decide +kernel)⟩,
    ⟨{ State.reset with rst := { (State.reset).rst with dom := ⟨[(1, .ready)]⟩, phase := 1, resetN := true, interrupted := true } }, (by decide +kernel), (by decide +kernel)⟩,
    ⟨{ State.reset with rst := { (State.reset).rst with dom := ⟨[(1, .ready), (2, .ready), (3, .ready)]⟩, phase := 4, resetN := true, perst := false } }, (by decide +kernel), (by decide +kernel), (by decide +kernel), (by decide +kernel), (by decide +kernel), (by decide +kernel), (by decide +kernel), (by decide +kernel)⟩,
    ⟨{ up .bringup with rst := { (up .bringup).rst with booting := true, perst := true } }, (by decide +kernel), (by decide +kernel)⟩,
    ⟨47, { up .config with rst := { (up .config).rst with unmasked := [] } }, (by decide +kernel), (by decide +kernel), (by decide +kernel)⟩,
    ⟨.valid, .empty, { up .bringup with rst := { (up .bringup).rst with booting := true } }, (by decide +kernel), (by decide +kernel), (by decide +kernel)⟩,
    ⟨.empty, .failed, { up .bringup with rst := { (up .bringup).rst with booting := true } }, (by decide +kernel), (by decide +kernel), (by decide +kernel), (by decide +kernel)⟩,
    ⟨{ State.reset with mgt := { boot := { run := some false } } }, (by decide +kernel), (by decide +kernel)⟩,
    ⟨up .bringup, (by decide +kernel), (by decide +kernel), (by decide +kernel), (by decide +kernel)⟩⟩

theorem witness_PerformanceCountersAndWindows :
    (∃ (s : State), (s.reachable .pmcCnt = true)) ∧
    (∃ (s : State), (s.reachable .pmcSnap = true)) ∧
    (∃ (s : State), (s.reachable .pmcBwCtrl = true)) ∧
    (∃ (v : BitVec 64) (s : State), (s.reachable .pmcSampCtrl = true) ∧ (s.sampleRing (bitsOf 27 16 v.toNat) = true) ∧ (bitOf 28 v.toNat = true) ∧ (anyReserved (RegName.info .pmcSampCtrl).fields (s.reg .pmcSampCtrl 0 0) v.toNat = false)) ∧
    (∃ (i : Nat) (w : PairWait) (s : State), (s.pmc.waiting.get none i = some w)) :=
  ⟨⟨up .config, (by decide +kernel)⟩,
    ⟨up .config, (by decide +kernel)⟩,
    ⟨up .config, (by decide +kernel)⟩,
    ⟨0x1010050010, (up .config).setRing 5 (rg 5), (by decide +kernel), (by decide +kernel), (by decide +kernel), (by decide +kernel)⟩,
    ⟨1048575, ⟨100, 1, 0⟩, { up .forward with pmc := { waiting := ⟨[(1048575, some ⟨100, 1, 0⟩)]⟩ } }, (by decide +kernel)⟩⟩

theorem witness_EachLinkLossStartsAFullHold :
    (∃ (p : Port) (s : State), ((s.port p).link = .up)) ∧
    (∃ (p : Port) (s : State), ((s.port p).link = .up) ∧ ((s.port p).present = true)) ∧
    (∃ (k : Fin 8) (s : State), (s.refLost.contains k.val = false)) :=
  ⟨⟨3, pt { link := .up } (up .forward), (by decide +kernel)⟩,
    ⟨3, pt { link := .up, present := true } (up .forward), (by decide +kernel), (by decide +kernel)⟩,
    ⟨7, up .config, (by decide +kernel)⟩⟩

theorem witness_EnablingEntriesWaitForTheRing :
    (∃ (req : Requester) (off : Nat) (size : Nat) (v : BitVec 64) (b : Bytes) (r : Nat) (s : State), (s.doorbellRing req off size v.toNat = some r) ∧ (bitsOf 50 48 v.toNat = 1) ∧ ((s.ring r).active = true) ∧ ((s.ring r).stopping = true) ∧ ((ctxOf b).en = true)) ∧
    (∃ (r : Ring) (c : RingCtx) (s : State), ((s.ring r).deferred = some c) ∧ ((s.ring r).active = true)) ∧
    (∃ (r : Ring) (c : RingCtx) (s : State), ((s.ring r).deferred = some c) ∧ ((s.ring r).active = false)) :=
  ⟨⟨(.pf .pf0), 40, 8, 0x0001000500000000, leBytes 8 0x10000 ++ zeros 8 ++ [1, 6, 1] ++ zeros 45, 5, (up .config).setRing 5 ({ rg 1 with stopping := true }), (by decide +kernel), (by decide +kernel), (by decide +kernel), (by decide +kernel), (by decide +kernel)⟩,
    ⟨5, (ctx 1), (up .config).setRing 5 ({ rg 1 with deferred := some (ctx 1) }), (by decide +kernel), (by decide +kernel)⟩,
    ⟨5, (ctx 1), (up .config).setRing 5 ({ deferred := some (ctx 1) }), (by decide +kernel), (by decide +kernel)⟩⟩

/-! ## Ill-formed terms, one for each check of WellFormed -/

theorem illFormed_sizes :
    (Instr.registerWrite .pf0 0 3 0).wellFormed = false ∧ (Instr.holeAccess (.bar0 .pf0) 0 16 none).wellFormed = false ∧
    (Instr.counterHalfRead .pf0 0 0).wellFormed = false ∧ (Instr.parseProgramWrite .pf0 0 0 5 0).wellFormed = false ∧
    (Instr.pmcCounterWrite .pf0 0 7 0).wellFormed = false ∧ (Instr.doorbellIndex (.pf .pf0) 0 6 0).wellFormed = false ∧
    (Instr.doorbellInvalidate (.pf .pf0) 0 9 0 none).wellFormed = false ∧
    (Instr.doorbellResume (.pf .pf0) 0 32 0).wellFormed = false := by decide

theorem illFormed_records :
    (Instr.ruleInsert 0 (some (zeros 191))).wellFormed = false ∧ (Instr.ruleModify 0 (some [])).wellFormed = false ∧
    (Instr.profileWrite 0 (some (zeros 64))).wellFormed = false ∧ (Instr.emInsert 0 (some (zeros 31))).wellFormed = false ∧
    (Instr.emModify 0 (some (zeros 33))).wellFormed = false ∧ (Instr.emDelete 0 (some [])).wellFormed = false ∧
    (Instr.emSearch 0 (some (zeros 64)) true).wellFormed = false ∧ (Instr.lpmAdd 0 (some (zeros 16))).wellFormed = false ∧
    (Instr.lpmModify 0 (some (zeros 16))).wellFormed = false ∧ (Instr.lpmDelete 0 (some (zeros 16))).wellFormed = false ∧
    (Instr.saLoad 0 (some (zeros 127))).wellFormed = false ∧ (Instr.egsClassWrite 0 (some (zeros 48))).wellFormed = false ∧
    (Instr.egsCirqWrite 0 (some (zeros 32))).wellFormed = false ∧ (Instr.cpsWrite 0 (some (zeros 64))).wellFormed = false ∧
    (Instr.polWrite 0 (some (zeros 64))).wellFormed = false ∧
    (Instr.doorbellInvalidate (.pf .pf0) 0 8 0 (some (zeros 32))).wellFormed = false ∧
    (Instr.cirWrite 0 (some (zeros 128))).wellFormed = false ∧
    (Instr.descriptorFetch 0 (.data (zeros 24))).wellFormed = false := by decide +kernel

theorem illFormed_ranges :
    (Instr.modBudgetWrite .pf0 0 0 (List.replicate 9 1)).wellFormed = false ∧
    (Instr.modulePresenceChange 0 true 16).wellFormed = false ∧ (Instr.rsaSearchResult 0 [(0, 5)]).wellFormed = false ∧
    (Instr.emLookupResult 0 5).wellFormed = false ∧ (Instr.lpmLookupResult 0 5).wellFormed = false ∧
    (Instr.counterPairFlush 1048576).wellFormed = false ∧ (Instr.frameStart 0 0 [] .whole).wellFormed = false ∧
    (Instr.hbmScrubStep 0 0 [8] [] false [.counterUnit 0] none).wellFormed = false ∧
    (Instr.hbmScrubStep 0 0 [] [8] false [.counterUnit 0] none).wellFormed = false ∧
    (Instr.hbmScrubStep 0 0 [] [] false (List.replicate 9 .deep) none).wellFormed = false ∧
    (Instr.groupRebuildDone 0 114689).wellFormed = false := by decide +kernel

theorem illFormed_sources :
    (Instr.faultEvent 1280 0 0 1).wellFormed = false ∧ (Instr.faultEvent 0 0 0 0).wellFormed = false ∧
    (Instr.retirementStart 1280).wellFormed = false ∧ (Instr.faultHoldoffEnd 4096).wellFormed = false ∧
    (Instr.criticalFault [] []).wellFormed = false ∧ (Instr.criticalFault [1280] []).wellFormed = false ∧
    (Instr.criticalFault [] [1280]).wellFormed = false ∧
    (Instr.safeExitConfirm 0 [1280]).wellFormed = false ∧ (Instr.ewethesStart [] true [1280]).wellFormed = false ∧
    (Instr.eicSourceEvent 0 true).wellFormed = false ∧ (Instr.eicPinFiltered 1921 true).wellFormed = false := by decide

theorem illFormed_readings :
    (Instr.sensorRead .pf0 ⟨[], [], []⟩ true).wellFormed = false ∧
    (Instr.telemetrySnapshot ⟨List.replicate 64 0, List.replicate 47 0, List.replicate 45 0⟩).wellFormed = false ∧
    (Instr.histogramMinute ⟨List.replicate 64 0, List.replicate 48 0, []⟩).wellFormed = false ∧
    (Instr.healthRefresh ⟨[], List.replicate 48 0, List.replicate 45 0⟩).wellFormed = false ∧
    (Instr.kilnCommit (List.replicate 15 0) [] []).wellFormed = false ∧
    (Instr.kilnCommit (List.replicate 16 0) [(256, 0)] []).wellFormed = false ∧
    (Instr.kilnCommit (List.replicate 16 0) [] [127]).wellFormed = false ∧
    (Instr.kilnLogPageWrite [4096]).wellFormed = false := by decide +kernel

theorem wellFormed_boundaries :
    (Instr.registerWrite .pf0 0 8 0).wellFormed = true ∧ (Instr.faultEvent 1279 0 0 1).wellFormed = true ∧
    (Instr.eicSourceEvent 1 true).wellFormed = true ∧ (Instr.eicPinFiltered 1920 false).wellFormed = true ∧
    (Instr.saLoad 0 none).wellFormed = true ∧ (Instr.descriptorFetch 0 (.data (zeros 16))).wellFormed = true ∧
    (Instr.rsaSearchResult 0 [(0, 4)]).wellFormed = true ∧ (Instr.modulePresenceChange 0 true 15).wellFormed = true := by
  decide +kernel

/-! ## Known answers -/

/-- The example after R546: balls of lanes 166 and 167, of sideband set 83, of slice 10 and of its reference clock. -/
theorem test_ball_names :
    ballName 86 48 = "DK48" ∧ ballAt 85 48 = some (.signal (.lane 166 .txp)) ∧ ballName 85 48 = "DJ48" ∧
    ballAt 80 49 = some (.signal (.lane 167 .rxn)) ∧ ballName 80 49 = "DD49" ∧
    ballAt 77 48 = some (.signal (.modTxdis 83)) ∧ ballName 77 48 = "DA48" ∧
    ballAt 76 49 = some (.signal (.modPrsN 83)) ∧ ballName 76 49 = "CY49" ∧
    ballAt 75 48 = some (.signal (.modIntN 83)) ∧ ballName 75 48 = "CW48" ∧
    ballAt 74 45 = some (.signal (.modSda 10)) ∧ ballName 74 45 = "CV45" ∧
    ballAt 81 76 = some (.signal (.refclk156 5 false)) ∧ ballName 81 76 = "DE76" := by decide +kernel

/-- R543 and R544: 6,272 positions hold balls. -/
theorem test_ball_count : ((List.range 87).map fun r => (List.range 87).countP fun c => populated r c).sum = 6272 := by
  decide +kernel

/-- The example after R542: the addresses that software computes. -/
theorem test_addresses :
    RegName.addr .prtCfg 83 0 = 0x853000 ∧ RegName.addr .parPortCfg 10 3 = 0x10A010C ∧
    RegName.addr .rsaTileMap 2 5 = 0x1480114 ∧ RegName.addr .glzEncMap 10 0 = 0x2401A00 ∧
    RegName.addr .genStatus 0 0 = 0x1C20000 ∧ RegName.addr .eicClaim 0 36 = 0x308900 ∧
    RegName.addr .pmcUserShadow 0 100 = 0x3D00320 := by decide +kernel

/-- The example after R542: the doorbells of rings 7, 3,600 and 3,900. -/
theorem test_doorbells :
    State.reset.doorbellRing (.pf .pf0) 0x38 8 (7 * 2 ^ 32) = some 7 ∧
    State.reset.doorbellRing (.pf .pf1) 0x1000 8 (3600 * 2 ^ 32) = some 3600 ∧
    State.reset.doorbellRing (.pf .pf2) 0x3060 8 (3900 * 2 ^ 32) = some 3900 := by decide +kernel

/-- The example after R12: 0xFFFE is older than 0x0003. -/
theorem test_older : Gen.older 0xFFFE 0x0003 = true ∧ Gen.older 0x0003 0xFFFE = false := by decide

/-- The check value of CRC-32 as Ethernet computes it, over the digits 1 to 9. -/
theorem test_crc32 : crc32 [0x31, 0x32, 0x33, 0x34, 0x35, 0x36, 0x37, 0x38, 0x39] = 0xCBF43926 := by decide +kernel

/-- The check values of CRC-16 with polynomial 0x1021 and start 0xFFFF, and of CRC-8 with polynomial 0x07, over the digits
1 to 9. -/
theorem test_cell_crcs :
    hcrc [0x31, 0x32, 0x33, 0x34, 0x35, 0x36, 0x37, 0x38, 0x39] = 0x29B1 ∧
    beatCrc [0x31, 0x32, 0x33, 0x34, 0x35, 0x36, 0x37, 0x38, 0x39] = 0xF4 := by decide +kernel

/-- FIPS 197, Appendix C.1. -/
theorem test_aes128 :
    aesBlock [0, 1, 2, 3, 4, 5, 6, 7, 8, 9, 10, 11, 12, 13, 14, 15]
      [0x00, 0x11, 0x22, 0x33, 0x44, 0x55, 0x66, 0x77, 0x88, 0x99, 0xAA, 0xBB, 0xCC, 0xDD, 0xEE, 0xFF] =
      [0x69, 0xC4, 0xE0, 0xD8, 0x6A, 0x7B, 0x04, 0x30, 0xD8, 0xCD, 0xB7, 0x80, 0x70, 0xB4, 0xC5, 0x5A] := by
  decide +kernel

/-- Test case 2 of the GCM specification: zero key, zero nonce, one zero block. -/
theorem test_gcm :
    gcmStream (zeros 16) (zeros 12) (zeros 16) =
      [0x03, 0x88, 0xDA, 0xCE, 0x60, 0xB6, 0xA3, 0x92, 0xF3, 0x28, 0xC2, 0xB9, 0x71, 0xB2, 0xFE, 0x78] ∧
    gcmTag (zeros 16) (zeros 12) [] (gcmStream (zeros 16) (zeros 12) (zeros 16)) =
      [0xAB, 0x6E, 0x47, 0xD4, 0x2C, 0xEC, 0x13, 0xBD, 0xF5, 0x3A, 0x67, 0xB2, 0x12, 0x57, 0xBD, 0xDF] := by
  decide +kernel

/-- The queue of the reset state is empty, and its first step on a command is that command's effect. -/
theorem test_reset_queue : State.reset.pending = [] ∧
    ∀ c : Instr, step (State.reset.withFetchWord 32 0) = step State.reset ∧
      step { State.reset with pending := [c] } = exec c State.reset :=
  ⟨rfl, fun _ => ⟨rfl, rfl⟩⟩

/-- Table 12.12: a command ring of 256 entries with device index 0x1FE takes a host index of 0x202. -/
theorem test_index_doorbell :
    let s := (up .config).setRing 7 { rg 1 with ctx := some { ctx 1 with log2n := 8 }, devIdx := 0x1FE, hostIdx := 0x1FE }
    (∃ t, exec (.doorbellIndex (.pf .pf0) 0x38 8 (BitVec.ofNat 64 (7 * 2 ^ 32 + 0x202))) s = .next t ∧
      (t.ring 7).hostIdx = 0x202) := by
  intro s
  exact ⟨_, rfl, by decide +kernel⟩

end Sys2Proof.Tests
end

namespace Sys2Proof.Machine

/-! Bit fields: what a field reads after a field is replaced (R8) -/

theorem testBit_bitsOf (hi lo v k : Nat) :
    (bitsOf hi lo v).testBit k = (decide (k < hi + 1 - lo) && v.testBit (lo + k)) := by
  simp only [bitsOf, Nat.testBit_mod_two_pow, Nat.testBit_div_two_pow, Nat.add_comm]

/-- A number with a field replaced, as what lies above the field, the field and what lies below it. -/
theorem withBits_eq (hi lo v x : Nat) :
    withBits hi lo v x =
      2 ^ lo * (2 ^ (hi + 1 - lo) * (v / 2 ^ lo / 2 ^ (hi + 1 - lo)) + x % 2 ^ (hi + 1 - lo)) + v % 2 ^ lo := by
  simp only [withBits, bitsOf]
  generalize hi + 1 - lo = w
  have outer := Nat.div_add_mod v (2 ^ lo)
  have inner := congrArg (2 ^ lo * ·) (Nat.div_add_mod (v / 2 ^ lo) (2 ^ w))
  simp only [Nat.mul_add] at inner ⊢
  rw [Nat.mul_comm (v / 2 ^ lo % 2 ^ w), Nat.mul_comm (x % 2 ^ w)]
  omega

theorem testBit_withBits (hi lo v x k : Nat) :
    (withBits hi lo v x).testBit k = if lo ≤ k ∧ k ≤ hi then x.testBit (k - lo) else v.testBit k := by
  rw [withBits_eq, Nat.testBit_two_pow_mul_add _ (Nat.mod_lt _ (Nat.two_pow_pos lo)),
    Nat.testBit_two_pow_mul_add _ (Nat.mod_lt _ (Nat.two_pow_pos _))]
  simp only [Nat.testBit_mod_two_pow, Nat.testBit_div_two_pow]
  by_cases below : k < lo
  · rw [if_pos below, if_neg (by omega)]
    simp [below]
  by_cases inside : k ≤ hi
  · rw [if_neg below, if_pos (by omega : k - lo < hi + 1 - lo), if_pos (by omega)]
    simp [show k - lo < hi + 1 - lo by omega]
  · rw [if_neg below, if_neg (by omega : ¬ k - lo < hi + 1 - lo), if_neg (by omega),
      show k - lo - (hi + 1 - lo) + (hi + 1 - lo) + lo = k by omega]

/-- A field that was replaced reads as it was written, within its width. -/
theorem bitsOf_withBits_same (hi lo v x : Nat) : bitsOf hi lo (withBits hi lo v x) = x % 2 ^ (hi + 1 - lo) := by
  refine Nat.eq_of_testBit_eq fun k => ?_
  rw [testBit_bitsOf, testBit_withBits, Nat.testBit_mod_two_pow]
  by_cases h : k < hi + 1 - lo
  · rw [if_pos (by omega), Nat.add_sub_cancel_left]
  · simp [h]

/-- A field that was replaced by bits of its own width reads as those bits. -/
@[simp] theorem bitsOf_withBits_bitsOf (hi lo v x : Nat) :
    bitsOf hi lo (withBits hi lo v (bitsOf hi lo x)) = bitsOf hi lo x := by
  rw [bitsOf_withBits_same, bitsOf, Nat.mod_mod]

/-- A field reads as before when one apart from it is replaced. -/
theorem bitsOf_withBits_apart {hi lo hi' lo' : Nat} (v x : Nat) (h : hi < lo' ∨ hi' < lo) :
    bitsOf hi lo (withBits hi' lo' v x) = bitsOf hi lo v := by
  refine Nat.eq_of_testBit_eq fun k => ?_
  rw [testBit_bitsOf, testBit_bitsOf, testBit_withBits]
  by_cases hk : k < hi + 1 - lo
  · rw [if_neg (by omega)]
  · simp [hk]

theorem bitsOf_bitsOf_low {hi lo top : Nat} (h : hi ≤ top) (v : Nat) : bitsOf hi lo (bitsOf top 0 v) = bitsOf hi lo v := by
  refine Nat.eq_of_testBit_eq fun k => ?_
  simp only [testBit_bitsOf, Nat.zero_add]
  by_cases hk : k < hi + 1 - lo
  · simp [show lo + k ≤ top by omega]
  · simp [hk]

/-- The lowest bit of a field of one bit is that bit. -/
theorem bitOf_eq_testBit_bitsOf (n v : Nat) : bitOf n v = (bitsOf n n v).testBit 0 := by
  rw [testBit_bitsOf, decide_eq_true (by omega), Bool.true_and]
  rfl

/-- A field that a write may put back reads as it was put back, or as before. -/
theorem bitsOf_putBack_same (c : Prop) [Decidable c] (hi lo x old : Nat) :
    bitsOf hi lo (if c then withBits hi lo x (bitsOf hi lo old) else x) =
      if c then bitsOf hi lo old else bitsOf hi lo x := by
  split
  · exact bitsOf_withBits_bitsOf _ _ _ _
  · rfl

/-- A field apart from one that a write may put back reads as before. -/
theorem bitsOf_putBack_apart (c : Prop) [Decidable c] {hi lo hi' lo' : Nat} (x y : Nat) (h : hi < lo' ∨ hi' < lo) :
    bitsOf hi lo (if c then withBits hi' lo' x y else x) = bitsOf hi lo x := by
  split
  · exact bitsOf_withBits_apart _ _ h
  · rfl

/-! Fields of a register value (R4 to R6) -/

theorem bitsOf_apply_rw {f : Field} (h : f.acc = .rw) (old new acc : Nat) :
    bitsOf f.hi f.lo (f.apply old new acc) =
      if bitsOf f.hi f.lo new = bitsOf f.hi f.lo old ∨ f.legal.ok (bitsOf f.hi f.lo new) = true
      then bitsOf f.hi f.lo new else bitsOf f.hi f.lo old := by
  simp only [Field.apply, h]
  split <;> exact bitsOf_withBits_bitsOf _ _ _ _

theorem bitsOf_apply_kept {f : Field} (h : f.acc = .ro ∨ f.acc = .wo ∨ f.acc = .fl) (old new acc : Nat) :
    bitsOf f.hi f.lo (f.apply old new acc) = bitsOf f.hi f.lo old := by
  rcases h with h | h | h <;> simp only [Field.apply, h] <;> exact bitsOf_withBits_bitsOf _ _ _ _

/-- Writes of fields apart from field (hi, lo) leave it alone. -/
theorem bitsOf_foldl_apply_apart {hi lo : Nat} (fs : List Field) (old new acc : Nat)
    (apart : ∀ g ∈ fs, hi < g.lo ∨ g.hi < lo) :
    bitsOf hi lo (fs.foldl (fun acc g => g.apply old new acc) acc) = bitsOf hi lo acc := by
  induction fs generalizing acc with
  | nil => rfl
  | cons g fs ih =>
    rw [List.foldl_cons, ih _ fun k hk => apart k (List.mem_cons_of_mem _ hk)]
    exact bitsOf_withBits_apart _ _ (apart g List.mem_cons_self)

/-- In a list of disjoint fields each field reads as its own write left it. -/
theorem bitsOf_foldl_apply_mem {fs : List Field} {f : Field} (old new acc : Nat)
    (disjoint : fs.Pairwise fun f g => f.hi < g.lo ∨ g.hi < f.lo) (hf : f ∈ fs) :
    ∃ mid, bitsOf f.hi f.lo (fs.foldl (fun acc g => g.apply old new acc) acc) =
      bitsOf f.hi f.lo (f.apply old new mid) := by
  induction fs generalizing acc with
  | nil => cases hf
  | cons g fs ih =>
    obtain ⟨apart, disjoint⟩ := List.pairwise_cons.mp disjoint
    rcases List.mem_cons.mp hf with rfl | hf
    · exact ⟨acc, bitsOf_foldl_apply_apart fs old new _ apart⟩
    · exact ih _ disjoint hf

end Sys2Proof.Machine

namespace Sys2Proof.Claims

open Sys2Proof.Machine

/-! One part replaced as a whole -/

theorem onlyIn_glz (s : State) (x : Glaze) : OnlyIn [.glz] s { s with glz := x } := by
  intro p hp
  have same := SamePart.refl s p
  cases p
  case glz => exact absurd List.mem_cons_self hp
  all_goals exact same

theorem onlyIn_bpm (s : State) (x : Bpm) : OnlyIn [.bpm] s { s with bpm := x } := by
  intro p hp
  have same := SamePart.refl s p
  cases p
  case bpm => exact absurd List.mem_cons_self hp
  all_goals exact same

theorem onlyIn_fab (s : State) (x : Fabric) : OnlyIn [.fab] s { s with fab := x } := by
  intro p hp
  have same := SamePart.refl s p
  cases p
  case fab => exact absurd List.mem_cons_self hp
  all_goals exact same

theorem onlyIn_sched (s : State) (x : Sched) : OnlyIn [.sched] s { s with sched := x } := by
  intro p hp
  have same := SamePart.refl s p
  cases p
  case sched => exact absurd List.mem_cons_self hp
  all_goals exact same

theorem onlyIn_bur (s : State) (x : Burin) : OnlyIn [.bur] s { s with bur := x } := by
  intro p hp
  have same := SamePart.refl s p
  cases p
  case bur => exact absurd List.mem_cons_self hp
  all_goals exact same

theorem onlyIn_gen (s : State) (x : GenCtl) : OnlyIn [.gen] s { s with gen := x } := by
  intro p hp
  have same := SamePart.refl s p
  cases p
  case gen => exact absurd List.mem_cons_self hp
  all_goals exact same

/-- A port whose link, lock, module and hold stay as they are raises no event and changes only on its lanes. -/
theorem onlyIn_setPort_sameLink (s : State) (p : Nat) (x : PortState) (h : sameLink (s.port p) x) :
    OnlyIn [.lanes] s (s.setPort p x) := by
  have link : (s.prt.get {} p).link = x.link := h.1.symm
  simp only [State.setPort, if_pos link]
  intro q hq
  have same := SamePart.refl s q
  cases q
  case lanes => exact absurd List.mem_cons_self hq
  case links =>
    intro k
    simp only [State.port, Tab.get_set]
    split
    · next e => exact e ▸ h
    · exact SamePart.refl s .links k
  all_goals exact same

/-! Places that a frame gives up -/

theorem onlyIn_dropClaim (s : State) (f : Nat) : OnlyIn [.bpm] s (s.dropClaim f) := by
  simp only [State.dropClaim]
  split
  · split
    · exact onlyIn_bpm _ _
    · split
      · exact (onlyIn_bpm _ _).trans (onlyIn_bpm _ _)
      · exact onlyIn_bpm _ _
  · exact .refl _ _

theorem onlyIn_leaveLanding (s : State) (f : Nat) : OnlyIn [.lanes] s (s.leaveLanding f) := by
  simp only [State.leaveLanding]
  split
  · exact onlyIn_setPort_sameLink _ _ _ ⟨rfl, rfl, rfl, rfl, rfl, rfl⟩
  · exact .refl _ _

theorem onlyIn_freePages (s : State) (k : Nat) : OnlyIn [.bpm] s (s.freePages k) := by
  simp only [State.freePages]
  split <;> exact onlyIn_setVoq _ _ _

theorem onlyIn_settleVoq (s : State) (k : Nat) : OnlyIn [.bpm] s (s.settleVoq k) := by
  simp only [State.settleVoq]
  split
  · exact (onlyIn_freePages _ _).trans (onlyIn_setVoq _ _ _)
  · exact onlyIn_freePages _ _

/-- A frame leaves its VOQ and the spill write queue. -/
theorem onlyIn_leaveVoqs (s : State) (f k : Nat) : OnlyIn [.bpm] s (((s.leaveVoq f).leaveSpill f).settleVoq k) :=
  ((onlyIn_setVoq _ _ _).trans (onlyIn_bpm _ _)).trans (onlyIn_settleVoq _ _)

theorem onlyIn_leaveNode (s : State) (k : Nat) : OnlyIn [.sched] s (s.leaveNode k) := by
  simp only [State.leaveNode]
  split
  · exact onlyIn_sched _ _
  · exact (onlyIn_sched _ _).trans (onlyIn_sched _ _)

theorem onlyIn_joinNode (s : State) (k : Nat) : OnlyIn [.sched] s (s.joinNode k) := by
  have leave : OnlyIn [.sched] s (if s.sched.memberAt.get 0 k = 0 then s else s.leaveNode k) := by
    split
    · exact .refl _ _
    · exact onlyIn_leaveNode _ _
  simp only [State.joinNode]
  split
  · exact leave
  · split
    · exact leave
    · split
      · exact .refl _ _
      · refine leave.trans ?_
        generalize (if s.sched.memberAt.get 0 k = 0 then s else s.leaveNode k) = u
        split
        · exact onlyIn_sched _ _
        · exact (onlyIn_sched _ _).trans (onlyIn_sched _ _)

theorem onlyIn_setQueue (s : State) (k : Nat) (l : List Nat) : OnlyIn [.sched] s (s.setQueue k l) :=
  (onlyIn_sched _ _).trans (onlyIn_joinNode _ _)

theorem onlyIn_leaveEgress (s : State) (f : Nat) : OnlyIn [.sched, .bur, .glz, .lanes] s (s.leaveEgress f) := by
  have path (u : State) (p : Nat) (l : List Nat) (o : Option Nat) :
      OnlyIn [.lanes] u (u.setPort p { u.port p with path := l, tx := o }) :=
    onlyIn_setPort_sameLink _ _ _ ⟨rfl, rfl, rfl, rfl, rfl, rfl⟩
  refine OnlyIn.trans ?_ (path _ _ _ _).mono
  exact ((onlyIn_setQueue _ _ _).mono.trans (onlyIn_bur _ _).mono).trans (onlyIn_glz _ _).mono

/-! The transmit context cache -/

/-- What serving a request of the cache may change. -/
abbrev cacheParts : List Part := [.glz, .cps, .frames]

theorem onlyIn_unpinKey (s : State) (i : Nat) (k : CacheKey) : OnlyIn [.glz] s (s.unpinKey i k) := onlyIn_setCache _ _ _

theorem onlyIn_pinKey {s t : State} {i : Nat} {k : CacheKey} (h : s.pinKey i k = some t) : OnlyIn [.glz] s t := by
  simp only [State.pinKey] at h
  split at h
  · split at h
    · cases h
    · cases h
      exact onlyIn_setCache _ _ _
  · split at h
    · cases h
      exact onlyIn_setCache _ _ _
    · obtain ⟨l, -, rfl⟩ := Option.map_eq_some_iff.mp h
      exact onlyIn_setCache _ _ _

theorem onlyIn_pinRequest {s t : State} {i r : Nat} (h : s.pinRequest i r = some t) : OnlyIn cacheParts s t := by
  simp only [State.pinRequest] at h
  split at h
  · split at h
    · obtain ⟨u, pin, rfl⟩ := Option.map_eq_some_iff.mp h
      exact (onlyIn_pinKey pin).mono.trans (onlyIn_setCps _ _ _).mono
    · cases h
      exact .refl _ _
  · split at h
    · obtain ⟨u, pin, rfl⟩ := Option.map_eq_some_iff.mp h
      exact (onlyIn_pinKey pin).mono.trans (onlyIn_modFrame _ _ _).mono
    · cases h
      exact .refl _ _

theorem onlyIn_serveCacheN (s : State) (i n : Nat) : OnlyIn cacheParts s (s.serveCacheN i n) := by
  induction n generalizing s with
  | zero => exact .refl _ _
  | succ n ih =>
    simp only [State.serveCacheN]
    split
    · exact .refl _ _
    · split
      · next served => exact ((onlyIn_setCacheWait _ _ _).mono.trans (onlyIn_pinRequest served)).trans (ih _)
      · exact .refl _ _

theorem onlyIn_serveCache (s : State) (i : Nat) : OnlyIn cacheParts s (s.serveCache i) := onlyIn_serveCacheN _ _ _

theorem onlyIn_unpin (s : State) (f : Nat) : OnlyIn cacheParts s (s.unpin f) := by
  have wait : OnlyIn cacheParts s (s.setCacheWait ((s.frame f).outPort / 8)
      ((s.cacheWait ((s.frame f).outPort / 8)).filter (· ≠ f))) := (onlyIn_setCacheWait _ _ _).mono
  simp only [State.unpin]
  split
  · split
    · exact wait.trans
        (((onlyIn_unpinKey _ _ _).mono.trans (onlyIn_setFrame _ _ _).mono).trans (onlyIn_serveCache _ _))
    · exact wait.trans (onlyIn_setFrame _ _ _).mono
  · exact wait

/-! Buffers -/

theorem onlyIn_flowControl (s : State) (port cls : Nat) : OnlyIn [.fab] s (s.flowControl port cls) := by
  simp only [State.flowControl]
  split
  · split
    · exact .refl _ _
    · exact onlyIn_fab _ _
  · split
    · exact onlyIn_fab _ _
    · exact .refl _ _

theorem onlyIn_freeEgress (s : State) (f : Nat) : OnlyIn [.bpm, .frames, .fab] s (s.freeEgress f) := by
  simp only [State.freeEgress]
  split
  · exact ((onlyIn_bpm _ _).mono.trans (onlyIn_setFrame _ _ _).mono).trans (onlyIn_flowControl _ _ _).mono
  · exact .refl _ _

theorem onlyIn_clearName (s : State) (f : Nat) : OnlyIn [.bpm] s (s.clearName f) := by
  simp only [State.clearName]
  split
  · split
    · exact (onlyIn_bpm _ _).trans (onlyIn_bpm _ _)
    · exact onlyIn_bpm _ _
  · exact .refl _ _

/-! A frame leaves the device -/

/-- What a frame that leaves the device may change: no link state and no register but PMC_CNT_CFG. -/
abbrev leaveParts : List Part :=
  [.out, .cnts, .cntCfg, .hif, .eic, .gen, .glz, .cps, .frames, .bpm, .fab, .sched, .bur, .lanes]

theorem onlyIn_sampleRecord (s : State) (f : Nat) (how : Leaving) : OnlyIn recordParts s (s.sampleRecord f how) := by
  simp only [State.sampleRecord]
  split
  · exact .refl _ _
  · refine OnlyIn.trans ?_ (onlyIn_writeRecord _ _ _ _ _ _)
    split
    · exact (onlyIn_bump _ _).mono
    · exact .refl _ _

theorem onlyIn_leave (s : State) (f : Nat) (how : Leaving) : OnlyIn leaveParts s (s.leave f how) := by
  have name (u : State) : OnlyIn leaveParts u (if how = .sent then u else u.clearName f) := by
    split
    · exact .refl _ _
    · exact (onlyIn_clearName _ _).mono
  simp only [State.leave]
  refine OnlyIn.trans ?_ ((onlyIn_setFrame _ _ _).mono.trans (onlyIn_refDown _ _).mono)
  refine OnlyIn.trans ?_ (name _)
  refine OnlyIn.trans ?_ (onlyIn_freeEgress _ _).mono
  exact ((onlyIn_sampleRecord _ _ _).mono.trans (onlyIn_sched _ _).mono).trans (onlyIn_unpin _ _).mono

theorem onlyIn_issueNow (s : State) (f : Nat) : OnlyIn [.frames, .cnts, .cntCfg] s (s.issueNow f) :=
  (onlyIn_setFrame _ _ _).mono.trans (onlyIn_pmcCount _ _ _ _ _).mono

theorem onlyIn_issueInOrder (s : State) (l : List Nat) : OnlyIn [.frames, .cnts, .cntCfg] s (s.issueInOrder l) := by
  induction l generalizing s with
  | nil => exact .refl _ _
  | cons f rest ih =>
    simp only [State.issueInOrder]
    split
    · exact ih _
    · split
      · exact (onlyIn_issueNow _ _).trans (ih _)
      · exact .refl _ _

theorem onlyIn_issueReady (s : State) (p : Nat) : OnlyIn [.frames, .cnts, .cntCfg] s (s.issueReady p) :=
  onlyIn_issueInOrder _ _

theorem onlyIn_remove (s : State) (f : Nat) (how : Leaving) : OnlyIn leaveParts s (s.remove f how) := by
  have ingress (c : Prop) [Decidable c] (u : State) (k : Nat) :
      OnlyIn leaveParts u (if c then u else ((u.leaveVoq f).leaveSpill f).settleVoq k) := by
    split
    · exact .refl _ _
    · exact (onlyIn_leaveVoqs _ _ _).mono
  have egress (c : Prop) [Decidable c] (u : State) : OnlyIn leaveParts u (if c then u else u.leaveEgress f) := by
    split
    · exact .refl _ _
    · exact (onlyIn_leaveEgress _ _).mono
  have issue (c : Prop) [Decidable c] (u : State) (p : Nat) : OnlyIn leaveParts u (if c then u.issueReady p else u) := by
    split
    · exact (onlyIn_issueReady _ _).mono
    · exact .refl _ _
  simp only [State.remove]
  split
  · exact .refl _ _
  · refine OnlyIn.trans ?_ (issue _ _ _)
    refine OnlyIn.trans ?_ (onlyIn_leave _ _ _)
    refine OnlyIn.trans ?_ (egress _ _)
    refine OnlyIn.trans ?_ (ingress _ _ _)
    exact (onlyIn_dropClaim _ _).mono.trans (onlyIn_leaveLanding _ _).mono

theorem onlyIn_discard (s : State) (f : Nat) : OnlyIn leaveParts s (s.discard f) := onlyIn_remove _ _ _

theorem onlyIn_bump_discard (s : State) (k f : Nat) : OnlyIn leaveParts s ((s.bump k).discard f) :=
  (onlyIn_bump _ _).mono.trans (onlyIn_discard _ _)

theorem onlyIn_panicSync (s : State) : OnlyIn [.bpm, .cnts] s s.panicSync :=
  (onlyIn_bpm _ _).mono.trans (.runOver (fun _ _ => (onlyIn_bumpBy _ _ _).mono) _ _)

theorem onlyIn_flushPort (s : State) (p : Nat) (held : Bool) : OnlyIn leaveParts s (s.flushPort p held) := by
  have one (f : Nat) (u : State) : OnlyIn leaveParts u
      (if held && u.resLimit < u.age (u.frame f) then u.resDiscard f else (u.bump (cntPrt p 4)).discard f) := by
    split
    · exact onlyIn_bump_discard _ _ _
    · exact onlyIn_bump_discard _ _ _
  exact ((OnlyIn.runOver one _ _).trans (onlyIn_bpm _ _).mono).trans (onlyIn_panicSync _).mono

end Sys2Proof.Claims

namespace Sys2Proof.Claims

open Sys2Proof.Machine

/-! Writes of plain registers -/

theorem refuses_of_plainReg {r : RegName} (h : plainReg r = true) (s : State) (f : Fn) (j old x : Nat) :
    s.refuses f r j old x = false := by
  unfold State.refuses
  split
  on_goal -1 => rfl
  all_goals exact absurd h (by decide)

theorem keeps_of_plainReg {r : RegName} (h : plainReg r = true) (s : State) (f : Fn) (j old x : Nat) :
    s.keeps f r j old x = (x, false) := by
  unfold State.keeps
  dsimp only
  split
  on_goal -1 => rfl
  all_goals exact absurd h (by decide)

theorem afterWrite_of_plainReg {r : RegName} (h : plainReg r = true) (s : State) (i j old x : Nat) :
    s.afterWrite r i j old x = s := by
  unfold State.afterWrite
  split
  on_goal -1 => rfl
  all_goals exact absurd h (by decide)

theorem writeAt_of_plainReg {m : RegAt} (h : plainReg m.name = true) (s : State) (f : Fn) (size v : Nat) :
    s.writeAt f m size v = s.plainWrite f m size v := by
  unfold State.writeAt
  dsimp only
  split
  on_goal -1 => rfl
  all_goals
    next e =>
      rw [e] at h
      exact absurd h (by decide)

end Sys2Proof.Claims

namespace Sys2Proof.Machine

/-! How a write of fields is judged (R42, R501) -/

theorem judgeWrite_ignored {s : State} {m : RegAt} (h : s.reachable m.name = false) (f : Fn) (size v : Nat) :
    s.judgeWrite f m size v = .ignored := by
  simp [State.judgeWrite, h]

theorem judgeWrite_refused {s : State} {m : RegAt} {f : Fn} (h : s.reachable m.name = true)
    (role : (m.name.info.writers.contains f.num && m.name.info.when.ok s.mode) = false) (size v : Nat) :
    s.judgeWrite f m size v = .refused := by
  simp only [State.judgeWrite, h, ← Bool.not_and, role]
  rfl

theorem judgeWrite_stored {s : State} {m : RegAt} {f : Fn} (h : s.reachable m.name = true)
    (role : (m.name.info.writers.contains f.num && m.name.info.when.ok s.mode) = true) (size v : Nat) :
    s.judgeWrite f m size v =
      let old := s.regOf m.name (m.name.bank f) m.row m.j
      let new := mergeBytes old m.off size v
      .stored (applyFields m.name.info.fields old new) (anyReserved m.name.info.fields old new) := by
  simp only [State.judgeWrite, h, ← Bool.not_and, role]
  rfl

end Sys2Proof.Machine

namespace Sys2Proof.Claims

open Sys2Proof.Machine

/-! What a write of a plain register comes to -/

theorem plainWrite_of_ignored {s : State} {f : Fn} {m : RegAt} {size v : Nat}
    (h : s.judgeWrite f m size v = .ignored) : s.plainWrite f m size v = s := by
  simp only [State.plainWrite, h]

theorem plainWrite_of_refused {s : State} {f : Fn} {m : RegAt} {size v : Nat}
    (h : s.judgeWrite f m size v = .refused) :
    s.plainWrite f m size v = s.configError f (m.name.addr m.i m.j + m.off) := by
  simp only [State.plainWrite, h]

theorem plainWrite_of_stored {s : State} {f : Fn} {m : RegAt} {size v x : Nat} {logged : Bool}
    (plain : plainReg m.name = true) (h : s.judgeWrite f m size v = .stored x logged) :
    s.plainWrite f m size v =
      (if logged then s.configError f (m.name.addr m.i m.j + m.off) else s).setRegOf
        m.name (m.name.bank f) m.row m.j x := by
  have noShape : m.name ≠ .egsPortShape := by
    intro e
    rw [e] at plain
    exact absurd plain (by decide)
  simp only [State.plainWrite, h, refuses_of_plainReg plain, keeps_of_plainReg plain, afterWrite_of_plainReg plain,
    if_neg noShape, Bool.or_false, Bool.false_eq_true, if_false]

/-- A write of 4 bytes is one write of the register that holds them (R537). -/
theorem registerWrite_word {a : BitVec 26} {m : RegAt} (found : findReg a.toNat = some m)
    (plain : plainReg m.name = true) (aligned : a.toNat % 4 = 0) (f : Fn) (v : BitVec 64) (s : State) :
    exec (.registerWrite f a 4 v) s = .next (s.plainWrite f m 4 (v.toNat % 2 ^ 32)) := by
  rw [← writeAt_of_plainReg plain]
  simp [exec, execRegisterWrite, done, State.writeBar0, accessOk, aligned, State.writePiece, found]

/-- A write of 8 bytes to a register of 8 bytes is one write (R537). -/
theorem registerWrite_pair {a : BitVec 26} {m : RegAt} (found : findReg a.toNat = some m)
    (plain : plainReg m.name = true) (aligned : a.toNat % 8 = 0) (low : isWord a.toNat = false)
    (high : isWord (a.toNat + 4) = false) (f : Fn) (v : BitVec 64) (s : State) :
    exec (.registerWrite f a 8 v) s = .next (s.plainWrite f m 8 (v.toNat % 2 ^ 64)) := by
  rw [← writeAt_of_plainReg plain]
  simp [exec, execRegisterWrite, done, State.writeBar0, accessOk, aligned, low, high, State.writePiece, found]

/-- Settles O1: a write goes through the one judgement of a field write, and in a list of disjoint fields each field
reads as its own write left it. -/
theorem registerWritesStoreFields : Obligations.RegisterWritesStoreFields := by
  unfold Obligations.RegisterWritesStoreFields
  refine ⟨fun f a v m s found plain aligned => ?_, fun f a v m s found plain aligned low high up role => ?_,
    fun fs old new _ disjoint f hf => ?_⟩
  · rw [registerWrite_word found plain aligned]
    refine ⟨fun down => ?_, fun up role => ?_, fun up role => ?_⟩
    · rw [plainWrite_of_ignored (judgeWrite_ignored down _ _ _)]
    · rw [plainWrite_of_refused (judgeWrite_refused up role _ _)]
    · exact congrArg _ (plainWrite_of_stored plain (judgeWrite_stored up role _ _))
  · intro old new clean
    rw [registerWrite_pair found plain aligned low high, plainWrite_of_stored plain (judgeWrite_stored up role _ _),
      if_neg (by rw [clean]; exact Bool.false_ne_true)]
  · obtain ⟨mid, same⟩ := bitsOf_foldl_apply_mem old new old disjoint hf
    exact ⟨fun acc => same.trans (bitsOf_apply_rw acc old new mid),
      fun acc => same.trans (bitsOf_apply_kept acc old new mid)⟩

end Sys2Proof.Claims

namespace Sys2Proof.Machine

/-! Port configuration: fields kept by a write (R6) and the modes of Table 03.1 -/

theorem bitsOf_prtCfgKept_speed (old v : Nat) :
    bitsOf 3 1 (prtCfgKept old v) = if bitsOf 3 1 v ≤ 5 then bitsOf 3 1 v else bitsOf 3 1 old := by
  simp only [prtCfgKept]
  rw [bitsOf_putBack_apart _ _ _ (by decide), bitsOf_putBack_apart _ _ _ (by decide), bitsOf_putBack_same,
    bitsOf_bitsOf_low (by decide), ← ite_not]
  simp only [Nat.not_lt]

theorem bitsOf_prtCfgKept_lanes (old v : Nat) :
    bitsOf 5 4 (prtCfgKept old v) = if bitsOf 5 4 v ≤ 2 then bitsOf 5 4 v else bitsOf 5 4 old := by
  have width : bitsOf 5 4 v < 4 := Nat.mod_lt _ (by decide)
  have taken : (¬ bitsOf 5 4 v = 3) = (bitsOf 5 4 v ≤ 2) := propext ⟨fun h => by omega, fun h => by omega⟩
  simp only [prtCfgKept]
  rw [bitsOf_putBack_apart _ _ _ (by decide), bitsOf_putBack_same, bitsOf_putBack_apart _ _ _ (by decide),
    bitsOf_bitsOf_low (by decide), ← ite_not]
  simp only [taken]

theorem bitsOf_prtCfgKept_fec (old v : Nat) :
    bitsOf 7 6 (prtCfgKept old v) = if bitsOf 7 6 v ≤ 1 then bitsOf 7 6 v else bitsOf 7 6 old := by
  simp only [prtCfgKept]
  rw [bitsOf_putBack_same, bitsOf_putBack_apart _ _ _ (by decide), bitsOf_putBack_apart _ _ _ (by decide),
    bitsOf_bitsOf_low (by decide), ← ite_not]
  simp only [Nat.not_lt]

/-- EN and the two upper bits are taken as written. -/
theorem bitsOf_prtCfgKept_taken {hi lo : Nat} (h : hi < 1 ∨ 7 < lo) (top : hi ≤ 9) (old v : Nat) :
    bitsOf hi lo (prtCfgKept old v) = bitsOf hi lo v := by
  simp only [prtCfgKept]
  rw [bitsOf_putBack_apart _ _ _ (by omega), bitsOf_putBack_apart _ _ _ (by omega),
    bitsOf_putBack_apart _ _ _ (by omega), bitsOf_bitsOf_low top]

theorem bitOf_prtCfgKept (old v : Nat) : bitOf 0 (prtCfgKept old v) = bitOf 0 v := by
  rw [bitOf_eq_testBit_bitsOf, bitsOf_prtCfgKept_taken (by decide) (by decide), ← bitOf_eq_testBit_bitsOf]

/-- A row of Table 03.1 names no reserved SPEED, LANES or FEC. -/
theorem portModeOk_bounds {x : Nat} (h : portModeOk x = true) : bitsOf 3 1 x ≤ 5 ∧ bitsOf 5 4 x ≤ 2 ∧ bitsOf 7 6 x ≤ 1 := by
  unfold portModeOk at h
  split at h
  case h_8 => cases h
  all_goals
    next speed lanes fec =>
      rw [speed, lanes, fec]
      decide

/-- A write that names a row of Table 03.1 keeps no field. -/
theorem prtCfgKept_of_portModeOk {v : Nat} (h : portModeOk (bitsOf 9 0 v) = true) (old : Nat) :
    prtCfgKept old v = bitsOf 9 0 v := by
  obtain ⟨speed, lanes, fec⟩ := portModeOk_bounds h
  rw [bitsOf_bitsOf_low (by decide)] at speed lanes fec
  simp only [prtCfgKept]
  rw [if_neg (by omega), if_neg (by omega), if_neg (by omega)]

/-! What a write of PRT_CFG comes to -/

/-- A port that takes the configuration `new` with four lanes absorbs the next one, which gives up its EN (R84). -/
def State.absorbNext (s : State) (p new : Nat) : State :=
  if bitsOf 5 4 new = 2 && bitOf 0 (s.reg .prtCfg (p + 1) 0) then
    (s.setReg .prtCfg (p + 1) 0 (withBits 0 0 (s.reg .prtCfg (p + 1) 0) 0)).disablePort (p + 1)
  else s

/-- While Ewethes runs, the class of a module that is present is read again (R469). -/
def State.rereadClass (s : State) (p : Nat) : State :=
  if (s.port p).present && s.rst.ewethes then s.readClass p (s.port p).powerClass else s

/-- A port that has been enabled trains its link (R96). -/
def State.trainPort (s : State) (p : Nat) : State :=
  (s.setPort p { s.port p with link := if s.mode = .standby then .disabled else .training }).rereadClass p

/-- A write whose fields name a row of Table 03.1 that the port can run, and that neither changes the lanes of an
enabled port nor enables one whose block is held, is stored; then the port is disabled, enabled or left alone. -/
theorem writePrtCfg_stored {s : State} {p : Nat} (f : Fn) {v x : Nat} (kept : prtCfgKept (s.reg .prtCfg p 0) v = x)
    (free : s.absorbed p = false) (listed : portModeOk x = true) (even : ¬ (bitsOf 5 4 x = 2 ∧ p % 2 = 1))
    (off : bitOf 0 (s.reg .prtCfg p 0) = false ∨ bitOf 0 x = false) (ready : bitOf 0 x = true → s.rst.blocks = []) :
    s.writePrtCfg f p v =
      (let u := (if x = bitsOf 9 0 v then s else s.configError f (RegName.addr .prtCfg p 0)).setReg .prtCfg p 0 x
       if bitOf 0 (s.reg .prtCfg p 0) && !bitOf 0 x then u.disablePort p
       else if !bitOf 0 (s.reg .prtCfg p 0) && bitOf 0 x then (u.absorbNext p x).trainPort p
       else u) := by
  have runnable : (!portModeOk x || (bitsOf 5 4 x = 2 && p % 2 = 1)) = false := by simpa [listed] using even
  simp only [State.writePrtCfg, kept, free, runnable, Bool.false_eq_true, if_false, Bool.not_false, Bool.and_true]
  cases new : bitOf 0 x
  · cases bitOf 0 (s.reg .prtCfg p 0) <;> rfl
  · have old : bitOf 0 (s.reg .prtCfg p 0) = false := by simpa [new] using off
    simp only [old, ready new, Bool.false_and, Bool.false_eq_true, if_false]
    rfl

end Sys2Proof.Machine

namespace Sys2Proof.Claims

open Sys2Proof.Machine

/-! Ports that are disabled and enabled -/

/-- A register outside PMC_CNT_CFG reads the same when no register but those of PMC_CNT_CFG may change. -/
theorem OnlyIn.reg_same {ps : List Part} {s t : State} (h : OnlyIn ps s t) (regs : Part.regs ∉ ps) {r : RegName}
    {i j : Nat} (out : ¬ inCntCfg (r.key 0 i j)) : t.reg r i j = s.reg r i j :=
  h .regs regs r 0 i j out

/-- PRT_CFG of a port lies outside PMC_CNT_CFG. -/
theorem prtCfg_not_inCntCfg {p : Nat} (h : p < 128) : ¬ inCntCfg (RegName.key .prtCfg 0 p 0) := by
  simp only [inCntCfg, RegName.key, RegName.addr, RegName.info, Bool.false_eq_true, if_false]
  omega

theorem prtCfg_setReg_other {p q : Nat} (h : q ≠ p) (s : State) (v : Nat) :
    (s.setReg .prtCfg p 0 v).reg .prtCfg q 0 = s.reg .prtCfg q 0 := by
  refine State.regOf_setRegOf_other _ ?_
  simp only [RegName.key, RegName.addr, RegName.info, Bool.false_eq_true, if_false]
  omega

theorem onlyIn_switchDown (s : State) (p : Nat) : OnlyIn [.gen] s (s.switchDown p) := by
  simp only [State.switchDown, State.switchPort]
  split
  · split
    · split
      · exact .refl _ _
      · exact onlyIn_gen _ _
    · exact .refl _ _
  · exact .refl _ _

/-- A port is disabled in three steps: it leaves its commit and the frame being received, its link is DISABLED, and its
queued frames are flushed (R103). -/
theorem disablePort_steps (s : State) (p : Nat) :
    ∃ u, OnlyIn leaveParts s u ∧ s.disablePort p =
      (u.setPort p { u.port p with link := .disabled, holdEnd := 0, pcsLock := false }).flushPort p false := by
  have down : OnlyIn leaveParts s (if (s.port p).link = .disabled then s else s.switchDown p) := by
    split
    · exact .refl _ _
    · exact (onlyIn_switchDown _ _).mono
  simp only [State.disablePort]
  cases (s.port p).rx with
  | none => exact ⟨_, down, rfl⟩
  | some f => exact ⟨_, down.trans (onlyIn_bump_discard _ _ _), rfl⟩

/-- What disabling a port may change. -/
abbrev portParts : List Part := .links :: leaveParts

theorem onlyIn_disablePort (s : State) (p : Nat) : OnlyIn portParts s (s.disablePort p) := by
  obtain ⟨u, before, steps⟩ := disablePort_steps s p
  rw [steps]
  exact (before.mono.trans (onlyIn_setPort _ _ _).mono).trans (onlyIn_flushPort _ _ _).mono

theorem disablePort_link (s : State) (p : Nat) : ((s.disablePort p).port p).link = .disabled := by
  obtain ⟨u, -, steps⟩ := disablePort_steps s p
  obtain ⟨link, -⟩ := onlyIn_flushPort
    (u.setPort p { u.port p with link := .disabled, holdEnd := 0, pcsLock := false }) p false .links (by decide) p
  rw [steps, link, State.port_setPort, if_pos rfl]

theorem disablePort_prtCfg {q : Nat} (h : q < 128) (s : State) (p : Nat) :
    (s.disablePort p).reg .prtCfg q 0 = s.reg .prtCfg q 0 :=
  (onlyIn_disablePort s p).reg_same (by decide) (prtCfg_not_inCntCfg h)

theorem onlyIn_readClass (s : State) (p cls : Nat) : OnlyIn [.eic, .links, .lanes] s (s.readClass p cls) :=
  onlyIn_setPort _ _ _

@[simp] theorem readClass_link (s : State) (p cls : Nat) : ((s.readClass p cls).port p).link = (s.port p).link := by
  simp [State.readClass, State.port_setPort]

theorem onlyIn_absorbNext (s : State) (p new : Nat) : OnlyIn (.regs :: portParts) s (s.absorbNext p new) := by
  unfold State.absorbNext
  split
  · exact (onlyIn_setReg _ _ _ _ _).mono.trans (onlyIn_disablePort _ _).mono
  · exact .refl _ _

/-- Absorbing the next port leaves the port's own configuration. -/
theorem absorbNext_prtCfg {p : Nat} (h : p < 128) (s : State) (new : Nat) :
    (s.absorbNext p new).reg .prtCfg p 0 = s.reg .prtCfg p 0 := by
  unfold State.absorbNext
  split
  · rw [disablePort_prtCfg h, prtCfg_setReg_other (by omega)]
  · rfl

theorem onlyIn_rereadClass (s : State) (p : Nat) : OnlyIn [.eic, .links, .lanes] s (s.rereadClass p) := by
  unfold State.rereadClass
  split
  · exact onlyIn_readClass _ _ _
  · exact .refl _ _

theorem rereadClass_link (s : State) (p : Nat) : ((s.rereadClass p).port p).link = (s.port p).link := by
  unfold State.rereadClass
  split
  · exact readClass_link _ _ _
  · rfl

theorem onlyIn_trainPort (s : State) (p : Nat) : OnlyIn [.eic, .links, .lanes] s (s.trainPort p) :=
  (onlyIn_setPort _ _ _).trans (onlyIn_rereadClass _ _)

theorem trainPort_link {s : State} (h : s.mode ≠ .standby) (p : Nat) : ((s.trainPort p).port p).link = .training := by
  rw [State.trainPort, rereadClass_link, State.port_setPort, if_pos rfl]
  exact if_neg h

theorem onlyIn_enablePort (s : State) (p new : Nat) :
    OnlyIn (.regs :: portParts) s ((s.absorbNext p new).trainPort p) :=
  (onlyIn_absorbNext _ _ _).trans (onlyIn_trainPort _ _).mono

theorem enablePort_link {s : State} (h : s.mode ≠ .standby) (p new : Nat) :
    (((s.absorbNext p new).trainPort p).port p).link = .training :=
  trainPort_link (by rw [onlyIn_absorbNext s p new .mode (by decide)]; exact h) p

theorem enablePort_prtCfg {p : Nat} (h : p < 128) (s : State) (new : Nat) :
    ((s.absorbNext p new).trainPort p).reg .prtCfg p 0 = s.reg .prtCfg p 0 := by
  rw [(onlyIn_trainPort _ _).reg_same (by decide) (prtCfg_not_inCntCfg h), absorbNext_prtCfg h]

/-! Rows of the port registers -/

theorem rowWrite_of_role {s : State} {f : Fn} {r : RegName} (up : s.reachable r = true)
    (role : r.info.writers.contains f.num = true) (i j : Nat) (act : State → State) :
    s.rowWrite f r i j act = act s := by
  simp only [State.rowWrite, up, role, Bool.not_true, Bool.false_eq_true, if_false]

theorem rowWrite_outside_role {s : State} {f : Fn} {r : RegName} (up : s.reachable r = true)
    (role : r.info.writers.contains f.num = false) (i j : Nat) (act : State → State) :
    s.rowWrite f r i j act = s.configError f (r.addr i j) := by
  simp only [State.rowWrite, up, role, Bool.not_true, Bool.not_false, Bool.false_eq_true, if_false, if_true]

/-- PF0 writes PRT_CFG (R6, R84, R103): what `writePrtCfg_stored` says, as a command. -/
theorem exec_prtCfgWrite {s : State} {p : Port} {v : BitVec 32} {x : Nat} (up : s.reachable .prtCfg = true)
    (kept : prtCfgKept (s.reg .prtCfg p 0) v.toNat = x) (free : s.absorbed p = false) (listed : portModeOk x = true)
    (even : ¬ (bitsOf 5 4 x = 2 ∧ p.val % 2 = 1)) (off : bitOf 0 (s.reg .prtCfg p 0) = false ∨ bitOf 0 x = false)
    (ready : bitOf 0 x = true → s.rst.blocks = []) :
    exec (.prtCfgWrite .pf0 p v) s = .next
      (let u := (if x = bitsOf 9 0 v.toNat then s else s.configError .pf0 (RegName.addr .prtCfg p 0)).setReg .prtCfg p 0 x
       if bitOf 0 (s.reg .prtCfg p 0) && !bitOf 0 x then u.disablePort p
       else if !bitOf 0 (s.reg .prtCfg p 0) && bitOf 0 x then (u.absorbNext p x).trainPort p
       else u) := by
  rw [← writePrtCfg_stored .pf0 kept free listed even off ready]
  exact congrArg _ (rowWrite_of_role up (by decide) _ _ _)

/-- The domain of a disabled port of an unlocked slice changes in CONFIG while no seal is set (R90, R91). -/
theorem exec_prtDomainWrite {s : State} {p : Port} {v : BitVec 32} (up : s.reachable .prtDomain = true)
    (config : s.mode = .config) (unsealed : s.bit .glbSeal 0 0 0 = false) (off : s.portOn p = false)
    (unlocked : s.fuses.domLock.testBit (p.val / 8) = false) (change : bitOf 0 v.toNat ≠ s.black p) :
    exec (.prtDomainWrite .pf0 p v) s = .next
      (let t := s.setReg .prtDomain p 0 (boolBit (bitOf 0 v.toNat))
       if bitOf 0 v.toNat then
         t.setReg .genMkrEn 0 (p.val / 32) (withBits (p.val % 32) (p.val % 32) (t.reg .genMkrEn 0 (p.val / 32)) 0)
       else t) := by
  refine congrArg _ ((rowWrite_of_role up (by decide) _ _ _).trans ?_)
  simp only [unlocked, config, unsealed, off, change, decide_false, Bool.or_false, Bool.false_eq_true, if_false, ne_eq,
    not_true_eq_false]

/-- A bypass register takes a value that sets no new bit, and any value while no seal is set (R92, R95). -/
theorem writeBypass_of_open {s : State} {r : RegName} {v : Nat} (f : Fn) (fuse : s.fuses.bypDis = false)
    (h : s.bit .glbSeal 0 0 0 = false ∨ bitsOf 15 0 v &&& s.reg r 0 0 = bitsOf 15 0 v) :
    s.writeBypass f r v = s.setReg r 0 0 (bitsOf 15 0 v) := by
  have allowed : (s.bit .glbSeal 0 0 0 && bitsOf 15 0 v &&& s.reg r 0 0 ≠ bitsOf 15 0 v) = false := by
    rcases h with unsealed | subset
    · rw [unsealed, Bool.false_and]
    · simp [subset]
  simp only [State.writeBypass, fuse, allowed, Bool.false_eq_true, if_false]

/-! The settlement -/

/-- A port that stays disabled takes its configuration (R6, R84). -/
theorem prtCfgWrite_stays_off {s : State} {p : Port} {v : BitVec 32} (up : s.reachable .prtCfg = true)
    (listed : portModeOk (bitsOf 9 0 v.toNat) = true) (even : ¬ (bitsOf 5 4 (bitsOf 9 0 v.toNat) = 2 ∧ p.val % 2 = 1))
    (free : s.absorbed p = false) (old : bitOf 0 (s.reg .prtCfg p 0) = false)
    (new : bitOf 0 (bitsOf 9 0 v.toNat) = false) :
    exec (.prtCfgWrite .pf0 p v) s = .next (s.setReg .prtCfg p 0 (bitsOf 9 0 v.toNat)) := by
  rw [exec_prtCfgWrite up (prtCfgKept_of_portModeOk listed _) free listed even (.inl old) (by simp [new])]
  simp [old, new]

/-- A write that keeps a reserved field is logged and stores the others (R6). -/
theorem prtCfgWrite_keeps {s : State} {p : Port} {v : BitVec 32} (up : s.reachable .prtCfg = true)
    (free : s.absorbed p = false) (differs : prtCfgKept (s.reg .prtCfg p 0) v.toNat ≠ bitsOf 9 0 v.toNat)
    (listed : portModeOk (prtCfgKept (s.reg .prtCfg p 0) v.toNat) = true)
    (even : ¬ (bitsOf 5 4 (prtCfgKept (s.reg .prtCfg p 0) v.toNat) = 2 ∧ p.val % 2 = 1))
    (old : bitOf 0 (s.reg .prtCfg p 0) = false) (en : bitOf 0 v.toNat = false) :
    exec (.prtCfgWrite .pf0 p v) s = .next ((s.configError .pf0 (RegName.addr .prtCfg p 0)).setReg .prtCfg p 0
      (prtCfgKept (s.reg .prtCfg p 0) v.toNat)) := by
  have new := (bitOf_prtCfgKept (s.reg .prtCfg p 0) v.toNat).trans en
  rw [exec_prtCfgWrite up rfl free listed even (.inl old) (by simp [new])]
  simp [old, new, differs]

/-- Setting EN brings the port to TRAINING (R84, R96). -/
theorem prtCfgWrite_enables {s : State} {p : Port} {v : BitVec 32} (up : s.reachable .prtCfg = true)
    (listed : portModeOk (bitsOf 9 0 v.toNat) = true) (even : ¬ (bitsOf 5 4 (bitsOf 9 0 v.toNat) = 2 ∧ p.val % 2 = 1))
    (free : s.absorbed p = false) (mode : s.mode ≠ .standby) (old : bitOf 0 (s.reg .prtCfg p 0) = false)
    (new : bitOf 0 (bitsOf 9 0 v.toNat) = true) (ready : s.rst.blocks = []) :
    ∃ t, exec (.prtCfgWrite .pf0 p v) s = .next t ∧ (t.port p).link = .training ∧
      t.reg .prtCfg p 0 = bitsOf 9 0 v.toNat ∧ OnlyIn (.regs :: portParts) s t := by
  refine ⟨((s.setReg .prtCfg p 0 (bitsOf 9 0 v.toNat)).absorbNext p (bitsOf 9 0 v.toNat)).trainPort p, ?_,
    enablePort_link (s := s.setReg _ _ _ _) mode _ _, ?_, ?_⟩
  · rw [exec_prtCfgWrite up (prtCfgKept_of_portModeOk listed _) free listed even (.inl old) fun _ => ready]
    simp [old, new]
  · rw [enablePort_prtCfg p.isLt, State.reg_setReg]
  · exact (onlyIn_setReg _ _ _ _ _).mono.trans (onlyIn_enablePort _ _ _)

/-- Clearing EN disables the port (R96, R103, R110). -/
theorem prtCfgWrite_disables {s : State} {p : Port} {v : BitVec 32} (up : s.reachable .prtCfg = true)
    (listed : portModeOk (bitsOf 9 0 v.toNat) = true) (even : ¬ (bitsOf 5 4 (bitsOf 9 0 v.toNat) = 2 ∧ p.val % 2 = 1))
    (free : s.absorbed p = false) (old : bitOf 0 (s.reg .prtCfg p 0) = true)
    (new : bitOf 0 (bitsOf 9 0 v.toNat) = false) :
    ∃ t, exec (.prtCfgWrite .pf0 p v) s = .next t ∧ (t.port p).link = .disabled ∧
      t.reg .prtCfg p 0 = bitsOf 9 0 v.toNat ∧ t.modTxdis p = true ∧
      ((t.port p).tx = none → t.transmitter p = .quiet) ∧ OnlyIn (.regs :: portParts) s t := by
  have link := disablePort_link (s.setReg .prtCfg p 0 (bitsOf 9 0 v.toNat)) p
  have stored : ((s.setReg .prtCfg p 0 (bitsOf 9 0 v.toNat)).disablePort p).reg .prtCfg p 0 = bitsOf 9 0 v.toNat := by
    rw [disablePort_prtCfg p.isLt, State.reg_setReg]
  refine ⟨(s.setReg .prtCfg p 0 (bitsOf 9 0 v.toNat)).disablePort p, ?_, link, stored, ?_, fun sent => ?_, ?_⟩
  · rw [exec_prtCfgWrite up (prtCfgKept_of_portModeOk listed _) free listed even (.inr new) (by simp [new])]
    simp [old, new]
  · simp only [State.modTxdis, State.portOn, State.bit, stored, new, Bool.false_and, Bool.not_false]
  · simp [State.transmitter, link, sent]
  · exact (onlyIn_setReg _ _ _ _ _).mono.trans (onlyIn_disablePort _ _).mono

/-- Settles O9: each write goes through its row's role check; what PRT_CFG does besides is disabling or enabling the
port, whose link and registers follow from what a flush leaves unchanged. -/
theorem portRegistersTakeTheirWrites : Obligations.PortRegistersTakeTheirWrites := by
  unfold Obligations.PortRegistersTakeTheirWrites
  refine ⟨?_, ?_, ?_, ?_, ?_, ?_, ?_, ?_, ?_, ?_, ?_⟩
  · exact fun p v s up listed even free old new => prtCfgWrite_stays_off up listed even free old new
  · intro p v s up listed even free mode old new ready
    obtain ⟨t, run, link, stored, only⟩ := prtCfgWrite_enables up listed even free mode old new ready
    exact ⟨t, run, link, stored, only.mono⟩
  · intro p v s up listed even free old new
    obtain ⟨t, run, link, stored, txdis, quiet, only⟩ := prtCfgWrite_disables up listed even free old new
    exact ⟨t, run, link, stored, txdis, quiet, only.mono⟩
  · exact fun p v s up free differs listed even old en => prtCfgWrite_keeps up free differs listed even old en
  · exact fun old v => ⟨bitsOf_prtCfgKept_speed old v, bitsOf_prtCfgKept_lanes old v, bitsOf_prtCfgKept_fec old v,
      bitsOf_prtCfgKept_taken (by decide) (by decide) old v, bitsOf_prtCfgKept_taken (by decide) (by decide) old v⟩
  · intro p v s up config unsealed off unlocked change
    rw [exec_prtDomainWrite up config unsealed off unlocked change]
    cases bitOf 0 v.toNat <;> rfl
  · exact fun v s up fuse allowed =>
      congrArg _ ((rowWrite_of_role up (by decide) _ _ _).trans (writeBypass_of_open .pf0 fuse allowed))
  · exact fun v s up fuse allowed =>
      congrArg _ ((rowWrite_of_role up (by decide) _ _ _).trans (writeBypass_of_open .pf1 fuse allowed))
  · exact fun s => rfl
  · exact fun s up => congrArg _ (rowWrite_of_role up (by decide) _ _ _)
  · intro f p v s up other
    refine congrArg _ (rowWrite_outside_role up ?_ _ _ _)
    cases f
    case pf0 => exact absurd rfl other
    all_goals decide

end Sys2Proof.Claims

namespace Sys2Proof.Claims
open Sys2Proof.Machine

set_option Elab.async false

/-- Settles O58: every part of the reset state is at its default, and no register is listed. -/
theorem resetLeavesTheResetValues : Obligations.ResetLeavesTheResetValues := by
  unfold Obligations.ResetLeavesTheResetValues
  refine ⟨rfl, rfl, rfl, rfl, rfl, rfl, fun _ => rfl, fun _ _ _ _ => rfl, rfl, rfl, rfl, by decide, fun _ => rfl,
    fun _ => rfl, fun _ => ⟨rfl, rfl⟩, fun _ => ite_self _, fun _ => rfl, fun _ => ⟨rfl, rfl⟩, fun _ => rfl, fun _ => rfl,
    fun _ => rfl, fun _ => rfl, fun _ => rfl, rfl⟩

end Sys2Proof.Claims

namespace Sys2Proof.Claims

open Sys2Proof.Machine

set_option Elab.async false

/-! States that the device does not reach, at which a clause of its family fails

The statements quantify over every state. A frame's slice is a number without a bound, and from slice 0x180F0 on the
keys of a slice's counters (Table 07.18) are those of general counters (Table 18.1): there one event counts twice.
A frame without a place at egress may stand in a pair and among the frames that wait for room, and leaves only the pair. -/

/-- A slice number far beyond the 16 of the device: `cntGlz farSlice 6 = cntPmc 14` and `cntGlz farSlice 8 = cntPmc 16`. -/
abbrev farSlice : Nat := 0x180F0

/-- General counters 14 and 16 count the lookups of quad 0; the device holds these frames. -/
def lookupsCounted (frames : List (Nat × Frame)) : State :=
  { State.reset with
    frames := ⟨frames⟩
    regs := ⟨[(RegName.key .pmcCtrl 0 0 0, 1), (RegName.key .pmcCntCfg 0 0 14, 0x84000000),
      (RegName.key .pmcCntCfg 0 0 16, 0x84000000)]⟩ }

/-- Frame 0 waits for its receive SA, and no SA is loaded. -/
def saUnknown : State :=
  lookupsCounted [(0, { slice := farSlice, ing := .landing, walk := { st := .waitSa }, sec := some { kind := 1, off := 12 } })]

/-- Refutes O30: at `saUnknown` the frame's lookups are issued in the same step, and CIR_RX_NOSA, which has the key of a
general counter of lookups, is 2 more and not 1. -/
theorem not_receivedFramesAreDecrypted : ¬ Obligations.ReceivedFramesAreDecrypted := by
  unfold Obligations.ReceivedFramesAreDecrypted
  rintro ⟨-, noSa, -⟩
  obtain ⟨t, run, -, -, count, -⟩ := noSa 0 { kind := 1, off := 12 } saUnknown rfl rfl rfl rfl rfl rfl
    ⟨rfl, rfl, fun g hg => absurd hg (Nat.not_lt_zero g)⟩
  cases run
  exact absurd count (by decide +kernel)

/-- A receive SA that has passed number 5 with a window of 0. -/
def windowPassed : Sa :=
  { tag := ⟨0, 0, true, false⟩, tx := false, suite := 1, an := 0, flags := 2, rxPort := 0, kekSlot := 0, window := 0
    sciSpi := [], salt := [], ssci := 0, softPn := 0, initPn := 1, keyStore := ⟨[], []⟩, rxTop := 5 }

/-- The security header of a frame decrypted with number 0. -/
def oldNumber : SecPart := { kind := 1, off := 12, sa := some 0, plain := some [] }

/-- Frame 0 is to be rejected, and frame 1 of its port, which is due, waits for it. -/
def rejectedFirst : State :=
  { lookupsCounted [(0, { slice := farSlice, ing := .landing, walk := { st := .accepted }, sec := some oldNumber }),
      (1, { ing := .landing, walk := { st := .accepted }, due := true })] with
    glz := { sa := ⟨[(0, some windowPassed)]⟩ } }

/-- Refutes O31: at `rejectedFirst` the rejected frame leaves, the lookups of the frame behind it are issued in the same
step, and CIR_REPLAY, which has the key of a general counter of lookups, is 2 more and not 1. -/
theorem not_replayUnitAcceptsEachNumberOnce : ¬ Obligations.ReplayUnitAcceptsEachNumberOnce := by
  unfold Obligations.ReplayUnitAcceptsEachNumberOnce
  rintro ⟨check, -⟩
  obtain ⟨-, reject, -⟩ := check 0 0 oldNumber windowPassed [] rejectedFirst rfl rfl rfl rfl rfl rfl rfl rfl
  obtain ⟨t, run, -, -, count, -⟩ := reject rfl rfl
  cases run
  exact absurd count (by decide +kernel)

/-- The version of circuit 0, whose transmit SA is in slot 0. -/
def onlyVersion : CirVer :=
  { tag := ⟨0, 0, true, false⟩, mode := 1, port := 0, eq := 0, rewrite := 0, txSel := 0, flags := 0, ovh := 0, hdrMax := 128
    data := [] }

/-- The resident cache entry of circuit 0. -/
def onlyEntry : TxEntry := { sa := 0, circuit := 0, born := 0, pins := 1, resident := true }

/-- Frame 0 of circuit 0 is on pair 0 of slice 0 and also among the frames that wait for room there, but has no place at
egress. -/
def heldTwice : State :=
  { State.reset with
    frames := ⟨[(0, { circuit := some 0 })]⟩
    glz := { cir := ⟨[(0, [onlyVersion])]⟩, cache := ⟨[(0, [onlyEntry])]⟩, pairs := ⟨[(0, { frames := [0] })]⟩
             moved := ⟨[(0, [0])]⟩ } }

/-- Refutes O32: at `heldTwice` the frame whose numbers disagree is discarded, and then takes the room of a spare pair as
the first that waits for it: it is in the device again. -/
theorem not_lanePairsReleaseOnlyMatchedFrames : ¬ Obligations.LanePairsReleaseOnlyMatchedFrames := by
  unfold Obligations.LanePairsReleaseOnlyMatchedFrames
  rintro ⟨-, outcomes, -⟩
  obtain ⟨-, -, disagree, -⟩ := outcomes 0 0 0 [] onlyEntry heldTwice (by decide) rfl rfl rfl rfl rfl rfl rfl
  obtain ⟨t, run, gone, -⟩ := disagree (by decide)
  cases run
  exact absurd gone (by decide +kernel)

end Sys2Proof.Claims

namespace Sys2Proof.Claims

open Sys2Proof.Machine

set_option Elab.async false

/-! What parts that are the same say of the accessors -/

theorem OnlyIn.frame_same {ps : List Part} {s t : State} (h : OnlyIn ps s t) (frames : Part.frames ∉ ps) (g : Nat) :
    t.frame g = s.frame g := by
  have same : t.frames = s.frames := h .frames frames
  rw [State.frame, same, State.frame]

theorem OnlyIn.lane_same {ps : List Part} {s t : State} (h : OnlyIn ps s t) (lanes : Part.lanes ∉ ps) (q : Nat) :
    sameLane (s.port q) (t.port q) :=
  h .lanes lanes q

/-- A change of the ports' lanes that puts no frame in reception. -/
def NoNewRx (s t : State) : Prop := ∀ q, (s.port q).rx = none → (t.port q).rx = none

theorem NoNewRx.trans {s t u : State} (h : NoNewRx s t) (k : NoNewRx t u) : NoNewRx s u := fun q hq => k q (h q hq)

theorem OnlyIn.noNewRx {ps : List Part} {s t : State} (h : OnlyIn ps s t) (lanes : Part.lanes ∉ ps) : NoNewRx s t :=
  fun q hq => (h.lane_same lanes q).1.trans hq

theorem noNewRx_setPort (s : State) (p : Nat) (x : PortState) (h : (s.port p).rx = none → x.rx = none) :
    NoNewRx s (s.setPort p x) := by
  intro q hq
  rw [State.port_setPort]
  split
  · next e => exact h (e ▸ hq)
  · exact hq

/-! A frame that leaves the device (R59) -/

theorem frame_issueNow_other (s : State) {f g : Nat} (h : g ≠ f) : (s.issueNow f).frame g = s.frame g := by
  rw [State.issueNow, (onlyIn_pmcCount _ _ _ _ _).frame_same (by decide), State.frame_setFrame_other _ _ h]

/-- Issuing lookups in order changes no frame outside the landing areas. -/
theorem frame_issueInOrder (s : State) (l : List Nat) {g : Nat} (h : (s.frame g).ing ≠ .landing) :
    (s.issueInOrder l).frame g = s.frame g := by
  induction l generalizing s with
  | nil => rfl
  | cons f rest ih =>
    simp only [State.issueInOrder]
    split
    · exact ih s h
    · next holds =>
      split
      · have other : g ≠ f := by
          rintro rfl
          simp [State.holdsIssue, h] at holds
        have same := frame_issueNow_other s other
        rw [ih _ (same ▸ h), same]
      · rfl

theorem frame_issueReady (s : State) (p : Nat) {g : Nat} (h : (s.frame g).ing ≠ .landing) :
    (s.issueReady p).frame g = s.frame g :=
  frame_issueInOrder s _ h

theorem frame_leave_self (s : State) (f : Nat) (how : Leaving) : (s.leave f how).frame f = {} := by
  simp only [State.leave]
  rw [(onlyIn_refDown _ _).frame_same (by decide), State.frame_setFrame]

theorem frame_remove_self (s : State) (f : Nat) (how : Leaving) : (s.remove f how).frame f = {} := by
  simp only [State.remove]
  split
  · assumption
  · split
    · rw [frame_issueReady _ _ (by simp [frame_leave_self]), frame_leave_self]
    · exact frame_leave_self _ _ _

@[simp] theorem frame_discard_self (s : State) (f : Nat) : (s.discard f).frame f = {} := frame_remove_self _ _ _

/-- A frame is taken out of wherever it is in steps: it gives up its claim, its place in the landing area, its places in
VOQs and at egress, and leaves; then the lookups of later frames may be issued. What every step keeps, removal keeps. -/
theorem remove_keeps {R : State → State → Prop} (refl : ∀ s, R s s) (trans : ∀ {s t u}, R s t → R t u → R s u)
    (buffers : ∀ {s t}, OnlyIn [.bpm] s t → R s t) (landing : ∀ s f, R s (s.leaveLanding f))
    (egress : ∀ s f, R s (s.leaveEgress f)) (leave : ∀ s f how, R s (s.leave f how))
    (issue : ∀ s p, R s (s.issueReady p)) (s : State) (f : Nat) (how : Leaving) : R s (s.remove f how) := by
  have optional (c : Prop) [Decidable c] {s t u : State} (h : R s t) (k : R s u) : R s (if c then t else u) := by
    split
    · exact h
    · exact k
  simp only [State.remove]
  refine optional _ (refl _) ?_
  have left : R s ((s.dropClaim f).leaveLanding f) := trans (buffers (onlyIn_dropClaim _ _)) (landing _ _)
  have placed := trans left (optional ((s.frame f).ing = .none ∨ (s.frame f).ing = .landing) (refl _)
    (buffers (onlyIn_leaveVoqs _ f (s.frame f).voqKey)))
  have sent := trans (trans placed (optional ((s.frame f).eg = .none) (refl _) (egress _ f))) (leave _ f how)
  exact optional _ (trans sent (issue _ _)) sent

/-! No frame in reception but by a frame's start -/

theorem noNewRx_leaveLanding (s : State) (f : Nat) : NoNewRx s (s.leaveLanding f) := by
  simp only [State.leaveLanding]
  split
  · refine noNewRx_setPort _ _ _ fun h => ?_
    dsimp only
    split
    · rfl
    · exact h
  · exact fun _ => id

theorem noNewRx_leaveEgress (s : State) (f : Nat) : NoNewRx s (s.leaveEgress f) := by
  refine NoNewRx.trans ?_ (noNewRx_setPort _ _ _ id)
  exact (((onlyIn_setQueue _ _ _).mono (qs := [.sched, .bur, .glz])).trans (onlyIn_bur _ _).mono).trans
    (onlyIn_glz _ _).mono |>.noNewRx (by decide)

/-- What a frame may change as it leaves, its places given up before: no lane. -/
theorem onlyIn_leave_offLanes (s : State) (f : Nat) (how : Leaving) :
    OnlyIn (recordParts ++ cacheParts ++ [.sched, .bpm, .fab, .gen]) s (s.leave f how) := by
  have name (u : State) : OnlyIn [.bpm] u (if how = .sent then u else u.clearName f) := by
    split
    · exact .refl _ _
    · exact onlyIn_clearName _ _
  simp only [State.leave]
  refine OnlyIn.trans ?_ ((onlyIn_setFrame _ _ _).mono.trans (onlyIn_refDown _ _).mono)
  refine OnlyIn.trans ?_ (name _).mono
  refine OnlyIn.trans ?_ (onlyIn_freeEgress _ _).mono
  exact ((onlyIn_sampleRecord _ _ _).mono.trans (onlyIn_sched _ _).mono).trans (onlyIn_unpin _ _).mono

theorem noNewRx_remove (s : State) (f : Nat) (how : Leaving) : NoNewRx s (s.remove f how) :=
  remove_keeps (R := NoNewRx) (fun _ _ => id) NoNewRx.trans (fun h => h.noNewRx (by decide)) noNewRx_leaveLanding noNewRx_leaveEgress
    (fun s f how => (onlyIn_leave_offLanes s f how).noNewRx (by decide))
    (fun s p => (onlyIn_issueReady s p).noNewRx (by decide)) s f how

theorem noNewRx_discard (s : State) (f : Nat) : NoNewRx s (s.discard f) := noNewRx_remove _ _ _

end Sys2Proof.Claims

namespace Sys2Proof.Machine

/-- The frame that starts on port `p`, before it is numbered. -/
def State.starting (s : State) (p : Port) (bytes : Bytes) (e : RxEnd) : Frame :=
  { port := p, gen := (s.portGen p).latch, bytes := bytes, rxError := e = .error, slice := p.val / 8, set := portSet p
    ing := .landing }

/-- A frame with room in the landing area of its port begins to be received: `u` is the state with its time, the
port's latch and the port's bandwidth window brought up to date. -/
def State.receive (u : State) (p : Port) (bytes : Bytes) (e : RxEnd) : State :=
  let v := u.addFrame (u.starting p bytes e)
  let w := (v.setPort p { v.port p with rx := some u.nextFrame }).takeArea p u.nextFrame bytes.length
  w.setFrame u.nextFrame (w.frontEnd (w.frame u.nextFrame))

/-- The port of a frame whose last byte arrives receives no frame. -/
def State.endRx (s : State) (p : Nat) : State := s.setPort p { s.port p with rx := none }

/-- What the MAC does with a frame that passes its checks. -/
def State.macPass (s : State) (f : Nat) (x : Frame) : State :=
  let u := ((s.pmcCount 1 x.port 0 1).pmcCount 1 x.port 1 x.bytes.length).setFrame f { x with bytes := x.body, ended := true }
  let v := if x.marker then u.markerSwitch x else u
  if x.marker && v.bit .genMkrCtrl 0 0 16 then ((v.countFailed x).bump (cntMarker x.port)).discard f else v.ingressSettle f

end Sys2Proof.Machine

namespace Sys2Proof.Claims

open Sys2Proof.Machine

set_option Elab.async false

/-! A frame starts (R57, R71, R104, R117, R314) -/

/-- What switches by time switches a latch. -/
theorem timeSwitch_gen (s : State) (p : Nat) : ∃ x, s.timeSwitch p = { s with gen := x } := by
  simp only [State.timeSwitch, State.switchPort]
  split
  · split
    · split
      · split
        · exact ⟨_, rfl⟩
        · exact ⟨_, rfl⟩
      · exact ⟨_, rfl⟩
    · exact ⟨_, rfl⟩
  · exact ⟨_, rfl⟩

theorem countBw_pmc (s : State) (p : Nat) (tx : Bool) (t n : Nat) : ∃ x, s.countBw p tx t n = { s with pmc := x } := by
  simp only [State.countBw]
  split
  · exact ⟨_, rfl⟩
  · exact ⟨_, rfl⟩

/-- The tag front end writes a frame's tags, its marker, its header vector and its walk. -/
theorem frontEnd_fields (s : State) (x : Frame) :
    ∃ tags marker hv walk, s.frontEnd x = { x with tags := tags, marker := marker, hv := hv, walk := walk } := by
  simp only [State.frontEnd]
  split
  · exact ⟨_, _, _, _, rfl⟩
  · exact ⟨_, _, _, _, rfl⟩

theorem onlyIn_addFrame (s : State) (x : Frame) : OnlyIn [.gen, .frames, .nextFrame] s (s.addFrame x) := by
  intro p hp
  have same := SamePart.refl s p
  cases p
  case gen | frames | nextFrame => exact absurd (by decide) hp
  all_goals exact same

theorem exec_frameStart {p : Port} {dt : Nat} {bytes : Bytes} {e : RxEnd} {s : State} (idle : (s.port p).rx = none)
    (mode : s.mode = .forward ∨ s.mode = .factoryTest) (up : (s.port p).link = .up)
    (room : s.landed p + bytes.length ≤ s.landingSize p) :
    ∃ g m, exec (.frameStart p dt bytes e) s = .next (State.receive { s.advance dt with gen := g, pmc := m } p bytes e) := by
  obtain ⟨g, switched⟩ := timeSwitch_gen (s.advance dt) p
  obtain ⟨m, counted⟩ := countBw_pmc { s.advance dt with gen := g } p false (s.advance dt).now bytes.length
  refine ⟨g, m, ?_⟩
  show execFrameStart p dt bytes e s = _
  have runs : ¬ ((s.advance dt).mode ≠ .forward ∧ (s.advance dt).mode ≠ .factoryTest) := by
    rw [State.advance_mode]
    rintro ⟨a, b⟩
    exact mode.elim a b
  have linked : ((s.advance dt).port p).link = .up := up
  simp only [execFrameStart, idle, Option.isSome_none, Bool.false_eq_true, if_false, runs, linked, ne_eq,
    not_true_eq_false, switched, counted]
  have free : ¬ State.landingSize { s.advance dt with gen := g, pmc := m } p <
      State.landed { s.advance dt with gen := g, pmc := m } p + bytes.length := Nat.not_lt.mpr room
  rw [if_neg free]
  rfl

theorem receive_frame (u : State) (p : Port) (bytes : Bytes) (e : RxEnd) :
    ∃ tags marker hv walk, (u.receive p bytes e).frame u.nextFrame =
      { u.starting p bytes e with
        sofNs := u.now, sofSec := u.ptpSec, sofNano := u.ptpNano, sofFrac := u.ptpFrac, group := u.nextFrame
        tags := tags, marker := marker, hv := hv, walk := walk } := by
  have added : (u.addFrame (u.starting p bytes e)).frame u.nextFrame =
      { u.starting p bytes e with
        sofNs := u.now, sofSec := u.ptpSec, sofNano := u.ptpNano, sofFrac := u.ptpFrac, group := u.nextFrame } :=
    Tab.get_set_same _ _ _ _
  rw [State.receive, State.frame_setFrame]
  have ported (v : State) (x : PortState) (n : Nat) :
      ((v.setPort p x).takeArea p u.nextFrame n).frame u.nextFrame = v.frame u.nextFrame := by
    rw [State.takeArea, (onlyIn_setPort _ _ _).frame_same (by decide), (onlyIn_setPort _ _ _).frame_same (by decide)]
  obtain ⟨tags, marker, hv, walk, written⟩ := frontEnd_fields
    (((u.addFrame (u.starting p bytes e)).setPort p
      { (u.addFrame (u.starting p bytes e)).port p with rx := some u.nextFrame }).takeArea p u.nextFrame bytes.length)
    ((u.addFrame (u.starting p bytes e)).frame u.nextFrame)
  refine ⟨tags, marker, hv, walk, ?_⟩
  rw [ported, written, added]

theorem receive_frame_other (u : State) (p : Port) (bytes : Bytes) (e : RxEnd) {g : Nat} (h : g ≠ u.nextFrame) :
    (u.receive p bytes e).frame g = u.frame g := by
  rw [State.receive, State.frame_setFrame_other _ _ h, State.takeArea, (onlyIn_setPort _ _ _).frame_same (by decide),
    (onlyIn_setPort _ _ _).frame_same (by decide)]
  exact Tab.get_set_other _ _ _ h

theorem receive_rx (u : State) (p : Port) (bytes : Bytes) (e : RxEnd) :
    ((u.receive p bytes e).port p).rx = some u.nextFrame := by
  show ((State.takeArea _ _ _ _).port p).rx = _
  rw [State.takeArea, State.port_setPort, if_pos rfl, State.port_setPort, if_pos rfl]

theorem receive_port_other (u : State) (p : Port) (bytes : Bytes) (e : RxEnd) {q : Nat} (h : q ≠ p) :
    (u.receive p bytes e).port q = u.port q := by
  show (State.takeArea _ _ _ _).port q = _
  rw [State.takeArea, State.port_setPort, if_neg h, State.port_setPort, if_neg h]
  rfl

theorem onlyIn_receive (u : State) (p : Port) (bytes : Bytes) (e : RxEnd) :
    OnlyIn [.gen, .lanes, .frames, .nextFrame] u (u.receive p bytes e) := by
  have lane (v : State) (r : Option Nat) (l : List (Nat × Nat)) :
      OnlyIn [.lanes] v (v.setPort p { v.port p with rx := r, area := l }) :=
    onlyIn_setPort_sameLink _ _ _ ⟨rfl, rfl, rfl, rfl, rfl, rfl⟩
  exact (((onlyIn_addFrame _ _).mono.trans (lane _ _ _).mono).trans (lane _ _ _).mono).trans (onlyIn_setFrame _ _ _).mono

theorem receive_nextFrame (u : State) (p : Port) (bytes : Bytes) (e : RxEnd) :
    (u.receive p bytes e).nextFrame = u.nextFrame + 1 := by
  simp only [State.receive, State.setFrame_nextFrame, State.takeArea, State.setPort_nextFrame]
  rfl

theorem receive_portGen (u : State) (p : Port) (bytes : Bytes) (e : RxEnd) (q : Nat) :
    (u.receive p bytes e).portGen q = u.portGen q := by
  simp only [State.receive, State.portGen, State.setFrame_gen, State.takeArea, State.setPort_gen]
  rfl

/-- A frame that starts with room in the landing area is being received. -/
theorem frameStart_receives {p : Port} {dt : Nat} {bytes : Bytes} {e : RxEnd} {s : State} (idle : (s.port p).rx = none)
    (mode : s.mode = .forward ∨ s.mode = .factoryTest) (up : (s.port p).link = .up)
    (room : s.landed p + bytes.length ≤ s.landingSize p) :
    ∃ t, exec (.frameStart p dt bytes e) s = .next t ∧ (t.port p).rx = some s.nextFrame ∧ t.nextFrame = s.nextFrame + 1 ∧
      t.now = s.now + dt ∧
      (let x := t.frame s.nextFrame
       x.origin = .wire ∧ x.port = p.val ∧ x.bytes = bytes ∧ x.ended = false ∧ x.ing = .landing ∧ x.eg = .none ∧
       x.sofNs = s.now + dt ∧ x.slice = p.val / 8 ∧ x.rxError = decide (e = .error) ∧ x.gen = (t.portGen p).latch) ∧
      (∀ g, g ≠ s.nextFrame → t.frame g = s.frame g) ∧ (∀ q : Port, q ≠ p → t.port q = s.port q) ∧
      OnlyIn [.time, .gen, .lanes, .frames, .nextFrame, .pmc] s t := by
  obtain ⟨g, m, run⟩ := exec_frameStart (dt := dt) (e := e) idle mode up room
  have only := onlyIn_receive { s.advance dt with gen := g, pmc := m } p bytes e
  refine ⟨_, run, receive_rx _ _ _ _, receive_nextFrame _ _ _ _, ?_, ?_, fun k hk => receive_frame_other _ _ _ _ hk,
    fun q hq => receive_port_other _ _ _ _ fun h => hq (Fin.ext h), ?_⟩
  · exact (only .time (by decide)).1
  · obtain ⟨tags, marker, hv, walk, x⟩ := receive_frame { s.advance dt with gen := g, pmc := m } p bytes e
    rw [receive_portGen]
    exact x ▸ ⟨rfl, rfl, rfl, rfl, rfl, rfl, rfl, rfl, rfl, rfl⟩
  · refine OnlyIn.trans ?_ only.mono
    exact ((onlyIn_advance s dt).mono.trans (onlyIn_gen (s.advance dt) g).mono).trans
      (onlyIn_pmc { s.advance dt with gen := g } m).mono

/-- In a mode that forwards nothing a frame's start is only counted (R512). -/
theorem frameStart_counts_mode {p : Port} {s : State} (idle : (s.port p).rx = none) (forward : s.mode ≠ .forward)
    (test : s.mode ≠ .factoryTest) (dt : Nat) (bytes : Bytes) (e : RxEnd) :
    exec (.frameStart p dt bytes e) s = .next ((s.advance dt).bump (cntModeDisc p)) := by
  show execFrameStart p dt bytes e s = _
  simp [execFrameStart, idle, forward, test]

/-- At a port that is not UP a frame's start is only counted (R96). -/
theorem frameStart_counts_notUp {p : Port} {s : State} (idle : (s.port p).rx = none)
    (mode : s.mode = .forward ∨ s.mode = .factoryTest) (down : (s.port p).link ≠ .up) (dt : Nat) (bytes : Bytes) (e : RxEnd) :
    exec (.frameStart p dt bytes e) s = .next ((s.advance dt).bump (cntNotUp p)) := by
  show execFrameStart p dt bytes e s = _
  have linked : ((s.advance dt).port p).link ≠ .up := down
  rcases mode with mode | mode <;> simp [execFrameStart, idle, mode, linked]

/-! A frame ends (R17, R66, R86, R87) -/

theorem onlyIn_endRx (s : State) (p : Nat) : OnlyIn [.lanes] s (s.endRx p) :=
  onlyIn_setPort_sameLink _ _ _ ⟨rfl, rfl, rfl, rfl, rfl, rfl⟩

theorem endRx_rx (s : State) (p : Nat) : ((s.endRx p).port p).rx = none := by
  rw [State.endRx, State.port_setPort, if_pos rfl]

theorem endRx_black (s : State) (p q : Nat) : (s.endRx p).black q = s.black q := by
  simp [State.endRx, State.black, State.bit, State.reg, State.regOf]

/-- A frame without a failed walk goes on from its last byte to its result. -/
theorem ingressSettle_of_not_failed {s : State} {f : Nat} (h : ∀ k, (s.frame f).walk.st ≠ .failed k) :
    s.ingressSettle f = s := by
  unfold State.ingressSettle
  dsimp only
  split
  · next k failed => exact absurd failed (h k)
  · rfl

/-- A frame that is no marker stays as it is received, without its FCS. -/
theorem macPass_of_plain {x : Frame} (h : x.marker = false) (s : State) (f : Nat) :
    s.macPass f x =
      (((s.pmcCount 1 x.port 0 1).pmcCount 1 x.port 1 x.bytes.length).setFrame f
        { x with bytes := x.body, ended := true }).ingressSettle f := by
  have noMarker : ¬ x.marker := by simp [h]
  have noSwitch (b : Bool) : ¬ (x.marker && b) := by simp [h]
  unfold State.macPass
  dsimp only
  rw [if_neg (noSwitch _), if_neg noMarker]

/-- The MAC's checks of a frame at its last byte (R17, R86, R87). -/
theorem exec_frameEnd {f : Nat} {s : State} (rx : (s.port (s.frame f).port).rx = some f) :
    exec (.frameEnd f) s = .next
      (if (s.frame f).rxError || (s.frame f).bytes.length < 4 || !fcsOk (s.frame f).bytes then
         ((s.endRx (s.frame f).port).bump (cntFcs (s.frame f).port)).discard f
       else if (s.frame f).bytes.length < 64 ∨
           (if s.black (s.frame f).port then 10368 else 10240) < (s.frame f).bytes.length then
         ((s.endRx (s.frame f).port).bump (cntPrt (s.frame f).port 0)).discard f
       else if etherTypeOf (s.frame f).body = 0x8808 then
         (((s.endRx (s.frame f).port).countFailed (s.frame f)).bump (cntPrt (s.frame f).port 1)).discard f
       else (s.endRx (s.frame f).port).macPass f (s.frame f)) := by
  rw [← endRx_black s (s.frame f).port (s.frame f).port]
  show execFrameEnd f s = _
  simp only [execFrameEnd, rx, ne_eq, not_true_eq_false, if_false]
  rfl

/-- A frame that the MAC accepts stays in the landing area without its FCS. -/
theorem frameEnd_accepts {f : Nat} {s : State} (rx : (s.port (s.frame f).port).rx = some f)
    (clean : (s.frame f).rxError = false) (fcs : fcsOk (s.frame f).bytes = true) (long : 64 ≤ (s.frame f).bytes.length)
    (short : (s.frame f).bytes.length ≤ (if s.black (s.frame f).port then 10368 else 10240))
    (type : etherTypeOf (s.frame f).body ≠ 0x8808) (plain : (s.frame f).marker = false)
    (walk : ∀ k, (s.frame f).walk.st ≠ .failed k) :
    ∃ t, exec (.frameEnd f) s = .next t ∧ (t.port (s.frame f).port).rx = none ∧
      t.frame f = { s.frame f with bytes := (s.frame f).body, ended := true } ∧ (∀ g, g ≠ f → t.frame g = s.frame g) ∧
      OnlyIn [.cntCfg, .cnts, .lanes, .frames] s t := by
  set u := ((s.endRx (s.frame f).port).pmcCount 1 (s.frame f).port 0 1).pmcCount 1 (s.frame f).port 1 (s.frame f).bytes.length
  set v := u.setFrame f { s.frame f with bytes := (s.frame f).body, ended := true }
  have counted : OnlyIn [.cntCfg, .cnts] (s.endRx (s.frame f).port) u :=
    (onlyIn_pmcCount _ _ _ _ _).mono.trans (onlyIn_pmcCount _ _ _ _ _).mono
  have passed : (s.endRx (s.frame f).port).macPass f (s.frame f) = v := by
    rw [macPass_of_plain plain]
    refine ingressSettle_of_not_failed ?_
    rw [State.frame_setFrame]
    exact walk
  refine ⟨v, ?_, ?_, State.frame_setFrame _ _ _, fun g hg => ?_, ?_⟩
  · have sum : ((s.frame f).rxError || decide ((s.frame f).bytes.length < 4) || !fcsOk (s.frame f).bytes) = false := by
      simp [clean, fcs, show ¬ (s.frame f).bytes.length < 4 by omega]
    rw [exec_frameEnd rx, sum, if_neg Bool.false_ne_true, if_neg (by omega), if_neg type, passed]
  · show (u.port _).rx = none
    rw [(counted.lane_same (by decide) _).1, endRx_rx]
  · rw [State.frame_setFrame_other _ _ hg, counted.frame_same (by decide), (onlyIn_endRx _ _).frame_same (by decide)]
  · exact ((onlyIn_endRx _ _).mono.trans counted.mono).trans (onlyIn_setFrame _ _ _).mono

theorem onlyIn_countFailed (s : State) (x : Frame) : OnlyIn [.cnts] s (s.countFailed x) := by
  simp only [State.countFailed]
  split
  · exact onlyIn_bump _ _
  · exact .refl _ _

/-- A frame with a wrong FCS, a wrong length or in MAC control is counted and discarded. -/
theorem exec_frameEnd_discards {f : Nat} {s : State} (rx : (s.port (s.frame f).port).rx = some f)
    (bad : (s.frame f).rxError = true ∨ fcsOk (s.frame f).bytes = false ∨ (s.frame f).bytes.length < 64 ∨
      (if s.black (s.frame f).port then 10368 else 10240) < (s.frame f).bytes.length ∨
      etherTypeOf (s.frame f).body = 0x8808) :
    ∃ u, OnlyIn [.cnts] (s.endRx (s.frame f).port) u ∧ exec (.frameEnd f) s = .next (u.discard f) := by
  have control (sum : ¬ ((s.frame f).rxError || decide ((s.frame f).bytes.length < 4) || !fcsOk (s.frame f).bytes))
      (length : ¬ ((s.frame f).bytes.length < 64 ∨
        (if s.black (s.frame f).port then 10368 else 10240) < (s.frame f).bytes.length)) :
      etherTypeOf (s.frame f).body = 0x8808 := by
    simp only [Bool.or_eq_true, not_or, Bool.not_eq_true', Bool.not_eq_false] at sum length
    rcases bad with error | wrong | small | large | control
    · exact absurd error sum.1.1
    · simp [wrong] at sum
    · exact absurd small length.1
    · exact absurd large length.2
    · exact control
  rw [exec_frameEnd rx]
  by_cases sum : (s.frame f).rxError || decide ((s.frame f).bytes.length < 4) || !fcsOk (s.frame f).bytes
  · rw [if_pos sum]
    exact ⟨_, onlyIn_bump _ _, rfl⟩
  rw [if_neg sum]
  by_cases length : (s.frame f).bytes.length < 64 ∨
      (if s.black (s.frame f).port then 10368 else 10240) < (s.frame f).bytes.length
  · rw [if_pos length]
    exact ⟨_, onlyIn_bump _ _, rfl⟩
  rw [if_neg length, if_pos (control sum length)]
  exact ⟨_, (onlyIn_countFailed _ _).trans (onlyIn_bump _ _), rfl⟩

theorem frameEnd_discards {f : Nat} {s : State} (rx : (s.port (s.frame f).port).rx = some f)
    (bad : (s.frame f).rxError = true ∨ fcsOk (s.frame f).bytes = false ∨ (s.frame f).bytes.length < 64 ∨
      (if s.black (s.frame f).port then 10368 else 10240) < (s.frame f).bytes.length ∨
      etherTypeOf (s.frame f).body = 0x8808) :
    ∃ t, exec (.frameEnd f) s = .next t ∧ (t.port (s.frame f).port).rx = none ∧ t.frame f = {} ∧ OnlyIn leaveParts s t := by
  obtain ⟨u, counted, run⟩ := exec_frameEnd_discards rx bad
  refine ⟨_, run, noNewRx_discard _ _ _ ?_, frame_discard_self _ _, ?_⟩
  · exact (counted.lane_same (by decide) _).1.trans (endRx_rx _ _)
  · exact ((onlyIn_endRx _ _).mono.trans counted.mono).trans (onlyIn_discard _ _)

/-- Settles O12: a frame's start takes its stamps and its latch before it is added, and a frame's end either leaves the
frame in the landing area or discards it, and a discarded frame is gone whatever it held. -/
theorem framesAreReceived : Obligations.FramesAreReceived := by
  unfold Obligations.FramesAreReceived
  refine ⟨?_, ?_, ?_, ?_⟩
  · exact fun p dt bytes e s idle mode up room => frameStart_receives idle mode up room
  · exact fun p dt bytes e s idle => ⟨fun forward test => frameStart_counts_mode idle forward test dt bytes e,
      fun mode down => frameStart_counts_notUp idle mode down dt bytes e⟩
  · exact fun f s rx clean fcs long short type plain walk => frameEnd_accepts rx clean fcs long short type plain walk
  · intro f s rx bad
    obtain ⟨t, run, idle, gone, only⟩ := frameEnd_discards rx bad
    exact ⟨t, run, idle, gone, only.mono⟩

end Sys2Proof.Claims

/-! What the transmit path of Glaze keeps as frames are discarded and dispatched (R224, R228, R232, R252) -/

namespace Sys2Proof.Claims

open Sys2Proof.Machine

set_option Elab.async false

/-- What dispatch may change: what a discard may, and the faults, records and numbers that go with it. -/
abbrev dispatchParts : List Part := leaveParts ++ [.flt, .kiln, .draws, .hbm]

/-- What dispatch keeps: the result of each pair's last test, the retirements that run, the categories beyond their
envelope, and every fault source but that of configuration errors. -/
structure Serves (s t : State) : Prop where
  only : OnlyIn dispatchParts s t
  good : ∀ k, (t.glz.pairs.get {} k).good = (s.glz.pairs.get {} k).good
  running : t.flt.running = s.flt.running
  degraded : t.flt.degraded = s.flt.degraded
  source : ∀ n, n ≠ 0x4FF → t.fsrc n = s.fsrc n

/-- What the suspension of a circuit keeps besides: every SA and circuit version, and that a circuit is suspended. -/
structure Discards (s t : State) : Prop where
  serves : Serves s t
  sa : t.glz.sa = s.glz.sa
  cir : t.glz.cir = s.glz.cir
  suspended : ∀ c, (s.cirState c).suspended = true → (t.cirState c).suspended = true

theorem Serves.refl (s : State) : Serves s s := ⟨.refl _ _, fun _ => rfl, rfl, rfl, fun _ _ => rfl⟩

theorem Serves.trans {s t u : State} (h : Serves s t) (k : Serves t u) : Serves s u where
  only := h.only.trans k.only
  good n := (k.good n).trans (h.good n)
  running := k.running.trans h.running
  degraded := k.degraded.trans h.degraded
  source n hn := (k.source n hn).trans (h.source n hn)

theorem Discards.refl (s : State) : Discards s s := ⟨.refl _, rfl, rfl, fun _ => id⟩

theorem Discards.trans {s t u : State} (h : Discards s t) (k : Discards t u) : Discards s u where
  serves := h.serves.trans k.serves
  sa := k.sa.trans h.sa
  cir := k.cir.trans h.cir
  suspended c hc := k.suspended c (h.suspended c hc)

theorem Discards.runOver {α : Type} {f : α → State → State} (h : ∀ a s, Discards s (f a s)) (l : List α) (s : State) :
    Discards s (Machine.runOver l f s) := by
  unfold Machine.runOver
  induction l generalizing s with
  | nil => exact .refl _
  | cons a l ih => exact (h a s).trans (ih _)

/-- A step outside Glaze and Saggar. -/
theorem OnlyIn.discards {ps : List Part} {s t : State} (h : OnlyIn ps s t)
    (sub : ∀ p ∈ ps, p ∈ dispatchParts := by decide) (glz : Part.glz ∉ ps := by decide)
    (flt : Part.flt ∉ ps := by decide) : Discards s t := by
  have sameGlz : t.glz = s.glz := h .glz glz
  have sameFlt : t.flt = s.flt := h .flt flt
  exact ⟨⟨h.mono sub, fun _ => by rw [sameGlz], by rw [sameFlt], by rw [sameFlt], fun _ _ => by
    rw [State.fsrc, sameFlt, State.fsrc]⟩, by rw [sameGlz], by rw [sameGlz], fun _ => by
    rw [State.cirState, State.cirState, sameGlz]; exact id⟩

/-- A step within Glaze that changes no pair's last test. -/
theorem OnlyIn.servesGlz {s t : State} (h : OnlyIn [.glz] s t)
    (good : ∀ k, (t.glz.pairs.get {} k).good = (s.glz.pairs.get {} k).good) : Serves s t := by
  have sameFlt : t.flt = s.flt := h .flt (by decide)
  exact ⟨h.mono, good, by rw [sameFlt], by rw [sameFlt], fun _ _ => by rw [State.fsrc, sameFlt, State.fsrc]⟩

/-- A step on the fault source of configuration errors. -/
theorem discards_setFsrc (s : State) (x : FaultSource) : Discards s (s.setFsrc 0x4FF x) where
  serves := ⟨(onlyIn_setFsrc _ _ _).mono, fun _ => rfl, rfl, rfl, fun _ hn => State.fsrc_setFsrc_other _ _ hn⟩
  sa := rfl
  cir := rfl
  suspended _ := id

/-! Discards -/

theorem discards_setCache (s : State) (i : Nat) (l : List TxEntry) : Discards s (s.setCache i l) :=
  ⟨(onlyIn_setCache _ _ _).servesGlz fun _ => rfl, rfl, rfl, fun _ => id⟩

theorem discards_setCacheWait (s : State) (i : Nat) (l : List Nat) : Discards s (s.setCacheWait i l) :=
  ⟨(onlyIn_setCacheWait _ _ _).servesGlz fun _ => rfl, rfl, rfl, fun _ => id⟩

theorem discards_pinKey {s t : State} {i : Nat} {k : CacheKey} (h : s.pinKey i k = some t) : Discards s t := by
  simp only [State.pinKey] at h
  split at h
  · split at h
    · cases h
    · cases h
      exact discards_setCache _ _ _
  · split at h
    · cases h
      exact discards_setCache _ _ _
    · obtain ⟨l, -, rfl⟩ := Option.map_eq_some_iff.mp h
      exact discards_setCache _ _ _

theorem discards_pinRequest {s t : State} {i r : Nat} (h : s.pinRequest i r = some t) : Discards s t := by
  simp only [State.pinRequest] at h
  split at h <;> split at h
  · obtain ⟨u, pin, rfl⟩ := Option.map_eq_some_iff.mp h
    exact (discards_pinKey pin).trans (onlyIn_setCps _ _ _).discards
  · cases h
    exact .refl _
  · obtain ⟨u, pin, rfl⟩ := Option.map_eq_some_iff.mp h
    exact (discards_pinKey pin).trans (onlyIn_modFrame _ _ _).discards
  · cases h
    exact .refl _

theorem discards_serveCacheN (s : State) (i n : Nat) : Discards s (s.serveCacheN i n) := by
  induction n generalizing s with
  | zero => exact .refl _
  | succ n ih =>
    simp only [State.serveCacheN]
    split
    · exact .refl _
    · split
      · next served => exact ((discards_setCacheWait _ _ _).trans (discards_pinRequest served)).trans (ih _)
      · exact .refl _

theorem discards_unpin (s : State) (f : Nat) : Discards s (s.unpin f) := by
  simp only [State.unpin]
  split
  · split
    · exact ((discards_setCacheWait _ _ _).trans (discards_setCache _ _ _)).trans
        ((onlyIn_setFrame _ _ _).discards.trans (discards_serveCacheN _ _ _))
    · exact (discards_setCacheWait _ _ _).trans (onlyIn_setFrame _ _ _).discards
  · exact discards_setCacheWait _ _ _

theorem discards_leave (s : State) (f : Nat) (how : Leaving) : Discards s (s.leave f how) := by
  have name (u : State) : Discards u (if how = .sent then u else u.clearName f) := by
    split
    · exact .refl _
    · exact (onlyIn_clearName _ _).discards
  simp only [State.leave]
  refine Discards.trans ?_ ((onlyIn_setFrame _ _ _).discards.trans (onlyIn_refDown _ _).discards)
  refine Discards.trans ?_ (name _)
  refine Discards.trans ?_ (onlyIn_freeEgress _ _).discards
  exact ((onlyIn_sampleRecord _ _ _).discards.trans (onlyIn_sched _ _).discards).trans (discards_unpin _ _)

/-- A frame leaves the pairs and the lists of a slice. -/
theorem discards_leaveEgress (s : State) (f : Nat) : Discards s (s.leaveEgress f) := by
  have pairs (u : State) (m w : Tab (List Nat)) : Discards u { u with glz := { u.glz with
      moved := m, waiting := w, pairs := u.glz.pairs.mapCells {} fun _ p => { p with frames := p.frames.filter (· ≠ f) } } } :=
    ⟨(onlyIn_glz _ _).servesGlz fun k => by dsimp only; rw [Tab.get_mapCells _ _ _ _ rfl], rfl, rfl, fun _ => id⟩
  have path (u : State) (p : Nat) (l : List Nat) (o : Option Nat) :
      Discards u (u.setPort p { u.port p with path := l, tx := o }) :=
    OnlyIn.discards (ps := [.lanes]) (onlyIn_setPort_sameLink _ _ _ ⟨rfl, rfl, rfl, rfl, rfl, rfl⟩)
  refine Discards.trans ?_ (path _ _ _ _)
  exact ((onlyIn_setQueue _ _ _).discards.trans (onlyIn_bur _ _).discards).trans (pairs _ _ _)

theorem discards_discard (s : State) (f : Nat) : Discards s (s.discard f) :=
  remove_keeps (R := Discards) .refl .trans (fun h => h.discards) (fun s f => (onlyIn_leaveLanding s f).discards)
    discards_leaveEgress discards_leave (fun s p => (onlyIn_issueReady s p).discards) _ _ _

/-! Completions -/

theorem discards_flushRecord (s : State) (why : Reason) : Discards s (s.flushRecord 0x4FF why) :=
  (discards_setFsrc _ _).trans (onlyIn_faultRecord _ _).discards

theorem discards_heldRecord (s : State) (why : Reason) : Discards s (s.heldRecord 0x4FF why) := by
  simp only [State.heldRecord]
  split
  · exact .refl _
  · split
    · exact discards_flushRecord _ _
    · exact (discards_setFsrc _ _).trans (discards_flushRecord _ _)

theorem discards_countedEvents (s : State) (t cause detail : Nat) (why : Reason) (k : Nat) :
    Discards s (s.countedEvents 0x4FF t cause detail why k) := by
  induction k generalizing s with
  | zero => exact .refl _
  | succ k ih =>
    simp only [State.countedEvents]
    have noted : Discards s (s.noteEvent 0x4FF t cause detail) := discards_setFsrc _ _
    refine noted.trans (Discards.trans ?_ (ih _))
    split
    · exact discards_flushRecord _ _
    · exact discards_heldRecord _ _

theorem discards_configError (s : State) (f : Fn) (a : Nat) : Discards s (s.configError f a) := by
  have kind : sourceKind 0x4FF = .information := by decide
  simp only [State.configError, State.faultEventAt, kind, if_true]
  split
  · exact .refl _
  · exact ((discards_setFsrc _ _).trans (onlyIn_bumpBy _ _ _).discards).trans (discards_countedEvents _ _ _ _ _ _)

theorem discards_handOn (s : State) (r : Nat) : Discards s (s.handOn r) := by
  simp only [State.handOn]
  split
  · exact .refl _
  · split
    · exact .refl _
    · split
      · refine Discards.trans ?_ (onlyIn_haltComplete _ _ _ _ _ _).discards
        split
        · exact (onlyIn_setRing _ _ _).discards.trans (discards_configError _ _ _)
        · exact (onlyIn_setRing _ _ _).discards
      · exact (onlyIn_setRing _ _ _).discards.trans (onlyIn_setRing _ _ _).discards

theorem discards_complete (s : State) (r : Nat) (st : Status) (info : Nat) (result : Bytes) :
    Discards s (s.complete r st info result) := by
  simp only [State.complete]
  split
  · exact .refl _
  · split
    · exact (onlyIn_haltComplete _ _ _ _ _ _).discards
    · split
      · exact (onlyIn_plainComplete _ _ _ _ _ _).discards.trans (onlyIn_abortFetched _ _).discards
      · exact (onlyIn_plainComplete _ _ _ _ _ _).discards.trans (discards_handOn _ _)

/-! Suspension and poison (R235, R252) -/

/-- A circuit's state changes, and it stays suspended if it was. -/
theorem discards_setCirState (s : State) (c : Nat) (x : CirState)
    (h : (s.cirState c).suspended = true → x.suspended = true) : Discards s (s.setCirState c x) where
  serves := (onlyIn_setCirState _ _ _).servesGlz fun _ => rfl
  sa := rfl
  cir := rfl
  suspended d hd := by
    by_cases e : d = c
    · subst e
      simpa using h hd
    · rwa [State.cirState_setCirState_other _ _ e]

theorem discards_setFlushes (s : State) (c : Nat) (l : List CirFlush) :
    Discards s (s.setCirState c { s.cirState c with flushes := l }) := discards_setCirState _ _ _ id

theorem discards_offDiscard (s : State) (f : Nat) (suspended : Bool) : Discards s (s.offDiscard f suspended) :=
  (onlyIn_bump _ _).discards.trans (discards_discard _ _)

theorem discards_startFlush (s : State) (c : Nat) (ring : Option Nat) : Discards s (s.startFlush c ring) :=
  ((discards_setFlushes s c _).trans (.runOver (fun _ _ => discards_offDiscard _ _ _) _ _)).trans
    (onlyIn_panicSync _).discards

theorem discards_endFlush (s : State) (c : Nat) : Discards s (s.endFlush c) :=
  (discards_setFlushes s c _).trans (.runOver (fun _ _ => discards_complete _ _ _ _ _) _ _)

theorem discards_glzRecord (s : State) (type sa an count number : Nat) :
    Discards s (s.glzRecord type sa an count number) :=
  (onlyIn_writeRecord _ _ _ _ _ _).discards

theorem discards_suspend (s : State) (c : Nat) (why : Option Nat) : Discards s (s.suspend c why) := by
  simp only [State.suspend]
  split
  · exact .refl _
  · have set : Discards s (s.setCirState c { s.cirState c with suspended := true }) :=
      discards_setCirState _ _ _ fun _ => rfl
    refine (set.trans ?_).trans ((discards_startFlush _ _ _).trans (discards_endFlush _ _))
    split
    · exact discards_glzRecord _ _ _ _ _ _
    · exact (onlyIn_draw _ _).discards.trans (discards_glzRecord _ _ _ _ _ _)

/-- A circuit that is suspended is suspended afterwards. -/
theorem suspended_suspend (s : State) (c : Nat) (why : Option Nat) : ((s.suspend c why).cirState c).suspended = true := by
  by_cases h : (s.cirState c).suspended = true
  · exact (discards_suspend s c why).suspended c h
  · have set : ((s.setCirState c { s.cirState c with suspended := true }).cirState c).suspended = true := by simp
    simp only [State.suspend, if_neg h]
    refine ((Discards.trans ?_ (discards_startFlush _ _ _)).trans (discards_endFlush _ _)).suspended c set
    split
    · exact discards_glzRecord _ _ _ _ _ _
    · exact (onlyIn_draw _ _).discards.trans (discards_glzRecord _ _ _ _ _ _)

theorem serves_setSa (s : State) (k : Nat) (x : Option Sa) : Serves s (s.setSa k x) :=
  (onlyIn_setSa _ _ _).servesGlz fun _ => rfl

theorem serves_poisonSa (s : State) (k : Nat) : Serves s (s.poisonSa k) := by
  simp only [State.poisonSa]
  split
  · split
    · exact .refl _
    · exact (serves_setSa _ _ _).trans ((discards_suspend _ _ _).trans (discards_glzRecord _ _ _ _ _ _)).serves
  · exact .refl _

theorem serves_poisonVersion (s : State) (c : Nat) (born : Gen) : Serves s (s.poisonVersion c born) :=
  ((onlyIn_setCirVers _ _ _).servesGlz fun _ => rfl).trans (discards_suspend _ _ _).serves

/-- An SA that is poisoned is so afterwards, and its circuit is suspended. -/
theorem poisonSa_poisons (s : State) (k : Nat) (a : Sa) (held : s.saOf k = some a) (sound : a.poison = false) :
    (s.poisonSa k).saOf k = some { a with poison := true } ∧ ((s.poisonSa k).cirState (k / 4)).suspended = true := by
  have keeps := (discards_suspend (s.setSa k (some { a with poison := true })) (k / 4) (some k))
  have record (u : State) (n : Nat) : Discards u (u.glzRecord 0x0032 k a.an 0 n) := discards_glzRecord _ _ _ _ _ _
  simp only [State.poisonSa, held, sound, Bool.false_eq_true, if_false]
  refine ⟨?_, (record _ _).suspended _ (suspended_suspend _ _ _)⟩
  rw [State.saOf, (keeps.trans (record _ _)).sa]
  exact State.saOf_setSa _ _ _

/-- Every version of the circuit born in the generation is poisoned, and the circuit is suspended. -/
theorem poisonVersion_poisons (s : State) (c : Nat) (born : Gen) :
    (∀ v ∈ (s.poisonVersion c born).cirVers c, v.tag.born = born → v.poison = true) ∧
      ((s.poisonVersion c born).cirState c).suspended = true := by
  refine ⟨fun v hv hb => ?_, suspended_suspend _ _ _⟩
  simp only [State.poisonVersion, State.cirVers] at hv
  rw [(discards_suspend _ _ _).cir] at hv
  simp only [State.setCirVers, Tab.get_set_same, List.mem_map] at hv
  obtain ⟨w, -, rfl⟩ := hv
  split at hb
  · simp [*]
  · contradiction

/-! Numbering and dispatch (R224, R228, R232) -/

theorem serves_setPn (s : State) (key n : Nat) : Serves s (s.setPn key n) := by
  have numbers : Serves s { s with glz := { s.glz with
      nextPn := s.glz.nextPn.set 0 key n, nextPnB := s.glz.nextPnB.set 0 key n } } :=
    (onlyIn_glz _ _).servesGlz fun _ => rfl
  exact (numbers.trans (onlyIn_wordWrite _ _ _).discards.serves).trans (onlyIn_wordWrite _ _ _).discards.serves

theorem serves_softCheck (s : State) (k : Nat) : Serves s (s.softCheck k) := by
  simp only [State.softCheck]
  split
  · split
    · exact .refl _
    · exact (serves_setSa _ _ _).trans (discards_glzRecord _ _ _ _ _ _).serves
  · exact .refl _

theorem serves_takeNumber {s t : State} {f : Nat} (h : s.takeNumber f = some t) : Serves s t := by
  simp only [State.takeNumber] at h
  split at h
  · split at h
    · split at h
      · cases h
      · cases h
        exact ((serves_setPn _ _ _).trans (onlyIn_setFrame _ _ _).discards.serves).trans (serves_softCheck _ _)
    · cases h
  · cases h

theorem serves_tornDiscard (s : State) (f sa : Nat) : Serves s (s.tornDiscard f sa) :=
  ((serves_poisonSa _ _).trans (onlyIn_bump _ _).discards.serves).trans (discards_discard _ _).serves

theorem serves_exhausted (s : State) (f : Nat) : Serves s (s.exhausted f) := by
  simp only [State.exhausted]
  refine Serves.trans ?_ (discards_discard _ _).serves
  refine (onlyIn_bump s (cntGlz ((s.frame f).outPort / 8) 5)).discards.serves.trans ?_
  split
  · split
    · exact .refl _
    · exact (serves_setSa _ _ _).trans (discards_glzRecord _ _ _ _ _ _).serves
  · exact .refl _

theorem good_setPair (s : State) (i u : Nat) (x : LanePair) (h : x.good = (s.pair i u).good) (k : Nat) :
    ((s.setPair i u x).glz.pairs.get {} k).good = (s.glz.pairs.get {} k).good := by
  simp only [State.setPair, Tab.get_set]
  split
  · next e => exact e ▸ h
  · rfl

/-- The frames on a pair change. -/
theorem serves_setFrames (s : State) (i u : Nat) (l : List Nat) :
    Serves s (s.setPair i u { s.pair i u with frames := l }) :=
  (onlyIn_setPair _ _ _ _).servesGlz (good_setPair s i u _ rfl)

theorem serves_placeIn {s t : State} {i f : Nat} {l : List Nat} (h : s.placeIn i f l = some t) : Serves s t := by
  obtain ⟨u, -, rfl⟩ := Option.map_eq_some_iff.mp h
  exact (serves_setFrames _ _ _ _).trans (onlyIn_modFrame _ _ _).discards.serves

theorem serves_setMoved (s : State) (i : Nat) (l : List Nat) : Serves s (s.setMoved i l) :=
  (onlyIn_setMoved _ _ _).servesGlz fun _ => rfl

theorem serves_setWaiting (s : State) (i : Nat) (l : List Nat) : Serves s (s.setWaiting i l) :=
  (onlyIn_setWaiting _ _ _).servesGlz fun _ => rfl

theorem serves_serveMoved (s : State) (i n : Nat) : Serves s (s.serveMoved i n) := by
  induction n generalizing s with
  | zero => exact .refl _
  | succ n ih =>
    simp only [State.serveMoved]
    split
    · exact .refl _
    · split
      · next placed => exact ((serves_placeIn placed).trans (serves_setMoved _ _ _)).trans (ih _)
      · exact .refl _

theorem serves_serveWaiting (s : State) (i n : Nat) : Serves s (s.serveWaiting i n) := by
  have place (t : State) (f : Nat) (l : List Nat) : Serves t ((t.placeIn i f l).getD t) := by
    cases h : t.placeIn i f l with
    | none => exact .refl _
    | some u => exact serves_placeIn h
  induction n generalizing s with
  | zero => exact .refl _
  | succ n ih =>
    simp only [State.serveWaiting]
    split
    · exact .refl _
    · next f rest _ =>
      split
      · refine (serves_setWaiting s i rest).trans ?_
        split
        · exact (serves_tornDiscard _ _ _).trans (ih _)
        · next numbered => exact ((serves_takeNumber numbered).trans (place _ _ _)).trans (ih _)
        · exact (serves_exhausted _ _).trans (ih _)
      · exact .refl _

theorem serves_dispatch (s : State) (i : Nat) : Serves s (s.dispatch i) := by
  simp only [State.dispatch]
  split
  · exact (serves_serveMoved _ _ _).trans (serves_serveWaiting _ _ _)
  · exact serves_serveMoved _ _ _

theorem serves_movePair (s : State) (i u : Nat) : Serves s (s.movePair i u) := by
  have frames (t : State) : Serves t (runOver (s.pair i u).frames
      (fun f s => s.modFrame f fun x => { x with eg := .dispatch, glzPair := u }) t) :=
    (Discards.runOver (fun _ _ => (onlyIn_modFrame _ _ _).discards) _ t).serves
  exact (((serves_setFrames s i u []).trans (frames _)).trans (serves_setMoved _ _ _)).trans (serves_dispatch _ _)

end Sys2Proof.Claims

/-! Retirement, tests of spares and the filling of cache entries (R37, R220, R221, R233, R235, R242, R423, R425, R429) -/

namespace Sys2Proof.Claims

open Sys2Proof.Machine

set_option Elab.async false

/-! Saggar as a retirement ends -/

theorem noteRetired_flt (s : State) (n v : Nat) : (s.noteRetired n v).flt = (s.endRetirement n).flt := by
  have record (t : State) (x : FaultNote) : (t.faultRecord x).flt = t.flt := onlyIn_faultRecord _ _ .flt (by decide)
  have entry (t : State) (b : Bytes) : (t.kilnPerm 0x0011 3 b).flt = t.flt := onlyIn_kilnPerm _ _ _ _ .flt (by decide)
  simp only [State.noteRetired, State.endRetirement]
  split
  · rw [record]
  · rw [entry, record]

theorem retired_endRetirement (s : State) (n : Nat) : ((s.endRetirement n).fsrc n).retired = true :=
  congrArg FaultSource.retired (State.fsrc_setFsrc _ _ _)

theorem running_endRetirement (s : State) (n : Nat) : (s.endRetirement n).flt.running.contains n = false := by
  simp [State.endRetirement]

theorem retired_noteRetired (s : State) (n v : Nat) : ((s.noteRetired n v).fsrc n).retired = true := by
  rw [State.fsrc, noteRetired_flt]
  exact retired_endRetirement s n

theorem running_noteRetired (s : State) (n v : Nat) : (s.noteRetired n v).flt.running.contains n = false := by
  rw [noteRetired_flt]
  exact running_endRetirement s n

/-- A category beyond its envelope is noted, and nothing else of Saggar changes. -/
theorem degrade_flt (s : State) (n : Nat) : (s.degrade n).flt = if s.flt.degraded.contains (sourceCat n) then s.flt
    else { s.flt with degraded := s.flt.degraded ++ [sourceCat n] } := by
  have record (x : FaultNote) : (s.faultRecord x).flt = s.flt := onlyIn_faultRecord _ _ .flt (by decide)
  have entry (t : State) (b : Bytes) : (t.kilnPerm 0x0014 3 b).flt = t.flt := onlyIn_kilnPerm _ _ _ _ .flt (by decide)
  simp only [State.degrade, record]
  split
  · exact record _
  · split
    · rfl
    · exact entry _ _

theorem degraded_degrade (s : State) (n : Nat) : (s.degrade n).flt.degraded.contains (sourceCat n) = true := by
  rw [degrade_flt]
  split
  · assumption
  · simp

theorem fsrc_degrade (s : State) (n m : Nat) : (s.degrade n).fsrc m = s.fsrc m := by
  rw [State.fsrc, degrade_flt]
  split <;> rfl

theorem rejectSpare_fsrc (s : State) (n : Nat) :
    ((s.rejectSpare n).fsrc n).perm = true ∧ ((s.rejectSpare n).fsrc n).retired = true := by
  have record (t : State) (x : FaultNote) : (t.faultRecord x).flt = t.flt := onlyIn_faultRecord _ _ .flt (by decide)
  have entry (t : State) (b : Bytes) : (t.kilnPerm 0x0012 3 b).flt = t.flt := onlyIn_kilnPerm _ _ _ _ .flt (by decide)
  have flt : (s.rejectSpare n).flt.src = (s.setFsrc n { s.fsrc n with perm := true, retired := true }).flt.src := by
    simp only [State.rejectSpare]
    split
    · rw [record]
    · rw [entry, record]
  have set : (s.rejectSpare n).fsrc n = { s.fsrc n with perm := true, retired := true } := by
    rw [State.fsrc, flt]
    exact State.fsrc_setFsrc _ _ _
  simp [set]

theorem onlyIn_rejectSpare (s : State) (n : Nat) : OnlyIn faultParts s (s.rejectSpare n) := by
  have queue (t : State) : OnlyIn [.flt] t { t with flt := { t.flt with queue := t.flt.queue.filter (· ≠ n) } } :=
    onlyIn_flt _ _
  have noted : OnlyIn faultParts s ((({ s.setFsrc n { s.fsrc n with perm := true, retired := true } with
      flt := { (s.setFsrc n { s.fsrc n with perm := true, retired := true }).flt with
        queue := s.flt.queue.filter (· ≠ n) } } : State)).faultRecord
          { source := n, reason := .spareRejected, firstTime := s.now, time := s.now }) :=
    ((onlyIn_setFsrc _ _ _).mono.trans (queue _).mono).trans (onlyIn_faultRecord _ _).mono
  simp only [State.rejectSpare]
  split
  · exact noted
  · exact noted.trans (onlyIn_kilnPerm _ _ _ _).mono

/-- The sources of encrypt pairs make up category 2. -/
theorem sourceCat_pair (i : Slice) (u : Fin 12) : sourceCat (pairSource i u) = 2 := by
  have := i.isLt
  have := u.isLt
  have above : ¬ pairSource i u < 0x30 := by simp only [pairSource]; omega
  have below : pairSource i u < 0x100 := by simp only [pairSource]; omega
  simp [sourceCat, below, above, show ¬ pairSource i u < 0x12 by omega,
    show pairSource i u ≠ 0x31 by simp only [pairSource]; omega]

/-- The sources of decrypt lanes make up category 3. -/
theorem sourceCat_lane (i : Slice) (l : Fin 12) : sourceCat (0x100 + 12 * i.val + l.val) = 3 := by
  have := i.isLt
  have := l.isLt
  simp only [sourceCat]
  simp [show ¬ 0x100 + 12 * i.val + l.val < 0x12 by omega, show ¬ 0x100 + 12 * i.val + l.val < 0x30 by omega,
    show ¬ 0x100 + 12 * i.val + l.val = 0x31 by omega, show ¬ 0x100 + 12 * i.val + l.val < 0x100 by omega,
    show 0x100 + 12 * i.val + l.val < 0x1C0 by omega]

theorem pairSource_ne_configError (i : Slice) (u : Fin 12) : pairSource i u ≠ 0x4FF := by
  have := i.isLt
  have := u.isLt
  simp only [pairSource]
  omega

/-! What keeps the maps of units -/

theorem OnlyIn.encMap_same {ps : List Part} {s t : State} (h : OnlyIn ps s t) (i : Nat)
    (units : Part.units ∉ ps := by decide) : t.encMap i = s.encMap i := by
  have same : t.units = s.units := h .units units
  rw [State.encMap, same, State.encMap]

theorem OnlyIn.decMap_same {ps : List Part} {s t : State} (h : OnlyIn ps s t) (i : Nat)
    (units : Part.units ∉ ps := by decide) : t.decMap i = s.decMap i := by
  have same : t.units = s.units := h .units units
  rw [State.decMap, same, State.decMap]

theorem OnlyIn.pair_same {ps : List Part} {s t : State} (h : OnlyIn ps s t) (i u : Nat)
    (glz : Part.glz ∉ ps := by decide) : t.pair i u = s.pair i u := by
  have same : t.glz = s.glz := h .glz glz
  rw [State.pair, same, State.pair]

/-! Known-answer tests (R232, R425) -/

/-- What a test or a retirement of a pair may change. -/
abbrev pairParts : List Part := .units :: dispatchParts

theorem exec_laneKat (i : Slice) (decrypt : Bool) (u : Fin 12) (pass : Bool) (s : State)
    (h : (((if decrypt then s.decMap i else s.encMap i).spares 12).contains u.val = true ∧
        (s.fsrc ((if decrypt then 0x100 else 0x40) + 12 * i.val + u.val)).retired = false) ∨
      (if decrypt then s.decMap i else s.encMap i).fenced.contains u.val = true) :
    exec (.laneKat i decrypt u pass) s = .next (s.laneTest decrypt i u pass) := by
  have tested : ((((if decrypt then s.decMap i else s.encMap i).spares 12).contains u.val &&
      !(s.fsrc ((if decrypt then 0x100 else 0x40) + 12 * i.val + u.val)).retired) ||
      (if decrypt then s.decMap i else s.encMap i).fenced.contains u.val) = true := by
    rcases h with ⟨spare, inUse⟩ | fenced
    · rw [spare, inUse]; rfl
    · rw [fenced, Bool.or_true]
  exact congrArg Host.Outcome.next (if_pos tested)

/-- A pair that passes its test is good and unfenced. -/
theorem laneTest_pass (s : State) (i : Nat) (u : Nat) : ((s.laneTest false i u true).pair i u).good = true ∧
    ((s.laneTest false i u true).encMap i).fenced.contains u = false ∧
    ((s.laneTest false i u true).encMap i).pos = (s.encMap i).pos ∧ OnlyIn pairParts s (s.laneTest false i u true) := by
  have served := serves_dispatch ((s.setPair i u { s.pair i u with good := true }).setEncMap i ((s.encMap i).unfence u)) i
  have test : s.laneTest false i u true =
      ((s.setPair i u { s.pair i u with good := true }).setEncMap i ((s.encMap i).unfence u)).dispatch i := rfl
  rw [test, served.only.encMap_same i, State.encMap_setEncMap]
  refine ⟨?_, ?_, rfl, ?_⟩
  · rw [State.pair, served.good]
    simp [State.setPair]
  · simp [UnitMap.unfence]
  · exact ((onlyIn_setPair _ _ _ _).mono.trans (onlyIn_setEncMap _ _ _).mono).trans served.only.mono

/-- A spare pair that fails its test is retired. -/
theorem laneTest_failPair (s : State) (i u : Nat) (h : ((s.encMap i).spares 12).contains u = true) :
    ((s.laneTest false i u false).pair i u).good = false ∧
    ((s.laneTest false i u false).encMap i).retired = (s.encMap i).retired ++ [u] ∧
    ((s.laneTest false i u false).fsrc (0x40 + 12 * i + u)).perm = true ∧
    ((s.laneTest false i u false).fsrc (0x40 + 12 * i + u)).retired = true ∧
    OnlyIn pairParts s (s.laneTest false i u false) := by
  have test : s.laneTest false i u false =
      (((s.setPair i u { s.pair i u with good := false }).fault (0x40 + 12 * i + u) 0 0).setEncMap i
        { s.encMap i with retired := (s.encMap i).retired ++ [u] }).rejectSpare (0x40 + 12 * i + u) := if_pos h
  obtain ⟨perm, retired⟩ := rejectSpare_fsrc (((s.setPair i u { s.pair i u with good := false }).fault
    (0x40 + 12 * i + u) 0 0).setEncMap i { s.encMap i with retired := (s.encMap i).retired ++ [u] }) (0x40 + 12 * i + u)
  rw [test, (onlyIn_rejectSpare _ _).pair_same, (onlyIn_setEncMap _ _ _).pair_same, (onlyIn_fault _ _ _ _).pair_same,
    (onlyIn_rejectSpare _ _).encMap_same, State.encMap_setEncMap]
  refine ⟨by simp [State.setPair, State.pair], rfl, perm, retired, ?_⟩
  exact (((onlyIn_setPair _ _ _ _).mono.trans (onlyIn_fault _ _ _ _).mono).trans (onlyIn_setEncMap _ _ _).mono).trans
    (onlyIn_rejectSpare _ _).mono

/-- A spare lane that fails its test is retired. -/
theorem laneTest_failLane (s : State) (i u : Nat) (h : ((s.decMap i).spares 12).contains u = true) :
    ((s.laneTest true i u false).decMap i).retired = (s.decMap i).retired ++ [u] ∧
    ((s.laneTest true i u false).fsrc (0x100 + 12 * i + u)).retired = true ∧
    OnlyIn pairParts s (s.laneTest true i u false) := by
  have test : s.laneTest true i u false =
      (((s.setGood true i u false).fault (0x100 + 12 * i + u) 0 0).setDecMap i
        { s.decMap i with retired := (s.decMap i).retired ++ [u] }).rejectSpare (0x100 + 12 * i + u) := if_pos h
  have good : OnlyIn [.glz] s (s.setGood true i u false) := onlyIn_glz _ _
  obtain ⟨-, retired⟩ := rejectSpare_fsrc (((s.setGood true i u false).fault (0x100 + 12 * i + u) 0
    0).setDecMap i { s.decMap i with retired := (s.decMap i).retired ++ [u] }) (0x100 + 12 * i + u)
  rw [test, (onlyIn_rejectSpare _ _).decMap_same, State.decMap_setDecMap]
  exact ⟨rfl, retired, ((good.mono.trans (onlyIn_fault _ _ _ _).mono).trans (onlyIn_setDecMap _ _ _).mono).trans
    (onlyIn_rejectSpare _ _).mono⟩

/-! Retirement (R233, R242, R429) -/

/-- The retired unit of a map gives up its positions, and its fence. -/
def retireUnit (m : UnitMap) (u : Nat) (spare : Option Nat) : UnitMap := (m.swap u spare).unfence u

/-- A retired pair's position is taken by a spare. -/
theorem exec_encPairRetire_spare (i : Slice) (u : Fin 12) (s : State) (v : Nat)
    (runs : s.flt.running.contains (pairSource i u) = true)
    (spare : ((s.encMap i).goodSpare 12 fun v => (s.pair i v).good) = some v) :
    exec (.encPairRetire i u) s = .next ((((s.setEncMap i (retireUnit (s.encMap i) u (some v))).noteRetired
      (pairSource i u) v).movePair i u).dispatch i) := by
  change execEncPairRetire i u s = _
  simp only [execEncPairRetire, runs, spare, Bool.not_true, Bool.false_eq_true, if_false, retireUnit]

/-- A retired pair's position is left empty. -/
theorem exec_encPairRetire_none (i : Slice) (u : Fin 12) (s : State)
    (runs : s.flt.running.contains (pairSource i u) = true)
    (spare : ((s.encMap i).goodSpare 12 fun v => (s.pair i v).good) = none) :
    exec (.encPairRetire i u) s = .next (((((s.setEncMap i (retireUnit (s.encMap i) u none)).endRetirement
      (pairSource i u)).degrade (pairSource i u)).movePair i u).dispatch i) := by
  change execEncPairRetire i u s = _
  simp only [execEncPairRetire, runs, spare, Bool.not_true, Bool.false_eq_true, if_false, retireUnit]

theorem exec_decLaneRetire_spare (i : Slice) (l : Fin 12) (s : State) (v : Nat)
    (runs : s.flt.running.contains (0x100 + 12 * i.val + l.val) = true)
    (spare : ((s.decMap i).goodSpare 12 fun v => (s.glz.lanes.get {} (i.val * 12 + v)).good) = some v) :
    exec (.decLaneRetire i l) s =
      .next ((s.setDecMap i ((s.decMap i).swap l (some v))).noteRetired (0x100 + 12 * i.val + l.val) v) := by
  change execDecLaneRetire i l s = _
  simp only [execDecLaneRetire, runs, spare, Bool.not_true, Bool.false_eq_true, if_false]

theorem exec_decLaneRetire_none (i : Slice) (l : Fin 12) (s : State)
    (runs : s.flt.running.contains (0x100 + 12 * i.val + l.val) = true)
    (spare : ((s.decMap i).goodSpare 12 fun v => (s.glz.lanes.get {} (i.val * 12 + v)).good) = none) :
    exec (.decLaneRetire i l) s = .next (((s.setDecMap i ((s.decMap i).swap l none)).endRetirement
      (0x100 + 12 * i.val + l.val)).degrade (0x100 + 12 * i.val + l.val)) := by
  change execDecLaneRetire i l s = _
  simp only [execDecLaneRetire, runs, spare, Bool.not_true, Bool.false_eq_true, if_false]

/-- The frames of a pair move and others are dispatched. -/
theorem serves_movePair_dispatch (s : State) (i u : Nat) : Serves s ((s.movePair i u).dispatch i) :=
  (serves_movePair _ _ _).trans (serves_dispatch _ _)

/-! The filling of a cache entry (R220, R221, R235) -/

theorem structBad_same {s t : State} (hbm : t.hbm = s.hbm) (units : t.units = s.units) (x : Struct) :
    t.structBad x = s.structBad x := by
  have group (g : Nat) : t.group g = s.group g := by rw [State.group, units, State.group]
  have seed : t.structSeed x = s.structSeed x := by cases x <;> simp only [State.structSeed, hbm]
  have lost (g j : Nat) : t.stripeLost g j = s.stripeLost g j := by simp only [State.stripeLost, group, hbm]
  simp only [State.structBad, State.structUnits, State.structAt, State.structGroups, State.unitBad, group, seed, lost, hbm]

/-- An entry's SA and version are read from HBM. -/
def readEntry (s : State) (e : TxEntry) : State := (s.structRead (.sa e.sa)).structRead (.version e.circuit e.born)

theorem onlyIn_readEntry (s : State) (e : TxEntry) : OnlyIn [.cnts, .cntCfg] s (readEntry s e) :=
  (onlyIn_structRead _ _).trans (onlyIn_structRead _ _)

theorem structBad_readEntry (s : State) (e : TxEntry) (x : Struct) : (readEntry s e).structBad x = s.structBad x :=
  structBad_same (onlyIn_readEntry s e .hbm (by decide)) (onlyIn_readEntry s e .units (by decide)) x

theorem readEntry_glz (s : State) (e : TxEntry) : (readEntry s e).glz = s.glz := onlyIn_readEntry s e .glz (by decide)

/-- What a refill does, by what the reads came to. -/
def fillWith (s : State) (i : Nat) (e : TxEntry) : FillResult → State
  | .ok => s.fillEntry i e
  | .saError => s.poisonSa e.sa
  | .versionError => s.poisonVersion e.circuit e.born

/-- A structure that cannot be read in HBM decides what a refill comes to. -/
def fillResult (s : State) (e : TxEntry) (res : FillResult) : FillResult :=
  if s.structBad (.sa e.sa) then .saError else if s.structBad (.version e.circuit e.born) then .versionError else res

theorem exec_txCacheFill (i : Slice) (res : FillResult) (s : State) (e : TxEntry) (h : s.fillNext i = some e) :
    exec (.txCacheFill i res) s = .next (fillWith (readEntry s e) i e (fillResult s e res)) := by
  change execTxCacheFill i res s = _
  rw [fillResult, ← structBad_readEntry s e (.sa e.sa), ← structBad_readEntry s e (.version e.circuit e.born)]
  simp only [execTxCacheFill, h]
  rfl

theorem fillResult_fillResult (s : State) (e : TxEntry) (res : FillResult) :
    fillResult s e (fillResult s e res) = fillResult s e res := by
  simp only [fillResult]
  split
  · rfl
  · split <;> rfl

theorem fillEntry_cache (s : State) (i : Nat) (e : TxEntry) : (s.fillEntry i e).cache i = (s.cache i).map fun x =>
    if x = e then { x with resident := true, copyA := s.txContents e, copyB := s.txContents e } else x := by
  simp [State.fillEntry, State.wordWrite, State.mapCache, State.setCache, State.cache]

theorem onlyIn_fillEntry (s : State) (i : Nat) (e : TxEntry) : OnlyIn [.glz, .hbm] s (s.fillEntry i e) :=
  ((onlyIn_setCache _ _ _).mono.trans (onlyIn_wordWrite _ _ _).mono).trans (onlyIn_wordWrite _ _ _).mono

/-! The obligation, by instruction -/

/-- A pair's position is taken or left empty before its frames move: the map and the source stay so. -/
theorem retire_pair (s t : State) (i : Slice) (u : Fin 12) (spare : Option Nat)
    (noted : OnlyIn faultParts (s.setEncMap i (retireUnit (s.encMap i) u spare)) t) :
    (((t.movePair i u).dispatch i).encMap i).pos = (s.encMap i).pos.map (fun x => if x = some u.val then spare else x) ∧
    (((t.movePair i u).dispatch i).encMap i).retired = (s.encMap i).retired ++ [u.val] ∧
    ((t.movePair i u).dispatch i).fsrc (pairSource i u) = t.fsrc (pairSource i u) ∧
    OnlyIn pairParts s ((t.movePair i u).dispatch i) := by
  have served := serves_movePair_dispatch t i u
  rw [served.only.encMap_same, noted.encMap_same, State.encMap_setEncMap]
  exact ⟨rfl, rfl, served.source _ (pairSource_ne_configError i u),
    ((onlyIn_setEncMap _ _ _).mono.trans noted.mono).trans served.only.mono⟩

/-- Settles O33: what a test found stands in the pair or lane, a retired unit's place in the map and its source, and
dispatch, which follows, touches neither (`Serves`); a refill runs by what the two reads came to. -/
theorem lanesAreTestedAndRetired : Obligations.LanesAreTestedAndRetired := by
  unfold Obligations.LanesAreTestedAndRetired
  refine ⟨fun i u s spare inUse => ⟨?_, ?_⟩, fun i u s spare inUse => ⟨?_, ?_⟩, fun i u s _ fenced => ?_,
    fun i u s runs => ⟨fun v spare => ?_, fun spare => ?_⟩, fun i l s runs => ⟨fun v spare => ?_, fun spare => ?_⟩,
    fun i e s next => ⟨fun sa version => ?_, ?_, fun a version held sound => ?_, fun sa => ?_⟩⟩
  · obtain ⟨good, fence, pos, only⟩ := laneTest_pass s i u
    exact ⟨_, exec_laneKat i false u true s (.inl ⟨spare, inUse⟩), good, fence, pos, only.mono⟩
  · obtain ⟨good, retired, perm, masked, only⟩ := laneTest_failPair s i u spare
    exact ⟨_, exec_laneKat i false u false s (.inl ⟨spare, inUse⟩), good, retired, perm, masked, only.mono⟩
  · refine ⟨_, exec_laneKat i true u true s (.inl ⟨spare, inUse⟩), ?_, rfl, onlyIn_glz _ _⟩
    exact congrArg LanePair.good (Tab.get_modify_same _ _ _ _)
  · obtain ⟨retired, masked, only⟩ := laneTest_failLane s i u spare
    exact ⟨_, exec_laneKat i true u false s (.inl ⟨spare, inUse⟩), retired, masked, only.mono⟩
  · obtain ⟨-, fence, pos, only⟩ := laneTest_pass s i u
    exact ⟨_, exec_laneKat i false u true s (.inr fenced), fence, pos, only.mono⟩
  · obtain ⟨pos, retired, source, only⟩ := retire_pair s _ i u (some v) (onlyIn_noteRetired _ (pairSource i u) v)
    refine ⟨_, exec_encPairRetire_spare i u s v runs spare, pos, retired, ?_, ?_, only.mono⟩
    · rw [source, retired_noteRetired]
    · rw [(serves_movePair_dispatch _ _ _).running, running_noteRetired]
  · obtain ⟨pos, -, source, only⟩ := retire_pair s _ i u none
      ((onlyIn_endRetirement _ (pairSource i u)).mono.trans (onlyIn_degrade _ (pairSource i u)))
    refine ⟨_, exec_encPairRetire_none i u s runs spare, pos, ?_, ?_, only.mono⟩
    · rw [(serves_movePair_dispatch _ _ _).degraded]
      exact sourceCat_pair i u ▸ degraded_degrade _ _
    · rw [source, fsrc_degrade, retired_endRetirement]
  · refine ⟨_, exec_decLaneRetire_spare i l s v runs spare, ?_, retired_noteRetired _ _ _,
      (onlyIn_setDecMap _ _ _).mono.trans (onlyIn_noteRetired _ _ _).mono⟩
    rw [(onlyIn_noteRetired _ _ _).decMap_same, State.decMap_setDecMap, UnitMap.swap]
  · refine ⟨_, exec_decLaneRetire_none i l s runs spare, ?_, sourceCat_lane i l ▸ degraded_degrade _ _,
      ((onlyIn_setDecMap _ _ _).mono.trans (onlyIn_endRetirement _ _).mono).trans (onlyIn_degrade _ _).mono⟩
    rw [(onlyIn_degrade _ _).decMap_same, (onlyIn_endRetirement _ _).decMap_same, State.decMap_setDecMap, UnitMap.swap]
  · refine ⟨_, exec_txCacheFill i .ok s e next, ?_⟩
    have contents : (readEntry s e).txContents e = s.txContents e := by
      simp only [State.txContents, State.saOf, readEntry_glz]
    have entries : (readEntry s e).cache i = s.cache i := by rw [State.cache, readEntry_glz, State.cache]
    simp only [fillResult, sa, version, Bool.false_eq_true, if_false, fillWith]
    refine ⟨?_, (onlyIn_readEntry _ _).mono.trans (onlyIn_fillEntry _ _ _).mono⟩
    rw [fillEntry_cache, contents, entries]
  · rw [exec_txCacheFill i .ok s e next, exec_txCacheFill i _ s e next]
    exact congrArg (fun r => Host.Outcome.next (fillWith (readEntry s e) i e r)) (fillResult_fillResult s e .ok).symm
  · have result : fillResult s e .saError = .saError := by simp [fillResult, version]
    have heldNow : (readEntry s e).saOf e.sa = some a := by rw [State.saOf, readEntry_glz]; exact held
    obtain ⟨poisoned, suspended⟩ := poisonSa_poisons _ _ _ heldNow sound
    refine ⟨_, exec_txCacheFill i .saError s e next, ?_⟩
    rw [result]
    exact ⟨poisoned, suspended, (onlyIn_readEntry _ _).mono.trans (serves_poisonSa _ _).only.mono⟩
  · have result : fillResult s e .versionError = .versionError := by simp [fillResult, sa]
    obtain ⟨poisoned, suspended⟩ := poisonVersion_poisons (readEntry s e) e.circuit e.born
    refine ⟨_, exec_txCacheFill i .versionError s e next, ?_⟩
    rw [result]
    exact ⟨poisoned, suspended, (onlyIn_readEntry _ _).mono.trans (serves_poisonVersion _ _ _).only.mono⟩

end Sys2Proof.Claims

/-! No command touches the queue of commands: one rule for each operation that a command is made of, which `simp`
composes, and one for each command (R29, R38) -/

namespace Sys2Proof.Claims

open Sys2Proof.Machine

set_option Elab.async false

/-! Outcomes, and steps in a row -/

/-- The outcome is a next state whose queue is that of `s`. -/
def QueueKept (s : State) : Host.Outcome State Fault Refusal → Prop
  | .next t => t.pending = s.pending
  | _ => False

@[simp] theorem queueKept_next (s t : State) : QueueKept s (.next t) ↔ t.pending = s.pending := Iff.rfl

@[simp] theorem pending_ite (c : Prop) [Decidable c] (t u : State) :
    (if c then t else u).pending = if c then t.pending else u.pending := apply_ite _ _ _ _

/-- A list of steps that keep the queue. -/
@[simp] theorem pending_runOver {α : Type} {f : α → State → State} (h : ∀ a u, (f a u).pending = u.pending)
    (l : List α) (s : State) : (runOver l f s).pending = s.pending := by
  unfold Machine.runOver
  induction l generalizing s with
  | nil => rfl
  | cons a l ih => exact (ih _).trans (h a s)

theorem pending_foldl {α : Type} {f : State → α → State} (l : List α) (h : ∀ u a, (f u a).pending = u.pending)
    (s : State) : (l.foldl f s).pending = s.pending := by
  induction l generalizing s with
  | nil => rfl
  | cons a l ih => exact (ih _).trans (h s a)

/-- What a step that also answers leaves: the state of the pair. -/
theorem pending_of_fst {α : Type} {s t : State} {p : State × α} {a : α} (h : p = (t, a))
    (kept : p.1.pending = s.pending) : t.pending = s.pending := by
  subst h
  exact kept

theorem pending_of_snd {α : Type} {s t : State} {p : α × State} {a : α} (h : p = (a, t))
    (kept : p.2.pending = s.pending) : t.pending = s.pending := by
  subst h
  exact kept

/-! The operations that every chapter shares -/

@[simp] theorem pending_advanceTo (s : State) (t : Nat) : (s.advanceTo t).pending = s.pending := by
  simp [State.advanceTo]

@[simp] theorem pending_pmcCount (s : State) (unit inst event n : Nat) :
    (s.pmcCount unit inst event n).pending = s.pending := onlyIn_pmcCount _ _ _ _ _ .pending (by decide)

@[simp] theorem pending_emit (s : State) (o : Out) : (s.emit o).pending = s.pending :=
  onlyIn_emit _ _ .pending (by decide)

@[simp] theorem pending_draw (s : State) (w : Nat) : (s.draw w).2.pending = s.pending := by simp [State.draw]

@[simp] theorem pending_setPendingWith (s : State) (n : Nat) (f : IntSource → IntSource) :
    (s.setPendingWith n f).pending = s.pending := by simp [State.setPendingWith]

@[simp] theorem pending_refUp (s : State) (g : Gen) : (s.refUp g).pending = s.pending := by simp [State.refUp]

@[simp] theorem pending_touchCtx (s : State) (r : Nat) : (s.touchCtx r).pending = s.pending :=
  onlyIn_touchCtx _ _ .pending (by decide)

@[simp] theorem pending_writeBack (s : State) (r : Nat) : (s.writeBack r).pending = s.pending :=
  onlyIn_writeBack _ _ .pending (by decide)

@[simp] theorem pending_ringIrq (s : State) (r : Nat) : (s.ringIrq r).pending = s.pending :=
  onlyIn_ringIrq _ _ .pending (by decide)

@[simp] theorem pending_putOverflow (s : State) (r : Nat) : (s.putOverflow r).pending = s.pending :=
  onlyIn_putOverflow _ _ .pending (by decide)

@[simp] theorem pending_writeRecord (s : State) (f : Fn) (r type time : Nat) (body : Bytes) :
    (s.writeRecord f r type time body).pending = s.pending := onlyIn_writeRecord _ _ _ _ _ _ .pending (by decide)

@[simp] theorem pending_ctrlRecord (s : State) (f : Fn) (type : Nat) (body : Bytes) :
    (s.ctrlRecord f type body).pending = s.pending := onlyIn_ctrlRecord _ _ _ _ .pending (by decide)

@[simp] theorem pending_kilnLog (s : State) (type fn : Nat) (data : Bytes) :
    (s.kilnLog type fn data).pending = s.pending := onlyIn_kilnLog _ _ _ _ .pending (by decide)

@[simp] theorem pending_kilnPerm (s : State) (type fn : Nat) (data : Bytes) :
    (s.kilnPerm type fn data).pending = s.pending := onlyIn_kilnPerm _ _ _ _ .pending (by decide)

@[simp] theorem pending_faultRecord (s : State) (n : FaultNote) : (s.faultRecord n).pending = s.pending :=
  onlyIn_faultRecord _ _ .pending (by decide)

@[simp] theorem pending_flushRecord (s : State) (n : Nat) (why : Reason) : (s.flushRecord n why).pending = s.pending :=
  onlyIn_flushRecord _ _ _ .pending (by decide)

@[simp] theorem pending_noteEvent (s : State) (n t cause detail : Nat) :
    (s.noteEvent n t cause detail).pending = s.pending := onlyIn_noteEvent _ _ _ _ _ .pending (by decide)

@[simp] theorem pending_heldRecord (s : State) (n : Nat) (why : Reason) : (s.heldRecord n why).pending = s.pending :=
  onlyIn_heldRecord _ _ _ .pending (by decide)

@[simp] theorem pending_degrade (s : State) (n : Nat) : (s.degrade n).pending = s.pending :=
  onlyIn_degrade _ _ .pending (by decide)

@[simp] theorem pending_classify (s : State) (n : Nat) : (s.classify n).pending = s.pending :=
  onlyIn_classify _ _ .pending (by decide)

@[simp] theorem pending_faultEventAt (s : State) (n cause detail k t : Nat) :
    (s.faultEventAt n cause detail k t).pending = s.pending := onlyIn_faultEventAt _ _ _ _ _ _ .pending (by decide)

@[simp] theorem pending_fault (s : State) (n cause detail : Nat) : (s.fault n cause detail).pending = s.pending :=
  onlyIn_fault _ _ _ _ .pending (by decide)

@[simp] theorem pending_takeCorrupt (s : State) (n : Nat) : (s.takeCorrupt n).2.pending = s.pending := by
  simp [State.takeCorrupt]

@[simp] theorem pending_takeCorrupts (s : State) (n k : Nat) : (s.takeCorrupts n k).2.pending = s.pending := by
  simp [State.takeCorrupts]

@[simp] theorem pending_configError (s : State) (f : Fn) (addr : Nat) : (s.configError f addr).pending = s.pending :=
  onlyIn_configError _ _ _ .pending (by decide)

@[simp] theorem pending_lateLap (s : State) : s.lateLap.pending = s.pending := onlyIn_lateLap _ .pending (by decide)

@[simp] theorem pending_poisonRecord (s : State) (n inst addr : Nat) :
    (s.poisonRecord n inst addr).pending = s.pending := onlyIn_poisonRecord _ _ _ _ .pending (by decide)

@[simp] theorem pending_noteRetired (s : State) (n spare : Nat) : (s.noteRetired n spare).pending = s.pending :=
  onlyIn_noteRetired _ _ _ .pending (by decide)

@[simp] theorem pending_endRetirement (s : State) (n : Nat) : (s.endRetirement n).pending = s.pending :=
  onlyIn_endRetirement _ _ .pending (by decide)

/-! The operations of the host interface -/

@[simp] theorem pending_noteFetch (s : State) (r held : Nat) (d : Bytes) :
    (s.noteFetch r held d).pending = s.pending := by simp [State.noteFetch]

@[simp] theorem pending_ringErrorRecord (s : State) (r err st : Nat) :
    (s.ringErrorRecord r err st).pending = s.pending := onlyIn_ringErrorRecord _ _ _ _ .pending (by decide)

@[simp] theorem pending_popPunt (s : State) (r : Nat) : (s.popPunt r).pending = s.pending :=
  onlyIn_popPunt _ _ .pending (by decide)

@[simp] theorem pending_dropPunts (s : State) (r : Nat) : (s.dropPunts r).pending = s.pending :=
  onlyIn_dropPunts _ _ .pending (by decide)

@[simp] theorem pending_haltRingAt (s : State) (r err ahead : Nat) : (s.haltRingAt r err ahead).pending = s.pending :=
  onlyIn_haltRingAt _ _ _ _ .pending (by decide)

@[simp] theorem pending_haltRing (s : State) (r err : Nat) : (s.haltRing r err).pending = s.pending :=
  onlyIn_haltRing _ _ _ .pending (by decide)

@[simp] theorem pending_handOn (s : State) (r : Nat) : (s.handOn r).pending = s.pending :=
  onlyIn_handOn _ _ .pending (by decide)

@[simp] theorem pending_abortFetched (s : State) (r : Nat) : (s.abortFetched r).pending = s.pending :=
  onlyIn_abortFetched _ _ .pending (by decide)

@[simp] theorem pending_complete (s : State) (r : Nat) (st : Status) (info : Nat) (result : Bytes) :
    (s.complete r st info result).pending = s.pending := onlyIn_complete _ _ _ _ _ .pending (by decide)

@[simp] theorem pending_command (s : State) (r op : Nat) (f : Bytes → State → State)
    (hf : ∀ d u, (f d u).pending = u.pending) : (s.command r op f).pending = s.pending := by
  simp only [State.command]
  split <;> simp [hf]

@[simp] theorem pending_dmaWrite (s : State) (r addr : Nat) (data : Bytes) :
    (s.dmaWrite r addr data).pending = s.pending := by simp [State.dmaWrite]

@[simp] theorem pending_enableRing (s : State) (r : Nat) (c : RingCtx) : (s.enableRing r c).pending = s.pending := by
  simp [State.enableRing]

@[simp] theorem pending_abortBuffers (s : State) (r kind : Nat) : (s.abortBuffers r kind).pending = s.pending := by
  simp only [State.abortBuffers]
  rw [pending_foldl _ fun u d => by simp]
  simp

@[simp] theorem pending_stopRing (s : State) (r : Nat) : (s.stopRing r).pending = s.pending := by
  simp only [State.stopRing]
  (repeat' split) <;> simp

@[simp] theorem pending_fillBuffers (s : State) (r : Nat) (first : Bool) (l : List Bytes) (data : Bytes) :
    (s.fillBuffers r first l data).pending = s.pending := by
  induction l generalizing s first data with
  | nil => rfl
  | cons d rest ih => simp [State.fillBuffers, ih]

@[simp] theorem pending_servePunt (s : State) (r : Nat) : (s.servePunt r).1.pending = s.pending := by
  simp only [State.servePunt]
  (repeat' split) <;> simp

@[simp] theorem pending_servePunts (s : State) (r n : Nat) : (s.servePunts r n).pending = s.pending := by
  induction n generalizing s with
  | zero => rfl
  | succ n ih => simp [State.servePunts, ih]

@[simp] theorem pending_punt (s : State) (r : Nat) (g : Gen) (hdrAndFrame : Bytes) :
    (s.punt r g hdrAndFrame).pending = s.pending := by simp [State.punt]

@[simp] theorem pending_sendMsix (s : State) (req : Requester) (v : Nat) : (s.sendMsix req v).pending = s.pending := by
  simp [State.sendMsix]

/-! The event interrupt controller -/

@[simp] theorem pending_eicSettle (s : State) (x : Nat) : (s.eicSettle x).pending = s.pending := by
  simp [State.eicSettle]

@[simp] theorem pending_quiet (s : State) (x : Nat) : (s.quiet x).pending = s.pending := by simp [State.quiet]

@[simp] theorem pending_intLog (s : State) (n x event pendTime : Nat) :
    (s.intLog n x event pendTime).pending = s.pending := by simp [State.intLog]

@[simp] theorem pending_autoDeliver (s : State) (x : Nat) : (s.autoDeliver x).pending = s.pending := by
  simp only [State.autoDeliver]
  split <;> simp

@[simp] theorem pending_deliverMsix (s : State) (x : Nat) : (s.deliverMsix x).pending = s.pending := by
  simp [State.deliverMsix]

@[simp] theorem queueKept_execEicNotify (x : Fin 66) (s : State) : QueueKept s (execEicNotify x s) := by
  simp [execEicNotify]

@[simp] theorem pending_claim (s : State) (x : Nat) : (s.claim x).pending = s.pending := by
  simp only [State.claim]
  (repeat' split) <;> simp

@[simp] theorem queueKept_execEicClaim (a : EicAgent) (x : Fin 66) (s : State) : QueueKept s (execEicClaim a x s) := by
  simp only [execEicClaim]
  split <;> simp

@[simp] theorem pending_completeInt (s : State) (x n : Nat) : (s.completeInt x n).pending = s.pending := by
  simp [State.completeInt]

@[simp] theorem queueKept_execEicComplete (a : EicAgent) (x : Fin 66) (n : BitVec 11) (s : State) :
    QueueKept s (execEicComplete a x n s) := by
  simp only [execEicComplete]
  split <;> simp

@[simp] theorem pending_losePending (s : State) (n : Nat) (f : IntSource → IntSource) :
    (s.losePending n f).pending = s.pending := by simp [State.losePending]

@[simp] theorem pending_levelInput (s : State) (n : Nat) (active : Bool) :
    (s.levelInput n active).pending = s.pending := by simp [State.levelInput]

@[simp] theorem queueKept_execEicSourceEvent (n : Nat) (level : Bool) (s : State) :
    QueueKept s (execEicSourceEvent n level s) := by simp [execEicSourceEvent]

@[simp] theorem pending_filterAccepts (s : State) (n : Nat) : (s.filterAccepts n).pending = s.pending := by
  simp [State.filterAccepts]

@[simp] theorem queueKept_execEicPinFiltered (n : Nat) (level : Bool) (s : State) :
    QueueKept s (execEicPinFiltered n level s) := by simp [execEicPinFiltered]

@[simp] theorem queueKept_execEicPendSet (f : Fn) (n : Fin 64) (value : BitVec 32) (s : State) :
    QueueKept s (execEicPendSet f n value s) := by simp [execEicPendSet]

@[simp] theorem queueKept_execEicPendClr (f : Fn) (n : Fin 64) (value : BitVec 32) (s : State) :
    QueueKept s (execEicPendClr f n value s) := by simp [execEicPendClr]

@[simp] theorem pending_msixPut (s : State) (req : Requester) (v addr data : Nat) (masked : Bool) :
    (s.msixPut req v addr data masked).pending = s.pending := by
  simp only [State.msixPut]
  (repeat' split) <;> simp

@[simp] theorem queueKept_execMsixUnmask (req : Requester) (v : Fin 32) (addr : BitVec 64) (data : BitVec 32)
    (s : State) :
    QueueKept s (execMsixUnmask req v addr data s) := by simp [execMsixUnmask]

@[simp] theorem pending_msixWrite (s : State) (req : Requester) (v o size value : Nat) :
    (s.msixWrite req v o size value).pending = s.pending := by simp [State.msixWrite]

@[simp] theorem pending_eicFlr (s : State) (f : Fn) : (s.eicFlr f).pending = s.pending := by simp [State.eicFlr]

/-! The words of the on-die memories -/

@[simp] theorem pending_wordWrite (s : State) (inst obj : Nat) : (s.wordWrite inst obj).pending = s.pending :=
  onlyIn_wordWrite _ _ _ .pending (by decide)

@[simp] theorem pending_bufWrite (s : State) (egress : Bool) (slice set pool idx : Nat) :
    (s.bufWrite egress slice set pool idx).pending = s.pending := onlyIn_bufWrite _ _ _ _ _ _ .pending (by decide)

@[simp] theorem pending_setPn (s : State) (key n : Nat) : (s.setPn key n).pending = s.pending := by simp [State.setPn]

/-! Where HBM keeps data -/

@[simp] theorem pending_countRecon (s : State) (t : Nat) : (s.countRecon t).pending = s.pending :=
  onlyIn_countRecon _ _ .pending (by decide)

@[simp] theorem pending_unitsRead (s : State) (l : List (Nat × Nat)) : (s.unitsRead l).pending = s.pending :=
  onlyIn_unitsRead _ _ .pending (by decide)

@[simp] theorem pending_freshen (s : State) (pc j : Nat) : (s.freshen pc j).pending = s.pending :=
  onlyIn_freshen _ _ _ .pending (by decide)

@[simp] theorem pending_unitFill (s : State) (x : Nat × Nat) : (s.unitFill x).pending = s.pending :=
  onlyIn_unitFill _ _ .pending (by decide)

@[simp] theorem pending_structWrite (s : State) (x : Struct) : (s.structWrite x).pending = s.pending :=
  onlyIn_structWrite _ _ .pending (by decide)

@[simp] theorem pending_structRead (s : State) (x : Struct) : (s.structRead x).pending = s.pending :=
  onlyIn_structRead _ _ .pending (by decide)

@[simp] theorem pending_losePairs (s : State) (u : Nat) : (s.losePairs u).pending = s.pending :=
  onlyIn_losePairs _ _ .pending (by decide)

@[simp] theorem pending_readPairs (s : State) (u : Nat) : (s.readPairs u).pending = s.pending :=
  onlyIn_readPairs _ _ .pending (by decide)

@[simp] theorem pending_flushPair (s : State) (i : Nat) : (s.flushPair i).pending = s.pending :=
  onlyIn_flushPair _ _ .pending (by decide)

/-! The operations on frames that every stage shares -/

@[simp] theorem pending_countBw (s : State) (p : Nat) (tx : Bool) (t n : Nat) :
    (s.countBw p tx t n).pending = s.pending := by simp [State.countBw]

@[simp] theorem pending_unpinKey (s : State) (i : Nat) (k : CacheKey) : (s.unpinKey i k).pending = s.pending :=
  onlyIn_unpinKey _ _ _ .pending (by decide)

@[simp] theorem pending_mapCache (s : State) (i : Nat) (p : TxEntry → Bool) (g : TxEntry → TxEntry) :
    (s.mapCache i p g).pending = s.pending := by simp [State.mapCache]

@[simp] theorem pending_fillEntry (s : State) (i : Nat) (e : TxEntry) : (s.fillEntry i e).pending = s.pending :=
  onlyIn_fillEntry _ _ _ .pending (by decide)

theorem pending_pinRequest {s t : State} {i r : Nat} (h : s.pinRequest i r = some t) : t.pending = s.pending :=
  onlyIn_pinRequest h .pending (by decide)

@[simp] theorem pending_serveCache (s : State) (i : Nat) : (s.serveCache i).pending = s.pending :=
  onlyIn_serveCache _ _ .pending (by decide)

@[simp] theorem pending_prefetch (s : State) (i r : Nat) : (s.prefetch i r).pending = s.pending := by
  simp only [State.prefetch]
  split
  · next pinned => exact pending_pinRequest pinned
  · simp

@[simp] theorem pending_unpin (s : State) (f : Nat) : (s.unpin f).pending = s.pending :=
  onlyIn_unpin _ _ .pending (by decide)

@[simp] theorem pending_charge (s : State) (egress : Bool) (slice set owner pool : Nat) :
    (s.charge egress slice set owner pool).pending = s.pending := by simp [State.charge]

@[simp] theorem pending_flowControl (s : State) (port cls : Nat) : (s.flowControl port cls).pending = s.pending :=
  onlyIn_flowControl _ _ _ .pending (by decide)

@[simp] theorem pending_clearName (s : State) (f : Nat) : (s.clearName f).pending = s.pending :=
  onlyIn_clearName _ _ .pending (by decide)

@[simp] theorem pending_claimFor (s : State) (f requester : Nat) : (s.claimFor f requester).pending = s.pending := by
  simp [State.claimFor]

@[simp] theorem pending_leaveSpill (s : State) (f : Nat) : (s.leaveSpill f).pending = s.pending := by
  simp [State.leaveSpill]

@[simp] theorem pending_settleVoq (s : State) (k : Nat) : (s.settleVoq k).pending = s.pending :=
  onlyIn_settleVoq _ _ .pending (by decide)

@[simp] theorem pending_panicSync (s : State) : s.panicSync.pending = s.pending :=
  onlyIn_panicSync _ .pending (by decide)

@[simp] theorem pending_joinNode (s : State) (k : Nat) : (s.joinNode k).pending = s.pending :=
  onlyIn_joinNode _ _ .pending (by decide)

@[simp] theorem pending_setQueue (s : State) (k : Nat) (l : List Nat) : (s.setQueue k l).pending = s.pending :=
  onlyIn_setQueue _ _ _ .pending (by decide)

@[simp] theorem pending_joinNodes (s : State) (i : Nat) : (s.joinNodes i).pending = s.pending := by
  simp [State.joinNodes]

@[simp] theorem pending_leaveFlow (s : State) (f : Nat) : (s.leaveFlow f).pending = s.pending := by
  simp [State.leaveFlow]

@[simp] theorem pending_stamp (s : State) (f k : Nat) : (s.stamp f k).pending = s.pending := by simp [State.stamp]

@[simp] theorem pending_leave (s : State) (f : Nat) (how : Leaving) : (s.leave f how).pending = s.pending :=
  onlyIn_leave _ _ _ .pending (by decide)

@[simp] theorem pending_issueReady (s : State) (p : Nat) : (s.issueReady p).pending = s.pending :=
  onlyIn_issueReady _ _ .pending (by decide)

@[simp] theorem pending_remove (s : State) (f : Nat) (how : Leaving) : (s.remove f how).pending = s.pending :=
  onlyIn_remove _ _ _ .pending (by decide)

@[simp] theorem pending_discard (s : State) (f : Nat) : (s.discard f).pending = s.pending :=
  onlyIn_discard _ _ .pending (by decide)

@[simp] theorem pending_resDiscard (s : State) (f : Nat) : (s.resDiscard f).pending = s.pending := by
  simp [State.resDiscard]

@[simp] theorem pending_resetVoqs (s : State) (p : Nat) : (s.resetVoqs p).pending = s.pending := by
  simp [State.resetVoqs]

@[simp] theorem pending_flushPort (s : State) (p : Nat) (held : Bool) : (s.flushPort p held).pending = s.pending :=
  onlyIn_flushPort _ _ _ .pending (by decide)

/-! The lookup tables as the four quads and the shadow hold them -/

@[simp] theorem pending_shadowPut (s : State) (loc : Nat) (content : Bytes) :
    (s.shadowPut loc content).pending = s.pending := by simp [State.shadowPut]

@[simp] theorem pending_setRule (s : State) (k : Nat) (c : Option RuleCell) : (s.setRule k c).pending = s.pending := by
  simp [State.setRule]

@[simp] theorem pending_setProf (s : State) (k : Nat) (c : Option ProfileCell) :
    (s.setProf k c).pending = s.pending := by simp [State.setProf]

@[simp] theorem pending_setSlot (s : State) (k : Nat) (x : Option EmSlot) : (s.setSlot k x).pending = s.pending := by
  simp [State.setSlot]

@[simp] theorem pending_setHit (s : State) (q k : Nat) (b : Bool) : (s.setHit q k b).pending = s.pending := by
  simp [State.setHit]

@[simp] theorem pending_setHits (s : State) (k : Nat) (b : Bool) : (s.setHits k b).pending = s.pending := by
  simp [State.setHits]

@[simp] theorem pending_clearSlot (s : State) (k : Nat) : (s.clearSlot k).pending = s.pending := by
  simp [State.clearSlot]

@[simp] theorem pending_setRoutes (s : State) (l : List Route) (n : Nat) : (s.setRoutes l n).pending = s.pending := by
  simp [State.setRoutes]

@[simp] theorem pending_poisonAt (s : State) (q : Nat) (l : TableLoc) : (s.poisonAt q l).pending = s.pending := by
  simp only [State.poisonAt]
  (repeat' split) <;> simp

@[simp] theorem pending_clearPoison (s : State) (q : Nat) (l : TableLoc) : (s.clearPoison q l).pending = s.pending := by
  cases l <;> rfl

@[simp] theorem pending_retag (s : State) (f : VTag → Option VTag) (l : Tagged) :
    (s.retag f l).pending = s.pending := by
  simp only [State.retag]
  (repeat' split) <;> simp

/-! Generations -/

@[simp] theorem pending_logChange (s : State) (n : Nat) : (s.logChange n).pending = s.pending := by
  simp [State.logChange]

@[simp] theorem pending_stepDone (s : State) : s.stepDone.pending = s.pending := by simp [State.stepDone]

@[simp] theorem pending_seqFail (s : State) (r op : Nat) : (s.seqFail r op).pending = s.pending := by
  simp [State.seqFail]

@[simp] theorem pending_seqDeath (s : State) : s.seqDeath.pending = s.pending := by simp [State.seqDeath]

@[simp] theorem pending_seqConsequence (s : State) (before : Bool) : (s.seqConsequence before).pending = s.pending := by
  simp [State.seqConsequence]

@[simp] theorem pending_seqReport (s : State) (cause word : Nat) : (s.seqReport cause word).pending = s.pending := by
  simp [State.seqReport]

@[simp] theorem pending_seqClassify (s : State) : s.seqClassify.pending = s.pending := by simp [State.seqClassify]

@[simp] theorem pending_seqSelftestFails (s : State) : s.seqSelftestFails.pending = s.pending := by
  simp [State.seqSelftestFails]

@[simp] theorem pending_seqCheck (s : State) (cause word : Nat) : (s.seqCheck cause word).pending = s.pending := by
  simp [State.seqCheck]

@[simp] theorem pending_seqFetch (s : State) (n : Nat) : (s.seqFetch n).pending = s.pending := by
  induction n generalizing s with
  | zero => rfl
  | succ n ih => simp [State.seqFetch, ih]

@[simp] theorem pending_seqStep (s : State) (f dead : State → State) (hf : ∀ u, (f u).pending = u.pending)
    (hdead : ∀ u, (dead u).pending = u.pending) :
    (s.seqStep f dead).pending = s.pending := by simp [State.seqStep, hf, hdead]

@[simp] theorem pending_seqCommand (s : State) (r op : Nat) (change : Bool) (f : Bytes → State → State)
    (hf : ∀ a u, (f a u).pending = u.pending) :
    (s.seqCommand r op change f).pending = s.pending := by simp [State.seqCommand, hf]

@[simp] theorem pending_recCommand (s : State) (r op : Nat) (change : Bool) (rec : Dma)
    (f : Bytes → Bytes → State → State) (hf : ∀ a b u, (f a b u).pending = u.pending) :
    (s.recCommand r op change rec f).pending = s.pending := by
  simp only [State.recCommand]
  split <;> simp [hf]

@[simp] theorem pending_resultCommand (s : State) (r op : Nat) (written : Bool) (f : Bytes → State → State)
    (hf : ∀ a u, (f a u).pending = u.pending) :
    (s.resultCommand r op written f).pending = s.pending := by simp [State.resultCommand, hf]

@[simp] theorem pending_unbind (s : State) (sa : Nat) : (s.unbind sa).pending = s.pending := by
  simp only [State.unbind]
  (repeat' split) <;> simp

@[simp] theorem pending_settleStep (s : State) : s.settleStep.pending = s.pending := by
  refine pending_seqStep _ _ _ (fun u => ?_) fun _ => rfl
  dsimp only
  split <;> (split <;> simp)

@[simp] theorem pending_settleRun (s : State) (n : Nat) : (s.settleRun n).pending = s.pending := by
  induction n generalizing s with
  | zero => rfl
  | succ n ih => simp [State.settleRun, ih]

@[simp] theorem queueKept_execGenSettle (records : Nat) (s : State) : QueueKept s (execGenSettle records s) := by
  simp [execGenSettle]

@[simp] theorem pending_unbindStaging (s : State) : s.unbindStaging.pending = s.pending := by simp [State.unbindStaging]

@[simp] theorem pending_startCommit (s : State) : s.startCommit.pending = s.pending := by
  simp only [State.startCommit]
  (repeat' split) <;> simp

@[simp] theorem pending_beginFlush (s : State) (f : Flush) : (s.beginFlush f).pending = s.pending := by
  simp [State.beginFlush]

@[simp] theorem pending_nextFive (s : State) (n : Nat) : (s.nextFive n).pending = s.pending := by
  induction n generalizing s with
  | zero => rfl
  | succ n ih =>
    simp only [State.nextFive]
    (repeat' split) <;> simp [ih]

@[simp] theorem pending_endAbort (s : State) (a : AbortRun) : (s.endAbort a).pending = s.pending := by
  simp [State.endAbort]

@[simp] theorem pending_abortStep (s : State) (a : AbortRun) : (s.abortStep a).pending = s.pending := by
  refine pending_seqStep _ _ _ (fun u => ?_) fun _ => rfl
  dsimp only
  split <;> (split <;> simp)

@[simp] theorem pending_abortRun (s : State) (n : Nat) : (s.abortRun n).pending = s.pending := by
  induction n generalizing s with
  | zero => rfl
  | succ n ih =>
    simp only [State.abortRun]
    (repeat' split) <;> simp [ih]

@[simp] theorem queueKept_execGenAbort (r : Ring) (records : Nat) (s : State) :
    QueueKept s (execGenAbort r records s) := by simp [execGenAbort]

@[simp] theorem queueKept_execGenRetire (s : State) : QueueKept s (execGenRetire s) := by simp [execGenRetire]

@[simp] theorem pending_switchPort (s : State) (p : Nat) (late : Bool) : (s.switchPort p late).pending = s.pending := by
  simp only [State.switchPort]
  (repeat' split) <;> rfl

@[simp] theorem pending_switchDown (s : State) (p : Nat) : (s.switchDown p).pending = s.pending :=
  onlyIn_switchDown _ _ .pending (by decide)

@[simp] theorem queueKept_execGenCommit (r : Ring) (s : State) : QueueKept s (execGenCommit r s) := by
  simp only [execGenCommit, queueKept_next]
  refine pending_seqCommand _ _ _ _ _ fun _ u => ?_
  (repeat' split) <;> simp

@[simp] theorem pending_refuseCommit (s : State) (st : Status) : (s.refuseCommit st).pending = s.pending := by
  simp only [State.refuseCommit]
  split <;> simp

@[simp] theorem pending_cpsUnpin (s : State) (c port : Nat) : (s.cpsUnpin c port).pending = s.pending := by
  simp only [State.cpsUnpin]
  (repeat' split) <;> simp

@[simp] theorem pending_cpsPin (s : State) (c port : Nat) : (s.cpsPin c port).pending = s.pending := by
  simp [State.cpsPin]

@[simp] theorem pending_cpsStop (s : State) (c port : Nat) : (s.cpsStop c port).pending = s.pending := by
  simp [State.cpsStop]

@[simp] theorem pending_cpsCommit (s : State) (c : Nat) (old : Option CirVer) :
    (s.cpsCommit c old).pending = s.pending := by
  simp only [State.cpsCommit]
  split <;> simp

@[simp] theorem pending_armedRecord (s : State) (t : Trigger) : (s.armedRecord t).pending = s.pending := by
  simp only [State.armedRecord]
  split
  · rfl
  · exact pending_ctrlRecord _ _ _ _

@[simp] theorem pending_armCommit (s : State) (r : Nat) (t : Trigger) : (s.armCommit r t).pending = s.pending := by
  simp only [State.armCommit]
  split <;> simp

@[simp] theorem queueKept_execGenCommitArm (s : State) : QueueKept s (execGenCommitArm s) := by
  simp only [execGenCommitArm, queueKept_next]
  split
  · split
    · rfl
    · refine pending_seqStep _ _ _ (fun u => ?_) fun _ => rfl
      split
      · split
        · exact pending_refuseCommit _ _
        · split
          · exact pending_refuseCommit _ _
          · exact pending_armCommit _ _ _
      · exact pending_armCommit _ _ _
  · rfl

@[simp] theorem queueKept_execGenCommitTimeout (s : State) : QueueKept s (execGenCommitTimeout s) := by
  simp only [execGenCommitTimeout]
  split <;> simp

@[simp] theorem queueKept_execMarkerTimeout (s : State) : QueueKept s (execMarkerTimeout s) := by
  simp only [execMarkerTimeout]
  split <;> simp

@[simp] theorem pending_advancePtp (s : State) (t : Nat) : (s.advancePtp t).pending = s.pending := by
  simp [State.advancePtp]

@[simp] theorem queueKept_execTimeTriggerDeadline (s : State) : QueueKept s (execTimeTriggerDeadline s) := by
  simp only [execTimeTriggerDeadline]
  split <;> simp

@[simp] theorem queueKept_execGenCommitComplete (s : State) : QueueKept s (execGenCommitComplete s) := by
  simp only [execGenCommitComplete]
  split <;> simp

/-! Circuits and security associations -/

@[simp] theorem pending_putCircuit (s : State) (r c : Nat) (v : CirVer) (after : State → State) (hafter : ∀ u,
    (after u).pending = u.pending) :
    (s.putCircuit r c v after).pending = s.pending := by simp [State.putCircuit, hafter]

@[simp] theorem queueKept_execCirWrite (r : Ring) (rec : Dma) (s : State) : QueueKept s (execCirWrite r rec s) := by
  simp [execCirWrite]

@[simp] theorem queueKept_execCirDelete (r : Ring) (s : State) : QueueKept s (execCirDelete r s) := by
  simp only [execCirDelete, queueKept_next]
  refine pending_seqCommand _ _ _ _ _ fun _ u => ?_
  (repeat' split) <;> simp

@[simp] theorem queueKept_execCirRead (r : Ring) (written : Bool) (s : State) :
    QueueKept s (execCirRead r written s) := by
  simp only [execCirRead, queueKept_next]
  refine pending_resultCommand _ _ _ _ _ fun _ u => ?_
  (repeat' split) <;> simp

@[simp] theorem pending_offDiscard (s : State) (f : Nat) (suspended : Bool) :
    (s.offDiscard f suspended).pending = s.pending := by simp [State.offDiscard]

@[simp] theorem pending_startFlush (s : State) (c : Nat) (ring : Option Nat) :
    (s.startFlush c ring).pending = s.pending := by simp [State.startFlush]

@[simp] theorem pending_endFlush (s : State) (c : Nat) : (s.endFlush c).pending = s.pending := by simp [State.endFlush]

@[simp] theorem pending_endFlushes (s : State) (k : Nat) : (s.endFlushes k).pending = s.pending := by
  simp [State.endFlushes]

@[simp] theorem pending_endDrain (s : State) (c : Nat) : (s.endDrain c).pending = s.pending := by simp [State.endDrain]

@[simp] theorem queueKept_execCirDisable (r : Ring) (s : State) : QueueKept s (execCirDisable r s) := by
  simp [execCirDisable]

@[simp] theorem queueKept_execCirEnable (r : Ring) (s : State) : QueueKept s (execCirEnable r s) := by
  simp [execCirEnable]

@[simp] theorem queueKept_execCirDrainDone (c : Circuit) (s : State) : QueueKept s (execCirDrainDone c s) := by
  simp [execCirDrainDone]

@[simp] theorem queueKept_execCirFlushDone (c : Circuit) (s : State) : QueueKept s (execCirFlushDone c s) := by
  simp [execCirFlushDone]

@[simp] theorem pending_glzRecord (s : State) (type sa an count number : Nat) :
    (s.glzRecord type sa an count number).pending = s.pending := by simp [State.glzRecord]

@[simp] theorem pending_suspend (s : State) (c : Nat) (why : Option Nat) : (s.suspend c why).pending = s.pending := by
  simp only [State.suspend]
  (repeat' split) <;> simp

@[simp] theorem pending_poisonSa (s : State) (i : Nat) : (s.poisonSa i).pending = s.pending :=
  (serves_poisonSa s i).only .pending (by decide)

@[simp] theorem pending_poisonVersion (s : State) (c : Nat) (born : Gen) :
    (s.poisonVersion c born).pending = s.pending := by simp [State.poisonVersion]

@[simp] theorem queueKept_execCirResume (r : Ring) (s : State) : QueueKept s (execCirResume r s) := by
  simp [execCirResume]

@[simp] theorem pending_indexWrite (s : State) (a : Sa) : (s.indexWrite a).pending = s.pending := by
  simp [State.indexWrite]

@[simp] theorem queueKept_execSaLoad (r : Ring) (rec : Dma) (s : State) : QueueKept s (execSaLoad r rec s) := by
  simp only [execSaLoad, queueKept_next]
  refine pending_recCommand _ _ _ _ _ _ fun _ _ u => ?_
  (repeat' split) <;> simp

@[simp] theorem queueKept_execSaDelete (r : Ring) (s : State) : QueueKept s (execSaDelete r s) := by
  simp only [execSaDelete, queueKept_next]
  refine pending_seqCommand _ _ _ _ _ fun _ u => ?_
  (repeat' split) <;> simp

@[simp] theorem pending_softCheck (s : State) (k : Nat) : (s.softCheck k).pending = s.pending :=
  (serves_softCheck s k).only .pending (by decide)

@[simp] theorem pending_bindSa (s : State) (i slice eq : Nat) : (s.bindSa i slice eq).pending = s.pending := by
  simp only [State.bindSa]
  split <;> simp

@[simp] theorem queueKept_execSaSelectTx (r : Ring) (s : State) : QueueKept s (execSaSelectTx r s) := by
  simp only [execSaSelectTx, queueKept_next]
  refine pending_seqCommand _ _ _ _ _ fun _ u => ?_
  (repeat' split) <;> simp

@[simp] theorem queueKept_execSaRead (r : Ring) (written : Bool) (s : State) :
    QueueKept s (execSaRead r written s) := by
  simp only [execSaRead, queueKept_next]
  refine pending_resultCommand _ _ _ _ _ fun _ u => ?_
  (repeat' split) <;> simp

@[simp] theorem pending_icvRecord (s : State) (sa : Nat) : (s.icvRecord sa).pending = s.pending := by
  simp [State.icvRecord]

@[simp] theorem pending_icvFailed (s : State) (sa : Nat) : (s.icvFailed sa).pending = s.pending := by
  simp only [State.icvFailed]
  split <;> simp

@[simp] theorem queueKept_execIcvHoldoffEnd (c : Circuit) (s : State) : QueueKept s (execIcvHoldoffEnd c s) := by
  simp [execIcvHoldoffEnd]

/-! Critical faults and the safe-state chain -/

@[simp] theorem pending_criticalRecord (s : State) (n : Nat) : (s.criticalRecord n).pending = s.pending := by
  simp [State.criticalRecord]

@[simp] theorem pending_squelchAll (s : State) : s.squelchAll.pending = s.pending := by
  refine pending_runOver (fun p u => ?_) _ _
  dsimp only
  split <;> simp

@[simp] theorem pending_abortModeCommand (s : State) : s.abortModeCommand.pending = s.pending := by
  simp [State.abortModeCommand]

@[simp] theorem pending_dropCaches (s : State) : s.dropCaches.pending = s.pending := by simp [State.dropCaches]

@[simp] theorem pending_purge (s : State) : s.purge.pending = s.pending := by simp [State.purge]

@[simp] theorem pending_enterSafe (s : State) (sources : List Nat) : (s.enterSafe sources).pending = s.pending := by
  simp [State.enterSafe]

@[simp] theorem pending_latchCause (s : State) (n : Nat) : (s.latchCause n).pending = s.pending := by
  simp [State.latchCause]

@[simp] theorem pending_critical (s : State) (l : List Nat) : (s.critical l).pending = s.pending := by
  simp only [State.critical]
  (repeat' split) <;> simp

@[simp] theorem pending_criticalLine (s : State) (n : Nat) : (s.criticalLine n).pending = s.pending := by
  simp [State.criticalLine]

@[simp] theorem pending_endLines (s : State) (l : List Nat) : (s.endLines l).pending = s.pending := by
  simp [State.endLines]

@[simp] theorem queueKept_execCriticalFault (sources ended : List Nat) (s : State) :
    QueueKept s (execCriticalFault sources ended s) := by simp [execCriticalFault]

/-! The transmit path of Glaze -/

@[simp] theorem pending_rejectSpare (s : State) (n : Nat) : (s.rejectSpare n).pending = s.pending :=
  onlyIn_rejectSpare _ _ .pending (by decide)

@[simp] theorem queueKept_execTxCacheFill (i : Slice) (res : FillResult) (s : State) :
    QueueKept s (execTxCacheFill i res s) := by
  simp only [execTxCacheFill]
  (repeat' split) <;> simp

@[simp] theorem pending_tornDiscard (s : State) (f sa : Nat) : (s.tornDiscard f sa).pending = s.pending := by
  simp [State.tornDiscard]

@[simp] theorem pending_serveMoved (s : State) (i n : Nat) : (s.serveMoved i n).pending = s.pending :=
  (serves_serveMoved s i n).only .pending (by decide)

@[simp] theorem pending_serveWaiting (s : State) (i n : Nat) : (s.serveWaiting i n).pending = s.pending :=
  (serves_serveWaiting s i n).only .pending (by decide)

@[simp] theorem pending_dispatch (s : State) (i : Nat) : (s.dispatch i).pending = s.pending := by simp [State.dispatch]

@[simp] theorem pending_movePair (s : State) (i u : Nat) : (s.movePair i u).pending = s.pending :=
  (serves_movePair s i u).only .pending (by decide)

@[simp] theorem pending_matched (s : State) (f : Nat) (result : Option Bytes) :
    (s.matched f result).pending = s.pending := by
  simp only [State.matched]
  split <;> simp

@[simp] theorem pending_miscompare (s : State) (i u : Nat) : (s.miscompare i u).pending = s.pending := by
  simp [State.miscompare]

@[simp] theorem pending_refill (s : State) (i : Nat) (e : TxEntry) : (s.refill i e).pending = s.pending := by
  simp [State.refill]

@[simp] theorem queueKept_execLockstepCompare (i : Slice) (u : Fin 12) (outcome : LockstepOutcome) (s : State) :
    QueueKept s (execLockstepCompare i u outcome s) := by
  simp only [execLockstepCompare]
  (repeat' split) <;> simp

@[simp] theorem pending_setGood (s : State) (decrypt : Bool) (i u : Nat) (g : Bool) :
    (s.setGood decrypt i u g).pending = s.pending := by simp [State.setGood]

@[simp] theorem pending_laneTest (s : State) (decrypt : Bool) (i u : Nat) (pass : Bool) :
    (s.laneTest decrypt i u pass).pending = s.pending := by simp [State.laneTest]

@[simp] theorem queueKept_execLaneKat (i : Slice) (decrypt : Bool) (u : Fin 12) (pass : Bool) (s : State) :
    QueueKept s (execLaneKat i decrypt u pass s) := by simp [execLaneKat]

@[simp] theorem queueKept_execEncPairRetire (i : Slice) (u : Fin 12) (s : State) :
    QueueKept s (execEncPairRetire i u s) := by
  simp only [execEncPairRetire]
  (repeat' split) <;> simp

@[simp] theorem queueKept_execDecLaneRetire (i : Slice) (l : Fin 12) (s : State) :
    QueueKept s (execDecLaneRetire i l s) := by
  simp only [execDecLaneRetire]
  (repeat' split) <;> simp

/-! Ports -/

@[simp] theorem pending_rowWrite (s : State) (f : Fn) (r : RegName) (i j : Nat) (act : State → State) (hact : ∀ u,
    (act u).pending = u.pending) :
    (s.rowWrite f r i j act).pending = s.pending := by simp [State.rowWrite, hact]

@[simp] theorem pending_unpinPort (s : State) (p : Nat) : (s.unpinPort p).pending = s.pending := by
  simp [State.unpinPort]

@[simp] theorem pending_pinPort (s : State) (p : Nat) : (s.pinPort p).pending = s.pending := by simp [State.pinPort]

@[simp] theorem pending_noteFlap (s : State) (p : Nat) : (s.noteFlap p).pending = s.pending := by simp [State.noteFlap]

@[simp] theorem pending_linkLoss (s : State) (p : Nat) : (s.linkLoss p).pending = s.pending := by simp [State.linkLoss]

@[simp] theorem pending_holdExpire (s : State) (p : Nat) : (s.holdExpire p).pending = s.pending := by
  simp [State.holdExpire]

@[simp] theorem queueKept_execPcsLinkLoss (p : Port) (s : State) : QueueKept s (execPcsLinkLoss p s) := by
  simp [execPcsLinkLoss]

@[simp] theorem queueKept_execPcsLinkUp (p : Port) (s : State) : QueueKept s (execPcsLinkUp p s) := by
  simp [execPcsLinkUp]

@[simp] theorem queueKept_execHoldExpire (p : Port) (s : State) : QueueKept s (execHoldExpire p s) := by
  simp [execHoldExpire]

@[simp] theorem pending_readClass (s : State) (p cls : Nat) : (s.readClass p cls).pending = s.pending :=
  onlyIn_readClass _ _ _ .pending (by decide)

@[simp] theorem queueKept_execModulePresenceChange (p : Port) (present : Bool) (powerClass : Nat) (s : State) :
    QueueKept s (execModulePresenceChange p present powerClass s) := by simp [execModulePresenceChange]

@[simp] theorem pending_disablePort (s : State) (p : Nat) : (s.disablePort p).pending = s.pending :=
  onlyIn_disablePort _ _ .pending (by decide)

@[simp] theorem pending_writePrtCfg (s : State) (f : Fn) (p v : Nat) : (s.writePrtCfg f p v).pending = s.pending := by
  simp [State.writePrtCfg]

@[simp] theorem queueKept_execPrtCfgWrite (f : Fn) (p : Port) (v : BitVec 32) (s : State) :
    QueueKept s (execPrtCfgWrite f p v s) := by simp [execPrtCfgWrite]

@[simp] theorem queueKept_execPrtDomainWrite (f : Fn) (p : Port) (v : BitVec 32) (s : State) :
    QueueKept s (execPrtDomainWrite f p v s) := by simp [execPrtDomainWrite]

@[simp] theorem pending_writeBypass (s : State) (f : Fn) (r : RegName) (v : Nat) :
    (s.writeBypass f r v).pending = s.pending := by simp [State.writeBypass]

@[simp] theorem queueKept_execPrtBypStageWrite (f : Fn) (v : BitVec 32) (s : State) :
    QueueKept s (execPrtBypStageWrite f v s) := by simp [execPrtBypStageWrite]

@[simp] theorem queueKept_execPrtBypApproveWrite (f : Fn) (v : BitVec 32) (s : State) :
    QueueKept s (execPrtBypApproveWrite f v s) := by simp [execPrtBypApproveWrite]

@[simp] theorem queueKept_execBypassGateUpdate (s : State) : QueueKept s (execBypassGateUpdate s) := by
  simp [execBypassGateUpdate]

@[simp] theorem queueKept_execCfgSealSet (f : Fn) (s : State) : QueueKept s (execCfgSealSet f s) := by
  simp -implicitDefEqProofs [execCfgSealSet]

@[simp] theorem pending_laneConsequence (s : State) (n : Nat) : (s.laneConsequence n).pending = s.pending := by
  simp only [State.laneConsequence]
  (repeat' split) <;> simp

@[simp] theorem queueKept_execSerdesLaneEvent (l : Lane) (cause : BitVec 8) (s : State) :
    QueueKept s (execSerdesLaneEvent l cause s) := by
  simp only [execSerdesLaneEvent]
  split <;> simp

@[simp] theorem queueKept_execRefclk156Loss (k : Fin 8) (s : State) : QueueKept s (execRefclk156Loss k s) := by
  simp [execRefclk156Loss]

@[simp] theorem queueKept_execRefclk156Return (k : Fin 8) (s : State) : QueueKept s (execRefclk156Return k s) := by
  simp [execRefclk156Return]

@[simp] theorem queueKept_execPpsInEdge (s : State) : QueueKept s (execPpsInEdge s) := by simp [execPpsInEdge]

@[simp] theorem queueKept_execPpsOutEdge (s : State) : QueueKept s (execPpsOutEdge s) := by simp [execPpsOutEdge]

@[simp] theorem pending_ptpCommand (s : State) (r op : Nat) (range : Bytes → State → Bool)
    (f : Bytes → Ptp → Ptp) :
    (s.ptpCommand r op range f).pending = s.pending := by simp [State.ptpCommand]

@[simp] theorem queueKept_execPtpSet (r : Ring) (s : State) : QueueKept s (execPtpSet r s) := by simp [execPtpSet]

@[simp] theorem queueKept_execPtpStep (r : Ring) (s : State) : QueueKept s (execPtpStep r s) := by simp [execPtpStep]

@[simp] theorem queueKept_execPtpRate (r : Ring) (s : State) : QueueKept s (execPtpRate r s) := by simp [execPtpRate]

@[simp] theorem queueKept_execPtpSource (r : Ring) (inWindow : Bool) (s : State) :
    QueueKept s (execPtpSource r inWindow s) := by simp [execPtpSource]

@[simp] theorem queueKept_execPtpSourceRevert (s : State) : QueueKept s (execPtpSourceRevert s) := by
  simp [execPtpSourceRevert]

@[simp] theorem queueKept_execPtpSourceReturn (s : State) : QueueKept s (execPtpSourceReturn s) := by
  simp [execPtpSourceReturn]

/-! What every write of a register shares -/

@[simp] theorem pending_fieldWrite (s : State) (f : Fn) (m : RegAt) (size v : Nat) (refuse : Nat → Bool)
    (after : Nat → State → State) (hafter : ∀ a u, (after a u).pending = u.pending) :
    (s.fieldWrite f m size v refuse after).pending = s.pending := by
  simp only [State.fieldWrite]
  split <;> simp [hafter]

@[simp] theorem pending_setBucket (s : State) (b : Bucket) (x : TokenBucket) :
    (s.setBucket b x).pending = s.pending := by
  cases b <;> rfl

@[simp] theorem queueKept_execTokenTick (b : Bucket) (s : State) : QueueKept s (execTokenTick b s) := by
  simp [execTokenTick]

theorem pending_takeToken {s t : State} {b : Bucket} (h : s.takeToken b = some t) : t.pending = s.pending := by
  simp only [State.takeToken] at h
  split at h
  · cases h
  · cases h
    exact pending_setBucket _ _ _

@[simp] theorem pending_rerate (s : State) (b : Bucket) (old : Nat) : (s.rerate b old).pending = s.pending := by
  simp [State.rerate]

/-! A frame arrives -/

@[simp] theorem pending_puntFrame (s : State) (f ring kind code cls lentry : Nat) :
    (s.puntFrame f ring kind code cls lentry).pending = s.pending := by simp [State.puntFrame]

theorem pending_puntTake {s t : State} {ring : Nat} {b : Bucket} (h : s.puntTake ring b = some t) :
    t.pending = s.pending := by
  simp only [State.puntTake] at h
  split at h
  · exact pending_takeToken h
  · cases h

@[simp] theorem pending_issueLookups (s : State) (f : Nat) : (s.issueLookups f).pending = s.pending := by
  simp [State.issueLookups]

@[simp] theorem pending_barLookups (s : State) (f : Nat) : (s.barLookups f).pending = s.pending := by
  simp [State.barLookups]

@[simp] theorem pending_failAction (s : State) (f r : Nat) : (s.failAction f r).pending = s.pending := by
  simp only [State.failAction]
  split
  · split
    · next taken => simp [pending_puntTake taken]
    · simp
  · simp
  · simp

@[simp] theorem pending_ingressSettle (s : State) (f : Nat) : (s.ingressSettle f).pending = s.pending := by
  simp only [State.ingressSettle]
  split <;> simp

@[simp] theorem pending_walkDone (s : State) (f : Nat) : (s.walkDone f).pending = s.pending := by
  simp only [State.walkDone]
  split <;> simp

@[simp] theorem queueKept_execParseStep (f : Nat) (s : State) : QueueKept s (execParseStep f s) := by
  simp [execParseStep]

@[simp] theorem pending_takeArea (s : State) (p f n : Nat) : (s.takeArea p f n).pending = s.pending := by
  simp [State.takeArea]

@[simp] theorem pending_timeSwitch (s : State) (p : Nat) : (s.timeSwitch p).pending = s.pending := by
  simp only [State.timeSwitch]
  split <;> simp

@[simp] theorem pending_addFrame (s : State) (x : Frame) : (s.addFrame x).pending = s.pending := by
  simp [State.addFrame]

@[simp] theorem queueKept_execFrameStart (p : Port) (dt : Nat) (bytes : Bytes) (rxEnd : RxEnd) (s : State) :
    QueueKept s (execFrameStart p dt bytes rxEnd s) := by simp [execFrameStart]

@[simp] theorem pending_markerSwitch (s : State) (x : Frame) : (s.markerSwitch x).pending = s.pending := by
  simp [State.markerSwitch]

@[simp] theorem pending_countFailed (s : State) (x : Frame) : (s.countFailed x).pending = s.pending := by
  simp only [State.countFailed]
  split <;> simp

@[simp] theorem queueKept_execFrameEnd (f : Nat) (s : State) : QueueKept s (execFrameEnd f s) := by simp [execFrameEnd]

@[simp] theorem pending_clearValid (s : State) (i : Nat) : (s.clearValid i).pending = s.pending := by
  simp [State.clearValid]

@[simp] theorem queueKept_execParseProgramWrite (f : Fn) (i : Slice) (off : BitVec 16) (size : Nat) (v : BitVec 64)
    (s : State) :
    QueueKept s (execParseProgramWrite f i off size v s) := by
  simp only [execParseProgramWrite]
  (repeat' split) <;> simp

@[simp] theorem queueKept_execParseCrcCheck (f : Fn) (i : Slice) (s : State) :
    QueueKept s (execParseCrcCheck f i s) := by simp -implicitDefEqProofs [execParseCrcCheck]

@[simp] theorem queueKept_execParseCrcDone (i : Slice) (s : State) : QueueKept s (execParseCrcDone i s) := by
  simp -implicitDefEqProofs [execParseCrcDone]

/-! Where a forwarded frame goes -/

theorem pending_handSegment {s t : State} {k : Nat} (h : s.handSegment k = some t) : t.pending = s.pending := by
  obtain ⟨w, -, rfl⟩ := Option.map_eq_some_iff.mp h
  simp

theorem pending_takePages {s t : State} {k last n : Nat} (h : s.takePages k last n = some t) :
    t.pending = s.pending := by
  induction n generalizing s with
  | zero => cases h; rfl
  | succ n ih =>
    simp only [State.takePages] at h
    split at h
    · cases h
      rfl
    · obtain ⟨u, handed, rest⟩ := Option.bind_eq_some_iff.mp h
      exact (ih rest).trans (pending_handSegment handed)

@[simp] theorem pending_placeDeep (s : State) (f : Nat) (enters : Bool) :
    (s.placeDeep f enters).pending = s.pending := by
  simp only [State.placeDeep]
  split
  · simp
  · split
    · simp
    · split
      · simp
      · next taken => simpa using pending_takePages taken

@[simp] theorem pending_placeOnDie (s : State) (f requester : Nat) :
    (s.placeOnDie f requester).pending = s.pending := by simp [State.placeOnDie]

@[simp] theorem pending_ecnMark (s : State) (f : Nat) : (s.ecnMark f).pending = s.pending := by simp [State.ecnMark]

@[simp] theorem pending_link (s : State) (f requester : Nat) : (s.link f requester).pending = s.pending := by
  simp only [State.link]
  (repeat' split) <;> simp

/-! The egress scheduler -/

@[simp] theorem pending_enqueue (s : State) (f : Nat) : (s.enqueue f).pending = s.pending := by simp [State.enqueue]

@[simp] theorem pending_shaperSync (s : State) : s.shaperSync.pending = s.pending := by simp [State.shaperSync]

@[simp] theorem queueKept_execShaperTick (s : State) : QueueKept s (execShaperTick s) := by simp [execShaperTick]

@[simp] theorem pending_chargePort (s : State) (p l : Nat) : (s.chargePort p l).pending = s.pending := by
  simp [State.chargePort]

@[simp] theorem pending_chargeClass (s : State) (n l : Nat) : (s.chargeClass n l).pending = s.pending := by
  simp [State.chargeClass]

@[simp] theorem pending_chargeCirq (s : State) (k l : Nat) : (s.chargeCirq k l).pending = s.pending := by
  simp [State.chargeCirq]

@[simp] theorem pending_advanceNode (s : State) (p c k : Nat) : (s.advanceNode p c k).pending = s.pending :=
  onlyIn_sched _ _ .pending (by decide)

@[simp] theorem pending_advancePort (s : State) (p c fin : Nat) : (s.advancePort p c fin).pending = s.pending := by
  simp [State.advancePort]

@[simp] theorem pending_takeSelected (s : State) (f : Nat) : (s.takeSelected f).pending = s.pending := by
  simp [State.takeSelected]

@[simp] theorem pending_selectClass (s : State) (p n : Nat) : (s.selectClass p n).pending = s.pending := by
  induction n generalizing s with
  | zero => rfl
  | succ n ih =>
    simp only [State.selectClass]
    (repeat' split) <;> simp [ih]

@[simp] theorem queueKept_execCpsSlotDue (c : Circuit) (s : State) : QueueKept s (execCpsSlotDue c s) := by
  simp only [execCpsSlotDue]
  split <;> simp

@[simp] theorem pending_slotDone (s : State) (c : Nat) (g : Profile → Profile) :
    (s.slotDone c g).pending = s.pending := by simp [State.slotDone]

@[simp] theorem pending_skipSlots (s : State) (c n : Nat) : (s.skipSlots c n).pending = s.pending := by
  induction n generalizing s with
  | zero => rfl
  | succ n ih =>
    simp only [State.skipSlots]
    (repeat' split) <;> simp [ih]

@[simp] theorem pending_offerQueue (s : State) (p k most size n : Nat) :
    (s.offerQueue p k most size n).1.pending = s.pending := by
  induction n generalizing s with
  | zero => rfl
  | succ n ih =>
    simp only [State.offerQueue]
    (repeat' split) <;> simp [ih]

@[simp] theorem pending_offer (s : State) (p eq most size n : Nat) :
    (s.offer p eq most size n).1.pending = s.pending := by
  induction n generalizing s with
  | zero => rfl
  | succ n ih =>
    have kept := pending_offerQueue s p (p / 8 * 32768 + eq * 8 + n) most size
      ((s.queue (p / 8 * 32768 + eq * 8 + n)).length + 1)
    simp only [State.offer]
    split
    · next offered => exact pending_of_fst offered kept
    · next offered => exact (ih _).trans (pending_of_fst offered kept)

@[simp] theorem pending_filler (s : State) (c : Nat) (q : Profile) (v : CirVer) :
    (s.filler c q v).1.pending = s.pending := by simp [State.filler]

@[simp] theorem pending_serveSlot (s : State) (p c : Nat) : (s.serveSlot p c).1.pending = s.pending := by
  simp only [State.serveSlot]
  generalize skip : s.skipSlots c _ = u
  have kept : u.pending = s.pending := skip ▸ pending_skipSlots _ _ _
  split
  · split
    · exact kept
    · split
      · next offered => simp [pending_of_fst offered (pending_offer _ _ _ _ _ _), kept]
      · next offered => split <;> simp [pending_of_fst offered (pending_offer _ _ _ _ _ _), kept]
  · exact kept

@[simp] theorem pending_serveSlots (s : State) (p : Nat) (l : List Nat) : (s.serveSlots p l).1.pending = s.pending := by
  induction l generalizing s with
  | nil => rfl
  | cons c rest ih =>
    have kept := pending_serveSlot s p c
    simp only [State.serveSlots]
    split
    · next served => exact pending_of_fst served kept
    · next served => exact (ih _).trans (pending_of_fst served kept)

@[simp] theorem pending_noteServed (s : State) (p : Nat) : (s.noteServed p).pending = s.pending := by
  simp [State.noteServed]

@[simp] theorem pending_selectAt (s : State) (p : Nat) : (s.selectAt p).pending = s.pending := by
  have kept := pending_serveSlots s p (s.dueSlots p)
  simp only [State.selectAt]
  split
  · next served => exact pending_of_fst served kept
  · next served => split <;> simp [pending_of_fst served kept]

@[simp] theorem queueKept_execEgressSelect (p : Port) (s : State) : QueueKept s (execEgressSelect p s) := by
  simp [execEgressSelect]

@[simp] theorem pending_egsCommand (s : State) (r op : Nat) (rec : Dma) (f : Bytes → State → State)
    (hf : ∀ a u, (f a u).pending = u.pending) :
    (s.egsCommand r op rec f).pending = s.pending := by
  simp only [State.egsCommand]
  split <;> simp [hf]

@[simp] theorem queueKept_execEgsClassWrite (r : Ring) (rec : Dma) (s : State) :
    QueueKept s (execEgsClassWrite r rec s) := by simp [execEgsClassWrite]

@[simp] theorem queueKept_execEgsCirqWrite (r : Ring) (rec : Dma) (s : State) :
    QueueKept s (execEgsCirqWrite r rec s) := by simp [execEgsCirqWrite]

@[simp] theorem queueKept_execCpsWrite (r : Ring) (rec : Dma) (s : State) : QueueKept s (execCpsWrite r rec s) := by
  simp only [execCpsWrite, queueKept_next]
  refine pending_egsCommand _ _ _ _ _ fun _ u => ?_
  (repeat' split) <;> simp

/-! The switch core -/

@[simp] theorem pending_modFpair (s : State) (a b : Nat) (g : Pair → Pair) :
    (s.modFpair a b g).pending = s.pending := by simp [State.modFpair]

@[simp] theorem pending_movePointers (s : State) (made : List (Nat × Nat)) :
    (s.movePointers made).pending = s.pending := by simp [State.movePointers]

@[simp] theorem pending_countStarve (s : State) (req : Nat → Nat → Nat) (made : List (Nat × Nat)) :
    (s.countStarve req made).pending = s.pending := by simp [State.countStarve]

@[simp] theorem pending_sendCell (s : State) (a b : Nat) (c : Cell) : (s.sendCell a b c).pending = s.pending := by
  simp [State.sendCell]

@[simp] theorem pending_dropUnread (s : State) (k : Nat) : (s.dropUnread k).pending = s.pending := by
  simp [State.dropUnread]

@[simp] theorem pending_newCell (s : State) (a b k : Nat) : (s.newCell a b k).pending = s.pending := by
  simp [State.newCell]

@[simp] theorem pending_resendCell (s : State) (a b : Nat) (c : Cell) : (s.resendCell a b c).pending = s.pending := by
  simp [State.resendCell]

@[simp] theorem pending_carry (s : State) (a b : Nat) : (s.carry a b).pending = s.pending := by
  simp only [State.carry]
  (repeat' split) <;> simp

@[simp] theorem pending_runMatcher (s : State) (req : Nat → Nat → Nat) :
    (s.runMatcher req).2.pending = s.pending := by
  simp [State.runMatcher]

@[simp] theorem pending_carryDue (s : State) (made : List (Nat × Nat)) : (s.carryDue made).pending = s.pending := by
  simp [State.carryDue]

@[simp] theorem queueKept_execMatchCellTime (parityBad : Bool) (s : State) :
    QueueKept s (execMatchCellTime parityBad s) := by simp [execMatchCellTime]

@[simp] theorem queueKept_execStarvePromote (a b : Slice) (s : State) : QueueKept s (execStarvePromote a b s) := by
  simp [execStarvePromote]

@[simp] theorem pending_claimEgress (s : State) (f src : Nat) : (s.claimEgress f src).pending = s.pending := by
  simp [State.claimEgress]

@[simp] theorem pending_takeSeg (s : State) (src : Nat) (g : Seg) : (s.takeSeg src g).1.pending = s.pending := by
  simp only [State.takeSeg]
  (repeat' split) <;> simp

@[simp] theorem pending_takeSegs (s : State) (src : Nat) (l : List Seg) : (s.takeSegs src l).1.pending = s.pending := by
  induction l generalizing s with
  | nil => rfl
  | cons g rest ih =>
    have kept := pending_takeSeg s src g
    simp only [State.takeSegs]
    split
    · next taken => exact (ih _).trans (pending_of_fst taken kept)
    · next taken => exact pending_of_fst taken kept

@[simp] theorem pending_drainCells (s : State) (a b n : Nat) : (s.drainCells a b n).pending = s.pending := by
  induction n generalizing s with
  | zero => rfl
  | succ n ih =>
    simp only [State.drainCells]
    split
    · rfl
    · next c _ _ =>
      have kept := pending_takeSegs s a c.segs
      split
      · simp [ih]
      · split
        · next taken => simp [ih, pending_of_fst taken kept]
        · next taken => simp [pending_of_fst taken kept]

@[simp] theorem pending_drain (s : State) (a b : Nat) : (s.drain a b).pending = s.pending := by simp [State.drain]

@[simp] theorem pending_placeCell (s : State) (a b : Nat) (c : Cell) : (s.placeCell a b c).pending = s.pending := by
  simp [State.placeCell]

@[simp] theorem pending_badCell (s : State) (a b seq : Nat) : (s.badCell a b seq).pending = s.pending := by
  simp [State.badCell]

@[simp] theorem pending_beatErrors (s : State) (c : Cell) (beats : List Nat) :
    (s.beatErrors c beats).pending = s.pending := by simp [State.beatErrors]

@[simp] theorem pending_failedCell (s : State) (a b : Nat) (c : Cell) (e : CellError) :
    (s.failedCell a b c e).pending = s.pending := by simp [State.failedCell]

@[simp] theorem pending_cleanCell (s : State) (a b : Nat) (c : Cell) : (s.cleanCell a b c).pending = s.pending := by
  have kept := pending_takeCorrupt s (0x20 + a)
  simp only [State.cleanCell]
  split
  · simp
  · split
    · next taken => simp [pending_of_snd taken kept]
    · next taken => simp [pending_of_snd taken kept]

@[simp] theorem queueKept_execCellReceive (a b : Slice) (seq : BitVec 16) (err : CellError) (s : State) :
    QueueKept s (execCellReceive a b seq err s) := by
  simp only [execCellReceive]
  split <;> simp

@[simp] theorem queueKept_execCellAck (a b : Slice) (s : State) : QueueKept s (execCellAck a b s) := by
  simp [execCellAck]

@[simp] theorem pending_failCell (s : State) (a b seq : Nat) : (s.failCell a b seq).pending = s.pending := by
  simp [State.failCell]

@[simp] theorem queueKept_execCellNak (a b : Slice) (seq : BitVec 16) (s : State) :
    QueueKept s (execCellNak a b seq s) := by simp [execCellNak]

@[simp] theorem queueKept_execCellRetxTimeout (a b : Slice) (seq : BitVec 16) (s : State) :
    QueueKept s (execCellRetxTimeout a b seq s) := by simp [execCellRetxTimeout]

@[simp] theorem queueKept_execCellPoison (a b : Slice) (seq : BitVec 16) (s : State) :
    QueueKept s (execCellPoison a b seq s) := by
  simp only [execCellPoison]
  split <;> simp

@[simp] theorem pending_startPlaneCheck (s : State) (p : Nat) : (s.startPlaneCheck p).pending = s.pending := by
  simp [State.startPlaneCheck]

@[simp] theorem queueKept_execPlaneCheckEnd (good : Bool) (s : State) : QueueKept s (execPlaneCheckEnd good s) := by
  simp only [execPlaneCheckEnd]
  split <;> simp

@[simp] theorem queueKept_execPlaneRemove (k : Fin 18) (s : State) : QueueKept s (execPlaneRemove k s) := by
  simp [execPlaneRemove]

/-! The buffer pool manager -/

@[simp] theorem pending_grant (s : State) (c : Claim) : (s.grant c).pending = s.pending := by
  simp -implicitDefEqProofs [State.grant]

@[simp] theorem pending_turnAway (s : State) (c : Claim) (next : Option Nat) :
    (s.turnAway c next).pending = s.pending := by
  simp only [State.turnAway]
  (repeat' split) <;> simp

@[simp] theorem queueKept_execPoolGrant (side : Side) (slice : Slice) (set : Fin 2) (pool : Fin 4) (s : State) :
    QueueKept s (execPoolGrant side slice set pool s) := by
  simp only [execPoolGrant]
  split <;> simp

@[simp] theorem queueKept_execSpillWriteAck (f : Nat) (s : State) : QueueKept s (execSpillWriteAck f s) := by
  simp [execSpillWriteAck]

@[simp] theorem pending_returnSync (s : State) (k : Nat) : (s.returnSync k).pending = s.pending := by
  simp [State.returnSync]

@[simp] theorem queueKept_execReturnRead (i : Slice) (p : Port) (c : Fin 8) (s : State) :
    QueueKept s (execReturnRead i p c s) := by
  simp only [execReturnRead]
  split <;> simp

@[simp] theorem pending_deepDiscard (s : State) (f : Nat) : (s.deepDiscard f).pending = s.pending := by
  simp [State.deepDiscard]

@[simp] theorem pending_loseDeep (s : State) (k : Nat) : (s.loseDeep k).pending = s.pending := by simp [State.loseDeep]

@[simp] theorem pending_linkReturned (s : State) (f : Nat) : (s.linkReturned f).pending = s.pending := by
  simp [State.linkReturned]

@[simp] theorem queueKept_execReturnReadDone (f : Nat) (s : State) : QueueKept s (execReturnReadDone f s) := by
  simp only [execReturnReadDone]
  (repeat' split) <;> simp

/-! Burin -/

@[simp] theorem pending_putThread (s : State) (i e k : Nat) (f : Option Nat) :
    (s.putThread i e k f).pending = s.pending := by simp [State.putThread]

@[simp] theorem pending_startRewrite (s : State) (i : Nat) : (s.startRewrite i).pending = s.pending := by
  simp only [State.startRewrite]
  split <;> simp

@[simp] theorem queueKept_execBurinRewrite (i : Slice) (s : State) : QueueKept s (execBurinRewrite i s) := by
  simp [execBurinRewrite]

@[simp] theorem pending_release (s : State) (f : Nat) : (s.release f).pending = s.pending := by simp [State.release]

@[simp] theorem pending_releaseAll (s : State) (i n : Nat) : (s.releaseAll i n).pending = s.pending := by
  induction n generalizing s with
  | zero => rfl
  | succ n ih =>
    simp only [State.releaseAll]
    (repeat' split) <;> simp [ih]

@[simp] theorem pending_burinRelease (s : State) (i : Nat) : (s.burinRelease i).pending = s.pending := by
  simp [State.burinRelease]

@[simp] theorem pending_burinDrop (s : State) (f : Nat) (why : BurinDrop) :
    (s.burinDrop f why).pending = s.pending := by simp [State.burinDrop]

@[simp] theorem pending_fenceEngine (s : State) (i e : Nat) : (s.fenceEngine i e).pending = s.pending := by
  simp [State.fenceEngine]

@[simp] theorem pending_threadCheck (s : State) (i e k cause addr : Nat) (inPatch : Bool) :
    (s.threadCheck i e k cause addr inPatch).pending = s.pending := by
  simp only [State.threadCheck]
  split <;> simp -implicitDefEqProofs

@[simp] theorem pending_endRewrite (s : State) (i : Nat) : (s.endRewrite i).pending = s.pending := by
  simp only [State.endRewrite]
  (repeat' split) <;> simp

@[simp] theorem queueKept_execBurinRewriteEnd (i : Slice) (s : State) : QueueKept s (execBurinRewriteEnd i s) := by
  simp [execBurinRewriteEnd]

@[simp] theorem queueKept_execBurinMachineCheck (i : Slice) (e : Fin 5) (k : Fin 4) (cause : Fin 7)
    (addr : BitVec 12) (inPatch : Bool) (s : State) :
    QueueKept s (execBurinMachineCheck i e k cause addr inPatch s) := by simp [execBurinMachineCheck]

@[simp] theorem pending_selftestFails (s : State) (i e cause : Nat) :
    (s.selftestFails i e cause).pending = s.pending := by simp -implicitDefEqProofs [State.selftestFails]

@[simp] theorem pending_engineTest (s : State) (i e : Nat) (pass : Bool) :
    (s.engineTest i e pass).pending = s.pending := by simp [State.engineTest]

@[simp] theorem queueKept_execBurinSelftest (i : Slice) (e : Fin 5) (pass : Bool) (s : State) :
    QueueKept s (execBurinSelftest i e pass s) := by simp [execBurinSelftest]

@[simp] theorem queueKept_execBurinEngineRetire (i : Slice) (e : Fin 5) (s : State) :
    QueueKept s (execBurinEngineRetire i e s) := by
  simp only [execBurinEngineRetire]
  (repeat' split) <;> simp

/-! The rule search array -/

@[simp] theorem queueKept_execRuleInsert (r : Ring) (rec : Dma) (s : State) : QueueKept s (execRuleInsert r rec s) := by
  simp only [execRuleInsert, queueKept_next]
  refine pending_recCommand _ _ _ _ _ _ fun _ _ u => ?_
  (repeat' split) <;> simp

@[simp] theorem queueKept_execRuleModify (r : Ring) (rec : Dma) (s : State) : QueueKept s (execRuleModify r rec s) := by
  simp only [execRuleModify, queueKept_next]
  refine pending_recCommand _ _ _ _ _ _ fun _ _ u => ?_
  (repeat' split) <;> simp

@[simp] theorem queueKept_execRuleDelete (r : Ring) (s : State) : QueueKept s (execRuleDelete r s) := by
  simp only [execRuleDelete, queueKept_next]
  refine pending_seqCommand _ _ _ _ _ fun _ u => ?_
  (repeat' split) <;> simp

@[simp] theorem queueKept_execRuleRead (r : Ring) (written : Bool) (s : State) :
    QueueKept s (execRuleRead r written s) := by
  simp only [execRuleRead, queueKept_next]
  refine pending_resultCommand _ _ _ _ _ fun _ u => ?_
  (repeat' split) <;> simp

@[simp] theorem queueKept_execProfileWrite (r : Ring) (rec : Dma) (s : State) :
    QueueKept s (execProfileWrite r rec s) := by
  simp only [execProfileWrite, queueKept_next]
  refine pending_recCommand _ _ _ _ _ _ fun _ _ u => ?_
  (repeat' split) <;> simp

@[simp] theorem queueKept_execProfileDelete (r : Ring) (s : State) : QueueKept s (execProfileDelete r s) := by
  simp only [execProfileDelete, queueKept_next]
  refine pending_seqCommand _ _ _ _ _ fun _ u => ?_
  (repeat' split) <;> simp

@[simp] theorem queueKept_execRsaGroupCfgWrite (f : Fn) (q : Quad) (v : BitVec 32) (s : State) :
    QueueKept s (execRsaGroupCfgWrite f q v s) := by simp [execRsaGroupCfgWrite]

@[simp] theorem pending_poisonRule (s : State) (q cell : Nat) : (s.poisonRule q cell).pending = s.pending := by
  simp [State.poisonRule]

@[simp] theorem pending_tileCheck (s : State) (q t c n : Nat) : (s.tileCheck q t c n).2.pending = s.pending := by
  simp only [State.tileCheck]
  split <;> simp

@[simp] theorem pending_tileChecks (s : State) (q : Nat) (fails : List (Fin 64 × Nat)) (n : List (Nat × Nat)) :
    (s.tileChecks q fails n).2.pending = s.pending := by
  induction n generalizing s with
  | nil => rfl
  | cons a l ih => simp [State.tileChecks, ih]

@[simp] theorem queueKept_execRsaSearchResult (f : Nat) (fails : List (Fin 64 × Nat)) (s : State) :
    QueueKept s (execRsaSearchResult f fails s) := by simp [execRsaSearchResult]

@[simp] theorem queueKept_execTileScrubStep (q : Quad) (t : Fin 64) (cell : Fin 1024) (parityOk : Bool) (s : State) :
    QueueKept s (execTileScrubStep q t cell parityOk s) := by simp -implicitDefEqProofs [execTileScrubStep]

/-! The exact-match table -/

@[simp] theorem pending_relocate (s : State) (src dst : Nat) : (s.relocate src dst).pending = s.pending := by
  simp [State.relocate]

@[simp] theorem pending_moveChain (s : State) (l : List Nat) : (s.moveChain l).pending = s.pending := by
  fun_induction State.moveChain with
  | case1 s dst src rest ih => simp [ih]
  | case2 => rfl

@[simp] theorem pending_learnRecord (s : State) (type : Nat) (body : Bytes) :
    (s.learnRecord type body).pending = s.pending := by simp [State.learnRecord]

theorem pending_pickVictim {s t : State} {slots : List Nat} {k : Nat} (h : s.pickVictim slots = some (k, t)) :
    t.pending = s.pending := by
  simp only [State.pickVictim] at h
  split at h
  · obtain ⟨_, -, taken⟩ := Option.map_eq_some_iff.mp h
    cases taken
    rfl
  · split at h <;> cases h <;> rfl
  · cases h

@[simp] theorem pending_evict (s : State) (k : Nat) : (s.evict k).pending = s.pending := by
  simp only [State.evict]
  split <;> simp

theorem pending_makeRoom {s t : State} {ktype : Nat} {key : Bytes} {k : Nat} (h : s.makeRoom ktype key = some (k, t)) :
    t.pending = s.pending := by
  simp only [State.makeRoom] at h
  split at h
  · cases h
    rfl
  · split at h
    · cases h
      simp
    · obtain ⟨⟨_, _⟩, picked, evicted⟩ := Option.map_eq_some_iff.mp h
      cases evicted
      simp [pending_pickVictim picked]

@[simp] theorem pending_writeEntry (s : State) (k : Nat) (e : EmSlot) : (s.writeEntry k e).pending = s.pending := by
  simp [State.writeEntry]

@[simp] theorem pending_killSlot (s : State) (k : Nat) : (s.killSlot k).pending = s.pending := by
  simp only [State.killSlot]
  split <;> simp

@[simp] theorem pending_placeSoft (s t : State) (r : Nat) (b : Bytes) (h : t.pending = s.pending) :
    (s.placeSoft t r b).pending = s.pending := by
  simp only [State.placeSoft]
  split
  · simp
  · next made => split <;> simp [pending_makeRoom made, h]

@[simp] theorem queueKept_execEmInsert (r : Ring) (rec : Dma) (s : State) : QueueKept s (execEmInsert r rec s) := by
  simp only [execEmInsert, queueKept_next]
  refine pending_recCommand _ _ _ _ _ _ fun _ _ u => ?_
  (repeat' split) <;> simp

@[simp] theorem queueKept_execEmModify (r : Ring) (rec : Dma) (s : State) : QueueKept s (execEmModify r rec s) := by
  simp only [execEmModify, queueKept_next]
  refine pending_recCommand _ _ _ _ _ _ fun _ _ u => ?_
  (repeat' split) <;> simp

@[simp] theorem queueKept_execEmDelete (r : Ring) (rec : Dma) (s : State) : QueueKept s (execEmDelete r rec s) := by
  simp only [execEmDelete, queueKept_next]
  refine pending_recCommand _ _ _ _ _ _ fun _ _ u => ?_
  (repeat' split) <;> simp

@[simp] theorem queueKept_execEmSearch (r : Ring) (rec : Dma) (written : Bool) (s : State) :
    QueueKept s (execEmSearch r rec written s) := by
  simp only [execEmSearch, queueKept_next]
  refine pending_recCommand _ _ _ _ _ _ fun _ _ u => ?_
  (repeat' split) <;> simp

@[simp] theorem queueKept_execEmNext (r : Ring) (written : Bool) (s : State) :
    QueueKept s (execEmNext r written s) := by simp [execEmNext]

@[simp] theorem pending_lookupErrors (s : State) (slice errors : Nat) :
    (s.lookupErrors slice errors).pending = s.pending := by simp [State.lookupErrors]

@[simp] theorem queueKept_execEmLookupResult (f errors : Nat) (s : State) :
    QueueKept s (execEmLookupResult f errors s) := by
  simp only [execEmLookupResult]
  (repeat' split) <;> simp

@[simp] theorem pending_enterFilter (s : State) (q kt : Nat) (key : Bytes) :
    (s.enterFilter q kt key).pending = s.pending := by simp [State.enterFilter]

@[simp] theorem queueKept_execLearnFilterExpire (q : Quad) (s : State) : QueueKept s (execLearnFilterExpire q s) := by
  simp only [execLearnFilterExpire]
  split <;> simp

@[simp] theorem pending_learnEvent (s : State) (f : Nat) : (s.learnEvent f).pending = s.pending := by
  simp only [State.learnEvent]
  split
  · rfl
  · split
    · rfl
    · split
      · simp
      · split
        · simp
        · split
          · simp
          · next taken => simp [pending_takeToken taken]

@[simp] theorem pending_placeLearn (s : State) (j : LearnJob) : (s.placeLearn j).pending = s.pending := by
  simp only [State.placeLearn]
  split
  · rfl
  · split
    · simp
    · next made => split <;> simp [pending_makeRoom made]

@[simp] theorem pending_placeMove (s : State) (j : LearnJob) : (s.placeMove j).pending = s.pending := by
  simp only [State.placeMove]
  split <;> simp

@[simp] theorem queueKept_execLearnPlace (s : State) : QueueKept s (execLearnPlace s) := by
  simp only [execLearnPlace]
  (repeat' split) <;> simp

@[simp] theorem queueKept_execAgingLapStart (s : State) : QueueKept s (execAgingLapStart s) := by
  simp -implicitDefEqProofs [execAgingLapStart]

@[simp] theorem pending_ageSlot (s : State) (k : Nat) (h : Bool) : (s.ageSlot k h).pending = s.pending := by
  simp only [State.ageSlot]
  split <;> simp

@[simp] theorem pending_sweptBucket (s : State) (b : Nat) : (s.sweptBucket b).pending = s.pending := by
  simp -implicitDefEqProofs [State.sweptBucket]

@[simp] theorem pending_sweepRemove (s : State) (w : Sweep) : (s.sweepRemove w).pending = s.pending := by
  simp only [State.sweepRemove]
  split
  · simp
  · rw [pending_sweptBucket, pending_runOver fun k u => by split <;> simp]

@[simp] theorem queueKept_execAgingSweepStep (b : Fin 131072) (s : State) : QueueKept s (execAgingSweepStep b s) := by
  simp only [execAgingSweepStep]
  split <;> simp

/-! HBM and the integrity of stored data -/

@[simp] theorem pending_countCe (s : State) (inst : Nat) : (s.countCe inst).pending = s.pending := by
  simp [State.countCe]

@[simp] theorem pending_logCorrection (s : State) (inst addr syn : Nat) :
    (s.logCorrection inst addr syn).pending = s.pending := by
  simp only [State.logCorrection]
  (repeat' split) <;> simp

@[simp] theorem pending_meetCorrupt (s : State) (inst : Nat) : (s.meetCorrupt inst).pending = s.pending := by
  simp [State.meetCorrupt]

@[simp] theorem queueKept_execMemCorrection (inst : BitVec 12) (addr : BitVec 40) (syn : BitVec 8) (s : State) :
    QueueKept s (execMemCorrection inst addr syn s) := by simp [execMemCorrection]

@[simp] theorem queueKept_execWritebackComplete (inst : BitVec 12) (addr : BitVec 40) (s : State) :
    QueueKept s (execWritebackComplete inst addr s) := by simp [execWritebackComplete]

@[simp] theorem pending_errorResponse (s : State) (x : HbmTarget) : (s.errorResponse x).pending = s.pending := by
  cases x <;> simp [State.errorResponse]

@[simp] theorem pending_poisonUnit (s : State) (g m j : Nat) : (s.poisonUnit g m j).pending = s.pending := by
  simp [State.poisonUnit]

@[simp] theorem queueKept_execHbmReadError (pc : Fin 128) (rereadOk reconOk : Bool) (addr : Nat)
    (target : HbmTarget) (s : State) :
    QueueKept s (execHbmReadError pc rereadOk reconOk addr target s) := by
  simp only [execHbmReadError]
  split <;> simp

@[simp] theorem queueKept_execReceiveIndexRebuildDone (b : Nat) (s : State) :
    QueueKept s (execReceiveIndexRebuildDone b s) := by simp [execReceiveIndexRebuildDone]

@[simp] theorem pending_refreshDue (s : State) (pc bank fellDue : Nat) :
    (s.refreshDue pc bank fellDue).pending = s.pending := by simp [State.refreshDue]

@[simp] theorem queueKept_execHbmRefresh (pc : Fin 128) (bank : Nat) (pulledIn : Bool) (fellDue : Nat) (s : State) :
    QueueKept s (execHbmRefresh pc bank pulledIn fellDue s) := by simp [execHbmRefresh]

@[simp] theorem queueKept_execRefreshForced (pc : Fin 128) (bank fellDue : Nat) (s : State) :
    QueueKept s (execRefreshForced pc bank fellDue s) := by simp [execRefreshForced]

@[simp] theorem pending_goOffline (s : State) (pc : Nat) (repair : Bool) :
    (s.goOffline pc repair).pending = s.pending := by simp [State.goOffline]

@[simp] theorem queueKept_execHbmRetrainStart (pc : Fin 128) (temp : Int) (s : State) :
    QueueKept s (execHbmRetrainStart pc temp s) := by simp [execHbmRetrainStart]

@[simp] theorem pending_memberBack (s : State) (g : Nat) : (s.memberBack g).pending = s.pending := by
  simp [State.memberBack]

@[simp] theorem queueKept_execMemberReturn (pc : Fin 128) (workOk : Bool) (s : State) :
    QueueKept s (execMemberReturn pc workOk s) := by simp [execMemberReturn]

@[simp] theorem pending_hbmLap (s : State) (minutes : Nat) : (s.hbmLap minutes).pending = s.pending := by
  simp -implicitDefEqProofs [State.hbmLap]

@[simp] theorem pending_scrubBad (s : State) (g j : Nat) (bad : List Nat) (targets : List HbmTarget) :
    (s.scrubBad g j bad targets).pending = s.pending := by
  simp only [State.scrubBad]
  split <;> simp

@[simp] theorem pending_scrubStripe (s : State) (g j : Nat) (corrected bad : List Nat) (parityDisagrees : Bool)
    (targets : List HbmTarget) :
    (s.scrubStripe g j corrected bad parityDisagrees targets).pending = s.pending := by simp [State.scrubStripe]

@[simp] theorem queueKept_execHbmScrubStep (g : Slice) (stripe : Nat) (corrected bad : List Nat)
    (parityDisagrees : Bool) (targets : List HbmTarget) (lapEnd : Option Nat) (s : State) :
    QueueKept s (execHbmScrubStep g stripe corrected bad parityDisagrees targets lapEnd s) := by
  simp only [execHbmScrubStep]
  (repeat' split) <;> simp

@[simp] theorem pending_onDieLap (s : State) (ms : Nat) : (s.onDieLap ms).pending = s.pending := by
  simp -implicitDefEqProofs [State.onDieLap]

@[simp] theorem pending_scrubLost (s : State) (n addr : Nat) : (s.scrubLost n addr).pending = s.pending := by
  simp [State.scrubLost]

@[simp] theorem queueKept_execOndieScrubStep (inst : BitVec 12) (addr : BitVec 40) (found : ScrubFinding)
    (lapEnd : Option Nat) (s : State) :
    QueueKept s (execOndieScrubStep inst addr found lapEnd s) := by
  simp only [execOndieScrubStep]
  (repeat' split) <;> simp

@[simp] theorem pending_withdrawBuffer (s : State) (inst addr : Nat) :
    (s.withdrawBuffer inst addr).pending = s.pending := by simp [State.withdrawBuffer]

@[simp] theorem pending_withdrawSlot (s : State) (inst addr : Nat) :
    (s.withdrawSlot inst addr).pending = s.pending := by simp [State.withdrawSlot]

@[simp] theorem pending_withdrawUnit (s : State) (pc addr : Nat) : (s.withdrawUnit pc addr).pending = s.pending := by
  simp only [State.withdrawUnit]
  split <;> simp

@[simp] theorem pending_reportLoss (s : State) (inst addr : Nat) : (s.reportLoss inst addr).pending = s.pending := by
  simp only [State.reportLoss]
  split <;> simp

@[simp] theorem pending_withdraw (s : State) (inst addr : Nat) : (s.withdraw inst addr).pending = s.pending := by
  simp only [State.withdraw]
  split <;> simp

@[simp] theorem pending_repaired (s : State) (inst addr how : Nat) :
    (s.repaired inst addr how).pending = s.pending := by simp [State.repaired]

@[simp] theorem queueKept_execMemSpare (inst : BitVec 12) (addr : BitVec 40) (how : SpareKind) (s : State) :
    QueueKept s (execMemSpare inst addr how s) := by
  simp only [execMemSpare]
  (repeat' split) <;> simp

@[simp] theorem pending_groupState (s : State) (g : Nat) (x : GroupState) (member : Nat) :
    (s.groupState g x member).pending = s.pending := by simp [State.groupState]

@[simp] theorem queueKept_execGroupRebuildDone (g : Slice) (switched : Nat) (s : State) :
    QueueKept s (execGroupRebuildDone g switched s) := by
  simp only [execGroupRebuildDone]
  (repeat' split) <;> simp

@[simp] theorem queueKept_execGroupEvacuationDone (g : Slice) (left : Nat) (s : State) :
    QueueKept s (execGroupEvacuationDone g left s) := by
  simp only [execGroupEvacuationDone]
  (repeat' split) <;> simp

@[simp] theorem pending_retireMember (s : State) (n : Nat) : (s.retireMember n).pending = s.pending := by
  simp [State.retireMember]

/-! Routes, the replicas and Proofing -/

@[simp] theorem queueKept_execLpmAdd (r : Ring) (rec : Dma) (s : State) : QueueKept s (execLpmAdd r rec s) := by
  simp [execLpmAdd]

@[simp] theorem queueKept_execLpmModify (r : Ring) (rec : Dma) (s : State) : QueueKept s (execLpmModify r rec s) := by
  simp only [execLpmModify, queueKept_next]
  refine pending_recCommand _ _ _ _ _ _ fun _ _ u => ?_
  (repeat' split) <;> simp

@[simp] theorem queueKept_execLpmDelete (r : Ring) (rec : Dma) (s : State) : QueueKept s (execLpmDelete r rec s) := by
  simp only [execLpmDelete, queueKept_next]
  refine pending_recCommand _ _ _ _ _ _ fun _ _ u => ?_
  (repeat' split) <;> simp

@[simp] theorem queueKept_execLpmLookupResult (f errors : Nat) (s : State) :
    QueueKept s (execLpmLookupResult f errors s) := by
  simp only [execLpmLookupResult]
  (repeat' split) <;> simp

@[simp] theorem pending_proofStatus (s : State) (hi lo v : Nat) : (s.proofStatus hi lo v).pending = s.pending := by
  simp [State.proofStatus]

@[simp] theorem pending_proofError (s : State) (q : Nat) (l : TableLoc) : (s.proofError q l).pending = s.pending := by
  simp only [State.proofError]
  split <;> simp

@[simp] theorem pending_proofFix (s : State) (q : Nat) (l : TableLoc) : (s.proofFix q l).pending = s.pending := by
  simp [State.proofFix]

@[simp] theorem pending_proofParity (s : State) (q : Nat) (l : TableLoc) : (s.proofParity q l).pending = s.pending := by
  simp only [State.proofParity]
  split <;> simp

@[simp] theorem pending_proofVisit (s : State) (l : TableLoc) : (s.proofVisit l).pending = s.pending := by
  simp [State.proofVisit]

@[simp] theorem pending_proofLapEnd (s : State) : s.proofLapEnd.pending = s.pending := by
  simp -implicitDefEqProofs [State.proofLapEnd]

@[simp] theorem queueKept_execProofingStep (l : TableLoc) (finding : ProofFinding) (s : State) :
    QueueKept s (execProofingStep l finding s) := by
  simp only [execProofingStep]
  (repeat' split) <;> simp

@[simp] theorem queueKept_execProofRebuild (f : Fn) (s : State) : QueueKept s (execProofRebuild f s) := by
  simp [execProofRebuild]

@[simp] theorem pending_rebuildStep (s : State) (l : TableLoc) (next : Nat) :
    (s.rebuildStep l next).pending = s.pending := by simp [State.rebuildStep]

@[simp] theorem queueKept_execProofRebuildDone (s : State) : QueueKept s (execProofRebuildDone s) := by
  simp [execProofRebuildDone]

/-! The table sequencer -/

@[simp] theorem queueKept_execEmFlush (r : Ring) (s : State) : QueueKept s (execEmFlush r s) := by simp [execEmFlush]

@[simp] theorem pending_flushSlot (s : State) (f : Flush) (k : Nat) : (s.flushSlot f k).1.pending = s.pending := by
  simp only [State.flushSlot]
  (repeat' split) <;> simp

@[simp] theorem pending_flushSlots (s : State) (f : Flush) (l : List Nat) :
    (s.flushSlots f l).1.pending = s.pending := by
  induction l generalizing s f with
  | nil => rfl
  | cons k rest ih => simp [State.flushSlots, ih]

@[simp] theorem pending_finishFlush (s : State) (f : Flush) : (s.finishFlush f).pending = s.pending := by
  simp [State.finishFlush]

@[simp] theorem pending_flushStep (s : State) (f : Flush) : (s.flushStep f).pending = s.pending := by
  simp [State.flushStep]

@[simp] theorem pending_copyStep (s : State) (q : Nat) (c : TileCopy) : (s.copyStep q c).pending = s.pending := by
  simp -implicitDefEqProofs [State.copyStep]

theorem pending_routineStep {s t : State} (h : s.routineStep = some t) : t.pending = s.pending := by
  simp only [State.routineStep] at h
  split at h
  · cases h
  · split at h
    · split at h
      · cases h
      · cases h
        simp
    · split at h
      · cases h
      · split at h
        · cases h
          simp
        · split at h
          · cases h
          · split at h
            · cases h
              simp
            · cases h
              simp
            · split at h
              · cases h
              · obtain ⟨_, -, rfl⟩ := Option.map_eq_some_iff.mp h
                simp

@[simp] theorem pending_routineSteps (s : State) (n : Nat) : (s.routineSteps n).pending = s.pending := by
  induction n generalizing s with
  | zero => rfl
  | succ n ih =>
    simp only [State.routineSteps]
    split
    · next stepped => exact (ih _).trans (pending_routineStep stepped)
    · rfl

@[simp] theorem queueKept_execSeqRoutineResume (steps : Nat) (s : State) :
    QueueKept s (execSeqRoutineResume steps s) := by simp [execSeqRoutineResume]

@[simp] theorem queueKept_execSeqMachineCheck (cause : Fin 7) (addr : BitVec 12) (inPatch : Bool) (s : State) :
    QueueKept s (execSeqMachineCheck cause addr inPatch s) := by simp [execSeqMachineCheck]

theorem pending_loadBundle {s t : State} {b : Bytes} (h : s.loadBundle b = some t) : t.pending = s.pending := by
  simp only [State.loadBundle] at h
  split at h
  · split at h
    · cases h
    · cases h
      simp
  · split at h
    · cases h
    · cases h
      simp
  · cases h

/-! Fault events, the order of retirements, the sparing of rule tiles, record holdoffs and fault injection -/

@[simp] theorem pending_faultWith (s : State) (n cause detail k : Nat) :
    (s.faultWith n cause detail k).pending = s.pending := by simp [State.faultWith]

@[simp] theorem queueKept_execFaultEvent (n : Nat) (cause : BitVec 8) (detail : BitVec 64) (count : Nat) (s : State) :
    QueueKept s (execFaultEvent n cause detail count s) := by simp [execFaultEvent]

@[simp] theorem queueKept_execFaultHoldoffEnd (n : Nat) (s : State) : QueueKept s (execFaultHoldoffEnd n s) := by
  simp [execFaultHoldoffEnd]

@[simp] theorem pending_loseTile (s : State) (q n p : Nat) : (s.loseTile q n p).pending = s.pending := by
  simp [State.loseTile]

@[simp] theorem pending_startTileCopy (s : State) (q n p t : Nat) : (s.startTileCopy q n p t).pending = s.pending := by
  simp only [State.startTileCopy]
  split <;> simp

@[simp] theorem queueKept_execTileCopyDone (q : Quad) (good : Bool) (s : State) :
    QueueKept s (execTileCopyDone q good s) := by
  simp only [execTileCopyDone]
  split <;> simp

@[simp] theorem pending_startRetirement (s : State) (n : Nat) : (s.startRetirement n).pending = s.pending := by
  simp only [State.startRetirement]
  (repeat' split) <;> simp

@[simp] theorem queueKept_execRetirementStart (n : Nat) (s : State) : QueueKept s (execRetirementStart n s) := by
  simp [execRetirementStart]

@[simp] theorem pending_injectFaults (s : State) (v : Nat) : (s.injectFaults v).pending = s.pending := by
  simp only [State.injectFaults]
  split <;> simp

@[simp] theorem pending_injectWrite (s : State) (f : Fn) (m : RegAt) (size v : Nat) :
    (s.injectWrite f m size v).pending = s.pending := by
  simp only [State.injectWrite]
  split <;> simp -implicitDefEqProofs

@[simp] theorem pending_injectRow (s : State) (f : Fn) (type v : Nat) : (s.injectRow f type v).pending = s.pending := by
  simp [State.injectRow]

@[simp] theorem queueKept_execInjectEvent (f : Fn) (v : BitVec 64) (s : State) :
    QueueKept s (execInjectEvent f v s) := by simp [execInjectEvent]

@[simp] theorem queueKept_execInjectCorrupt (f : Fn) (v : BitVec 64) (s : State) :
    QueueKept s (execInjectCorrupt f v s) := by simp [execInjectCorrupt]

@[simp] theorem queueKept_execInjectCritical (f : Fn) (v : BitVec 64) (s : State) :
    QueueKept s (execInjectCritical f v s) := by simp [execInjectCritical]

/-! Sensors and Cones, the Kiln Record's commits and histograms, the SMBus answers, performance shadows and telemetry -/

@[simp] theorem pending_alarmCheck (s : State) (sensors : List Nat) : (s.alarmCheck sensors).pending = s.pending := by
  simp only [State.alarmCheck]
  (repeat' split) <;> simp

@[simp] theorem pending_sense (s : State) (r : Readings) : (s.sense r).pending = s.pending := by simp [State.sense]

@[simp] theorem queueKept_execThermalAlarm (sensor : Fin 64) (q : Int) (s : State) :
    QueueKept s (execThermalAlarm sensor q s) := by simp [execThermalAlarm]

@[simp] theorem pending_turnRing (s : State) (failing : List Nat) (n : Nat) :
    (s.turnRing failing n).pending = s.pending := by
  induction n generalizing s with
  | zero => rfl
  | succ n ih => simp [State.turnRing, ih]

@[simp] theorem pending_writeRing (s : State) (failing : List Nat) (kind ckSeq : Nat) :
    (s.writeRing failing kind ckSeq).2.pending = s.pending := by simp [State.writeRing]

@[simp] theorem pending_writeLogPage (s : State) (failing : List Nat) :
    (s.writeLogPage failing).pending = s.pending := by simp [State.writeLogPage]

@[simp] theorem pending_writeLogPages (s : State) (failing : List Nat) :
    (s.writeLogPages failing).pending = s.pending := by simp [State.writeLogPages]

@[simp] theorem pending_writeCheckpoint (s : State) (failing : List Nat) :
    (s.writeCheckpoint failing).pending = s.pending := by simp [State.writeCheckpoint]

@[simp] theorem pending_telemetryRecord (s : State) (ring seq buf kind sensor : Nat) (value : Int) (time : Nat) :
    (s.telemetryRecord ring seq buf kind sensor value time).pending = s.pending := by simp [State.telemetryRecord]

@[simp] theorem pending_measureCone (s : State) (i f : Nat) : (s.measureCone i f).pending = s.pending := by
  simp only [State.measureCone]
  (repeat' split) <;> simp

@[simp] theorem pending_eyeHour (s : State) (readings : List (Nat × Int)) :
    (s.eyeHour readings).pending = s.pending := by
  refine pending_runOver (fun r u => ?_) _ _
  split <;> simp

@[simp] theorem queueKept_execKilnCommit (cones : List Nat) (eyes : List (Nat × Int)) (failing : List Nat)
    (s : State) :
    QueueKept s (execKilnCommit cones eyes failing s) := by simp [execKilnCommit]

@[simp] theorem queueKept_execKilnLogPageWrite (failing : List Nat) (s : State) :
    QueueKept s (execKilnLogPageWrite failing s) := by simp [execKilnLogPageWrite]

@[simp] theorem queueKept_execHistogramMinute (r : Readings) (s : State) : QueueKept s (execHistogramMinute r s) := by
  simp [execHistogramMinute]

@[simp] theorem queueKept_execHealthRefresh (r : Readings) (s : State) : QueueKept s (execHealthRefresh r s) := by
  simp [execHealthRefresh]

@[simp] theorem queueKept_execSmbusStatusRead (s : State) : QueueKept s (execSmbusStatusRead s) := by
  simp [execSmbusStatusRead]

@[simp] theorem queueKept_execSmbusHealthRead (s : State) : QueueKept s (execSmbusHealthRead s) := by
  simp [execSmbusHealthRead]

@[simp] theorem pending_latchShadows (s : State) : s.latchShadows.pending = s.pending := by simp [State.latchShadows]

@[simp] theorem queueKept_execTelemetrySnapshot (r : Readings) (s : State) :
    QueueKept s (execTelemetrySnapshot r s) := by
  simp only [execTelemetrySnapshot]
  split <;> simp

/-! The mailbox and its commands -/

@[simp] theorem pending_mailStatus (s : State) (f : Fn) (hi lo v : Nat) :
    (s.mailStatus f hi lo v).pending = s.pending := by simp [State.mailStatus]

@[simp] theorem pending_mailGo (s : State) (f : Fn) : (s.mailGo f).pending = s.pending := by simp [State.mailGo]

@[simp] theorem queueKept_execMailboxGo (f : Fn) (s : State) : QueueKept s (execMailboxGo f s) := by
  simp [execMailboxGo]

@[simp] theorem pending_mailAnswer (s : State) (f : Fn) (st : MailStatus) (info : Nat) (result : Bytes) :
    (s.mailAnswer f st info result).pending = s.pending := by
  simp only [State.mailAnswer]
  split <;> simp

@[simp] theorem pending_mailDeny (s : State) (f : Fn) : (s.mailDeny f).pending = s.pending := by simp [State.mailDeny]

@[simp] theorem pending_mailCommand (s : State) (f : Fn) (op : Nat) (fns : List Fn) (badArg : Bytes → Bool)
    (modes : Mode → Bool) (run : Bytes → State → State) (hrun : ∀ a u, (run a u).pending = u.pending) :
    (s.mailCommand f op fns badArg modes run).pending = s.pending := by
  simp only [State.mailCommand]
  split <;> simp [hrun]

@[simp] theorem pending_dropStaged (s : State) : s.dropStaged.pending = s.pending := by simp [State.dropStaged]

@[simp] theorem pending_endStaging (s : State) : s.endStaging.pending = s.pending := by
  simp only [State.endStaging]
  split <;> simp

@[simp] theorem pending_mailOther (s : State) (f : Fn) : (s.mailOther f).pending = s.pending := by
  simp only [State.mailOther]
  split <;> simp

@[simp] theorem queueKept_execMailboxResponse (f : Fn) (s : State) : QueueKept s (execMailboxResponse f s) := by
  simp only [execMailboxResponse]
  split <;> simp -implicitDefEqProofs

@[simp] theorem queueKept_execGetInfo (f : Fn) (s : State) : QueueKept s (execGetInfo f s) := by simp [execGetInfo]

@[simp] theorem queueKept_execSensorRead (f : Fn) (r : Readings) (written : Bool) (s : State) :
    QueueKept s (execSensorRead f r written s) := by simp [execSensorRead]

@[simp] theorem queueKept_execFwStage (f : Fn) (image : Dma) (sigOk flashOk : Bool) (s : State) :
    QueueKept s (execFwStage f image sigOk flashOk s) := by
  simp only [execFwStage]
  split <;> simp

@[simp] theorem queueKept_execFwActivate (f : Fn) (s : State) : QueueKept s (execFwActivate f s) := by
  simp [execFwActivate]

@[simp] theorem queueKept_execKrRead (f : Fn) (written : Bool) (s : State) : QueueKept s (execKrRead f written s) := by
  simp only [execKrRead, queueKept_next]
  refine pending_mailCommand _ _ _ _ _ _ _ fun _ u => ?_
  (repeat' split) <;> simp

@[simp] theorem queueKept_execModI2c (f : Fn) (host : Dma) (bus : Option Bytes) (written : Bool) (s : State) :
    QueueKept s (execModI2c f host bus written s) := by
  simp only [execModI2c]
  (repeat' split) <;> simp

@[simp] theorem queueKept_execMdio (f : Fn) (valueRead : BitVec 16) (s : State) :
    QueueKept s (execMdio f valueRead s) := by simp [execMdio]

@[simp] theorem queueKept_execTelemCfg (f : Fn) (s : State) : QueueKept s (execTelemCfg f s) := by simp [execTelemCfg]

@[simp] theorem queueKept_execPatchLoad (f : Fn) (bundle : Bytes) (s : State) :
    QueueKept s (execPatchLoad f bundle s) := by
  refine pending_mailCommand _ _ _ _ _ _ _ fun q u => ?_
  split
  · simp
  · split
    · simp
    · split
      · next loaded => simp [pending_loadBundle loaded]
      · simp

/-! The settings that change a limited number of times and the fuse controller -/

@[simp] theorem pending_queueFuse (s : State) (o : FuseOp) : (s.queueFuse o).pending = s.pending := by
  simp [State.queueFuse]

@[simp] theorem pending_mailFuse (s : State) (f : Fn) (id index value : Nat) :
    (s.mailFuse f id index value).pending = s.pending := by simp [State.mailFuse]

@[simp] theorem pending_fuseRequest (s : State) (f : Fn) (id : Nat) (owner : Fn) (modes : Mode → Bool) :
    (s.fuseRequest f id owner modes).pending = s.pending := by
  simp only [State.fuseRequest]
  split <;> simp

@[simp] theorem queueKept_execFuseBypassDisable (f : Fn) (s : State) : QueueKept s (execFuseBypassDisable f s) := by
  simp [execFuseBypassDisable]

@[simp] theorem queueKept_execFuseDebugLock (f : Fn) (s : State) : QueueKept s (execFuseDebugLock f s) := by
  simp [execFuseDebugLock]

@[simp] theorem queueKept_execFuseFtLockout (f : Fn) (s : State) : QueueKept s (execFuseFtLockout f s) := by
  simp [execFuseFtLockout]

@[simp] theorem queueKept_execFuseDomainLock (f : Fn) (s : State) : QueueKept s (execFuseDomainLock f s) := by
  simp [execFuseDomainLock]

@[simp] theorem queueKept_execFuseAssetTag (f : Fn) (s : State) : QueueKept s (execFuseAssetTag f s) := by
  simp [execFuseAssetTag]

@[simp] theorem queueKept_execArbAdvance (f : Fn) (s : State) : QueueKept s (execArbAdvance f s) := by
  simp [execArbAdvance]

@[simp] theorem queueKept_execKekAdvance (r : Ring) (s : State) : QueueKept s (execKekAdvance r s) := by
  simp [execKekAdvance]

@[simp] theorem pending_ageSlots (s : State) : s.ageSlots.pending = s.pending := by simp [State.ageSlots]

@[simp] theorem pending_fuseAnswer (s : State) (o : FuseOp) (good : Bool) (n : Nat) :
    (s.fuseAnswer o good n).pending = s.pending := by
  simp only [State.fuseAnswer]
  split <;> simp

@[simp] theorem pending_gateFuse (s : State) : s.gateFuse.pending = s.pending := by simp [State.gateFuse]

@[simp] theorem pending_recoverIntents (s : State) : s.recoverIntents.pending = s.pending := by
  simp [State.recoverIntents]

@[simp] theorem queueKept_execFuseOperation (back : FuseReadBack) (s : State) :
    QueueKept s (execFuseOperation back s) := by
  simp only [execFuseOperation]
  (repeat' split) <;> simp

/-! Meanings of the doorbells and of the ring events -/

@[simp] theorem pending_ignoreDoorbell (s : State) (req : Requester) : (s.ignoreDoorbell req).pending = s.pending := by
  simp [State.ignoreDoorbell]

@[simp] theorem pending_bar2Write (s : State) (req : Requester) (off size value : Nat) :
    (s.bar2Write req off size value).pending = s.pending := by
  simp only [State.bar2Write]
  split <;> simp

@[simp] theorem pending_applyIndex (s : State) (req : Requester) (r index : Nat) :
    (s.applyIndex req r index).pending = s.pending := by simp [State.applyIndex]

@[simp] theorem queueKept_execDoorbellIndex (req : Requester) (off size : Nat) (value : BitVec 64) (s : State) :
    QueueKept s (execDoorbellIndex req off size value s) := by
  simp only [execDoorbellIndex]
  split <;> simp

@[simp] theorem pending_applyContext (s : State) (r : Nat) (c : RingCtx) :
    (s.applyContext r c).pending = s.pending := by simp [State.applyContext]

@[simp] theorem queueKept_execDoorbellInvalidate (req : Requester) (off size : Nat) (value : BitVec 64) (ctx : Dma)
    (s : State) :
    QueueKept s (execDoorbellInvalidate req off size value ctx s) := by
  simp only [execDoorbellInvalidate]
  (repeat' split) <;> simp

@[simp] theorem queueKept_execDoorbellResume (req : Requester) (off size : Nat) (value : BitVec 64) (s : State) :
    QueueKept s (execDoorbellResume req off size value s) := by
  simp only [execDoorbellResume]
  split <;> simp

@[simp] theorem queueKept_execDeferredRingEnable (r : Ring) (s : State) : QueueKept s (execDeferredRingEnable r s) := by
  simp only [execDeferredRingEnable]
  split <;> simp

@[simp] theorem pending_fetchDescriptor (s : State) (r : Nat) (res : FetchResult) :
    (s.fetchDescriptor r res).pending = s.pending := by
  simp only [State.fetchDescriptor]
  (repeat' split) <;> simp

@[simp] theorem queueKept_execDescriptorFetch (r : Ring) (res : FetchResult) (s : State) :
    QueueKept s (execDescriptorFetch r res s) := by simp [execDescriptorFetch]

@[simp] theorem queueKept_execRingStopped (r : Ring) (s : State) : QueueKept s (execRingStopped r s) := by
  simp [execRingStopped]

@[simp] theorem queueKept_execNop (r : Ring) (s : State) : QueueKept s (execNop r s) := by simp [execNop]

@[simp] theorem queueKept_execEventOverflowRecord (r : Ring) (s : State) :
    QueueKept s (execEventOverflowRecord r s) := by simp [execEventOverflowRecord]

@[simp] theorem queueKept_execIrqHoldoffEnd (r : Ring) (s : State) : QueueKept s (execIrqHoldoffEnd r s) := by
  simp [execIrqHoldoffEnd]

/-! The policers, and a frame's combined result and what it does -/

@[simp] theorem pending_meterFrame (s : State) (f : Nat) : (s.meterFrame f).pending = s.pending := by
  simp only [State.meterFrame]
  split <;> simp

@[simp] theorem queueKept_execPolicerMeter (q : Quad) (s : State) : QueueKept s (execPolicerMeter q s) := by
  simp only [execPolicerMeter]
  split <;> simp

@[simp] theorem queueKept_execPolicerLate (f : Nat) (s : State) : QueueKept s (execPolicerLate f s) := by
  simp [execPolicerLate]

@[simp] theorem pending_sampleFrame (s : State) (f : Nat) : (s.sampleFrame f).pending = s.pending := by
  simp only [State.sampleFrame]
  split
  · rfl
  · split
    · rfl
    · split
      · simp
      · next taken => simp [pending_takeToken taken]

theorem pending_copyTake {s t : State} {ring q meter : Nat} (h : s.copyTake ring q meter = some t) :
    t.pending = s.pending :=
  pending_puntTake h

@[simp] theorem pending_meteredPunt (s : State) (f ring meter kind cls lentry drop : Nat) :
    (s.meteredPunt f ring meter kind cls lentry drop).pending = s.pending := by
  simp only [State.meteredPunt]
  split
  · next taken => simp [pending_copyTake taken]
  · simp

@[simp] theorem pending_hostCopy (s : State) (f cls : Nat) : (s.hostCopy f cls).pending = s.pending := by
  simp only [State.hostCopy]
  split
  · rfl
  · split
    · next taken => simp [pending_copyTake taken]
    · simp

@[simp] theorem pending_integrityPunt (s : State) (f k : Nat) : (s.integrityPunt f k).pending = s.pending := by
  simp [State.integrityPunt]

@[simp] theorem pending_applyBroken (s : State) (f : Nat) : (s.applyBroken f).pending = s.pending := by
  simp [State.applyBroken]

@[simp] theorem pending_sendEncrypted (s : State) (f c requester : Nat) :
    (s.sendEncrypted f c requester).pending = s.pending := by
  simp only [State.sendEncrypted]
  split <;> simp

@[simp] theorem pending_sendPlain (s : State) (f port : Nat) (byp : Option Nat) (requester : Nat) :
    (s.sendPlain f port byp requester).pending = s.pending := by simp [State.sendPlain]

@[simp] theorem pending_rulePunt (s : State) (f cls : Nat) : (s.rulePunt f cls).pending = s.pending := by
  simp [State.rulePunt]

@[simp] theorem pending_basePunt (s : State) (f cls : Nat) : (s.basePunt f cls).pending = s.pending := by
  simp [State.basePunt]

@[simp] theorem pending_applyVerdict (s : State) (f : Nat) (p : Plan) : (s.applyVerdict f p).pending = s.pending := by
  simp only [State.applyVerdict]
  split <;> simp

@[simp] theorem pending_mirrorCopy (s : State) (x : Frame) : (s.mirrorCopy x).pending = s.pending := by
  simp [State.mirrorCopy]

@[simp] theorem pending_applyPlan (s : State) (f : Nat) : (s.applyPlan f).pending = s.pending := by
  simp [State.applyPlan]

@[simp] theorem queueKept_execResultApply (f : Nat) (s : State) : QueueKept s (execResultApply f s) := by
  simp [execResultApply]

/-! Injected frames and reads of counter pairs -/

@[simp] theorem pending_putRun (s : State) (r status : Nat) (l : List Bytes) :
    (s.putRun r status l).pending = s.pending := by simp [State.putRun]

@[simp] theorem pending_admitLookup (s : State) (h : Bytes) (x : Frame) : (s.admitLookup h x).pending = s.pending := by
  simp [State.admitLookup]

@[simp] theorem pending_admitDirect (s : State) (h : Bytes) (x : Frame) : (s.admitDirect h x).pending = s.pending := by
  simp [State.admitDirect]

@[simp] theorem pending_admitRun (s : State) (h frame : Bytes) (cookie : Nat) :
    (s.admitRun h frame cookie).pending = s.pending := by simp [State.admitRun]

@[simp] theorem queueKept_execInjectAdmit (r : Ring) (data : Dma) (s : State) :
    QueueKept s (execInjectAdmit r data s) := by
  simp only [execInjectAdmit]
  (repeat' split) <;> simp

@[simp] theorem pending_flushOldPairs (s : State) : s.flushOldPairs.pending = s.pending := by simp [State.flushOldPairs]

@[simp] theorem queueKept_execCntRead (r : Ring) (written : Bool) (s : State) :
    QueueKept s (execCntRead r written s) := by simp [execCntRead]

@[simp] theorem queueKept_execCounterPairFlush (i : Nat) (s : State) : QueueKept s (execCounterPairFlush i s) := by
  simp [execCounterPairFlush]

/-! The mode commands -/

@[simp] theorem pending_resumeProfile (s : State) (c : Nat) : (s.resumeProfile c).pending = s.pending := by
  simp only [State.resumeProfile]
  (repeat' split) <;> simp

@[simp] theorem queueKept_execForward (r : Ring) (s : State) : QueueKept s (execForward r s) := by simp [execForward]

@[simp] theorem queueKept_execDrain (r : Ring) (s : State) : QueueKept s (execDrain r s) := by simp [execDrain]

@[simp] theorem queueKept_execDrainDone (s : State) : QueueKept s (execDrainDone s) := by simp [execDrainDone]

@[simp] theorem pending_rest (s : State) : s.rest.pending = s.pending := by simp [State.rest]

@[simp] theorem queueKept_execStandby (r : Ring) (s : State) : QueueKept s (execStandby r s) := by simp [execStandby]

@[simp] theorem pending_wake (s : State) : s.wake.pending = s.pending := by simp [State.wake]

@[simp] theorem queueKept_execStandbyWake (s : State) : QueueKept s (execStandbyWake s) := by simp [execStandbyWake]

@[simp] theorem queueKept_execSafeExit (r : Ring) (s : State) : QueueKept s (execSafeExit r s) := by simp [execSafeExit]

@[simp] theorem queueKept_execSafeExitLapse (s : State) : QueueKept s (execSafeExitLapse s) := by
  simp [execSafeExitLapse]

@[simp] theorem pending_confirmTrial (s : State) : s.confirmTrial.pending = s.pending := by simp [State.confirmTrial]

@[simp] theorem pending_leaveSafe (s : State) : s.leaveSafe.pending = s.pending := by simp [State.leaveSafe]

@[simp] theorem queueKept_execSafeExitConfirm (r : Ring) (measured : List Nat) (s : State) :
    QueueKept s (execSafeExitConfirm r measured s) := by simp [execSafeExitConfirm]

/-! General counters, snapshots, bandwidth windows and sampling -/

@[simp] theorem pending_snapWrite (s : State) (f : Fn) : (s.snapWrite f).pending = s.pending := by
  simp [State.snapWrite]

@[simp] theorem queueKept_execPmcSnapshot (f : Fn) (s : State) : QueueKept s (execPmcSnapshot f s) := by
  simp [execPmcSnapshot]

@[simp] theorem pending_pmcCntWrite (s : State) (f : Fn) (n off size v : Nat) :
    (s.pmcCntWrite f n off size v).pending = s.pending := by simp [State.pmcCntWrite]

@[simp] theorem queueKept_execPmcCounterWrite (f : Fn) (n : Fin 4096) (size : Nat) (v : BitVec 64) (s : State) :
    QueueKept s (execPmcCounterWrite f n size v s) := by simp [execPmcCounterWrite]

@[simp] theorem pending_askClearPeak (s : State) : s.askClearPeak.pending = s.pending := by
  simp -implicitDefEqProofs [State.askClearPeak]

@[simp] theorem queueKept_execBwClrPeak (f : Fn) (s : State) : QueueKept s (execBwClrPeak f s) := by
  simp [execBwClrPeak]

@[simp] theorem pending_closeWindow (s : State) (clear : Bool) (p : Nat) :
    (s.closeWindow clear p).pending = s.pending := by simp -implicitDefEqProofs [State.closeWindow]

@[simp] theorem queueKept_execBwWindowEnd (s : State) : QueueKept s (execBwWindowEnd s) := by
  simp -implicitDefEqProofs [execBwWindowEnd]

@[simp] theorem pending_restartWindows (s : State) : s.restartWindows.pending = s.pending := by
  simp -implicitDefEqProofs [State.restartWindows]

@[simp] theorem pending_loadLfsrs (s : State) : s.loadLfsrs.pending = s.pending := by simp [State.loadLfsrs]

@[simp] theorem pending_sampWrite (s : State) (f : Fn) (m : RegAt) (size v : Nat) :
    (s.sampWrite f m size v).pending = s.pending := by
  simp only [State.sampWrite]
  split <;> simp

@[simp] theorem queueKept_execSamplingEnable (f : Fn) (v : BitVec 64) (s : State) :
    QueueKept s (execSamplingEnable f v s) := by simp [execSamplingEnable]

/-! The policer commands -/

@[simp] theorem pending_fillPolicer (s : State) (n : Nat) (born : Gen) :
    (s.fillPolicer n born).pending = s.pending := by simp [State.fillPolicer]

@[simp] theorem queueKept_execPolWrite (r : Ring) (rec : Dma) (s : State) : QueueKept s (execPolWrite r rec s) := by
  simp [execPolWrite]

@[simp] theorem queueKept_execPolDelete (r : Ring) (s : State) : QueueKept s (execPolDelete r s) := by
  simp only [execPolDelete, queueKept_next]
  refine pending_seqCommand _ _ _ _ _ fun _ u => ?_
  (repeat' split) <;> simp

@[simp] theorem queueKept_execPolRead (r : Ring) (written : Bool) (s : State) :
    QueueKept s (execPolRead r written s) := by
  simp only [execPolRead, queueKept_next]
  refine pending_resultCommand _ _ _ _ _ fun _ u => ?_
  (repeat' split) <;> simp

/-! The receive path of Glaze -/

@[simp] theorem pending_setLane (s : State) (f : Nat) (l : Option Nat) : (s.setLane f l).pending = s.pending := by
  simp [State.setLane]

@[simp] theorem pending_assignLanes (s : State) (i : Nat) : (s.assignLanes i).pending = s.pending := by
  refine pending_runOver (fun f u => ?_) _ _
  split
  · split <;> simp
  · rfl

@[simp] theorem pending_touchRx (s : State) (i sa : Nat) : (s.touchRx i sa).pending = s.pending := by
  simp [State.touchRx]

@[simp] theorem pending_noSa (s : State) (f : Nat) (held : Option Nat) : (s.noSa f held).pending = s.pending := by
  simp only [State.noSa]
  split <;> simp

@[simp] theorem pending_saFound (s : State) (f : Nat) (p : SecPart) (i : Nat) (a : Sa) (mode : Nat) :
    (s.saFound f p i a mode).pending = s.pending := by simp [State.saFound]

@[simp] theorem pending_noSecondSa (s : State) (f : Nat) : (s.noSecondSa f).pending = s.pending := by
  simp [State.noSecondSa]

@[simp] theorem queueKept_execRxSaResolve (f : Nat) (s : State) : QueueKept s (execRxSaResolve f s) := by
  simp only [execRxSaResolve]
  (repeat' split) <;> simp

@[simp] theorem pending_circuitPair (s : State) (c k len : Nat) : (s.circuitPair c k len).pending = s.pending := by
  simp [State.circuitPair]

@[simp] theorem pending_plainDone (s : State) (f kind : Nat) (d : Bytes) :
    (s.plainDone f kind d).pending = s.pending := by simp [State.plainDone]

@[simp] theorem queueKept_execDecryptComplete (f : Nat) (laneFail : Bool) (s : State) :
    QueueKept s (execDecryptComplete f laneFail s) := by
  simp only [execDecryptComplete]
  (repeat' split) <;> simp

@[simp] theorem queueKept_execReplayCheck (f : Nat) (s : State) : QueueKept s (execReplayCheck f s) := by
  simp only [execReplayCheck]
  (repeat' split) <;> simp

/-! Function Level Reset, the reset sources and domains, option loading, boot, bring-up and per-block resets -/

@[simp] theorem pending_msixFlr (s : State) (t : Requester) : (s.msixFlr t).pending = s.pending := by
  simp [State.msixFlr]

@[simp] theorem pending_mailFlr (s : State) (f : Fn) : (s.mailFlr f).pending = s.pending := by simp [State.mailFlr]

@[simp] theorem pending_flr (s : State) (t : Requester) : (s.flr t).pending = s.pending := by
  simp only [State.flr]
  split <;> simp

@[simp] theorem queueKept_execFunctionLevelReset (t : Requester) (s : State) :
    QueueKept s (execFunctionLevelReset t s) := by simp [execFunctionLevelReset]

@[simp] theorem pending_clearRegs (s : State) (ds : List Nat) : (s.clearRegs ds).pending = s.pending := by
  simp [State.clearRegs]

@[simp] theorem pending_clearDatapath (s : State) : s.clearDatapath.pending = s.pending := by simp [State.clearDatapath]

@[simp] theorem pending_resetFaults (s : State) : s.resetFaults.pending = s.pending := by
  simp only [State.resetFaults]
  split <;> simp

@[simp] theorem pending_resetDatapath (s : State) (cause : Nat) : (s.resetDatapath cause).pending = s.pending := by
  simp [State.resetDatapath]

@[simp] theorem pending_resetManagement (s : State) (cause : Nat) : (s.resetManagement cause).pending = s.pending := by
  simp [State.resetManagement]

@[simp] theorem pending_resetAll (s : State) (cause : Nat) : (s.resetAll cause).pending = s.pending := by
  simp [State.resetAll]

@[simp] theorem pending_logReset (s : State) (cause before restarts : Nat) :
    (s.logReset cause before restarts).pending = s.pending := by simp [State.logReset]

@[simp] theorem pending_tryBringup (s : State) : s.tryBringup.pending = s.pending := by simp [State.tryBringup]

@[simp] theorem queueKept_execPowerOn (s : State) : QueueKept s (execPowerOn s) := by simp [execPowerOn]

@[simp] theorem queueKept_execResetNAssert (cycles : Nat) (s : State) : QueueKept s (execResetNAssert cycles s) := by
  simp [execResetNAssert]

@[simp] theorem queueKept_execResetNDeassert (s : State) : QueueKept s (execResetNDeassert s) := by
  simp [execResetNDeassert]

@[simp] theorem queueKept_execPerstAssert (s : State) : QueueKept s (execPerstAssert s) := by simp [execPerstAssert]

@[simp] theorem queueKept_execPerstDeassert (s : State) : QueueKept s (execPerstDeassert s) := by
  simp [execPerstDeassert]

@[simp] theorem queueKept_execPcieHotReset (s : State) : QueueKept s (execPcieHotReset s) := by simp [execPcieHotReset]

@[simp] theorem queueKept_execSoftwareDeviceReset (f : Fn) (key : BitVec 8) (s : State) :
    QueueKept s (execSoftwareDeviceReset f key s) := by simp [execSoftwareDeviceReset]

@[simp] theorem queueKept_execWatchdogWarning (s : State) : QueueKept s (execWatchdogWarning s) := by
  simp [execWatchdogWarning]

@[simp] theorem queueKept_execWatchdogExpire (s : State) : QueueKept s (execWatchdogExpire s) := by
  simp only [execWatchdogExpire]
  split <;> simp

@[simp] theorem queueKept_execDomainRelease (d : Fin 8) (s : State) : QueueKept s (execDomainRelease d s) := by
  simp [execDomainRelease]

@[simp] theorem pending_trainLink (s : State) : s.trainLink.pending = s.pending := by simp [State.trainLink]

@[simp] theorem queueKept_execDomainReady (d : Fin 8) (s : State) : QueueKept s (execDomainReady d s) := by
  simp [execDomainReady]

@[simp] theorem queueKept_execOptionLoadPhaseDone (agree testEn pcieLrev : Bool) (s : State) :
    QueueKept s (execOptionLoadPhaseDone agree testEn pcieLrev s) := by simp [execOptionLoadPhaseDone]

@[simp] theorem queueKept_execLoadStall (s : State) : QueueKept s (execLoadStall s) := by simp [execLoadStall]

@[simp] theorem queueKept_execLoadStallClear (s : State) : QueueKept s (execLoadStallClear s) := by
  simp [execLoadStallClear]

@[simp] theorem pending_logFallback (s : State) (x : Bool) : (s.logFallback x).pending = s.pending := by
  simp [State.logFallback]

@[simp] theorem pending_startImage (s : State) (x trial : Bool) : (s.startImage x trial).pending = s.pending := by
  simp [State.startImage]

@[simp] theorem queueKept_execBootSelect (checkA checkB : SlotState) (s : State) :
    QueueKept s (execBootSelect checkA checkB s) := by simp [execBootSelect]

@[simp] theorem pending_bootBundle (s : State) (b : Bytes) : (s.bootBundle b).pending = s.pending := by
  rw [State.bootBundle]
  cases h : s.loadBundle b with
  | none => rfl
  | some t => exact pending_loadBundle h

@[simp] theorem pending_bringupFails (s : State) (n : Nat) : (s.bringupFails n).pending = s.pending := by
  simp only [State.bringupFails]
  (repeat' split) <;> simp

@[simp] theorem queueKept_execEwethesStart (bundles : List Bytes) (seqOk : Bool) (failed : List Nat) (s : State) :
    QueueKept s (execEwethesStart bundles seqOk failed s) := by simp [execEwethesStart]

@[simp] theorem pending_enterTest (s : State) : s.enterTest.pending = s.pending := by simp [State.enterTest]

@[simp] theorem queueKept_execBringupEnd (s : State) : QueueKept s (execBringupEnd s) := by simp [execBringupEnd]

@[simp] theorem queueKept_execMonitorUnmask (m : Fin 48) (withinLimits : Bool) (s : State) :
    QueueKept s (execMonitorUnmask m withinLimits s) := by simp [execMonitorUnmask]

@[simp] theorem pending_showBlocks (s : State) : s.showBlocks.pending = s.pending := by
  simp -implicitDefEqProofs [State.showBlocks]

@[simp] theorem pending_resetBlocks (s : State) (f : Fn) (addr base n v : Nat) :
    (s.resetBlocks f addr base n v).pending = s.pending := by simp [State.resetBlocks]

@[simp] theorem queueKept_execRstBlkPort (f : Fn) (n : Fin 4) (v : BitVec 32) (s : State) :
    QueueKept s (execRstBlkPort f n v s) := by simp [execRstBlkPort]

@[simp] theorem queueKept_execRstBlkSlice (f : Fn) (v : BitVec 32) (s : State) :
    QueueKept s (execRstBlkSlice f v s) := by simp [execRstBlkSlice]

@[simp] theorem pending_clearSlice (s : State) (i : Nat) : (s.clearSlice i).pending = s.pending := by
  simp [State.clearSlice]

@[simp] theorem queueKept_execBlockResetDone (b : ResetBlock) (s : State) : QueueKept s (execBlockResetDone b s) := by
  simp only [execBlockResetDone]
  split <;> simp

/-! REGISTER_WRITE -/

@[simp] theorem pending_holeWrite (s : State) (f : Fn) (a : Nat) : (s.holeWrite f a).pending = s.pending := by
  simp [State.holeWrite]

@[simp] theorem pending_afterWrite (s : State) (r : RegName) (i j old x : Nat) :
    (s.afterWrite r i j old x).pending = s.pending := by
  simp only [State.afterWrite]
  split <;> simp

@[simp] theorem pending_plainWrite (s : State) (f : Fn) (m : RegAt) (size v : Nat) :
    (s.plainWrite f m size v).pending = s.pending := by
  simp only [State.plainWrite]
  split <;> simp

@[simp] theorem pending_leftBy {s : State} {o : Host.Outcome State Fault Refusal} (h : QueueKept s o) :
    (leftBy o s).pending = s.pending := by
  cases o with
  | next t => exact h
  | fault f => rfl
  | refused r => rfl

@[simp] theorem pending_clearFlags (s : State) (n v : Nat) : (s.clearFlags n v).pending = s.pending := by
  simp -implicitDefEqProofs [State.clearFlags]

@[simp] theorem pending_mailCtrlWrite (s : State) (f : Fn) (m : RegAt) (size v : Nat) :
    (s.mailCtrlWrite f m size v).pending = s.pending := by simp [State.mailCtrlWrite]

@[simp] theorem pending_proofCtrlWrite (s : State) (f : Fn) (m : RegAt) (size v : Nat) :
    (s.proofCtrlWrite f m size v).pending = s.pending := by simp [State.proofCtrlWrite]

@[simp] theorem pending_progCtrlWrite (s : State) (f : Fn) (m : RegAt) (size v : Nat) :
    (s.progCtrlWrite f m size v).pending = s.pending := by simp [State.progCtrlWrite]

@[simp] theorem queueKept_execModBudgetWrite (f : Fn) (n : Fin 16) (v : BitVec 32) (classes : List Nat) (s : State) :
    QueueKept s (execModBudgetWrite f n v classes s) := by simp [execModBudgetWrite]

@[simp] theorem pending_writeAt (s : State) (f : Fn) (m : RegAt) (size v : Nat) :
    (s.writeAt f m size v).pending = s.pending := by
  simp only [State.writeAt]
  split <;> simp

@[simp] theorem pending_writePiece (s : State) (f : Fn) (a size v : Nat) :
    (s.writePiece f a size v).pending = s.pending := by
  simp only [State.writePiece]
  (repeat' split) <;> simp

@[simp] theorem pending_writeBar0 (s : State) (f : Fn) (a size v : Nat) :
    (s.writeBar0 f a size v).pending = s.pending := by simp [State.writeBar0]

@[simp] theorem queueKept_execRegisterWrite (f : Fn) (a : BitVec 26) (size : Nat) (v : BitVec 64) (s : State) :
    QueueKept s (execRegisterWrite f a size v s) := by simp [execRegisterWrite]

/-! A frame leaves at a MAC, and frames that wait too long -/

@[simp] theorem pending_txTsRecord (s : State) (f : Nat) : (s.txTsRecord f).pending = s.pending := by
  simp only [State.txTsRecord]
  split <;> simp

@[simp] theorem queueKept_execFrameTxStart (p : Port) (s : State) : QueueKept s (execFrameTxStart p s) := by
  simp only [execFrameTxStart]
  (repeat' split) <;> simp

@[simp] theorem queueKept_execFrameTxEnd (p : Port) (s : State) : QueueKept s (execFrameTxEnd p s) := by
  simp only [execFrameTxEnd]
  (repeat' split) <;> simp

@[simp] theorem pending_sweepQueue (s : State) (queue : State → List Nat) (n : Nat) :
    (s.sweepQueue queue n).pending = s.pending := by
  induction n generalizing s with
  | zero => rfl
  | succ n ih =>
    simp only [State.sweepQueue]
    (repeat' split) <;> simp [ih]

@[simp] theorem pending_sweep (s : State) (queue : State → List Nat) : (s.sweep queue).pending = s.pending := by
  simp [State.sweep]

@[simp] theorem queueKept_execResidencySweep (s : State) : QueueKept s (execResidencySweep s) := by
  simp [execResidencySweep]

/-! What a BAR0 read returns -/

@[simp] theorem pending_readCounter (s : State) (f : Fn) (a size : Nat) :
    (s.readCounter f a size).pending = s.pending := by simp [State.readCounter]

@[simp] theorem queueKept_execCounterHalfRead (f : Fn) (a : BitVec 26) (size : Nat) (s : State) :
    QueueKept s (execCounterHalfRead f a size s) := by simp [execCounterHalfRead]

@[simp] theorem pending_readScrub (s : State) (beside : Nat) : (s.readScrub beside).pending = s.pending := by
  simp -implicitDefEqProofs [State.readScrub]

@[simp] theorem queueKept_execScrubStatusRead (f : Fn) (s : State) : QueueKept s (execScrubStatusRead f s) := by
  simp [execScrubStatusRead]

@[simp] theorem pending_readBar0 (s : State) (f : Fn) (a size : Nat) : (s.readBar0 f a size).pending = s.pending := by
  simp [State.readBar0]

@[simp] theorem queueKept_execHoleAccess (bar : Bar) (a : BitVec 26) (size : Nat) (write : Option (BitVec 64))
    (s : State) :
    QueueKept s (execHoleAccess bar a size write s) := by
  simp only [execHoleAccess]
  split <;> simp

/-! The obligation -/

@[simp] theorem pending_idle (s : State) : s.idle.pending = s.pending := State.advance_pending _ _

/-- Every command at every state ends in a next state, with the queue as it was. -/
theorem queueKept_exec (i : Instr) (s : State) : QueueKept s (exec i s) := by
  cases i <;> simp [exec]

theorem queueKept_iff (s : State) (o : Host.Outcome State Fault Refusal) :
    QueueKept s o ↔ ∃ t, o = .next t ∧ t.pending = s.pending := by
  cases o <;> simp [QueueKept]

/-- A step ends in a next state, whose queue is what waited behind the front. -/
theorem step_tail (s : State) : ∃ t, step s = .next t ∧ t.pending = s.pending.tail := by
  rw [step]
  split
  · next empty => exact ⟨_, rfl, by simp [empty]⟩
  · next c rest front =>
    obtain ⟨t, ends, kept⟩ := (queueKept_iff _ _).mp (queueKept_exec c { s with pending := rest })
    exact ⟨t, ends, by rw [kept, front, List.tail_cons]⟩

/-- Settles O4: no command reads or writes the queue, and each ends in a next state. -/
theorem everyStepCompletesInQueueOrder : Obligations.EveryStepCompletesInQueueOrder := by
  unfold Obligations.EveryStepCompletesInQueueOrder
  refine ⟨fun s t steps => ?_, fun i s => ?_, fun s => ?_⟩
  · obtain ⟨u, ends, kept⟩ := step_tail s
    cases steps.symm.trans ends
    exact kept
  · obtain ⟨t, ends, -⟩ := (queueKept_iff _ _).mp (queueKept_exec i s)
    exact ⟨t, ends⟩
  · obtain ⟨t, ends, -⟩ := step_tail s
    exact ⟨t, ends⟩

end Sys2Proof.Claims

/-! Every step keeps the number of live generations from 2 to 16 (R49) -/

namespace Sys2Proof.Machine

/-- The window of live generations: CURRENT and the oldest generation (R49). -/
def GenCtl.window (g : GenCtl) : Gen × Gen := (g.current, g.oldest)

end Sys2Proof.Machine

namespace Sys2Proof.Claims

open Sys2Proof.Machine

set_option Elab.async false

@[simp] theorem window_mk (current oldest : Gen) (armed : Option Armed) (waiting : List Waiting) (ports : Tab PortGen)
    (refs log : Tab Nat) (settled : Bool) (bindings : List (Nat × Nat)) :
    GenCtl.window ⟨current, oldest, armed, waiting, ports, refs, log, settled, bindings⟩ = (current, oldest) := rfl

@[simp] theorem current_oldest (g : GenCtl) : (g.current, g.oldest) = g.window := rfl

theorem OnlyIn.window {ps : List Part} {s t : State} (h : OnlyIn ps s t) (gen : Part.gen ∉ ps) :
    t.gen.window = s.gen.window := congrArg GenCtl.window (h .gen gen)

/-- CURRENT lies at most 14 after the oldest generation. -/
def Inside (w : Gen × Gen) : Prop := (w.1 - w.2).toNat ≤ 14

/-- The window of the reset values. -/
@[simp] theorem inside_reset : Inside (0#16, 0#16) := by simp [Inside]

theorem inside_of_same {v w : Gen × Gen} (same : w = v) (inside : Inside v) : Inside w := same ▸ inside

/-- Where the window of `s` holds 2 to 16 live generations, that of a next state does. -/
def WindowKept (s : State) : Host.Outcome State Fault Refusal → Prop
  | .next t => Inside s.gen.window → Inside t.gen.window
  | _ => True

@[simp] theorem windowKept_next (s t : State) :
    WindowKept s (.next t) ↔ (Inside s.gen.window → Inside t.gen.window) := Iff.rfl

@[simp] theorem window_ite (c : Prop) [Decidable c] (t u : State) :
    (if c then t else u).gen.window = if c then t.gen.window else u.gen.window :=
  apply_ite (fun v : State => v.gen.window) _ _ _

@[simp] theorem inside_ite (c : Prop) [Decidable c] (v w : Gen × Gen) :
    Inside (if c then v else w) ↔ if c then Inside v else Inside w := by split <;> rfl

/-- A list of steps that keep the window. -/
@[simp] theorem window_runOver {α : Type} {f : α → State → State} (h : ∀ a u, (f a u).gen.window = u.gen.window)
    (l : List α) (s : State) : (runOver l f s).gen.window = s.gen.window := by
  unfold Machine.runOver
  induction l generalizing s with
  | nil => rfl
  | cons a l ih => exact (ih _).trans (h a s)

theorem window_foldl {α : Type} {f : State → α → State} (l : List α)
    (h : ∀ u a, (f u a).gen.window = u.gen.window) (s : State) : (l.foldl f s).gen.window = s.gen.window := by
  induction l generalizing s with
  | nil => rfl
  | cons a l ih => exact (ih _).trans (h s a)

/-- What a step that also answers leaves: the state of the pair. -/
theorem window_of_fst {α : Type} {s t : State} {p : State × α} {a : α} (h : p = (t, a))
    (kept : p.1.gen.window = s.gen.window) : t.gen.window = s.gen.window := by
  subst h
  exact kept

theorem window_of_snd {α : Type} {s t : State} {p : α × State} {a : α} (h : p = (a, t))
    (kept : p.2.gen.window = s.gen.window) : t.gen.window = s.gen.window := by
  subst h
  exact kept

/-! The operations that every chapter shares -/

@[simp] theorem window_advanceTo (s : State) (t : Nat) : (s.advanceTo t).gen.window = s.gen.window := by
  simp [State.advanceTo]

@[simp] theorem window_pmcCount (s : State) (unit inst event n : Nat) :
    (s.pmcCount unit inst event n).gen.window = s.gen.window := (onlyIn_pmcCount _ _ _ _ _).window (by decide)

@[simp] theorem window_emit (s : State) (o : Out) : (s.emit o).gen.window = s.gen.window :=
  (onlyIn_emit _ _).window (by decide)

@[simp] theorem window_draw (s : State) (w : Nat) : (s.draw w).2.gen.window = s.gen.window := by simp [State.draw]

@[simp] theorem window_setPendingWith (s : State) (n : Nat) (f : IntSource → IntSource) :
    (s.setPendingWith n f).gen.window = s.gen.window := by simp [State.setPendingWith]

@[simp] theorem window_refUp (s : State) (g : Gen) : (s.refUp g).gen.window = s.gen.window := by simp [State.refUp]

@[simp] theorem window_refDown (s : State) (g : Gen) :
    (s.refDown g).gen.window = s.gen.window := by simp [State.refDown]

@[simp] theorem window_touchCtx (s : State) (r : Nat) : (s.touchCtx r).gen.window = s.gen.window :=
  (onlyIn_touchCtx _ _).window (by decide)

@[simp] theorem window_writeBack (s : State) (r : Nat) : (s.writeBack r).gen.window = s.gen.window :=
  (onlyIn_writeBack _ _).window (by decide)

@[simp] theorem window_ringIrq (s : State) (r : Nat) : (s.ringIrq r).gen.window = s.gen.window :=
  (onlyIn_ringIrq _ _).window (by decide)

@[simp] theorem window_putOverflow (s : State) (r : Nat) : (s.putOverflow r).gen.window = s.gen.window :=
  (onlyIn_putOverflow _ _).window (by decide)

@[simp] theorem window_writeRecord (s : State) (f : Fn) (r type time : Nat) (body : Bytes) :
    (s.writeRecord f r type time body).gen.window = s.gen.window := (onlyIn_writeRecord _ _ _ _ _ _).window (by decide)

@[simp] theorem window_ctrlRecord (s : State) (f : Fn) (type : Nat) (body : Bytes) :
    (s.ctrlRecord f type body).gen.window = s.gen.window := (onlyIn_ctrlRecord _ _ _ _).window (by decide)

@[simp] theorem window_kilnLog (s : State) (type fn : Nat) (data : Bytes) :
    (s.kilnLog type fn data).gen.window = s.gen.window := (onlyIn_kilnLog _ _ _ _).window (by decide)

@[simp] theorem window_kilnPerm (s : State) (type fn : Nat) (data : Bytes) :
    (s.kilnPerm type fn data).gen.window = s.gen.window := (onlyIn_kilnPerm _ _ _ _).window (by decide)

@[simp] theorem window_faultRecord (s : State) (n : FaultNote) : (s.faultRecord n).gen.window = s.gen.window :=
  (onlyIn_faultRecord _ _).window (by decide)

@[simp] theorem window_flushRecord (s : State) (n : Nat) (why : Reason) :
    (s.flushRecord n why).gen.window = s.gen.window :=
  (onlyIn_flushRecord _ _ _).window (by decide)

@[simp] theorem window_noteEvent (s : State) (n t cause detail : Nat) :
    (s.noteEvent n t cause detail).gen.window = s.gen.window := (onlyIn_noteEvent _ _ _ _ _).window (by decide)

@[simp] theorem window_heldRecord (s : State) (n : Nat) (why : Reason) :
    (s.heldRecord n why).gen.window = s.gen.window :=
  (onlyIn_heldRecord _ _ _).window (by decide)

@[simp] theorem window_degrade (s : State) (n : Nat) : (s.degrade n).gen.window = s.gen.window :=
  (onlyIn_degrade _ _).window (by decide)

@[simp] theorem window_classify (s : State) (n : Nat) : (s.classify n).gen.window = s.gen.window :=
  (onlyIn_classify _ _).window (by decide)

@[simp] theorem window_faultEventAt (s : State) (n cause detail k t : Nat) :
    (s.faultEventAt n cause detail k t).gen.window = s.gen.window := (onlyIn_faultEventAt _ _ _ _ _ _).window (by decide)

@[simp] theorem window_fault (s : State) (n cause detail : Nat) : (s.fault n cause detail).gen.window = s.gen.window :=
  (onlyIn_fault _ _ _ _).window (by decide)

@[simp] theorem window_takeCorrupt (s : State) (n : Nat) : (s.takeCorrupt n).2.gen.window = s.gen.window := by
  simp [State.takeCorrupt]

@[simp] theorem window_takeCorrupts (s : State) (n k : Nat) : (s.takeCorrupts n k).2.gen.window = s.gen.window := by
  simp [State.takeCorrupts]

@[simp] theorem window_configError (s : State) (f : Fn) (addr : Nat) :
    (s.configError f addr).gen.window = s.gen.window :=
  (onlyIn_configError _ _ _).window (by decide)

@[simp] theorem window_lateLap (s : State) :
    s.lateLap.gen.window = s.gen.window := (onlyIn_lateLap _).window (by decide)

@[simp] theorem window_poisonRecord (s : State) (n inst addr : Nat) :
    (s.poisonRecord n inst addr).gen.window = s.gen.window := (onlyIn_poisonRecord _ _ _ _).window (by decide)

@[simp] theorem window_noteRetired (s : State) (n spare : Nat) : (s.noteRetired n spare).gen.window = s.gen.window :=
  (onlyIn_noteRetired _ _ _).window (by decide)

@[simp] theorem window_endRetirement (s : State) (n : Nat) : (s.endRetirement n).gen.window = s.gen.window :=
  (onlyIn_endRetirement _ _).window (by decide)

/-! The operations of the host interface -/

@[simp] theorem window_noteFetch (s : State) (r held : Nat) (d : Bytes) :
    (s.noteFetch r held d).gen.window = s.gen.window := by simp [State.noteFetch]

@[simp] theorem window_ringErrorRecord (s : State) (r err st : Nat) :
    (s.ringErrorRecord r err st).gen.window = s.gen.window := (onlyIn_ringErrorRecord _ _ _ _).window (by decide)

@[simp] theorem window_popPunt (s : State) (r : Nat) : (s.popPunt r).gen.window = s.gen.window := by
  simp only [State.popPunt]
  split <;> simp

@[simp] theorem window_dropPunts (s : State) (r : Nat) : (s.dropPunts r).gen.window = s.gen.window := by
  simp [State.dropPunts]

@[simp] theorem window_haltRingAt (s : State) (r err ahead : Nat) :
    (s.haltRingAt r err ahead).gen.window = s.gen.window := by
  simp [State.haltRingAt, State.ringErrorAt]

@[simp] theorem window_haltRing (s : State) (r err : Nat) : (s.haltRing r err).gen.window = s.gen.window := by
  simp [State.haltRing]

@[simp] theorem window_handOn (s : State) (r : Nat) : (s.handOn r).gen.window = s.gen.window :=
  (onlyIn_handOn _ _).window (by decide)

@[simp] theorem window_abortFetched (s : State) (r : Nat) : (s.abortFetched r).gen.window = s.gen.window :=
  (onlyIn_abortFetched _ _).window (by decide)

@[simp] theorem window_complete (s : State) (r : Nat) (st : Status) (info : Nat) (result : Bytes) :
    (s.complete r st info result).gen.window = s.gen.window := (onlyIn_complete _ _ _ _ _).window (by decide)

@[simp] theorem window_command (s : State) (r op : Nat) (f : Bytes → State → State)
    (hf : ∀ d u, (f d u).gen.window = u.gen.window) : (s.command r op f).gen.window = s.gen.window := by
  simp only [State.command]
  split <;> simp [hf]

@[simp] theorem window_dmaWrite (s : State) (r addr : Nat) (data : Bytes) :
    (s.dmaWrite r addr data).gen.window = s.gen.window := by simp [State.dmaWrite]

@[simp] theorem window_enableRing (s : State) (r : Nat) (c : RingCtx) :
    (s.enableRing r c).gen.window = s.gen.window := by
  simp [State.enableRing]

@[simp] theorem window_abortBuffers (s : State) (r kind : Nat) : (s.abortBuffers r kind).gen.window = s.gen.window := by
  simp only [State.abortBuffers]
  rw [window_foldl _ fun u d => by simp]
  simp

@[simp] theorem window_stopRing (s : State) (r : Nat) : (s.stopRing r).gen.window = s.gen.window := by
  simp only [State.stopRing]
  (repeat' split) <;> simp

@[simp] theorem window_fillBuffers (s : State) (r : Nat) (first : Bool) (l : List Bytes) (data : Bytes) :
    (s.fillBuffers r first l data).gen.window = s.gen.window := by
  induction l generalizing s first data with
  | nil => rfl
  | cons d rest ih => simp [State.fillBuffers, ih]

@[simp] theorem window_servePunt (s : State) (r : Nat) : (s.servePunt r).1.gen.window = s.gen.window := by
  simp only [State.servePunt]
  (repeat' split) <;> simp

@[simp] theorem window_servePunts (s : State) (r n : Nat) : (s.servePunts r n).gen.window = s.gen.window := by
  induction n generalizing s with
  | zero => rfl
  | succ n ih => simp [State.servePunts, ih]

@[simp] theorem window_punt (s : State) (r : Nat) (g : Gen) (hdrAndFrame : Bytes) :
    (s.punt r g hdrAndFrame).gen.window = s.gen.window := by simp [State.punt]

@[simp] theorem window_sendMsix (s : State) (req : Requester) (v : Nat) :
    (s.sendMsix req v).gen.window = s.gen.window := by
  simp [State.sendMsix]

/-! The event interrupt controller -/

@[simp] theorem window_eicSettle (s : State) (x : Nat) : (s.eicSettle x).gen.window = s.gen.window := by
  simp [State.eicSettle]

@[simp] theorem window_quiet (s : State) (x : Nat) : (s.quiet x).gen.window = s.gen.window := by simp [State.quiet]

@[simp] theorem window_intLog (s : State) (n x event pendTime : Nat) :
    (s.intLog n x event pendTime).gen.window = s.gen.window := by simp [State.intLog]

@[simp] theorem window_autoDeliver (s : State) (x : Nat) : (s.autoDeliver x).gen.window = s.gen.window := by
  simp only [State.autoDeliver]
  split <;> simp

@[simp] theorem window_deliverMsix (s : State) (x : Nat) : (s.deliverMsix x).gen.window = s.gen.window := by
  simp [State.deliverMsix]

@[simp] theorem windowKept_execEicNotify (x : Fin 66) (s : State) : WindowKept s (execEicNotify x s) := by
  simp [execEicNotify]

@[simp] theorem window_claim (s : State) (x : Nat) : (s.claim x).gen.window = s.gen.window := by
  simp only [State.claim]
  (repeat' split) <;> simp

@[simp] theorem windowKept_execEicClaim (a : EicAgent) (x : Fin 66) (s : State) :
    WindowKept s (execEicClaim a x s) := by
  simp only [execEicClaim]
  split <;> simp

@[simp] theorem window_completeInt (s : State) (x n : Nat) : (s.completeInt x n).gen.window = s.gen.window := by
  simp [State.completeInt]

@[simp] theorem windowKept_execEicComplete (a : EicAgent) (x : Fin 66) (n : BitVec 11) (s : State) :
    WindowKept s (execEicComplete a x n s) := by
  simp only [execEicComplete]
  split <;> simp

@[simp] theorem window_losePending (s : State) (n : Nat) (f : IntSource → IntSource) :
    (s.losePending n f).gen.window = s.gen.window := by simp [State.losePending]

@[simp] theorem window_levelInput (s : State) (n : Nat) (active : Bool) :
    (s.levelInput n active).gen.window = s.gen.window := by simp [State.levelInput]

@[simp] theorem windowKept_execEicSourceEvent (n : Nat) (level : Bool) (s : State) :
    WindowKept s (execEicSourceEvent n level s) := by simp [execEicSourceEvent]

@[simp] theorem window_filterAccepts (s : State) (n : Nat) : (s.filterAccepts n).gen.window = s.gen.window := by
  simp [State.filterAccepts]

@[simp] theorem windowKept_execEicPinFiltered (n : Nat) (level : Bool) (s : State) :
    WindowKept s (execEicPinFiltered n level s) := by simp [execEicPinFiltered]

@[simp] theorem windowKept_execEicPendSet (f : Fn) (n : Fin 64) (value : BitVec 32) (s : State) :
    WindowKept s (execEicPendSet f n value s) := by simp [execEicPendSet]

@[simp] theorem windowKept_execEicPendClr (f : Fn) (n : Fin 64) (value : BitVec 32) (s : State) :
    WindowKept s (execEicPendClr f n value s) := by simp [execEicPendClr]

@[simp] theorem window_msixPut (s : State) (req : Requester) (v addr data : Nat) (masked : Bool) :
    (s.msixPut req v addr data masked).gen.window = s.gen.window := by
  simp only [State.msixPut]
  (repeat' split) <;> simp

@[simp] theorem windowKept_execMsixUnmask (req : Requester) (v : Fin 32) (addr : BitVec 64) (data : BitVec 32)
    (s : State) :
    WindowKept s (execMsixUnmask req v addr data s) := by simp [execMsixUnmask]

@[simp] theorem window_msixWrite (s : State) (req : Requester) (v o size value : Nat) :
    (s.msixWrite req v o size value).gen.window = s.gen.window := by simp [State.msixWrite]

@[simp] theorem window_eicFlr (s : State) (f : Fn) : (s.eicFlr f).gen.window = s.gen.window := by simp [State.eicFlr]

/-! The words of the on-die memories -/

@[simp] theorem window_wordWrite (s : State) (inst obj : Nat) : (s.wordWrite inst obj).gen.window = s.gen.window :=
  (onlyIn_wordWrite _ _ _).window (by decide)

@[simp] theorem window_bufWrite (s : State) (egress : Bool) (slice set pool idx : Nat) :
    (s.bufWrite egress slice set pool idx).gen.window = s.gen.window := (onlyIn_bufWrite _ _ _ _ _ _).window (by decide)

@[simp] theorem window_setPn (s : State) (key n : Nat) :
    (s.setPn key n).gen.window = s.gen.window := by simp [State.setPn]

/-! Where HBM keeps data -/

@[simp] theorem window_countRecon (s : State) (t : Nat) : (s.countRecon t).gen.window = s.gen.window :=
  (onlyIn_countRecon _ _).window (by decide)

@[simp] theorem window_unitsRead (s : State) (l : List (Nat × Nat)) : (s.unitsRead l).gen.window = s.gen.window :=
  (onlyIn_unitsRead _ _).window (by decide)

@[simp] theorem window_freshen (s : State) (pc j : Nat) : (s.freshen pc j).gen.window = s.gen.window :=
  (onlyIn_freshen _ _ _).window (by decide)

@[simp] theorem window_unitFill (s : State) (x : Nat × Nat) : (s.unitFill x).gen.window = s.gen.window :=
  (onlyIn_unitFill _ _).window (by decide)

@[simp] theorem window_structWrite (s : State) (x : Struct) : (s.structWrite x).gen.window = s.gen.window :=
  (onlyIn_structWrite _ _).window (by decide)

@[simp] theorem window_structRead (s : State) (x : Struct) : (s.structRead x).gen.window = s.gen.window :=
  (onlyIn_structRead _ _).window (by decide)

@[simp] theorem window_losePairs (s : State) (u : Nat) : (s.losePairs u).gen.window = s.gen.window :=
  (onlyIn_losePairs _ _).window (by decide)

@[simp] theorem window_readPairs (s : State) (u : Nat) : (s.readPairs u).gen.window = s.gen.window :=
  (onlyIn_readPairs _ _).window (by decide)

@[simp] theorem window_flushPair (s : State) (i : Nat) : (s.flushPair i).gen.window = s.gen.window :=
  (onlyIn_flushPair _ _).window (by decide)

/-! The operations on frames that every stage shares -/

@[simp] theorem window_countBw (s : State) (p : Nat) (tx : Bool) (t n : Nat) :
    (s.countBw p tx t n).gen.window = s.gen.window := by simp [State.countBw]

@[simp] theorem window_unpinKey (s : State) (i : Nat) (k : CacheKey) : (s.unpinKey i k).gen.window = s.gen.window :=
  (onlyIn_unpinKey _ _ _).window (by decide)

@[simp] theorem window_mapCache (s : State) (i : Nat) (p : TxEntry → Bool) (g : TxEntry → TxEntry) :
    (s.mapCache i p g).gen.window = s.gen.window := by simp [State.mapCache]

@[simp] theorem window_fillEntry (s : State) (i : Nat) (e : TxEntry) : (s.fillEntry i e).gen.window = s.gen.window :=
  (onlyIn_fillEntry _ _ _).window (by decide)

theorem window_pinRequest {s t : State} {i r : Nat} (h : s.pinRequest i r = some t) : t.gen.window = s.gen.window :=
  (onlyIn_pinRequest h).window (by decide)

@[simp] theorem window_serveCache (s : State) (i : Nat) : (s.serveCache i).gen.window = s.gen.window :=
  (onlyIn_serveCache _ _).window (by decide)

@[simp] theorem window_prefetch (s : State) (i r : Nat) : (s.prefetch i r).gen.window = s.gen.window := by
  simp only [State.prefetch]
  split
  · next pinned => exact window_pinRequest pinned
  · simp

@[simp] theorem window_unpin (s : State) (f : Nat) : (s.unpin f).gen.window = s.gen.window :=
  (onlyIn_unpin _ _).window (by decide)

@[simp] theorem window_charge (s : State) (egress : Bool) (slice set owner pool : Nat) :
    (s.charge egress slice set owner pool).gen.window = s.gen.window := by simp [State.charge]

@[simp] theorem window_flowControl (s : State) (port cls : Nat) : (s.flowControl port cls).gen.window = s.gen.window :=
  (onlyIn_flowControl _ _ _).window (by decide)

@[simp] theorem window_clearName (s : State) (f : Nat) : (s.clearName f).gen.window = s.gen.window :=
  (onlyIn_clearName _ _).window (by decide)

@[simp] theorem window_claimFor (s : State) (f requester : Nat) :
    (s.claimFor f requester).gen.window = s.gen.window := by
  simp [State.claimFor]

@[simp] theorem window_leaveSpill (s : State) (f : Nat) : (s.leaveSpill f).gen.window = s.gen.window := by
  simp [State.leaveSpill]

@[simp] theorem window_settleVoq (s : State) (k : Nat) : (s.settleVoq k).gen.window = s.gen.window :=
  (onlyIn_settleVoq _ _).window (by decide)

@[simp] theorem window_panicSync (s : State) : s.panicSync.gen.window = s.gen.window :=
  (onlyIn_panicSync _).window (by decide)

@[simp] theorem window_joinNode (s : State) (k : Nat) : (s.joinNode k).gen.window = s.gen.window :=
  (onlyIn_joinNode _ _).window (by decide)

@[simp] theorem window_setQueue (s : State) (k : Nat) (l : List Nat) : (s.setQueue k l).gen.window = s.gen.window :=
  (onlyIn_setQueue _ _ _).window (by decide)

@[simp] theorem window_joinNodes (s : State) (i : Nat) : (s.joinNodes i).gen.window = s.gen.window := by
  simp [State.joinNodes]

@[simp] theorem window_leaveFlow (s : State) (f : Nat) : (s.leaveFlow f).gen.window = s.gen.window := by
  simp [State.leaveFlow]

@[simp] theorem window_stamp (s : State) (f k : Nat) : (s.stamp f k).gen.window = s.gen.window := by simp [State.stamp]

@[simp] theorem window_freeEgress (s : State) (f : Nat) : (s.freeEgress f).gen.window = s.gen.window :=
  (onlyIn_freeEgress _ _).window (by decide)

@[simp] theorem window_sampleRecord (s : State) (f : Nat) (how : Leaving) :
    (s.sampleRecord f how).gen.window = s.gen.window := (onlyIn_sampleRecord _ _ _).window (by decide)

@[simp] theorem window_leave (s : State) (f : Nat) (how : Leaving) : (s.leave f how).gen.window = s.gen.window := by
  simp [State.leave]

@[simp] theorem window_issueReady (s : State) (p : Nat) : (s.issueReady p).gen.window = s.gen.window :=
  (onlyIn_issueReady _ _).window (by decide)

@[simp] theorem window_dropClaim (s : State) (f : Nat) : (s.dropClaim f).gen.window = s.gen.window :=
  (onlyIn_dropClaim _ _).window (by decide)

@[simp] theorem window_leaveLanding (s : State) (f : Nat) : (s.leaveLanding f).gen.window = s.gen.window :=
  (onlyIn_leaveLanding _ _).window (by decide)

@[simp] theorem window_leaveVoq (s : State) (f : Nat) : (s.leaveVoq f).gen.window = s.gen.window := by
  simp [State.leaveVoq]

@[simp] theorem window_leaveEgress (s : State) (f : Nat) : (s.leaveEgress f).gen.window = s.gen.window :=
  (onlyIn_leaveEgress _ _).window (by decide)

@[simp] theorem window_remove (s : State) (f : Nat) (how : Leaving) : (s.remove f how).gen.window = s.gen.window := by
  simp [State.remove]

@[simp] theorem window_discard (s : State) (f : Nat) : (s.discard f).gen.window = s.gen.window := by
  simp [State.discard]

@[simp] theorem window_resDiscard (s : State) (f : Nat) : (s.resDiscard f).gen.window = s.gen.window := by
  simp [State.resDiscard]

@[simp] theorem window_resetVoqs (s : State) (p : Nat) : (s.resetVoqs p).gen.window = s.gen.window := by
  simp [State.resetVoqs]

@[simp] theorem window_flushPort (s : State) (p : Nat) (held : Bool) :
    (s.flushPort p held).gen.window = s.gen.window := by
  simp [State.flushPort]

/-! The lookup tables as the four quads and the shadow hold them -/

@[simp] theorem window_shadowPut (s : State) (loc : Nat) (content : Bytes) :
    (s.shadowPut loc content).gen.window = s.gen.window := by simp [State.shadowPut]

@[simp] theorem window_setRule (s : State) (k : Nat) (c : Option RuleCell) :
    (s.setRule k c).gen.window = s.gen.window := by
  simp [State.setRule]

@[simp] theorem window_setProf (s : State) (k : Nat) (c : Option ProfileCell) :
    (s.setProf k c).gen.window = s.gen.window := by simp [State.setProf]

@[simp] theorem window_setSlot (s : State) (k : Nat) (x : Option EmSlot) :
    (s.setSlot k x).gen.window = s.gen.window := by
  simp [State.setSlot]

@[simp] theorem window_setHit (s : State) (q k : Nat) (b : Bool) : (s.setHit q k b).gen.window = s.gen.window := by
  simp [State.setHit]

@[simp] theorem window_setHits (s : State) (k : Nat) (b : Bool) : (s.setHits k b).gen.window = s.gen.window := by
  simp [State.setHits]

@[simp] theorem window_clearSlot (s : State) (k : Nat) : (s.clearSlot k).gen.window = s.gen.window := by
  simp [State.clearSlot]

@[simp] theorem window_setRoutes (s : State) (l : List Route) (n : Nat) :
    (s.setRoutes l n).gen.window = s.gen.window := by
  simp [State.setRoutes]

@[simp] theorem window_poisonAt (s : State) (q : Nat) (l : TableLoc) : (s.poisonAt q l).gen.window = s.gen.window := by
  simp only [State.poisonAt]
  (repeat' split) <;> simp

@[simp] theorem window_clearPoison (s : State) (q : Nat) (l : TableLoc) :
    (s.clearPoison q l).gen.window = s.gen.window := by
  cases l <;> rfl

@[simp] theorem window_retag (s : State) (f : VTag → Option VTag) (l : Tagged) :
    (s.retag f l).gen.window = s.gen.window := by
  simp only [State.retag]
  (repeat' split) <;> simp

/-! Generations -/

@[simp] theorem window_setLog (s : State) (g : Gen) (n : Nat) : (s.setLog g n).gen.window = s.gen.window := by
  simp [State.setLog]

@[simp] theorem window_logChange (s : State) (n : Nat) : (s.logChange n).gen.window = s.gen.window := by
  simp [State.logChange]

@[simp] theorem window_stepDone (s : State) : s.stepDone.gen.window = s.gen.window := by simp [State.stepDone]

@[simp] theorem window_seqFail (s : State) (r op : Nat) : (s.seqFail r op).gen.window = s.gen.window := by
  simp [State.seqFail]

@[simp] theorem window_seqDeath (s : State) : s.seqDeath.gen.window = s.gen.window := by simp [State.seqDeath]

@[simp] theorem window_seqConsequence (s : State) (before : Bool) :
    (s.seqConsequence before).gen.window = s.gen.window := by
  simp [State.seqConsequence]

@[simp] theorem window_seqReport (s : State) (cause word : Nat) :
    (s.seqReport cause word).gen.window = s.gen.window := by
  simp [State.seqReport]

@[simp] theorem window_seqClassify (s : State) : s.seqClassify.gen.window = s.gen.window := by simp [State.seqClassify]

@[simp] theorem window_seqSelftestFails (s : State) : s.seqSelftestFails.gen.window = s.gen.window := by
  simp [State.seqSelftestFails]

@[simp] theorem window_seqCheck (s : State) (cause word : Nat) : (s.seqCheck cause word).gen.window = s.gen.window := by
  simp [State.seqCheck]

@[simp] theorem window_seqFetch (s : State) (n : Nat) : (s.seqFetch n).gen.window = s.gen.window := by
  induction n generalizing s with
  | zero => rfl
  | succ n ih => simp [State.seqFetch, ih]

@[simp] theorem window_seqStep (s : State) (f dead : State → State) (hf : ∀ u, (f u).gen.window = u.gen.window)
    (hdead : ∀ u, (dead u).gen.window = u.gen.window) :
    (s.seqStep f dead).gen.window = s.gen.window := by simp [State.seqStep, hf, hdead]

@[simp] theorem window_seqCommand (s : State) (r op : Nat) (change : Bool) (f : Bytes → State → State)
    (hf : ∀ a u, (f a u).gen.window = u.gen.window) :
    (s.seqCommand r op change f).gen.window = s.gen.window := by simp [State.seqCommand, hf]

@[simp] theorem window_recCommand (s : State) (r op : Nat) (change : Bool) (rec : Dma)
    (f : Bytes → Bytes → State → State) (hf : ∀ a b u, (f a b u).gen.window = u.gen.window) :
    (s.recCommand r op change rec f).gen.window = s.gen.window := by
  simp only [State.recCommand]
  split <;> simp [hf]

@[simp] theorem window_resultCommand (s : State) (r op : Nat) (written : Bool) (f : Bytes → State → State)
    (hf : ∀ a u, (f a u).gen.window = u.gen.window) :
    (s.resultCommand r op written f).gen.window = s.gen.window := by simp [State.resultCommand, hf]

@[simp] theorem window_unbind (s : State) (sa : Nat) : (s.unbind sa).gen.window = s.gen.window := by
  simp only [State.unbind]
  (repeat' split) <;> simp

@[simp] theorem window_settleStep (s : State) : s.settleStep.gen.window = s.gen.window := by
  refine window_seqStep _ _ _ (fun u => ?_) fun _ => rfl
  dsimp only
  split <;> (split <;> simp)

@[simp] theorem window_settleRun (s : State) (n : Nat) : (s.settleRun n).gen.window = s.gen.window := by
  induction n generalizing s with
  | zero => rfl
  | succ n ih => simp [State.settleRun, ih]

@[simp] theorem windowKept_execGenSettle (records : Nat) (s : State) : WindowKept s (execGenSettle records s) := by
  simp [execGenSettle]

@[simp] theorem window_unbindStaging (s : State) :
    s.unbindStaging.gen.window = s.gen.window := by simp [State.unbindStaging]

@[simp] theorem window_startCommit (s : State) : s.startCommit.gen.window = s.gen.window := by
  simp only [State.startCommit]
  (repeat' split) <;> simp

@[simp] theorem window_beginFlush (s : State) (f : Flush) : (s.beginFlush f).gen.window = s.gen.window := by
  simp [State.beginFlush]

@[simp] theorem window_nextFive (s : State) (n : Nat) : (s.nextFive n).gen.window = s.gen.window := by
  induction n generalizing s with
  | zero => rfl
  | succ n ih =>
    simp only [State.nextFive]
    (repeat' split) <;> simp [ih]

@[simp] theorem window_endAbort (s : State) (a : AbortRun) : (s.endAbort a).gen.window = s.gen.window := by
  simp [State.endAbort]

@[simp] theorem window_abortStep (s : State) (a : AbortRun) : (s.abortStep a).gen.window = s.gen.window := by
  refine window_seqStep _ _ _ (fun u => ?_) fun _ => rfl
  dsimp only
  split <;> (split <;> simp)

@[simp] theorem window_abortRun (s : State) (n : Nat) : (s.abortRun n).gen.window = s.gen.window := by
  induction n generalizing s with
  | zero => rfl
  | succ n ih =>
    simp only [State.abortRun]
    (repeat' split) <;> simp [ih]

@[simp] theorem windowKept_execGenAbort (r : Ring) (records : Nat) (s : State) :
    WindowKept s (execGenAbort r records s) := by simp [execGenAbort]

theorem inside_retire {current oldest : Gen} (inside : Inside (current, oldest)) (draining : oldest ≠ current) :
    Inside (current, oldest + 1) := by
  simp only [Inside] at *
  bv_omega

@[simp] theorem windowKept_execGenRetire (s : State) : WindowKept s (execGenRetire s) := by
  simp only [execGenRetire, windowKept_next]
  intro inside
  split
  · exact inside
  · next retires =>
    simp only [Bool.or_eq_true, decide_eq_true_eq, not_or] at retires
    exact inside_retire inside retires.1.1.1.1

@[simp] theorem window_switchPort (s : State) (p : Nat) (late : Bool) :
    (s.switchPort p late).gen.window = s.gen.window := by
  simp only [State.switchPort]
  (repeat' split) <;> rfl

@[simp] theorem window_switchDown (s : State) (p : Nat) : (s.switchDown p).gen.window = s.gen.window := by
  simp [State.switchDown]

@[simp] theorem windowKept_execGenCommit (r : Ring) (s : State) : WindowKept s (execGenCommit r s) := by
  simp only [execGenCommit, windowKept_next]
  refine inside_of_same (window_seqCommand _ _ _ _ _ fun _ u => ?_)
  (repeat' split) <;> simp

@[simp] theorem window_refuseCommit (s : State) (st : Status) : (s.refuseCommit st).gen.window = s.gen.window := by
  simp only [State.refuseCommit]
  split <;> simp

@[simp] theorem window_cpsUnpin (s : State) (c port : Nat) : (s.cpsUnpin c port).gen.window = s.gen.window := by
  simp only [State.cpsUnpin]
  (repeat' split) <;> simp

@[simp] theorem window_cpsPin (s : State) (c port : Nat) : (s.cpsPin c port).gen.window = s.gen.window := by
  simp [State.cpsPin]

@[simp] theorem window_cpsStop (s : State) (c port : Nat) : (s.cpsStop c port).gen.window = s.gen.window := by
  simp [State.cpsStop]

@[simp] theorem window_cpsCommit (s : State) (c : Nat) (old : Option CirVer) :
    (s.cpsCommit c old).gen.window = s.gen.window := by
  simp only [State.cpsCommit]
  split <;> simp

@[simp] theorem window_armedRecord (s : State) (t : Trigger) : (s.armedRecord t).gen.window = s.gen.window := by
  simp only [State.armedRecord]
  split
  · rfl
  · exact window_ctrlRecord _ _ _ _

/-- Arming makes STAGING the CURRENT generation (R63). -/
theorem window_armCommit (s : State) (r : Nat) (t : Trigger) :
    (s.armCommit r t).gen.window = (s.staging, s.gen.oldest) := by
  simp only [State.armCommit]
  split <;> simp

theorem liveCount_of_window (s : State) : s.liveCount = (s.gen.window.1 + 1 - s.gen.window.2).toNat + 1 := rfl

theorem inside_arm {s : State} (space : s.liveCount ≤ 15) :
    Inside (s.staging, s.gen.oldest) := by
  simp only [Inside, State.liveCount, State.staging] at *
  bv_omega

@[simp] theorem windowKept_execGenCommitArm (s : State) : WindowKept s (execGenCommitArm s) := by
  simp only [execGenCommitArm, windowKept_next]
  intro inside
  split
  · split
    · exact inside
    · next arms =>
      simp only [Bool.or_eq_true, decide_eq_true_eq, not_or, Nat.not_lt] at arms
      have fetched : (s.seqFetch 5).stepDone.gen.window = s.gen.window := by simp
      have space : (s.seqFetch 5).stepDone.liveCount ≤ 15 := by
        rw [liveCount_of_window, fetched, ← liveCount_of_window]
        exact arms.1.2
      have inside : Inside (s.seqFetch 5).stepDone.gen.window := inside_of_same fetched inside
      simp only [State.seqStep]
      split
      · simpa using inside
      · split
        · (repeat' split)
          · exact inside_of_same (window_refuseCommit _ _) inside
          · exact inside_of_same (window_refuseCommit _ _) inside
          · simp [window_armCommit, inside_arm space]
        · simp [window_armCommit, inside_arm space]
  · exact inside

@[simp] theorem windowKept_execGenCommitTimeout (s : State) : WindowKept s (execGenCommitTimeout s) := by
  simp only [execGenCommitTimeout]
  split <;> simp

@[simp] theorem windowKept_execMarkerTimeout (s : State) : WindowKept s (execMarkerTimeout s) := by
  simp only [execMarkerTimeout]
  split <;> simp

@[simp] theorem window_advancePtp (s : State) (t : Nat) : (s.advancePtp t).gen.window = s.gen.window := by
  simp [State.advancePtp]

@[simp] theorem windowKept_execTimeTriggerDeadline (s : State) : WindowKept s (execTimeTriggerDeadline s) := by
  simp only [execTimeTriggerDeadline]
  split <;> simp

@[simp] theorem windowKept_execGenCommitComplete (s : State) : WindowKept s (execGenCommitComplete s) := by
  simp only [execGenCommitComplete]
  split <;> simp

/-! Circuits and security associations -/

@[simp] theorem window_putCircuit (s : State) (r c : Nat) (v : CirVer) (after : State → State) (hafter : ∀ u,
    (after u).gen.window = u.gen.window) :
    (s.putCircuit r c v after).gen.window = s.gen.window := by simp [State.putCircuit, hafter]

@[simp] theorem windowKept_execCirWrite (r : Ring) (rec : Dma) (s : State) : WindowKept s (execCirWrite r rec s) := by
  simp [execCirWrite]

@[simp] theorem windowKept_execCirDelete (r : Ring) (s : State) : WindowKept s (execCirDelete r s) := by
  simp only [execCirDelete, windowKept_next]
  refine inside_of_same (window_seqCommand _ _ _ _ _ fun _ u => ?_)
  (repeat' split) <;> simp

@[simp] theorem windowKept_execCirRead (r : Ring) (written : Bool) (s : State) :
    WindowKept s (execCirRead r written s) := by
  simp only [execCirRead, windowKept_next]
  refine inside_of_same (window_resultCommand _ _ _ _ _ fun _ u => ?_)
  (repeat' split) <;> simp

@[simp] theorem window_offDiscard (s : State) (f : Nat) (suspended : Bool) :
    (s.offDiscard f suspended).gen.window = s.gen.window := by simp [State.offDiscard]

@[simp] theorem window_startFlush (s : State) (c : Nat) (ring : Option Nat) :
    (s.startFlush c ring).gen.window = s.gen.window := by simp [State.startFlush]

@[simp] theorem window_endFlush (s : State) (c : Nat) :
    (s.endFlush c).gen.window = s.gen.window := by simp [State.endFlush]

@[simp] theorem window_endFlushes (s : State) (k : Nat) : (s.endFlushes k).gen.window = s.gen.window := by
  simp [State.endFlushes]

@[simp] theorem window_endDrain (s : State) (c : Nat) :
    (s.endDrain c).gen.window = s.gen.window := by simp [State.endDrain]

@[simp] theorem windowKept_execCirDisable (r : Ring) (s : State) : WindowKept s (execCirDisable r s) := by
  simp [execCirDisable]

@[simp] theorem windowKept_execCirEnable (r : Ring) (s : State) : WindowKept s (execCirEnable r s) := by
  simp [execCirEnable]

@[simp] theorem windowKept_execCirDrainDone (c : Circuit) (s : State) : WindowKept s (execCirDrainDone c s) := by
  simp [execCirDrainDone]

@[simp] theorem windowKept_execCirFlushDone (c : Circuit) (s : State) : WindowKept s (execCirFlushDone c s) := by
  simp [execCirFlushDone]

@[simp] theorem window_glzRecord (s : State) (type sa an count number : Nat) :
    (s.glzRecord type sa an count number).gen.window = s.gen.window := by simp [State.glzRecord]

@[simp] theorem window_suspend (s : State) (c : Nat) (why : Option Nat) :
    (s.suspend c why).gen.window = s.gen.window := by
  simp only [State.suspend]
  (repeat' split) <;> simp

@[simp] theorem window_poisonSa (s : State) (i : Nat) : (s.poisonSa i).gen.window = s.gen.window := by
  simp only [State.poisonSa]
  split <;> simp

@[simp] theorem window_poisonVersion (s : State) (c : Nat) (born : Gen) :
    (s.poisonVersion c born).gen.window = s.gen.window := by simp [State.poisonVersion]

@[simp] theorem windowKept_execCirResume (r : Ring) (s : State) : WindowKept s (execCirResume r s) := by
  simp [execCirResume]

@[simp] theorem window_indexWrite (s : State) (a : Sa) : (s.indexWrite a).gen.window = s.gen.window := by
  simp [State.indexWrite]

@[simp] theorem windowKept_execSaLoad (r : Ring) (rec : Dma) (s : State) : WindowKept s (execSaLoad r rec s) := by
  simp only [execSaLoad, windowKept_next]
  refine inside_of_same (window_recCommand _ _ _ _ _ _ fun _ _ u => ?_)
  (repeat' split) <;> simp

@[simp] theorem windowKept_execSaDelete (r : Ring) (s : State) : WindowKept s (execSaDelete r s) := by
  simp only [execSaDelete, windowKept_next]
  refine inside_of_same (window_seqCommand _ _ _ _ _ fun _ u => ?_)
  (repeat' split) <;> simp

@[simp] theorem window_softCheck (s : State) (k : Nat) : (s.softCheck k).gen.window = s.gen.window := by
  simp only [State.softCheck]
  split <;> simp

@[simp] theorem window_bindSa (s : State) (i slice eq : Nat) : (s.bindSa i slice eq).gen.window = s.gen.window := by
  simp only [State.bindSa]
  split <;> simp

@[simp] theorem windowKept_execSaSelectTx (r : Ring) (s : State) : WindowKept s (execSaSelectTx r s) := by
  simp only [execSaSelectTx, windowKept_next]
  refine inside_of_same (window_seqCommand _ _ _ _ _ fun _ u => ?_)
  (repeat' split) <;> simp

@[simp] theorem windowKept_execSaRead (r : Ring) (written : Bool) (s : State) :
    WindowKept s (execSaRead r written s) := by
  simp only [execSaRead, windowKept_next]
  refine inside_of_same (window_resultCommand _ _ _ _ _ fun _ u => ?_)
  (repeat' split) <;> simp

@[simp] theorem window_icvRecord (s : State) (sa : Nat) : (s.icvRecord sa).gen.window = s.gen.window := by
  simp [State.icvRecord]

@[simp] theorem window_icvFailed (s : State) (sa : Nat) : (s.icvFailed sa).gen.window = s.gen.window := by
  simp only [State.icvFailed]
  split <;> simp

@[simp] theorem windowKept_execIcvHoldoffEnd (c : Circuit) (s : State) : WindowKept s (execIcvHoldoffEnd c s) := by
  simp [execIcvHoldoffEnd]

/-! Critical faults and the safe-state chain -/

@[simp] theorem window_criticalRecord (s : State) (n : Nat) : (s.criticalRecord n).gen.window = s.gen.window := by
  simp [State.criticalRecord]

@[simp] theorem window_squelchAll (s : State) : s.squelchAll.gen.window = s.gen.window := by
  refine window_runOver (fun p u => ?_) _ _
  dsimp only
  split <;> simp

@[simp] theorem window_abortModeCommand (s : State) : s.abortModeCommand.gen.window = s.gen.window := by
  simp [State.abortModeCommand]

@[simp] theorem window_dropCaches (s : State) : s.dropCaches.gen.window = s.gen.window := by simp [State.dropCaches]

@[simp] theorem window_purge (s : State) : s.purge.gen.window = s.gen.window := by simp [State.purge]

@[simp] theorem window_enterSafe (s : State) (sources : List Nat) :
    (s.enterSafe sources).gen.window = s.gen.window := by
  simp [State.enterSafe]

@[simp] theorem window_latchCause (s : State) (n : Nat) : (s.latchCause n).gen.window = s.gen.window := by
  simp [State.latchCause]

@[simp] theorem window_critical (s : State) (l : List Nat) : (s.critical l).gen.window = s.gen.window := by
  simp only [State.critical]
  (repeat' split) <;> simp

@[simp] theorem window_criticalLine (s : State) (n : Nat) : (s.criticalLine n).gen.window = s.gen.window := by
  simp [State.criticalLine]

@[simp] theorem window_endLines (s : State) (l : List Nat) : (s.endLines l).gen.window = s.gen.window := by
  simp [State.endLines]

@[simp] theorem windowKept_execCriticalFault (sources ended : List Nat) (s : State) :
    WindowKept s (execCriticalFault sources ended s) := by simp [execCriticalFault]

/-! The transmit path of Glaze -/

@[simp] theorem window_rejectSpare (s : State) (n : Nat) : (s.rejectSpare n).gen.window = s.gen.window :=
  (onlyIn_rejectSpare _ _).window (by decide)

@[simp] theorem windowKept_execTxCacheFill (i : Slice) (res : FillResult) (s : State) :
    WindowKept s (execTxCacheFill i res s) := by
  simp only [execTxCacheFill]
  (repeat' split) <;> simp

@[simp] theorem window_tornDiscard (s : State) (f sa : Nat) : (s.tornDiscard f sa).gen.window = s.gen.window := by
  simp [State.tornDiscard]

theorem window_placeIn {s t : State} {i f : Nat} {l : List Nat} (h : s.placeIn i f l = some t) :
    t.gen.window = s.gen.window := by
  obtain ⟨u, -, rfl⟩ := Option.map_eq_some_iff.mp h
  simp

/-- A frame is placed in a pair, or stays where it is. -/
@[simp] theorem window_placeIn_getD (s : State) (i f : Nat) (l : List Nat) :
    ((s.placeIn i f l).getD s).gen.window = s.gen.window := by
  cases h : s.placeIn i f l with
  | none => rfl
  | some t => exact window_placeIn h

theorem window_takeNumber {s t : State} {f : Nat} (h : s.takeNumber f = some t) : t.gen.window = s.gen.window := by
  simp only [State.takeNumber] at h
  split at h
  · split at h
    · split at h
      · cases h
      · cases h
        simp
    · cases h
  · cases h

@[simp] theorem window_serveMoved (s : State) (i n : Nat) : (s.serveMoved i n).gen.window = s.gen.window := by
  induction n generalizing s with
  | zero => rfl
  | succ n ih =>
    simp only [State.serveMoved]
    split
    · rfl
    · split
      · next placed => simp [ih, window_placeIn placed]
      · rfl

@[simp] theorem window_exhausted (s : State) (f : Nat) : (s.exhausted f).gen.window = s.gen.window := by
  simp only [State.exhausted, window_discard]
  split
  · split <;> simp
  · simp

@[simp] theorem window_serveWaiting (s : State) (i n : Nat) : (s.serveWaiting i n).gen.window = s.gen.window := by
  induction n generalizing s with
  | zero => rfl
  | succ n ih =>
    simp only [State.serveWaiting]
    split
    · rfl
    · split
      · split
        · simp [ih]
        · next took => rw [ih, window_placeIn_getD, window_takeNumber took, State.setWaiting_gen]
        · simp [ih]
      · rfl

@[simp] theorem window_dispatch (s : State) (i : Nat) :
    (s.dispatch i).gen.window = s.gen.window := by simp [State.dispatch]

@[simp] theorem window_movePair (s : State) (i u : Nat) : (s.movePair i u).gen.window = s.gen.window := by
  simp only [State.movePair, window_dispatch, State.setMoved_gen]
  exact (window_runOver (fun f v => by simp) _ _).trans (by simp)

@[simp] theorem window_matched (s : State) (f : Nat) (result : Option Bytes) :
    (s.matched f result).gen.window = s.gen.window := by
  simp only [State.matched]
  split <;> simp

@[simp] theorem window_miscompare (s : State) (i u : Nat) : (s.miscompare i u).gen.window = s.gen.window := by
  simp [State.miscompare]

@[simp] theorem window_refill (s : State) (i : Nat) (e : TxEntry) : (s.refill i e).gen.window = s.gen.window := by
  simp [State.refill]

@[simp] theorem windowKept_execLockstepCompare (i : Slice) (u : Fin 12) (outcome : LockstepOutcome) (s : State) :
    WindowKept s (execLockstepCompare i u outcome s) := by
  simp only [execLockstepCompare]
  (repeat' split) <;> simp

@[simp] theorem window_setGood (s : State) (decrypt : Bool) (i u : Nat) (g : Bool) :
    (s.setGood decrypt i u g).gen.window = s.gen.window := by simp [State.setGood]

@[simp] theorem window_laneTest (s : State) (decrypt : Bool) (i u : Nat) (pass : Bool) :
    (s.laneTest decrypt i u pass).gen.window = s.gen.window := by simp [State.laneTest]

@[simp] theorem windowKept_execLaneKat (i : Slice) (decrypt : Bool) (u : Fin 12) (pass : Bool) (s : State) :
    WindowKept s (execLaneKat i decrypt u pass s) := by simp [execLaneKat]

@[simp] theorem windowKept_execEncPairRetire (i : Slice) (u : Fin 12) (s : State) :
    WindowKept s (execEncPairRetire i u s) := by
  simp only [execEncPairRetire]
  (repeat' split) <;> simp

@[simp] theorem windowKept_execDecLaneRetire (i : Slice) (l : Fin 12) (s : State) :
    WindowKept s (execDecLaneRetire i l s) := by
  simp only [execDecLaneRetire]
  (repeat' split) <;> simp

/-! Ports -/

@[simp] theorem window_rowWrite (s : State) (f : Fn) (r : RegName) (i j : Nat) (act : State → State) (hact : ∀ u,
    (act u).gen.window = u.gen.window) :
    (s.rowWrite f r i j act).gen.window = s.gen.window := by simp [State.rowWrite, hact]

@[simp] theorem window_unpinPort (s : State) (p : Nat) : (s.unpinPort p).gen.window = s.gen.window := by
  simp [State.unpinPort]

@[simp] theorem window_pinPort (s : State) (p : Nat) :
    (s.pinPort p).gen.window = s.gen.window := by simp [State.pinPort]

@[simp] theorem window_noteFlap (s : State) (p : Nat) :
    (s.noteFlap p).gen.window = s.gen.window := by simp [State.noteFlap]

@[simp] theorem window_linkLoss (s : State) (p : Nat) :
    (s.linkLoss p).gen.window = s.gen.window := by simp [State.linkLoss]

@[simp] theorem window_holdExpire (s : State) (p : Nat) : (s.holdExpire p).gen.window = s.gen.window := by
  simp [State.holdExpire]

@[simp] theorem windowKept_execPcsLinkLoss (p : Port) (s : State) : WindowKept s (execPcsLinkLoss p s) := by
  simp [execPcsLinkLoss]

@[simp] theorem windowKept_execPcsLinkUp (p : Port) (s : State) : WindowKept s (execPcsLinkUp p s) := by
  simp [execPcsLinkUp]

@[simp] theorem windowKept_execHoldExpire (p : Port) (s : State) : WindowKept s (execHoldExpire p s) := by
  simp [execHoldExpire]

@[simp] theorem window_readClass (s : State) (p cls : Nat) : (s.readClass p cls).gen.window = s.gen.window :=
  (onlyIn_readClass _ _ _).window (by decide)

@[simp] theorem windowKept_execModulePresenceChange (p : Port) (present : Bool) (powerClass : Nat) (s : State) :
    WindowKept s (execModulePresenceChange p present powerClass s) := by simp [execModulePresenceChange]

@[simp] theorem window_disablePort (s : State) (p : Nat) : (s.disablePort p).gen.window = s.gen.window := by
  simp only [State.disablePort]
  split <;> simp

@[simp] theorem window_writePrtCfg (s : State) (f : Fn) (p v : Nat) :
    (s.writePrtCfg f p v).gen.window = s.gen.window := by
  simp [State.writePrtCfg]

@[simp] theorem windowKept_execPrtCfgWrite (f : Fn) (p : Port) (v : BitVec 32) (s : State) :
    WindowKept s (execPrtCfgWrite f p v s) := by simp [execPrtCfgWrite]

@[simp] theorem windowKept_execPrtDomainWrite (f : Fn) (p : Port) (v : BitVec 32) (s : State) :
    WindowKept s (execPrtDomainWrite f p v s) := by simp [execPrtDomainWrite]

@[simp] theorem window_writeBypass (s : State) (f : Fn) (r : RegName) (v : Nat) :
    (s.writeBypass f r v).gen.window = s.gen.window := by simp [State.writeBypass]

@[simp] theorem windowKept_execPrtBypStageWrite (f : Fn) (v : BitVec 32) (s : State) :
    WindowKept s (execPrtBypStageWrite f v s) := by simp [execPrtBypStageWrite]

@[simp] theorem windowKept_execPrtBypApproveWrite (f : Fn) (v : BitVec 32) (s : State) :
    WindowKept s (execPrtBypApproveWrite f v s) := by simp [execPrtBypApproveWrite]

@[simp] theorem windowKept_execBypassGateUpdate (s : State) : WindowKept s (execBypassGateUpdate s) := by
  simp [execBypassGateUpdate]

@[simp] theorem windowKept_execCfgSealSet (f : Fn) (s : State) : WindowKept s (execCfgSealSet f s) := by
  simp -implicitDefEqProofs [execCfgSealSet]

@[simp] theorem window_laneConsequence (s : State) (n : Nat) : (s.laneConsequence n).gen.window = s.gen.window := by
  simp only [State.laneConsequence]
  (repeat' split) <;> simp

@[simp] theorem windowKept_execSerdesLaneEvent (l : Lane) (cause : BitVec 8) (s : State) :
    WindowKept s (execSerdesLaneEvent l cause s) := by
  simp only [execSerdesLaneEvent]
  split <;> simp

@[simp] theorem windowKept_execRefclk156Loss (k : Fin 8) (s : State) : WindowKept s (execRefclk156Loss k s) := by
  simp [execRefclk156Loss]

@[simp] theorem windowKept_execRefclk156Return (k : Fin 8) (s : State) : WindowKept s (execRefclk156Return k s) := by
  simp [execRefclk156Return]

@[simp] theorem windowKept_execPpsInEdge (s : State) : WindowKept s (execPpsInEdge s) := by simp [execPpsInEdge]

@[simp] theorem windowKept_execPpsOutEdge (s : State) : WindowKept s (execPpsOutEdge s) := by simp [execPpsOutEdge]

@[simp] theorem window_ptpCommand (s : State) (r op : Nat) (range : Bytes → State → Bool)
    (f : Bytes → Ptp → Ptp) :
    (s.ptpCommand r op range f).gen.window = s.gen.window := by simp [State.ptpCommand]

@[simp] theorem windowKept_execPtpSet (r : Ring) (s : State) : WindowKept s (execPtpSet r s) := by simp [execPtpSet]

@[simp] theorem windowKept_execPtpStep (r : Ring) (s : State) : WindowKept s (execPtpStep r s) := by simp [execPtpStep]

@[simp] theorem windowKept_execPtpRate (r : Ring) (s : State) : WindowKept s (execPtpRate r s) := by simp [execPtpRate]

@[simp] theorem windowKept_execPtpSource (r : Ring) (inWindow : Bool) (s : State) :
    WindowKept s (execPtpSource r inWindow s) := by simp [execPtpSource]

@[simp] theorem windowKept_execPtpSourceRevert (s : State) : WindowKept s (execPtpSourceRevert s) := by
  simp [execPtpSourceRevert]

@[simp] theorem windowKept_execPtpSourceReturn (s : State) : WindowKept s (execPtpSourceReturn s) := by
  simp [execPtpSourceReturn]

/-! What every write of a register shares -/

@[simp] theorem window_fieldWrite (s : State) (f : Fn) (m : RegAt) (size v : Nat) (refuse : Nat → Bool)
    (after : Nat → State → State) (hafter : ∀ a u, (after a u).gen.window = u.gen.window) :
    (s.fieldWrite f m size v refuse after).gen.window = s.gen.window := by
  simp only [State.fieldWrite]
  split <;> simp [hafter]

@[simp] theorem window_setBucket (s : State) (b : Bucket) (x : TokenBucket) :
    (s.setBucket b x).gen.window = s.gen.window := by
  cases b <;> rfl

@[simp] theorem windowKept_execTokenTick (b : Bucket) (s : State) : WindowKept s (execTokenTick b s) := by
  simp [execTokenTick]

theorem window_takeToken {s t : State} {b : Bucket} (h : s.takeToken b = some t) : t.gen.window = s.gen.window := by
  simp only [State.takeToken] at h
  split at h
  · cases h
  · cases h
    exact window_setBucket _ _ _

@[simp] theorem window_rerate (s : State) (b : Bucket) (old : Nat) : (s.rerate b old).gen.window = s.gen.window := by
  simp [State.rerate]

/-! A frame arrives -/

@[simp] theorem window_puntFrame (s : State) (f ring kind code cls lentry : Nat) :
    (s.puntFrame f ring kind code cls lentry).gen.window = s.gen.window := by simp [State.puntFrame]

theorem window_puntTake {s t : State} {ring : Nat} {b : Bucket} (h : s.puntTake ring b = some t) :
    t.gen.window = s.gen.window := by
  simp only [State.puntTake] at h
  split at h
  · exact window_takeToken h
  · cases h

@[simp] theorem window_issueLookups (s : State) (f : Nat) : (s.issueLookups f).gen.window = s.gen.window := by
  simp [State.issueLookups]

@[simp] theorem window_barLookups (s : State) (f : Nat) : (s.barLookups f).gen.window = s.gen.window := by
  simp [State.barLookups]

@[simp] theorem window_failAction (s : State) (f r : Nat) : (s.failAction f r).gen.window = s.gen.window := by
  simp only [State.failAction]
  split
  · split
    · next taken => simp [window_puntTake taken]
    · simp
  · simp
  · simp

@[simp] theorem window_ingressSettle (s : State) (f : Nat) : (s.ingressSettle f).gen.window = s.gen.window := by
  simp only [State.ingressSettle]
  split <;> simp

@[simp] theorem window_walkDone (s : State) (f : Nat) : (s.walkDone f).gen.window = s.gen.window := by
  simp only [State.walkDone]
  split <;> simp

@[simp] theorem windowKept_execParseStep (f : Nat) (s : State) : WindowKept s (execParseStep f s) := by
  simp [execParseStep]

@[simp] theorem window_takeArea (s : State) (p f n : Nat) : (s.takeArea p f n).gen.window = s.gen.window := by
  simp [State.takeArea]

@[simp] theorem window_timeSwitch (s : State) (p : Nat) : (s.timeSwitch p).gen.window = s.gen.window := by
  simp only [State.timeSwitch]
  split <;> simp

@[simp] theorem window_addFrame (s : State) (x : Frame) : (s.addFrame x).gen.window = s.gen.window := by
  simp [State.addFrame]

@[simp] theorem windowKept_execFrameStart (p : Port) (dt : Nat) (bytes : Bytes) (rxEnd : RxEnd) (s : State) :
    WindowKept s (execFrameStart p dt bytes rxEnd s) := by simp [execFrameStart]

@[simp] theorem window_markerSwitch (s : State) (x : Frame) : (s.markerSwitch x).gen.window = s.gen.window := by
  simp [State.markerSwitch]

@[simp] theorem window_countFailed (s : State) (x : Frame) : (s.countFailed x).gen.window = s.gen.window := by
  simp only [State.countFailed]
  split <;> simp

@[simp] theorem windowKept_execFrameEnd (f : Nat) (s : State) :
    WindowKept s (execFrameEnd f s) := by simp [execFrameEnd]

@[simp] theorem window_clearValid (s : State) (i : Nat) : (s.clearValid i).gen.window = s.gen.window := by
  simp [State.clearValid]

@[simp] theorem windowKept_execParseProgramWrite (f : Fn) (i : Slice) (off : BitVec 16) (size : Nat) (v : BitVec 64)
    (s : State) :
    WindowKept s (execParseProgramWrite f i off size v s) := by
  simp only [execParseProgramWrite]
  (repeat' split) <;> simp

@[simp] theorem windowKept_execParseCrcCheck (f : Fn) (i : Slice) (s : State) :
    WindowKept s (execParseCrcCheck f i s) := by simp -implicitDefEqProofs [execParseCrcCheck]

@[simp] theorem windowKept_execParseCrcDone (i : Slice) (s : State) : WindowKept s (execParseCrcDone i s) := by
  simp -implicitDefEqProofs [execParseCrcDone]

/-! Where a forwarded frame goes -/

theorem window_handSegment {s t : State} {k : Nat} (h : s.handSegment k = some t) : t.gen.window = s.gen.window := by
  obtain ⟨w, -, rfl⟩ := Option.map_eq_some_iff.mp h
  simp

theorem window_takePages {s t : State} {k last n : Nat} (h : s.takePages k last n = some t) :
    t.gen.window = s.gen.window := by
  induction n generalizing s with
  | zero => cases h; rfl
  | succ n ih =>
    simp only [State.takePages] at h
    split at h
    · cases h
      rfl
    · obtain ⟨u, handed, rest⟩ := Option.bind_eq_some_iff.mp h
      exact (ih rest).trans (window_handSegment handed)

@[simp] theorem window_placeDeep (s : State) (f : Nat) (enters : Bool) :
    (s.placeDeep f enters).gen.window = s.gen.window := by
  simp only [State.placeDeep]
  split
  · simp
  · split
    · simp
    · split
      · simp
      · next taken => simpa using window_takePages taken

@[simp] theorem window_placeOnDie (s : State) (f requester : Nat) :
    (s.placeOnDie f requester).gen.window = s.gen.window := by simp [State.placeOnDie]

@[simp] theorem window_ecnMark (s : State) (f : Nat) :
    (s.ecnMark f).gen.window = s.gen.window := by simp [State.ecnMark]

@[simp] theorem window_link (s : State) (f requester : Nat) : (s.link f requester).gen.window = s.gen.window := by
  simp only [State.link]
  (repeat' split) <;> simp

/-! The egress scheduler -/

@[simp] theorem window_enqueue (s : State) (f : Nat) :
    (s.enqueue f).gen.window = s.gen.window := by simp [State.enqueue]

@[simp] theorem window_shaperSync (s : State) : s.shaperSync.gen.window = s.gen.window := by simp [State.shaperSync]

@[simp] theorem windowKept_execShaperTick (s : State) : WindowKept s (execShaperTick s) := by simp [execShaperTick]

@[simp] theorem window_chargePort (s : State) (p l : Nat) : (s.chargePort p l).gen.window = s.gen.window := by
  simp [State.chargePort]

@[simp] theorem window_chargeClass (s : State) (n l : Nat) : (s.chargeClass n l).gen.window = s.gen.window := by
  simp [State.chargeClass]

@[simp] theorem window_chargeCirq (s : State) (k l : Nat) : (s.chargeCirq k l).gen.window = s.gen.window := by
  simp [State.chargeCirq]

@[simp] theorem window_advanceNode (s : State) (p c k : Nat) : (s.advanceNode p c k).gen.window = s.gen.window :=
  (onlyIn_sched _ _).window (by decide)

@[simp] theorem window_advancePort (s : State) (p c fin : Nat) : (s.advancePort p c fin).gen.window = s.gen.window := by
  simp [State.advancePort]

@[simp] theorem window_takeSelected (s : State) (f : Nat) : (s.takeSelected f).gen.window = s.gen.window := by
  simp [State.takeSelected]

@[simp] theorem window_selectClass (s : State) (p n : Nat) : (s.selectClass p n).gen.window = s.gen.window := by
  induction n generalizing s with
  | zero => rfl
  | succ n ih =>
    simp only [State.selectClass]
    (repeat' split) <;> simp [ih]

@[simp] theorem windowKept_execCpsSlotDue (c : Circuit) (s : State) : WindowKept s (execCpsSlotDue c s) := by
  simp only [execCpsSlotDue]
  split <;> simp

@[simp] theorem window_slotDone (s : State) (c : Nat) (g : Profile → Profile) :
    (s.slotDone c g).gen.window = s.gen.window := by simp [State.slotDone]

@[simp] theorem window_skipSlots (s : State) (c n : Nat) : (s.skipSlots c n).gen.window = s.gen.window := by
  induction n generalizing s with
  | zero => rfl
  | succ n ih =>
    simp only [State.skipSlots]
    (repeat' split) <;> simp [ih]

@[simp] theorem window_offerQueue (s : State) (p k most size n : Nat) :
    (s.offerQueue p k most size n).1.gen.window = s.gen.window := by
  induction n generalizing s with
  | zero => rfl
  | succ n ih =>
    simp only [State.offerQueue]
    (repeat' split) <;> simp [ih]

@[simp] theorem window_offer (s : State) (p eq most size n : Nat) :
    (s.offer p eq most size n).1.gen.window = s.gen.window := by
  induction n generalizing s with
  | zero => rfl
  | succ n ih =>
    have kept := window_offerQueue s p (p / 8 * 32768 + eq * 8 + n) most size
      ((s.queue (p / 8 * 32768 + eq * 8 + n)).length + 1)
    simp only [State.offer]
    split
    · next offered => exact window_of_fst offered kept
    · next offered => exact (ih _).trans (window_of_fst offered kept)

@[simp] theorem window_filler (s : State) (c : Nat) (q : Profile) (v : CirVer) :
    (s.filler c q v).1.gen.window = s.gen.window := by simp [State.filler]

@[simp] theorem window_serveSlot (s : State) (p c : Nat) : (s.serveSlot p c).1.gen.window = s.gen.window := by
  simp only [State.serveSlot]
  generalize skip : s.skipSlots c _ = u
  have kept : u.gen.window = s.gen.window := skip ▸ window_skipSlots _ _ _
  split
  · split
    · exact kept
    · split
      · next offered => simp [window_of_fst offered (window_offer _ _ _ _ _ _), kept]
      · next offered => split <;> simp [window_of_fst offered (window_offer _ _ _ _ _ _), kept]
  · exact kept

@[simp] theorem window_serveSlots (s : State) (p : Nat) (l : List Nat) :
    (s.serveSlots p l).1.gen.window = s.gen.window := by
  induction l generalizing s with
  | nil => rfl
  | cons c rest ih =>
    have kept := window_serveSlot s p c
    simp only [State.serveSlots]
    split
    · next served => exact window_of_fst served kept
    · next served => exact (ih _).trans (window_of_fst served kept)

@[simp] theorem window_noteServed (s : State) (p : Nat) : (s.noteServed p).gen.window = s.gen.window := by
  simp [State.noteServed]

@[simp] theorem window_selectAt (s : State) (p : Nat) : (s.selectAt p).gen.window = s.gen.window := by
  have kept := window_serveSlots s p (s.dueSlots p)
  simp only [State.selectAt]
  split
  · next served => exact window_of_fst served kept
  · next served => split <;> simp [window_of_fst served kept]

@[simp] theorem windowKept_execEgressSelect (p : Port) (s : State) : WindowKept s (execEgressSelect p s) := by
  simp [execEgressSelect]

@[simp] theorem window_egsCommand (s : State) (r op : Nat) (rec : Dma) (f : Bytes → State → State)
    (hf : ∀ a u, (f a u).gen.window = u.gen.window) :
    (s.egsCommand r op rec f).gen.window = s.gen.window := by
  simp only [State.egsCommand]
  split <;> simp [hf]

@[simp] theorem windowKept_execEgsClassWrite (r : Ring) (rec : Dma) (s : State) :
    WindowKept s (execEgsClassWrite r rec s) := by simp [execEgsClassWrite]

@[simp] theorem windowKept_execEgsCirqWrite (r : Ring) (rec : Dma) (s : State) :
    WindowKept s (execEgsCirqWrite r rec s) := by simp [execEgsCirqWrite]

@[simp] theorem windowKept_execCpsWrite (r : Ring) (rec : Dma) (s : State) : WindowKept s (execCpsWrite r rec s) := by
  simp only [execCpsWrite, windowKept_next]
  refine inside_of_same (window_egsCommand _ _ _ _ _ fun _ u => ?_)
  (repeat' split) <;> simp

/-! The switch core -/

@[simp] theorem window_modFpair (s : State) (a b : Nat) (g : Pair → Pair) :
    (s.modFpair a b g).gen.window = s.gen.window := by simp [State.modFpair]

@[simp] theorem window_movePointers (s : State) (made : List (Nat × Nat)) :
    (s.movePointers made).gen.window = s.gen.window := by simp [State.movePointers]

@[simp] theorem window_countStarve (s : State) (req : Nat → Nat → Nat) (made : List (Nat × Nat)) :
    (s.countStarve req made).gen.window = s.gen.window := by simp [State.countStarve]

@[simp] theorem window_sendCell (s : State) (a b : Nat) (c : Cell) : (s.sendCell a b c).gen.window = s.gen.window := by
  simp [State.sendCell]

@[simp] theorem window_dropUnread (s : State) (k : Nat) : (s.dropUnread k).gen.window = s.gen.window := by
  simp [State.dropUnread]

@[simp] theorem window_newCell (s : State) (a b k : Nat) : (s.newCell a b k).gen.window = s.gen.window := by
  simp [State.newCell]

@[simp] theorem window_resendCell (s : State) (a b : Nat) (c : Cell) :
    (s.resendCell a b c).gen.window = s.gen.window := by
  simp [State.resendCell]

@[simp] theorem window_carry (s : State) (a b : Nat) : (s.carry a b).gen.window = s.gen.window := by
  simp only [State.carry]
  (repeat' split) <;> simp

@[simp] theorem window_runMatcher (s : State) (req : Nat → Nat → Nat) :
    (s.runMatcher req).2.gen.window = s.gen.window := by
  simp [State.runMatcher]

@[simp] theorem window_carryDue (s : State) (made : List (Nat × Nat)) :
    (s.carryDue made).gen.window = s.gen.window := by
  simp [State.carryDue]

@[simp] theorem windowKept_execMatchCellTime (parityBad : Bool) (s : State) :
    WindowKept s (execMatchCellTime parityBad s) := by simp [execMatchCellTime]

@[simp] theorem windowKept_execStarvePromote (a b : Slice) (s : State) : WindowKept s (execStarvePromote a b s) := by
  simp [execStarvePromote]

@[simp] theorem window_claimEgress (s : State) (f src : Nat) : (s.claimEgress f src).gen.window = s.gen.window := by
  simp [State.claimEgress]

@[simp] theorem window_takeSeg (s : State) (src : Nat) (g : Seg) : (s.takeSeg src g).1.gen.window = s.gen.window := by
  simp only [State.takeSeg]
  (repeat' split) <;> simp

@[simp] theorem window_takeSegs (s : State) (src : Nat) (l : List Seg) :
    (s.takeSegs src l).1.gen.window = s.gen.window := by
  induction l generalizing s with
  | nil => rfl
  | cons g rest ih =>
    have kept := window_takeSeg s src g
    simp only [State.takeSegs]
    split
    · next taken => exact (ih _).trans (window_of_fst taken kept)
    · next taken => exact window_of_fst taken kept

@[simp] theorem window_drainCells (s : State) (a b n : Nat) : (s.drainCells a b n).gen.window = s.gen.window := by
  induction n generalizing s with
  | zero => rfl
  | succ n ih =>
    simp only [State.drainCells]
    split
    · rfl
    · next c _ _ =>
      have kept := window_takeSegs s a c.segs
      split
      · simp [ih]
      · split
        · next taken => simp [ih, window_of_fst taken kept]
        · next taken => simp [window_of_fst taken kept]

@[simp] theorem window_drain (s : State) (a b : Nat) : (s.drain a b).gen.window = s.gen.window := by simp [State.drain]

@[simp] theorem window_placeCell (s : State) (a b : Nat) (c : Cell) :
    (s.placeCell a b c).gen.window = s.gen.window := by
  simp [State.placeCell]

@[simp] theorem window_badCell (s : State) (a b seq : Nat) : (s.badCell a b seq).gen.window = s.gen.window := by
  simp [State.badCell]

@[simp] theorem window_beatErrors (s : State) (c : Cell) (beats : List Nat) :
    (s.beatErrors c beats).gen.window = s.gen.window := by simp [State.beatErrors]

@[simp] theorem window_failedCell (s : State) (a b : Nat) (c : Cell) (e : CellError) :
    (s.failedCell a b c e).gen.window = s.gen.window := by simp [State.failedCell]

@[simp] theorem window_cleanCell (s : State) (a b : Nat) (c : Cell) :
    (s.cleanCell a b c).gen.window = s.gen.window := by
  have kept := window_takeCorrupt s (0x20 + a)
  simp only [State.cleanCell]
  split
  · simp
  · split
    · next taken => simp [window_of_snd taken kept]
    · next taken => simp [window_of_snd taken kept]

@[simp] theorem windowKept_execCellReceive (a b : Slice) (seq : BitVec 16) (err : CellError) (s : State) :
    WindowKept s (execCellReceive a b seq err s) := by
  simp only [execCellReceive]
  split <;> simp

@[simp] theorem windowKept_execCellAck (a b : Slice) (s : State) : WindowKept s (execCellAck a b s) := by
  simp [execCellAck]

@[simp] theorem window_failCell (s : State) (a b seq : Nat) : (s.failCell a b seq).gen.window = s.gen.window := by
  simp [State.failCell]

@[simp] theorem windowKept_execCellNak (a b : Slice) (seq : BitVec 16) (s : State) :
    WindowKept s (execCellNak a b seq s) := by simp [execCellNak]

@[simp] theorem windowKept_execCellRetxTimeout (a b : Slice) (seq : BitVec 16) (s : State) :
    WindowKept s (execCellRetxTimeout a b seq s) := by simp [execCellRetxTimeout]

@[simp] theorem windowKept_execCellPoison (a b : Slice) (seq : BitVec 16) (s : State) :
    WindowKept s (execCellPoison a b seq s) := by
  simp only [execCellPoison]
  split <;> simp

@[simp] theorem window_startPlaneCheck (s : State) (p : Nat) : (s.startPlaneCheck p).gen.window = s.gen.window := by
  simp [State.startPlaneCheck]

@[simp] theorem windowKept_execPlaneCheckEnd (good : Bool) (s : State) : WindowKept s (execPlaneCheckEnd good s) := by
  simp only [execPlaneCheckEnd]
  split <;> simp

@[simp] theorem windowKept_execPlaneRemove (k : Fin 18) (s : State) : WindowKept s (execPlaneRemove k s) := by
  simp [execPlaneRemove]

/-! The buffer pool manager -/

@[simp] theorem window_grant (s : State) (c : Claim) : (s.grant c).gen.window = s.gen.window := by
  simp -implicitDefEqProofs [State.grant]

@[simp] theorem window_turnAway (s : State) (c : Claim) (next : Option Nat) :
    (s.turnAway c next).gen.window = s.gen.window := by
  simp only [State.turnAway]
  (repeat' split) <;> simp

@[simp] theorem windowKept_execPoolGrant (side : Side) (slice : Slice) (set : Fin 2) (pool : Fin 4) (s : State) :
    WindowKept s (execPoolGrant side slice set pool s) := by
  simp only [execPoolGrant]
  split <;> simp

@[simp] theorem windowKept_execSpillWriteAck (f : Nat) (s : State) : WindowKept s (execSpillWriteAck f s) := by
  simp [execSpillWriteAck]

@[simp] theorem window_returnSync (s : State) (k : Nat) : (s.returnSync k).gen.window = s.gen.window := by
  simp [State.returnSync]

@[simp] theorem windowKept_execReturnRead (i : Slice) (p : Port) (c : Fin 8) (s : State) :
    WindowKept s (execReturnRead i p c s) := by
  simp only [execReturnRead]
  split <;> simp

@[simp] theorem window_deepDiscard (s : State) (f : Nat) : (s.deepDiscard f).gen.window = s.gen.window := by
  simp [State.deepDiscard]

@[simp] theorem window_loseDeep (s : State) (k : Nat) :
    (s.loseDeep k).gen.window = s.gen.window := by simp [State.loseDeep]

@[simp] theorem window_linkReturned (s : State) (f : Nat) : (s.linkReturned f).gen.window = s.gen.window := by
  simp [State.linkReturned]

@[simp] theorem windowKept_execReturnReadDone (f : Nat) (s : State) : WindowKept s (execReturnReadDone f s) := by
  simp only [execReturnReadDone]
  (repeat' split) <;> simp

/-! Burin -/

@[simp] theorem window_putThread (s : State) (i e k : Nat) (f : Option Nat) :
    (s.putThread i e k f).gen.window = s.gen.window := by simp [State.putThread]

@[simp] theorem window_startRewrite (s : State) (i : Nat) : (s.startRewrite i).gen.window = s.gen.window := by
  simp only [State.startRewrite]
  split <;> simp

@[simp] theorem windowKept_execBurinRewrite (i : Slice) (s : State) : WindowKept s (execBurinRewrite i s) := by
  simp [execBurinRewrite]

@[simp] theorem window_release (s : State) (f : Nat) :
    (s.release f).gen.window = s.gen.window := by simp [State.release]

@[simp] theorem window_releaseAll (s : State) (i n : Nat) : (s.releaseAll i n).gen.window = s.gen.window := by
  induction n generalizing s with
  | zero => rfl
  | succ n ih =>
    simp only [State.releaseAll]
    (repeat' split) <;> simp [ih]

@[simp] theorem window_burinRelease (s : State) (i : Nat) : (s.burinRelease i).gen.window = s.gen.window := by
  simp [State.burinRelease]

@[simp] theorem window_burinDrop (s : State) (f : Nat) (why : BurinDrop) :
    (s.burinDrop f why).gen.window = s.gen.window := by simp [State.burinDrop]

@[simp] theorem window_fenceEngine (s : State) (i e : Nat) : (s.fenceEngine i e).gen.window = s.gen.window := by
  simp [State.fenceEngine]

@[simp] theorem window_threadCheck (s : State) (i e k cause addr : Nat) (inPatch : Bool) :
    (s.threadCheck i e k cause addr inPatch).gen.window = s.gen.window := by
  simp only [State.threadCheck]
  split <;> simp -implicitDefEqProofs

@[simp] theorem window_endRewrite (s : State) (i : Nat) : (s.endRewrite i).gen.window = s.gen.window := by
  simp only [State.endRewrite]
  (repeat' split) <;> simp

@[simp] theorem windowKept_execBurinRewriteEnd (i : Slice) (s : State) : WindowKept s (execBurinRewriteEnd i s) := by
  simp [execBurinRewriteEnd]

@[simp] theorem windowKept_execBurinMachineCheck (i : Slice) (e : Fin 5) (k : Fin 4) (cause : Fin 7)
    (addr : BitVec 12) (inPatch : Bool) (s : State) :
    WindowKept s (execBurinMachineCheck i e k cause addr inPatch s) := by simp [execBurinMachineCheck]

@[simp] theorem window_selftestFails (s : State) (i e cause : Nat) :
    (s.selftestFails i e cause).gen.window = s.gen.window := by simp -implicitDefEqProofs [State.selftestFails]

@[simp] theorem window_engineTest (s : State) (i e : Nat) (pass : Bool) :
    (s.engineTest i e pass).gen.window = s.gen.window := by simp [State.engineTest]

@[simp] theorem windowKept_execBurinSelftest (i : Slice) (e : Fin 5) (pass : Bool) (s : State) :
    WindowKept s (execBurinSelftest i e pass s) := by simp [execBurinSelftest]

@[simp] theorem windowKept_execBurinEngineRetire (i : Slice) (e : Fin 5) (s : State) :
    WindowKept s (execBurinEngineRetire i e s) := by
  simp only [execBurinEngineRetire]
  (repeat' split) <;> simp

/-! The rule search array -/

@[simp] theorem windowKept_execRuleInsert (r : Ring) (rec : Dma) (s : State) :
    WindowKept s (execRuleInsert r rec s) := by
  simp only [execRuleInsert, windowKept_next]
  refine inside_of_same (window_recCommand _ _ _ _ _ _ fun _ _ u => ?_)
  (repeat' split) <;> simp

@[simp] theorem windowKept_execRuleModify (r : Ring) (rec : Dma) (s : State) :
    WindowKept s (execRuleModify r rec s) := by
  simp only [execRuleModify, windowKept_next]
  refine inside_of_same (window_recCommand _ _ _ _ _ _ fun _ _ u => ?_)
  (repeat' split) <;> simp

@[simp] theorem windowKept_execRuleDelete (r : Ring) (s : State) : WindowKept s (execRuleDelete r s) := by
  simp only [execRuleDelete, windowKept_next]
  refine inside_of_same (window_seqCommand _ _ _ _ _ fun _ u => ?_)
  (repeat' split) <;> simp

@[simp] theorem windowKept_execRuleRead (r : Ring) (written : Bool) (s : State) :
    WindowKept s (execRuleRead r written s) := by
  simp only [execRuleRead, windowKept_next]
  refine inside_of_same (window_resultCommand _ _ _ _ _ fun _ u => ?_)
  (repeat' split) <;> simp

@[simp] theorem windowKept_execProfileWrite (r : Ring) (rec : Dma) (s : State) :
    WindowKept s (execProfileWrite r rec s) := by
  simp only [execProfileWrite, windowKept_next]
  refine inside_of_same (window_recCommand _ _ _ _ _ _ fun _ _ u => ?_)
  (repeat' split) <;> simp

@[simp] theorem windowKept_execProfileDelete (r : Ring) (s : State) : WindowKept s (execProfileDelete r s) := by
  simp only [execProfileDelete, windowKept_next]
  refine inside_of_same (window_seqCommand _ _ _ _ _ fun _ u => ?_)
  (repeat' split) <;> simp

@[simp] theorem windowKept_execRsaGroupCfgWrite (f : Fn) (q : Quad) (v : BitVec 32) (s : State) :
    WindowKept s (execRsaGroupCfgWrite f q v s) := by simp [execRsaGroupCfgWrite]

@[simp] theorem window_poisonRule (s : State) (q cell : Nat) : (s.poisonRule q cell).gen.window = s.gen.window := by
  simp [State.poisonRule]

@[simp] theorem window_tileCheck (s : State) (q t c n : Nat) : (s.tileCheck q t c n).2.gen.window = s.gen.window := by
  simp only [State.tileCheck]
  split <;> simp

@[simp] theorem window_tileChecks (s : State) (q : Nat) (fails : List (Fin 64 × Nat)) (n : List (Nat × Nat)) :
    (s.tileChecks q fails n).2.gen.window = s.gen.window := by
  induction n generalizing s with
  | nil => rfl
  | cons a l ih => simp [State.tileChecks, ih]

@[simp] theorem windowKept_execRsaSearchResult (f : Nat) (fails : List (Fin 64 × Nat)) (s : State) :
    WindowKept s (execRsaSearchResult f fails s) := by simp [execRsaSearchResult]

@[simp] theorem windowKept_execTileScrubStep (q : Quad) (t : Fin 64) (cell : Fin 1024) (parityOk : Bool) (s : State) :
    WindowKept s (execTileScrubStep q t cell parityOk s) := by simp -implicitDefEqProofs [execTileScrubStep]

/-! The exact-match table -/

@[simp] theorem window_relocate (s : State) (src dst : Nat) : (s.relocate src dst).gen.window = s.gen.window := by
  simp [State.relocate]

@[simp] theorem window_moveChain (s : State) (l : List Nat) : (s.moveChain l).gen.window = s.gen.window := by
  fun_induction State.moveChain with
  | case1 s dst src rest ih => simp [ih]
  | case2 => rfl

@[simp] theorem window_learnRecord (s : State) (type : Nat) (body : Bytes) :
    (s.learnRecord type body).gen.window = s.gen.window := by simp [State.learnRecord]

theorem window_pickVictim {s t : State} {slots : List Nat} {k : Nat} (h : s.pickVictim slots = some (k, t)) :
    t.gen.window = s.gen.window := by
  simp only [State.pickVictim] at h
  split at h
  · obtain ⟨_, -, taken⟩ := Option.map_eq_some_iff.mp h
    cases taken
    rfl
  · split at h <;> cases h <;> rfl
  · cases h

@[simp] theorem window_evict (s : State) (k : Nat) : (s.evict k).gen.window = s.gen.window := by
  simp only [State.evict]
  split <;> simp

theorem window_makeRoom {s t : State} {ktype : Nat} {key : Bytes} {k : Nat} (h : s.makeRoom ktype key = some (k, t)) :
    t.gen.window = s.gen.window := by
  simp only [State.makeRoom] at h
  split at h
  · cases h
    rfl
  · split at h
    · cases h
      simp
    · obtain ⟨⟨_, _⟩, picked, evicted⟩ := Option.map_eq_some_iff.mp h
      cases evicted
      simp [window_pickVictim picked]

@[simp] theorem window_writeEntry (s : State) (k : Nat) (e : EmSlot) :
    (s.writeEntry k e).gen.window = s.gen.window := by
  simp [State.writeEntry]

@[simp] theorem window_killSlot (s : State) (k : Nat) : (s.killSlot k).gen.window = s.gen.window := by
  simp only [State.killSlot]
  split <;> simp

@[simp] theorem window_placeSoft (s t : State) (r : Nat) (b : Bytes) (h : t.gen.window = s.gen.window) :
    (s.placeSoft t r b).gen.window = s.gen.window := by
  simp only [State.placeSoft]
  split
  · simp
  · next made => split <;> simp [window_makeRoom made, h]

@[simp] theorem windowKept_execEmInsert (r : Ring) (rec : Dma) (s : State) : WindowKept s (execEmInsert r rec s) := by
  simp only [execEmInsert, windowKept_next]
  refine inside_of_same (window_recCommand _ _ _ _ _ _ fun _ _ u => ?_)
  (repeat' split) <;> simp

@[simp] theorem windowKept_execEmModify (r : Ring) (rec : Dma) (s : State) : WindowKept s (execEmModify r rec s) := by
  simp only [execEmModify, windowKept_next]
  refine inside_of_same (window_recCommand _ _ _ _ _ _ fun _ _ u => ?_)
  (repeat' split) <;> simp

@[simp] theorem windowKept_execEmDelete (r : Ring) (rec : Dma) (s : State) : WindowKept s (execEmDelete r rec s) := by
  simp only [execEmDelete, windowKept_next]
  refine inside_of_same (window_recCommand _ _ _ _ _ _ fun _ _ u => ?_)
  (repeat' split) <;> simp

@[simp] theorem windowKept_execEmSearch (r : Ring) (rec : Dma) (written : Bool) (s : State) :
    WindowKept s (execEmSearch r rec written s) := by
  simp only [execEmSearch, windowKept_next]
  refine inside_of_same (window_recCommand _ _ _ _ _ _ fun _ _ u => ?_)
  (repeat' split) <;> simp

@[simp] theorem windowKept_execEmNext (r : Ring) (written : Bool) (s : State) :
    WindowKept s (execEmNext r written s) := by simp [execEmNext]

@[simp] theorem window_lookupErrors (s : State) (slice errors : Nat) :
    (s.lookupErrors slice errors).gen.window = s.gen.window := by simp [State.lookupErrors]

@[simp] theorem windowKept_execEmLookupResult (f errors : Nat) (s : State) :
    WindowKept s (execEmLookupResult f errors s) := by
  simp only [execEmLookupResult]
  (repeat' split) <;> simp

@[simp] theorem window_enterFilter (s : State) (q kt : Nat) (key : Bytes) :
    (s.enterFilter q kt key).gen.window = s.gen.window := by simp [State.enterFilter]

@[simp] theorem windowKept_execLearnFilterExpire (q : Quad) (s : State) : WindowKept s (execLearnFilterExpire q s) := by
  simp only [execLearnFilterExpire]
  split <;> simp

@[simp] theorem window_learnEvent (s : State) (f : Nat) : (s.learnEvent f).gen.window = s.gen.window := by
  simp only [State.learnEvent]
  split
  · rfl
  · split
    · rfl
    · split
      · simp
      · split
        · simp
        · split
          · simp
          · next taken => simp [window_takeToken taken]

@[simp] theorem window_placeLearn (s : State) (j : LearnJob) : (s.placeLearn j).gen.window = s.gen.window := by
  simp only [State.placeLearn]
  split
  · rfl
  · split
    · simp
    · next made => split <;> simp [window_makeRoom made]

@[simp] theorem window_placeMove (s : State) (j : LearnJob) : (s.placeMove j).gen.window = s.gen.window := by
  simp only [State.placeMove]
  split <;> simp

@[simp] theorem windowKept_execLearnPlace (s : State) : WindowKept s (execLearnPlace s) := by
  simp only [execLearnPlace]
  (repeat' split) <;> simp

@[simp] theorem windowKept_execAgingLapStart (s : State) : WindowKept s (execAgingLapStart s) := by
  simp -implicitDefEqProofs [execAgingLapStart]

@[simp] theorem window_ageSlot (s : State) (k : Nat) (h : Bool) : (s.ageSlot k h).gen.window = s.gen.window := by
  simp only [State.ageSlot]
  split <;> simp

@[simp] theorem window_sweptBucket (s : State) (b : Nat) : (s.sweptBucket b).gen.window = s.gen.window := by
  simp -implicitDefEqProofs [State.sweptBucket]

@[simp] theorem window_sweepRemove (s : State) (w : Sweep) : (s.sweepRemove w).gen.window = s.gen.window := by
  simp only [State.sweepRemove]
  split
  · simp
  · rw [window_sweptBucket, window_runOver fun k u => by split <;> simp]

@[simp] theorem windowKept_execAgingSweepStep (b : Fin 131072) (s : State) : WindowKept s (execAgingSweepStep b s) := by
  simp only [execAgingSweepStep]
  split <;> simp

/-! HBM and the integrity of stored data -/

@[simp] theorem window_countCe (s : State) (inst : Nat) : (s.countCe inst).gen.window = s.gen.window := by
  simp [State.countCe]

@[simp] theorem window_logCorrection (s : State) (inst addr syn : Nat) :
    (s.logCorrection inst addr syn).gen.window = s.gen.window := by
  simp only [State.logCorrection]
  (repeat' split) <;> simp

@[simp] theorem window_meetCorrupt (s : State) (inst : Nat) : (s.meetCorrupt inst).gen.window = s.gen.window := by
  simp [State.meetCorrupt]

@[simp] theorem windowKept_execMemCorrection (inst : BitVec 12) (addr : BitVec 40) (syn : BitVec 8) (s : State) :
    WindowKept s (execMemCorrection inst addr syn s) := by simp [execMemCorrection]

@[simp] theorem windowKept_execWritebackComplete (inst : BitVec 12) (addr : BitVec 40) (s : State) :
    WindowKept s (execWritebackComplete inst addr s) := by simp [execWritebackComplete]

@[simp] theorem window_errorResponse (s : State) (x : HbmTarget) : (s.errorResponse x).gen.window = s.gen.window := by
  cases x <;> simp [State.errorResponse]

@[simp] theorem window_poisonUnit (s : State) (g m j : Nat) : (s.poisonUnit g m j).gen.window = s.gen.window := by
  simp [State.poisonUnit]

@[simp] theorem windowKept_execHbmReadError (pc : Fin 128) (rereadOk reconOk : Bool) (addr : Nat)
    (target : HbmTarget) (s : State) :
    WindowKept s (execHbmReadError pc rereadOk reconOk addr target s) := by
  simp only [execHbmReadError]
  split <;> simp

@[simp] theorem windowKept_execReceiveIndexRebuildDone (b : Nat) (s : State) :
    WindowKept s (execReceiveIndexRebuildDone b s) := by simp [execReceiveIndexRebuildDone]

@[simp] theorem window_refreshDue (s : State) (pc bank fellDue : Nat) :
    (s.refreshDue pc bank fellDue).gen.window = s.gen.window := by simp [State.refreshDue]

@[simp] theorem windowKept_execHbmRefresh (pc : Fin 128) (bank : Nat) (pulledIn : Bool) (fellDue : Nat) (s : State) :
    WindowKept s (execHbmRefresh pc bank pulledIn fellDue s) := by simp [execHbmRefresh]

@[simp] theorem windowKept_execRefreshForced (pc : Fin 128) (bank fellDue : Nat) (s : State) :
    WindowKept s (execRefreshForced pc bank fellDue s) := by simp [execRefreshForced]

@[simp] theorem window_goOffline (s : State) (pc : Nat) (repair : Bool) :
    (s.goOffline pc repair).gen.window = s.gen.window := by simp [State.goOffline]

@[simp] theorem windowKept_execHbmRetrainStart (pc : Fin 128) (temp : Int) (s : State) :
    WindowKept s (execHbmRetrainStart pc temp s) := by simp [execHbmRetrainStart]

@[simp] theorem window_memberBack (s : State) (g : Nat) : (s.memberBack g).gen.window = s.gen.window := by
  simp [State.memberBack]

@[simp] theorem windowKept_execMemberReturn (pc : Fin 128) (workOk : Bool) (s : State) :
    WindowKept s (execMemberReturn pc workOk s) := by simp [execMemberReturn]

@[simp] theorem window_hbmLap (s : State) (minutes : Nat) : (s.hbmLap minutes).gen.window = s.gen.window := by
  simp -implicitDefEqProofs [State.hbmLap]

@[simp] theorem window_scrubBad (s : State) (g j : Nat) (bad : List Nat) (targets : List HbmTarget) :
    (s.scrubBad g j bad targets).gen.window = s.gen.window := by
  simp only [State.scrubBad]
  split <;> simp

@[simp] theorem window_scrubStripe (s : State) (g j : Nat) (corrected bad : List Nat) (parityDisagrees : Bool)
    (targets : List HbmTarget) :
    (s.scrubStripe g j corrected bad parityDisagrees targets).gen.window = s.gen.window := by simp [State.scrubStripe]

@[simp] theorem windowKept_execHbmScrubStep (g : Slice) (stripe : Nat) (corrected bad : List Nat)
    (parityDisagrees : Bool) (targets : List HbmTarget) (lapEnd : Option Nat) (s : State) :
    WindowKept s (execHbmScrubStep g stripe corrected bad parityDisagrees targets lapEnd s) := by
  simp only [execHbmScrubStep]
  (repeat' split) <;> simp

@[simp] theorem window_onDieLap (s : State) (ms : Nat) : (s.onDieLap ms).gen.window = s.gen.window := by
  simp -implicitDefEqProofs [State.onDieLap]

@[simp] theorem window_scrubLost (s : State) (n addr : Nat) : (s.scrubLost n addr).gen.window = s.gen.window := by
  simp [State.scrubLost]

@[simp] theorem windowKept_execOndieScrubStep (inst : BitVec 12) (addr : BitVec 40) (found : ScrubFinding)
    (lapEnd : Option Nat) (s : State) :
    WindowKept s (execOndieScrubStep inst addr found lapEnd s) := by
  simp only [execOndieScrubStep]
  (repeat' split) <;> simp

@[simp] theorem window_withdrawBuffer (s : State) (inst addr : Nat) :
    (s.withdrawBuffer inst addr).gen.window = s.gen.window := by simp [State.withdrawBuffer]

@[simp] theorem window_withdrawSlot (s : State) (inst addr : Nat) :
    (s.withdrawSlot inst addr).gen.window = s.gen.window := by simp [State.withdrawSlot]

@[simp] theorem window_withdrawUnit (s : State) (pc addr : Nat) :
    (s.withdrawUnit pc addr).gen.window = s.gen.window := by
  simp only [State.withdrawUnit]
  split <;> simp

@[simp] theorem window_reportLoss (s : State) (inst addr : Nat) :
    (s.reportLoss inst addr).gen.window = s.gen.window := by
  simp only [State.reportLoss]
  split <;> simp

@[simp] theorem window_withdraw (s : State) (inst addr : Nat) : (s.withdraw inst addr).gen.window = s.gen.window := by
  simp only [State.withdraw]
  split <;> simp

@[simp] theorem window_repaired (s : State) (inst addr how : Nat) :
    (s.repaired inst addr how).gen.window = s.gen.window := by simp [State.repaired]

@[simp] theorem windowKept_execMemSpare (inst : BitVec 12) (addr : BitVec 40) (how : SpareKind) (s : State) :
    WindowKept s (execMemSpare inst addr how s) := by
  simp only [execMemSpare]
  (repeat' split) <;> simp

@[simp] theorem window_groupState (s : State) (g : Nat) (x : GroupState) (member : Nat) :
    (s.groupState g x member).gen.window = s.gen.window := by simp [State.groupState]

@[simp] theorem windowKept_execGroupRebuildDone (g : Slice) (switched : Nat) (s : State) :
    WindowKept s (execGroupRebuildDone g switched s) := by
  simp only [execGroupRebuildDone]
  (repeat' split) <;> simp

@[simp] theorem windowKept_execGroupEvacuationDone (g : Slice) (left : Nat) (s : State) :
    WindowKept s (execGroupEvacuationDone g left s) := by
  simp only [execGroupEvacuationDone]
  (repeat' split) <;> simp

@[simp] theorem window_retireMember (s : State) (n : Nat) : (s.retireMember n).gen.window = s.gen.window := by
  simp [State.retireMember]

/-! Routes, the replicas and Proofing -/

@[simp] theorem windowKept_execLpmAdd (r : Ring) (rec : Dma) (s : State) : WindowKept s (execLpmAdd r rec s) := by
  simp [execLpmAdd]

@[simp] theorem windowKept_execLpmModify (r : Ring) (rec : Dma) (s : State) : WindowKept s (execLpmModify r rec s) := by
  simp only [execLpmModify, windowKept_next]
  refine inside_of_same (window_recCommand _ _ _ _ _ _ fun _ _ u => ?_)
  (repeat' split) <;> simp

@[simp] theorem windowKept_execLpmDelete (r : Ring) (rec : Dma) (s : State) : WindowKept s (execLpmDelete r rec s) := by
  simp only [execLpmDelete, windowKept_next]
  refine inside_of_same (window_recCommand _ _ _ _ _ _ fun _ _ u => ?_)
  (repeat' split) <;> simp

@[simp] theorem windowKept_execLpmLookupResult (f errors : Nat) (s : State) :
    WindowKept s (execLpmLookupResult f errors s) := by
  simp only [execLpmLookupResult]
  (repeat' split) <;> simp

@[simp] theorem window_proofStatus (s : State) (hi lo v : Nat) : (s.proofStatus hi lo v).gen.window = s.gen.window := by
  simp [State.proofStatus]

@[simp] theorem window_proofError (s : State) (q : Nat) (l : TableLoc) :
    (s.proofError q l).gen.window = s.gen.window := by
  simp only [State.proofError]
  split <;> simp

@[simp] theorem window_proofFix (s : State) (q : Nat) (l : TableLoc) : (s.proofFix q l).gen.window = s.gen.window := by
  simp [State.proofFix]

@[simp] theorem window_proofParity (s : State) (q : Nat) (l : TableLoc) :
    (s.proofParity q l).gen.window = s.gen.window := by
  simp only [State.proofParity]
  split <;> simp

@[simp] theorem window_proofVisit (s : State) (l : TableLoc) : (s.proofVisit l).gen.window = s.gen.window := by
  simp [State.proofVisit]

@[simp] theorem window_proofLapEnd (s : State) : s.proofLapEnd.gen.window = s.gen.window := by
  simp -implicitDefEqProofs [State.proofLapEnd]

@[simp] theorem windowKept_execProofingStep (l : TableLoc) (finding : ProofFinding) (s : State) :
    WindowKept s (execProofingStep l finding s) := by
  simp only [execProofingStep]
  (repeat' split) <;> simp

@[simp] theorem windowKept_execProofRebuild (f : Fn) (s : State) : WindowKept s (execProofRebuild f s) := by
  simp [execProofRebuild]

@[simp] theorem window_rebuildStep (s : State) (l : TableLoc) (next : Nat) :
    (s.rebuildStep l next).gen.window = s.gen.window := by simp [State.rebuildStep]

@[simp] theorem windowKept_execProofRebuildDone (s : State) : WindowKept s (execProofRebuildDone s) := by
  simp [execProofRebuildDone]

/-! The table sequencer -/

@[simp] theorem windowKept_execEmFlush (r : Ring) (s : State) : WindowKept s (execEmFlush r s) := by simp [execEmFlush]

@[simp] theorem window_flushSlot (s : State) (f : Flush) (k : Nat) : (s.flushSlot f k).1.gen.window = s.gen.window := by
  simp only [State.flushSlot]
  (repeat' split) <;> simp

@[simp] theorem window_flushSlots (s : State) (f : Flush) (l : List Nat) :
    (s.flushSlots f l).1.gen.window = s.gen.window := by
  induction l generalizing s f with
  | nil => rfl
  | cons k rest ih => simp [State.flushSlots, ih]

@[simp] theorem window_finishFlush (s : State) (f : Flush) : (s.finishFlush f).gen.window = s.gen.window := by
  simp [State.finishFlush]

@[simp] theorem window_flushStep (s : State) (f : Flush) : (s.flushStep f).gen.window = s.gen.window := by
  simp [State.flushStep]

@[simp] theorem window_copyStep (s : State) (q : Nat) (c : TileCopy) : (s.copyStep q c).gen.window = s.gen.window := by
  simp -implicitDefEqProofs [State.copyStep]

theorem window_routineStep {s t : State} (h : s.routineStep = some t) : t.gen.window = s.gen.window := by
  simp only [State.routineStep] at h
  split at h
  · cases h
  · split at h
    · split at h
      · cases h
      · cases h
        simp
    · split at h
      · cases h
      · split at h
        · cases h
          simp
        · split at h
          · cases h
          · split at h
            · cases h
              simp
            · cases h
              simp
            · split at h
              · cases h
              · obtain ⟨_, -, rfl⟩ := Option.map_eq_some_iff.mp h
                simp

@[simp] theorem window_routineSteps (s : State) (n : Nat) : (s.routineSteps n).gen.window = s.gen.window := by
  induction n generalizing s with
  | zero => rfl
  | succ n ih =>
    simp only [State.routineSteps]
    split
    · next stepped => exact (ih _).trans (window_routineStep stepped)
    · rfl

@[simp] theorem windowKept_execSeqRoutineResume (steps : Nat) (s : State) :
    WindowKept s (execSeqRoutineResume steps s) := by simp [execSeqRoutineResume]

@[simp] theorem windowKept_execSeqMachineCheck (cause : Fin 7) (addr : BitVec 12) (inPatch : Bool) (s : State) :
    WindowKept s (execSeqMachineCheck cause addr inPatch s) := by simp [execSeqMachineCheck]

theorem window_loadBundle {s t : State} {b : Bytes} (h : s.loadBundle b = some t) : t.gen.window = s.gen.window := by
  simp only [State.loadBundle] at h
  split at h
  · split at h
    · cases h
    · cases h
      simp
  · split at h
    · cases h
    · cases h
      simp
  · cases h

/-! Fault events, the order of retirements, the sparing of rule tiles, record holdoffs and fault injection -/

@[simp] theorem window_faultWith (s : State) (n cause detail k : Nat) :
    (s.faultWith n cause detail k).gen.window = s.gen.window := by simp [State.faultWith]

@[simp] theorem windowKept_execFaultEvent (n : Nat) (cause : BitVec 8) (detail : BitVec 64) (count : Nat) (s : State) :
    WindowKept s (execFaultEvent n cause detail count s) := by simp [execFaultEvent]

@[simp] theorem windowKept_execFaultHoldoffEnd (n : Nat) (s : State) : WindowKept s (execFaultHoldoffEnd n s) := by
  simp [execFaultHoldoffEnd]

@[simp] theorem window_loseTile (s : State) (q n p : Nat) : (s.loseTile q n p).gen.window = s.gen.window := by
  simp [State.loseTile]

@[simp] theorem window_startTileCopy (s : State) (q n p t : Nat) :
    (s.startTileCopy q n p t).gen.window = s.gen.window := by
  simp only [State.startTileCopy]
  split <;> simp

@[simp] theorem windowKept_execTileCopyDone (q : Quad) (good : Bool) (s : State) :
    WindowKept s (execTileCopyDone q good s) := by
  simp only [execTileCopyDone]
  split <;> simp

@[simp] theorem window_startRetirement (s : State) (n : Nat) : (s.startRetirement n).gen.window = s.gen.window := by
  simp only [State.startRetirement]
  (repeat' split) <;> simp

@[simp] theorem windowKept_execRetirementStart (n : Nat) (s : State) : WindowKept s (execRetirementStart n s) := by
  simp [execRetirementStart]

@[simp] theorem window_injectFaults (s : State) (v : Nat) : (s.injectFaults v).gen.window = s.gen.window := by
  simp only [State.injectFaults]
  split <;> simp

@[simp] theorem window_injectWrite (s : State) (f : Fn) (m : RegAt) (size v : Nat) :
    (s.injectWrite f m size v).gen.window = s.gen.window := by
  simp only [State.injectWrite]
  split <;> simp -implicitDefEqProofs

@[simp] theorem window_injectRow (s : State) (f : Fn) (type v : Nat) :
    (s.injectRow f type v).gen.window = s.gen.window := by
  simp [State.injectRow]

@[simp] theorem windowKept_execInjectEvent (f : Fn) (v : BitVec 64) (s : State) :
    WindowKept s (execInjectEvent f v s) := by simp [execInjectEvent]

@[simp] theorem windowKept_execInjectCorrupt (f : Fn) (v : BitVec 64) (s : State) :
    WindowKept s (execInjectCorrupt f v s) := by simp [execInjectCorrupt]

@[simp] theorem windowKept_execInjectCritical (f : Fn) (v : BitVec 64) (s : State) :
    WindowKept s (execInjectCritical f v s) := by simp [execInjectCritical]

/-! Sensors and Cones, the Kiln Record's commits and histograms, the SMBus answers, performance shadows and telemetry -/

@[simp] theorem window_alarmCheck (s : State) (sensors : List Nat) :
    (s.alarmCheck sensors).gen.window = s.gen.window := by
  simp only [State.alarmCheck]
  (repeat' split) <;> simp

@[simp] theorem window_sense (s : State) (r : Readings) : (s.sense r).gen.window = s.gen.window := by simp [State.sense]

@[simp] theorem windowKept_execThermalAlarm (sensor : Fin 64) (q : Int) (s : State) :
    WindowKept s (execThermalAlarm sensor q s) := by simp [execThermalAlarm]

@[simp] theorem window_turnRing (s : State) (failing : List Nat) (n : Nat) :
    (s.turnRing failing n).gen.window = s.gen.window := by
  induction n generalizing s with
  | zero => rfl
  | succ n ih => simp [State.turnRing, ih]

@[simp] theorem window_writeRing (s : State) (failing : List Nat) (kind ckSeq : Nat) :
    (s.writeRing failing kind ckSeq).2.gen.window = s.gen.window := by simp [State.writeRing]

@[simp] theorem window_writeLogPage (s : State) (failing : List Nat) :
    (s.writeLogPage failing).gen.window = s.gen.window := by simp [State.writeLogPage]

@[simp] theorem window_writeLogPages (s : State) (failing : List Nat) :
    (s.writeLogPages failing).gen.window = s.gen.window := by simp [State.writeLogPages]

@[simp] theorem window_writeCheckpoint (s : State) (failing : List Nat) :
    (s.writeCheckpoint failing).gen.window = s.gen.window := by simp [State.writeCheckpoint]

@[simp] theorem window_telemetryRecord (s : State) (ring seq buf kind sensor : Nat) (value : Int) (time : Nat) :
    (s.telemetryRecord ring seq buf kind sensor value time).gen.window = s.gen.window := by simp [State.telemetryRecord]

@[simp] theorem window_measureCone (s : State) (i f : Nat) : (s.measureCone i f).gen.window = s.gen.window := by
  simp only [State.measureCone]
  (repeat' split) <;> simp

@[simp] theorem window_eyeHour (s : State) (readings : List (Nat × Int)) :
    (s.eyeHour readings).gen.window = s.gen.window := by
  refine window_runOver (fun r u => ?_) _ _
  split <;> simp

@[simp] theorem windowKept_execKilnCommit (cones : List Nat) (eyes : List (Nat × Int)) (failing : List Nat)
    (s : State) :
    WindowKept s (execKilnCommit cones eyes failing s) := by simp [execKilnCommit]

@[simp] theorem windowKept_execKilnLogPageWrite (failing : List Nat) (s : State) :
    WindowKept s (execKilnLogPageWrite failing s) := by simp [execKilnLogPageWrite]

@[simp] theorem windowKept_execHistogramMinute (r : Readings) (s : State) : WindowKept s (execHistogramMinute r s) := by
  simp [execHistogramMinute]

@[simp] theorem windowKept_execHealthRefresh (r : Readings) (s : State) : WindowKept s (execHealthRefresh r s) := by
  simp [execHealthRefresh]

@[simp] theorem windowKept_execSmbusStatusRead (s : State) : WindowKept s (execSmbusStatusRead s) := by
  simp [execSmbusStatusRead]

@[simp] theorem windowKept_execSmbusHealthRead (s : State) : WindowKept s (execSmbusHealthRead s) := by
  simp [execSmbusHealthRead]

@[simp] theorem window_latchShadows (s : State) :
    s.latchShadows.gen.window = s.gen.window := by simp [State.latchShadows]

@[simp] theorem windowKept_execTelemetrySnapshot (r : Readings) (s : State) :
    WindowKept s (execTelemetrySnapshot r s) := by
  simp only [execTelemetrySnapshot]
  split <;> simp

/-! The mailbox and its commands -/

@[simp] theorem window_mailStatus (s : State) (f : Fn) (hi lo v : Nat) :
    (s.mailStatus f hi lo v).gen.window = s.gen.window := by simp [State.mailStatus]

@[simp] theorem window_mailGo (s : State) (f : Fn) : (s.mailGo f).gen.window = s.gen.window := by simp [State.mailGo]

@[simp] theorem windowKept_execMailboxGo (f : Fn) (s : State) : WindowKept s (execMailboxGo f s) := by
  simp [execMailboxGo]

@[simp] theorem window_mailAnswer (s : State) (f : Fn) (st : MailStatus) (info : Nat) (result : Bytes) :
    (s.mailAnswer f st info result).gen.window = s.gen.window := by
  simp only [State.mailAnswer]
  split <;> simp

@[simp] theorem window_mailDeny (s : State) (f : Fn) :
    (s.mailDeny f).gen.window = s.gen.window := by simp [State.mailDeny]

@[simp] theorem window_mailCommand (s : State) (f : Fn) (op : Nat) (fns : List Fn) (badArg : Bytes → Bool)
    (modes : Mode → Bool) (run : Bytes → State → State) (hrun : ∀ a u, (run a u).gen.window = u.gen.window) :
    (s.mailCommand f op fns badArg modes run).gen.window = s.gen.window := by
  simp only [State.mailCommand]
  split <;> simp [hrun]

@[simp] theorem window_dropStaged (s : State) : s.dropStaged.gen.window = s.gen.window := by simp [State.dropStaged]

@[simp] theorem window_endStaging (s : State) : s.endStaging.gen.window = s.gen.window := by
  simp only [State.endStaging]
  split <;> simp

@[simp] theorem window_mailOther (s : State) (f : Fn) : (s.mailOther f).gen.window = s.gen.window := by
  simp only [State.mailOther]
  split <;> simp

@[simp] theorem windowKept_execMailboxResponse (f : Fn) (s : State) : WindowKept s (execMailboxResponse f s) := by
  simp only [execMailboxResponse]
  split <;> simp -implicitDefEqProofs

@[simp] theorem windowKept_execGetInfo (f : Fn) (s : State) : WindowKept s (execGetInfo f s) := by simp [execGetInfo]

@[simp] theorem windowKept_execSensorRead (f : Fn) (r : Readings) (written : Bool) (s : State) :
    WindowKept s (execSensorRead f r written s) := by simp [execSensorRead]

@[simp] theorem windowKept_execFwStage (f : Fn) (image : Dma) (sigOk flashOk : Bool) (s : State) :
    WindowKept s (execFwStage f image sigOk flashOk s) := by
  simp only [execFwStage]
  split <;> simp

@[simp] theorem windowKept_execFwActivate (f : Fn) (s : State) : WindowKept s (execFwActivate f s) := by
  simp [execFwActivate]

@[simp] theorem windowKept_execKrRead (f : Fn) (written : Bool) (s : State) :
    WindowKept s (execKrRead f written s) := by
  simp only [execKrRead, windowKept_next]
  refine inside_of_same (window_mailCommand _ _ _ _ _ _ _ fun _ u => ?_)
  (repeat' split) <;> simp

@[simp] theorem windowKept_execModI2c (f : Fn) (host : Dma) (bus : Option Bytes) (written : Bool) (s : State) :
    WindowKept s (execModI2c f host bus written s) := by
  simp only [execModI2c]
  (repeat' split) <;> simp

@[simp] theorem windowKept_execMdio (f : Fn) (valueRead : BitVec 16) (s : State) :
    WindowKept s (execMdio f valueRead s) := by simp [execMdio]

@[simp] theorem windowKept_execTelemCfg (f : Fn) (s : State) : WindowKept s (execTelemCfg f s) := by simp [execTelemCfg]

@[simp] theorem windowKept_execPatchLoad (f : Fn) (bundle : Bytes) (s : State) :
    WindowKept s (execPatchLoad f bundle s) := by
  refine inside_of_same (window_mailCommand _ _ _ _ _ _ _ fun q u => ?_)
  split
  · simp
  · split
    · simp
    · split
      · next loaded => simp [window_loadBundle loaded]
      · simp

/-! The settings that change a limited number of times and the fuse controller -/

@[simp] theorem window_queueFuse (s : State) (o : FuseOp) : (s.queueFuse o).gen.window = s.gen.window := by
  simp [State.queueFuse]

@[simp] theorem window_mailFuse (s : State) (f : Fn) (id index value : Nat) :
    (s.mailFuse f id index value).gen.window = s.gen.window := by simp [State.mailFuse]

@[simp] theorem window_fuseRequest (s : State) (f : Fn) (id : Nat) (owner : Fn) (modes : Mode → Bool) :
    (s.fuseRequest f id owner modes).gen.window = s.gen.window := by
  simp only [State.fuseRequest]
  split <;> simp

@[simp] theorem windowKept_execFuseBypassDisable (f : Fn) (s : State) : WindowKept s (execFuseBypassDisable f s) := by
  simp [execFuseBypassDisable]

@[simp] theorem windowKept_execFuseDebugLock (f : Fn) (s : State) : WindowKept s (execFuseDebugLock f s) := by
  simp [execFuseDebugLock]

@[simp] theorem windowKept_execFuseFtLockout (f : Fn) (s : State) : WindowKept s (execFuseFtLockout f s) := by
  simp [execFuseFtLockout]

@[simp] theorem windowKept_execFuseDomainLock (f : Fn) (s : State) : WindowKept s (execFuseDomainLock f s) := by
  simp [execFuseDomainLock]

@[simp] theorem windowKept_execFuseAssetTag (f : Fn) (s : State) : WindowKept s (execFuseAssetTag f s) := by
  simp [execFuseAssetTag]

@[simp] theorem windowKept_execArbAdvance (f : Fn) (s : State) : WindowKept s (execArbAdvance f s) := by
  simp [execArbAdvance]

@[simp] theorem windowKept_execKekAdvance (r : Ring) (s : State) : WindowKept s (execKekAdvance r s) := by
  simp [execKekAdvance]

@[simp] theorem window_ageSlots (s : State) : s.ageSlots.gen.window = s.gen.window := by simp [State.ageSlots]

@[simp] theorem window_fuseAnswer (s : State) (o : FuseOp) (good : Bool) (n : Nat) :
    (s.fuseAnswer o good n).gen.window = s.gen.window := by
  simp only [State.fuseAnswer]
  split <;> simp

@[simp] theorem window_gateFuse (s : State) : s.gateFuse.gen.window = s.gen.window := by simp [State.gateFuse]

@[simp] theorem window_recoverIntents (s : State) : s.recoverIntents.gen.window = s.gen.window := by
  simp [State.recoverIntents]

@[simp] theorem windowKept_execFuseOperation (back : FuseReadBack) (s : State) :
    WindowKept s (execFuseOperation back s) := by
  simp only [execFuseOperation]
  (repeat' split) <;> simp

/-! Meanings of the doorbells and of the ring events -/

@[simp] theorem window_ignoreDoorbell (s : State) (req : Requester) :
    (s.ignoreDoorbell req).gen.window = s.gen.window := by
  simp [State.ignoreDoorbell]

@[simp] theorem window_bar2Write (s : State) (req : Requester) (off size value : Nat) :
    (s.bar2Write req off size value).gen.window = s.gen.window := by
  simp only [State.bar2Write]
  split <;> simp

@[simp] theorem window_applyIndex (s : State) (req : Requester) (r index : Nat) :
    (s.applyIndex req r index).gen.window = s.gen.window := by simp [State.applyIndex]

@[simp] theorem windowKept_execDoorbellIndex (req : Requester) (off size : Nat) (value : BitVec 64) (s : State) :
    WindowKept s (execDoorbellIndex req off size value s) := by
  simp only [execDoorbellIndex]
  split <;> simp

@[simp] theorem window_applyContext (s : State) (r : Nat) (c : RingCtx) :
    (s.applyContext r c).gen.window = s.gen.window := by simp [State.applyContext]

@[simp] theorem windowKept_execDoorbellInvalidate (req : Requester) (off size : Nat) (value : BitVec 64) (ctx : Dma)
    (s : State) :
    WindowKept s (execDoorbellInvalidate req off size value ctx s) := by
  simp only [execDoorbellInvalidate]
  (repeat' split) <;> simp

@[simp] theorem windowKept_execDoorbellResume (req : Requester) (off size : Nat) (value : BitVec 64) (s : State) :
    WindowKept s (execDoorbellResume req off size value s) := by
  simp only [execDoorbellResume]
  split <;> simp

@[simp] theorem windowKept_execDeferredRingEnable (r : Ring) (s : State) :
    WindowKept s (execDeferredRingEnable r s) := by
  simp only [execDeferredRingEnable]
  split <;> simp

@[simp] theorem window_fetchDescriptor (s : State) (r : Nat) (res : FetchResult) :
    (s.fetchDescriptor r res).gen.window = s.gen.window := by
  simp only [State.fetchDescriptor]
  (repeat' split) <;> simp

@[simp] theorem windowKept_execDescriptorFetch (r : Ring) (res : FetchResult) (s : State) :
    WindowKept s (execDescriptorFetch r res s) := by simp [execDescriptorFetch]

@[simp] theorem windowKept_execRingStopped (r : Ring) (s : State) : WindowKept s (execRingStopped r s) := by
  simp [execRingStopped]

@[simp] theorem windowKept_execNop (r : Ring) (s : State) : WindowKept s (execNop r s) := by simp [execNop]

@[simp] theorem windowKept_execEventOverflowRecord (r : Ring) (s : State) :
    WindowKept s (execEventOverflowRecord r s) := by simp [execEventOverflowRecord]

@[simp] theorem windowKept_execIrqHoldoffEnd (r : Ring) (s : State) : WindowKept s (execIrqHoldoffEnd r s) := by
  simp [execIrqHoldoffEnd]

/-! The policers, and a frame's combined result and what it does -/

@[simp] theorem window_meterFrame (s : State) (f : Nat) : (s.meterFrame f).gen.window = s.gen.window := by
  simp only [State.meterFrame]
  split <;> simp

@[simp] theorem windowKept_execPolicerMeter (q : Quad) (s : State) : WindowKept s (execPolicerMeter q s) := by
  simp only [execPolicerMeter]
  split <;> simp

@[simp] theorem windowKept_execPolicerLate (f : Nat) (s : State) : WindowKept s (execPolicerLate f s) := by
  simp [execPolicerLate]

@[simp] theorem window_sampleFrame (s : State) (f : Nat) : (s.sampleFrame f).gen.window = s.gen.window := by
  simp only [State.sampleFrame]
  split
  · rfl
  · split
    · rfl
    · split
      · simp
      · next taken => simp [window_takeToken taken]

theorem window_copyTake {s t : State} {ring q meter : Nat} (h : s.copyTake ring q meter = some t) :
    t.gen.window = s.gen.window :=
  window_puntTake h

@[simp] theorem window_meteredPunt (s : State) (f ring meter kind cls lentry drop : Nat) :
    (s.meteredPunt f ring meter kind cls lentry drop).gen.window = s.gen.window := by
  simp only [State.meteredPunt]
  split
  · next taken => simp [window_copyTake taken]
  · simp

@[simp] theorem window_hostCopy (s : State) (f cls : Nat) : (s.hostCopy f cls).gen.window = s.gen.window := by
  simp only [State.hostCopy]
  split
  · rfl
  · split
    · next taken => simp [window_copyTake taken]
    · simp

@[simp] theorem window_integrityPunt (s : State) (f k : Nat) : (s.integrityPunt f k).gen.window = s.gen.window := by
  simp [State.integrityPunt]

@[simp] theorem window_applyBroken (s : State) (f : Nat) : (s.applyBroken f).gen.window = s.gen.window := by
  simp [State.applyBroken]

@[simp] theorem window_sendEncrypted (s : State) (f c requester : Nat) :
    (s.sendEncrypted f c requester).gen.window = s.gen.window := by
  simp only [State.sendEncrypted]
  split <;> simp

@[simp] theorem window_sendPlain (s : State) (f port : Nat) (byp : Option Nat) (requester : Nat) :
    (s.sendPlain f port byp requester).gen.window = s.gen.window := by simp [State.sendPlain]

@[simp] theorem window_rulePunt (s : State) (f cls : Nat) : (s.rulePunt f cls).gen.window = s.gen.window := by
  simp [State.rulePunt]

@[simp] theorem window_basePunt (s : State) (f cls : Nat) : (s.basePunt f cls).gen.window = s.gen.window := by
  simp [State.basePunt]

@[simp] theorem window_applyVerdict (s : State) (f : Nat) (p : Plan) :
    (s.applyVerdict f p).gen.window = s.gen.window := by
  simp only [State.applyVerdict]
  split <;> simp

@[simp] theorem window_mirrorCopy (s : State) (x : Frame) : (s.mirrorCopy x).gen.window = s.gen.window := by
  simp [State.mirrorCopy]

@[simp] theorem window_applyPlan (s : State) (f : Nat) : (s.applyPlan f).gen.window = s.gen.window := by
  simp [State.applyPlan]

@[simp] theorem windowKept_execResultApply (f : Nat) (s : State) : WindowKept s (execResultApply f s) := by
  simp [execResultApply]

/-! Injected frames and reads of counter pairs -/

@[simp] theorem window_putRun (s : State) (r status : Nat) (l : List Bytes) :
    (s.putRun r status l).gen.window = s.gen.window := by simp [State.putRun]

@[simp] theorem window_admitLookup (s : State) (h : Bytes) (x : Frame) :
    (s.admitLookup h x).gen.window = s.gen.window := by
  simp [State.admitLookup]

@[simp] theorem window_admitDirect (s : State) (h : Bytes) (x : Frame) :
    (s.admitDirect h x).gen.window = s.gen.window := by
  simp [State.admitDirect]

@[simp] theorem window_admitRun (s : State) (h frame : Bytes) (cookie : Nat) :
    (s.admitRun h frame cookie).gen.window = s.gen.window := by simp [State.admitRun]

@[simp] theorem windowKept_execInjectAdmit (r : Ring) (data : Dma) (s : State) :
    WindowKept s (execInjectAdmit r data s) := by
  simp only [execInjectAdmit]
  (repeat' split) <;> simp

@[simp] theorem window_flushOldPairs (s : State) :
    s.flushOldPairs.gen.window = s.gen.window := by simp [State.flushOldPairs]

@[simp] theorem windowKept_execCntRead (r : Ring) (written : Bool) (s : State) :
    WindowKept s (execCntRead r written s) := by simp [execCntRead]

@[simp] theorem windowKept_execCounterPairFlush (i : Nat) (s : State) : WindowKept s (execCounterPairFlush i s) := by
  simp [execCounterPairFlush]

/-! The mode commands -/

@[simp] theorem window_resumeProfile (s : State) (c : Nat) : (s.resumeProfile c).gen.window = s.gen.window := by
  simp only [State.resumeProfile]
  (repeat' split) <;> simp

@[simp] theorem windowKept_execForward (r : Ring) (s : State) : WindowKept s (execForward r s) := by simp [execForward]

@[simp] theorem windowKept_execDrain (r : Ring) (s : State) : WindowKept s (execDrain r s) := by simp [execDrain]

@[simp] theorem windowKept_execDrainDone (s : State) : WindowKept s (execDrainDone s) := by simp [execDrainDone]

@[simp] theorem window_rest (s : State) : s.rest.gen.window = s.gen.window := by simp [State.rest]

@[simp] theorem windowKept_execStandby (r : Ring) (s : State) : WindowKept s (execStandby r s) := by simp [execStandby]

@[simp] theorem window_wake (s : State) : s.wake.gen.window = s.gen.window := by simp [State.wake]

@[simp] theorem windowKept_execStandbyWake (s : State) : WindowKept s (execStandbyWake s) := by simp [execStandbyWake]

@[simp] theorem windowKept_execSafeExit (r : Ring) (s : State) :
    WindowKept s (execSafeExit r s) := by simp [execSafeExit]

@[simp] theorem windowKept_execSafeExitLapse (s : State) : WindowKept s (execSafeExitLapse s) := by
  simp [execSafeExitLapse]

@[simp] theorem window_confirmTrial (s : State) :
    s.confirmTrial.gen.window = s.gen.window := by simp [State.confirmTrial]

@[simp] theorem window_leaveSafe (s : State) : s.leaveSafe.gen.window = s.gen.window := by simp [State.leaveSafe]

@[simp] theorem windowKept_execSafeExitConfirm (r : Ring) (measured : List Nat) (s : State) :
    WindowKept s (execSafeExitConfirm r measured s) := by simp [execSafeExitConfirm]

/-! General counters, snapshots, bandwidth windows and sampling -/

@[simp] theorem window_snapWrite (s : State) (f : Fn) : (s.snapWrite f).gen.window = s.gen.window := by
  simp [State.snapWrite]

@[simp] theorem windowKept_execPmcSnapshot (f : Fn) (s : State) : WindowKept s (execPmcSnapshot f s) := by
  simp [execPmcSnapshot]

@[simp] theorem window_pmcCntWrite (s : State) (f : Fn) (n off size v : Nat) :
    (s.pmcCntWrite f n off size v).gen.window = s.gen.window := by simp [State.pmcCntWrite]

@[simp] theorem windowKept_execPmcCounterWrite (f : Fn) (n : Fin 4096) (size : Nat) (v : BitVec 64) (s : State) :
    WindowKept s (execPmcCounterWrite f n size v s) := by simp [execPmcCounterWrite]

@[simp] theorem window_askClearPeak (s : State) : s.askClearPeak.gen.window = s.gen.window := by
  simp -implicitDefEqProofs [State.askClearPeak]

@[simp] theorem windowKept_execBwClrPeak (f : Fn) (s : State) : WindowKept s (execBwClrPeak f s) := by
  simp [execBwClrPeak]

@[simp] theorem window_closeWindow (s : State) (clear : Bool) (p : Nat) :
    (s.closeWindow clear p).gen.window = s.gen.window := by simp -implicitDefEqProofs [State.closeWindow]

@[simp] theorem windowKept_execBwWindowEnd (s : State) : WindowKept s (execBwWindowEnd s) := by
  simp -implicitDefEqProofs [execBwWindowEnd]

@[simp] theorem window_restartWindows (s : State) : s.restartWindows.gen.window = s.gen.window := by
  simp -implicitDefEqProofs [State.restartWindows]

@[simp] theorem window_loadLfsrs (s : State) : s.loadLfsrs.gen.window = s.gen.window := by simp [State.loadLfsrs]

@[simp] theorem window_sampWrite (s : State) (f : Fn) (m : RegAt) (size v : Nat) :
    (s.sampWrite f m size v).gen.window = s.gen.window := by
  simp only [State.sampWrite]
  split <;> simp

@[simp] theorem windowKept_execSamplingEnable (f : Fn) (v : BitVec 64) (s : State) :
    WindowKept s (execSamplingEnable f v s) := by simp [execSamplingEnable]

/-! The policer commands -/

@[simp] theorem window_fillPolicer (s : State) (n : Nat) (born : Gen) :
    (s.fillPolicer n born).gen.window = s.gen.window := by simp [State.fillPolicer]

@[simp] theorem windowKept_execPolWrite (r : Ring) (rec : Dma) (s : State) : WindowKept s (execPolWrite r rec s) := by
  simp [execPolWrite]

@[simp] theorem windowKept_execPolDelete (r : Ring) (s : State) : WindowKept s (execPolDelete r s) := by
  simp only [execPolDelete, windowKept_next]
  refine inside_of_same (window_seqCommand _ _ _ _ _ fun _ u => ?_)
  (repeat' split) <;> simp

@[simp] theorem windowKept_execPolRead (r : Ring) (written : Bool) (s : State) :
    WindowKept s (execPolRead r written s) := by
  simp only [execPolRead, windowKept_next]
  refine inside_of_same (window_resultCommand _ _ _ _ _ fun _ u => ?_)
  (repeat' split) <;> simp

/-! The receive path of Glaze -/

@[simp] theorem window_setLane (s : State) (f : Nat) (l : Option Nat) : (s.setLane f l).gen.window = s.gen.window := by
  simp [State.setLane]

@[simp] theorem window_assignLanes (s : State) (i : Nat) : (s.assignLanes i).gen.window = s.gen.window := by
  refine window_runOver (fun f u => ?_) _ _
  split
  · split <;> simp
  · rfl

@[simp] theorem window_touchRx (s : State) (i sa : Nat) : (s.touchRx i sa).gen.window = s.gen.window := by
  simp [State.touchRx]

@[simp] theorem window_noSa (s : State) (f : Nat) (held : Option Nat) : (s.noSa f held).gen.window = s.gen.window := by
  simp only [State.noSa]
  split <;> simp

@[simp] theorem window_saFound (s : State) (f : Nat) (p : SecPart) (i : Nat) (a : Sa) (mode : Nat) :
    (s.saFound f p i a mode).gen.window = s.gen.window := by simp [State.saFound]

@[simp] theorem window_noSecondSa (s : State) (f : Nat) : (s.noSecondSa f).gen.window = s.gen.window := by
  simp [State.noSecondSa]

@[simp] theorem windowKept_execRxSaResolve (f : Nat) (s : State) : WindowKept s (execRxSaResolve f s) := by
  simp only [execRxSaResolve]
  (repeat' split) <;> simp

@[simp] theorem window_circuitPair (s : State) (c k len : Nat) : (s.circuitPair c k len).gen.window = s.gen.window := by
  simp [State.circuitPair]

@[simp] theorem window_plainDone (s : State) (f kind : Nat) (d : Bytes) :
    (s.plainDone f kind d).gen.window = s.gen.window := by simp [State.plainDone]

@[simp] theorem windowKept_execDecryptComplete (f : Nat) (laneFail : Bool) (s : State) :
    WindowKept s (execDecryptComplete f laneFail s) := by
  simp only [execDecryptComplete]
  (repeat' split) <;> simp

@[simp] theorem windowKept_execReplayCheck (f : Nat) (s : State) : WindowKept s (execReplayCheck f s) := by
  simp only [execReplayCheck]
  (repeat' split) <;> simp

/-! Function Level Reset, the reset sources and domains, option loading, boot, bring-up and per-block resets -/

@[simp] theorem window_msixFlr (s : State) (t : Requester) : (s.msixFlr t).gen.window = s.gen.window := by
  simp [State.msixFlr]

@[simp] theorem window_mailFlr (s : State) (f : Fn) : (s.mailFlr f).gen.window = s.gen.window := by simp [State.mailFlr]

@[simp] theorem window_flr (s : State) (t : Requester) : (s.flr t).gen.window = s.gen.window := by
  simp only [State.flr]
  split <;> simp

@[simp] theorem windowKept_execFunctionLevelReset (t : Requester) (s : State) :
    WindowKept s (execFunctionLevelReset t s) := by simp [execFunctionLevelReset]

@[simp] theorem window_clearRegs (s : State) (ds : List Nat) : (s.clearRegs ds).gen.window = s.gen.window := by
  simp [State.clearRegs]

@[simp] theorem window_clearDatapath (s : State) : s.clearDatapath.gen.window = (0, 0) := by simp [State.clearDatapath]

@[simp] theorem window_resetFaults (s : State) : s.resetFaults.gen.window = s.gen.window := by
  simp only [State.resetFaults]
  split <;> simp

@[simp] theorem window_resetDatapath (s : State) (cause : Nat) : (s.resetDatapath cause).gen.window = (0, 0) := by
  simp [State.resetDatapath]

@[simp] theorem window_resetManagement (s : State) (cause : Nat) : (s.resetManagement cause).gen.window = (0, 0) := by
  simp [State.resetManagement]

@[simp] theorem window_resetAll (s : State) (cause : Nat) : (s.resetAll cause).gen.window = (0, 0) := by
  simp [State.resetAll]

@[simp] theorem window_logReset (s : State) (cause before restarts : Nat) :
    (s.logReset cause before restarts).gen.window = s.gen.window := by simp [State.logReset]

@[simp] theorem window_tryBringup (s : State) : s.tryBringup.gen.window = s.gen.window := by simp [State.tryBringup]

@[simp] theorem windowKept_execPowerOn (s : State) : WindowKept s (execPowerOn s) := by simp [execPowerOn]

@[simp] theorem windowKept_execResetNAssert (cycles : Nat) (s : State) : WindowKept s (execResetNAssert cycles s) := by
  simp only [execResetNAssert, windowKept_next]
  intro inside
  simp [inside]

@[simp] theorem windowKept_execResetNDeassert (s : State) : WindowKept s (execResetNDeassert s) := by
  simp [execResetNDeassert]

@[simp] theorem windowKept_execPerstAssert (s : State) : WindowKept s (execPerstAssert s) := by
  simp only [execPerstAssert, windowKept_next]
  intro inside
  simp [inside]

@[simp] theorem windowKept_execPerstDeassert (s : State) : WindowKept s (execPerstDeassert s) := by
  simp [execPerstDeassert]

@[simp] theorem windowKept_execPcieHotReset (s : State) :
    WindowKept s (execPcieHotReset s) := by simp [execPcieHotReset]

/-- A write that has a row of its own keeps the window inside where its action does. -/
theorem inside_rowWrite {s : State} {act : State → State} (f : Fn) (r : RegName) (i j : Nat)
    (h : ∀ u : State, Inside u.gen.window → Inside (act u).gen.window) (inside : Inside s.gen.window) :
    Inside (s.rowWrite f r i j act).gen.window := by
  simp only [State.rowWrite]
  split
  · exact inside
  · split
    · simpa using inside
    · exact h s inside

@[simp] theorem windowKept_execSoftwareDeviceReset (f : Fn) (key : BitVec 8) (s : State) :
    WindowKept s (execSoftwareDeviceReset f key s) := by
  simp only [execSoftwareDeviceReset, windowKept_next]
  refine inside_rowWrite _ _ _ _ fun u inside => ?_
  split <;> simp [inside]

@[simp] theorem windowKept_execWatchdogWarning (s : State) : WindowKept s (execWatchdogWarning s) := by
  simp [execWatchdogWarning]

@[simp] theorem windowKept_execWatchdogExpire (s : State) : WindowKept s (execWatchdogExpire s) := by
  simp only [execWatchdogExpire]
  split <;> simp

@[simp] theorem windowKept_execDomainRelease (d : Fin 8) (s : State) : WindowKept s (execDomainRelease d s) := by
  simp [execDomainRelease]

@[simp] theorem window_trainLink (s : State) : s.trainLink.gen.window = s.gen.window := by simp [State.trainLink]

@[simp] theorem windowKept_execDomainReady (d : Fin 8) (s : State) : WindowKept s (execDomainReady d s) := by
  simp [execDomainReady]

@[simp] theorem windowKept_execOptionLoadPhaseDone (agree testEn pcieLrev : Bool) (s : State) :
    WindowKept s (execOptionLoadPhaseDone agree testEn pcieLrev s) := by simp [execOptionLoadPhaseDone]

@[simp] theorem windowKept_execLoadStall (s : State) : WindowKept s (execLoadStall s) := by simp [execLoadStall]

@[simp] theorem windowKept_execLoadStallClear (s : State) : WindowKept s (execLoadStallClear s) := by
  simp [execLoadStallClear]

@[simp] theorem window_logFallback (s : State) (x : Bool) : (s.logFallback x).gen.window = s.gen.window := by
  simp [State.logFallback]

@[simp] theorem window_startImage (s : State) (x trial : Bool) : (s.startImage x trial).gen.window = s.gen.window := by
  simp [State.startImage]

@[simp] theorem windowKept_execBootSelect (checkA checkB : SlotState) (s : State) :
    WindowKept s (execBootSelect checkA checkB s) := by simp [execBootSelect]

@[simp] theorem window_bootBundle (s : State) (b : Bytes) : (s.bootBundle b).gen.window = s.gen.window := by
  rw [State.bootBundle]
  cases h : s.loadBundle b with
  | none => rfl
  | some t => exact window_loadBundle h

@[simp] theorem window_bringupFails (s : State) (n : Nat) : (s.bringupFails n).gen.window = s.gen.window := by
  simp only [State.bringupFails]
  (repeat' split) <;> simp

@[simp] theorem windowKept_execEwethesStart (bundles : List Bytes) (seqOk : Bool) (failed : List Nat) (s : State) :
    WindowKept s (execEwethesStart bundles seqOk failed s) := by simp [execEwethesStart]

@[simp] theorem window_enterTest (s : State) : s.enterTest.gen.window = s.gen.window := by simp [State.enterTest]

@[simp] theorem windowKept_execBringupEnd (s : State) : WindowKept s (execBringupEnd s) := by simp [execBringupEnd]

@[simp] theorem windowKept_execMonitorUnmask (m : Fin 48) (withinLimits : Bool) (s : State) :
    WindowKept s (execMonitorUnmask m withinLimits s) := by simp [execMonitorUnmask]

@[simp] theorem window_showBlocks (s : State) : s.showBlocks.gen.window = s.gen.window := by
  simp -implicitDefEqProofs [State.showBlocks]

@[simp] theorem window_resetBlocks (s : State) (f : Fn) (addr base n v : Nat) :
    (s.resetBlocks f addr base n v).gen.window = s.gen.window := by simp [State.resetBlocks]

@[simp] theorem windowKept_execRstBlkPort (f : Fn) (n : Fin 4) (v : BitVec 32) (s : State) :
    WindowKept s (execRstBlkPort f n v s) := by simp [execRstBlkPort]

@[simp] theorem windowKept_execRstBlkSlice (f : Fn) (v : BitVec 32) (s : State) :
    WindowKept s (execRstBlkSlice f v s) := by simp [execRstBlkSlice]

@[simp] theorem window_clearSlice (s : State) (i : Nat) : (s.clearSlice i).gen.window = s.gen.window := by
  simp [State.clearSlice]

@[simp] theorem windowKept_execBlockResetDone (b : ResetBlock) (s : State) : WindowKept s (execBlockResetDone b s) := by
  simp only [execBlockResetDone]
  split <;> simp

/-! REGISTER_WRITE -/

@[simp] theorem window_holeWrite (s : State) (f : Fn) (a : Nat) : (s.holeWrite f a).gen.window = s.gen.window := by
  simp [State.holeWrite]

@[simp] theorem window_afterWrite (s : State) (r : RegName) (i j old x : Nat) :
    (s.afterWrite r i j old x).gen.window = s.gen.window := by
  simp only [State.afterWrite]
  split <;> simp

@[simp] theorem window_plainWrite (s : State) (f : Fn) (m : RegAt) (size v : Nat) :
    (s.plainWrite f m size v).gen.window = s.gen.window := by
  simp only [State.plainWrite]
  split <;> simp

@[simp] theorem inside_leftBy {s : State} {o : Host.Outcome State Fault Refusal} (h : WindowKept s o)
    (inside : Inside s.gen.window) : Inside (leftBy o s).gen.window := by
  cases o with
  | next t => exact h inside
  | fault f => exact inside
  | refused r => exact inside

@[simp] theorem window_clearFlags (s : State) (n v : Nat) : (s.clearFlags n v).gen.window = s.gen.window := by
  simp -implicitDefEqProofs [State.clearFlags]

@[simp] theorem window_mailCtrlWrite (s : State) (f : Fn) (m : RegAt) (size v : Nat) :
    (s.mailCtrlWrite f m size v).gen.window = s.gen.window := by simp [State.mailCtrlWrite]

@[simp] theorem inside_proofCtrlWrite (s : State) (f : Fn) (m : RegAt) (size v : Nat) (inside : Inside s.gen.window) :
    Inside (s.proofCtrlWrite f m size v).gen.window := by
  simp only [State.proofCtrlWrite]
  split <;> simp [inside]

@[simp] theorem inside_progCtrlWrite (s : State) (f : Fn) (m : RegAt) (size v : Nat) (inside : Inside s.gen.window) :
    Inside (s.progCtrlWrite f m size v).gen.window := by
  simp only [State.progCtrlWrite]
  split <;> simp [inside]

@[simp] theorem windowKept_execModBudgetWrite (f : Fn) (n : Fin 16) (v : BitVec 32) (classes : List Nat) (s : State) :
    WindowKept s (execModBudgetWrite f n v classes s) := by simp [execModBudgetWrite]

@[simp] theorem inside_writeAt (s : State) (f : Fn) (m : RegAt) (size v : Nat) (inside : Inside s.gen.window) :
    Inside (s.writeAt f m size v).gen.window := by
  simp only [State.writeAt]
  split
  case h_19 | h_20 | h_21 => exact inside_rowWrite _ _ _ _ (fun u h => by simp [h]) inside
  all_goals simp [inside]

@[simp] theorem inside_writePiece (s : State) (f : Fn) (a size v : Nat) (inside : Inside s.gen.window) :
    Inside (s.writePiece f a size v).gen.window := by
  simp only [State.writePiece]
  (repeat' split) <;> simp [inside]

@[simp] theorem windowKept_execRegisterWrite (f : Fn) (a : BitVec 26) (size : Nat) (v : BitVec 64) (s : State) :
    WindowKept s (execRegisterWrite f a size v s) := by
  simp only [execRegisterWrite, State.writeBar0, windowKept_next]
  intro inside
  split
  · simpa using inside
  · split <;> simp [inside]

/-! A frame leaves at a MAC, and frames that wait too long -/

@[simp] theorem window_txTsRecord (s : State) (f : Nat) : (s.txTsRecord f).gen.window = s.gen.window := by
  simp only [State.txTsRecord]
  split <;> simp

@[simp] theorem windowKept_execFrameTxStart (p : Port) (s : State) : WindowKept s (execFrameTxStart p s) := by
  simp only [execFrameTxStart]
  (repeat' split) <;> simp

@[simp] theorem windowKept_execFrameTxEnd (p : Port) (s : State) : WindowKept s (execFrameTxEnd p s) := by
  simp only [execFrameTxEnd]
  (repeat' split) <;> simp

@[simp] theorem window_sweepQueue (s : State) (queue : State → List Nat) (n : Nat) :
    (s.sweepQueue queue n).gen.window = s.gen.window := by
  induction n generalizing s with
  | zero => rfl
  | succ n ih =>
    simp only [State.sweepQueue]
    (repeat' split) <;> simp [ih]

@[simp] theorem window_sweep (s : State) (queue : State → List Nat) : (s.sweep queue).gen.window = s.gen.window := by
  simp [State.sweep]

@[simp] theorem windowKept_execResidencySweep (s : State) : WindowKept s (execResidencySweep s) := by
  simp [execResidencySweep]

/-! What a BAR0 read returns -/

@[simp] theorem window_readCounter (s : State) (f : Fn) (a size : Nat) :
    (s.readCounter f a size).gen.window = s.gen.window := by simp [State.readCounter]

@[simp] theorem windowKept_execCounterHalfRead (f : Fn) (a : BitVec 26) (size : Nat) (s : State) :
    WindowKept s (execCounterHalfRead f a size s) := by simp [execCounterHalfRead]

@[simp] theorem window_readScrub (s : State) (beside : Nat) : (s.readScrub beside).gen.window = s.gen.window := by
  simp -implicitDefEqProofs [State.readScrub]

@[simp] theorem windowKept_execScrubStatusRead (f : Fn) (s : State) : WindowKept s (execScrubStatusRead f s) := by
  simp [execScrubStatusRead]

@[simp] theorem inside_readBar0 (s : State) (f : Fn) (a size : Nat) (inside : Inside s.gen.window) :
    Inside (s.readBar0 f a size).gen.window := by
  simp only [State.readBar0]
  (repeat' split) <;> simp [inside]

@[simp] theorem windowKept_execHoleAccess (bar : Bar) (a : BitVec 26) (size : Nat) (write : Option (BitVec 64))
    (s : State) :
    WindowKept s (execHoleAccess bar a size write s) := by
  simp only [execHoleAccess]
  split
  · simp
  · simp only [windowKept_next]
    intro inside
    split <;> simp [inside]
  all_goals simp

/-- Every command keeps the window inside. -/
theorem windowKept_exec (i : Instr) (s : State) : WindowKept s (exec i s) := by
  cases i <;> simp [exec]

/-- A step keeps the window inside. -/
theorem inside_step {s t : State} (inside : Inside s.gen.window) (steps : step s = .next t) : Inside t.gen.window := by
  rw [step] at steps
  split at steps
  · cases steps
    exact inside
  · next c rest front =>
    have kept := windowKept_exec c { s with pending := rest }
    rw [steps] at kept
    exact kept inside

/-- A window of 2 to 16 live generations: their number, STAGING, and which they are. -/
theorem live_bounds {t : State} (inside : Inside t.gen.window) :
    2 ≤ t.liveCount ∧ t.liveCount ≤ 16 ∧ t.staging.toNat = (t.gen.current.toNat + 1) % 65536 ∧
      ∀ g, t.live g = true ↔
        g = t.staging ∨ (t.gen.current - g).toNat ≤ (t.gen.current - t.gen.oldest).toNat := by
  simp only [Inside, GenCtl.window] at inside
  have stagingAt : (t.gen.current + 1 - t.gen.oldest).toNat = (t.gen.current - t.gen.oldest).toNat + 1 := by bv_omega
  simp only [State.liveCount, State.staging, State.live, stagingAt, decide_eq_true_eq]
  refine ⟨by omega, by omega, by bv_omega, fun g => ?_⟩
  rw [BitVec.toNat_eq]
  constructor
  · bv_omega
  · rintro (h | h) <;> bv_omega

/-- Settles O8: every command keeps CURRENT at most 14 after the oldest generation. -/
theorem liveGenerationsStayInTheirWindow : Obligations.LiveGenerationsStayInTheirWindow := by
  unfold Obligations.LiveGenerationsStayInTheirWindow
  intro s t inside steps
  obtain after : Inside t.gen.window := inside_step (s := s) inside steps
  exact ⟨after, rfl, live_bounds after⟩


end Sys2Proof.Claims

/-! SUPPORT. What goes out only grows: one lemma for each operation that writes to the host, and from it the completion
of a command. Also the step that the table sequencer takes for a command when nothing holds it back. -/

namespace Sys2Proof.Claims

open Sys2Proof.Machine

set_option Elab.async false

/-! A part that is not listed, as an equation -/

theorem OnlyIn.tabs_eq {ps : List Part} {s t : State} (h : OnlyIn ps s t) (hp : Part.tabs ∉ ps := by decide) :
    t.tabs = s.tabs := h .tabs hp

theorem OnlyIn.gen_eq {ps : List Part} {s t : State} (h : OnlyIn ps s t) (hp : Part.gen ∉ ps := by decide) :
    t.gen = s.gen := h .gen hp

theorem OnlyIn.hif_eq {ps : List Part} {s t : State} (h : OnlyIn ps s t) (hp : Part.hif ∉ ps := by decide) :
    t.hif = s.hif := h .hif hp

theorem OnlyIn.glz_eq {ps : List Part} {s t : State} (h : OnlyIn ps s t) (hp : Part.glz ∉ ps := by decide) :
    t.glz = s.glz := h .glz hp

theorem OnlyIn.pol_eq {ps : List Part} {s t : State} (h : OnlyIn ps s t) (hp : Part.pol ∉ ps := by decide) :
    t.pol = s.pol := h .pol hp

theorem OnlyIn.frames_eq {ps : List Part} {s t : State} (h : OnlyIn ps s t) (hp : Part.frames ∉ ps := by decide) :
    t.frames = s.frames := h .frames hp

theorem OnlyIn.sched_eq {ps : List Part} {s t : State} (h : OnlyIn ps s t) (hp : Part.sched ∉ ps := by decide) :
    t.sched = s.sched := h .sched hp

theorem OnlyIn.bpm_eq {ps : List Part} {s t : State} (h : OnlyIn ps s t) (hp : Part.bpm ∉ ps := by decide) :
    t.bpm = s.bpm := h .bpm hp

theorem OnlyIn.cps_eq {ps : List Part} {s t : State} (h : OnlyIn ps s t) (hp : Part.cps ∉ ps := by decide) :
    t.cps = s.cps := h .cps hp

theorem OnlyIn.bur_eq {ps : List Part} {s t : State} (h : OnlyIn ps s t) (hp : Part.bur ∉ ps := by decide) :
    t.bur = s.bur := h .bur hp

theorem OnlyIn.mode_eq {ps : List Part} {s t : State} (h : OnlyIn ps s t) (hp : Part.mode ∉ ps := by decide) :
    t.mode = s.mode := h .mode hp

theorem OnlyIn.cnts_eq {ps : List Part} {s t : State} (h : OnlyIn ps s t) (hp : Part.cnts ∉ ps := by decide) :
    t.cnts = s.cnts := h .cnts hp

theorem OnlyIn.pmc_eq {ps : List Part} {s t : State} (h : OnlyIn ps s t) (hp : Part.pmc ∉ ps := by decide) :
    t.pmc = s.pmc := h .pmc hp

/-! Outputs grow, and the critical lines stand -/

/-- From `s` to `t` what was put out stays put out, and no critical line rises or falls. -/
structure Adds (s t : State) : Prop where
  out : s.out <+: t.out
  lines : t.flt.lines = s.flt.lines

theorem Adds.refl (s : State) : Adds s s := ⟨List.prefix_rfl, rfl⟩

theorem Adds.trans {s t u : State} (h : Adds s t) (k : Adds t u) : Adds s u :=
  ⟨h.out.trans k.out, k.lines.trans h.lines⟩

/-- An operation that puts nothing out and leaves Saggar alone. -/
theorem OnlyIn.adds {ps : List Part} {s t : State} (h : OnlyIn ps s t)
    (hp : Part.out ∉ ps ∧ Part.flt ∉ ps := by decide) : Adds s t := by
  have out : t.out = s.out := h .out hp.1
  have flt : t.flt = s.flt := h .flt hp.2
  exact ⟨out ▸ List.prefix_rfl, by rw [flt]⟩

theorem Adds.runOver {α : Type} {f : α → State → State} (h : ∀ a s, Adds s (f a s)) (l : List α) (s : State) :
    Adds s (Machine.runOver l f s) := by
  unfold Machine.runOver
  induction l generalizing s with
  | nil => exact .refl _
  | cons a l ih => exact (h a s).trans (ih _)

theorem Adds.foldl {α : Type} {f : State → α → State} (h : ∀ a s, Adds s (f s a)) (l : List α) (s : State) :
    Adds s (l.foldl f s) := by
  induction l generalizing s with
  | nil => exact .refl _
  | cons a l ih => exact (h a s).trans (ih _)

/-- What is put out comes last. -/
theorem emit_out (s : State) (o : Out) : (s.emit o).out = s.out ++ [o] := by
  simp only [State.emit]
  split
  · exact onlyIn_pmcCount _ _ _ _ _ .out (by decide)
  · rfl

theorem adds_emit (s : State) (o : Out) : Adds s (s.emit o) :=
  ⟨emit_out s o ▸ List.prefix_append _ _, congrArg Saggar.lines (onlyIn_emit s o .flt (by decide))⟩

theorem adds_writeBack (s : State) (r : Nat) : Adds s (s.writeBack r) := by
  simp only [State.writeBack]
  split
  · exact adds_emit _ _
  · exact .refl _

theorem adds_putRecord (s : State) (r type time : Nat) (body : Bytes) : Adds s (s.putRecord r type time body) :=
  (((adds_emit _ _).trans (onlyIn_touchCtx _ _).adds).trans (onlyIn_setRing _ _ _).adds).trans
    ((adds_writeBack _ _).trans (onlyIn_ringIrq _ _).adds)

theorem adds_putOverflow (s : State) (r : Nat) : Adds s (s.putOverflow r) := by
  simp only [State.putOverflow]
  split
  · exact .refl _
  · exact (onlyIn_setRing _ _ _).adds.trans (adds_putRecord _ _ _ _ _)

theorem adds_writeRecord (s : State) (f : Fn) (r type time : Nat) (body : Bytes) :
    Adds s (s.writeRecord f r type time body) := by
  simp only [State.writeRecord]
  split
  · split
    · split
      · exact (onlyIn_loseRecord _ _).adds.trans (onlyIn_setRing _ _ _).adds
      · exact (onlyIn_loseRecord _ _).adds
    · exact .refl _
  · refine (adds_putOverflow s r).trans ?_
    split
    · exact (onlyIn_loseRecord _ _).adds.trans (onlyIn_setRing _ _ _).adds
    · exact adds_putRecord _ _ _ _ _

theorem adds_ctrlRecord (s : State) (f : Fn) (type : Nat) (body : Bytes) : Adds s (s.ctrlRecord f type body) := by
  simp only [State.ctrlRecord]
  split
  · exact adds_writeRecord _ _ _ _ _ _
  · exact .refl _

/-! Fault events -/

theorem adds_faultRecord (s : State) (n : FaultNote) : Adds s (s.faultRecord n) := by
  have write : ∀ (b : Bool) (s : State) f r ty t x, Adds s (if b then s.writeRecord f r ty t x else s) := by
    intro b s f r ty t x
    split
    · exact adds_writeRecord _ _ _ _ _ _
    · exact .refl _
  simp only [State.faultRecord]
  split
  · exact ((write _ _ _ _ _ _ _).trans (write _ _ _ _ _ _ _)).trans (onlyIn_eicEvent _ _).adds
  · exact (write _ _ _ _ _ _ _).trans (write _ _ _ _ _ _ _)

theorem adds_setFsrc (s : State) (n : Nat) (x : FaultSource) : Adds s (s.setFsrc n x) := ⟨List.prefix_rfl, rfl⟩

theorem adds_flushRecord (s : State) (n : Nat) (why : Reason) : Adds s (s.flushRecord n why) :=
  (adds_setFsrc _ _ _).trans (adds_faultRecord _ _)

theorem adds_noteEvent (s : State) (n t cause detail : Nat) : Adds s (s.noteEvent n t cause detail) :=
  adds_setFsrc _ _ _

theorem adds_heldRecord (s : State) (n : Nat) (why : Reason) : Adds s (s.heldRecord n why) := by
  simp only [State.heldRecord]
  split
  · exact .refl _
  · split
    · exact adds_flushRecord _ _ _
    · exact (adds_setFsrc _ _ _).trans (adds_flushRecord _ _ _)

theorem adds_degrade (s : State) (n : Nat) : Adds s (s.degrade n) := by
  have mark (s : State) (l : List Nat) : Adds s { s with flt := { s.flt with degraded := l } } :=
    ⟨List.prefix_rfl, rfl⟩
  simp only [State.degrade]
  split
  · exact adds_faultRecord _ _
  · split
    · exact (adds_faultRecord _ _).trans (mark _ _)
    · exact ((adds_faultRecord _ _).trans (mark _ _)).trans (onlyIn_kilnPerm _ _ _ _).adds

theorem adds_enqueueRetirement (s : State) (n : Nat) : Adds s (s.enqueueRetirement n) := ⟨List.prefix_rfl, rfl⟩

theorem adds_classify (s : State) (n : Nat) : Adds s (s.classify n) := by
  have note : ∀ (c : Prop) [Decidable c] (s : State) a b x, Adds s (if c then s else s.kilnPerm a b x) := by
    intro c _ s a b x
    split
    · exact .refl _
    · exact (onlyIn_kilnPerm _ _ _ _).adds
  simp only [State.classify]
  split
  · exact (((adds_setFsrc _ _ _).trans (adds_flushRecord _ _ _)).trans (note _ _ _ _ _)).trans
      (adds_enqueueRetirement _ _)
  · exact (((adds_setFsrc _ _ _).trans (adds_flushRecord _ _ _)).trans (note _ _ _ _ _)).trans (adds_degrade _ _)

theorem adds_kiln (s : State) (k : Kiln) : Adds s { s with kiln := k } := ⟨List.prefix_rfl, rfl⟩

theorem adds_retirableEvent (s : State) (n t cause detail : Nat) : Adds s (s.retirableEvent n t cause detail) := by
  have noted (x : FaultSource) : Adds s ((s.noteEvent n t cause detail).setFsrc n x) :=
    (adds_noteEvent _ _ _ _ _).trans (adds_setFsrc _ _ _)
  simp only [State.retirableEvent]
  split
  · exact (noted _).trans (adds_classify _ _)
  · exact ((noted _).trans (adds_kiln _ _)).trans (adds_heldRecord _ _ _)

theorem adds_retirableEvents (s : State) (n t cause detail k : Nat) :
    Adds s (s.retirableEvents n t cause detail k) := by
  induction k generalizing s with
  | zero => exact .refl _
  | succ k ih =>
    simp only [State.retirableEvents]
    split
    · exact .refl _
    · exact (adds_retirableEvent _ _ _ _ _).trans (ih _)

theorem adds_countedEvents (s : State) (n t cause detail : Nat) (why : Reason) (k : Nat) :
    Adds s (s.countedEvents n t cause detail why k) := by
  induction k generalizing s with
  | zero => exact .refl _
  | succ k ih =>
    simp only [State.countedEvents]
    refine (adds_noteEvent s n t cause detail).trans ?_
    split
    · exact (adds_flushRecord _ _ _).trans (ih _)
    · exact (adds_heldRecord _ _ _).trans (ih _)

theorem adds_faultEventAt (s : State) (n cause detail k t : Nat) : Adds s (s.faultEventAt n cause detail k t) := by
  simp only [State.faultEventAt]
  split
  · exact .refl _
  · refine (adds_setFsrc s n { s.fsrc n with flag := true }).trans ?_
    split
    · exact adds_setFsrc _ _ _
    · split
      · exact (onlyIn_bumpBy _ _ _).adds.trans (adds_countedEvents _ _ _ _ _ _ _)
      · exact adds_countedEvents _ _ _ _ _ _ _
    · exact ((onlyIn_bumpBy _ _ _).adds.trans (adds_kiln _ _)).trans (adds_countedEvents _ _ _ _ _ _ _)
    · exact (onlyIn_bumpBy _ _ _).adds
    · exact (onlyIn_bumpBy _ _ _).adds.trans (adds_retirableEvents _ _ _ _ _ _)

/-! Completions -/

theorem adds_putCompletion (s : State) (r : Nat) (d : Bytes) (st : Status) (info : Nat) (result : Bytes) :
    Adds s (s.putCompletion r d st info result) :=
  ((onlyIn_pmcCount _ _ _ _ _).adds.trans (adds_emit _ _)).trans (onlyIn_setRing _ _ _).adds

theorem adds_haltComplete (s : State) (r : Nat) (d : Bytes) (st : Status) (info : Nat) (result : Bytes) :
    Adds s (s.haltComplete r d st info result) :=
  ((((onlyIn_setRing _ _ _).adds.trans (adds_putCompletion _ _ _ _ _ _)).trans (adds_writeBack _ _)).trans
    (adds_ctrlRecord _ _ _ _)).trans (onlyIn_ringIrq _ _).adds

theorem adds_plainComplete (s : State) (r : Nat) (d : Bytes) (st : Status) (info : Nat) (result : Bytes) :
    Adds s (s.plainComplete r d st info result) := by
  have head := ((onlyIn_setRing s r { s.ring r with inExec := none }).adds.trans
    (adds_putCompletion _ r d st info result)).trans (adds_writeBack _ r)
  simp only [State.plainComplete]
  split
  · exact head.trans (onlyIn_ringIrq _ _).adds
  · exact head

theorem adds_handOn (s : State) (r : Nat) : Adds s (s.handOn r) := by
  simp only [State.handOn]
  split
  · exact .refl _
  · split
    · exact .refl _
    · split
      · refine Adds.trans ?_ (adds_haltComplete _ _ _ _ _ _)
        split
        · exact (onlyIn_setRing _ _ _).adds.trans (adds_faultEventAt _ _ _ _ _ _)
        · exact (onlyIn_setRing _ _ _).adds
      · exact (onlyIn_setRing _ _ _).adds.trans (onlyIn_setRing _ _ _).adds

theorem adds_abortFetched (s : State) (r : Nat) : Adds s (s.abortFetched r) :=
  (onlyIn_setRing _ _ _).adds.trans (.foldl (fun _ _ => adds_plainComplete _ _ _ _ _ _) _ _)

theorem adds_complete (s : State) (r : Nat) (st : Status) (info : Nat) (result : Bytes) :
    Adds s (s.complete r st info result) := by
  simp only [State.complete]
  split
  · exact .refl _
  · split
    · exact adds_haltComplete _ _ _ _ _ _
    · split
      · exact (adds_plainComplete _ _ _ _ _ _).trans (adds_abortFetched _ _)
      · exact (adds_plainComplete _ _ _ _ _ _).trans (adds_handOn _ _)

/-! What is put out between two states -/

theorem Emits.of_emit {s u t : State} {o : Out} (before : Adds s u) (after : Adds (u.emit o) t) : Emits s t o := by
  obtain ⟨x, hx⟩ := before.out
  obtain ⟨y, hy⟩ := after.out
  refine ⟨x, y, ?_⟩
  rw [← hy, emit_out, ← hx]
  simp

theorem Emits.before {s u t : State} {o : Out} (h : Adds s u) (e : Emits u t o) : Emits s t o := by
  obtain ⟨x, hx⟩ := h.out
  obtain ⟨y, z, hz⟩ := e
  exact ⟨x ++ y, z, by rw [hz, ← hx]; simp⟩

theorem Emits.later {s t u : State} {o : Out} (e : Emits s t o) (h : Adds t u) : Emits s u o := by
  obtain ⟨x, hx⟩ := h.out
  obtain ⟨y, z, hz⟩ := e
  exact ⟨y, z ++ x, by rw [← hx, hz]; simp⟩

/-! The requester of a ring -/

theorem not_inCntCfg_vfGroup {j : Nat} (h : j < 64) : ¬ inCntCfg (RegName.key .hifVfGroup 0 0 j) := by
  simp [inCntCfg, RegName.key, RegName.addr, RegName.info]
  omega

/-- A ring's requester follows HIF_VF_GROUP alone. -/
theorem OnlyIn.ringReq {ps : List Part} {s t : State} (h : OnlyIn ps s t) {r : Nat} (hr : r < 4096)
    (hp : Part.regs ∉ ps := by decide) : t.ringReq r = s.ringReq r := by
  have group : t.groupVf (r / 16) = s.groupVf (r / 16) := by
    have reg := h .regs hp .hifVfGroup 0 0 (r / 16 / 4) (not_inCntCfg_vfGroup (by omega))
    simp only [State.groupVf, State.reg, reg]
  simp only [State.ringReq, group]

/-- The completion of a command is put out as it completes. -/
theorem emits_putCompletion (s : State) (r : Ring) (d : Bytes) (st : Status) (info : Nat) (result : Bytes) :
    Emits s (s.putCompletion r d st info result)
      (.hostWrite (s.ringReq r) ((s.ring r).slotAddr (s.ring r).devIdx) (completionBytes d st info result)) := by
  have req : (s.pmcCount 7 0 2 1).ringReq r = s.ringReq r := (onlyIn_pmcCount s 7 0 2 1).ringReq r.isLt
  refine .of_emit (onlyIn_pmcCount s 7 0 2 1).adds ?_
  simp only [State.putCompletion]
  exact (onlyIn_setRing _ _ _).adds

theorem Completed.before {s u t : State} {r : Ring} {d : Bytes} {st : Status} {info : Nat} {result : Bytes}
    (h : Adds s u) (ring : u.ring r = s.ring r) (req : u.ringReq r = s.ringReq r)
    (c : Completed u t r d st info result) : Completed s t r d st info result := by
  unfold Completed at c ⊢
  rw [ring, req] at c
  exact c.before h

theorem Completed.later {s t u : State} {r : Ring} {d : Bytes} {st : Status} {info : Nat} {result : Bytes}
    (c : Completed s t r d st info result) (h : Adds t u) : Completed s u r d st info result := Emits.later c h

/-- A completion is put out for the ring's slot, however the ring's state but for its context and its index stands. -/
theorem completed_putCompletion (s : State) (r : Ring) (x : RingState) (d : Bytes) (st : Status) (info : Nat)
    (result : Bytes) (ctx : x.ctx = (s.ring r).ctx) (idx : x.devIdx = (s.ring r).devIdx) :
    Completed s ((s.setRing r x).putCompletion r d st info result) r d st info result := by
  have e := emits_putCompletion (s.setRing r x) r d st info result
  have slot : x.slotAddr x.devIdx = (s.ring r).slotAddr (s.ring r).devIdx := by simp only [RingState.slotAddr, ctx, idx]
  rw [(onlyIn_setRing s r x).ringReq r.isLt, State.ring_setRing, slot] at e
  exact e.before (onlyIn_setRing s r x).adds

theorem completed_haltComplete (s : State) (r : Ring) (d : Bytes) (st : Status) (info : Nat) (result : Bytes) :
    Completed s (s.haltComplete r d st info result) r d st info result := by
  unfold State.haltComplete
  refine Completed.later ?_ (onlyIn_ringIrq _ _).adds
  refine Completed.later ?_ (adds_ctrlRecord _ _ _ _)
  refine Completed.later ?_ (adds_writeBack _ _)
  exact completed_putCompletion s r _ d st info result rfl rfl

theorem completed_plainComplete (s : State) (r : Ring) (d : Bytes) (st : Status) (info : Nat) (result : Bytes) :
    Completed s (s.plainComplete r d st info result) r d st info result := by
  have head := (completed_putCompletion s r { s.ring r with inExec := none } d st info result rfl rfl).later
    (adds_writeBack _ r)
  unfold State.plainComplete
  dsimp only
  split
  · exact head.later (onlyIn_ringIrq _ _).adds
  · exact head

/-- The command in execution completes. -/
theorem completed_self {s : State} {r : Ring} {d : Bytes} (st : Status) (info : Nat) (result : Bytes)
    (h : (s.ring r).inExec = some d) : Completed s (s.complete r st info result) r d st info result := by
  simp only [State.complete, h]
  split
  · exact completed_haltComplete _ _ _ _ _ _
  · have plain := completed_plainComplete s r d st info result
    split
    · exact plain.later (adds_abortFetched _ _)
    · exact plain.later (adds_handOn _ _)

/-- The command completes after steps that leave its ring and its requester. -/
theorem completed_after {s u : State} {r : Ring} {d : Bytes} (st : Status) (info : Nat) (result : Bytes) (h : Adds s u)
    (ring : u.ring r = s.ring r) (req : u.ringReq r = s.ringReq r) (exec : (s.ring r).inExec = some d) :
    Completed s (u.complete r st info result) r d st info result :=
  (completed_self (s := u) st info result (ring ▸ exec)).before h ring req

/-- The command completes after steps that leave the host interface and the registers. -/
theorem OnlyIn.completed {ps : List Part} {s u : State} {r : Ring} {d : Bytes} (st : Status) (info : Nat)
    (result : Bytes) (h : OnlyIn ps s u) (grow : Adds s u) (exec : (s.ring r).inExec = some d)
    (hp : Part.hif ∉ ps ∧ Part.regs ∉ ps := by decide) :
    Completed s (u.complete r st info result) r d st info result :=
  completed_after st info result grow (by unfold State.ring; rw [h .hif hp.1]) (h.ringReq r.isLt hp.2) exec

theorem executing_iff {s : State} {r op : Nat} {d : Bytes} :
    s.executing r op = some d ↔ (s.ring r).inExec = some d ∧ descOp d = op := by
  unfold State.executing
  split
  · next x hx =>
    simp only [hx, Option.some.injEq]
    split
    · next ho => exact ⟨fun h => ⟨Option.some.inj h, Option.some.inj h ▸ ho⟩, fun h => congrArg some h.1⟩
    · next ho => exact ⟨fun h => (nomatch h), fun h => absurd (h.1 ▸ h.2) ho⟩
  · next hx => simp [hx]

theorem Executing.inExec {s : State} {r : Ring} {op : Nat} {d : Bytes} (h : Executing s r op d) :
    (s.ring r).inExec = some d := (executing_iff.mp h.1).1

theorem Executing.command {s : State} {r : Ring} {op : Nat} {d : Bytes} (h : Executing s r op d)
    (f : Bytes → State → State) : s.command r op f = f d s := by
  simp only [State.command, h.1]

/-! A step of the table sequencer -/

/-- With no corrupted word a step is fetched at once. -/
theorem seqFetch_sound {s : State} (h : s.flt.corrupt.get 0 0x31 = 0) (n : Nat) : s.seqFetch (n + 1) = s := by
  simp [State.seqFetch, State.takeCorrupts, h]

theorem seqStep_sound {s : State} (h : s.flt.corrupt.get 0 0x31 = 0) (alive : s.tabs.dead = false)
    (f dead : State → State) : s.seqStep f dead = f s.stepDone := by
  simp [State.seqStep, seqFetch_sound h, alive]

theorem seqCommand_runs {s : State} {r : Ring} {op : Nat} {d : Bytes} (ex : Executing s r op d) (idle : SeqIdle s r op)
    (change : Bool) (f : Bytes → State → State) : s.seqCommand r op change f = f d s.stepDone := by
  obtain ⟨alive, words, turn, free⟩ := idle
  simp [State.seqCommand, ex.command, alive, turn, free, seqStep_sound words alive]

theorem recCommand_runs {s : State} {r : Ring} {op : Nat} {d : Bytes} (ex : Executing s r op d) (idle : SeqIdle s r op)
    (change : Bool) (b : Bytes) (f : Bytes → Bytes → State → State) :
    s.recCommand r op change (some b) f = f d b s.stepDone := by
  obtain ⟨alive, words, turn, free⟩ := idle
  simp [State.recCommand, ex.command, alive, turn, free, seqStep_sound words alive]

/-- A command that writes a result buffer changes no table, and waits for no commit. -/
theorem resultCommand_runs {s : State} {r : Ring} {op : Nat} {d : Bytes} (ex : Executing s r op d)
    (alive : s.tabs.dead = false) (words : s.flt.corrupt.get 0 0x31 = 0) (free : s.seqHeld r op = false)
    (f : Bytes → State → State) : s.resultCommand r op true f = f d s.stepDone := by
  simp [State.resultCommand, ex.command, alive, free, seqStep_sound words alive]

theorem onlyIn_stepDone (s : State) : OnlyIn [.tabs] s s.stepDone := onlyIn_setTabs _ _

/-! What a table change writes -/

theorem onlyIn_shadowPut (s : State) (loc : Nat) (content : Bytes) :
    OnlyIn [.out, .cnts, .cntCfg] s (s.shadowPut loc content) := onlyIn_emit _ _

theorem adds_shadowPut (s : State) (loc : Nat) (content : Bytes) : Adds s (s.shadowPut loc content) := adds_emit _ _

/-- What a change of a table of the sequencer may change. -/
abbrev tableParts : List Part := [.tabs, .out, .cnts, .cntCfg]

theorem onlyIn_logChange (s : State) (n : Nat) : OnlyIn [.gen] s (s.logChange n) := onlyIn_setLog _ _ _

theorem staging_setLog (s : State) (g : Gen) (n : Nat) : (s.setLog g n).staging = s.staging := rfl

theorem logUsed_logChange (s : State) (n : Nat) : (s.logChange n).logUsed s.staging = s.logUsed s.staging + n :=
  Tab.get_set_same _ _ _ _

theorem onlyIn_dmaWrite (s : State) (r a : Nat) (data : Bytes) :
    OnlyIn [.out, .cnts, .cntCfg] s (s.dmaWrite r a data) := onlyIn_emit _ _

theorem adds_dmaWrite (s : State) (r a : Nat) (data : Bytes) : Adds s (s.dmaWrite r a data) := adds_emit _ _

/-! Commands that change STAGING -/

theorem complete_tabs (s : State) (r : Nat) (st : Status) (info : Nat) (result : Bytes) :
    (s.complete r st info result).tabs = s.tabs := onlyIn_complete s r st info result .tabs (by decide)

theorem complete_gen (s : State) (r : Nat) (st : Status) (info : Nat) (result : Bytes) :
    (s.complete r st info result).gen = s.gen := onlyIn_complete s r st info result .gen (by decide)

theorem complete_glz (s : State) (r : Nat) (st : Status) (info : Nat) (result : Bytes) :
    (s.complete r st info result).glz = s.glz := onlyIn_complete s r st info result .glz (by decide)

theorem complete_pol (s : State) (r : Nat) (st : Status) (info : Nat) (result : Bytes) :
    (s.complete r st info result).pol = s.pol := onlyIn_complete s r st info result .pol (by decide)

/-- A command whose change of STAGING gives `u` makes one change record and completes. -/
theorem change_completes {ps qs : List Part} {s u : State} {r : Ring} {op : Nat} {d : Bytes} (ex : Executing s r op d)
    (change : OnlyIn ps s u) (grow : Adds s u) (info : Nat)
    (hp : Part.gen ∉ ps ∧ Part.hif ∉ ps ∧ Part.regs ∉ ps := by decide)
    (hq : ∀ p ∈ ps ++ [.gen] ++ faultParts, p ∈ qs := by decide) :
    ((u.logChange 1).complete r .ok info []).logUsed s.staging = s.logUsed s.staging + 1 ∧
      Completed s ((u.logChange 1).complete r .ok info []) r d .ok info [] ∧
      OnlyIn qs s ((u.logChange 1).complete r .ok info []) := by
  have gen : u.gen = s.gen := change .gen hp.1
  have stage : s.staging = u.staging := by simp only [State.staging, gen]
  have log := onlyIn_logChange u 1
  have ring : (u.logChange 1).ring r = s.ring r := by
    unfold State.ring
    rw [log .hif (by decide), change .hif hp.2.1]
  have req : (u.logChange 1).ringReq r = s.ringReq r :=
    (log.ringReq r.isLt).trans (change.ringReq r.isLt hp.2.2)
  refine ⟨?_, completed_after _ _ _ (grow.trans log.adds) ring req ex.inExec, ?_⟩
  · calc ((u.logChange 1).complete r .ok info []).logUsed s.staging
        = (u.logChange 1).logUsed u.staging := by simp only [State.logUsed, complete_gen, stage]
      _ = u.logUsed u.staging + 1 := logUsed_logChange u 1
      _ = s.logUsed s.staging + 1 := by simp only [State.logUsed, stage, gen]
  · exact ((change.mono fun p h => hq p (by simp [h])).trans (log.mono fun p h => hq p
      (List.mem_append_left _ (List.mem_append_right _ h)))).trans
      ((onlyIn_complete _ _ _ _ _).mono fun p h => hq p (List.mem_append_right _ h))

/-- A command that writes its result buffer and completes. -/
theorem result_completes {ps qs : List Part} {s u : State} {r : Ring} {op : Nat} {d : Bytes} (ex : Executing s r op d)
    (before : OnlyIn ps s u) (grow : Adds s u) (a : Nat) (data : Bytes) (info : Nat) (result : Bytes)
    (hp : Part.hif ∉ ps ∧ Part.regs ∉ ps := by decide)
    (hq : ∀ p ∈ ps ++ [.out, .cnts, .cntCfg] ++ faultParts, p ∈ qs := by decide) :
    Emits s ((u.dmaWrite r a data).complete r .ok info result) (.hostWrite (s.ringReq r) a data) ∧
      Completed s ((u.dmaWrite r a data).complete r .ok info result) r d .ok info result ∧
      OnlyIn qs s ((u.dmaWrite r a data).complete r .ok info result) := by
  have write := onlyIn_dmaWrite u r a data
  have req : u.ringReq r = s.ringReq r := before.ringReq r.isLt hp.2
  have ring : (u.dmaWrite r a data).ring r = s.ring r := by
    unfold State.ring
    rw [write .hif (by decide), before .hif hp.1]
  refine ⟨?_, completed_after _ _ _ (grow.trans (adds_dmaWrite _ _ _ _)) ring ((write.ringReq r.isLt).trans req)
    ex.inExec, ?_⟩
  · rw [← req]
    exact .of_emit grow (adds_complete _ _ _ _ _)
  · exact ((before.mono fun p h => hq p (by simp [h])).trans (write.mono fun p h => hq p
      (List.mem_append_left _ (List.mem_append_right _ h)))).trans
      ((onlyIn_complete _ _ _ _ _).mono fun p h => hq p (List.mem_append_right _ h))

end Sys2Proof.Claims

/-! SUPPORT, and O24: changes of the routes in STAGING (R54, R177, R198, R199). -/

namespace Sys2Proof.Claims

open Sys2Proof.Machine

set_option Elab.async false

theorem onlyIn_setRoutes (s : State) (l : List Route) (n : Nat) : OnlyIn tableParts s (s.setRoutes l n) :=
  (onlyIn_setTabs _ _).mono.trans (onlyIn_shadowPut _ _ _).mono

theorem adds_setRoutes (s : State) (l : List Route) (n : Nat) : Adds s (s.setRoutes l n) :=
  (onlyIn_setTabs _ _).adds.trans (adds_shadowPut _ _ _)

theorem routes_setRoutes (s : State) (l : List Route) (n : Nat) : (s.setRoutes l n).tabs.routes = l := by
  have tabs := onlyIn_shadowPut (s.setTabs { s.tabs with routes := l }) (nodeLoc n)
    ((s.setTabs { s.tabs with routes := l }).nodeImage n) .tabs (by decide)
  exact congrArg Tables.routes tabs

/-- A command that replaces the routes and makes one change record. -/
theorem routes_change {s : State} {r : Ring} {op : Nat} {d : Bytes} (ex : Executing s r op d) (l : List Route)
    (n : Nat) :
    (((s.stepDone.setRoutes l n).logChange 1).complete r .ok).tabs.routes = l ∧
      (((s.stepDone.setRoutes l n).logChange 1).complete r .ok).logUsed s.staging = s.logUsed s.staging + 1 ∧
      Completed s (((s.stepDone.setRoutes l n).logChange 1).complete r .ok) r d .ok 0 [] ∧
      OnlyIn [.regs, .cntCfg, .cnts, .out, .draws, .gen, .hif, .eic, .flt, .kiln, .tabs] s
        (((s.stepDone.setRoutes l n).logChange 1).complete r .ok) :=
  ⟨by rw [complete_tabs]; exact routes_setRoutes _ _ _,
    change_completes ex ((onlyIn_stepDone s).mono.trans (onlyIn_setRoutes _ l n))
      ((onlyIn_stepDone s).adds.trans (adds_setRoutes _ l n)) 0⟩

theorem exec_lpmAdd {s : State} {r : Ring} {d b : Bytes} (ex : Executing s r 0x0040 d) (idle : SeqIdle s r 0x0040)
    (good : badRoute b = false) (new : s.routeIn (routeOf b s.bornTag) = none) (room : s.routeRoom (byteAt b 0) = true)
    (log : s.logRoom 1 = true) :
    exec (.lpmAdd r (some b)) s = .next (((s.stepDone.setRoutes (s.tabs.routes ++ [routeOf b s.bornTag])
      (routeOf b s.bornTag).node).logChange 1).complete r .ok) := by
  have new' : s.stepDone.routeIn (routeOf b s.stepDone.bornTag) = none := new
  have room' : s.stepDone.routeRoom (routeOf b s.stepDone.bornTag).fam = true := room
  have log' : s.stepDone.logRoom 1 = true := log
  refine congrArg Host.Outcome.next ((recCommand_runs ex idle true b _).trans ?_)
  simp only [good, new', room', log', Bool.false_eq_true, if_false, Option.isSome_none, Bool.not_true]
  rfl

/-- The key of a record has a version visible in STAGING, made there or not (R54). -/
theorem exec_lpmModify {s : State} {r : Ring} {d b : Bytes} {old : Route} (ex : Executing s r 0x0041 d)
    (idle : SeqIdle s r 0x0041) (good : badRoute b = false) (found : s.routeIn (routeOf b s.bornTag) = some old)
    (log : s.logRoom 1 = true) (room : s.madeInStaging old.tag = true ∨ s.routeRoom (byteAt b 0) = true) :
    exec (.lpmModify r (some b)) s = .next (((s.stepDone.setRoutes
      (if s.madeInStaging old.tag then
        s.tabs.routes.map fun y => if y = old then { old with adata := leAt b 8 8 } else y
       else (s.tabs.routes.map fun y => if y = old then { old with tag := s.diedTag old.tag } else y) ++
        [routeOf b s.bornTag]) (routeOf b s.bornTag).node).logChange 1).complete r .ok) := by
  have found' : s.stepDone.routeIn (routeOf b s.stepDone.bornTag) = some old := found
  have log' : s.stepDone.logRoom 1 = true := log
  refine congrArg Host.Outcome.next ((recCommand_runs ex idle true b _).trans ?_)
  by_cases made : s.madeInStaging old.tag = true
  · have made' : s.stepDone.madeInStaging old.tag = true := made
    simp only [good, found', made', made, log', Bool.false_eq_true, if_false, if_true, Bool.not_true]
    rfl
  · have made' : ¬ s.stepDone.madeInStaging old.tag = true := made
    have room' : s.stepDone.routeRoom (routeOf b s.stepDone.bornTag).fam = true := room.resolve_left made
    simp only [good, found', made', made, room', log', Bool.false_eq_true, if_false, Bool.not_true]
    rfl

theorem exec_lpmDelete {s : State} {r : Ring} {d b : Bytes} {old : Route} (ex : Executing s r 0x0042 d)
    (idle : SeqIdle s r 0x0042) (good : badRoute b = false) (found : s.routeIn (routeOf b s.bornTag) = some old)
    (log : s.logRoom 1 = true) :
    exec (.lpmDelete r (some b)) s = .next (((s.stepDone.setRoutes
      (if s.madeInStaging old.tag then s.tabs.routes.filter fun y => y ≠ old
       else s.tabs.routes.map fun y => if y = old then { old with tag := s.diedTag old.tag } else y)
      (routeOf b s.bornTag).node).logChange 1).complete r .ok) := by
  have found' : s.stepDone.routeIn (routeOf b s.stepDone.bornTag) = some old := found
  have log' : s.stepDone.logRoom 1 = true := log
  refine congrArg Host.Outcome.next ((recCommand_runs ex idle true b _).trans ?_)
  simp only [good, found', log', Bool.false_eq_true, if_false, Bool.not_true]
  rfl

/-- Settles O24: each command replaces the list of routes once, and R54's cases are those of the list. -/
theorem routesAreAddedModifiedAndDeleted : Obligations.RoutesAreAddedModifiedAndDeleted := by
  refine ⟨?_, ?_, ?_⟩
  · intro r d b s ex idle good new room log
    exact ⟨_, exec_lpmAdd ex idle good new room log, routes_change ex _ _⟩
  · intro r d b old s ex idle good found log room
    exact ⟨_, exec_lpmModify ex idle good found log room, routes_change ex _ _⟩
  · intro r d b old s ex idle good found log
    exact ⟨_, exec_lpmDelete ex idle good found log, routes_change ex _ _⟩

end Sys2Proof.Claims

/-! SUPPORT, O18 and O19: rule and profile cells in STAGING, and the widths of the tile groups (R54, R142 to R148,
R560). -/

namespace Sys2Proof.Claims

open Sys2Proof.Machine

set_option Elab.async false

/-! Rule cells -/

theorem onlyIn_setRule (s : State) (k : Nat) (c : Option RuleCell) : OnlyIn tableParts s (s.setRule k c) :=
  (onlyIn_setTabs _ _).mono.trans (onlyIn_shadowPut _ _ _).mono

theorem adds_setRule (s : State) (k : Nat) (c : Option RuleCell) : Adds s (s.setRule k c) :=
  (onlyIn_setTabs _ _).adds.trans (adds_shadowPut _ _ _)

theorem rules_setRule (s : State) (k : Nat) (c : Option RuleCell) :
    (s.setRule k c).tabs.rules = s.tabs.rules.set none k c :=
  congrArg Tables.rules (onlyIn_shadowPut _ _ _ .tabs (by decide))

theorem ruleAt_setRule_same (s : State) (k : Nat) (c : Option RuleCell) : (s.setRule k c).ruleAt k = c := by
  rw [State.ruleAt, rules_setRule, Tab.get_set_same]

theorem ruleAt_setRule_other (s : State) {j k : Nat} (c : Option RuleCell) (h : j ≠ k) :
    (s.setRule k c).ruleAt j = s.ruleAt j := by
  rw [State.ruleAt, rules_setRule, Tab.get_set_other _ _ _ h, State.ruleAt]

theorem ruleAt_changed (u : State) (r : Nat) (j : Nat) : ((u.logChange 1).complete r .ok).ruleAt j = u.ruleAt j := by
  unfold State.ruleAt
  rw [complete_tabs]
  rfl

/-- A command that writes one rule cell. -/
theorem rule_change {s : State} {r : Ring} {op : Nat} {d : Bytes} (ex : Executing s r op d) (k : Nat)
    (c : Option RuleCell) :
    (((s.stepDone.setRule k c).logChange 1).complete r .ok).ruleAt k = c ∧
      (∀ j, j ≠ k → (((s.stepDone.setRule k c).logChange 1).complete r .ok).ruleAt j = s.ruleAt j) ∧
      (((s.stepDone.setRule k c).logChange 1).complete r .ok).logUsed s.staging = s.logUsed s.staging + 1 ∧
      Completed s (((s.stepDone.setRule k c).logChange 1).complete r .ok) r d .ok 0 [] ∧
      OnlyIn [.regs, .cntCfg, .cnts, .out, .draws, .gen, .hif, .eic, .flt, .kiln, .tabs] s
        (((s.stepDone.setRule k c).logChange 1).complete r .ok) :=
  ⟨by rw [ruleAt_changed, ruleAt_setRule_same],
    fun j hj => by rw [ruleAt_changed, ruleAt_setRule_other _ _ hj]; rfl,
    change_completes ex ((onlyIn_stepDone s).mono.trans (onlyIn_setRule _ k c))
      ((onlyIn_stepDone s).adds.trans (adds_setRule _ k c)) 0⟩

theorem exec_ruleInsert {s : State} {r : Ring} {d b : Bytes} {k : Nat} (ex : Executing s r 0x0020 d)
    (idle : SeqIdle s r 0x0020) (good : s.ruleCheck b = none) (new : s.ruleIn (leAt b 0 2) s.staging = none)
    (free : s.freeRule (leAt b 0 2 / 1024) = some k) (log : s.logRoom 1 = true) :
    exec (.ruleInsert r (some b)) s =
      .next (((s.stepDone.setRule k (some (ruleCellOf b s.bornTag))).logChange 1).complete r .ok) := by
  have good' : s.stepDone.ruleCheck b = none := good
  have new' : s.stepDone.ruleIn (leAt b 0 2) s.stepDone.staging = none := new
  have free' : s.stepDone.freeRule (leAt b 0 2 / 1024) = some k := free
  have log' : s.stepDone.logRoom 1 = true := log
  refine congrArg Host.Outcome.next ((recCommand_runs ex idle true b _).trans ?_)
  simp only [good', new', free', log', Option.isSome_none, Bool.false_eq_true, if_false, Bool.not_true]
  rfl

theorem exec_ruleModify_made {s : State} {r : Ring} {d b : Bytes} {k : Nat} {c : RuleCell} (ex : Executing s r 0x0021 d)
    (idle : SeqIdle s r 0x0021) (good : s.ruleCheck b = none) (found : s.ruleIn (leAt b 0 2) s.staging = some (k, c))
    (log : s.logRoom 1 = true) (made : s.madeInStaging c.tag = true) :
    exec (.ruleModify r (some b)) s =
      .next (((s.stepDone.setRule k (some (ruleCellOf b c.tag))).logChange 1).complete r .ok) := by
  have good' : s.stepDone.ruleCheck b = none := good
  have found' : s.stepDone.ruleIn (leAt b 0 2) s.stepDone.staging = some (k, c) := found
  have made' : s.stepDone.madeInStaging c.tag = true := made
  have log' : s.stepDone.logRoom 1 = true := log
  refine congrArg Host.Outcome.next ((recCommand_runs ex idle true b _).trans ?_)
  simp only [good', found', made', log', if_true, Bool.false_eq_true, if_false, Bool.not_true]

theorem exec_ruleModify_old {s : State} {r : Ring} {d b : Bytes} {k k' : Nat} {c : RuleCell}
    (ex : Executing s r 0x0021 d) (idle : SeqIdle s r 0x0021) (good : s.ruleCheck b = none)
    (found : s.ruleIn (leAt b 0 2) s.staging = some (k, c)) (log : s.logRoom 1 = true)
    (made : s.madeInStaging c.tag = false) (free : s.freeRule (leAt b 0 2 / 1024) = some k') :
    exec (.ruleModify r (some b)) s =
      .next ((((s.stepDone.setRule k (some { c with tag := s.diedTag c.tag })).setRule k'
        (some (ruleCellOf b (s.stepDone.setRule k (some { c with tag := s.diedTag c.tag })).bornTag))).logChange
          1).complete r .ok) := by
  have good' : s.stepDone.ruleCheck b = none := good
  have found' : s.stepDone.ruleIn (leAt b 0 2) s.stepDone.staging = some (k, c) := found
  have made' : s.stepDone.madeInStaging c.tag = false := made
  have free' : s.stepDone.freeRule (leAt b 0 2 / 1024) = some k' := free
  have log' : s.stepDone.logRoom 1 = true := log
  refine congrArg Host.Outcome.next ((recCommand_runs ex idle true b _).trans ?_)
  simp only [good', found', made', free', log', Bool.false_eq_true, if_false, Bool.not_true]
  rfl

theorem exec_ruleDelete {s : State} {r : Ring} {d : Bytes} {k : Nat} {c : RuleCell} (ex : Executing s r 0x0022 d)
    (idle : SeqIdle s r 0x0022) (found : s.ruleIn (leAt d 0x10 2) s.staging = some (k, c)) (log : s.logRoom 1 = true) :
    exec (.ruleDelete r) s =
      .next (((s.stepDone.setRule k (if s.madeInStaging c.tag then none
        else some { c with tag := s.diedTag c.tag })).logChange 1).complete r .ok) := by
  have found' : s.stepDone.ruleIn (leAt d 0x10 2) s.stepDone.staging = some (k, c) := found
  have log' : s.stepDone.logRoom 1 = true := log
  refine congrArg Host.Outcome.next ((seqCommand_runs ex idle true _).trans ?_)
  simp only [found', log', Bool.false_eq_true, if_false, Bool.not_true]
  rfl

theorem exec_ruleRead {s : State} {r : Ring} {d : Bytes} {k : Nat} {c : RuleCell} (ex : Executing s r 0x0023 d)
    (alive : s.tabs.dead = false) (words : s.flt.corrupt.get 0 0x31 = 0) (free : s.seqHeld r 0x0023 = false)
    (live : s.live (BitVec.ofNat 16 (leAt d 0x12 2)) = true)
    (found : s.ruleIn (leAt d 0x10 2) (BitVec.ofNat 16 (leAt d 0x12 2)) = some (k, c)) :
    exec (.ruleRead r true) s =
      .next ((s.stepDone.dmaWrite r (descAddr d) (c.record (leAt d 0x10 2))).complete r .ok) := by
  have live' : s.stepDone.live (BitVec.ofNat 16 (leAt d 0x12 2)) = true := live
  have found' : s.stepDone.ruleIn (leAt d 0x10 2) (BitVec.ofNat 16 (leAt d 0x12 2)) = some (k, c) := found
  refine congrArg Host.Outcome.next ((resultCommand_runs ex alive words free _).trans ?_)
  simp only [live', found', Bool.false_eq_true, if_false, Bool.not_true]

/-- Settles O18: each command writes the cells that the statement names, one after the other. -/
theorem rulesAreInsertedModifiedAndDeleted : Obligations.RulesAreInsertedModifiedAndDeleted := by
  refine ⟨?_, ?_, ?_, ?_⟩
  · intro r d b k s ex idle good new free log
    exact ⟨_, exec_ruleInsert ex idle good new free log, rule_change ex _ _⟩
  · intro r d b k c s ex idle good found log
    refine ⟨fun made => ⟨_, exec_ruleModify_made ex idle good found log made, rule_change ex _ _⟩, ?_⟩
    intro made k' free apart
    have born : (s.stepDone.setRule k (some { c with tag := s.diedTag c.tag })).bornTag = s.bornTag := by
      simp only [State.bornTag, State.staging, (onlyIn_setRule s.stepDone k _).gen_eq]
      rfl
    refine ⟨_, exec_ruleModify_old ex idle good found log made free, ?_, ?_, ?_, ?_⟩
    · rw [ruleAt_changed, ruleAt_setRule_other _ _ apart, ruleAt_setRule_same]
      rfl
    · rw [ruleAt_changed, ruleAt_setRule_same, born]
      rfl
    · intro j hj hj'
      rw [ruleAt_changed, ruleAt_setRule_other _ _ hj', ruleAt_setRule_other _ _ hj]
      rfl
    · exact change_completes ex (((onlyIn_stepDone s).mono.trans (onlyIn_setRule _ _ _)).trans (onlyIn_setRule _ _ _))
        (((onlyIn_stepDone s).adds.trans (adds_setRule _ _ _)).trans (adds_setRule _ _ _)) 0
  · intro r d k c s ex idle found log
    exact ⟨_, exec_ruleDelete ex idle found log, rule_change ex _ _⟩
  · intro r d k c s ex alive words free live found
    obtain ⟨written, completed, only⟩ := result_completes (qs := [.regs, .cntCfg, .cnts, .out, .draws, .gen, .hif, .eic,
      .flt, .kiln, .tabs]) ex (onlyIn_stepDone s) (onlyIn_stepDone s).adds (descAddr d) (c.record (leAt d 0x10 2)) 0 []
    refine ⟨_, exec_ruleRead ex alive words free live found, written, fun j => ?_, completed, only⟩
    unfold State.ruleAt
    rw [complete_tabs, onlyIn_dmaWrite _ _ _ _ .tabs (by decide)]
    rfl

/-! Profile cells -/

theorem onlyIn_setProf (s : State) (k : Nat) (c : Option ProfileCell) : OnlyIn tableParts s (s.setProf k c) :=
  (onlyIn_setTabs _ _).mono.trans (onlyIn_shadowPut _ _ _).mono

theorem adds_setProf (s : State) (k : Nat) (c : Option ProfileCell) : Adds s (s.setProf k c) :=
  (onlyIn_setTabs _ _).adds.trans (adds_shadowPut _ _ _)

theorem profiles_setProf (s : State) (k : Nat) (c : Option ProfileCell) :
    (s.setProf k c).tabs.profiles = s.tabs.profiles.set none k c :=
  congrArg Tables.profiles (onlyIn_shadowPut _ _ _ .tabs (by decide))

theorem profAt_setProf_same (s : State) (k : Nat) (c : Option ProfileCell) : (s.setProf k c).profAt k = c := by
  rw [State.profAt, profiles_setProf, Tab.get_set_same]

theorem profAt_setProf_other (s : State) {j k : Nat} (c : Option ProfileCell) (h : j ≠ k) :
    (s.setProf k c).profAt j = s.profAt j := by
  rw [State.profAt, profiles_setProf, Tab.get_set_other _ _ _ h, State.profAt]

theorem profAt_changed (u : State) (r : Nat) (j : Nat) : ((u.logChange 1).complete r .ok).profAt j = u.profAt j := by
  unfold State.profAt
  rw [complete_tabs]
  rfl

/-- The version of a profile that was visible, if any, is marked to die in STAGING. -/
def markProf (s : State) (old : Option (Nat × ProfileCell)) : State :=
  match old with
  | some (k, c) => s.setProf k (some { c with tag := s.diedTag c.tag })
  | none => s

theorem onlyIn_markProf (s : State) (old : Option (Nat × ProfileCell)) : OnlyIn tableParts s (markProf s old) := by
  unfold markProf
  split
  · exact onlyIn_setProf _ _ _
  · exact .refl _ _

theorem adds_markProf (s : State) (old : Option (Nat × ProfileCell)) : Adds s (markProf s old) := by
  unfold markProf
  split
  · exact adds_setProf _ _ _
  · exact .refl _

theorem bornTag_markProf (s : State) (old : Option (Nat × ProfileCell)) : (markProf s old).bornTag = s.bornTag := by
  simp only [State.bornTag, State.staging, (onlyIn_markProf s old).gen_eq]

/-- PROFILE_WRITE puts the profile into `k`, the place that the version visible in STAGING leaves or gives it. -/
theorem exec_profileWrite {s : State} {r : Ring} {d b : Bytes} {k : Nat} (ex : Executing s r 0x0024 d)
    (idle : SeqIdle s r 0x0024) (good : badProfile b = false)
    (tiles : ∀ x ∈ tilesOf (leAt b 8 8), s.widthAt x = byteAt b 1 ∧ s.isJoin x = true ∧ s.joinLostAny x = false)
    (log : s.logRoom 1 = true)
    (place : match s.profIn (byteAt b 0) s.staging with
      | none => firstBelow 128 (fun j => (s.profAt j).isNone) = some k
      | some (o, c) => if s.madeInStaging c.tag then k = o
          else firstBelow 128 (fun j => (s.profAt j).isNone) = some k ∧ k ≠ o) :
    exec (.profileWrite r (some b)) s =
      .next ((((markProf s.stepDone (s.profIn (byteAt b 0) s.staging)).setProf k
        (some (profileOf b (markProf s.stepDone (s.profIn (byteAt b 0) s.staging)).bornTag))).logChange 1).complete r .ok) := by
  have width : ((tilesOf (leAt b 8 8)).any fun t => s.stepDone.widthAt t ≠ byteAt b 1 || !s.stepDone.isJoin t) = false := by
    rw [List.any_eq_false]
    intro x hx
    obtain ⟨w, join, -⟩ := tiles x hx
    have w' : s.stepDone.widthAt x = byteAt b 1 := w
    have join' : s.stepDone.isJoin x = true := join
    simp [w', join']
  have lost : ((tilesOf (leAt b 8 8)).any fun t => s.stepDone.joinLostAny t) = false := by
    rw [List.any_eq_false]
    intro x hx
    exact fun h => Bool.noConfusion (h.symm.trans (tiles x hx).2.2)
  have log' : s.stepDone.logRoom 1 = true := log
  refine congrArg Host.Outcome.next ((recCommand_runs ex idle true b _).trans ?_)
  simp only [good, width, lost, Bool.false_eq_true, if_false]
  cases found : s.profIn (byteAt b 0) s.staging with
  | none =>
    have found' : s.stepDone.profIn (byteAt b 0) s.stepDone.staging = none := found
    have place' : firstBelow 128 (fun j => (s.stepDone.profAt j).isNone) = some k := by rw [found] at place; exact place
    simp only [found', place', log', Bool.not_true, Bool.false_eq_true, if_false]
    rfl
  | some x =>
    obtain ⟨o, c⟩ := x
    have found' : s.stepDone.profIn (byteAt b 0) s.stepDone.staging = some (o, c) := found
    simp only [found] at place
    by_cases made : s.madeInStaging c.tag = true
    · have made' : s.stepDone.madeInStaging c.tag = true := made
      rw [if_pos made] at place
      simp only [found', made', if_true, log', Bool.not_true, Bool.false_eq_true, if_false, place]
      rfl
    · have made' : ¬ s.stepDone.madeInStaging c.tag = true := made
      rw [if_neg made] at place
      have place' : firstBelow 128 (fun j => (s.stepDone.profAt j).isNone) = some k := place.1
      simp only [found', if_neg made', place', log', Bool.not_true, Bool.false_eq_true, if_false]
      rfl

theorem exec_profileDelete {s : State} {r : Ring} {d : Bytes} {k : Nat} {c : ProfileCell} (ex : Executing s r 0x0025 d)
    (idle : SeqIdle s r 0x0025) (found : s.profIn (byteAt d 0x10) s.staging = some (k, c)) (log : s.logRoom 1 = true) :
    exec (.profileDelete r) s =
      .next (((s.stepDone.setProf k (if s.madeInStaging c.tag then none
        else some { c with tag := s.diedTag c.tag })).logChange 1).complete r .ok) := by
  have found' : s.stepDone.profIn (byteAt d 0x10) s.stepDone.staging = some (k, c) := found
  have log' : s.stepDone.logRoom 1 = true := log
  refine congrArg Host.Outcome.next ((seqCommand_runs ex idle true _).trans ?_)
  simp only [found', log', Bool.false_eq_true, if_false, Bool.not_true]
  rfl

/-! Widths of the groups -/

/-- Width fields put one after the other into a register: each group reads as its new width, if it takes one. -/
theorem bitsOf_foldl_widths (w : Nat → Nat) (small : ∀ g, w g < 4) (kept : List Nat) (l : List Nat) (x g : Nat) :
    bitsOf (2 * g + 1) (2 * g)
        (l.foldl (fun x g => if kept.contains g then x else withBits (2 * g + 1) (2 * g) x (w g)) x) =
      if g ∈ l ∧ g ∉ kept then w g else bitsOf (2 * g + 1) (2 * g) x := by
  induction l generalizing x with
  | nil => simp
  | cons h l ih =>
    rw [List.foldl_cons, ih]
    by_cases later : g ∈ l ∧ g ∉ kept
    · simp [later]
    · rw [if_neg later]
      by_cases here : g = h
      · subst here
        by_cases keep : g ∈ kept
        · simp [keep]
        · have width : bitsOf (2 * g + 1) (2 * g) (withBits (2 * g + 1) (2 * g) x (w g)) = w g := by
            rw [bitsOf_withBits_same, show 2 * g + 1 + 1 - 2 * g = 2 by omega]
            exact Nat.mod_eq_of_lt (small g)
          simp [keep, width]
      · have same : (g ∈ h :: l ∧ g ∉ kept) ↔ (g ∈ l ∧ g ∉ kept) := by simp [here]
        rw [if_neg (mt same.mp later)]
        split
        · rfl
        · exact bitsOf_withBits_apart _ _ (by omega)

theorem widthAt_group (s : State) (g : Nat) : s.widthAt (4 * g) = s.fld .rsaGroupCfg 0 0 (2 * g + 1) (2 * g) := by
  rw [State.widthAt, Nat.mul_div_cancel_left g (by decide)]

/-- The groups that a write of RSA_GROUP_CFG names with another width than they have. -/
def groupsChanged (s : State) (v : BitVec 32) : List Nat :=
  (List.range 16).filter fun g => bitsOf (2 * g + 1) (2 * g) v.toNat ≠ s.widthAt (4 * g)

/-- Those of them that keep their width (R142). -/
def groupsKept (s : State) (v : BitVec 32) : List Nat :=
  (groupsChanged s v).filter fun g =>
    bitsOf (2 * g + 1) (2 * g) v.toNat = 3 || s.tabs.rules.any fun k c => c.isSome && k / 4096 = g

/-- The register as the write leaves it. -/
def groupsWritten (s : State) (v : BitVec 32) : Nat :=
  (groupsChanged s v).foldl (fun x g => if (groupsKept s v).contains g then x
    else withBits (2 * g + 1) (2 * g) x (bitsOf (2 * g + 1) (2 * g) v.toNat)) (s.reg .rsaGroupCfg 0 0)

theorem exec_rsaGroupCfgWrite {s : State} (q : Quad) (v : BitVec 32) (up : s.reachable .rsaGroupCfg = true)
    (config : s.mode = .config) :
    exec (.rsaGroupCfgWrite .pf0 q v) s = .next
      ((if (groupsKept s v).isEmpty then s else s.configError .pf0 (RegName.addr .rsaGroupCfg q 0)).setReg
        .rsaGroupCfg 0 0 (groupsWritten s v)) := by
  refine congrArg Host.Outcome.next ((rowWrite_of_role up (by decide) _ _ _).trans ?_)
  simp only [config, ne_eq, not_true_eq_false, if_false]
  rfl

theorem bitsOf_groupsWritten (s : State) (v : BitVec 32) {g : Nat} (h : g < 16) :
    bitsOf (2 * g + 1) (2 * g) (groupsWritten s v) =
      if bitsOf (2 * g + 1) (2 * g) v.toNat = 3 ∨ (s.tabs.rules.any fun k c => c.isSome && k / 4096 = g) = true
      then s.widthAt (4 * g) else bitsOf (2 * g + 1) (2 * g) v.toNat := by
  have small : ∀ g, bitsOf (2 * g + 1) (2 * g) v.toNat < 4 := fun g => by
    rw [bitsOf, show 2 * g + 1 + 1 - 2 * g = 2 by omega]
    exact Nat.mod_lt _ (by decide)
  have old : bitsOf (2 * g + 1) (2 * g) (s.reg .rsaGroupCfg 0 0) = s.widthAt (4 * g) := (widthAt_group s g).symm
  rw [groupsWritten, bitsOf_foldl_widths _ small, old]
  by_cases change : bitsOf (2 * g + 1) (2 * g) v.toNat = s.widthAt (4 * g)
  · simp [groupsChanged, change]
  · by_cases keep : bitsOf (2 * g + 1) (2 * g) v.toNat = 3 ∨
        (s.tabs.rules.any fun k c => c.isSome && k / 4096 = g) = true
    · have kept : g ∈ groupsKept s v := by
        simp only [groupsKept, groupsChanged, List.mem_filter, List.mem_range, h, true_and]
        exact ⟨decide_eq_true change, by simpa using keep⟩
      rw [if_pos keep, if_neg fun x => x.2 kept]
    · have kept : g ∉ groupsKept s v := by
        simp only [groupsKept, List.mem_filter, not_and]
        exact fun _ => by simpa using keep
      have changed : g ∈ groupsChanged s v := by
        simp only [groupsChanged, List.mem_filter, List.mem_range]
        exact ⟨h, decide_eq_true change⟩
      rw [if_neg keep, if_pos ⟨changed, kept⟩]

/-- Settles O19. -/
theorem profilesAndGroupsAreSet : Obligations.ProfilesAndGroupsAreSet := by
  refine ⟨?_, ?_, ?_, ?_⟩
  · intro r d b k s ex idle good tiles log place
    refine ⟨_, exec_profileWrite ex idle good tiles log place, ?_, ?_, ?_, ?_⟩
    · rw [profAt_changed, profAt_setProf_same, bornTag_markProf]
      rfl
    · intro o c found apart
      rw [profAt_changed, profAt_setProf_other _ _ apart, found]
      exact profAt_setProf_same _ _ _
    · intro j hj none
      rw [profAt_changed, profAt_setProf_other _ _ hj]
      unfold markProf
      split
      · next o c found =>
        have apart : j ≠ o := fun e => none c (e ▸ found)
        rw [profAt_setProf_other _ _ apart]
        rfl
      · rfl
    · exact change_completes ex (((onlyIn_stepDone s).mono.trans (onlyIn_markProf _ _)).trans (onlyIn_setProf _ _ _))
        (((onlyIn_stepDone s).adds.trans (adds_markProf _ _)).trans (adds_setProf _ _ _)) 0
  · intro r d k c s ex idle found log
    refine ⟨_, exec_profileDelete ex idle found log, ?_, ?_, ?_⟩
    · rw [profAt_changed, profAt_setProf_same]
      rfl
    · intro j hj
      rw [profAt_changed, profAt_setProf_other _ _ hj]
      rfl
    · exact change_completes ex ((onlyIn_stepDone s).mono.trans (onlyIn_setProf _ _ _))
        ((onlyIn_stepDone s).adds.trans (adds_setProf _ _ _)) 0
  · intro q v s up config
    refine ⟨_, exec_rsaGroupCfgWrite q v up config, fun g hg => ?_, ?_⟩
    · rw [widthAt_group, State.fld, State.reg_setReg]
      exact bitsOf_groupsWritten s v hg
    · have error : OnlyIn faultParts s
          (if (groupsKept s v).isEmpty then s else s.configError .pf0 (RegName.addr .rsaGroupCfg q 0)) := by
        split
        · exact .refl _ _
        · exact onlyIn_configError _ _ _
      exact error.mono.trans (onlyIn_setReg _ _ _ _ _).mono
  · intro f q v s up refused
    refine congrArg Host.Outcome.next ?_
    by_cases role : f = .pf0
    · subst role
      have mode : s.mode ≠ .config := refused.resolve_right fun h => h rfl
      refine (rowWrite_of_role up (by decide) _ _ _).trans ?_
      simp only [ne_eq, mode, not_false_eq_true, if_true]
    · exact rowWrite_outside_role up (by cases f <;> first | exact absurd rfl role | decide) _ _ _

end Sys2Proof.Claims

/-! SUPPORT, and O43: policer versions in STAGING, and metering (R48, R54, R350 to R355, Table 11.4). -/

namespace Sys2Proof.Claims

open Sys2Proof.Machine

set_option Elab.async false

/-! Versions of a policer -/

theorem onlyIn_pol (s : State) (x : Policers) : OnlyIn [.pol] s { s with pol := x } :=
  .of fun p => by
    cases p <;> first
      | exact .inl (by decide)
      | exact .inr rfl
      | exact .inr ⟨rfl, rfl, rfl⟩
      | exact .inr fun _ _ _ _ _ => rfl
      | exact .inr fun _ => ⟨rfl, rfl, rfl, rfl, rfl, rfl⟩
      | exact .inr fun _ => ⟨rfl, rfl, rfl, rfl⟩

/-- Buckets become full one quad after the other; nothing else of the policers changes. -/
theorem onlyIn_fillPolicer (s : State) (n : Nat) (born : Gen) : OnlyIn [.pol] s (s.fillPolicer n born) :=
  .runOver (fun _ _ => onlyIn_pol _ _) _ _

theorem polVers_fillPolicer (s : State) (n m : Nat) (born : Gen) :
    (s.fillPolicer n born).polVers m = s.polVers m := rfl

theorem bkts_fillPolicer (s : State) (n : Nat) (born : Gen) {q : Nat} (h : q < 4) :
    (s.fillPolicer n born).pol.bkts.get none (polKey q n born) = none := by
  have put : ∀ (l : List Nat) (t : Tab (Option PolBucket)), (q ∈ l ∨ t.get none (polKey q n born) = none) →
      (l.foldl (fun t q => t.set none (polKey q n born) none) t).get none (polKey q n born) = none := by
    intro l
    induction l with
    | nil => simp
    | cons a l ih =>
      intro t ht
      refine ih _ ?_
      by_cases key : polKey q n born = polKey a n born
      · exact .inr (by rw [key]; exact Tab.get_set_same _ _ _ _)
      · rw [Tab.get_set_other _ _ _ key]
        have other : q ≠ a := fun e => key (e ▸ rfl)
        simpa [other] using ht
  exact put [0, 1, 2, 3] s.pol.bkts (.inl (by simp; omega))

theorem polVers_changed (u : State) (r n : Nat) : ((u.logChange 1).complete r .ok).polVers n = u.polVers n := by
  unfold State.polVers
  rw [complete_pol]
  rfl

/-- The versions of policer `n` once `v` is written into STAGING (R54): in place of one made there; otherwise the visible
one is marked to die there and `v` is added. -/
def polVersWith (s : State) (n : Nat) (v : PolVer) : List PolVer :=
  if (s.polVers n).any (fun x => s.madeInStaging x.tag) then
    (s.polVers n).map (fun x => if s.madeInStaging x.tag then v else x)
  else (s.polVers n).map (fun x => if x.tag.visible s.staging then { x with tag := s.diedTag x.tag } else x) ++ [v]

theorem exec_polWrite {s : State} {r : Ring} {d b : Bytes} (ex : Executing s r 0x0078 d) (idle : SeqIdle s r 0x0078)
    (good : badPolicer b = false) (log : s.logRoom 1 = true) :
    exec (.polWrite r (some b)) s = .next
      ((((s.stepDone.setPolVers (leAt b 0 2) (polVersWith s (leAt b 0 2) (s.polOf b))).fillPolicer (leAt b 0 2)
        s.staging).logChange 1).complete r .ok) := by
  have log' : s.stepDone.logRoom 1 = true := log
  refine congrArg Host.Outcome.next ((recCommand_runs ex idle true b _).trans ?_)
  simp only [good, log', Bool.false_eq_true, if_false, Bool.not_true]
  rfl

/-- The versions of policer `n` once `v`, which is visible in STAGING, is deleted there. -/
def polVersWithout (s : State) (n : Nat) (v : PolVer) : List PolVer :=
  if s.madeInStaging v.tag then (s.polVers n).filter (· ≠ v)
  else (s.polVers n).map (fun x => if x = v then { x with tag := s.diedTag x.tag } else x)

theorem exec_polDelete {s : State} {r : Ring} {d : Bytes} {v : PolVer} (ex : Executing s r 0x0079 d)
    (idle : SeqIdle s r 0x0079) (found : s.polAt (leAt d 0x10 2) s.staging = some v) (log : s.logRoom 1 = true) :
    exec (.polDelete r) s = .next
      (((s.stepDone.setPolVers (leAt d 0x10 2) (polVersWithout s (leAt d 0x10 2) v)).logChange 1).complete r .ok) := by
  have found' : s.stepDone.polAt (leAt d 0x10 2) s.stepDone.staging = some v := found
  have log' : s.stepDone.logRoom 1 = true := log
  refine congrArg Host.Outcome.next ((seqCommand_runs ex idle true _).trans ?_)
  simp only [found', log', Bool.false_eq_true, if_false, Bool.not_true]
  rfl

theorem exec_polRead {s : State} {r : Ring} {d : Bytes} {v : PolVer} (ex : Executing s r 0x007A d)
    (idle : SeqIdle s r 0x007A) (live : s.live (BitVec.ofNat 16 (leAt d 0x12 2)) = true)
    (found : s.polAt (leAt d 0x10 2) (BitVec.ofNat 16 (leAt d 0x12 2)) = some v) :
    exec (.polRead r true) s = .next ((s.stepDone.dmaWrite r (descAddr d) (v.bytes (leAt d 0x10 2) ++
      v.levels ((s.pol.bkts.get none (polKey (byteAt d 0x14) (leAt d 0x10 2) v.tag.born)).getD (v.full 0)))).complete
        r .ok) := by
  have live' : s.stepDone.live (BitVec.ofNat 16 (leAt d 0x12 2)) = true := live
  have found' : s.stepDone.polAt (leAt d 0x10 2) (BitVec.ofNat 16 (leAt d 0x12 2)) = some v := found
  refine congrArg Host.Outcome.next ((resultCommand_runs ex idle.1 idle.2.1 idle.2.2.2 _).trans ?_)
  simp only [live', found', Bool.false_eq_true, if_false, Bool.not_true]
  rfl

/-! Metering -/

/-- What a quad notes of a frame that it meters: the buckets, the count of its colour, and the counter pair. -/
def meterNoted (s : State) (key : Nat) (b : PolBucket) (q : Nat) (v : PolVer) (col len : Nat) : State :=
  let s := ({ s with pol := { s.pol with bkts := s.pol.bkts.set none key (some b) } } : State).bump (cntPol q col)
  if bitOf 3 v.flags then s.countPair (v.pair + col) len else s

theorem onlyIn_meterNoted (s : State) (key : Nat) (b : PolBucket) (q : Nat) (v : PolVer) (col len : Nat) :
    OnlyIn [.cnts, .pol, .pmc] s (meterNoted s key b q v col len) := by
  have counted := (onlyIn_pol s { s.pol with bkts := s.pol.bkts.set none key (some b) }).mono
    (qs := [.cnts, .pol, .pmc]) |>.trans (onlyIn_bump _ (cntPol q col)).mono
  unfold meterNoted
  dsimp only
  split
  · exact counted.trans (onlyIn_countPair _ _ _).mono
  · exact counted

theorem pol_meterNoted (s : State) (key : Nat) (b : PolBucket) (q : Nat) (v : PolVer) (col len : Nat) :
    (meterNoted s key b q v col len).pol = { s.pol with bkts := s.pol.bkts.set none key (some b) } := by
  unfold meterNoted
  dsimp only
  split <;> rfl

/-- A quad meters a frame that is not late (R351, R352). -/
theorem meterFrame_eq {s : State} {f n : Nat} {v : PolVer} (by_ : s.meteredBy (s.frame f) = some (n, v))
    (early : (s.frame f).meter ≠ .late) {key : Nat} {k : PolBucket}
    (hkey : key = polKey ((s.frame f).slice / 4) n v.tag.born)
    (hk : k = (s.pol.bkts.get none key).getD (v.full (s.frame f).sofNs)) {m : Int × Int × Nat}
    (hm : m = v.meter k (min ((s.frame f).sofNs - k.last) (2 ^ 32)) (mubits ((s.frame f).len + 4))
      (if bitOf 0 v.flags then s.inColour (s.frame f) else 0)) :
    s.meterFrame f = (meterNoted s key ⟨m.1, m.2.1, (s.frame f).sofNs⟩ ((s.frame f).slice / 4) v m.2.2
      ((s.frame f).len + 4)).setFrame f { s.frame f with colour := m.2.2, meter := .done } := by
  subst hkey hk hm
  simp only [State.meterFrame, by_, early]
  rfl

/-- Metering keeps a bucket between 0 and its burst (R352): it adds up to the burst, and takes what is there. -/
theorem meter_bounds (v : PolVer) (k : PolBucket) (d inc n : Nat) (h1 : 0 ≤ k.tc) (h2 : 0 ≤ k.t2) :
    0 ≤ (v.meter k d (mubits n) inc).1 ∧ (v.meter k d (mubits n) inc).1 ≤ mubits v.burst1 ∧
      0 ≤ (v.meter k d (mubits n) inc).2.1 ∧ (v.meter k d (mubits n) inc).2.1 ≤ mubits v.burst2 := by
  have b : 0 ≤ mubits n := Int.natCast_nonneg _
  have b1 : 0 ≤ mubits v.burst1 := Int.natCast_nonneg _
  have b2 : 0 ≤ mubits v.burst2 := Int.natCast_nonneg _
  have a1 : (0 : Int) ≤ (d * v.rate1 : Nat) := Int.natCast_nonneg _
  have a2 : (0 : Int) ≤ (d * v.rate2 : Nat) := Int.natCast_nonneg _
  unfold PolVer.meter
  generalize mubits n = b at *
  generalize mubits v.burst1 = b1 at *
  generalize mubits v.burst2 = b2 at *
  generalize ((d * v.rate1 : Nat) : Int) = a1 at *
  generalize ((d * v.rate2 : Nat) : Int) = a2 at *
  dsimp only
  split_ifs <;> dsimp only <;> omega

/-- Settles O43. -/
theorem policersAreWrittenAndMeter : Obligations.PolicersAreWrittenAndMeter := by
  refine ⟨?_, ?_, ?_, ?_, ?_, ?_⟩
  · intro r d b s ex idle good log
    refine ⟨_, exec_polWrite ex idle good log, ?_, ?_, ?_, ?_⟩
    · rw [polVers_changed, polVers_fillPolicer, State.polVers_setPolVers]
      rfl
    · intro q hq
      rw [complete_pol, (onlyIn_logChange _ _).pol_eq]
      exact bkts_fillPolicer _ _ _ hq
    · intro m hm
      rw [polVers_changed, polVers_fillPolicer, State.polVers_setPolVers_other _ _ hm]
      rfl
    · exact change_completes ex (((onlyIn_stepDone s).mono.trans (onlyIn_setPolVers _ _ _).mono).trans
        (onlyIn_fillPolicer _ _ _).mono (ps := [.tabs, .pol]))
        (((onlyIn_stepDone s).adds.trans (onlyIn_setPolVers _ _ _).adds).trans (onlyIn_fillPolicer _ _ _).adds) 0
  · intro r d v s ex idle found log
    refine ⟨_, exec_polDelete ex idle found log, ?_, ?_, ?_⟩
    · rw [polVers_changed, State.polVers_setPolVers]
      rfl
    · intro m hm
      rw [polVers_changed, State.polVers_setPolVers_other _ _ hm]
      rfl
    · exact change_completes ex ((onlyIn_stepDone s).mono.trans (onlyIn_setPolVers _ _ _).mono (ps := [.tabs, .pol]))
        ((onlyIn_stepDone s).adds.trans (onlyIn_setPolVers _ _ _).adds) 0
  · intro r d v s ex idle live found
    obtain ⟨written, completed, only⟩ := result_completes (qs := [.regs, .cntCfg, .cnts, .out, .draws, .gen, .hif, .eic,
      .flt, .kiln, .tabs]) ex (onlyIn_stepDone s) (onlyIn_stepDone s).adds (descAddr d) (v.bytes (leAt d 0x10 2) ++
        v.levels ((s.pol.bkts.get none (polKey (byteAt d 0x14) (leAt d 0x10 2) v.tag.born)).getD (v.full 0))) 0 []
    exact ⟨_, exec_polRead ex idle live found, written, only.pol_eq, completed, only⟩
  · intro q f n v k s next by_ early hk
    have run : exec (.policerMeter q) s = .next (s.meterFrame f) := by
      refine congrArg Host.Outcome.next ?_
      simp only [next]
    rw [run, meterFrame_eq by_ early rfl hk rfl]
    refine ⟨_, rfl, ⟨?_, State.frame_setFrame _ _ _⟩, ?_, ?_, ?_⟩
    · rw [(onlyIn_setFrame _ _ _).pol_eq, pol_meterNoted]
      exact Tab.get_set_same _ _ _ _
    · intro g hg
      rw [State.frame_setFrame_other _ _ hg]
      unfold State.frame
      rw [(onlyIn_meterNoted _ _ _ _ _ _ _).frames_eq]
    · rw [(onlyIn_setFrame _ _ _).pol_eq, pol_meterNoted]
    · exact (onlyIn_meterNoted _ _ _ _ _ _ _).mono.trans (onlyIn_setFrame _ _ _).mono
  · intro f s holds
    have run : exec (.policerLate f) s =
        .next ((s.advanceTo ((s.frame f).sofNs + 16000)).modFrame f fun x => { x with meter := .late }) := by
      refine congrArg Host.Outcome.next ?_
      simp only [holds, if_true]
    refine ⟨_, run, ?_, State.frame_setFrame _ _ _, fun g hg => State.frame_setFrame_other _ _ hg,
      (onlyIn_advance _ _).mono.trans (onlyIn_modFrame _ _ _).mono⟩
    show s.now + ((s.frame f).sofNs + 16000 - s.now) = _
    omega
  · exact fun v k d inc n h1 h2 => meter_bounds v k d inc n h1 h2

end Sys2Proof.Claims

/-! SUPPORT, and O27: circuit versions in STAGING (R54, R207 to R218, R562). -/

namespace Sys2Proof.Claims

open Sys2Proof.Machine

set_option Elab.async false

/-! Circuit versions -/

/-- What writing a circuit version may change before its change record. -/
abbrev circuitParts : List Part := [.tabs, .glz, .cnts, .cntCfg, .units, .hbm]

/-- The versions of circuit `c` are replaced, and the new one is written to HBM. -/
def putVersions (s : State) (c : Nat) (l : List CirVer) (born : Gen) : State :=
  (s.setCirVers c l).structWrite (.version c born)

theorem onlyIn_putVersions (s : State) (c : Nat) (l : List CirVer) (born : Gen) :
    OnlyIn circuitParts s (putVersions s c l born) :=
  (onlyIn_setCirVers _ _ _).mono.trans (onlyIn_structWrite _ _).mono

theorem adds_putVersions (s : State) (c : Nat) (l : List CirVer) (born : Gen) : Adds s (putVersions s c l born) :=
  (onlyIn_setCirVers _ _ _).adds.trans (onlyIn_structWrite _ _).adds

theorem glz_putVersions (s : State) (c : Nat) (l : List CirVer) (born : Gen) :
    (putVersions s c l born).glz = { s.glz with cir := s.glz.cir.set [] c l } := (onlyIn_structWrite _ _).glz_eq

theorem cirVers_of_glz {s t : State} (h : t.glz = s.glz) (c : Nat) : t.cirVers c = s.cirVers c := by
  rw [State.cirVers, h, State.cirVers]

/-- A version goes into STAGING when the pool and the log have room (R54, R211). -/
theorem putCircuit_eq {s : State} {c : Nat} (r : Nat) (v : CirVer) (after : State → State) (pool : PoolRoom s c)
    (log : s.logRoom 1 = true) :
    s.putCircuit r c v after =
      (after ((putVersions s c (newVersions s (s.cirVers c) v) v.tag.born).logChange 1)).complete r .ok := by
  have fits : (!((s.cirVers c).any fun x => s.madeInStaging x.tag) && !(s.cirVers c).isEmpty &&
      decide (65536 ≤ s.poolUsed)) = false := by
    rcases pool with none | made | room
    · simp [none]
    · rw [made]; rfl
    · simp [Nat.not_le.mpr room]
  simp only [State.putCircuit, fits, log, Bool.false_eq_true, if_false, Bool.not_true]
  rfl

theorem PoolRoom.stepDone {s : State} {c : Nat} (h : PoolRoom s c) : PoolRoom s.stepDone c := h

theorem exec_cirWrite {s : State} {r : Ring} {d b : Bytes} (ex : Executing s r 0x0050 d) (idle : SeqIdle s r 0x0050)
    (good : s.badCircuit b = false) (free : s.eqBusy (leAt d 0x10 2) (byteAt b 9) (leAt b 0x0A 2) = false)
    (pool : PoolRoom s (leAt d 0x10 2)) (log : s.logRoom 1 = true) :
    exec (.cirWrite r (some b)) s = .next
      (((putVersions s.stepDone (leAt d 0x10 2) (newVersions s (s.cirVers (leAt d 0x10 2))
        (s.cirOf b (s.cirAt (leAt d 0x10 2) s.staging))) s.staging).logChange 1).complete r .ok) := by
  have good' : s.stepDone.badCircuit b = false := good
  have free' : s.stepDone.eqBusy (leAt d 0x10 2) (byteAt b 9) (leAt b 0x0A 2) = false := free
  refine congrArg Host.Outcome.next ((recCommand_runs ex idle true b _).trans ?_)
  simp only [good', free', Bool.false_eq_true, if_false]
  exact putCircuit_eq r _ id pool.stepDone log

/-- The versions of circuit `c` once `v`, which is visible in STAGING, is deleted there (R54). -/
def cirVersWithout (s : State) (c : Nat) (v : CirVer) : List CirVer :=
  if s.madeInStaging v.tag then (s.cirVers c).filter (· ≠ v)
  else (s.cirVers c).map fun x => if x = v then { x with tag := s.diedTag x.tag } else x

theorem exec_cirDelete {s : State} {r : Ring} {d : Bytes} {v : CirVer} (ex : Executing s r 0x0051 d)
    (idle : SeqIdle s r 0x0051) (found : s.cirAt (leAt d 0x10 2) s.staging = some v)
    (free : ∀ k, k < 4 → s.saIn (4 * leAt d 0x10 2 + k) s.staging = none) (log : s.logRoom 1 = true) :
    exec (.cirDelete r) s = .next
      (((s.stepDone.setCirVers (leAt d 0x10 2) (cirVersWithout s (leAt d 0x10 2) v)).logChange 1).complete r .ok) := by
  have found' : s.stepDone.cirAt (leAt d 0x10 2) s.stepDone.staging = some v := found
  have log' : s.stepDone.logRoom 1 = true := log
  have free' : ((List.range 4).any fun k =>
      (s.stepDone.saIn (4 * leAt d 0x10 2 + k) s.stepDone.staging).isSome) = false := by
    rw [List.any_eq_false]
    intro k hk
    have none : s.stepDone.saIn (4 * leAt d 0x10 2 + k) s.stepDone.staging = none := free k (List.mem_range.mp hk)
    simp [none]
  refine congrArg Host.Outcome.next ((seqCommand_runs ex idle true _).trans ?_)
  simp only [found', free', log', Bool.false_eq_true, if_false, Bool.not_true]
  rfl

/-- The flags that CIR_READ answers (R249). -/
def cirFlags (x : CirState) : Nat := boolBit x.disabled + 2 * boolBit x.suspended + 4 * boolBit (!x.flushes.isEmpty)

theorem exec_cirRead {s : State} {r : Ring} {d : Bytes} {v : CirVer} (ex : Executing s r 0x0052 d)
    (idle : SeqIdle s r 0x0052) (live : s.live (BitVec.ofNat 16 (leAt d 0x12 2)) = true)
    (found : s.cirAt (leAt d 0x10 2) (BitVec.ofNat 16 (leAt d 0x12 2)) = some v) :
    exec (.cirRead r true) s = .next
      (((s.stepDone.draw 32).2.dmaWrite r (descAddr d) (v.bytes (s.stepDone.draw 32).1.toNat)).complete r .ok 0
        (leBytes 1 (cirFlags (s.cirState (leAt d 0x10 2))))) := by
  have live' : s.stepDone.live (BitVec.ofNat 16 (leAt d 0x12 2)) = true := live
  have found' : s.stepDone.cirAt (leAt d 0x10 2) (BitVec.ofNat 16 (leAt d 0x12 2)) = some v := found
  refine congrArg Host.Outcome.next ((resultCommand_runs ex idle.1 idle.2.1 idle.2.2.2 _).trans ?_)
  simp only [live', found', Bool.false_eq_true, if_false, Bool.not_true]
  rfl

theorem cirVers_changed (u : State) (r c : Nat) : ((u.logChange 1).complete r .ok).cirVers c = u.cirVers c :=
  cirVers_of_glz (by rw [complete_glz]; rfl) c

/-- TX_SEL of a record's version: that of the version visible before, unless the slice or the EQ changes (R208). -/
theorem txSel_cirOf (s : State) (b : Bytes) (o : CirVer) (sound : o.poison = false) :
    (s.cirOf b (some o)).txSel =
      if o.port / 8 = byteAt b 9 / 8 ∧ o.eq = leAt b 0x0A 2 then o.txSel else 0xFF := by
  by_cases same : o.port / 8 = byteAt b 9 / 8 ∧ o.eq = leAt b 0x0A 2
  · simp [State.cirOf, Option.filter, sound, same]
  · have other : (decide (o.port / 8 = byteAt b 9 / 8) && decide (o.eq = leAt b 0x0A 2)) = false := by
      simpa using same
    simp [State.cirOf, Option.filter, other, same]

/-- Settles O27. -/
theorem circuitsAreWrittenDeletedAndRead : Obligations.CircuitsAreWrittenDeletedAndRead := by
  refine ⟨?_, ?_, ?_⟩
  · intro r d b s ex idle good free pool log
    refine ⟨_, s.cirOf b (s.cirAt (leAt d 0x10 2) s.staging), exec_cirWrite ex idle good free pool log, ?_, rfl, rfl,
      rfl, rfl, rfl, rfl, rfl, rfl, rfl, ?_, ?_, ?_, ?_, ?_, ?_, ?_⟩
    · rw [cirVers_changed, State.cirVers, glz_putVersions]
      exact Tab.get_set_same _ _ _ _
    · intro o found sound
      rw [found]
      exact txSel_cirOf s b o sound
    · intro none
      rw [none]
      rfl
    · intro mode
      have mode' : byteAt b 8 = 1 := mode
      simp only [State.cirOf, State.overhead, mode', if_true]
    · intro mode
      have mode' : byteAt b 8 = 2 := mode
      simp only [State.cirOf, State.overhead, mode', if_true, show ¬ (2 = 1) by decide, if_false]
    · intro mode
      have mode' : byteAt b 8 = 3 := mode
      simp only [State.cirOf, State.overhead, mode', show ¬ (3 = 1) by decide, show ¬ (3 = 2) by decide, if_false]
    · intro c hc
      rw [cirVers_changed, State.cirVers, glz_putVersions]
      exact Tab.get_set_other _ _ _ hc
    · exact change_completes ex ((onlyIn_stepDone s).mono.trans (onlyIn_putVersions _ _ _ _))
        ((onlyIn_stepDone s).adds.trans (adds_putVersions _ _ _ _)) 0
  · intro r d v s ex idle found free log
    refine ⟨_, exec_cirDelete ex idle found free log, ?_, ?_, ?_⟩
    · rw [cirVers_changed, State.cirVers_setCirVers]
      rfl
    · intro c hc
      rw [cirVers_changed, State.cirVers_setCirVers_other _ _ hc]
      rfl
    · exact change_completes ex ((onlyIn_stepDone s).mono.trans (onlyIn_setCirVers _ _ _).mono (ps := [.tabs, .glz]))
        ((onlyIn_stepDone s).adds.trans (onlyIn_setCirVers _ _ _).adds) 0
  · intro r d v s ex idle live found
    have drawn : OnlyIn [.tabs, .draws] s (s.stepDone.draw 32).2 :=
      (onlyIn_stepDone s).mono.trans (onlyIn_draw _ _).mono
    obtain ⟨written, completed, only⟩ := result_completes (qs := [.regs, .cntCfg, .cnts, .out, .draws, .gen, .hif, .eic,
      .flt, .kiln, .tabs]) ex drawn drawn.adds (descAddr d) (v.bytes (s.stepDone.draw 32).1.toNat) 0
        (leBytes 1 (cirFlags (s.cirState (leAt d 0x10 2))))
    exact ⟨_, _, exec_cirRead ex idle live found, written, completed, only.glz_eq, only⟩

end Sys2Proof.Claims

/-! SUPPORT, and O29: security associations in STAGING, and the ICV holdoff (R54, R209 to R214, R243 to R248, R562). -/

namespace Sys2Proof.Claims

open Sys2Proof.Machine

set_option Elab.async false

/-! Bytes of a part of a record -/

theorem byteAt_sliceOf (b : Bytes) {off n k : Nat} (h : k < n) : byteAt (sliceOf b off n) k = byteAt b (off + k) := by
  unfold byteAt sliceOf
  by_cases hb : off + k < b.length
  · rw [List.getD_append _ _ _ _ (by simp; omega)]
    simp [List.getD_eq_getElem?_getD, h]
  · rw [List.getD_append_right _ _ _ _ (by simp; omega)]
    simp [List.getD_eq_getElem?_getD, List.getElem?_eq_none (Nat.le_of_not_lt hb), zeros]

/-! A record for an event ring leaves the other rings -/

theorem ring_of_hif {s t : State} (h : t.hif = s.hif) (q : Nat) : t.ring q = s.ring q := by rw [State.ring, h, State.ring]

theorem ring_touchCtx (s : State) (r q : Nat) : (s.touchCtx r).ring q = s.ring q := by
  unfold State.touchCtx
  split <;> rfl

theorem ring_ringIrq_other (s : State) {r q : Nat} (h : q ≠ r) : (s.ringIrq r).ring q = s.ring q := by
  simp only [State.ringIrq]
  split
  · split
    · rfl
    · split
      · exact ring_of_hif (onlyIn_eicEvent _ _).hif_eq q
      · split
        · exact State.ring_setRing_other _ _ h
        · exact (ring_of_hif (onlyIn_eicEvent _ _).hif_eq q).trans (State.ring_setRing_other _ _ h)
  · rfl

theorem ring_writeBack (s : State) (r q : Nat) : (s.writeBack r).ring q = s.ring q := by
  simp only [State.writeBack]
  split
  · exact ring_of_hif (onlyIn_emit _ _).hif_eq q
  · rfl

theorem ring_putRecord_other (s : State) {r q : Nat} (type time : Nat) (body : Bytes) (h : q ≠ r) :
    (s.putRecord r type time body).ring q = s.ring q := by
  simp only [State.putRecord]
  rw [ring_ringIrq_other _ h, ring_writeBack, State.ring_setRing_other _ _ h, ring_touchCtx]
  exact ring_of_hif (onlyIn_emit _ _).hif_eq q

theorem ring_putOverflow_other (s : State) {r q : Nat} (h : q ≠ r) : (s.putOverflow r).ring q = s.ring q := by
  simp only [State.putOverflow]
  split
  · rfl
  · rw [ring_putRecord_other _ _ _ _ h, State.ring_setRing_other _ _ h]

theorem ring_writeRecord_other (s : State) (f : Fn) {r q : Nat} (type time : Nat) (body : Bytes) (h : q ≠ r) :
    (s.writeRecord f r type time body).ring q = s.ring q := by
  have lose (s : State) : (s.loseRecord r).ring q = s.ring q := ring_of_hif (onlyIn_loseRecord _ _).hif_eq q
  simp only [State.writeRecord]
  split
  · split
    · split
      · rw [State.ring_setRing_other _ _ h, lose]
      · exact lose s
    · rfl
  · split
    · rw [State.ring_setRing_other _ _ h, lose, ring_putOverflow_other _ h]
    · rw [ring_putRecord_other _ _ _ _ h, ring_putOverflow_other _ h]

/-- A ring that holds no event records takes none. -/
theorem ring_writeRecord_kind (s : State) (f : Fn) (r : Nat) (type time : Nat) (body : Bytes) {q : Nat}
    (h : ((s.ring q).ctx.any fun c => c.kind = 5) = false) : (s.writeRecord f r type time body).ring q = s.ring q := by
  by_cases same : q = r
  · subst same
    simp [State.writeRecord, State.ringIs, h]
  · exact ring_writeRecord_other _ _ _ _ _ same

theorem Executing.no_records {s : State} {r : Ring} {op : Nat} {d : Bytes} (h : Executing s r op d) :
    ((s.ring r).ctx.any fun c => c.kind = 5) = false := by
  obtain ⟨-, c, ctx, kind⟩ := h
  rw [ctx, Option.any_some, decide_eq_false]
  omega

/-! Security associations -/

theorem saOf_of_glz {s t : State} (h : t.glz = s.glz) (i : Nat) : t.saOf i = s.saOf i := by rw [State.saOf, h, State.saOf]

theorem saOf_of_saIn {s : State} {i : Nat} {g : Gen} {x : Sa} (h : s.saIn i g = some x) : s.saOf i = some x := by
  unfold State.saIn at h
  exact (Option.filter_eq_some_iff.mp h).1

theorem onlyIn_indexWrite (s : State) (a : Sa) : OnlyIn unitParts s (s.indexWrite a) := by
  simp only [State.indexWrite]
  split
  · exact .refl _ _
  · exact (onlyIn_structWrite _ _).trans (onlyIn_structWrite _ _)

/-- An SA is stored, with what HBM holds of it. -/
def putSa (s : State) (i : Nat) (a : Sa) : State := ((s.setSa i (some a)).structWrite (.sa i)).indexWrite a

theorem onlyIn_putSa (s : State) (i : Nat) (a : Sa) : OnlyIn circuitParts s (putSa s i a) :=
  ((onlyIn_setSa _ _ _).mono.trans (onlyIn_structWrite _ _).mono).trans (onlyIn_indexWrite _ _).mono

theorem adds_putSa (s : State) (i : Nat) (a : Sa) : Adds s (putSa s i a) :=
  ((onlyIn_setSa _ _ _).adds.trans (onlyIn_structWrite _ _).adds).trans (onlyIn_indexWrite _ _).adds

theorem saOf_putSa (s : State) (i j : Nat) (a : Sa) : (putSa s i a).saOf j = (s.setSa i (some a)).saOf j :=
  (saOf_of_glz (onlyIn_indexWrite _ _).glz_eq j).trans (saOf_of_glz (onlyIn_structWrite _ _).glz_eq j)

theorem saOf_changed (u : State) (r i : Nat) : ((u.logChange 1).complete r .ok).saOf i = u.saOf i :=
  saOf_of_glz (by rw [complete_glz]; rfl) i

/-- SA_LOAD of a record that passes every check of R562. -/
theorem exec_saLoad {s : State} {r : Ring} {d b plain : Bytes} {v : CirVer} (ex : Executing s r 0x0060 d)
    (idle : SeqIdle s r 0x0060) (record : badSaRecord b = false) (blob : badBlob (sliceOf b 64 64) = false)
    (circuit : s.cirAt (leAt b 0 2) s.staging = some v) (suite : suiteMacsec (byteAt b 4) = decide (v.mode = 1))
    (port : byteAt b 3 = 1 → byteAt b 7 / 8 = v.port / 8) (empty : s.saOf (4 * leAt b 0 2 + byteAt b 2) = none)
    (key : (s.glz.sa.any fun _ x => x.any fun x => x.sameKey (s.saFrom b [])) = false)
    (slot : byteAt b 67 = s.fuses.kekSlot)
    (unwrap : kwUnwrap (s.kek s.fuses.kekSlot) (sliceOf (sliceOf b 64 64) 16 (leAt (sliceOf b 64 64) 8 2)) = some plain)
    (binding : bindingOk (sliceOf b 64 64) plain (byteAt b 4) = true) (log : s.logRoom 1 = true) :
    exec (.saLoad r (some b)) s = .next
      (((putSa s.stepDone (4 * leAt b 0 2 + byteAt b 2) (s.saFrom b (plain.drop 8))).logChange 1).complete r .ok) := by
  have circuit' : s.stepDone.cirAt (leAt b 0 2) s.stepDone.staging = some v := circuit
  have empty' : s.stepDone.saOf (4 * leAt b 0 2 + byteAt b 2) = none := empty
  have key' : (s.stepDone.glz.sa.any fun _ x => x.any fun x => x.sameKey (s.stepDone.saFrom b [])) = false := key
  have slot' : byteAt (sliceOf b 64 64) 3 = s.stepDone.fuses.kekSlot := (byteAt_sliceOf b (by decide)).trans slot
  have unwrap' : kwUnwrap (s.stepDone.kek s.stepDone.fuses.kekSlot)
      (sliceOf (sliceOf b 64 64) 16 (leAt (sliceOf b 64 64) 8 2)) = some plain := unwrap
  have log' : s.stepDone.logRoom 1 = true := log
  have fits : (decide ¬((suiteMacsec (byteAt b 4) = true) = (v.mode = 1)) ||
      decide (byteAt b 3 = 1) && decide ¬(byteAt b 7 / 8 = v.port / 8)) = false := by
    by_cases rx : byteAt b 3 = 1
    · simp [suite, port rx]
    · simp [suite, rx]
  refine congrArg Host.Outcome.next ((recCommand_runs ex idle true b _).trans ?_)
  simp only [record, blob, circuit', fits, empty', key', slot', unwrap', binding, log', Bool.or_self, Option.isSome_none,
    ne_eq, not_true_eq_false, Bool.false_eq_true, if_false, Bool.not_true]
  rfl

theorem exec_saDelete {s : State} {r : Ring} {d : Bytes} {x : Sa} (ex : Executing s r 0x0061 d)
    (idle : SeqIdle s r 0x0061) (found : s.saIn (4 * leAt d 0x10 2 + byteAt d 0x12) s.staging = some x)
    (free : ∀ v, s.cirAt (leAt d 0x10 2) s.staging = some v → v.txSel ≠ byteAt d 0x12) (log : s.logRoom 1 = true) :
    exec (.saDelete r) s = .next
      (((s.stepDone.setSa (4 * leAt d 0x10 2 + byteAt d 0x12) (if s.madeInStaging x.tag then none
        else some { x with tag := s.diedTag x.tag })).logChange 1).complete r .ok) := by
  have found' : s.stepDone.saIn (4 * leAt d 0x10 2 + byteAt d 0x12) s.stepDone.staging = some x := found
  have log' : s.stepDone.logRoom 1 = true := log
  have free' : ((s.stepDone.cirAt (leAt d 0x10 2) s.stepDone.staging).any fun v => v.txSel = byteAt d 0x12) = false := by
    change ((s.cirAt (leAt d 0x10 2) s.staging).any fun v => decide (v.txSel = byteAt d 0x12)) = false
    cases h : s.cirAt (leAt d 0x10 2) s.staging with
    | none => rfl
    | some v => simpa using free v h
  refine congrArg Host.Outcome.next ((seqCommand_runs ex idle true _).trans ?_)
  simp only [found', free', log', Bool.false_eq_true, if_false, Bool.not_true]
  rfl

/-! An SA is bound (R213, R228) -/

/-- What SA_PN_SOFT may change. -/
abbrev softParts : List Part := .glz :: recordParts

theorem onlyIn_glzRecord (s : State) (type sa an count number : Nat) :
    OnlyIn recordParts s (s.glzRecord type sa an count number) := onlyIn_writeRecord _ _ _ _ _ _

theorem onlyIn_softCheck (s : State) (k : Nat) : OnlyIn softParts s (s.softCheck k) := by
  simp only [State.softCheck]
  split
  · split
    · exact .refl _ _
    · exact (onlyIn_setSa _ _ _).mono.trans (onlyIn_glzRecord _ _ _ _ _ _).mono
  · exact .refl _ _

theorem adds_softCheck (s : State) (k : Nat) : Adds s (s.softCheck k) := by
  simp only [State.softCheck]
  split
  · split
    · exact .refl _
    · exact (onlyIn_setSa _ _ _).adds.trans (adds_writeRecord _ _ _ _ _ _)
  · exact .refl _

theorem ring_softCheck (s : State) (k : Nat) {q : Nat} (h : ((s.ring q).ctx.any fun c => c.kind = 5) = false) :
    (s.softCheck k).ring q = s.ring q := by
  simp only [State.softCheck]
  split
  · split
    · rfl
    · exact ring_writeRecord_kind _ _ _ _ _ _ (q := q) h
  · rfl

/-- What SA_SELECT_TX sets of an SA, or keeps. -/
def saKept (a : Sa) : Option (Nat × Nat) × KeyStore × Nat := (a.bound, a.keyStore, a.initPn)

/-- SA_PN_SOFT marks the SA alone. -/
theorem saKept_softCheck (s : State) (k : Nat) :
    ((s.softCheck k).saOf k).map saKept = (s.saOf k).map saKept := by
  simp only [State.softCheck]
  split
  · next a ha =>
    split
    · rfl
    · rw [saOf_of_glz (onlyIn_glzRecord _ _ _ _ _ _).glz_eq, State.saOf_setSa, ha]
      rfl
  · rfl

theorem numbers_softCheck (s : State) (k : Nat) :
    (s.softCheck k).glz.cir = s.glz.cir ∧ (s.softCheck k).glz.nextPn = s.glz.nextPn ∧
      (s.softCheck k).glz.nextPnB = s.glz.nextPnB := by
  simp only [State.softCheck]
  split
  · split
    · exact ⟨rfl, rfl, rfl⟩
    · rw [(onlyIn_glzRecord _ _ _ _ _ _).glz_eq]
      exact ⟨rfl, rfl, rfl⟩
  · exact ⟨rfl, rfl, rfl⟩

/-- The binding of an SA is noted among STAGING's. -/
def noteBinding (s : State) (i : Nat) : State :=
  { s with gen := { s.gen with bindings := s.gen.bindings ++ [(s.staging.toNat, i)] } }

/-- An unbound SA takes its binding: noted among STAGING's, and its transmit number starts at INIT_PN. -/
def bindFresh (s : State) (i slice eq : Nat) (x : Sa) : State :=
  (noteBinding (s.setSa i (some { x with bound := some (slice, eq) })) i).setPn (pnKey slice eq (i % 4)) x.initPn

theorem bindSa_bound {s : State} {i slice eq : Nat} {x : Sa} (sa : s.saOf i = some x) (h : x.bound.isSome = true) :
    s.bindSa i slice eq = s := by
  simp only [State.bindSa, sa, h, if_true]

theorem bindSa_fresh {s : State} {i slice eq : Nat} {x : Sa} (sa : s.saOf i = some x) (h : x.bound = none) :
    s.bindSa i slice eq = (bindFresh s i slice eq x).softCheck i := by
  simp only [State.bindSa, sa, h, Option.isSome_none, Bool.false_eq_true, if_false]
  rfl

theorem onlyIn_setPn (s : State) (key n : Nat) : OnlyIn [.glz, .hbm] s (s.setPn key n) :=
  ((onlyIn_glz s _).mono.trans (onlyIn_wordWrite _ _ _).mono).trans (onlyIn_wordWrite _ _ _).mono

theorem onlyIn_bindFresh (s : State) (i slice eq : Nat) (x : Sa) :
    OnlyIn [.glz, .gen, .hbm] s (bindFresh s i slice eq x) :=
  ((onlyIn_setSa _ _ _).mono.trans (onlyIn_gen _ _).mono).trans (onlyIn_setPn _ _ _).mono

theorem saOf_bindFresh (s : State) (i slice eq : Nat) (x : Sa) :
    (bindFresh s i slice eq x).saOf i = some { x with bound := some (slice, eq) } := State.saOf_setSa s i _

theorem onlyIn_bindSa (s : State) (i slice eq : Nat) :
    OnlyIn [.glz, .gen, .hbm, .out, .cnts, .cntCfg, .hif, .eic] s (s.bindSa i slice eq) := by
  cases hx : s.saOf i with
  | none =>
    simp only [State.bindSa, hx]
    exact .refl _ _
  | some x =>
    cases hb : x.bound with
    | none =>
      rw [bindSa_fresh hx hb]
      exact (onlyIn_bindFresh _ _ _ _ _).mono.trans (onlyIn_softCheck _ _).mono
    | some b =>
      rw [bindSa_bound hx (by rw [hb]; rfl)]
      exact .refl _ _

theorem adds_bindSa (s : State) (i slice eq : Nat) : Adds s (s.bindSa i slice eq) := by
  cases hx : s.saOf i with
  | none =>
    simp only [State.bindSa, hx]
    exact .refl _
  | some x =>
    cases hb : x.bound with
    | none =>
      rw [bindSa_fresh hx hb]
      exact (onlyIn_bindFresh _ _ _ _ _).adds.trans (adds_softCheck _ _)
    | some b =>
      rw [bindSa_bound hx (by rw [hb]; rfl)]
      exact .refl _

/-- A binding may send SA_PN_SOFT, which no command ring takes. -/
theorem ring_bindSa (s : State) (i slice eq : Nat) {q : Nat} (h : ((s.ring q).ctx.any fun c => c.kind = 5) = false) :
    (s.bindSa i slice eq).ring q = s.ring q := by
  cases hx : s.saOf i with
  | none => simp only [State.bindSa, hx]
  | some x =>
    cases hb : x.bound with
    | none =>
      have ring : (bindFresh s i slice eq x).ring q = s.ring q := ring_of_hif (onlyIn_bindFresh _ _ _ _ _).hif_eq q
      rw [bindSa_fresh hx hb, ring_softCheck _ _ (ring ▸ h), ring]
    | some b => rw [bindSa_bound hx (by rw [hb]; rfl)]

/-- What a binding gives: the SA of slot `i`, the numbers of its key, and the note of STAGING. -/
structure Binds (s t : State) (i slice eq : Nat) (x : Sa) : Prop where
  sa : (t.saOf i).map saKept = some (some (slice, eq), x.keyStore, x.initPn)
  fresh : x.bound = none → t.glz.nextPn.get 0 (pnKey slice eq (i % 4)) = x.initPn ∧
    t.glz.nextPnB.get 0 (pnKey slice eq (i % 4)) = x.initPn ∧ (s.staging.toNat, i) ∈ t.gen.bindings
  kept : x.bound ≠ none → t.glz.nextPn = s.glz.nextPn ∧ t.glz.nextPnB = s.glz.nextPnB
  versions : t.glz.cir = s.glz.cir

theorem binds_bindSa {s : State} {i slice eq : Nat} {x : Sa} (sa : s.saOf i = some x)
    (free : x.bound = none ∨ x.bound = some (slice, eq)) : Binds s (s.bindSa i slice eq) i slice eq x := by
  rcases free with fresh | bound
  · have numbers := numbers_softCheck (bindFresh s i slice eq x) i
    rw [bindSa_fresh sa fresh]
    refine ⟨?_, fun _ => ⟨?_, ?_, ?_⟩, fun h => absurd fresh h, numbers.1⟩
    · rw [saKept_softCheck, saOf_bindFresh]
      rfl
    · rw [numbers.2.1]
      exact Tab.get_set_same _ _ _ _
    · rw [numbers.2.2]
      exact Tab.get_set_same _ _ _ _
    · rw [(onlyIn_softCheck _ _).gen_eq]
      exact List.mem_append_right _ (List.mem_singleton.mpr rfl)
  · rw [bindSa_bound sa (by rw [bound]; rfl)]
    refine ⟨?_, fun h => ?_, fun _ => ⟨rfl, rfl⟩, rfl⟩
    · rw [sa, Option.map_some, saKept, bound]
    · rw [bound] at h
      cases h

/-- SA_SELECT_TX up to its binding: the version of STAGING selects slot `k`. -/
def selectTx (s : State) (c k : Nat) (v : CirVer) : State :=
  (putVersions s.stepDone c (newVersions s (s.cirVers c) { v with tag := s.bornTag, txSel := k }) s.staging).logChange 1

theorem onlyIn_selectTx (s : State) (c k : Nat) (v : CirVer) :
    OnlyIn [.tabs, .glz, .cnts, .cntCfg, .units, .hbm, .gen] s (selectTx s c k v) :=
  ((onlyIn_stepDone s).mono.trans (onlyIn_putVersions _ _ _ _).mono).trans (onlyIn_logChange _ _).mono

theorem adds_selectTx (s : State) (c k : Nat) (v : CirVer) : Adds s (selectTx s c k v) := (onlyIn_selectTx s c k v).adds

theorem glz_selectTx (s : State) (c k : Nat) (v : CirVer) :
    (selectTx s c k v).glz = { s.glz with
      cir := s.glz.cir.set [] c (newVersions s (s.cirVers c) { v with tag := s.bornTag, txSel := k }) } :=
  glz_putVersions _ _ _ _

theorem staging_selectTx (s : State) (c k : Nat) (v : CirVer) : (selectTx s c k v).staging = s.staging := by
  have gen := (onlyIn_putVersions s.stepDone c
    (newVersions s (s.cirVers c) { v with tag := s.bornTag, txSel := k }) s.staging).gen_eq
  change State.staging (putVersions _ _ _ _) = _
  rw [State.staging, gen]
  rfl

theorem saOf_selectTx (s : State) (c k : Nat) (v : CirVer) (i : Nat) : (selectTx s c k v).saOf i = s.saOf i := by
  rw [State.saOf, glz_selectTx, State.saOf]

theorem cirVers_selectTx (s : State) (c k : Nat) (v : CirVer) :
    (selectTx s c k v).cirVers c = newVersions s (s.cirVers c) { v with tag := s.bornTag, txSel := k } := by
  rw [State.cirVers, glz_selectTx]
  exact Tab.get_set_same _ _ _ _

theorem nextPn_selectTx (s : State) (c k : Nat) (v : CirVer) :
    (selectTx s c k v).glz.nextPn = s.glz.nextPn ∧ (selectTx s c k v).glz.nextPnB = s.glz.nextPnB := by
  rw [glz_selectTx]
  exact ⟨rfl, rfl⟩

theorem exec_saSelectTx {s : State} {r : Ring} {d : Bytes} {v : CirVer} {x : Sa} (ex : Executing s r 0x0062 d)
    (idle : SeqIdle s r 0x0062) (circuit : s.cirAt (leAt d 0x10 2) s.staging = some v) (slot : byteAt d 0x12 ≤ 3)
    (found : s.saIn (4 * leAt d 0x10 2 + byteAt d 0x12) s.staging = some x) (tx : x.tx = true)
    (free : x.bound = none ∨ x.bound = some (v.port / 8, v.eq)) (pool : PoolRoom s (leAt d 0x10 2))
    (log : s.logRoom 1 = true) :
    exec (.saSelectTx r) s = .next
      (((selectTx s (leAt d 0x10 2) (byteAt d 0x12) v).bindSa (4 * leAt d 0x10 2 + byteAt d 0x12) (v.port / 8)
        v.eq).complete r .ok) := by
  have circuit' : s.stepDone.cirAt (leAt d 0x10 2) s.stepDone.staging = some v := circuit
  have found' : (if byteAt d 0x12 ≤ 3 then
      s.stepDone.saIn (4 * leAt d 0x10 2 + byteAt d 0x12) s.stepDone.staging else none) = some x := by
    rw [if_pos slot]
    exact found
  have free' : (x.bound.any fun b => b ≠ (v.port / 8, v.eq)) = false := by
    rcases free with h | h <;> simp [h]
  refine congrArg Host.Outcome.next ((seqCommand_runs ex idle true _).trans ?_)
  simp only [circuit', found', tx, free', Bool.not_true, Bool.false_eq_true, if_false]
  exact putCircuit_eq r _ _ pool.stepDone log

theorem exec_saRead {s : State} {r : Ring} {d : Bytes} {x : Sa} (ex : Executing s r 0x0063 d)
    (idle : SeqIdle s r 0x0063) (live : s.live (BitVec.ofNat 16 (leAt d 0x14 2)) = true)
    (found : s.saIn (4 * leAt d 0x10 2 + byteAt d 0x12) (BitVec.ofNat 16 (leAt d 0x14 2)) = some x) :
    exec (.saRead r true) s = .next
      ((s.stepDone.dmaWrite r (descAddr d) (s.saBytes (4 * leAt d 0x10 2 + byteAt d 0x12) x)).complete r .ok) := by
  have live' : s.stepDone.live (BitVec.ofNat 16 (leAt d 0x14 2)) = true := live
  have found' : s.stepDone.saIn (4 * leAt d 0x10 2 + byteAt d 0x12) (BitVec.ofNat 16 (leAt d 0x14 2)) = some x := found
  refine congrArg Host.Outcome.next ((resultCommand_runs ex idle.1 idle.2.1 idle.2.2.2 _).trans ?_)
  simp only [live', found', Bool.false_eq_true, if_false, Bool.not_true]
  rfl

/-! The ICV holdoff (R243) -/

theorem now_advanceTo (s : State) (t : Nat) : (s.advanceTo t).now = max s.now t := by
  simp only [State.advanceTo, State.advance]
  omega

theorem cirState_of_glz {s t : State} (h : t.glz = s.glz) (c : Nat) : t.cirState c = s.cirState c := by
  rw [State.cirState, h, State.cirState]

theorem onlyIn_icvRecord (s : State) (sa : Nat) : OnlyIn [.cntCfg, .cnts, .out, .hif, .eic, .glz] s (s.icvRecord sa) :=
  (onlyIn_setCirState _ _ _).mono.trans (onlyIn_glzRecord _ _ _ _ _ _).mono

theorem cirState_icvRecord (s : State) (sa : Nat) :
    (s.icvRecord sa).cirState (sa / 4) = { s.cirState (sa / 4) with
      icvCount := 0, icvSa := sa,
      icvEnd := if s.fld .cirEvtCtrl 0 0 15 0 = 0 then 0 else s.now + s.fld .cirEvtCtrl 0 0 15 0 * msNs } :=
  (cirState_of_glz (onlyIn_glzRecord _ _ _ _ _ _).glz_eq _).trans (State.cirState_setCirState _ _ _)

theorem exec_icvHoldoffEnd_none {c : Circuit} {s : State} (runs : (s.cirState c).icvEnd ≠ 0)
    (none : (s.cirState c).icvCount = 0) :
    exec (.icvHoldoffEnd c) s = .next
      ((s.advanceTo (s.cirState c).icvEnd).setCirState c { s.cirState c with icvEnd := 0 }) := by
  change done _ = _
  simp only [runs, if_false, none, if_true]

theorem exec_icvHoldoffEnd_some {c : Circuit} {s : State} (runs : (s.cirState c).icvEnd ≠ 0)
    (some : (s.cirState c).icvCount ≠ 0) :
    exec (.icvHoldoffEnd c) s = .next ((s.advanceTo (s.cirState c).icvEnd).icvRecord (s.cirState c).icvSa) := by
  change done _ = _
  simp only [runs, if_false, some]

/-- Settles O29. -/
theorem securityAssociationsAreLoadedAndSelected : Obligations.SecurityAssociationsAreLoadedAndSelected := by
  refine ⟨?_, ?_, ?_, ?_, ?_⟩
  · intro r d b plain v s ex idle record blob circuit suite port empty key slot unwrap binding log
    obtain ⟨-, completed, only⟩ := change_completes (qs := [.regs, .cntCfg, .cnts, .out, .draws, .gen, .hif, .eic, .flt,
      .kiln, .units, .glz, .tabs, .hbm]) ex ((onlyIn_stepDone s).mono.trans (onlyIn_putSa _ _ _))
      ((onlyIn_stepDone s).adds.trans (adds_putSa s.stepDone (4 * leAt b 0 2 + byteAt b 2) (s.saFrom b (plain.drop 8)))) 0
    refine ⟨_, s.saFrom b (plain.drop 8), exec_saLoad ex idle record blob circuit suite port empty key slot unwrap binding
      log, ?_, rfl, rfl, rfl, rfl, rfl, rfl, rfl, rfl, rfl, ?_, ?_, completed, only⟩
    · rw [saOf_changed, saOf_putSa, State.saOf_setSa]
    · intro rx
      simp only [State.saFrom, rx, if_true, and_self]
    · intro i hi
      rw [saOf_changed, saOf_putSa, State.saOf_setSa_other _ _ hi]
      rfl
  · intro r d x s ex idle found free log
    obtain ⟨-, completed, only⟩ := change_completes (qs := [.regs, .cntCfg, .cnts, .out, .draws, .gen, .hif, .eic, .flt,
      .kiln, .glz, .tabs]) ex ((onlyIn_stepDone s).mono.trans (onlyIn_setSa _ _ _).mono (ps := [.tabs, .glz]))
      ((onlyIn_stepDone s).adds.trans (onlyIn_setSa s.stepDone (4 * leAt d 0x10 2 + byteAt d 0x12)
        (if s.madeInStaging x.tag then none else some { x with tag := s.diedTag x.tag })).adds) 0
    refine ⟨_, exec_saDelete ex idle found free log, ?_, ?_, completed, only⟩
    · rw [saOf_changed, State.saOf_setSa]
      rfl
    · intro i hi
      rw [saOf_changed, State.saOf_setSa_other _ _ hi]
      rfl
  · intro r d v x s ex idle circuit slot found tx free pool log
    have sa : (selectTx s (leAt d 0x10 2) (byteAt d 0x12) v).saOf (4 * leAt d 0x10 2 + byteAt d 0x12) = some x :=
      (saOf_selectTx _ _ _ _ _).trans (saOf_of_saIn found)
    have bind := binds_bindSa sa free
    have key : (4 * leAt d 0x10 2 + byteAt d 0x12) % 4 = byteAt d 0x12 := by omega
    have glz (u : State) : (u.complete r .ok).glz = u.glz := complete_glz _ _ _ _ _
    refine ⟨_, exec_saSelectTx ex idle circuit slot found tx free pool log, ?_, ?_, ?_, ?_, ?_, ?_⟩
    · rw [State.cirVers, glz, bind.versions]
      exact cirVers_selectTx s _ _ v
    · rw [saOf_of_glz (glz _)]
      exact bind.sa
    · intro fresh
      have number := bind.fresh fresh
      rw [key, staging_selectTx] at number
      rw [glz, complete_gen]
      exact number
    · intro bound
      rw [glz]
      exact (bind.kept bound).imp (·.trans (nextPn_selectTx s _ _ v).1) (·.trans (nextPn_selectTx s _ _ v).2)
    · have select := onlyIn_selectTx s (leAt d 0x10 2) (byteAt d 0x12) v
      have ring := ring_of_hif select.hif_eq r
      refine completed_after _ _ _ ((adds_selectTx _ _ _ _).trans (adds_bindSa _ _ _ _)) ?_ ?_ ex.inExec
      · exact (ring_bindSa _ _ _ _ (by rw [ring]; exact ex.no_records)).trans ring
      · exact ((onlyIn_bindSa _ _ _ _).ringReq r.isLt).trans (select.ringReq r.isLt)
    · exact ((onlyIn_selectTx _ _ _ _).mono.trans (onlyIn_bindSa _ _ _ _).mono).trans (onlyIn_complete _ _ _ _ _).mono
  · intro r d x s ex idle live found
    obtain ⟨written, completed, only⟩ := result_completes (qs := [.regs, .cntCfg, .cnts, .out, .draws, .gen, .hif, .eic,
      .flt, .kiln, .tabs]) ex (onlyIn_stepDone s) (onlyIn_stepDone s).adds (descAddr d)
        (s.saBytes (4 * leAt d 0x10 2 + byteAt d 0x12) x) 0 []
    exact ⟨_, exec_saRead ex idle live found, completed, written, fun _ => rfl, only.glz_eq, only⟩
  · intro c s runs sa
    by_cases count : (s.cirState c).icvCount = 0
    · refine ⟨_, exec_icvHoldoffEnd_none runs count, ?_, ?_, ?_, ?_, ?_⟩
      · exact now_advanceTo s _
      · rw [State.cirState_setCirState]
        exact count
      · intro _
        rw [State.cirState_setCirState]
      · exact fun h => absurd count h
      · exact (onlyIn_advance _ _).mono.trans (onlyIn_setCirState _ _ _).mono
    · have same : (s.cirState c).icvSa / 4 = c.val := sa.resolve_left count
      have after := cirState_icvRecord (s.advanceTo (s.cirState c).icvEnd) (s.cirState c).icvSa
      rw [same] at after
      have now : ((s.advanceTo (s.cirState c).icvEnd).icvRecord (s.cirState c).icvSa).now =
          (s.advanceTo (s.cirState c).icvEnd).now :=
        ((onlyIn_icvRecord _ _) .time (by decide)).1
      refine ⟨_, exec_icvHoldoffEnd_some runs count, now.trans (now_advanceTo _ _), ?_, ?_, ?_, ?_⟩
      · rw [after]
      · exact fun h => absurd h count
      · intro _ holdoff
        have kept : (s.advanceTo (s.cirState c).icvEnd).fld .cirEvtCtrl 0 0 15 0 ≠ 0 := holdoff
        rw [after, now]
        simp only [kept, if_false]
        rfl
      · exact (onlyIn_advance _ _).mono.trans (onlyIn_icvRecord _ _).mono

end Sys2Proof.Claims

/-! Refutation of O14: a unit of counter pairs that HBM cannot return (R528). -/

namespace Sys2Proof.Claims

open Sys2Proof.Machine

set_option Elab.async false

/-! CNT_READ of a unit that cannot be read -/

theorem readPairs_bad {s : State} {u : Nat} (h : s.structBad (.pairs u) = true) : s.readPairs u = s.losePairs u :=
  if_pos h

/-- A unit of pairs cannot be read when the word that holds it is poisoned. -/
theorem structBad_pairs {s : State} {u : Nat}
    (h : s.hbm.bad.contains (unitPc (s.structAt (.pairs u)).1 (s.structAt (.pairs u)).2,
      unitStripe (s.structAt (.pairs u)).2) = true) : s.structBad (.pairs u) = true := by
  have units : s.structUnits (.pairs u) = [s.structAt (.pairs u)] := rfl
  simp only [State.structBad, units, List.any_cons, List.any_nil, Bool.or_false, State.unitBad, Bool.or_eq_true]
  exact .inl h

/-- CNT_READ clears INVALID of `n` pairs from `first` on. -/
def clearInvalid (s : State) (first n : Nat) : Tab PairVal :=
  s.pmc.pairs.mapCells {} fun i p => if first ≤ i ∧ i < first + n then { p with invalid := false } else p

/-- The pairs that CNT_READ leaves. -/
theorem pairs_cntRead {s t : State} {r : Ring} {d : Bytes} (ex : Executing s r 0x0090 d)
    (h : exec (.cntRead r true) s = .next t) :
    t.pmc.pairs = clearInvalid (runOver ((List.range (leAt d 0x14 2)).map fun k => (leAt d 0x10 4 + k) / 4).eraseDups
      (fun u s => s.readPairs u) s.flushOldPairs) (leAt d 0x10 4) (leAt d 0x14 2) := by
  have run : exec (.cntRead r true) s = _ := congrArg Host.Outcome.next (ex.command _)
  obtain rfl := Host.Outcome.next.inj (h.symm.trans run)
  exact congrArg Pmc.pairs ((onlyIn_complete _ _ _ _ _).pmc_eq.trans (onlyIn_dmaWrite _ _ _ _).pmc_eq)

/-- A descriptor of CNT_READ for pair 0 alone. -/
def readPairZero : Bytes := leBytes 2 0x90 ++ zeros 14 ++ leBytes 4 0 ++ leBytes 2 1 ++ zeros 42

/-- Ring 5, a COMMAND ring, executes CNT_READ of pair 0 in a part that has been reset. -/
def readingPairZero : State :=
  State.reset.setRing 5 { ctx := some ⟨0x10000, 0, 1, 6, true, false, 0, 0, false⟩, inExec := some readPairZero }

/-- Pair 0 has counted 5 frames of 5 bytes, and the word of HBM that holds it is poisoned. -/
def pairPoisoned : State :=
  let s := readingPairZero
  let x := s.structAt (.pairs 0)
  { s with
    hbm := { s.hbm with bad := [(unitPc x.1 x.2, unitStripe x.2)] }
    pmc := { s.pmc with pairs := ⟨[(0, ⟨5, 5, false⟩)]⟩ } }

theorem structBad_pairPoisoned : pairPoisoned.structBad (.pairs 0) = true :=
  structBad_pairs (List.contains_iff_mem.mpr (List.mem_singleton.mpr rfl))

/-- The pair that cannot be read restarts from 0 (R528). -/
theorem pairs_pairPoisoned : (clearInvalid (pairPoisoned.losePairs 0) 0 1).get {} 0 = ⟨0, 0, false⟩ := by
  decide

/-- Refutes O14: CNT_READ does not clear INVALID alone. Where the unit of the pairs cannot be read, they restart from 0. -/
theorem not_framesAreInjectedAndPairsRead : ¬ Obligations.FramesAreInjectedAndPairsRead := by
  intro h
  have executes : Executing pairPoisoned 5 0x90 readPairZero := ⟨by decide +kernel, _, rfl, by decide⟩
  obtain ⟨t, run, -, kept, -, -⟩ := h.2 5 readPairZero pairPoisoned executes
  have lost : t.pmc.pairs.get {} 0 = ⟨0, 0, false⟩ := by
    rw [pairs_cntRead executes run]
    exact (congrArg (fun s => (clearInvalid s 0 1).get {} 0) (readPairs_bad structBad_pairPoisoned)).trans
      pairs_pairPoisoned
  have counted : t.pmc.pairs.get {} 0 = ⟨5, 5, false⟩ := kept 0 (by decide)
  exact absurd (lost.symm.trans counted) (by decide)

end Sys2Proof.Claims

/-! SUPPORT, and O5 and O6: commits, the port latches and the command's completion (R51, R61 to R72). -/

namespace Sys2Proof.Claims

open Sys2Proof.Machine

set_option Elab.async false

/-! A command ring that halts -/

theorem halted_ringIrq (s : State) (r : Nat) : ((s.ringIrq r).ring r).halted = (s.ring r).halted := by
  simp only [State.ringIrq]
  split
  · split
    · rfl
    · split
      · rw [ring_of_hif (onlyIn_eicEvent _ _).hif_eq]
      · split
        · rw [State.ring_setRing]
        · rw [ring_of_hif (onlyIn_eicEvent _ _).hif_eq, State.ring_setRing]
  · rfl

theorem halted_putCompletion (s : State) (r : Nat) (d : Bytes) (st : Status) (info : Nat) (result : Bytes) :
    ((s.putCompletion r d st info result).ring r).halted = (s.ring r).halted := by
  simp only [State.putCompletion, State.ring_setRing]
  rw [ring_of_hif (onlyIn_emit _ _).hif_eq, ring_of_hif (onlyIn_pmcCount _ _ _ _ _).hif_eq]

theorem ctx_putCompletion (s : State) (r : Nat) (d : Bytes) (st : Status) (info : Nat) (result : Bytes) :
    ((s.putCompletion r d st info result).ring r).ctx = (s.ring r).ctx := by
  simp only [State.putCompletion, State.ring_setRing]
  rw [ring_of_hif (onlyIn_emit _ _).hif_eq, ring_of_hif (onlyIn_pmcCount _ _ _ _ _).hif_eq]

/-- A record for PF0 or another function leaves a ring that holds no event records. -/
theorem ring_ctrlRecord (s : State) (f : Fn) (type : Nat) (body : Bytes) {q : Nat}
    (h : ((s.ring q).ctx.any fun c => c.kind = 5) = false) : (s.ctrlRecord f type body).ring q = s.ring q := by
  simp only [State.ctrlRecord]
  split
  · exact ring_writeRecord_kind _ _ _ _ _ _ h
  · rfl

/-- A command that completes with a halting status halts its ring (R386). -/
theorem halted_complete {s : State} {r : Nat} {d : Bytes} {st : Status} (exec : (s.ring r).inExec = some d)
    (kind : ((s.ring r).ctx.any fun c => c.kind = 5) = false) (halts : st.halts = true) (info : Nat) (result : Bytes) :
    ((s.complete r st info result).ring r).halted = true := by
  simp only [State.complete, exec, halts, if_true, State.haltComplete, State.ringErrorRecord, State.ringErrorAt]
  rw [halted_ringIrq, ring_ctrlRecord, ring_writeBack, halted_putCompletion, State.ring_setRing]
  rw [ring_writeBack, ctx_putCompletion, State.ring_setRing]
  exact kind

/-! Switching port latches (R65 to R72) -/

theorem onlyIn_switchPort (s : State) (p : Nat) (late : Bool) : OnlyIn [.gen] s (s.switchPort p late) := by
  simp only [State.switchPort]
  split
  · split
    · exact .refl _ _
    · exact onlyIn_gen _ _
  · exact .refl _ _

theorem switchPort_armed {s : State} {a : Armed} (h : s.gen.armed = some a) (p : Nat) (late : Bool) :
    s.switchPort p late = if (s.portGen p).latch = a.gen then s
      else { s with gen := { s.gen with ports := s.gen.ports.set {} p ⟨a.gen, late⟩ } } := by
  simp only [State.switchPort, h]

/-- A switch changes the port latches alone. -/
theorem gen_switchPort (s : State) (p : Nat) (late : Bool) :
    (s.switchPort p late).gen = { s.gen with ports := (s.switchPort p late).gen.ports } := by
  simp only [State.switchPort]
  split
  · split <;> rfl
  · rfl

theorem armed_switchPort (s : State) (p : Nat) (late : Bool) : (s.switchPort p late).gen.armed = s.gen.armed :=
  (congrArg GenCtl.armed (gen_switchPort s p late) :)

theorem unswitched_iff {s : State} {a : Armed} (h : s.gen.armed = some a) (p : Nat) :
    s.unswitched p = true ↔ (s.portGen p).latch ≠ a.gen := by
  simp only [State.unswitched, h, decide_eq_true_iff]

theorem portGen_switchPort {s : State} {a : Armed} (h : s.gen.armed = some a) (p : Nat) (late : Bool) :
    (s.switchPort p late).portGen p = if s.unswitched p then ⟨a.gen, late⟩ else s.portGen p := by
  rw [switchPort_armed h]
  by_cases same : (s.portGen p).latch = a.gen
  · simp only [same, if_true, unswitched_iff h, ne_eq, not_true, if_false]
  · simp only [same, if_false, unswitched_iff h, ne_eq, not_false_iff, if_true]
    exact Tab.get_set_same _ _ _ _

theorem portGen_switchPort_other (s : State) {p q : Nat} (late : Bool) (hq : q ≠ p) :
    (s.switchPort p late).portGen q = s.portGen q := by
  simp only [State.switchPort]
  split
  · split
    · rfl
    · exact Tab.get_set_other _ _ _ hq
  · rfl

/-- The ports of a list switch, in order. -/
def switchAll (l : List Nat) (late : Bool) (s : State) : State := runOver l (fun p s => s.switchPort p late) s

theorem onlyIn_switchAll (l : List Nat) (late : Bool) (s : State) : OnlyIn [.gen] s (switchAll l late s) :=
  .runOver (fun _ _ => onlyIn_switchPort _ _ _) _ _

theorem gen_switchAll (l : List Nat) (late : Bool) (s : State) :
    (switchAll l late s).gen = { s.gen with ports := (switchAll l late s).gen.ports } := by
  induction l generalizing s with
  | nil => rfl
  | cons p l ih => exact (ih (s.switchPort p late)).trans (by rw [gen_switchPort s p late]; rfl)

/-- A port of the list that has not switched takes the armed generation; the others keep their latches. -/
theorem portGen_switchAll {s : State} {a : Armed} (h : s.gen.armed = some a) (l : List Nat) (late : Bool) (p : Nat) :
    (switchAll l late s).portGen p = if p ∈ l ∧ s.unswitched p then ⟨a.gen, late⟩ else s.portGen p := by
  induction l generalizing s with
  | nil => simp [switchAll, runOver]
  | cons q l ih =>
    have armed : (s.switchPort q late).gen.armed = some a := (armed_switchPort s q late).trans h
    have step : switchAll (q :: l) late s = switchAll l late (s.switchPort q late) := rfl
    rw [step, ih armed]
    by_cases same : p = q
    · subst same
      have done : (s.switchPort p late).unswitched p = false := by
        rw [← Bool.not_eq_true, unswitched_iff armed, portGen_switchPort h]
        split
        · simp
        · next out => rwa [unswitched_iff h] at out
      simp [done, portGen_switchPort h]
    · have kept : (s.switchPort q late).unswitched p = s.unswitched p := by
        rw [Bool.eq_iff_iff, unswitched_iff armed, unswitched_iff h, portGen_switchPort_other s late same]
      simp [kept, same, portGen_switchPort_other s late same]

/-- Every port has the armed generation once all have been told to switch. -/
theorem latch_switchAll {s : State} {a : Armed} (h : s.gen.armed = some a) {l : List Nat} (late : Bool) {p : Nat}
    (hp : p ∈ l) : ((switchAll l late s).portGen p).latch = a.gen := by
  rw [portGen_switchAll h]
  by_cases out : s.unswitched p = true
  · simp [hp, out]
  · rw [if_neg fun both => out both.2]
    rwa [unswitched_iff h, not_not] at out

theorem mem_unswitchedPorts {s : State} (p : Port) : p.val ∈ s.unswitchedPorts ↔ s.unswitched p = true := by
  simp [State.unswitchedPorts, p.isLt]

/-- The ports that have not switched, told to switch. -/
theorem portGen_switch_unswitched {s : State} {a : Armed} (h : s.gen.armed = some a) (late : Bool) (p : Port) :
    (switchAll s.unswitchedPorts late s).portGen p = if s.unswitched p then ⟨a.gen, late⟩ else s.portGen p := by
  rw [portGen_switchAll h]
  simp only [mem_unswitchedPorts, and_self]

/-! Commits that wait start (R64) -/

theorem onlyIn_startCommit (s : State) : OnlyIn [.gen] s s.startCommit := by
  simp only [State.startCommit]
  split
  · exact .refl _ _
  · split
    · exact onlyIn_gen _ _
    · exact .refl _ _

theorem gen_startCommit (s : State) : s.startCommit.gen = { s.gen with waiting := s.startCommit.gen.waiting } := by
  simp only [State.startCommit]
  split
  · rfl
  · split <;> rfl

/-- A commit starts no other while one is armed, or a flush or an abort has begun. -/
theorem startCommit_held {s : State} (h : s.gen.armed ≠ none ∨ s.fiveBusy = true) : s.startCommit = s := by
  simp only [State.startCommit]
  rcases h with armed | busy
  · rw [Option.ne_none_iff_isSome] at armed
    simp [armed]
  · simp [busy]

theorem startCommit_free {s : State} {r : Nat} {t : Trigger} {rest : List Waiting} (armed : s.gen.armed = none)
    (busy : s.fiveBusy = false) (waiting : s.gen.waiting = ⟨r, t, none⟩ :: rest) :
    s.startCommit = { s with gen := { s.gen with waiting := ⟨r, t, some s.now⟩ :: rest } } := by
  simp only [State.startCommit, armed, busy, waiting, Option.isSome_none, Bool.or_self, Bool.false_eq_true, if_false]

/-! Deadlines and completion (R63, R70, R72) -/

theorem unswitchedPorts_advance (s : State) (dt : Nat) : (s.advance dt).unswitchedPorts = s.unswitchedPorts := rfl

/-- The ports that have not switched do so as a deadline passes. -/
theorem portGen_switch_later {s : State} {a : Armed} (h : s.gen.armed = some a) (dt : Nat) (late : Bool) (p : Port) :
    (switchAll s.unswitchedPorts late (s.advance dt)).portGen p =
      if s.unswitched p then ⟨a.gen, late⟩ else s.portGen p :=
  portGen_switch_unswitched (s := s.advance dt) h late p

theorem armed_switch_later (s : State) (l : List Nat) (dt : Nat) (late : Bool) :
    (switchAll l late (s.advance dt)).gen.armed = s.gen.armed := by rw [gen_switchAll]; rfl

theorem onlyIn_switch_later (s : State) (l : List Nat) (dt : Nat) (late : Bool) :
    OnlyIn [.time, .gen] s (switchAll l late (s.advance dt)) :=
  (onlyIn_advance _ _).mono.trans (onlyIn_switchAll _ _ _).mono

theorem exec_markerTimeout {s : State} {r m at_ : Nat} {g : Gen} (armed : s.gen.armed = some ⟨r, .marker m, g, at_⟩)
    (some : s.unswitchedPorts ≠ []) :
    exec .markerTimeout s = .next
      (switchAll s.unswitchedPorts true (s.advanceTo (at_ + s.fld .genMkrCtrl 0 0 31 20 * msNs))) := by
  change done _ = _
  simp only [armed, List.isEmpty_iff, some, if_false]
  rw [State.advanceTo, unswitchedPorts_advance]
  rfl

theorem exec_timeTriggerDeadline {s : State} {r sec ns at_ : Nat} {g : Gen}
    (armed : s.gen.armed = some ⟨r, .time sec ns, g, at_⟩) (some : s.unswitchedPorts ≠ []) :
    exec .timeTriggerDeadline s = .next
      (switchAll s.unswitchedPorts false (s.advancePtp (ptpUnits sec ns + ptpUnits 0 1000))) := by
  change done _ = _
  simp only [armed, List.isEmpty_iff, some, if_false]
  rw [State.advancePtp, unswitchedPorts_advance]
  rfl

/-- PTP time reaches a value while the clock runs forward. -/
theorem ptp_advancePtp (s : State) (t : Nat) (rate : - 2 ^ 32 < s.ptp.rate) : t ≤ (s.advancePtp t).ptp.time := by
  obtain ⟨k, hk⟩ : ∃ k : Nat, (2 ^ 32 + s.ptp.rate : Int) = k := ⟨_, (Int.toNat_of_nonneg (by omega)).symm⟩
  have pos : 0 < k := by omega
  have enough : t - s.ptp.time ≤ (t - s.ptp.time + k - 1) / k * k := by
    have := Nat.div_add_mod (t - s.ptp.time + k - 1) k
    have := Nat.mod_lt (t - s.ptp.time + k - 1) pos
    rw [Nat.mul_comm]
    omega
  simp only [State.advancePtp, State.advance, ceilDiv, hk, Int.toNat_natCast]
  norm_cast
  omega

/-- The latches that stand are late no more, and no commit is armed. -/
def disarmed (s : State) : State :=
  { s with gen := { s.gen with armed := none, ports := s.gen.ports.mapCells {} fun _ x => { x with late := false } } }

theorem exec_genCommitComplete {s : State} {a : Armed} (armed : s.gen.armed = some a) (none : s.unswitchedPorts = []) :
    exec .genCommitComplete s = .next (if s.lateMask = 0 then (disarmed s).complete a.ring .ok a.gen.toNat
      else (disarmed s).complete a.ring .genMarkerLate a.gen.toNat (leBytes 16 s.lateMask)).startCommit := by
  change done _ = _
  simp only [armed, none, List.isEmpty_nil, Bool.not_true, Bool.false_eq_true, if_false, disarmed]

/-- A command completes after its unit changed the generations alone, and a commit that waits may start. -/
theorem completed_startCommit {s u : State} {r : Ring} {d : Bytes} (st : Status) (info : Nat) (result : Bytes)
    (h : OnlyIn [.gen, .time] s u) (exec : (s.ring r).inExec = some d) :
    Completed s (u.complete r st info result).startCommit r d st info result :=
  (h.completed st info result h.adds exec).later (onlyIn_startCommit _).adds

/-- Settles O6. -/
theorem commitsSwitchPortsAndComplete : Obligations.CommitsSwitchPortsAndComplete := by
  refine ⟨?_, ?_, ?_⟩
  · intro r m at_ g s armed some
    refine ⟨_, exec_markerTimeout armed some, ?_, portGen_switch_later armed _ true, armed_switch_later _ _ _ _,
      onlyIn_switch_later _ _ _ _⟩
    rw [((onlyIn_switchAll _ _ _) .time (by decide)).1]
    exact now_advanceTo _ _
  · intro r sec ns at_ g s armed some rate
    refine ⟨_, exec_timeTriggerDeadline armed some, ?_, portGen_switch_later armed _ false, armed_switch_later _ _ _ _,
      onlyIn_switch_later _ _ _ _⟩
    rw [((onlyIn_switchAll _ _ _) .time (by decide)).2.1]
    exact ptp_advancePtp _ _ rate
  · intro r tr at_ g d s armed none exec kind
    have change : OnlyIn [.gen, .time] s (disarmed s) := (onlyIn_gen _ _).mono
    by_cases mask : s.lateMask = 0
    · have run := exec_genCommitComplete armed none
      simp only [mask, if_true] at run
      refine ⟨_, run, ?_, ?_, fun _ => completed_startCommit _ _ _ change exec, fun h => absurd mask h, ?_⟩
      · rw [gen_startCommit, complete_gen]
        rfl
      · rw [gen_startCommit, complete_gen]
        rfl
      · exact ((onlyIn_gen _ _).mono.trans (onlyIn_complete _ _ _ _ _).mono).trans (onlyIn_startCommit _).mono
    · have run := exec_genCommitComplete armed none
      simp only [mask, if_false] at run
      refine ⟨_, run, ?_, ?_, fun h => absurd h mask, fun _ => completed_startCommit _ _ _ change exec, ?_⟩
      · rw [gen_startCommit, complete_gen]
        rfl
      · rw [gen_startCommit, complete_gen]
        rfl
      · exact ((onlyIn_gen _ _).mono.trans (onlyIn_complete _ _ _ _ _).mono).trans (onlyIn_startCommit _).mono

/-! GEN_COMMIT (R61, R64) -/

/-- A commit waits behind those that came first. -/
def queueCommit (s : State) (w : Waiting) : State :=
  { s with gen := { s.gen with waiting := s.gen.waiting ++ [w] } }

theorem exec_genCommit {s : State} {r : Ring} {d : Bytes} {g : Trigger} (ex : Executing s r 0x0010 d)
    (alive : s.tabs.dead = false) (words : s.flt.corrupt.get 0 0x31 = 0) (free : s.seqHeld r 0x0010 = false)
    (waits : ∀ w ∈ s.gen.waiting, w.ring ≠ r.val) (armed : ∀ a, s.gen.armed = some a → a.ring ≠ r.val)
    (trigger : triggerOf d = some g) :
    exec (.genCommit r) s = .next (queueCommit s.stepDone ⟨r, g, none⟩).startCommit := by
  have new : ((s.stepDone.gen.waiting.any fun w => w.ring = r.val) || s.stepDone.gen.armed.any fun a => a.ring = r.val) =
      false := by
    have first : (s.gen.waiting.any fun w => decide (w.ring = r.val)) = false := by simpa using waits
    have second : (s.gen.armed.any fun a => decide (a.ring = r.val)) = false := by
      cases h : s.gen.armed with
      | none => rfl
      | some a => simpa using armed a h
    exact Bool.or_eq_false_iff.mpr ⟨first, second⟩
  refine congrArg Host.Outcome.next (?_ : State.seqCommand _ _ _ _ _ = _)
  simp only [State.seqCommand, ex.command, alive, Bool.false_and, free, Bool.or_self, Bool.false_eq_true, if_false,
    seqStep_sound words alive, new, trigger]
  rfl

/-! Arming (R63, R65, R67, R71) -/

/-- What the profiles do at a commit. -/
abbrev profileParts : List Part := [.cntCfg, .cnts, .out, .hif, .eic, .frames, .sched, .cps, .glz]

theorem onlyIn_prefetch (s : State) (i r : Nat) : OnlyIn profileParts s (s.prefetch i r) := by
  simp only [State.prefetch]
  split
  · next t pinned => exact (onlyIn_pinRequest pinned).mono
  · exact (onlyIn_setCacheWait _ _ _).mono.trans (onlyIn_bumpBy _ _ _).mono

theorem onlyIn_cpsUnpin (s : State) (c port : Nat) : OnlyIn profileParts s (s.cpsUnpin c port) := by
  have wait := (onlyIn_setCacheWait s (port / 8) ((s.cacheWait (port / 8)).filter (· ≠ cpsWait + c))).mono
    (qs := profileParts)
  simp only [State.cpsUnpin]
  split
  · split
    · exact wait.trans (((onlyIn_setCps _ _ _).mono.trans (onlyIn_unpinKey _ _ _).mono).trans (onlyIn_serveCache _ _).mono)
    · exact wait
  · exact wait

theorem onlyIn_cpsPin (s : State) (c port : Nat) : OnlyIn profileParts s (s.cpsPin c port) := by
  simp only [State.cpsPin]
  split
  · exact .refl _ _
  · exact onlyIn_prefetch _ _ _

theorem onlyIn_cpsStop (s : State) (c port : Nat) : OnlyIn profileParts s (s.cpsStop c port) :=
  ((onlyIn_setCps _ _ _).mono.trans (OnlyIn.runOver (fun _ _ => onlyIn_joinNode _ _) _ _).mono).trans
    (onlyIn_ctrlRecord _ _ _ _).mono

theorem onlyIn_cpsCommit (s : State) (c : Nat) (old : Option CirVer) : OnlyIn profileParts s (s.cpsCommit c old) := by
  simp only [State.cpsCommit]
  split
  · split
    · exact (onlyIn_cpsUnpin _ _ _).trans (onlyIn_cpsPin _ _ _)
    · exact (onlyIn_cpsUnpin _ _ _).trans (onlyIn_cpsStop _ _ _)
  · exact (onlyIn_cpsUnpin _ _ _).trans (onlyIn_cpsStop _ _ _)

theorem onlyIn_armedRecord (s : State) (t : Trigger) : OnlyIn profileParts s (s.armedRecord t) := by
  simp only [State.armedRecord]
  split
  · exact .refl _ _
  · exact (onlyIn_ctrlRecord _ _ _ _).mono

/-- STAGING becomes CURRENT, for the commit that waits first. -/
def makeCurrent (s : State) (r : Nat) (t : Trigger) : State :=
  { s with gen := { s.gen with
    waiting := s.gen.waiting.drop 1, armed := some ⟨r, t, s.staging, s.now⟩, current := s.staging
    log := s.gen.log.set 0 (s.staging + 1).toNat 0 } }

/-- The commit has armed, and no port has switched. -/
def armedState (s : State) (r : Nat) (t : Trigger) : State :=
  (runOver (s.cps.keys.map fun c => (c, s.cirAt c s.gen.current)) (fun x s => s.cpsCommit x.1 x.2)
    (makeCurrent s r t)).armedRecord t

theorem onlyIn_armedState (s : State) (r : Nat) (t : Trigger) :
    OnlyIn profileParts (makeCurrent s r t) (armedState s r t) :=
  (OnlyIn.runOver (fun _ _ => onlyIn_cpsCommit _ _ _) _ _).trans (onlyIn_armedRecord _ _)

theorem gen_armedState (s : State) (r : Nat) (t : Trigger) : (armedState s r t).gen = (makeCurrent s r t).gen :=
  (onlyIn_armedState s r t).gen_eq

/-- What arming may change. -/
abbrev armParts : List Part := [.regs, .cntCfg, .cnts, .out, .draws, .gen, .hif, .eic, .flt, .kiln, .frames, .sched, .cps,
  .glz, .tabs]

/-- The commit has armed, and the ports of `l` switch. -/
def armedWith (s : State) (r : Nat) (t : Trigger) (l : List Nat) : State := switchAll l false (armedState s r t)

theorem onlyIn_armedWith (s : State) (r : Nat) (t : Trigger) (l : List Nat) :
    OnlyIn armParts s (armedWith s.stepDone r t l) :=
  (((onlyIn_stepDone s).mono.trans (onlyIn_gen _ _).mono).trans (onlyIn_armedState _ _ _).mono).trans
    (onlyIn_switchAll _ _ _).mono

/-- Arming changes what R63 says and the latches of the ports that switch. -/
theorem gen_armedWith (s : State) (r : Nat) (t : Trigger) (l : List Nat) :
    (armedWith s r t l).gen = { (makeCurrent s r t).gen with ports := (armedWith s r t l).gen.ports } := by
  rw [armedWith, gen_switchAll, gen_armedState]

/-- A port that is among those that switch has the new generation, and another keeps its latch. -/
theorem latch_armedWith (s : State) (r : Nat) (t : Trigger) (l : List Nat) (p : Nat) :
    ((armedWith s r t l).portGen p).latch = if p ∈ l then s.staging else (s.portGen p).latch := by
  have armed : (armedState s r t).gen.armed = some ⟨r, t, s.staging, s.now⟩ := by rw [gen_armedState]; rfl
  have kept : (armedState s r t).portGen p = s.portGen p := by rw [State.portGen, gen_armedState]; rfl
  by_cases hp : p ∈ l
  · rw [if_pos hp]
    exact latch_switchAll armed false hp
  · rw [if_neg hp, armedWith, portGen_switchAll armed, if_neg fun both => hp both.1, kept]

/-- Whether a port waits for the marker of a commit as it arms (R66, R67). -/
def awaitsMarker (s : State) (p : Nat) : Bool := s.markerPort p && (s.port p).link = .up

theorem awaitsMarker_switchPort (s : State) (p q : Nat) (late : Bool) :
    awaitsMarker (s.switchPort p late) q = awaitsMarker s q := by
  simp only [State.switchPort]
  split
  · split <;> rfl
  · rfl

/-- Switching every port that awaits no marker, one after another. -/
theorem switch_markerless (s : State) (l : List Nat) :
    runOver l (fun p s => if s.markerPort p && (s.port p).link = .up then s else s.switchPort p false) s =
      switchAll (l.filter fun p => !awaitsMarker s p) false s := by
  induction l generalizing s with
  | nil => rfl
  | cons p l ih =>
    by_cases waits : awaitsMarker s p = true
    · rw [List.filter_cons_of_neg (by simp [waits]), ← ih s]
      exact congrArg (runOver l _) (if_pos waits)
    · have same : (fun q => !awaitsMarker (s.switchPort p false) q) = fun q => !awaitsMarker s q :=
        funext fun q => by rw [awaitsMarker_switchPort]
      rw [List.filter_cons_of_pos (by simpa using waits)]
      exact (congrArg (runOver l _) (if_neg waits)).trans ((ih _).trans (by rw [same]; rfl))

theorem armCommit_immediate (s : State) (r : Nat) :
    s.armCommit r .immediate = armedWith s r .immediate (List.range 128) := rfl

theorem armCommit_marker (s : State) (r m : Nat) : s.armCommit r (.marker m) =
    armedWith s r (.marker m) ((List.range 128).filter fun p => !awaitsMarker (armedState s r (.marker m)) p) :=
  switch_markerless _ _

theorem armCommit_time (s : State) (r sec ns : Nat) :
    s.armCommit r (.time sec ns) = armedWith s r (.time sec ns) [] := rfl

theorem awaitsMarker_armedState (s : State) (r : Nat) (t : Trigger) (p : Port) :
    awaitsMarker (armedState s r t) p = awaitsMarker s p := by
  have only := onlyIn_armedState s r t
  have domain : (armedState s r t).reg .prtDomain p 0 = s.reg .prtDomain p 0 :=
    only.reg_same (by decide) (by
      simp only [inCntCfg, RegName.key, RegName.addr, RegName.info, Bool.false_eq_true, if_false]
      omega)
  have enable : (armedState s r t).reg .genMkrEn 0 (p.val / 32) = s.reg .genMkrEn 0 (p.val / 32) :=
    only.reg_same (by decide) (by
      simp only [inCntCfg, RegName.key, RegName.addr, RegName.info, Bool.false_eq_true, if_false]
      omega)
  have fuses : (armedState s r t).fuses = s.fuses := only .fuses (by decide)
  have link : ((armedState s r t).port p).link = (s.port p).link := (only .links (by decide) p).1
  simp only [awaitsMarker, State.markerPort, State.black, State.bit, domain, enable, fuses, link]

/-- A commit's step to arm it: one whose time lies too near or too far is refused (R71). -/
def armOrRefuse (s : State) (r : Nat) : Trigger → State
  | .time sec ns =>
    if ptpUnits sec ns < s.ptp.time + ptpUnits 0 2000 then s.refuseCommit .genTimePast
    else if s.ptp.time + ptpUnits 60 0 < ptpUnits sec ns then s.refuseCommit .genBadTrigger
    else s.armCommit r (.time sec ns)
  | .marker m => s.armCommit r (.marker m)
  | .immediate => s.armCommit r .immediate

theorem armOrRefuse_inTime {s : State} {r sec ns : Nat} (late : s.ptp.time + ptpUnits 0 2000 ≤ ptpUnits sec ns)
    (soon : ptpUnits sec ns ≤ s.ptp.time + ptpUnits 60 0) :
    armOrRefuse s r (.time sec ns) = armedWith s r (.time sec ns) [] := by
  simp only [armOrRefuse, Nat.not_lt.mpr late, Nat.not_lt.mpr soon, if_false, armCommit_time]

theorem armOrRefuse_past {s : State} {r sec ns : Nat} (past : ptpUnits sec ns < s.ptp.time + ptpUnits 0 2000) :
    armOrRefuse s r (.time sec ns) = s.refuseCommit .genTimePast := by
  simp only [armOrRefuse, past, if_true]

theorem armOrRefuse_far {s : State} {r sec ns : Nat} (far : s.ptp.time + ptpUnits 60 0 < ptpUnits sec ns) :
    armOrRefuse s r (.time sec ns) = s.refuseCommit .genBadTrigger := by
  have future : ¬ ptpUnits sec ns < s.ptp.time + ptpUnits 0 2000 := by
    simp only [ptpUnits] at far ⊢
    omega
  simp only [armOrRefuse, future, far, if_false, if_true]

/-- The first commit takes its step of the sequencer to arm (R51, R63). -/
theorem exec_genCommitArm {s : State} {r : Nat} {t : Trigger} {at_ : Nat} {rest : List Waiting}
    (waiting : s.gen.waiting = ⟨r, t, some at_⟩ :: rest) (armed : s.gen.armed = none) (window : s.liveCount ≤ 15)
    (alive : s.tabs.dead = false) (words : s.flt.corrupt.get 0 0x31 = 0) :
    exec .genCommitArm s = .next (armOrRefuse s.stepDone r t) := by
  have free : (s.gen.armed.isSome || decide (15 < s.liveCount) || s.tabs.dead) = false := by
    simp [armed, alive, window]
  change done _ = _
  simp only [waiting, free, Bool.false_eq_true, if_false, seqStep_sound words alive]
  cases t <;> rfl

/-- What an arming leaves of the generations (R63). -/
structure Arms (s t : State) (r : Nat) (g : Trigger) (rest : List Waiting) : Prop where
  current : t.gen.current = s.staging
  oldest : t.gen.oldest = s.gen.oldest
  armed : t.gen.armed = some ⟨r, g, s.staging, s.now⟩
  waiting : t.gen.waiting = rest

theorem arms_armedWith {s : State} {r : Nat} {g : Trigger} {w : Waiting} {rest : List Waiting}
    (waiting : s.gen.waiting = w :: rest) (l : List Nat) : Arms s (armedWith s.stepDone r g l) r g rest := by
  have gen := gen_armedWith s.stepDone r g l
  refine ⟨?_, ?_, ?_, ?_⟩
  · rw [gen]; rfl
  · rw [gen]; rfl
  · rw [gen]; rfl
  · rw [gen]
    exact congrArg (List.drop 1) waiting

/-! Commits that are refused (R51, R71) -/

/-- The commit that waits first waits no more. -/
def dropCommit (s : State) (rest : List Waiting) : State := { s with gen := { s.gen with waiting := rest } }

theorem refuseCommit_eq {s : State} {w : Waiting} {rest : List Waiting} (waiting : s.gen.waiting = w :: rest)
    (st : Status) : s.refuseCommit st = ((dropCommit s rest).complete w.ring st).startCommit := by
  simp only [State.refuseCommit, waiting, dropCommit]

theorem onlyIn_refuseCommit (s : State) (st : Status) :
    OnlyIn [.cntCfg, .cnts, .out, .gen, .hif, .eic, .flt, .kiln] s (s.refuseCommit st) := by
  simp only [State.refuseCommit]
  split
  · exact ((onlyIn_gen _ _).mono.trans (onlyIn_complete _ _ _ _ _).mono).trans (onlyIn_startCommit _).mono
  · exact .refl _ _

/-- A refused commit completes with its status, halts its ring and arms nothing. -/
structure Refuses (s t : State) (r : Ring) (d : Bytes) (st : Status) : Prop where
  completed : Completed s t r d st 0 []
  halted : (t.ring r).halted = true
  current : t.gen.current = s.gen.current
  armed : t.gen.armed = s.gen.armed

theorem refuses_refuseCommit {s u : State} {r : Ring} {d : Bytes} {t : Trigger} {at_ : Option Nat} {rest : List Waiting}
    {st : Status} (before : OnlyIn [.tabs, .time] s u) (waiting : s.gen.waiting = ⟨r, t, at_⟩ :: rest)
    (exec : (s.ring r).inExec = some d) (kind : ∃ c, (s.ring r).ctx = some c ∧ c.kind = 1) (halts : st.halts = true) :
    Refuses s (u.refuseCommit st) r d st := by
  obtain ⟨c, ctx, one⟩ := kind
  have ring : u.ring r = s.ring r := ring_of_hif before.hif_eq r
  have gen : u.gen = s.gen := before.gen_eq
  have drop : OnlyIn [.tabs, .time, .gen] s (dropCommit u rest) := before.mono.trans (onlyIn_gen _ _).mono
  have run := refuseCommit_eq (gen ▸ waiting) st
  refine ⟨?_, ?_, ?_, ?_⟩
  · rw [run]
    exact (drop.completed st 0 [] drop.adds exec).later (onlyIn_startCommit _).adds
  · rw [run, ring_of_hif (onlyIn_startCommit _).hif_eq]
    refine halted_complete (s := dropCommit u rest) (d := d) ?_ ?_ halts 0 []
    · exact (congrArg RingState.inExec ring).trans exec
    · have same : ((dropCommit u rest).ring r).ctx = some c := (congrArg RingState.ctx ring).trans ctx
      rw [same, Option.any_some, one]
      rfl
  · rw [run, gen_startCommit, complete_gen, ← gen]
    rfl
  · rw [run, gen_startCommit, complete_gen, ← gen]
    rfl

theorem exec_genCommitTimeout {s : State} {w : Waiting} {at_ : Nat} {rest : List Waiting}
    (waiting : s.gen.waiting = w :: rest) (started : w.since = some at_) (armed : s.gen.armed = none)
    (full : 15 < s.liveCount) :
    exec .genCommitTimeout s = .next
      ((s.advanceTo (at_ + s.fld .genCommitTimeout 0 0 13 0 * msNs)).refuseCommit .genFull) := by
  have waits : (s.gen.armed.isSome || decide (s.liveCount ≤ 15)) = false := by simp [armed, full]
  obtain ⟨r, t, since⟩ := w
  change since = some at_ at started
  subst started
  change done _ = _
  simp only [waiting, waits, Bool.false_eq_true, if_false]

/-- Settles O5. -/
theorem commitsStartAndArm : Obligations.CommitsStartAndArm := by
  refine ⟨?_, ?_, ?_, ?_, ?_, ?_⟩
  · intro r d g s ex alive words free waits armed trigger
    refine ⟨_, exec_genCommit ex alive words free waits armed trigger, ?_, ?_, ?_⟩
    · intro none busy empty
      have first : (queueCommit s.stepDone ⟨r, g, Option.none⟩).gen.waiting = [⟨r, g, Option.none⟩] :=
        congrArg (· ++ _) empty
      rw [startCommit_free (s := queueCommit s.stepDone ⟨r, g, Option.none⟩) none busy first]
      rfl
    · intro held
      rw [startCommit_held (s := queueCommit s.stepDone ⟨r, g, none⟩) held]
      rfl
    · exact ((onlyIn_stepDone s).mono.trans (onlyIn_gen _ _).mono).trans (onlyIn_startCommit _).mono
  · intro r at_ rest s waiting armed window alive words
    have run := exec_genCommitArm waiting armed window alive words
    have arms := arms_armedWith (s := s) (r := r) (g := .immediate) waiting (List.range 128)
    refine ⟨armedWith s.stepDone r .immediate (List.range 128), run, arms.current, arms.oldest, arms.armed,
      arms.waiting, fun p => ?_, onlyIn_armedWith _ _ _ _⟩
    rw [latch_armedWith, if_pos (List.mem_range.mpr p.isLt)]
    rfl
  · intro r at_ m rest s waiting armed window alive words
    have run := exec_genCommitArm waiting armed window alive words
    rw [armOrRefuse, armCommit_marker] at run
    have arms := arms_armedWith (s := s) (r := r) (g := .marker m) waiting
      ((List.range 128).filter fun p => !awaitsMarker (armedState s.stepDone r (.marker m)) p)
    refine ⟨_, run, arms.current, arms.oldest, arms.armed, arms.waiting, ?_, onlyIn_armedWith _ _ _ _⟩
    intro p
    rw [latch_armedWith]
    simp only [List.mem_filter, List.mem_range, p.isLt, true_and, awaitsMarker_armedState]
    change (if (!awaitsMarker s p) = true then s.staging else (s.portGen p).latch) =
      if awaitsMarker s p = true then (s.portGen p).latch else s.staging
    cases awaitsMarker s p <;> rfl
  · intro r at_ sec ns rest s waiting armed window alive words late soon
    have run := exec_genCommitArm waiting armed window alive words
    rw [armOrRefuse_inTime (s := s.stepDone) late soon] at run
    have arms := arms_armedWith (s := s) (r := r) (g := .time sec ns) waiting []
    refine ⟨_, run, arms.current, arms.oldest, arms.armed, arms.waiting, ?_, onlyIn_armedWith _ _ _ []⟩
    exact (congrArg GenCtl.ports (gen_armedState s.stepDone r (.time sec ns)) :)
  · intro r d at_ sec ns rest s waiting armed window alive words exec kind
    have run := exec_genCommitArm waiting armed window alive words
    refine ⟨fun past => ?_, fun far => ?_⟩
    · rw [armOrRefuse_past (s := s.stepDone) past] at run
      have refuse := refuses_refuseCommit (st := .genTimePast) (onlyIn_stepDone s).mono waiting exec kind rfl
      exact ⟨_, run, refuse.completed, refuse.halted, refuse.current, refuse.armed.trans armed⟩
    · rw [armOrRefuse_far (s := s.stepDone) far] at run
      have refuse := refuses_refuseCommit (st := .genBadTrigger) (onlyIn_stepDone s).mono waiting exec kind rfl
      exact ⟨_, run, refuse.completed, refuse.halted, refuse.current, refuse.armed.trans armed⟩
  · intro r d g at_ rest s waiting armed full exec kind
    have refuse := refuses_refuseCommit (st := .genFull)
      (onlyIn_advance s (at_ + s.fld .genCommitTimeout 0 0 13 0 * msNs - s.now)).mono waiting exec kind rfl
    refine ⟨_, exec_genCommitTimeout waiting rfl armed full, refuse.completed, refuse.halted, ?_, refuse.current,
      refuse.armed.trans armed, ?_⟩
    · rw [((onlyIn_refuseCommit _ _) .time (by decide)).1]
      exact now_advanceTo _ _
    · exact (onlyIn_advance _ _).mono.trans (onlyIn_refuseCommit _ _).mono

end Sys2Proof.Claims

/-! SUPPORT, and O42: the egress scheduler selects at a port (R338 to R348, R357 to R361). -/

namespace Sys2Proof.Claims

open Sys2Proof.Machine

set_option Elab.async false

/-! A profile but for its pin -/

def withoutPin (q : Profile) : Profile := { q with pin := none }

/-- Every Constant Profile is the same but for its standing pin. -/
def SameProfiles (s t : State) : Prop := ∀ c, (t.cps.get none c).map withoutPin = (s.cps.get none c).map withoutPin

theorem SameProfiles.refl (s : State) : SameProfiles s s := fun _ => rfl

theorem SameProfiles.trans {s t u : State} (h : SameProfiles s t) (k : SameProfiles t u) : SameProfiles s u :=
  fun c => (k c).trans (h c)

theorem OnlyIn.sameProfiles {ps : List Part} {s t : State} (h : OnlyIn ps s t) (hp : Part.cps ∉ ps := by decide) :
    SameProfiles s t := fun c => by rw [h.cps_eq hp]

/-- A pin changes a profile's pin alone. -/
theorem sameProfiles_pinRequest {s t : State} {i r : Nat} (h : s.pinRequest i r = some t) : SameProfiles s t := by
  simp only [State.pinRequest] at h
  split at h
  · split at h
    · next p k hp _ =>
      generalize r - cpsWait = d at h hp
      obtain ⟨u, pin, rfl⟩ := Option.map_eq_some_iff.mp h
      refine (onlyIn_pinKey pin).sameProfiles.trans fun c => ?_
      by_cases same : c = d
      · subst same
        have before : u.cps.get none c = some p := by rw [(onlyIn_pinKey pin).cps_eq, hp]
        rw [before, Tab.get_set_same]
        rfl
      · rw [Tab.get_set_other _ _ _ same]
    · cases h
      exact .refl _
  · split at h
    · obtain ⟨u, pin, rfl⟩ := Option.map_eq_some_iff.mp h
      exact (onlyIn_pinKey pin).sameProfiles.trans (onlyIn_modFrame _ _ _).sameProfiles
    · cases h
      exact .refl _

theorem sameProfiles_serveCacheN (s : State) (i n : Nat) : SameProfiles s (s.serveCacheN i n) := by
  induction n generalizing s with
  | zero => exact .refl _
  | succ n ih =>
    simp only [State.serveCacheN]
    split
    · exact .refl _
    · split
      · next served => exact ((onlyIn_setCacheWait _ _ _).sameProfiles.trans (sameProfiles_pinRequest served)).trans (ih _)
      · exact .refl _

theorem sameProfiles_unpin (s : State) (f : Nat) : SameProfiles s (s.unpin f) := by
  have wait := (onlyIn_setCacheWait s ((s.frame f).outPort / 8)
    ((s.cacheWait ((s.frame f).outPort / 8)).filter (· ≠ f))).sameProfiles
  simp only [State.unpin]
  split
  · split
    · exact ((wait.trans (onlyIn_unpinKey _ _ _).sameProfiles).trans (onlyIn_setFrame _ _ _).sameProfiles).trans
        (sameProfiles_serveCacheN _ _ _)
    · exact wait.trans (onlyIn_setFrame _ _ _).sameProfiles
  · exact wait

theorem onlyIn_leaveFlow (s : State) (f : Nat) : OnlyIn [.sched] s (s.leaveFlow f) := onlyIn_sched _ _

theorem sameProfiles_leave (s : State) (f : Nat) (how : Leaving) : SameProfiles s (s.leave f how) := by
  have name (u : State) : SameProfiles u (if how = .sent then u else u.clearName f) := by
    split
    · exact .refl _
    · exact (onlyIn_clearName _ _).sameProfiles
  have flow := (onlyIn_sampleRecord s f how).sameProfiles.trans (onlyIn_leaveFlow _ f).sameProfiles
  exact (((flow.trans (sameProfiles_unpin _ _)).trans (onlyIn_freeEgress _ _).sameProfiles).trans (name _)).trans
    ((onlyIn_setFrame _ _ _).sameProfiles.trans (onlyIn_refDown _ _).sameProfiles)

theorem sameProfiles_discard (s : State) (f : Nat) : SameProfiles s (s.discard f) :=
  remove_keeps (R := SameProfiles) .refl .trans (fun h => h.sameProfiles) (fun s f => (onlyIn_leaveLanding s f).sameProfiles)
    (fun s f => (onlyIn_leaveEgress s f).sameProfiles) sameProfiles_leave (fun s p => (onlyIn_issueReady s p).sameProfiles)
    s f .dropped

/-! What a selection may change -/

theorem onlyIn_shaperSync (s : State) : OnlyIn [.sched] s s.shaperSync := by
  simp only [State.shaperSync]
  split
  · exact .refl _ _
  · exact onlyIn_sched _ _

theorem onlyIn_noteServed (s : State) (p : Nat) : OnlyIn [.sched] s (s.noteServed p) := onlyIn_sched _ _

theorem onlyIn_chargePort (s : State) (p l : Nat) : OnlyIn [.sched] s (s.chargePort p l) := by
  simp only [State.chargePort]
  split
  · exact .refl _ _
  · exact onlyIn_sched _ _

theorem onlyIn_chargeClass (s : State) (n l : Nat) : OnlyIn [.sched] s (s.chargeClass n l) := by
  simp only [State.chargeClass]
  split
  · exact .refl _ _
  · exact onlyIn_sched _ _

theorem onlyIn_chargeCirq (s : State) (k l : Nat) : OnlyIn [.sched] s (s.chargeCirq k l) := by
  simp only [State.chargeCirq]
  split
  · exact onlyIn_sched _ _
  · exact .refl _ _

theorem onlyIn_advanceNode (s : State) (p c k : Nat) : OnlyIn [.sched] s (s.advanceNode p c k) := onlyIn_sched _ _

theorem onlyIn_advancePort (s : State) (p c fin : Nat) : OnlyIn [.sched] s (s.advancePort p c fin) := by
  simp only [State.advancePort]
  split
  · exact .refl _ _
  · exact onlyIn_sched _ _

theorem onlyIn_stamp (s : State) (f k : Nat) : OnlyIn [.frames] s (s.stamp f k) := by
  simp only [State.stamp]
  split
  · exact .refl _ _
  · exact onlyIn_setFrame _ _ _

/-- A frame leaves its queue and its flow, selected. -/
def unqueue (s : State) (f : Nat) : State :=
  ((((s.leaveFlow f).setQueue (s.queueKey (s.frame f)) ((s.queue (s.queueKey (s.frame f))).filter (· ≠ f))).setFrame f
    { s.frame f with eg := .selected }).stamp f 3).pmcCount 3 ((s.frame f).outPort / 8) 0 1

theorem takeSelected_eq (s : State) (f : Nat) : s.takeSelected f =
    { unqueue s f with bur := { (unqueue s f).bur with
      sel := (unqueue s f).bur.sel.modify [] ((s.frame f).outPort / 8) (· ++ [f]) } } := rfl

theorem onlyIn_unqueue (s : State) (f : Nat) : OnlyIn [.sched, .frames, .cnts, .cntCfg] s (unqueue s f) :=
  ((((onlyIn_sched _ _).mono.trans (onlyIn_setQueue _ _ _).mono).trans (onlyIn_setFrame _ _ _).mono).trans
    (onlyIn_stamp _ _ _).mono).trans (onlyIn_pmcCount _ _ _ _ _).mono

theorem onlyIn_takeSelected (s : State) (f : Nat) : OnlyIn [.sched, .frames, .cnts, .cntCfg, .bur] s (s.takeSelected f) :=
  (onlyIn_unqueue s f).mono.trans (onlyIn_bur _ _).mono

/-! A frame that is selected -/

/-- A stamp leaves a frame as it is but for its stamps. -/
theorem frame_stamp_self (s : State) (f k : Nat) :
    ∃ l, (s.stamp f k).frame f = { s.frame f with stamps := l } := by
  simp only [State.stamp]
  split
  · exact ⟨_, rfl⟩
  · exact ⟨_, State.frame_setFrame _ _ _⟩

theorem frame_stamp_other (s : State) {f g : Nat} (k : Nat) (h : g ≠ f) : (s.stamp f k).frame g = s.frame g := by
  simp only [State.stamp]
  split
  · rfl
  · exact State.frame_setFrame_other _ _ h

theorem frame_takeSelected (s : State) (f : Nat) :
    ∃ l, (s.takeSelected f).frame f = { s.frame f with eg := .selected, stamps := l } := by
  obtain ⟨l, hl⟩ := frame_stamp_self (((s.leaveFlow f).setQueue (s.queueKey (s.frame f))
    ((s.queue (s.queueKey (s.frame f))).filter (· ≠ f))).setFrame f { s.frame f with eg := .selected }) f 3
  refine ⟨l, ?_⟩
  rw [State.frame_setFrame] at hl
  exact ((onlyIn_pmcCount _ _ _ _ _).frame_same (by decide) f).trans hl

theorem frame_takeSelected_other (s : State) {f g : Nat} (h : g ≠ f) : (s.takeSelected f).frame g = s.frame g := by
  have count : (s.takeSelected f).frame g = _ := (onlyIn_pmcCount _ _ _ _ _).frame_same (by decide) g
  rw [count, frame_stamp_other _ _ h, State.frame_setFrame_other _ _ h]
  exact ((onlyIn_sched _ _).trans (onlyIn_setQueue _ _ _)).frame_same (by decide) g

theorem sel_takeSelected (s : State) (f : Nat) : (s.takeSelected f).bur.sel.get [] ((s.frame f).outPort / 8) =
    s.bur.sel.get [] ((s.frame f).outPort / 8) ++ [f] := by
  have before : (unqueue s f).bur = s.bur := (onlyIn_unqueue s f).bur_eq
  rw [takeSelected_eq, before]
  exact Tab.get_modify_same _ _ _ _

/-! Queues and their nodes -/

/-- A queue that joins or leaves a node leaves every queue and every node's V. -/
theorem leaveNode_keeps (s : State) (k : Nat) :
    (s.leaveNode k).sched.queues = s.sched.queues ∧ (s.leaveNode k).sched.nodeV = s.sched.nodeV := by
  simp only [State.leaveNode]
  split <;> exact ⟨rfl, rfl⟩

theorem joinNode_keeps (s : State) (k : Nat) :
    (s.joinNode k).sched.queues = s.sched.queues ∧ (s.joinNode k).sched.nodeV = s.sched.nodeV := by
  have leave : ∀ u, u = (if s.sched.memberAt.get 0 k = 0 then s else s.leaveNode k) →
      u.sched.queues = s.sched.queues ∧ u.sched.nodeV = s.sched.nodeV := by
    rintro u rfl
    split
    · exact ⟨rfl, rfl⟩
    · exact leaveNode_keeps s k
  simp only [State.joinNode]
  split
  · exact leave _ rfl
  · split
    · exact leave _ rfl
    · split
      · exact ⟨rfl, rfl⟩
      · have kept := leave _ rfl
        generalize (if s.sched.memberAt.get 0 k = 0 then s else s.leaveNode k) = u at kept ⊢
        split <;> exact kept

theorem queue_setQueue (s : State) (k : Nat) (l : List Nat) : (s.setQueue k l).queue k = l := by
  rw [State.queue, State.setQueue, (joinNode_keeps _ _).1]
  exact Tab.get_set_same _ _ _ _

theorem nodeV_setQueue (s : State) (k : Nat) (l : List Nat) : (s.setQueue k l).sched.nodeV = s.sched.nodeV :=
  (joinNode_keeps _ _).2

theorem sched_takeSelected (s : State) (f : Nat) : (s.takeSelected f).sched =
    ((s.leaveFlow f).setQueue (s.queueKey (s.frame f)) ((s.queue (s.queueKey (s.frame f))).filter (· ≠ f))).sched :=
  (onlyIn_pmcCount _ _ _ _ _).sched_eq.trans
    ((onlyIn_stamp _ _ _).sched_eq.trans (onlyIn_setFrame _ _ _).sched_eq)

/-- A selected frame stands in its queue no more. -/
theorem queue_takeSelected (s : State) (f : Nat) :
    (s.takeSelected f).queue (s.queueKey (s.frame f)) = (s.queue (s.queueKey (s.frame f))).filter (· ≠ f) := by
  rw [State.queue, sched_takeSelected]
  exact queue_setQueue _ _ _

theorem nodeV_takeSelected (s : State) (f : Nat) : (s.takeSelected f).sched.nodeV = s.sched.nodeV := by
  rw [sched_takeSelected, nodeV_setQueue]
  rfl

/-! A port's turn (R341) -/

/-- Ports of a slice with something to select, and no selection in this cycle, but `p`. -/
def rivalsLeft (s : State) (p : Nat) : List Nat :=
  (((List.range 8).map fun q => p / 8 * 8 + q).filter fun q => q ≠ p && s.wouldSelect q).filter
    fun q => !(s.servedNow (p / 8)).contains q

theorem portTurn_eq (s : State) (p : Nat) : s.portTurn p =
    if (s.servedNow (p / 8)).contains p then (rivalsLeft s p).isEmpty
    else (rivalsLeft s p).all fun q =>
      s.selectedBytes p < s.selectedBytes q || (s.selectedBytes p = s.selectedBytes q && p < q) := rfl

theorem mem_rivalsLeft {s : State} {p q : Nat} (slice : p / 8 = q / 8) (other : p ≠ q) (selects : s.wouldSelect q = true)
    (left : q ∉ s.servedNow (q / 8)) : q ∈ rivalsLeft s p := by
  have place : ∃ a < 8, p / 8 * 8 + a = q := ⟨q % 8, Nat.mod_lt _ (by decide), by omega⟩
  rw [← slice] at left
  simpa [rivalsLeft, selects, left, Ne.symm other] using place

theorem selectedBytes_shaperSync (s : State) (p : Nat) : s.shaperSync.selectedBytes p = s.selectedBytes p := by
  simp only [State.shaperSync]
  split <;> rfl

/-- The shapers are brought up to now, and the port has its selection of the cycle. -/
def atTurn (s : State) (p : Nat) : State := s.shaperSync.noteServed p

theorem onlyIn_atTurn (s : State) (p : Nat) : OnlyIn [.sched] s (atTurn s p) :=
  (onlyIn_shaperSync s).trans (onlyIn_noteServed _ _)

/-- A port that may receive a selection makes one in its turn (R341). -/
theorem exec_egressSelect {s : State} {p : Port} (up : (s.port p).link = .up) (safe : s.mode ≠ .safe)
    (room : s.selectedBytes p < 16384) (turn : s.shaperSync.portTurn p = true) :
    exec (.egressSelect p) s = .next ((atTurn s p).selectAt p) := by
  have mode : s.shaperSync.mode ≠ .safe := by rwa [(onlyIn_shaperSync s).mode_eq]
  have may : s.shaperSync.mayReceive p = true := by
    have link : (s.shaperSync.port p).link = .up := ((onlyIn_shaperSync s .links (by decide) p).1).trans up
    simp [State.mayReceive, link, selectedBytes_shaperSync, room]
  change done _ = _
  simp only [mode, may, turn, decide_false, Bool.not_true, Bool.or_self, Bool.false_eq_true, if_false]
  rfl

theorem exec_egressSelect_none {s : State} {p : Port} (h : (s.port p).link ≠ .up ∨ s.mode = .safe ∨
    16384 ≤ s.selectedBytes p ∨ s.shaperSync.portTurn p = false) : exec (.egressSelect p) s = .next s.shaperSync := by
  have held : (s.shaperSync.mode = .safe || !s.shaperSync.mayReceive p || !s.shaperSync.portTurn p) = true := by
    have link : (s.shaperSync.port p).link = (s.port p).link := (onlyIn_shaperSync s .links (by decide) p).1
    rcases h with down | safe | full | turn
    · simp [State.mayReceive, link, down]
    · simp [(onlyIn_shaperSync s).mode_eq, safe]
    · simp [State.mayReceive, selectedBytes_shaperSync, full]
    · simp [turn]
  change done _ = _
  simp only [held, if_true]

/-! A selection by class (R342 to R348) -/

/-- The shapers are charged for a selection of `l` bytes from queue `k` of class node (p, c). -/
def chargedState (s : State) (p c k l : Nat) : State :=
  ((s.chargePort p l).chargeClass (p * 8 + c) l).chargeCirq k l

/-- Charging changes the buckets of the three shapers alone. -/
theorem chargedState_eq (s : State) (p c k l : Nat) : ∃ a b d, chargedState s p c k l =
    { s with sched := { s.sched with portLevel := a, clsLevel := b, cirqLevel := d } } := by
  obtain ⟨a, ha⟩ : ∃ a, s.chargePort p l = { s with sched := { s.sched with portLevel := a } } := by
    simp only [State.chargePort]
    split <;> exact ⟨_, rfl⟩
  obtain ⟨b, hb⟩ : ∃ b, (s.chargePort p l).chargeClass (p * 8 + c) l =
      { s with sched := { s.sched with portLevel := a, clsLevel := b } } := by
    rw [ha]
    simp only [State.chargeClass]
    split <;> exact ⟨_, rfl⟩
  simp only [chargedState, hb, State.chargeCirq]
  split <;> exact ⟨_, _, _, rfl⟩

/-- The nodes and shapers advance past the head of queue `k` of class node (p, c). -/
def advancedState (s : State) (p c k : Nat) : State :=
  ((chargedState s p c k (s.schedLen (s.frame (s.headOf k)))).advanceNode p c k).advancePort p c (s.classFinish p c k)

theorem advancedState_eq (s : State) (p c k : Nat) :
    advancedState s p c k = { s with sched := (advancedState s p c k).sched } := by
  obtain ⟨a, b, d, charged⟩ := chargedState_eq s p c k (s.schedLen (s.frame (s.headOf k)))
  simp only [advancedState, charged, State.advancePort]
  split <;> rfl

theorem selectClass_chosen {s : State} {p c k : Nat} (choice : s.choose p = some (c, k))
    (young : s.age (s.frame (s.headOf k)) ≤ s.resLimit) (n : Nat) :
    s.selectClass p (n + 1) = (advancedState s p c k).takeSelected (s.headOf k) := by
  simp only [State.selectClass, choice, Nat.not_lt.mpr young, if_false]
  rfl

theorem finish_chargedState (s : State) (p c k l : Nat) : (chargedState s p c k l).finish k = s.finish k := by
  obtain ⟨a, b, d, charged⟩ := chargedState_eq s p c k l
  rw [charged]
  rfl

theorem nodeV_chargedState (s : State) (p c k l : Nat) : (chargedState s p c k l).sched.nodeV = s.sched.nodeV := by
  obtain ⟨a, b, d, charged⟩ := chargedState_eq s p c k l
  rw [charged]

theorem nodeV_advanceNode (s : State) (p c k : Nat) : (s.advanceNode p c k).sched.nodeV =
    s.sched.nodeV.set 0 (p * 8 + c) (if tagBefore (s.sched.nodeV.get 0 (p * 8 + c)) (s.finish k) then s.finish k
      else s.sched.nodeV.get 0 (p * 8 + c)) := rfl

theorem advanceNode_eq (s : State) (p c k : Nat) : ∃ v m,
    s.advanceNode p c k = { s with sched := { s.sched with nodeV := v, memberS := m } } := ⟨_, _, rfl⟩

theorem advancePort_eq (s : State) (p c fin : Nat) : ∃ v m,
    s.advancePort p c fin = { s with sched := { s.sched with portV := v, classS := m } } := by
  simp only [State.advancePort]
  split <;> exact ⟨_, _, rfl⟩

theorem queues_advanceNode (s : State) (p c k : Nat) : (s.advanceNode p c k).sched.queues = s.sched.queues := by
  obtain ⟨v, m, advanced⟩ := advanceNode_eq s p c k
  rw [advanced]

theorem queues_advancePort (s : State) (p c fin : Nat) : (s.advancePort p c fin).sched.queues = s.sched.queues := by
  obtain ⟨v, m, advanced⟩ := advancePort_eq s p c fin
  rw [advanced]

theorem nodeV_advancePort (s : State) (p c fin : Nat) : (s.advancePort p c fin).sched.nodeV = s.sched.nodeV := by
  obtain ⟨v, m, advanced⟩ := advancePort_eq s p c fin
  rw [advanced]

theorem queues_chargedState (s : State) (p c k l : Nat) : (chargedState s p c k l).sched.queues = s.sched.queues := by
  obtain ⟨a, b, d, charged⟩ := chargedState_eq s p c k l
  rw [charged]

/-- The class node's V moves on to the finish tag of the frame that is selected (R344). -/
theorem nodeV_advancedState (s : State) (p c k : Nat) : (advancedState s p c k).sched.nodeV.get 0 (p * 8 + c) =
    if tagBefore (s.sched.nodeV.get 0 (p * 8 + c)) (s.finish k) then s.finish k
    else s.sched.nodeV.get 0 (p * 8 + c) := by
  rw [advancedState, nodeV_advancePort, nodeV_advanceNode, Tab.get_set_same, finish_chargedState, nodeV_chargedState]

theorem onlyIn_advancedState (s : State) (p c k : Nat) : OnlyIn [.sched] s (advancedState s p c k) :=
  advancedState_eq s p c k ▸ onlyIn_sched _ _

theorem queue_advancedState (s : State) (p c k q : Nat) : (advancedState s p c k).queue q = s.queue q := by
  rw [State.queue, advancedState, queues_advancePort, queues_advanceNode, queues_chargedState, State.queue]

/-- What a selection by class leaves: the frame selected, and its node advanced. -/
structure SelectsByClass (s t : State) (p c k : Nat) : Prop where
  selected : (t.frame (s.headOf k)).eg = .selected
  order : t.bur.sel.get [] ((s.frame (s.headOf k)).outPort / 8) =
    s.bur.sel.get [] ((s.frame (s.headOf k)).outPort / 8) ++ [s.headOf k]
  unqueued : s.headOf k ∉ t.queue (s.queueKey (s.frame (s.headOf k)))
  nodeV : t.sched.nodeV.get 0 (p * 8 + c) =
    if tagBefore (s.sched.nodeV.get 0 (p * 8 + c)) (s.finish k) then s.finish k
    else s.sched.nodeV.get 0 (p * 8 + c)
  others : ∀ g, g ≠ s.headOf k → t.frame g = s.frame g
  only : OnlyIn [.cntCfg, .cnts, .frames, .sched, .bur] s t

theorem selectsByClass {s : State} {p c k : Nat} :
    SelectsByClass s ((advancedState s p c k).takeSelected (s.headOf k)) p c k := by
  have only := onlyIn_advancedState s p c k
  have frame (g : Nat) : (advancedState s p c k).frame g = s.frame g := only.frame_same (by decide) g
  have key (x : Frame) : (advancedState s p c k).queueKey x = s.queueKey x := by rw [advancedState_eq]; rfl
  refine ⟨?_, ?_, ?_, ?_, ?_, ?_⟩
  · obtain ⟨l, taken⟩ := frame_takeSelected (advancedState s p c k) (s.headOf k)
    rw [taken]
  · have taken := sel_takeSelected (advancedState s p c k) (s.headOf k)
    rwa [frame, only.bur_eq] at taken
  · have taken := queue_takeSelected (advancedState s p c k) (s.headOf k)
    rw [frame, key] at taken
    rw [taken]
    simp
  · rw [nodeV_takeSelected, nodeV_advancedState]
  · exact fun g other => (frame_takeSelected_other _ other).trans (frame g)
  · exact only.mono.trans (onlyIn_takeSelected _ _).mono

/-! A slot of a Constant Profile (R357 to R361) -/

/-- Offering a slot discards frames as they come to the head, and changes profiles in their pins alone. -/
theorem offerQueue_keeps (s : State) (p k most size n : Nat) :
    OnlyIn leaveParts s (s.offerQueue p k most size n).1 ∧ SameProfiles s (s.offerQueue p k most size n).1 := by
  have discard (s : State) (j f : Nat) :
      OnlyIn leaveParts s ((s.bump j).discard f) ∧ SameProfiles s ((s.bump j).discard f) :=
    ⟨onlyIn_bump_discard _ _ _, (onlyIn_bump _ _).sameProfiles.trans (sameProfiles_discard _ _)⟩
  induction n generalizing s with
  | zero => exact ⟨.refl _ _, .refl _⟩
  | succ n ih =>
    have again (j f : Nat) := (discard s j f).imp (·.trans (ih _).1) (·.trans (ih _).2)
    simp only [State.offerQueue]
    split
    · exact ⟨.refl _ _, .refl _⟩
    · split
      · exact ⟨.refl _ _, .refl _⟩
      · split
        · exact again _ _
        · split
          · exact ⟨.refl _ _, .refl _⟩
          · split
            · exact again _ _
            · exact ⟨.refl _ _, .refl _⟩

theorem offer_keeps (s : State) (p eq most size n : Nat) :
    OnlyIn leaveParts s (s.offer p eq most size n).1 ∧ SameProfiles s (s.offer p eq most size n).1 := by
  induction n generalizing s with
  | zero => exact ⟨.refl _ _, .refl _⟩
  | succ n ih =>
    have queue := offerQueue_keeps s p (p / 8 * 32768 + eq * 8 + n) most size
      ((s.queue (p / 8 * 32768 + eq * 8 + n)).length + 1)
    simp only [State.offer]
    split
    · next t f ht => rwa [ht] at queue
    · next t ht =>
      rw [ht] at queue
      exact ⟨queue.1.trans (ih t).1, queue.2.trans (ih t).2⟩

/-- No slot is skipped while its successor is not due. -/
theorem skipSlots_current {s : State} {c : Nat} {q : Profile} {v : CirVer} (profile : s.cps.get none c = some q)
    (circuit : s.cirNow c = some v) (next : s.now < q.next.due) (n : Nat) : s.skipSlots c n = s := by
  cases n with
  | zero => rfl
  | succ n => simp only [State.skipSlots, profile, circuit, Nat.not_le.mpr next, if_false]

/-- Frame `f`, padded, fills the slot of profile `q` of circuit `c`. -/
def padSlot (s : State) (p c f : Nat) (q : Profile) : State :=
  ((((s.modFrame f fun x => { x with slot := some (q.size, q.n % q.nslot) }).bump (cntCps (p / 8) 0)).chargePort p
    (q.size + 20)).takeSelected f).slotDone c id

/-- A filler frame fills the slot of profile `q` of circuit `c`. -/
def fillSlot (s : State) (p c : Nat) (q : Profile) (v : CirVer) : State :=
  (((((s.filler c q v).1.bump (cntCps (p / 8) 1)).pmcCount 3 (p / 8) 1 1).chargePort p (q.size + 20)).takeSelected
    (s.filler c q v).2).slotDone c fun q => { q with fillers := q.fillers + 1 }

section

variable {s : State} {p c : Nat} {q : Profile} {v : CirVer} (profile : s.cps.get none c = some q)
  (circuit : s.cirNow c = some v) (due : q.due ≤ s.now) (next : s.now < q.next.due)

include profile circuit due next

theorem serveSlot_padded {w : State} {f : Nat} (offered : s.offer p v.eq (q.used.foldl max 0) q.size 8 = (w, some f)) :
    s.serveSlot p c = (padSlot w p c f q, true) := by
  simp only [State.serveSlot, skipSlots_current profile circuit next, profile, circuit, Nat.not_lt.mpr due, if_false,
    offered]
  rfl

theorem serveSlot_filled (offered : s.offer p v.eq (q.used.foldl max 0) q.size 8 = (s, none))
    (fill : s.canFill c q v = true) : s.serveSlot p c = (fillSlot s p c q v, true) := by
  simp only [State.serveSlot, skipSlots_current profile circuit next, profile, circuit, Nat.not_lt.mpr due, if_false,
    offered, Option.getD_some, fill, if_true]
  rfl

theorem serveSlot_skipped (offered : s.offer p v.eq (q.used.foldl max 0) q.size 8 = (s, none))
    (fill : s.canFill c q v = false) :
    s.serveSlot p c = ((s.slotDone c id).bump (cntCps (p / 8) 2), false) := by
  simp only [State.serveSlot, skipSlots_current profile circuit next, profile, circuit, Nat.not_lt.mpr due, if_false,
    offered, Option.getD_some, fill, Bool.false_eq_true]

end

theorem cps_slotDone {s : State} {c : Nat} (g : Profile → Profile) :
    (s.slotDone c g).cps.get none c = (s.cps.get none c).map fun q => (g q).next := Tab.get_set_same _ _ _ _

theorem onlyIn_slotDone (s : State) (c : Nat) (g : Profile → Profile) : OnlyIn [.cps] s (s.slotDone c g) :=
  onlyIn_setCps _ _ _

theorem size_withoutPin (q : Profile) : (withoutPin q).size = q.size := rfl

theorem bits_withoutPin (q : Profile) : (withoutPin q).bits = q.bits := by
  rw [Profile.bits, size_withoutPin, Profile.bits]
  rfl

theorem next_withoutPin (q : Profile) : withoutPin q.next = (withoutPin q).next := by
  unfold Profile.next
  rw [bits_withoutPin]
  rfl

/-- The slot of a profile completes whatever its pin. -/
theorem map_next_withoutPin {o : Option Profile} {q : Profile} (h : o.map withoutPin = some (withoutPin q)) :
    (o.map Profile.next).map withoutPin = some (withoutPin q.next) := by
  have commutes : withoutPin ∘ Profile.next = Profile.next ∘ withoutPin := funext next_withoutPin
  rw [Option.map_map, commutes, ← Option.map_map, h, Option.map_some, next_withoutPin]

/-- What a slot that is served may change. -/
abbrev slotParts : List Part := [.cntCfg, .cnts, .out, .draws, .gen, .hif, .eic, .lanes, .frames, .nextFrame, .bpm, .fab,
  .sched, .cps, .glz, .bur]

theorem onlyIn_padSlot (s : State) (p c f : Nat) (q : Profile) : OnlyIn slotParts s (padSlot s p c f q) :=
  ((((onlyIn_modFrame _ _ _).mono.trans (onlyIn_bump _ _).mono).trans (onlyIn_chargePort _ _ _).mono).trans
    (onlyIn_takeSelected _ _).mono).trans (onlyIn_slotDone _ _ _).mono

theorem frame_padSlot (s : State) (p c f : Nat) (q : Profile) : ((padSlot s p c f q).frame f).eg = .selected ∧
    ((padSlot s p c f q).frame f).slot = some (q.size, q.n % q.nslot) := by
  obtain ⟨l, taken⟩ := frame_takeSelected (((s.modFrame f fun x =>
    { x with slot := some (q.size, q.n % q.nslot) }).bump (cntCps (p / 8) 0)).chargePort p (q.size + 20)) f
  have same : (padSlot s p c f q).frame f = _ := ((onlyIn_slotDone _ _ _).frame_same (by decide) f).trans taken
  have slot := ((onlyIn_bump (s.modFrame f fun x => { x with slot := some (q.size, q.n % q.nslot) })
    (cntCps (p / 8) 0)).mono (qs := [.cnts, .sched])).trans (onlyIn_chargePort _ p (q.size + 20)).mono
  rw [same]
  refine ⟨rfl, ?_⟩
  rw [slot.frame_same (by decide), State.modFrame, State.frame_setFrame]

theorem cps_padSlot (s : State) (p c f : Nat) (q : Profile) :
    (padSlot s p c f q).cps.get none c = (s.cps.get none c).map Profile.next := by
  have before := ((((onlyIn_modFrame s f fun x => { x with slot := some (q.size, q.n % q.nslot) }).mono
    (qs := [.frames, .cnts, .cntCfg, .sched, .bur])).trans
    (onlyIn_bump _ (cntCps (p / 8) 0)).mono).trans (onlyIn_chargePort _ p (q.size + 20)).mono).trans
      (onlyIn_takeSelected _ f).mono
  rw [padSlot, cps_slotDone, before.cps_eq]
  rfl

/-! A filler frame (R360, R361) -/

theorem onlyIn_newFrame (s : State) (n : Nat) (l : Tab Frame) :
    OnlyIn [.nextFrame, .frames] s { s with nextFrame := n, frames := l } := by
  intro p hp
  have same := SamePart.refl s p
  cases p
  case nextFrame => exact absurd List.mem_cons_self hp
  case frames => exact absurd (by decide) hp
  all_goals exact same

theorem onlyIn_refUp (s : State) (g : Gen) : OnlyIn [.gen] s (s.refUp g) := onlyIn_gen _ _

/-- The frame that a filler is made of: of circuit `c`, for the slot of profile `q`. -/
structure FillerFrame (x : Frame) (c : Nat) (q : Profile) : Prop where
  origin : x.origin = .filler
  circuit : x.circuit = some c
  slot : x.slot = some (q.size, q.n % q.nslot)
  number : x.fillCount = q.fillers

theorem filler_eq (s : State) (c : Nat) (q : Profile) (v : CirVer) : ∃ x, FillerFrame x c q ∧ (s.filler c q v).1 =
    ({ (s.draw 3).2 with nextFrame := s.nextFrame + 1, frames := s.frames.set {} s.nextFrame x }).refUp x.gen :=
  ⟨_, ⟨rfl, rfl, rfl, rfl⟩, rfl⟩

theorem onlyIn_filler (s : State) (c : Nat) (q : Profile) (v : CirVer) :
    OnlyIn [.draws, .nextFrame, .frames, .gen] s (s.filler c q v).1 := by
  obtain ⟨x, -, made⟩ := filler_eq s c q v
  rw [made]
  exact ((onlyIn_draw _ _).mono.trans (onlyIn_newFrame _ _ _).mono).trans (onlyIn_refUp _ _).mono

theorem frame_filler (s : State) (c : Nat) (q : Profile) (v : CirVer) :
    FillerFrame ((s.filler c q v).1.frame s.nextFrame) c q := by
  obtain ⟨x, fills, made⟩ := filler_eq s c q v
  rw [made, (onlyIn_refUp _ _).frame_same (by decide), State.frame, Tab.get_set_same]
  exact fills

theorem nextFrame_filler (s : State) (c : Nat) (q : Profile) (v : CirVer) :
    (s.filler c q v).1.nextFrame = s.nextFrame + 1 := by
  obtain ⟨x, -, made⟩ := filler_eq s c q v
  rw [made]
  exact onlyIn_refUp _ _ .nextFrame (by decide)

/-- A filler frame is counted and its bytes charged to the port. -/
def countFiller (s : State) (p c : Nat) (q : Profile) (v : CirVer) : State :=
  (((s.filler c q v).1.bump (cntCps (p / 8) 1)).pmcCount 3 (p / 8) 1 1).chargePort p (q.size + 20)

theorem onlyIn_countFiller (s : State) (p c : Nat) (q : Profile) (v : CirVer) :
    OnlyIn [.cnts, .cntCfg, .sched] (s.filler c q v).1 (countFiller s p c q v) :=
  ((onlyIn_bump _ _).mono.trans (onlyIn_pmcCount _ _ _ _ _).mono).trans (onlyIn_chargePort _ _ _).mono

theorem fillSlot_eq (s : State) (p c : Nat) (q : Profile) (v : CirVer) : fillSlot s p c q v =
    ((countFiller s p c q v).takeSelected s.nextFrame).slotDone c fun q => { q with fillers := q.fillers + 1 } := rfl

theorem onlyIn_fillSlot (s : State) (p c : Nat) (q : Profile) (v : CirVer) : OnlyIn slotParts s (fillSlot s p c q v) :=
  (((onlyIn_filler s c q v).mono.trans (onlyIn_countFiller s p c q v).mono).trans (onlyIn_takeSelected _ _).mono).trans
    (onlyIn_slotDone _ _ _).mono

theorem frame_fillSlot (s : State) (p c : Nat) (q : Profile) (v : CirVer) :
    ((fillSlot s p c q v).frame s.nextFrame).eg = .selected ∧ FillerFrame ((fillSlot s p c q v).frame s.nextFrame) c q := by
  obtain ⟨l, taken⟩ := frame_takeSelected (countFiller s p c q v) s.nextFrame
  have made : FillerFrame ((countFiller s p c q v).frame s.nextFrame) c q := by
    rw [(onlyIn_countFiller s p c q v).frame_same (by decide)]
    exact frame_filler s c q v
  rw [fillSlot_eq, (onlyIn_slotDone _ _ _).frame_same (by decide), taken]
  exact ⟨rfl, made.origin, made.circuit, made.slot, made.number⟩

theorem cps_fillSlot {s : State} {p c : Nat} {q : Profile} (v : CirVer) (profile : s.cps.get none c = some q) :
    (fillSlot s p c q v).cps.get none c = some { q.next with fillers := q.fillers + 1 } := by
  rw [fillSlot_eq, cps_slotDone, (onlyIn_takeSelected _ _).cps_eq, (onlyIn_countFiller _ _ _ _ _).cps_eq,
    (onlyIn_filler _ _ _ _).cps_eq, profile]
  rfl

theorem nextFrame_fillSlot (s : State) (p c : Nat) (q : Profile) (v : CirVer) :
    (fillSlot s p c q v).nextFrame = s.nextFrame + 1 := by
  have later := ((onlyIn_countFiller s p c q v).mono (qs := [.cntCfg, .cnts, .sched, .frames, .bur, .cps])).trans
    ((onlyIn_takeSelected _ s.nextFrame).mono.trans (onlyIn_slotDone _ c fun q => { q with fillers := q.fillers + 1 }).mono)
  have same : (fillSlot s p c q v).nextFrame = (s.filler c q v).1.nextFrame := later .nextFrame (by decide)
  exact same.trans (nextFrame_filler s c q v)

/-! The slots of a port that are due -/

theorem selectAt_served {s t : State} {p c : Nat} {rest : List Nat} (due : s.dueSlots p = c :: rest)
    (served : s.serveSlot p c = (t, true)) : s.selectAt p = t := by
  simp only [State.selectAt, due, State.serveSlots, served]

/-- The only slot due was served by no frame, and the port's shaper holds back its classes. -/
theorem selectAt_skipped {s t : State} {p c : Nat} (due : s.dueSlots p = [c]) (served : s.serveSlot p c = (t, false))
    (level : t.portLevelOf p = .x) : s.selectAt p = t := by
  simp only [State.selectAt, due, State.serveSlots, served, level, if_true]

theorem selectAt_class {s : State} {p c k : Nat} (due : s.dueSlots p = []) (level : s.portLevelOf p ≠ .x)
    (choice : s.choose p = some (c, k)) (young : s.age (s.frame (s.headOf k)) ≤ s.resLimit) :
    s.selectAt p = (advancedState s p c k).takeSelected (s.headOf k) := by
  simp only [State.selectAt, due, State.serveSlots, level, if_false]
  exact selectClass_chosen choice young _

/-- The level of a port's shaper rests on its register and its buckets. -/
theorem OnlyIn.portLevelOf {ps : List Part} {s t : State} (h : OnlyIn ps s t) (p : Port)
    (hp : Part.regs ∉ ps ∧ Part.sched ∉ ps := by decide) : t.portLevelOf p = s.portLevelOf p := by
  have reg : t.reg .egsPortShape 0 p = s.reg .egsPortShape 0 p :=
    h.reg_same hp.1 (by
      simp only [inCntCfg, RegName.key, RegName.addr, RegName.info, Bool.false_eq_true, if_false]
      omega)
  have shaper : t.portShaper p = s.portShaper p := by simp only [State.portShaper, State.fld, reg]
  have buckets : t.portBuckets p = s.portBuckets p := by simp only [State.portBuckets, shaper, h.sched_eq hp.2]
  unfold State.portLevelOf State.bit
  rw [reg, buckets, shaper]

/-- Settles O42. -/
theorem schedulerSelectsFrames : Obligations.SchedulerSelectsFrames := by
  refine ⟨?_, ?_, ?_, ?_, ?_⟩
  · intro p q s slice turn selects other left
    have rival := mem_rivalsLeft slice (fun h => other (Fin.ext h)) selects left
    rw [portTurn_eq] at turn
    by_cases served : p.val ∈ s.servedNow (p / 8)
    · rw [if_pos (List.contains_iff_mem.mpr served), List.isEmpty_iff] at turn
      rw [turn] at rival
      cases rival
    · rw [if_neg (by simpa using served), List.all_eq_true] at turn
      exact ⟨served, by simpa using turn q rival⟩
  · intro p s held
    exact exec_egressSelect_none held
  · rintro p c k s u up safe room turn rfl due level choice young
    have run := exec_egressSelect up safe room turn
    change (atTurn s p).dueSlots p = [] at due
    rw [selectAt_class due level choice young] at run
    have only := onlyIn_atTurn s p
    have frame (g : Nat) : (atTurn s p).frame g = s.frame g := only.frame_same (by decide) g
    obtain ⟨selected, order, unqueued, nodeV, others, part⟩ := selectsByClass (s := atTurn s p) (p := p) (c := c) (k := k)
    rw [frame, only.bur_eq] at order
    exact ⟨_, run, selected, order, unqueued, nodeV, fun g hg => (others g hg).trans (frame g), only.mono.trans part⟩
  · rintro p c f rest q v s u w up safe room turn rfl dueSlots profile circuit due next offered
    have run := exec_egressSelect up safe room turn
    change (atTurn s p).dueSlots p = c :: rest at dueSlots
    rw [selectAt_served dueSlots (serveSlot_padded profile circuit due next offered)] at run
    have before := offer_keeps (atTurn s p) p v.eq (q.used.foldl max 0) q.size 8
    change (atTurn s p).offer p v.eq (q.used.foldl max 0) q.size 8 = (w, some f) at offered
    rw [offered] at before
    obtain ⟨selected, slot⟩ := frame_padSlot w p c f q
    refine ⟨_, run, selected, slot, ?_, ((onlyIn_atTurn s p).mono.trans before.1.mono).trans (onlyIn_padSlot _ _ _ _ _)⟩
    have kept := before.2 c
    rw [show (atTurn s p).cps.get none c = some q from profile] at kept
    rw [cps_padSlot]
    exact map_next_withoutPin kept
  · rintro p c rest q v s u up safe room turn rfl dueSlots profile circuit due next offered
    have run := exec_egressSelect up safe room turn
    change (atTurn s p).dueSlots p = c :: rest at dueSlots
    have only := onlyIn_atTurn s p
    have number : (atTurn s p).nextFrame = s.nextFrame := only .nextFrame (by decide)
    refine ⟨fun fill => ?_, fun fill none level => ?_⟩
    · rw [selectAt_served dueSlots (serveSlot_filled profile circuit due next offered fill)] at run
      obtain ⟨selected, made⟩ := frame_fillSlot (atTurn s p) p c q v
      rw [number] at selected made
      refine ⟨_, run, ?_, made.origin, selected, made.circuit, made.slot, made.number, cps_fillSlot v profile,
        only.mono.trans (onlyIn_fillSlot _ _ _ _ _)⟩
      rw [nextFrame_fillSlot, number]
    · subst none
      have skip := (onlyIn_slotDone (atTurn s p) c id).mono (qs := [.cps, .cnts]) |>.trans
        (onlyIn_bump _ (cntCps (p / 8) 2)).mono
      have held := (skip.portLevelOf p).trans level
      rw [selectAt_skipped dueSlots (serveSlot_skipped profile circuit due next offered fill) held] at run
      refine ⟨_, run, ?_, ?_, ?_⟩
      · rw [(onlyIn_bump _ _).cps_eq, cps_slotDone]
        exact congrArg (Option.map _) profile
      · rw [skip.frames_eq, only.frames_eq]
      · rw [State.cnt_bump]
        have same : ((atTurn s p).slotDone c id).cnts = s.cnts := (onlyIn_slotDone _ _ _).cnts_eq.trans only.cnts_eq
        rw [State.cnt, same, State.cnt]

end Sys2Proof.Claims

/-! SUPPORT, and O40: the deep buffer's items, and the residency sweep (R73, R74, R327 to R334). -/

namespace Sys2Proof.Claims

open Sys2Proof.Machine

set_option Elab.async false

/-! Frames that have left stay so -/

/-- No frame takes the number of one that has left. -/
def GoneStay (s t : State) : Prop := ∀ g, s.frame g = {} → t.frame g = {}

theorem GoneStay.refl (s : State) : GoneStay s s := fun _ => id

theorem GoneStay.trans {s t u : State} (h : GoneStay s t) (k : GoneStay t u) : GoneStay s u := fun g hg => k g (h g hg)

theorem OnlyIn.goneStay {ps : List Part} {s t : State} (h : OnlyIn ps s t) (hp : Part.frames ∉ ps := by decide) :
    GoneStay s t := fun g hg => (h.frame_same hp g).trans hg

theorem GoneStay.runOver {α : Type} {f : α → State → State} (h : ∀ a s, GoneStay s (f a s)) (l : List α) (s : State) :
    GoneStay s (Machine.runOver l f s) := by
  unfold Machine.runOver
  induction l generalizing s with
  | nil => exact .refl _
  | cons a l ih => exact (h a s).trans (ih _)

/-- A frame that is in the device may change. -/
theorem goneStay_setFrame {s : State} {f : Nat} {x : Frame} (h : s.frame f ≠ {} ∨ x = {}) :
    GoneStay s (s.setFrame f x) := by
  intro g hg
  by_cases same : g = f
  · subst same
    rw [State.frame_setFrame]
    exact h.resolve_left fun there => there hg
  · rw [State.frame_setFrame_other _ _ same, hg]

theorem frameKey_gone {s : State} {f : Nat} (h : s.frame f = {}) : s.frameKey f = none := by
  rw [State.frameKey, h]
  rfl

theorem goneStay_pinRequest {s t : State} {i r : Nat} (h : s.pinRequest i r = some t) : GoneStay s t := by
  simp only [State.pinRequest] at h
  split at h
  · split at h
    · obtain ⟨u, pin, rfl⟩ := Option.map_eq_some_iff.mp h
      exact (onlyIn_pinKey pin).goneStay.trans (onlyIn_setCps _ _ _).goneStay
    · cases h
      exact .refl _
  · split at h
    · next k key =>
      obtain ⟨u, pin, rfl⟩ := Option.map_eq_some_iff.mp h
      have kept := onlyIn_pinKey pin
      refine kept.goneStay.trans (goneStay_setFrame (.inl fun gone => ?_))
      rw [kept.frame_same (by decide)] at gone
      rw [frameKey_gone gone] at key
      cases key
    · cases h
      exact .refl _

theorem goneStay_serveCacheN (s : State) (i n : Nat) : GoneStay s (s.serveCacheN i n) := by
  induction n generalizing s with
  | zero => exact .refl _
  | succ n ih =>
    simp only [State.serveCacheN]
    split
    · exact .refl _
    · split
      · next served => exact ((onlyIn_setCacheWait _ _ _).goneStay.trans (goneStay_pinRequest served)).trans (ih _)
      · exact .refl _

theorem goneStay_unpin (s : State) (f : Nat) : GoneStay s (s.unpin f) := by
  have wait := onlyIn_setCacheWait s ((s.frame f).outPort / 8)
    ((s.cacheWait ((s.frame f).outPort / 8)).filter (· ≠ f))
  simp only [State.unpin]
  split
  · next pinned =>
    have there : s.frame f ≠ {} := fun gone => by simp [gone] at pinned
    split
    · refine (wait.goneStay.trans ?_).trans (goneStay_serveCacheN _ _ _)
      refine (onlyIn_unpinKey _ _ _).goneStay.trans (goneStay_setFrame (.inl ?_))
      rwa [(onlyIn_unpinKey _ _ _).frame_same (by decide), wait.frame_same (by decide)]
    · refine wait.goneStay.trans (goneStay_setFrame (.inl ?_))
      rwa [wait.frame_same (by decide)]
  · exact wait.goneStay

theorem onlyIn_uncharge (s : State) (egress : Bool) (slice set owner pool : Nat) :
    OnlyIn [.bpm] s (s.uncharge egress slice set owner pool) := onlyIn_bpm _ _

theorem goneStay_freeEgress (s : State) (f : Nat) : GoneStay s (s.freeEgress f) := by
  simp only [State.freeEgress]
  split
  · next p buffer =>
    have there : s.frame f ≠ {} := fun gone => by simp [gone] at buffer
    have freed := onlyIn_uncharge s true ((s.frame f).outPort / 8) (portSet (s.frame f).outPort)
      ((s.frame f).outPort * 8 + (s.frame f).cls) p
    refine (freed.goneStay.trans (goneStay_setFrame (.inl ?_))).trans (onlyIn_flowControl _ _ _).goneStay
    rwa [freed.frame_same (by decide)]
  · exact .refl _

theorem goneStay_leave (s : State) (f : Nat) (how : Leaving) : GoneStay s (s.leave f how) := by
  have name (u : State) : GoneStay u (if how = .sent then u else u.clearName f) := by
    split
    · exact .refl _
    · exact (onlyIn_clearName _ _).goneStay
  have flow := (onlyIn_sampleRecord s f how).goneStay.trans (onlyIn_leaveFlow _ f).goneStay
  exact (((flow.trans (goneStay_unpin _ _)).trans (goneStay_freeEgress _ _)).trans (name _)).trans
    ((goneStay_setFrame (.inr rfl)).trans (onlyIn_refDown _ _).goneStay)

theorem goneStay_issueReady (s : State) (p : Nat) : GoneStay s (s.issueReady p) := fun g hg =>
  (frame_issueReady s p (by simp [hg])).trans hg

theorem goneStay_discard (s : State) (f : Nat) : GoneStay s (s.discard f) :=
  remove_keeps (R := GoneStay) .refl .trans (fun h => h.goneStay) (fun s f => (onlyIn_leaveLanding s f).goneStay)
    (fun s f => (onlyIn_leaveEgress s f).goneStay) goneStay_leave goneStay_issueReady s f .dropped

/-- Every frame of a list is gone once each has been discarded, whatever is counted with it. -/
theorem gone_runOver {f : Nat → State → State} (gone : ∀ a s, (f a s).frame a = {}) (stay : ∀ a s, GoneStay s (f a s))
    {l : List Nat} {g : Nat} (hg : g ∈ l) (s : State) : (runOver l f s).frame g = {} := by
  induction l generalizing s with
  | nil => cases hg
  | cons a l ih =>
    rcases List.mem_cons.mp hg with rfl | later
    · exact GoneStay.runOver stay l _ _ (gone g s)
    · exact ih later _

theorem goneStay_bump_discard (s : State) (k f : Nat) : GoneStay s ((s.bump k).discard f) :=
  (onlyIn_bump _ _).goneStay.trans (goneStay_discard _ _)

theorem gone_resDiscard (s : State) (f : Nat) : (s.resDiscard f).frame f = {} := frame_discard_self _ _

theorem goneStay_resDiscard (s : State) (f : Nat) : GoneStay s (s.resDiscard f) := goneStay_bump_discard _ _ _

theorem onlyIn_resDiscard (s : State) (f : Nat) : OnlyIn leaveParts s (s.resDiscard f) := onlyIn_bump_discard _ _ _

theorem onlyIn_deepDiscard (s : State) (f : Nat) : OnlyIn leaveParts s (s.deepDiscard f) := onlyIn_bump_discard _ _ _

theorem onlyIn_offDiscard (s : State) (f : Nat) (suspended : Bool) : OnlyIn leaveParts s (s.offDiscard f suspended) :=
  onlyIn_bump_discard _ _ _

/-! What keeps the items of a VOQ where they are -/

/-- Every VOQ holds the same items in the same places, and the same claims wait. -/
structure SameItems (s t : State) : Prop where
  order : ∀ k, (t.voq k).order = (s.voq k).order
  deep : ∀ k, (t.voq k).deep = (s.voq k).deep
  reading : ∀ k, (t.voq k).reading = (s.voq k).reading
  claims : t.bpm.claims = s.bpm.claims

theorem SameItems.refl (s : State) : SameItems s s := ⟨fun _ => rfl, fun _ => rfl, fun _ => rfl, rfl⟩

theorem SameItems.trans {s t u : State} (h : SameItems s t) (k : SameItems t u) : SameItems s u :=
  ⟨fun n => (k.order n).trans (h.order n), fun n => (k.deep n).trans (h.deep n),
    fun n => (k.reading n).trans (h.reading n), k.claims.trans h.claims⟩

theorem OnlyIn.sameItems {ps : List Part} {s t : State} (h : OnlyIn ps s t) (hp : Part.bpm ∉ ps := by decide) :
    SameItems s t := by
  have voq (k : Nat) : t.voq k = s.voq k := by rw [State.voq, h.bpm_eq hp, State.voq]
  exact ⟨fun k => by rw [voq], fun k => by rw [voq], fun k => by rw [voq], by rw [h.bpm_eq hp]⟩

theorem sameItems_setVoq {s : State} {k : Nat} {v : Voq} (order : v.order = (s.voq k).order)
    (deep : v.deep = (s.voq k).deep) (reading : v.reading = (s.voq k).reading) : SameItems s (s.setVoq k v) := by
  have field {α : Type} (p : Voq → α) (same : p v = p (s.voq k)) (j : Nat) :
      p ((s.setVoq k v).voq j) = p (s.voq j) := by
    by_cases h : j = k
    · rw [h, State.voq_setVoq, same]
    · rw [State.voq_setVoq_other _ _ h]
  exact ⟨field _ order, field _ deep, field _ reading, rfl⟩

theorem sameItems_freePages (s : State) (k : Nat) : SameItems s (s.freePages k) := by
  simp only [State.freePages]
  split <;> exact sameItems_setVoq rfl rfl rfl

theorem sameItems_settleVoq (s : State) (k : Nat) : SameItems s (s.settleVoq k) := by
  simp only [State.settleVoq]
  split
  · exact (sameItems_freePages s k).trans (sameItems_setVoq rfl rfl rfl)
  · exact sameItems_freePages s k

theorem sameItems_returnSync (s : State) (k : Nat) : SameItems s (s.returnSync k) := by
  simp only [State.returnSync]
  split
  · exact sameItems_setVoq rfl rfl rfl
  · exact .refl _

theorem onlyIn_returnSync (s : State) (k : Nat) : OnlyIn [.bpm] s (s.returnSync k) := by
  simp only [State.returnSync]
  split
  · exact onlyIn_setVoq _ _ _
  · exact .refl _ _

theorem sameItems_panicSync (s : State) : SameItems s s.panicSync := by
  have panic (l : List Nat) : SameItems s { s with bpm := { s.bpm with panic := l } } :=
    ⟨fun _ => rfl, fun _ => rfl, fun _ => rfl, rfl⟩
  exact (panic _).trans (OnlyIn.runOver (ps := [.cnts]) (fun _ _ => (onlyIn_bumpBy _ _ _).mono) _ _).sameItems

theorem onlyIn_endFlush (s : State) (c : Nat) : OnlyIn (.glz :: faultParts) s (s.endFlush c) :=
  (onlyIn_setCirState _ _ _).mono.trans (OnlyIn.runOver (fun _ _ => (onlyIn_complete _ _ _ _ _).mono) _ _)

theorem onlyIn_endFlushes (s : State) (k : Nat) : OnlyIn (.glz :: faultParts) s (s.endFlushes k) :=
  .runOver (fun _ _ => onlyIn_endFlush _ _) _ _

/-! Spill writes (R327, R400) -/

/-- The units of an item, its record and the headers of the pages that it enters are written. -/
def writeItem (s : State) (x : Frame) : State :=
  runOver (s.headerUnits x ++ s.itemUnits x) (fun u s => s.unitFill u) s

theorem onlyIn_writeItem (s : State) (x : Frame) : OnlyIn unitParts s (writeItem s x) :=
  .runOver (fun _ _ => onlyIn_unitFill _ _) _ _

/-- An item leaves the spill write queue, written. -/
def leaveQueue (s : State) (f : Nat) (x : Frame) : State := (s.leaveSpill f).setFrame f { x with ing := .deep }

theorem onlyIn_leaveQueue (s : State) (f : Nat) (x : Frame) : OnlyIn [.bpm, .frames] s (leaveQueue s f x) :=
  (onlyIn_bpm _ _).mono.trans (onlyIn_setFrame _ _ _).mono

theorem voq_leaveQueue (s : State) (f : Nat) (x : Frame) (k : Nat) : (leaveQueue s f x).voq k = s.voq k := rfl

theorem spillQ_leaveQueue (s : State) (f : Nat) (x : Frame) :
    (leaveQueue s f x).bpm.spillQ.get [] (s.frame f).slice = (s.bpm.spillQ.get [] (s.frame f).slice).filter (· ≠ f) :=
  Tab.get_modify_same _ _ _ _

/-- An item joins the end of VOQ `k`'s deep portion. -/
def joinDeep (s : State) (k f : Nat) : State := s.setVoq k { s.voq k with deep := (s.voq k).deep ++ [f] }

theorem exec_spillWriteAck {f : Nat} {s : State} (queued : (s.frame f).ing = .spillQ)
    (first : (s.bpm.spillQ.get [] (s.frame f).slice).find? (fun g => (s.frame g).voqKey = (s.frame f).voqKey) = some f) :
    exec (.spillWriteAck f) s = .next
      (joinDeep (leaveQueue (writeItem s (s.frame f)) f (s.frame f)) (s.frame f).voqKey f) := by
  change done _ = _
  simp only [queued, first, and_self, if_true]
  rfl

/-! Return reads (R329) -/

/-- The read of item `f`, the head of VOQ `k`'s deep portion, starts. -/
def startRead (s : State) (k f : Nat) (rest : List Nat) : State :=
  (s.setVoq k { s.voq k with deep := rest, reading := (s.voq k).reading ++ [f], returning := true }).modFrame f
    fun x => { x with ing := .reading }

theorem onlyIn_startRead (s : State) (k f : Nat) (rest : List Nat) :
    OnlyIn [.bpm, .frames] s (startRead s k f rest) := (onlyIn_setVoq _ _ _).mono.trans (onlyIn_modFrame _ _ _).mono

theorem exec_returnRead {i : Slice} {p : Port} {c : Fin 8} {f : Nat} {rest : List Nat} {s : State}
    (deep : (s.voq (voqKey i p c)).deep = f :: rest) (spill : (s.voq (voqKey i p c)).spill = true)
    (low : s.onDieOf (voqKey i p c) < s.icls c 11 0 * 1024 ∨ (s.voq (voqKey i p c)).returning = true)
    (room : s.belowThr (voqKey i p c) = true) :
    exec (.returnRead i p c) s = .next ((startRead s (voqKey i p c) f rest).returnSync (voqKey i p c)).panicSync := by
  have starts : ((s.voq (voqKey i p c)).spill && (decide (s.onDieOf (voqKey i p c) < s.icls c 11 0 * 1024) ||
      (s.voq (voqKey i p c)).returning) && s.belowThr (voqKey i p c)) = true := by
    rcases low with h | h <;> simp [spill, room, h]
  change done _ = _
  simp only [deep, starts, if_true]
  rfl

/-! Finished reads (R73, R329, R330, R334) -/

/-- The units of an item are read. -/
def readItem (s : State) (x : Frame) : State := s.unitsRead (s.headerUnits x ++ s.itemUnits x)

theorem onlyIn_readItem (s : State) (x : Frame) : OnlyIn [.cnts, .cntCfg] s (readItem s x) := onlyIn_unitsRead _ _

/-- Item `f`, read, is linked or discarded, or its portion is lost. -/
def returnItem (s : State) (x : Frame) (f : Nat) : State :=
  if s.recordBad x then s.loseDeep x.voqKey
  else if s.resLimit < s.age x then s.resDiscard f
  else if s.dataBad x then s.deepDiscard f
  else match s.flushOf f with
    | some w => s.offDiscard f w.suspend
    | none => s.linkReturned f

/-- VOQ `k` settles after a read. -/
def endReturn (s : State) (k : Nat) : State := (((s.settleVoq k).returnSync k).endFlushes k).panicSync

theorem exec_returnReadDone {f : Nat} {s : State} (reading : (s.frame f).ing = .reading)
    (oldest : (s.voq (s.frame f).voqKey).reading.head? = some f) :
    exec (.returnReadDone f) s = .next
      (endReturn (returnItem (readItem s (s.frame f)) (s.frame f) f) (s.frame f).voqKey) := by
  have runs : ¬ ((s.frame f).ing ≠ .reading ∨ (s.voq (s.frame f).voqKey).reading.head? ≠ some f) := by
    simp [reading, oldest]
  change done _ = _
  simp only [runs, if_false]
  rfl

theorem sameItems_endReturn (s : State) (k : Nat) : SameItems s (endReturn s k) :=
  (((sameItems_settleVoq s k).trans (sameItems_returnSync _ k)).trans (onlyIn_endFlushes _ k).sameItems).trans
    (sameItems_panicSync _)

/-- What a return may change. -/
abbrev returnParts : List Part := [.cntCfg, .cnts, .out, .gen, .hif, .eic, .flt, .kiln, .lanes, .frames, .bpm, .fab, .sched,
  .cps, .glz, .bur]

theorem onlyIn_endReturn (s : State) (k : Nat) :
    OnlyIn [.bpm, .glz, .out, .cnts, .cntCfg, .hif, .eic, .flt, .kiln] s (endReturn s k) :=
  (((onlyIn_settleVoq s k).mono.trans (onlyIn_returnSync _ k).mono).trans (onlyIn_endFlushes _ k).mono).trans
    (onlyIn_panicSync _).mono

theorem frame_endReturn (s : State) (k g : Nat) : (endReturn s k).frame g = s.frame g :=
  (onlyIn_endReturn s k).frame_same (by decide) g

theorem onlyIn_loseDeep (s : State) (k : Nat) : OnlyIn leaveParts s (s.loseDeep k) :=
  .runOver (fun _ _ => onlyIn_deepDiscard _ _) _ _

theorem onlyIn_linkReturned (s : State) (f : Nat) : OnlyIn [.bpm, .frames] s (s.linkReturned f) :=
  ((onlyIn_setVoq _ _ _).mono.trans (onlyIn_setFrame _ _ _).mono).trans (onlyIn_bpm _ _).mono

theorem onlyIn_returnItem (s : State) (x : Frame) (f : Nat) : OnlyIn leaveParts s (returnItem s x f) := by
  simp only [returnItem]
  split
  · exact onlyIn_loseDeep _ _
  · split
    · exact onlyIn_resDiscard _ _
    · split
      · exact onlyIn_deepDiscard _ _
      · split
        · exact onlyIn_offDiscard _ _ _
        · exact (onlyIn_linkReturned _ _).mono

/-- What a return of item `f` changes in all. -/
theorem onlyIn_return (s : State) (x : Frame) (f k : Nat) :
    OnlyIn returnParts s (endReturn (returnItem (readItem s x) x f) k) :=
  ((onlyIn_readItem s x).mono.trans (onlyIn_returnItem _ _ _).mono).trans (onlyIn_endReturn _ _).mono

/-! What a read of an item changes of the outcome: nothing -/

theorem unitBad_same {s t : State} (hbm : t.hbm = s.hbm) (units : t.units = s.units) (g u : Nat) :
    t.unitBad g u = s.unitBad g u := by
  have group (g : Nat) : t.group g = s.group g := by rw [State.group, units, State.group]
  have lost (g j : Nat) : t.stripeLost g j = s.stripeLost g j := by simp only [State.stripeLost, group, hbm]
  simp only [State.unitBad, lost, hbm]

/-- A read that counts events alone. -/
structure SameOutcome (s t : State) (x : Frame) (f : Nat) : Prop where
  voq : ∀ k, t.voq k = s.voq k
  record : t.recordBad x = s.recordBad x
  data : t.dataBad x = s.dataBad x
  late : (t.resLimit < t.age x) = (s.resLimit < s.age x)
  flush : t.flushOf f = s.flushOf f

theorem sameOutcome_readItem (s : State) (x : Frame) (f : Nat) : SameOutcome s (readItem s x) x f := by
  have only := onlyIn_readItem s x
  have voq (k : Nat) : (readItem s x).voq k = s.voq k := by rw [State.voq, only.bpm_eq, State.voq]
  have bad (g u : Nat) : (readItem s x).unitBad g u = s.unitBad g u :=
    unitBad_same (only .hbm (by decide)) (only .units (by decide)) g u
  have limit : (readItem s x).reg .genMaxRes 0 0 = s.reg .genMaxRes 0 0 := only.reg_same (by decide) (by
    simp only [inCntCfg, RegName.key, RegName.addr, RegName.info, Bool.false_eq_true, if_false]
    omega)
  have now : (readItem s x).now = s.now := (only .time (by decide)).1
  refine ⟨voq, ?_, ?_, ?_, ?_⟩
  · simp only [State.recordBad, State.headerUnits, State.itemUnits, voq, bad]
  · simp only [State.dataBad, State.itemUnits, voq, bad]
  · simp only [State.resLimit, State.age, State.fld, limit, now]
  · have circuit (c : Nat) : (readItem s x).cirState c = s.cirState c := cirState_of_glz only.glz_eq c
    simp only [State.flushOf, only.frame_same (by decide), voq, circuit]

/-! What a return leaves of its item -/

theorem voq_linkReturned (s : State) (f : Nat) : (s.linkReturned f).voq (s.frame f).voqKey =
    { s.voq (s.frame f).voqKey with
      reading := (s.voq (s.frame f).voqKey).reading.filter (· ≠ f)
      order := (s.voq (s.frame f).voqKey).order ++ [f] } := State.voq_setVoq _ _ _

theorem claims_linkReturned (s : State) (f : Nat) : (s.linkReturned f).bpm.claims = s.bpm.claims ++
    [⟨false, (s.frame f).slice, (s.frame f).set, firstPool (s.frame f).len, firstPool (s.frame f).len, returnPath,
      (s.frame f).outPort * 8 + (s.frame f).cls, f⟩] := by
  simp only [State.linkReturned, State.claimFor, State.frame_setFrame]
  rfl

theorem returnItem_lost {s : State} {x : Frame} (record : s.recordBad x = true) (f : Nat) :
    returnItem s x f = s.loseDeep x.voqKey := by
  simp only [returnItem, record, if_true]

theorem gone_loseDeep {s : State} {k g : Nat} (hg : g ∈ (s.voq k).reading ++ (s.voq k).deep) :
    (s.loseDeep k).frame g = {} :=
  gone_runOver (fun _ _ => frame_discard_self _ _) (fun _ _ => goneStay_bump_discard _ _ _) hg s

/-- An item past its residency, with bad data, or of a circuit that is flushed is discarded, if its portion is not lost
with it. -/
theorem gone_returnItem {s : State} {x : Frame} {f : Nat} (reading : f ∈ (s.voq x.voqKey).reading)
    (lost : s.resLimit < s.age x ∨ s.dataBad x = true ∨ s.flushOf f ≠ none) : (returnItem s x f).frame f = {} := by
  simp only [returnItem]
  split
  · exact gone_loseDeep (List.mem_append_left _ reading)
  · split
    · exact gone_resDiscard s f
    · next young =>
      split
      · exact frame_discard_self _ _
      · next data =>
        split
        · exact frame_discard_self _ _
        · next flush =>
          rcases lost with late | bad | flushed
          · exact absurd late young
          · exact absurd bad data
          · exact absurd flush flushed

/-! The sweep (R73, R74, R237) -/

/-- A queue whose head has not passed its residency is left as it is. -/
theorem sweep_young {s : State} {queue : State → List Nat} (young : ∀ f, (queue s).head? = some f → s.expired f = false) :
    s.sweep queue = s := by
  unfold State.sweep
  cases h : queue s with
  | nil => rfl
  | cons f rest =>
    have head : s.expired f = false := young f (by rw [h]; rfl)
    simp [State.sweepQueue, h, head]

/-- Steps that change nothing change nothing one after another. -/
theorem runOver_same {α : Type} {s : State} {f : α → State → State} {l : List α} (same : ∀ a ∈ l, f a s = s) :
    runOver l f s = s := by
  unfold runOver
  induction l with
  | nil => rfl
  | cons a l ih =>
    rw [List.foldl_cons, same a List.mem_cons_self]
    exact ih fun b hb => same b (List.mem_cons_of_mem _ hb)

/-- The frames that wait for a receive SA and have passed their residency are discarded. -/
def sweepWaiting (s : State) : State := runOver (s.waitingForSa.filter s.expired) (fun f s => s.resDiscard f) s

/-- The on-die and deep portions of every VOQ, then the egress queues, then the frames that wait. -/
theorem exec_residencySweep (s : State) : exec .residencySweep s = .next (sweepWaiting
    (runOver (runOver s.bpm.voqs.keys (fun k s => (s.sweep fun s => (s.voq k).order).sweep fun s => (s.voq k).deep)
      s).sched.queues.keys (fun k s => s.sweep fun s => s.queue k)
      (runOver s.bpm.voqs.keys (fun k s => (s.sweep fun s => (s.voq k).order).sweep fun s => (s.voq k).deep) s))) := rfl

/-- Settles O40. -/
theorem deepItemsAreWrittenAndReturned : Obligations.DeepItemsAreWrittenAndReturned := by
  refine ⟨?_, ?_, ?_, ?_, ?_⟩
  · intro f s queued first
    have written := onlyIn_writeItem s (s.frame f)
    have frame (g : Nat) : (writeItem s (s.frame f)).frame g = s.frame g := written.frame_same (by decide) g
    have voq (k : Nat) : (writeItem s (s.frame f)).voq k = s.voq k := by rw [State.voq, written.bpm_eq, State.voq]
    refine ⟨_, exec_spillWriteAck queued first, State.frame_setFrame _ _ _, ?_, ?_, ?_, ?_⟩
    · rw [joinDeep, State.voq_setVoq, voq_leaveQueue, voq]
    · have left := spillQ_leaveQueue (writeItem s (s.frame f)) f (s.frame f)
      rw [frame] at left
      intro still
      exact absurd (left ▸ still) (by simp)
    · intro g other
      exact (State.frame_setFrame_other _ _ other).trans (frame g)
    · exact (written.mono.trans (onlyIn_leaveQueue _ _ _).mono).trans (onlyIn_setVoq _ _ _).mono
  · intro i p c f rest s deep spill low room
    have only := ((onlyIn_returnSync (startRead s (voqKey i p c) f rest) (voqKey i p c)).mono (qs := [.bpm, .cnts])).trans
      (onlyIn_panicSync _)
    have items := (sameItems_returnSync (startRead s (voqKey i p c) f rest) (voqKey i p c)).trans (sameItems_panicSync _)
    have started : (startRead s (voqKey i p c) f rest).voq (voqKey i p c) =
        { s.voq (voqKey i p c) with
          deep := rest, reading := (s.voq (voqKey i p c)).reading ++ [f], returning := true } := State.voq_setVoq _ _ _
    refine ⟨_, exec_returnRead deep spill low room, ?_, ?_, ?_, ?_, (onlyIn_startRead _ _ _ _).mono.trans only.mono⟩
    · rw [items.deep, started]
    · rw [items.reading, started]
    · rw [only.frame_same (by decide)]
      exact State.frame_setFrame _ _ _
    · intro g other
      rw [only.frame_same (by decide)]
      exact State.frame_setFrame_other _ _ other
  · intro f s reading oldest
    have run := exec_returnReadDone reading oldest
    have same := sameOutcome_readItem s (s.frame f) f
    have only := onlyIn_readItem s (s.frame f)
    have frame (g : Nat) : (readItem s (s.frame f)).frame g = s.frame g := only.frame_same (by decide) g
    refine ⟨fun record young data flush => ?_, fun record => ?_, fun lost => ?_⟩
    · have link : returnItem (readItem s (s.frame f)) (s.frame f) f = (readItem s (s.frame f)).linkReturned f := by
        simp only [returnItem, same.record, record, same.late, Nat.not_lt.mpr young, same.data, data, same.flush, flush,
          Bool.false_eq_true, if_false]
      have all := onlyIn_return s (s.frame f) f (s.frame f).voqKey
      rw [link] at run all
      have items := sameItems_endReturn ((readItem s (s.frame f)).linkReturned f) (s.frame f).voqKey
      have placed := voq_linkReturned (readItem s (s.frame f)) f
      rw [frame] at placed
      refine ⟨_, run, ?_, ?_, ?_, ?_, all⟩
      · rw [frame_endReturn]
        exact (State.frame_setFrame _ _ _).trans (by rw [frame])
      · rw [items.order, placed, same.voq]
      · rw [items.reading, placed, same.voq]
      · rw [items.claims, claims_linkReturned, frame, only.bpm_eq]
    · refine ⟨_, run, fun g hg => ?_, onlyIn_return _ _ _ _⟩
      rw [frame_endReturn, returnItem_lost (same.record.trans record)]
      exact gone_loseDeep (by simpa only [same.voq] using hg)
    · refine ⟨_, run, ?_, onlyIn_return _ _ _ _⟩
      rw [frame_endReturn]
      refine gone_returnItem ?_ ?_
      · rw [same.voq]
        exact List.mem_of_mem_head? oldest
      · rwa [same.late, same.data, same.flush]
  · intro s voqs queues waiting
    have portions : runOver s.bpm.voqs.keys
        (fun k s => (s.sweep fun s => (s.voq k).order).sweep fun s => (s.voq k).deep) s = s :=
      runOver_same fun k hk => by
        rw [sweep_young fun f head => voqs k hk f (.inl head), sweep_young fun f head => voqs k hk f (.inr head)]
    have egress : runOver s.sched.queues.keys (fun k s => s.sweep fun s => s.queue k) s = s :=
      runOver_same fun k hk => sweep_young fun f head => queues k hk f head
    have none : s.waitingForSa.filter s.expired = [] :=
      List.filter_eq_nil_iff.mpr fun f hf => by simp [waiting f hf]
    rw [exec_residencySweep, portions, egress, sweepWaiting, none]
    rfl
  · intro s voqs queues
    have run := exec_residencySweep s
    rw [voqs] at run
    change exec .residencySweep s = .next (sweepWaiting (runOver s.sched.queues.keys _ s)) at run
    rw [queues] at run
    refine ⟨sweepWaiting s, run, fun f hf late => ?_, (OnlyIn.runOver (fun _ _ => onlyIn_resDiscard _ _) _ _).mono⟩
    exact gone_runOver (fun f s => gone_resDiscard s f) (fun f s => goneStay_resDiscard s f)
      (List.mem_filter.mpr ⟨hf, late⟩) s

end Sys2Proof.Claims

/-! SUPPORT, and O13: frames at the transmit gate and the MAC (R59, R86, R93, R106, R255, R274, R432). -/

namespace Sys2Proof.Claims

open Sys2Proof.Machine

set_option Elab.async false

/-! Steps that begin no transmission, move no critical line and bring back no frame that has left -/

/-- A frame that has left and that no MAC transmits. -/
def Off (s : State) (f : Nat) : Prop := s.frame f = {} ∧ ∀ q : Port, (s.port q).tx ≠ some f

/-- No MAC takes a frame, the critical lines stand, and what has left stays so. -/
structure Calm (s t : State) : Prop where
  tx : ∀ q g, (t.port q).tx = some g → (s.port q).tx = some g
  lines : t.flt.lines = s.flt.lines
  gone : ∀ f, Off s f → t.frame f = {}

theorem Calm.refl (s : State) : Calm s s := ⟨fun _ _ => id, rfl, fun _ h => h.1⟩

theorem Calm.off {s t : State} (h : Calm s t) {f : Nat} (off : Off s f) : Off t f :=
  ⟨h.gone f off, fun q sends => off.2 q (h.tx q f sends)⟩

theorem Calm.trans {s t u : State} (h : Calm s t) (k : Calm t u) : Calm s u :=
  ⟨fun q g sends => h.tx q g (k.tx q g sends), k.lines.trans h.lines, fun f off => k.gone f (h.off off)⟩

theorem Calm.idle {s t : State} (h : Calm s t) {q : Nat} (idle : (s.port q).tx = none) : (t.port q).tx = none :=
  Option.eq_none_iff_forall_ne_some.mpr fun g sends => by
    have sent := h.tx q g sends
    rw [idle] at sent
    cases sent

theorem Calm.runOver {α : Type} {f : α → State → State} {l : List α} (h : ∀ a ∈ l, ∀ s, Calm s (f a s)) (s : State) :
    Calm s (Machine.runOver l f s) := by
  unfold Machine.runOver
  induction l generalizing s with
  | nil => exact .refl _
  | cons a l ih =>
    exact (h a List.mem_cons_self s).trans (ih (fun b hb => h b (List.mem_cons_of_mem _ hb)) _)

/-- A step outside the lanes and the frames that leaves the critical lines. -/
theorem OnlyIn.calm {ps : List Part} {s t : State} (h : OnlyIn ps s t) (lines : t.flt.lines = s.flt.lines)
    (hp : Part.lanes ∉ ps ∧ Part.frames ∉ ps := by decide) : Calm s t :=
  ⟨fun q _ sends => (h.lane_same hp.1 q).2.2.2 ▸ sends, lines, fun f off => (h.frame_same hp.2 f).trans off.1⟩

/-- A step outside the lanes, the frames and Saggar. -/
theorem OnlyIn.calm' {ps : List Part} {s t : State} (h : OnlyIn ps s t)
    (hp : Part.lanes ∉ ps ∧ Part.frames ∉ ps ∧ Part.flt ∉ ps := by decide) : Calm s t :=
  h.calm (congrArg Saggar.lines (h .flt hp.2.2)) ⟨hp.1, hp.2.1⟩

/-- A step on frames alone that brings back none that has left. -/
theorem GoneStay.calm {ps : List Part} {s t : State} (stay : GoneStay s t) (h : OnlyIn ps s t)
    (hp : Part.lanes ∉ ps ∧ Part.flt ∉ ps := by decide) : Calm s t :=
  ⟨fun q _ sends => (h.lane_same hp.1 q).2.2.2 ▸ sends, congrArg Saggar.lines (h .flt hp.2), fun f off => stay f off.1⟩

theorem flt_setPort (s : State) (p : Nat) (x : PortState) : (s.setPort p x).flt = s.flt :=
  onlyIn_setPort s p x .flt (by decide)

/-- A port may end its transmission. -/
theorem calm_setPort {s : State} {p : Nat} {x : PortState} (h : x.tx = none ∨ x.tx = (s.port p).tx) :
    Calm s (s.setPort p x) := by
  refine ⟨fun q g sends => ?_, by rw [flt_setPort], fun f off =>
    ((onlyIn_setPort s p x).frame_same (by decide) f).trans off.1⟩
  rw [State.port_setPort] at sends
  split at sends
  · next same =>
    subst same
    rcases h with none | kept
    · rw [none] at sends
      cases sends
    · exact kept ▸ sends
  · exact sends

theorem calm_leaveLanding (s : State) (f : Nat) : Calm s (s.leaveLanding f) := by
  simp only [State.leaveLanding]
  split
  · exact calm_setPort (.inr rfl)
  · exact .refl _

theorem calm_leaveEgress (s : State) (f : Nat) : Calm s (s.leaveEgress f) := by
  refine Calm.trans ?_ (calm_setPort ?_)
  · exact ((((onlyIn_setQueue _ _ _).mono (qs := [.sched, .bur, .glz])).trans (onlyIn_bur _ _).mono).trans
      (onlyIn_glz _ _).mono).calm'
  · dsimp only
    split
    · exact .inl rfl
    · exact .inr rfl

theorem calm_discard (s : State) (f : Nat) : Calm s (s.discard f) :=
  remove_keeps (R := Calm) .refl .trans (fun h => h.calm') calm_leaveLanding calm_leaveEgress
    (fun s f how => (goneStay_leave s f how).calm (onlyIn_leave_offLanes s f how))
    (fun s p => (goneStay_issueReady s p).calm (onlyIn_issueReady s p)) s f .dropped

/-! A critical fault (R431 to R436) -/

theorem calm_flt {s : State} {x : Saggar} (lines : x.lines = s.flt.lines) : Calm s { s with flt := x } :=
  (onlyIn_flt s x).calm lines

theorem calm_latchCause (s : State) (n : Nat) : Calm s (s.latchCause n) := by
  simp only [State.latchCause]
  split <;> exact calm_flt rfl

theorem calm_fault (s : State) (n cause detail : Nat) : Calm s (s.fault n cause detail) :=
  (onlyIn_fault _ _ _ _).calm (adds_faultEventAt _ _ _ _ _ _).lines

theorem calm_criticalRecord (s : State) (n : Nat) : Calm s (s.criticalRecord n) :=
  ((onlyIn_noteEvent s n s.now 0 0).calm (adds_noteEvent _ _ _ _ _).lines).trans
    ((onlyIn_flushRecord _ _ _).calm (adds_flushRecord _ _ _).lines)

theorem calm_complete (s : State) (r : Nat) (st : Status) : Calm s (s.complete r st) :=
  (onlyIn_complete _ _ _ _ _).calm (adds_complete _ _ _ _ _).lines

/-- A port is squelched: the frame in transmission is cut short. -/
def squelchPort (p : Nat) (s : State) : State :=
  match (s.port p).tx with
  | some f =>
    let s := (s.emit (.lineCut p)).setPort p { s.port p with tx := none }
    if s.mode = .factoryTest then s.discard f else s.modFrame f fun x => { x with eg := .ready }
  | none => s

theorem calm_squelchPort (p : Port) (s : State) : Calm s (squelchPort p s) := by
  unfold squelchPort
  split
  · next f sends =>
    have cut : Calm s ((s.emit (.lineCut p)).setPort p { s.port p with tx := none }) :=
      (onlyIn_emit s (.lineCut p)).calm'.trans (calm_setPort (.inl rfl))
    dsimp only
    split
    · exact cut.trans (calm_discard _ _)
    · refine ⟨cut.tx, cut.lines, fun g off => ?_⟩
      have other : g ≠ f := fun same => off.2 p (same ▸ sends)
      exact (State.frame_setFrame_other _ _ other).trans (cut.gone g off)
  · exact .refl _

theorem calm_squelchAll (s : State) : Calm s s.squelchAll :=
  (calm_flt (x := { s.flt with squelch := true }) rfl).trans
    (Calm.runOver (f := squelchPort) (fun p hp s => calm_squelchPort ⟨p, List.mem_range.mp hp⟩ s) _)

theorem onlyIn_mode (s : State) (m : Mode) : OnlyIn [.mode] s { s with mode := m } := by
  intro p hp
  have same := SamePart.refl s p
  cases p
  case mode => exact absurd List.mem_cons_self hp
  all_goals exact same

theorem calm_abortModeCommand (s : State) : Calm s s.abortModeCommand :=
  Calm.runOver (fun r _ s => by
    split
    · exact calm_complete _ _ _
    · exact .refl _) s

theorem calm_dropCaches (s : State) : Calm s s.dropCaches := ⟨fun _ _ => id, rfl, fun _ off => off.1⟩

theorem calm_resetVoqs (s : State) (p : Nat) : Calm s (s.resetVoqs p) := ⟨fun _ _ => id, rfl, fun _ off => off.1⟩

theorem calm_purge (s : State) : Calm s s.purge := by
  have discards (l : List Nat) : Calm s (runOver l (fun f s => (s.bump (cntFlt 2)).discard f) s) :=
    Calm.runOver (fun f _ s => (onlyIn_bump s (cntFlt 2)).calm'.trans (calm_discard _ f)) s
  have resets (l : List Nat) (s : State) : Calm s (runOver l (fun p s => s.resetVoqs p) s) :=
    Calm.runOver (fun p _ s => calm_resetVoqs s p) s
  exact ((discards _).trans (resets _ _)).trans (onlyIn_panicSync _).calm'

/-- The safe-state chain's entry into SAFE (R431). -/
theorem calm_enterSafe (s : State) (sources : List Nat) : Calm s (s.enterSafe sources) := by
  have records (l : List Nat) (s : State) : Calm s (runOver l (fun n s => s.criticalRecord n) s) :=
    Calm.runOver (fun n _ s => calm_criticalRecord s n) s
  have entry (s : State) : Calm s ((({ s with mode := .safe }).bump (cntFlt 1)).kilnLog 0x0005 3
      (leBytes 2 (sources.headD 0) ++ [1])) :=
    ((onlyIn_mode s .safe).calm'.trans (onlyIn_bump _ _).calm').trans (onlyIn_kilnLog _ _ _ _).calm'
  simp only [State.enterSafe]
  refine Calm.trans ?_ (onlyIn_eicEvent _ _).calm'
  refine Calm.trans ?_ (calm_dropCaches _)
  refine Calm.trans ?_ (calm_purge _)
  exact (((records _ s).trans (entry _)).trans (calm_abortModeCommand _)).trans (records _ _)

/-- The critical lines of a list are up. -/
def raiseLines (s : State) (l : List Nat) : State :=
  { s with flt := { s.flt with lines := s.flt.lines ++ l.filter fun n => !s.flt.lines.contains n } }

theorem mem_raiseLines {s : State} {l : List Nat} {n : Nat} (hn : n ∈ l) : n ∈ (raiseLines s l).flt.lines := by
  by_cases up : n ∈ s.flt.lines
  · exact List.mem_append_left _ up
  · exact List.mem_append_right _ (List.mem_filter.mpr ⟨hn, by simpa using up⟩)

theorem onlyIn_raiseLines (s : State) (l : List Nat) : OnlyIn [.flt] s (raiseLines s l) := onlyIn_flt _ _

/-- The faults of new critical lines are recorded and latched (R434). -/
def latchFaults (s : State) (new : List Nat) : State := runOver new (fun n s => (s.fault n 0 0).latchCause n) s

theorem calm_latchFaults (s : State) (new : List Nat) : Calm s (latchFaults s new) :=
  Calm.runOver (fun n _ s => (calm_fault s n 0 0).trans (calm_latchCause _ n)) s

/-- FAULT_N is asserted. -/
def assertFaultN (s : State) : State := { s with flt := { s.flt with faultN := true } }

theorem calm_assertFaultN (s : State) : Calm s (assertFaultN s) := calm_flt rfl

/-- What follows a critical line that asserts: the record, the squelch and the entry into SAFE. -/
theorem calm_critical (s : State) (l : List Nat) : Calm (raiseLines s l) (s.critical l) := by
  unfold State.critical
  extract_lets new flt raised latched squelched squelchedFlt pinned pinnedFlt
  have squelch : Calm raised squelched := (calm_latchFaults raised new).trans (calm_squelchAll latched)
  have same : squelchedFlt = squelched.flt := rfl
  clear_value squelchedFlt squelched
  subst same
  have chain : Calm raised pinned := squelch.trans (calm_assertFaultN squelched)
  have records (s : State) : Calm s (runOver new (fun n s => s.criticalRecord n) s) :=
    Calm.runOver (fun n _ s => calm_criticalRecord s n) s
  change Calm raised _
  split
  · exact .refl _
  · have same : pinnedFlt = pinned.flt := rfl
    clear_value pinnedFlt pinned
    subst same
    refine chain.trans ?_
    split
    · exact calm_flt rfl
    · exact records _
    · exact records _
    · exact calm_enterSafe _ _

/-- A critical line that asserts is up, and what has left the device stays out. -/
theorem criticalLine_up (s : State) (n : Nat) : n ∈ (s.criticalLine n).flt.lines := by
  have calm : Calm (raiseLines s [n]) (s.criticalLine n) := calm_critical s [n]
  rw [calm.lines]
  exact mem_raiseLines List.mem_cons_self

theorem calm_criticalLine_frames (s : State) (n : Nat) {f : Nat} (off : Off s f) : (s.criticalLine n).frame f = {} := by
  have calm : Calm (raiseLines s [n]) (s.criticalLine n) := calm_critical s [n]
  exact calm.gone f off

theorem idle_criticalLine (s : State) (n : Nat) {q : Nat} (idle : (s.port q).tx = none) :
    ((s.criticalLine n).port q).tx = none := by
  have calm : Calm (raiseLines s [n]) (s.criticalLine n) := calm_critical s [n]
  exact calm.idle idle

/-! FRAME_TX_START (R86, R93, R106) -/

theorem onlyIn_txTsRecord (s : State) (f : Nat) : OnlyIn recordParts s (s.txTsRecord f) := by
  simp only [State.txTsRecord]
  split
  · split
    · exact onlyIn_writeRecord _ _ _ _ _ _
    · exact .refl _ _
  · exact .refl _ _

theorem onlyIn_countBw (s : State) (p : Nat) (tx : Bool) (t n : Nat) : OnlyIn [.pmc] s (s.countBw p tx t n) := by
  simp only [State.countBw]
  split
  · exact .refl _ _
  · exact onlyIn_pmc _ _

/-- The MAC of port `p` takes frame `f`. -/
def takeFrame (s : State) (p f : Nat) (rest : List Nat) : State :=
  ((s.setPort p { s.port p with path := rest, tx := some f }).setFrame f { s.frame f with eg := .sending }).stamp f 4

/-- The frame that the MAC takes is counted, and its timestamp sent. -/
def countFrame (s : State) (p f n : Nat) : State := (s.countBw p true s.now n).txTsRecord f

theorem onlyIn_countFrame (s : State) (p f n : Nat) :
    OnlyIn [.pmc, .out, .cnts, .cntCfg, .hif, .eic] s (countFrame s p f n) :=
  (onlyIn_countBw _ _ _ _ _).mono.trans (onlyIn_txTsRecord _ _).mono

theorem onlyIn_takeFrame (s : State) (p f : Nat) (rest : List Nat) :
    OnlyIn [.lanes, .frames] s (takeFrame s p f rest) := by
  have taken : OnlyIn [.lanes] s (s.setPort p { s.port p with path := rest, tx := some f }) :=
    onlyIn_setPort_sameLink s p { s.port p with path := rest, tx := some f } ⟨rfl, rfl, rfl, rfl, rfl, rfl⟩
  exact (taken.mono.trans (onlyIn_setFrame _ f _).mono).trans (onlyIn_stamp _ f 4).mono

/-- Two ports with the same link and lanes are the same. -/
theorem port_same {x y : PortState} (link : sameLink x y) (lane : sameLane x y) : y = x := by
  obtain ⟨h1, h2, h3, h4, h5, h6⟩ := link
  obtain ⟨h7, h8, h9, h10⟩ := lane
  cases x
  cases y
  simp_all

theorem OnlyIn.port_same {ps : List Part} {s t : State} (h : OnlyIn ps s t) (q : Nat)
    (hp : Part.links ∉ ps ∧ Part.lanes ∉ ps := by decide) : t.port q = s.port q :=
  Claims.port_same (h .links hp.1 q) (h .lanes hp.2 q)

theorem port_takeFrame (s : State) (p f : Nat) (rest : List Nat) (q : Nat) :
    (takeFrame s p f rest).port q = if q = p then { s.port p with path := rest, tx := some f } else s.port q := by
  rw [takeFrame, (onlyIn_stamp _ _ _).port_same, (onlyIn_setFrame _ _ _).port_same, State.port_setPort]

theorem frame_takeFrame (s : State) (p f : Nat) (rest : List Nat) : ((takeFrame s p f rest).frame f).eg = .sending := by
  obtain ⟨l, stamped⟩ := frame_stamp_self ((s.setPort p { s.port p with path := rest, tx := some f }).setFrame f
    { s.frame f with eg := .sending }) f 4
  rw [takeFrame, stamped, State.frame_setFrame]

theorem frame_takeFrame_other (s : State) (p : Nat) {f g : Nat} (rest : List Nat) (h : g ≠ f) :
    (takeFrame s p f rest).frame g = s.frame g := by
  rw [takeFrame, frame_stamp_other _ _ h, State.frame_setFrame_other _ _ h]
  exact (onlyIn_setPort _ _ _).frame_same (by decide) g

/-- What FRAME_TX_START does with the frame at the head of the path, by the gate's answer. -/
def startFrame (s : State) (p f : Nat) (rest : List Nat) : Gate → State
  | .refused => (s.bump (cntPrt p 2)).discard f
  | .noProof => ((s.bump (cntPrt p 2)).discard f).criticalLine (0x4D0 + p / 8)
  | .passes =>
    if etherTypeOf (s.frame f).output.bytes = 0x8808 then (s.bump (cntPrt p 7)).discard f
    else countFrame (takeFrame s p f rest) p f ((s.frame f).output.bytes.length + 4)

/-- An idle port that is UP and not squelched starts the ready frame at the head of its path. -/
theorem exec_frameTxStart {p : Port} {f : Nat} {rest : List Nat} {s : State} (path : (s.port p).path = f :: rest)
    (idle : (s.port p).tx = none) (up : (s.port p).link = .up) (sound : s.flt.squelch = false)
    (ready : (s.frame f).eg = .ready) :
    exec (.frameTxStart p) s = .next (startFrame s p f rest (s.gate p (s.frame f))) := by
  have free : ((s.port p).tx.isSome || decide ((s.port p).link ≠ .up) || s.flt.squelch ||
      decide ((s.frame f).eg ≠ .ready)) = false := by
    simp only [idle, up, sound, ready, Option.isSome_none, ne_eq, not_true_eq_false, decide_false, Bool.or_self]
  change done _ = _
  simp only [path, free, Bool.false_eq_true, if_false]
  cases s.gate p (s.frame f) <;> rfl

/-! The gate (R93) -/

theorem gate_passes {s : State} {p : Nat} {x : Frame}
    (h : s.black p = false ∨ x.proof = .lockstep ∨ ∃ k, x.proof = .bypass k ∧ s.bypassOk k = true) :
    s.gate p x = .passes := by
  unfold State.gate
  cases black : s.black p with
  | false => rfl
  | true =>
    rcases h with open_ | lockstep | ⟨k, bypass, ok⟩
    · rw [black] at open_
      cases open_
    · simp only [lockstep, Bool.not_true, Bool.false_eq_true, if_false]
    · simp only [bypass, ok, Bool.not_true, Bool.false_eq_true, if_false, if_true]

theorem gate_refused {s : State} {p : Nat} {x : Frame} {k : Nat} (black : s.black p = true)
    (bypass : x.proof = .bypass k) (refused : s.bypassOk k = false) : s.gate p x = .refused := by
  simp only [State.gate, black, bypass, refused, Bool.not_true, Bool.false_eq_true, if_false]

theorem gate_noProof {s : State} {p : Nat} {x : Frame} (black : s.black p = true) (none : x.proof = .none) :
    s.gate p x = .noProof := by
  simp only [State.gate, black, none, Bool.not_true, Bool.false_eq_true, if_false]

/-! FRAME_TX_END (R59, R255, R274) -/

theorem onlyIn_circuitPair (s : State) (c k len : Nat) : OnlyIn [.pmc] s (s.circuitPair c k len) := by
  simp only [State.circuitPair]
  split
  · exact onlyIn_countPair _ _ _
  · exact .refl _ _

/-- The last byte of frame `f` is on the line of port `p`. -/
def endFrame (s : State) (p : Nat) (x : Frame) : State :=
  (((s.emit (.line p x.wire)).setPort p { s.port p with tx := none }).pmcCount 1 p 2 1).pmcCount 1 p 3 x.wire.length

/-- The pair of a protected frame's circuit counts it. -/
def pairFrame (s : State) (x : Frame) : State :=
  match x.circuit with
  | some c => s.circuitPair c 0 x.wire.length
  | none => s

theorem onlyIn_pairFrame (s : State) (x : Frame) : OnlyIn [.pmc] s (pairFrame s x) := by
  unfold pairFrame
  split
  · exact onlyIn_circuitPair _ _ _ _
  · exact .refl _ _

theorem exec_frameTxEnd {p : Port} {f : Nat} {s : State} (sends : (s.port p).tx = some f) :
    exec (.frameTxEnd p) s = .next ((pairFrame (endFrame s p (s.frame f)) (s.frame f)).leave f .sent).panicSync := by
  change done _ = _
  simp only [sends]
  rfl

theorem adds_leave (s : State) (f : Nat) (how : Leaving) : Adds s (s.leave f how) := by
  have name (u : State) : Adds u (if how = .sent then u else u.clearName f) := by
    split
    · exact .refl _
    · exact (onlyIn_clearName _ _).adds
  have record : Adds s (s.sampleRecord f how) := by
    simp only [State.sampleRecord]
    split
    · exact .refl _
    · refine Adds.trans ?_ (adds_writeRecord _ _ _ _ _ _)
      split
      · exact (onlyIn_bump _ _).adds
      · exact .refl _
  exact ((((record.trans (onlyIn_leaveFlow _ f).adds).trans (onlyIn_unpin _ _).adds).trans
    (onlyIn_freeEgress _ _).adds).trans (name _)).trans
      ((onlyIn_setFrame _ _ _).adds.trans (onlyIn_refDown _ _).adds)

theorem onlyIn_endPort (s : State) (p : Nat) (x : PortState) (h : s.port p = x) :
    OnlyIn [.lanes] s (s.setPort p { x with tx := none }) := by
  subst h
  exact onlyIn_setPort_sameLink s p { s.port p with tx := none } ⟨rfl, rfl, rfl, rfl, rfl, rfl⟩

/-- What follows the end of the transmission: the counters, the pair and the frame's leaving. -/
def countEnd (s : State) (p f : Nat) (x : Frame) : State :=
  ((pairFrame ((s.pmcCount 1 p 2 1).pmcCount 1 p 3 x.wire.length) x).leave f .sent).panicSync

theorem countEnd_eq (s : State) (p f : Nat) (x : Frame) : ((pairFrame (endFrame s p x) x).leave f .sent).panicSync =
    countEnd ((s.emit (.line p x.wire)).setPort p { s.port p with tx := none }) p f x := rfl

theorem onlyIn_countEnd (s : State) (p f : Nat) (x : Frame) :
    OnlyIn [.cntCfg, .cnts, .out, .gen, .hif, .eic, .frames, .bpm, .fab, .sched, .cps, .glz, .pmc] s
      (countEnd s p f x) :=
  ((((onlyIn_pmcCount _ _ _ _ _).trans (onlyIn_pmcCount _ _ _ _ _)).mono.trans (onlyIn_pairFrame _ _).mono).trans
    (onlyIn_leave_offLanes _ _ _).mono).trans (onlyIn_panicSync _).mono

theorem adds_countEnd (s : State) (p f : Nat) (x : Frame) : Adds s (countEnd s p f x) :=
  ((((onlyIn_pmcCount _ _ _ _ _).trans (onlyIn_pmcCount _ _ _ _ _)).adds.trans (onlyIn_pairFrame _ _).adds).trans
    (adds_leave _ _ _)).trans (onlyIn_panicSync _).adds

theorem frame_countEnd (s : State) (p f : Nat) (x : Frame) : (countEnd s p f x).frame f = {} := by
  rw [countEnd, (onlyIn_panicSync _).frame_same (by decide), frame_leave_self]

/-- The end of a transmission (R59, R274). -/
theorem frameTxEnd_sends (p : Port) (f : Nat) (s : State) (sends : (s.port p).tx = some f) :
    ∃ t, exec (.frameTxEnd p) s = .next t ∧
      Emits s t (.line p ((s.frame f).output.bytes ++ leBytes 4 (crc32 (s.frame f).output.bytes))) ∧
      (t.port p).tx = none ∧ t.frame f = {} ∧ (∀ q : Port, q ≠ p → t.port q = s.port q) ∧
      OnlyIn [.cntCfg, .cnts, .out, .gen, .hif, .eic, .lanes, .frames, .bpm, .fab, .sched, .cps, .glz, .pmc] s t := by
  have emitted := onlyIn_emit s (.line p (s.frame f).wire)
  have ended : OnlyIn [.lanes] (s.emit (.line p (s.frame f).wire))
      ((s.emit (.line p (s.frame f).wire)).setPort p { s.port p with tx := none }) :=
    onlyIn_endPort _ _ _ (emitted.port_same p)
  refine ⟨_, (exec_frameTxEnd sends).trans (congrArg _ (countEnd_eq _ _ _ _)), ?_, ?_, frame_countEnd _ _ _ _,
    fun q other => ?_, (emitted.mono.trans ended.mono).trans (onlyIn_countEnd _ _ _ _).mono⟩
  · exact Emits.of_emit (.refl s) (ended.adds.trans (adds_countEnd _ _ _ _))
  · rw [(onlyIn_countEnd _ _ _ _).port_same, State.port_setPort, if_pos rfl]
  · rw [(onlyIn_countEnd _ _ _ _).port_same, State.port_setPort, if_neg (fun same => other (Fin.ext same))]
    exact emitted.port_same q

/-- A frame that the gate refuses or finds without proof is counted and discarded. -/
theorem calm_bump_discard (s : State) (k f : Nat) : Calm s ((s.bump k).discard f) :=
  (onlyIn_bump s k).calm'.trans (calm_discard _ f)

section

variable {p : Port} {f : Nat} {rest : List Nat} {s : State} (path : (s.port p).path = f :: rest)
  (idle : (s.port p).tx = none) (up : (s.port p).link = .up) (sound : s.flt.squelch = false)
  (ready : (s.frame f).eg = .ready)

include path idle up sound ready

theorem frameTxStart_passes
    (proof : s.black p = false ∨ (s.frame f).proof = .lockstep ∨
      ∃ k, (s.frame f).proof = .bypass k ∧ s.bypassOk k = true)
    (type : etherTypeOf (s.frame f).output.bytes ≠ 0x8808) :
    ∃ t, exec (.frameTxStart p) s = .next t ∧ (t.port p).tx = some f ∧ (t.port p).path = rest ∧
      (t.frame f).eg = .sending ∧ (∀ g, g ≠ f → t.frame g = s.frame g) ∧ (∀ q : Port, q ≠ p → t.port q = s.port q) ∧
      OnlyIn [.cntCfg, .cnts, .out, .hif, .eic, .lanes, .frames, .pmc] s t := by
  have start := exec_frameTxStart path idle up sound ready
  rw [gate_passes proof, startFrame, if_neg type] at start
  have counts := onlyIn_countFrame (takeFrame s p f rest) p f ((s.frame f).output.bytes.length + 4)
  have port (q : Nat) := (counts.port_same q).trans (port_takeFrame s p f rest q)
  refine ⟨_, start, ?_, ?_, ?_, fun g other => ?_, fun q other => ?_, ?_⟩
  · rw [port, if_pos rfl]
  · rw [port, if_pos rfl]
  · rw [counts.frame_same (by decide), frame_takeFrame]
  · rw [counts.frame_same (by decide), frame_takeFrame_other _ _ _ other]
  · rw [port, if_neg (fun same => other (Fin.ext same))]
  · exact (onlyIn_takeFrame _ _ _ _).mono.trans counts.mono

theorem frameTxStart_refuses {k : Nat} (black : s.black p = true) (bypass : (s.frame f).proof = .bypass k)
    (refused : s.bypassOk k = false) :
    ∃ t, exec (.frameTxStart p) s = .next t ∧ t.frame f = {} ∧ (t.port p).tx = none ∧ t.mode = s.mode := by
  have start := exec_frameTxStart path idle up sound ready
  rw [gate_refused black bypass refused, startFrame] at start
  exact ⟨_, start, frame_discard_self _ _, (calm_bump_discard _ _ _).idle idle, (onlyIn_bump_discard _ _ _).mode_eq⟩

theorem frameTxStart_faults (black : s.black p = true) (unproved : (s.frame f).proof = .none)
    (unsent : ∀ q : Port, (s.port q).tx ≠ some f) :
    ∃ t, exec (.frameTxStart p) s = .next t ∧ t.frame f = {} ∧ (t.port p).tx = none ∧
      0x4D0 + p.val / 8 ∈ t.flt.lines := by
  have start := exec_frameTxStart path idle up sound ready
  rw [gate_noProof black unproved, startFrame] at start
  have discarded := calm_bump_discard s (cntPrt p 2) f
  have off : Off ((s.bump (cntPrt p 2)).discard f) f :=
    ⟨frame_discard_self _ _, fun q sends => unsent q (discarded.tx q f sends)⟩
  exact ⟨_, start, calm_criticalLine_frames _ _ off, idle_criticalLine _ _ (discarded.idle idle), criticalLine_up _ _⟩

end

/-- Settles O13: the gate's three answers at the start of a transmission, and its end. -/
theorem framesPassTheGateAndLeave : Obligations.FramesPassTheGateAndLeave := by
  refine ⟨fun p f rest s path idle up sound ready => ⟨?_, ?_, ?_⟩, frameTxEnd_sends⟩
  · exact frameTxStart_passes path idle up sound ready
  · rintro ⟨k, black, bypass, refused⟩
    exact frameTxStart_refuses path idle up sound ready black bypass refused
  · exact frameTxStart_faults path idle up sound ready

end Sys2Proof.Claims

/-! Two statements that quantify over every state. A write replaces the fields of a register and leaves what the state
holds above them, so O2 fails where a register of 32 bits holds a number that does not fit; and blowing the
bypass-disable fuse changes a register, which O52 does not list among the parts that change. -/

namespace Sys2Proof.Claims

open Sys2Proof.Machine

set_option Elab.async false

/-- CONFIG with Ewethes running; MGT_MOD_BUDGET0, a register of 32 bits, holds 2^32, which no write leaves there. -/
def budgetTooWide : State :=
  { State.reset with
    mode := .config
    regs := ⟨[(RegName.key .mgtModBudget 0 0 0, 2 ^ 32)]⟩
    rst := { dom := ⟨[(3, .ready), (4, .ready)]⟩, ewethes := true } }

/-- Refutes O2: at `budgetTooWide` an accepted write of 0 to MGT_MOD_BUDGET0 leaves 2^32 there and not 0. -/
theorem not_holesStatusReadsAndCounterHalves : ¬ Obligations.HolesStatusReadsAndCounterHalves := by
  unfold Obligations.HolesStatusReadsAndCounterHalves
  rintro ⟨-, -, -, -, -, budget, -⟩
  obtain ⟨t, run, stored, -⟩ := budget 0 0 [] budgetTooWide (by decide +kernel) rfl (by decide) rfl
  cases run
  exact absurd stored (by decide +kernel)

/-- PF1's request to blow the bypass-disable fuse is first in the controller's queue while bypass class 0, staged and
approved, is in effect (R92, R486). -/
def bypassInEffect : State :=
  { State.reset with
    regs := ⟨[(RegName.key .prtBypStage 0 0 0, 1), (RegName.key .prtBypApprove 0 0 0, 1),
      (RegName.key .prtBypEffective 0 0 0, 1)]⟩
    fuses := { ops := [⟨3, 0, 0, some .pf1, 0⟩] }
    mgt := { mbx := ⟨[(Fn.pf1.num, { running := some [], fuse := true })]⟩ } }

/-- Refutes O52: at `bypassInEffect` the controller blows the fuse and the gates apply it at once, so that
PRT_BYP_EFFECTIVE, a register outside the parts that the statement lists, goes from 1 to 0 (R92, R95). -/
theorem not_fuseRequestsWaitAndBlow : ¬ Obligations.FuseRequestsWaitAndBlow := by
  unfold Obligations.FuseRequestsWaitAndBlow
  rintro ⟨-, -, -, blow, -⟩
  obtain ⟨t, run, -, -, only⟩ := blow ⟨3, 0, 0, some .pf1, 0⟩ [] .pf1 [] bypassInEffect rfl rfl rfl rfl
    (by decide +kernel) (fun h => absurd h (by decide)) (by decide)
  cases run
  have kept := only.reg_same (by decide) (r := .prtBypEffective) (i := 0) (j := 0)
    (by simp [inCntCfg, RegName.key, RegName.addr, RegName.info])
  exact absurd kept (by decide +kernel)

end Sys2Proof.Claims

/-! Links of ports (R96 to R102, R427, R469, R553). Link loss is one function of a port's state (`onLoss`); each way to
declare it sets a field of the port and then applies it, so O59 and most of O10 follow from one lemma
(`linkLost_setPort`). -/

namespace Sys2Proof.Claims

open Sys2Proof.Machine

set_option Elab.async false

/-! What a port keeps of its link, lock, module and hold -/

theorem sameLink.refl (x : PortState) : sameLink x x := ⟨rfl, rfl, rfl, rfl, rfl, rfl⟩

theorem sameLink.trans {x y z : PortState} (h : sameLink x y) (k : sameLink y z) : sameLink x z := by
  obtain ⟨h1, h2, h3, h4, h5, h6⟩ := h
  obtain ⟨k1, k2, k3, k4, k5, k6⟩ := k
  exact ⟨k1.trans h1, k2.trans h2, k3.trans h3, k4.trans h4, k5.trans h5, k6.trans h6⟩

theorem sameLink.unlocked {x y : PortState} (h : sameLink x y) :
    sameLink { x with pcsLock := false } { y with pcsLock := false } := by
  obtain ⟨link, -, rest⟩ := h
  exact ⟨link, rfl, rest⟩

/-- The other ports than `p` keep their link, lock, module and hold. -/
def OtherLinks (p : Nat) (s t : State) : Prop := ∀ q, q ≠ p → sameLink (s.port q) (t.port q)

theorem OtherLinks.trans {p : Nat} {s t u : State} (h : OtherLinks p s t) (k : OtherLinks p t u) : OtherLinks p s u :=
  fun q other => (h q other).trans (k q other)

theorem OnlyIn.otherLinks {ps : List Part} {s t : State} (h : OnlyIn ps s t) (p : Nat)
    (links : Part.links ∉ ps := by decide) : OtherLinks p s t :=
  fun q _ => h .links links q

theorem otherLinks_setPort (s : State) (p : Nat) (x : PortState) : OtherLinks p s (s.setPort p x) := by
  intro q other
  rw [State.port_setPort, if_neg other]
  exact .refl _

/-- The hold time of a port (PRT_HOLD_TIME.HOLD_MS). -/
abbrev holdMs (s : State) (p : Nat) : Nat := s.fld .prtHoldTime p 0 9 0

/-- PRT_HOLD_TIME of a port lies outside PMC_CNT_CFG. -/
theorem prtHoldTime_not_inCntCfg {p : Nat} (h : p < 128) : ¬ inCntCfg (RegName.key .prtHoldTime 0 p 0) := by
  simp only [inCntCfg, RegName.key, RegName.addr, RegName.info, Bool.false_eq_true, if_false]
  omega

theorem OnlyIn.holdMs_same {ps : List Part} {s t : State} (h : OnlyIn ps s t) {p : Nat} (port : p < 128)
    (regs : Part.regs ∉ ps := by decide) : holdMs t p = holdMs s p :=
  congrArg (bitsOf 9 0) (h.reg_same regs (prtHoldTime_not_inCntCfg port))

/-! Link loss (R97 to R100, R102) -/

/-- What link loss may change. -/
abbrev lossParts : List Part :=
  [.cntCfg, .cnts, .out, .gen, .hif, .eic, .kiln, .links, .lanes, .frames, .bpm, .fab, .sched, .cps, .glz, .bur]

/-- A port after link loss is declared at time `now` with HOLD_MS = `h`. -/
def onLoss (h now : Nat) (x : PortState) : PortState :=
  if x.link ≠ .up then x
  else if h = 0 then { x with link := .down }
  else { x with link := .hold, holdEnd := now + h * 1000000 }

theorem onLoss_down {now : Nat} {x : PortState} (up : x.link = .up) : onLoss 0 now x = { x with link := .down } := by
  simp [onLoss, up]

theorem onLoss_hold {h now : Nat} {x : PortState} (up : x.link = .up) (held : h ≠ 0) :
    onLoss h now x = { x with link := .hold, holdEnd := now + h * 1000000 } := by
  simp [onLoss, up, held]

theorem onLoss_not_up (h now : Nat) (x : PortState) : (onLoss h now x).link ≠ .up := by
  unfold onLoss
  split
  · assumption
  · split <;> simp

theorem onLoss_pcsLock (h now : Nat) (x : PortState) : (onLoss h now x).pcsLock = x.pcsLock := by
  unfold onLoss
  split
  · rfl
  · split <;> rfl

theorem sameLink_onLoss (h now : Nat) {x y : PortState} (same : sameLink x y) :
    sameLink (onLoss h now x) (onLoss h now y) := by
  obtain ⟨link, lock, present, powered, cls, held⟩ := same
  simp only [onLoss, link]
  split
  · exact ⟨link, lock, present, powered, cls, held⟩
  · split
    · exact ⟨rfl, lock, present, powered, cls, held⟩
    · exact ⟨rfl, lock, present, powered, cls, rfl⟩

theorem onlyIn_unpinPort (s : State) (p : Nat) : OnlyIn leaveParts s (s.unpinPort p) :=
  (OnlyIn.runOver (fun _ _ => (onlyIn_unpin _ _).mono) _ _).trans
    (OnlyIn.runOver (fun _ _ => (onlyIn_cpsUnpin _ _ _).mono) _ _)

theorem onlyIn_pinPort (s : State) (p : Nat) : OnlyIn leaveParts s (s.pinPort p) :=
  (OnlyIn.runOver (fun _ _ => (onlyIn_prefetch _ _ _).mono) _ _).trans
    (OnlyIn.runOver (fun _ _ => (onlyIn_cpsPin _ _ _).mono) _ _)

theorem onlyIn_noteFlap (s : State) (p : Nat) : OnlyIn [.kiln] s (s.noteFlap p) := onlyIn_kiln _ _ rfl

/-- Link loss of a port in UP in three steps: the port leaves its commit and the flap is noted, its link falls, and its
queued frames are flushed or give up their pins. -/
theorem linkLoss_steps {s : State} {p : Nat} (port : p < 128) (up : (s.port p).link = .up) :
    ∃ u, OnlyIn [.gen, .kiln] s u ∧
      OnlyIn leaveParts (u.setPort p (onLoss (holdMs s p) s.now (s.port p))) (s.linkLoss p) := by
  have before : OnlyIn [.gen, .kiln] s ((s.switchDown p).noteFlap p) :=
    (onlyIn_switchDown s p).mono.trans (onlyIn_noteFlap _ p).mono
  have same : ((s.switchDown p).noteFlap p).port p = s.port p := before.port_same p
  have held : holdMs ((s.switchDown p).noteFlap p) p = holdMs s p := before.holdMs_same port
  have now : ((s.switchDown p).noteFlap p).now = s.now := (before .time (by decide)).1
  refine ⟨_, before, ?_⟩
  simp only [State.linkLoss, up, ne_eq, not_true_eq_false, if_false, same, held, now]
  split
  · next none =>
    rw [none, onLoss_down up]
    exact onlyIn_flushPort _ _ _
  · next some =>
    rw [onLoss_hold up some]
    exact onlyIn_unpinPort _ _

/-- From `s` to `t` port `p`, which was `x`, loses its link where it was up, and the other ports keep theirs. -/
structure LinkLost (s : State) (p : Nat) (x : PortState) (t : State) : Prop where
  port : sameLink (onLoss (holdMs s p) s.now x) (t.port p)
  others : OtherLinks p s t
  only : OnlyIn lossParts s t

theorem linkLost_linkLoss (s : State) {p : Nat} (port : p < 128) : LinkLost s p (s.port p) (s.linkLoss p) := by
  by_cases up : (s.port p).link = .up
  · obtain ⟨u, before, after⟩ := linkLoss_steps port up
    have falls := after .links (by decide) p
    rw [State.port_setPort, if_pos rfl] at falls
    exact ⟨falls, ((before.otherLinks p).trans (otherLinks_setPort _ _ _)).trans (after.otherLinks p),
      (before.mono.trans (onlyIn_setPort _ _ _).mono).trans after.mono⟩
  · have stays : s.linkLoss p = s := if_pos up
    rw [stays]
    refine ⟨?_, fun _ _ => .refl _, .refl _ _⟩
    rw [onLoss, if_pos up]
    exact .refl _

/-- Link loss is declared on a port just set to `x`. -/
theorem linkLost_setPort (s : State) {p : Nat} (port : p < 128) (x : PortState) :
    LinkLost s p x ((s.setPort p x).linkLoss p) := by
  have set := onlyIn_setPort s p x
  obtain ⟨falls, others, only⟩ := linkLost_linkLoss (s.setPort p x) port
  rw [State.port_setPort, if_pos rfl, set.holdMs_same port, (set .time (by decide)).1] at falls
  exact ⟨falls, (otherLinks_setPort _ _ _).trans others, set.mono.trans only⟩

/-- R102 of a port after link loss in UP: HOLD for the full HOLD_MS from now, or DOWN with HOLD_MS = 0. -/
def HoldsInFull (s : State) (p : Nat) (y : PortState) : Prop :=
  if holdMs s p = 0 then y.link = .down else y.link = .hold ∧ y.holdEnd = s.now + holdMs s p * 1000000

theorem holdsInFull {s : State} {p : Nat} {x y : PortState} (up : x.link = .up)
    (falls : sameLink (onLoss (holdMs s p) s.now x) y) : HoldsInFull s p y := by
  obtain ⟨link, -, -, -, -, held⟩ := falls
  unfold HoldsInFull
  split
  · next none => rw [link, none, onLoss_down up]
  · next some => exact ⟨by rw [link, onLoss_hold up some], by rw [held, onLoss_hold up some]⟩

theorem exec_pcsLinkLoss (p : Port) (s : State) : exec (.pcsLinkLoss p) s =
    .next ((s.setPort p { s.port p with pcsLock := false }).linkLoss p) := rfl

theorem exec_moduleRemoved {p : Port} {s : State} (cls : Nat) (here : (s.port p).present = true) :
    exec (.modulePresenceChange p false cls) s =
      .next ((s.setPort p { s.port p with present := false, powered := false, powerClass := 0 }).linkLoss p) := by
  change Host.Outcome.next (if (s.port p).present = false then _ else _) = _
  rw [here]
  rfl

/-! Loss of a 156.25 MHz reference (R553) -/

/-- The PCS of a port reports a fault, as when its reference stops. -/
def dropPort (p : Nat) (s : State) : State := (s.setPort p { s.port p with pcsLock := false }).linkLoss p

theorem linkLost_dropPort (s : State) {p : Nat} (port : p < 128) :
    LinkLost s p { s.port p with pcsLock := false } (dropPort p s) := linkLost_setPort s port _

/-- The ports of a list report a fault one after the other: each loses its link once, the others keep theirs. -/
theorem dropPorts_spec {l : List Nat} (small : ∀ a ∈ l, a < 128) (once : l.Nodup) (s : State) :
    OnlyIn lossParts s (runOver l dropPort s) ∧
    (∀ q, q ∉ l → sameLink (s.port q) ((runOver l dropPort s).port q)) ∧
    (∀ p ∈ l, sameLink (onLoss (holdMs s p) s.now { s.port p with pcsLock := false })
      ((runOver l dropPort s).port p)) := by
  induction l generalizing s with
  | nil => exact ⟨.refl _ _, fun _ _ => .refl _, fun _ mem => absurd mem List.not_mem_nil⟩
  | cons a l ih =>
    obtain ⟨fresh, once⟩ := List.nodup_cons.mp once
    have small' : ∀ b ∈ l, b < 128 := fun b mem => small b (List.mem_cons_of_mem _ mem)
    obtain ⟨first, others, only⟩ := linkLost_dropPort s (small a List.mem_cons_self)
    obtain ⟨rest, stay, fall⟩ := ih small' once (dropPort a s)
    rw [show runOver (a :: l) dropPort s = runOver l dropPort (dropPort a s) from rfl]
    refine ⟨only.trans rest, fun q out => ?_, fun p mem => ?_⟩
    · exact (others q (List.ne_of_not_mem_cons out)).trans (stay q (List.not_mem_of_not_mem_cons out))
    · rcases List.mem_cons.mp mem with rfl | mem
      · exact first.trans (stay p fresh)
      · have falls := fall p mem
        rw [only.holdMs_same (small' p mem), (only .time (by decide)).1] at falls
        have other : p ≠ a := fun same => fresh (same ▸ mem)
        exact (sameLink_onLoss _ _ (others p other).unlocked).trans falls

/-- The ports of the two slices that a reference serves. -/
def refPorts (k : Fin 8) : List Nat := (List.range 16).map fun i => 16 * k.val + i

theorem mem_refPorts {k : Fin 8} {p : Nat} : p ∈ refPorts k ↔ p / 16 = k.val := by
  simp only [refPorts, List.mem_map, List.mem_range]
  constructor
  · rintro ⟨i, small, rfl⟩
    omega
  · exact fun h => ⟨p % 16, by omega, by omega⟩

theorem nodup_refPorts (k : Fin 8) : (refPorts k).Nodup :=
  List.nodup_range.map fun _ _ h => Nat.add_left_cancel h

/-- The state in which the reference is counted lost and its ports have not lost their links yet. -/
def refStopped (s : State) (k : Fin 8) : State := { s with refLost := k.val :: s.refLost }

theorem onlyIn_refLost (s : State) (l : List Nat) : OnlyIn [.refLost] s { s with refLost := l } := by
  intro p hp
  have same := SamePart.refl s p
  cases p
  case refLost => exact absurd List.mem_cons_self hp
  all_goals exact same

theorem exec_refclk156Loss {k : Fin 8} {s : State} (present : s.refLost.contains k.val = false) :
    exec (.refclk156Loss k) s = .next (runOver (refPorts k) dropPort (refStopped s k)) := by
  change Host.Outcome.next (if s.refLost.contains k.val then _ else _) = _
  rw [present]
  rfl

theorem refclk156Loss_spec (k : Fin 8) (s : State) :
    OnlyIn lossParts (refStopped s k) (runOver (refPorts k) dropPort (refStopped s k)) ∧
    (∀ p, p / 16 = k.val → sameLink (onLoss (holdMs s p) s.now { s.port p with pcsLock := false })
      ((runOver (refPorts k) dropPort (refStopped s k)).port p)) := by
  obtain ⟨only, -, fall⟩ := dropPorts_spec (fun a mem => by have := mem_refPorts.mp mem; omega) (nodup_refPorts k)
    (refStopped s k)
  exact ⟨only, fun p served => fall p (mem_refPorts.mpr served)⟩

/-- Settles O59: each of the three declarations is link loss of the port in its present state. -/
theorem eachLinkLossStartsAFullHold : Obligations.EachLinkLossStartsAFullHold := by
  refine ⟨fun p s up => ?_, fun p c s up here => ?_, fun k s present => ?_⟩
  · obtain ⟨falls, -, only⟩ := linkLost_setPort s p.isLt { s.port p with pcsLock := false }
    exact ⟨_, exec_pcsLinkLoss p s, holdsInFull (x := { s.port p with pcsLock := false }) up falls,
      (only .time (by decide)).1⟩
  · obtain ⟨falls, -, only⟩ := linkLost_setPort s p.isLt
      { s.port p with present := false, powered := false, powerClass := 0 }
    exact ⟨_, exec_moduleRemoved c here,
      holdsInFull (x := { s.port p with present := false, powered := false, powerClass := 0 }) up falls,
      (only .time (by decide)).1⟩
  · obtain ⟨only, fall⟩ := refclk156Loss_spec k s
    exact ⟨_, exec_refclk156Loss present, fun p served up =>
      holdsInFull (x := { s.port p with pcsLock := false }) up (fall p served), (only .time (by decide)).1⟩

/-! A hold that expires and a link that comes up (R100, R101) -/

/-- From `s` to `t` port `p` has become `x`, and the other ports keep their link, lock, module and hold. -/
structure PortBecomes (s : State) (p : Nat) (x : PortState) (t : State) : Prop where
  port : sameLink x (t.port p)
  others : OtherLinks p s t
  only : OnlyIn (.links :: leaveParts) s t

/-- A port is replaced, and then frames leave or change their pins. -/
theorem portBecomes_setPort {s t : State} {p : Nat} {x : PortState} (h : OnlyIn leaveParts (s.setPort p x) t) :
    PortBecomes s p x t := by
  have set := h .links (by decide) p
  rw [State.port_setPort, if_pos rfl] at set
  exact ⟨set, (otherLinks_setPort _ _ _).trans (h.otherLinks p), (onlyIn_setPort _ _ _).mono.trans h.mono⟩

theorem portBecomes_holdExpire {s : State} {p : Nat} (held : (s.port p).link = .hold) :
    PortBecomes s p { s.port p with link := .down, holdEnd := 0 } (s.holdExpire p) := by
  simp only [State.holdExpire, held, ne_eq, not_true_eq_false, if_false]
  exact portBecomes_setPort (onlyIn_flushPort _ _ _)

theorem exec_holdExpire {p : Port} {s : State} (held : (s.port p).link = .hold) :
    exec (.holdExpire p) s = .next ((s.advanceTo (s.port p).holdEnd).holdExpire p) := by
  change Host.Outcome.next (if (s.port p).link = .hold then _ else s) = _
  rw [if_pos held]

theorem holdExpire_falls {p : Port} {s : State} (held : (s.port p).link = .hold) :
    ∃ t, exec (.holdExpire p) s = .next t ∧ (t.port p).link = .down ∧ t.now = max s.now (s.port p).holdEnd ∧
      OtherLinks p s t ∧ OnlyIn (.time :: .links :: leaveParts) s t := by
  have wait : OnlyIn [.time] s (s.advanceTo (s.port p).holdEnd) := onlyIn_advance _ _
  obtain ⟨falls, others, only⟩ := portBecomes_holdExpire (s := s.advanceTo (s.port p).holdEnd) (p := p) held
  refine ⟨_, exec_holdExpire held, falls.1, ?_, (wait.otherLinks p).trans others, wait.mono.trans only.mono⟩
  rw [(only .time (by decide)).1, now_advanceTo]

/-- A hold that has run out by now expires before the link comes up. -/
def expireFirst (s : State) (p : Nat) : State :=
  if (s.port p).link = .hold && (s.port p).holdEnd ≤ s.now then s.holdExpire p else s

theorem expireFirst_spec (s : State) (p : Nat) :
    OtherLinks p s (expireFirst s p) ∧ OnlyIn (.links :: leaveParts) s (expireFirst s p) := by
  unfold expireFirst
  split
  · next due =>
    obtain ⟨held, -⟩ := Bool.and_eq_true_iff.mp due
    obtain ⟨-, others, only⟩ := portBecomes_holdExpire (of_decide_eq_true held)
    exact ⟨others, only⟩
  · exact ⟨fun _ _ => .refl _, .refl _ _⟩

/-- A port with its link up. -/
def linkedUp (x : PortState) : PortState := { x with pcsLock := true, link := .up, holdEnd := 0 }

/-- The link of a port comes up, and what it had unpinned is pinned again. -/
def raiseLink (s : State) (p : Nat) : State :=
  if (s.port p).link = .up then s.setPort p (linkedUp (s.port p)) else (s.setPort p (linkedUp (s.port p))).pinPort p

theorem portBecomes_raiseLink (s : State) (p : Nat) : PortBecomes s p (linkedUp (s.port p)) (raiseLink s p) := by
  unfold raiseLink
  split
  · exact portBecomes_setPort (.refl _ _)
  · exact portBecomes_setPort (onlyIn_pinPort _ _)

theorem exec_pcsLinkUp {p : Port} {s : State} (able : s.linkable p = true) (on : (s.port p).link ≠ .disabled) :
    exec (.pcsLinkUp p) s = .next (raiseLink (expireFirst s p) p) := by
  change Host.Outcome.next (if !s.linkable p || (s.port p).link = .disabled then s else _) = _
  rw [if_neg (by simp [able, on])]
  rfl

theorem pcsLinkUp_rises {p : Port} {s : State} (able : s.linkable p = true) (on : (s.port p).link ≠ .disabled) :
    ∃ t, exec (.pcsLinkUp p) s = .next t ∧ (t.port p).link = .up ∧ (t.port p).pcsLock = true ∧
      OtherLinks p s t ∧ OnlyIn (.links :: leaveParts) s t := by
  obtain ⟨before, first⟩ := expireFirst_spec s p
  obtain ⟨⟨link, lock, -⟩, others, only⟩ := portBecomes_raiseLink (expireFirst s p) p
  exact ⟨_, exec_pcsLinkUp able on, link, lock, before.trans others, first.trans only⟩

/-! Link loss by the PCS, by the module and by the reference -/

theorem pcsLinkLoss_holds {p : Port} {s : State} (up : (s.port p).link = .up) (some : holdMs s p ≠ 0) :
    ∃ t, exec (.pcsLinkLoss p) s = .next t ∧ (t.port p).link = .hold ∧ (t.port p).pcsLock = false ∧
      (t.port p).holdEnd = s.now + holdMs s p * 1000000 ∧ OtherLinks p s t ∧ OnlyIn lossParts s t := by
  obtain ⟨⟨link, lock, -, -, -, held⟩, others, only⟩ := linkLost_dropPort s p.isLt
  rw [onLoss_hold (x := { s.port p with pcsLock := false }) up some] at link lock held
  exact ⟨_, exec_pcsLinkLoss p s, link, lock, held, others, only⟩

theorem pcsLinkLoss_falls {p : Port} {s : State} (up : (s.port p).link = .up) (none : holdMs s p = 0) :
    ∃ t, exec (.pcsLinkLoss p) s = .next t ∧ (t.port p).link = .down ∧ OtherLinks p s t ∧ OnlyIn lossParts s t := by
  obtain ⟨⟨link, -⟩, others, only⟩ := linkLost_dropPort s p.isLt
  rw [none, onLoss_down (x := { s.port p with pcsLock := false }) up] at link
  exact ⟨_, exec_pcsLinkLoss p s, link, others, only⟩

theorem moduleRemoved_falls {p : Port} {s : State} (cls : Nat) (here : (s.port p).present = true)
    (up : (s.port p).link = .up) :
    ∃ t, exec (.modulePresenceChange p false cls) s = .next t ∧ (t.port p).present = false ∧
      (t.port p).powered = false ∧ ((t.port p).link = .hold ∨ (t.port p).link = .down) ∧ OnlyIn lossParts s t := by
  let pulled : PortState := { s.port p with present := false, powered := false, powerClass := 0 }
  obtain ⟨⟨link, -, present, powered, -⟩, -, only⟩ := linkLost_setPort s p.isLt pulled
  by_cases none : holdMs s p = 0
  · rw [none, onLoss_down (x := pulled) up] at link present powered
    exact ⟨_, exec_moduleRemoved cls here, present, powered, .inr link, only⟩
  · rw [onLoss_hold (x := pulled) up none] at link present powered
    exact ⟨_, exec_moduleRemoved cls here, present, powered, .inl link, only⟩

theorem refclk156Loss_falls {k : Fin 8} {s : State} (present : s.refLost.contains k.val = false) :
    ∃ t, exec (.refclk156Loss k) s = .next t ∧ t.refLost = k.val :: s.refLost ∧
      (∀ i, i < 16 → (t.port (16 * k.val + i)).link ≠ .up ∧ (t.port (16 * k.val + i)).pcsLock = false) ∧
      OnlyIn (lossParts ++ [.refLost]) s t := by
  obtain ⟨only, fall⟩ := refclk156Loss_spec k s
  refine ⟨_, exec_refclk156Loss present, only .refLost (by decide), fun i small => ?_,
    (onlyIn_refLost s _).mono.trans only.mono⟩
  obtain ⟨link, lock, -⟩ := fall (16 * k.val + i) (by omega)
  exact ⟨fun up => onLoss_not_up _ _ _ (link.symm.trans up), lock.trans (onLoss_pcsLock _ _ _)⟩

theorem refclk156Return_ends (k : Fin 8) (s : State) :
    ∃ t, exec (.refclk156Return k) s = .next t ∧ k.val ∉ t.refLost ∧
      (∀ j, j ≠ k.val → (j ∈ t.refLost ↔ j ∈ s.refLost)) ∧ OnlyIn [.refLost] s t :=
  ⟨_, rfl, by simp, fun j other => by simp [other], onlyIn_refLost _ _⟩

/-! A module that is plugged in (R469) -/

/-- A port whose link and lanes stay as they are raises no event and changes only in its lock, module and hold. -/
theorem onlyIn_setPort_sameLane (s : State) (p : Nat) (x : PortState) (link : x.link = (s.port p).link)
    (lane : sameLane (s.port p) x) : OnlyIn [.links] s (s.setPort p x) := by
  have quiet : (s.prt.get {} p).link = x.link := link.symm
  intro q hq
  have same := SamePart.refl s q
  cases q
  case links => exact absurd List.mem_cons_self hq
  case lanes =>
    intro k
    rw [State.port_setPort]
    split
    · next this => exact this ▸ lane
    · exact same k
  all_goals
    simp only [State.setPort, if_pos quiet]
    exact same

/-- A module is in the cage of port `p`, and its class is not read yet. -/
def plugged (s : State) (p : Nat) : State := s.setPort p { s.port p with present := true }

theorem exec_modulePlugged {p : Port} {s : State} (cls : Nat) (empty : (s.port p).present = false)
    (runs : s.rst.ewethes = true) :
    exec (.modulePresenceChange p true cls) s = .next ((plugged s p).readClass p cls) := by
  have runs' : (plugged s p).rst.ewethes = true := by rw [plugged, State.setPort_rst, runs]
  change Host.Outcome.next (if (s.port p).present = true then s else
    if (plugged s p).rst.ewethes then (plugged s p).readClass p cls else plugged s p) = _
  rw [empty, if_neg Bool.false_ne_true, if_pos runs']

theorem modulePlugged_powers {p : Port} {s : State} (cls : Nat) (empty : (s.port p).present = false)
    (runs : s.rst.ewethes = true) :
    ∃ t, exec (.modulePresenceChange p true cls) s = .next t ∧ (t.port p).present = true ∧
      (t.port p).powerClass = cls ∧
      (let b := s.fld .mgtModBudget 0 (p.val / 8) (4 * (p.val % 8) + 3) (4 * (p.val % 8))
       (t.port p).powered = decide (1 ≤ b ∧ cls ≤ b)) ∧ OnlyIn [.links] s t := by
  have plug : OnlyIn [.links] s (plugged s p) := onlyIn_setPort_sameLane s p _ rfl ⟨rfl, rfl, rfl, rfl⟩
  have port : (plugged s p).port p = { s.port p with present := true } := by
    rw [plugged, State.port_setPort, if_pos rfl]
  have budget (hi lo : Nat) : (plugged s p).fld .mgtModBudget 0 (p.val / 8) hi lo =
      s.fld .mgtModBudget 0 (p.val / 8) hi lo := by
    simp [State.fld, State.reg, State.regOf, plugged]
  refine ⟨_, exec_modulePlugged cls empty runs, ?_, ?_, ?_,
    plug.trans (onlyIn_setPort_sameLane _ p _ rfl ⟨rfl, rfl, rfl, rfl⟩)⟩
  all_goals simp only [State.readClass, State.port_setPort, if_pos, port, budget, Bool.true_and, Bool.decide_and]

/-! An event of a SerDes lane (R427) -/

theorem OnlyIn.fsrc_same {ps : List Part} {s t : State} (h : OnlyIn ps s t) (n : Nat)
    (flt : Part.flt ∉ ps := by decide) : t.fsrc n = s.fsrc n :=
  congrArg (fun x : Saggar => x.src.get {} n) (h .flt flt)

/-- The FLT_STATUS flag of source `n` is set. -/
abbrev Flagged (n : Nat) (s : State) : Prop := (s.fsrc n).flag = true

theorem OnlyIn.flagged {ps : List Part} {s t : State} {n : Nat} (h : OnlyIn ps s t) (set : Flagged n s)
    (flt : Part.flt ∉ ps := by decide) : Flagged n t :=
  (congrArg FaultSource.flag (h.fsrc_same n flt)).trans set

theorem flagged_setFsrc (s : State) {n : Nat} {x : FaultSource} (set : x.flag = true) : Flagged n (s.setFsrc n x) :=
  (congrArg FaultSource.flag (State.fsrc_setFsrc s n x)).trans set

theorem flagged_flushRecord {s : State} {n : Nat} (why : Reason) (set : Flagged n s) : Flagged n (s.flushRecord n why) :=
  (onlyIn_faultRecord _ _).flagged (flagged_setFsrc s (x := { s.fsrc n with count := 0, firstTime := 0 }) set)

theorem flagged_heldRecord {s : State} {n : Nat} (why : Reason) (set : Flagged n s) : Flagged n (s.heldRecord n why) := by
  simp only [State.heldRecord]
  split
  · exact set
  · split
    · exact flagged_flushRecord why set
    · exact flagged_flushRecord why (flagged_setFsrc s set)

theorem flagged_classify {s : State} {n : Nat} (set : Flagged n s) : Flagged n (s.classify n) := by
  have perm (u : State) (b : Bytes) (h : Flagged n u) :
      Flagged n (if u.mode = .factoryTest then u else u.kilnPerm 0x0010 3 b) := by
    split
    · exact h
    · exact (onlyIn_kilnPerm _ _ _ _).flagged h
  have record := perm _ (leBytes 2 n ++ leBytes 1 (sourceCat n)) (flagged_flushRecord .permanent
    (flagged_setFsrc s (x := { s.fsrc n with perm := true, permCycle := s.now / 10 + 1 }) set))
  unfold State.classify
  cases poolOf n with
  | some _ => exact record
  | none => exact (congrArg FaultSource.flag (fsrc_degrade _ n n)).trans record

theorem flagged_retirableEvent {s : State} {n : Nat} (t cause detail : Nat) (set : Flagged n s) :
    Flagged n (s.retirableEvent n t cause detail) := by
  have noted : Flagged n (s.noteEvent n t cause detail) := flagged_setFsrc s set
  have counted (hist : List Nat) : Flagged n ((s.noteEvent n t cause detail).setFsrc n
      { (s.noteEvent n t cause detail).fsrc n with hist := hist }) := flagged_setFsrc _ noted
  simp only [State.retirableEvent]
  split
  · exact flagged_classify (counted _)
  · exact flagged_heldRecord _ ((onlyIn_kiln _ _ rfl).flagged (counted _))

/-- An event of a retirable source that is not retired sets its flag (R420). -/
theorem flagged_fault {s : State} {n : Nat} (kind : sourceKind n = .retirable) (active : (s.fsrc n).retired = false)
    (cause detail : Nat) : Flagged n (s.fault n cause detail) := by
  have event : s.fault n cause detail = ((s.setFsrc n { s.fsrc n with flag := true }).bumpBy (cntFlt 0) 1).retirableEvents
      n s.now cause detail 1 := by
    rw [State.fault, State.faultEventAt, if_neg (by simp [active]), kind]
  have counted : Flagged n ((s.setFsrc n { s.fsrc n with flag := true }).bumpBy (cntFlt 0) 1) :=
    (onlyIn_bumpBy _ _ _).flagged (flagged_setFsrc s rfl)
  rw [event, State.retirableEvents]
  split
  · exact counted
  · exact flagged_retirableEvent _ _ _ counted

/-- A SerDes lane is a retirable source (Table 14.1). -/
theorem sourceKind_laneSource (l : Lane) : sourceKind (laneSource l) = .retirable := by
  have above : 0x320 ≤ laneSource l := by unfold laneSource; omega
  have below : laneSource l < 0x4A0 := by unfold laneSource; omega
  generalize laneSource l = n at *
  rw [sourceKind, if_neg (by omega), if_neg (by omega), if_neg (by omega), if_neg (by omega), if_neg (by omega),
    if_neg (by omega), if_pos ⟨above, below⟩]

theorem exec_serdesLaneEvent {l : Lane} {p : Nat} {s : State} (c : BitVec 8) (port : s.lanePort l = some p)
    (runs : (s.port p).link = .training ∨ (s.port p).link = .up ∨ (s.port p).link = .hold)
    (clock : s.refLost.contains (p / 16) = false) :
    exec (.serdesLaneEvent l c) s = .next ((s.fault (laneSource l) c.toNat 0).laneConsequence (laneSource l)) := by
  change Host.Outcome.next (match s.lanePort l with | some p => _ | none => s) = _
  simp only [port, runs, clock, Bool.not_false, and_self, if_true]

/-- The port of a SerDes lane is one of the device's. -/
theorem lanePort_lt {s : State} {l p : Nat} (lane : l < 256) (port : s.lanePort l = some p) : p < 128 := by
  obtain ⟨-, same⟩ := Option.ite_none_right_eq_some.mp port
  rw [← Option.some.inj same]
  split <;> omega

theorem onlyIn_laneConsequence (s : State) (l : Lane) : OnlyIn lossParts s (s.laneConsequence (laneSource l)) := by
  unfold State.laneConsequence
  split
  · cases used : s.lanePort (laneSource l - laneSource 0) with
    | none => exact .refl _ _
    | some p => exact (linkLost_dropPort s (lanePort_lt (by unfold laneSource; omega) used)).only
  · exact .refl _ _

theorem serdesLaneEvent_flags {l : Lane} {p : Nat} {s : State} (c : BitVec 8) (port : s.lanePort l = some p)
    (runs : (s.port p).link = .training ∨ (s.port p).link = .up ∨ (s.port p).link = .hold)
    (clock : s.refLost.contains (p / 16) = false) (active : (s.fsrc (laneSource l)).retired = false) :
    ∃ t, exec (.serdesLaneEvent l c) s = .next t ∧ Flagged (laneSource l) t ∧ OnlyIn (.flt :: lossParts) s t := by
  have event := flagged_fault (sourceKind_laneSource l) active c.toNat 0
  have after := onlyIn_laneConsequence (s.fault (laneSource l) c.toNat 0) l
  exact ⟨_, exec_serdesLaneEvent c port runs clock, after.flagged event,
    (onlyIn_fault _ _ _ _).mono.trans after.mono⟩

/-- Settles O10: link loss as for O59, then a hold that expires, link up, modules, references and lane events. -/
theorem linksRiseAndFall : Obligations.LinksRiseAndFall := by
  refine ⟨fun p s up some => pcsLinkLoss_holds up some, fun p s up none => pcsLinkLoss_falls up none, ?_, ?_,
    fun p cls s here up => moduleRemoved_falls cls here up, fun p cls s empty runs => modulePlugged_powers cls empty runs,
    ?_, refclk156Return_ends, ?_⟩
  · intro p s held
    obtain ⟨t, run, down, now, others, only⟩ := holdExpire_falls held
    exact ⟨t, run, down, now, others, only.mono⟩
  · intro p s able on
    obtain ⟨t, run, up, lock, others, only⟩ := pcsLinkUp_rises able on
    exact ⟨t, run, up, lock, others, only.mono⟩
  · intro k s present
    exact refclk156Loss_falls present
  · intro l p c s port runs clock active
    obtain ⟨t, run, set, only⟩ := serdesLaneEvent_flags c port runs clock active
    exact ⟨t, run, set, only.mono⟩

end Sys2Proof.Claims

/-! PTP time (R107, R378, R394, R553, R564). The operations of PTP_ADJUST are one command that replaces the clock
(`clockSet_ptpCommand`); the 1PPS input's record is read back from the bytes of a record. -/

namespace Sys2Proof.Machine

/-! Little-endian fields -/

theorem leNat_leBytes (n v : Nat) : leNat (leBytes n v) = v % 256 ^ n := by
  induction n generalizing v with
  | zero => simp [leBytes, leNat, Nat.mod_one]
  | succ n ih =>
    have pow : 256 ^ (n + 1) = 256 * 256 ^ n := Nat.pow_succ'
    rw [leBytes, leNat, ih, BitVec.toNat_ofNat, pow]
    exact Nat.mod_mul.symm

/-- A field holds the bytes that are laid out where it lies. -/
theorem leAt_append (a b c : Bytes) : leAt (a ++ (b ++ c)) a.length b.length = leNat b := by
  simp [leAt, sliceOf, zeros]

end Sys2Proof.Machine

namespace Sys2Proof.Claims

open Sys2Proof.Machine

set_option Elab.async false

/-! PTP_ADJUST (R378) -/

theorem onlyIn_ptp (s : State) (x : Ptp) : OnlyIn [.time, .ptp] s { s with ptp := x } := by
  intro p hp
  have same := SamePart.refl s p
  cases p
  case time => exact absurd List.mem_cons_self hp
  case ptp => exact absurd (by decide) hp
  all_goals exact same

theorem OnlyIn.ptp_same {ps : List Part} {s t : State} (h : OnlyIn ps s t)
    (hp : Part.time ∉ ps ∧ Part.ptp ∉ ps := by decide) : t.ptp = s.ptp := by
  obtain ⟨-, time, -⟩ := h .time hp.1
  have rest : { t.ptp with time := 0 } = { s.ptp with time := 0 } := h .ptp hp.2
  calc t.ptp = { { t.ptp with time := 0 } with time := t.ptp.time } := rfl
    _ = { { s.ptp with time := 0 } with time := s.ptp.time } := by rw [rest, time]
    _ = s.ptp := rfl

/-- PTP_ADJUST in execution as `d` takes the PTP clock from `s` to `x` and completes with OK. -/
structure ClockSet (s : State) (r : Ring) (d : Bytes) (x : Ptp) (t : State) : Prop where
  ptp : t.ptp = x
  completed : Completed s t r d .ok 0 []
  only : OnlyIn [.time, .ptp, .cntCfg, .cnts, .out, .hif, .eic, .flt, .kiln] s t

section
variable {s : State} {r : Ring} {d : Bytes} {op : Nat}

theorem clockSet_complete (ex : Executing s r op d) (x : Ptp) :
    ClockSet s r d x (({ s with ptp := x } : State).complete r .ok) where
  ptp := (onlyIn_complete _ _ _ _ _).ptp_same
  completed := (onlyIn_ptp s x).completed .ok 0 [] (onlyIn_ptp s x).adds ex.inExec
  only := (onlyIn_ptp s x).mono.trans (onlyIn_complete _ _ _ _ _).mono

/-- A PTP_ADJUST command with its operands in range applies its operation to the clock. -/
theorem clockSet_ptpCommand (ex : Executing s r 0x0084 d) (named : ptpOp d = op) (ns : ptpNs d < 1000000000)
    {range : Bytes → State → Bool} (inRange : range d s = false) {f : Bytes → Ptp → Ptp} {x : Ptp}
    (applied : f d s.ptp = x) : ClockSet s r d x (s.ptpCommand r op range f) := by
  have run : s.ptpCommand r op range f = ({ s with ptp := f d s.ptp } : State).complete r .ok := by
    rw [State.ptpCommand, ex.command, if_neg (not_not_intro named), if_neg (by simp [inRange, ns])]
  rw [run, applied]
  exact clockSet_complete ex _

theorem ptpSet_sets (ex : Executing s r 0x0084 d) (named : ptpOp d = 1) (ns : ptpNs d < 1000000000) :
    ∃ t, exec (.ptpSet r) s = .next t ∧
      ClockSet s r d { s.ptp with time := ptpUnits (ptpValue d % 2 ^ 48) (ptpNs d), isSet := true } t :=
  ⟨_, rfl, clockSet_ptpCommand ex named ns rfl rfl⟩

theorem ptpStep_adds (ex : Executing s r 0x0084 d) (named : ptpOp d = 2) (ns : ptpNs d < 1000000000)
    (small : (ptpSigned d).natAbs < 2 ^ 40) (above : 0 ≤ stepped d s.ptp)
    (below : stepped d s.ptp < (ptpUnits (2 ^ 48) 0 : Int)) :
    ∃ t, exec (.ptpStep r) s = .next t ∧ ClockSet s r d { s.ptp with time := (stepped d s.ptp).toNat } t :=
  ⟨_, rfl, clockSet_ptpCommand ex named ns (by simpa [above] using ⟨small, below⟩) rfl⟩

theorem ptpRate_replaces (ex : Executing s r 0x0084 d) (named : ptpOp d = 3) (ns : ptpNs d < 1000000000)
    (small : (ptpSigned d).natAbs ≤ 4294967) :
    ∃ t, exec (.ptpRate r) s = .next t ∧ ClockSet s r d { s.ptp with rate := ptpSigned d } t :=
  ⟨_, rfl, clockSet_ptpCommand ex named ns (by simpa using small) rfl⟩

theorem ptpSource_selects (ex : Executing s r 0x0084 d) (named : ptpOp d = 4) (ns : ptpNs d = 0)
    (listed : ptpValue d ≤ 1) (inWindow : Bool) :
    ∃ t, exec (.ptpSource r inWindow) s = .next t ∧
      ClockSet s r d { s.ptp with sel := decide (ptpValue d = 1), inUse := decide (ptpValue d = 1) && inWindow } t :=
  ⟨_, rfl, clockSet_ptpCommand ex named (by omega) (by simp [ns, listed]) rfl⟩

end

/-! A record on an open control ring (R392, R394) -/

/-- The header of the record that a ring writes next (Table 12.17). -/
def recordHead (x : RingState) (type time : Nat) : Bytes :=
  leBytes 2 type ++ leBytes 1 (boolBit (x.devIdx / x.size % 2 == 0)) ++ leBytes 1 0 ++ leBytes 4 x.seq ++ leBytes 8 time

/-- The record: its header and its body, filled up with zeros. -/
def recordBytes (x : RingState) (type time : Nat) (body : Bytes) : Bytes := recordHead x type time ++ sliceOf body 0 48

theorem emits_putRecord (s : State) (r type time : Nat) (body : Bytes) :
    Emits s (s.putRecord r type time body) (.hostWrite (s.ringReq r) ((s.ring r).slotAddr (s.ring r).devIdx)
      (recordBytes (s.ring r) type time body)) := by
  refine .of_emit (.refl s) ?_
  simp only [State.putRecord]
  refine Adds.trans ?_ (onlyIn_ringIrq _ _).adds
  refine Adds.trans ?_ (adds_writeBack _ _)
  exact (onlyIn_touchCtx _ _).adds.trans (onlyIn_setRing _ _ _).adds

theorem devIdx_ringIrq (s : State) (r : Nat) : ((s.ringIrq r).ring r).devIdx = (s.ring r).devIdx := by
  simp only [State.ringIrq]
  split
  · split
    · rfl
    · split
      · rw [ring_of_hif (onlyIn_eicEvent _ _).hif_eq]
      · split
        · rw [State.ring_setRing]
        · rw [ring_of_hif (onlyIn_eicEvent _ _).hif_eq, State.ring_setRing]
  · rfl

theorem devIdx_putRecord (s : State) (r type time : Nat) (body : Bytes) :
    ((s.putRecord r type time body).ring r).devIdx = ((s.ring r).devIdx + 1) % 2 ^ 32 := by
  simp only [State.putRecord]
  rw [devIdx_ringIrq, ring_writeBack, State.ring_setRing]

/-- An open event ring with room and no lost records takes the record itself (R392). -/
theorem writeRecord_open {s : State} {f : Fn} {r : Nat} (isOpen : s.ringIs r 5 f = true)
    (room : (s.ring r).full = false) (kept : (s.ring r).lost = 0) (type time : Nat) (body : Bytes) :
    s.writeRecord f r type time body = s.putRecord r type time body := by
  have none : s.putOverflow r = s := if_pos (.inl kept)
  simp [State.writeRecord, isOpen, none, room]

/-! The 1PPS pins (R107) -/

/-- The body of a PPS_IN record (Table 12.18). -/
def ppsBody (s : State) : Bytes :=
  zeros 8 ++ leBytes 6 s.ptpSec ++ zeros 2 ++ leBytes 4 s.ptpNano ++ leBytes 1 s.ptpFrac

theorem recordBytes_ppsBody (x : RingState) (type time : Nat) (s : State) :
    recordBytes x type time (ppsBody s) = recordHead x type time ++ (ppsBody s ++ zeros 27) := by
  have body : sliceOf (ppsBody s) 0 48 = ppsBody s ++ zeros 27 := by
    simp [sliceOf, ppsBody, List.take_of_length_le]
  rw [recordBytes, body]

theorem recordBytes_type (x : RingState) (type time : Nat) (body : Bytes) :
    leAt (recordBytes x type time body) 0 2 = type % 256 ^ 2 := by
  have field := leAt_append [] (leBytes 2 type) (leBytes 1 (boolBit (x.devIdx / x.size % 2 == 0)) ++ leBytes 1 0 ++
    leBytes 4 x.seq ++ leBytes 8 time ++ sliceOf body 0 48)
  simpa [recordBytes, recordHead, leNat_leBytes] using field

theorem ppsRecord_sec (x : RingState) (type time : Nat) (s : State) :
    leAt (recordBytes x type time (ppsBody s)) 0x18 6 = s.ptpSec % 2 ^ 48 := by
  have field := leAt_append (recordHead x type time ++ zeros 8) (leBytes 6 s.ptpSec)
    (zeros 2 ++ leBytes 4 s.ptpNano ++ leBytes 1 s.ptpFrac ++ zeros 27)
  rw [recordBytes_ppsBody]
  simpa [recordHead, ppsBody, leNat_leBytes] using field

theorem ppsRecord_nano (x : RingState) (type time : Nat) (s : State) :
    leAt (recordBytes x type time (ppsBody s)) 0x20 4 = s.ptpNano := by
  have small : s.ptpNano < 256 ^ 4 := (Nat.mod_lt _ (by decide)).trans (by decide)
  have field := leAt_append (recordHead x type time ++ zeros 8 ++ leBytes 6 s.ptpSec ++ zeros 2) (leBytes 4 s.ptpNano)
    (leBytes 1 s.ptpFrac ++ zeros 27)
  rw [leNat_leBytes, Nat.mod_eq_of_lt small] at field
  rw [recordBytes_ppsBody]
  simpa [recordHead, ppsBody] using field

theorem exec_ppsInEdge (s : State) : exec .ppsInEdge s = .next (s.ctrlRecord .pf0 0x0041 (ppsBody s)) := rfl

theorem ppsInEdge_records {s : State} {r : Nat} (route : r = bitsOf 11 0 (s.regOf .hifEvtRoute 0 0 0))
    (routed : bitOf 15 (s.regOf .hifEvtRoute 0 0 0) = true) (isOpen : s.ringIs r 5 .pf0 = true)
    (room : (s.ring r).full = false) (kept : (s.ring r).lost = 0) :
    exec .ppsInEdge s = .next (s.putRecord r 0x0041 s.now (ppsBody s)) := by
  have routed' : bitOf 15 (s.regOf .hifEvtRoute Fn.pf0.num 0 0) = true := routed
  rw [exec_ppsInEdge, State.ctrlRecord, if_pos routed', ← writeRecord_open isOpen room kept, route]
  rfl

/-- The clock at the next whole second. -/
def nextSecond (s : State) : State := s.advancePtp (ptpUnits (s.ptpSec + 1) 0)

theorem onlyIn_nextSecond (s : State) : OnlyIn [.time] s (nextSecond s) := onlyIn_advance _ _

theorem isSet_advance (s : State) (dt : Nat) : (s.advance dt).ptp.isSet = s.ptp.isSet := rfl

theorem isSet_nextSecond (s : State) : (nextSecond s).ptp.isSet = s.ptp.isSet := isSet_advance s _

theorem exec_ppsOutEdge (s : State) : exec .ppsOutEdge s =
    .next (if (nextSecond s).ptp.isSet then (nextSecond s).emit .pps else nextSecond s) := rfl

theorem ppsOutEdge_pulses {s : State} (set : s.ptp.isSet = true) (runs : - 2 ^ 32 < s.ptp.rate) :
    ∃ t, exec .ppsOutEdge s = .next t ∧ Emits s t .pps ∧ ptpUnits (s.ptpSec + 1) 0 ≤ t.ptp.time ∧
      OnlyIn [.time, .cntCfg, .cnts, .out] s t := by
  have wait := onlyIn_nextSecond s
  have pulse := onlyIn_emit (nextSecond s) .pps
  refine ⟨_, exec_ppsOutEdge s, ?_⟩
  rw [isSet_nextSecond, if_pos set, pulse.ptp_same]
  exact ⟨.of_emit wait.adds (.refl _), ptp_advancePtp s _ runs, wait.mono.trans pulse.mono⟩

/-- Settles O11: each operation of PTP_ADJUST, the 10 MHz input's two edges, and the two 1PPS pins. -/
theorem ptpClockIsSetAndAdjusted : Obligations.PtpClockIsSetAndAdjusted := by
  refine ⟨fun r d s ex named ns => ?_, fun r d s ex named ns small above below => ?_,
    fun r d s ex named ns small => ?_, fun r w d s ex named ns listed => ?_, fun _ => rfl, fun _ => rfl,
    fun c s routed isOpen _ room kept => ?_, fun s set runs => ppsOutEdge_pulses set runs⟩
  · obtain ⟨t, run, ptp, completed, only⟩ := ptpSet_sets ex named ns
    exact ⟨t, run, by rw [ptp], by rw [ptp], by rw [ptp], completed, only⟩
  · obtain ⟨t, run, ptp, completed, only⟩ := ptpStep_adds ex named ns small above below
    exact ⟨t, run, by rw [ptp]; exact Int.toNat_of_nonneg above, by rw [ptp], completed, only⟩
  · obtain ⟨t, run, ptp, completed, only⟩ := ptpRate_replaces ex named ns small
    exact ⟨t, run, ptp, completed, only⟩
  · obtain ⟨t, run, ptp, completed, only⟩ := ptpSource_selects ex named ns listed w
    exact ⟨t, run, ptp, completed, only⟩
  · exact ⟨_, _, ppsInEdge_records rfl routed isOpen room kept, emits_putRecord _ _ _ _ _, recordBytes_type _ _ _ _,
      ppsRecord_sec _ _ _ _, ppsRecord_nano _ _ _ _, devIdx_putRecord _ _ _ _ _, (onlyIn_putRecord _ _ _ _ _).mono⟩

end Sys2Proof.Claims

namespace Sys2Proof.Machine

/-! Token buckets (R134): a bucket is looked at, ticks, and is replaced -/

/-- Nothing happens to a bucket that has been looked at no earlier than now. -/
theorem TokenBucket.upTo_of_le {b : TokenBucket} {now : Nat} (h : now ≤ b.last) (v : Nat) : b.upTo v now = b := by
  have noTick : now / ratePeriod v - b.last / ratePeriod v = 0 := Nat.sub_eq_zero_of_le (Nat.div_le_div_right h)
  have level : min b.level (max b.level (rateBurst v)) = b.level := Nat.min_eq_left (Nat.le_max_left _ _)
  simp only [TokenBucket.upTo, noTick, Nat.add_zero, level, Nat.max_eq_left h]

theorem TokenBucket.upTo_level {b : TokenBucket} {v : Nat} (h : b.level ≤ rateBurst v) (now : Nat) :
    (b.upTo v now).level = min (b.level + (now / ratePeriod v - b.last / ratePeriod v)) (rateBurst v) := by
  simp only [TokenBucket.upTo, Nat.max_eq_right h]

theorem TokenBucket.tick_level (b : TokenBucket) (v : Nat) :
    (b.tick v).level = if b.level < rateBurst v then b.level + 1 else b.level := by
  simp only [TokenBucket.tick]
  split <;> omega

/-- The next tick lies in the future. -/
theorem lt_nextTick (v last : Nat) : last < nextTick v last := by
  have period : 0 < ratePeriod v := Nat.mul_pos (Nat.succ_pos _) (by decide)
  rw [nextTick, Nat.mul_comm]
  exact Nat.lt_mul_div_succ last period

@[simp] theorem now_setBucket (s : State) (b : Bucket) (x : TokenBucket) : (s.setBucket b x).now = s.now := by
  cases b <;> rfl

@[simp] theorem bucketReg_setBucket (s : State) (b c : Bucket) (x : TokenBucket) :
    (s.setBucket b x).bucketReg c = s.bucketReg c := by
  cases b <;> cases c <;> rfl

@[simp] theorem tokensOf_setBucket (s : State) (b : Bucket) (x : TokenBucket) : (s.setBucket b x).tokensOf b = some x := by
  cases b with
  | learn => rfl
  | punt i r => exact Tab.get_set_same _ _ _ _
  | copy q m => exact Tab.get_set_same _ _ _ _
  | sample i => exact Tab.get_set_same _ _ _ _

/-- Each bucket has a place of its own. -/
theorem tokensOf_setBucket_other (s : State) {b c : Bucket} (h : c ≠ b) (x : TokenBucket) :
    (s.setBucket b x).tokensOf c = s.tokensOf c := by
  cases b with
  | learn =>
    cases c with
    | learn => exact absurd rfl h
    | _ => rfl
  | punt i r =>
    cases c with
    | punt j k =>
      refine Tab.get_set_other _ _ _ fun e => h ?_
      have := r.isLt
      have := k.isLt
      rw [show j = i from Fin.ext (by omega), show k = r from Fin.ext (by omega)]
    | _ => rfl
  | copy q m =>
    cases c with
    | copy j k =>
      refine Tab.get_set_other _ _ _ fun e => h ?_
      have := m.isLt
      have := k.isLt
      rw [show j = q from Fin.ext (by omega), show k = m from Fin.ext (by omega)]
    | _ => rfl
  | sample i =>
    cases c with
    | sample j => exact Tab.get_set_other _ _ _ fun e => h (by rw [Fin.ext e])
    | _ => rfl

theorem now_le_bucketAt_last (s : State) (b : Bucket) (v : Nat) : s.now ≤ (s.bucketAt b v).last := Nat.le_max_right _ _

/-- A bucket that was replaced reads as it was put, when it has been looked at no earlier than now. -/
theorem bucketRate_setBucket {s : State} {x : TokenBucket} (h : s.now ≤ x.last) (b : Bucket) :
    (s.setBucket b x).bucketRate b = (x, s.bucketReg b) := by
  have asPut : (s.setBucket b x).bucketAt b (s.bucketReg b) = x := by
    rw [State.bucketAt, tokensOf_setBucket, now_setBucket]
    exact TokenBucket.upTo_of_le h _
  rw [State.bucketRate, bucketReg_setBucket, asPut]

/-- A bucket whose level alone is replaced keeps its grid. -/
theorem bucketRate_setLevel (s : State) (b : Bucket) (n : Nat) :
    ((s.setBucket b { (s.bucketRate b).1 with level := n }).bucketRate b).1 = { (s.bucketRate b).1 with level := n } := by
  have looked : s.now ≤ (s.bucketRate b).1.last := now_le_bucketAt_last s b _
  rw [bucketRate_setBucket (x := { (s.bucketRate b).1 with level := n }) looked]

theorem takeToken_none {s : State} {b : Bucket}
    (h : (s.bucketRate b).1.level = 0 ∨ rateBurst (s.bucketRate b).2 = 0) : s.takeToken b = none := if_pos h

theorem takeToken_some {s : State} {b : Bucket} (level : (s.bucketRate b).1.level ≠ 0)
    (burst : rateBurst (s.bucketRate b).2 ≠ 0) :
    s.takeToken b = some (s.setBucket b { (s.bucketRate b).1 with level := (s.bucketRate b).1.level - 1 }) :=
  if_neg (not_or.mpr ⟨level, burst⟩)

end Sys2Proof.Machine

namespace Sys2Proof.Claims

open Sys2Proof.Machine

theorem onlyIn_sampBkt (s : State) (x : Tab (Option TokenBucket)) : OnlyIn [.sampBkt] s { s with sampBkt := x } := by
  intro p hp
  have same := SamePart.refl s p
  cases p
  case sampBkt => exact absurd List.mem_cons_self hp
  all_goals exact same

theorem onlyIn_setBucket (s : State) (b : Bucket) (x : TokenBucket) : OnlyIn [.tabs, .sampBkt] s (s.setBucket b x) := by
  cases b with
  | sample i => exact (onlyIn_sampBkt _ _).mono
  | _ => exact (onlyIn_setTabs _ _).mono

theorem exec_tokenTick (b : Bucket) (s : State) : exec (.tokenTick b) s =
    .next ((s.advanceTo (nextTick (s.bucketReg b) (s.bucketRate b).1.last)).setBucket b
      ((s.bucketRate b).1.tick (s.bucketReg b))) := rfl

/-- Settles O17: a bucket that has just been put reads as it was put, and time then stands at its last look. -/
theorem bucketsFillOnTheirGrid : Obligations.BucketsFillOnTheirGrid := by
  unfold Obligations.BucketsFillOnTheirGrid
  refine ⟨fun b s => ?_, fun b s v full => ?_, fun b s v x held fits => ?_, fun b s empty => ?_,
    fun b s level burst => ?_, fun b old s => ?_⟩
  · have looked : s.now ≤ (s.bucketRate b).1.last := now_le_bucketAt_last s b _
    have future := lt_nextTick (s.bucketReg b) (s.bucketRate b).1.last
    have now := now_advanceTo s (nextTick (s.bucketReg b) (s.bucketRate b).1.last)
    have ticked := bucketRate_setBucket (s := s.advanceTo (nextTick (s.bucketReg b) (s.bucketRate b).1.last))
      (x := (s.bucketRate b).1.tick (s.bucketReg b)) (now.trans_le (max_le (looked.trans future.le) le_rfl)) b
    refine ⟨_, exec_tokenTick b s, ⟨looked, ?_, ?_, ?_, fun c other => tokensOf_setBucket_other _ other _⟩,
      (onlyIn_advance _ _).mono.trans (onlyIn_setBucket _ _ _).mono⟩
    · rw [ticked]; rfl
    · rw [now_setBucket, now]; rfl
    · rw [ticked]; exact TokenBucket.tick_level _ _
  · rw [State.bucketAt, full]
    exact congrArg TokenBucket.level (TokenBucket.upTo_of_le (b := ⟨rateBurst v, s.now⟩) le_rfl v)
  · rw [State.bucketAt, held]
    exact TokenBucket.upTo_level fits _
  · exact takeToken_none empty
  · exact ⟨_, takeToken_some level burst, bucketRate_setLevel s b _, onlyIn_setBucket _ _ _⟩
  · have put := bucketRate_setBucket (s := s) (x := ⟨min (s.bucketAt b old).level (rateBurst (s.bucketReg b)), s.now⟩)
      le_rfl b
    exact ⟨congrArg (·.1.level) put, bucketReg_setBucket _ _ _ _, congrArg (·.1.last) put, onlyIn_setBucket _ _ _⟩

end Sys2Proof.Claims

namespace Sys2Proof.Machine

/-! Canonical arrays: the listed cells are what the array reads, in rising order -/

theorem Tab.mem_cells_of_get {α : Type} {t : Tab α} {d : α} {i : Nat} (h : t.get d i ≠ d) : (i, t.get d i) ∈ t.cells := by
  obtain ⟨l⟩ := t
  simp only [Tab.get] at h ⊢
  induction l with
  | nil => exact absurd rfl h
  | cons c l ih =>
    obtain ⟨k, v⟩ := c
    simp only [lookupCell] at h ⊢
    split at h
    · next here => simp [here]
    · next further => simpa only [if_neg further] using List.mem_cons_of_mem _ (ih h)

theorem Tab.get_of_mem_cells {α : Type} [DecidableEq α] {t : Tab α} {d : α} (wf : t.wf d = true) {c : Nat × α}
    (h : c ∈ t.cells) : t.get d c.1 = c.2 := by
  obtain ⟨l⟩ := t
  simp only [Tab.get, Tab.wf] at *
  induction l with
  | nil => cases h
  | cons e l ih =>
    obtain ⟨k, v⟩ := e
    obtain ⟨-, above, tail⟩ := (cellsOk_cons ..).mp wf
    rcases List.mem_cons.mp h with rfl | later
    · exact if_pos rfl
    · have apart : c.1 ≠ k := by have := above c later; omega
      exact (if_neg apart).trans (ih tail later)

theorem Tab.keys_rising {α : Type} [DecidableEq α] {t : Tab α} {d : α} (wf : t.wf d = true) :
    (t.cells.map Prod.fst).Pairwise (· < ·) := by
  obtain ⟨l⟩ := t
  simp only [Tab.wf] at *
  induction l with
  | nil => exact .nil
  | cons e l ih =>
    obtain ⟨k, v⟩ := e
    obtain ⟨-, above, tail⟩ := (cellsOk_cons ..).mp wf
    refine .cons (fun i hi => ?_) (ih tail)
    obtain ⟨c, hc, rfl⟩ := List.mem_map.mp hi
    exact above c hc

theorem framesWhere_rising {s : State} (wf : s.frames.wf {} = true) (p : Frame → Bool) :
    (s.framesWhere p).Pairwise (· < ·) :=
  (Tab.keys_rising wf).sublist (List.filter_sublist.map _)

theorem of_mem_framesWhere {s : State} (wf : s.frames.wf {} = true) {p : Frame → Bool} {g : Nat}
    (h : g ∈ s.framesWhere p) : p (s.frame g) = true := by
  obtain ⟨c, hc, rfl⟩ := List.mem_map.mp h
  obtain ⟨listed, meets⟩ := List.mem_filter.mp hc
  rw [State.frame, Tab.get_of_mem_cells wf listed]
  exact meets

theorem mem_framesWhere {s : State} {p : Frame → Bool} {f : Nat} (there : s.frame f ≠ {}) (meets : p (s.frame f) = true) :
    f ∈ s.framesWhere p :=
  List.mem_map.mpr ⟨_, List.mem_filter.mpr ⟨Tab.mem_cells_of_get there, meets⟩, rfl⟩

/-! Changes of a frame that replace its header vector and neither look at the walk nor touch it -/

/-- `g` replaces the header vector, whatever the walk. -/
def HvOnly (g : Frame → Frame) : Prop :=
  ∀ (x : Frame) (w : Walk), g { x with walk := w } = { x with hv := (g x).hv, walk := w }

theorem HvOnly.eq {g : Frame → Frame} (h : HvOnly g) (x : Frame) : g x = { x with hv := (g x).hv } := h x x.walk

theorem hvOnly_id : HvOnly id := fun _ _ => rfl

theorem HvOnly.comp {g k : Frame → Frame} (hk : HvOnly k) (hg : HvOnly g) : HvOnly (k ∘ g) := by
  intro x w
  have inner : k (g { x with walk := w }) = k { { x with hv := (g x).hv } with walk := w } := congrArg k (hg x w)
  have plain : (k (g x)).hv = (k { x with hv := (g x).hv }).hv := congrArg (fun y => (k y).hv) (hg.eq x)
  exact inner.trans ((hk _ _).trans (by rw [Function.comp_apply, plain]))

theorem HvOnly.ite {g k : Frame → Frame} (hg : HvOnly g) (hk : HvOnly k) (c : Prop) [Decidable c] :
    HvOnly fun x => if c then g x else k x := by
  intro x w
  by_cases h : c
  · simpa only [if_pos h] using hg x w
  · simpa only [if_neg h] using hk x w

theorem HvOnly.foldl {α : Type} {g : Frame → α → Frame} (h : ∀ a, HvOnly (g · a)) (l : List α) :
    HvOnly fun x => l.foldl g x := by
  induction l with
  | nil => exact hvOnly_id
  | cons a l ih => exact ih.comp (h a)

theorem hvOnly_putHv (off : Nat) (bs : Bytes) : HvOnly (·.putHv off bs) := fun _ _ => rfl

theorem hvOnly_extract (op : Nat × Nat × Nat) : HvOnly (·.extract op) := by
  intro x w
  have copy (k : Nat) : HvOnly fun y =>
      if op.2.2 + k ≤ 127 then y.putHv (32 + op.2.2 + k) [x.seen.getD (op.1 + k) 0] else y :=
    (hvOnly_putHv _ _).ite hvOnly_id _
  exact HvOnly.foldl copy (List.range op.2.1) x w

theorem hvOnly_mark (a cur : Nat) : HvOnly (·.mark a cur) := by
  have set (c : Bool) (off : Nat) (bs : Bytes) : HvOnly fun x => if c then x.putHv off bs else x :=
    (hvOnly_putHv off bs).ite hvOnly_id _
  exact ((set (bitOf 43 a) 5 _).comp (set (bitOf 37 a) 4 _)).comp (set (bitOf 32 a) _ _)

/-- The extractions and marks of a transition (R124, R131). -/
def Frame.fillHv (x : Frame) (ops : List (Nat × Nat × Nat)) (a cur : Nat) : Frame := (ops.foldl Frame.extract x).mark a cur

theorem hvOnly_fillHv (ops : List (Nat × Nat × Nat)) (a cur : Nat) : HvOnly (·.fillHv ops a cur) :=
  (hvOnly_mark a cur).comp (.foldl hvOnly_extract ops)

/-! A step of a walk by its stages (R118, R119, R123, R124) -/

/-- The reads of a state's keys at a cursor. -/
def keyReads (st cur : Nat) : List (Nat × Nat) :=
  (if bitOf 51 st then [(cur + bitsOf 63 58 st, 2)] else []) ++ (if bitOf 50 st then [(cur + bitsOf 57 52 st, 2)] else [])

/-- The key of a frame at a cursor in a state. -/
def Frame.keyAt (x : Frame) (cur st : Nat) : Nat :=
  (if bitOf 51 st then beAt x.seen (cur + bitsOf 63 58 st) 2 else 0) * 65536 +
    (if bitOf 50 st then beAt x.seen (cur + bitsOf 57 52 st) 2 else 0)

/-- The extraction operations of a transition at a cursor. -/
def State.opsAt (s : State) (i a cur : Nat) : List (Nat × Nat × Nat) :=
  (s.extractions i a).map fun o => (cur + o.1, o.2.1, o.2.2)

/-- The reads of a transition at a cursor: the length byte of a variable advance, and the extractions. -/
def actionReads (var : Bool) (st cur : Nat) (ops : List (Nat × Nat × Nat)) : List (Nat × Nat) :=
  (if var then [(cur + bitsOf 47 42 st, 1)] else []) ++ ops.map fun o => (o.1, o.2.1)

/-- How far a transition advances the cursor. -/
def Frame.advanceAt (x : Frame) (cur : Nat) (var : Bool) (st a : Nat) : Nat :=
  if var then
    (byteAt x.seen (cur + bitsOf 47 42 st) &&& bitsOf 41 34 st) / 2 ^ bitsOf 33 31 st * 2 ^ bitsOf 30 29 st
      + bitsOf 28 21 st
  else bitsOf 15 8 a

/-- The cursor after an advance: 256 once past the window. -/
def cursorAfter (cur adv : Nat) : Nat := if 255 < cur + adv then 256 else cur + adv

/-- What a step comes to by the judgement of a stage of reads: `go` when they succeed. -/
def Frame.judged (x : Frame) (r : Reads) (onCut : Bool) (go : Frame) : Frame :=
  match r with
  | .window => x.cut onCut
  | .short => x.failWalk 4
  | .good => go

/-- A step is counted. -/
def Frame.counted (x : Frame) : Frame := { x with walk := { x.walk with steps := x.walk.steps + 1 } }

/-- Whether a transition's advance is variable. -/
def varAdvance (a : Nat) : Bool := bitOf 16 a && (bitsOf 53 52 a = 0 || bitsOf 53 52 a = 3)

/-- A transition whose reads succeed is taken at a cursor. -/
def Frame.take (x : Frame) (ops : List (Nat × Nat × Nat)) (cur st a : Nat) : Frame :=
  let y := x.fillHv ops a cur
  if bitsOf 53 52 a = 1 ∨ bitsOf 53 52 a = 2 then x.handOff y (bitsOf 53 52 a) (bitsOf 7 0 a) (bitsOf 58 54 a) (bitOf 49 st)
  else
    { y with walk := { y.walk with cur := cursorAfter cur (x.advanceAt cur (varAdvance a) st a) } }.enter (bitsOf 7 0 a)
      (bitsOf 58 54 a)

/-- The selected transition is followed. -/
def Frame.follow (x : Frame) (ops : List (Nat × Nat × Nat)) (cur st a : Nat) : Frame :=
  x.judged (x.judge (actionReads (varAdvance a) st cur ops)) (bitOf 49 st) (x.take ops cur st a)

/-- A step of a valid program within the limit. -/
def State.stepIn (s : State) (x : Frame) (i state cur : Nat) : Frame :=
  let st := s.reg .parState i state
  x.judged (x.judge (keyReads st cur)) (bitOf 49 st)
    ((s.transition i state (x.keyAt cur st)).elim (x.failWalk 1) fun k =>
      x.follow (s.opsAt i (s.reg .parAction i k) cur) cur st (s.reg .parAction i k))

theorem judged_good (x : Frame) (onCut : Bool) (go : Frame) : x.judged .good onCut go = go := rfl

theorem keyAt_counted (x : Frame) (cur st : Nat) : x.counted.keyAt cur st = x.keyAt cur st := rfl

theorem judge_counted (x : Frame) (l : List (Nat × Nat)) : x.counted.judge l = x.judge l := rfl

theorem walkStep_invalid {s : State} {x : Frame} (h : s.bit .parProgCtrl (x.port / 8) 0 0 = false) :
    s.walkStep x = x.failWalk 1 :=
  if_pos (by rw [h]; rfl)

theorem walkStep_limit {s : State} {x : Frame} (h : s.bit .parProgCtrl (x.port / 8) 0 0 = true)
    (steps : 24 ≤ x.walk.steps) : s.walkStep x = x.failWalk 2 :=
  (if_neg (by rw [h]; decide)).trans (if_pos steps)

/-- A step of a valid program within the limit reads the key, and follows the transition that it selects. -/
theorem walkStep_valid {s : State} {x : Frame} (h : s.bit .parProgCtrl (x.port / 8) 0 0 = true)
    (steps : x.walk.steps < 24) :
    s.walkStep x = s.stepIn x.counted (x.port / 8) x.walk.state x.walk.cur := by
  unfold State.walkStep State.stepIn
  -- kept closed, or comparing the two sides searches the 1,024 transitions
  generalize State.transition = select
  refine (if_neg (by rw [h]; decide)).trans ((if_neg (Nat.not_le.mpr steps)).trans ?_)
  generalize s.reg .parState (x.port / 8) x.walk.state = st
  change (match x.counted.judge (keyReads st x.walk.cur) with | .window => _ | .short => _ | .good => _) =
    Frame.judged _ (x.counted.judge (keyReads st x.walk.cur)) _ _
  cases x.counted.judge (keyReads st x.walk.cur) with
  | window => rfl
  | short => rfl
  | good =>
    change (match select s (x.port / 8) x.walk.state (x.counted.keyAt x.walk.cur st) with | none => _ | some k => _) =
      Option.elim (select s (x.port / 8) x.walk.state (x.counted.keyAt x.walk.cur st)) _ _
    cases select s (x.port / 8) x.walk.state (x.counted.keyAt x.walk.cur st) with
    | none => rfl
    | some k =>
      dsimp only [Option.elim, Frame.follow]
      generalize s.reg .parAction (x.port / 8) k = a
      change (match x.counted.judge (actionReads (varAdvance a) st x.walk.cur (s.opsAt (x.port / 8) a x.walk.cur)) with
        | .window => _ | .short => _ | .good => _) = _
      cases x.counted.judge (actionReads (varAdvance a) st x.walk.cur (s.opsAt (x.port / 8) a x.walk.cur)) <;> rfl

/-- The reads of a state's keys, one past the window: the step ends there (R119). -/
theorem walkStep_window {s : State} {x : Frame} (valid : s.bit .parProgCtrl (x.port / 8) 0 0 = true)
    (steps : x.walk.steps < 24)
    (past : ∃ r ∈ keyReads (s.reg .parState (x.port / 8) x.walk.state) x.walk.cur, 256 < r.1 + r.2) :
    s.walkStep x = x.counted.cut (bitOf 49 (s.reg .parState (x.port / 8) x.walk.state)) := by
  have window : x.counted.judge (keyReads (s.reg .parState (x.port / 8) x.walk.state) x.walk.cur) = .window :=
    if_pos (List.any_eq_true.mpr (by simpa using past))
  rw [walkStep_valid valid steps, State.stepIn, window]
  rfl

/-- In a valid program within the limit, the keys are read and select transition `k`, with the words `st` of the state and
`a` of the transition; it reads no security header, and its reads succeed. -/
structure Selects (s : State) (x : Frame) (k st a : Nat) : Prop where
  state : s.reg .parState (x.port / 8) x.walk.state = st
  action : s.reg .parAction (x.port / 8) k = a
  valid : s.bit .parProgCtrl (x.port / 8) 0 0 = true
  steps : x.walk.steps < 24
  keys : x.judge (keyReads st x.walk.cur) = .good
  selected : s.transition (x.port / 8) x.walk.state (x.keyAt x.walk.cur st) = some k
  plain : bitsOf 53 52 a = 0 ∨ bitsOf 53 52 a = 3
  reads : x.judge (actionReads (bitOf 16 a) st x.walk.cur (s.opsAt (x.port / 8) a x.walk.cur)) = .good

/-- The frame as a transition's extractions, marks and advance leave it. -/
def State.moved (s : State) (x : Frame) (st a : Nat) : Frame :=
  { x with
    hv := (x.fillHv (s.opsAt (x.port / 8) a x.walk.cur) a x.walk.cur).hv
    walk := { x.walk with
      steps := x.walk.steps + 1
      cur := cursorAfter x.walk.cur (x.advanceAt x.walk.cur (bitOf 16 a) st a) } }

theorem walkStep_moved {s : State} {x : Frame} {k st a : Nat} (h : Selects s x k st a) :
    s.walkStep x = (s.moved x st a).enter (bitsOf 7 0 a) (bitsOf 58 54 a) := by
  obtain ⟨hst, ha, valid, steps, keys, selected, plain, reads⟩ := h
  have var : varAdvance a = bitOf 16 a := by rcases plain with e | e <;> simp [varAdvance, e]
  have header : ¬ (bitsOf 53 52 a = 1 ∨ bitsOf 53 52 a = 2) := by omega
  have filled : x.counted.fillHv (s.opsAt (x.port / 8) a x.walk.cur) a x.walk.cur = { x with
      hv := (x.fillHv (s.opsAt (x.port / 8) a x.walk.cur) a x.walk.cur).hv
      walk := { x.walk with steps := x.walk.steps + 1 } } := hvOnly_fillHv _ _ _ x _
  simp only [walkStep_valid valid steps, State.stepIn, hst, judge_counted, keys, judged_good, keyAt_counted, selected,
    Option.elim_some, ha, Frame.follow, var, reads, Frame.take, header, filled, if_false]
  rfl

theorem enter_goesOn (x : Frame) {next : Nat} (h : next < 252) (rsn : Nat) :
    x.enter next rsn = { x.putHv 3 [BitVec.ofNat 8 next] with walk := { x.walk with state := next, st := .running } } := by
  rw [Frame.enter, if_neg (by omega), if_neg (by omega), if_neg (by omega)]
  rfl

/-- A transition to a state of the program. -/
theorem walkStep_goesOn {s : State} {x : Frame} {k st a : Nat} (h : Selects s x k st a) (below : bitsOf 7 0 a < 252) :
    (s.walkStep x).walk = { x.walk with
        state := bitsOf 7 0 a, st := .running, steps := x.walk.steps + 1
        cur := cursorAfter x.walk.cur (x.advanceAt x.walk.cur (bitOf 16 a) st a) } ∧
      (s.walkStep x).hv = ((x.fillHv (s.opsAt (x.port / 8) a x.walk.cur) a x.walk.cur).putHv 3
        [BitVec.ofNat 8 (bitsOf 7 0 a)]).hv := by
  rw [walkStep_moved h, enter_goesOn _ below]
  exact ⟨rfl, rfl⟩

/-- A transition to acceptance. -/
theorem walkStep_accepts {s : State} {x : Frame} {k st a : Nat} (h : Selects s x k st a) (accept : bitsOf 7 0 a = 252) :
    s.walkStep x = (s.moved x st a).acceptWalk := by
  rw [walkStep_moved h]
  exact if_pos accept

/-! What a step leaves of the walk: the steps counted, and the reasons of a failure (R118, R132) -/

/-- A reason with which a walk fails: one of the device's, or of the program's. -/
abbrev FailReason (r : Nat) : Prop := r ≠ 0 ∧ (r ≤ 6 ∨ (16 ≤ r ∧ r ≤ 31))

/-- The walk has taken `n` steps, and has not failed or has a listed reason. -/
def Frame.SoundAt (n : Nat) (y : Frame) : Prop := y.walk.steps = n ∧ ∀ r, y.walk.st = .failed r → FailReason r

theorem soundAt_failWalk (x : Frame) {r : Nat} (h : FailReason r) : (x.failWalk r).SoundAt x.walk.steps :=
  ⟨rfl, fun _ e => WalkState.failed.inj e ▸ h⟩

theorem soundAt_acceptWalk (x : Frame) : x.acceptWalk.SoundAt x.walk.steps := ⟨rfl, fun _ e => nomatch e⟩

theorem soundAt_cut (x : Frame) (onCut : Bool) : (x.cut onCut).SoundAt x.walk.steps := by
  cases onCut with
  | false => exact soundAt_failWalk x (by decide)
  | true => exact soundAt_acceptWalk (x.flagHv 3)

theorem soundAt_judged {x go : Frame} (h : go.SoundAt x.walk.steps) (r : Reads) (onCut : Bool) :
    (x.judged r onCut go).SoundAt x.walk.steps := by
  cases r with
  | window => exact soundAt_cut x onCut
  | short => exact soundAt_failWalk x (by decide)
  | good => exact h

theorem soundAt_enter (x : Frame) (next : Nat) {rsn : Nat} (h : rsn ≤ 31) : (x.enter next rsn).SoundAt x.walk.steps := by
  have given : FailReason (if 16 ≤ rsn then rsn else 1) := by unfold FailReason; split <;> omega
  simp only [Frame.enter]
  split
  · exact soundAt_acceptWalk x
  split
  · exact soundAt_failWalk x given
  split
  · exact soundAt_failWalk x (by decide)
  · exact ⟨rfl, fun _ e => nomatch e⟩

theorem soundAt_handOff {x y : Frame} (same : y.walk.steps = x.walk.steps) (kind next rsn : Nat) (onCut : Bool) :
    (x.handOff y kind next rsn onCut).SoundAt x.walk.steps := by
  simp only [Frame.handOff]
  generalize (if kind = 2 then espOk x.seen x.walk.cur else secTagOk x.seen x.walk.cur) = listed
  split
  · exact same ▸ soundAt_acceptWalk (y.flagHv 6)
  split
  · exact soundAt_cut x onCut
  · exact soundAt_failWalk x (by decide)
  cases listed with
  | false => exact soundAt_failWalk x (by decide)
  | true =>
    simp only [Bool.not_true, Bool.false_eq_true, if_false]
    split
    · exact soundAt_cut x onCut
    · exact soundAt_failWalk x (by decide)
    · exact ⟨same, fun _ e => nomatch e⟩

theorem soundAt_take (x : Frame) (ops : List (Nat × Nat × Nat)) (cur st a : Nat) :
    (x.take ops cur st a).SoundAt x.walk.steps := by
  have same : (x.fillHv ops a cur).walk.steps = x.walk.steps := congrArg (·.walk.steps) ((hvOnly_fillHv ops a cur).eq x)
  have width : bitsOf 58 54 a ≤ 31 := Nat.le_of_lt_succ (Nat.mod_lt _ (by decide))
  simp only [Frame.take]
  split
  · exact soundAt_handOff same _ _ _ _
  · exact same ▸ soundAt_enter _ _ width

theorem soundAt_stepIn (s : State) (x : Frame) (i state cur : Nat) : (s.stepIn x i state cur).SoundAt x.walk.steps := by
  refine soundAt_judged ?_ _ _
  cases s.transition i state (x.keyAt cur (s.reg .parState i state)) with
  | none => exact soundAt_failWalk x (by decide)
  | some k => exact soundAt_judged (soundAt_take x _ _ _ _) _ _

/-- A step is counted below the limit only, and a failure has a listed reason. -/
theorem soundAt_walkStep (s : State) (x : Frame) :
    (s.walkStep x).SoundAt x.walk.steps ∨ (x.walk.steps < 24 ∧ (s.walkStep x).SoundAt (x.walk.steps + 1)) := by
  cases valid : s.bit .parProgCtrl (x.port / 8) 0 0 with
  | false => exact .inl (walkStep_invalid valid ▸ soundAt_failWalk x (by decide))
  | true =>
    rcases Nat.lt_or_ge x.walk.steps 24 with few | limit
    · exact .inr ⟨few, walkStep_valid valid few ▸ soundAt_stepIn s x.counted _ _ _⟩
    · exact .inl (walkStep_limit valid limit ▸ soundAt_failWalk x (by decide))

end Sys2Proof.Machine

namespace Sys2Proof.Claims

open Sys2Proof.Machine

/-! The issue of lookups in the port's order (R120, R129) -/

/-- A frame whose lookups may have been issued: it is as it was, or was due and holds the mark of the issue. -/
def IssuedOrSame (x y : Frame) : Prop := y = x ∨ (x.due = true ∧ ∃ m, y = { x with issued := true, lrnMode := m })

theorem IssuedOrSame.trans {x y z : Frame} (h : IssuedOrSame x y) (k : IssuedOrSame y z) : IssuedOrSame x z := by
  rcases h with rfl | ⟨due, m, rfl⟩
  · exact k
  · rcases k with rfl | ⟨-, n, rfl⟩
    · exact .inr ⟨due, m, rfl⟩
    · exact .inr ⟨due, n, rfl⟩

/-- The walk and the header vector are those of before, and lookups issued stay issued. -/
theorem IssuedOrSame.kept {x y : Frame} (h : IssuedOrSame x y) :
    y.walk = x.walk ∧ y.hv = x.hv ∧ (x.issued = true → y.issued = true) := by
  rcases h with rfl | ⟨-, m, rfl⟩
  · exact ⟨rfl, rfl, id⟩
  · exact ⟨rfl, rfl, fun _ => rfl⟩

theorem frame_issueNow (s : State) (f : Nat) :
    (s.issueNow f).frame f = { s.frame f with issued := true, lrnMode := s.fld .emtLrnCtrl 0 0 1 0 } := by
  rw [State.issueNow, (onlyIn_pmcCount _ _ _ _ _).frame_same (by decide), State.frame_setFrame]

theorem issuedOrSame_issueNow {s : State} {f : Nat} (due : (s.frame f).due = true) (g : Nat) :
    IssuedOrSame (s.frame g) ((s.issueNow f).frame g) := by
  by_cases same : g = f
  · subst same
    exact .inr ⟨due, _, frame_issueNow s g⟩
  · exact .inl (frame_issueNow_other s same)

theorem issuedOrSame_issueInOrder (s : State) (l : List Nat) (g : Nat) :
    IssuedOrSame (s.frame g) ((s.issueInOrder l).frame g) := by
  induction l generalizing s with
  | nil => exact .inl rfl
  | cons f rest ih =>
    simp only [State.issueInOrder]
    split
    · exact ih s
    · split
      · next due => exact (issuedOrSame_issueNow due g).trans (ih _)
      · exact .inl rfl

/-- In a rising list in which no earlier frame holds back, a frame that is due has its lookups issued. -/
theorem issueInOrder_issues {s : State} {l : List Nat} {f : Nat} (rising : l.Pairwise (· < ·)) (listed : f ∈ l)
    (due : (s.frame f).due = true) (first : ∀ g ∈ l, g < f → s.holdsIssue (s.frame g) = false)
    (held : s.holdsIssue (s.frame f) = true ∨ (s.frame f).issued = true) :
    ((s.issueInOrder l).frame f).issued = true := by
  induction l with
  | nil => cases listed
  | cons h rest ih =>
    obtain ⟨above, rising⟩ := List.pairwise_cons.mp rising
    simp only [State.issueInOrder]
    rcases List.mem_cons.mp listed with rfl | later
    · split
      · next skipped =>
        obtain ⟨-, -, stays⟩ := (issuedOrSame_issueInOrder s rest f).kept
        exact stays (held.resolve_left (by simpa using skipped))
      · obtain ⟨-, -, stays⟩ := (issuedOrSame_issueInOrder (s.issueNow f) rest f).kept
        exact stays (by rw [frame_issueNow])
    · rw [if_pos (by rw [first h List.mem_cons_self (above f later)]; rfl)]
      exact ih rising later fun g hg => first g (List.mem_cons_of_mem _ hg)

theorem frame_issueLookups_other (s : State) {f g : Nat} (other : g ≠ f) (due : (s.frame g).due = false) :
    (s.issueLookups f).frame g = s.frame g := by
  have before : (s.modFrame f fun x => { x with due := true }).frame g = s.frame g := State.frame_modFrame_other _ _ other
  rcases issuedOrSame_issueInOrder (s.modFrame f fun x => { x with due := true }) _ g with same | ⟨isDue, -⟩
  · exact same.trans before
  · rw [before, due] at isDue
    cases isDue

/-- An accepted frame in its landing area, with none before it that holds back, has its lookups issued. -/
theorem issueLookups_issues {s : State} {f : Nat} (first : FirstToIssue s f) (landing : (s.frame f).ing = .landing)
    (accepted : (s.frame f).walk.st = .accepted) :
    ((s.issueLookups f).frame f).issued = true ∧ ((s.issueLookups f).frame f).walk = (s.frame f).walk ∧
      ((s.issueLookups f).frame f).hv = (s.frame f).hv := by
  obtain ⟨wf, unbarred, earlier⟩ := first
  let u := s.modFrame f fun x => { x with due := true }
  have self : u.frame f = { s.frame f with due := true } := State.frame_modFrame _ _ _
  have wf' : u.frames.wf {} = true := Tab.wf_set _ _ wf
  obtain ⟨walk, hv, -⟩ := (issuedOrSame_issueInOrder u
    (u.framesWhere fun y => y.port = (s.frame f).port && y.ing = .landing) f).kept
  rw [self] at walk hv
  refine ⟨issueInOrder_issues (framesWhere_rising wf' _) (mem_framesWhere ?_ ?_) ?_ (fun g listed before => ?_) ?_,
    walk, hv⟩
  · rw [self]
    intro e
    cases congrArg Frame.due e
  · rw [self]
    simp [landing]
  · rw [self]
  · have same : u.frame g = s.frame g := State.frame_modFrame_other _ _ (Nat.ne_of_lt before)
    have meets := of_mem_framesWhere wf' listed
    rw [same] at meets ⊢
    exact earlier g before (by simpa using (Bool.and_eq_true_iff.mp meets).1)
  · rw [self]
    cases issued : (s.frame f).issued with
    | true => exact .inr rfl
    | false => exact .inl (by simp [State.holdsIssue, landing, issued, unbarred, accepted])

/-- A frame that keeps its port and takes lookups as before is as early as before. -/
theorem FirstToIssue.setFrame {s : State} {f : Nat} {y : Frame} (h : FirstToIssue s f) (port : y.port = (s.frame f).port)
    (barred : y.barred = (s.frame f).barred) : FirstToIssue (s.setFrame f y) f := by
  obtain ⟨wf, unbarred, earlier⟩ := h
  refine ⟨Tab.wf_set _ _ wf, ?_, fun g before samePort => ?_⟩
  · rw [State.frame_setFrame, barred, unbarred]
  · rw [State.frame_setFrame_other _ _ (Nat.ne_of_lt before)] at samePort ⊢
    rw [State.frame_setFrame, port] at samePort
    exact earlier g before samePort

theorem onlyIn_issueLookups (s : State) (f : Nat) : OnlyIn [.frames, .cnts, .cntCfg] s (s.issueLookups f) :=
  (onlyIn_modFrame _ _ _).mono.trans (onlyIn_issueReady _ _)

/-! One step of a walk as a command (R118) -/

theorem exec_parseStep {f : Nat} {s : State} (running : (s.frame f).walk.st = .running)
    (landing : (s.frame f).ing = .landing) :
    exec (.parseStep f) s = .next ((s.setFrame f (s.walkStep (s.frame f))).walkDone f) :=
  congrArg Host.Outcome.next (if_pos (by rw [running, landing]; decide))

theorem walkDone_running {f : Nat} {s : State} (h : (s.frame f).walk.st = .running) : s.walkDone f = s := by
  simp only [State.walkDone, h]

theorem walkDone_accepted {f : Nat} {s : State} (h : (s.frame f).walk.st = .accepted)
    (noFiller : s.isFiller (s.frame f) = false) : s.walkDone f = s.issueLookups f := by
  simp only [State.walkDone, h, noFiller, Bool.false_eq_true, if_false]

theorem parseStep_goesOn {f : Nat} {s : State} (running : (s.frame f).walk.st = .running)
    (landing : (s.frame f).ing = .landing) (goesOn : (s.walkStep (s.frame f)).walk.st = .running) :
    exec (.parseStep f) s = .next (s.setFrame f (s.walkStep (s.frame f))) := by
  rw [exec_parseStep running landing, walkDone_running (by rw [State.frame_setFrame, goesOn])]

theorem parseStep_accepts {f : Nat} {s : State} (running : (s.frame f).walk.st = .running)
    (landing : (s.frame f).ing = .landing) (accepts : (s.walkStep (s.frame f)).walk.st = .accepted)
    (noFiller : s.isFiller (s.walkStep (s.frame f)) = false) :
    exec (.parseStep f) s = .next ((s.setFrame f (s.walkStep (s.frame f))).issueLookups f) := by
  rw [exec_parseStep running landing, walkDone_accepted (by rw [State.frame_setFrame, accepts])
    (by rw [State.frame_setFrame]; exact noFiller)]

/-- NEXT below 252 (R118): the frame is the only part that changes. -/
theorem parseStep_moves {f k st a : Nat} {s : State} (running : (s.frame f).walk.st = .running)
    (landing : (s.frame f).ing = .landing) (h : Selects s (s.frame f) k st a) (below : bitsOf 7 0 a < 252) :
    exec (.parseStep f) s = .next (s.setFrame f (s.walkStep (s.frame f))) := by
  obtain ⟨walk, -⟩ := walkStep_goesOn h below
  exact parseStep_goesOn running landing (by rw [walk])

/-- NEXT = 252 (R129): the accepted frame's lookups are issued, when it is the first to issue. -/
theorem parseStep_issues {f k st a : Nat} {s : State} (running : (s.frame f).walk.st = .running)
    (landing : (s.frame f).ing = .landing) (h : Selects s (s.frame f) k st a) (accept : bitsOf 7 0 a = 252)
    (noFiller : s.isFiller (s.walkStep (s.frame f)) = false) (first : FirstToIssue s f) :
    ∃ t, exec (.parseStep f) s = .next t ∧ (t.frame f).walk.st = .accepted ∧ (t.frame f).issued = true ∧
      (t.frame f).hv = ((s.frame f).fillHv (s.opsAt ((s.frame f).port / 8) a (s.frame f).walk.cur) a
        (s.frame f).walk.cur).hv ∧
      (∀ g, g ≠ f → (s.frame g).due = false → t.frame g = s.frame g) ∧ OnlyIn [.frames, .cnts, .cntCfg] s t := by
  have step := walkStep_accepts h accept
  have run := parseStep_accepts running landing (by rw [step]; rfl) noFiller
  rw [step] at run
  have first' : FirstToIssue (s.setFrame f (s.moved (s.frame f) st a).acceptWalk) f := first.setFrame rfl rfl
  obtain ⟨issued, walk, hv⟩ := issueLookups_issues first' (by rw [State.frame_setFrame]; exact landing)
    (by rw [State.frame_setFrame]; rfl)
  rw [State.frame_setFrame] at walk hv
  refine ⟨_, run, by rw [walk]; rfl, issued, hv, fun g other notDue => ?_,
    (onlyIn_setFrame _ _ _).mono.trans (onlyIn_issueLookups _ _)⟩
  have same := State.frame_setFrame_other s (s.moved (s.frame f) st a).acceptWalk other
  exact (frame_issueLookups_other _ other (same ▸ notDue)).trans same

/-- Settles O16: a step goes by its stages (`walkStep_valid`), the transition's changes of the header vector do not look
at the walk (`HvOnly`), and of an accepted frame's port no earlier frame stops the issue. -/
theorem walksFollowTheProgram : Obligations.WalksFollowTheProgram := by
  unfold Obligations.WalksFollowTheProgram
  refine ⟨fun f k s running landing => ?_, fun s x invalid => walkStep_invalid invalid,
    fun s x valid limit => walkStep_limit valid limit, fun s x => ?_, fun s x r _ failed => ?_, fun s x few => ?_⟩
  · intro x i st k0 k1 key a ops adv valid steps keys selected plain reads
    have h : Selects s (s.frame f) k st a := ⟨rfl, rfl, valid, steps, keys, selected, plain, reads⟩
    refine ⟨fun below => ?_, fun accept noFiller first => parseStep_issues running landing h accept noFiller first⟩
    obtain ⟨walk, hv⟩ := walkStep_goesOn h below
    refine ⟨_, parseStep_moves running landing h below, ?_, ?_, ?_, ?_, ?_,
      fun g other => State.frame_setFrame_other _ _ other, onlyIn_setFrame _ _ _⟩
    · rw [State.frame_setFrame, walk]
    · rw [State.frame_setFrame, walk]
    · rw [State.frame_setFrame, walk]
    · rw [State.frame_setFrame, walk]; rfl
    · rw [State.frame_setFrame, hv]; rfl
  · intro st reads valid steps past
    rw [walkStep_window valid steps past]
    exact ⟨fun onCut => by rw [Frame.cut, if_pos onCut]; exact ⟨rfl, rfl⟩,
      fun noCut => by rw [Frame.cut, if_neg (by rw [noCut]; decide)]; rfl⟩
  · rcases soundAt_walkStep s x with ⟨-, listed⟩ | ⟨-, -, listed⟩
    · exact listed r failed
    · exact listed r failed
  · rcases soundAt_walkStep s x with ⟨same, -⟩ | ⟨below, counted, -⟩
    · omega
    · omega

end Sys2Proof.Claims

namespace Sys2Proof.Machine

/-! Addresses of register elements (R534, R535) -/

/-- An address matches the element that holds it. -/
theorem addr_of_match? {r : RegName} {a i j o : Nat} (h : r.match? a = some (i, j, o)) :
    i < r.info.n1 ∧ j < r.info.n2 ∧ o < r.info.size ∧ a = r.addr i j + o := by
  have part (n d step : Nat) : (if n = 1 then 0 else d / step) * step ≤ d := by
    split
    · omega
    · exact Nat.div_mul_le_self d step
  simp only [RegName.match?] at h
  by_cases below : a < r.info.base
  · rw [if_pos below] at h
    cases h
  rw [if_neg below] at h
  have row := part r.info.n1 (a - r.info.base) r.info.s1
  generalize (if r.info.n1 = 1 then 0 else (a - r.info.base) / r.info.s1) = p at h row
  have column := part r.info.n2 (a - r.info.base - p * r.info.s1) r.info.s2
  generalize (if r.info.n2 = 1 then 0 else (a - r.info.base - p * r.info.s1) / r.info.s2) = q at h column
  obtain ⟨⟨hp, hq, ho⟩, found⟩ := Option.ite_none_right_eq_some.mp h
  obtain ⟨rfl, rfl, rfl⟩ : p = i ∧ q = j ∧ a - r.info.base - p * r.info.s1 - q * r.info.s2 = o := by
    simpa using found
  refine ⟨hp, hq, ho, ?_⟩
  simp only [RegName.addr]
  omega

/-- An element of a two-dimensional array is found at its address. -/
theorem match?_addr {r : RegName} {i j o : Nat} (hi : i < r.info.n1) (hj : j < r.info.n2) (ho : o < r.info.size)
    (rows : r.info.n1 ≠ 1) (columns : r.info.n2 ≠ 1) (row : j * r.info.s2 + o < r.info.s1) (column : o < r.info.s2) :
    r.match? (r.addr i j + o) = some (i, j, o) := by
  have off : r.addr i j + o - r.info.base = r.info.s1 * i + (j * r.info.s2 + o) := by
    rw [RegName.addr, Nat.mul_comm r.info.s1]; omega
  have quot : (r.info.s1 * i + (j * r.info.s2 + o)) / r.info.s1 = i := by
    rw [Nat.mul_add_div (Nat.zero_lt_of_lt row), Nat.div_eq_of_lt row, Nat.add_zero]
  have rest : r.info.s1 * i + (j * r.info.s2 + o) - i * r.info.s1 = r.info.s2 * j + o := by
    rw [Nat.mul_comm r.info.s1, Nat.mul_comm r.info.s2]; omega
  have quot' : (r.info.s2 * j + o) / r.info.s2 = j := by
    rw [Nat.mul_add_div (Nat.zero_lt_of_lt column), Nat.div_eq_of_lt column, Nat.add_zero]
  have last : r.info.s2 * j + o - j * r.info.s2 = o := by rw [Nat.mul_comm]; omega
  have above : ¬ r.addr i j + o < r.info.base := by rw [RegName.addr]; omega
  simp only [RegName.match?, above, rows, columns, off, quot, rest, quot', last, if_false, hi, hj, ho, and_self, if_true]

theorem match?_of_findRegIn {l : List RegName} {a : Nat} {m : RegAt} (h : findRegIn l a = some m) :
    m.name ∈ l ∧ m.name.match? a = some (m.i, m.j, m.off) := by
  induction l with
  | nil => cases h
  | cons r rest ih =>
    simp only [findRegIn] at h
    split at h
    next hit =>
      cases h
      exact ⟨List.mem_cons_self, hit⟩
    next =>
      obtain ⟨listed, hit⟩ := ih h
      exact ⟨List.mem_cons_of_mem _ listed, hit⟩

/-- The only register of a list that matches an address is found there. -/
theorem findRegIn_of_only {l : List RegName} {a i j o : Nat} {r : RegName} (listed : r ∈ l)
    (hit : r.match? a = some (i, j, o)) (only : ∀ q ∈ l, q ≠ r → q.match? a = none) :
    findRegIn l a = some ⟨r, i, j, o⟩ := by
  induction l with
  | nil => cases listed
  | cons q rest ih =>
    simp only [findRegIn]
    by_cases here : q = r
    · subst here
      rw [hit]
    · rw [only q List.mem_cons_self here]
      exact ih ((List.mem_cons.mp listed).resolve_left (Ne.symm here)) fun p hp => only p (List.mem_cons_of_mem _ hp)

/-! The program memories of a slice (Table 04.9) -/

/-- The registers of the program memories. -/
def programRegs : List RegName := [.parState, .parExtract, .parMatch, .parMask, .parAction]

/-- What the registers of the program memories have in common. -/
theorem info_of_programRegs {r : RegName} (h : r ∈ programRegs) :
    r.info.domain = 8 ∧ r.info.writers = [0] ∧ r.info.when = .configOrTest ∧ r.info.banked = false ∧
      r.info.mirrored = false ∧ ∀ f ∈ r.info.fields, f.legal = .any := by
  revert r
  decide

/-- The programs of 16 slices, each an array of elements. -/
theorem shape_of_programRegs {r : RegName} (h : r ∈ programRegs) :
    r.info.n1 = 16 ∧ r.info.n2 ≠ 1 ∧ 0 < r.info.size ∧ 0 < r.info.s2 := by
  revert r
  decide

theorem programRegs_sub_allRegs {r : RegName} (h : r ∈ programRegs) : r ∈ allRegs := by
  revert r
  decide

/-- The other registers of the parser's blocks. -/
def parserRegs : List RegName := [.parProgCtrl, .parProgCrc, .parPortCfg, .parFailAct, .parPuntRate]

/-- Every other register ends before the parser's blocks or starts after them. -/
theorem allRegs_apart {r : RegName} (h : r ∈ allRegs) : r ∈ programRegs ∨ r ∈ parserRegs ∨
    r.info.base + (r.info.n1 - 1) * r.info.s1 + (r.info.n2 - 1) * r.info.s2 + r.info.size ≤ 0x1000000 ∨
    0x1100000 ≤ r.info.base := by
  revert r
  decide +kernel

/-- The register of the program memories that holds an offset, when one does. -/
def programReg (off : Nat) : RegName :=
  if off < 0x1000 then .parState else if off < 0x4000 then .parExtract
  else if off % 32 < 8 then .parMatch else if off % 32 < 16 then .parMask else .parAction

theorem inProgram_iff (off : Nat) :
    inProgram off = true ↔ (0x800 ≤ off ∧ off < 0x1000) ∨ (0x2000 ≤ off ∧ off < 0x4000) ∨ 0x8000 ≤ off := by
  simp [inProgram, or_assoc]

/-- Only `programReg` can hold an offset of the program memories. -/
theorem programReg_of_match? {q : RegName} {i off i' j o : Nat} (hi : i < 16) (hoff : off < 0x10000)
    (prog : inProgram off = true) (listed : q ∈ allRegs)
    (h : q.match? (0x1000000 + i * 0x10000 + off) = some (i', j, o)) : q ∈ programRegs ∧ q = programReg off := by
  obtain ⟨hi', hj, ho, place⟩ := addr_of_match? h
  rw [inProgram_iff] at prog
  rcases allRegs_apart listed with mem | other | far
  · refine ⟨mem, ?_⟩
    simp only [programRegs, List.mem_cons, List.not_mem_nil, or_false] at mem
    rcases mem with rfl | rfl | rfl | rfl | rfl
    all_goals simp only [RegName.addr, RegName.info] at place hi' hj ho
    · exact (if_pos (by omega)).symm
    · exact ((if_neg (by omega)).trans (if_pos (by omega))).symm
    · exact ((if_neg (by omega)).trans ((if_neg (by omega)).trans (if_pos (by omega)))).symm
    · exact ((if_neg (by omega)).trans ((if_neg (by omega)).trans ((if_neg (by omega)).trans (if_pos (by omega))))).symm
    · exact ((if_neg (by omega)).trans ((if_neg (by omega)).trans ((if_neg (by omega)).trans (if_neg (by omega))))).symm
  · simp only [parserRegs, List.mem_cons, List.not_mem_nil, or_false] at other
    rcases other with rfl | rfl | rfl | rfl | rfl
    all_goals
      simp only [RegName.addr, RegName.info] at place hi' hj ho
      omega
  · have row := Nat.mul_le_mul_right q.info.s1 (Nat.le_sub_one_of_lt hi')
    have column := Nat.mul_le_mul_right q.info.s2 (Nat.le_sub_one_of_lt hj)
    simp only [RegName.addr] at place
    omega

/-- The offset of an element of a program memory in its slice's block. -/
def programOff (r : RegName) (k : Nat) : Nat := r.info.base - 0x1000000 + k * r.info.s2

theorem programOff_place {r : RegName} (h : r ∈ programRegs) {k : Nat} (hk : k < r.info.n2) :
    inProgram (programOff r k) = true ∧ programOff r k < 0x10000 ∧ k * r.info.s2 < r.info.s1 ∧
      (∀ i, r.addr i k = 0x1000000 + i * 0x10000 + programOff r k) ∧ programOff r k % 4 = 0 ∧
      (8 ≤ r.info.size → programOff r k % 8 = 0) := by
  rw [inProgram_iff]
  simp only [programRegs, List.mem_cons, List.not_mem_nil, or_false] at h
  rcases h with rfl | rfl | rfl | rfl | rfl
  all_goals
    simp only [programOff, RegName.addr, RegName.info] at hk ⊢
    refine ⟨?_, ?_, ?_, fun i => ?_, ?_, ?_⟩ <;> omega

/-- An element of a program memory is found at its address. -/
theorem findReg_program {r : RegName} {i k : Nat} (hi : i < 16) (mem : r ∈ programRegs) (hk : k < r.info.n2) :
    findReg (0x1000000 + i * 0x10000 + programOff r k) = some ⟨r, i, k, 0⟩ := by
  obtain ⟨prog, hoff, short, place, -⟩ := programOff_place mem hk
  obtain ⟨rows, columns, size, step⟩ := shape_of_programRegs mem
  have hit : r.match? (0x1000000 + i * 0x10000 + programOff r k) = some (i, k, 0) := by
    rw [← place]
    exact match?_addr (o := 0) (by omega) hk size (by omega) columns short step
  refine findRegIn_of_only (programRegs_sub_allRegs mem) hit fun q listed other => ?_
  cases found : q.match? (0x1000000 + i * 0x10000 + programOff r k) with
  | none => rfl
  | some e =>
    obtain ⟨-, named⟩ := programReg_of_match? hi hoff prog listed found
    obtain ⟨-, named'⟩ := programReg_of_match? hi hoff prog (programRegs_sub_allRegs mem) hit
    exact absurd (named.trans named'.symm) other

theorem accessOk_inSlice (i off size : Nat) : accessOk (0x1000000 + i * 0x10000 + off) size = accessOk off size := by
  by_cases word : size = 4
  · subst word
    simp only [accessOk, show (0x1000000 + i * 0x10000 + off) % 4 = off % 4 by omega]
  by_cases pair : size = 8
  · subst pair
    simp only [accessOk, show (0x1000000 + i * 0x10000 + off) % 8 = off % 8 by omega]
  · simp [accessOk, word, pair]

theorem anyReserved_of_any {fs : List Field} (h : ∀ f ∈ fs, f.legal = .any) (old new : Nat) :
    anyReserved fs old new = false := by
  refine List.any_eq_false.mpr fun f hf => ?_
  simp [Field.reservedWrite, h f hf, Legal.ok]

/-- A bit of a number in which one bit was replaced. -/
theorem bitOf_withBits_bit (n k v x : Nat) : bitOf n (withBits k k v x) = if n = k then x.testBit 0 else bitOf n v := by
  simp only [bitOf]
  rw [testBit_withBits]
  by_cases same : n = k
  · rw [if_pos (by omega), if_pos same, same, Nat.sub_self]
  · rw [if_neg (by omega), if_neg same]

/-! A write to a program memory (R135) -/

theorem reachable_program {r : RegName} (h : r ∈ programRegs) (s : State) : s.reachable r = s.reachable .parState := by
  obtain ⟨domain, -⟩ := info_of_programRegs h
  rw [State.reachable, domain]
  rfl

/-- In CONFIG, a write of PF0 to an element of a program memory stores its fields and clears VALID. -/
theorem fieldWrite_program {s : State} {m : RegAt} (mem : m.name ∈ programRegs) (up : s.reachable .parState = true)
    (config : s.mode = .config) (i size v : Nat) :
    s.fieldWrite .pf0 m size v (fun _ => false) (fun _ s => s.clearValid i) =
      (s.setReg m.name m.i m.j (applyFields m.name.info.fields (s.reg m.name m.i m.j)
        (mergeBytes (s.reg m.name m.i m.j) m.off size v))).clearValid i := by
  obtain ⟨-, writers, mode, banked, mirrored, legal⟩ := info_of_programRegs mem
  have role : (m.name.info.writers.contains Fn.pf0.num && m.name.info.when.ok s.mode) = true := by
    rw [writers, mode, config]
    rfl
  have bank : m.name.bank .pf0 = 0 := by simp only [RegName.bank, banked]; rfl
  have row : m.row = m.i := by simp only [RegAt.row, mirrored]; rfl
  simp only [State.fieldWrite, judgeWrite_stored ((reachable_program mem s).trans up) role, anyReserved_of_any legal, bank,
    row, Bool.false_eq_true, if_false]
  rfl

/-- In a mode other than CONFIG and FACTORY_TEST the write is only logged. -/
theorem fieldWrite_program_refused {s : State} {m : RegAt} (mem : m.name ∈ programRegs)
    (up : s.reachable .parState = true) (notConfig : s.mode ≠ .config) (notTest : s.mode ≠ .factoryTest) (f : Fn)
    (size v : Nat) (refuse : Nat → Bool) (after : Nat → State → State) :
    s.fieldWrite f m size v refuse after = s.configError f (m.name.addr m.i m.j + m.off) := by
  obtain ⟨-, -, mode, -⟩ := info_of_programRegs mem
  have role : (m.name.info.writers.contains f.num && m.name.info.when.ok s.mode) = false := by
    simp [mode, WriteWhen.ok, notConfig, notTest]
  simp only [State.fieldWrite, judgeWrite_refused ((reachable_program mem s).trans up) role]

end Sys2Proof.Machine

namespace Sys2Proof.Claims

open Sys2Proof.Machine

/-- A write within one element of a program memory is one write of its fields. -/
theorem exec_parseProgramWrite {i : Slice} {off : BitVec 16} {size : Nat} {m : RegAt} (prog : inProgram off.toNat = true)
    (served : accessOk off.toNat size = true) (found : findReg (0x1000000 + i.val * 0x10000 + off.toNat) = some m)
    (fits : size ≤ m.name.info.size) (f : Fn) (v : BitVec 64) (s : State) :
    exec (.parseProgramWrite f i off size v) s =
      .next (s.fieldWrite f m size v.toNat (fun _ => false) fun _ s => s.clearValid i) := by
  change execParseProgramWrite f i off size v s = _
  simp only [execParseProgramWrite, prog, accessOk_inSlice, served, found, Nat.not_lt.mpr fits, Bool.not_true,
    Bool.false_eq_true, if_false]

/-- A write to an offset of the program memories that no register holds is logged outside CONFIG and FACTORY_TEST. -/
theorem exec_parseProgramWrite_hole {i : Slice} {off : BitVec 16} {size : Nat} {s : State}
    (prog : inProgram off.toNat = true) (served : accessOk off.toNat size = true)
    (hole : findReg (0x1000000 + i.val * 0x10000 + off.toNat) = none) (up : s.reachable .parState = true)
    (notConfig : s.mode ≠ .config) (notTest : s.mode ≠ .factoryTest) (f : Fn) (v : BitVec 64) :
    exec (.parseProgramWrite f i off size v) s =
      .next (s.configError f (0x1000000 + i.val * 0x10000 + off.toNat)) := by
  change execParseProgramWrite f i off size v s = _
  simp only [execParseProgramWrite, prog, accessOk_inSlice, served, hole, up, Bool.not_true, Bool.false_eq_true, if_false]
  simp [notConfig, notTest]

theorem programKey_ne {r : RegName} (mem : r ∈ programRegs) (i k : Nat) :
    r.key 0 i k ≠ RegName.key .parProgCtrl 0 i 0 := by
  simp only [programRegs, List.mem_cons, List.not_mem_nil, or_false] at mem
  rcases mem with rfl | rfl | rfl | rfl | rfl
  all_goals
    simp only [RegName.key, RegName.addr, RegName.info, Bool.false_eq_true, if_false]
    omega

/-- A write of PF0 in CONFIG to an element of a program memory (R122 to R124, R135). -/
theorem programWrite_stores {s : State} {r : RegName} {i : Slice} {k n size : Nat} {ps : List Part} (mem : r ∈ programRegs)
    (hk : k < r.info.n2) (offset : n = programOff r k) (width : size = 4 ∨ size = 8) (fits : size ≤ r.info.size)
    (up : s.reachable .parState = true) (config : s.mode = .config) (v : BitVec 64)
    (parts : ∀ p ∈ [Part.regs, .cntCfg], p ∈ ps := by decide) :
    ∃ t, exec (.parseProgramWrite .pf0 i (BitVec.ofNat 16 n) size v) s = .next t ∧
      t.reg r i k = applyFields r.info.fields (s.reg r i k) (mergeBytes (s.reg r i k) 0 size v.toNat) ∧
      t.bit .parProgCtrl i 0 0 = false ∧ OnlyIn ps s t := by
  obtain ⟨prog, small, -, -, words, pairs⟩ := programOff_place mem hk
  have hoff : (BitVec.ofNat 16 n).toNat = programOff r k := by
    rw [offset, BitVec.toNat_ofNat, Nat.mod_eq_of_lt small]
  have found := findReg_program i.isLt mem hk
  have served : accessOk (programOff r k) size = true := by
    rcases width with rfl | rfl
    · simp [accessOk, words]
    · simp [accessOk, pairs fits]
  rw [← hoff] at prog found served
  refine ⟨_, (exec_parseProgramWrite prog served found fits .pf0 v s).trans
    (congrArg _ (fieldWrite_program mem up config i size v.toNat)), ?_, ?_,
    ((onlyIn_setReg _ _ _ _ _).trans (onlyIn_setReg _ _ _ _ _)).mono parts⟩
  · exact (State.regOf_setRegOf_other _ (programKey_ne mem i k)).trans (State.reg_setReg _ _ _ _ _)
  · rw [State.bit, State.clearValid, State.reg_setReg, bitOf_withBits_bit]
    rfl

/-- A program write outside CONFIG and FACTORY_TEST is logged and nothing else (R135). -/
theorem programWrite_refused {s : State} {i : Slice} {size : Nat} {off : BitVec 16} (prog : inProgram off.toNat = true)
    (served : accessOk off.toNat size = true) (alone : size = 4 ∨ off.toNat < 0x1000 ∨ 0x8000 ≤ off.toNat)
    (up : s.reachable .parState = true) (notConfig : s.mode ≠ .config) (notTest : s.mode ≠ .factoryTest) (f : Fn)
    (v : BitVec 64) :
    exec (.parseProgramWrite f i off size v) s =
      .next (s.configError f (0x1000000 + i.val * 0x10000 + off.toNat)) := by
  cases found : findReg (0x1000000 + i.val * 0x10000 + off.toNat) with
  | none => exact exec_parseProgramWrite_hole prog served found up notConfig notTest f v
  | some m =>
    obtain ⟨listed, hit⟩ := match?_of_findRegIn found
    obtain ⟨mem, named⟩ := programReg_of_match? i.isLt off.isLt prog listed hit
    obtain ⟨-, -, -, place⟩ := addr_of_match? hit
    have fits : size ≤ m.name.info.size := by
      have width : size = 4 ∨ size = 8 := by
        simp only [accessOk, Bool.and_eq_true, Bool.or_eq_true, decide_eq_true_eq] at served
        exact served.1
      rw [named, programReg]
      split_ifs <;> simp only [RegName.info] <;> omega
    rw [exec_parseProgramWrite prog served found fits f v s,
      fieldWrite_program_refused mem up notConfig notTest f size _ _ _, ← place]

/-! The CRC of a program (R136) -/

theorem parProgCtrl_not_inCntCfg {i : Nat} (h : i < 16) : ¬ inCntCfg (RegName.key .parProgCtrl 0 i 0) := by
  simp only [inCntCfg, RegName.key, RegName.addr, RegName.info, Bool.false_eq_true, if_false]
  omega

theorem parProgCrc_not_inCntCfg {i : Nat} (h : i < 16) : ¬ inCntCfg (RegName.key .parProgCrc 0 i 0) := by
  simp only [inCntCfg, RegName.key, RegName.addr, RegName.info, Bool.false_eq_true, if_false]
  omega

theorem exec_parseCrcCheck {s : State} (up : s.reachable .parProgCtrl = true) (i : Slice) :
    exec (.parseCrcCheck .pf0 i) s =
      .next (s.setReg .parProgCtrl i 0 (withBits 1 1 (s.reg .parProgCtrl i 0) 1)) :=
  congrArg Host.Outcome.next (rowWrite_of_role up (by decide) _ _ _)

theorem exec_parseCrcDone {s : State} {i : Slice} (checking : s.bit .parProgCtrl i 0 1 = true) :
    exec (.parseCrcDone i) s = .next ((s.setReg .parProgCrc i 0 (crc32 (s.programBytes i))).setReg .parProgCtrl i 0
      (withBits 1 1 (s.reg .parProgCtrl i 0) 0)) :=
  congrArg Host.Outcome.next (if_neg (by rw [show bitOf 1 (s.reg .parProgCtrl i 0) = true from checking]; decide))

theorem bit_setReg (s : State) (r : RegName) (i j v b : Nat) : (s.setReg r i j v).bit r i j b = bitOf b v := by
  rw [State.bit, State.reg_setReg]

/-- Settles O15: only the program memories lie at their offsets (`programReg_of_match?`), and a write there is judged by
what their registers have in common. -/
theorem parseProgramsLoadAndCheck : Obligations.ParseProgramsLoadAndCheck := by
  unfold Obligations.ParseProgramsLoadAndCheck
  refine ⟨fun i k v s hk up config => ?_, fun i k v s hk up config => ?_,
    fun i k v s hk up config => ⟨?_, ?_, ?_⟩, fun f i off size v s prog served alone up notConfig notTest =>
      programWrite_refused prog served alone up notConfig notTest f v, fun i s up => ?_, fun i s checking => ?_⟩
  · exact programWrite_stores (r := .parState) (by decide) hk (Nat.mul_comm 8 k ▸ rfl) (.inr rfl) (by decide) up config v
  · exact programWrite_stores (r := .parExtract) (by decide) hk (Nat.mul_comm 4 k ▸ rfl) (.inl rfl) (by decide) up config v
  · exact programWrite_stores (r := .parMatch) (by decide) hk (Nat.mul_comm 32 k ▸ rfl) (.inr rfl) (by decide) up config v
  · exact programWrite_stores (r := .parMask) (by decide) hk (Nat.mul_comm 32 k ▸ rfl) (.inl rfl) (by decide) up config v
  · exact programWrite_stores (r := .parAction) (by decide) hk (Nat.mul_comm 32 k ▸ rfl) (.inr rfl) (by decide) up config v
  · refine ⟨_, exec_parseCrcCheck up i, ?_, ?_, onlyIn_setRegOf_plain _ _ _ _ _ _ (parProgCtrl_not_inCntCfg i.isLt)⟩
    · rw [bit_setReg, bitOf_withBits_bit]
      rfl
    · rw [bit_setReg, bitOf_withBits_bit]
      rfl
  · refine ⟨_, exec_parseCrcDone checking, ?_, ?_, ?_,
      (onlyIn_setRegOf_plain _ _ _ _ _ _ (parProgCrc_not_inCntCfg i.isLt)).trans
        (onlyIn_setRegOf_plain _ _ _ _ _ _ (parProgCtrl_not_inCntCfg i.isLt))⟩
    · have apart : RegName.key .parProgCrc 0 i 0 ≠ RegName.key .parProgCtrl 0 i 0 := by
        simp only [RegName.key, RegName.addr, RegName.info, Bool.false_eq_true, if_false]
        omega
      exact (State.regOf_setRegOf_other _ apart).trans (State.reg_setReg _ _ _ _ _)
    · rw [bit_setReg, bitOf_withBits_bit]
      rfl
    · rw [bit_setReg, bitOf_withBits_bit]
      rfl

end Sys2Proof.Claims

/-! Family 05, the rule search: the best rule, its parity and poison (R149, R151, R160, R161, R162, R164) -/

namespace Sys2Proof.Claims

open Sys2Proof.Machine

set_option Elab.async false

/-! The winner of a list of candidates (R151) -/

/-- A candidate's rank: a higher priority first, then a lower logical entry number. -/
def ruleRank (x : Nat × RuleCell) : ℕ ×ₗ ℕᵒᵈ := toLex (x.2.priority, OrderDual.toDual (x.1 / 1024 * 1024 + x.2.lrow))

theorem ruleRank_lt_iff (a b : Nat × RuleCell) : ruleRank a < ruleRank b ↔ a.2.priority < b.2.priority ∨
    (a.2.priority = b.2.priority ∧ b.1 / 1024 * 1024 + b.2.lrow < a.1 / 1024 * 1024 + a.2.lrow) := Prod.Lex.lt_iff

theorem ruleRank_le_iff (a b : Nat × RuleCell) : ruleRank a ≤ ruleRank b ↔ a.2.priority < b.2.priority ∨
    (a.2.priority = b.2.priority ∧ b.1 / 1024 * 1024 + b.2.lrow ≤ a.1 / 1024 * 1024 + a.2.lrow) := Prod.Lex.le_iff

/-- Of two candidates the later one wins only by a higher rank. -/
theorem betterRule_eq (a b : Nat × RuleCell) : betterRule a b = if ruleRank a < ruleRank b then b else a := by
  simp only [betterRule, ruleRank_lt_iff]
  split
  · next higher => rw [if_pos (.inl higher)]
  · split
    · next lower => rw [if_neg (by omega)]
    · split
      · next entry => rw [if_pos (.inr ⟨by omega, entry⟩)]
      · rw [if_neg (by omega)]

/-- The cells of tiles in `sel` that match a search, in the order of the table (R149). -/
def candidates (s : State) (sel : Nat → Bool) (p : ProfileCell) (hv : Bytes) (g : Gen) : List (Nat × RuleCell) :=
  s.tabs.rules.cells.filterMap fun c => (c.2.filter fun r => sel (c.1 / 1024) && r.matches p hv g).map fun r => (c.1, r)

theorem mem_candidates {s : State} {sel : Nat → Bool} {p : ProfileCell} {hv : Bytes} {g : Gen} {k : Nat} {c : RuleCell} :
    (k, c) ∈ candidates s sel p hv g ↔
      (k, some c) ∈ s.tabs.rules.cells ∧ sel (k / 1024) = true ∧ c.matches p hv g = true := by
  simp only [candidates, List.mem_filterMap, Option.map_eq_some_iff, Option.filter_eq_some_iff, Bool.and_eq_true]
  constructor
  · rintro ⟨⟨j, o⟩, listed, r, ⟨rfl, holds⟩, same⟩
    cases same
    exact ⟨listed, holds⟩
  · rintro ⟨listed, holds⟩
    exact ⟨_, listed, c, ⟨rfl, holds⟩, rfl⟩

/-- The candidates of one tile that is searched are those of the search that lie there. -/
theorem candidates_tile {s : State} {sel : Nat → Bool} {t : Nat} (selected : sel t = true) (p : ProfileCell) (hv : Bytes)
    (g : Gen) : candidates s (fun u => u = t) p hv g =
      (candidates s sel p hv g).filter fun x => x.1 / 1024 = t := by
  rw [candidates, candidates, List.filter_filterMap]
  refine List.filterMap_congr fun c _ => ?_
  obtain ⟨k, o⟩ := c
  cases o with
  | none => rfl
  | some r =>
    by_cases here : k / 1024 = t
    · cases hits : r.matches p hv g <;> simp [Option.filter, here, selected, hits]
    · cases hits : sel (k / 1024) && r.matches p hv g <;> simp [Option.filter, here, hits]

/-- A fold that keeps the better of the matching cells finds the first candidate of the highest rank. -/
theorem argmax_candidates (s : State) (sel : Nat → Bool) (p : ProfileCell) (hv : Bytes) (g : Gen) :
    (candidates s sel p hv g).argmax ruleRank = s.tabs.rules.cells.foldl (fun best c =>
      match c.2 with
      | some r =>
        if sel (c.1 / 1024) && r.matches p hv g then
          some (match best with
            | some b => betterRule b (c.1, r)
            | none => (c.1, r))
        else best
      | none => best) none := by
  rw [List.argmax, candidates, List.foldl_filterMap]
  congr 1
  funext best c
  obtain ⟨k, o⟩ := c
  cases o with
  | none => rfl
  | some r =>
    cases hit : sel (k / 1024) && r.matches p hv g with
    | false => simp [Option.filter, hit]
    | true =>
      cases best with
      | none => simp [Option.filter, hit, List.argAux]
      | some b =>
        simp only [Option.filter, hit, if_true, Option.map_some, List.argAux, betterRule_eq]
        split <;> rfl

theorem searchRules_eq (s : State) (p : ProfileCell) (hv : Bytes) (g : Gen) :
    s.searchRules p hv g = (candidates s (fun t => bitOf t p.tiles) p hv g).argmax ruleRank :=
  (argmax_candidates s _ p hv g).symm

theorem tileBest_eq (s : State) (p : ProfileCell) (hv : Bytes) (g : Gen) (t : Nat) :
    s.tileBest p hv g t = (candidates s (fun u => u = t) p hv g).argmax ruleRank :=
  (argmax_candidates s (fun u => u = t) p hv g).symm

/-- The first of the highest rank is also the first of the highest rank among those that share a property of it. -/
theorem argmax_filter {α β : Type} [LinearOrder β] {f : α → β} {q : α → Bool} {l : List α} {m : α}
    (h : m ∈ l.argmax f) (hq : q m = true) : m ∈ (l.filter q).argmax f := by
  induction l using List.reverseRecOn generalizing m with
  | nil => exact h
  | append_singleton l a ih =>
    rw [List.argmax_concat] at h
    cases best : l.argmax f with
    | none =>
      rw [best] at h
      obtain rfl : a = m := Option.some_inj.mp h
      rw [List.argmax_eq_none.mp best]
      simp [hq]
    | some b =>
      rw [best] at h
      change m ∈ (if f b < f a then some a else some b) at h
      by_cases wins : f b < f a
      · rw [if_pos wins] at h
        obtain rfl : a = m := Option.some_inj.mp h
        rw [List.filter_append, List.filter_cons_of_pos hq, List.filter_nil, List.argmax_concat]
        cases rest : (l.filter q).argmax f with
        | none => rfl
        | some c =>
          have listed : c ∈ l := List.mem_of_mem_filter (List.argmax_mem rest)
          exact if_pos (lt_of_le_of_lt (List.le_of_mem_argmax listed best) wins)
      · rw [if_neg wins] at h
        obtain rfl : b = m := Option.some_inj.mp h
        have kept := ih best hq
        rw [List.filter_append]
        by_cases ha : q a = true
        · rw [List.filter_cons_of_pos ha, List.filter_nil, List.argmax_concat, kept]
          exact if_neg wins
        · rwa [List.filter_cons_of_neg ha, List.filter_nil, List.append_nil]

theorem mem_tilesOf {t tiles : Nat} : t ∈ tilesOf tiles ↔ t < 64 ∧ bitOf t tiles = true := by
  rw [tilesOf, List.mem_filter, List.mem_range]

/-- What a search finds is the winner of its own tile (R150). -/
theorem tileBest_of_searchRules {s : State} {p : ProfileCell} {hv : Bytes} {g : Gen} {k : Nat} {c : RuleCell}
    (found : s.searchRules p hv g = some (k, c)) : s.tileBest p hv g (k / 1024) = some (k, c) := by
  rw [searchRules_eq] at found
  obtain ⟨-, selected, -⟩ := mem_candidates.mp (List.argmax_mem found)
  rw [tileBest_eq, candidates_tile (sel := fun t => bitOf t p.tiles) selected]
  exact argmax_filter found (decide_eq_true rfl)

/-- The rule found is checked in every tile of its join (R160). -/
theorem mem_checkedCells {s : State} {x : Frame} {j k : Nat} {p : ProfileCell} {c : RuleCell}
    (profile : s.profIn (byteAt x.hv 4 % 32) x.gen = some (j, p)) (found : s.searchRules p x.hv x.gen = some (k, c))
    (small : k < 65536) {i : Nat} (inside : i < joinSpan (s.widthAt (k / 1024))) :
    (k / 1024 + i, k % 1024) ∈ s.checkedCells x := by
  have won := found
  rw [searchRules_eq] at won
  obtain ⟨-, selected, -⟩ := mem_candidates.mp (List.argmax_mem won)
  have tile : k / 1024 ∈ tilesOf p.tiles := mem_tilesOf.mpr ⟨by omega, selected⟩
  simp only [State.checkedCells, profile]
  exact List.mem_flatMap.mpr ⟨(k, c), List.mem_filterMap.mpr ⟨_, tile, tileBest_of_searchRules found⟩,
    List.mem_map.mpr ⟨i, List.mem_range.mpr inside, rfl⟩⟩

/-! Poison and the parity checks (R160, R161) -/

theorem mem_poisonRule (s : State) (q cell : Nat) :
    poisonKey q cell ∈ (s.poisonRule q cell).tabs.rulePoison := by
  simp only [State.poisonRule]
  split
  · next held => exact List.contains_iff_mem.mp held
  · exact List.mem_append_right _ List.mem_cons_self

theorem mem_poisonRule_of_mem {s : State} {k : Nat} (held : k ∈ s.tabs.rulePoison) (q cell : Nat) :
    k ∈ (s.poisonRule q cell).tabs.rulePoison := by
  simp only [State.poisonRule]
  split
  · exact held
  · exact List.mem_append_left _ held

theorem onlyIn_poisonRule (s : State) (q cell : Nat) : OnlyIn [.tabs] s (s.poisonRule q cell) := by
  simp only [State.poisonRule]
  split
  · exact .refl _ _
  · exact onlyIn_setTabs _ _

/-- What a failed check of a rule cell may change. -/
abbrev parityParts : List Part := .tabs :: faultParts

/-- A tile's check: Saggar may hear of it, and no cell is restored. -/
structure ChecksParity (s t : State) : Prop where
  only : OnlyIn parityParts s t
  kept : ∀ k ∈ s.tabs.rulePoison, k ∈ t.tabs.rulePoison

theorem ChecksParity.refl (s : State) : ChecksParity s s := ⟨.refl _ _, fun _ held => held⟩

theorem ChecksParity.trans {s t u : State} (h : ChecksParity s t) (k : ChecksParity t u) : ChecksParity s u :=
  ⟨h.only.trans k.only, fun n held => k.kept n (h.kept n held)⟩

theorem checksParity_of_faultParts {s t : State} (h : OnlyIn faultParts s t) : ChecksParity s t :=
  ⟨h.mono, fun k held => h.tabs_eq ▸ held⟩

theorem checksParity_poisonRule (s : State) (q cell : Nat) : ChecksParity s (s.poisonRule q cell) :=
  ⟨(onlyIn_poisonRule s q cell).mono, fun _ held => mem_poisonRule_of_mem held q cell⟩

theorem checksParity_tileCheck (s : State) (q t c n : Nat) : ChecksParity s (s.tileCheck q t c n).2 := by
  have taken : ChecksParity s (s.takeCorrupts (s.tileSource q t) (4 - n)).2 :=
    checksParity_of_faultParts (onlyIn_takeCorrupts _ _ _).mono
  simp only [State.tileCheck]
  split
  · exact taken
  · refine taken.trans ?_
    split
    · exact (checksParity_of_faultParts (onlyIn_fault _ _ _ _)).trans (checksParity_poisonRule _ _ _)
    · exact checksParity_of_faultParts (onlyIn_fault _ _ _ _)

/-- The fourth failure in a row poisons the cell (R161). -/
theorem tileCheck_poisons (s : State) (q t c : Nat) :
    poisonKey q (t * 1024 + c) ∈ (s.tileCheck q t c 4).2.tabs.rulePoison := by
  have four : ¬ 4 + (s.takeCorrupts (s.tileSource q t) (4 - 4)).1 = 0 := by omega
  simp only [State.tileCheck, four, if_false]
  rw [if_pos (by omega)]
  exact mem_poisonRule _ _ _

theorem checksParity_tileChecks (s : State) (q : Nat) (fails : List (Fin 64 × Nat)) (l : List (Nat × Nat)) :
    ChecksParity s (s.tileChecks q fails l).2 := by
  induction l generalizing s with
  | nil => exact .refl s
  | cons x l ih => exact (checksParity_tileCheck s q x.1 x.2 _).trans (ih _)

/-- Every cell checked in a tile that fails four times is poisoned there. -/
theorem tileChecks_poisons (s : State) (q : Nat) {x : Fin 64} {c : Nat} {l : List (Nat × Nat)} (listed : (x.val, c) ∈ l) :
    poisonKey q (x.val * 1024 + c) ∈ (s.tileChecks q [(x, 4)] l).2.tabs.rulePoison := by
  induction l generalizing s with
  | nil => cases listed
  | cons y l ih =>
    rcases List.mem_cons.mp listed with rfl | later
    · have four : ((([(x, 4)] : List (Fin 64 × Nat)).find? fun y => y.1.val = x.val).map Prod.snd).getD 0 = 4 := by simp
      refine (checksParity_tileChecks _ q [(x, 4)] l).kept _ ?_
      rw [four]
      exact tileCheck_poisons s q x.val c
    · exact ih _ later

/-- Where no source is corrupt and no parity fails, the checks ask for no reissue. -/
theorem tileChecks_sound {s : State} (sound : ∀ n, s.flt.corrupt.get 0 n = 0) (q : Nat) (l : List (Nat × Nat)) :
    s.tileChecks q [] l = (0, s) := by
  induction l with
  | nil => rfl
  | cons x l ih => simp [State.tileChecks, State.tileCheck, State.takeCorrupts, sound, ih]

/-! The answer of a search (R148, R151, R162, R164) -/

theorem back_ruleAnswer (s : State) (q : Nat) (x : Frame) : (s.ruleAnswer q x).back = true := by
  have choose (c : Prop) [Decidable c] {a b : Answer} (ha : a.back = true) (hb : b.back = true) :
      (if c then a else b).back = true := by
    split
    · exact ha
    · exact hb
  simp only [State.ruleAnswer]
  split
  · rfl
  · refine choose _ rfl (choose _ rfl (choose _ rfl ?_))
    split <;> rfl

/-- The state with the reissues counted. -/
def countReissues (s : State) (slice n : Nat) : State :=
  if n = 0 then s else (s.bumpBy (cntRsa (slice / 4) 6) n).pmcCount 2 slice 3 n

theorem onlyIn_countReissues (s : State) (slice n : Nat) : OnlyIn [.cnts, .cntCfg] s (countReissues s slice n) := by
  simp only [countReissues]
  split
  · exact .refl _ _
  · exact (onlyIn_bumpBy _ _ _).mono.trans (onlyIn_pmcCount _ _ _ _ _)

/-- The state once the winning cells of a search have been checked and the reissues counted. -/
def searched (s : State) (x : Frame) (fails : List (Fin 64 × Nat)) : State :=
  let checks := s.tileChecks (x.slice / 4) fails (s.checkedCells x)
  countReissues checks.2 x.slice checks.1

theorem exec_rsaSearchResult {s : State} {f : Nat} (issued : (s.frame f).issued = true)
    (waits : (s.frame f).rule.back = false) (landing : (s.frame f).ing = .landing) (fails : List (Fin 64 × Nat)) :
    exec (.rsaSearchResult f fails) s = .next ((searched s (s.frame f) fails).setFrame f { s.frame f with
      rule := (searched s (s.frame f) fails).ruleAnswer ((s.frame f).slice / 4) (s.frame f) }) :=
  congrArg Host.Outcome.next (if_neg (by simp [issued, waits, landing]))

theorem searched_sound {s : State} (sound : ∀ n, s.flt.corrupt.get 0 n = 0) (x : Frame) : searched s x [] = s := by
  simp only [searched, tileChecks_sound sound, countReissues, if_true]

/-! The scrub (R160) -/

/-- The state once the scrub has met a cell whose parity fails. -/
def scrubFailed (s : State) (q t k : Nat) : State :=
  (if s.tabs.ruleRestored.contains (poisonKey q k) then s.fault (s.tileSource q t) 0 0 else s).poisonRule q k

theorem onlyIn_scrubFailed (s : State) (q t k : Nat) : OnlyIn parityParts s (scrubFailed s q t k) := by
  refine OnlyIn.trans ?_ (onlyIn_poisonRule _ _ _).mono
  split
  · exact (onlyIn_fault _ _ _ _).mono
  · exact .refl _ _

theorem exec_tileScrubStep {s : State} {q : Quad} {x : Fin 64} {c : Fin 1024} (on : s.mode ≠ .standby)
    (midLap : ¬ (x.val = 63 ∧ c.val = 1023)) (parityOk : Bool) :
    exec (.tileScrubStep q x c parityOk) s =
      .next (if parityOk then s else scrubFailed s q x (x.val * 1024 + c.val)) :=
  congrArg Host.Outcome.next ((if_neg on).trans (if_neg midLap))

/-- Settles O20: the search and each tile keep the first candidate of the highest rank (`searchRules_eq`,
`tileBest_of_searchRules`). -/
theorem ruleSearchReturnsTheBestRule : Obligations.RuleSearchReturnsTheBestRule := by
  unfold Obligations.RuleSearchReturnsTheBestRule
  refine ⟨fun f s issued waits landing sound => ?_, fun p hv g k c s found => ?_, fun p hv g s none k c listed selected => ?_,
    fun x j k p c s profile found small i inside => mem_checkedCells profile found small inside,
    fun f c x s issued waits landing checked => ?_, fun q x c s on midLap => ⟨?_, ?_⟩⟩
  · have run := exec_rsaSearchResult issued waits landing []
    rw [searched_sound sound] at run
    refine ⟨_, run, ?_, fun noProfile => ?_, fun j p profile => ?_, fun g other => State.frame_setFrame_other _ _ other,
      onlyIn_setFrame _ _ _⟩
    · rw [State.frame_setFrame]
      exact back_ruleAnswer _ _ _
    · simp only [State.frame_setFrame, State.ruleAnswer, noProfile, and_self]
    · simp only [State.frame_setFrame, State.ruleAnswer, profile]
      refine ⟨fun bad => ?_, fun good lost => ?_, fun good whole poisoned => ?_, fun good whole clean => ?_⟩
      · simp only [bad, if_true, and_self]
      · simp only [good, lost, if_true, if_false, Bool.false_eq_true, and_self]
      · simp only [good, whole, poisoned, if_true, if_false, Bool.false_eq_true, and_self]
      · simp only [good, whole, clean, if_false, Bool.false_eq_true]
        cases s.searchRules p (s.frame f).hv (s.frame f).gen with
        | none => exact ⟨rfl, rfl⟩
        | some best => exact ⟨rfl, rfl, rfl⟩
  · rw [searchRules_eq] at found
    obtain ⟨listed, selected, hit⟩ := mem_candidates.mp (List.argmax_mem found)
    refine ⟨listed, selected, hit, fun k' c' listed' selected' hit' => ?_⟩
    exact (ruleRank_le_iff (k', c') (k, c)).mp
      (List.le_of_mem_argmax (mem_candidates.mpr ⟨listed', selected', hit'⟩) found)
  · rw [searchRules_eq, List.argmax_eq_none] at none
    refine Bool.eq_false_iff.mpr fun hit => ?_
    have : (k, c) ∈ candidates s (fun t => bitOf t p.tiles) p hv g := mem_candidates.mpr ⟨listed, selected, hit⟩
    rw [none] at this
    cases this
  · have checks := checksParity_tileChecks s ((s.frame f).slice / 4) [(x, 4)] (s.checkedCells (s.frame f))
    have counted := onlyIn_countReissues (s.tileChecks ((s.frame f).slice / 4) [(x, 4)] (s.checkedCells (s.frame f))).2
      (s.frame f).slice (s.tileChecks ((s.frame f).slice / 4) [(x, 4)] (s.checkedCells (s.frame f))).1
    refine ⟨_, exec_rsaSearchResult issued waits landing [(x, 4)], ?_, ?_,
      (checks.only.mono.trans counted.mono).trans (onlyIn_setFrame _ _ _).mono⟩
    · rw [State.setFrame_tabs, searched, counted.tabs_eq]
      exact List.contains_iff_mem.mpr (tileChecks_poisons s _ checked)
    · rw [State.frame_setFrame]
      exact back_ruleAnswer _ _ _
  · exact exec_tileScrubStep on midLap true
  · exact ⟨_, exec_tileScrubStep on midLap false, List.contains_iff_mem.mpr (mem_poisonRule _ _ _),
      (onlyIn_scrubFailed _ _ _ _).mono⟩

end Sys2Proof.Claims

/-! Family 05, the combined result: a refutation at a state the device does not reach

As for the family of chapter 07, a frame's slice is a number without a bound, and from quad 0x240E0 on the keys of a
quad's counters of Table 06.20 are those of general counters (Table 18.1). -/

namespace Sys2Proof.Claims

open Sys2Proof.Machine

set_option Elab.async false

/-- A quad number far beyond the 4 of the device: `cntEmt farQuad 0 = cntPmc 0`. -/
abbrev farQuad : Nat := 0x240E0

/-- A frame whose result is due. -/
def dueFrame : Frame :=
  { slice := 4 * farQuad, ing := .landing, ended := true, issued := true, rule := { back := true } }

/-- A frame whose lookups are due. -/
def waitingFrame : Frame := { ing := .landing, walk := { st := .accepted }, due := true }

/-- General counter 0 counts the lookups of quad 0. Frame 0 has no destination, and frame 1 of its port waits for it. -/
def noDestination : State :=
  { State.reset with
    regs := ⟨[(RegName.key .pmcCtrl 0 0 0, 1), (RegName.key .pmcCntCfg 0 0 0, 0x84000000)]⟩
    frames := ⟨[(0, dueFrame), (1, waitingFrame)]⟩ }

theorem plainResult_noDestination : PlainResult noDestination 0 :=
  ⟨by decide +kernel, by decide, by decide +kernel, by decide +kernel, by decide +kernel, by decide, by decide, by decide⟩

/-- Refutes O26: at `noDestination` the frame without a destination is discarded, the lookups of the frame behind it are
issued in the same step, and EMT_NOROUTE, which has the key of a general counter of lookups, is 2 more and not 1. -/
theorem not_resultsTakeTheirVerdict : ¬ Obligations.ResultsTakeTheirVerdict := by
  unfold Obligations.ResultsTakeTheirVerdict
  rintro ⟨-, noRoute, -⟩
  obtain ⟨t, run, -, count, -⟩ := noRoute 0 noDestination plainResult_noDestination (by decide +kernel)
  cases run
  exact absurd count (by decide +kernel)

end Sys2Proof.Claims

/-! Family 05, spare planes and rule tiles (R163, R164, R309, R310, R423, R425, Table 05.5) -/

namespace Sys2Proof.Claims

open Sys2Proof.Machine

set_option Elab.async false

/-! What a critical fault leaves (R431 to R436) -/

/-- The maps of units stay, and a squelch, once taken, stays. -/
structure StaysSquelched (s t : State) : Prop where
  units : t.units = s.units
  squelch : s.flt.squelch = true → t.flt.squelch = true

theorem StaysSquelched.refl (s : State) : StaysSquelched s s := ⟨rfl, id⟩

theorem StaysSquelched.trans {s t u : State} (h : StaysSquelched s t) (k : StaysSquelched t u) : StaysSquelched s u :=
  ⟨k.units.trans h.units, fun on => k.squelch (h.squelch on)⟩

theorem StaysSquelched.runOver {α : Type} {f : α → State → State} {l : List α}
    (h : ∀ a ∈ l, ∀ s, StaysSquelched s (f a s)) (s : State) : StaysSquelched s (Machine.runOver l f s) := by
  unfold Machine.runOver
  induction l generalizing s with
  | nil => exact .refl _
  | cons a l ih => exact (h a List.mem_cons_self s).trans (ih (fun b hb => h b (List.mem_cons_of_mem _ hb)) _)

/-- A step outside Saggar and the maps of units. -/
theorem OnlyIn.staysSquelched {ps : List Part} {s t : State} (h : OnlyIn ps s t)
    (hp : Part.units ∉ ps ∧ Part.flt ∉ ps := by decide) : StaysSquelched s t :=
  ⟨h .units hp.1, fun on => (congrArg Saggar.squelch (h .flt hp.2)).trans on⟩

/-- A step of Saggar that keeps the squelch. -/
theorem staysSquelched_flt {s : State} {x : Saggar} (kept : x.squelch = s.flt.squelch) :
    StaysSquelched s { s with flt := x } := ⟨rfl, fun on => kept.trans on⟩

theorem staysSquelched_kiln (s : State) (k : Kiln) : StaysSquelched s { s with kiln := k } := ⟨rfl, id⟩

theorem staysSquelched_setFsrc (s : State) (n : Nat) (x : FaultSource) : StaysSquelched s (s.setFsrc n x) :=
  staysSquelched_flt rfl

theorem staysSquelched_flushRecord (s : State) (n : Nat) (why : Reason) : StaysSquelched s (s.flushRecord n why) :=
  (staysSquelched_setFsrc _ _ _).trans (onlyIn_faultRecord _ _).staysSquelched

theorem staysSquelched_noteEvent (s : State) (n t cause detail : Nat) :
    StaysSquelched s (s.noteEvent n t cause detail) := staysSquelched_setFsrc _ _ _

theorem staysSquelched_heldRecord (s : State) (n : Nat) (why : Reason) : StaysSquelched s (s.heldRecord n why) := by
  simp only [State.heldRecord]
  split
  · exact .refl _
  · split
    · exact staysSquelched_flushRecord _ _ _
    · exact (staysSquelched_setFsrc _ _ _).trans (staysSquelched_flushRecord _ _ _)

theorem staysSquelched_countedEvents (s : State) (n t cause detail : Nat) (why : Reason) (k : Nat) :
    StaysSquelched s (s.countedEvents n t cause detail why k) := by
  induction k generalizing s with
  | zero => exact .refl _
  | succ k ih =>
    simp only [State.countedEvents]
    refine (staysSquelched_noteEvent s n t cause detail).trans ?_
    split
    · exact (staysSquelched_flushRecord _ _ _).trans (ih _)
    · exact (staysSquelched_heldRecord _ _ _).trans (ih _)

/-- Events of a source that is never retired. -/
theorem staysSquelched_faultEventAt {n : Nat} (kept : sourceKind n ≠ .retirable) (s : State) (cause detail k t : Nat) :
    StaysSquelched s (s.faultEventAt n cause detail k t) := by
  simp only [State.faultEventAt]
  split
  · exact .refl _
  · refine (staysSquelched_setFsrc s n { s.fsrc n with flag := true }).trans ?_
    split
    · exact staysSquelched_setFsrc _ _ _
    · split
      · exact (onlyIn_bumpBy _ _ _).staysSquelched.trans (staysSquelched_countedEvents _ _ _ _ _ _ _)
      · exact staysSquelched_countedEvents _ _ _ _ _ _ _
    · exact ((onlyIn_bumpBy _ _ _).staysSquelched.trans (staysSquelched_kiln _ _)).trans
        (staysSquelched_countedEvents _ _ _ _ _ _ _)
    · exact (onlyIn_bumpBy _ _ _).staysSquelched
    · next retirable => exact absurd retirable kept


theorem staysSquelched_haltComplete (s : State) (r : Nat) (d : Bytes) (st : Status) (info : Nat) (result : Bytes) :
    StaysSquelched s (s.haltComplete r d st info result) := (onlyIn_haltComplete _ _ _ _ _ _).staysSquelched

theorem staysSquelched_handOn (s : State) (r : Nat) : StaysSquelched s (s.handOn r) := by
  have taken (x : RingState) : StaysSquelched s (s.setRing r x) := (onlyIn_setRing _ _ _).staysSquelched
  simp only [State.handOn]
  split
  · exact .refl _
  · split
    · exact .refl _
    · split
      · refine StaysSquelched.trans ?_ (staysSquelched_haltComplete _ _ _ _ _ _)
        split
        · exact (taken _).trans (staysSquelched_faultEventAt (by decide) _ _ _ _ _)
        · exact taken _
      · exact (taken _).trans (onlyIn_setRing _ _ _).staysSquelched

theorem staysSquelched_complete (s : State) (r : Nat) (st : Status) : StaysSquelched s (s.complete r st) := by
  simp only [State.complete]
  split
  · exact .refl _
  · split
    · exact staysSquelched_haltComplete _ _ _ _ _ _
    · split
      · exact ((onlyIn_plainComplete _ _ _ _ _ _).trans (onlyIn_abortFetched _ _)).staysSquelched
      · exact (onlyIn_plainComplete _ _ _ _ _ _).staysSquelched.trans (staysSquelched_handOn _ _)

theorem staysSquelched_criticalRecord (s : State) (n : Nat) : StaysSquelched s (s.criticalRecord n) :=
  (staysSquelched_noteEvent _ _ _ _ _).trans (staysSquelched_flushRecord _ _ _)

theorem staysSquelched_latchCause (s : State) (n : Nat) : StaysSquelched s (s.latchCause n) := by
  simp only [State.latchCause]
  split <;> exact staysSquelched_flt rfl

theorem staysSquelched_squelchPort (p : Nat) (s : State) : StaysSquelched s (squelchPort p s) := by
  have cut (x : PortState) : StaysSquelched s ((s.emit (.lineCut p)).setPort p x) :=
    (onlyIn_emit _ _).staysSquelched.trans (onlyIn_setPort _ _ _).staysSquelched
  simp only [squelchPort]
  split
  · split
    · exact (cut _).trans (onlyIn_discard _ _).staysSquelched
    · exact (cut _).trans (onlyIn_modFrame _ _ _).staysSquelched
  · exact .refl _

theorem staysSquelched_abortModeCommand (s : State) : StaysSquelched s s.abortModeCommand :=
  .runOver (fun r _ s => by
    split
    · exact staysSquelched_complete _ _ _
    · exact .refl _) s

theorem staysSquelched_purge (s : State) : StaysSquelched s s.purge := by
  have discards (l : List Nat) : StaysSquelched s (runOver l (fun f s => (s.bump (cntFlt 2)).discard f) s) :=
    .runOver (fun f _ s => (onlyIn_bump_discard s (cntFlt 2) f).staysSquelched) s
  have resets (l : List Nat) (s : State) : StaysSquelched s (runOver l (fun p s => s.resetVoqs p) s) :=
    .runOver (fun p _ s => (onlyIn_bpm s _).staysSquelched) s
  exact ((discards _).trans (resets _ _)).trans (onlyIn_panicSync _).staysSquelched

theorem staysSquelched_records (l : List Nat) (s : State) :
    StaysSquelched s (runOver l (fun n s => s.criticalRecord n) s) :=
  .runOver (fun n _ s => staysSquelched_criticalRecord s n) s

theorem staysSquelched_enterSafe (s : State) (sources : List Nat) : StaysSquelched s (s.enterSafe sources) := by
  have entry (s : State) : StaysSquelched s ((({ s with mode := .safe }).bump (cntFlt 1)).kilnLog 0x0005 3
      (leBytes 2 (sources.headD 0) ++ [1])) :=
    ((onlyIn_mode s .safe).staysSquelched.trans (onlyIn_bump _ _).staysSquelched).trans
      (onlyIn_kilnLog _ _ _ _).staysSquelched
  have drops (s : State) : StaysSquelched s s.dropCaches := ⟨rfl, id⟩
  simp only [State.enterSafe]
  refine StaysSquelched.trans ?_ (onlyIn_eicEvent _ _).staysSquelched
  refine StaysSquelched.trans ?_ (drops _)
  refine StaysSquelched.trans ?_ (staysSquelched_purge _)
  exact (((staysSquelched_records _ s).trans (entry _)).trans (staysSquelched_abortModeCommand _)).trans
    (staysSquelched_records _ _)

/-- Every transmitter is squelched in `t`, with the units of `s`. -/
structure Squelched (s t : State) : Prop where
  units : t.units = s.units
  squelch : t.flt.squelch = true

theorem Squelched.trans {s t u : State} (h : Squelched s t) (k : StaysSquelched t u) : Squelched s u :=
  ⟨k.units.trans h.units, k.squelch h.squelch⟩

theorem StaysSquelched.squelched {s t u : State} (h : StaysSquelched s t) (k : Squelched t u) : Squelched s u :=
  ⟨k.units.trans h.units, k.squelch⟩

theorem squelched_squelchAll (s : State) : Squelched s s.squelchAll := by
  have ports : StaysSquelched { s with flt := { s.flt with squelch := true } } s.squelchAll :=
    .runOver (fun p _ s => staysSquelched_squelchPort p s) _
  exact ⟨ports.units, ports.squelch rfl⟩

/-- A critical line that asserts outside reset squelches every transmitter and replaces no unit. -/
theorem squelched_criticalLine {s : State} {n : Nat} (fresh : n ∉ s.flt.lines) (on : s.mode ≠ .reset)
    (kind : sourceKind n = .critical) : Squelched s (s.criticalLine n) := by
  unfold State.criticalLine State.critical
  extract_lets new flt raised latched squelched squelchedFlt asserted assertedFlt
  have one : new = [n] := by simp [new, State.newLines, fresh]
  have raises : StaysSquelched s raised := staysSquelched_flt rfl
  have latches : StaysSquelched raised latched := .runOver (fun m hm s => by
    rw [one, List.mem_singleton] at hm
    subst hm
    exact (staysSquelched_faultEventAt (by rw [kind]; decide) _ _ _ _ _).trans (staysSquelched_latchCause _ _)) raised
  have squelches : Squelched s squelched := (raises.trans latches).squelched (squelched_squelchAll latched)
  have same : squelchedFlt = squelched.flt := rfl
  clear_value squelchedFlt squelched
  subst same
  have asserts : Squelched s asserted := squelches.trans (staysSquelched_flt rfl)
  rw [if_neg (by simpa [one] using on)]
  have same : assertedFlt = asserted.flt := rfl
  clear_value assertedFlt asserted
  subst same
  refine asserts.trans ?_
  split
  · exact staysSquelched_flt rfl
  · exact staysSquelched_records _ _
  · exact staysSquelched_records _ _
  · exact staysSquelched_enterSafe _ _

/-! Planes (R309, R310) -/

theorem onlyIn_units (s : State) (x : Units) : OnlyIn [.units] s { s with units := x } := by
  intro p hp
  have same := SamePart.refl s p
  cases p
  case units => exact absurd List.mem_cons_self hp
  all_goals exact same

theorem onlyIn_fabUnits (s : State) (x : Fabric) (y : Units) :
    OnlyIn [.fab, .units] s { s with fab := x, units := y } :=
  (onlyIn_fab s x).mono.trans (onlyIn_units { s with fab := x } y).mono

/-- The check's cell times have passed, and the spare serves the plane's position. -/
def planeTaken (s : State) (c : PlaneCheck) : State :=
  let left := c.n0 + 4096 - s.fab.cellTime
  let s := s.advance (left * s.cellNs)
  { s with
    fab := { s.fab with check := none, cellTime := s.fab.cellTime + left }
    units := { s.units with planes := s.units.planes.swap c.plane (some c.spare) } }

theorem onlyIn_planeTaken (s : State) (c : PlaneCheck) : OnlyIn [.time, .fab, .units] s (planeTaken s c) :=
  (onlyIn_advance s _).mono.trans (onlyIn_fabUnits _ _ _).mono

theorem exec_planeCheckEnd_good {s : State} {c : PlaneCheck} (checking : s.fab.check = some c) :
    exec (.planeCheckEnd true) s = .next ((planeTaken s c).noteRetired c.plane c.spare) := by
  simp only [exec, execPlaneCheckEnd, checking, if_true]
  rfl

/-- The spare of a plane's check is retired, and the check starts again. -/
def planeRechecked (s : State) (c : PlaneCheck) : State :=
  let s := { s with units := { s.units with planes := { s.units.planes with retired := s.units.planes.retired ++ [c.spare] } } }
  (s.rejectSpare c.spare).startPlaneCheck c.plane

/-- Without a spare left the category is degraded. -/
def planeRefused (s : State) (c : PlaneCheck) : State :=
  if (planeRechecked s c).fab.check.isSome then planeRechecked s c else (planeRechecked s c).degrade c.plane

theorem exec_planeCheckEnd_bad {s : State} {c : PlaneCheck} (checking : s.fab.check = some c) :
    exec (.planeCheckEnd false) s = .next (planeRefused s c) := by
  simp only [exec, execPlaneCheckEnd, checking, Bool.false_eq_true, if_false]
  rfl

theorem onlyIn_planeRechecked (s : State) (c : PlaneCheck) :
    OnlyIn (.units :: .fab :: faultParts) s (planeRechecked s c) :=
  ((onlyIn_units _ _).mono.trans (onlyIn_rejectSpare _ _).mono).trans (onlyIn_fab _ _).mono

theorem units_planeRechecked (s : State) (c : PlaneCheck) : (planeRechecked s c).units =
    { s.units with planes := { s.units.planes with retired := s.units.planes.retired ++ [c.spare] } } :=
  onlyIn_rejectSpare _ _ .units (by decide)

/-- The check starts again with the lowest spare that is left, if one is. -/
theorem check_planeRechecked (s : State) (c : PlaneCheck) : (planeRechecked s c).fab.check =
    ((planeRechecked s c).units.planes.spares 18).head?.map fun v => ⟨c.plane, v, s.fab.cellTime⟩ := by
  have fab (u : State) : (u.rejectSpare c.spare).fab = u.fab := onlyIn_rejectSpare _ _ .fab (by decide)
  simp only [planeRechecked, State.startPlaneCheck, fab]
  split
  · next left => rw [left]; rfl
  · next left => rw [left]; rfl

theorem onlyIn_planeRefused (s : State) (c : PlaneCheck) : OnlyIn faultParts (planeRechecked s c) (planeRefused s c) := by
  simp only [planeRefused]
  split
  · exact .refl _ _
  · exact onlyIn_degrade _ _

theorem mem_degraded_degrade (s : State) (n : Nat) : sourceCat n ∈ (s.degrade n).flt.degraded :=
  List.contains_iff_mem.mp (degraded_degrade s n)

theorem not_running_endRetirement (s : State) (n : Nat) : n ∉ (s.endRetirement n).flt.running := fun runs =>
  absurd (List.contains_iff_mem.mpr runs) (by rw [running_endRetirement]; exact Bool.false_ne_true)

/-- A plane that gives up its position leaves it empty. -/
def planeEmptied (s : State) (k : Nat) : State := { s with units := { s.units with planes := s.units.planes.swap k none } }

theorem exec_planeRemove {s : State} {k : Fin 18} (runs : s.flt.running.contains k.val = true)
    (serves : s.units.planes.pos.contains (some k.val) = true) (alone : s.units.planes.spares 18 = [])
    (idle : s.fab.check = none) : exec (.planeRemove k) s = .next
      (if s.planesInUse = 1 then s.criticalLine 0x4F2 else (planeEmptied s k).endRetirement k) :=
  congrArg Host.Outcome.next (if_neg (by rw [runs, serves, alone, idle]; decide))

/-! Rule tiles (R163, R164, Table 05.5) -/

/-- The physical tile that a copy is to replace. -/
def copiedTile (s : State) (q : Quad) (c : TileCopy) : Nat := ((s.tileMap q).pos.getD c.tile none).getD c.tile

/-- The spare serves the tile's position, whose cells are poisoned no more. -/
def tileTaken (s : State) (q : Quad) (c : TileCopy) : State :=
  let here := fun k => k / 65536 = q.val && k % 65536 / 1024 = c.tile
  let s := (s.setTileMap q ((s.tileMap q).swap (copiedTile s q c) (some c.spare))).setCopy q none
  s.setTabs { s.tabs with
    rulePoison := s.tabs.rulePoison.filter (!here ·)
    ruleRestored := s.tabs.ruleRestored.filter (!here ·) }

theorem onlyIn_tileTaken (s : State) (q : Quad) (c : TileCopy) : OnlyIn [.units, .tabs] s (tileTaken s q c) :=
  ((onlyIn_setTileMap _ _ _).mono.trans (onlyIn_setCopy _ _ _).mono).trans (onlyIn_setTabs _ _).mono

theorem exec_tileCopyDone_good {s : State} {q : Quad} {c : TileCopy} (copy : s.tabs.copies.get none q = some c)
    (whole : 1024 ≤ c.cell) (alive : s.tabs.dead = false) :
    exec (.tileCopyDone q true) s = .next ((tileTaken s q c).noteRetired c.source c.spare) := by
  simp only [exec, execTileCopyDone, copy, alive, Bool.or_false, decide_eq_true_eq, if_neg (Nat.not_lt.mpr whole), if_true]
  rfl

theorem mem_rulePoison_tileTaken {s : State} {q : Quad} {c : TileCopy} {k : Nat}
    (held : k ∈ (tileTaken s q c).tabs.rulePoison) :
    k ∈ s.tabs.rulePoison ∧ ¬ (k / 65536 = q.val ∧ k % 65536 / 1024 = c.tile) := by
  obtain ⟨held, elsewhere⟩ := List.mem_filter.mp held
  exact ⟨held, fun ⟨quad, tile⟩ => by simp [quad, tile] at elsewhere⟩

/-- The spare of a tile's copy is retired. -/
def tileRejected (s : State) (q : Quad) (c : TileCopy) : State :=
  (s.setTileMap q { s.tileMap q with retired := (s.tileMap q).retired ++ [c.spare] }).rejectSpare
    (0x210 + 68 * q.val + c.spare)

theorem onlyIn_tileRejected (s : State) (q : Quad) (c : TileCopy) :
    OnlyIn (.units :: faultParts) s (tileRejected s q c) :=
  (onlyIn_setTileMap _ _ _).mono.trans (onlyIn_rejectSpare _ _).mono

theorem tileMap_of_units {s t : State} (h : t.units = s.units) (i : Nat) : t.tileMap i = s.tileMap i := by
  rw [State.tileMap, h, State.tileMap]

theorem tileMap_tileRejected (s : State) (q : Quad) (c : TileCopy) :
    (tileRejected s q c).tileMap q = { s.tileMap q with retired := (s.tileMap q).retired ++ [c.spare] } :=
  (tileMap_of_units (onlyIn_rejectSpare _ _ .units (by decide)) q).trans (State.tileMap_setTileMap _ _ _)

theorem exec_tileCopyDone_bad {s : State} {q : Quad} {c : TileCopy} (copy : s.tabs.copies.get none q = some c)
    (whole : 1024 ≤ c.cell) (alive : s.tabs.dead = false) : exec (.tileCopyDone q false) s =
      .next ((tileRejected s q c).startTileCopy q c.source (copiedTile s q c) c.tile) := by
  simp only [exec, execTileCopyDone, copy, alive, Bool.or_false, decide_eq_true_eq, if_neg (Nat.not_lt.mpr whole),
    Bool.false_eq_true, if_false]
  rfl

theorem onlyIn_loseTile (s : State) (q n p : Nat) : OnlyIn (.units :: faultParts) s (s.loseTile q n p) :=
  ((onlyIn_setTileMap _ _ _).mono.trans (onlyIn_endRetirement _ _).mono).trans (onlyIn_degrade _ _).mono

/-- A tile without a spare left is lost. -/
theorem tileMap_loseTile (s : State) (q n p : Nat) : (s.loseTile q n p).tileMap q = (s.tileMap q).swap p none := by
  have after := (onlyIn_endRetirement (s.setTileMap q ((s.tileMap q).swap p none)) n).mono.trans (onlyIn_degrade _ n)
  exact (tileMap_of_units (after .units (by decide)) q).trans (State.tileMap_setTileMap _ _ _)

theorem copy_setCopy (s : State) (q : Nat) (c : Option TileCopy) : (s.setCopy q c).tabs.copies.get none q = c :=
  Tab.get_set_same _ _ _ _

/-- Settles O36. -/
theorem planesAndTilesAreReplaced : Obligations.PlanesAndTilesAreReplaced := by
  unfold Obligations.PlanesAndTilesAreReplaced
  refine ⟨fun c s checking => ?_, fun c s checking => ?_, fun k s runs serves alone idle => ⟨fun others => ?_,
    fun last on fresh => ?_⟩, fun q c s copy whole alive => ?_, fun q c s copy whole alive => ?_⟩
  · have noted := onlyIn_noteRetired (planeTaken s c) c.plane c.spare
    have fab : ((planeTaken s c).noteRetired c.plane c.spare).fab = (planeTaken s c).fab := noted .fab (by decide)
    refine ⟨_, exec_planeCheckEnd_good checking, noted .units (by decide), ?_, ?_, retired_noteRetired _ _ _, fun runs => ?_,
      (onlyIn_planeTaken s c).mono.trans noted.mono⟩
    · rw [fab]
      rfl
    · have later : s.fab.cellTime + (c.n0 + 4096 - s.fab.cellTime) = max s.fab.cellTime (c.n0 + 4096) := by omega
      rw [fab]
      exact later
    · rw [noteRetired_flt] at runs
      exact not_running_endRetirement _ _ runs
  · have refused := onlyIn_planeRefused s c
    have units : (planeRefused s c).units = (planeRechecked s c).units := refused .units (by decide)
    have fab : (planeRefused s c).fab = (planeRechecked s c).fab := refused .fab (by decide)
    have check := check_planeRechecked s c
    refine ⟨_, exec_planeCheckEnd_bad checking, units.trans (units_planeRechecked s c), ?_,
      (onlyIn_planeRechecked s c).mono.trans refused.mono⟩
    rw [units, fab]
    cases left : (planeRechecked s c).units.planes.spares 18 with
    | cons v rest =>
      rw [left] at check
      exact check
    | nil =>
      rw [left] at check
      refine ⟨check, ?_⟩
      rw [planeRefused, check]
      exact mem_degraded_degrade _ _
  · rw [exec_planeRemove runs serves alone idle, if_neg others]
    exact ⟨_, rfl, rfl, retired_endRetirement _ _, not_running_endRetirement _ _,
      (onlyIn_units _ _).mono.trans (onlyIn_endRetirement _ _).mono⟩
  · rw [exec_planeRemove runs serves alone idle, if_pos last]
    obtain ⟨units, squelch⟩ := squelched_criticalLine fresh on (by decide)
    exact ⟨_, rfl, squelch, units⟩
  · have noted := onlyIn_noteRetired (tileTaken s q c) c.source c.spare
    have units := tileMap_of_units (noted .units (by decide))
    refine ⟨_, exec_tileCopyDone_good copy whole alive, ?_, ?_, fun i other => ?_, fun k held => ?_,
      retired_noteRetired _ _ _, (onlyIn_tileTaken s q c).mono.trans noted.mono⟩
    · rw [noted.tabs_eq]
      exact copy_setCopy _ _ _
    · rw [units]
      exact State.tileMap_setTileMap _ _ _
    · rw [units]
      exact State.tileMap_setTileMap_other _ _ (Fin.val_ne_of_ne other)
    · rw [noted.tabs_eq] at held
      exact mem_rulePoison_tileTaken held
  · have map := tileMap_tileRejected s q c
    have rejected := onlyIn_tileRejected s q c
    refine ⟨_, exec_tileCopyDone_bad copy whole alive, ?_⟩
    simp only [State.startTileCopy, map]
    cases left : UnitMap.spares { s.tileMap q with retired := (s.tileMap q).retired ++ [c.spare] } 68 with
    | cons v rest =>
      exact ⟨⟨copy_setCopy _ _ _, map⟩, rejected.mono.trans (onlyIn_setCopy _ _ _).mono⟩
    | nil =>
      have lost := onlyIn_loseTile ((tileRejected s q c).setCopy q none) q c.source (copiedTile s q c)
      refine ⟨⟨?_, ?_⟩, (rejected.mono.trans (onlyIn_setCopy _ _ _).mono).trans lost.mono⟩
      · rw [lost.tabs_eq]
        exact copy_setCopy _ _ _
      · rw [tileMap_loseTile]
        exact congrArg (UnitMap.swap · _ _) map

end Sys2Proof.Claims

/-! SUPPORT, and O23: results of exact-match and route lookups, learned entries, and the learn filter (R170 to R173,
R188 to R191, R198). -/

namespace Sys2Proof.Claims

open Sys2Proof.Machine

set_option Elab.async false

/-! Slots and their HIT -/

theorem tabs_setSlot (s : State) (k : Nat) (x : Option EmSlot) :
    (s.setSlot k x).tabs = { s.tabs with em := s.tabs.em.set none k x } :=
  (onlyIn_shadowPut (s.setTabs { s.tabs with em := s.tabs.em.set none k x }) _ _).tabs_eq

theorem slot_setSlot (s : State) (k : Nat) (x : Option EmSlot) (p : Nat) :
    (s.setSlot k x).slot p = if p = k then x else s.slot p := by
  simp only [State.slot, tabs_setSlot, Tab.get_set]

theorem onlyIn_setSlot (s : State) (k : Nat) (x : Option EmSlot) : OnlyIn tableParts s (s.setSlot k x) :=
  (onlyIn_setTabs _ _).mono.trans (onlyIn_shadowPut _ _ _).mono

theorem hitAt_setHit (s : State) (q k : Nat) (b : Bool) (j p : Nat) :
    (s.setHit q k b).hitAt j p = if j * 1048576 + p = q * 1048576 + k then b else s.hitAt j p := Tab.get_set _ _ _ _ _

theorem onlyIn_setHit (s : State) (q k : Nat) (b : Bool) : OnlyIn [.tabs] s (s.setHit q k b) := onlyIn_setTabs _ _

theorem onlyIn_setHits (s : State) (k : Nat) (b : Bool) : OnlyIn [.tabs] s (s.setHits k b) :=
  .runOver (fun q s => onlyIn_setHit s q k b) _ _

theorem setHits_eq (s : State) (k : Nat) (b : Bool) :
    s.setHits k b = (((s.setHit 0 k b).setHit 1 k b).setHit 2 k b).setHit 3 k b := rfl

theorem slot_setHits (s : State) (k : Nat) (b : Bool) (p : Nat) : (s.setHits k b).slot p = s.slot p := by
  simp only [setHits_eq, State.slot, State.setHit, State.setTabs_tabs]

theorem jobs_setHits (s : State) (k : Nat) (b : Bool) : (s.setHits k b).tabs.jobs = s.tabs.jobs := by
  simp only [setHits_eq, State.setHit, State.setTabs_tabs]

theorem hitAt_setHits (s : State) (k : Nat) (b : Bool) {q : Nat} (quad : q < 4) : (s.setHits k b).hitAt q k = b := by
  simp only [setHits_eq, hitAt_setHit]
  split_ifs
  case neg => omega
  all_goals rfl

/-! Accessors where the tables are the same -/

theorem OnlyIn.slot_same {ps : List Part} {s t : State} (h : OnlyIn ps s t) (k : Nat)
    (hp : Part.tabs ∉ ps := by decide) : t.slot k = s.slot k :=
  congrArg (fun x : Tables => x.em.get none k) (h.tabs_eq hp)

theorem OnlyIn.hitAt_same {ps : List Part} {s t : State} (h : OnlyIn ps s t) (q k : Nat)
    (hp : Part.tabs ∉ ps := by decide) : t.hitAt q k = s.hitAt q k :=
  congrArg (fun x : Tables => x.hit.get false (q * 1048576 + k)) (h.tabs_eq hp)

/-! Reads that fail (R173) -/

theorem onlyIn_lookupErrors (s : State) (slice errors : Nat) : OnlyIn faultParts s (s.lookupErrors slice errors) := by
  simp only [State.lookupErrors]
  split
  · exact .refl _ _
  · exact ((onlyIn_bumpBy _ _ _).mono.trans (onlyIn_pmcCount _ _ _ _ _).mono).trans (onlyIn_fault _ _ _ _)

/-- Whether one of the two buckets that a frame's exact-match lookup reads is poisoned in the frame's quad. -/
def emPoisoned (s : State) (x : Frame) : Bool :=
  (List.range 2).any fun w => s.tabs.emPoison.contains
    (bucketKey (x.slice / 4) w (s.bucketOf w (s.frameKtype x) (s.frameKey16 x)))

/-- The state once an exact-match read has failed four times: a bucket of a drawn way is poisoned. -/
def emReadFailed (s : State) (x : Frame) : State :=
  let w := ((s.lookupErrors x.slice 4).draw 1).1.toNat
  let t := ((s.lookupErrors x.slice 4).draw 1).2
  t.setTabs { t.tabs with
    emPoison := t.tabs.emPoison ++ [bucketKey (x.slice / 4) w (t.bucketOf w (s.frameKtype x) (s.frameKey16 x))] }

theorem onlyIn_emReadFailed (s : State) (x : Frame) :
    OnlyIn [.cntCfg, .cnts, .out, .draws, .hif, .eic, .flt, .kiln, .tabs] s (emReadFailed s x) :=
  ((onlyIn_lookupErrors s x.slice 4).mono.trans (onlyIn_draw _ 1).mono).trans (onlyIn_setTabs _ _).mono

/-- The bucket of a failed read is one of the two that the lookup reads. -/
theorem emReadFailed_poisons (s : State) (x : Frame) :
    ((List.range 2).any fun w => (emReadFailed s x).tabs.emPoison.contains
      (bucketKey (x.slice / 4) w ((emReadFailed s x).bucketOf w (s.frameKtype x) (s.frameKey16 x)))) = true :=
  List.any_eq_true.mpr ⟨((s.lookupErrors x.slice 4).draw 1).1.toNat, List.mem_range.mpr (BitVec.isLt _),
    List.contains_iff_mem.mpr (List.mem_append_right _ (List.mem_singleton.mpr rfl))⟩

/-- The state once a route read has failed four times: its node is poisoned. -/
def lpmReadFailed (s : State) (x : Frame) : State :=
  let t := s.lookupErrors x.slice 4
  t.setTabs { t.tabs with
    lpmPoison := t.tabs.lpmPoison ++ [(x.slice / 4, nodeOf (s.lpmFam x) (s.lpmVrf x) (s.lpmAddr x))] }

theorem onlyIn_lpmReadFailed (s : State) (x : Frame) :
    OnlyIn [.cntCfg, .cnts, .out, .hif, .eic, .flt, .kiln, .tabs] s (lpmReadFailed s x) :=
  (onlyIn_lookupErrors s x.slice 4).mono.trans (onlyIn_setTabs _ _).mono

theorem lpmReadFailed_poisons (s : State) (x : Frame) : (lpmReadFailed s x).tabs.lpmPoison.contains
    (x.slice / 4, nodeOf (s.lpmFam x) (s.lpmVrf x) (s.lpmAddr x)) = true :=
  List.contains_iff_mem.mpr (List.mem_append_right _ (List.mem_singleton.mpr rfl))

/-! Exact-match results (R170 to R173) -/

/-- The state once a lookup of frame `f` has hit entry `e` in slot `k`. -/
def emHit (s : State) (f k : Nat) (e : EmSlot) : State :=
  ((s.setFrame f { s.frame f with exact := { back := true, hit := true, data := e.adata, lentry := k } }).setHit
    ((s.frame f).slice / 4) k true).pmcCount 4 ((s.frame f).slice / 4) 1 1

/-- A hit leaves every frame as its answer was stored. -/
theorem frame_emHit (s : State) (f k : Nat) (e : EmSlot) (g : Nat) : (emHit s f k e).frame g =
    (s.setFrame f { s.frame f with exact := { back := true, hit := true, data := e.adata, lentry := k } }).frame g :=
  ((onlyIn_pmcCount _ _ _ _ _).frame_same (by decide) g).trans ((onlyIn_setHit _ _ _ _).frame_same (by decide) g)

theorem exact_emHit (s : State) (f k : Nat) (e : EmSlot) :
    ((emHit s f k e).frame f).exact = { back := true, hit := true, data := e.adata, lentry := k } :=
  congrArg Frame.exact ((frame_emHit s f k e f).trans (State.frame_setFrame _ _ _))

theorem frame_emHit_other (s : State) {f g : Nat} (k : Nat) (e : EmSlot) (other : g ≠ f) :
    (emHit s f k e).frame g = s.frame g := (frame_emHit s f k e g).trans (State.frame_setFrame_other _ _ other)

theorem hitAt_emHit (s : State) (f k : Nat) (e : EmSlot) (j p : Nat) : (emHit s f k e).hitAt j p =
    if j * 1048576 + p = (s.frame f).slice / 4 * 1048576 + k then true else s.hitAt j p :=
  ((onlyIn_pmcCount _ _ _ _ _).hitAt_same j p).trans (hitAt_setHit _ _ _ _ _ _)

theorem slot_emHit (s : State) (f k : Nat) (e : EmSlot) (j : Nat) : (emHit s f k e).slot j = s.slot j :=
  (onlyIn_pmcCount _ _ _ _ _).slot_same j

theorem onlyIn_emHit (s : State) (f k : Nat) (e : EmSlot) :
    OnlyIn [.frames, .tabs, .cnts, .cntCfg] s (emHit s f k e) :=
  ((onlyIn_setFrame _ _ _).mono.trans (onlyIn_setHit _ _ _ _).mono).trans (onlyIn_pmcCount _ _ _ _ _).mono

section
variable {s : State} {f : Nat} (issued : (s.frame f).issued = true) (waits : (s.frame f).exact.back = false)
  (landing : (s.frame f).ing = .landing) (role : s.role (s.frame f) ≠ 0)
include issued waits landing role

/-- The entry that a clean result answers: the match, unless a sweep has removed it from the frame's quad. -/
theorem exec_emLookupResult_clean (clean : emPoisoned s (s.frame f) = false) :
    exec (.emLookupResult f 0) s = .next
      (match (s.emIn (s.frameKtype (s.frame f)) (s.frameKey16 (s.frame f)) (s.frame f).gen).filter
          fun e => !s.removedIn ((s.frame f).slice / 4) e.1 with
        | some (k, e) => emHit s f k e
        | none => s.setFrame f { s.frame f with exact := { back := true } }) := by
  refine congrArg Host.Outcome.next ((if_neg (by simp [issued, waits, landing, role])).trans ?_)
  exact if_neg (Bool.eq_false_iff.mp clean)

theorem exec_emLookupResult_failed : exec (.emLookupResult f 4) s = .next
    ((emReadFailed s (s.frame f)).setFrame f { s.frame f with exact := { back := true, bad := true } }) := by
  refine congrArg Host.Outcome.next ((if_neg (by simp [issued, waits, landing, role])).trans ?_)
  exact if_pos (emReadFailed_poisons s (s.frame f))

end

/-! Route results (R172, R173, R198) -/

/-- The state once a lookup of frame `f` has hit route `r`. -/
def lpmHit (s : State) (f : Nat) (r : Route) : State :=
  (s.setFrame f { s.frame f with route := { back := true, hit := true, data := r.adata } }).pmcCount 4
    ((s.frame f).slice / 4) 2 1

theorem route_lpmHit (s : State) (f : Nat) (r : Route) :
    ((lpmHit s f r).frame f).route = { back := true, hit := true, data := r.adata } :=
  congrArg Frame.route (((onlyIn_pmcCount _ _ _ _ _).frame_same (by decide) f).trans (State.frame_setFrame s f _))

theorem frame_lpmHit_other (s : State) {f g : Nat} (r : Route) (other : g ≠ f) :
    (lpmHit s f r).frame g = s.frame g :=
  ((onlyIn_pmcCount _ _ _ _ _).frame_same (by decide) g).trans (State.frame_setFrame_other s _ other)

theorem onlyIn_lpmHit (s : State) (f : Nat) (r : Route) : OnlyIn [.frames, .cnts, .cntCfg] s (lpmHit s f r) :=
  (onlyIn_setFrame _ _ _).mono.trans (onlyIn_pmcCount _ _ _ _ _).mono

section
variable {s : State} {f : Nat} (issued : (s.frame f).issued = true) (waits : (s.frame f).route.back = false)
  (landing : (s.frame f).ing = .landing) (family : s.lpmFam (s.frame f) ≠ 0)
include issued waits landing family

theorem exec_lpmLookupResult_clean (clean : s.tabs.lpmPoison.contains ((s.frame f).slice / 4,
      nodeOf (s.lpmFam (s.frame f)) (s.lpmVrf (s.frame f)) (s.lpmAddr (s.frame f))) = false) :
    exec (.lpmLookupResult f 0) s = .next
      (match s.bestRoute (s.lpmFam (s.frame f)) (s.lpmVrf (s.frame f)) (s.lpmAddr (s.frame f)) (s.frame f).gen with
        | some r => lpmHit s f r
        | none => s.setFrame f { s.frame f with route := { back := true } }) := by
  refine congrArg Host.Outcome.next ((if_neg (by simp [issued, waits, landing, family])).trans ?_)
  exact if_neg (Bool.eq_false_iff.mp clean)

theorem exec_lpmLookupResult_failed : exec (.lpmLookupResult f 4) s = .next
    ((lpmReadFailed s (s.frame f)).setFrame f { s.frame f with route := { back := true, bad := true } }) := by
  refine congrArg Host.Outcome.next ((if_neg (by simp [issued, waits, landing, family])).trans ?_)
  exact if_pos (lpmReadFailed_poisons s (s.frame f))

end

/-- Whether a route is visible, of this family and VRF, and agrees with the address (R198). -/
def routeMatches (fam vrf : Nat) (addr : Bytes) (g : Gen) (r : Route) : Bool :=
  r.tag.visible g && r.fam = fam && r.vrf = vrf && prefixEqual r.addr addr (famBytes fam) r.plen

theorem routeMatches_iff {fam vrf : Nat} {addr : Bytes} {g : Gen} {r : Route} : routeMatches fam vrf addr g r = true ↔
    r.tag.visible g = true ∧ r.fam = fam ∧ r.vrf = vrf ∧ prefixEqual r.addr addr (famBytes fam) r.plen = true := by
  simp only [routeMatches, Bool.and_eq_true, decide_eq_true_eq, and_assoc]

/-- The route chosen is the first of the longest among those that match. -/
theorem bestRoute_eq (s : State) (fam vrf : Nat) (addr : Bytes) (g : Gen) :
    s.bestRoute fam vrf addr g = (s.tabs.routes.filter (routeMatches fam vrf addr g)).argmax Route.plen := by
  rw [List.argmax, List.foldl_filter, State.bestRoute]
  congr 1
  funext best r
  cases hit : routeMatches fam vrf addr g r with
  | false => exact if_neg fun both => Bool.eq_false_iff.mp hit (Bool.and_eq_true_iff.mp both).1
  | true =>
    rw [routeMatches] at hit
    cases best <;> simp [hit, List.argAux]

theorem bestRoute_some {s : State} {fam vrf : Nat} {addr : Bytes} {g : Gen} {r : Route}
    (best : s.bestRoute fam vrf addr g = some r) : r ∈ s.tabs.routes ∧ routeMatches fam vrf addr g r = true ∧
      ∀ x ∈ s.tabs.routes, routeMatches fam vrf addr g x = true → x.plen ≤ r.plen := by
  rw [bestRoute_eq] at best
  obtain ⟨listed, hit⟩ := List.mem_filter.mp (List.argmax_mem best)
  exact ⟨listed, hit, fun x hx holds => List.le_of_mem_argmax (List.mem_filter.mpr ⟨hx, holds⟩) best⟩

/-! Learning (R189, R191) -/

/-- The state once the sequencer has taken the oldest learn or move and leaves `rest` to wait. -/
def jobTaken (s : State) (rest : List LearnJob) : State := s.stepDone.setTabs { s.stepDone.tabs with jobs := rest }

theorem onlyIn_jobTaken (s : State) (rest : List LearnJob) : OnlyIn [.tabs] s (jobTaken s rest) :=
  (onlyIn_stepDone s).trans (onlyIn_setTabs _ _)

theorem exec_learnPlace {s : State} {j : LearnJob} {rest : List LearnJob} (alive : s.tabs.dead = false)
    (jobs : s.tabs.jobs = j :: rest) (free : s.seqAhead 4 = false) (words : s.flt.corrupt.get 0 0x31 = 0) :
    exec .learnPlace s =
      .next (if j.move.isSome then (jobTaken s rest).placeMove j else (jobTaken s rest).placeLearn j) := by
  refine congrArg Host.Outcome.next ((if_neg (by simp [alive, free])).trans ?_)
  simp only [jobs]
  exact seqStep_sound words alive _ _

theorem onlyIn_learnRecord (s : State) (type : Nat) (body : Bytes) : OnlyIn recordParts s (s.learnRecord type body) :=
  onlyIn_writeRecord _ _ _ _ _ _

theorem onlyIn_writeEntry (s : State) (k : Nat) (e : EmSlot) : OnlyIn tableParts s (s.writeEntry k e) :=
  (onlyIn_setSlot _ _ _).trans (onlyIn_setHits _ _ _).mono

theorem slot_writeEntry (s : State) (k : Nat) (e : EmSlot) (p : Nat) :
    (s.writeEntry k e).slot p = if p = k then some e else s.slot p := by
  rw [State.writeEntry, slot_setHits, slot_setSlot]

theorem jobs_writeEntry (s : State) (k : Nat) (e : EmSlot) : (s.writeEntry k e).tabs.jobs = s.tabs.jobs := by
  rw [State.writeEntry, jobs_setHits, tabs_setSlot]

/-- The entry that a learn makes: settled, born in its frame's generation (R189). -/
def learnedEntry (j : LearnJob) : EmSlot :=
  { tag := ⟨j.gen, 0, true, false⟩, ktype := j.ktype, key := j.key, adata := j.adata, lrn := true, sw := false, rpt := false }

/-- A learn of an absent key writes the first free slot, and may report it. -/
theorem placeLearn_free {s : State} {j : LearnJob} {k : Nat} (absent : s.keySlots j.ktype j.key = [])
    (free : (s.scanSlots j.ktype j.key).find? s.slotFree = some k) :
    OnlyIn recordParts (s.writeEntry k (learnedEntry j)) (s.placeLearn j) := by
  simp only [State.placeLearn, absent, List.isEmpty_nil, Bool.not_true, Bool.false_eq_true, if_false, State.makeRoom, free]
  split
  · exact onlyIn_learnRecord _ _ _
  · exact .refl _ _

/-- A move rewrites the ADATA of a learned entry that no change of STAGING has marked, and reports it. -/
theorem placeMove_learned {s : State} {j : LearnJob} {k : Nat} {e : EmSlot}
    (found : s.emIn j.ktype j.key j.gen = some (k, e)) (learned : e.lrn = true) (unmarked : e.tag.ds = false) :
    OnlyIn recordParts (s.setSlot k (some { e with adata := j.adata })) (s.placeMove j) := by
  simp only [State.placeMove, found, learned, unmarked, Bool.not_false, Bool.and_self, if_true]
  exact onlyIn_learnRecord _ _ _

/-! The learn filter (R188) -/

theorem onlyIn_advanceTo (s : State) (t : Nat) : OnlyIn [.time] s (s.advanceTo t) := onlyIn_advance _ _

theorem learnFilter_setFilter (s : State) (q : Nat) (l : List LearnKey) (p : Nat) :
    (s.setFilter q l).learnFilter p = if p = q then l else s.learnFilter p := Tab.get_set _ _ _ _ _

theorem exec_learnFilterExpire {s : State} {q : Quad} {k : LearnKey} {rest : List LearnKey}
    (held : s.learnFilter q = k :: rest) :
    exec (.learnFilterExpire q) s = .next ((s.advanceTo k.until_).setFilter q rest) := by
  change Host.Outcome.next _ = _
  rw [held]

/-! The obligation -/

/-- Settles O23: a result answers what the one lookup finds (`exec_emLookupResult_clean`, `bestRoute_eq`), and a learn or a
move writes one slot. -/
theorem lookupsAnswerAndLearn : Obligations.LookupsAnswerAndLearn := by
  refine ⟨fun f s issued waits landing role => ⟨fun clean => ?_, ?_⟩,
    fun f s issued waits landing family => ⟨fun clean => ?_, ?_⟩, fun fam vrf addr g r s best => ?_,
    fun j rest s alive jobs free words => ⟨fun k learn absent room => ?_, fun k e move found learned unmarked => ?_⟩,
    fun q k rest s held => ?_⟩
  · refine ⟨_, exec_emLookupResult_clean issued waits landing role clean, ?_⟩
    cases (s.emIn (s.frameKtype (s.frame f)) (s.frameKey16 (s.frame f)) (s.frame f).gen).filter
        fun e => !s.removedIn ((s.frame f).slice / 4) e.1 with
    | none =>
      exact ⟨⟨congrArg Frame.exact (State.frame_setFrame _ _ _), rfl⟩, fun _ => rfl,
        fun g other => State.frame_setFrame_other _ _ other, (onlyIn_setFrame _ _ _).mono⟩
    | some hit =>
      obtain ⟨k, e⟩ := hit
      exact ⟨⟨exact_emHit s f k e, hitAt_emHit s f k e⟩, slot_emHit s f k e,
        fun g other => frame_emHit_other s k e other, onlyIn_emHit s f k e⟩
  · exact ⟨_, exec_emLookupResult_failed issued waits landing role, congrArg Frame.exact (State.frame_setFrame _ _ _),
      (onlyIn_emReadFailed _ _).mono.trans (onlyIn_setFrame _ _ _).mono⟩
  · refine ⟨_, exec_lpmLookupResult_clean issued waits landing family clean, ?_⟩
    cases s.bestRoute (s.lpmFam (s.frame f)) (s.lpmVrf (s.frame f)) (s.lpmAddr (s.frame f)) (s.frame f).gen with
    | none =>
      exact ⟨congrArg Frame.route (State.frame_setFrame _ _ _),
        fun g other => State.frame_setFrame_other _ _ other, (onlyIn_setFrame _ _ _).mono⟩
    | some r => exact ⟨route_lpmHit s f r, fun g other => frame_lpmHit_other s r other, onlyIn_lpmHit s f r⟩
  · exact ⟨_, exec_lpmLookupResult_failed issued waits landing family, congrArg Frame.route (State.frame_setFrame _ _ _),
      (onlyIn_lpmReadFailed _ _).mono.trans (onlyIn_setFrame _ _ _).mono⟩
  · obtain ⟨listed, hit, longest⟩ := bestRoute_some best
    obtain ⟨visible, sameFam, sameVrf, agrees⟩ := routeMatches_iff.mp hit
    exact ⟨listed, visible, sameFam, sameVrf, agrees,
      fun x hx visible fam vrf agrees => longest x hx (routeMatches_iff.mpr ⟨visible, fam, vrf, agrees⟩)⟩
  · have run := exec_learnPlace alive jobs free words
    rw [learn] at run
    have told : OnlyIn recordParts ((jobTaken s rest).writeEntry k (learnedEntry j)) ((jobTaken s rest).placeLearn j) :=
      placeLearn_free absent room
    refine ⟨_, run, ?_, ?_, fun q quad => ?_, fun p other => ?_,
      ((onlyIn_jobTaken s rest).mono.trans (onlyIn_writeEntry _ _ _).mono).trans told.mono⟩
    · exact (congrArg Tables.jobs told.tabs_eq).trans (jobs_writeEntry _ _ _)
    · exact (told.slot_same k).trans ((slot_writeEntry _ _ _ _).trans (if_pos rfl))
    · exact (told.hitAt_same q k).trans (hitAt_setHits _ _ _ quad)
    · exact (told.slot_same p).trans ((slot_writeEntry _ _ _ _).trans (if_neg other))
  · have run := exec_learnPlace alive jobs free words
    rw [if_pos (Option.isSome_iff_ne_none.mpr move)] at run
    have told : OnlyIn recordParts ((jobTaken s rest).setSlot k (some { e with adata := j.adata }))
        ((jobTaken s rest).placeMove j) := placeMove_learned found learned unmarked
    refine ⟨_, run, ?_, ?_, fun p other => ?_,
      ((onlyIn_jobTaken s rest).mono.trans (onlyIn_setSlot _ _ _).mono).trans told.mono⟩
    · rw [told.tabs_eq, tabs_setSlot]
      rfl
    · exact (told.slot_same k).trans ((slot_setSlot _ _ _ _).trans (if_pos rfl))
    · exact (told.slot_same p).trans ((slot_setSlot _ _ _ _).trans (if_neg other))
  · exact ⟨_, exec_learnFilterExpire held, (learnFilter_setFilter _ _ _ _).trans (if_pos rfl), now_advanceTo s k.until_,
      fun p other => (learnFilter_setFilter _ _ _ _).trans (if_neg other),
      (onlyIn_advanceTo _ _).mono.trans (onlyIn_setFilter _ _ _).mono⟩

end Sys2Proof.Claims

/-! Family 07, CIR_DISABLE: a refutation at a state the device reaches

A ring holds further descriptors while one is in execution, and a completion hands on the next of them in the same step
(R382, R383). The statement asks that nothing be in execution once CIR_DISABLE has completed. -/

namespace Sys2Proof.Claims

open Sys2Proof.Machine

set_option Elab.async false

/-- A descriptor with this opcode that names circuit 0; every other field is 0. -/
def circuitCommand (op : Nat) : Bytes := leBytes 2 op ++ zeros 62

/-- A COMMAND ring of PF0 that executes CIR_DISABLE and has fetched the CIR_ENABLE behind it. -/
def disableThenEnableRing : RingState :=
  { ctx := some ⟨0x10000, 0, 1, 6, true, false, 0, 0, false⟩, active := true, hostIdx := 2
    inExec := some (circuitCommand 0x0053), fetched := [circuitCommand 0x0054] }

/-- Ring 5 is that ring, CIR_DISABLE_MODE is DISCARD, and no frame is in the device. -/
def disableThenEnable : State :=
  (State.setReg { State.reset with mode := .forward } .cirDisableMode 0 0 1).setRing 5 disableThenEnableRing

theorem executing_disableThenEnable : Executing disableThenEnable 5 0x0053 (circuitCommand 0x0053) :=
  ⟨by decide +kernel, _, rfl, by decide⟩

/-- CIR_DISABLE completes at once, and the CIR_ENABLE is in execution. -/
theorem cirDisable_hands_on_cirEnable : ∃ t, exec (.cirDisable 5) disableThenEnable = .next t ∧
    Completed disableThenEnable t 5 (circuitCommand 0x0053) .ok 0 [] ∧
    (t.ring 5).inExec = some (circuitCommand 0x0054) :=
  ⟨_, rfl, ⟨[], [.hostWrite (.pf .pf0) 0 (leBytes 8 1)], by decide +kernel⟩, by decide +kernel⟩

/-- Refutes O28: at `disableThenEnable` no deep portion holds an item, so CIR_DISABLE in DISCARD mode completes in its own
step; the ring then executes the CIR_ENABLE fetched behind it, where the statement has `inExec = none`. -/
theorem not_circuitsAreDisabledEnabledAndResumed : ¬ Obligations.CircuitsAreDisabledEnabledAndResumed := by
  unfold Obligations.CircuitsAreDisabledEnabledAndResumed
  rintro ⟨disable, -⟩
  obtain ⟨-, discard⟩ := disable 5 _ disableThenEnable executing_disableThenEnable (by decide +kernel)
  obtain ⟨t, run, -, -, ends, -⟩ := discard (by decide +kernel)
  obtain ⟨u, runs, -, next⟩ := cirDisable_hands_on_cirEnable
  obtain rfl : u = t := Host.Outcome.next.inj (runs.symm.trans run)
  obtain ⟨-, idle⟩ := ends (by decide +kernel)
  exact absurd (next.symm.trans idle) (Option.some_ne_none _)

end Sys2Proof.Claims

/-! Firmware and patches (R260, R261, R473, R478, R479): the mailbox's commands and its response. -/

namespace Sys2Proof.Machine

@[simp] theorem Boot.slot_setSlot (b : Boot) (x : Bool) (y : Slot) : (b.setSlot x y).slot x = y := by cases x <;> rfl

@[simp] theorem Boot.slot_setSlot_other (b : Boot) (x : Bool) (y : Slot) : (b.setSlot x y).slot (!x) = b.slot (!x) := by
  cases x <;> rfl

end Sys2Proof.Machine

namespace Sys2Proof.Claims

open Sys2Proof.Machine

set_option Elab.async false

/-! Requests that run, and their answers (R464, R467) -/

theorem mailRuns_some {s : State} {f : Fn} {op : Nat} {q : Bytes} (runs : s.mailRuns f op = some q) :
    (s.mailbox f).ready = none ∧ (s.rst.ewethes || s.rst.recovery) = true ∧ (s.mailbox f).running = some q ∧
      mailOp q = op := by
  simp only [State.mailRuns] at runs
  split at runs
  · cases runs
  · next unanswered =>
    obtain ⟨x, running, named⟩ := Option.bind_eq_some_iff.mp runs
    split at named
    · next code =>
      cases named
      simp only [Bool.or_eq_true, not_or, Bool.not_eq_true, Bool.not_eq_false'] at unanswered
      obtain ⟨⟨ready, -⟩, alive⟩ := unanswered
      exact ⟨Option.isNone_iff_eq_none.mp (by simpa using ready), by simpa using alive, running, code⟩
    · cases named

/-- A request that passes the checks of R467 runs its command. -/
theorem mailCommand_accepted {s : State} {f : Fn} {op : Nat} {q : Bytes} {fns : List Fn} {badArg : Bytes → Bool}
    {modes : Mode → Bool} (runs : s.mailRuns f op = some q) (allowed : fns.contains f = true)
    (sound : badArg q = false) (mode : s.mailMode op modes = true) (run : Bytes → State → State) :
    s.mailCommand f op fns badArg modes run = run q s := by
  simp [State.mailCommand, runs, allowed, sound, mode, -List.contains_eq_mem]

theorem onlyIn_mailAnswer (s : State) (f : Fn) (st : MailStatus) (info : Nat) (result : Bytes) :
    OnlyIn [.mgt] s (s.mailAnswer f st info result) := by
  simp only [State.mailAnswer]
  split
  · exact onlyIn_setMailbox _ _ _
  · exact .refl _ _

theorem mailbox_mailAnswer {s : State} {f : Fn} {q : Bytes} (running : (s.mailbox f).running = some q) (st : MailStatus)
    (info : Nat) (result : Bytes) : (s.mailAnswer f st info result).mailbox f =
      { s.mailbox f with ready := some (mailBytes q st info result), fuse := false } := by
  simp only [State.mailAnswer, running, State.mailbox_setMailbox]

theorem boot_mailAnswer (s : State) (f : Fn) (st : MailStatus) (info : Nat) (result : Bytes) :
    (s.mailAnswer f st info result).boot = s.boot := by
  simp only [State.mailAnswer]
  split <;> rfl

theorem staged_mailAnswer (s : State) (f : Fn) (st : MailStatus) (info : Nat) (result : Bytes) :
    (s.mailAnswer f st info result).mgt.staged = s.mgt.staged := by
  simp only [State.mailAnswer]
  split <;> rfl

theorem OnlyIn.mgt_eq {ps : List Part} {s t : State} (h : OnlyIn ps s t) (hp : Part.mgt ∉ ps := by decide) :
    t.mgt = s.mgt := h .mgt hp

theorem OnlyIn.mailbox_eq {ps : List Part} {s t : State} (h : OnlyIn ps s t) (f : Fn)
    (hp : Part.mgt ∉ ps := by decide) : t.mailbox f = s.mailbox f := by rw [State.mailbox, h.mgt_eq hp, State.mailbox]

theorem OnlyIn.boot_eq {ps : List Part} {s t : State} (h : OnlyIn ps s t) (hp : Part.mgt ∉ ps := by decide) :
    t.boot = s.boot := congrArg Mgt.boot (h.mgt_eq hp)

/-! The response (R464) -/

/-- The response is written into MBX_RSP. -/
def putResponse (s : State) (f : Fn) (b : Bytes) (l : List Nat) : State :=
  runOver l (fun k s => s.setRegOf .mbxRsp f.num 0 k (leAt b (8 * k) 8)) s

theorem mbxRsp_key_ne {fn j k : Nat} (h : j ≠ k) : RegName.key .mbxRsp fn 0 j ≠ RegName.key .mbxRsp fn 0 k := by
  simp only [RegName.key, RegName.addr, RegName.info]
  omega

theorem regOf_putResponse (s : State) (f : Fn) (b : Bytes) (l : List Nat) (k : Nat) :
    (putResponse s f b l).regOf .mbxRsp f.num 0 k =
      if k ∈ l then leAt b (8 * k) 8 else s.regOf .mbxRsp f.num 0 k := by
  induction l generalizing s with
  | nil => rfl
  | cons j l ih =>
    refine (ih _).trans ?_
    by_cases later : k ∈ l
    · rw [if_pos later, if_pos (List.mem_cons_of_mem _ later)]
    · rw [if_neg later]
      by_cases same : k = j
      · rw [same, State.regOf_setRegOf, if_pos List.mem_cons_self]
      · rw [State.regOf_setRegOf_other _ (mbxRsp_key_ne same), if_neg (by simp [same, later])]


/-- The registers of the mailbox lie above PMC_CNT_CFG. -/
theorem mbx_not_inCntCfg {r : RegName} (h : r = .mbxRsp ∨ r = .mbxStatus) (fn k : Nat) : ¬ inCntCfg (r.key fn 0 k) := by
  rcases h with rfl | rfl
  all_goals
    simp only [inCntCfg, RegName.key, RegName.addr, RegName.info, Bool.false_eq_true, if_true, if_false]
    omega

theorem onlyIn_putResponse (s : State) (f : Fn) (b : Bytes) (l : List Nat) : OnlyIn [.regs] s (putResponse s f b l) :=
  .runOver (fun k s => onlyIn_setRegOf_plain s _ _ _ _ _ (mbx_not_inCntCfg (.inl rfl) _ k)) _ _

theorem onlyIn_mailStatus (s : State) (f : Fn) (hi lo v : Nat) : OnlyIn [.regs] s (s.mailStatus f hi lo v) :=
  onlyIn_setRegOf_plain _ _ _ _ _ _ (mbx_not_inCntCfg (.inr rfl) _ 0)

theorem mbxRsp_mailStatus (s : State) (f : Fn) (hi lo v : Nat) {k : Nat} :
    (s.mailStatus f hi lo v).regOf .mbxRsp f.num 0 k = s.regOf .mbxRsp f.num 0 k :=
  State.regOf_setRegOf_other _ (by simp only [RegName.key, RegName.addr, RegName.info]; omega)

/-- MBX_STATUS shows the end of a request, whose response stands in MBX_RSP. -/
def endRequest (s : State) (f : Fn) : State :=
  ((s.mailStatus f 31 24 0).mailStatus f 15 8 (bitsOf 15 8 (s.regOf .mbxStatus f.num 0 0) + 1)).mailStatus f 1 0 2

theorem onlyIn_endRequest (s : State) (f : Fn) : OnlyIn [.regs] s (endRequest s f) :=
  ((onlyIn_mailStatus _ _ _ _ _).trans (onlyIn_mailStatus _ _ _ _ _)).trans (onlyIn_mailStatus _ _ _ _ _)

theorem mbxRsp_endRequest (s : State) (f : Fn) (k : Nat) :
    (endRequest s f).regOf .mbxRsp f.num 0 k = s.regOf .mbxRsp f.num 0 k := by
  simp only [endRequest, mbxRsp_mailStatus]

/-- Once Ewethes has the response `b`, it is written, and the mailbox is free. -/
theorem exec_mailboxResponse {s u : State} {f : Fn} {q b : Bytes} (other : s.mailOther f = u)
    (running : (u.mailbox f).running = some q) (ready : (u.mailbox f).ready = some b) :
    ∃ t, exec (.mailboxResponse f) s = .next t ∧
      OnlyIn [.regs, .eic] (u.setMailbox f {}) t ∧
      ∀ k, k < 8 → t.regOf .mbxRsp f.num 0 k = leAt b (8 * k) 8 := by
  have written (k : Nat) (hk : k < 8) :
      (endRequest (putResponse (u.setMailbox f {}) f b (List.range 8)) f).regOf .mbxRsp f.num 0 k = leAt b (8 * k) 8 := by
    rw [mbxRsp_endRequest, regOf_putResponse, if_pos (List.mem_range.mpr hk)]
  have ended : OnlyIn [.regs, .eic] (u.setMailbox f {})
      (endRequest (putResponse (u.setMailbox f {}) f b (List.range 8)) f) :=
    ((onlyIn_putResponse _ _ _ _).trans (onlyIn_endRequest _ _)).mono
  have run : exec (.mailboxResponse f) s =
      .next (if bitOf 0 (byteAt q 2) then
          (endRequest (putResponse (u.setMailbox f {}) f b (List.range 8)) f).eicEvent (bitsOf 27 16
            ((endRequest (putResponse (u.setMailbox f {}) f b (List.range 8)) f).regOf .mbxCtrl f.num 0 0))
        else endRequest (putResponse (u.setMailbox f {}) f b (List.range 8)) f) := by
    simp only [exec, execMailboxResponse, other, running, ready]
    rfl
  refine ⟨_, run, ?_, ?_⟩
  · split
    · exact ended.trans (onlyIn_eicEvent _ _).mono
    · exact ended
  · intro k hk
    split
    · exact (onlyIn_eicEvent _ _ .regs (by decide) _ _ _ _ (mbx_not_inCntCfg (.inl rfl) _ k)).trans (written k hk)
    · exact written k hk

/-! The commands, once they are accepted (R260, R478, R479) -/

/-- The slot that does not run is STAGING while Ewethes copies and checks an image, whose check gives it `y`. -/
def stageSlot (s : State) (y : Slot) : State :=
  let b := s.boot
  let s := s.setBoot { (b.setSlot b.target { state := .staging }) with gen := b.gen + 1 }
  { s with mgt := { s.mgt with staged := some y } }

theorem onlyIn_mgt (s : State) (x : Mgt) : OnlyIn [.mgt] s { s with mgt := x } := by
  intro p hp
  have same := SamePart.refl s p
  cases p
  case mgt => exact absurd List.mem_cons_self hp
  all_goals exact same

theorem exec_fwStage {s : State} {q b : Bytes} (runs : s.mailRuns .pf0 0x0010 = some q) (clean : mailClean q [] = true)
    (mode : s.mailMode 0x0010 upOrStandby = true) (fits : mailLen q ≤ 7 * 2 ^ 20)
    (two : byteAt (sliceOf b 0 (mailLen q)) 0x0D = 2) (idle : s.mgt.staged = none) :
    exec (.fwStage .pf0 (some b) true true) s = .next (stageSlot s
      { state := s.checkImage (sliceOf b 0 (mailLen q)) true, release := leAt (sliceOf b 0 (mailLen q)) 8 4
        svn := byteAt (sliceOf b 0 (mailLen q)) 0x0C }) := by
  have whole : min (mailLen q) (7 * 2 ^ 20 + 1) = mailLen q := by omega
  refine congrArg Host.Outcome.next ((mailCommand_accepted runs rfl (by simp [clean]) mode _).trans ?_)
  simp only [idle, whole, two, Nat.not_lt.mpr fits]
  rfl

theorem exec_fwActivate {s : State} {q : Bytes} {x : Bool} (runs : s.mailRuns .pf0 0x0011 = some q)
    (clean : mailClean q [0x18] = true) (named : byteAt q 0x18 = boolBit x)
    (bootable : (s.boot.slot x).state = .valid ∨ s.boot.run = some x) (mode : s.mailMode 0x0011 upOrStandby = true) :
    exec (.fwActivate .pf0) s = .next
      (((s.setBoot { s.boot with preferred := x, try_ := decide (s.boot.run ≠ some x), gen := s.boot.gen + 1 }).kilnLog
        0x0004 0 (leBytes 1 (boolBit x) ++ leBytes 1 (boolBit (decide (s.boot.run ≠ some x))))).mailAnswer .pf0 .ok) := by
  have slot : decide (byteAt q 0x18 = 1) = x := by rw [named]; cases x <;> rfl
  have known : byteAt q 0x18 ≤ 1 := by rw [named]; cases x <;> decide
  refine congrArg Host.Outcome.next ((mailCommand_accepted runs rfl ?_ mode _).trans ?_)
  · simp only [slot, clean, Nat.not_lt.mpr known]
    rcases bootable with h | h <;> simp [h]
  · simp only [slot]

theorem exec_patchLoad {s u : State} {q b : Bytes} (runs : s.mailRuns .pf0 0x0060 = some q)
    (clean : mailClean q [0x18] = true) (kind : byteAt q 0x18 = 1 ∨ byteAt q 0x18 = 2)
    (mode : s.mailMode 0x0060 (fun m => m = .config) = true) (idle : s.seqIdle = true)
    (same : byteAt b 2 = byteAt q 0x18) (loads : s.loadBundle b = some u) :
    exec (.patchLoad .pf0 b) s = .next (u.mailAnswer .pf0 .ok 0 (leBytes 4 (leAt b 8 4))) := by
  refine congrArg Host.Outcome.next ((mailCommand_accepted runs rfl ?_ mode _).trans ?_)
  · rcases kind with h | h <;> simp [clean, h]
  · simp [idle, same, loads]

/-- The slot takes the result of its check, and the log has an entry unless the flash failed (R478). -/
def settleSlot (s : State) (y : Slot) : State :=
  let b := s.boot
  let t := (s.setBoot { (b.setSlot b.target y) with gen := b.gen + 1 }).dropStaged
  if y.state = .empty then t
  else t.kilnLog 0x0003 0
    (leBytes 1 (boolBit b.target) ++ leBytes 1 (slotCode y.state) ++ leBytes 4 y.release ++ leBytes 1 y.svn)

theorem mgt_settleSlot (s : State) (y : Slot) : (settleSlot s y).mgt = { s.mgt with
    boot := { (s.boot.setSlot s.boot.target y) with gen := s.boot.gen + 1 }, staged := none } := by
  simp only [settleSlot]
  split
  · rfl
  · exact (onlyIn_kilnLog _ _ _ _).mgt_eq

theorem onlyIn_settleSlot (s : State) (y : Slot) : OnlyIn [.kiln, .mgt] s (settleSlot s y) := by
  have put : OnlyIn [.kiln, .mgt] s
      (s.setBoot { (s.boot.setSlot s.boot.target y) with gen := s.boot.gen + 1 }).dropStaged :=
    ((onlyIn_setBoot _ _).trans (onlyIn_mgt _ _)).mono
  simp only [settleSlot]
  split
  · exact put
  · exact put.trans (onlyIn_kilnLog _ _ _ _).mono

theorem mailOther_staged {s : State} {q : Bytes} {y : Slot} (runs : s.mailRuns .pf0 0x0010 = some q)
    (staged : s.mgt.staged = some y) : s.mailOther .pf0 = (settleSlot s y).mailAnswer .pf0 (stageStatus y.state)
      (if y.state = .valid then boolBit s.boot.target else 0) := by
  obtain ⟨waits, alive, running, code⟩ := mailRuns_some runs
  have ends : s.mailOther .pf0 = s.endStaging := by
    simp [State.mailOther, running, waits, alive, code, staged]
  rw [ends, State.endStaging, staged]
  rfl

/-- What a bundle loads. -/
theorem loadBundle_loads {s u : State} {b : Bytes} (loads : s.loadBundle b = some u) :
    OnlyIn [.regs, .bur] s u ∧
      (byteAt b 2 = 1 → u.bur.patch = ⟨bundleMatches b, (bundleWords b).map storeWord⟩ ∧ u.reg .burPatchId 0 0 = leAt b 8 4) ∧
      (byteAt b 2 = 2 → u.bur.seqPatch = ⟨bundleMatches b, (bundleWords b).map storeWord⟩ ∧
        u.reg .seqPatchId 0 0 = leAt b 8 4) := by
  have only {r : RegName} (out : ¬ inCntCfg (r.key 0 0 0)) (x : Burin) :
      OnlyIn [.regs, .bur] s (State.setReg { s with bur := x } r 0 0 (leAt b 8 4)) :=
    (onlyIn_bur s x).mono.trans (onlyIn_setRegOf_plain _ _ _ _ _ _ out).mono
  simp only [State.loadBundle] at loads
  split at loads
  · next kind =>
    split at loads
    · cases loads
    · cases loads
      exact ⟨only (by simp [inCntCfg, RegName.key, RegName.addr, RegName.info]) _,
        fun _ => ⟨rfl, State.reg_setReg _ _ _ _ _⟩, fun two => absurd (kind.symm.trans two) (by decide)⟩
  · next kind =>
    split at loads
    · cases loads
    · cases loads
      exact ⟨only (by simp [inCntCfg, RegName.key, RegName.addr, RegName.info]) _,
        fun one => absurd (kind.symm.trans one) (by decide), fun _ => ⟨rfl, State.reg_setReg _ _ _ _ _⟩⟩
  · cases loads

/-! The obligation -/

/-- Settles O51: each command is accepted (`mailCommand_accepted`) and replaces the boot record or loads the bundle once;
the response of a staging settles the slot before it is written (`mailOther_staged`). -/
theorem firmwareIsStagedAndActivated : Obligations.FirmwareIsStagedAndActivated := by
  unfold Obligations.FirmwareIsStagedAndActivated
  refine ⟨fun q b s runs clean mode fits two valid idle => ?_, fun q y s runs staged => ?_,
    fun q x s runs clean named bootable mode => ?_, fun q b s u runs clean kind mode idle same loads => ?_⟩
  · refine ⟨_, exec_fwStage runs clean mode fits two idle, ⟨?_, Boot.slot_setSlot_other _ _ _, rfl, ?_⟩,
      (onlyIn_setBoot _ _).trans (onlyIn_mgt _ _)⟩
    · exact congrArg Slot.state (Boot.slot_setSlot _ _ _)
    · rw [← valid]
      rfl
  · obtain ⟨-, -, running, -⟩ := mailRuns_some runs
    have held : ((settleSlot s y).mailbox .pf0).running = some q := by rw [State.mailbox, mgt_settleSlot]; exact running
    have other := mailOther_staged runs staged
    have answer := mailbox_mailAnswer held (stageStatus y.state) (if y.state = .valid then boolBit s.boot.target else 0) []
    obtain ⟨t, run, only, response⟩ := exec_mailboxResponse other
      ((congrArg Mailbox.running answer).trans held) (congrArg Mailbox.ready answer)
    have boot : t.boot = { (s.boot.setSlot s.boot.target y) with gen := s.boot.gen + 1 } :=
      only.boot_eq.trans ((boot_mailAnswer _ _ _ _ _).trans (congrArg Mgt.boot (mgt_settleSlot s y)))
    have unstaged : t.mgt.staged = none :=
      (congrArg Mgt.staged only.mgt_eq).trans
        ((staged_mailAnswer _ _ _ _ _).trans (congrArg Mgt.staged (mgt_settleSlot s y)))
    refine ⟨t, run, ⟨?_, ?_, unstaged, ?_, response⟩,
      (((onlyIn_settleSlot _ _).mono.trans (onlyIn_mailAnswer _ _ _ _ _).mono).trans (onlyIn_setMailbox _ _ _).mono).trans
        only.mono⟩
    · rw [boot]
      exact Boot.slot_setSlot _ _ _
    · rw [boot]
      exact Boot.slot_setSlot_other _ _ _
    · rw [only.mailbox_eq, State.mailbox_setMailbox]
  · obtain ⟨-, -, running, -⟩ := mailRuns_some runs
    have logged := onlyIn_kilnLog
      (s.setBoot { s.boot with preferred := x, try_ := decide (s.boot.run ≠ some x), gen := s.boot.gen + 1 }) 0x0004 0
      (leBytes 1 (boolBit x) ++ leBytes 1 (boolBit (decide (s.boot.run ≠ some x))))
    have boot := (boot_mailAnswer _ .pf0 .ok 0 []).trans logged.boot_eq
    have answer := mailbox_mailAnswer ((congrArg Mailbox.running (logged.mailbox_eq .pf0)).trans running) .ok 0 []
    refine ⟨_, exec_fwActivate runs clean named bootable mode, ?_, ?_, ?_, ?_, congrArg Mailbox.ready answer,
      ((onlyIn_setBoot _ _).mono.trans logged.mono).trans (onlyIn_mailAnswer _ _ _ _ _).mono⟩
    all_goals
      rw [boot]
      rfl
  · obtain ⟨-, -, running, -⟩ := mailRuns_some runs
    obtain ⟨only, burin, sequencer⟩ := loadBundle_loads loads
    have answered := onlyIn_mailAnswer u .pf0 .ok 0 (leBytes 4 (leAt b 8 4))
    have held : (u.mailbox .pf0).running = some q := by rw [only.mailbox_eq]; exact running
    refine ⟨_, exec_patchLoad runs clean kind mode idle same loads,
      congrArg Mailbox.ready (mailbox_mailAnswer held .ok 0 _), fun one => ?_, fun two => ?_,
      only.mono.trans answered.mono⟩
    · obtain ⟨patch, id⟩ := burin (same.trans one)
      exact ⟨(congrArg Burin.patch answered.bur_eq).trans patch,
        (answered.reg_same (by decide) (by simp [inCntCfg, RegName.key, RegName.addr, RegName.info])).trans id⟩
    · obtain ⟨patch, id⟩ := sequencer (same.trans two)
      exact ⟨(congrArg Burin.seqPatch answered.bur_eq).trans patch,
        (answered.reg_same (by decide) (by simp [inCntCfg, RegName.key, RegName.addr, RegName.info])).trans id⟩

end Sys2Proof.Claims

/-! Family 08, rewriting and machine checks: two refutations at states the device does not reach

The statements quantify over every state. A frame's output port is a number without a bound, and from slice 0x1C0E0 on the
keys of a slice's counters (Table 08.19) are those of general counters (Table 18.1), as in the families of chapters 05 and
07. A frame without a place at egress may stand on a thread and in the selection order; its discard takes it off neither,
and the fence of its engine then starts it again. -/

namespace Sys2Proof.Claims

open Sys2Proof.Machine

set_option Elab.async false

/-- A slice number far beyond the 16 of the device: `cntBur farBurinSlice 5 = cntPmc 13`. -/
abbrev farBurinSlice : Nat := 0x1C0E0

/-- An EVENT ring of PF0 with 64 entries. -/
def eventRing : RingState := { ctx := some ⟨0x10000, 0, 5, 6, true, false, 0, 0, false⟩, active := true }

/-- A tagged frame of 60 bytes, not IP, whose rewrite runs. -/
def sampledFrame : Frame := { eg := .burin, outPort := 8 * farBurinSlice, bytes := zeros 60, prog := 0, sample := 1 }

/-- Program 0 is an ESP_TUNNEL program, samples go to ring 5, and general counter 13 counts the bytes of host writes. -/
def sampledAtFarPort : State :=
  State.setRing { State.reset with
    mode := .forward
    regs := ⟨[(RegName.key .burProg 0 0 0, 0xA0000000), (RegName.key .pmcCtrl 0 0 0, 1),
      (RegName.key .pmcSampCtrl 0 0 0, 5 * 2 ^ 16), (RegName.key .pmcCntCfg 0 0 13, 0x87000003)]⟩
    frames := ⟨[(1, sampledFrame)]⟩
    bur := { sel := ⟨[(3, [1])]⟩ } } 5 eventRing

/-- The discard counts 1, and general counter 13 the 64 bytes of the sample record and the 8 of its write-back word. -/
theorem burinRewriteEnd_sampledAtFarPort : ∃ t, exec (.burinRewriteEnd 3) sampledAtFarPort = .next t ∧
    t.cnt (cntBur farBurinSlice 5) = 73 :=
  ⟨_, rfl, by decide +kernel⟩

/-- Refutes O37: at `sampledAtFarPort` the frame is discarded for R276 and its SAMPLE record is written in the same step, so
that BUR_NONIP_DISC_CNT, which has the key of a general counter of host writes, is 73 and not 1. -/
theorem not_burinRewritesFrames : ¬ Obligations.BurinRewritesFrames := by
  unfold Obligations.BurinRewritesFrames
  rintro ⟨-, -, drop, -⟩
  obtain ⟨t, run, -, count, -⟩ := drop 3 1 1 .nonIp sampledAtFarPort (by decide) (by decide +kernel)
    (by decide +kernel) (by decide +kernel) (by decide +kernel) (by decide +kernel) (fun other => absurd rfl other)
    (fun _ => by decide +kernel)
  obtain ⟨u, runs, counted⟩ := burinRewriteEnd_sampledAtFarPort
  obtain rfl : u = t := Host.Outcome.next.inj (runs.symm.trans run)
  exact absurd (counted.symm.trans count) (by decide +kernel)

/-- Thread 2 of engine 2 of slice 3 holds frame 1, first in selection order, which has had two machine checks and has no
place at egress. -/
def placelessOnThread : State :=
  { State.reset with
    frames := ⟨[(1, { burAttempts := 2 })]⟩
    bur := { sel := ⟨[(3, [1])]⟩, engines := ⟨[(17, { threads := [none, none, some 1, none] })]⟩ } }

/-- The frame that the third machine check discards is restarted by the fence and is on a thread once more. -/
theorem burinMachineCheck_placelessOnThread :
    ∃ t, exec (.burinMachineCheck 3 2 2 1 0xFFF false) placelessOnThread = .next t ∧ (t.frame 1).eg = .burin :=
  ⟨_, rfl, by decide +kernel⟩

/-- Refutes O38: at `placelessOnThread` the third machine check of the frame discards it, and the fence restarts it in the
same step, so that it is not gone. -/
theorem not_machineChecksFenceAndRetire : ¬ Obligations.MachineChecksFenceAndRetire := by
  unfold Obligations.MachineChecksFenceAndRetire
  rintro ⟨check, -⟩
  obtain ⟨t, run, -, -, -, third, -⟩ := check 3 2 2 1 0xFFF false 1 placelessOnThread (by decide +kernel) (by decide)
  obtain ⟨gone, -⟩ := third (by decide)
  obtain ⟨u, runs, restarted⟩ := burinMachineCheck_placelessOnThread
  obtain rfl : u = t := Host.Outcome.next.inj (runs.symm.trans run)
  rw [gone] at restarted
  cases restarted

end Sys2Proof.Claims

/-! Family 09, the switch core: what its operations change of a pair and of the fault sources (R302 to R307) -/

namespace Sys2Proof.Claims

open Sys2Proof.Machine

set_option Elab.async false

/-! A pair after a change of one (R302) -/

theorem OnlyIn.fab_eq {ps : List Part} {s t : State} (h : OnlyIn ps s t) (hp : Part.fab ∉ ps := by decide) :
    t.fab = s.fab := h .fab hp

theorem OnlyIn.fpair_same {ps : List Part} {s t : State} (h : OnlyIn ps s t) (a b : Nat)
    (hp : Part.fab ∉ ps := by decide) : t.fpair a b = s.fpair a b := by
  rw [State.fpair, h.fab_eq hp, State.fpair]

@[simp] theorem fpair_setFpair (s : State) (a b : Nat) (x : Pair) : (s.setFpair a b x).fpair a b = x :=
  Tab.get_set_same _ _ _ _

/-- Two pairs of slices have two places. -/
theorem pairPlace_ne {a b i j : Slice} (other : (i, j) ≠ (a, b)) : i.val * 16 + j.val ≠ a.val * 16 + b.val :=
  fun same => other (congrArg₂ Prod.mk (Fin.ext (by omega)) (Fin.ext (by omega)))

theorem fpair_setFpair_other (s : State) {a b i j : Slice} (other : (i, j) ≠ (a, b)) (x : Pair) :
    (s.setFpair a b x).fpair i j = s.fpair i j :=
  Tab.get_set_other _ _ _ (pairPlace_ne other)

@[simp] theorem fpair_modFpair (s : State) (a b : Nat) (g : Pair → Pair) :
    (s.modFpair a b g).fpair a b = g (s.fpair a b) := fpair_setFpair _ _ _ _

theorem fpair_modFpair_other (s : State) {a b i j : Slice} (other : (i, j) ≠ (a, b)) (g : Pair → Pair) :
    (s.modFpair a b g).fpair i j = s.fpair i j := fpair_setFpair_other _ other _

theorem onlyIn_modFpair (s : State) (a b : Nat) (g : Pair → Pair) : OnlyIn [.fab] s (s.modFpair a b g) :=
  onlyIn_setFpair _ _ _ _

/-! A discard touches no more of the switch core than the ready marks (R301, R324) -/

/-- Of the switch core only the marks of what is not ready may differ. -/
def ReadyOnly (s t : State) : Prop := ∃ l, t.fab = { s.fab with notReady := l }

theorem ReadyOnly.refl (s : State) : ReadyOnly s s := ⟨s.fab.notReady, rfl⟩

theorem ReadyOnly.trans {s t u : State} (h : ReadyOnly s t) (k : ReadyOnly t u) : ReadyOnly s u := by
  obtain ⟨l, hl⟩ := h
  obtain ⟨m, hm⟩ := k
  exact ⟨m, by rw [hm, hl]⟩

theorem OnlyIn.readyOnly {ps : List Part} {s t : State} (h : OnlyIn ps s t) (hp : Part.fab ∉ ps := by decide) :
    ReadyOnly s t := ⟨s.fab.notReady, h.fab_eq hp⟩

theorem ReadyOnly.fpair_same {s t : State} (h : ReadyOnly s t) (a b : Nat) : t.fpair a b = s.fpair a b := by
  obtain ⟨l, hl⟩ := h
  rw [State.fpair, hl, State.fpair]

theorem ReadyOnly.runOver {α : Type} {f : α → State → State} (h : ∀ a s, ReadyOnly s (f a s)) (l : List α) (s : State) :
    ReadyOnly s (Machine.runOver l f s) := by
  unfold Machine.runOver
  induction l generalizing s with
  | nil => exact .refl _
  | cons a l ih => exact (h a s).trans (ih _)

theorem readyOnly_flowControl (s : State) (port cls : Nat) : ReadyOnly s (s.flowControl port cls) := by
  simp only [State.flowControl]
  split
  · split
    · exact .refl _
    · exact ⟨_, rfl⟩
  · split
    · exact ⟨_, rfl⟩
    · exact .refl _

theorem readyOnly_freeEgress (s : State) (f : Nat) : ReadyOnly s (s.freeEgress f) := by
  simp only [State.freeEgress]
  split
  · exact ((onlyIn_uncharge _ _ _ _ _ _).readyOnly.trans (onlyIn_setFrame _ _ _).readyOnly).trans
      (readyOnly_flowControl _ _ _)
  · exact .refl _

theorem readyOnly_leave (s : State) (f : Nat) (how : Leaving) : ReadyOnly s (s.leave f how) := by
  have name (u : State) : ReadyOnly u (if how = .sent then u else u.clearName f) := by
    split
    · exact .refl _
    · exact (onlyIn_clearName _ _).readyOnly
  have flow := (onlyIn_sampleRecord s f how).readyOnly.trans (onlyIn_leaveFlow _ f).readyOnly
  exact (((flow.trans (onlyIn_unpin _ _).readyOnly).trans (readyOnly_freeEgress _ _)).trans (name _)).trans
    ((onlyIn_setFrame _ _ _).readyOnly.trans (onlyIn_refDown _ _).readyOnly)

theorem readyOnly_discard (s : State) (f : Nat) : ReadyOnly s (s.discard f) :=
  remove_keeps (R := ReadyOnly) .refl .trans (fun h => h.readyOnly) (fun s f => (onlyIn_leaveLanding s f).readyOnly)
    (fun s f => (onlyIn_leaveEgress s f).readyOnly) readyOnly_leave (fun s p => (onlyIn_issueReady s p).readyOnly)
    s f .dropped

theorem readyOnly_bump_discard (s : State) (k f : Nat) : ReadyOnly s ((s.bump k).discard f) :=
  (onlyIn_bump _ _).readyOnly.trans (readyOnly_discard _ _)

/-! Bytes leave the reassembly region (R303, R304) -/

theorem goneStay_stamp (s : State) (f k : Nat) : GoneStay s (s.stamp f k) := by
  simp only [State.stamp]
  split
  · exact .refl _
  · next tagged => exact goneStay_setFrame (.inl fun gone => tagged (by rw [gone]))

theorem onlyIn_enqueue (s : State) (f : Nat) : OnlyIn [.frames, .sched] s (s.enqueue f) :=
  (((onlyIn_setFrame _ _ _).mono.trans (onlyIn_stamp _ _ _).mono).trans (onlyIn_setQueue _ _ _).mono).trans
    (onlyIn_sched _ _).mono

theorem goneStay_enqueue {s : State} {f : Nat} (there : s.frame f ≠ {}) : GoneStay s (s.enqueue f) :=
  (((goneStay_setFrame (.inl there)).trans (goneStay_stamp _ _ _)).trans (onlyIn_setQueue _ _ _).goneStay).trans
    (onlyIn_sched _ _).goneStay

theorem onlyIn_claimEgress (s : State) (f src : Nat) : OnlyIn [.frames, .bpm] s (s.claimEgress f src) :=
  (onlyIn_setFrame _ _ _).mono.trans (onlyIn_setClaims _ _).mono

theorem goneStay_claimEgress {s : State} {f : Nat} (there : s.frame f ≠ {}) (src : Nat) :
    GoneStay s (s.claimEgress f src) :=
  (goneStay_setFrame (.inl there)).trans (onlyIn_setClaims _ _).goneStay

/-- Frames claim their egress buffers or join their queues, and those that have left stay so. -/
structure TakesBytes (s t : State) : Prop where
  only : OnlyIn [.frames, .bpm, .sched] s t
  stay : GoneStay s t

theorem TakesBytes.refl (s : State) : TakesBytes s s := ⟨.refl _ _, .refl _⟩

theorem TakesBytes.trans {s t u : State} (h : TakesBytes s t) (k : TakesBytes t u) : TakesBytes s u :=
  ⟨h.only.trans k.only, h.stay.trans k.stay⟩

theorem takesBytes_takeSeg (s : State) (src : Nat) (g : Seg) : TakesBytes s (s.takeSeg src g).1 := by
  simp only [State.takeSeg]
  split
  · exact .refl _
  · next there =>
    have claim : TakesBytes s
        (if (s.frame g.frame).eg = .none ∧ 16 ≤ g.off + g.len then s.claimEgress g.frame src else s) := by
      split
      · exact ⟨(onlyIn_claimEgress _ _ _).mono, goneStay_claimEgress there _⟩
      · exact .refl _
    refine claim.trans ?_
    generalize (if (s.frame g.frame).eg = .none ∧ 16 ≤ g.off + g.len then s.claimEgress g.frame src else s) = u
    split
    · exact .refl _
    · next filling =>
      split
      · exact ⟨(onlyIn_enqueue _ _).mono, goneStay_enqueue fun gone => by simp [gone] at filling⟩
      · exact .refl _
    · exact .refl _

theorem takesBytes_takeSegs (s : State) (src : Nat) (l : List Seg) : TakesBytes s (s.takeSegs src l).1 := by
  induction l generalizing s with
  | nil => exact .refl _
  | cons g rest ih =>
    have first := takesBytes_takeSeg s src g
    simp only [State.takeSegs]
    split
    · next t taken => exact TakesBytes.trans (by rwa [taken] at first) (ih t)
    · next taken => rwa [taken] at first

/-- Cells of (a, b) leave the reassembly region: of its pair, only what is there and the SEQ up to which bytes have left
change. -/
structure Drains (a b : Slice) (s t : State) : Prop where
  only : OnlyIn [.frames, .bpm, .fab, .sched] s t
  stay : GoneStay s t
  pair : ∃ region left, t.fpair a b = { s.fpair a b with region := region, left := left }
  others : ∀ i j : Slice, (i, j) ≠ (a, b) → t.fpair i j = s.fpair i j

theorem Drains.refl (a b : Slice) (s : State) : Drains a b s s :=
  ⟨.refl _ _, .refl _, ⟨_, _, rfl⟩, fun _ _ _ => rfl⟩

theorem Drains.trans {a b : Slice} {s t u : State} (h : Drains a b s t) (k : Drains a b t u) : Drains a b s u := by
  obtain ⟨_, _, first⟩ := h.pair
  obtain ⟨region, left, second⟩ := k.pair
  exact ⟨h.only.trans k.only, h.stay.trans k.stay, ⟨region, left, by rw [second, first]⟩,
    fun i j other => (k.others i j other).trans (h.others i j other)⟩

theorem TakesBytes.drains {s t : State} (h : TakesBytes s t) (a b : Slice) : Drains a b s t :=
  ⟨h.only.mono, h.stay, ⟨_, _, h.only.fpair_same a b⟩, fun i j _ => h.only.fpair_same i j⟩

theorem drains_modFpair (s : State) (a b : Slice) (g : Pair → Pair)
    (places : ∃ region left, g (s.fpair a b) = { s.fpair a b with region := region, left := left }) :
    Drains a b s (s.modFpair a b g) :=
  ⟨(onlyIn_modFpair _ _ _ _).mono, (onlyIn_modFpair _ _ _ _).goneStay, by rwa [fpair_modFpair],
    fun _ _ other => fpair_modFpair_other _ other _⟩

theorem drains_drainCells (s : State) (a b : Slice) (n : Nat) : Drains a b s (s.drainCells a b n) := by
  induction n generalizing s with
  | zero => exact .refl _ _ _
  | succ n ih =>
    simp only [State.drainCells]
    split
    · exact .refl _ _ _
    · next c rest _ =>
      have taken := (takesBytes_takeSegs s a c.segs).drains a b
      split
      · exact (drains_modFpair _ _ _ _ ⟨_, _, rfl⟩).trans (ih _)
      · split
        · next all => exact (Drains.trans (by rwa [all] at taken) (drains_modFpair _ _ _ _ ⟨_, _, rfl⟩)).trans (ih _)
        · next some => exact Drains.trans (by rwa [some] at taken) (drains_modFpair _ _ _ _ ⟨_, _, rfl⟩)

theorem drains_drain (s : State) (a b : Slice) : Drains a b s (s.drain a b) := drains_drainCells _ _ _ _

/-! A fault event sets the flag of its source and clears none (R418, R420) -/

/-- No source is retired or comes back, and a flag that is set stays set. -/
structure KeepsSources (s t : State) : Prop where
  retired : ∀ n, (t.fsrc n).retired = (s.fsrc n).retired
  flagged : ∀ n, Flagged n s → Flagged n t

theorem KeepsSources.refl (s : State) : KeepsSources s s := ⟨fun _ => rfl, fun _ => id⟩

theorem KeepsSources.trans {s t u : State} (h : KeepsSources s t) (k : KeepsSources t u) : KeepsSources s u :=
  ⟨fun n => (k.retired n).trans (h.retired n), fun n set => k.flagged n (h.flagged n set)⟩

/-- A step that leaves the sources as they are. -/
theorem keepsSources_of_fsrc {s t : State} (same : ∀ n, t.fsrc n = s.fsrc n) : KeepsSources s t :=
  ⟨fun n => congrArg FaultSource.retired (same n), fun n set => (congrArg FaultSource.flag (same n)).trans set⟩

theorem OnlyIn.keepsSources {ps : List Part} {s t : State} (h : OnlyIn ps s t) (flt : Part.flt ∉ ps := by decide) :
    KeepsSources s t := keepsSources_of_fsrc fun n => h.fsrc_same n flt

theorem keepsSources_setFsrc {s : State} {n : Nat} {x : FaultSource} (retired : x.retired = (s.fsrc n).retired)
    (flag : (s.fsrc n).flag = true → x.flag = true) : KeepsSources s (s.setFsrc n x) := by
  refine ⟨fun m => ?_, fun m set => ?_⟩
  · by_cases same : m = n
    · rw [same, State.fsrc_setFsrc, retired]
    · rw [State.fsrc_setFsrc_other _ _ same]
  · by_cases same : m = n
    · subst same
      exact flagged_setFsrc s (flag set)
    · exact (congrArg FaultSource.flag (State.fsrc_setFsrc_other _ _ same)).trans set

theorem keepsSources_noteEvent (s : State) (n t cause detail : Nat) : KeepsSources s (s.noteEvent n t cause detail) :=
  keepsSources_setFsrc rfl id

theorem keepsSources_flushRecord (s : State) (n : Nat) (why : Reason) : KeepsSources s (s.flushRecord n why) :=
  (keepsSources_setFsrc (s := s) (n := n) (x := { s.fsrc n with count := 0, firstTime := 0 }) rfl id).trans
    (onlyIn_faultRecord _ _).keepsSources

theorem keepsSources_heldRecord (s : State) (n : Nat) (why : Reason) : KeepsSources s (s.heldRecord n why) := by
  simp only [State.heldRecord]
  split
  · exact .refl _
  · split
    · exact keepsSources_flushRecord _ _ _
    · refine KeepsSources.trans ?_ (keepsSources_flushRecord _ _ _)
      exact keepsSources_setFsrc rfl id

theorem keepsSources_countedEvents (s : State) (n t cause detail : Nat) (why : Reason) (k : Nat) :
    KeepsSources s (s.countedEvents n t cause detail why k) := by
  induction k generalizing s with
  | zero => exact .refl _
  | succ k ih =>
    simp only [State.countedEvents]
    refine ((keepsSources_noteEvent s n t cause detail).trans ?_).trans (ih _)
    split
    · exact keepsSources_flushRecord _ _ _
    · exact keepsSources_heldRecord _ _ _

theorem keepsSources_degrade (s : State) (n : Nat) : KeepsSources s (s.degrade n) :=
  keepsSources_of_fsrc fun m => fsrc_degrade s n m

theorem keepsSources_enqueueRetirement (s : State) (n : Nat) : KeepsSources s (s.enqueueRetirement n) :=
  keepsSources_of_fsrc fun _ => rfl

theorem keepsSources_classify (s : State) (n : Nat) : KeepsSources s (s.classify n) := by
  have entry (u : State) (b : Bytes) : KeepsSources u (if u.mode = .factoryTest then u else u.kilnPerm 0x0010 3 b) := by
    split
    · exact .refl _
    · exact (onlyIn_kilnPerm _ _ _ _).keepsSources
  have classed : KeepsSources s (s.setFsrc n { s.fsrc n with perm := true, permCycle := s.now / 10 + 1 }) :=
    keepsSources_setFsrc rfl id
  have recorded := (classed.trans (keepsSources_flushRecord _ n .permanent)).trans
    (entry _ (leBytes 2 n ++ leBytes 1 (sourceCat n)))
  unfold State.classify
  cases poolOf n with
  | some _ => exact recorded.trans (keepsSources_enqueueRetirement _ _)
  | none => exact recorded.trans (keepsSources_degrade _ _)

theorem keepsSources_retirableEvent (s : State) (n t cause detail : Nat) :
    KeepsSources s (s.retirableEvent n t cause detail) := by
  have counted (u : State) (hist : List Nat) : KeepsSources u (u.setFsrc n { u.fsrc n with hist := hist }) :=
    keepsSources_setFsrc rfl id
  unfold State.retirableEvent
  refine (keepsSources_noteEvent s n t cause detail).trans ?_
  generalize s.noteEvent n t cause detail = u
  refine (counted u (((u.fsrc n).hist ++ [t]).drop ((u.fsrc n).hist.length + 1 - 15))).trans ?_
  dsimp only
  generalize u.setFsrc n _ = v
  split
  · exact keepsSources_classify _ _
  · exact (onlyIn_kiln v { v.kiln with
      retry := v.kiln.retry.set 0 (sourceCat n) (v.kiln.retry.get 0 (sourceCat n) + 1) } rfl).keepsSources.trans
        (keepsSources_heldRecord _ _ _)

theorem keepsSources_retirableEvents (s : State) (n t cause detail k : Nat) :
    KeepsSources s (s.retirableEvents n t cause detail k) := by
  induction k generalizing s with
  | zero => exact .refl _
  | succ k ih =>
    simp only [State.retirableEvents]
    split
    · exact .refl _
    · exact (keepsSources_retirableEvent _ _ _ _ _).trans (ih _)

/-- The flag of a source is set. -/
def flagSource (s : State) (n : Nat) : State := s.setFsrc n { s.fsrc n with flag := true }

theorem keepsSources_flagSource (s : State) (n : Nat) : KeepsSources s (flagSource s n) :=
  keepsSources_setFsrc rfl fun _ => rfl

/-- An event of an assigned source that is not retired sets the source's flag, and then keeps the sources. -/
theorem keepsSources_flaggedFault {s : State} {n : Nat} (active : (s.fsrc n).retired = false)
    (kind : sourceKind n ≠ .unassigned) (cause detail : Nat) :
    KeepsSources (flagSource s n) (s.fault n cause detail) := by
  simp only [State.fault, State.faultEventAt]
  split
  · next retired => exact absurd retired (by simp [active])
  · rw [flagSource]
    generalize s.setFsrc n { s.fsrc n with flag := true } = u
    have count (k : Nat) : KeepsSources u (u.bumpBy k 1) := (onlyIn_bumpBy _ _ _).keepsSources
    split
    · next unassigned => exact absurd unassigned kind
    · split
      · exact (count _).trans (keepsSources_countedEvents _ _ _ _ _ _ _)
      · exact keepsSources_countedEvents _ _ _ _ _ _ _
    · refine (count (cntFlt 0)).trans ?_
      generalize u.bumpBy (cntFlt 0) 1 = v
      generalize (if n = 0x30 then 9 else 10) = slot
      exact (onlyIn_kiln v { v.kiln with
        retry := v.kiln.retry.set 0 slot (v.kiln.retry.get 0 slot + 1) } rfl).keepsSources.trans
          (keepsSources_countedEvents _ _ _ _ _ _ _)
    · exact count _
    · exact (count _).trans (keepsSources_retirableEvents _ _ _ _ _ _)

theorem flagged_faultOf {s : State} {n : Nat} (active : (s.fsrc n).retired = false) (kind : sourceKind n ≠ .unassigned)
    (cause detail : Nat) : Flagged n (s.fault n cause detail) :=
  (keepsSources_flaggedFault active kind cause detail).flagged n (flagged_setFsrc s rfl)

theorem keepsSources_fault (s : State) (n cause detail : Nat) : KeepsSources s (s.fault n cause detail) := by
  by_cases retired : (s.fsrc n).retired = true
  · rw [State.fault, State.faultEventAt, if_pos retired]
    exact .refl _
  · by_cases kind : sourceKind n = .unassigned
    · rw [State.fault, State.faultEventAt, if_neg retired, kind]
      refine keepsSources_of_fsrc fun m => ?_
      change ((flagSource s n).setFsrc n (s.fsrc n)).fsrc m = s.fsrc m
      by_cases same : m = n
      · rw [same, State.fsrc_setFsrc]
      · rw [State.fsrc_setFsrc_other _ _ same, flagSource, State.fsrc_setFsrc_other _ _ same]
    · exact (keepsSources_flagSource s n).trans (keepsSources_flaggedFault (Bool.eq_false_iff.mpr retired) kind _ _)

end Sys2Proof.Claims

/-! Family 09, cells received, acknowledged and resent (R302 to R307) -/

namespace Sys2Proof.Claims

open Sys2Proof.Machine

set_option Elab.async false

/-! The pair of a cell that arrives -/

theorem foldl_nak (p : Pair) (l : List Nat) : l.foldl Pair.nak p = { p with naks := p.naks ++ l } := by
  induction l generalizing p with
  | nil => simp
  | cons q l ih => simp [ih, Pair.nak]

theorem see_eq (p : Pair) (q : Nat) : ∃ n, p.see q = { p with seen := n } := by
  unfold Pair.see
  split
  · exact ⟨p.seen, rfl⟩
  · exact ⟨_, rfl⟩

theorem seqBefore_self (x : Nat) : seqBefore x x = false := by
  simp [seqBefore]

theorem placeHeld_gap {p : Pair} (gap : ∀ d ∈ p.held, d.seq ≠ p.expect) (n : Nat) : placeHeld p n = p := by
  have none : p.held.find? (fun c => c.seq = p.expect) = none := by simpa using gap
  cases n with
  | zero => rfl
  | succ n => simp only [placeHeld, none]

theorem placeHeld_next {p : Pair} {c : Cell} (alone : p.held = [c]) (next : c.seq = p.expect) :
    placeHeld p 1 = { p with held := [], region := p.region ++ [c], expect := (p.expect + 1) % 65536 } := by
  simp [placeHeld, alone, next]

/-- The pair that has taken a clean cell in, with the NAKs for what is missing before it. -/
def arrived (p : Pair) (c : Cell) : Pair :=
  { ((seqFrom p.seen c.seq).foldl Pair.nak p).see c.seq with
    held := ((seqFrom p.seen c.seq).foldl Pair.nak p).held ++ [c] }

/-- What a cell that is taken in leaves of its pair. -/
theorem arrived_eq (p : Pair) (c : Cell) : ∃ n, arrived p c =
    { p with naks := p.naks ++ seqFrom p.seen c.seq, held := p.held ++ [c], seen := n } := by
  obtain ⟨n, seen⟩ := see_eq ((seqFrom p.seen c.seq).foldl Pair.nak p) c.seq
  exact ⟨n, by rw [arrived, seen, foldl_nak]⟩

/-- The pair once a clean cell is taken in and what has no gap before it is placed. -/
def placed (p : Pair) (c : Cell) : Pair := placeHeld (arrived p c) (arrived p c).held.length

theorem placed_next {p : Pair} {c : Cell} (next : c.seq = p.expect) (none : p.held = []) :
    (placed p c).expect = (p.expect + 1) % 65536 ∧ (placed p c).held = [] ∧
      (placed p c).naks = p.naks ++ seqFrom p.seen c.seq := by
  obtain ⟨n, came⟩ := arrived_eq p c
  have alone : (arrived p c).held = [c] := by rw [came, none]; rfl
  rw [placed, alone, List.length_singleton, placeHeld_next alone (by rw [came, next]), came]
  exact ⟨rfl, rfl, rfl⟩

theorem placed_gap {p : Pair} {c : Cell} (gap : c.seq ≠ p.expect) (held : ∀ d ∈ p.held, d.seq ≠ p.expect) :
    (placed p c).expect = p.expect ∧ (placed p c).held = p.held ++ [c] ∧
      (placed p c).naks = p.naks ++ seqFrom p.seen c.seq := by
  obtain ⟨n, came⟩ := arrived_eq p c
  have waits : ∀ d ∈ (arrived p c).held, d.seq ≠ (arrived p c).expect := by
    rw [came]
    intro d hd
    rcases List.mem_append.mp hd with old | new
    · exact held d old
    · rwa [List.mem_singleton.mp new]
  rw [placed, placeHeld_gap waits, came]
  exact ⟨rfl, rfl, rfl⟩

/-! CELL_RECEIVE -/

/-- The first cell on the planes with SEQ `q` is there no more. -/
def offPlanes (q : BitVec 16) (p : Pair) : Pair := { p with flying := p.flying.eraseP fun c => c.seq = q.toNat }

/-- The first cell on the planes with SEQ `q` has crossed. -/
def landed (s : State) (a b : Nat) (q : BitVec 16) : State := s.modFpair a b (offPlanes q)

theorem fpair_landed (s : State) (a b : Nat) (q : BitVec 16) :
    (landed s a b q).fpair a b = offPlanes q (s.fpair a b) := fpair_modFpair _ _ _ _

theorem onlyIn_landed (s : State) (a b : Nat) (q : BitVec 16) : OnlyIn [.fab] s (landed s a b q) :=
  onlyIn_modFpair _ _ _ _

section
variable {a b : Slice} {q : BitVec 16} {c : Cell} {s : State}

theorem exec_cellReceive_clean (flies : (s.fpair a b).flying.find? (fun c => c.seq = q.toNat) = some c)
    (planes : s.corruptPlane = none) (port : s.flt.corrupt.get 0 (0x20 + a.val) = 0) :
    exec (.cellReceive a b q ⟨[], false⟩) s = .next ((landed s a b q).placeCell a b c) := by
  have plane : (landed s a b q).corruptPlane = none := planes
  have whole : (landed s a b q).takeCorrupt (0x20 + a.val) = (false, landed s a b q) := by
    have waits : (landed s a b q).flt.corrupt.get 0 (0x20 + a.val) = 0 := port
    simp [State.takeCorrupt, waits]
  change Host.Outcome.next (match (s.fpair a b).flying.find? _ with | none => s | some c => _) = _
  rw [flies]
  change Host.Outcome.next ((landed s a b q).cleanCell a b c) = _
  rw [State.cleanCell, plane, whole]

theorem exec_cellReceive_failed {e : CellError}
    (flies : (s.fpair a b).flying.find? (fun c => c.seq = q.toNat) = some c) (fails : e.beats ≠ [] ∨ e.header = true) :
    exec (.cellReceive a b q e) s = .next ((landed s a b q).failedCell a b c e) := by
  have hurt : (e.beats.isEmpty && !e.header) = false := by
    rcases fails with beats | header
    · simp [beats]
    · simp [header]
  change Host.Outcome.next (match (s.fpair a b).flying.find? _ with | none => s | some c => _) = _
  rw [flies]
  change Host.Outcome.next (if (e.beats.isEmpty && !e.header) = true then (landed s a b q).cleanCell a b c else _) = _
  rw [hurt]
  rfl

theorem placeCell_again (again : seqBefore c.seq (s.fpair a b).expect = true ∨
    (s.fpair a b).held.any (fun x => x.seq = c.seq) = true) : s.placeCell a b c = s.bump (cntFab b 3) :=
  if_pos again

theorem placeCell_new (before : seqBefore c.seq (s.fpair a b).expect = false)
    (held : (s.fpair a b).held.any (fun x => x.seq = c.seq) = false) : s.placeCell a b c =
      (s.setFpair a b (placed (s.fpair a b) c)).drain a b :=
  if_neg (by simp [before, held])

/-- A new clean cell is taken in, and what has no gap before it is placed (R303 to R305). -/
theorem cellReceive_places (flies : (s.fpair a b).flying.find? (fun c => c.seq = q.toNat) = some c)
    (planes : s.corruptPlane = none) (port : s.flt.corrupt.get 0 (0x20 + a.val) = 0)
    (before : seqBefore c.seq (s.fpair a b).expect = false) (held : ∀ d ∈ (s.fpair a b).held, d.seq ≠ c.seq) :
    ∃ t, exec (.cellReceive a b q ⟨[], false⟩) s = .next t ∧
      (∃ region left, t.fpair a b = { placed (offPlanes q (s.fpair a b)) c with region := region, left := left }) ∧
      (∀ i j : Slice, (i, j) ≠ (a, b) → t.fpair i j = s.fpair i j) ∧ OnlyIn [.frames, .bpm, .fab, .sched] s t := by
  obtain ⟨only, -, pair, others⟩ :=
    drains_drain ((landed s a b q).setFpair a b (placed (offPlanes q (s.fpair a b)) c)) a b
  rw [fpair_setFpair] at pair
  refine ⟨_, ?_, pair, fun i j other => ?_, ((onlyIn_landed _ _ _ _).trans (onlyIn_setFpair _ _ _ _)).mono.trans only⟩
  · rw [exec_cellReceive_clean flies planes port, placeCell_new, fpair_landed]
    · rw [fpair_landed]
      exact before
    · rw [fpair_landed]
      simpa [offPlanes] using held
  · rw [others i j other, fpair_setFpair_other _ other, landed, fpair_modFpair_other _ other]

/-- A duplicate is dropped and counted (R305). -/
theorem cellReceive_duplicate (flies : (s.fpair a b).flying.find? (fun c => c.seq = q.toNat) = some c)
    (planes : s.corruptPlane = none) (port : s.flt.corrupt.get 0 (0x20 + a.val) = 0)
    (again : seqBefore c.seq (s.fpair a b).expect = true ∨ (s.fpair a b).held.any (fun x => x.seq = c.seq) = true) :
    exec (.cellReceive a b q ⟨[], false⟩) s = .next ((landed s a b q).bump (cntFab b 3)) := by
  rw [exec_cellReceive_clean flies planes port, placeCell_again]
  rwa [fpair_landed]

end

/-! A cell that fails (R305, R307) -/

theorem onlyIn_beatErrors (s : State) (c : Cell) (beats : List Nat) : OnlyIn faultParts s (s.beatErrors c beats) :=
  .runOver (fun _ _ => (onlyIn_bump _ _).mono.trans (onlyIn_fault _ _ _ _)) _ _

theorem keepsSources_beatErrors (s : State) (c : Cell) (beats : List Nat) : KeepsSources s (s.beatErrors c beats) := by
  unfold State.beatErrors Machine.runOver
  induction beats generalizing s with
  | nil => exact .refl _
  | cons n beats ih => exact ((onlyIn_bump _ _).keepsSources.trans (keepsSources_fault _ _ _ _)).trans (ih _)

theorem beatErrors_cons (s : State) (c : Cell) (n : Nat) (beats : List Nat) : s.beatErrors c (n :: beats) =
    ((s.bump (cntPlaneErr (c.planeOf n))).fault (c.planeOf n) 0 0).beatErrors c beats := rfl

/-- Each beat that fails sets the flag of the plane that carried it. -/
theorem flagged_beatErrors {s : State} {c : Cell} {beats : List Nat} {n : Nat} (fails : n ∈ beats)
    (kind : sourceKind (c.planeOf n) ≠ .unassigned) (active : (s.fsrc (c.planeOf n)).retired = false) :
    Flagged (c.planeOf n) (s.beatErrors c beats) := by
  induction beats generalizing s with
  | nil => cases fails
  | cons m beats ih =>
    have counted : KeepsSources s (s.bump (cntPlaneErr (c.planeOf m))) := (onlyIn_bump _ _).keepsSources
    rw [beatErrors_cons]
    rcases List.mem_cons.mp fails with rfl | later
    · exact (keepsSources_beatErrors _ _ _).flagged _
        (flagged_faultOf ((counted.retired _).trans active) kind 0 0)
    · exact ih later (((counted.trans (keepsSources_fault _ _ _ _)).retired _).trans active)

theorem sourceKind_fabricPort (a : Slice) : sourceKind (0x20 + a.val) = .retirable := by
  rw [sourceKind, if_neg (by omega), if_pos (by omega)]

/-- The beats that fail, in their order. -/
def failedBeats (e : CellError) : List Nat := (List.range 32).filter fun n => e.beats.any fun x => x.val = n

theorem mem_failedBeats {e : CellError} (n : Fin 32) : n.val ∈ failedBeats e ↔ n ∈ e.beats := by
  simp [failedBeats, Fin.val_inj]

/-- The fault events of a cell that fails: of the planes, and of its source slice where the first beat passed. -/
def cellEvents (s : State) (a : Nat) (c : Cell) (e : CellError) : State :=
  if e.header && !(failedBeats e).contains 0 then (s.beatErrors c (failedBeats e)).fault (0x20 + a) 0 0
  else s.beatErrors c (failedBeats e)

theorem failedCell_eq (s : State) (a b : Nat) (c : Cell) (e : CellError) :
    s.failedCell a b c e = cellEvents (s.badCell a b c.seq) a c e := rfl

theorem onlyIn_cellEvents (s : State) (a : Nat) (c : Cell) (e : CellError) :
    OnlyIn faultParts s (cellEvents s a c e) := by
  unfold cellEvents
  split
  · exact (onlyIn_beatErrors _ _ _).trans (onlyIn_fault _ _ _ _)
  · exact onlyIn_beatErrors _ _ _

theorem flagged_cellEvents_plane {s : State} {c : Cell} {e : CellError} {n : Fin 32} (a : Nat) (fails : n ∈ e.beats)
    (kind : sourceKind (c.planeOf n) ≠ .unassigned) (active : (s.fsrc (c.planeOf n)).retired = false) :
    Flagged (c.planeOf n) (cellEvents s a c e) := by
  have set := flagged_beatErrors ((mem_failedBeats n).mpr fails) kind active
  unfold cellEvents
  split
  · exact (keepsSources_fault _ _ _ _).flagged _ set
  · exact set

theorem flagged_cellEvents_source {s : State} {a : Slice} {e : CellError} (c : Cell) (header : e.header = true)
    (first : 0 ∉ e.beats) (active : (s.fsrc (0x20 + a.val)).retired = false) :
    Flagged (0x20 + a.val) (cellEvents s a c e) := by
  have passed : 0 ∉ failedBeats e := fun fails => first ((mem_failedBeats 0).mp fails)
  rw [cellEvents, if_pos (by simp [header, passed])]
  exact flagged_faultOf (((keepsSources_beatErrors _ _ _).retired _).trans active)
    (by rw [sourceKind_fabricPort]; decide) 0 0

theorem fpair_badCell (s : State) (a b seq : Nat) : ∃ n, (s.badCell a b seq).fpair a b =
    { s.fpair a b with naks := (s.fpair a b).naks ++ [seq], seen := n } := by
  obtain ⟨n, seen⟩ := see_eq (s.fpair a b) seq
  refine ⟨n, ?_⟩
  rw [State.badCell, (onlyIn_bump _ _).fpair_same, fpair_modFpair, seen, Pair.nak]

theorem onlyIn_badCell (s : State) (a b seq : Nat) : OnlyIn [.fab, .cnts] s (s.badCell a b seq) :=
  (onlyIn_modFpair _ _ _ _).mono.trans (onlyIn_bump _ _).mono

/-- A cell that fails is NAKed and is not placed, and its faults are events of their sources. -/
theorem cellReceive_fails {a b : Slice} {q : BitVec 16} {e : CellError} {c : Cell} {s : State}
    (flies : (s.fpair a b).flying.find? (fun c => c.seq = q.toNat) = some c) (fails : e.beats ≠ [] ∨ e.header = true) :
    ∃ t, exec (.cellReceive a b q e) s = .next t ∧ (t.fpair a b).naks = (s.fpair a b).naks ++ [c.seq] ∧
      (t.fpair a b).flying = (s.fpair a b).flying.eraseP (fun c => c.seq = q.toNat) ∧
      (t.fpair a b).expect = (s.fpair a b).expect ∧ (t.fpair a b).held = (s.fpair a b).held ∧
      (∀ n ∈ e.beats, sourceKind (c.planeOf n) ≠ .unassigned → (s.fsrc (c.planeOf n)).retired = false →
        (t.fsrc (c.planeOf n)).flag = true) ∧
      (e.header = true → 0 ∉ e.beats → (s.fsrc (0x20 + a.val)).retired = false → (t.fsrc (0x20 + a.val)).flag = true) ∧
      OnlyIn (.fab :: faultParts) s t := by
  have run : exec (.cellReceive a b q e) s = .next (cellEvents ((landed s a b q).badCell a b c.seq) a c e) := by
    rw [exec_cellReceive_failed flies fails, failedCell_eq]
  have noted : OnlyIn [.fab, .cnts] s ((landed s a b q).badCell a b c.seq) :=
    (onlyIn_landed _ _ _ _).mono.trans (onlyIn_badCell _ _ _ _)
  obtain ⟨n, bad⟩ := fpair_badCell (landed s a b q) a b c.seq
  have events := onlyIn_cellEvents ((landed s a b q).badCell a b c.seq) a c e
  have pair := (events.fpair_same a b).trans (bad.trans (by rw [fpair_landed]))
  have active (m : Nat) (h : (s.fsrc m).retired = false) :
      (((landed s a b q).badCell a b c.seq).fsrc m).retired = false := (noted.keepsSources.retired m).trans h
  exact ⟨_, run, (congrArg Pair.naks pair :), (congrArg Pair.flying pair :),
    (congrArg Pair.expect pair :), (congrArg Pair.held pair :),
    fun n beat kind retired => flagged_cellEvents_plane a beat kind (active _ retired),
    fun header first retired => flagged_cellEvents_source c header first (active _ retired),
    noted.mono.trans events.mono⟩

/-! Acknowledgements, NAKs and timeouts (R304, R305) -/

theorem cellAck_frees (a b : Slice) (s : State) : ∃ t, exec (.cellAck a b) s = .next t ∧
    (t.fpair a b).unacked =
      (s.fpair a b).unacked.filter (fun c => !seqBefore c.seq ((s.drain a b).fpair a b).left) ∧
    (∀ i j : Slice, (i, j) ≠ (a, b) → t.fpair i j = s.fpair i j) ∧
    OnlyIn [.cnts, .frames, .bpm, .fab, .sched] s t := by
  obtain ⟨only, -, ⟨region, left, pair⟩, others⟩ := drains_drain s a b
  have release (u : State) (l : List Nat) : OnlyIn [.bpm, .cnts] u (runOver l (fun f s => s.clearName f) u).panicSync :=
    (OnlyIn.runOver (fun f s => (onlyIn_clearName s f).mono) _ _).trans (onlyIn_panicSync _)
  refine ⟨_, rfl, ?_, fun i j other => ?_, (only.mono.trans (onlyIn_setFpair _ _ _ _).mono).trans (release _ _).mono⟩
  · rw [(release _ _).fpair_same, fpair_setFpair, pair]
  · rw [(release _ _).fpair_same, fpair_setFpair_other _ other, others i j other]

/-- The cells of a pair after one more failure of those with this SEQ that do not wait to be sent again. -/
theorem fpair_failCell (s : State) (a b seq : Nat) : (s.failCell a b seq).fpair a b =
    { s.fpair a b with unacked := (s.fpair a b).unacked.map fun c =>
        if c.seq = seq ∧ c.resend = false then { c with failed := c.failed + 1, resend := true } else c } := by
  simp [State.failCell]

theorem cellNak_fails {a b : Slice} {q : BitVec 16} {s : State} (sent : q.toNat ∈ (s.fpair a b).naks) :
    ∃ t, exec (.cellNak a b q) s = .next t ∧ (t.fpair a b).naks = (s.fpair a b).naks.erase q.toNat ∧
      (t.fpair a b).unacked = (s.fpair a b).unacked.map (fun c =>
        if c.seq = q.toNat ∧ c.resend = false then { c with failed := c.failed + 1, resend := true } else c) ∧
      (∀ i j : Slice, (i, j) ≠ (a, b) → t.fpair i j = s.fpair i j) ∧ OnlyIn [.fab] s t := by
  refine ⟨_, congrArg Host.Outcome.next (if_pos (List.contains_iff_mem.mpr sent)), ?_, ?_, fun i j other => ?_,
    (onlyIn_setFpair _ _ _ _).trans (onlyIn_modFpair _ _ _ _)⟩
  · rw [fpair_failCell, fpair_setFpair]
  · rw [fpair_failCell, fpair_setFpair]
  · rw [State.failCell, fpair_modFpair_other _ other, fpair_setFpair_other _ other]

theorem cellRetxTimeout_fails {a b : Slice} {q : BitVec 16} {c : Cell} {s : State} (waits : c ∈ (s.fpair a b).unacked)
    (seq : c.seq = q.toNat) (resend : c.resend = false)
    (late : s.fld .fabRetxCfg 0 0 19 8 ≤ s.fab.cellTime - c.sentAt) :
    ∃ t, exec (.cellRetxTimeout a b q) s = .next t ∧
      (t.fpair a b).unacked = (s.fpair a b).unacked.map (fun c =>
        if c.seq = q.toNat ∧ c.resend = false then { c with failed := c.failed + 1, resend := true } else c) ∧
      (∀ i j : Slice, (i, j) ≠ (a, b) → t.fpair i j = s.fpair i j) ∧ OnlyIn [.fab] s t := by
  have due : ((s.fpair a b).unacked.any fun c => c.seq = q.toNat && !c.resend &&
      s.fld .fabRetxCfg 0 0 19 8 ≤ s.fab.cellTime - c.sentAt) = true :=
    List.any_eq_true.mpr ⟨c, waits, by simp [seq, resend, late]⟩
  refine ⟨_, congrArg Host.Outcome.next (if_pos due), ?_, fun i j other => ?_, onlyIn_modFpair _ _ _ _⟩
  · rw [fpair_failCell]
  · rw [State.failCell, fpair_modFpair_other _ other]

/-! A poisoned cell (R306) -/

/-- The unacknowledged cells with the SEQ of `c` go out void. -/
def voided (s : State) (a b : Nat) (c : Cell) : State :=
  s.modFpair a b fun p => { p with unacked := p.unacked.map fun x =>
    if x.seq = c.seq then { x with poison := true, resend := true } else x }

/-- The frames with bytes in `c` that are still in the device are discarded. -/
def framesLost (s : State) (a : Nat) (c : Cell) : State :=
  runOver ((framesIn [c]).filter fun f => s.frame f ≠ {}) (fun f s => (s.bump (cntFab a 4)).discard f) s

theorem onlyIn_framesLost (s : State) (a : Nat) (c : Cell) : OnlyIn leaveParts s (framesLost s a c) :=
  .runOver (fun _ _ => onlyIn_bump_discard _ _ _) _ _

theorem readyOnly_framesLost (s : State) (a : Nat) (c : Cell) : ReadyOnly s (framesLost s a c) :=
  .runOver (fun _ _ => readyOnly_bump_discard _ _ _) _ _

theorem gone_framesLost {s : State} {c : Cell} {f : Nat} (holds : f ∈ framesIn [c]) (a : Nat) :
    (framesLost s a c).frame f = {} := by
  by_cases there : s.frame f = {}
  · exact GoneStay.runOver (fun _ _ => goneStay_bump_discard _ _ _) _ _ f there
  · exact gone_runOver (fun _ _ => frame_discard_self _ _) (fun _ _ => goneStay_bump_discard _ _ _)
      (List.mem_filter.mpr ⟨holds, by simpa using there⟩) _

theorem cellPoison_voids {a b : Slice} {q : BitVec 16} {c : Cell} {s : State}
    (failed : (s.fpair a b).unacked.find? (fun c => c.seq = q.toNat && !c.poison && s.retryMax ≤ c.failed) = some c) :
    ∃ t, exec (.cellPoison a b q) s = .next t ∧
      (t.fpair a b).unacked = (s.fpair a b).unacked.map (fun x =>
        if x.seq = c.seq then { x with poison := true, resend := true } else x) ∧
      (∀ f ∈ framesIn [c], t.frame f = {}) ∧ OnlyIn leaveParts s t := by
  have run : exec (.cellPoison a b q) s = .next ((framesLost (voided s a b c) a c).drain a b).panicSync := by
    change Host.Outcome.next (match (s.fpair a b).unacked.find? _ with | none => s | some c => _) = _
    rw [failed]
    rfl
  obtain ⟨only, stay, ⟨region, left, pair⟩, -⟩ := drains_drain (framesLost (voided s a b c) a c) a b
  have sync := onlyIn_panicSync ((framesLost (voided s a b c) a c).drain a b)
  refine ⟨_, run, ?_, fun f holds => ?_, (((onlyIn_modFpair _ _ _ _).mono.trans (onlyIn_framesLost _ _ _)).trans
    only.mono).trans sync.mono⟩
  · rw [sync.fpair_same, pair, (readyOnly_framesLost _ _ _).fpair_same, voided, fpair_modFpair]
  · rw [sync.frame_same (by decide)]
    exact stay f (gone_framesLost holds a)

/-- Settles O35. -/
theorem cellsAreReceivedAcknowledgedAndResent : Obligations.CellsAreReceivedAcknowledgedAndResent := by
  refine ⟨fun a b q c s flies planes port => ⟨fun next none => ?_, fun before gap held => ?_,
      cellReceive_duplicate flies planes port⟩, fun a b q e c s flies fails => ?_, cellAck_frees,
    fun a b q s sent => cellNak_fails sent, fun a b q c s waits seq resend late =>
      cellRetxTimeout_fails waits seq resend late, fun a b q c s failed => ?_⟩
  · obtain ⟨t, run, ⟨_, _, pair⟩, others, only⟩ := cellReceive_places flies planes port
      (next ▸ seqBefore_self _) (by simp [none])
    obtain ⟨expect, held, naks⟩ := placed_next (p := offPlanes q (s.fpair a b)) next none
    exact ⟨t, run, pair ▸ expect, pair ▸ held, pair ▸ naks, others, only.mono⟩
  · obtain ⟨t, run, ⟨_, _, pair⟩, others, only⟩ := cellReceive_places flies planes port before fun d hd => (held d hd).1
    obtain ⟨expect, held, naks⟩ := placed_gap (p := offPlanes q (s.fpair a b)) gap fun d hd => (held d hd).2
    exact ⟨t, run, pair ▸ expect, pair ▸ held, pair ▸ naks, others, only.mono⟩
  · obtain ⟨t, run, naks, flying, expect, held, planes, source, only⟩ := cellReceive_fails flies fails
    exact ⟨t, run, naks, flying, expect, held, planes, source, only.mono⟩
  · obtain ⟨t, run, unacked, gone, only⟩ := cellPoison_voids failed
    exact ⟨t, run, unacked, gone, only.mono⟩

end Sys2Proof.Claims

/-! Family 09, the matcher and the cells it carries (R294 to R302, R308) -/

namespace Sys2Proof.Claims

open Sys2Proof.Machine

set_option Elab.async false

/-! The best of 16 values (R297) -/

/-- One value is taken in place of the best so far when it is greater. -/
def better (ptr : Nat) (val : Nat → Nat) (best : Option (Nat × Nat)) (k : Nat) : Option (Nat × Nat) :=
  match best with
  | some (x, w) => if w < val ((ptr + k) % 16) then some ((ptr + k) % 16, val ((ptr + k) % 16)) else some (x, w)
  | none => if 0 < val ((ptr + k) % 16) then some ((ptr + k) % 16, val ((ptr + k) % 16)) else none

theorem bestFrom_eq (ptr : Nat) (val : Nat → Nat) :
    bestFrom ptr val = ((List.range 16).foldl (better ptr val) none).map Prod.fst := by
  unfold bestFrom
  congr 2
  funext best k
  cases best <;> rfl

/-- The best so far is one of the 16 values and is not 0. -/
def IsRequest (val : Nat → Nat) (best : Option (Nat × Nat)) : Prop :=
  ∀ x w, best = some (x, w) → x < 16 ∧ w = val x ∧ 0 < w

theorem isRequest_better {val : Nat → Nat} {best : Option (Nat × Nat)} (h : IsRequest val best) (ptr k : Nat) :
    IsRequest val (better ptr val best k) := by
  have inside : (ptr + k) % 16 < 16 := Nat.mod_lt _ (by decide)
  intro x w hx
  cases best with
  | none =>
    simp only [better] at hx
    split at hx
    · next value =>
      cases hx
      exact ⟨inside, rfl, value⟩
    · cases hx
  | some p =>
    obtain ⟨y, v⟩ := p
    simp only [better] at hx
    split at hx
    · next more =>
      cases hx
      exact ⟨inside, rfl, by omega⟩
    · exact h x w hx

/-- What is chosen is one of the 16, and its value is not 0. -/
theorem bestFrom_requests {ptr x : Nat} {val : Nat → Nat} (h : bestFrom ptr val = some x) : x < 16 ∧ 0 < val x := by
  rw [bestFrom_eq] at h
  obtain ⟨⟨y, w⟩, best, rfl⟩ := Option.map_eq_some_iff.mp h
  have all : IsRequest val ((List.range 16).foldl (better ptr val) none) :=
    List.foldlRecOn _ _ (by intro _ _ none; cases none) fun _ so k _ => isRequest_better so ptr k
  obtain ⟨inside, value, some⟩ := all y w best
  exact ⟨inside, value ▸ some⟩

theorem isSome_foldl_better (ptr : Nat) (val : Nat → Nat) (l : List Nat) (best : Option (Nat × Nat))
    (h : best.isSome = true ∨ ∃ k ∈ l, 0 < val ((ptr + k) % 16)) : (l.foldl (better ptr val) best).isSome = true := by
  induction l generalizing best with
  | nil => simpa using h
  | cons k l ih =>
    refine ih _ ?_
    cases best with
    | some p => exact .inl (by simp only [better]; split <;> rfl)
    | none =>
      obtain ⟨m, hm, value⟩ := h.resolve_left (by simp)
      rcases List.mem_cons.mp hm with rfl | later
      · exact .inl (by simp [better, value])
      · exact .inr ⟨m, later, value⟩

/-- One is chosen where there is a value. -/
theorem isSome_bestFrom (ptr : Nat) {x : Nat} {val : Nat → Nat} (inside : x < 16) (value : 0 < val x) :
    (bestFrom ptr val).isSome = true := by
  have turn : (ptr + (x + 16 - ptr % 16) % 16) % 16 = x := by omega
  rw [bestFrom_eq, Option.isSome_map]
  exact isSome_foldl_better _ _ _ _
    (.inr ⟨(x + 16 - ptr % 16) % 16, List.mem_range.mpr (Nat.mod_lt _ (by decide)), by rwa [turn]⟩)

/-- The only value is chosen. -/
theorem bestFrom_only (ptr : Nat) {x : Nat} {val : Nat → Nat} (inside : x < 16) (value : 0 < val x)
    (only : ∀ y, y < 16 → 0 < val y → y = x) : bestFrom ptr val = some x := by
  obtain ⟨y, best⟩ := Option.isSome_iff_exists.mp (isSome_bestFrom ptr inside value)
  obtain ⟨small, some⟩ := bestFrom_requests best
  rw [best, only y small some]

/-! One round of the matcher (R297) -/

section
variable {req : Nat → Nat → Nat} {g a : Nat → Nat} {made : List (Nat × Nat)}

/-- No match made before has this input. -/
abbrev inFree (made : List (Nat × Nat)) (i : Nat) : Bool := !made.any fun m => m.1 = i

/-- No match made before has this output. -/
abbrev outFree (made : List (Nat × Nat)) (j : Nat) : Bool := !made.any fun m => m.2 = j

/-- The input to which output `j` gives its grant. -/
def grantOf (req : Nat → Nat → Nat) (g : Nat → Nat) (made : List (Nat × Nat)) (j : Nat) : Option Nat :=
  if outFree made j then bestFrom (g j) (fun i => if inFree made i then req i j else 0) else none

/-- The output whose grant input `i` accepts. -/
def acceptOf (req : Nat → Nat → Nat) (g a : Nat → Nat) (made : List (Nat × Nat)) (i : Nat) : Option Nat :=
  bestFrom (a i) fun j => if ((List.range 16).map (grantOf req g made)).getD j none = some i then req i j else 0

theorem matchRound_eq (req : Nat → Nat → Nat) (g a : Nat → Nat) (made : List (Nat × Nat)) :
    matchRound req g a made = (List.range 16).filterMap fun i =>
      if inFree made i then (acceptOf req g a made i).map fun j => (i, j) else none := rfl

theorem getD_grants {j : Nat} (small : j < 16) :
    ((List.range 16).map (grantOf req g made)).getD j none = grantOf req g made j := by
  simp [List.getD_eq_getElem?_getD, small]

/-- A match is between an input and an output free until now, on a grant for a request. -/
structure Accepted (req : Nat → Nat → Nat) (g : Nat → Nat) (made : List (Nat × Nat)) (i j : Nat) : Prop where
  input : i ∉ made.map Prod.fst
  output : j ∉ made.map Prod.snd
  inside : i < 16 ∧ j < 16
  request : 0 < req i j
  grant : grantOf req g made j = some i

theorem inFree_iff (i : Nat) : inFree made i = true ↔ i ∉ made.map Prod.fst := by
  simp only [inFree, Bool.not_eq_true', List.any_eq_false, decide_eq_true_eq, List.mem_map, not_exists, not_and]

theorem outFree_iff (j : Nat) : outFree made j = true ↔ j ∉ made.map Prod.snd := by
  simp only [outFree, Bool.not_eq_true', List.any_eq_false, decide_eq_true_eq, List.mem_map, not_exists, not_and]

theorem accepted_of_mem {i j : Nat} (free : inFree made i = true) (small : i < 16)
    (accept : acceptOf req g a made i = some j) : Accepted req g made i j := by
  obtain ⟨inside, value⟩ := bestFrom_requests accept
  rw [getD_grants inside] at value
  split at value
  · next grant =>
    refine ⟨(inFree_iff i).mp free, (outFree_iff j).mp ?_, ⟨small, inside⟩, value, grant⟩
    by_contra taken
    simp [grantOf, taken] at grant
  · exact absurd value (Nat.lt_irrefl 0)

theorem accepted_of_mem_matchRound {m : Nat × Nat} (h : m ∈ matchRound req g a made) : Accepted req g made m.1 m.2 := by
  rw [matchRound_eq] at h
  obtain ⟨i, small, accept⟩ := List.mem_filterMap.mp h
  split at accept
  · next free =>
    obtain ⟨j, accepts, rfl⟩ := Option.map_eq_some_iff.mp accept
    exact accepted_of_mem free (List.mem_range.mp small) accepts
  · cases accept

/-- Two matches of a round share no input and no output: an output gives one grant. -/
theorem pairwise_matchRound (req : Nat → Nat → Nat) (g a : Nat → Nat) (made : List (Nat × Nat)) :
    (matchRound req g a made).Pairwise fun m n => m.1 ≠ n.1 ∧ m.2 ≠ n.2 := by
  rw [matchRound_eq, List.pairwise_filterMap]
  refine (List.nodup_range (n := 16)).imp_of_mem fun {i k} small large other => ?_
  intro m hm n hn
  split at hm
  · next free =>
    split at hn
    · next free' =>
      obtain ⟨j, accept, rfl⟩ := Option.map_eq_some_iff.mp hm
      obtain ⟨l, accept', rfl⟩ := Option.map_eq_some_iff.mp hn
      have first := (accepted_of_mem free (List.mem_range.mp small) accept).grant
      have second := (accepted_of_mem free' (List.mem_range.mp large) accept').grant
      refine ⟨other, fun same => other ?_⟩
      change j = l at same
      rw [same, second] at first
      exact (Option.some.inj first).symm
    · cases hn
  · cases hm

/-- A round keeps every input and every output in at most one match (R297). -/
theorem matchRound_nodup (inputs : (made.map Prod.fst).Nodup) (outputs : (made.map Prod.snd).Nodup) :
    ((made ++ matchRound req g a made).map Prod.fst).Nodup ∧
      ((made ++ matchRound req g a made).map Prod.snd).Nodup := by
  have apart := pairwise_matchRound req g a made
  rw [List.map_append, List.map_append]
  constructor
  · refine inputs.append (List.pairwise_map.mpr (apart.imp fun h => h.1)) fun i old new => ?_
    obtain ⟨m, hm, rfl⟩ := List.mem_map.mp new
    exact (accepted_of_mem_matchRound hm).input old
  · refine outputs.append (List.pairwise_map.mpr (apart.imp fun h => h.2)) fun j old new => ?_
    obtain ⟨m, hm, rfl⟩ := List.mem_map.mp new
    exact (accepted_of_mem_matchRound hm).output old

/-- Without a request between a free input and a free output, a round makes no match. -/
theorem matchRound_nil (none : ∀ i j, i < 16 → j < 16 → i ∉ made.map Prod.fst → j ∉ made.map Prod.snd → req i j = 0) :
    matchRound req g a made = [] := by
  refine List.eq_nil_iff_forall_not_mem.mpr fun m hm => ?_
  obtain ⟨input, output, ⟨small, large⟩, request, -⟩ := accepted_of_mem_matchRound hm
  rw [none _ _ small large input output] at request
  exact Nat.lt_irrefl 0 request

/-- The only request is matched. -/
theorem matchRound_alone {i j : Nat} (small : i < 16) (large : j < 16) (request : 0 < req i j)
    (alone : ∀ k l, k < 16 → l < 16 → 0 < req k l → (k, l) = (i, j)) : matchRound req g a [] = [(i, j)] := by
  have free (k : Nat) : inFree [] k = true ∧ outFree [] k = true := ⟨rfl, rfl⟩
  have grant : grantOf req g [] j = some i := by
    simp only [grantOf, free, if_true]
    exact bestFrom_only _ small request fun k inside value => congrArg Prod.fst (alone k j inside large value)
  have accept : acceptOf req g a [] i = some j := by
    refine bestFrom_only _ large ?_ fun l inside value => ?_
    · rwa [getD_grants large, if_pos grant]
    · rw [getD_grants inside] at value
      split at value
      · exact congrArg Prod.snd (alone i l small inside value)
      · exact absurd value (Nat.lt_irrefl 0)
  have made : (i, j) ∈ matchRound req g a [] := by
    rw [matchRound_eq]
    exact List.mem_filterMap.mpr ⟨i, List.mem_range.mpr small, by simp [accept]⟩
  refine List.perm_singleton.mp ((List.perm_ext_iff_of_nodup ?_ (List.nodup_singleton _)).mpr fun m => ?_)
  · exact (pairwise_matchRound req g a []).imp fun h same => h.1 (congrArg Prod.fst same)
  · refine ⟨fun hm => ?_, fun hm => List.mem_singleton.mp hm ▸ made⟩
    have accepted := accepted_of_mem_matchRound hm
    exact List.mem_singleton.mpr (alone _ _ accepted.inside.1 accepted.inside.2 accepted.request)

end

/-! The matcher's rounds for one cell time (R296 to R299) -/

theorem requests_eq (s : State) {i j : Nat} (small : i < 16) (large : j < 16) : s.requests i j = s.request i j := by
  have place : (i * 16 + j) / 16 = i ∧ (i * 16 + j) % 16 = j := by omega
  have inside : i * 16 + j < 256 := by omega
  simp [State.requests, List.getD_eq_getElem?_getD, inside, place]

/-- Of one request alone, a match; both pointers move past it. -/
theorem runMatcher_alone {s : State} {req : Nat → Nat → Nat} {i j : Nat} (small : i < 16) (large : j < 16)
    (request : 0 < req i j) (alone : ∀ k l, k < 16 → l < 16 → 0 < req k l → (k, l) = (i, j)) :
    s.runMatcher req = ([(i, j)], (s.movePointers [(i, j)]).countStarve req [(i, j)]) := by
  have first (g a : Nat → Nat) := matchRound_alone (g := g) (a := a) small large request alone
  have later (g a : Nat → Nat) : matchRound req g a [(i, j)] = [] := matchRound_nil fun k l inside inside' input _ =>
    Nat.eq_zero_of_not_pos fun value =>
      input (List.mem_singleton.mpr (congrArg Prod.fst (alone k l inside inside' value)))
  simp only [State.runMatcher, first, List.append_nil, later]

theorem runMatcher_none {s : State} {req : Nat → Nat → Nat} (none : ∀ i j, i < 16 → j < 16 → req i j = 0) :
    s.runMatcher req = ([], s.countStarve req []) := by
  have round (g a : Nat → Nat) : matchRound req g a [] = [] :=
    matchRound_nil fun i j small large _ _ => none i j small large
  simp only [State.runMatcher, round, List.append_nil]
  rfl

/-- A count that its own step ends, and that no other step touches, has ended. -/
theorem runOver_ends {f : Nat → Tab Nat → Tab Nat} {k : Nat} (ends : ∀ t, (f k t).get 0 k = 0)
    (others : ∀ n t, n ≠ k → (f n t).get 0 k = t.get 0 k) {l : List Nat} (h : k ∈ l) (t : Tab Nat) :
    (runOver l f t).get 0 k = 0 := by
  have stays (l : List Nat) (t : Tab Nat) (zero : t.get 0 k = 0) : (runOver l f t).get 0 k = 0 := by
    unfold runOver
    refine List.foldlRecOn (motive := fun t : Tab Nat => t.get 0 k = 0) _ _ zero fun t zero n _ => ?_
    by_cases same : n = k
    · rw [same, ends]
    · rw [others n t same, zero]
  induction l generalizing t with
  | nil => cases h
  | cons n l ih =>
    rcases List.mem_cons.mp h with rfl | later
    · exact stays l _ (ends t)
    · exact ih later _

/-- The count of one pair of the 256 after a cell time with these requests and matches. -/
def starveNext (req : Nat → Nat → Nat) (made : List (Nat × Nat)) (k : Nat) (t : Tab Nat) : Tab Nat :=
  if req (k / 16) (k % 16) = 0 ∨ made.contains (k / 16, k % 16) then t.set 0 k 0 else t.modify 0 k (· + 1)

theorem countStarve_starve (s : State) (req : Nat → Nat → Nat) (made : List (Nat × Nat)) :
    (s.countStarve req made).fab.starve = runOver (List.range 256) (starveNext req made) s.fab.starve := by
  unfold starveNext
  simp only [State.countStarve]

/-- A match ends the count of its pair (R299). -/
theorem starve_countStarve {s : State} {req : Nat → Nat → Nat} {made : List (Nat × Nat)} {i j : Nat} (small : i < 16)
    (large : j < 16) (h : (i, j) ∈ made) : (s.countStarve req made).fab.starve.get 0 (i * 16 + j) = 0 := by
  have place : ((i * 16 + j) / 16, (i * 16 + j) % 16) = (i, j) := congrArg₂ Prod.mk (by omega) (by omega)
  have inside : i * 16 + j ∈ List.range 256 := List.mem_range.mpr (by omega)
  rw [countStarve_starve]
  generalize i * 16 + j = k at place inside
  refine runOver_ends (fun t => ?_) (fun n t other => ?_) inside _
  · rw [starveNext, if_pos (.inr (by rw [place]; exact List.contains_iff_mem.mpr h))]
    exact Tab.get_set_same _ _ _ _
  · unfold starveNext
    split
    · exact Tab.get_set_other _ _ _ other.symm
    · exact Tab.get_modify_other _ _ _ other.symm

end Sys2Proof.Claims

namespace Sys2Proof.Claims

open Sys2Proof.Machine

set_option Elab.async false

/-! What the choice of a cell rests on (R296, R300, R305) -/

/-- What the choice and the filling of a cell rest on is the same. -/
structure SameChoice (s t : State) : Prop where
  pairs : t.fab.pairs = s.fab.pairs
  ports : t.fab.pptr = s.fab.pptr
  ready : t.fab.notReady = s.fab.notReady
  frames : t.frames = s.frames
  bpm : t.bpm = s.bpm
  rst : t.rst = s.rst
  units : t.units = s.units
  hbm : t.hbm = s.hbm
  limit : t.reg .fabRetxCfg 0 0 = s.reg .fabRetxCfg 0 0

theorem SameChoice.trans {s t u : State} (h : SameChoice s t) (k : SameChoice t u) : SameChoice s u :=
  ⟨k.pairs.trans h.pairs, k.ports.trans h.ports, k.ready.trans h.ready, k.frames.trans h.frames, k.bpm.trans h.bpm,
    k.rst.trans h.rst, k.units.trans h.units, k.hbm.trans h.hbm, k.limit.trans h.limit⟩

/-- FAB_RETX_CFG lies outside PMC_CNT_CFG. -/
theorem fabRetxCfg_not_inCntCfg : ¬ inCntCfg (RegName.key .fabRetxCfg 0 0 0) := by
  simp only [inCntCfg, RegName.key, RegName.addr, RegName.info, Bool.false_eq_true, if_false]
  omega

theorem sameChoice_pmcCount (s : State) (u i e n : Nat) : SameChoice s (s.pmcCount u i e n) := by
  have only := onlyIn_pmcCount s u i e n
  have fab := only.fab_eq
  exact ⟨by rw [fab], by rw [fab], by rw [fab], only.frames_eq, only.bpm_eq, only .rst (by decide),
    only .units (by decide), only .hbm (by decide), only.reg_same (by decide) fabRetxCfg_not_inCntCfg⟩

section
variable {s t : State} (h : SameChoice s t)
include h

theorem SameChoice.fpair (a b : Nat) : t.fpair a b = s.fpair a b := by rw [State.fpair, h.pairs, State.fpair]

theorem SameChoice.voq (k : Nat) : t.voq k = s.voq k := by rw [State.voq, h.bpm, State.voq]

theorem SameChoice.frame (f : Nat) : t.frame f = s.frame f := by rw [State.frame, h.frames, State.frame]

theorem SameChoice.planeList : t.planeList = s.planeList := by rw [State.planeList, h.units, State.planeList]

theorem SameChoice.canResend : t.canResend = s.canResend := by
  have limit : t.retryMax = s.retryMax := congrArg (bitsOf 7 0) h.limit
  funext c
  rw [State.canResend, limit, State.canResend]

theorem SameChoice.voqReady : t.voqReady = s.voqReady := by
  funext k
  simp only [State.voqReady, State.egressReady, h.voq, h.frame, h.ready, h.rst]

theorem SameChoice.eligibleVoqs (a b : Nat) : t.eligibleVoqs a b = s.eligibleVoqs a b := by
  simp only [State.eligibleVoqs, h.fpair, h.bpm, h.voqReady]

theorem SameChoice.pickVoq (a b : Nat) : t.pickVoq a b = s.pickVoq a b := by
  simp only [State.pickVoq, h.eligibleVoqs, h.ports]

theorem SameChoice.packCell (l : List Nat) (off room : Nat) : t.packCell l off room = s.packCell l off room := by
  induction l generalizing off room with
  | nil => rfl
  | cons f rest ih => simp only [State.packCell, h.frame, ih]

theorem SameChoice.bufOf (f : Nat) : t.bufOf f = s.bufOf f := by rw [State.bufOf, h.bpm, State.bufOf]

theorem SameChoice.bufBad (egress : Bool) (slice set pool idx : Nat) :
    t.bufBad egress slice set pool idx = s.bufBad egress slice set pool idx := by
  simp only [State.bufBad, State.wordBad, h.hbm]

end

theorem voqReady_of_pickVoq {s : State} {a b k : Nat} (h : s.pickVoq a b = some k) : s.voqReady k = true := by
  have eligible : k ∈ s.eligibleVoqs a b := by simpa using List.find?_some h
  unfold State.eligibleVoqs at eligible
  split at eligible
  · cases eligible
  · exact (List.mem_filter.mp eligible).2

/-- A cell takes bytes of its VOQ's frames alone (R292). -/
theorem mem_of_packCell {s : State} {l : List Nat} {off room : Nat} {g : Seg} (h : g ∈ (s.packCell l off room).1) :
    g.frame ∈ l := by
  induction l generalizing off room with
  | nil => cases h
  | cons f rest ih =>
    simp only [State.packCell] at h
    split at h
    · cases h
    · split at h
      · rcases List.mem_cons.mp h with rfl | later
        · exact List.mem_cons_self
        · exact List.mem_cons_of_mem _ (ih later)
      · rw [List.mem_singleton.mp h]
        exact List.mem_cons_self

/-! What a cell that crosses leaves of the switch core -/

/-- The switch core but for its pairs, its port pointers and its ready marks: what the matcher keeps. -/
def matcherOf (x : Fabric) : Fabric := { x with pairs := .empty, pptr := .empty, notReady := [] }

/-- Cells cross: the matcher's pointers, counts and matches stay. -/
structure Crosses (s t : State) : Prop where
  only : OnlyIn leaveParts s t
  matcher : matcherOf t.fab = matcherOf s.fab

theorem Crosses.refl (s : State) : Crosses s s := ⟨.refl _ _, rfl⟩

theorem Crosses.trans {s t u : State} (h : Crosses s t) (k : Crosses t u) : Crosses s u :=
  ⟨h.only.trans k.only, k.matcher.trans h.matcher⟩

theorem Crosses.runOver {α : Type} {f : α → State → State} (h : ∀ a s, Crosses s (f a s)) (l : List α) (s : State) :
    Crosses s (Machine.runOver l f s) := by
  unfold Machine.runOver
  induction l generalizing s with
  | nil => exact .refl _
  | cons a l ih => exact (h a s).trans (ih _)

/-- A cell of (a, b) crosses: no other pair changes. -/
structure Carries (a b : Nat) (s t : State) : Prop extends Crosses s t where
  others : ∀ n, n ≠ a * 16 + b → t.fab.pairs.get {} n = s.fab.pairs.get {} n

theorem Carries.refl (a b : Nat) (s : State) : Carries a b s s := ⟨.refl _, fun _ _ => rfl⟩

theorem Carries.trans {a b : Nat} {s t u : State} (h : Carries a b s t) (k : Carries a b t u) : Carries a b s u :=
  ⟨h.toCrosses.trans k.toCrosses, fun n other => (k.others n other).trans (h.others n other)⟩

theorem Carries.fpair_other {a b i j : Slice} {s t : State} (h : Carries a b s t) (other : (i, j) ≠ (a, b)) :
    t.fpair i j = s.fpair i j := h.others _ (pairPlace_ne other)

theorem ReadyOnly.carries {s t : State} (h : ReadyOnly s t) (only : OnlyIn leaveParts s t) (a b : Nat) :
    Carries a b s t := by
  obtain ⟨l, hl⟩ := h
  exact ⟨⟨only, by rw [hl]; rfl⟩, fun n _ => by rw [hl]⟩

theorem OnlyIn.carries {ps : List Part} {s t : State} (h : OnlyIn ps s t) (a b : Nat)
    (hp : (∀ p ∈ ps, p ∈ leaveParts) ∧ Part.fab ∉ ps := by decide) : Carries a b s t :=
  (h.readyOnly hp.2).carries (h.mono hp.1) a b

theorem carries_setFpair (s : State) (a b : Nat) (x : Pair) : Carries a b s (s.setFpair a b x) :=
  ⟨⟨(onlyIn_setFpair _ _ _ _).mono, rfl⟩, fun _ other => Tab.get_set_other _ _ _ other⟩

theorem carries_dropUnread (s : State) (a b k : Nat) : Carries a b s (s.dropUnread k) :=
  (ReadyOnly.runOver (fun _ _ => readyOnly_bump_discard _ _ _) _ _).carries
    (.runOver (fun _ _ => onlyIn_bump_discard _ _ _) _ _) a b

/-- A VOQ whose buffers can all be read loses no frame. -/
theorem dropUnread_readable {s : State} {k : Nat}
    (readable : ∀ f ∈ (s.voq k).order, ((s.bufOf f).any fun x => s.bufBad false x.slice x.set x.pool x.idx) = false) :
    s.dropUnread k = s := by
  have none : ((s.packCell (s.voq k).order (s.voq k).sent 496).1.map Seg.frame).filter
      (fun f => (s.bufOf f).any fun x => s.bufBad false x.slice x.set x.pool x.idx) = [] := by
    refine List.filter_eq_nil_iff.mpr fun f hf => ?_
    obtain ⟨g, hg, rfl⟩ := List.mem_map.mp hf
    rw [readable _ (mem_of_packCell hg)]
    exact Bool.false_ne_true
  change runOver (((s.packCell (s.voq k).order (s.voq k).sent 496).1.map Seg.frame).filter _) _ s = s
  rw [none]
  rfl

/-! A new cell (R292, R300, R302) -/

/-- The next cell of VOQ `k`. -/
def builtCell (s : State) (a b k : Nat) : Cell :=
  { seq := (s.fpair a b).next, port := k % 1024 / 8, cls := k % 8
    segs := (s.packCell (s.voq k).order (s.voq k).sent 496).1, sentAt := s.fab.cellTime, planes := s.planeList }

/-- The VOQ gives up what the cell takes, and the slice's pointer moves past its port. -/
def voqTaken (s : State) (a b k : Nat) : State :=
  let t := s.setVoq k { s.voq k with
    order := (s.packCell (s.voq k).order (s.voq k).sent 496).2.1
    sent := (s.packCell (s.voq k).order (s.voq k).sent 496).2.2 }
  { t with fab := { t.fab with pptr := t.fab.pptr.set 0 (a * 16 + b) ((k % 1024 / 8 + 1) % 8) } }

/-- A pair sends a new cell, which waits for its acknowledgement. -/
def numbered (c : Cell) (p : Pair) : Pair := { p with next := (p.next + 1) % 65536, unacked := p.unacked ++ [c] }

/-- Tagged frames whose first byte is in the cell pass stage 1 of Table 18.4. -/
def stampFirst (l : List Seg) (s : State) : State := runOver l (fun g s => if g.off = 0 then s.stamp g.frame 1 else s) s

/-- The next cell of VOQ `k` goes onto the planes. -/
def launched (s : State) (a b k : Nat) : State :=
  let c := builtCell s a b k
  let t := stampFirst c.segs ((voqTaken s a b k).setFpair a b (numbered c (s.fpair a b)))
  ((t.sendCell a b c).bump (cntFab a 0)).pmcCount 5 a 0 1

theorem newCell_eq (s : State) (a b k : Nat) : s.newCell a b k =
    if !(s.dropUnread k).voqReady k then s.dropUnread k else launched (s.dropUnread k) a b k := rfl

theorem onlyIn_voqTaken (s : State) (a b k : Nat) : OnlyIn [.bpm, .fab] s (voqTaken s a b k) :=
  (onlyIn_setVoq _ _ _).mono.trans (onlyIn_fab _ _).mono

theorem onlyIn_stampFirst (l : List Seg) (s : State) : OnlyIn [.frames] s (stampFirst l s) :=
  .runOver (fun g s => by
    split
    · exact onlyIn_stamp _ _ _
    · exact .refl _ _) _ _

theorem onlyIn_bump_pmcCount (s : State) (k u i e n : Nat) : OnlyIn [.cnts, .cntCfg] s ((s.bump k).pmcCount u i e n) :=
  (onlyIn_bump _ _).mono.trans (onlyIn_pmcCount _ _ _ _ _)

theorem onlyIn_launched (s : State) (a b k : Nat) :
    OnlyIn [.cntCfg, .cnts, .frames, .bpm, .fab] s (launched s a b k) :=
  ((((onlyIn_voqTaken _ _ _ _).mono.trans (onlyIn_setFpair _ _ _ _).mono).trans (onlyIn_stampFirst _ _).mono).trans
    (onlyIn_modFpair _ _ _ _).mono).trans (onlyIn_bump_pmcCount _ _ _ _ _ _).mono

theorem fpair_launched (s : State) (a b k : Nat) : (launched s a b k).fpair a b =
    { numbered (builtCell s a b k) (s.fpair a b) with flying := (s.fpair a b).flying ++ [builtCell s a b k] } := by
  rw [launched, (onlyIn_bump_pmcCount _ _ _ _ _ _).fpair_same, State.sendCell, fpair_modFpair,
    (onlyIn_stampFirst _ _).fpair_same, fpair_setFpair]
  rfl

theorem voq_launched (s : State) (a b k : Nat) :
    ((launched s a b k).voq k).order = (s.packCell (s.voq k).order (s.voq k).sent 496).2.1 := by
  have sent : OnlyIn [.frames, .fab, .cnts, .cntCfg] (voqTaken s a b k) (launched s a b k) :=
    (((onlyIn_setFpair _ _ _ _).mono.trans (onlyIn_stampFirst _ _).mono).trans (onlyIn_modFpair _ _ _ _).mono).trans
      (onlyIn_bump_pmcCount _ _ _ _ _ _).mono
  rw [State.voq, sent.bpm_eq]
  exact congrArg Voq.order (State.voq_setVoq _ _ _)

theorem carries_launched (s : State) (a b k : Nat) : Carries a b s (launched s a b k) := by
  have taken : Carries a b s (voqTaken s a b k) := ⟨⟨(onlyIn_voqTaken _ _ _ _).mono, rfl⟩, fun _ _ => rfl⟩
  exact (((taken.trans (carries_setFpair _ _ _ _)).trans ((onlyIn_stampFirst _ _).carries a b)).trans
    (carries_setFpair _ _ _ _)).trans ((onlyIn_bump_pmcCount _ _ _ _ _ _).carries a b)

theorem carries_newCell (s : State) (a b k : Nat) : Carries a b s (s.newCell a b k) := by
  rw [newCell_eq]
  split
  · exact carries_dropUnread _ _ _ _
  · exact (carries_dropUnread _ _ _ _).trans (carries_launched _ _ _ _)

/-! A cell that is sent again (R305) -/

/-- Cell `c` as it is sent again. -/
def resentCell (s : State) (c : Cell) : Cell :=
  { c with retx := true, resend := false, sentAt := s.fab.cellTime, planes := s.planeList }

/-- The pair's record of the cell that is sent again. -/
def resending (s : State) (c : Cell) (p : Pair) : Pair :=
  { p with unacked := p.unacked.map fun x => if x.seq = c.seq then resentCell s c else x }

theorem resendCell_eq (s : State) (a b : Nat) (c : Cell) : s.resendCell a b c =
    (((s.modFpair a b (resending s c)).sendCell a b (resentCell s c)).bump (cntFab a 1)).pmcCount 5 a 2 1 := rfl

theorem onlyIn_resendCell (s : State) (a b : Nat) (c : Cell) : OnlyIn [.cntCfg, .cnts, .fab] s (s.resendCell a b c) :=
  ((onlyIn_modFpair _ _ _ _).mono.trans (onlyIn_modFpair _ _ _ _).mono).trans (onlyIn_bump_pmcCount _ _ _ _ _ _).mono

theorem fpair_resendCell (s : State) (a b : Nat) (c : Cell) : (s.resendCell a b c).fpair a b =
    { resending s c (s.fpair a b) with flying := (s.fpair a b).flying ++ [resentCell s c] } := by
  rw [resendCell_eq, (onlyIn_bump_pmcCount _ _ _ _ _ _).fpair_same, State.sendCell, fpair_modFpair, fpair_modFpair]
  rfl

theorem carries_resendCell (s : State) (a b : Nat) (c : Cell) : Carries a b s (s.resendCell a b c) :=
  ((carries_setFpair _ _ _ _).trans (carries_setFpair _ _ _ _)).trans ((onlyIn_bump_pmcCount _ _ _ _ _ _).carries a b)

/-! A match carries a cell (R300, R305) -/

theorem carries_carry (s : State) (a b : Nat) : Carries a b s (s.carry a b) := by
  simp only [State.carry]
  refine ((onlyIn_pmcCount s 5 a 1 1).carries a b).trans ?_
  split
  · exact carries_resendCell _ _ _ _
  · split
    · exact carries_newCell _ _ _ _
    · exact .refl _ _ _

/-- A cell that waits to be sent again goes before any new one. -/
theorem carry_resends {s : State} {a b : Nat} {c : Cell} (waits : (s.fpair a b).unacked.find? s.canResend = some c) :
    s.carry a b = (s.pmcCount 5 a 1 1).resendCell a b c := by
  have same := sameChoice_pmcCount s 5 a 1 1
  simp only [State.carry, same.fpair, same.canResend, waits]

/-- Without one, the next cell of the chosen VOQ crosses. -/
theorem carry_launches {s : State} {a b k : Nat} (none : (s.fpair a b).unacked.find? s.canResend = none)
    (pick : s.pickVoq a b = some k)
    (readable : ∀ f ∈ (s.voq k).order, ((s.bufOf f).any fun x => s.bufBad false x.slice x.set x.pool x.idx) = false) :
    s.carry a b = launched (s.pmcCount 5 a 1 1) a b k := by
  have same := sameChoice_pmcCount s 5 a 1 1
  have kept : (s.pmcCount 5 a 1 1).dropUnread k = s.pmcCount 5 a 1 1 :=
    dropUnread_readable (by simpa only [same.voq, same.bufOf, same.bufBad] using readable)
  simp only [State.carry, same.fpair, same.canResend, same.pickVoq, none, pick, newCell_eq, kept, same.voqReady,
    voqReady_of_pickVoq pick, Bool.not_true, Bool.false_eq_true, if_false]

end Sys2Proof.Claims

namespace Sys2Proof.Claims

open Sys2Proof.Machine

set_option Elab.async false

/-! MATCH_CELL_TIME (R294 to R300, R308) -/

/-- A cell time has passed (R294). -/
def begun (s : State) : State :=
  { s.advance s.cellNs with
    fab := { (s.advance s.cellNs).fab with cellTime := (s.advance s.cellNs).fab.cellTime + 1 } }

theorem onlyIn_begun (s : State) : OnlyIn [.time, .fab] s (begun s) :=
  (onlyIn_advance _ _).mono.trans (onlyIn_fab _ _).mono

/-- Passing time alone changes no request. -/
theorem request_begun (s : State) (i j : Nat) : (begun s).request i j = s.request i j := rfl

theorem requests_begun (s : State) (i j : Slice) : (begun s).requests i j = s.request i j :=
  (requests_eq _ i.isLt j.isLt).trans (request_begun s i j)

/-- The matches of the cell time are known, and those of the last are next to carry their cells. -/
def shifted (s : State) (made : List (Nat × Nat)) : State :=
  { s with fab := { s.fab with dueNow := s.fab.dueNext, dueNext := made } }

theorem onlyIn_shifted (s : State) (made : List (Nat × Nat)) : OnlyIn [.fab] s (shifted s made) := onlyIn_fab _ _

theorem carryDue_eq (s : State) (made : List (Nat × Nat)) :
    s.carryDue made = runOver s.fab.dueNow (fun m s => s.carry m.1 m.2) (shifted s made) := rfl

theorem crosses_carry (m : Nat × Nat) (s : State) : Crosses s (s.carry m.1 m.2) := (carries_carry s m.1 m.2).toCrosses

theorem crosses_carryDue (s : State) (made : List (Nat × Nat)) : Crosses (shifted s made) (s.carryDue made) := by
  rw [carryDue_eq]
  exact Crosses.runOver crosses_carry _ _

theorem carryDue_nil {s : State} (due : s.fab.dueNow = []) (made : List (Nat × Nat)) :
    s.carryDue made = shifted s made := by
  rw [carryDue_eq, due]
  rfl

theorem carryDue_one {s : State} {a b : Nat} (due : s.fab.dueNow = [(a, b)]) (made : List (Nat × Nat)) :
    s.carryDue made = (shifted s made).carry a b := by
  rw [carryDue_eq, due]
  rfl

theorem exec_matchCellTime (s : State) : exec (.matchCellTime false) s = .next
    (((begun s).runMatcher (begun s).requests).2.carryDue ((begun s).runMatcher (begun s).requests).1) := by
  simp only [exec, execMatchCellTime, Bool.false_eq_true, if_false]
  rfl

/-- The matcher's copy fails parity: the event is counted and noted, and nothing is matched (R308). -/
def parityFailed (s : State) : State :=
  (((begun s).bump cntMatchErr).countStarve (begun s).requests []).fault 0x30 0 0

theorem exec_matchCellTime_parityBad (s : State) :
    exec (.matchCellTime true) s = .next ((parityFailed s).carryDue []) := by
  simp only [exec, execMatchCellTime, if_true]
  rfl

/-- What cells that cross leave of the matcher's state once the matches have moved on. -/
theorem matcher_carryDue (s : State) (made : List (Nat × Nat)) :
    (s.carryDue made).fab.cellTime = s.fab.cellTime ∧ (s.carryDue made).fab.dueNow = s.fab.dueNext ∧
      (s.carryDue made).fab.dueNext = made ∧ (s.carryDue made).fab.gptr = s.fab.gptr ∧
      (s.carryDue made).fab.aptr = s.fab.aptr ∧ (s.carryDue made).fab.starve = s.fab.starve := by
  have same := (crosses_carryDue s made).matcher
  exact ⟨(congrArg Fabric.cellTime same :), (congrArg Fabric.dueNow same :), (congrArg Fabric.dueNext same :),
    (congrArg Fabric.gptr same :), (congrArg Fabric.aptr same :), (congrArg Fabric.starve same :)⟩

theorem onlyIn_carryDue (s : State) (made : List (Nat × Nat)) : OnlyIn leaveParts s (s.carryDue made) :=
  (onlyIn_shifted s made).mono.trans (crosses_carryDue s made).only

/-! One request alone -/

/-- The matcher has matched (a, b) alone. -/
def matchedAlone (s : State) (a b : Nat) : State :=
  ((begun s).movePointers [(a, b)]).countStarve (begun s).requests [(a, b)]

theorem onlyIn_matchedAlone (s : State) (a b : Nat) : OnlyIn [.time, .fab] s (matchedAlone s a b) :=
  (onlyIn_begun s).trans ((onlyIn_fab _ _).mono.trans (onlyIn_fab _ _).mono)

theorem sameChoice_matchedAlone (s : State) (a b : Nat) (made : List (Nat × Nat)) :
    SameChoice s (shifted (matchedAlone s a b) made) :=
  ⟨rfl, rfl, rfl, rfl, rfl, rfl, rfl, rfl, rfl⟩

/-- The match of two cell times ago, of (a, b), is counted and is about to choose its cell. -/
def carrying (s : State) (a b : Nat) (made : List (Nat × Nat)) : State :=
  (shifted (matchedAlone s a b) made).pmcCount 5 a 1 1

theorem sameChoice_carrying (s : State) (a b : Nat) (made : List (Nat × Nat)) : SameChoice s (carrying s a b made) :=
  (sameChoice_matchedAlone s a b made).trans (sameChoice_pmcCount _ 5 a 1 1)

theorem onlyIn_carrying (s : State) (a b : Nat) (made : List (Nat × Nat)) :
    OnlyIn [.time, .cntCfg, .cnts, .fab] s (carrying s a b made) :=
  ((onlyIn_matchedAlone s a b).mono.trans (onlyIn_shifted _ _).mono).trans (onlyIn_pmcCount _ _ _ _ _).mono

theorem carryDue_matchedAlone_idle {s : State} (idle : s.fab.dueNow = []) (a b : Nat) (made : List (Nat × Nat)) :
    (matchedAlone s a b).carryDue made = shifted (matchedAlone s a b) made :=
  carryDue_nil (s := matchedAlone s a b) idle made

theorem carryDue_matchedAlone {s : State} {a b : Nat} (due : s.fab.dueNow = [(a, b)]) (made : List (Nat × Nat)) :
    (matchedAlone s a b).carryDue made = (shifted (matchedAlone s a b) made).carry a b :=
  carryDue_one (s := matchedAlone s a b) due made

section
variable {a b : Slice} {s : State}

theorem exec_matchCellTime_alone (request : s.request a b ≠ 0)
    (alone : ∀ i j : Slice, (i, j) ≠ (a, b) → s.request i j = 0) :
    exec (.matchCellTime false) s = .next ((matchedAlone s a b).carryDue [(a.val, b.val)]) := by
  have reported : 0 < (begun s).requests a b := by
    rw [requests_begun]
    exact Nat.pos_of_ne_zero request
  rw [exec_matchCellTime, runMatcher_alone a.isLt b.isLt reported fun i j small large value => ?_]
  · rfl
  · by_contra other
    have zero := alone ⟨i, small⟩ ⟨j, large⟩ fun same => other (congrArg (Prod.map Fin.val Fin.val) same)
    rw [← requests_begun] at zero
    exact absurd zero (Nat.ne_of_gt value)

/-- The match made two cell times ago is the only one to carry a cell. -/
theorem carries_matchedAlone (due : s.fab.dueNow = [] ∨ s.fab.dueNow = [(a.val, b.val)]) (made : List (Nat × Nat)) :
    Carries a b (shifted (matchedAlone s a b) made) ((matchedAlone s a b).carryDue made) := by
  rcases due with none | one
  · rw [carryDue_matchedAlone_idle none]
    exact .refl _ _ _
  · rw [carryDue_matchedAlone one]
    exact carries_carry _ _ _

/-- The match carries the next cell of the chosen VOQ. -/
theorem matchedAlone_launches {k : Nat} (made : List (Nat × Nat)) (due : s.fab.dueNow = [(a.val, b.val)])
    (none : (s.fpair a b).unacked.find? s.canResend = none) (pick : s.pickVoq a b = some k)
    (readable : ∀ f ∈ (s.voq k).order, ((s.bufOf f).any fun x => s.bufBad false x.slice x.set x.pool x.idx) = false) :
    (matchedAlone s a b).carryDue made = launched (carrying s a b made) a b k := by
  have same := sameChoice_matchedAlone s a b made
  rw [carryDue_matchedAlone due]
  refine carry_launches ?_ ?_ ?_
  · rw [same.fpair, same.canResend, none]
  · rw [same.pickVoq, pick]
  · simpa only [same.voq, same.bufOf, same.bufBad] using readable

/-- The match carries the cell that waits to be sent again. -/
theorem matchedAlone_resends {c : Cell} (made : List (Nat × Nat)) (due : s.fab.dueNow = [(a.val, b.val)])
    (waits : (s.fpair a b).unacked.find? s.canResend = some c) :
    (matchedAlone s a b).carryDue made = (carrying s a b made).resendCell a b c := by
  have same := sameChoice_matchedAlone s a b made
  rw [carryDue_matchedAlone due]
  exact carry_resends (by rw [same.fpair, same.canResend, waits])

end

/-! No match (R297, R308) -/

/-- A cell time's counts change no more of the switch core than the counts and the promotions (R299). -/
theorem fab_countStarve (s : State) (req : Nat → Nat → Nat) (made : List (Nat × Nat)) :
    ∃ starve promoted, (s.countStarve req made).fab = { s.fab with starve := starve, promoted := promoted } :=
  ⟨_, _, rfl⟩

theorem exec_matchCellTime_none {s : State} (none : ∀ i j : Slice, s.request i j = 0) :
    exec (.matchCellTime false) s = .next (((begun s).countStarve (begun s).requests []).carryDue []) := by
  rw [exec_matchCellTime, runMatcher_none fun i j small large =>
    (requests_begun s ⟨i, small⟩ ⟨j, large⟩).trans (none ⟨i, small⟩ ⟨j, large⟩)]

theorem onlyIn_parityFailed (s : State) : OnlyIn (.time :: .fab :: faultParts) s (parityFailed s) :=
  (((onlyIn_begun s).mono.trans (onlyIn_bump _ _).mono).trans (onlyIn_fab _ _).mono).trans (onlyIn_fault _ _ _ _).mono

theorem fab_parityFailed (s : State) :
    ∃ starve promoted, (parityFailed s).fab = { (begun s).fab with starve := starve, promoted := promoted } := by
  rw [parityFailed, (onlyIn_fault _ _ _ _).fab_eq]
  exact fab_countStarve _ _ _

/-- Settles O34: a round of the matcher, a request alone, no request, a parity failure, promotion and its rank. -/
theorem cellTimesMatchAndCarryCells : Obligations.CellTimesMatchAndCarryCells := by
  refine ⟨fun req g a made inputs outputs => matchRound_nodup inputs outputs, ?_, ?_, ?_, ?_, ?_⟩
  · intro a b s request alone due
    have carries := carries_matchedAlone due [(a.val, b.val)]
    obtain ⟨cellTime, now, next, grants, accepts, starve⟩ := matcher_carryDue (matchedAlone s a b) [(a.val, b.val)]
    refine ⟨_, exec_matchCellTime_alone request alone, (carries.only .time (by decide)).1, cellTime, now, next,
      by rw [grants]; exact Tab.get_set_same _ _ _ _, by rw [accepts]; exact Tab.get_set_same _ _ _ _,
      by rw [starve]; exact starve_countStarve a.isLt b.isLt List.mem_cons_self,
      fun i j other => carries.fpair_other other, fun idle => by rw [carryDue_matchedAlone_idle idle]; rfl, ?_, ?_,
      (onlyIn_matchedAlone s a b).mono.trans (onlyIn_carryDue _ _).mono⟩
    · intro k due none pick readable
      rw [matchedAlone_launches [(a.val, b.val)] due none pick readable]
      have same := sameChoice_carrying s a b [(a.val, b.val)]
      have before := onlyIn_carrying s a b [(a.val, b.val)]
      generalize carrying s a b [(a.val, b.val)] = u at same before ⊢
      rw [fpair_launched, voq_launched, same.fpair, same.voq, same.packCell]
      have bytes : (builtCell u a b k).segs = (s.packCell (s.voq k).order (s.voq k).sent 496).1 := by
        rw [builtCell, same.voq, same.packCell]
      exact ⟨rfl, rfl, ⟨builtCell u a b k, rfl, rfl, congrArg Pair.next (same.fpair a b), rfl, rfl, rfl, same.planeList,
        bytes⟩, before.mono.trans (onlyIn_launched _ _ _ _).mono⟩
    · intro c due waits
      rw [matchedAlone_resends [(a.val, b.val)] due waits]
      have same := sameChoice_carrying s a b [(a.val, b.val)]
      have before := onlyIn_carrying s a b [(a.val, b.val)]
      generalize carrying s a b [(a.val, b.val)] = u at same before ⊢
      rw [fpair_resendCell, same.fpair]
      exact ⟨rfl, ⟨resentCell u c, rfl, rfl, rfl, rfl, rfl, rfl, same.planeList⟩,
        before.mono.trans (onlyIn_resendCell _ _ _ _).mono⟩
  · intro s none
    obtain ⟨cellTime, now, next, grants, accepts, -⟩ :=
      matcher_carryDue ((begun s).countStarve (begun s).requests []) []
    have counted : OnlyIn [.time, .fab] s ((begun s).countStarve (begun s).requests []) :=
      (onlyIn_begun s).trans (onlyIn_fab _ _).mono
    obtain ⟨_, _, fab⟩ := fab_countStarve (begun s) (begun s).requests []
    rw [fab] at cellTime now grants accepts
    refine ⟨_, exec_matchCellTime_none none, cellTime, now, next, grants, accepts, fun idle => ?_,
      counted.mono.trans (onlyIn_carryDue _ _).mono⟩
    rw [carryDue_nil (by rw [fab]; exact idle)]
    exact ⟨(congrArg Fabric.pairs fab :), (congrArg Fabric.pptr fab :), counted.trans (onlyIn_shifted _ _).mono⟩
  · intro s
    obtain ⟨cellTime, now, next, grants, accepts, -⟩ := matcher_carryDue (parityFailed s) []
    obtain ⟨_, _, fab⟩ := fab_parityFailed s
    rw [fab] at cellTime now grants accepts
    refine ⟨_, exec_matchCellTime_parityBad s, cellTime, now, next, grants, accepts, fun idle => ?_,
      (onlyIn_parityFailed s).mono.trans (onlyIn_carryDue _ _).mono⟩
    rw [carryDue_nil (by rw [fab]; exact idle)]
    exact ⟨(congrArg Fabric.pairs fab :), (onlyIn_parityFailed s).mono.trans (onlyIn_shifted _ _).mono⟩
  · intro a b s starved unpromoted
    exact congrArg Host.Outcome.next (if_pos ⟨starved, by rw [unpromoted]; rfl⟩)
  · intro a b s promoted request
    simp only [State.request] at request ⊢
    rw [if_neg fun none => request (if_pos none), if_pos (by rw [List.contains_iff_mem.mpr promoted, Bool.true_or])]

end Sys2Proof.Claims

/-! SUPPORT, and O39: a pool grants a claim or turns it away (R303, R316 to R323, R404). -/

namespace Sys2Proof.Claims

open Sys2Proof.Machine

set_option Elab.async false

/-! Panic, and what leaves a reassembly region (R303, R404) -/

/-- Of the buffer pool manager, only the slices in panic follow. -/
theorem bpm_panicSync (s : State) : s.panicSync.bpm = { s.bpm with panic := s.panicSlices } :=
  (OnlyIn.runOver (ps := [.cnts]) (fun _ _ => (onlyIn_bumpBy _ _ _).mono) _ _).bpm_eq

/-- What changes of the switch core's pairs keep, and what each first segment of a region keeps, draining keeps. -/
theorem drain_keeps {R : State → State → Prop} (refl : ∀ s, R s s) (trans : ∀ {s t u}, R s t → R t u → R s u)
    (pairs : ∀ {s t}, OnlyIn [.fab] s t → R s t) (take : ∀ s src g, R s (s.takeSeg src g).1) (s : State) (a b : Nat) :
    R s (s.drain a b) := by
  have takes (s : State) (src : Nat) (l : List Seg) : R s (s.takeSegs src l).1 := by
    induction l generalizing s with
    | nil => exact refl _
    | cons g rest ih =>
      have first := take s src g
      simp only [State.takeSegs]
      split
      · next t taken => exact trans (by rwa [taken] at first) (ih t)
      · next taken => rwa [taken] at first
  have cells (s : State) (n : Nat) : R s (s.drainCells a b n) := by
    induction n generalizing s with
    | zero => exact refl _
    | succ n ih =>
      simp only [State.drainCells]
      split
      · exact refl _
      · next c rest _ =>
        have taken := takes s a c.segs
        split
        · exact trans (pairs (onlyIn_modFpair _ _ _ _)) (ih _)
        · split
          · next all => exact trans (trans (by rwa [all] at taken) (pairs (onlyIn_modFpair _ _ _ _))) (ih _)
          · next some => exact trans (by rwa [some] at taken) (pairs (onlyIn_modFpair _ _ _ _))
  exact cells s _

theorem onlyIn_drain (s : State) (a b : Nat) : OnlyIn [.frames, .bpm, .fab, .sched] s (s.drain a b) :=
  drain_keeps (R := OnlyIn [.frames, .bpm, .fab, .sched]) (.refl _) .trans (fun h => h.mono)
    (fun s src g => (takesBytes_takeSeg s src g).only.mono) s a b

theorem goneStay_drain (s : State) (a b : Nat) : GoneStay s (s.drain a b) :=
  drain_keeps .refl .trans (fun h => h.goneStay) (fun s src g => (takesBytes_takeSeg s src g).stay) s a b

/-! Egress buffers stay with their frames (R316, R324) -/

/-- Every frame keeps its egress buffer, and every owner what it is charged with. -/
structure KeepsBuffers (s t : State) : Prop where
  pool : ∀ f, (t.frame f).ebuf = (s.frame f).ebuf
  index : ∀ f, (t.frame f).ebufIdx = (s.frame f).ebufIdx
  charged : t.bpm.charged = s.bpm.charged

theorem KeepsBuffers.refl (s : State) : KeepsBuffers s s := ⟨fun _ => rfl, fun _ => rfl, rfl⟩

theorem KeepsBuffers.trans {s t u : State} (h : KeepsBuffers s t) (k : KeepsBuffers t u) : KeepsBuffers s u :=
  ⟨fun f => (k.pool f).trans (h.pool f), fun f => (k.index f).trans (h.index f), k.charged.trans h.charged⟩

theorem OnlyIn.keepsBuffers {ps : List Part} {s t : State} (h : OnlyIn ps s t) (frames : Part.frames ∉ ps := by decide)
    (bpm : Part.bpm ∉ ps := by decide) : KeepsBuffers s t :=
  ⟨fun f => by rw [h.frame_same frames], fun f => by rw [h.frame_same frames], by rw [h.bpm_eq bpm]⟩

theorem keepsBuffers_setFrame {s : State} {f : Nat} {x : Frame} (pool : x.ebuf = (s.frame f).ebuf)
    (index : x.ebufIdx = (s.frame f).ebufIdx) : KeepsBuffers s (s.setFrame f x) := by
  have field {α : Type} (p : Frame → α) (same : p x = p (s.frame f)) (g : Nat) :
      p ((s.setFrame f x).frame g) = p (s.frame g) := by
    by_cases h : g = f
    · rw [h, State.frame_setFrame, same]
    · rw [State.frame_setFrame_other _ _ h]
  exact ⟨field _ pool, field _ index, rfl⟩

theorem keepsBuffers_stamp (s : State) (f k : Nat) : KeepsBuffers s (s.stamp f k) := by
  simp only [State.stamp]
  split
  · exact .refl _
  · exact keepsBuffers_setFrame rfl rfl

theorem keepsBuffers_enqueue (s : State) (f : Nat) : KeepsBuffers s (s.enqueue f) :=
  (((keepsBuffers_setFrame (s := s) (f := f) (x := { s.frame f with eg := .queued }) rfl rfl).trans
    (keepsBuffers_stamp _ _ _)).trans (onlyIn_setQueue _ _ _).keepsBuffers).trans (onlyIn_sched _ _).keepsBuffers

theorem keepsBuffers_claimEgress (s : State) (f src : Nat) : KeepsBuffers s (s.claimEgress f src) := by
  obtain ⟨pool, index, charged⟩ :=
    keepsBuffers_setFrame (s := s) (f := f) (x := { s.frame f with eg := .claiming }) rfl rfl
  exact ⟨pool, index, charged⟩

theorem keepsBuffers_takeSeg (s : State) (src : Nat) (g : Seg) : KeepsBuffers s (s.takeSeg src g).1 := by
  simp only [State.takeSeg]
  split
  · exact .refl _
  · have claim : KeepsBuffers s
        (if (s.frame g.frame).eg = .none ∧ 16 ≤ g.off + g.len then s.claimEgress g.frame src else s) := by
      split
      · exact keepsBuffers_claimEgress _ _ _
      · exact .refl _
    refine claim.trans ?_
    generalize (if (s.frame g.frame).eg = .none ∧ 16 ≤ g.off + g.len then s.claimEgress g.frame src else s) = u
    split
    · exact .refl _
    · split
      · exact keepsBuffers_enqueue _ _
      · exact .refl _
    · exact .refl _

theorem keepsBuffers_drain (s : State) (a b : Nat) : KeepsBuffers s (s.drain a b) :=
  drain_keeps .refl .trans (fun h => h.keepsBuffers) keepsBuffers_takeSeg s a b

theorem keepsBuffers_panicSync (s : State) : KeepsBuffers s s.panicSync :=
  ⟨fun f => by rw [(onlyIn_panicSync s).frame_same (by decide)], fun f => by rw [(onlyIn_panicSync s).frame_same (by decide)],
    by rw [bpm_panicSync]⟩

/-! A grant takes a buffer (R316, R317, R320) -/

/-- A claim ends, and its owner is charged. -/
def endClaim (s : State) (c : Claim) : State :=
  let s := s.setClaims (s.bpm.claims.erase c)
  (if c.pool = c.first then s else s.bump (cntBpm c.slice 3)).charge c.egress c.slice c.set c.owner c.pool

/-- A claim has ended, and the free value that chooses its buffer is drawn. -/
def startGrant (s : State) (c : Claim) : State := ((endClaim s c).draw 26).2

/-- The free value that chooses a claim's buffer. -/
def grantDraw (s : State) (c : Claim) : Nat := ((endClaim s c).draw 26).1.toNat

/-- The free buffer that a claim takes. -/
def takenIdx (s : State) (c : Claim) : Nat :=
  (startGrant s c).freeIdx c.egress c.slice c.set c.pool (grantDraw s c / 1024)

/-- A claim has ended, and its frame is copied into the buffer it takes. -/
def takeBuffer (s : State) (c : Claim) : State :=
  (startGrant s c).bufWrite c.egress c.slice c.set c.pool (takenIdx s c)

theorem bpm_endClaim (s : State) (c : Claim) : (endClaim s c).bpm = { s.bpm with
    claims := s.bpm.claims.erase c
    charged := s.bpm.charged.modify 0 (chargeKey c.egress c.slice c.set c.owner c.pool) (· + 1) } := by
  simp only [endClaim]
  split <;> rfl

theorem regs_endClaim (s : State) (c : Claim) : (endClaim s c).regs = s.regs := by
  simp only [endClaim]
  split <;> rfl

theorem bpm_takeBuffer (s : State) (c : Claim) : (takeBuffer s c).bpm = (endClaim s c).bpm := rfl

theorem onlyIn_endClaim (s : State) (c : Claim) : OnlyIn [.bpm, .cnts] s (endClaim s c) := by
  simp only [endClaim]
  split
  · exact (onlyIn_setClaims _ _).mono.trans (onlyIn_bpm _ _).mono
  · exact ((onlyIn_setClaims _ _).mono.trans (onlyIn_bump _ _).mono).trans (onlyIn_bpm _ _).mono

theorem onlyIn_takeBuffer (s : State) (c : Claim) : OnlyIn [.bpm, .cnts, .draws, .hbm] s (takeBuffer s c) :=
  ((onlyIn_endClaim s c).mono.trans (onlyIn_draw _ _).mono).trans (onlyIn_bufWrite _ _ _ _ _ _).mono

theorem frame_takeBuffer (s : State) (c : Claim) (f : Nat) : (takeBuffer s c).frame f = s.frame f :=
  (onlyIn_takeBuffer s c).frame_same (by decide) f

theorem freeIdx_same {s t : State} (regs : t.regs = s.regs) (frames : t.frames = s.frames) (bufs : t.bpm.bufs = s.bpm.bufs)
    (gone : t.bpm.gone = s.bpm.gone) (egress : Bool) (slice set pool v : Nat) :
    t.freeIdx egress slice set pool v = s.freeIdx egress slice set pool v := by
  simp only [State.freeIdx, State.poolCount, State.fld, State.reg, State.regOf, State.heldIdx, regs, frames, bufs, gone]

/-- The end of the claim does not bear on which buffer is taken. -/
theorem takenIdx_eq (s : State) (c : Claim) :
    takenIdx s c = s.freeIdx c.egress c.slice c.set c.pool (grantDraw s c / 1024) := by
  have bufs : (endClaim s c).bpm.bufs = s.bpm.bufs := by rw [bpm_endClaim]
  have gone : (endClaim s c).bpm.gone = s.bpm.gone := by rw [bpm_endClaim]
  exact freeIdx_same (t := startGrant s c) (regs_endClaim s c) (onlyIn_endClaim s c).frames_eq bufs gone _ _ _ _ _

/-- In a state with the charges of a taken buffer, the claim's owner is charged one more than before. -/
theorem charged_of_taken {s t : State} {c : Claim} (h : t.bpm.charged = (takeBuffer s c).bpm.charged) :
    t.charged c.egress c.slice c.set c.owner c.pool = s.charged c.egress c.slice c.set c.owner c.pool + 1 := by
  rw [State.charged, h, bpm_takeBuffer, bpm_endClaim]
  exact Tab.get_modify_same _ _ _ _

/-! A grant at ingress (R320, R322) -/

/-- The frames that a granted buffer at ingress names. -/
def grantNames (s : State) (c : Claim) : List Nat :=
  if c.isReturn then [c.frame] else (takeBuffer s c).claimants ((endClaim s c).frame c.frame).group

/-- The buffer that a claim at ingress is granted. -/
def grantedBuf (s : State) (c : Claim) : IngBuf :=
  ⟨c.slice, c.set, c.owner, c.pool, takenIdx s c, grantNames s c,
    if 1 < (grantNames s c).length then some ((takeBuffer s c).freeOset c.slice c.set (grantDraw s c)) else none⟩

/-- A buffer at ingress is recorded, and the frames that it names are on die. -/
def nameBuffer (s : State) (f : Nat) (b : IngBuf) : State :=
  runOver b.names (fun f s => s.modFrame f fun x => { x with ing := .onDie })
    { s with bpm := { s.bpm with bufs := s.bpm.bufs.set none f (some b) } }

theorem onlyIn_nameBuffer (s : State) (f : Nat) (b : IngBuf) : OnlyIn [.bpm, .frames] s (nameBuffer s f b) :=
  (onlyIn_bpm _ _).mono.trans (.runOver (fun _ _ => (onlyIn_modFrame _ _ _).mono) _ _)

theorem bpm_nameBuffer (s : State) (f : Nat) (b : IngBuf) :
    (nameBuffer s f b).bpm = { s.bpm with bufs := s.bpm.bufs.set none f (some b) } :=
  (OnlyIn.runOver (ps := [.frames]) (fun _ _ => onlyIn_modFrame _ _ _) _ _).bpm_eq

/-- Frames of a list come to be on die, and no other frame changes. -/
theorem frame_placeOnDie (l : List Nat) (s : State) (f : Nat) :
    (runOver l (fun f s => s.modFrame f fun x => { x with ing := .onDie }) s).frame f =
      if f ∈ l then { s.frame f with ing := .onDie } else s.frame f := by
  unfold runOver
  induction l generalizing s with
  | nil => rfl
  | cons a l ih =>
    rw [List.foldl_cons, ih]
    by_cases same : f = a
    · subst same
      simp [State.frame_modFrame]
    · simp [same, State.frame_modFrame_other]

theorem frame_nameBuffer (s : State) (f : Nat) (b : IngBuf) (g : Nat) :
    (nameBuffer s f b).frame g = if g ∈ b.names then { s.frame g with ing := .onDie } else s.frame g :=
  frame_placeOnDie _ _ _

theorem grant_ingress {c : Claim} (ingress : c.egress = false) (s : State) :
    s.grant c = nameBuffer (takeBuffer s c) c.frame (grantedBuf s c) :=
  if_neg (by simp [ingress])

theorem grantNames_group {c : Claim} (way : c.isReturn = false) (s : State) :
    grantNames s c = s.claimants (s.frame c.frame).group := by
  have frame : (endClaim s c).frame c.frame = s.frame c.frame := (onlyIn_endClaim s c).frame_same (by decide) _
  rw [grantNames, way, frame, State.claimants, (onlyIn_takeBuffer s c).frames_eq]
  rfl

theorem grantNames_return {c : Claim} (way : c.isReturn = true) (s : State) : grantNames s c = [c.frame] := if_pos way

theorem freeOset_takeBuffer (s : State) (c : Claim) (slice set v : Nat) :
    (takeBuffer s c).freeOset slice set v = s.freeOset slice set v := by
  simp only [State.freeOset, bpm_takeBuffer, bpm_endClaim]

section

variable {c : Claim} (ingress : c.egress = false) (s : State)
include ingress

theorem bpm_grant_ingress : (s.grant c).panicSync.bpm = { (endClaim s c).bpm with
    bufs := s.bpm.bufs.set none c.frame (some (grantedBuf s c))
    panic := (s.grant c).panicSlices } := by
  rw [bpm_panicSync]
  generalize (s.grant c).panicSlices = l
  rw [grant_ingress ingress, bpm_nameBuffer, bpm_takeBuffer, bpm_endClaim]

theorem claims_grant_ingress : (s.grant c).panicSync.bpm.claims = s.bpm.claims.erase c := by
  rw [bpm_grant_ingress ingress, bpm_endClaim]

theorem charged_grant_ingress : (s.grant c).panicSync.charged false c.slice c.set c.owner c.pool =
    s.charged false c.slice c.set c.owner c.pool + 1 :=
  ingress ▸ charged_of_taken (by rw [bpm_grant_ingress ingress, bpm_takeBuffer])

theorem buf_grant_ingress : (s.grant c).panicSync.bpm.bufs.get none c.frame = some (grantedBuf s c) := by
  rw [bpm_grant_ingress ingress]
  exact Tab.get_set_same _ _ _ _

theorem frame_grant_ingress (f : Nat) : (s.grant c).panicSync.frame f =
    if f ∈ grantNames s c then { s.frame f with ing := .onDie } else s.frame f := by
  rw [(onlyIn_panicSync _).frame_same (by decide), grant_ingress ingress, frame_nameBuffer, frame_takeBuffer]
  rfl

theorem onlyIn_grant_ingress : OnlyIn [.frames, .bpm, .cnts, .draws, .hbm] s (s.grant c).panicSync := by
  rw [grant_ingress ingress]
  exact ((onlyIn_takeBuffer s c).mono.trans (onlyIn_nameBuffer _ _ _).mono).trans (onlyIn_panicSync _).mono

end

/-! A grant at egress (R316) -/

/-- A granted frame at egress has its buffer, and the ready mark of its queue follows. -/
def fillBuffer (s : State) (c : Claim) : State :=
  let x := (endClaim s c).frame c.frame
  ((takeBuffer s c).setFrame c.frame { x with eg := .filling, ebuf := some c.pool, ebufIdx := takenIdx s c }).flowControl
    x.outPort x.cls

theorem onlyIn_fillBuffer (s : State) (c : Claim) : OnlyIn [.frames, .fab] (takeBuffer s c) (fillBuffer s c) :=
  (onlyIn_setFrame _ _ _).mono.trans (onlyIn_flowControl _ _ _).mono

theorem frame_fillBuffer (s : State) (c : Claim) : (fillBuffer s c).frame c.frame =
    { (endClaim s c).frame c.frame with eg := .filling, ebuf := some c.pool, ebufIdx := takenIdx s c } :=
  ((onlyIn_flowControl _ _ _).frame_same (by decide) _).trans (State.frame_setFrame _ _ _)

theorem grant_egress {c : Claim} (egress : c.egress = true) (s : State) :
    s.grant c = (fillBuffer s c).drain c.requester c.slice :=
  if_pos egress

/-- What a grant and the draining of the requester's region may change. -/
abbrev poolParts : List Part := [.cntCfg, .cnts, .out, .draws, .gen, .hif, .eic, .lanes, .frames, .bpm, .fab, .sched, .cps,
  .glz, .bur, .hbm]

section

variable {c : Claim} (egress : c.egress = true) (s : State)
include egress

/-- From the filling of its buffer on, no frame's buffer and no owner's charge changes. -/
theorem keepsBuffers_grant_egress : KeepsBuffers (fillBuffer s c) (s.grant c).panicSync := by
  rw [grant_egress egress]
  exact (keepsBuffers_drain _ _ _).trans (keepsBuffers_panicSync _)

theorem charged_grant_egress : (s.grant c).panicSync.charged true c.slice c.set c.owner c.pool =
    s.charged true c.slice c.set c.owner c.pool + 1 := by
  have kept := (keepsBuffers_grant_egress egress s).charged
  rw [(onlyIn_fillBuffer _ _).bpm_eq] at kept
  exact egress ▸ charged_of_taken kept

theorem onlyIn_grant_egress : OnlyIn poolParts s (s.grant c).panicSync := by
  rw [grant_egress egress]
  exact (((onlyIn_takeBuffer s c).mono.trans (onlyIn_fillBuffer _ _).mono).trans (onlyIn_drain _ _ _).mono).trans
    (onlyIn_panicSync _).mono

end

/-! A claim that is turned away (R321) -/

theorem turnAway_moves {c : Claim} (way : c.isReturn = false) (s : State) (q : Nat) : s.turnAway c (some q) =
    s.setClaims (s.bpm.claims.map fun d => if d = c then { c with pool := q } else d) := by
  rw [State.turnAway, way]
  rfl

theorem turnAway_return {c : Claim} (way : c.isReturn = true) (s : State) (next : Option Nat) :
    s.turnAway c next = s := if_pos way

/-- A frame with no pool to wait in is discarded, and with it no more changes than a draining does. -/
theorem turnAway_discards {c : Claim} (way : c.isReturn = false) (s : State) :
    (s.turnAway c none).frame c.frame = {} ∧ OnlyIn poolParts s (s.turnAway c none) := by
  simp only [State.turnAway, way, Bool.false_eq_true, if_false]
  split
  · exact ⟨goneStay_drain _ _ _ _ (frame_discard_self _ _),
      (onlyIn_bump_discard _ _ _).mono.trans (onlyIn_drain _ _ _).mono⟩
  · exact ⟨frame_discard_self _ _, (onlyIn_bump_discard _ _ _).mono⟩

/-! What a claim that waits alone at its pool comes to (R319, R321) -/

/-- The claims that wait at a pool. -/
abbrev claimsAt (side : Side) (i : Slice) (b : Fin 2) (p : Fin 4) (s : State) : List Claim :=
  s.bpm.claims.filter fun c => c.egress = decide (side = .egress) && c.slice = i.val && c.set = b.val && c.pool = p.val

section

variable {side : Side} {i : Slice} {b : Fin 2} {p : Fin 4} {c : Claim} {s : State}
  (alone : claimsAt side i b p s = [c])
include alone

theorem exec_poolGrant_entitled (entitled : s.entitledIn c c.pool = true) :
    exec (.poolGrant side i b p) s = .next (s.grant c).panicSync := by
  change execPoolGrant side i b p s = _
  simp only [execPoolGrant, alone, List.filter_cons, entitled, Bool.not_true, Bool.false_eq_true, if_false, if_true]
  rfl

theorem exec_poolGrant_refused (refused : s.entitledIn c c.pool = false) :
    exec (.poolGrant side i b p) s = .next (s.turnAway c (s.nextPool c)).panicSync := by
  change execPoolGrant side i b p s = _
  simp only [execPoolGrant, alone, List.filter_cons, refused, Bool.not_false, Bool.false_eq_true, if_false, if_true]
  rfl

end


/-- Settles O39. -/
theorem poolsGrantOrTurnAwayClaims : Obligations.PoolsGrantOrTurnAwayClaims := by
  intro side i b p c s alone
  refine ⟨fun entitled ingress way => ?_, fun entitled way => ?_, fun entitled egress => ?_, fun q refused way next => ?_,
    fun refused way next => ?_, fun refused way => ?_⟩
  · have frame := frame_grant_ingress ingress s
    have buf := buf_grant_ingress ingress s
    rw [grantedBuf, takenIdx_eq, freeOset_takeBuffer, ingress] at buf
    rw [grantNames_group way] at frame buf
    exact ⟨_, exec_poolGrant_entitled alone entitled, claims_grant_ingress ingress s, charged_grant_ingress ingress s,
      ⟨⟨_, _, buf⟩, fun f named => by rw [frame, if_pos named], fun f other => by rw [frame, if_neg other]⟩,
      onlyIn_grant_ingress ingress s⟩
  · have ingress : c.egress = false := by
      simp only [Claim.isReturn, Bool.and_eq_true, Bool.not_eq_true'] at way
      exact way.1
    have frame := frame_grant_ingress ingress s c.frame
    have buf := buf_grant_ingress ingress s
    rw [grantedBuf, takenIdx_eq, ingress] at buf
    rw [grantNames_return way] at frame buf
    exact ⟨_, exec_poolGrant_entitled alone entitled, claims_grant_ingress ingress s, ⟨_, buf⟩,
      by rw [frame, if_pos (List.mem_singleton_self _)], onlyIn_grant_ingress ingress s⟩
  · have kept := keepsBuffers_grant_egress egress s
    have index := kept.index c.frame
    rw [frame_fillBuffer, takenIdx_eq, egress] at index
    exact ⟨_, exec_poolGrant_entitled alone entitled, by rw [kept.pool, frame_fillBuffer], ⟨_, index⟩,
      charged_grant_egress egress s, onlyIn_grant_egress egress s⟩
  · have run := exec_poolGrant_refused alone refused
    rw [next, turnAway_moves way] at run
    exact ⟨_, run, (sameItems_panicSync _).claims, (onlyIn_setClaims _ _).mono.trans (onlyIn_panicSync _)⟩
  · have run := exec_poolGrant_refused alone refused
    rw [next] at run
    obtain ⟨gone, only⟩ := turnAway_discards way s
    exact ⟨_, run, ((onlyIn_panicSync _).frame_same (by decide) _).trans gone, only.trans (onlyIn_panicSync _).mono⟩
  · have run := exec_poolGrant_refused alone refused
    rw [turnAway_return way] at run
    exact ⟨_, run, (sameItems_panicSync _).claims, onlyIn_panicSync _⟩

end Sys2Proof.Claims

/-! O3: a step runs the command at the front of the queue. -/

namespace Sys2Proof.Claims

open Sys2Proof.Machine

/-- Settles O3. -/
theorem stepRunsTheFrontCommand : Obligations.StepRunsTheFrontCommand := by
  refine ⟨fun _ _ _ => rfl, fun s empty => ?_⟩
  rw [step, empty]
  rfl

end Sys2Proof.Claims

/-! SUPPORT. More parts that are not listed, as equations, and parts replaced as a whole. -/

namespace Sys2Proof.Claims

open Sys2Proof.Machine

set_option Elab.async false

theorem OnlyIn.out_eq {ps : List Part} {s t : State} (h : OnlyIn ps s t) (hp : Part.out ∉ ps := by decide) :
    t.out = s.out := h .out hp

theorem OnlyIn.eic_eq {ps : List Part} {s t : State} (h : OnlyIn ps s t) (hp : Part.eic ∉ ps := by decide) :
    t.eic = s.eic := h .eic hp

theorem OnlyIn.flt_eq {ps : List Part} {s t : State} (h : OnlyIn ps s t) (hp : Part.flt ∉ ps := by decide) :
    t.flt = s.flt := h .flt hp

theorem OnlyIn.units_eq {ps : List Part} {s t : State} (h : OnlyIn ps s t) (hp : Part.units ∉ ps := by decide) :
    t.units = s.units := h .units hp

theorem OnlyIn.fuses_eq {ps : List Part} {s t : State} (h : OnlyIn ps s t) (hp : Part.fuses ∉ ps := by decide) :
    t.fuses = s.fuses := h .fuses hp

theorem OnlyIn.hbm_eq {ps : List Part} {s t : State} (h : OnlyIn ps s t) (hp : Part.hbm ∉ ps := by decide) :
    t.hbm = s.hbm := h .hbm hp

theorem OnlyIn.rst_eq {ps : List Part} {s t : State} (h : OnlyIn ps s t) (hp : Part.rst ∉ ps := by decide) :
    t.rst = s.rst := h .rst hp

theorem OnlyIn.now_eq {ps : List Part} {s t : State} (h : OnlyIn ps s t) (hp : Part.time ∉ ps := by decide) :
    t.now = s.now := (h .time hp).1

theorem OnlyIn.intSrc_eq {ps : List Part} {s t : State} (h : OnlyIn ps s t) (n : Nat)
    (hp : Part.eic ∉ ps := by decide) : t.intSrc n = s.intSrc n := by rw [State.intSrc, h.eic_eq hp, State.intSrc]

theorem onlyIn_rst (s : State) (x : ResetCtl) : OnlyIn [.rst] s { s with rst := x } := by
  intro p hp
  have same := SamePart.refl s p
  cases p
  case rst => exact absurd List.mem_cons_self hp
  all_goals exact same

theorem onlyIn_eic (s : State) (x : Eic) : OnlyIn [.eic] s { s with eic := x } := by
  intro p hp
  have same := SamePart.refl s p
  cases p
  case eic => exact absurd List.mem_cons_self hp
  all_goals exact same

theorem onlyIn_hif (s : State) (x : Hif) : OnlyIn [.hif] s { s with hif := x } := by
  intro p hp
  have same := SamePart.refl s p
  cases p
  case hif => exact absurd List.mem_cons_self hp
  all_goals exact same

theorem onlyIn_out (s : State) (l : List Out) : OnlyIn [.out] s { s with out := l } := by
  intro p hp
  have same := SamePart.refl s p
  cases p
  case out => exact absurd List.mem_cons_self hp
  all_goals exact same

end Sys2Proof.Claims

/-! SUPPORT, O44 and O60: doorbells, descriptors and the events of rings (R371 to R375, R387, R388, R393, R395). -/

namespace Sys2Proof.Claims

open Sys2Proof.Machine

set_option Elab.async false

/-! Doorbells (R374) -/

theorem groupBound {s : State} {req : Requester} {p g : Nat} (h : s.doorbellGroup req p = some g) : g < 256 := by
  unfold State.doorbellGroup at h
  split at h
  · split at h <;> cases h
    omega
  · split at h <;> cases h
    omega
  · split at h <;> cases h
    omega
  · have mem := List.mem_of_getElem? h
    simp only [State.vfGroups, List.mem_filter, List.mem_range] at mem
    omega

/-- A well-formed doorbell names one of the 4,096 rings. -/
theorem doorbellRing_lt {s : State} {req : Requester} {off size value r : Nat}
    (h : s.doorbellRing req off size value = some r) : r < 4096 := by
  unfold State.doorbellRing at h
  split at h
  · next g group =>
    have bound := groupBound group
    simp only at h
    split at h
    · next shape =>
      obtain ⟨-, -, low, -⟩ := shape
      have named := Option.some.inj h
      omega
    · cases h
  · cases h

/-- Validity of an entry follows the ring's requester alone. -/
theorem OnlyIn.ctxValid {ps : List Part} {s t : State} (h : OnlyIn ps s t) {r : Nat} (hr : r < 4096) (c : RingCtx)
    (hp : Part.regs ∉ ps := by decide) : t.ctxValid r c = s.ctxValid r c := by
  simp only [State.ctxValid, State.kindAllowed, h.ringReq hr hp]

section

variable {req : Requester} {off size : Nat} {v : BitVec 64} {r : Nat} {s : State}
  (named : s.doorbellRing req off size v.toNat = some r)
include named

theorem exec_doorbellIndex (code : bitsOf 50 48 v.toNat = 0) :
    exec (.doorbellIndex req off size v) s = .next (s.applyIndex req r (bitsOf 31 0 v.toNat)) := by
  change execDoorbellIndex req off size v s = _
  simp only [execDoorbellIndex, named, code, if_true]

theorem exec_doorbellInvalidate (code : bitsOf 50 48 v.toNat = 1) (b : Bytes) :
    exec (.doorbellInvalidate req off size v (some b)) s =
      .next (((s.pmcCount 7 0 0 1).touchCtx r).applyContext r (ctxOf b)) := by
  change execDoorbellInvalidate req off size v (some b) s = _
  simp only [execDoorbellInvalidate, named, code, if_true]

theorem exec_doorbellResume (code : bitsOf 50 48 v.toNat = 2) (halted : (s.ring r).halted = true) :
    exec (.doorbellResume req off size v) s =
      .next ((s.pmcCount 7 0 0 1).setRing r { s.ring r with halted := false, err := 0 }) := by
  change execDoorbellResume req off size v s = _
  simp only [execDoorbellResume, named, code, halted, if_true]

end

/-- Outside the MSI-X table and the pending bit array, what is no well-formed doorbell is counted. -/
theorem bar2Write_ignored {s : State} {req : Requester} {off size : Nat} (table : msixAccess req off size = none)
    (array : off < pendingArray req ∨ pendingArray req + 8 ≤ off) (v : Nat) :
    s.bar2Write req off size v = s.bump (cntHif (reqFn req).num 0) := by
  have outside : (pendingArray req ≤ off && off < pendingArray req + 8) = false := by
    simp only [Bool.and_eq_false_iff, decide_eq_false_iff_not]
    omega
  simp only [State.bar2Write, table, outside, Bool.false_eq_true, if_false]
  rfl

/-- The reading of a ring's context entry leaves every ring. -/
theorem ring_read (s : State) (r q : Nat) : ((s.pmcCount 7 0 0 1).touchCtx r).ring q = s.ring q :=
  (ring_touchCtx _ _ _).trans (ring_of_hif (onlyIn_pmcCount _ _ _ _ _).hif_eq q)

theorem onlyIn_read (s : State) (r : Nat) : OnlyIn [.cntCfg, .cnts, .hif] s ((s.pmcCount 7 0 0 1).touchCtx r) :=
  (onlyIn_pmcCount _ _ _ _ _).mono.trans (onlyIn_touchCtx _ _).mono

/-- A change of one ring leaves the others. -/
theorem ring_set_after {s u : State} (same : ∀ q, u.ring q = s.ring q) (r : Nat) (x : RingState) (q : Nat) (h : q ≠ r) :
    (u.setRing r x).ring q = s.ring q := (State.ring_setRing_other _ _ h).trans (same q)

/-! Enabling (R371, R373) -/

/-- An entry with EN = 1 on a ring that is not ACTIVE enables it. -/
theorem applyContext_enables {s : State} {r : Nat} {c : RingCtx} (en : c.en = true) (off : (s.ring r).active = false) :
    s.applyContext r c = s.enableRing r c := by
  simp only [State.applyContext, en, off, Bool.false_and, Bool.not_false, Bool.false_eq_true, if_true, if_false]

/-- An entry with EN = 1 on a stopping ring waits. -/
theorem applyContext_waits {s : State} {r : Nat} {c : RingCtx} (en : c.en = true) (active : (s.ring r).active = true)
    (stopping : (s.ring r).stopping = true) :
    s.applyContext r c = s.setRing r { s.ring r with deferred := some c } := by
  simp only [State.applyContext, en, active, stopping, Bool.not_true, Bool.and_false, Bool.not_false, if_true]

theorem enableRing_valid {s : State} {r : Nat} {c : RingCtx} (valid : s.ctxValid r c = true) :
    s.enableRing r c = s.setRing r { ctx := some c, active := true } := by simp only [State.enableRing, valid, if_true]

theorem exec_deferredRingEnable {r : Ring} {c : RingCtx} {s : State} (waits : (s.ring r).deferred = some c) :
    exec (.deferredRingEnable r) s =
      .next (if (s.ring r).active then s else (s.setRing r { s.ring r with deferred := none }).enableRing r c) := by
  change execDeferredRingEnable r s = _
  simp only [execDeferredRingEnable, waits]

/-- A record changes neither which rings are ACTIVE nor which entries wait. -/
def SameRuns (s t : State) : Prop :=
  ∀ q, (t.ring q).active = (s.ring q).active ∧ (t.ring q).deferred = (s.ring q).deferred

theorem SameRuns.trans {s t u : State} (h : SameRuns s t) (k : SameRuns t u) : SameRuns s u :=
  fun q => ⟨(k q).1.trans (h q).1, (k q).2.trans (h q).2⟩

theorem sameRuns_of_ring {s t : State} (h : ∀ q, t.ring q = s.ring q) : SameRuns s t :=
  fun q => by rw [h q]; exact ⟨rfl, rfl⟩

theorem sameRuns_setRing {s : State} {r : Nat} {x : RingState} (active : x.active = (s.ring r).active)
    (deferred : x.deferred = (s.ring r).deferred) : SameRuns s (s.setRing r x) := by
  intro q
  by_cases same : q = r
  · rw [same, State.ring_setRing]
    exact ⟨active, deferred⟩
  · rw [State.ring_setRing_other _ _ same]
    exact ⟨rfl, rfl⟩

theorem OnlyIn.sameRuns {ps : List Part} {s t : State} (h : OnlyIn ps s t) (hp : Part.hif ∉ ps := by decide) :
    SameRuns s t := sameRuns_of_ring (ring_of_hif (h.hif_eq hp))

theorem sameRuns_ringIrq (s : State) (r : Nat) : SameRuns s (s.ringIrq r) := by
  simp only [State.ringIrq]
  split
  · split
    · exact sameRuns_of_ring fun _ => rfl
    · split
      · exact (onlyIn_eicEvent _ _).sameRuns
      · split
        · exact sameRuns_setRing rfl rfl
        · refine SameRuns.trans ?_ (onlyIn_eicEvent _ _).sameRuns
          exact sameRuns_setRing rfl rfl
  · exact sameRuns_of_ring fun _ => rfl

theorem sameRuns_putRecord (s : State) (r type time : Nat) (body : Bytes) :
    SameRuns s (s.putRecord r type time body) := by
  simp only [State.putRecord]
  refine SameRuns.trans ?_ (sameRuns_ringIrq _ _)
  refine SameRuns.trans ?_ (sameRuns_of_ring fun q => ring_writeBack _ _ q)
  have before (o : Out) (q : Nat) : ((s.emit o).touchCtx r).ring q = s.ring q :=
    (ring_touchCtx _ _ _).trans (ring_of_hif (onlyIn_emit _ _).hif_eq q)
  refine (sameRuns_of_ring (before _)).trans (sameRuns_setRing ?_ ?_)
  · rw [before]
  · rw [before]

theorem sameRuns_putOverflow (s : State) (r : Nat) : SameRuns s (s.putOverflow r) := by
  simp only [State.putOverflow]
  split
  · exact sameRuns_of_ring fun _ => rfl
  · refine SameRuns.trans ?_ (sameRuns_putRecord _ _ _ _ _)
    exact sameRuns_setRing rfl rfl

theorem sameRuns_loseRecord_lost (s : State) (r n : Nat) :
    SameRuns s ((s.loseRecord r).setRing r { (s.loseRecord r).ring r with lost := n }) :=
  (onlyIn_loseRecord s r).sameRuns.trans (sameRuns_setRing rfl rfl)

theorem sameRuns_writeRecord (s : State) (f : Fn) (r type time : Nat) (body : Bytes) :
    SameRuns s (s.writeRecord f r type time body) := by
  simp only [State.writeRecord]
  split
  · split
    · split
      · exact sameRuns_loseRecord_lost s r _
      · exact (onlyIn_loseRecord s r).sameRuns
    · exact sameRuns_of_ring fun _ => rfl
  · refine (sameRuns_putOverflow s r).trans ?_
    split
    · exact sameRuns_loseRecord_lost _ r _
    · exact sameRuns_putRecord _ _ _ _ _

theorem sameRuns_ctrlRecord (s : State) (f : Fn) (type : Nat) (body : Bytes) : SameRuns s (s.ctrlRecord f type body) := by
  simp only [State.ctrlRecord]
  split
  · exact sameRuns_writeRecord _ _ _ _ _ _
  · exact sameRuns_of_ring fun _ => rfl

/-- A waiting entry that is not valid leaves its ring disabled and waits no more; no ring starts or stops. -/
theorem sameRuns_enableRing_invalid {s : State} {r : Nat} {c : RingCtx} (invalid : s.ctxValid r c = false) :
    SameRuns s (s.enableRing r c) := by
  simp only [State.enableRing, invalid, Bool.false_eq_true, if_false]
  exact sameRuns_ctrlRecord _ _ _ _

/-- Settles O60. -/
theorem enablingEntriesWaitForTheRing : Obligations.EnablingEntriesWaitForTheRing := by
  refine ⟨?_, ?_, ?_⟩
  · intro req off size v b r s named code active stopping en
    have same := ring_read s r
    refine ⟨_, exec_doorbellInvalidate named code b, ?_⟩
    rw [applyContext_waits en (by rw [same, active]) (by rw [same, stopping]), State.ring_setRing, same]
    exact ⟨rfl, ring_set_after same r _, (onlyIn_read s r).trans (onlyIn_setRing _ _ _).mono⟩
  · intro r c s waits active
    rw [exec_deferredRingEnable waits, if_pos active]
  · intro r c s waits off
    have run := exec_deferredRingEnable waits
    rw [off, if_neg Bool.false_ne_true] at run
    refine ⟨_, run, ?_⟩
    have kept : (s.setRing r { s.ring r with deferred := none }).ctxValid r c = s.ctxValid r c :=
      (onlyIn_setRing s r _).ctxValid r.isLt c
    cases valid : s.ctxValid r c with
    | true =>
      rw [enableRing_valid (kept.trans valid)]
      refine ⟨fun q other => ?_, fun _ => State.ring_setRing _ _ _, fun h => nomatch h⟩
      rw [State.ring_setRing_other _ _ other, State.ring_setRing_other _ _ other]
    | false =>
      have runs := sameRuns_enableRing_invalid (kept.trans valid)
      refine ⟨fun q other => ?_, fun h => (nomatch h), fun _ => ?_⟩
      · rw [(runs q).1, State.ring_setRing_other _ _ other]
      · rw [(runs r).1, (runs r).2, State.ring_setRing]
        exact ⟨off, rfl⟩

end Sys2Proof.Claims

/-! SUPPORT, and O44: doorbells, descriptors, NOP, stopping rings, OVERFLOW records and holdoffs (R374 to R395). -/

namespace Sys2Proof.Claims

open Sys2Proof.Machine

set_option Elab.async false

/-! Doorbells (R374, R375) -/

/-- The distance from the device index that an INDEX doorbell may not pass (R375). -/
def indexDistance (x : RingState) (index : Nat) : Nat :=
  if x.ctx.any (fun c => c.kind = 5) then (x.devIdx + 2 ^ 32 - index) % 2 ^ 32
  else (index + 2 ^ 32 - x.devIdx) % 2 ^ 32

theorem applyIndex_near {s : State} {r index : Nat} (active : (s.ring r).active = true)
    (near : indexDistance (s.ring r) index ≤ (s.ring r).size) (req : Requester) :
    s.applyIndex req r index = (s.pmcCount 7 0 0 1).setRing r { s.ring r with hostIdx := index } := by
  unfold indexDistance at near
  simp only [State.applyIndex, active, Bool.not_true, Bool.false_eq_true, if_false, near, if_true]

/-- A doorbell that is not well formed and lies outside table and array is counted, whatever it asks. -/
theorem doorbell_ignored {req : Requester} {off size : Nat} {v : BitVec 64} {s : State}
    (unnamed : s.doorbellRing req off size v.toNat = none) (table : msixAccess req off size = none)
    (array : off < pendingArray req ∨ pendingArray req + 8 ≤ off) (b : Dma) :
    exec (.doorbellIndex req off size v) s = .next (s.bump (cntHif (reqFn req).num 0)) ∧
      exec (.doorbellInvalidate req off size v b) s = .next (s.bump (cntHif (reqFn req).num 0)) ∧
      exec (.doorbellResume req off size v) s = .next (s.bump (cntHif (reqFn req).num 0)) := by
  have counted := bar2Write_ignored (s := s) table array v.toNat
  refine ⟨?_, ?_, ?_⟩
  · change execDoorbellIndex req off size v s = _
    simp only [execDoorbellIndex, unnamed, counted]
  · change execDoorbellInvalidate req off size v b s = _
    simp only [execDoorbellInvalidate, unnamed, counted]
  · change execDoorbellResume req off size v s = _
    simp only [execDoorbellResume, unnamed, counted]

/-! Descriptors (R381, R383) -/

/-- The first four checks look at the ring's context and the mode alone. -/
theorem handCheck_same {s t : State} {r : Nat} (ctx : (t.ring r).ctx = (s.ring r).ctx) (mode : t.mode = s.mode) (d : Bytes) :
    t.handCheck r d = s.handCheck r d := by simp only [State.handCheck, ctx, mode]

theorem handCheck_setRing (s : State) {r : Nat} {x : RingState} (ctx : x.ctx = (s.ring r).ctx) (d : Bytes) :
    (s.setRing r x).handCheck r d = s.handCheck r d :=
  handCheck_same (s := s) (t := s.setRing r x) (by rw [State.ring_setRing, ctx]) rfl d

/-- A ring that runs and executes nothing takes its only fetched descriptor into execution when the checks pass. -/
theorem handOn_takes {s : State} {r : Nat} {d : Bytes} (one : (s.ring r).fetched = [d])
    (runs : (s.ring r).enabled = true) (idle : (s.ring r).inExec = none) (good : s.handCheck r d = none) :
    s.handOn r = (s.setRing r { s.ring r with fetched := [] }).setRing r
      { s.ring r with fetched := [], inExec := some d } := by
  have again := (handCheck_setRing s (x := { s.ring r with fetched := [] }) rfl d).trans good
  have free : ((s.ring r).halted || (s.ring r).stopping || (s.ring r).inExec.isSome || !(s.ring r).active) = false := by
    simp only [RingState.enabled, Bool.and_eq_true, Bool.not_eq_true'] at runs
    obtain ⟨⟨⟨active, stopping⟩, halted⟩, -⟩ := runs
    simp [halted, stopping, idle, active]
  simp only [State.handOn, free, one, again, Bool.false_eq_true, if_false]

/-- A descriptor noted in the order of fetches. -/
def fetchNoted (s : State) (r : Ring) (d : Bytes) : State :=
  (((s.pmcCount 7 0 1 1).touchCtx r).setRing r { s.ring r with fetched := [d] }).noteFetch r 0 d

theorem onlyIn_noteFetch (s : State) (r held : Nat) (d : Bytes) : OnlyIn [.hif] s (s.noteFetch r held d) := onlyIn_hif _ _

theorem onlyIn_fetchNoted (s : State) (r : Ring) (d : Bytes) : OnlyIn [.cntCfg, .cnts, .hif] s (fetchNoted s r d) :=
  (((onlyIn_pmcCount _ _ _ _ _).mono.trans (onlyIn_touchCtx _ _).mono).trans (onlyIn_setRing _ _ _).mono).trans
    (onlyIn_noteFetch _ _ _ _).mono

theorem ring_fetchNoted (s : State) (r : Ring) (d : Bytes) (q : Nat) :
    (fetchNoted s r d).ring q = if q = r.val then { s.ring r with fetched := [d] } else s.ring q := by
  change (((s.pmcCount 7 0 1 1).touchCtx r).setRing r { s.ring r with fetched := [d] }).ring q = _
  by_cases same : q = r.val
  · rw [same, if_pos rfl, State.ring_setRing]
  · rw [if_neg same, State.ring_setRing_other _ _ same, ring_touchCtx]
    exact ring_of_hif (onlyIn_pmcCount _ _ _ _ _).hif_eq q

theorem exec_descriptorFetch {r : Ring} {d : Bytes} {c : RingCtx} {s : State} (reset : s.mode ≠ .reset)
    (bringup : s.mode ≠ .bringup) (enabled : (s.ring r).enabled = true) (ctx : (s.ring r).ctx = some c)
    (kind : c.kind = 1 ∨ c.kind = 2) (work : (s.ring r).hasWork = true) (none : (s.ring r).fetched = [])
    (idle : (s.ring r).inExec = .none) (room : s.cacheRoom r ≠ .none) :
    exec (.descriptorFetch r (.data d)) s = .next ((fetchNoted s r d).handOn r) := by
  have run : s.mode.ringsRun = true := by simp [Mode.ringsRun, reset, bringup]
  have cached : (s.cacheRoom r).isNone = false := Option.isNone_eq_false_iff.mpr (Option.isSome_iff_ne_none.mpr room)
  have k3 : c.kind ≠ 3 := by omega
  have k4 : c.kind ≠ 4 := by omega
  have k5 : c.kind ≠ 5 := by omega
  have runs : (!(s.ring r).enabled || !s.mode.ringsRun) = false := by simp [enabled, run]
  have fetches : (decide (c.kind = 5) || !(s.ring r).hasWork || (s.cacheRoom r).isNone) = false := by
    simp [k5, work, cached]
  change execDescriptorFetch r (.data d) s = _
  simp only [execDescriptorFetch, State.fetchDescriptor, runs, ctx, fetches, k3, k4, none, idle, fetchNoted,
    Bool.false_eq_true, if_false]
  rfl

/-! Rings that stop (R388) -/

/-- The steps that follow the write-back word of a ring that has stopped. -/
def stoppedRecord (s : State) (r : Ring) : State :=
  (s.writeBack r).ctrlRecord (ringFn r) 0x0003 (leBytes 2 r.val ++ zeros 2 ++ leBytes 4 (s.ring r).aborted)

theorem onlyIn_stoppedRecord (s : State) (r : Ring) : OnlyIn recordParts s (stoppedRecord s r) :=
  (onlyIn_writeBack s r).trans (onlyIn_ctrlRecord _ _ _ _)

theorem exec_ringStopped {r : Ring} {s : State} (active : (s.ring r).active = true)
    (stopping : (s.ring r).stopping = true) (idle : (s.ring r).inExec = none) (empty : (s.ring r).fetched = []) :
    exec (.ringStopped r) s = .next ((stoppedRecord s r).setRing r
      { (stoppedRecord s r).ring r with active := false, stopping := false }) := by
  change execRingStopped r s = _
  simp only [execRingStopped, active, stopping, idle, empty, Option.isNone_none, List.isEmpty_nil, Bool.and_self, if_true]
  rfl

/-! OVERFLOW records (R393) -/

/-- A ring after the interrupt of an entry keeps its index and its count of lost records. -/
theorem ringIrq_keeps (s : State) (r : Nat) :
    ((s.ringIrq r).ring r).devIdx = (s.ring r).devIdx ∧ ((s.ringIrq r).ring r).lost = (s.ring r).lost := by
  simp only [State.ringIrq]
  split
  · split
    · exact ⟨rfl, rfl⟩
    · split
      · rw [ring_of_hif (onlyIn_eicEvent _ _).hif_eq]
        exact ⟨rfl, rfl⟩
      · split
        · rw [State.ring_setRing]
          exact ⟨rfl, rfl⟩
        · rw [ring_of_hif (onlyIn_eicEvent _ _).hif_eq, State.ring_setRing]
          exact ⟨rfl, rfl⟩
  · exact ⟨rfl, rfl⟩

theorem ring_putRecord (s : State) (r type time : Nat) (body : Bytes) :
    ((s.putRecord r type time body).ring r).devIdx = ((s.ring r).devIdx + 1) % 2 ^ 32 ∧
      ((s.putRecord r type time body).ring r).lost = (s.ring r).lost := by
  simp only [State.putRecord]
  rw [(ringIrq_keeps _ _).1, (ringIrq_keeps _ _).2, ring_writeBack, State.ring_setRing]
  exact ⟨rfl, rfl⟩

/-- The number of lost records in an OVERFLOW record (Table 12.18). -/
theorem overflowRecord_count (x : RingState) (type time n : Nat) :
    leAt (recordBytes x type time (leBytes 4 n)) 16 4 = n % 2 ^ 32 := by
  have body : sliceOf (leBytes 4 n) 0 48 = leBytes 4 n ++ zeros 44 := by simp [sliceOf, List.take_of_length_le]
  have field := leAt_append (recordHead x type time) (leBytes 4 n) (zeros 44)
  rw [leNat_leBytes] at field
  rw [recordBytes, body]
  simpa [recordHead] using field

theorem exec_eventOverflowRecord {r : Ring} {c : RingCtx} {s : State} (reset : s.mode ≠ .reset)
    (bringup : s.mode ≠ .bringup) (enabled : (s.ring r).enabled = true) (ctx : (s.ring r).ctx = some c)
    (kind : c.kind = 5) (lost : (s.ring r).lost ≠ 0) (room : (s.ring r).full = false) :
    exec (.eventOverflowRecord r) s = .next ((s.setRing r { s.ring r with lost := 0 }).putRecord r 0x0001 s.now
      (leBytes 4 (s.ring r).lost)) := by
  have runs : s.ringIs r 5 (ringFn r) = true := by
    simp [State.ringIs, Mode.ringsRun, reset, bringup, enabled, ctx, kind]
  change execEventOverflowRecord r s = _
  simp only [execEventOverflowRecord, runs, if_true, State.putOverflow, lost, room, Bool.false_eq_true, or_self, if_false]

/-! Interrupts of rings (R395) -/

/-- An event leaves its source pending (R446). -/
theorem isPending_eicEvent (s : State) {n : Nat} (low : 1 ≤ n) (high : n ≤ 1920) :
    ((s.eicEvent n).intSrc n).isPending n = true := by
  simp only [State.eicEvent, State.setPendingWith]
  rw [State.intSrc_setIntSrc, if_pos ⟨rfl, low, high⟩]
  cases level : srcIsLevel n with
  | true =>
    simp only [if_true]
    split
    all_goals simp [IntSource.isPending, level]
  | false =>
    simp only [Bool.false_eq_true, if_false]
    split
    all_goals simp [IntSource.isPending, level]

/-- The interrupt of an entry sets the ring's source pending when no holdoff runs. -/
theorem isPending_ringIrq {s : State} {r : Nat} {c : RingCtx} (ctx : (s.ring r).ctx = some c) (en : c.irqEn = true)
    (free : (s.ring r).holdEnd = 0) (low : 1 ≤ c.irqSrc) (high : c.irqSrc ≤ 1920) :
    ((s.ringIrq r).intSrc c.irqSrc).isPending c.irqSrc = true := by
  simp only [State.ringIrq, ctx, en, Bool.not_true, Bool.false_eq_true, if_false, free]
  split
  · exact isPending_eicEvent _ low high
  · rw [if_neg fun h => h.1 rfl]
    exact isPending_eicEvent _ low high

theorem irqHeld_ringIrq {s : State} {r : Nat} (free : (s.ring r).holdEnd = 0) (held : (s.ring r).irqHeld = false) :
    ((s.ringIrq r).ring r).irqHeld = false := by
  simp only [State.ringIrq, free]
  split
  · split
    · exact held
    · split
      · rw [ring_of_hif (onlyIn_eicEvent _ _).hif_eq, held]
      · rw [if_neg fun h => h.1 rfl, ring_of_hif (onlyIn_eicEvent _ _).hif_eq, State.ring_setRing]
  · exact held

/-- The holdoff's end, at its time. -/
def holdoffOver (s : State) (r : Ring) (x : RingState) : State := (s.advanceTo (s.ring r).holdEnd).setRing r x

theorem onlyIn_holdoffOver (s : State) (r : Ring) (x : RingState) : OnlyIn [.time, .hif] s (holdoffOver s r x) :=
  (onlyIn_advanceTo _ _).mono.trans (onlyIn_setRing _ _ _).mono

theorem ring_holdoffOver (s : State) (r : Ring) (x : RingState) : (holdoffOver s r x).ring r = x := State.ring_setRing _ _ _

theorem exec_irqHoldoffEnd {r : Ring} {s : State} (runs : (s.ring r).holdEnd ≠ 0) :
    exec (.irqHoldoffEnd r) s = .next (if (s.ring r).irqHeld
      then (holdoffOver s r { s.ring r with holdEnd := 0, irqHeld := false }).ringIrq r
      else holdoffOver s r { s.ring r with holdEnd := 0 }) := by
  change execIrqHoldoffEnd r s = _
  simp only [execIrqHoldoffEnd, runs, if_false]
  rfl

theorem irqHoldoffEnd_sets {r : Ring} {c : RingCtx} {s : State} (runs : (s.ring r).holdEnd ≠ 0)
    (ctx : (s.ring r).ctx = some c) :
    ∃ t, exec (.irqHoldoffEnd r) s = .next t ∧ t.now = max s.now (s.ring r).holdEnd ∧ (t.ring r).irqHeld = false ∧
      ((s.ring r).irqHeld = false → (t.ring r).holdEnd = 0) ∧
      ((s.ring r).irqHeld = true → c.irqEn = true → 1 ≤ c.irqSrc → c.irqSrc ≤ 1920 →
        (t.intSrc c.irqSrc).isPending c.irqSrc = true) ∧
      OnlyIn [.time, .hif, .eic] s t := by
  have now (x : RingState) : (holdoffOver s r x).now = max s.now (s.ring r).holdEnd :=
    (onlyIn_setRing _ _ _).now_eq.trans (now_advanceTo _ _)
  refine ⟨_, exec_irqHoldoffEnd runs, ?_⟩
  cases held : (s.ring r).irqHeld with
  | true =>
    simp only [if_true]
    refine ⟨(onlyIn_ringIrq _ _).now_eq.trans (now _), irqHeld_ringIrq ?_ ?_, fun h => (nomatch h),
      fun _ en low high => isPending_ringIrq ?_ en ?_ low high,
      (onlyIn_holdoffOver _ _ _).mono.trans (onlyIn_ringIrq _ _).mono⟩
    all_goals rw [ring_holdoffOver]
    exact ctx
  | false =>
    simp only [Bool.false_eq_true, if_false]
    refine ⟨now _, ?_, fun _ => ?_, fun h => (nomatch h), (onlyIn_holdoffOver _ _ _).mono⟩
    all_goals rw [ring_holdoffOver]
    exact held

/-- Settles O44. -/
theorem doorbellsAndDescriptorsDriveRings : Obligations.DoorbellsAndDescriptorsDriveRings := by
  refine ⟨?_, ?_, ?_, ?_, ?_, ?_, ?_, ?_, ?_, fun _ _ _ runs ctx => irqHoldoffEnd_sets runs ctx⟩
  · intro req off size v r s named code active near
    refine ⟨_, exec_doorbellIndex named code, ?_⟩
    rw [applyIndex_near active near]
    exact ⟨State.ring_setRing _ _ _, ring_set_after (ring_of_hif (onlyIn_pmcCount _ _ _ _ _).hif_eq) r _,
      (onlyIn_pmcCount _ _ _ _ _).mono.trans (onlyIn_setRing _ _ _).mono⟩
  · intro req off size v b r s named code off' en valid
    have same := ring_read s r
    have kept : ((s.pmcCount 7 0 0 1).touchCtx r).ctxValid r (ctxOf b) = s.ctxValid r (ctxOf b) :=
      (onlyIn_read s r).ctxValid (doorbellRing_lt named) _
    refine ⟨_, exec_doorbellInvalidate named code b, ?_⟩
    rw [applyContext_enables en (by rw [same, off']), enableRing_valid (kept.trans valid)]
    exact ⟨State.ring_setRing _ _ _, ring_set_after same r _, (onlyIn_read s r).trans (onlyIn_setRing _ _ _).mono⟩
  · intro r c s waits off valid
    have run := exec_deferredRingEnable waits
    have kept : (s.setRing r { s.ring r with deferred := none }).ctxValid r c = s.ctxValid r c :=
      (onlyIn_setRing s r _).ctxValid r.isLt c
    rw [off, if_neg Bool.false_ne_true, enableRing_valid (kept.trans valid)] at run
    refine ⟨_, run, State.ring_setRing _ _ _, fun q other => ?_, (onlyIn_setRing _ _ _).trans (onlyIn_setRing _ _ _)⟩
    rw [State.ring_setRing_other _ _ other, State.ring_setRing_other _ _ other]
  · intro req off size v r s named code halted
    exact ⟨_, exec_doorbellResume named code halted, State.ring_setRing _ _ _,
      ring_set_after (ring_of_hif (onlyIn_pmcCount _ _ _ _ _).hif_eq) r _,
      (onlyIn_pmcCount _ _ _ _ _).mono.trans (onlyIn_setRing _ _ _).mono⟩
  · intro req off size v b s unnamed table array
    exact doorbell_ignored unnamed table array b
  · intro r d c s reset bringup enabled ctx kind work empty idle good room
    have ring := ring_fetchNoted s r d
    have own := ring r
    rw [if_pos rfl] at own
    have check : (fetchNoted s r d).handCheck r d = none :=
      (handCheck_same (by rw [own]) (onlyIn_fetchNoted s r d).mode_eq d).trans good
    refine ⟨_, exec_descriptorFetch reset bringup enabled ctx kind work empty idle room, ?_⟩
    rw [handOn_takes (by rw [own]) (by rw [own]; exact enabled) (by rw [own]; exact idle) check, own]
    refine ⟨State.ring_setRing _ _ _ |>.trans ?_, fun q other => ?_,
      ((onlyIn_fetchNoted s r d).trans (onlyIn_setRing _ _ _).mono).trans (onlyIn_setRing _ _ _).mono⟩
    · rw [← empty]
    · rw [State.ring_setRing_other _ _ other, State.ring_setRing_other _ _ other, ring, if_neg other]
  · intro r d s ex
    have run : exec (.nop r) s = .next (s.complete r .ok) := by
      change execNop r s = _
      rw [execNop, ex.command]
    exact ⟨_, run, completed_self _ _ _ ex.inExec, (onlyIn_complete _ _ _ _ _).mono⟩
  · intro r c s active stopping idle empty ctx
    refine ⟨_, exec_ringStopped active stopping idle empty, by rw [State.ring_setRing], by rw [State.ring_setRing], ?_,
      (onlyIn_stoppedRecord s r).mono.trans (onlyIn_setRing _ _ _).mono⟩
    refine Emits.later ?_ (onlyIn_setRing _ _ _).adds
    refine Emits.later ?_ (adds_ctrlRecord _ _ _ _)
    refine .of_emit (.refl s) ?_
    simp only [State.writeBack, ctx]
    exact .refl _
  · intro r c s reset bringup enabled ctx kind lost room
    have run := exec_eventOverflowRecord reset bringup enabled ctx kind lost room
    have req : (s.setRing r { s.ring r with lost := 0 }).ringReq r = s.ringReq r := (onlyIn_setRing _ _ _).ringReq r.isLt
    have put := ring_putRecord (s.setRing r { s.ring r with lost := 0 }) r 0x0001 s.now (leBytes 4 (s.ring r).lost)
    have wrote := emits_putRecord (s.setRing r { s.ring r with lost := 0 }) r 0x0001 s.now (leBytes 4 (s.ring r).lost)
    rw [State.ring_setRing] at put wrote
    rw [req] at wrote
    exact ⟨_, run, put.2, put.1,
      ⟨_, wrote.before (onlyIn_setRing _ _ _).adds, recordBytes_type _ _ _ _, overflowRecord_count _ _ _ _⟩,
      (onlyIn_setRing _ _ _).mono.trans (onlyIn_putRecord _ _ _ _ _).mono⟩

end Sys2Proof.Claims

/-! SUPPORT, and O57: general counters, snapshots, bandwidth windows, sampling and counter pairs (R522 to R529). -/

namespace Sys2Proof.Machine

/-! A write of all of an 8-byte register (R537) -/

theorem bitsOf_mergeBytes {hi : Nat} (top : hi ≤ 63) (lo old v : Nat) :
    bitsOf hi lo (mergeBytes old 0 8 v) = bitsOf hi lo v := by
  refine Nat.eq_of_testBit_eq fun k => ?_
  rw [testBit_bitsOf, testBit_bitsOf, mergeBytes, testBit_withBits]
  by_cases inside : k < hi + 1 - lo
  · rw [if_pos (by omega)]
    rfl
  · simp [inside]

/-- What a write names as reserved follows the bits that the fields cover. -/
theorem anyReserved_mergeBytes {fs : List Field} (top : ∀ f ∈ fs, f.hi ≤ 63) (old v : Nat) :
    anyReserved fs old (mergeBytes old 0 8 v) = anyReserved fs old v := by
  induction fs with
  | nil => rfl
  | cons f fs ih =>
    have here := bitsOf_mergeBytes (top f List.mem_cons_self) f.lo old v
    have rest := ih fun g hg => top g (List.mem_cons_of_mem _ hg)
    simp only [anyReserved, List.any_cons, Field.reservedWrite, here] at rest ⊢
    rw [rest]

/-- A write that names no reserved encoding is taken by each read/write field. -/
theorem bitsOf_applyFields_taken {fs : List Field} {f : Field} {old new : Nat}
    (disjoint : fs.Pairwise fun f g => f.hi < g.lo ∨ g.hi < f.lo) (listed : f ∈ fs) (rw' : f.acc = .rw)
    (legal : anyReserved fs old new = false) : bitsOf f.hi f.lo (applyFields fs old new) = bitsOf f.hi f.lo new := by
  obtain ⟨mid, value⟩ := bitsOf_foldl_apply_mem old new old disjoint listed
  have good := List.any_eq_false.mp legal f listed
  rw [applyFields, value, bitsOf_apply_rw rw']
  split
  · rfl
  · next bad =>
    rw [not_or] at bad
    simp [Field.reservedWrite, rw', bad.1, bad.2] at good

end Sys2Proof.Machine

namespace Sys2Proof.Claims

open Sys2Proof.Machine

set_option Elab.async false

/-! General counters and snapshots (R522, R523) -/

/-- The registers of PMC other than PMC_CNT_CFG. -/
theorem pmc_not_inCntCfg {r : RegName} (h : r = .pmcSnap ∨ r = .pmcSnapTime ∨ r = .pmcBwCtrl ∨ r = .pmcSampCtrl) :
    ¬ inCntCfg (r.key 0 0 0) := by
  rcases h with rfl | rfl | rfl | rfl
  all_goals simp [inCntCfg, RegName.key, RegName.addr, RegName.info]

theorem exec_pmcCounterWrite {n : Fin 4096} {s : State} (up : s.reachable .pmcCnt = true) (v : BitVec 64) :
    exec (.pmcCounterWrite .pf0 n 8 v) s = .next { s with cnts := s.cnts.set 0 (cntPmc n) (v.toNat % 2 ^ 48) } :=
  congrArg Host.Outcome.next (rowWrite_of_role up rfl 0 n _)

theorem exec_pmcSnapshot {s : State} (up : s.reachable .pmcSnap = true) :
    exec (.pmcSnapshot .pf0) s = .next s.latchShadows := congrArg Host.Outcome.next (rowWrite_of_role up rfl 0 0 _)

/-- The cells of m counters from b on, read by their number, are the counters of whole words as they stand. -/
theorem lookupCell_window {b : Nat} (start : b % 8 = 0) (m : Nat) (l : List (Nat × Nat)) (whole : ∀ c ∈ l, c.1 % 8 = 0)
    {n : Nat} (small : n < m) : lookupCell 0 ((l.filter fun c => b ≤ c.1 && c.1 < b + 8 * m).map
      fun c => ((c.1 - b) / 8, c.2)) n = lookupCell 0 l (b + 8 * n) := by
  induction l with
  | nil => rfl
  | cons c l ih =>
    obtain ⟨k, v⟩ := c
    have rest := ih fun c hc => whole c (List.mem_cons_of_mem _ hc)
    have eighth : k % 8 = 0 := whole (k, v) List.mem_cons_self
    by_cases inside : b ≤ k ∧ k < b + 8 * m
    · have same : n = (k - b) / 8 ↔ b + 8 * n = k := by omega
      rw [List.filter_cons_of_pos (by simpa using inside)]
      simp only [List.map_cons, lookupCell, rest, same]
    · have other : b + 8 * n ≠ k := by omega
      rw [List.filter_cons_of_neg (by simpa using inside)]
      simp only [lookupCell, rest, other, if_false]

theorem shadow_latchShadows {s : State} (whole : ∀ k ∈ s.cnts.keys, k % 8 = 0) {n : Nat} (small : n < 4096) :
    s.latchShadows.pmc.shadow.get 0 n = s.cnt (cntPmc n) :=
  lookupCell_window (by decide) 4096 s.cnts.cells (fun c hc => whole c.1 (List.mem_map_of_mem hc)) small

theorem onlyIn_latchShadows (s : State) : OnlyIn [.regs, .pmc] s s.latchShadows :=
  ((onlyIn_pmc s _).mono.trans (onlyIn_setRegOf_plain _ _ _ _ _ _ (pmc_not_inCntCfg (.inr (.inl rfl)))).mono).trans
    (onlyIn_setRegOf_plain _ _ _ _ _ _ (pmc_not_inCntCfg (.inl rfl))).mono

/-- The shadows and their time are latched, the snapshot not yet counted. -/
def shadowsTimed (s : State) : State :=
  let live := s.cnts.cells.filter fun (c : Nat × Nat) => cntPmc 0 ≤ c.1 && c.1 < cntPmc 0 + 8 * 4096
  let t := { s with pmc := { s.pmc with shadow := ⟨live.map fun (c : Nat × Nat) => ((c.1 - cntPmc 0) / 8, c.2)⟩ } }
  t.setReg .pmcSnapTime 0 0 t.now

theorem latchShadows_eq (s : State) : s.latchShadows = (shadowsTimed s).setReg .pmcSnap 0 0
    (withBits 30 0 ((shadowsTimed s).reg .pmcSnap 0 0) ((shadowsTimed s).fld .pmcSnap 0 0 30 0 + 1)) := rfl

theorem snapTime_latchShadows (s : State) : s.latchShadows.reg .pmcSnapTime 0 0 = s.now := by
  rw [latchShadows_eq]
  exact (State.regOf_setRegOf_other _ (by decide)).trans (State.reg_setReg _ _ _ _ _)

theorem snaps_latchShadows (s : State) :
    s.latchShadows.fld .pmcSnap 0 0 30 0 = (s.fld .pmcSnap 0 0 30 0 + 1) % 2 ^ 31 := by
  have same : (shadowsTimed s).reg .pmcSnap 0 0 = s.reg .pmcSnap 0 0 := State.regOf_setRegOf_other _ (by decide)
  rw [latchShadows_eq, State.fld, State.reg_setReg, bitsOf_withBits_same, State.fld, State.fld, same]

/-! Bandwidth windows (R524) -/

theorem pmcBw_key_ne {p q j k : Nat} (hj : j < 4) (hk : k < 4) (h : q ≠ p ∨ k ≠ j) :
    RegName.key .pmcBw 0 q k ≠ RegName.key .pmcBw 0 p j := by
  simp [RegName.key, RegName.addr, RegName.info]
  omega

/-- What port p's register k (LAST for even k, PEAK for odd) holds once its window ends. -/
def windowEnd (s : State) (clear : Bool) (p k : Nat) : Nat :=
  if k % 2 = 0 then s.pmc.bw.get 0 (s.pmc.bwWin * 256 + 2 * p + k / 2)
  else if clear then 0 else max (s.reg .pmcBw p k) (s.pmc.bw.get 0 (s.pmc.bwWin * 256 + 2 * p + k / 2))

theorem reg_setReg_bw (s : State) {p q j k : Nat} (hj : j < 4) (hk : k < 4) (v : Nat) :
    (s.setReg .pmcBw p j v).reg .pmcBw q k = if q = p ∧ k = j then v else s.reg .pmcBw q k := by
  split
  · next same => rw [same.1, same.2, State.reg_setReg]
  · next other => exact State.regOf_setRegOf_other s (pmcBw_key_ne hj hk (by omega))

theorem bw_closeWindow (s : State) (clear : Bool) (p q : Nat) {k : Nat} (hk : k < 4) :
    (s.closeWindow clear p).reg .pmcBw q k = if q = p then windowEnd s clear p k else s.reg .pmcBw q k := by
  simp only [State.closeWindow, runOver, List.foldl_cons, List.foldl_nil, State.setReg_pmc, State.bwReg]
  rw [reg_setReg_bw _ (by decide) hk, reg_setReg_bw _ (by decide) hk, reg_setReg_bw _ (by decide) hk,
    reg_setReg_bw _ (by decide) hk]
  by_cases same : q = p
  · subst same
    interval_cases k
    all_goals simp [windowEnd, reg_setReg_bw]
  · simp [same]

theorem pmc_closeWindow (s : State) (clear : Bool) (p : Nat) : (s.closeWindow clear p).pmc = s.pmc := rfl

/-- Closing every listed port's window. -/
theorem bw_closeWindows (l : List Nat) (clear : Bool) (s : State) (q : Nat) {k : Nat} (hk : k < 4) :
    (runOver l (fun p s => s.closeWindow clear p) s).reg .pmcBw q k =
      if q ∈ l then windowEnd s clear q k else s.reg .pmcBw q k := by
  induction l generalizing s with
  | nil => rfl
  | cons p l ih =>
    have first := bw_closeWindow s clear p q hk
    refine (ih (s.closeWindow clear p)).trans ?_
    by_cases same : q = p
    · subst same
      rw [if_pos rfl] at first
      have again : windowEnd (s.closeWindow clear q) clear q k = windowEnd s clear q k := by
        rw [windowEnd, pmc_closeWindow, first, windowEnd]
        split
        · rfl
        · split
          · rfl
          · rw [Nat.max_assoc, Nat.max_self]
      rw [first, again, ite_self, if_pos List.mem_cons_self]
    · rw [if_neg same] at first
      have later : windowEnd (s.closeWindow clear p) clear q k = windowEnd s clear q k := by
        rw [windowEnd, pmc_closeWindow, first, windowEnd]
      simp only [first, later, List.mem_cons, same, false_or]

theorem onlyIn_closeWindow (s : State) (clear : Bool) (p : Nat) : OnlyIn [.regs, .cntCfg] s (s.closeWindow clear p) :=
  .runOver (fun _ _ => (onlyIn_setReg _ _ _ _ _).trans (onlyIn_setReg _ _ _ _ _)) _ _

/-- Every port's window is closed at its end. -/
def windowsClosed (s : State) : State :=
  runOver (List.range 128) (fun p u => u.closeWindow (s.bit .pmcBwCtrl 0 0 31) p)
    (s.advanceTo ((s.pmc.bwWin + 1) * s.bwWindow))

/-- CLR_PEAK is 0 again. -/
def peakCleared (s : State) : State :=
  (windowsClosed s).setReg .pmcBwCtrl 0 0 (withBits 31 31 ((windowsClosed s).reg .pmcBwCtrl 0 0) 0)

theorem onlyIn_windowsClosed (s : State) : OnlyIn [.time, .regs, .cntCfg] s (windowsClosed s) :=
  (onlyIn_advanceTo _ _).mono.trans (.mono (.runOver (fun p s => onlyIn_closeWindow s _ p) _ _))

theorem onlyIn_peakCleared (s : State) : OnlyIn [.time, .regs, .cntCfg] s (peakCleared s) :=
  (onlyIn_windowsClosed s).trans (onlyIn_setReg _ _ _ _ _).mono

/-- The next window counts. -/
def windowStarted (s : State) : State :=
  let w := s.pmc.bwWin + 1
  { s with pmc := { s.pmc with bwWin := w, bw := s.pmc.bw.keep fun k => w ≤ k / 256 } }

theorem reg_windowStarted (s : State) (r : RegName) (i j : Nat) : (windowStarted s).reg r i j = s.reg r i j := rfl

theorem exec_bwWindowEnd (s : State) : exec .bwWindowEnd s = .next (windowStarted (peakCleared s)) := rfl

theorem bw_peakCleared (s : State) (p : Port) {k : Nat} (hk : k < 4) :
    (peakCleared s).reg .pmcBw p k = windowEnd s (s.bit .pmcBwCtrl 0 0 31) p k := by
  have other : RegName.key .pmcBw 0 p k ≠ RegName.key .pmcBwCtrl 0 0 0 := by
    simp [RegName.key, RegName.addr, RegName.info]
    omega
  have closed := bw_closeWindows (List.range 128) (s.bit .pmcBwCtrl 0 0 31)
    (s.advanceTo ((s.pmc.bwWin + 1) * s.bwWindow)) p hk
  rw [if_pos (List.mem_range.mpr p.isLt)] at closed
  exact (State.regOf_setRegOf_other _ other).trans closed

/-! Sampling (R529) -/

theorem sampLfsr_loadLfsrs (s : State) {i : Nat} (h : i < 16) :
    s.loadLfsrs.sampLfsr.get 0 i = s.fld .pmcSampCtrl 0 0 63 32 ^^^ i := by
  have loads (seed : Nat) (l : List Nat) (t : Tab Nat) : (l.foldl (fun t i => t.set 0 i (seed ^^^ i)) t).get 0 i =
      if i ∈ l then seed ^^^ i else t.get 0 i := by
    induction l generalizing t with
    | nil => rfl
    | cons j l ih =>
      rw [List.foldl_cons, ih, Tab.get_set]
      by_cases same : i = j
      · simp [same]
      · simp [same]
  exact (loads _ _ _).trans (if_pos (List.mem_range.mpr h))

theorem onlyIn_sampLfsr (s : State) (t : Tab Nat) : OnlyIn [.sampLfsr] s { s with sampLfsr := t } := by
  intro p hp
  have same := SamePart.refl s p
  cases p
  case sampLfsr => exact absurd List.mem_cons_self hp
  all_goals exact same

/-- PMC_SAMP_CTRL once PF0 writes v to it. -/
def sampWritten (s : State) (v : Nat) : Nat :=
  applyFields (RegName.info .pmcSampCtrl).fields (s.reg .pmcSampCtrl 0 0) (mergeBytes (s.reg .pmcSampCtrl 0 0) 0 8 v)

theorem sampWritten_field {s : State} {v : Nat} {f : Field} (listed : f ∈ (RegName.info .pmcSampCtrl).fields)
    (legal : anyReserved (RegName.info .pmcSampCtrl).fields (s.reg .pmcSampCtrl 0 0) v = false) :
    bitsOf f.hi f.lo (sampWritten s v) = bitsOf f.hi f.lo v := by
  have facts : ∀ f ∈ (RegName.info .pmcSampCtrl).fields, f.hi ≤ 63 ∧ f.acc = .rw := by decide
  have disjoint : (RegName.info .pmcSampCtrl).fields.Pairwise fun f g => f.hi < g.lo ∨ g.hi < f.lo := by decide
  rw [sampWritten, bitsOf_applyFields_taken disjoint listed (facts f listed).2, bitsOf_mergeBytes (facts f listed).1]
  rw [anyReserved_mergeBytes fun f hf => (facts f hf).1]
  exact legal

theorem exec_samplingEnable {v : BitVec 64} {s : State} (up : s.reachable .pmcSampCtrl = true)
    (ring : s.sampleRing (bitsOf 27 16 v.toNat) = true) (en : bitOf 28 v.toNat = true)
    (legal : anyReserved (RegName.info .pmcSampCtrl).fields (s.reg .pmcSampCtrl 0 0) v.toNat = false) :
    exec (.samplingEnable .pf0 v) s = .next (s.setReg .pmcSampCtrl 0 0 (sampWritten s v.toNat)).loadLfsrs := by
  have judged : s.judgeWrite .pf0 ⟨.pmcSampCtrl, 0, 0, 0⟩ 8 v.toNat = .stored (sampWritten s v.toNat) false := by
    have quiet : anyReserved (RegName.info .pmcSampCtrl).fields (s.reg .pmcSampCtrl 0 0)
        (mergeBytes (s.reg .pmcSampCtrl 0 0) 0 8 v.toNat) = false :=
      (anyReserved_mergeBytes (by decide) _ _).trans legal
    refine (judgeWrite_stored up rfl 8 v.toNat).trans ?_
    exact congrArg (FieldWrite.stored _) quiet
  have named : bitsOf 27 16 (sampWritten s v.toNat) = bitsOf 27 16 v.toNat :=
    sampWritten_field (f := rw 27 16) (by decide) legal
  change execSamplingEnable .pf0 v s = _
  simp only [execSamplingEnable, en, if_true, State.sampWrite, judged, named, ring, Bool.not_true, Bool.and_false,
    Bool.or_false, Bool.false_eq_true, if_false]
  rfl

/-! Counter pairs (R527, R528) -/

/-- The pairs of a unit that is lost restart from 0 with INVALID set. -/
theorem pairs_losePairs (s : State) (u j : Nat) :
    (s.losePairs u).pmc.pairs.get {} j = if j / 4 = u then ⟨0, 0, true⟩ else s.pmc.pairs.get {} j := by
  have sets (l : List Nat) (s : State) :
      (runOver l (fun k s => { s with pmc := { s.pmc with pairs := s.pmc.pairs.set {} (4 * u + k) ⟨0, 0, true⟩ } })
        s).pmc.pairs.get {} j = if ∃ k ∈ l, j = 4 * u + k then ⟨0, 0, true⟩ else s.pmc.pairs.get {} j := by
    induction l generalizing s with
    | nil => simp [runOver]
    | cons k l ih =>
      refine (ih _).trans ?_
      simp only [Tab.get_set, List.mem_cons, exists_eq_or_imp]
      by_cases later : ∃ k ∈ l, j = 4 * u + k
      · simp [later]
      · simp [later]
  have four : (∃ k ∈ List.range 4, j = 4 * u + k) ↔ j / 4 = u := by
    simp only [List.mem_range]
    exact ⟨fun ⟨k, small, h⟩ => by omega, fun h => ⟨j % 4, Nat.mod_lt _ (by decide), by omega⟩⟩
  refine (sets _ _).trans ?_
  simp only [four]

theorem waiting_losePairs (s : State) (u : Nat) : (s.losePairs u).pmc.waiting = s.pmc.waiting := rfl

/-- The pairs as they stand once the unit of pair i is read. -/
theorem pairs_readPairs (s : State) (u j : Nat) : (s.readPairs u).pmc.pairs.get {} j =
    if s.structBad (.pairs u) = true ∧ j / 4 = u then ⟨0, 0, true⟩ else s.pmc.pairs.get {} j := by
  simp only [State.readPairs]
  split
  · next bad => simp only [pairs_losePairs, bad, true_and]
  · next good => rw [(onlyIn_structRead _ _).pmc_eq, if_neg fun h => good h.1]

theorem waiting_readPairs (s : State) (u : Nat) : (s.readPairs u).pmc.waiting = s.pmc.waiting := by
  simp only [State.readPairs]
  split
  · exact waiting_losePairs _ _
  · rw [(onlyIn_structRead _ _).pmc_eq]

/-- The cached updates of pair i are added in. -/
def pairAdded (s : State) (i : Nat) (w : PairWait) : State :=
  { s with pmc := { s.pmc with
    waiting := s.pmc.waiting.set none i none
    pairs := s.pmc.pairs.modify {} i fun p =>
      { p with bytes := (p.bytes + w.bytes) % 2 ^ 64, frames := (p.frames + w.frames) % 2 ^ 48 } } }

theorem exec_counterPairFlush {i : Nat} {w : PairWait} {s : State} (waits : s.pmc.waiting.get none i = some w) :
    exec (.counterPairFlush i) s = .next ((pairAdded (s.readPairs (i / 4)) i w).structWrite (.pairs (i / 4))) := by
  change execCounterPairFlush i s = _
  simp only [execCounterPairFlush, State.flushPair, waits]
  rfl

/-- Settles O57. -/
theorem performanceCountersAndWindows : Obligations.PerformanceCountersAndWindows := by
  refine ⟨fun n v s up => ?_, fun s up => ?_, fun s up => congrArg Host.Outcome.next (rowWrite_of_role up rfl 0 0 _),
    fun p d s => ?_, fun v s up ring en legal => ?_, fun i w s waits => ?_⟩
  · refine ⟨_, exec_pmcCounterWrite up v, Tab.get_set_same _ _ _ _, fun k other => Tab.get_set_other _ _ _ other,
      onlyIn_setCnts s _⟩
  · refine ⟨_, exec_pmcSnapshot up, snapTime_latchShadows s, snaps_latchShadows s,
      fun whole n small => shadow_latchShadows whole small, onlyIn_latchShadows s⟩
  · refine ⟨_, exec_bwWindowEnd s, ⟨?_, ?_⟩, ?_, ?_, ?_⟩
    · rw [reg_windowStarted, bw_peakCleared s p (k := 2 * d.val) (by omega)]
      simp [windowEnd]
    · have half : (2 * d.val + 1) / 2 = d.val := by omega
      rw [reg_windowStarted, bw_peakCleared s p (k := 2 * d.val + 1) (by omega)]
      simp [windowEnd, half]
    · rw [State.bit, reg_windowStarted, peakCleared, State.reg_setReg, bitOf_eq_testBit_bitsOf, bitsOf_withBits_same]
      rfl
    · exact congrArg (fun x : Pmc => x.bwWin + 1) (onlyIn_peakCleared s).pmc_eq
    · exact (onlyIn_peakCleared s).mono.trans (onlyIn_pmc _ _).mono
  · have seed : bitsOf 63 32 (sampWritten s v.toNat) = bitsOf 63 32 v.toNat :=
      sampWritten_field (f := rwIn 63 32 1 4294967295) (by decide) legal
    refine ⟨_, exec_samplingEnable up ring en legal, fun i small => (sampLfsr_loadLfsrs _ small).trans ?_,
      (onlyIn_setRegOf_plain _ _ _ _ _ _ (pmc_not_inCntCfg (by decide))).mono.trans (onlyIn_sampLfsr _ _).mono⟩
    rw [State.fld, State.reg_setReg, seed]
  · have write := onlyIn_structWrite (pairAdded (s.readPairs (i / 4)) i w) (.pairs (i / 4))
    refine ⟨_, exec_counterPairFlush waits, ?_, fun j other => ?_, ⟨?_, fun j other => ?_⟩, ?_⟩
    · rw [write.pmc_eq]
      exact Tab.get_set_same _ _ _ _
    · rw [write.pmc_eq]
      exact (Tab.get_set_other _ _ _ other).trans (by rw [waiting_readPairs])
    · rw [write.pmc_eq]
      refine (Tab.get_modify_same _ _ _ _).trans ?_
      rw [pairs_readPairs]
    · rw [write.pmc_eq]
      exact (Tab.get_modify_other _ _ _ other).trans (pairs_readPairs _ _ _)
    · exact ((onlyIn_readPairs _ _).mono.trans (onlyIn_pmc _ _).mono).trans write.mono

end Sys2Proof.Claims

/-! SUPPORT, and O48: what fault events leave of Saggar, and critical faults (R431 to R436). -/

namespace Sys2Proof.Machine

/-- Critical sources lie below 0x500 (Table 14.1). -/
theorem lt_of_critical {n : Nat} (kind : sourceKind n = .critical) : n < 0x500 := by
  by_contra far
  rw [sourceKind, if_neg (by omega), if_neg (by omega), if_neg (by omega), if_neg (by omega), if_neg (by omega),
    if_neg (by omega), if_neg (by omega), if_neg (by omega), if_neg (by omega), if_neg (by omega)] at kind
  cases kind

end Sys2Proof.Machine

namespace Sys2Proof.Claims

open Sys2Proof.Machine

set_option Elab.async false

/-! What fault events leave of Saggar -/

/-- A Saggar with the sources, the queue of retirements and the envelope of another. -/
def withSources (x y : Saggar) : Saggar := { x with src := y.src, queue := y.queue, degraded := y.degraded }

/-- From `s` to `t` the mode stands, and of Saggar only sources, the queue of retirements and the envelope change: the
lines, the latched cause, the squelch and FAULT_N stand. -/
structure AlarmStands (s t : State) : Prop where
  mode : t.mode = s.mode
  alarm : withSources t.flt s.flt = s.flt

theorem AlarmStands.refl (s : State) : AlarmStands s s := ⟨rfl, rfl⟩

theorem AlarmStands.trans {s t u : State} (h : AlarmStands s t) (k : AlarmStands t u) : AlarmStands s u :=
  ⟨k.mode.trans h.mode, (congrArg (withSources · s.flt) k.alarm).trans h.alarm⟩

theorem AlarmStands.runOver {α : Type} {f : α → State → State} (h : ∀ a s, AlarmStands s (f a s)) (l : List α)
    (s : State) : AlarmStands s (Machine.runOver l f s) := by
  unfold Machine.runOver
  induction l generalizing s with
  | nil => exact .refl _
  | cons a l ih => exact (h a s).trans (ih _)

theorem OnlyIn.alarmStands {ps : List Part} {s t : State} (h : OnlyIn ps s t)
    (hp : Part.mode ∉ ps ∧ Part.flt ∉ ps := by decide) : AlarmStands s t := by
  have flt : t.flt = s.flt := h .flt hp.2
  exact ⟨h .mode hp.1, by rw [flt]; rfl⟩

section
variable {s t : State} (h : AlarmStands s t)
include h

theorem AlarmStands.squelch : t.flt.squelch = s.flt.squelch := (congrArg Saggar.squelch h.alarm :)
theorem AlarmStands.faultN : t.flt.faultN = s.flt.faultN := (congrArg Saggar.faultN h.alarm :)
theorem AlarmStands.critV : t.flt.critV = s.flt.critV := (congrArg Saggar.critV h.alarm :)
theorem AlarmStands.critSource : t.flt.critSource = s.flt.critSource := (congrArg Saggar.critSource h.alarm :)
theorem AlarmStands.lines : t.flt.lines = s.flt.lines := (congrArg Saggar.lines h.alarm :)
theorem AlarmStands.running : t.flt.running = s.flt.running := (congrArg Saggar.running h.alarm :)

end

/-- From `s` to `t` events of source `n` may have come in, and none of another. -/
structure EventsOf (n : Nat) (s t : State) : Prop where
  stands : AlarmStands s t
  other : ∀ m, m ≠ n → t.fsrc m = s.fsrc m

theorem EventsOf.refl (n : Nat) (s : State) : EventsOf n s s := ⟨.refl s, fun _ _ => rfl⟩

theorem EventsOf.trans {n : Nat} {s t u : State} (h : EventsOf n s t) (k : EventsOf n t u) : EventsOf n s u :=
  ⟨h.stands.trans k.stands, fun m hm => (k.other m hm).trans (h.other m hm)⟩

theorem OnlyIn.eventsOf {ps : List Part} {s t : State} (n : Nat) (h : OnlyIn ps s t)
    (hp : Part.mode ∉ ps ∧ Part.flt ∉ ps := by decide) : EventsOf n s t :=
  ⟨h.alarmStands hp, fun m _ => h.fsrc_same m hp.2⟩

theorem eventsOf_setFsrc (s : State) (n : Nat) (x : FaultSource) : EventsOf n s (s.setFsrc n x) :=
  ⟨⟨rfl, rfl⟩, fun _ hm => Tab.get_set_other _ _ _ hm⟩

theorem eventsOf_kiln (s : State) (n : Nat) (k : Kiln) : EventsOf n s { s with kiln := k } := ⟨⟨rfl, rfl⟩, fun _ _ => rfl⟩

theorem eventsOf_faultRecord (s : State) (n : Nat) (x : FaultNote) : EventsOf n s (s.faultRecord x) :=
  (onlyIn_faultRecord _ _).eventsOf n

theorem eventsOf_flushRecord (s : State) (n : Nat) (why : Reason) : EventsOf n s (s.flushRecord n why) :=
  (eventsOf_setFsrc _ _ _).trans (eventsOf_faultRecord _ _ _)

theorem eventsOf_noteEvent (s : State) (n t cause detail : Nat) : EventsOf n s (s.noteEvent n t cause detail) :=
  eventsOf_setFsrc _ _ _

theorem eventsOf_heldRecord (s : State) (n : Nat) (why : Reason) : EventsOf n s (s.heldRecord n why) := by
  simp only [State.heldRecord]
  split
  · exact .refl _ _
  · split
    · exact eventsOf_flushRecord _ _ _
    · exact (eventsOf_setFsrc _ _ _).trans (eventsOf_flushRecord _ _ _)

theorem eventsOf_degrade (s : State) (n : Nat) : EventsOf n s (s.degrade n) := by
  refine ⟨⟨(onlyIn_degrade s n).mode_eq, ?_⟩, fun m _ => fsrc_degrade s n m⟩
  rw [degrade_flt]
  split <;> rfl

theorem eventsOf_classify (s : State) (n : Nat) : EventsOf n s (s.classify n) := by
  have perm (u : State) (b : Bytes) :
      EventsOf n u (if u.mode = .factoryTest then u else u.kilnPerm 0x0010 3 b) := by
    split
    · exact .refl _ _
    · exact (onlyIn_kilnPerm _ _ _ _).eventsOf n
  have noted := ((eventsOf_setFsrc s n { s.fsrc n with perm := true, permCycle := s.now / 10 + 1 }).trans
    (eventsOf_flushRecord _ n .permanent)).trans (perm _ (leBytes 2 n ++ leBytes 1 (sourceCat n)))
  unfold State.classify
  cases poolOf n with
  | some _ => exact noted.trans ⟨⟨rfl, rfl⟩, fun _ _ => rfl⟩
  | none => exact noted.trans (eventsOf_degrade _ _)

theorem eventsOf_retirableEvent (s : State) (n t cause detail : Nat) :
    EventsOf n s (s.retirableEvent n t cause detail) := by
  have noted (x : FaultSource) : EventsOf n s ((s.noteEvent n t cause detail).setFsrc n x) :=
    (eventsOf_noteEvent _ _ _ _ _).trans (eventsOf_setFsrc _ _ _)
  simp only [State.retirableEvent]
  split
  · exact (noted _).trans (eventsOf_classify _ _)
  · exact ((noted _).trans (eventsOf_kiln _ _ _)).trans (eventsOf_heldRecord _ _ _)

theorem eventsOf_retirableEvents (s : State) (n t cause detail k : Nat) :
    EventsOf n s (s.retirableEvents n t cause detail k) := by
  induction k generalizing s with
  | zero => exact .refl _ _
  | succ k ih =>
    simp only [State.retirableEvents]
    split
    · exact .refl _ _
    · exact (eventsOf_retirableEvent _ _ _ _ _).trans (ih _)

theorem eventsOf_countedEvents (s : State) (n t cause detail : Nat) (why : Reason) (k : Nat) :
    EventsOf n s (s.countedEvents n t cause detail why k) := by
  induction k generalizing s with
  | zero => exact .refl _ _
  | succ k ih =>
    simp only [State.countedEvents]
    refine (eventsOf_noteEvent s n t cause detail).trans ?_
    split
    · exact (eventsOf_flushRecord _ _ _).trans (ih _)
    · exact (eventsOf_heldRecord _ _ _).trans (ih _)

theorem eventsOf_faultEventAt (s : State) (n cause detail k t : Nat) :
    EventsOf n s (s.faultEventAt n cause detail k t) := by
  have bump (u : State) (c : Nat) : EventsOf n u (u.bumpBy c k) := (onlyIn_bumpBy _ _ _).eventsOf n
  simp only [State.faultEventAt]
  split
  · exact .refl _ _
  · refine (eventsOf_setFsrc s n { s.fsrc n with flag := true }).trans ?_
    split
    · exact eventsOf_setFsrc _ _ _
    · split
      · exact (bump _ _).trans (eventsOf_countedEvents _ _ _ _ _ _ _)
      · exact eventsOf_countedEvents _ _ _ _ _ _ _
    · exact ((bump _ _).trans (eventsOf_kiln _ _ _)).trans (eventsOf_countedEvents _ _ _ _ _ _ _)
    · exact bump _ _
    · exact (bump _ _).trans (eventsOf_retirableEvents _ _ _ _ _ _)

/-! Completions bring events of configuration errors alone -/

theorem eventsOf_handOn (s : State) (r : Nat) : EventsOf 0x4FF s (s.handOn r) := by
  have taken (x : RingState) : EventsOf 0x4FF s (s.setRing r x) := (onlyIn_setRing _ _ _).eventsOf _
  simp only [State.handOn]
  split
  · exact .refl _ _
  · split
    · exact .refl _ _
    · split
      · refine EventsOf.trans ?_ ((onlyIn_haltComplete _ _ _ _ _ _).eventsOf _)
        split
        · exact (taken _).trans (eventsOf_faultEventAt _ _ _ _ _ _)
        · exact taken _
      · exact (taken _).trans ((onlyIn_setRing _ _ _).eventsOf _)

theorem eventsOf_complete (s : State) (r : Nat) (st : Status) : EventsOf 0x4FF s (s.complete r st) := by
  simp only [State.complete]
  split
  · exact .refl _ _
  · split
    · exact (onlyIn_haltComplete _ _ _ _ _ _).eventsOf _
    · split
      · exact ((onlyIn_plainComplete _ _ _ _ _ _).trans (onlyIn_abortFetched _ _)).eventsOf _
      · exact ((onlyIn_plainComplete _ _ _ _ _ _).eventsOf _).trans (eventsOf_handOn _ _)

/-! The chain of a critical fault (Table 14.5) -/

theorem eventsOf_criticalRecord (s : State) (n : Nat) : EventsOf n s (s.criticalRecord n) :=
  (eventsOf_noteEvent _ _ _ _ _).trans (eventsOf_flushRecord _ _ _)

theorem alarmStands_criticalRecords (l : List Nat) (s : State) :
    AlarmStands s (runOver l (fun n s => s.criticalRecord n) s) :=
  .runOver (fun n s => (eventsOf_criticalRecord s n).stands) _ _

theorem onlyIn_squelchPort (p : Nat) (s : State) : OnlyIn leaveParts s (squelchPort p s) := by
  have cut : OnlyIn leaveParts s ((s.emit (.lineCut p)).setPort p { s.port p with tx := none }) := by
    have emits := onlyIn_emit s (.lineCut p)
    refine emits.mono.trans (OnlyIn.mono (onlyIn_setPort_sameLink _ _ _ ?_))
    obtain ⟨link, lock, present, powered, cls, hold⟩ := emits .links (by decide) p
    exact ⟨link.symm, lock.symm, present.symm, powered.symm, cls.symm, hold.symm⟩
  simp only [squelchPort]
  split
  · split
    · exact cut.trans (onlyIn_discard _ _)
    · exact cut.trans (onlyIn_modFrame _ _ _).mono
  · exact .refl _ _

theorem onlyIn_squelchAll (s : State) : OnlyIn leaveParts { s with flt := { s.flt with squelch := true } } s.squelchAll :=
  .runOver (f := squelchPort) onlyIn_squelchPort _ _

theorem onlyIn_abortModeCommand (s : State) : OnlyIn faultParts s s.abortModeCommand :=
  .runOver (fun r s => by
    split
    · exact onlyIn_complete _ _ _ _ _
    · exact .refl _ _) _ _

theorem alarmStands_abortModeCommand (s : State) : AlarmStands s s.abortModeCommand :=
  .runOver (fun r s => by
    split
    · exact (eventsOf_complete _ _ _).stands
    · exact .refl _) _ _

theorem onlyIn_purge (s : State) : OnlyIn leaveParts s s.purge :=
  have discards (l : List Nat) : OnlyIn leaveParts s (runOver l (fun f s => (s.bump (cntFlt 2)).discard f) s) :=
    .runOver (fun f s => onlyIn_bump_discard s (cntFlt 2) f) _ _
  have resets (l : List Nat) (s : State) : OnlyIn [.bpm] s (runOver l (fun p s => s.resetVoqs p) s) :=
    .runOver (fun p s => onlyIn_bpm s _) _ _
  ((discards _).trans (resets _ _).mono).trans (onlyIn_panicSync _).mono

theorem onlyIn_cpsTab (s : State) (t : Tab (Option Profile)) : OnlyIn [.cps] s { s with cps := t } := by
  intro p hp
  have same := SamePart.refl s p
  cases p
  case cps => exact absurd List.mem_cons_self hp
  all_goals exact same

theorem onlyIn_dropCaches (s : State) : OnlyIn [.glz, .cps] s s.dropCaches :=
  (onlyIn_glz s { s.glz with cache := .empty, wait := .empty, rxCache := .empty }).mono.trans (onlyIn_cpsTab _ _).mono

/-- What entering SAFE may change besides the mode. -/
abbrev safeParts : List Part := [.cntCfg, .cnts, .out, .gen, .hif, .eic, .flt, .kiln, .lanes, .frames, .bpm, .fab, .sched,
  .cps, .glz, .bur]

/-- SAFE is entered and logged (R431). -/
def safeEntered (s : State) (sources : List Nat) : State :=
  (({ s with mode := .safe }).bump (cntFlt 1)).kilnLog 0x0005 3 (leBytes 2 (sources.headD 0) ++ [1])

theorem onlyIn_safeEntered (s : State) (sources : List Nat) : OnlyIn [.mode, .cnts, .kiln] s (safeEntered s sources) :=
  ((onlyIn_mode s .safe).mono.trans (onlyIn_bump _ _).mono).trans (onlyIn_kilnLog _ _ _ _).mono

/-- What the sources' first record leaves when SAFE is entered. -/
theorem enterSafe_alarm (s : State) (sources : List Nat) : AlarmStands { s with mode := .safe } (s.enterSafe sources) ∧
    OnlyIn (.mode :: safeParts) s (s.enterSafe sources) := by
  have first := alarmStands_criticalRecords (sources.take 1) s
  have records (l : List Nat) (u : State) : OnlyIn (.mode :: safeParts) u (runOver l (fun n s => s.criticalRecord n) u) :=
    .runOver (fun n s => ((onlyIn_noteEvent s n s.now 0 0).mono.trans (onlyIn_flushRecord _ _ _)).mono) _ _
  have entry := onlyIn_safeEntered (runOver (sources.take 1) (fun n s => s.criticalRecord n) s) sources
  have aborts := alarmStands_abortModeCommand
    (safeEntered (runOver (sources.take 1) (fun n s => s.criticalRecord n) s) sources)
  have later (u : State) : OnlyIn (.eic :: leaveParts) u ((u.purge.dropCaches).eicEvent 1281) :=
    ((onlyIn_purge u).mono.trans (onlyIn_dropCaches _).mono).trans (onlyIn_eicEvent _ _).mono
  refine ⟨AlarmStands.trans ?_ (aborts.trans ((alarmStands_criticalRecords _ _).trans (later _).alarmStands)),
    (((records _ s).trans entry.mono).trans (onlyIn_abortModeCommand _).mono).trans ((records _ _).trans (later _).mono)⟩
  have mode : (safeEntered (runOver (sources.take 1) (fun n s => s.criticalRecord n) s) sources).mode = .safe :=
    (onlyIn_kilnLog _ _ _ _).mode_eq
  exact ⟨mode, by rw [entry.flt_eq]; exact first.alarm⟩

/-- The first critical fault is latched, and a later one counts (R434). -/
theorem latchCause_keeps (s : State) (n : Nat) : (s.latchCause n).flt.critV = true ∧
    (s.flt.critV = false → (s.latchCause n).flt.critSource = n) ∧ (s.latchCause n).mode = s.mode ∧
    (s.latchCause n).flt.lines = s.flt.lines ∧ OnlyIn [.flt] s (s.latchCause n) := by
  simp only [State.latchCause]
  split
  · next latched => exact ⟨latched, fun free => (by rw [latched] at free; cases free), rfl, rfl, onlyIn_flt _ _⟩
  · exact ⟨rfl, fun _ => rfl, rfl, rfl, onlyIn_flt _ _⟩

/-- What a critical source that asserts alone leaves when nothing of the mode has followed yet: it is up and latched, every
transmitter is squelched and FAULT_N is low. -/
def alarmed (s : State) (n : Nat) : State := assertFaultN (latchFaults (raiseLines s [n]) [n]).squelchAll

theorem critical_eq {s : State} {n : Nat} (fresh : n ∉ s.flt.lines) (on : s.mode ≠ .reset) : s.critical [n] =
    match (alarmed s n).mode with
    | .bringup => { alarmed s n with flt := { (alarmed s n).flt with
        critInBringup := (alarmed s n).flt.critInBringup ++ [n] } }
    | .safe => runOver [n] (fun n s => s.criticalRecord n) (alarmed s n)
    | .factoryTest => runOver [n] (fun n s => s.criticalRecord n) (alarmed s n)
    | _ => (alarmed s n).enterSafe [n] := by
  have one : s.newLines [n] = [n] := by simp [State.newLines, fresh]
  unfold State.critical alarmed assertFaultN latchFaults raiseLines
  simp only [one]
  refine (if_neg (by simpa using on)).trans ?_
  generalize State.squelchAll _ = t
  rfl

/-- The alarm of source n is given: FAULT_N is low, the transmitters are squelched and a cause stands latched. -/
structure AlarmGiven (n : Nat) (s t : State) : Prop where
  squelch : t.flt.squelch = true
  faultN : t.flt.faultN = true
  critV : t.flt.critV = true
  source : s.flt.critV = false → t.flt.critSource = n
  lines : t.flt.lines = s.flt.lines ++ [n]

theorem AlarmGiven.trans {n : Nat} {s t u : State} (h : AlarmGiven n s t) (k : AlarmStands t u) : AlarmGiven n s u :=
  ⟨k.squelch.trans h.squelch, k.faultN.trans h.faultN, k.critV.trans h.critV, fun free => k.critSource.trans (h.source free),
    k.lines.trans h.lines⟩

theorem latchFaults_one {s : State} {n : Nat} (fresh : n ∉ s.flt.lines) :
    (latchFaults (raiseLines s [n]) [n]).flt.critV = true ∧
      (s.flt.critV = false → (latchFaults (raiseLines s [n]) [n]).flt.critSource = n) ∧
      (latchFaults (raiseLines s [n]) [n]).mode = s.mode ∧
      (latchFaults (raiseLines s [n]) [n]).flt.lines = s.flt.lines ++ [n] ∧
      OnlyIn safeParts s (latchFaults (raiseLines s [n]) [n]) := by
  have event := eventsOf_faultEventAt (raiseLines s [n]) n 0 0 1 s.now
  obtain ⟨critV, source, mode, lines, only⟩ := latchCause_keeps ((raiseLines s [n]).fault n 0 0) n
  have up : (raiseLines s [n]).flt.lines = s.flt.lines ++ [n] := by simp [raiseLines, fresh]
  exact ⟨critV, fun free => source (event.stands.critV.trans free), mode.trans event.stands.mode,
    lines.trans (event.stands.lines.trans up),
    ((onlyIn_raiseLines s [n]).mono.trans (onlyIn_fault _ n 0 0).mono).trans only.mono⟩

theorem alarmed_given {s : State} {n : Nat} (fresh : n ∉ s.flt.lines) :
    AlarmGiven n s (alarmed s n) ∧ (alarmed s n).mode = s.mode ∧ OnlyIn safeParts s (alarmed s n) := by
  obtain ⟨critV, source, mode, lines, only⟩ := latchFaults_one fresh
  have ports := onlyIn_squelchAll (latchFaults (raiseLines s [n]) [n])
  unfold alarmed
  generalize latchFaults (raiseLines s [n]) [n] = l at *
  generalize l.squelchAll = t at *
  have stands := ports.alarmStands
  exact ⟨⟨stands.squelch, rfl, stands.critV.trans critV, fun free => stands.critSource.trans (source free),
    stands.lines.trans lines⟩, stands.mode.trans mode,
    (only.trans (onlyIn_flt _ _).mono).trans (ports.mono.trans (onlyIn_flt _ _).mono)⟩

/-- A critical line that asserts alone outside RESET gives its alarm, and a running device enters SAFE (R431 to R435). -/
theorem critical_alarm {s : State} {n : Nat} (fresh : n ∉ s.flt.lines) (on : s.mode ≠ .reset) :
    AlarmGiven n s (s.critical [n]) ∧
      (s.critical [n]).mode = (if s.mode = .bringup ∨ s.mode = .safe ∨ s.mode = .factoryTest then s.mode else .safe) ∧
      OnlyIn (.mode :: safeParts) s (s.critical [n]) := by
  obtain ⟨given, mode, only⟩ := alarmed_given fresh
  have records := alarmStands_criticalRecords [n] (alarmed s n)
  have recordsOnly : OnlyIn safeParts (alarmed s n) (runOver [n] (fun n s => s.criticalRecord n) (alarmed s n)) :=
    .runOver (fun n s => ((onlyIn_noteEvent s n s.now 0 0).mono.trans (onlyIn_flushRecord _ _ _)).mono) _ _
  obtain ⟨entered, enteredOnly⟩ := enterSafe_alarm (alarmed s n) [n]
  rw [critical_eq fresh on, mode]
  generalize alarmed s n = t at *
  have given' : AlarmGiven n s { t with mode := .safe } := ⟨given.squelch, given.faultN, given.critV, given.source, given.lines⟩
  cases run : s.mode
  case reset => exact absurd run on
  case bringup =>
    exact ⟨⟨given.squelch, given.faultN, given.critV, given.source, given.lines⟩, mode.trans run, only.mono.trans (onlyIn_flt _ _).mono⟩
  case safe => exact ⟨given.trans records, records.mode.trans (mode.trans run), only.mono.trans recordsOnly.mono⟩
  case factoryTest => exact ⟨given.trans records, records.mode.trans (mode.trans run), only.mono.trans recordsOnly.mono⟩
  all_goals exact ⟨given'.trans entered, entered.mode, only.mono.trans enteredOnly⟩

/-- Without a line that asserts nothing follows. -/
theorem critical_none (s : State) : s.critical [] = s := by simp [State.critical, State.newLines]

theorem endLines_none (s : State) : s.endLines [] = s := by simp [State.endLines]

theorem exec_criticalFault_one {n : Nat} (kind : sourceKind n = .critical) (s : State) :
    exec (.criticalFault [n] []) s = .next (s.critical [n]) := by
  have lone : (List.range 0x500).filter (fun m => [n].contains m && sourceKind m = .critical) = [n] := by
    have here : n ∈ List.range 0x500 := List.mem_range.mpr (lt_of_critical kind)
    have named (m : Nat) : ([n].contains m && sourceKind m = .critical) = (m == n) := by
      by_cases same : m = n
      · simp [same, kind]
      · simp [same]
    simp only [named]
    rw [List.filter_beq, List.count_eq_one_of_mem List.nodup_range here]
    rfl
  change Host.Outcome.next ((s.endLines []).critical _) = _
  rw [lone, endLines_none]

/-- Settles O48. -/
theorem criticalFaultsSquelchAndEnterSafe : Obligations.CriticalFaultsSquelchAndEnterSafe := by
  intro n s kind fresh
  refine ⟨fun on => ?_, fun reset => ?_, fun ended => ?_⟩
  · obtain ⟨given, mode, only⟩ := critical_alarm fresh on
    refine ⟨_, exec_criticalFault_one kind s, given.squelch, given.faultN, given.critV, given.source, fun runs => ?_,
      fun stays => ?_, only⟩
    · rw [mode]
      rcases runs with run | run | run | run
      all_goals simp [run]
    · rw [mode, if_pos stays]
  · rw [exec_criticalFault_one kind]
    simp [State.critical, reset, fresh]
  · change Host.Outcome.next ((s.endLines ended).critical _) = _
    have none : (List.range 0x500).filter (fun m => ([] : List Nat).contains m && sourceKind m = .critical) = [] := by
      simp
    rw [none, critical_none]
    rfl

end Sys2Proof.Claims

/-! SUPPORT, and O47: fault events, retirements and injection (R418 to R424, R439, R440). -/

namespace Sys2Proof.Claims

open Sys2Proof.Machine

set_option Elab.async false

/-! What a record leaves of the blocks' own counters -/

/-- The counters of the blocks between those of CORNICE and the general counters stand from `s` to `t`. -/
def BlockCountsStand (s t : State) : Prop := ∀ k, 0x1800000 ≤ k → k < 0x3C00000 → t.cnt k = s.cnt k

theorem BlockCountsStand.refl (s : State) : BlockCountsStand s s := fun _ _ _ => rfl

theorem BlockCountsStand.trans {s t u : State} (h : BlockCountsStand s t) (k : BlockCountsStand t u) :
    BlockCountsStand s u := fun n low high => (k n low high).trans (h n low high)

theorem OnlyIn.blockCounts {ps : List Part} {s t : State} (h : OnlyIn ps s t) (hp : Part.cnts ∉ ps := by decide) :
    BlockCountsStand s t := fun n _ _ => by rw [State.cnt, State.cnt, h.cnts_eq hp]

theorem blockCounts_setCnt (s : State) {k : Nat} (v : Nat) (h : k < 0x1800000 ∨ 0x3C00000 ≤ k) :
    BlockCountsStand s { s with cnts := s.cnts.set 0 k v } := by
  intro n low high
  have other : n ≠ k := by
    rintro rfl
    exact h.elim (Nat.not_lt.mpr low) (Nat.not_le.mpr high)
  exact Tab.get_set_other _ _ _ other

theorem blockCounts_pmcAdd (s : State) (k n fuel : Nat) : BlockCountsStand s (s.pmcAdd k n fuel) := by
  induction fuel generalizing s k n with
  | zero => exact .refl _
  | succ fuel ih =>
    have put (v : Nat) := blockCounts_setCnt s (k := cntPmc k) v (.inr (by unfold cntPmc; omega))
    simp only [State.pmcAdd]
    split
    · exact put _
    · split
      · split
        · exact (put _).trans (ih _ _ _)
        · exact put _
      · exact (put _).trans (onlyIn_setReg _ _ _ _ _).blockCounts

theorem blockCounts_runOver {α : Type} {f : α → State → State} (h : ∀ a s, BlockCountsStand s (f a s)) (l : List α)
    (s : State) : BlockCountsStand s (runOver l f s) := by
  unfold Machine.runOver
  induction l generalizing s with
  | nil => exact .refl _
  | cons a l ih => exact (h a s).trans (ih _)

theorem blockCounts_pmcCount (s : State) (u i e n : Nat) : BlockCountsStand s (s.pmcCount u i e n) := by
  simp only [State.pmcCount]
  split
  · exact .refl _
  · exact blockCounts_runOver (fun k s => blockCounts_pmcAdd s k n 4096) _ _

theorem blockCounts_emit (s : State) (o : Out) : BlockCountsStand s (s.emit o) := by
  simp only [State.emit]
  split
  · exact BlockCountsStand.trans (fun _ _ _ => rfl) (blockCounts_pmcCount _ _ _ _ _)
  · exact fun _ _ _ => rfl

theorem blockCounts_writeBack (s : State) (r : Nat) : BlockCountsStand s (s.writeBack r) := by
  simp only [State.writeBack]
  split
  · exact blockCounts_emit _ _
  · exact .refl _

theorem blockCounts_putRecord (s : State) (r type time : Nat) (body : Bytes) :
    BlockCountsStand s (s.putRecord r type time body) :=
  (((blockCounts_emit _ _).trans (onlyIn_touchCtx _ _).blockCounts).trans (onlyIn_setRing _ _ _).blockCounts).trans
    ((blockCounts_writeBack _ _).trans (onlyIn_ringIrq _ _).blockCounts)

theorem blockCounts_putOverflow (s : State) (r : Nat) : BlockCountsStand s (s.putOverflow r) := by
  simp only [State.putOverflow]
  split
  · exact .refl _
  · exact (onlyIn_setRing _ _ _).blockCounts.trans (blockCounts_putRecord _ _ _ _ _)

/-- A lost record counts in a counter of the host interface. -/
theorem blockCounts_loseRecord (s : State) (r : Nat) : BlockCountsStand s (s.loseRecord r) := by
  refine blockCounts_setCnt s _ ?_
  simp only [cntHif]
  omega

theorem blockCounts_writeRecord (s : State) (f : Fn) (r type time : Nat) (body : Bytes) :
    BlockCountsStand s (s.writeRecord f r type time body) := by
  simp only [State.writeRecord]
  split
  · split
    · split
      · exact (blockCounts_loseRecord _ _).trans (onlyIn_setRing _ _ _).blockCounts
      · exact blockCounts_loseRecord _ _
    · exact .refl _
  · refine (blockCounts_putOverflow s r).trans ?_
    split
    · exact (blockCounts_loseRecord _ _).trans (onlyIn_setRing _ _ _).blockCounts
    · exact blockCounts_putRecord _ _ _ _ _

theorem blockCounts_faultRecord (s : State) (n : FaultNote) : BlockCountsStand s (s.faultRecord n) := by
  have write (b : Bool) (s : State) (f : Fn) (r type time : Nat) (body : Bytes) :
      BlockCountsStand s (if b then s.writeRecord f r type time body else s) := by
    split
    · exact blockCounts_writeRecord _ _ _ _ _ _
    · exact .refl _
  simp only [State.faultRecord]
  split
  · exact ((write _ _ _ _ _ _ _).trans (write _ _ _ _ _ _ _)).trans (onlyIn_eicEvent _ _).blockCounts
  · exact (write _ _ _ _ _ _ _).trans (write _ _ _ _ _ _ _)

/-! Events that count toward a record (R418, R439) -/

/-- From `s` to `t` no source is classed permanent or comes back, and the blocks' counters stand. -/
structure CountsOn (s t : State) : Prop where
  perm : ∀ m, (t.fsrc m).perm = (s.fsrc m).perm
  counts : BlockCountsStand s t
  only : OnlyIn (.flt :: recordParts) s t

theorem CountsOn.refl (s : State) : CountsOn s s := ⟨fun _ => rfl, .refl s, .refl _ s⟩

theorem CountsOn.trans {s t u : State} (h : CountsOn s t) (k : CountsOn t u) : CountsOn s u :=
  ⟨fun m => (k.perm m).trans (h.perm m), h.counts.trans k.counts, h.only.trans k.only⟩

theorem countsOn_setFsrc {s : State} {n : Nat} {x : FaultSource} (perm : x.perm = (s.fsrc n).perm) :
    CountsOn s (s.setFsrc n x) := by
  refine ⟨fun m => ?_, (onlyIn_setFsrc s n x).blockCounts, (onlyIn_setFsrc _ _ _).mono⟩
  by_cases same : m = n
  · rw [same, State.fsrc_setFsrc, perm]
  · rw [State.fsrc_setFsrc_other _ _ same]

theorem countsOn_flushRecord (s : State) (n : Nat) (why : Reason) : CountsOn s (s.flushRecord n why) := by
  have record (u : State) (x : FaultNote) : CountsOn u (u.faultRecord x) :=
    ⟨fun m => congrArg FaultSource.perm ((onlyIn_faultRecord u x).fsrc_same m), blockCounts_faultRecord _ _,
      (onlyIn_faultRecord _ _).mono⟩
  exact (countsOn_setFsrc (s := s) (n := n) (x := { s.fsrc n with count := 0, firstTime := 0 }) rfl).trans (record _ _)

theorem countsOn_noteEvent (s : State) (n t cause detail : Nat) : CountsOn s (s.noteEvent n t cause detail) :=
  countsOn_setFsrc rfl

theorem countsOn_heldRecord (s : State) (n : Nat) (why : Reason) : CountsOn s (s.heldRecord n why) := by
  simp only [State.heldRecord]
  split
  · exact .refl _
  · split
    · exact countsOn_flushRecord _ _ _
    · refine CountsOn.trans ?_ (countsOn_flushRecord _ _ _)
      exact countsOn_setFsrc rfl

theorem countsOn_countedEvents (s : State) (n t cause detail : Nat) (why : Reason) (k : Nat) :
    CountsOn s (s.countedEvents n t cause detail why k) := by
  induction k generalizing s with
  | zero => exact .refl _
  | succ k ih =>
    simp only [State.countedEvents]
    refine ((countsOn_noteEvent s n t cause detail).trans ?_).trans (ih _)
    split
    · exact countsOn_flushRecord _ _ _
    · exact countsOn_heldRecord _ _ _

/-! What a classification brings with it (R268, R427) -/

theorem eventsOf_seqFail (s : State) (r op : Nat) : EventsOf 0x4FF s (s.seqFail r op) := by
  simp only [State.seqFail]
  split
  · exact eventsOf_complete _ _ _
  · exact .refl _ _

theorem onlyIn_seqFail (s : State) (r op : Nat) : OnlyIn faultParts s (s.seqFail r op) := by
  simp only [State.seqFail]
  split
  · exact onlyIn_complete _ _ _ _ _
  · exact .refl _ _

theorem EventsOf.runOver {n : Nat} {α : Type} {f : α → State → State} (h : ∀ a s, EventsOf n s (f a s)) (l : List α)
    (s : State) : EventsOf n s (Machine.runOver l f s) := by
  unfold Machine.runOver
  induction l generalizing s with
  | nil => exact .refl _ _
  | cons a l ih => exact (h a s).trans (ih _)

/-- The end of the sequencer changes no source but that of configuration errors. -/
theorem seqDeath_keeps (s : State) : EventsOf 0x4FF s s.seqDeath ∧ OnlyIn (.tabs :: .gen :: faultParts) s s.seqDeath := by
  have dies (u : State) (x : Tables) (g : GenCtl) : OnlyIn [.tabs, .gen] u { u with tabs := x, gen := g } :=
    (onlyIn_setTabs u x).mono.trans (onlyIn_gen _ g).mono
  have fails (l : List Nat) (op : Nat) (u : State) : EventsOf 0x4FF u (runOver l (fun r s => s.seqFail r op) u) ∧
      OnlyIn faultParts u (runOver l (fun r s => s.seqFail r op) u) :=
    ⟨.runOver (fun r s => eventsOf_seqFail s r op) _ _, .runOver (fun r s => onlyIn_seqFail s r op) _ _⟩
  simp only [State.seqDeath]
  split
  · exact ⟨.refl _ _, .refl _ _⟩
  · exact ⟨(((dies s _ _).eventsOf _).trans (fails _ _ _).1).trans ((fails _ _ _).1.trans (fails _ _ _).1),
      ((dies s _ _).mono.trans (fails _ _ _).2.mono).trans ((fails _ _ _).2.mono.trans (fails _ _ _).2.mono)⟩

theorem seqConsequence_keeps (s : State) (before : Bool) :
    EventsOf 0x4FF s (s.seqConsequence before) ∧ OnlyIn (.tabs :: .gen :: faultParts) s (s.seqConsequence before) := by
  simp only [State.seqConsequence]
  split
  · exact seqDeath_keeps s
  · exact ⟨.refl _ _, .refl _ _⟩

theorem onlyIn_laneConsequence_any (s : State) (n : Nat) : OnlyIn lossParts s (s.laneConsequence n) := by
  by_cases lane : laneSource 0 ≤ n ∧ n ≤ laneSource 255
  · have named : n = laneSource (⟨n - laneSource 0, by unfold laneSource at *; omega⟩ : Lane) := by
      unfold laneSource at *
      simp only
      omega
    rw [named]
    exact onlyIn_laneConsequence s _
  · have other : ¬(laneSource 0 ≤ n ∧ n ≤ laneSource 255 ∧ (s.fsrc n).perm = true) := fun h => lane ⟨h.1, h.2.1⟩
    rw [State.laneConsequence, if_neg other]
    exact .refl _ _

/-- What events of a source may change with all that they bring. -/
abbrev eventParts : List Part := [.cntCfg, .cnts, .out, .gen, .hif, .eic, .flt, .kiln, .links, .lanes, .frames, .bpm, .fab,
  .sched, .cps, .glz, .bur, .tabs]

/-- What a classification brings leaves the sources but that of configuration errors as they are. -/
theorem consequence_keeps (s : State) (n : Nat) (before : Bool) {m : Nat} (other : m ≠ 0x4FF) :
    ((if n = 0x31 then s.seqConsequence before else s.laneConsequence n).fsrc m = s.fsrc m) ∧
      OnlyIn eventParts s (if n = 0x31 then s.seqConsequence before else s.laneConsequence n) := by
  split
  · exact ⟨(seqConsequence_keeps s before).1.other m other, (seqConsequence_keeps s before).2.mono⟩
  · exact ⟨(onlyIn_laneConsequence_any s n).fsrc_same m, (onlyIn_laneConsequence_any s n).mono⟩

/-! Fault events (R418 to R423) -/

theorem exec_faultEvent {n count : Nat} (some : 1 ≤ count) (kind : sourceKind n ≠ .critical) (cause : BitVec 8)
    (detail : BitVec 64) (s : State) :
    exec (.faultEvent n cause detail count) s = .next (s.faultWith n cause.toNat detail.toNat count) := by
  have taken : (count = 0 || sourceKind n = .critical) = false := by
    simp [kind]
    omega
  change Host.Outcome.next (if (count = 0 || sourceKind n = .critical) then s else _) = _
  rw [taken]
  rfl

/-- Retirable and count-only sources are not that of configuration errors. -/
theorem ne_configError {n : Nat} (kind : sourceKind n = .retirable ∨ sourceKind n = .countOnly) : n ≠ 0x4FF := by
  rintro rfl
  rcases kind with kind | kind
  all_goals cases kind

/-- An event of a source of no other kind is what its kind makes of it. -/
theorem faultEventAt_retirable {s : State} {n : Nat} (kind : sourceKind n = .retirable)
    (active : (s.fsrc n).retired = false) (cause detail k t : Nat) : s.faultEventAt n cause detail k t =
      ((flagSource s n).bumpBy (cntFlt 0) k).retirableEvents n t cause detail k := by
  rw [State.faultEventAt, if_neg (by simp [active]), kind]
  rfl

theorem faultEventAt_retired {s : State} {n : Nat} (retired : (s.fsrc n).retired = true) (cause detail k t : Nat) :
    s.faultEventAt n cause detail k t = s := by
  rw [State.faultEventAt, if_pos retired]

theorem faultWith_retirable {s : State} {n : Nat} (kind : sourceKind n = .retirable) (cause detail k : Nat) :
    ((s.faultWith n cause detail k).fsrc n = (s.faultEventAt n cause detail k s.now).fsrc n) ∧
      OnlyIn eventParts s (s.faultWith n cause detail k) := by
  have after := consequence_keeps (s.faultEventAt n cause detail k s.now) n (s.fsrc 0x31).perm (ne_configError (.inl kind))
  have same : s.faultWith n cause detail k = if n = 0x31
      then (s.faultEventAt n cause detail k s.now).seqConsequence (s.fsrc 0x31).perm
      else (s.faultEventAt n cause detail k s.now).laneConsequence n := by
    simp only [State.faultWith, kind]
    rfl
  rw [same]
  exact ⟨after.1, (onlyIn_faultEventAt _ _ _ _ _ _).mono.trans after.2⟩

theorem flagged_faultWith {s : State} {n : Nat} (kind : sourceKind n = .retirable) (active : (s.fsrc n).retired = false)
    (cause detail k : Nat) : Flagged n (s.faultWith n cause detail k) := by
  have counted : KeepsSources (flagSource s n) ((flagSource s n).bumpBy (cntFlt 0) k) := (onlyIn_bumpBy _ _ _).keepsSources
  rw [Flagged, (faultWith_retirable kind cause detail k).1, faultEventAt_retirable kind active]
  exact (counted.trans (keepsSources_retirableEvents _ _ _ _ _ _)).flagged n (flagged_setFsrc s rfl)

theorem fsrc_noteEvent (s : State) (n t cause detail : Nat) :
    ((s.noteEvent n t cause detail).fsrc n).hist = (s.fsrc n).hist ∧
      ((s.noteEvent n t cause detail).fsrc n).perm = (s.fsrc n).perm := by
  simp only [State.noteEvent, State.fsrc_setFsrc, and_self]

theorem perm_classify (s : State) (n : Nat) : ((s.classify n).fsrc n).perm = true := by
  have classed : ((s.setFsrc n { s.fsrc n with perm := true, permCycle := s.now / 10 + 1 }).fsrc n).perm = true :=
    congrArg FaultSource.perm (State.fsrc_setFsrc _ _ _)
  have record := (countsOn_flushRecord (s.setFsrc n { s.fsrc n with perm := true, permCycle := s.now / 10 + 1 }) n
    .permanent).perm n
  have entry (u : State) (b : Bytes) :
      (if u.mode = .factoryTest then u else u.kilnPerm 0x0010 3 b).fsrc n = u.fsrc n := by
    split
    · rfl
    · exact (onlyIn_kilnPerm _ _ _ _).fsrc_same n
  unfold State.classify
  cases poolOf n with
  | some _ => exact (congrArg FaultSource.perm (entry _ _)).trans (record.trans classed)
  | none => exact (congrArg FaultSource.perm ((fsrc_degrade _ n n).trans (entry _ _))).trans (record.trans classed)

/-- An event classes its source exactly when the newest events reach the threshold (R422). -/
theorem perm_retirableEvent {s : State} {n : Nat} (fresh : (s.fsrc n).perm = false) (t cause detail : Nat) :
    ((s.retirableEvent n t cause detail).fsrc n).perm =
      reachesThreshold (((s.fsrc n).hist ++ [t]).drop ((s.fsrc n).hist.length + 1 - 15))
        (s.fld .fltThr 0 (sourceCat n) 19 16) (s.fld .fltThr 0 (sourceCat n) 15 0) := by
  obtain ⟨hist, perm⟩ := fsrc_noteEvent s n t cause detail
  have thr (x : FaultSource) (cat : Nat) : ((s.noteEvent n t cause detail).setFsrc n x).threshold cat =
      (s.fld .fltThr 0 cat 19 16, s.fld .fltThr 0 cat 15 0) := rfl
  simp only [State.retirableEvent, hist, thr]
  split
  · next reached => rw [perm_classify, reached]
  · next short =>
    refine ((countsOn_heldRecord _ n .transient).perm n).trans ?_
    exact (congrArg FaultSource.perm (State.fsrc_setFsrc _ _ _)).trans
      (perm.trans (fresh.trans (Bool.eq_false_iff.mpr short).symm))

theorem perm_faultWith_one {s : State} {n : Nat} (kind : sourceKind n = .retirable)
    (active : (s.fsrc n).retired = false) (fresh : (s.fsrc n).perm = false) (cause detail : Nat) :
    ((s.faultWith n cause detail 1).fsrc n).perm =
      reachesThreshold (((s.fsrc n).hist ++ [s.now]).drop ((s.fsrc n).hist.length + 1 - 15))
        (s.fld .fltThr 0 (sourceCat n) 19 16) (s.fld .fltThr 0 (sourceCat n) 15 0) := by
  have source : ((flagSource s n).bumpBy (cntFlt 0) 1).fsrc n = { s.fsrc n with flag := true } := State.fsrc_setFsrc _ _ _
  have unclassed : (((flagSource s n).bumpBy (cntFlt 0) 1).fsrc n).perm = false :=
    (congrArg FaultSource.perm source).trans fresh
  rw [(faultWith_retirable kind cause detail 1).1, faultEventAt_retirable kind active, State.retirableEvents,
    if_neg (by simp [unclassed]), State.retirableEvents, perm_retirableEvent unclassed, source]
  rfl

/-! Count-only sources (R420) -/

theorem countOnly_cases {n : Nat} (kind : sourceKind n = .countOnly) : n = 0x30 ∨ (0x34 ≤ n ∧ n < 0x38) := by
  simp only [sourceKind] at kind
  split_ifs at kind
  all_goals omega

theorem chapterCounter_block {n : Nat} (kind : sourceKind n = .countOnly) :
    0x1800000 ≤ chapterCounter n ∧ chapterCounter n < 0x3C00000 := by
  simp only [chapterCounter, cntMatchErr, cntEmt]
  have := countOnly_cases kind
  split <;> omega

/-- The retry counters of the Kiln Record take k events of a count-only source. -/
def retriesNoted (s : State) (n k : Nat) : State :=
  let slot := if n = 0x30 then 9 else 10
  { s with kiln := { s.kiln with retry := s.kiln.retry.set 0 slot (s.kiln.retry.get 0 slot + k) } }

theorem onlyIn_retriesNoted (s : State) (n k : Nat) : OnlyIn [.kiln] s (retriesNoted s n k) := onlyIn_kiln _ _ rfl

theorem faultEventAt_countOnly {s : State} {n : Nat} (kind : sourceKind n = .countOnly)
    (active : (s.fsrc n).retired = false) (cause detail k t : Nat) : s.faultEventAt n cause detail k t =
      (retriesNoted ((flagSource s n).bumpBy (cntFlt 0) k) n k).countedEvents n t cause detail .transient k := by
  rw [State.faultEventAt, if_neg (by simp [active]), kind]
  rfl

theorem faultWith_countOnly {s : State} {n : Nat} (kind : sourceKind n = .countOnly)
    (active : (s.fsrc n).retired = false) (cause detail k : Nat) : s.faultWith n cause detail k =
      (retriesNoted ((flagSource (s.bumpBy (chapterCounter n) k) n).bumpBy (cntFlt 0) k) n k).countedEvents n s.now cause
        detail .transient k := by
  have cases := countOnly_cases kind
  have noLane (u : State) : u.laneConsequence n = u := by
    rw [State.laneConsequence, if_neg (fun h => by unfold laneSource at h; omega)]
  have active' : ((s.bumpBy (chapterCounter n) k).fsrc n).retired = false := active
  have event := faultEventAt_countOnly kind active' cause detail k s.now
  simp only [State.faultWith, kind, if_true, if_neg (show n ≠ 0x31 by omega), noLane]
  exact event

/-- Events of a count-only source count in their chapter's counter, set the flag and class nothing. -/
theorem countOnly_counted {s : State} {n : Nat} (kind : sourceKind n = .countOnly)
    (active : (s.fsrc n).retired = false) (cause detail k : Nat) :
    Flagged n (s.faultWith n cause detail k) ∧ ((s.faultWith n cause detail k).fsrc n).perm = (s.fsrc n).perm ∧
      (s.faultWith n cause detail k).cnt (chapterCounter n) = (s.cnt (chapterCounter n) + k) % 2 ^ 48 ∧
      OnlyIn faultParts s (s.faultWith n cause detail k) := by
  obtain ⟨low, high⟩ := chapterCounter_block kind
  have source : (retriesNoted ((flagSource (s.bumpBy (chapterCounter n) k) n).bumpBy (cntFlt 0) k) n k).fsrc n =
      { s.fsrc n with flag := true } := State.fsrc_setFsrc _ _ _
  have other : chapterCounter n ≠ cntFlt 0 := by
    intro same
    rw [same] at low
    exact absurd low (by decide)
  have before : OnlyIn faultParts s
      (retriesNoted ((flagSource (s.bumpBy (chapterCounter n) k) n).bumpBy (cntFlt 0) k) n k) :=
    (((onlyIn_bumpBy _ _ _).mono.trans (onlyIn_setFsrc _ _ _).mono).trans (onlyIn_bumpBy _ _ _).mono).trans
      (onlyIn_retriesNoted _ _ _).mono
  rw [faultWith_countOnly kind active]
  have events := countsOn_countedEvents
    (retriesNoted ((flagSource (s.bumpBy (chapterCounter n) k) n).bumpBy (cntFlt 0) k) n k) n s.now cause detail .transient k
  have flags := keepsSources_countedEvents
    (retriesNoted ((flagSource (s.bumpBy (chapterCounter n) k) n).bumpBy (cntFlt 0) k) n k) n s.now cause detail .transient k
  refine ⟨flags.flagged n (congrArg FaultSource.flag source), (events.perm n).trans (congrArg FaultSource.perm source :),
    (events.counts _ low high).trans ?_, before.trans events.only.mono⟩
  exact (State.cnt_bumpBy_other (flagSource (s.bumpBy (chapterCounter n) k) n) other).trans (State.cnt_bumpBy s _ _)

/-! The order of retirements (R424) -/

theorem enqueueRetirement_sorted {s : State} {n : Nat} (fresh : n ∉ s.flt.queue)
    (newest : ∀ a ∈ s.flt.queue, (s.fsrc a).permCycle ≤ (s.fsrc n).permCycle)
    (sorted : s.flt.queue.Pairwise fun a b => (s.fsrc a).permCycle < (s.fsrc b).permCycle ∨
      ((s.fsrc a).permCycle = (s.fsrc b).permCycle ∧ a < b)) :
    (s.enqueueRetirement n).flt.queue.Pairwise fun a b => (s.fsrc a).permCycle < (s.fsrc b).permCycle ∨
      ((s.fsrc a).permCycle = (s.fsrc b).permCycle ∧ a < b) := by
  change ((s.flt.queue.takeWhile _) ++ n :: s.flt.queue.dropWhile _).Pairwise _
  generalize s.flt.queue = q at *
  induction q with
  | nil => simp
  | cons a q ih =>
    obtain ⟨first, rest⟩ := List.pairwise_cons.mp sorted
    have old := newest a List.mem_cons_self
    have other : n ≠ a := fun same => fresh (same ▸ List.mem_cons_self)
    have later := ih (fun mem => fresh (List.mem_cons_of_mem _ mem)) (fun b hb => newest b (List.mem_cons_of_mem _ hb)) rest
    by_cases behind : (s.fsrc a).permCycle = (s.fsrc n).permCycle ∧ n < a
    · rw [List.takeWhile_cons_of_neg (by simpa using behind), List.dropWhile_cons_of_neg (by simpa using behind)]
      refine List.pairwise_cons.mpr ⟨fun b hb => ?_, sorted⟩
      rcases List.mem_cons.mp hb with rfl | hb
      · exact .inr ⟨behind.1.symm, behind.2⟩
      · have after := first b hb
        have young := newest b (List.mem_cons_of_mem _ hb)
        omega
    · rw [List.takeWhile_cons_of_pos (by simpa [or_iff_not_imp_left] using behind),
        List.dropWhile_cons_of_pos (by simpa [or_iff_not_imp_left] using behind)]
      refine List.pairwise_cons.mpr ⟨fun b hb => ?_, later⟩
      have place : b = n ∨ b ∈ q := by
        rcases List.mem_append.mp hb with hb | hb
        · exact .inr (List.takeWhile_subset _ hb)
        · rcases List.mem_cons.mp hb with hb | hb
          · exact .inl hb
          · exact .inr (List.dropWhile_subset _ hb)
      rcases place with rfl | mem
      · omega
      · exact first b mem

/-! The start of a retirement (R424) -/

/-- The parts that the start of a retirement may change. -/
abbrev retireParts : List Part := [.cntCfg, .cnts, .out, .draws, .hif, .eic, .flt, .kiln, .units, .fab, .tabs]

/-- From `s` to `t` no retirement joins those that wait or leaves them. -/
structure QueueStands (s t : State) : Prop where
  queue : t.flt.queue = s.flt.queue
  only : OnlyIn retireParts s t

theorem QueueStands.trans {s t u : State} (h : QueueStands s t) (k : QueueStands t u) : QueueStands s u :=
  ⟨k.queue.trans h.queue, h.only.trans k.only⟩

theorem OnlyIn.queueStands {ps : List Part} {s t : State} (h : OnlyIn ps s t)
    (hp : Part.flt ∉ ps ∧ ∀ p ∈ ps, p ∈ retireParts := by decide) : QueueStands s t :=
  ⟨congrArg Saggar.queue (h .flt hp.1), h.mono hp.2⟩

theorem queueStands_endRetirement (s : State) (n : Nat) : QueueStands s (s.endRetirement n) :=
  ⟨rfl, (onlyIn_endRetirement s n).mono⟩

theorem queueStands_degrade (s : State) (n : Nat) : QueueStands s (s.degrade n) := by
  refine ⟨?_, (onlyIn_degrade s n).mono⟩
  rw [degrade_flt]
  split <;> rfl

theorem queueStands_groupState (s : State) (g : Nat) (x : GroupState) (member : Nat) :
    QueueStands s (s.groupState g x member) := by
  simp only [State.groupState]
  split
  · exact (onlyIn_setGroup _ _ _).queueStands
  · exact (onlyIn_setGroup _ _ _).queueStands.trans (onlyIn_kilnPerm _ _ _ _).queueStands

theorem queueStands_retireMember (s : State) (n : Nat) : QueueStands s (s.retireMember n) := by
  simp only [State.retireMember]
  split
  · exact queueStands_groupState _ _ _ _
  · split
    · exact ((onlyIn_draw s 15).queueStands.trans (queueStands_groupState _ _ _ _)).trans (queueStands_degrade _ _)
    · exact queueStands_endRetirement _ _

theorem queueStands_startTileCopy (s : State) (q n p t : Nat) : QueueStands s (s.startTileCopy q n p t) := by
  have loses (u : State) : QueueStands u (u.loseTile q n p) :=
    ((onlyIn_setTileMap _ _ _).queueStands.trans (queueStands_endRetirement _ _)).trans (queueStands_degrade _ _)
  simp only [State.startTileCopy]
  split
  · exact (onlyIn_setCopy _ _ _).queueStands
  · exact (onlyIn_setCopy _ _ _).queueStands.trans (loses _)

theorem queueStands_startRetirement (s : State) (n : Nat) : QueueStands s (s.startRetirement n) := by
  have stays : QueueStands s s := ⟨rfl, .refl _ s⟩
  have drops (u : State) (h : QueueStands s u) : QueueStands s (u.endRetirement n) := h.trans (queueStands_endRetirement _ _)
  have checks (u : State) : QueueStands u (u.startPlaneCheck n) := (onlyIn_fab u _).queueStands
  unfold State.startRetirement
  split
  · split
    · dsimp only
      split
      · exact checks s
      · exact (checks s).trans (queueStands_degrade _ _)
    · exact drops _ (onlyIn_units s _).queueStands
  · dsimp only
    split
    · exact stays
    · exact drops _ (onlyIn_setEncMap _ _ _).queueStands
  · dsimp only
    split
    · exact stays
    · exact drops _ (onlyIn_setDecMap _ _ _).queueStands
  · dsimp only
    split
    · exact stays
    · exact drops _ (onlyIn_setEngMap _ _ _).queueStands
  · dsimp only
    split
    · exact queueStands_startTileCopy _ _ _ _ _
    · exact drops _ (onlyIn_setTileMap _ _ _).queueStands
  · exact queueStands_retireMember _ _
  · exact queueStands_endRetirement _ _

/-- A source's retirement leaves the queue. -/
def dequeued (s : State) (n : Nat) : State :=
  { s with flt := { s.flt with queue := s.flt.queue.filter (· ≠ n), running := s.flt.running ++ [n] } }

theorem exec_retirementStart {n : Nat} {s : State} (may : s.mayRetire n = true) :
    exec (.retirementStart n) s = .next ((dequeued s n).startRetirement n) := by
  change execRetirementStart n s = _
  simp only [execRetirementStart, may, Bool.not_true, Bool.false_eq_true, if_false]
  rfl

/-! The end of a record holdoff (R439) -/

theorem count_heldRecord {s : State} {n : Nat} (free : (s.fsrc n).holdEnd = 0) (why : Reason) :
    ((s.heldRecord n why).fsrc n).count = 0 := by
  have flushed (u : State) : ((u.flushRecord n why).fsrc n).count = 0 :=
    congrArg FaultSource.count (((onlyIn_faultRecord _ _).fsrc_same n).trans (State.fsrc_setFsrc _ _ _))
  simp only [State.heldRecord]
  split
  · next held => exact absurd free held.1
  · split
    · exact flushed _
    · exact flushed _

/-- The holdoff of a source is over. -/
def recordHoldoffOver (s : State) (n : Nat) : State :=
  (s.advanceTo (s.fsrc n).holdEnd).setFsrc n { s.fsrc n with holdEnd := 0 }

theorem exec_faultHoldoffEnd {n : Nat} {s : State} (held : (s.fsrc n).holdEnd ≠ 0) : exec (.faultHoldoffEnd n) s =
    .next (if (s.fsrc n).count = 0 then recordHoldoffOver s n
      else (recordHoldoffOver s n).heldRecord n (if n = 0x4FF then .configError else .transient)) := by
  change execFaultHoldoffEnd n s = _
  simp only [execFaultHoldoffEnd, if_neg held]
  rfl

theorem recordHoldoffOver_keeps (s : State) (n : Nat) : (recordHoldoffOver s n).fsrc n = { s.fsrc n with holdEnd := 0 } ∧
    (recordHoldoffOver s n).now = max s.now (s.fsrc n).holdEnd ∧ OnlyIn [.time, .flt] s (recordHoldoffOver s n) :=
  ⟨State.fsrc_setFsrc _ _ _, now_advanceTo _ _, (onlyIn_advanceTo _ _).mono.trans (onlyIn_setFsrc _ _ _).mono⟩

/-! Fault injection (R440) -/

/-- What FLT_INJECT would hold after a write of all of it. -/
def injectValue (s : State) (v : Nat) : Nat :=
  applyFields (RegName.info .fltInject).fields (s.reg .fltInject 0 0) (mergeBytes (s.reg .fltInject 0 0) 0 8 v)

/-- What FLT_INJECT holds once the faults are injected. -/
def injectStored (s : State) (v : Nat) : Nat := withBits 63 63 (injectValue s v) 0

/-- TYPE, COUNT and SOURCE of a write that injects faults. -/
theorem injectOk_iff {v : Nat} : injectOk v = true ↔ bitsOf 51 48 v ≠ 0 ∧ sourceKind (bitsOf 42 32 v) ≠ .unassigned ∧
    1 ≤ bitsOf 62 60 v ∧ bitsOf 62 60 v ≤ 3 ∧ injectClash v = false := by
  simp [injectOk, and_assoc]

theorem inject_legal {v : Nat} (ok : injectOk v = true) (old : Nat) :
    anyReserved (RegName.info .fltInject).fields old v = false := by
  obtain ⟨some, -, low, high, -⟩ := injectOk_iff.mp ok
  have small : bitsOf 51 48 v ≤ 15 := Nat.le_of_lt_succ (Nat.mod_lt _ (by decide))
  have count : 1 ≤ bitsOf 51 48 v ∧ bitsOf 51 48 v ≤ 15 := ⟨Nat.one_le_iff_ne_zero.mpr some, small⟩
  simp [anyReserved, RegName.info, Field.reservedWrite, rw, rwIn, Legal.ok, low, high, count]

theorem injectValue_field {s : State} {v : Nat} {f : Field} (ok : injectOk v = true)
    (listed : f ∈ (RegName.info .fltInject).fields) : bitsOf f.hi f.lo (injectValue s v) = bitsOf f.hi f.lo v := by
  have facts : ∀ f ∈ (RegName.info .fltInject).fields, f.hi ≤ 63 ∧ f.acc = .rw := by decide
  have disjoint : (RegName.info .fltInject).fields.Pairwise fun f g => f.hi < g.lo ∨ g.hi < f.lo := by decide
  rw [injectValue, bitsOf_applyFields_taken disjoint listed (facts f listed).2, bitsOf_mergeBytes (facts f listed).1]
  rw [anyReserved_mergeBytes fun f hf => (facts f hf).1]
  exact inject_legal ok _

theorem injectStored_field {s : State} {v : Nat} (ok : injectOk v = true) :
    bitsOf 62 60 (injectStored s v) = bitsOf 62 60 v ∧ bitsOf 51 48 (injectStored s v) = bitsOf 51 48 v ∧
      bitsOf 42 32 (injectStored s v) = bitsOf 42 32 v := by
  simp only [injectStored]
  rw [bitsOf_withBits_apart _ _ (by decide), bitsOf_withBits_apart _ _ (by decide), bitsOf_withBits_apart _ _ (by decide)]
  exact ⟨injectValue_field (f := rwIn 62 60 1 3) ok (by decide), injectValue_field (f := rwIn 51 48 1 15) ok (by decide),
    injectValue_field (f := rw 42 32) ok (by decide)⟩

theorem injectOk_stored {s : State} {v : Nat} (ok : injectOk v = true) : injectOk (injectStored s v) = true := by
  obtain ⟨type, count, source⟩ := injectStored_field (s := s) ok
  have clash : injectClash (injectStored s v) = injectClash v := by simp only [injectClash, type, source]
  simp only [injectOk, type, count, source, clash]
  exact ok

/-- A write of GO with legal fields injects its faults. -/
theorem injectWrite_ok {s : State} {v : Nat} (up : s.reachable .fltInject = true) (test : s.mode = .factoryTest)
    (go : bitOf 63 v = true) (ok : injectOk v = true) : s.injectWrite .pf0 ⟨.fltInject, 0, 0, 0⟩ 8 v =
      (s.setReg .fltInject 0 0 (injectStored s v)).injectFaults (injectStored s v) := by
  have judged : s.judgeWrite .pf0 ⟨.fltInject, 0, 0, 0⟩ 8 v = .stored (injectValue s v) false := by
    have quiet : anyReserved (RegName.info .fltInject).fields (s.reg .fltInject 0 0)
        (mergeBytes (s.reg .fltInject 0 0) 0 8 v) = false :=
      (anyReserved_mergeBytes (by decide) _ _).trans (inject_legal ok _)
    have role : (WriteWhen.factoryTest.ok s.mode) = true := by rw [test]; rfl
    refine (judgeWrite_stored up (by exact role) 8 v).trans ?_
    exact congrArg (FieldWrite.stored _) quiet
  have named : bitsOf 42 32 (injectValue s v) = bitsOf 42 32 v := injectValue_field (f := rw 42 32) ok (by decide)
  have goes : bitOf 63 (injectValue s v) = true := by
    have field := injectValue_field (s := s) (f := rw 63 63) ok (by decide)
    rw [bitOf_eq_testBit_bitsOf] at go ⊢
    exact (congrArg (Nat.testBit · 0) field).trans go
  have stored := injectOk_stored (s := s) ok
  obtain ⟨-, assigned, -, -, -⟩ := injectOk_iff.mp ok
  obtain ⟨-, -, -, -, clash⟩ := injectOk_iff.mp stored
  simp only [injectStored] at stored clash
  simp only [State.injectWrite, judged, named, assigned, goes, stored, clash, decide_false, Bool.false_eq_true, if_false,
    Bool.not_true, Bool.and_false, Bool.or_false, Bool.not_false, Bool.and_true, if_true]
  rfl

theorem injectRow_ok {s : State} {v type : Nat} (go : bitOf 63 v = true) (named : bitsOf 62 60 v = type) :
    s.injectRow .pf0 type v = s.injectWrite .pf0 ⟨.fltInject, 0, 0, 0⟩ 8 v := by
  rw [State.injectRow, if_pos (by simp [go, named])]

theorem assigned_of_corruptible {n : Nat} (able : corruptible n = true) : sourceKind n ≠ .unassigned := by
  intro none
  by_cases plane : n < 0x12
  · rw [sourceKind, if_pos plane] at none
    cases none
  · by_cases sequencer : n = 0x31
    · subst sequencer
      cases none
    · simp [corruptible, plane, sequencer, none] at able

/-- FLT_INJECT has been written, and the faults are not injected yet. -/
def injectBegun (s : State) (v : Nat) : State := s.setReg .fltInject 0 0 (injectStored s v)

/-- k corruptions wait for the next operations of source n. -/
def corruptionsAdded (s : State) (n k : Nat) : State :=
  { s with flt := { s.flt with corrupt := s.flt.corrupt.set 0 n (s.flt.corrupt.get 0 n + k) } }

/-- The injected critical line falls after 1 µs. -/
def injectedLineOver (s : State) (n : Nat) : State :=
  let u := s.advance usNs
  { u with flt := { u.flt with lines := u.flt.lines.filter (· ≠ n) } }

theorem injectFaults_event {y : Nat} (type : bitsOf 62 60 y = 1) (s : State) :
    s.injectFaults y = s.faultWith (bitsOf 42 32 y) (bitsOf 7 0 y) 0 (bitsOf 51 48 y) := by
  rw [State.injectFaults, type]
  rfl

theorem injectFaults_corrupt {y : Nat} (type : bitsOf 62 60 y = 2) (s : State) :
    s.injectFaults y = corruptionsAdded s (bitsOf 42 32 y) (bitsOf 51 48 y) := by
  rw [State.injectFaults, type]
  rfl

theorem injectFaults_critical {y : Nat} (type : bitsOf 62 60 y = 3) (s : State) :
    s.injectFaults y = injectedLineOver (s.critical [bitsOf 42 32 y]) (bitsOf 42 32 y) := by
  rw [State.injectFaults, type]
  rfl

theorem onlyIn_injectBegun (s : State) (v : Nat) : OnlyIn [.regs] s (injectBegun s v) :=
  onlyIn_setRegOf_plain _ _ _ _ _ _ (by simp [inCntCfg, RegName.key, RegName.addr, RegName.info])

section
variable {v : BitVec 64} {s : State} (up : s.reachable .fltInject = true) (test : s.mode = .factoryTest)
  (go : bitOf 63 v.toNat = true) (some : bitsOf 51 48 v.toNat ≠ 0)
include up test go some

theorem injectEvent_flags {n : Nat} (source : bitsOf 42 32 v.toNat = n) (type : bitsOf 62 60 v.toNat = 1)
    (kind : sourceKind n = .retirable) (active : (s.fsrc n).retired = false) :
    ∃ t, exec (.injectEvent .pf0 v) s = .next t ∧ Flagged n t ∧ OnlyIn (.regs :: eventParts) s t := by
  have ok : injectOk v.toNat = true := injectOk_iff.mpr ⟨some, by rw [source, kind]; decide, by omega, by omega, by
    simp [injectClash, source, type, kind]⟩
  obtain ⟨typed, counted, sourced⟩ := injectStored_field (s := s) ok
  have run : s.injectRow .pf0 1 v.toNat = (injectBegun s v.toNat).faultWith n
      (bitsOf 7 0 (injectStored s v.toNat)) 0 (bitsOf 51 48 v.toNat) := by
    rw [injectRow_ok go type, injectWrite_ok up test go ok, injectFaults_event (typed.trans type), sourced, source, counted]
    rfl
  have only := onlyIn_injectBegun s v.toNat
  have active' : ((injectBegun s v.toNat).fsrc n).retired = false :=
    (congrArg FaultSource.retired (only.fsrc_same n)).trans active
  exact ⟨_, congrArg Host.Outcome.next run, flagged_faultWith kind active' _ _ _,
    only.mono.trans (faultWith_retirable kind _ _ _).2.mono⟩

theorem injectCorrupt_waits {n : Nat} (source : bitsOf 42 32 v.toNat = n) (type : bitsOf 62 60 v.toNat = 2)
    (able : corruptible n = true) : ∃ t, exec (.injectCorrupt .pf0 v) s = .next t ∧
      t.flt.corrupt.get 0 n = s.flt.corrupt.get 0 n + bitsOf 51 48 v.toNat ∧ OnlyIn [.regs, .flt] s t := by
  have ok : injectOk v.toNat = true := injectOk_iff.mpr ⟨some, by rw [source]; exact assigned_of_corruptible able,
    by omega, by omega, by simp [injectClash, source, type, able]⟩
  obtain ⟨typed, counted, sourced⟩ := injectStored_field (s := s) ok
  have run : s.injectRow .pf0 2 v.toNat = corruptionsAdded (injectBegun s v.toNat) n (bitsOf 51 48 v.toNat) := by
    rw [injectRow_ok go type, injectWrite_ok up test go ok, injectFaults_corrupt (typed.trans type), sourced, source, counted]
    rfl
  have only := onlyIn_injectBegun s v.toNat
  have waits : (corruptionsAdded (injectBegun s v.toNat) n (bitsOf 51 48 v.toNat)).flt.corrupt.get 0 n =
      (injectBegun s v.toNat).flt.corrupt.get 0 n + bitsOf 51 48 v.toNat := Tab.get_set_same _ _ _ _
  rw [only.flt_eq] at waits
  exact ⟨_, congrArg Host.Outcome.next run, waits, only.mono.trans (onlyIn_flt _ _).mono⟩

theorem injectCritical_alarms {n : Nat} (source : bitsOf 42 32 v.toNat = n) (type : bitsOf 62 60 v.toNat = 3)
    (kind : sourceKind n = .critical) (fresh : n ∉ s.flt.lines) :
    ∃ t, exec (.injectCritical .pf0 v) s = .next t ∧ t.flt.squelch = true ∧ t.flt.faultN = true ∧ n ∉ t.flt.lines ∧
      t.mode = .factoryTest ∧ t.now = s.now + 1000 ∧ OnlyIn (.mode :: .time :: .regs :: safeParts) s t := by
  have ok : injectOk v.toNat = true := injectOk_iff.mpr ⟨some, by rw [source, kind]; decide, by omega, by omega, by
    simp [injectClash, source, type, kind]⟩
  obtain ⟨typed, counted, sourced⟩ := injectStored_field (s := s) ok
  have run : s.injectRow .pf0 3 v.toNat = injectedLineOver ((injectBegun s v.toNat).critical [n]) n := by
    rw [injectRow_ok go type, injectWrite_ok up test go ok, injectFaults_critical (typed.trans type), sourced, source]
    rfl
  have begun := onlyIn_injectBegun s v.toNat
  generalize injectBegun s v.toNat = b at *
  have on : b.mode = .factoryTest := begun.mode_eq.trans test
  obtain ⟨given, mode, only⟩ := critical_alarm (s := b) (n := n) (by rw [begun.flt_eq]; exact fresh) (by rw [on]; decide)
  have now : (b.critical [n]).now = s.now := only.now_eq.trans begun.now_eq
  refine ⟨_, congrArg Host.Outcome.next run, given.squelch, given.faultN, by simp [injectedLineOver], mode.trans ?_,
    congrArg (· + 1000) now, ?_⟩
  · simp [on]
  · exact (begun.mono.trans only.mono).trans ((onlyIn_advance _ _).mono.trans (onlyIn_flt _ _).mono)

end

/-- Settles O47. -/
theorem faultEventsAreCountedAndClassified : Obligations.FaultEventsAreCountedAndClassified := by
  refine ⟨fun n cause detail s kind active fresh => ?_, fun n cause detail count s kind active some => ?_,
    fun n s fresh newest sorted => enqueueRetirement_sorted fresh newest sorted, fun n s may => ?_, fun n s held => ?_,
    fun n cause detail s retired => faultEventAt_retired retired _ _ _ _, fun v s up test go some => ⟨?_, ?_, ?_⟩⟩
  · exact ⟨_, exec_faultEvent (by decide) (by rw [kind]; decide) cause detail s, flagged_faultWith kind active _ _ _,
      perm_faultWith_one kind active fresh _ _, (faultWith_retirable kind _ _ _).2⟩
  · obtain ⟨flag, perm, counted, only⟩ := countOnly_counted kind active cause.toNat detail.toNat count
    exact ⟨_, exec_faultEvent some (by rw [kind]; decide) cause detail s, flag, perm, counted, only.mono⟩
  · have started := queueStands_startRetirement (dequeued s n) n
    refine ⟨_, exec_retirementStart may, ?_, (onlyIn_flt s _).mono.trans started.only⟩
    rw [started.queue]
    simp [dequeued]
  · obtain ⟨ended, now, before⟩ := recordHoldoffOver_keeps s n
    refine ⟨_, exec_faultHoldoffEnd held, ?_⟩
    split
    · exact ⟨now, congrArg FaultSource.holdEnd ended, before.mono⟩
    · next some =>
      have record := countsOn_heldRecord (recordHoldoffOver s n) n (if n = 0x4FF then .configError else .transient)
      exact ⟨record.only.now_eq.trans now, count_heldRecord (congrArg FaultSource.holdEnd ended) _,
        before.mono.trans record.only.mono⟩
  · intro n source type kind active
    obtain ⟨t, run, flag, only⟩ := injectEvent_flags up test go some source type kind active
    exact ⟨t, run, flag, only.mono⟩
  · exact fun n source type able => injectCorrupt_waits up test go some source type able
  · intro n source type kind fresh
    obtain ⟨t, run, squelch, faultN, lines, mode, now, only⟩ := injectCritical_alarms up test go some source type kind fresh
    exact ⟨t, run, squelch, faultN, lines, mode, now, only.mono⟩

end Sys2Proof.Claims

/-! SUPPORT, and O41: class nodes, circuit queue sets, shapers and Constant Profiles (R346, R349, R356, R357, R361). -/

namespace Sys2Proof.Claims

open Sys2Proof.Machine

set_option Elab.async false

/-! Commands of the egress slices -/

theorem egsCommand_record {s : State} {r : Ring} {op : Nat} {d : Bytes} (h : Executing s r op d) (b : Bytes)
    (f : Bytes → State → State) : s.egsCommand r op (some b) f = f b s := by
  rw [State.egsCommand, h.command]

/-- A command that is refused with a halting status changes nothing but its completion. -/
theorem refused_completes {s : State} {r : Ring} {op : Nat} {d : Bytes} (h : Executing s r op d) {st : Status}
    (halts : st.halts = true) :
    (s.complete r st).sched = s.sched ∧ (s.complete r st).cps = s.cps ∧ ((s.complete r st).ring r).halted = true ∧
      Completed s (s.complete r st) r d st 0 [] := by
  obtain ⟨c, ctx, kind⟩ := h.2
  have noEvents : ((s.ring r).ctx.any fun c => c.kind = 5) = false := by
    rw [ctx]
    rcases kind with kind | kind
    all_goals simp [kind]
  exact ⟨(onlyIn_complete _ _ _ _ _).sched_eq, (onlyIn_complete _ _ _ _ _).cps_eq, halted_complete h.inExec noEvents halts 0 [],
    completed_self st 0 [] h.inExec⟩

/-! Shapers (R346) -/

theorem ticks_full (cfg : ShaperCfg) (n : Nat) : cfg.full.ticks cfg n = cfg.full := by
  simp only [ShaperLevel.ticks, ShaperCfg.full, max_self]
  rw [min_eq_right (by omega), min_eq_right (by omega)]

/-- Ticks of every kept level are ticks of every shaper: a shaper without one is full. -/
theorem getD_ticks (t : Tab (Option ShaperLevel)) (cfg : Nat → ShaperCfg) (n k : Nat) :
    ((t.mapCells none fun k b => b.map fun b => b.ticks (cfg k) n).get none k).getD (cfg k).full =
      ((t.get none k).getD (cfg k).full).ticks (cfg k) n := by
  rw [Tab.get_mapCells _ _ _ _ rfl]
  cases t.get none k with
  | none => exact (ticks_full _ _).symm
  | some b => rfl

/-- Synchronising the shapers takes the ticks that are due. -/
theorem shaperSync_ticks {s : State} (due : s.sched.lastTick < s.now / 64) :
    (s.shaperSync).sched.lastTick = s.shaperSync.now / 64 ∧
      (∀ k, s.shaperSync.classBuckets k =
        (s.classBuckets k).ticks (s.classNode k).shaper (s.shaperSync.now / 64 - s.sched.lastTick)) ∧
      (∀ k, s.shaperSync.cirqBuckets k =
        (s.cirqBuckets k).ticks (s.cirqNode k).shaper (s.shaperSync.now / 64 - s.sched.lastTick)) ∧
      ∀ p, s.shaperSync.portBuckets p =
        (s.portBuckets p).ticks (s.portShaper p) (s.shaperSync.now / 64 - s.sched.lastTick) := by
  have some : (s.now / 64 - s.sched.lastTick = 0) = False := by
    rw [eq_iff_iff, iff_false]
    omega
  rw [State.shaperSync]
  simp only [some, if_false]
  exact ⟨trivial, fun k => getD_ticks s.sched.clsLevel (fun k => (s.classNode k).shaper) _ k,
    fun k => getD_ticks s.sched.cirqLevel (fun k => (s.cirqNode k).shaper) _ k,
    fun p => getD_ticks s.sched.portLevel s.portShaper _ p⟩

/-- What synchronising the shapers leaves of the schedulers. -/
theorem shaperSync_keeps (s : State) : s.shaperSync.sched.queues = s.sched.queues ∧ s.shaperSync.sched.nodeV = s.sched.nodeV ∧
    s.shaperSync.sched.memberS = s.sched.memberS ∧ s.shaperSync.sched.cls = s.sched.cls ∧
    s.shaperSync.sched.cirq = s.sched.cirq := by
  simp only [State.shaperSync]
  split
  · exact ⟨rfl, rfl, rfl, rfl, rfl⟩
  · exact ⟨rfl, rfl, rfl, rfl, rfl⟩

theorem exec_shaperTick (s : State) :
    exec .shaperTick s = .next (s.advanceTo ((s.sched.lastTick + 1) * 64)).shaperSync := rfl

/-! EGS_CLASS_WRITE (R346, R349) -/

/-- A class record that is refused. -/
def badClassRecord (b : Bytes) : Bool :=
  127 < byteAt b 0 || 7 < byteAt b 1 || 3 < byteAt b 2 || byteAt b 3 ≠ 0 || badWeight (leAt b 4 2) ||
    badWeight (leAt b 6 2) || !zeroAt b 8 8 || badShaper (shaperOf (sliceOf b 16 16))

/-- The class node of a record (Table 11.2). -/
def classRecord (b : Bytes) : ClassNode :=
  ⟨bitOf 0 (byteAt b 2), bitOf 1 (byteAt b 2), leAt b 4 2, leAt b 6 2, shaperOf (sliceOf b 16 16)⟩

/-- A class node is replaced, with full buckets. -/
def classReplaced (s : State) (n : Nat) (x : ClassNode) : State :=
  { s.shaperSync with sched := { s.shaperSync.sched with
    cls := s.shaperSync.sched.cls.set {} n x, clsLevel := s.shaperSync.sched.clsLevel.set none n none } }

theorem exec_egsClassWrite {r : Ring} {d b : Bytes} {s : State} (h : Executing s r 0x0070 d) :
    exec (.egsClassWrite r (some b)) s = .next (if badClassRecord b then s.complete r .egsBadRecord
      else (classReplaced s (byteAt b 0 * 8 + byteAt b 1) (classRecord b)).complete r .ok) :=
  congrArg Host.Outcome.next (egsCommand_record h b _)

theorem onlyIn_classReplaced (s : State) (n : Nat) (x : ClassNode) : OnlyIn [.sched] s (classReplaced s n x) :=
  (onlyIn_shaperSync s).trans (onlyIn_sched _ _)

theorem classReplaced_node (s : State) (n : Nat) (x : ClassNode) : (classReplaced s n x).classNode n = x ∧
    (classReplaced s n x).classBuckets n = x.shaper.full ∧
    ∀ m, m ≠ n → (classReplaced s n x).classNode m = s.classNode m := by
  obtain ⟨-, -, -, nodes, -⟩ := shaperSync_keeps s
  have here : (classReplaced s n x).classNode n = x := Tab.get_set_same _ _ _ _
  have level : (classReplaced s n x).sched.clsLevel.get none n = none := Tab.get_set_same _ _ _ _
  refine ⟨here, ?_, fun m other => ?_⟩
  · rw [State.classBuckets, level, here]
    rfl
  · rw [State.classNode, State.classNode, ← nodes]
    exact Tab.get_set_other _ _ _ other

/-! EGS_CIRQ_WRITE (R346, R349) -/

/-- A circuit queue record that is refused. -/
def badCirqRecord (b : Bytes) : Bool :=
  15 < byteAt b 0 || (byteAt b 1 ≠ 0 && byteAt b 1 ≠ 2) || 4095 < leAt b 2 2 || !zeroAt b 4 12 ||
    ((List.range 8).map fun c => leAt b (16 + 2 * c) 2).any badWeight || badShaper (shaperOf (sliceOf b 32 16))

/-- The circuit queue set of a record (Table 11.3). -/
def cirqRecord (b : Bytes) : CirqNode :=
  ⟨bitOf 1 (byteAt b 1), (List.range 8).map fun c => leAt b (16 + 2 * c) 2, shaperOf (sliceOf b 32 16)⟩

/-- A circuit queue set is replaced, with full buckets. -/
def cirqReplaced (s : State) (n : Nat) (x : CirqNode) : State :=
  { s.shaperSync with sched := { s.shaperSync.sched with
    cirq := s.shaperSync.sched.cirq.set {} n x, cirqLevel := s.shaperSync.sched.cirqLevel.set none n none } }

theorem exec_egsCirqWrite {r : Ring} {d b : Bytes} {s : State} (h : Executing s r 0x0071 d) :
    exec (.egsCirqWrite r (some b)) s = .next (if badCirqRecord b then s.complete r .egsBadRecord
      else (cirqReplaced s (byteAt b 0 * 4096 + leAt b 2 2) (cirqRecord b)).complete r .ok) :=
  congrArg Host.Outcome.next (egsCommand_record h b _)

theorem onlyIn_cirqReplaced (s : State) (n : Nat) (x : CirqNode) : OnlyIn [.sched] s (cirqReplaced s n x) :=
  (onlyIn_shaperSync s).trans (onlyIn_sched _ _)

theorem cirqReplaced_node (s : State) (n : Nat) (x : CirqNode) : (cirqReplaced s n x).cirqNode n = x ∧
    (cirqReplaced s n x).cirqBuckets n = x.shaper.full ∧
    ∀ m, m ≠ n → (cirqReplaced s n x).cirqNode m = s.cirqNode m := by
  obtain ⟨-, -, -, -, nodes⟩ := shaperSync_keeps s
  have here : (cirqReplaced s n x).cirqNode n = x := Tab.get_set_same _ _ _ _
  have level : (cirqReplaced s n x).sched.cirqLevel.get none n = none := Tab.get_set_same _ _ _ _
  refine ⟨here, ?_, fun m other => ?_⟩
  · rw [State.cirqBuckets, level, here]
    rfl
  · rw [State.cirqNode, State.cirqNode, ← nodes]
    exact Tab.get_set_other _ _ _ other

/-! CPS_WRITE (R356, R357, R361) -/

/-- The pin and what waits for one change neither the host interface nor the registers. -/
theorem onlyIn_cpsUnpin_cache (s : State) (c port : Nat) : OnlyIn cacheParts s (s.cpsUnpin c port) := by
  have wait := (onlyIn_setCacheWait s (port / 8) ((s.cacheWait (port / 8)).filter (· ≠ cpsWait + c))).mono
    (qs := cacheParts)
  simp only [State.cpsUnpin]
  split
  · split
    · exact wait.trans (((onlyIn_setCps _ _ _).mono.trans (onlyIn_unpinKey _ _ _).mono).trans (onlyIn_serveCache _ _).mono)
    · exact wait
  · exact wait

/-- A profile that takes its pin changes in its pin alone. -/
theorem cpsPin_keeps (s : State) (c port : Nat) :
    SameProfiles s (s.cpsPin c port) ∧ OnlyIn (.cnts :: cacheParts) s (s.cpsPin c port) := by
  simp only [State.cpsPin]
  split
  · exact ⟨.refl s, .refl _ s⟩
  · simp only [State.prefetch]
    split
    · next t pinned => exact ⟨sameProfiles_pinRequest pinned, (onlyIn_pinRequest pinned).mono⟩
    · have waits := (onlyIn_setCacheWait s (port / 8) (s.cacheWait (port / 8) ++ [cpsWait + c])).mono
        (qs := .cnts :: cacheParts)
      have counted := onlyIn_bumpBy (s.setCacheWait (port / 8) (s.cacheWait (port / 8) ++ [cpsWait + c]))
        (cntGlz (port / 8) 3) 1
      exact ⟨(onlyIn_setCacheWait _ _ _).sameProfiles.trans counted.sameProfiles, waits.trans counted.mono⟩

/-- The profile of a circuit is replaced, and the queues of its slice join their nodes anew. -/
def profileReplaced (s : State) (c port : Nat) (q : Option Profile) : State :=
  ((s.cpsUnpin c port).setCps c q).joinNodes (port / 8)

theorem onlyIn_joinNodes (s : State) (i : Nat) : OnlyIn [.sched] s (s.joinNodes i) := .runOver (fun k s => onlyIn_joinNode s k) _ _

theorem profileReplaced_keeps (s : State) (c port : Nat) (q : Option Profile) :
    (profileReplaced s c port q).cps.get none c = q ∧ OnlyIn (.sched :: cacheParts) s (profileReplaced s c port q) := by
  have join := onlyIn_joinNodes ((s.cpsUnpin c port).setCps c q) (port / 8)
  refine ⟨?_, ((onlyIn_cpsUnpin_cache _ _ _).mono.trans (onlyIn_setCps _ _ _).mono).trans join.mono⟩
  rw [profileReplaced, join.cps_eq]
  exact Tab.get_set_same _ _ _ _

theorem exec_cpsWrite {r : Ring} {d b : Bytes} {s : State} (h : Executing s r 0x0072 d) :
    exec (.cpsWrite r (some b)) s = .next (if badCps b then s.complete r .cpsBadRecord else
      match s.cirNow (leAt b 0 2) with
      | none => s.complete r .cpsMode
      | some v =>
        if (v.mode ≠ 1 && v.mode ≠ 2) || !s.black v.port then s.complete r .cpsMode
        else if s.badSizes (profileOfRecord b (s.now + 1000)) v then s.complete r .cpsSize
        else if s.overRate (leAt b 0 2) (if bitOf 0 (profileOfRecord b (s.now + 1000)).flags
            then (profileOfRecord b (s.now + 1000)).rate else 0) v.port then s.complete r .cpsRate
        else if !bitOf 0 (profileOfRecord b (s.now + 1000)).flags then
          (profileReplaced s (leAt b 0 2) v.port none).complete r .ok
        else ((profileReplaced s (leAt b 0 2) v.port (some (profileOfRecord b (s.now + 1000)))).cpsPin (leAt b 0 2)
          v.port).complete r .ok) := by
  refine congrArg Host.Outcome.next ((egsCommand_record h b _).trans ?_)
  rfl

theorem exec_cpsSlotDue {c : Circuit} {q : Profile} {s : State} (runs : s.cps.get none c = some q) :
    exec (.cpsSlotDue c) s = .next (s.advanceTo q.due) := by
  change execCpsSlotDue c s = _
  simp only [execCpsSlotDue, runs]

/-- Settles O41. -/
theorem nodesShapersAndProfilesAreWritten : Obligations.NodesShapersAndProfilesAreWritten := by
  refine ⟨fun r d b s run port cls bits zero dwrr nc rest shaper => ?_, fun r d b s run bad => ?_,
    fun r d b s run slice bits eq zero weights shaper => ?_, fun s => ?_, fun r d b v s run good current mode black => ?_,
    fun r d b s run => ⟨fun bad => ?_, fun good none => ?_⟩, fun c q s runs => ?_⟩
  · have good : badClassRecord b = false := by
      simp [badClassRecord, Nat.not_lt.mpr port, Nat.not_lt.mpr cls, Nat.not_lt.mpr bits, zero, dwrr, nc, rest, shaper]
    obtain ⟨queues, nodeV, memberS, nodes, -⟩ := shaperSync_keeps s
    have before := onlyIn_classReplaced s (byteAt b 0 * 8 + byteAt b 1) (classRecord b)
    have after := onlyIn_complete (classReplaced s (byteAt b 0 * 8 + byteAt b 1) (classRecord b)) r .ok 0 []
    obtain ⟨here, full, others⟩ := classReplaced_node s (byteAt b 0 * 8 + byteAt b 1) (classRecord b)
    refine ⟨_, (exec_egsClassWrite run).trans (by rw [good]; rfl), ⟨?_, ?_, fun m other => ?_⟩, ?_, ?_, ?_,
      before.completed .ok 0 [] before.adds run.inExec, before.mono.trans after.mono⟩
    · rw [State.classNode, after.sched_eq]
      exact here
    · rw [State.classBuckets, State.classNode, after.sched_eq]
      exact full
    · rw [State.classNode, after.sched_eq]
      exact others m other
    · rw [after.sched_eq]
      exact queues
    · rw [after.sched_eq]
      exact nodeV
    · rw [after.sched_eq]
      exact memberS
  · have bad : badClassRecord b = true := by
      simp only [badClassRecord, Bool.or_eq_true, decide_eq_true_eq, Bool.not_eq_true']
      tauto
    obtain ⟨sched, -, halted, done⟩ := refused_completes run (st := .egsBadRecord) rfl
    exact ⟨_, (exec_egsClassWrite run).trans (by rw [bad]; rfl), sched, halted, done⟩
  · have good : badCirqRecord b = false := by
      have weights' : ((List.range 8).map fun c => leAt b (16 + 2 * c) 2).any badWeight = false := by
        simpa [List.any_map] using weights
      have bits' : (byteAt b 1 ≠ 0 && byteAt b 1 ≠ 2) = false := by
        rcases bits with bits | bits
        all_goals simp [bits]
      rw [badCirqRecord, weights', bits', shaper, zero]
      simp [Nat.not_lt.mpr slice, Nat.not_lt.mpr eq]
    obtain ⟨queues, -, -, -, -⟩ := shaperSync_keeps s
    have before := onlyIn_cirqReplaced s (byteAt b 0 * 4096 + leAt b 2 2) (cirqRecord b)
    have after := onlyIn_complete (cirqReplaced s (byteAt b 0 * 4096 + leAt b 2 2) (cirqRecord b)) r .ok 0 []
    obtain ⟨here, full, others⟩ := cirqReplaced_node s (byteAt b 0 * 4096 + leAt b 2 2) (cirqRecord b)
    refine ⟨_, (exec_egsCirqWrite run).trans (by rw [good]; rfl), ⟨?_, ?_, fun m other => ?_⟩, ?_,
      before.completed .ok 0 [] before.adds run.inExec, before.mono.trans after.mono⟩
    · rw [State.cirqNode, after.sched_eq]
      exact here
    · rw [State.cirqBuckets, State.cirqNode, after.sched_eq]
      exact full
    · rw [State.cirqNode, after.sched_eq]
      exact others m other
    · rw [after.sched_eq]
      exact queues
  · have due : (s.advanceTo ((s.sched.lastTick + 1) * 64)).sched.lastTick <
        (s.advanceTo ((s.sched.lastTick + 1) * 64)).now / 64 := by
      rw [now_advanceTo]
      change s.sched.lastTick < _
      omega
    obtain ⟨last, cls, cirq, port⟩ := shaperSync_ticks due
    exact ⟨_, exec_shaperTick s, (onlyIn_shaperSync _).now_eq.trans (now_advanceTo _ _), last, cls, cirq, port,
      (onlyIn_advanceTo _ _).mono.trans (onlyIn_shaperSync _).mono⟩
  · have able : ((v.mode ≠ 1 && v.mode ≠ 2) || !s.black v.port) = false := by
      rcases mode with mode | mode
      all_goals simp [mode, black]
    have judged := exec_cpsWrite (b := b) run
    rw [good, current] at judged
    simp only [Bool.false_eq_true, if_false, able] at judged
    refine ⟨fun bad => ?_, fun sizes exceeds => ?_, fun sizes fits => ?_⟩
    · obtain ⟨-, cps, -, done⟩ := refused_completes run (st := .cpsSize) rfl
      exact ⟨_, judged.trans (by rw [bad]; rfl), cps, done⟩
    · obtain ⟨-, cps, -, done⟩ := refused_completes run (st := .cpsRate) rfl
      exact ⟨_, judged.trans (by rw [sizes, exceeds]; rfl), cps, done⟩
    · rw [sizes, fits] at judged
      simp only [Bool.false_eq_true, if_false] at judged
      have plain : withoutPin (profileOfRecord b (s.now + 1000)) = profileOfRecord b (s.now + 1000) := rfl
      generalize profileOfRecord b (s.now + 1000) = q at *
      cases runs : bitOf 0 q.flags with
      | false =>
        rw [runs, Bool.not_false, if_pos rfl] at judged
        obtain ⟨ended, only⟩ := profileReplaced_keeps s (leAt b 0 2) v.port none
        have after := onlyIn_complete (profileReplaced s (leAt b 0 2) v.port none) r .ok 0 []
        refine ⟨_, judged, fun on => absurd on (by decide), fun _ => ?_, only.completed .ok 0 [] only.adds run.inExec,
          only.mono.trans after.mono⟩
        rw [after.cps_eq]
        exact ended
      | true =>
        rw [runs, Bool.not_true, if_neg Bool.false_ne_true] at judged
        obtain ⟨started, only⟩ := profileReplaced_keeps s (leAt b 0 2) v.port (some q)
        obtain ⟨same, pins⟩ := cpsPin_keeps (profileReplaced s (leAt b 0 2) v.port (some q)) (leAt b 0 2) v.port
        have both := (only.mono (qs := .cnts :: .sched :: cacheParts)).trans pins.mono
        have after := onlyIn_complete
          ((profileReplaced s (leAt b 0 2) v.port (some q)).cpsPin (leAt b 0 2) v.port) r .ok 0 []
        refine ⟨_, judged, fun _ => ?_, fun off => absurd off (by decide), both.completed .ok 0 [] both.adds run.inExec,
          both.mono.trans after.mono⟩
        rw [after.cps_eq]
        refine (same (leAt b 0 2)).trans ?_
        rw [started, Option.map_some, plain]
  · obtain ⟨-, cps, -, done⟩ := refused_completes run (st := .cpsBadRecord) rfl
    exact ⟨_, (exec_cpsWrite run).trans (by rw [bad]; rfl), cps, done⟩
  · obtain ⟨-, cps, -, done⟩ := refused_completes run (st := .cpsMode) rfl
    refine ⟨_, (exec_cpsWrite run).trans ?_, cps, done⟩
    rw [good]
    cases current : s.cirNow (leAt b 0 2) with
    | none => rfl
    | some v =>
      rw [current, Option.all_some] at none
      simp only [none, Bool.false_eq_true, if_false, if_true]
  · exact ⟨_, exec_cpsSlotDue runs, now_advanceTo _ _, onlyIn_advanceTo _ _⟩

end Sys2Proof.Claims

/-! SUPPORT, and O49: interrupts are pended, claimed and completed (R443 to R462). -/

namespace Sys2Proof.Claims

open Sys2Proof.Machine

set_option Elab.async false

/-! Pending states (R446) -/

/-- A source takes its new pending state, with the time at which it becomes pending. -/
theorem intSrc_setPendingWith (s : State) {n : Nat} (f : IntSource → IntSource) (low : 1 ≤ n) (high : n ≤ 1920) :
    ∃ time, (s.setPendingWith n f).intSrc n = { f (s.intSrc n) with pendTime := time } := by
  simp only [State.setPendingWith]
  rw [State.intSrc_setIntSrc, if_pos ⟨rfl, low, high⟩]
  split
  · exact ⟨_, rfl⟩
  · exact ⟨(f (s.intSrc n)).pendTime, rfl⟩

theorem intSrc_setIntSrc_other (s : State) {n m : Nat} (x : IntSource) (other : m ≠ n) :
    (s.setIntSrc n x).intSrc m = s.intSrc m := by rw [State.intSrc_setIntSrc, if_neg fun h => other h.1]

theorem intSrc_setPendingWith_other (s : State) {n m : Nat} (f : IntSource → IntSource) (other : m ≠ n) :
    (s.setPendingWith n f).intSrc m = s.intSrc m := intSrc_setIntSrc_other _ _ other

theorem onlyIn_setPendingWith (s : State) (n : Nat) (f : IntSource → IntSource) : OnlyIn [.eic] s (s.setPendingWith n f) :=
  onlyIn_setIntSrc _ _ _

/-- An event of an edge source leaves it pending and changes nothing else but the time noted. -/
theorem eicEvent_edge (s : State) {n : Nat} (low : 1 ≤ n) (high : n ≤ 1920) (edge : srcIsLevel n = false) :
    ∃ time, (s.eicEvent n).intSrc n = { s.intSrc n with edge := true, pendTime := time } := by
  obtain ⟨time, same⟩ := intSrc_setPendingWith s
    (fun x => if srcIsLevel n then { x with latch := true } else { x with edge := true }) low high
  refine ⟨time, same.trans ?_⟩
  rw [edge]
  rfl

theorem eicEvent_other (s : State) {n m : Nat} (other : m ≠ n) : (s.eicEvent n).intSrc m = s.intSrc m :=
  intSrc_setPendingWith_other _ _ other

/-- An event never clears a pending state, nor the active state of any source. -/
theorem eicEvent_keeps (s : State) (n m : Nat) : ((s.eicEvent n).intSrc m).active = (s.intSrc m).active ∧
    ((s.intSrc m).isPending m = true → ((s.eicEvent n).intSrc m).isPending m = true) := by
  by_cases same : m = n
  · subst same
    by_cases exists_ : 1 ≤ m ∧ m ≤ 1920
    · obtain ⟨time, at_⟩ := intSrc_setPendingWith s
        (fun x => if srcIsLevel m then { x with latch := true } else { x with edge := true }) exists_.1 exists_.2
      refine ⟨?_, fun _ => isPending_eicEvent s exists_.1 exists_.2⟩
      refine (congrArg IntSource.active at_).trans ?_
      dsimp only
      split <;> rfl
    · have absent : (s.eicEvent m).intSrc m = s.intSrc m := by
        rw [State.eicEvent, State.setPendingWith, State.intSrc_setIntSrc, if_neg fun h => exists_ h.2]
      exact ⟨congrArg IntSource.active absent, fun h => absent ▸ h⟩
  · rw [eicEvent_other s same]
    exact ⟨rfl, id⟩

/-! What a record leaves of the sources and of the MSI-X tables -/

/-- From `s` to `t` no source becomes active or ceases to be, and no MSI-X vector changes. -/
structure ActiveStands (s t : State) : Prop where
  active : ∀ n, (t.intSrc n).active = (s.intSrc n).active
  msix : t.hif.msix = s.hif.msix

theorem ActiveStands.refl (s : State) : ActiveStands s s := ⟨fun _ => rfl, rfl⟩

theorem ActiveStands.trans {s t u : State} (h : ActiveStands s t) (k : ActiveStands t u) : ActiveStands s u :=
  ⟨fun n => (k.active n).trans (h.active n), k.msix.trans h.msix⟩

theorem OnlyIn.activeStands {ps : List Part} {s t : State} (h : OnlyIn ps s t)
    (hp : Part.eic ∉ ps ∧ Part.hif ∉ ps := by decide) : ActiveStands s t :=
  ⟨fun n => congrArg IntSource.active (h.intSrc_eq n hp.1), by rw [h.hif_eq hp.2]⟩

theorem activeStands_eicEvent (s : State) (n : Nat) : ActiveStands s (s.eicEvent n) :=
  ⟨fun m => (eicEvent_keeps s n m).1, by rw [(onlyIn_eicEvent s n).hif_eq]⟩

theorem activeStands_setRing (s : State) (r : Nat) (x : RingState) : ActiveStands s (s.setRing r x) := ⟨fun _ => rfl, rfl⟩

theorem activeStands_touchCtx (s : State) (r : Nat) : ActiveStands s (s.touchCtx r) := by
  simp only [State.touchCtx]
  split
  · exact ⟨fun _ => rfl, rfl⟩
  · exact .refl _

theorem activeStands_ringIrq (s : State) (r : Nat) : ActiveStands s (s.ringIrq r) := by
  simp only [State.ringIrq]
  split
  · split
    · exact .refl _
    · split
      · exact activeStands_eicEvent _ _
      · split
        · exact activeStands_setRing _ _ _
        · exact (activeStands_setRing _ _ _).trans (activeStands_eicEvent _ _)
  · exact .refl _

theorem activeStands_writeBack (s : State) (r : Nat) : ActiveStands s (s.writeBack r) := by
  simp only [State.writeBack]
  split
  · exact (onlyIn_emit _ _).activeStands
  · exact .refl _

theorem activeStands_putRecord (s : State) (r type time : Nat) (body : Bytes) :
    ActiveStands s (s.putRecord r type time body) :=
  (((onlyIn_emit _ _).activeStands.trans (activeStands_touchCtx _ _)).trans (activeStands_setRing _ _ _)).trans
    ((activeStands_writeBack _ _).trans (activeStands_ringIrq _ _))

theorem activeStands_putOverflow (s : State) (r : Nat) : ActiveStands s (s.putOverflow r) := by
  simp only [State.putOverflow]
  split
  · exact .refl _
  · exact (activeStands_setRing _ _ _).trans (activeStands_putRecord _ _ _ _ _)

theorem activeStands_writeRecord (s : State) (f : Fn) (r type time : Nat) (body : Bytes) :
    ActiveStands s (s.writeRecord f r type time body) := by
  simp only [State.writeRecord]
  split
  · split
    · split
      · exact (onlyIn_loseRecord _ _).activeStands.trans (activeStands_setRing _ _ _)
      · exact (onlyIn_loseRecord _ _).activeStands
    · exact .refl _
  · refine (activeStands_putOverflow s r).trans ?_
    split
    · exact (onlyIn_loseRecord _ _).activeStands.trans (activeStands_setRing _ _ _)
    · exact activeStands_putRecord _ _ _ _ _

/-- What the interrupt controller's own steps may change with the records they write. -/
abbrev eicParts : List Part := [.cntCfg, .cnts, .out, .hif, .eic]

/-- A step of the interrupt controller that puts records out and makes no source active. -/
structure EicStep (s t : State) : Prop where
  active : ActiveStands s t
  adds : Adds s t
  only : OnlyIn eicParts s t

theorem EicStep.refl (s : State) : EicStep s s := ⟨.refl s, .refl s, .refl _ s⟩

theorem EicStep.trans {s t u : State} (h : EicStep s t) (k : EicStep t u) : EicStep s u :=
  ⟨h.active.trans k.active, h.adds.trans k.adds, h.only.trans k.only⟩

theorem eicStep_setIntCtx (s : State) (x : Nat) (c : IntCtx) : EicStep s (s.setIntCtx x c) :=
  ⟨⟨fun _ => rfl, rfl⟩, (onlyIn_setIntCtx _ _ _).adds, (onlyIn_setIntCtx _ _ _).mono⟩

theorem eicStep_emit (s : State) (o : Out) : EicStep s (s.emit o) :=
  ⟨(onlyIn_emit _ _).activeStands, adds_emit _ _, (onlyIn_emit _ _).mono⟩

theorem eicStep_bump (s : State) (k : Nat) : EicStep s (s.bump k) :=
  ⟨(onlyIn_bump _ _).activeStands, (onlyIn_bump _ _).adds, (onlyIn_bump _ _).mono⟩

theorem eicSettle_keeps (s : State) (x : Nat) : EicStep s (s.eicSettle x) ∧ (∀ n, (s.eicSettle x).intSrc n = s.intSrc n) ∧
    OnlyIn [.cntCfg, .cnts, .out, .eic] s (s.eicSettle x) := by
  simp only [State.eicSettle]
  split
  · split
    · refine ⟨(eicStep_setIntCtx _ _ _).trans (eicStep_emit _ _), fun n => (onlyIn_emit _ _).intSrc_eq n,
        (onlyIn_setIntCtx _ _ _).mono.trans (onlyIn_emit _ _).mono⟩
    · exact ⟨eicStep_setIntCtx _ _ _, fun _ => rfl, (onlyIn_setIntCtx _ _ _).mono⟩
  · exact ⟨.refl s, fun _ => rfl, .refl _ s⟩

theorem eicStep_quiet (s : State) (x : Nat) : EicStep s (s.quiet x) :=
  (eicStep_setIntCtx _ _ _).trans (eicSettle_keeps _ _).1

theorem eicStep_intLog (s : State) (n x event pendTime : Nat) : EicStep s (s.intLog n x event pendTime) := by
  simp only [State.intLog]
  split
  · exact ⟨activeStands_writeRecord _ _ _ _ _ _, adds_writeRecord _ _ _ _ _ _,
      (onlyIn_writeRecord _ _ _ _ _ _).mono⟩
  · exact .refl _

/-- A source that changes but for its active state. -/
theorem eicStep_setIntSrc {s : State} {n : Nat} {x : IntSource} (active : x.active = (s.intSrc n).active) :
    EicStep s (s.setIntSrc n x) := by
  have only := onlyIn_setIntSrc s n x
  refine ⟨⟨fun m => ?_, by rw [only.hif_eq]⟩, only.adds, only.mono⟩
  rw [State.intSrc_setIntSrc]
  split
  · next same => rw [active, same.1]
  · rfl

theorem active_claimed (v : IntSource) (n : Nat) : (v.claimed n).active = v.active := by
  simp only [IntSource.claimed]
  split <;> rfl

theorem eicStep_autoDeliver (s : State) (x : Nat) : EicStep s (s.autoDeliver x) := by
  simp only [State.autoDeliver]
  split
  · next n _ =>
    split
    · refine EicStep.trans (eicStep_setIntSrc ?_) ((eicStep_intLog _ _ _ _ _).trans (eicStep_quiet _ _))
      split
      · exact active_claimed _ n
      · exact active_claimed _ n
    · exact .refl _
  · exact .refl _

/-! Losing a pending state (R454) -/

theorem losePending_keeps (s : State) {n : Nat} (f : IntSource → IntSource) :
    (1 ≤ n → n ≤ 1920 → (s.losePending n f).intSrc n = f (s.intSrc n)) ∧
      (∀ m, m ≠ n → (s.losePending n f).intSrc m = s.intSrc m) ∧ OnlyIn [.cntCfg, .cnts, .out, .eic] s (s.losePending n f) := by
  have set := onlyIn_setIntSrc s n (f (s.intSrc n))
  have here (low : 1 ≤ n) (high : n ≤ 1920) : (s.setIntSrc n (f (s.intSrc n))).intSrc n = f (s.intSrc n) := by
    rw [State.intSrc_setIntSrc, if_pos ⟨rfl, low, high⟩]
  have other (m : Nat) (h : m ≠ n) : (s.setIntSrc n (f (s.intSrc n))).intSrc m = s.intSrc m :=
    intSrc_setIntSrc_other _ _ h
  simp only [State.losePending]
  split
  · obtain ⟨-, same, only⟩ := eicSettle_keeps ((s.setIntSrc n (f (s.intSrc n))).setIntCtx (s.srcTarget n)
      { (s.setIntSrc n (f (s.intSrc n))).intCtx (s.srcTarget n) with withdrawn := true }) (s.srcTarget n)
    exact ⟨fun low high => (same n).trans (here low high), fun m h => (same m).trans (other m h),
      (set.mono.trans (onlyIn_setIntCtx _ _ _).mono).trans only⟩
  · exact ⟨here, other, set.mono⟩

/-- A level source takes its input. -/
theorem levelInput_keeps (s : State) {n : Nat} (active : Bool) (low : 1 ≤ n) (high : n ≤ 1920) :
    ((s.levelInput n active).intSrc n).input = active ∧
      ((s.levelInput n active).intSrc n).latch = (s.intSrc n).latch ∧
      ((s.levelInput n active).intSrc n).accepted = (s.intSrc n).accepted ∧
      (∀ m, m ≠ n → (s.levelInput n active).intSrc m = s.intSrc m) ∧
      OnlyIn [.cntCfg, .cnts, .out, .eic] s (s.levelInput n active) := by
  cases active with
  | true =>
    obtain ⟨time, here⟩ := intSrc_setPendingWith s (fun v => { v with input := true }) low high
    have rises : s.levelInput n true = s.setPendingWith n fun v => { v with input := true } := rfl
    rw [rises, here]
    exact ⟨rfl, rfl, rfl, fun m h => intSrc_setPendingWith_other _ _ h, (onlyIn_setPendingWith _ _ _).mono⟩
  | false =>
    obtain ⟨here, other, only⟩ := losePending_keeps s (n := n) fun v => { v with input := false }
    have falls : s.levelInput n false = s.losePending n fun v => { v with input := false } := rfl
    rw [falls, here low high]
    exact ⟨rfl, rfl, rfl, other, only⟩

/-! Filtered inputs (R445) -/

theorem filterAccepts_keeps (s : State) {n : Nat} (low : 1 ≤ n) (high : n ≤ 1920) :
    (s.filterAccepts n).intSrc n = { s.intSrc n with accepted := (s.filterAccepts n).now } ∧
      (s.filterAccepts n).now = max s.now ((s.intSrc n).accepted + s.fld .eicSrcCfg 0 n 15 8 * 10) ∧
      (∀ m, m ≠ n → (s.filterAccepts n).intSrc m = s.intSrc m) ∧ OnlyIn [.time, .eic] s (s.filterAccepts n) := by
  simp only [State.filterAccepts]
  generalize wait : s.advanceTo ((s.intSrc n).accepted + s.fld .eicSrcCfg 0 n 15 8 * 10) = u
  have time : OnlyIn [.time] s u := wait ▸ onlyIn_advanceTo _ _
  have now : u.now = max s.now ((s.intSrc n).accepted + s.fld .eicSrcCfg 0 n 15 8 * 10) := wait ▸ now_advanceTo _ _
  have set := onlyIn_setIntSrc u n { u.intSrc n with accepted := u.now }
  refine ⟨?_, set.now_eq.trans now, fun m h => (intSrc_setIntSrc_other _ _ h).trans (time.intSrc_eq m), time.mono.trans set.mono⟩
  rw [State.intSrc_setIntSrc, if_pos ⟨rfl, low, high⟩, set.now_eq, time.intSrc_eq n]

theorem exec_eicPinFiltered_module {n : Nat} (low : 1025 ≤ n) (high : n ≤ 1280) (level : Bool) (s : State) :
    exec (.eicPinFiltered n level) s =
      .next (if (s.intSrc n).input = !level then s else (s.filterAccepts n).levelInput n (!level)) := by
  change execEicPinFiltered n level s = _
  simp only [execEicPinFiltered, if_pos (And.intro low high)]

/-- The rising edge of 1PPS is accepted. -/
def ppsAccepted (s : State) : State :=
  let u := (s.filterAccepts 1283).eicEvent 1283
  u.setIntSrc 1283 { u.intSrc 1283 with input := true }

theorem exec_eicPinFiltered_pps {s : State} (low : (s.intSrc 1283).input = false) :
    exec (.eicPinFiltered 1283 true) s = .next (ppsAccepted s) := by
  change execEicPinFiltered 1283 true s = _
  simp only [execEicPinFiltered, low]
  rfl

theorem ppsAccepted_keeps (s : State) : ((ppsAccepted s).intSrc 1283).edge = true ∧
    ((ppsAccepted s).intSrc 1283).input = true ∧
    (ppsAccepted s).now = max s.now ((s.intSrc 1283).accepted + s.fld .eicSrcCfg 0 1283 15 8 * 10) ∧
    (∀ m, m ≠ 1283 → (ppsAccepted s).intSrc m = s.intSrc m) ∧ OnlyIn [.time, .eic] s (ppsAccepted s) := by
  obtain ⟨-, now, others, only⟩ := filterAccepts_keeps s (n := 1283) (by decide) (by decide)
  obtain ⟨time, edge⟩ := eicEvent_edge (s.filterAccepts 1283) (n := 1283) (by decide) (by decide) (by decide)
  have event := onlyIn_eicEvent (s.filterAccepts 1283) 1283
  have set := onlyIn_setIntSrc ((s.filterAccepts 1283).eicEvent 1283) 1283
    { ((s.filterAccepts 1283).eicEvent 1283).intSrc 1283 with input := true }
  have here : (ppsAccepted s).intSrc 1283 =
      { ((s.filterAccepts 1283).eicEvent 1283).intSrc 1283 with input := true } := by
    rw [ppsAccepted, State.intSrc_setIntSrc, if_pos ⟨rfl, by decide, by decide⟩]
  refine ⟨?_, ?_, (set.now_eq.trans event.now_eq).trans now, fun m h => ?_, (only.mono.trans event.mono).trans set.mono⟩
  · rw [here, edge]
  · rw [here]
  · exact (intSrc_setIntSrc_other _ _ h).trans ((eicEvent_other _ h).trans (others m h))

/-! EIC_PEND_SET and EIC_PEND_CLR (R447) -/

theorem mem_wordSources {n v m : Nat} : m ∈ wordSources n v ↔ m / 32 = n ∧ bitOf (m % 32) v = true := by
  simp only [wordSources, List.mem_map, List.mem_filter, List.mem_range]
  constructor
  · rintro ⟨b, ⟨small, set⟩, rfl⟩
    rw [show (32 * n + b) / 32 = n by omega, show (32 * n + b) % 32 = b by omega]
    exact ⟨rfl, set⟩
  · rintro ⟨rfl, set⟩
    exact ⟨m % 32, ⟨Nat.mod_lt _ (by decide), set⟩, by omega⟩

theorem pendSet_keeps (l : List Nat) (s : State) :
    (∀ n ∈ l, 1 ≤ n → n ≤ 1920 → ((runOver l (fun b s => s.eicEvent b) s).intSrc n).isPending n = true) ∧
      (∀ n, (s.intSrc n).isPending n = true → ((runOver l (fun b s => s.eicEvent b) s).intSrc n).isPending n = true) ∧
      (∀ m, m ∉ l → (runOver l (fun b s => s.eicEvent b) s).intSrc m = s.intSrc m) ∧
      OnlyIn [.eic] s (runOver l (fun b s => s.eicEvent b) s) := by
  induction l generalizing s with
  | nil => exact ⟨fun n h => absurd h List.not_mem_nil, fun _ => id, fun _ _ => rfl, .refl _ s⟩
  | cons a l ih =>
    obtain ⟨sets, stays, others, only⟩ := ih (s.eicEvent a)
    refine ⟨fun n mem low high => ?_, fun n h => stays n ((eicEvent_keeps s a n).2 h), fun m h => ?_,
      (onlyIn_eicEvent s a).trans only⟩
    · rcases List.mem_cons.mp mem with rfl | mem
      · exact stays n (isPending_eicEvent s low high)
      · exact sets n mem low high
    · obtain ⟨other, out⟩ := not_or.mp (mt List.mem_cons.mpr h)
      exact (others m out).trans (eicEvent_other s other)

/-- What a write of EIC_PEND_CLR does to a source. -/
def cleared (v : IntSource) : IntSource := { v with latch := false, edge := false }

theorem pendClr_keeps (l : List Nat) (s : State) :
    (∀ n, 1 ≤ n → n ≤ 1920 → (runOver l (fun b s => s.losePending b cleared) s).intSrc n =
      if n ∈ l then cleared (s.intSrc n) else s.intSrc n) ∧
      (∀ m, m ∉ l → (runOver l (fun b s => s.losePending b cleared) s).intSrc m = s.intSrc m) ∧
      OnlyIn [.cntCfg, .cnts, .out, .eic] s (runOver l (fun b s => s.losePending b cleared) s) := by
  induction l generalizing s with
  | nil => exact ⟨fun _ _ _ => rfl, fun _ _ => rfl, .refl _ s⟩
  | cons a l ih =>
    obtain ⟨here, other, first⟩ := losePending_keeps s (n := a) cleared
    obtain ⟨clears, others, only⟩ := ih (s.losePending a cleared)
    refine ⟨fun n low high => (clears n low high).trans ?_, fun m h => ?_, first.trans only⟩
    · by_cases same : n = a
      · subst same
        have again : cleared (cleared (s.intSrc n)) = cleared (s.intSrc n) := rfl
        rw [here low high, again, ite_self, if_pos List.mem_cons_self]
      · simp only [other n same, List.mem_cons, same, false_or]
    · obtain ⟨apart, out⟩ := not_or.mp (mt List.mem_cons.mpr h)
      exact (others m out).trans (other m apart)

/-! Notification (R450, R452) -/

/-- An unmasked vector's message is sent, and its table entry stands. -/
theorem deliverMsix_unmasked {s : State} {x : Nat} {req : Requester} {v : Nat} {m : Msix} (tied : s.ctxVector x = (req, v))
    (entry : s.hif.msix.get {} (msixBase req + v) = m) (open_ : m.masked = false) :
    Emits s (s.deliverMsix x) (.msix req v m.addr m.data) ∧ EicStep s (s.deliverMsix x) := by
  have sent : s.deliverMsix x = (s.emit (.msix req v m.addr m.data)).autoDeliver x := by
    simp only [State.deliverMsix, State.sendMsix, tied, entry, open_, Bool.false_eq_true, if_false]
  rw [sent]
  have auto := eicStep_autoDeliver (s.emit (.msix req v m.addr m.data)) x
  exact ⟨.of_emit (.refl s) auto.adds, (eicStep_emit _ _).trans auto⟩

/-- A masked vector holds the message. -/
theorem deliverMsix_masked {s : State} {x : Nat} {req : Requester} {v : Nat} {m : Msix} (tied : s.ctxVector x = (req, v))
    (entry : s.hif.msix.get {} (msixBase req + v) = m) (masked : m.masked = true) :
    (s.deliverMsix x).hif.msix.get {} (msixBase req + v) = { m with pending := true } ∧ OnlyIn [.hif] s (s.deliverMsix x) := by
  have held : s.deliverMsix x = { s with hif := { s.hif with
      msix := s.hif.msix.set {} (msixBase req + v) { m with pending := true } } } := by
    simp only [State.deliverMsix, State.sendMsix, tied, entry, masked, if_true]
  rw [held]
  exact ⟨Tab.get_set_same _ _ _ _, onlyIn_hif _ _⟩

/-- Context x has been notified. -/
def ctxNotified (s : State) (x : Nat) : State := s.setIntCtx x { s.intCtx x with notified := true }

theorem exec_eicNotify {x : Fin 66} {s : State} (rises : s.notifyCond x = true) (fresh : (s.intCtx x).notified = false) :
    exec (.eicNotify x) s = .next (if x.val < 2 then (ctxNotified s x).emit (.coreLine x true)
      else (ctxNotified s x).deliverMsix x) := by
  change execEicNotify x s = _
  simp only [execEicNotify, rises, fresh, Bool.not_false, Bool.and_self, if_true]
  rfl

/-! Claim and completion (R453, R455) -/

theorem exec_eicClaim {a : EicAgent} {x : Fin 66}
    (reaches : match a with | .host f => ctxVisible f x = true ∧ 2 ≤ x.val | .core k => x.val = k.val) (s : State) :
    exec (.eicClaim a x) s = .next (s.claim x) := by
  change execEicClaim a x s = _
  cases a with
  | host f => simp [execEicClaim, reaches.1, reaches.2]
  | core k =>
    have reaches : x.val = k.val := reaches
    simp only [execEicClaim, if_pos reaches]

theorem claim_winner {s : State} {x n : Nat} (manual : s.ctxAuto x = false) (wins : s.winner x = some n) (low : 1 ≤ n)
    (high : n ≤ 1920) : ((s.claim x).intSrc n).active = some x ∧ Emits s (s.claim x) (.readData n) ∧
      OnlyIn eicParts s (s.claim x) := by
  have set := onlyIn_setIntSrc s n { (s.intSrc n).claimed n with active := some x }
  generalize taken : s.setIntSrc n { (s.intSrc n).claimed n with active := some x } = t at set
  have active : (t.intSrc n).active = some x := by rw [← taken, State.intSrc_setIntSrc, if_pos ⟨rfl, low, high⟩]
  have logged : EicStep t (((t.setIntCtx x { t.intCtx x with withdrawn := false }).intLog n x 1
      (s.intSrc n).pendTime).quiet x) :=
    ((eicStep_setIntCtx _ _ _).trans (eicStep_intLog _ _ _ _ _)).trans (eicStep_quiet _ _)
  have run : s.claim x = (((t.setIntCtx x { t.intCtx x with withdrawn := false }).intLog n x 1
      (s.intSrc n).pendTime).quiet x).emit (.readData n) := by
    simp only [State.claim, manual, wins, Bool.false_eq_true, if_false, taken]
  rw [run]
  have all := logged.trans (eicStep_emit _ (.readData n))
  exact ⟨(all.active.active n).trans active, .of_emit (set.adds.trans logged.adds) (.refl _), set.mono.trans all.only⟩

theorem exec_eicComplete {a : EicAgent} {x : Fin 66}
    (reaches : match a with | .host f => ctxVisible f x = true ∧ 2 ≤ x.val | .core k => x.val = k.val) (n : BitVec 11)
    (s : State) : exec (.eicComplete a x n) s = .next (s.completeInt x n.toNat) := by
  change execEicComplete a x n s = _
  cases a with
  | host f => simp [execEicComplete, reaches.1, Nat.not_lt.mpr reaches.2]
  | core k =>
    have reaches : x.val = k.val := reaches
    simp only [execEicComplete, if_pos reaches]

theorem completeInt_active {s : State} {x n : Nat} (active : (s.intSrc n).active = some x) (low : 1 ≤ n) (high : n ≤ 1920) :
    ((s.completeInt x n).intSrc n).active = none ∧ OnlyIn eicParts s (s.completeInt x n) := by
  have freed (v : IntSource) (none : v.active = none) (u : State) (set : u = s.setIntSrc n v) :
      (((u.intLog n x 2 (s.intSrc n).pendTime).quiet x).intSrc n).active = .none ∧
        OnlyIn eicParts s ((u.intLog n x 2 (s.intSrc n).pendTime).quiet x) := by
    have logged := (eicStep_intLog u n x 2 (s.intSrc n).pendTime).trans (eicStep_quiet _ x)
    refine ⟨(logged.active.active n).trans ?_, (set ▸ onlyIn_setIntSrc s n v).mono.trans logged.only⟩
    rw [set, State.intSrc_setIntSrc, if_pos ⟨rfl, low, high⟩, none]
  simp only [State.completeInt, active, if_true]
  refine freed _ ?_ _ rfl
  split <;> rfl

theorem completeInt_inactive {s : State} {x n : Nat} (idle : (s.intSrc n).active ≠ some x) :
    s.completeInt x n = s.bump cntBadComplete := by
  simp only [State.completeInt, if_neg idle]

/-! Unmasking a vector (R452) -/

/-- A vector's entry is replaced by one that is unmasked and holds nothing. -/
def vectorOpened (s : State) (k addr data : Nat) : State :=
  { s with hif := { s.hif with msix := s.hif.msix.set {} k ⟨addr, data, false, false⟩ } }

theorem exec_msixUnmask {req : Requester} {v : Fin 32} (exists_ : v.val < msixCount req) (addr : BitVec 64)
    (data : BitVec 32) (s : State) : exec (.msixUnmask req v addr data) s = .next
      (if (s.hif.msix.get {} (msixBase req + v.val)).pending then
        match (List.range 66).find? fun x => 2 ≤ x && s.ctxVector x = (req, v.val) && (s.intCtx x).notified with
        | some x => if s.notifyCond x then (vectorOpened s (msixBase req + v.val) addr.toNat data.toNat).deliverMsix x
            else vectorOpened s (msixBase req + v.val) addr.toNat data.toNat
        | none => vectorOpened s (msixBase req + v.val) addr.toNat data.toNat
      else vectorOpened s (msixBase req + v.val) addr.toNat data.toNat) := by
  refine congrArg Host.Outcome.next ?_
  rw [if_neg (Nat.not_le.mpr exists_)]
  simp only [State.msixPut, Bool.and_false, Bool.false_or, Bool.not_eq_true']
  cases held : (s.hif.msix.get {} (msixBase req + v.val)).pending
  · rfl
  · rfl

/-- Settles O49. -/
theorem interruptsArePendedClaimedAndCompleted : Obligations.InterruptsArePendedClaimedAndCompleted := by
  refine ⟨fun n s source => ?_, fun s => ?_, fun s => ?_, fun n level s low high => ?_, fun s low => ?_, fun n v s => ?_,
    fun n v s => ?_, fun x s rises fresh => ?_, fun a x n s reaches manual wins low high => ?_,
    fun a x n s reaches low high => ?_, fun req v addr data s exists_ => ?_⟩
  · have range : 1 ≤ n ∧ n ≤ 1920 := by omega
    have edge : srcIsLevel n = false := by
      simp only [srcIsLevel, Bool.or_eq_false_iff, Bool.and_eq_false_iff, decide_eq_false_iff_not, beq_eq_false_iff_ne]
      omega
    obtain ⟨time, here⟩ := eicEvent_edge s range.1 range.2 edge
    refine ⟨s.eicEvent n, ?_, by rw [here], by rw [here], fun m h => eicEvent_other s h, onlyIn_eicEvent s n⟩
    exact congrArg Host.Outcome.next (if_pos source)
  · obtain ⟨input, -, -, others, -⟩ := levelInput_keeps s (n := 1284) true (by decide) (by decide)
    have rises : s.levelInput 1284 true = s.setPendingWith 1284 fun v => { v with input := true } := rfl
    refine ⟨s.levelInput 1284 true, rfl, input, others, ?_⟩
    rw [rises]
    exact onlyIn_setPendingWith _ _ _
  · obtain ⟨input, -, -, others, only⟩ := levelInput_keeps s (n := 1284) false (by decide) (by decide)
    exact ⟨s.levelInput 1284 false, rfl, input, others, only⟩
  · have from1 : 1 ≤ n := by omega
    have to1920 : n ≤ 1920 := by omega
    have run := exec_eicPinFiltered_module low high level s
    by_cases stands : (s.intSrc n).input = !level
    · rw [if_pos stands] at run
      exact ⟨s, run, stands, rfl, fun _ _ => rfl, fun differs => absurd (differs.symm.trans stands) (by simp),
        fun _ => rfl, .refl _ s⟩
    · rw [if_neg stands] at run
      obtain ⟨accepted, now, others, only⟩ := filterAccepts_keeps s from1 to1920
      obtain ⟨input, latch, kept, others', only'⟩ := levelInput_keeps (s.filterAccepts n) (!level) from1 to1920
      refine ⟨_, run, input, latch.trans (congrArg IntSource.latch accepted :),
        fun m h => (others' m h).trans (others m h), fun _ => ⟨?_, only'.now_eq.trans now⟩,
        fun same => absurd same stands, only.mono.trans only'.mono⟩
      rw [kept, only'.now_eq]
      exact (congrArg IntSource.accepted accepted :)
  · obtain ⟨edge, input, now, others, only⟩ := ppsAccepted_keeps s
    exact ⟨_, exec_eicPinFiltered_pps low, edge, input, now, others, only⟩
  · obtain ⟨sets, -, others, only⟩ := pendSet_keeps (wordSources n v.toNat) s
    refine ⟨_, rfl, fun b small set low high => sets _ (mem_wordSources.mpr ⟨by omega, ?_⟩) low high,
      fun m out => others m fun mem => out (mem_wordSources.mp mem), only⟩
    rw [show (32 * n.val + b) % 32 = b by omega]
    exact set
  · obtain ⟨clears, others, only⟩ := pendClr_keeps (wordSources n v.toNat) s
    refine ⟨runOver (wordSources n v.toNat) (fun b s => s.losePending b cleared) s, rfl, fun b small set low high => ?_,
      fun m out => others m fun mem => out (mem_wordSources.mp mem), only⟩
    have named : 32 * n.val + b ∈ wordSources n v.toNat := by
      refine mem_wordSources.mpr ⟨by omega, ?_⟩
      rw [show (32 * n.val + b) % 32 = b by omega]
      exact set
    rw [clears _ low high, if_pos named]
    exact ⟨rfl, rfl⟩
  · have run := exec_eicNotify rises fresh
    have noted := eicStep_setIntCtx s x { s.intCtx x with notified := true }
    by_cases core : x.val < 2
    · rw [if_pos core] at run
      refine ⟨_, run, fun _ => ⟨.of_emit noted.adds (.refl _), ?_⟩, fun host => absurd host (by omega),
        noted.only.mono.trans (onlyIn_emit _ _).mono⟩
      have line := onlyIn_emit (ctxNotified s x) (.coreLine x true)
      rw [State.intCtx, line.eic_eq]
      exact congrArg IntCtx.notified (State.intCtx_setIntCtx s x { s.intCtx x with notified := true })
    · rw [if_neg core] at run
      have tied : (ctxNotified s x).ctxVector x = ((s.ctxVector x).1, (s.ctxVector x).2) := rfl
      cases masked : (s.hif.msix.get {} (msixBase (s.ctxVector x).1 + (s.ctxVector x).2)).masked with
      | true =>
        obtain ⟨held, only⟩ := deliverMsix_masked (s := ctxNotified s x) tied rfl masked
        refine ⟨_, run, fun small => absurd small core, fun _ => ?_, noted.only.mono.trans only.mono⟩
        dsimp only
        rw [if_pos masked]
        exact held
      | false =>
        obtain ⟨sent, step⟩ := deliverMsix_unmasked (s := ctxNotified s x) tied rfl masked
        refine ⟨_, run, fun small => absurd small core, fun _ => ?_, noted.only.mono.trans step.only.mono⟩
        dsimp only
        rw [if_neg (Bool.eq_false_iff.mp masked)]
        exact sent.before noted.adds
  · obtain ⟨active, answers, only⟩ := claim_winner manual wins low high
    exact ⟨_, exec_eicClaim reaches s, active, answers, only.mono⟩
  · refine ⟨_, exec_eicComplete reaches n s, ?_⟩
    by_cases active : (s.intSrc n.toNat).active = some x.val
    · obtain ⟨freed, only⟩ := completeInt_active active low high
      rw [if_pos active]
      exact ⟨freed, only.mono⟩
    · rw [if_neg active, completeInt_inactive active]
      exact ⟨rfl, (onlyIn_bump _ _).mono⟩
  · have run := exec_msixUnmask exists_ addr data s
    have opened : OnlyIn [.hif] s (vectorOpened s (msixBase req + v.val) addr.toNat data.toNat) := onlyIn_hif _ _
    have entry : (vectorOpened s (msixBase req + v.val) addr.toNat data.toNat).hif.msix.get {} (msixBase req + v.val) =
        ⟨addr.toNat, data.toNat, false, false⟩ := Tab.get_set_same _ _ _ _
    cases held : (s.hif.msix.get {} (msixBase req + v.val)).pending with
    | false =>
      rw [held, if_neg Bool.false_ne_true] at run
      exact ⟨_, run, entry, fun _ => opened, fun x h => absurd h Bool.false_ne_true, opened.mono⟩
    | true =>
      rw [held, if_pos rfl] at run
      have silent : exec (.msixUnmask req v addr data) s =
          .next (vectorOpened s (msixBase req + v.val) addr.toNat data.toNat) → ∃ t,
          exec (.msixUnmask req v addr data) s = .next t ∧
            t.hif.msix.get {} (msixBase req + v.val) = ⟨addr.toNat, data.toNat, false, false⟩ ∧ OnlyIn eicParts s t :=
        fun run => ⟨_, run, entry, opened.mono⟩
      cases found : (List.range 66).find?
          fun x => 2 ≤ x && s.ctxVector x = (req, v.val) && (s.intCtx x).notified with
      | none =>
        rw [found] at run
        obtain ⟨t, run, entry, only⟩ := silent run
        exact ⟨t, run, entry, fun none => (nomatch none), fun x _ h => (nomatch h), only⟩
      | some x =>
        rw [found] at run
        dsimp only at run
        by_cases rises : s.notifyCond x = true
        · rw [if_pos rises] at run
          have tied : (vectorOpened s (msixBase req + v.val) addr.toNat data.toNat).ctxVector x = (req, v.val) := by
            have named := List.find?_some found
            simp only [Bool.and_eq_true, decide_eq_true_eq] at named
            exact named.1.2
          obtain ⟨sent, step⟩ := deliverMsix_unmasked tied entry rfl
          refine ⟨_, run, ?_, fun none => (nomatch none), fun y _ _ _ => sent.before opened.adds, opened.mono.trans step.only⟩
          rw [step.active.msix]
          exact entry
        · rw [if_neg rises] at run
          obtain ⟨t, run, entry, only⟩ := silent run
          refine ⟨t, run, entry, fun none => (nomatch none), fun y _ same on => ?_, only⟩
          exact absurd (Option.some.inj same ▸ on) rises

end Sys2Proof.Claims

/-! SUPPORT, and O50: sensor readings, and the mailbox's requests and responses (R463 to R468, R492, R493). -/

namespace Sys2Proof.Claims

open Sys2Proof.Machine

set_option Elab.async false

/-! What goes out -/

/-- What is put out, and counted nowhere. -/
def outAfter (s : State) (o : Out) : State := { s with out := s.out ++ [o] }

/-- What carries no payload counts in no performance counter. -/
theorem emit_silent (s : State) {o : Out} (silent : o.payload = 0) : s.emit o = outAfter s o := by
  simp [State.emit, silent, outAfter]

/-- What is put out later comes after what has been put out. -/
theorem Emits.after_prefix {s u t : State} {o : Out} (grow : s.out <+: u.out) (e : Emits u t o) : Emits s t o := by
  obtain ⟨x, hx⟩ := grow
  obtain ⟨y, z, hz⟩ := e
  exact ⟨x ++ y, z, by rw [hz, ← hx]; simp⟩

theorem out_prefix_eicSettle (s : State) (x : Nat) : s.out <+: (s.eicSettle x).out := (eicSettle_keeps s x).1.adds.out

theorem out_prefix_losePending (s : State) (n : Nat) (f : IntSource → IntSource) : s.out <+: (s.losePending n f).out := by
  have set := onlyIn_setIntSrc s n (f (s.intSrc n))
  simp only [State.losePending]
  split
  · exact (set.adds.trans (onlyIn_setIntCtx _ _ _).adds).out.trans (out_prefix_eicSettle _ _)
  · exact set.adds.out

theorem out_prefix_levelInput (s : State) (n : Nat) (active : Bool) : s.out <+: (s.levelInput n active).out := by
  cases active with
  | true => exact (onlyIn_setPendingWith s n fun v => { v with input := true }).adds.out
  | false => exact out_prefix_losePending s n fun v => { v with input := false }

/-! Sensor readings (R431, R470) -/

/-- What a set of readings may change. -/
abbrev senseParts : List Part := [.cntCfg, .cnts, .out, .eic, .flt, .kiln, .mgt]

theorem onlyIn_levelInput_alarm (s : State) (active : Bool) :
    OnlyIn [.cntCfg, .cnts, .out, .eic] s (s.levelInput 1284 active) :=
  (levelInput_keeps s (n := 1284) active (by decide) (by decide)).2.2.2.2

/-- A step of the sensors: the outputs grow, and nothing of Ewethes changes but the alarm. -/
structure AlarmStep (s t : State) : Prop where
  out : s.out <+: t.out
  mgt : t.mgt = { s.mgt with alarm := t.mgt.alarm }
  only : OnlyIn senseParts s t

theorem AlarmStep.refl (s : State) : AlarmStep s s := ⟨List.prefix_rfl, rfl, .refl _ s⟩

/-- The alarm is as given. -/
def alarmAt (s : State) (a : Bool) : State := { s with mgt := { s.mgt with alarm := a } }

theorem onlyIn_alarmAt (s : State) (a : Bool) : OnlyIn [.mgt] s (alarmAt s a) := onlyIn_mgt s _

/-- The alarm's entry: sensor i read as much. -/
def alarmLogged (s : State) (i : Nat) : State :=
  (alarmAt s true).kilnLog 0x0006 3 (leBytes 1 1 ++ leBytes 1 i ++ intBytes 4 ((alarmAt s true).thermal i))

theorem onlyIn_alarmLogged (s : State) (i : Nat) : OnlyIn [.kiln] (alarmAt s true) (alarmLogged s i) := onlyIn_kilnLog _ _ _ _

theorem alarmCheck_falls {s : State} (on : s.mgt.alarm = true) (cool : ∀ i, i < 64 → s.thermal i < 388) (sensors : List Nat) :
    s.alarmCheck sensors = (alarmAt s false).levelInput 1284 false := by
  have all : ((List.range 64).all fun i => decide (s.thermal i < 388)) = true :=
    List.all_eq_true.mpr fun i mem => decide_eq_true (cool i (List.mem_range.mp mem))
  simp only [State.alarmCheck, on, all, if_true]
  rfl

theorem alarmCheck_rises {s : State} {sensors : List Nat} {i : Nat} (off : s.mgt.alarm = false)
    (hot : (sensors.find? fun i => decide (400 ≤ s.thermal i)) = some i) :
    s.alarmCheck sensors = (alarmLogged s i).levelInput 1284 true := by
  simp only [State.alarmCheck, off, hot, Bool.false_eq_true, if_false]
  rfl

theorem alarmStep_alarmCheck (s : State) (sensors : List Nat) : AlarmStep s (s.alarmCheck sensors) := by
  cases alarm : s.mgt.alarm with
  | true =>
    by_cases cool : ∀ i, i < 64 → s.thermal i < 388
    · rw [alarmCheck_falls alarm cool]
      have line := onlyIn_levelInput_alarm (alarmAt s false) false
      exact ⟨out_prefix_levelInput (alarmAt s false) 1284 false, by rw [line.mgt_eq]; rfl,
        (onlyIn_alarmAt s false).mono.trans line.mono⟩
    · have hot : ((List.range 64).all fun i => decide (s.thermal i < 388)) = false := by
        simpa [List.all_eq_true] using cool
      simp only [State.alarmCheck, alarm, hot, if_true, Bool.false_eq_true, if_false]
      exact .refl s
  | false =>
    cases hot : sensors.find? fun i => decide (400 ≤ s.thermal i) with
    | some i =>
      rw [alarmCheck_rises alarm hot]
      have logged := onlyIn_alarmLogged s i
      have line := onlyIn_levelInput_alarm (alarmLogged s i) true
      exact ⟨logged.adds.out.trans (out_prefix_levelInput _ _ _), by rw [line.mgt_eq, logged.mgt_eq]; rfl,
        ((onlyIn_alarmAt s true).mono.trans logged.mono).trans line.mono⟩
    | none =>
      simp only [State.alarmCheck, alarm, hot, Bool.false_eq_true, if_false]
      exact .refl s

/-- The readings are stored, and the alarm does not follow them yet. -/
def readingsStored (s : State) (r : Readings) : State :=
  let s := s.endLines (readingsInRange r)
  { s with mgt := { s.mgt with
      thermal := runOver (List.range 64) (fun i (t : Tab Int) => t.set 100 i (r.thermal.getD i (t.get 100 i))) s.mgt.thermal
      volt := runOver (List.range 48) (fun i (t : Tab Nat) => t.set (nominalMv i) i (r.volt.getD i (t.get (nominalMv i) i))) s.mgt.volt
      clock := runOver (List.range 45) (fun i (t : Tab Nat) => t.set (setKhz i) i (r.clock.getD i (t.get (setKhz i) i))) s.mgt.clock } }

theorem sense_eq (s : State) (r : Readings) : s.sense r = (readingsStored s r).alarmCheck (List.range 64) := rfl

theorem onlyIn_readingsStored (s : State) (r : Readings) : OnlyIn [.flt, .mgt] s (readingsStored s r) :=
  (onlyIn_flt s _).mono.trans (onlyIn_mgt (s.endLines (readingsInRange r)) _).mono

/-- What a set of readings leaves: the outputs grow, and mailboxes, telemetry and boot record stand. -/
theorem sense_keeps (s : State) (r : Readings) : s.out <+: (s.sense r).out ∧ (s.sense r).mgt.mbx = s.mgt.mbx ∧
    (s.sense r).mgt.telemetry = s.mgt.telemetry ∧ (s.sense r).mgt.boot = s.mgt.boot ∧
    (s.sense r).mgt.healthAt = s.mgt.healthAt ∧ (s.sense r).mgt.warned = s.mgt.warned ∧ OnlyIn senseParts s (s.sense r) := by
  obtain ⟨out, mgt, only⟩ := alarmStep_alarmCheck (readingsStored s r) (List.range 64)
  rw [sense_eq]
  exact ⟨out, (congrArg Mgt.mbx mgt :), (congrArg Mgt.telemetry mgt :), (congrArg Mgt.boot mgt :),
    (congrArg Mgt.healthAt mgt :), (congrArg Mgt.warned mgt :), (onlyIn_readingsStored s r).mono.trans only⟩

/-! A request is copied (R464) -/

/-- The request of function f is copied and BUSY is set. -/
def requestCopied (s : State) (f : Fn) : State :=
  (s.setMailbox f { running := some (s.mailRequest f) }).mailStatus f 0 0 1

theorem exec_mailboxGo {f : Fn} {s : State} (up : s.reachable .mbxCtrl = true) (idle : (s.mailbox f).running = none) :
    exec (.mailboxGo f) s = .next ((requestCopied s f).eicEvent 1285) := by
  have role : (RegName.info .mbxCtrl).writers.contains f.num = true := by cases f <;> rfl
  refine congrArg Host.Outcome.next ((rowWrite_of_role up role 0 0 _).trans ?_)
  simp only [State.mailGo, idle, Option.isSome_none, Bool.false_eq_true, if_false]
  rfl

theorem requestCopied_keeps (s : State) (f : Fn) : (requestCopied s f).mailbox f = { running := some (s.mailRequest f) } ∧
    bitsOf 0 0 ((requestCopied s f).regOf .mbxStatus f.num 0 0) = 1 ∧
    (∀ g, g ≠ f → (requestCopied s f).mailbox g = s.mailbox g) ∧ OnlyIn [.regs, .mgt] s (requestCopied s f) := by
  have status := onlyIn_mailStatus (s.setMailbox f { running := some (s.mailRequest f) }) f 0 0 1
  refine ⟨(status.mailbox_eq f).trans (State.mailbox_setMailbox _ _ _), ?_,
    fun g other => (status.mailbox_eq g).trans (State.mailbox_setMailbox_other _ _ other),
    (onlyIn_setMailbox _ _ _).mono.trans status.mono⟩
  rw [requestCopied, State.mailStatus, State.regOf_setRegOf, bitsOf_withBits_same]
  rfl

/-! The response (R464) -/

/-- The response of function f's request is written, and the mailbox is free. -/
def responseWritten (s : State) (f : Fn) (b : Bytes) : State :=
  endRequest (putResponse (s.setMailbox f {}) f b (List.range 8)) f

theorem exec_mailboxResponse_ready {s : State} {f : Fn} {q b : Bytes} (running : (s.mailbox f).running = some q)
    (ready : (s.mailbox f).ready = some b) : exec (.mailboxResponse f) s = .next (if bitOf 0 (byteAt q 2)
      then (responseWritten s f b).eicEvent (bitsOf 27 16 ((responseWritten s f b).regOf .mbxCtrl f.num 0 0))
      else responseWritten s f b) := by
  have other : s.mailOther f = s := by
    simp [State.mailOther, running, ready]
  simp only [exec, execMailboxResponse, other, running, ready]
  rfl

theorem regOf_mailStatus (s : State) (f : Fn) (hi lo v : Nat) : (s.mailStatus f hi lo v).regOf .mbxStatus f.num 0 0 =
    withBits hi lo (s.regOf .mbxStatus f.num 0 0) v := State.regOf_setRegOf _ _ _ _ _ _

theorem mbxStatus_putResponse (s : State) (f : Fn) (b : Bytes) (l : List Nat) :
    (putResponse s f b l).regOf .mbxStatus f.num 0 0 = s.regOf .mbxStatus f.num 0 0 := by
  induction l generalizing s with
  | nil => rfl
  | cons k l ih =>
    refine (ih _).trans (State.regOf_setRegOf_other _ ?_)
    simp only [RegName.key, RegName.addr, RegName.info]
    omega

/-- DONE, PROGRESS and SEQ at the end of a request. -/
theorem mbxStatus_endRequest (s : State) (f : Fn) : bitsOf 1 0 ((endRequest s f).regOf .mbxStatus f.num 0 0) = 2 ∧
    bitsOf 31 24 ((endRequest s f).regOf .mbxStatus f.num 0 0) = 0 ∧
    bitsOf 15 8 ((endRequest s f).regOf .mbxStatus f.num 0 0) = (bitsOf 15 8 (s.regOf .mbxStatus f.num 0 0) + 1) % 256 := by
  simp only [endRequest, regOf_mailStatus]
  refine ⟨bitsOf_withBits_same _ _ _ _, ?_, ?_⟩
  · rw [bitsOf_withBits_apart _ _ (by decide), bitsOf_withBits_apart _ _ (by decide), bitsOf_withBits_same]
    rfl
  · rw [bitsOf_withBits_apart _ _ (by decide), bitsOf_withBits_same]
    rfl

theorem responseWritten_keeps (s : State) (f : Fn) (b : Bytes) : (responseWritten s f b).mailbox f = {} ∧
    (∀ g, g ≠ f → (responseWritten s f b).mailbox g = s.mailbox g) ∧
    (∀ k, k < 8 → (responseWritten s f b).regOf .mbxRsp f.num 0 k = leAt b (8 * k) 8) ∧
    bitsOf 1 0 ((responseWritten s f b).regOf .mbxStatus f.num 0 0) = 2 ∧
    bitsOf 31 24 ((responseWritten s f b).regOf .mbxStatus f.num 0 0) = 0 ∧
    bitsOf 15 8 ((responseWritten s f b).regOf .mbxStatus f.num 0 0) = (bitsOf 15 8 (s.regOf .mbxStatus f.num 0 0) + 1) % 256 ∧
    OnlyIn [.regs, .mgt] s (responseWritten s f b) := by
  have freed := onlyIn_setMailbox s f {}
  have put := onlyIn_putResponse (s.setMailbox f {}) f b (List.range 8)
  have ended := onlyIn_endRequest (putResponse (s.setMailbox f {}) f b (List.range 8)) f
  have registers : OnlyIn [.regs] (s.setMailbox f {}) (responseWritten s f b) := put.trans ended
  obtain ⟨done, progress, seq⟩ := mbxStatus_endRequest (putResponse (s.setMailbox f {}) f b (List.range 8)) f
  rw [mbxStatus_putResponse] at seq
  refine ⟨(registers.mailbox_eq f).trans (State.mailbox_setMailbox _ _ _),
    fun g other => (registers.mailbox_eq g).trans (State.mailbox_setMailbox_other _ _ other), fun k small => ?_, done,
    progress, seq, freed.mono.trans registers.mono⟩
  rw [responseWritten, mbxRsp_endRequest, regOf_putResponse, if_pos (List.mem_range.mpr small)]

/-! Requests that answer OK (R467) -/

/-- A request's answer waits to be written. -/
theorem ready_mailAnswer {s : State} {f : Fn} {q : Bytes} (running : (s.mailbox f).running = some q) (st : MailStatus)
    (info : Nat) (result : Bytes) : ((s.mailAnswer f st info result).mailbox f).ready = some (mailBytes q st info result) :=
  congrArg Mailbox.ready (mailbox_mailAnswer running st info result)

theorem mailbox_of_mbx {s t : State} (same : t.mgt.mbx = s.mgt.mbx) (f : Fn) : t.mailbox f = s.mailbox f := by
  rw [State.mailbox, same, State.mailbox]

theorem exec_sensorRead {f : Fn} {q : Bytes} {s : State} (runs : s.mailRuns f 0x0002 = some q) (allowed : f ≠ .pf1)
    (clean : mailClean q [] = true) (room : 512 ≤ mailLen q) (mode : s.mailMode 0x0002 notReset = true) (r : Readings) :
    exec (.sensorRead f r true) s = .next (((s.sense r).emit (.hostWrite (.pf f) (mailAddr q)
      ((s.sense r).sensorBytes 0 (s.sense r).now false))).mailAnswer f .ok) := by
  have fns : [Fn.pf0, Fn.pf2].contains f = true := by
    cases f
    case pf1 => exact absurd rfl allowed
    all_goals rfl
  exact congrArg Host.Outcome.next (mailCommand_accepted runs fns (by simp [clean, room]) mode _)

theorem exec_krRead_committed {f : Fn} {q : Bytes} {s : State} (runs : s.mailRuns f 0x0020 = some q) (allowed : f ≠ .pf1)
    (area : byteAt q 0x18 = 2) (clean : mailClean q [0x18, 0x1C, 0x1D, 0x1E, 0x1F, 0x20, 0x21, 0x22, 0x23] = true)
    (room : 18028 ≤ mailLen q) (zero : zeroAt q 0x1C 8 = true) (mode : s.mailMode 0x0020 notReset = true) :
    exec (.krRead f true) s = .next ((s.emit (.hostWrite (.pf f) (mailAddr q)
      (s.kiln.committed.bytes s.kiln.ckSeq))).mailAnswer f .ok 18028 (leBytes 4 0 ++ leBytes 4 0)) := by
  have fns : [Fn.pf0, Fn.pf2].contains f = true := by
    cases f
    case pf1 => exact absurd rfl allowed
    all_goals rfl
  have some : (s.kiln.committed.bytes s.kiln.ckSeq).isEmpty = false := by
    simp [KilnSram.bytes, leBytes]
  refine congrArg Host.Outcome.next ((mailCommand_accepted runs fns ?_ mode _).trans ?_)
  · simp [area, clean, room, zero]
  · simp only [Bool.not_true, Bool.false_eq_true, if_false, area, some]

theorem exec_modI2c_write {q d b : Bytes} {s : State} (runs : s.mailRuns .pf0 0x0040 = some q)
    (clean : mailClean q [0x18, 0x19, 0x1A, 0x1B, 0x1C] = true) (cage : byteAt q 0x18 ≤ 127) (addr : byteAt q 0x19 ≤ 127)
    (write : byteAt q 0x1A = 1) (some : 1 ≤ byteAt q 0x1C) (most : byteAt q 0x1C ≤ 128) (room : byteAt q 0x1C ≤ mailLen q)
    (mode : s.mailMode 0x0040 upModes = true) (here : (s.port (byteAt q 0x18)).present = true) (w : Bool) :
    exec (.modI2c .pf0 (.some d) (.some b) w) s = .next ((s.emit (.twoWire (byteAt q 0x18 / 8) (byteAt q 0x18 % 8)
      (sliceOf q 0x19 4 ++ sliceOf d 0 (byteAt q 0x1C)))).mailAnswer .pf0 .ok (byteAt q 0x1C)) := by
  refine congrArg Host.Outcome.next ((mailCommand_accepted runs rfl ?_ mode _).trans ?_)
  · simp [clean, write, Nat.not_lt.mpr cage, Nat.not_lt.mpr addr, Nat.not_lt.mpr most, Nat.not_lt.mpr room,
      Nat.one_le_iff_ne_zero.mp some]
  · simp only [write, if_true, here, Bool.not_true, Bool.false_eq_true, if_false, Option.isNone_some]

theorem exec_mdio_read {q : Bytes} {s : State} (runs : s.mailRuns .pf0 0x0041 = some q)
    (clean : mailClean q [0x18, 0x19, 0x1A, 0x1B, 0x1C, 0x1D, 0x1E, 0x1F] = true) (bus : byteAt q 0x18 ≤ 15)
    (phy : byteAt q 0x19 ≤ 31) (dev : byteAt q 0x1A ≤ 31) (read : byteAt q 0x1B = 0)
    (mode : s.mailMode 0x0041 upModes = true) (v : BitVec 16) : exec (.mdio .pf0 v) s =
      .next ((s.emit (.mdio (byteAt q 0x18) false (byteAt q 0x19) (byteAt q 0x1A) (leAt q 0x1C 2) 0)).mailAnswer .pf0 .ok 0
        (leBytes 2 v.toNat)) := by
  refine congrArg Host.Outcome.next ((mailCommand_accepted runs rfl ?_ mode _).trans ?_)
  · simp [clean, read, Nat.not_lt.mpr bus, Nat.not_lt.mpr phy, Nat.not_lt.mpr dev]
  · simp only [read, Nat.zero_ne_one, decide_false, Bool.false_eq_true, if_false]

/-- The snapshots that a TELEM_CFG request asks for. -/
def telemetryOf (q : Bytes) (now : Nat) : Option Telemetry :=
  if bitOf 0 (byteAt q 0x18) then
    some { addr := mailAddr q, nbuf := byteAt q 0x19, ring := leAt q 0x1A 2, periodMs := leAt q 0x1C 4,
           counters := bitOf 1 (byteAt q 0x18), due := now + leAt q 0x1C 4 * msNs }
  else none

/-- The snapshots are configured. -/
def telemetrySet (s : State) (x : Option Telemetry) : State := { s with mgt := { s.mgt with telemetry := x } }

theorem exec_telemCfg {q : Bytes} {s : State} (runs : s.mailRuns .pf0 0x0050 = some q)
    (clean : mailClean q [0x18, 0x19, 0x1A, 0x1B, 0x1C, 0x1D, 0x1E, 0x1F] = true) (bits : byteAt q 0x18 ≤ 3)
    (some : 1 ≤ byteAt q 0x19) (most : byteAt q 0x19 ≤ 64) (period : 1 ≤ leAt q 0x1C 4) (longest : leAt q 0x1C 4 ≤ 60000)
    (aligned : mailAddr q % 65536 = 0) (room : byteAt q 0x19 * 65536 ≤ mailLen q)
    (ring : (s.ringIs (leAt q 0x1A 2) 5 .pf0 || s.ringIs (leAt q 0x1A 2) 5 .pf2) = true)
    (mode : s.mailMode 0x0050 upOrStandby = true) :
    exec (.telemCfg .pf0) s = .next ((telemetrySet s (telemetryOf q s.now)).mailAnswer .pf0 .ok) := by
  refine congrArg Host.Outcome.next ((mailCommand_accepted runs rfl ?_ mode _).trans rfl)
  simp only [clean, ring, aligned]
  simp [Nat.not_lt.mpr bits, Nat.not_lt.mpr most, Nat.not_lt.mpr longest, Nat.not_lt.mpr room,
    Nat.one_le_iff_ne_zero.mp some, Nat.one_le_iff_ne_zero.mp period]

/-- Settles O50. -/
theorem mailboxRequestsAreAnswered : Obligations.MailboxRequestsAreAnswered := by
  refine ⟨fun f s up idle => ?_, fun f q b s running ready => ?_, fun f q s runs clean mode => ?_,
    fun f q r s runs allowed clean room mode => ?_, fun f q s runs allowed area clean room zero mode => ?_,
    fun q d b w s runs clean cage addr write some most room mode here => ?_,
    fun q v s runs clean bus phy dev read mode => ?_,
    fun q s runs clean bits some most period longest aligned room ring mode => ?_⟩
  · obtain ⟨copied, busy, others, only⟩ := requestCopied_keeps s f
    have event := onlyIn_eicEvent (requestCopied s f) 1285
    have status : ((requestCopied s f).eicEvent 1285).regOf .mbxStatus f.num 0 0 =
        (requestCopied s f).regOf .mbxStatus f.num 0 0 :=
      event .regs (by decide) _ _ _ _ (mbx_not_inCntCfg (.inr rfl) _ 0)
    exact ⟨_, exec_mailboxGo up idle, (event.mailbox_eq f).trans copied, by rw [status]; exact busy,
      isPending_eicEvent _ (by decide) (by decide), fun g other => (event.mailbox_eq g).trans (others g other),
      only.mono.trans event.mono⟩
  · obtain ⟨free, others, written, done, progress, seq, only⟩ := responseWritten_keeps s f b
    have run := exec_mailboxResponse_ready running ready
    split at run
    · have event := onlyIn_eicEvent (responseWritten s f b)
        (bitsOf 27 16 ((responseWritten s f b).regOf .mbxCtrl f.num 0 0))
      have status := event .regs (by decide) .mbxStatus f.num 0 0 (mbx_not_inCntCfg (.inr rfl) _ 0)
      have answer (k : Nat) := event .regs (by decide) .mbxRsp f.num 0 k (mbx_not_inCntCfg (.inl rfl) _ k)
      refine ⟨_, run, (event.mailbox_eq f).trans free, fun k small => (answer k).trans (written k small), ?_, ?_, ?_,
        fun g other => (event.mailbox_eq g).trans (others g other), only.mono.trans event.mono⟩
      · rw [status, done]
      · rw [status, progress]
      · rw [status, seq]
    · exact ⟨_, run, free, written, done, progress, seq, others, only.mono⟩
  · obtain ⟨-, -, running, -⟩ := mailRuns_some runs
    have fns : [Fn.pf0, Fn.pf1, Fn.pf2].contains f = true := by cases f <;> rfl
    exact ⟨_, congrArg Host.Outcome.next (mailCommand_accepted runs fns (by simp [clean]) mode _),
      ready_mailAnswer running _ _ _, onlyIn_mailAnswer _ _ _ _ _⟩
  · obtain ⟨-, -, running, -⟩ := mailRuns_some runs
    obtain ⟨out, mbx, -, -, -, -, only⟩ := sense_keeps s r
    have emit := onlyIn_emit (s.sense r)
      (.hostWrite (.pf f) (mailAddr q) ((s.sense r).sensorBytes 0 (s.sense r).now false))
    have answer := onlyIn_mailAnswer ((s.sense r).emit
      (.hostWrite (.pf f) (mailAddr q) ((s.sense r).sensorBytes 0 (s.sense r).now false))) f .ok 0 []
    have put := exec_sensorRead runs allowed clean room mode r
    refine ⟨_, put, ready_mailAnswer ?_ _ _ _, ?_, (only.mono.trans emit.mono).trans answer.mono⟩
    · rw [emit.mailbox_eq, mailbox_of_mbx mbx, running]
    · rw [← only.now_eq]
      exact Emits.after_prefix out (.of_emit (.refl _) answer.adds)
  · obtain ⟨-, -, running, -⟩ := mailRuns_some runs
    have emit := onlyIn_emit s (.hostWrite (.pf f) (mailAddr q) (s.kiln.committed.bytes s.kiln.ckSeq))
    have answer := onlyIn_mailAnswer (s.emit (.hostWrite (.pf f) (mailAddr q) (s.kiln.committed.bytes s.kiln.ckSeq))) f .ok
      18028 (leBytes 4 0 ++ leBytes 4 0)
    refine ⟨_, exec_krRead_committed runs allowed area clean room zero mode, ready_mailAnswer ?_ _ _ _,
      .of_emit (.refl _) answer.adds, emit.mono.trans answer.mono⟩
    rw [emit.mailbox_eq, running]
  · obtain ⟨-, -, running, -⟩ := mailRuns_some runs
    have run := exec_modI2c_write (d := d) (b := b) runs clean cage addr write some most room mode here w
    rw [emit_silent _ rfl] at run
    have answer := onlyIn_mailAnswer (outAfter s (.twoWire (byteAt q 0x18 / 8) (byteAt q 0x18 % 8)
      (sliceOf q 0x19 4 ++ sliceOf d 0 (byteAt q 0x1C)))) .pf0 .ok (byteAt q 0x1C) []
    exact ⟨_, run, ready_mailAnswer (s := outAfter s _) running _ _ _, answer.out_eq,
      (onlyIn_out s _).mono.trans answer.mono⟩
  · obtain ⟨-, -, running, -⟩ := mailRuns_some runs
    have run := exec_mdio_read runs clean bus phy dev read mode v
    rw [emit_silent _ rfl] at run
    have answer := onlyIn_mailAnswer (outAfter s (.mdio (byteAt q 0x18) false (byteAt q 0x19) (byteAt q 0x1A)
      (leAt q 0x1C 2) 0)) .pf0 .ok 0 (leBytes 2 v.toNat)
    exact ⟨_, run, ready_mailAnswer (s := outAfter s _) running _ _ _, answer.out_eq, (onlyIn_out s _).mono.trans answer.mono⟩
  · obtain ⟨-, -, running, -⟩ := mailRuns_some runs
    refine ⟨_, exec_telemCfg runs clean bits some most period longest aligned room ring mode,
      ready_mailAnswer (s := telemetrySet s (telemetryOf q s.now)) running _ _ _, ?_,
      (onlyIn_mgt _ _).trans (onlyIn_mailAnswer _ _ _ _ _)⟩
    simp only [State.mailAnswer]
    split <;> rfl

end Sys2Proof.Claims

/-! SUPPORT: the Kiln Record's ring of pages, its commits and its histograms (R471, R487 to R489, R491). -/

namespace Sys2Proof.Claims

open Sys2Proof.Machine

set_option Elab.async false

/-! Pages of the ring (R487, R488) -/

/-- A step of the Kiln Record that writes pages: the counters, the permanent area and the checkpoint's number stand. -/
structure Paged (s t : State) : Prop where
  sram : t.kiln.toKilnSram = s.kiln.toKilnSram
  perm : t.kiln.perm = s.kiln.perm
  ckSeq : t.kiln.ckSeq = s.kiln.ckSeq
  only : OnlyIn [.kiln] s t

theorem Paged.refl (s : State) : Paged s s := ⟨rfl, rfl, rfl, .refl _ s⟩

theorem Paged.trans {s t u : State} (h : Paged s t) (k : Paged t u) : Paged s u :=
  ⟨k.sram.trans h.sram, k.perm.trans h.perm, k.ckSeq.trans h.ckSeq, h.only.trans k.only⟩

/-- The page that the next write takes when none fails. -/
def nextPage (s : State) : Nat := s.kiln.goodFrom 3968 s.kiln.next

/-- The page is erased and takes its header. -/
def pageWritten (s : State) (kind ckSeq : Nat) : State :=
  let k := s.kiln.erase (nextPage s)
  { s with kiln := { k with
    ring := k.ring.set {} (nextPage s) ⟨kind, k.pseq, ckSeq, k.erases.get 0 (nextPage s)⟩
    pseq := k.pseq + 1, next := ringAfter (nextPage s) } }

theorem writeRing_sound (s : State) (kind ckSeq : Nat) : s.writeRing [] kind ckSeq = (nextPage s, pageWritten s kind ckSeq) := rfl

theorem paged_pageWritten (s : State) (kind ckSeq : Nat) : Paged s (pageWritten s kind ckSeq) :=
  ⟨rfl, rfl, rfl, onlyIn_kiln s _ rfl⟩

theorem pageWritten_header (s : State) (kind ckSeq : Nat) :
    (pageWritten s kind ckSeq).kiln.erases.get 0 (nextPage s) = s.kiln.erases.get 0 (nextPage s) + 1 ∧
      (pageWritten s kind ckSeq).kiln.ring.get {} (nextPage s) =
        ⟨kind, s.kiln.pseq, ckSeq, s.kiln.erases.get 0 (nextPage s) + 1⟩ := by
  have erased : (s.kiln.erase (nextPage s)).erases.get 0 (nextPage s) = s.kiln.erases.get 0 (nextPage s) + 1 :=
    Tab.get_modify_same _ _ _ _
  refine ⟨erased, (Tab.get_set_same _ _ _ _).trans ?_⟩
  rw [erased]
  rfl

/-- A log page is written: the oldest entries of the buffer move into the ring. -/
def logPageWritten (s : State) : State :=
  let u := pageWritten s 0 s.kiln.ckSeq
  { u with kiln := { u.kiln with
    log := u.kiln.log ++ s.kiln.buffer.take 126, buffer := u.kiln.buffer.drop 126
    logPages := u.kiln.logPages ++ [(nextPage s, (s.kiln.buffer.take 126).length)] } }

theorem writeLogPage_nonempty {s : State} (some : s.kiln.buffer ≠ []) : s.writeLogPage [] = logPageWritten s := by
  have new : (s.kiln.buffer.take 126).isEmpty = false := by
    cases buffer : s.kiln.buffer with
    | nil => exact absurd buffer some
    | cons e rest => rfl
  simp only [State.writeLogPage, new, Bool.false_eq_true, if_false, writeRing_sound]
  rfl

theorem paged_logPageWritten (s : State) : Paged s (logPageWritten s) :=
  (paged_pageWritten s 0 s.kiln.ckSeq).trans ⟨rfl, rfl, rfl, onlyIn_kiln _ _ rfl⟩

theorem writeLogPage_sound (s : State) : (s.writeLogPage []).kiln.buffer = s.kiln.buffer.drop 126 ∧ Paged s (s.writeLogPage []) := by
  by_cases some : s.kiln.buffer = []
  · have same : s.writeLogPage [] = s := by simp [State.writeLogPage, some]
    rw [same, some]
    exact ⟨rfl, .refl s⟩
  · rw [writeLogPage_nonempty some]
    exact ⟨rfl, paged_logPageWritten s⟩

theorem writeLogPages_sound (s : State) : (s.writeLogPages []).kiln.buffer = s.kiln.buffer.drop 1008 ∧
    Paged s (s.writeLogPages []) := by
  have pages : ∀ (l : List Nat) (s : State),
      (runOver l (fun _ s => s.writeLogPage []) s).kiln.buffer = s.kiln.buffer.drop (126 * l.length) ∧
        Paged s (runOver l (fun _ s => s.writeLogPage []) s) := by
    intro l
    induction l with
    | nil => exact fun s => ⟨rfl, .refl s⟩
    | cons k l ih =>
      intro s
      obtain ⟨dropped, page⟩ := writeLogPage_sound s
      obtain ⟨rest, pages⟩ := ih (s.writeLogPage [])
      refine ⟨rest.trans ?_, page.trans pages⟩
      rw [dropped, List.drop_drop, List.length_cons]
      congr 1
      omega
  have eight := pages (List.range 8) s
  rw [List.length_range, show 126 * 8 = 1008 from rfl] at eight
  rw [State.writeLogPages]
  exact eight

/-- The five parts of a checkpoint with number n are in the ring. -/
def partsWritten (s : State) (n : Nat) : State := runOver [1, 2, 3, 4, 5] (fun part s => pageWritten s part n) s

theorem paged_partsWritten (s : State) (n : Nat) : Paged s (partsWritten s n) ∧ (partsWritten s n).kiln.buffer = s.kiln.buffer := by
  have parts : ∀ (l : List Nat) (s : State), Paged s (runOver l (fun part s => pageWritten s part n) s) ∧
      (runOver l (fun part s => pageWritten s part n) s).kiln.buffer = s.kiln.buffer := by
    intro l
    induction l with
    | nil => exact fun s => ⟨.refl s, rfl⟩
    | cons part l ih =>
      intro s
      obtain ⟨rest, buffer⟩ := ih (pageWritten s part n)
      exact ⟨(paged_pageWritten s part n).trans rest, buffer⟩
  exact parts _ s

/-- The checkpoint is the last one, and its number counts. -/
def checkpointNoted (s : State) (n : Nat) (c : KilnSram) : State :=
  { s with kiln := { s.kiln with ckSeq := n, committed := c, commitLog := s.kiln.logFirst + s.kiln.log.length } }

theorem writeCheckpoint_eq (s : State) : s.writeCheckpoint [] =
    checkpointNoted (partsWritten s (s.kiln.ckSeq + 1)) (s.kiln.ckSeq + 1) s.kiln.toKilnSram := by
  simp only [State.writeCheckpoint, writeRing_sound, partsWritten, checkpointNoted]

theorem onlyIn_checkpointNoted (s : State) (n : Nat) (c : KilnSram) : OnlyIn [.kiln] s (checkpointNoted s n c) :=
  onlyIn_kiln s _ rfl

theorem writeCheckpoint_sound (s : State) : (s.writeCheckpoint []).kiln.ckSeq = s.kiln.ckSeq + 1 ∧
    (s.writeCheckpoint []).kiln.committed = (s.writeCheckpoint []).kiln.toKilnSram ∧
    (s.writeCheckpoint []).kiln.buffer = s.kiln.buffer ∧ (s.writeCheckpoint []).kiln.perm = s.kiln.perm ∧
    OnlyIn [.kiln] s (s.writeCheckpoint []) := by
  obtain ⟨parts, buffer⟩ := paged_partsWritten s (s.kiln.ckSeq + 1)
  rw [writeCheckpoint_eq]
  exact ⟨rfl, parts.sram.symm, buffer, parts.perm, parts.only.trans (onlyIn_checkpointNoted _ _ _)⟩

/-! The hourly commit (R471, R489, R491) -/

/-- What the measures before a commit may change, the Kiln Record aside. -/
abbrev measureParts : List Part := [.cntCfg, .cnts, .out, .hif, .eic, .kiln]

/-- A measure: the permanent area and the checkpoint's number stand, and the buffer keeps to its 8 pages. -/
structure Measured (s t : State) : Prop where
  perm : t.kiln.perm = s.kiln.perm
  ckSeq : t.kiln.ckSeq = s.kiln.ckSeq
  buffer : s.kiln.buffer.length ≤ 1008 → t.kiln.buffer.length ≤ 1008
  only : OnlyIn measureParts s t

theorem Measured.refl (s : State) : Measured s s := ⟨rfl, rfl, id, .refl _ s⟩

theorem Measured.trans {s t u : State} (h : Measured s t) (k : Measured t u) : Measured s u :=
  ⟨k.perm.trans h.perm, k.ckSeq.trans h.ckSeq, k.buffer ∘ h.buffer, h.only.trans k.only⟩

theorem Measured.runOver {α : Type} {f : α → State → State} (step : ∀ a s, Measured s (f a s)) (l : List α) (s : State) :
    Measured s (Machine.runOver l f s) := by
  induction l generalizing s with
  | nil => exact .refl s
  | cons a l ih => exact (step a s).trans (ih (f a s))

/-- A change of the Kiln Record's counters and alarms alone. -/
theorem measured_kiln (s : State) (k : Kiln)
    (same : k.perm = s.kiln.perm ∧ k.ckSeq = s.kiln.ckSeq ∧ k.buffer = s.kiln.buffer ∧ k.lifeNs = s.kiln.lifeNs) :
    Measured s { s with kiln := k } := by
  obtain ⟨perm, ckSeq, buffer, life⟩ := same
  exact ⟨perm, ckSeq, fun short => (congrArg List.length buffer).trans_le short, (onlyIn_kiln s k life).mono⟩

theorem measured_kilnLog (s : State) (type fn : Nat) (data : Bytes) : Measured s (s.kilnLog type fn data) := by
  have only := (onlyIn_kilnLog s type fn data).mono (qs := measureParts)
  by_cases room : s.kiln.buffer.length < 1008
  · have logged : (s.kilnLog type fn data).kiln = { s.kiln with buffer := s.kiln.buffer ++
        [⟨type, fn, false, s.lifeS, if s.ptp.isSet then s.ptpSec else 0, sliceOf data 0 10⟩] } := by
      simp only [State.kilnLog, room, if_true]
    refine ⟨by rw [logged], by rw [logged], fun _ => ?_, only⟩
    rw [logged, List.length_append]
    exact room
  · have dropped : (s.kilnLog type fn data).kiln = { s.kiln with logDrop := s.kiln.logDrop + 1 } := by
      simp only [State.kilnLog, room, if_false]
    exact ⟨by rw [dropped], by rw [dropped], fun short => by rw [dropped]; exact short, only⟩

theorem measured_telemetryRecord (s : State) (ring seq buf kind sensor : Nat) (value : Int) (time : Nat) :
    Measured s (s.telemetryRecord ring seq buf kind sensor value time) := by
  have only := onlyIn_writeRecord s (ringFn ring) ring 0x0070 time
    (leBytes 4 seq ++ leBytes 2 buf ++ leBytes 1 kind ++ leBytes 1 sensor ++ intBytes 4 value)
  have same := only .kiln (by decide)
  exact ⟨(congrArg Kiln.perm same :), (congrArg Kiln.ckSeq same :),
    fun short => ((congrArg (fun k => k.buffer.length) same :) : _ = _).trans_le short, only.mono⟩

/-- The drift of Cone i at f kHz, in ppm of its first frequency. -/
def coneDriftOf (s : State) (i f : Nat) : Int :=
  let f0 := if s.kiln.coneF0.get 0 i = 0 then f else s.kiln.coneF0.get 0 i
  Int.tdiv (((f : Int) - f0) * 1000000) f0

/-- The frequencies and the drift of Cone i are stored. -/
def coneStored (s : State) (i f : Nat) : State :=
  { s with kiln := { s.kiln with
    coneF0 := s.kiln.coneF0.set 0 i (if s.kiln.coneF0.get 0 i = 0 then f else s.kiln.coneF0.get 0 i)
    coneF := s.kiln.coneF.set 0 i f, coneDrift := s.kiln.coneDrift.set 0 i (coneDriftOf s i f) } }

/-- The alarm of Cone i has been raised. -/
def coneAlarmed (s : State) (i : Nat) : State := { s with kiln := { s.kiln with coneAlarms := s.kiln.coneAlarms ++ [i] } }

theorem measureCone_eq (s : State) (i f : Nat) : s.measureCone i f =
    if coneDriftOf s i f ≤ -((coneStored s i f).fld .mgtSensCtrl 0 0 15 0 : Int) ∧ !(coneStored s i f).kiln.coneAlarms.contains i then
      let u := (coneAlarmed (coneStored s i f) i).kilnLog 0x0006 3
        (leBytes 1 2 ++ leBytes 1 i ++ intBytes 4 (coneDriftOf s i f))
      match u.mgt.telemetry with
      | some t => u.telemetryRecord t.ring 0 0 2 i (coneDriftOf s i f) u.now
      | none => u
    else coneStored s i f := rfl

theorem measured_coneStored (s : State) (i f : Nat) : Measured s (coneStored s i f) := measured_kiln s _ ⟨rfl, rfl, rfl, rfl⟩

theorem measured_coneAlarmed (s : State) (i : Nat) : Measured s (coneAlarmed s i) := measured_kiln s _ ⟨rfl, rfl, rfl, rfl⟩

theorem measured_measureCone (s : State) (i f : Nat) : Measured s (s.measureCone i f) := by
  have alarm := (measured_coneStored s i f).trans (measured_coneAlarmed (coneStored s i f) i)
  rw [measureCone_eq]
  split
  · have logged := alarm.trans (measured_kilnLog (coneAlarmed (coneStored s i f) i) 0x0006 3
      (leBytes 1 2 ++ leBytes 1 i ++ intBytes 4 (coneDriftOf s i f)))
    dsimp only
    split
    · exact logged.trans (measured_telemetryRecord _ _ _ _ _ _ _ _)
    · exact logged
  · exact measured_coneStored s i f

theorem measured_eyeHour (s : State) (readings : List (Nat × Int)) : Measured s (s.eyeHour readings) :=
  .runOver (fun r s => by
    cases s.lanePort r.1 with
    | none => exact .refl s
    | some p =>
      by_cases up : (s.port p).link = .up
      · simp only [up, if_true]
        exact measured_kiln s _ ⟨rfl, rfl, rfl, rfl⟩
      · simp only [up, if_false]
        exact .refl s) readings s

/-- The hour has come; the next commit is due an hour later. -/
def commitHour (s : State) : State :=
  let s := s.advanceTo s.mgt.commitDue
  { s with mgt := { s.mgt with commitDue := s.mgt.commitDue + 3600 * 1000000000 } }

/-- The Cones and eyes of the hour are measured. -/
def hourMeasured (cones : List Nat) (eyes : List (Nat × Int)) (s : State) : State :=
  (runOver (List.range (min 16 cones.length)) (fun i s => s.measureCone i (cones.getD i 0)) s).eyeHour
    (eyes.filter fun e => e.1 < 256)

theorem measured_hourMeasured (cones : List Nat) (eyes : List (Nat × Int)) (s : State) : Measured s (hourMeasured cones eyes s) :=
  (Measured.runOver (fun i s => measured_measureCone s i _) _ s).trans (measured_eyeHour _ _)

theorem exec_kilnCommit (cones : List Nat) (eyes : List (Nat × Int)) {s : State} (runs : s.rst.ewethes = true) :
    exec (.kilnCommit cones eyes []) s =
      .next (((hourMeasured cones eyes (commitHour s)).writeLogPages []).writeCheckpoint []) := by
  change execKilnCommit cones eyes [] s = _
  simp only [execKilnCommit, runs, Bool.not_true, Bool.false_eq_true, if_false]
  rfl

theorem commitHour_keeps (s : State) : (commitHour s).mgt.commitDue = s.mgt.commitDue + 3600000000000 ∧
    (commitHour s).kiln.perm = s.kiln.perm ∧ (commitHour s).kiln.ckSeq = s.kiln.ckSeq ∧
    (commitHour s).kiln.buffer = s.kiln.buffer ∧ OnlyIn [.time, .mgt] s (commitHour s) :=
  ⟨rfl, rfl, rfl, rfl, (onlyIn_advanceTo s _).mono.trans (onlyIn_mgt _ _).mono⟩

theorem kilnCommit_keeps (cones : List Nat) (eyes : List (Nat × Int)) {s t : State} (short : s.kiln.buffer.length ≤ 1008)
    (run : t = ((hourMeasured cones eyes (commitHour s)).writeLogPages []).writeCheckpoint []) :
    t.kiln.ckSeq = s.kiln.ckSeq + 1 ∧ t.kiln.buffer = [] ∧ t.kiln.committed = t.kiln.toKilnSram ∧
      t.mgt.commitDue = s.mgt.commitDue + 3600000000000 ∧ t.kiln.perm = s.kiln.perm ∧
      OnlyIn [.time, .cntCfg, .cnts, .out, .hif, .eic, .kiln, .mgt] s t := by
  obtain ⟨due, perm, ckSeq, buffer, hour⟩ := commitHour_keeps s
  have measure := measured_hourMeasured cones eyes (commitHour s)
  obtain ⟨written, pages⟩ := writeLogPages_sound (hourMeasured cones eyes (commitHour s))
  obtain ⟨counted, committed, left, area, only⟩ :=
    writeCheckpoint_sound ((hourMeasured cones eyes (commitHour s)).writeLogPages [])
  subst run
  refine ⟨?_, ?_, committed, ?_, ?_, ((hour.mono.trans measure.only.mono).trans pages.only.mono).trans only.mono⟩
  · rw [counted, pages.ckSeq, measure.ckSeq, ckSeq]
  · rw [left, written]
    exact List.drop_eq_nil_of_le (measure.buffer (buffer ▸ short))
  · rw [only.mgt_eq, pages.only.mgt_eq, measure.only.mgt_eq, due]
  · rw [area, pages.perm, measure.perm, perm]

/-! A log page written early (R488) -/

/-- At most one page a minute is written early. -/
def earlyTime (s : State) : State := if s.kiln.lastEarly = 0 then s else s.advanceTo (s.kiln.lastEarly + 60 * 1000000000)

/-- The page has been written early now. -/
def earlyNoted (s : State) : State := { s with kiln := { s.kiln with lastEarly := s.now } }

theorem exec_kilnLogPageWrite {failing : List Nat} {s : State} (runs : s.rst.ewethes = true) (full : 126 ≤ s.kiln.buffer.length) :
    exec (.kilnLogPageWrite failing) s = .next (earlyNoted ((earlyTime s).writeLogPage failing)) := by
  change execKilnLogPageWrite failing s = _
  simp only [execKilnLogPageWrite, runs, Nat.not_lt.mpr full, Bool.not_true, decide_false, Bool.or_false, Bool.false_eq_true,
    if_false]
  rfl

/-- Waiting changes nothing of the Kiln Record but its powered time. -/
theorem earlyTime_keeps (s : State) : (earlyTime s).kiln = { s.kiln with lifeNs := (earlyTime s).kiln.lifeNs } ∧
    OnlyIn [.time] s (earlyTime s) := by
  simp only [earlyTime]
  split
  · exact ⟨rfl, .refl _ s⟩
  · exact ⟨rfl, onlyIn_advanceTo s _⟩

theorem onlyIn_earlyNoted (s : State) : OnlyIn [.kiln] s (earlyNoted s) := onlyIn_kiln s _ rfl

theorem goodFrom_of_badPages {k l : Kiln} (same : k.badPages = l.badPages) (n p : Nat) : k.goodFrom n p = l.goodFrom n p := by
  induction n generalizing p with
  | zero => rfl
  | succ n ih => simp only [Kiln.goodFrom, same, ih]

/-- A full page of the log is written early. -/
theorem logPageWrite_keeps {s : State} (full : 126 ≤ s.kiln.buffer.length) :
    let t := earlyNoted ((earlyTime s).writeLogPage [])
    t.kiln.buffer = s.kiln.buffer.drop 126 ∧ t.kiln.pseq = s.kiln.pseq + 1 ∧
      (t.kiln.erases.get 0 (nextPage s) = s.kiln.erases.get 0 (nextPage s) + 1 ∧ t.kiln.next = ringAfter (nextPage s) ∧
        t.kiln.ring.get {} (nextPage s) = ⟨0, s.kiln.pseq, s.kiln.ckSeq, s.kiln.erases.get 0 (nextPage s) + 1⟩) ∧
      t.kiln.perm = s.kiln.perm ∧ t.kiln.lastEarly = t.now ∧ OnlyIn [.time, .kiln] s t := by
  obtain ⟨kiln, wait⟩ := earlyTime_keeps s
  generalize earlyTime s = u at kiln wait
  have some : u.kiln.buffer ≠ [] := by
    rw [kiln]
    exact List.ne_nil_of_length_pos (by omega : 0 < s.kiln.buffer.length)
  have page : nextPage u = nextPage s := by
    have skipped : u.kiln.badPages = s.kiln.badPages := by rw [kiln]
    have next : u.kiln.next = s.kiln.next := by rw [kiln]
    rw [nextPage, next]
    exact goodFrom_of_badPages skipped _ _
  have buffer : u.kiln.buffer = s.kiln.buffer := by rw [kiln]
  have pseq : u.kiln.pseq = s.kiln.pseq := by rw [kiln]
  have ckSeq : u.kiln.ckSeq = s.kiln.ckSeq := by rw [kiln]
  have erases : u.kiln.erases = s.kiln.erases := by rw [kiln]
  have perm : u.kiln.perm = s.kiln.perm := by rw [kiln]
  obtain ⟨erased, header⟩ := pageWritten_header u 0 u.kiln.ckSeq
  have written := paged_logPageWritten u
  have turned : (logPageWritten u).kiln.next = ringAfter (nextPage u) := rfl
  rw [page, erases] at erased
  rw [page, erases, pseq, ckSeq] at header
  rw [writeLogPage_nonempty some]
  exact ⟨congrArg (List.drop 126) buffer, congrArg (· + 1) pseq, ⟨erased, page ▸ turned, ckSeq ▸ header⟩,
    written.perm.trans perm, rfl, (wait.mono.trans written.only.mono).trans (onlyIn_earlyNoted _).mono⟩

/-! Pages that fail (R488) -/

/-- A page is skipped from now on. -/
def pageSkipped (s : State) (p : Nat) : State :=
  { s with kiln := { s.kiln with badPages := s.kiln.badPages ++ [p], next := ringAfter p } }

theorem onlyIn_pageSkipped (s : State) (p : Nat) : OnlyIn [.kiln] s (pageSkipped s p) := onlyIn_kiln s _ rfl

/-- The page that was to be erased has failed: it is noted in the permanent area and skipped. -/
def pageFailed (s : State) (p : Nat) : State := (pageSkipped s p).kilnPerm 0x0022 3 (leBytes 2 p)

/-- The next page is erased. -/
def pageErased (s : State) : State := { s with kiln := s.kiln.erase (nextPage s) }

theorem turnRing_succ (s : State) (failing : List Nat) (n : Nat) : s.turnRing failing (n + 1) =
    if failing.contains (nextPage s) then (pageFailed (pageErased s) (nextPage s)).turnRing failing n else pageErased s := rfl

theorem onlyIn_pageErased (s : State) : OnlyIn [.kiln] s (pageErased s) := onlyIn_kiln s _ rfl

theorem perm_kilnLog (s : State) (type fn : Nat) (data : Bytes) : (s.kilnLog type fn data).kiln.perm = s.kiln.perm ∧
    (s.kilnLog type fn data).kiln.badPages = s.kiln.badPages := by
  simp only [State.kilnLog]
  split <;> exact ⟨rfl, rfl⟩

/-- What a page that fails leaves: the page is skipped, and the permanent area only grows. -/
theorem pageFailed_keeps (s : State) (p : Nat) : (pageFailed s p).kiln.badPages = s.kiln.badPages ++ [p] ∧
    s.kiln.perm <+: (pageFailed s p).kiln.perm ∧ OnlyIn [.kiln] s (pageFailed s p) := by
  refine ⟨?_, ?_, (onlyIn_pageSkipped s p).trans (onlyIn_kilnPerm _ _ _ _)⟩
  · simp only [pageFailed, State.kilnPerm]
    split
    · rfl
    · exact (perm_kilnLog (pageSkipped s p) _ _ _).2
  · simp only [pageFailed, State.kilnPerm]
    split
    · exact List.prefix_append _ _
    · exact ((perm_kilnLog (pageSkipped s p) _ _ _).1 ▸ List.prefix_rfl :
        (pageSkipped s p).kiln.perm <+: ((pageSkipped s p).kilnLog 0x0022 3 (leBytes 2 p)).kiln.perm)

/-- With room, the entry names the page. -/
theorem pageFailed_entry {s : State} (room : s.kiln.perm.length < 16384) (p : Nat) :
    ∃ e, (pageFailed s p).kiln.perm = s.kiln.perm ++ [e] ∧ e.type = 0x0022 ∧ leAt e.data 0 2 = p % 65536 := by
  refine ⟨⟨0x0022, 3, false, s.lifeS, if s.ptp.isSet then s.ptpSec else 0, sliceOf (leBytes 2 p) 0 10⟩, ?_, rfl, ?_⟩
  · have room' : (pageSkipped s p).kiln.perm.length < 16384 := room
    simp only [pageFailed, State.kilnPerm, room', if_true]
    rfl
  · have field : leAt (sliceOf (leBytes 2 p) 0 10) 0 2 = leNat (leBytes 2 p) := rfl
    exact field.trans (leNat_leBytes 2 p)

/-- A turn of the ring: pages that failed stay skipped, those that are new are among the failing, and the permanent area
only grows. -/
structure RingTurned (failing : List Nat) (s t : State) : Prop where
  keeps : ∀ p ∈ s.kiln.badPages, p ∈ t.kiln.badPages
  adds : ∀ p ∈ t.kiln.badPages, p ∈ s.kiln.badPages ∨ p ∈ failing
  perm : s.kiln.perm <+: t.kiln.perm
  only : OnlyIn [.kiln] s t

theorem RingTurned.trans {failing : List Nat} {s t u : State} (h : RingTurned failing s t) (k : RingTurned failing t u) :
    RingTurned failing s u :=
  ⟨fun p mem => k.keeps p (h.keeps p mem), fun p mem => (k.adds p mem).elim (h.adds p) .inr, h.perm.trans k.perm,
    h.only.trans k.only⟩

theorem ringTurned_same {failing : List Nat} {s t : State} (pages : t.kiln.badPages = s.kiln.badPages)
    (perm : t.kiln.perm = s.kiln.perm) (only : OnlyIn [.kiln] s t) : RingTurned failing s t :=
  ⟨fun _ mem => pages ▸ mem, fun _ mem => .inl (pages ▸ mem), perm ▸ List.prefix_rfl, only⟩

theorem ringTurned_pageFailed {failing : List Nat} {p : Nat} (s : State) (fails : p ∈ failing) :
    RingTurned failing s (pageFailed s p) := by
  obtain ⟨pages, perm, only⟩ := pageFailed_keeps s p
  refine ⟨fun q mem => ?_, fun q mem => ?_, perm, only⟩
  · rw [pages]
    exact List.mem_append_left _ mem
  · rw [pages, List.mem_append, List.mem_singleton] at mem
    refine mem.imp_right fun (same : q = p) => ?_
    rw [same]
    exact fails

theorem ringTurned_turnRing (failing : List Nat) (n : Nat) (s : State) : RingTurned failing s (s.turnRing failing n) := by
  induction n generalizing s with
  | zero => exact ringTurned_same rfl rfl (.refl _ s)
  | succ n ih =>
    have erased : RingTurned failing s (pageErased s) := ringTurned_same rfl rfl (onlyIn_pageErased s)
    rw [turnRing_succ]
    split
    · next fails =>
      exact (erased.trans (ringTurned_pageFailed _ (List.contains_iff_mem.mp fails))).trans (ih _)
    · exact erased

/-- A log page that is not empty is written after a turn of the ring. -/
theorem writeLogPage_turned {s : State} (failing : List Nat) (some : s.kiln.buffer ≠ []) :
    RingTurned failing (s.turnRing failing (failing.length + 1)) (s.writeLogPage failing) := by
  have new : (s.kiln.buffer.take 126).isEmpty = false := by
    cases buffer : s.kiln.buffer with
    | nil => exact absurd buffer some
    | cons e rest => rfl
  simp only [State.writeLogPage, new, Bool.false_eq_true, if_false, State.writeRing]
  exact (ringTurned_same rfl rfl (onlyIn_kiln _ _ rfl)).trans (ringTurned_same rfl rfl (onlyIn_kiln _ _ rfl))

/-- A page that fails is noted with an entry in the permanent area and skipped. -/
theorem writeLogPage_fails {failing : List Nat} {s : State} (some : s.kiln.buffer ≠ []) (fails : s.kiln.next ∈ failing)
    (sound : s.kiln.badPages = []) (room : s.kiln.perm.length < 16384) :
    s.kiln.next ∈ (s.writeLogPage failing).kiln.badPages ∧ (∀ p ∈ (s.writeLogPage failing).kiln.badPages, p ∈ failing) ∧
      (∃ e, (s.writeLogPage failing).kiln.perm[s.kiln.perm.length]? = .some e ∧ e.type = 0x0022 ∧
        leAt e.data 0 2 = s.kiln.next % 65536) ∧ OnlyIn [.kiln] s (s.writeLogPage failing) := by
  have page : nextPage s = s.kiln.next := by
    simp [nextPage, Kiln.goodFrom, sound]
  have erased : RingTurned failing s (pageErased s) := ringTurned_same rfl rfl (onlyIn_pageErased s)
  have failed := erased.trans (ringTurned_pageFailed (pageErased s) fails)
  have turn : s.turnRing failing (failing.length + 1) =
      (pageFailed (pageErased s) s.kiln.next).turnRing failing failing.length := by
    rw [turnRing_succ, page, if_pos (List.contains_iff_mem.mpr fails)]
  have after : RingTurned failing (pageFailed (pageErased s) s.kiln.next) (s.writeLogPage failing) :=
    (turn ▸ ringTurned_turnRing failing failing.length _ : RingTurned failing (pageFailed (pageErased s) s.kiln.next)
      (s.turnRing failing (failing.length + 1))).trans (writeLogPage_turned failing some)
  have whole := failed.trans after
  refine ⟨after.keeps _ ?_, fun p mem => ?_, ?_, whole.only⟩
  · rw [(pageFailed_keeps (pageErased s) s.kiln.next).1]
    exact List.mem_append_right _ (List.mem_singleton_self _)
  · refine (whole.adds p mem).resolve_left ?_
    rw [sound]
    exact List.not_mem_nil
  · obtain ⟨e, put, type, named⟩ := pageFailed_entry (s := pageErased s) room s.kiln.next
    obtain ⟨rest, grown⟩ := after.perm
    refine ⟨e, ?_, type, named⟩
    rw [← grown, put]
    have same : (pageErased s).kiln.perm = s.kiln.perm := rfl
    rw [same]
    simp

end Sys2Proof.Claims

/-! SUPPORT, and O53: histograms, health, telemetry, SMBus answers and the thermal alarm (R470, R491, R493, R505, R506). -/

namespace Sys2Proof.Claims

open Sys2Proof.Machine

set_option Elab.async false

/-! Bins (R491) -/

/-- A tally: each key of the list gains one as often as it stands there. -/
theorem get_tally {α : Type} (key : α → Nat) (l : List α) (t : Tab Nat) (k : Nat) :
    (runOver l (fun a t => t.modify 0 (key a) (· + 1)) t).get 0 k = t.get 0 k + l.countP fun a => key a = k := by
  induction l generalizing t with
  | nil => rfl
  | cons a l ih =>
    refine (ih _).trans ?_
    by_cases same : key a = k
    · rw [List.countP_cons_of_pos (by simpa using same), ← same, Tab.get_modify_same]
      omega
    · rw [List.countP_cons_of_neg (by simpa using same), Tab.get_modify_other _ _ _ (Ne.symm same)]

/-- A key of its own gains one. -/
theorem get_tally_range {n : Nat} {key : Nat → Nat} (own : ∀ i j, key i = key j → i = j) (t : Tab Nat) {i : Nat} (small : i < n) :
    (runOver (List.range n) (fun i t => t.modify 0 (key i) (· + 1)) t).get 0 (key i) = t.get 0 (key i) + 1 := by
  rw [get_tally]
  congr 1
  have count : (List.range n).countP (fun j => decide (key j = key i)) = (List.range n).count i :=
    List.countP_congr fun j _ => by
      simp only [decide_eq_true_eq, beq_iff_eq]
      exact ⟨own j i, congrArg key⟩
  rw [count]
  exact List.count_eq_one_of_mem List.nodup_range (List.mem_range.mpr small)

/-- A bin below 32 of a row of 32. -/
theorem bin_row {i j x y : Nat} (hx : x ≤ 31) (hy : y ≤ 31) (same : 32 * i + x = 32 * j + y) : i = j := by omega

/-- The next minute is due. -/
def minuteNext (s : State) : State := { s with mgt := { s.mgt with minuteDue := s.mgt.minuteDue + 60 * 1000000000 } }

/-- The minute's readings are counted in their bins. -/
def minuteCounted (s : State) (r : Readings) : State :=
  { s with kiln := { s.kiln with
    temp := runOver (List.range 64) (fun i (t : Tab Nat) => t.modify 0 (32 * i + tempBin (r.thermal.getD i (s.thermal i))) (· + 1)) s.kiln.temp
    volt := runOver (List.range 48) (fun i (t : Tab Nat) => t.modify 0 (32 * i + voltBin i (r.volt.getD i (s.volt i))) (· + 1)) s.kiln.volt } }

theorem exec_histogramMinute (r : Readings) {s : State} (runs : s.rst.ewethes = true) :
    exec (.histogramMinute r) s = .next (minuteCounted (minuteNext (s.advanceTo s.mgt.minuteDue)) r) := by
  change execHistogramMinute r s = _
  simp only [execHistogramMinute, runs, Bool.not_true, Bool.false_eq_true, if_false]
  rfl

theorem onlyIn_minuteNext (s : State) : OnlyIn [.mgt] s (minuteNext s) := onlyIn_mgt s _

theorem onlyIn_minuteCounted (s : State) (r : Readings) : OnlyIn [.kiln] s (minuteCounted s r) := onlyIn_kiln s _ rfl

theorem temp_minuteCounted (s : State) (r : Readings) {i : Nat} (small : i < 64) :
    (minuteCounted s r).kiln.temp.get 0 (32 * i + tempBin (r.thermal.getD i (s.thermal i))) =
      s.kiln.temp.get 0 (32 * i + tempBin (r.thermal.getD i (s.thermal i))) + 1 :=
  get_tally_range (key := fun i => 32 * i + tempBin (r.thermal.getD i (s.thermal i)))
    (fun _ _ => bin_row (Nat.min_le_left _ _) (Nat.min_le_left _ _)) s.kiln.temp small

theorem volt_minuteCounted (s : State) (r : Readings) {i : Nat} (small : i < 48) :
    (minuteCounted s r).kiln.volt.get 0 (32 * i + voltBin i (r.volt.getD i (s.volt i))) =
      s.kiln.volt.get 0 (32 * i + voltBin i (r.volt.getD i (s.volt i))) + 1 :=
  get_tally_range (key := fun i => 32 * i + voltBin i (r.volt.getD i (s.volt i)))
    (fun _ _ => bin_row (Nat.min_le_left _ _) (Nat.min_le_left _ _)) s.kiln.volt small

/-! Readings and the alarm (R470) -/

theorem get_storedReadings (v : List Int) (l : List Nat) (t : Tab Int) (i : Nat) :
    (runOver l (fun i (t : Tab Int) => t.set 100 i (v.getD i (t.get 100 i))) t).get 100 i =
      if i ∈ l then v.getD i (t.get 100 i) else t.get 100 i := by
  induction l generalizing t with
  | nil => rfl
  | cons a l ih =>
    refine (ih _).trans ?_
    by_cases same : i = a
    · subst same
      have again : v.getD i (v.getD i (t.get 100 i)) = v.getD i (t.get 100 i) := by
        simp only [List.getD_eq_getElem?_getD]
        cases v[i]? <;> rfl
      rw [Tab.get_set_same, again, ite_self, if_pos List.mem_cons_self]
    · rw [Tab.get_set_other _ _ _ same]
      simp only [List.mem_cons, same, false_or]

theorem thermal_readingsStored {s : State} {r : Readings} (whole : r.thermal.length = 64) {i : Nat} (small : i < 64) :
    (readingsStored s r).thermal i = r.thermal.getD i 0 := by
  refine (get_storedReadings r.thermal (List.range 64) s.mgt.thermal i).trans ?_
  rw [if_pos (List.mem_range.mpr small)]
  have listed : i < r.thermal.length := whole ▸ small
  simp [List.getD_eq_getElem?_getD, listed]

/-- The alarm is no part of the readings. -/
theorem thermal_alarmCheck (s : State) (sensors : List Nat) (i : Nat) : (s.alarmCheck sensors).thermal i = s.thermal i :=
  (congrArg (fun m => m.thermal.get 100 i) (alarmStep_alarmCheck s sensors).mgt :)

/-- A hot sensor among those that are looked at raises the alarm and its input. -/
theorem alarmCheck_hot {s : State} {sensors : List Nat} (off : s.mgt.alarm = false) (hot : ∃ i ∈ sensors, 400 ≤ s.thermal i) :
    (s.alarmCheck sensors).mgt.alarm = true ∧ ((s.alarmCheck sensors).intSrc 1284).input = true := by
  cases found : sensors.find? fun i => decide (400 ≤ s.thermal i) with
  | none =>
    obtain ⟨i, mem, high⟩ := hot
    exact absurd (decide_eq_true high) (List.find?_eq_none.mp found i mem)
  | some i =>
    rw [alarmCheck_rises off found]
    obtain ⟨input, -, -, -, only⟩ := levelInput_keeps (alarmLogged s i) (n := 1284) true (by decide) (by decide)
    refine ⟨?_, input⟩
    rw [only.mgt_eq, (onlyIn_alarmLogged s i).mgt_eq]
    rfl

/-! Health (R506) -/

/-- The next refresh is due 10 ms later, and no warning of the watchdog stands. -/
def healthDue (s : State) : State := { s with mgt := { s.mgt with healthAt := s.mgt.healthAt + 10 * msNs, warned := none } }

/-- The health bytes are those of now. -/
def healthStored (s : State) : State := { s with mgt := { s.mgt with health := s.healthBytes } }

theorem exec_healthRefresh (r : Readings) {s : State} (runs : s.rst.ewethes = true) :
    exec (.healthRefresh r) s = .next (healthStored ((healthDue (s.advanceTo s.mgt.healthAt)).sense r)) := by
  change execHealthRefresh r s = _
  simp only [execHealthRefresh, runs, Bool.not_true, Bool.false_eq_true, if_false]
  rfl

theorem health_healthStored (s : State) : (healthStored s).mgt.health = (healthStored s).healthBytes := rfl

theorem onlyIn_healthStored (s : State) : OnlyIn [.mgt] s (healthStored s) := onlyIn_mgt s _

theorem onlyIn_healthDue (s : State) : OnlyIn [.time, .mgt] s (healthDue (s.advanceTo s.mgt.healthAt)) :=
  (onlyIn_advanceTo s _).mono.trans (onlyIn_mgt _ _).mono

theorem healthRefresh_keeps {s t : State} {r : Readings} (whole : r.thermal.length = 64)
    (run : t = healthStored ((healthDue (s.advanceTo s.mgt.healthAt)).sense r) := by rfl) :
    (∀ i, i < 64 → t.thermal i = r.thermal.getD i 0) ∧
      (s.mgt.alarm = false → (∃ i, i < 64 ∧ 400 ≤ r.thermal.getD i 0) → t.mgt.alarm = true ∧ (t.intSrc 1284).input = true) ∧
      t.mgt.health = t.healthBytes ∧ t.mgt.warned = none ∧ t.mgt.healthAt = s.mgt.healthAt + 10000000 ∧
      OnlyIn [.time, .cntCfg, .cnts, .out, .eic, .flt, .kiln, .mgt] s t := by
  have due := onlyIn_healthDue s
  have off : (healthDue (s.advanceTo s.mgt.healthAt)).mgt.alarm = s.mgt.alarm := rfl
  have at_ : (healthDue (s.advanceTo s.mgt.healthAt)).mgt.healthAt = s.mgt.healthAt + 10000000 := rfl
  have quiet : (healthDue (s.advanceTo s.mgt.healthAt)).mgt.warned = none := rfl
  generalize healthDue (s.advanceTo s.mgt.healthAt) = u at run due off at_ quiet
  obtain ⟨-, -, -, -, next, warned, only⟩ := sense_keeps u r
  have read (i : Nat) (small : i < 64) : (u.sense r).thermal i = r.thermal.getD i 0 := by
    rw [sense_eq, thermal_alarmCheck]
    exact thermal_readingsStored whole small
  have alarm : s.mgt.alarm = false → (∃ i, i < 64 ∧ 400 ≤ r.thermal.getD i 0) →
      (u.sense r).mgt.alarm = true ∧ ((u.sense r).intSrc 1284).input = true := by
    rintro before ⟨i, small, high⟩
    rw [sense_eq]
    refine alarmCheck_hot (off.trans before) ⟨i, List.mem_range.mpr small, ?_⟩
    rw [thermal_readingsStored whole small]
    exact high
  subst run
  exact ⟨read, alarm, health_healthStored _, warned.trans quiet, next.trans at_,
    (due.mono.trans only.mono).trans (onlyIn_healthStored _).mono⟩

/-! Telemetry (R493) -/

/-- The snapshot is read, with the performance counters when they are asked for. -/
def snapshotRead (s : State) (c : Telemetry) (r : Readings) : State :=
  let s := (s.advanceTo c.due).sense r
  if c.counters then s.latchShadows else s

/-- The snapshot after this one. -/
def nextSnapshot (c : Telemetry) : Telemetry := { c with due := c.due + c.periodMs * msNs, seq := (c.seq + 1) % 2 ^ 32 }

/-- What a snapshot holds. -/
def snapshotBytes (s : State) (c : Telemetry) : Bytes :=
  s.sensorBytes c.seq s.now c.counters ++ zeros 3584 ++
    (if c.counters then bytesOver 4096 fun n => leBytes 8 (s.pmc.shadow.get 0 n) else zeros 32768)

/-- A snapshot goes to its buffer, and its record to the ring. -/
def snapshotPut (s : State) (c : Telemetry) : State :=
  let u := s.emit (.hostWrite (s.ringReq c.ring) (c.addr + c.seq % c.nbuf * 65536) (snapshotBytes s c))
  u.telemetryRecord c.ring c.seq (c.seq % c.nbuf) 1 0 0 u.now

theorem exec_telemetrySnapshot {c : Telemetry} (r : Readings) {s : State} (on : s.mgt.telemetry = some c)
    (runs : s.rst.ewethes = true) : exec (.telemetrySnapshot r) s =
      .next (snapshotPut (telemetrySet (snapshotRead s c r) (some (nextSnapshot c))) c) := by
  change execTelemetrySnapshot r s = _
  simp only [execTelemetrySnapshot, on, runs, Bool.not_true, Bool.false_eq_true, if_false, done, snapshotRead]
  generalize (if c.counters = true then ((s.advanceTo c.due).sense r).latchShadows else (s.advanceTo c.due).sense r) = u
  simp only [snapshotPut, snapshotBytes, telemetrySet, nextSnapshot]

theorem length_bytesOver {n k : Nat} {f : Nat → Bytes} (each : ∀ i, (f i).length = k) : (bytesOver n f).length = n * k := by
  simp [bytesOver, each]

theorem length_sensorBytes (s : State) (seq time : Nat) (counters : Bool) : (s.sensorBytes seq time counters).length = 512 := by
  have thermal := length_bytesOver (n := 64) (f := fun i => intBytes 2 (s.thermal i)) fun _ => leBytes_length _ _
  have volt := length_bytesOver (n := 48) (f := fun i => leBytes 2 (s.volt i)) fun _ => leBytes_length _ _
  have clock := length_bytesOver (n := 45) (f := fun i => leBytes 4 (s.clockKhz i)) fun _ => leBytes_length _ _
  have cones := length_bytesOver (n := 16) (f := fun i => intBytes 4 (s.kiln.coneDrift.get 0 i)) fun _ => leBytes_length _ _
  simp [State.sensorBytes, thermal, volt, clock, cones, zeros]

theorem length_snapshotBytes (s : State) (c : Telemetry) : (snapshotBytes s c).length = 36864 := by
  have counters : (if c.counters then bytesOver 4096 fun n => leBytes 8 (s.pmc.shadow.get 0 n) else zeros 32768).length = 32768 := by
    split
    · exact length_bytesOver fun _ => leBytes_length _ _
    · exact List.length_replicate ..
  rw [snapshotBytes, List.length_append, List.length_append, length_sensorBytes, counters, zeros, List.length_replicate]

theorem ringReq_other_fn (s : State) {r : Nat} (other : 3584 ≤ r) : s.ringReq r = .pf (ringFn r) := by
  by_cases pf1 : r < 3840
  · simp only [State.ringReq, ringFn, Nat.not_lt.mpr other, pf1, if_false, if_true]
  · simp only [State.ringReq, ringFn, Nat.not_lt.mpr other, pf1, if_false]

/-- The requester of a ring follows the groups of PF0's rings alone. -/
theorem ringReq_of_groups {s t : State} (same : ∀ j, j < 64 → t.reg .hifVfGroup 0 j = s.reg .hifVfGroup 0 j) (r : Nat) :
    t.ringReq r = s.ringReq r := by
  by_cases pf0 : r < 3584
  · have group : t.groupVf (r / 16) = s.groupVf (r / 16) := by
      simp only [State.groupVf, same (r / 16 / 4) (by omega)]
    simp only [State.ringReq, group]
  · rw [ringReq_other_fn t (Nat.not_lt.mp pf0), ringReq_other_fn s (Nat.not_lt.mp pf0)]

theorem OnlyIn.groups {ps : List Part} {s t : State} (h : OnlyIn ps s t) (hp : Part.regs ∉ ps := by decide) (j : Nat)
    (small : j < 64) : t.reg .hifVfGroup 0 j = s.reg .hifVfGroup 0 j := h .regs hp _ _ _ _ (not_inCntCfg_vfGroup small)

theorem groups_latchShadows (s : State) (j : Nat) (small : j < 64) :
    s.latchShadows.reg .hifVfGroup 0 j = s.reg .hifVfGroup 0 j := by
  rw [latchShadows_eq]
  refine (State.regOf_setRegOf_other _ ?_).trans (State.regOf_setRegOf_other _ ?_)
  all_goals
    simp only [RegName.key, RegName.addr, RegName.info, Bool.false_eq_true, if_false]
    omega

/-- What the reading of a snapshot may change. -/
abbrev snapshotParts : List Part := [.time, .regs, .cntCfg, .cnts, .out, .eic, .flt, .kiln, .mgt, .pmc]

theorem snapshotRead_keeps (s : State) (c : Telemetry) (r : Readings) : s.out <+: (snapshotRead s c r).out ∧
    (∀ k, (snapshotRead s c r).ringReq k = s.ringReq k) ∧ OnlyIn snapshotParts s (snapshotRead s c r) := by
  have wait := onlyIn_advanceTo s c.due
  obtain ⟨out, -, -, -, -, -, only⟩ := sense_keeps (s.advanceTo c.due) r
  have sensed : OnlyIn snapshotParts s ((s.advanceTo c.due).sense r) := wait.mono.trans only.mono
  have groups (j : Nat) (small : j < 64) : ((s.advanceTo c.due).sense r).reg .hifVfGroup 0 j = s.reg .hifVfGroup 0 j :=
    (only.groups (by decide) j small).trans (wait.groups (by decide) j small)
  rw [wait.out_eq] at out
  simp only [snapshotRead]
  split
  · have latch := onlyIn_latchShadows ((s.advanceTo c.due).sense r)
    refine ⟨?_, ringReq_of_groups fun j small => (groups_latchShadows _ j small).trans (groups j small), sensed.trans latch.mono⟩
    rw [latch.out_eq]
    exact out
  · exact ⟨out, ringReq_of_groups groups, sensed⟩

theorem telemetrySnapshot_keeps {c : Telemetry} (r : Readings) {s : State} (on : s.mgt.telemetry = some c)
    (runs : s.rst.ewethes = true) : ∃ t b, exec (.telemetrySnapshot r) s = .next t ∧
      t.mgt.telemetry = some (nextSnapshot c) ∧
      Emits s t (.hostWrite (s.ringReq c.ring) (c.addr + c.seq % c.nbuf * 65536) b) ∧ b.length = 36864 ∧
      OnlyIn [.time, .regs, .cntCfg, .cnts, .out, .hif, .eic, .flt, .kiln, .mgt, .pmc] s t := by
  have run := exec_telemetrySnapshot r on runs
  obtain ⟨out, req, read⟩ := snapshotRead_keeps s c r
  have set : OnlyIn [.mgt] (snapshotRead s c r) (telemetrySet (snapshotRead s c r) (some (nextSnapshot c))) := onlyIn_mgt _ _
  have next : (telemetrySet (snapshotRead s c r) (some (nextSnapshot c))).mgt.telemetry = some (nextSnapshot c) := rfl
  have request : (telemetrySet (snapshotRead s c r) (some (nextSnapshot c))).ringReq c.ring = s.ringReq c.ring := req c.ring
  have grown : s.out <+: (telemetrySet (snapshotRead s c r) (some (nextSnapshot c))).out := out
  generalize telemetrySet (snapshotRead s c r) (some (nextSnapshot c)) = u at run set next request grown
  have emit := onlyIn_emit u (.hostWrite (s.ringReq c.ring) (c.addr + c.seq % c.nbuf * 65536) (snapshotBytes u c))
  rw [snapshotPut, request] at run
  have record := onlyIn_writeRecord (u.emit (.hostWrite (s.ringReq c.ring) (c.addr + c.seq % c.nbuf * 65536) (snapshotBytes u c)))
    (ringFn c.ring) c.ring 0x0070
    (u.emit (.hostWrite (s.ringReq c.ring) (c.addr + c.seq % c.nbuf * 65536) (snapshotBytes u c))).now
    (leBytes 4 c.seq ++ leBytes 2 (c.seq % c.nbuf) ++ leBytes 1 1 ++ leBytes 1 0 ++ intBytes 4 0)
  refine ⟨_, _, run, ?_, .after_prefix grown (.of_emit (.refl u) (adds_writeRecord _ _ _ _ _ _)), length_snapshotBytes u c,
    ((read.mono.trans set.mono).trans emit.mono).trans record.mono⟩
  exact (congrArg Mgt.telemetry (record.mgt_eq.trans emit.mgt_eq)).trans next

/-! SMBus (R505, R506) -/

theorem mode_code_lt (m : Mode) : m.code < 8 := by cases m <;> decide

theorem byteAt_leBytes_one (v : Nat) (rest : Bytes) : byteAt (leBytes 1 v ++ rest) 0 = v % 256 := BitVec.toNat_ofNat v 8

/-- The four status bytes (Table 17.6). -/
def statusBytes (s : State) : Bytes :=
  leBytes 1 (boolBit s.flt.faultN * 64 + boolBit s.mode.alive * 32 + boolBit s.rst.recovery * 16
      + boolBit s.rst.stalled * 8 + s.mode.code)
    ++ leBytes 1 s.rst.lastPhase ++ leBytes 1 (min 8 (s.rst.restarts.countP fun t => s.now < t + 1000000000))
    ++ leBytes 1 s.rst.cause

theorem exec_smbusStatusRead {s : State} (ready : s.domain 1 = .ready) :
    exec .smbusStatusRead s = .next (outAfter s (.smbus (statusBytes s))) := by
  change execSmbusStatusRead s = _
  simp only [execSmbusStatusRead, ready, ne_eq, not_true_eq_false, if_false, emit_silent s (o := .smbus _) rfl]
  rfl

theorem statusBytes_keeps (s : State) : (statusBytes s).length = 4 ∧ byteAt (statusBytes s) 0 % 8 = s.mode.code ∧
    byteAt (statusBytes s) 3 = s.rst.cause % 256 := by
  refine ⟨rfl, ?_, BitVec.toNat_ofNat s.rst.cause 8⟩
  have first : byteAt (statusBytes s) 0 = (boolBit s.flt.faultN * 64 + boolBit s.mode.alive * 32 + boolBit s.rst.recovery * 16
      + boolBit s.rst.stalled * 8 + s.mode.code) % 256 := byteAt_leBytes_one _ _
  have code := mode_code_lt s.mode
  omega

theorem exec_smbusHealthRead {s : State} (runs : s.rst.ewethes = true) :
    exec .smbusHealthRead s = .next (outAfter s (.smbus (sliceOf s.mgt.health 0 6))) := by
  change execSmbusHealthRead s = _
  simp only [execSmbusHealthRead, runs, if_true, emit_silent s (o := .smbus _) rfl]

/-! A thermal sensor crosses a threshold (R470) -/

/-- Sensor k reads q. -/
def sensorAt (s : State) (k : Nat) (q : Int) : State := { s with mgt := { s.mgt with thermal := s.mgt.thermal.set 100 k q } }

theorem onlyIn_sensorAt (s : State) (k : Nat) (q : Int) : OnlyIn [.mgt] s (sensorAt s k q) := onlyIn_mgt s _

theorem thermal_sensorAt (s : State) (k : Nat) (q : Int) : (sensorAt s k q).thermal k = q := Tab.get_set_same _ _ _ _

theorem thermal_sensorAt_other (s : State) {k i : Nat} (q : Int) (other : i ≠ k) : (sensorAt s k q).thermal i = s.thermal i :=
  Tab.get_set_other _ _ _ other

theorem exec_thermalAlarm (k : Fin 64) (q : Int) (s : State) : exec (.thermalAlarm k q) s =
    .next ((if (List.range 64).all fun i => decide ((sensorAt s k q).thermal i < 388) then (sensorAt s k q).endLines [0x4F0]
      else sensorAt s k q).alarmCheck [k.val]) := rfl

theorem exec_thermalAlarm_hot {k : Fin 64} {q : Int} {s : State} (high : 400 ≤ q) :
    exec (.thermalAlarm k q) s = .next ((sensorAt s k q).alarmCheck [k.val]) := by
  have hot : ((List.range 64).all fun i => decide ((sensorAt s k q).thermal i < 388)) = false := by
    refine List.all_eq_false.mpr ⟨k.val, List.mem_range.mpr k.isLt, ?_⟩
    rw [thermal_sensorAt, decide_eq_true_eq]
    omega
  rw [exec_thermalAlarm, hot]
  rfl

theorem exec_thermalAlarm_cool {k : Fin 64} {q : Int} {s : State} (low : q < 388)
    (others : ∀ i, i < 64 → i ≠ k.val → s.thermal i < 388) :
    (∀ i, i < 64 → (sensorAt s k q).thermal i < 388) ∧
      exec (.thermalAlarm k q) s = .next (((sensorAt s k q).endLines [0x4F0]).alarmCheck [k.val]) := by
  have cool (i : Nat) (small : i < 64) : (sensorAt s k q).thermal i < 388 := by
    by_cases same : i = k.val
    · rw [same, thermal_sensorAt]
      exact low
    · rw [thermal_sensorAt_other s q same]
      exact others i small same
  have all : ((List.range 64).all fun i => decide ((sensorAt s k q).thermal i < 388)) = true :=
    List.all_eq_true.mpr fun i mem => decide_eq_true (cool i (List.mem_range.mp mem))
  refine ⟨cool, ?_⟩
  rw [exec_thermalAlarm, all]
  rfl

/-- A sensor at 100 °C raises the alarm. -/
theorem thermalAlarm_rises {k : Fin 64} {q : Int} {s : State} (off : s.mgt.alarm = false) (high : 400 ≤ q) :
    ∃ t, exec (.thermalAlarm k q) s = .next t ∧ t.mgt.alarm = true ∧ t.thermal k = q ∧ (t.intSrc 1284).input = true ∧
      OnlyIn [.eic, .kiln, .mgt] s t := by
  have off' : (sensorAt s k q).mgt.alarm = false := off
  have hot : 400 ≤ (sensorAt s k q).thermal k := by
    rw [thermal_sensorAt]
    exact high
  obtain ⟨alarm, input⟩ := alarmCheck_hot (sensors := [k.val]) off' ⟨k.val, List.mem_singleton_self _, hot⟩
  refine ⟨_, exec_thermalAlarm_hot high, alarm, (thermal_alarmCheck _ _ _).trans (thermal_sensorAt s k q), input, ?_⟩
  have found : ([k.val].find? fun i => decide (400 ≤ (sensorAt s k q).thermal i)) = some k.val := by
    simp [hot]
  rw [alarmCheck_rises off' found]
  have rises : OnlyIn [.eic] (alarmLogged (sensorAt s k q) k) ((alarmLogged (sensorAt s k q) k).levelInput 1284 true) := by
    rw [State.levelInput, if_pos rfl]
    exact onlyIn_setPendingWith _ _ _
  exact (((onlyIn_sensorAt s k q).mono.trans (onlyIn_alarmAt _ true).mono).trans (onlyIn_alarmLogged _ _).mono).trans rises.mono

/-- With every sensor below 97 °C the alarm and the thermal critical line fall. -/
theorem thermalAlarm_falls {k : Fin 64} {q : Int} {s : State} (on : s.mgt.alarm = true) (low : q < 388)
    (others : ∀ i, i < 64 → i ≠ k.val → s.thermal i < 388) :
    ∃ t, exec (.thermalAlarm k q) s = .next t ∧ t.mgt.alarm = false ∧ t.thermal k = q ∧ (t.intSrc 1284).input = false ∧
      0x4F0 ∉ t.flt.lines ∧ OnlyIn [.cntCfg, .cnts, .out, .eic, .flt, .kiln, .mgt] s t := by
  obtain ⟨cool, run⟩ := exec_thermalAlarm_cool low others
  have on' : ((sensorAt s k q).endLines [0x4F0]).mgt.alarm = true := on
  have cool' : ∀ i, i < 64 → ((sensorAt s k q).endLines [0x4F0]).thermal i < 388 := cool
  refine ⟨_, run, ?_, (thermal_alarmCheck _ _ _).trans (thermal_sensorAt s k q), ?_, ?_, ?_⟩
  all_goals
    rw [alarmCheck_falls on' cool']
    obtain ⟨input, -, -, -, only⟩ := levelInput_keeps (alarmAt ((sensorAt s k q).endLines [0x4F0]) false) (n := 1284) false
      (by decide) (by decide)
  · rw [only.mgt_eq]
    rfl
  · exact input
  · rw [only.flt_eq]
    refine fun mem => absurd (List.mem_filter.mp mem).2 ?_
    decide
  · exact (((onlyIn_sensorAt s k q).mono.trans (onlyIn_flt _ _).mono).trans (onlyIn_alarmAt _ false).mono).trans only.mono

/-- Settles O53. -/
theorem kilnRecordAndHealth : Obligations.KilnRecordAndHealth := by
  refine ⟨fun cones eyes s runs short => ⟨_, exec_kilnCommit cones eyes runs, kilnCommit_keeps cones eyes short rfl⟩,
    fun s runs full => ?_, fun failing s runs full fails sound room => ?_, fun r s runs => ?_, fun r s runs whole => ?_,
    fun c r s on runs => telemetrySnapshot_keeps r on runs, fun s ready => ?_, fun s runs => exec_smbusHealthRead runs,
    fun k q s off high => thermalAlarm_rises off high, fun k q s on low others => thermalAlarm_falls on low others⟩
  · exact ⟨_, exec_kilnLogPageWrite runs full, logPageWrite_keeps full⟩
  · obtain ⟨kiln, wait⟩ := earlyTime_keeps s
    have some : (earlyTime s).kiln.buffer ≠ [] := by
      rw [kiln]
      exact List.ne_nil_of_length_pos (by omega : 0 < s.kiln.buffer.length)
    obtain ⟨skipped, among, ⟨e, entry, type, named⟩, page⟩ := writeLogPage_fails (failing := failing) some
      (by rw [kiln]; exact fails) (by rw [kiln]; exact sound) (by rw [kiln]; exact room)
    rw [kiln] at skipped entry named
    exact ⟨_, e, exec_kilnLogPageWrite runs full, skipped, among, entry, type, named,
      (wait.mono.trans page.mono).trans (onlyIn_earlyNoted _).mono⟩
  · have next := onlyIn_minuteNext (s.advanceTo s.mgt.minuteDue)
    have only := onlyIn_minuteCounted (minuteNext (s.advanceTo s.mgt.minuteDue)) r
    exact ⟨_, exec_histogramMinute r runs, fun i small => temp_minuteCounted _ r small,
      fun i small => volt_minuteCounted _ r small, rfl, ((onlyIn_advanceTo s _).mono.trans next.mono).trans only.mono⟩
  · exact ⟨_, exec_healthRefresh r runs, healthRefresh_keeps whole⟩
  · obtain ⟨length, code, cause⟩ := statusBytes_keeps s
    exact ⟨_, _, exec_smbusStatusRead ready, rfl, length, code, cause, onlyIn_out s _⟩

end Sys2Proof.Claims

/-! SUPPORT, and O54: the mode commands, the way out of SAFE and the per-block resets (R437, R460, R511 to R518). -/

namespace Sys2Proof.Claims

open Sys2Proof.Machine

set_option Elab.async false

/-! FORWARD, DRAIN and STANDBY (R513 to R515) -/

/-- Taking a pin counts a request that waits, and does no more to the counters. -/
theorem onlyIn_prefetch_quiet (s : State) (i r : Nat) : OnlyIn (.cnts :: cacheParts) s (s.prefetch i r) := by
  simp only [State.prefetch]
  split
  · next t pinned => exact (onlyIn_pinRequest pinned).mono
  · exact (onlyIn_setCacheWait _ _ _).mono.trans (onlyIn_bumpBy _ _ _).mono

theorem onlyIn_resumeProfile (s : State) (c : Nat) : OnlyIn (.cnts :: cacheParts) s (s.resumeProfile c) := by
  simp only [State.resumeProfile]
  split
  · exact .refl _ s
  · next p _ =>
    have due : OnlyIn (.cnts :: cacheParts) s (if p.due < s.now then s.setCps c (some { p with due := s.now }) else s) := by
      split
      · exact (onlyIn_setCps _ _ _).mono
      · exact .refl _ s
    generalize (if p.due < s.now then s.setCps c (some { p with due := s.now }) else s) = u at due ⊢
    split
    · split
      · exact due
      · exact due.trans (onlyIn_prefetch_quiet _ _ _)
    · exact due

/-- The device is in FORWARD, and the profiles go on. -/
def forwarding (s : State) : State :=
  runOver s.cps.keys (fun c (s : State) => s.resumeProfile c) { s with mode := .forward }

theorem forwarding_keeps (s : State) : (forwarding s).mode = .forward ∧ OnlyIn (.mode :: .cnts :: cacheParts) s (forwarding s) := by
  have resume : OnlyIn (.cnts :: cacheParts) { s with mode := .forward } (forwarding s) :=
    .runOver (fun c s => onlyIn_resumeProfile s c) _ _
  exact ⟨resume.mode_eq, (onlyIn_mode s .forward).mono.trans resume.mono⟩

theorem exec_forward {r : Ring} {d : Bytes} {s : State} (h : Executing s r 0x0080 d) (config : s.mode = .config)
    (ready : s.parseReady = true) : exec (.forward r) s = .next ((forwarding s).complete r .ok) := by
  refine congrArg Host.Outcome.next ((h.command _).trans ?_)
  simp only [config, ready, ne_eq, not_true_eq_false, if_false, Bool.not_true, Bool.false_eq_true]
  rfl

theorem exec_drain {r : Ring} {d : Bytes} {s : State} (h : Executing s r 0x0081 d) (forward : s.mode = .forward) :
    exec (.drain r) s = .next (({ s with mode := .drain } : State).complete r .ok) := by
  refine congrArg Host.Outcome.next ((h.command _).trans ?_)
  simp only [forward, ne_eq, not_true_eq_false, if_false]

/-- Every port that is enabled is disabled. -/
def portsDown (s : State) : State :=
  runOver ((List.range 128).filter fun p => (s.port p).link ≠ .disabled) (fun p s => s.disablePort p) s

theorem disablePort_link_other (s : State) {p q : Nat} (down : (s.port q).link = .disabled) :
    ((s.disablePort p).port q).link = .disabled := by
  by_cases same : q = p
  · rw [same]
    exact disablePort_link s p
  · obtain ⟨u, before, steps⟩ := disablePort_steps s p
    rw [steps]
    have flush := onlyIn_flushPort (u.setPort p { u.port p with link := .disabled, holdEnd := 0, pcsLock := false }) p false
    rw [(flush .links (by decide) q).1, State.port_setPort, if_neg same, (before .links (by decide) q).1]
    exact down

theorem portsDown_links (s : State) {p : Nat} (port : p < 128) : ((portsDown s).port p).link = .disabled := by
  have down : ∀ (l : List Nat) (s : State), (p ∈ l ∨ (s.port p).link = .disabled) →
      ((runOver l (fun p s => s.disablePort p) s).port p).link = .disabled := by
    intro l
    induction l with
    | nil => exact fun s h => h.resolve_left List.not_mem_nil
    | cons a l ih =>
      intro s h
      refine ih (s.disablePort a) ?_
      by_cases here : p = a
      · exact .inr (here ▸ disablePort_link s p)
      · exact h.imp (fun mem => (List.mem_cons.mp mem).resolve_left here) (disablePort_link_other s)
  refine down _ s ?_
  by_cases off : (s.port p).link = .disabled
  · exact .inr off
  · exact .inl (List.mem_filter.mpr ⟨List.mem_range.mpr port, by simpa using off⟩)

theorem onlyIn_portsDown (s : State) : OnlyIn portParts s (portsDown s) := .runOver (fun p s => onlyIn_disablePort s p) _ _

/-- The device is in STANDBY, its transmit state saved and the monitors of what loses power masked. -/
def atRest (s : State) : State :=
  { s with mode := .standby, rst := { s.rst with
      saved := true, standbyAt := s.now, unmasked := s.rst.unmasked.filter fun m => !standbyMasked m } }

theorem onlyIn_atRest (s : State) : OnlyIn [.mode, .rst] s (atRest s) :=
  (onlyIn_mode s .standby).mono.trans (onlyIn_rst { s with mode := .standby } _).mono

theorem exec_standby {r : Ring} {d : Bytes} {s : State} (h : Executing s r 0x0082 d) (config : s.mode = .config) :
    exec (.standby r) s = .next ((atRest (portsDown s)).complete r .ok) := by
  refine congrArg Host.Outcome.next ((h.command _).trans ?_)
  simp only [config, ne_eq, not_true_eq_false, if_false]
  rfl

/-! Waking (R460, R515) -/

/-- Power and the transmit state are back. -/
def powered (s : State) : State :=
  let d := s.now - s.rst.standbyAt
  { s with
    mode := .config
    tabs := { s.tabs with ageStart := s.tabs.ageStart + d, proofStart := s.tabs.proofStart + d, scrubStart := runOver (List.range 4) (fun q (t : Tab Nat) => t.modify 0 q (· + d)) s.tabs.scrubStart }
    hbm := { s.hbm with trained := runOver (List.range 128) (fun pc (t : Tab Nat) => t.set 0 pc (s.lastTrained pc + d)) s.hbm.trained }
    rst := { s.rst with
      saved := false
      readyAt := runOver [6, 7, 8] (fun k (t : Tab Nat) => t.set 0 k s.now) s.rst.readyAt } }

theorem onlyIn_powered (s : State) : OnlyIn [.mode, .tabs, .hbm, .rst] s (powered s) := by
  intro p hp
  have same := SamePart.refl s p
  cases p
  case mode | tabs | hbm | rst => exact absurd (by decide) hp
  all_goals exact same

/-- The enabled ports train. -/
def portsTraining (s : State) : State :=
  runOver ((List.range 128).filter fun p => s.bit .prtCfg p 0 0) (fun p s => s.setPort p { s.port p with link := .training }) s

theorem wake_eq (s : State) : s.wake = portsTraining (powered s) := rfl

theorem portsTraining_links (s : State) {p : Nat} (port : p < 128) (on : s.bit .prtCfg p 0 0 = true) :
    ((portsTraining s).port p).link = .training := by
  have train : ∀ (l : List Nat) (s : State), (p ∈ l ∨ (s.port p).link = .training) →
      ((runOver l (fun p s => s.setPort p { s.port p with link := .training }) s).port p).link = .training := by
    intro l
    induction l with
    | nil => exact fun s h => h.resolve_left List.not_mem_nil
    | cons a l ih =>
      intro s h
      refine ih _ ?_
      rw [State.port_setPort]
      by_cases here : p = a
      · rw [if_pos here]
        exact .inr rfl
      · rw [if_neg here]
        exact h.imp_left fun mem => (List.mem_cons.mp mem).resolve_left here
  exact train _ s (.inl (List.mem_filter.mpr ⟨List.mem_range.mpr port, on⟩))

/-- The same frames, another link. -/
theorem onlyIn_setPort_links (s : State) (p : Nat) (x : PortState) (lane : sameLane (s.port p) x) :
    OnlyIn [.eic, .links] s (s.setPort p x) := by
  intro q hq
  by_cases lanes : q = .lanes
  · subst lanes
    intro k
    rw [State.port_setPort]
    by_cases here : k = p
    · rw [if_pos here, here]
      exact lane
    · rw [if_neg here]
      exact ⟨rfl, rfl, rfl, rfl⟩
  · refine onlyIn_setPort s p x q fun mem => ?_
    simp only [List.mem_cons, List.not_mem_nil, or_false] at mem hq
    tauto

theorem onlyIn_portsTraining (s : State) : OnlyIn [.eic, .links] s (portsTraining s) :=
  .runOver (fun p s => onlyIn_setPort_links s p { s.port p with link := .training } ⟨rfl, rfl, rfl, rfl⟩) _ _

/-- The cores that stand to be woken are. -/
def coresWoken (s : State) : State := runOver s.wokenCores (fun c s => s.emit (.coreWake c)) s

theorem emits_coreWake (l : List Nat) (s : State) {c : Nat} (mem : c ∈ l) :
    Emits s (runOver l (fun c s => s.emit (.coreWake c)) s) (.coreWake c) := by
  induction l generalizing s with
  | nil => exact absurd mem List.not_mem_nil
  | cons a l ih =>
    have rest : Adds (s.emit (.coreWake a)) (runOver l (fun c s => s.emit (.coreWake c)) (s.emit (.coreWake a))) :=
      .runOver (fun c s => adds_emit s (.coreWake c)) _ _
    rcases List.mem_cons.mp mem with rfl | later
    · exact .of_emit (.refl s) rest
    · exact .before (adds_emit s (.coreWake a)) (ih _ later)

theorem mem_wokenCores {s : State} {n : Nat} (listed : n ∈ s.eic.src.keys) (wakes : s.wakes n = true) (core : s.srcTarget n = 0) :
    0 ∈ s.wokenCores := by
  obtain ⟨cell, mem, key⟩ := List.mem_map.mp listed
  refine List.mem_filter.mpr ⟨List.mem_range.mpr (by decide), List.any_eq_true.mpr ⟨cell, mem, ?_⟩⟩
  simp [key, wakes, State.wokenBy, core]

theorem onlyIn_coresWoken (s : State) : OnlyIn [.out, .cnts, .cntCfg] s (coresWoken s) :=
  .runOver (fun c s => onlyIn_emit s (.coreWake c)) _ _

theorem exec_standbyWake {s : State} (rests : s.mode = .standby) (source : s.wakeSource = true) :
    exec .standbyWake s = .next (portsTraining (powered (coresWoken s))) := by
  change execStandbyWake s = _
  simp only [execStandbyWake, rests, source, decide_true, Bool.and_self, if_true, wake_eq]
  rfl

/-! The way out of SAFE (R379, R437) -/

/-- The half of the exit is staged for 10 s. -/
def exitStaged (s : State) : State := { s with rst := { s.rst with safeStaged := s.now + 10000 * msNs } }

theorem exec_safeExit {r : Ring} {d : Bytes} {s : State} (h : Executing s r 0x0083 d) (safe : s.mode = .safe) :
    exec (.safeExit r) s = .next (exitStaged (s.complete r .ok)) := by
  refine congrArg Host.Outcome.next ((h.command _).trans ?_)
  simp only [safe, ne_eq, not_true_eq_false, if_false]
  rfl

/-- Nothing of the exit is staged. -/
def exitUnstaged (s : State) : State := { s with rst := { s.rst with safeStaged := 0 } }

theorem exec_safeExitLapse {s : State} (staged : s.rst.safeStaged ≠ 0) :
    exec .safeExitLapse s = .next (exitUnstaged (s.advanceTo s.rst.safeStaged)) := by
  change execSafeExitLapse s = _
  simp only [execSafeExitLapse, staged, if_false]
  rfl

/-- The cause is cleared and the transmitters are released. -/
def released (s : State) : State :=
  { s with
    mode := .config
    rst := { s.rst with safeStaged := 0 }
    flt := { s.flt with critV := false, critSource := 0, critCount := 0, squelch := false, faultN := false } }

/-- SAFE is left and no line is asserted. -/
def safeLeft (s : State) : State := { s.leaveSafe with flt := { s.leaveSafe.flt with lines := [] } }

theorem onlyIn_released (s : State) : OnlyIn [.mode, .flt, .rst] s (released s) :=
  ((onlyIn_mode s .config).mono.trans (onlyIn_rst { s with mode := .config } { s.rst with safeStaged := 0 }).mono).trans
    (onlyIn_flt _ _).mono

theorem onlyIn_leaveSafe (s : State) : OnlyIn (.kiln :: recordParts) (released s) s.leaveSafe :=
  (onlyIn_faultRecord (released s) { source := s.flt.critSource, reason := .safeLeft, time := s.now }).mono.trans
    (onlyIn_kilnLog _ _ _ _).mono

theorem onlyIn_confirmTrial_boot (s : State) : OnlyIn [.mgt] s s.confirmTrial := by
  simp only [State.confirmTrial]
  split
  · exact onlyIn_setBoot _ _
  · exact .refl _ s

theorem exec_safeExitConfirm {r : Ring} {d : Bytes} {s : State} (h : Executing s r 0x0066 d) (safe : s.mode = .safe)
    (staged : s.now < s.rst.safeStaged) (clear : ∀ n ∈ s.flt.lines, sourceKind n = .critical → measuredLine n = true) :
    exec (.safeExitConfirm r []) s = .next ((safeLeft s).confirmTrial.complete r .ok) := by
  have some : s.rst.safeStaged ≠ 0 := Nat.ne_of_gt (Nat.zero_lt_of_lt staged)
  have still : ((List.range 0x500).filter fun n => decide (sourceKind n = .critical) &&
      (if measuredLine n then ([] : List Nat).contains n else s.flt.lines.contains n)) = [] := by
    refine List.filter_eq_nil_iff.mpr fun n _ bad => ?_
    obtain ⟨kind, asserted⟩ := Bool.and_eq_true_iff.mp bad
    by_cases measured : measuredLine n = true
    · simp [measured] at asserted
    · rw [if_neg measured] at asserted
      exact measured (clear n (List.contains_iff_mem.mp asserted) (of_decide_eq_true kind))
  refine congrArg Host.Outcome.next ((h.command _).trans ?_)
  simp only [safe, some, Nat.not_le.mpr staged, ne_eq, not_true_eq_false, if_false, decide_false, Bool.or_self, Bool.false_eq_true]
  simp only [still, List.isEmpty_nil, if_true, critical_none]
  rfl

theorem safeLeft_keeps (s : State) : AlarmStands { released s with flt := { (released s).flt with lines := [] } } (safeLeft s) ∧
    (safeLeft s).rst.safeStaged = 0 ∧ OnlyIn (.mode :: .rst :: faultParts) s (safeLeft s) := by
  have left := onlyIn_leaveSafe s
  have flt : s.leaveSafe.flt = (released s).flt := left.flt_eq
  have rst : s.leaveSafe.rst = (released s).rst := left .rst (by decide)
  refine ⟨⟨left.mode_eq, ?_⟩, congrArg ResetCtl.safeStaged rst,
    ((onlyIn_released s).mono.trans left.mono).trans (onlyIn_flt s.leaveSafe _).mono⟩
  simp only [safeLeft, flt]
  rfl

/-! Per-block resets (R517, R518) -/

/-- The word of RST_BLK_PORT or RST_BLK_SLICE that shows n blocks from `base` on. -/
def blockWord (blocks : List Nat) (base n : Nat) : Nat :=
  (List.range n).foldl (fun v k => if blocks.contains (base + k) then v + 2 ^ k else v) 0

theorem blockWord_lt (blocks : List Nat) (base n : Nat) : blockWord blocks base n < 2 ^ n := by
  induction n with
  | zero => exact Nat.one_pos
  | succ n ih =>
    simp only [blockWord, List.range_succ, List.foldl_append, List.foldl_cons, List.foldl_nil] at ih ⊢
    split <;> omega

theorem testBit_blockWord (blocks : List Nat) (base : Nat) {n k : Nat} (small : k < n) :
    (blockWord blocks base n).testBit k = blocks.contains (base + k) := by
  induction n with
  | zero => exact absurd small (Nat.not_lt_zero k)
  | succ n ih =>
    have step : blockWord blocks base (n + 1) =
        if blocks.contains (base + n) then blockWord blocks base n + 2 ^ n else blockWord blocks base n := by
      simp only [blockWord, List.range_succ, List.foldl_append, List.foldl_cons, List.foldl_nil]
    rw [step]
    rcases Nat.lt_succ_iff_lt_or_eq.mp small with below | rfl
    · split
      · rw [Nat.add_comm, Nat.testBit_two_pow_add_gt below]
        exact ih below
      · exact ih below
    · have top := Nat.testBit_lt_two_pow (blockWord_lt blocks base k)
      split
      · next held => rw [Nat.add_comm, Nat.testBit_two_pow_add_eq, top, held, Bool.not_false]
      · next free => rw [top, Bool.not_eq_true _ |>.mp free]

/-- The words of RST_BLK_PORT show the ports that are being reset. -/
def portsShown (s : State) (l : List Nat) : State :=
  runOver l (fun k t => t.setReg .rstBlkPort 0 k (blockWord s.rst.blocks (32 * k) 32)) s

theorem showBlocks_eq (s : State) : s.showBlocks =
    (portsShown s (List.range 4)).setReg .rstBlkSlice 0 0 (blockWord s.rst.blocks 128 16) := by
  simp only [State.showBlocks, portsShown, blockWord]

theorem blockRegs_not_inCntCfg {k : Nat} (small : k < 4) : ¬ inCntCfg (RegName.key .rstBlkPort 0 0 k) ∧
    ¬ inCntCfg (RegName.key .rstBlkSlice 0 0 0) := by
  simp only [inCntCfg, RegName.key, RegName.addr, RegName.info, Bool.false_eq_true, if_false]
  omega

theorem onlyIn_showBlocks (s : State) : OnlyIn [.regs] s s.showBlocks := by
  rw [showBlocks_eq]
  refine OnlyIn.trans (OnlyIn.runOver' (fun k mem t => ?_) s)
    (onlyIn_setRegOf_plain _ _ _ _ _ _ (blockRegs_not_inCntCfg (k := 0) (by decide)).2)
  exact onlyIn_setRegOf_plain _ _ _ _ _ _ (blockRegs_not_inCntCfg (List.mem_range.mp mem)).1

theorem reg_setPorts (w : Nat → Nat) (l : List Nat) (t : State) (k : Nat) :
    (runOver l (fun k t => t.setReg .rstBlkPort 0 k (w k)) t).reg .rstBlkPort 0 k = if k ∈ l then w k else t.reg .rstBlkPort 0 k := by
  induction l generalizing t with
  | nil => rfl
  | cons a l ih =>
    refine (ih _).trans ?_
    by_cases here : k = a
    · subst here
      rw [State.reg_setReg, ite_self, if_pos List.mem_cons_self]
    · have other : (t.setReg .rstBlkPort 0 a (w a)).reg .rstBlkPort 0 k = t.reg .rstBlkPort 0 k := by
        refine State.regOf_setRegOf_other _ ?_
        simp only [RegName.key, RegName.addr, RegName.info]
        omega
      simp only [other, List.mem_cons, here, false_or]

theorem bit_showBlocks_port (s : State) {n k : Nat} (word : n < 4) (small : k < 32) :
    s.showBlocks.bit .rstBlkPort 0 n k = s.rst.blocks.contains (32 * n + k) := by
  have slice : s.showBlocks.reg .rstBlkPort 0 n = (portsShown s (List.range 4)).reg .rstBlkPort 0 n := by
    rw [showBlocks_eq]
    refine State.regOf_setRegOf_other _ ?_
    simp only [RegName.key, RegName.addr, RegName.info, Bool.false_eq_true, if_false]
    omega
  rw [State.bit, slice, portsShown, reg_setPorts, if_pos (List.mem_range.mpr word)]
  exact testBit_blockWord _ _ small

theorem bit_showBlocks_slice (s : State) {k : Nat} (small : k < 16) :
    s.showBlocks.bit .rstBlkSlice 0 0 k = s.rst.blocks.contains (128 + k) := by
  rw [State.bit, showBlocks_eq, State.reg_setReg]
  exact testBit_blockWord _ _ small

/-- The blocks that a value with one bit set names. -/
theorem asked_one (base : Nat) {n k : Nat} (small : k < n) :
    ((List.range n).filter (2 ^ k).testBit).map (base + ·) = [base + k] := by
  have bits : (2 ^ k).testBit = fun j => j == k := by
    funext j
    rw [Nat.testBit_two_pow]
    by_cases same : k = j
    · simp [same]
    · simp [same, Ne.symm same]
  rw [bits, List.filter_beq, List.count_eq_one_of_mem List.nodup_range (List.mem_range.mpr small)]
  rfl

/-- The block's reset has begun. -/
def blockStarted (s : State) (b : Nat) : State := { s with rst := { s.rst with blocks := s.rst.blocks ++ [b] } }

theorem resetBlocks_idle {s : State} {base n k : Nat} (small : k < n) (running : s.mode = .config ∨ s.mode = .forward ∨ s.mode = .drain)
    (idle : s.blockIdle (base + k) = true) (free : base + k ∉ s.rst.blocks) (f : Fn) (addr : Nat) :
    s.resetBlocks f addr base n (2 ^ k) = (blockStarted s (base + k)).showBlocks := by
  have mode : (decide (s.mode = .config) || decide (s.mode = .forward) || decide (s.mode = .drain)) = true := by
    rcases running with m | m | m <;> simp [m]
  have fresh : s.rst.blocks.contains (base + k) = false := by simpa using free
  simp only [State.resetBlocks, asked_one base small, mode, List.filter_cons, List.filter_nil, List.any_cons, List.any_nil, idle,
    fresh, Bool.and_self, Bool.not_true, Bool.not_false, Bool.or_self, Bool.false_eq_true, if_false, if_true]
  rfl

theorem resetBlocks_busy {s : State} {base n k : Nat} (small : k < n) (busy : s.blockIdle (base + k) = false) (f : Fn) (addr : Nat) :
    (s.resetBlocks f addr base n (2 ^ k)).rst.blocks = s.rst.blocks := by
  simp only [State.resetBlocks, asked_one base small, List.filter_cons, List.filter_nil, List.any_cons, List.any_nil, busy,
    Bool.and_false, Bool.false_and, Bool.not_false, Bool.or_false, Bool.false_eq_true, if_false, if_true, List.append_nil]
  refine (congrArg ResetCtl.blocks (onlyIn_showBlocks _ .rst (by decide))).trans ?_
  exact congrArg ResetCtl.blocks (onlyIn_configError s f addr .rst (by decide))

theorem onlyIn_blockStarted (s : State) (b : Nat) : OnlyIn [.rst] s (blockStarted s b) := onlyIn_rst s _

theorem toNat_twoPow {k : Nat} (small : k < 32) : (BitVec.ofNat 32 (2 ^ k)).toNat = 2 ^ k := by
  rw [BitVec.toNat_ofNat, Nat.mod_eq_of_lt (Nat.pow_lt_pow_right (by decide) small)]

theorem exec_rstBlkPort_one {n : Fin 4} {k : Fin 32} {s : State} (up : s.reachable .rstBlkPort = true) :
    exec (.rstBlkPort .pf0 n (BitVec.ofNat 32 (2 ^ k.val))) s =
      .next (s.resetBlocks .pf0 (RegName.rstBlkPort.addr 0 n) (32 * n.val) 32 (2 ^ k.val)) := by
  refine congrArg Host.Outcome.next ((rowWrite_of_role up rfl 0 n _).trans ?_)
  rw [toNat_twoPow k.isLt]

theorem exec_rstBlkSlice_one {k : Slice} {s : State} (up : s.reachable .rstBlkSlice = true) :
    exec (.rstBlkSlice .pf0 (BitVec.ofNat 32 (2 ^ k.val))) s =
      .next (s.resetBlocks .pf0 (RegName.rstBlkSlice.addr 0 0) 128 16 (2 ^ k.val)) := by
  refine congrArg Host.Outcome.next ((rowWrite_of_role up rfl 0 0 _).trans ?_)
  rw [toNat_twoPow (Nat.lt_trans k.isLt (by decide))]

/-- The block's reset has ended. -/
def blockEnded (s : State) (b : Nat) : State :=
  { s with rst := { s.rst with blocks := s.rst.blocks.filter (· ≠ b), cause := 6 } }

/-- A reset of cause 6 is logged while Ewethes runs. -/
def blockLogged (s : State) : State := if s.rst.ewethes then s.logReset 6 s.mode.code s.rst.loadRestarts else s

theorem onlyIn_logReset (s : State) (cause before restarts : Nat) : OnlyIn [.kiln] s (s.logReset cause before restarts) :=
  (onlyIn_kiln s { s.kiln with resets := s.kiln.resets.modify 0 cause (· + 1) } rfl).trans (onlyIn_kilnLog _ _ _ _)

theorem onlyIn_blockLogged (s : State) : OnlyIn [.kiln] s (blockLogged s) := by
  simp only [blockLogged]
  split
  · exact onlyIn_logReset _ _ _ _
  · exact .refl _ s

theorem blockEnded_shown (s : State) (b : Nat) : b ∉ (blockEnded s b).showBlocks.rst.blocks ∧
    OnlyIn [.regs, .rst] s (blockEnded s b).showBlocks := by
  have shown := onlyIn_showBlocks (blockEnded s b)
  refine ⟨?_, (onlyIn_rst s _).mono.trans shown.mono⟩
  rw [shown .rst (by decide)]
  exact fun mem => absurd rfl (of_decide_eq_true (List.mem_filter.mp mem).2)

theorem exec_blockResetDone_port {p : Port} {s : State} (resets : p.val ∈ s.rst.blocks) : exec (.blockResetDone (.port p)) s =
    .next (blockLogged ((blockEnded s p).showBlocks.setPort p { (blockEnded s p).showBlocks.port p with pcsLock := false })) := by
  have held : s.rst.blocks.contains p.val = true := List.contains_iff_mem.mpr resets
  change execBlockResetDone (.port p) s = _
  simp only [execBlockResetDone, held, Bool.not_true, Bool.false_eq_true, if_false]
  rfl

theorem exec_blockResetDone_slice {i : Slice} {s : State} (resets : 128 + i.val ∈ s.rst.blocks) :
    exec (.blockResetDone (.slice i)) s = .next (blockLogged ((blockEnded s (128 + i.val)).showBlocks.clearSlice i)) := by
  have held : s.rst.blocks.contains (128 + i.val) = true := List.contains_iff_mem.mpr resets
  change execBlockResetDone (.slice i) s = _
  simp only [execBlockResetDone, held, Bool.not_true, Bool.false_eq_true, if_false]
  rfl

/-- A port's lock alone. -/
theorem onlyIn_setPort_lock (s : State) (p : Nat) (lock : Bool) :
    OnlyIn [.links] s (s.setPort p { s.port p with pcsLock := lock }) := by
  have still : (s.prt.get {} p).link = (s.port p).link := rfl
  simp only [State.setPort, still, if_true]
  intro q hq
  have same := SamePart.refl s q
  cases q
  case links => exact absurd List.mem_cons_self hq
  case lanes =>
    intro k
    simp only [State.port, Tab.get_set]
    split
    · next here => exact here ▸ ⟨rfl, rfl, rfl, rfl⟩
    · exact ⟨rfl, rfl, rfl, rfl⟩
  all_goals exact same

/-- The profiles whose circuit leaves through slice i. -/
def sliceProfiles (s : State) (i : Nat) : List Nat :=
  s.cps.keys.filter fun c => (s.cirAt c s.gen.current).any fun v => v.port / 8 = i

/-- The volatile state of slice i is that of reset, and its profiles hold no pin. -/
def sliceCleared (s : State) (i : Nat) : State :=
  { s with
    cnts := s.cnts.keep fun k => !sliceCounter i k
    latches := s.latches.keep fun k => !sliceCounter i k
    tabs := { s.tabs with punts := s.tabs.punts.keep fun k => k / 32 ≠ i }
    sampBkt := s.sampBkt.keep (· ≠ i), sampLfsr := s.sampLfsr.keep (· ≠ i), sampSeq := s.sampSeq.keep (· ≠ i)
    fab := { s.fab with notReady := s.fab.notReady.filter fun k => k / 64 ≠ i }
    sched := { s.sched with
      portLevel := s.sched.portLevel.keep fun p => p / 8 ≠ i, clsLevel := s.sched.clsLevel.keep fun n => n / 64 ≠ i
      cirqLevel := s.sched.cirqLevel.keep fun n => n / 4096 ≠ i, served := s.sched.served.keep (· ≠ i) }
    glz := { s.glz with
      cache := s.glz.cache.keep (· ≠ i), cacheGone := s.glz.cacheGone.keep (· ≠ i), rxCache := s.glz.rxCache.keep (· ≠ i)
      pairs := s.glz.pairs.keep fun k => k / 12 ≠ i, lanes := s.glz.lanes.keep fun k => k / 12 ≠ i }
    bur := { s.bur with engines := s.bur.engines.keep fun k => k / 5 ≠ i }
    hbm := { s.hbm with used := s.hbm.used.filter fun x => !sliceObject i x, poison := s.hbm.poison.filter fun x => !sliceObject i (x.1, wordObject x.1 x.2) }
    cps := s.cps.mapCells none fun c p => if (sliceProfiles s i).contains c then p.map fun p => { p with pin := none } else p }

theorem clearSlice_eq (s : State) (i : Nat) : s.clearSlice i = runOver (sliceProfiles s i) (fun c s =>
    if (s.cps.get none c).isSome then s.prefetch i (cpsWait + c) else s) (sliceCleared s i) := rfl

/-- What a slice's reset changes. -/
abbrev sliceParts : List Part :=
  [.cnts, .latches, .tabs, .sampBkt, .sampLfsr, .sampSeq, .fab, .sched, .glz, .bur, .hbm, .cps, .frames]

theorem onlyIn_sliceCleared (s : State) (i : Nat) : OnlyIn sliceParts s (sliceCleared s i) := by
  intro p hp
  have same := SamePart.refl s p
  cases p
  case cnts | latches | tabs | sampBkt | sampLfsr | sampSeq | fab | sched | glz | bur | hbm | cps => exact absurd (by decide) hp
  all_goals exact same

theorem rxCache_pinKey {s t : State} {i : Nat} {k : CacheKey} (pin : s.pinKey i k = some t) : t.glz.rxCache = s.glz.rxCache := by
  simp only [State.pinKey] at pin
  split at pin
  · split at pin
    · cases pin
    · cases pin
      rfl
  · split at pin
    · cases pin
      rfl
    · obtain ⟨l, -, rfl⟩ := Option.map_eq_some_iff.mp pin
      rfl

theorem rxCache_pinRequest {s t : State} {i r : Nat} (served : s.pinRequest i r = some t) : t.glz.rxCache = s.glz.rxCache := by
  simp only [State.pinRequest] at served
  split at served
  · split at served
    · obtain ⟨u, pin, rfl⟩ := Option.map_eq_some_iff.mp served
      exact (rxCache_pinKey pin :)
    · cases served
      rfl
  · split at served
    · obtain ⟨u, pin, rfl⟩ := Option.map_eq_some_iff.mp served
      exact (rxCache_pinKey pin :)
    · cases served
      rfl

theorem rxCache_prefetch (s : State) (i r : Nat) : (s.prefetch i r).glz.rxCache = s.glz.rxCache := by
  simp only [State.prefetch]
  split
  · next t served => exact rxCache_pinRequest served
  · rfl

theorem clearSlice_keeps (s : State) (i : Nat) : (s.clearSlice i).glz.rxCache = s.glz.rxCache.keep (· ≠ i) ∧
    OnlyIn sliceParts s (s.clearSlice i) := by
  have pins : ∀ (l : List Nat) (s : State),
      (runOver l (fun c s => if (s.cps.get none c).isSome then s.prefetch i (cpsWait + c) else s) s).glz.rxCache = s.glz.rxCache ∧
      OnlyIn sliceParts s (runOver l (fun c s => if (s.cps.get none c).isSome then s.prefetch i (cpsWait + c) else s) s) := by
    intro l
    induction l with
    | nil => exact fun s => ⟨rfl, .refl _ s⟩
    | cons c l ih =>
      intro s
      obtain ⟨cache, rest⟩ := ih (if (s.cps.get none c).isSome then s.prefetch i (cpsWait + c) else s)
      have step : (if (s.cps.get none c).isSome then s.prefetch i (cpsWait + c) else s).glz.rxCache = s.glz.rxCache ∧
          OnlyIn sliceParts s (if (s.cps.get none c).isSome then s.prefetch i (cpsWait + c) else s) := by
        split
        · exact ⟨rxCache_prefetch _ _ _, (onlyIn_prefetch_quiet _ _ _).mono⟩
        · exact ⟨rfl, .refl _ s⟩
      exact ⟨cache.trans step.1, step.2.trans rest⟩
  obtain ⟨cache, only⟩ := pins (sliceProfiles s i) (sliceCleared s i)
  rw [clearSlice_eq]
  exact ⟨cache, (onlyIn_sliceCleared s i).trans only⟩

theorem keys_keep_other {α : Type} (t : Tab α) (i : Nat) : (t.keep (· ≠ i)).keys.contains i = false := by
  rw [← Bool.not_eq_true, List.contains_iff_mem]
  intro mem
  obtain ⟨cell, kept, key⟩ := List.mem_map.mp mem
  exact absurd key (of_decide_eq_true (List.mem_filter.mp kept).2)

/-- Settles O54. -/
theorem modesChangeAndBlocksAreReset : Obligations.ModesChangeAndBlocksAreReset := by
  refine ⟨fun r d s h config ready => ?_, fun r d s h forward => ?_, fun s drain empty => ?_, fun r d s h config => ?_,
    fun s rests source => ?_, fun r d s h safe => ?_, fun s staged => ?_, fun r d s h safe staged clear => ?_,
    fun n k s up running idle free => ?_, fun k s up running idle free => ?_, fun n k s up busy => ?_,
    fun p s resets => ?_, fun i s resets => ?_⟩
  · obtain ⟨mode, only⟩ := forwarding_keeps s
    have done := onlyIn_complete (forwarding s) r .ok 0 []
    exact ⟨_, exec_forward h config ready, done.mode_eq.trans mode, only.completed .ok 0 [] only.adds h.inExec,
      only.mono.trans done.mono⟩
  · have only := onlyIn_mode s .drain
    have done := onlyIn_complete { s with mode := .drain } r .ok 0 []
    exact ⟨_, exec_drain h forward, done.mode_eq, only.completed .ok 0 [] only.adds h.inExec, only.mono.trans done.mono⟩
  · change execDrainDone s = _
    simp only [execDrainDone, drain, empty]
    rfl
  · have down := onlyIn_portsDown s
    have rest := onlyIn_atRest (portsDown s)
    have done := onlyIn_complete (atRest (portsDown s)) r .ok 0 []
    refine ⟨_, exec_standby h config, done.mode_eq, ?_, ?_, fun p port => ?_, (down.mono.trans rest.mono).trans done.mono⟩
    · rw [done .rst (by decide)]
      rfl
    · rw [done .rst (by decide)]
      exact down.now_eq
    · rw [(done .links (by decide) p).1, (rest .links (by decide) p).1]
      exact portsDown_links s port
  · have woken := onlyIn_coresWoken s
    have power := onlyIn_powered (coresWoken s)
    have train := onlyIn_portsTraining (powered (coresWoken s))
    have quiet : Adds (coresWoken s) (portsTraining (powered (coresWoken s))) := power.adds.trans train.adds
    refine ⟨_, exec_standbyWake rests source, train.mode_eq, ?_, fun n listed wakes core => ?_, fun p port on => ?_,
      (woken.mono.trans power.mono).trans train.mono⟩
    · rw [train .rst (by decide)]
      rfl
    · exact (emits_coreWake s.wokenCores s (mem_wokenCores listed wakes core)).later quiet
    · refine portsTraining_links _ port ?_
      rw [State.bit, power.reg_same (by decide) (prtCfg_not_inCntCfg port), woken.reg_same (by decide) (prtCfg_not_inCntCfg port)]
      exact on
  · have done := onlyIn_complete s r .ok 0 []
    have staged := onlyIn_rst (s.complete r .ok) { (s.complete r .ok).rst with safeStaged := (s.complete r .ok).now + 10000 * msNs }
    refine ⟨_, exec_safeExit h safe, ?_, done.mode_eq.trans safe,
      (completed_after .ok 0 [] (.refl s) rfl rfl h.inExec).later staged.adds, done.mono.trans staged.mono⟩
    exact congrArg (· + 10000 * msNs) done.now_eq
  · exact ⟨_, exec_safeExitLapse staged, rfl, now_advanceTo _ _, (onlyIn_advanceTo s _).mono.trans (onlyIn_rst _ _).mono⟩
  · obtain ⟨stands, none, only⟩ := safeLeft_keeps s
    have trial := onlyIn_confirmTrial_boot (safeLeft s)
    have done := onlyIn_complete (safeLeft s).confirmTrial r .ok 0 []
    have alarm := (stands.trans (trial.eventsOf 0).stands).trans (eventsOf_complete (safeLeft s).confirmTrial r .ok).stands
    refine ⟨_, exec_safeExitConfirm h safe staged clear, alarm.mode, alarm.squelch, alarm.faultN, alarm.critV, ?_,
      (only.mono.trans trial.mono).trans done.mono⟩
    rw [done .rst (by decide), trial .rst (by decide)]
    exact none
  · have idle' : s.blockIdle (32 * n.val + k.val) = true := by
      have port : 32 * n.val + k.val < 128 := by omega
      simp only [State.blockIdle, port, if_true, idle, decide_true]
    have run := exec_rstBlkPort_one (n := n) (k := k) up
    rw [resetBlocks_idle k.isLt running idle' free] at run
    have shown := onlyIn_showBlocks (blockStarted s (32 * n.val + k.val))
    refine ⟨_, run, congrArg ResetCtl.blocks (shown .rst (by decide)), ?_, (onlyIn_blockStarted s _).mono.trans shown.mono⟩
    rw [bit_showBlocks_port _ n.isLt k.isLt]
    exact List.contains_iff_mem.mpr (List.mem_append_right _ (List.mem_singleton_self _))
  · have idle' : s.blockIdle (128 + k.val) = true := by
      have slice : ¬ 128 + k.val < 128 := by omega
      simp only [State.blockIdle, slice, if_false, Nat.add_sub_cancel_left, idle]
    have run := exec_rstBlkSlice_one (k := k) up
    rw [resetBlocks_idle k.isLt running idle' free] at run
    have shown := onlyIn_showBlocks (blockStarted s (128 + k.val))
    refine ⟨_, run, congrArg ResetCtl.blocks (shown .rst (by decide)), ?_, (onlyIn_blockStarted s _).mono.trans shown.mono⟩
    rw [bit_showBlocks_slice _ k.isLt]
    exact List.contains_iff_mem.mpr (List.mem_append_right _ (List.mem_singleton_self _))
  · have busy' : s.blockIdle (32 * n.val + k.val) = false := by
      have port : 32 * n.val + k.val < 128 := by omega
      simp only [State.blockIdle, port, if_true, busy, decide_false]
    exact ⟨_, exec_rstBlkPort_one up, resetBlocks_busy k.isLt busy' _ _⟩
  · obtain ⟨ended, shown⟩ := blockEnded_shown s p
    have run := exec_blockResetDone_port resets
    generalize (blockEnded s p).showBlocks = u at run ended shown
    have put := onlyIn_setPort_lock u p false
    have logged := onlyIn_blockLogged (u.setPort p { u.port p with pcsLock := false })
    obtain ⟨link, lock, -⟩ := logged .links (by decide) p
    refine ⟨_, run, ?_, lock.trans ?_, link.trans ?_, (shown.mono.trans put.mono).trans logged.mono⟩
    · rw [logged .rst (by decide), put .rst (by decide)]
      exact ended
    · rw [State.port_setPort, if_pos rfl]
    · rw [State.port_setPort, if_pos rfl]
      exact (shown .links (by decide) p).1
  · obtain ⟨ended, shown⟩ := blockEnded_shown s (128 + i.val)
    have run := exec_blockResetDone_slice resets
    generalize (blockEnded s (128 + i.val)).showBlocks = u at run ended shown
    obtain ⟨cache, cleared⟩ := clearSlice_keeps u i
    have logged := onlyIn_blockLogged (u.clearSlice i)
    refine ⟨_, run, ?_, ?_, (shown.mono.trans cleared.mono).trans logged.mono⟩
    · rw [logged .rst (by decide), cleared .rst (by decide)]
      exact ended
    · rw [logged.glz_eq, cache]
      exact keys_keep_other _ _

end Sys2Proof.Claims

/-! SUPPORT, and O55: what each source of a reset resets, and the Function Level Reset (R366, R459, R466, R495 to R498). -/

namespace Sys2Proof.Claims

open Sys2Proof.Machine

set_option Elab.async false

theorem onlyIn_fuses (s : State) (x : Fuses) : OnlyIn [.fuses] s { s with fuses := x } := by
  intro p hp
  have same := SamePart.refl s p
  cases p
  case fuses => exact absurd List.mem_cons_self hp
  all_goals exact same

/-! The datapath (R497, R498) -/

theorem onlyIn_clearRegs (s : State) (ds : List Nat) : OnlyIn [.regs, .cntCfg, .cnts, .latches] s (s.clearRegs ds) := by
  intro p hp
  have same := SamePart.refl s p
  cases p
  case regs | cntCfg | cnts | latches => exact absurd (by decide) hp
  all_goals exact same

/-- What the reset of the datapath empties. -/
abbrev emptiedParts : List Part :=
  [.gen, .hif, .tabs, .frames, .bpm, .fab, .sched, .pol, .cps, .glz, .bur, .sampBkt, .sampLfsr, .sampSeq, .hbm, .pmc, .links, .lanes]

theorem onlyIn_clearDatapath (s : State) : OnlyIn emptiedParts s s.clearDatapath := by
  intro p hp
  have same := SamePart.refl s p
  cases p
  case gen | hif | tabs | frames | bpm | fab | sched | pol | cps | glz | bur | sampBkt | sampLfsr | sampSeq | hbm | pmc | links |
      lanes => exact absurd (by decide) hp
  all_goals exact same

theorem onlyIn_resetFaults (s : State) : OnlyIn [.flt, .units] s s.resetFaults := by
  simp only [State.resetFaults]
  split
  · exact (onlyIn_flt s _).mono
  · next b _ => exact (onlyIn_units s b.units).mono.trans (onlyIn_flt { s with units := b.units } _).mono

/-- The datapath is held. -/
def datapathHeld (s : State) (cause before : Nat) : State :=
  { s with
    mode := .reset
    units := s.units.unfenced
    rst := { s.rst with
      dom := s.rst.dom.keep fun d => d < 4, readyAt := s.rst.readyAt.keep fun d => d < 4
      asked := [], blocks := [], saved := false, standbyAt := 0, safeStaged := 0, begun := false
      unmasked := s.rst.unmasked.filter fun m => m = 21 || m = 22
      cause := cause, modeBefore := before } }

theorem onlyIn_datapathHeld (s : State) (cause before : Nat) : OnlyIn [.mode, .units, .rst] s (datapathHeld s cause before) := by
  intro p hp
  have same := SamePart.refl s p
  cases p
  case mode | units | rst => exact absurd (by decide) hp
  all_goals exact same

/-- The datapath is empty and its faults have ended. -/
def datapathEmptied (s : State) : State := (s.clearRegs [4, 5, 6, 7, 8]).clearDatapath.resetFaults

/-- What RST_CAUSE shows. -/
def causeShown (s : State) (cause : Nat) : State :=
  s.setReg .rstCause 0 0 (cause + boolBit (cause = 0) * 16 + s.rst.loadRestarts % 256 * 65536)

theorem resetDatapath_eq (s : State) (cause : Nat) :
    s.resetDatapath cause = causeShown (datapathHeld (datapathEmptied s) cause s.mode.code) cause := rfl

/-- What a reset of the datapath may change. -/
abbrev datapathParts : List Part :=
  [.mode, .regs, .cntCfg, .cnts, .latches, .gen, .hif, .flt, .units, .links, .lanes, .frames, .bpm, .fab, .sched, .pol, .cps, .glz,
    .bur, .tabs, .sampBkt, .sampLfsr, .sampSeq, .hbm, .pmc, .rst]

theorem onlyIn_datapathEmptied (s : State) : OnlyIn datapathParts s (datapathEmptied s) :=
  ((onlyIn_clearRegs s _).mono.trans (onlyIn_clearDatapath _).mono).trans (onlyIn_resetFaults _).mono

theorem onlyIn_resetDatapath (s : State) (cause : Nat) : OnlyIn datapathParts s (s.resetDatapath cause) :=
  ((onlyIn_datapathEmptied s).trans (onlyIn_datapathHeld _ _ _).mono).trans (onlyIn_setReg _ _ _ _ _).mono

/-- The mode is RESET, the datapath is empty, and the domains from d on are held. -/
structure ResetFrom (d : Nat) (s t : State) : Prop where
  mode : t.mode = .reset
  domain : ∀ k, t.domain k = if k < d then s.domain k else .held
  gen : t.gen = {}
  hif : t.hif = {}
  frames : t.frames = .empty
  tabs : t.tabs = {}
  perm : t.kiln.perm = s.kiln.perm

/-- Time that passes before a reset is no part of what it resets. -/
theorem ResetFrom.after {d : Nat} {s u t : State} (h : ResetFrom d u t) (late : OnlyIn [.time] s u) : ResetFrom d s t := by
  have domain (k : Nat) : u.domain k = s.domain k := by rw [State.domain, late .rst (by decide), State.domain]
  have perm : u.kiln.perm = s.kiln.perm := (congrArg Kiln.perm (late .kiln (by decide)) :)
  exact ⟨h.mode, fun k => domain k ▸ h.domain k, h.gen, h.hif, h.frames, h.tabs, h.perm.trans perm⟩

theorem domain_keep (s : State) (t : Tab DomainState) (d : Nat) (held : t = s.rst.dom.keep fun k => k < d) (k : Nat) :
    t.get .held k = if k < d then s.domain k else .held := by
  rw [held, Tab.get_keep]
  simp only [decide_eq_true_eq, State.domain]

theorem resetDatapath_resets (s : State) (cause : Nat) : ResetFrom 4 s (s.resetDatapath cause) := by
  have faults := onlyIn_resetFaults (s.clearRegs [4, 5, 6, 7, 8]).clearDatapath
  have only := onlyIn_resetDatapath s cause
  have perm : (s.resetDatapath cause).kiln.perm = s.kiln.perm := (congrArg Kiln.perm (only .kiln (by decide)) :)
  have dom : (s.resetDatapath cause).rst.dom = s.rst.dom.keep fun k => k < 4 :=
    congrArg (fun x => x.dom.keep fun k => k < 4) (faults .rst (by decide))
  exact ⟨rfl, domain_keep s _ 4 dom, faults.gen_eq, faults.hif_eq, faults.frames_eq, faults.tabs_eq, perm⟩

/-! The management domain (R489, R490, R497) -/

/-- The management domain is held. -/
def managementHeld (s : State) : State :=
  let m := s.mgt
  { s with
    kiln := s.kiln.adopt
    fuses := { s.fuses with ops := [] }
    mgt := { boot := { m.boot with run := none, trial := false }, thermal := m.thermal, volt := m.volt, clock := m.clock, alarm := m.alarm }
    rst := { s.rst with
      dom := s.rst.dom.keep fun d => d < 2, readyAt := s.rst.readyAt.keep fun d => d < 2
      phase := 0, interrupted := false, testEn := false, pcieLrev := false, booting := false, ewethes := false, recovery := false
      unmasked := s.rst.unmasked.filter fun x => x = 21 } }

theorem resetManagement_eq (s : State) (cause : Nat) :
    s.resetManagement cause = managementHeld ((s.clearRegs [2, 3]).resetDatapath cause) := rfl

theorem onlyIn_managementHeld (s : State) : OnlyIn [.time, .kiln, .fuses, .mgt, .rst] s (managementHeld s) := by
  intro p hp
  have same := SamePart.refl s p
  cases p
  case time | kiln | fuses | mgt | rst => exact absurd (by decide) hp
  all_goals exact same

/-- What a reset of domains 2 to 8 may change. -/
abbrev managementParts : List Part := .time :: .kiln :: .fuses :: .mgt :: datapathParts

theorem resetManagement_resets (s : State) (cause : Nat) : ResetFrom 2 s (s.resetManagement cause) ∧
    (s.resetManagement cause).fuses = { s.fuses with ops := [] } ∧ (s.resetManagement cause).now = s.now ∧
    OnlyIn managementParts s (s.resetManagement cause) := by
  have regs := onlyIn_clearRegs s [2, 3]
  have reset := resetDatapath_resets (s.clearRegs [2, 3]) cause
  have only := onlyIn_resetDatapath (s.clearRegs [2, 3]) cause
  rw [resetManagement_eq]
  generalize (s.clearRegs [2, 3]).resetDatapath cause = u at reset only
  have held := onlyIn_managementHeld u
  have fuses : u.fuses = s.fuses := only.fuses_eq.trans regs.fuses_eq
  refine ⟨⟨held.mode_eq.trans reset.mode, fun k => ?_, held.gen_eq.trans reset.gen, held.hif_eq.trans reset.hif,
    held.frames_eq.trans reset.frames, held.tabs_eq.trans reset.tabs, reset.perm⟩, ?_, ?_,
    (regs.mono.trans only.mono).trans held.mono⟩
  · rw [show (managementHeld u).domain k = if k < 2 then u.domain k else .held from domain_keep u _ 2 rfl k, reset.domain]
    split
    · exact if_pos (by omega)
    · rfl
  · exact congrArg (fun x : Fuses => { x with ops := [] }) fuses
  · exact only.now_eq.trans regs.now_eq

/-! Every domain (R496, R497) -/

/-- Every domain is held: time restarts, and only power-on clears the flags of the fault sources. -/
def allHeld (s : State) (powerOn : Bool) : State :=
  { s with
    now := 0
    ptp := {}
    eic := {}
    pmc := {}
    flt := { src := s.flt.src.mapCells {} fun _ x => ({ perm := x.perm, retired := x.retired, flag := x.flag && !powerOn } : FaultSource), queue := s.flt.queue, running := s.flt.running, degraded := s.flt.degraded,
             lines := s.flt.lines.filter fun n => measuredLine n && n ≠ 0x4F1, squelch := true }
    rst := { s.rst with
      dom := .empty, readyAt := .empty, lastPhase := 0, restarts := [], restartCount := 0, loadRestarts := 0, stalled := false, unmasked := [] } }

theorem resetAll_eq (s : State) (cause : Nat) : s.resetAll cause =
    (allHeld ((s.clearRegs [1]).resetManagement cause) (cause = 0)).setReg .rstCause 0 0 (cause + boolBit (cause = 0) * 16) := rfl

theorem onlyIn_allHeld (s : State) (powerOn : Bool) : OnlyIn [.time, .ptp, .eic, .flt, .pmc, .rst] s (allHeld s powerOn) := by
  intro p hp
  have same := SamePart.refl s p
  cases p
  case time | ptp | eic | flt | pmc | rst => exact absurd (by decide) hp
  all_goals exact same

/-- What a reset of every domain may change. -/
abbrev resetParts : List Part := .ptp :: .eic :: managementParts

theorem resetAll_resets (s : State) (cause : Nat) : ResetFrom 0 s (s.resetAll cause) ∧ (s.resetAll cause).now = 0 ∧
    (s.resetAll cause).eic = {} ∧ (s.resetAll cause).fuses = { s.fuses with ops := [] } ∧ OnlyIn resetParts s (s.resetAll cause) := by
  have regs := onlyIn_clearRegs s [1]
  obtain ⟨reset, fuses, -, only⟩ := resetManagement_resets (s.clearRegs [1]) cause
  rw [resetAll_eq]
  generalize (s.clearRegs [1]).resetManagement cause = u at reset fuses only
  have shown := onlyIn_setReg (allHeld u (cause = 0)) .rstCause 0 0 (cause + boolBit (cause = 0) * 16)
  exact ⟨⟨reset.mode, fun _ => rfl, reset.gen, reset.hif, reset.frames, reset.tabs, reset.perm⟩, rfl, rfl, fuses,
    ((regs.mono.trans only.mono).trans (onlyIn_allHeld u _).mono).trans shown.mono⟩

/-! The sources (R496) -/

theorem exec_resetNAssert {n : Nat} {s : State} (long : 4 ≤ n) (high : s.rst.resetN = false) (runs : s.rst.stalled = false)
    (loaded : s.rst.loading = false) : exec (.resetNAssert n) s =
      .next { s.resetAll 1 with rst := { (s.resetAll 1).rst with resetN := true, resetNAt := 0 } } := by
  change execResetNAssert n s = _
  simp only [execResetNAssert, Nat.not_lt.mpr long, high, runs, loaded, decide_false, Bool.or_self, Bool.false_eq_true, if_false]

/-- PERST# is low. -/
def perstLow (s : State) : State := { s with rst := { s.rst with perst := true } }

theorem exec_perstAssert {s : State} (high : s.rst.perst = false) : exec .perstAssert s =
    .next (if (perstLow (s.resetDatapath 2)).rst.ewethes
      then (perstLow (s.resetDatapath 2)).logReset 2 s.mode.code (perstLow (s.resetDatapath 2)).rst.loadRestarts
      else perstLow (s.resetDatapath 2)) := by
  change execPerstAssert s = _
  simp only [execPerstAssert, high, Bool.false_eq_true, if_false]
  rfl

theorem exec_watchdogExpire {w : Nat} {s : State} (warned : s.mgt.warned = some w) :
    exec .watchdogExpire s = .next ((s.advanceTo (w + 1000 * msNs)).resetManagement 4) := by
  change execWatchdogExpire s = _
  simp only [execWatchdogExpire, warned, done]

theorem perm_logReset (s : State) (cause before restarts : Nat) : (s.logReset cause before restarts).kiln.perm = s.kiln.perm :=
  (perm_kilnLog { s with kiln := { s.kiln with resets := s.kiln.resets.modify 0 cause (· + 1) } } _ _ _).1

theorem perstAssert_resets {s t : State} (run : t = if (perstLow (s.resetDatapath 2)).rst.ewethes
      then (perstLow (s.resetDatapath 2)).logReset 2 s.mode.code (perstLow (s.resetDatapath 2)).rst.loadRestarts
      else perstLow (s.resetDatapath 2)) :
    ResetFrom 4 s t ∧ t.rst.perst = true ∧ OnlyIn (.kiln :: datapathParts) s t := by
  have reset := resetDatapath_resets s 2
  have only := (onlyIn_resetDatapath s 2).mono (qs := .kiln :: datapathParts)
  generalize s.resetDatapath 2 = u at run reset only
  have low : OnlyIn [.rst] u (perstLow u) := onlyIn_rst u _
  have held : ResetFrom 4 s (perstLow u) :=
    ⟨reset.mode, reset.domain, reset.gen, reset.hif, reset.frames, reset.tabs, reset.perm⟩
  split at run
  · have logged := onlyIn_logReset (perstLow u) 2 s.mode.code (perstLow u).rst.loadRestarts
    have perm := perm_logReset (perstLow u) 2 s.mode.code (perstLow u).rst.loadRestarts
    rw [← run] at logged perm
    refine ⟨⟨logged.mode_eq.trans held.mode, fun k => ?_, logged.gen_eq.trans held.gen, logged.hif_eq.trans held.hif,
      logged.frames_eq.trans held.frames, logged.tabs_eq.trans held.tabs, perm.trans held.perm⟩, ?_,
      (only.trans low.mono).trans logged.mono⟩
    · rw [State.domain, logged .rst (by decide)]
      exact held.domain k
    · rw [logged .rst (by decide)]
      rfl
  · rw [run]
    exact ⟨held, rfl, only.trans low.mono⟩

/-! Function Level Reset (R366, R459, R466) -/

/-- What a Function Level Reset may change. -/
abbrev flrParts : List Part := [.regs, .cntCfg, .cnts, .out, .gen, .hif, .eic, .fuses, .mgt]

theorem onlyIn_abortBuffers (s : State) (r kind : Nat) : OnlyIn haltParts s (s.abortBuffers r kind) :=
  ((onlyIn_dropPunts s r).trans (onlyIn_setRing _ _ _).mono).trans (.foldl (fun _ s =>
    (((onlyIn_emit _ _).mono.trans (onlyIn_setRing _ _ _).mono).trans (onlyIn_writeBack _ _).mono).trans
      (onlyIn_ringIrq _ _).mono) _ _)

theorem onlyIn_stopRing (s : State) (r : Nat) : OnlyIn haltParts s (s.stopRing r) := by
  have stop := (onlyIn_setRing s r { s.ring r with stopping := true, aborted := 0 }).mono (qs := haltParts)
  simp only [State.stopRing]
  split
  · exact .refl _ s
  · split
    · split
      · split
        · exact stop
        · exact stop.trans (onlyIn_abortFetched _ _).mono
      · split
        · exact stop.trans (onlyIn_abortBuffers _ _ _)
        · exact stop
    · exact stop

/-- The rings of a function stop, and its MSI-X table is that of reset. -/
def ringsStopped (s : State) (t : Requester) : State :=
  (runOver (s.ringsOf t) (fun r s => (s.setRing r { s.ring r with deferred := none }).stopRing r) s).msixFlr t

theorem onlyIn_ringsStopped (s : State) (t : Requester) : OnlyIn haltParts s (ringsStopped s t) :=
  (OnlyIn.runOver (fun r s => (onlyIn_setRing s r { s.ring r with deferred := none }).mono.trans (onlyIn_stopRing _ r)) _ s).trans
    (onlyIn_hif _ _).mono

/-- The base of the ring contexts and the event route of a function are cleared. -/
def baseCleared (s : State) (f : Fn) : State := (s.setRegOf .hifRctBase f.num 0 0 0).setRegOf .hifEvtRoute f.num 0 0 0

theorem flr_eq (s : State) (f : Fn) : s.flr (.pf f) = ((baseCleared (ringsStopped s (.pf f)) f).eicFlr f).mailFlr f := rfl

theorem fn_num_lt (f : Fn) : f.num < 3 := by cases f <;> decide

theorem fn_num_inj {f g : Fn} (other : g ≠ f) : g.num ≠ f.num := by
  cases f <;> cases g <;> simp_all [Fn.num]

/-- The registers of a function's rings and events. -/
inductive FnReg : RegName → Prop
  | base : FnReg .hifRctBase
  | route : FnReg .hifEvtRoute

theorem FnReg.not_inCntCfg {r : RegName} (h : FnReg r) (g : Fn) : ¬ inCntCfg (r.key g.num 0 0) := by
  have small := fn_num_lt g
  cases h <;>
  · simp only [inCntCfg, RegName.key, RegName.addr, RegName.info, Bool.false_eq_true, if_false, if_true]
    omega

theorem baseCleared_keeps (s : State) (f : Fn) {r : RegName} (h : FnReg r) : (baseCleared s f).regOf r f.num 0 0 = 0 ∧
    (∀ g, g ≠ f → (baseCleared s f).regOf r g.num 0 0 = s.regOf r g.num 0 0) ∧ OnlyIn [.regs] s (baseCleared s f) := by
  have only : OnlyIn [.regs] s (baseCleared s f) :=
    (onlyIn_setRegOf_plain s _ _ _ _ _ (FnReg.base.not_inCntCfg f)).trans
      (onlyIn_setRegOf_plain _ _ _ _ _ _ (FnReg.route.not_inCntCfg f))
  have small := fn_num_lt f
  refine ⟨?_, fun g other => ?_, only⟩
  · cases h
    case base =>
      refine (State.regOf_setRegOf_other _ ?_).trans (State.regOf_setRegOf _ _ _ _ _ _)
      simp only [RegName.key, RegName.addr, RegName.info]
      omega
    case route => exact State.regOf_setRegOf _ _ _ _ _ _
  · have apart := fn_num_inj other
    have small' := fn_num_lt g
    cases h <;>
    · refine (State.regOf_setRegOf_other _ ?_).trans (State.regOf_setRegOf_other _ ?_) <;>
      · simp only [RegName.key, RegName.addr, RegName.info, if_true]
        omega

/-- A function's contexts are quiet: no source is active for them, and nothing of theirs is withdrawn. -/
def contextsQuiet (s : State) (f : Fn) : State :=
  { s with eic := { s.eic with src := s.eic.src.mapCells {} fun _ v =>
    if (v.active.any fun x => (fnContexts f).contains x) then { v with active := none } else v } }

/-- A context returns to its reset state. -/
def contextReset (x : Nat) (s : State) : State :=
  ((s.setIntCtx x { s.intCtx x with withdrawn := false }).setReg .eicCtxCtrl 0 x (RegName.resetAt .eicCtxCtrl 0 x)).eicSettle x

theorem eicFlr_eq (s : State) (f : Fn) : s.eicFlr f = runOver (fnContexts f) contextReset (contextsQuiet s f) := rfl

theorem contextReset_keeps (s : State) {x : Nat} (context : x < 66) : OnlyIn [.regs, .cntCfg, .cnts, .out, .eic] s (contextReset x s) ∧
    ∀ {r : RegName}, FnReg r → ∀ g : Fn, (contextReset x s).regOf r g.num 0 0 = s.regOf r g.num 0 0 := by
  have ctx := onlyIn_setIntCtx s x { s.intCtx x with withdrawn := false }
  generalize u_eq : s.setIntCtx x { s.intCtx x with withdrawn := false } = u at ctx
  have reg := onlyIn_setReg u .eicCtxCtrl 0 x (RegName.resetAt .eicCtxCtrl 0 x)
  have settle := (eicSettle_keeps (u.setReg .eicCtxCtrl 0 x (RegName.resetAt .eicCtxCtrl 0 x)) x).2.2
  have eq : contextReset x s = (u.setReg .eicCtxCtrl 0 x (RegName.resetAt .eicCtxCtrl 0 x)).eicSettle x := by
    rw [contextReset, u_eq]
  rw [eq]
  refine ⟨(ctx.mono.trans reg.mono).trans settle.mono, fun {r} h g => ?_⟩
  have small := fn_num_lt g
  refine (settle .regs (by decide) _ _ _ _ (h.not_inCntCfg g)).trans
    (Eq.trans ?_ (ctx .regs (by decide) _ _ _ _ (h.not_inCntCfg g)))
  refine State.regOf_setRegOf_other _ ?_
  cases h <;>
  · simp only [RegName.key, RegName.addr, RegName.info, Bool.false_eq_true, if_false, if_true]
    omega

theorem eicFlr_keeps (s : State) (f : Fn) : OnlyIn [.regs, .cntCfg, .cnts, .out, .eic] s (s.eicFlr f) ∧
    ∀ {r : RegName}, FnReg r → ∀ g : Fn, (s.eicFlr f).regOf r g.num 0 0 = s.regOf r g.num 0 0 := by
  have contexts : ∀ (l : List Nat), (∀ x ∈ l, x < 66) → ∀ s : State,
      OnlyIn [.regs, .cntCfg, .cnts, .out, .eic] s (runOver l contextReset s) ∧
        ∀ {r : RegName}, FnReg r → ∀ g : Fn, (runOver l contextReset s).regOf r g.num 0 0 = s.regOf r g.num 0 0 := by
    intro l
    induction l with
    | nil => exact fun _ s => ⟨.refl _ s, fun _ _ => rfl⟩
    | cons x l ih =>
      intro small s
      obtain ⟨first, regs⟩ := contextReset_keeps s (small x List.mem_cons_self)
      obtain ⟨rest, others⟩ := ih (fun y mem => small y (List.mem_cons_of_mem _ mem)) (contextReset x s)
      exact ⟨first.trans rest, fun h g => (others h g).trans (regs h g)⟩
  have quiet : OnlyIn [.eic] s (contextsQuiet s f) := onlyIn_eic s _
  obtain ⟨only, regs⟩ := contexts (fnContexts f) (fun x mem => List.mem_range.mp (List.mem_filter.mp mem).1) (contextsQuiet s f)
  rw [eicFlr_eq]
  exact ⟨quiet.mono.trans only, fun h g => (regs h g).trans (quiet .regs (by decide) _ _ _ _ (h.not_inCntCfg g))⟩

/-- No fuse operation that the function asked for waits. -/
def fuseOpsDropped (s : State) (f : Fn) : State :=
  { s with fuses := { s.fuses with ops := s.fuses.ops.filter fun o => o.mailbox ≠ some f } }

theorem onlyIn_fuseOpsDropped (s : State) (f : Fn) : OnlyIn [.fuses] s (fuseOpsDropped s f) := onlyIn_fuses s _

/-- A staging is abandoned, and its slot is EMPTY. -/
def stagingEnded (s : State) (staging : Bool) : State :=
  if staging then (s.setBoot { (s.boot.setSlot s.boot.target {}) with gen := s.boot.gen + 1 }).dropStaged else s

theorem stagingEnded_keeps (s : State) (staging : Bool) : OnlyIn [.mgt] s (stagingEnded s staging) ∧
    ∀ g, (stagingEnded s staging).mailbox g = s.mailbox g := by
  cases staging with
  | true => exact ⟨(onlyIn_setBoot s _).trans (onlyIn_mgt _ _), fun _ => rfl⟩
  | false => exact ⟨.refl _ s, fun _ => rfl⟩

theorem mailFlr_steps (s : State) (f : Fn) : ∃ staging,
    s.mailFlr f = ((fuseOpsDropped (stagingEnded s staging) f).setMailbox f {}).mailStatus f 1 0 0 := ⟨_, rfl⟩

theorem mailFlr_keeps (s : State) (f : Fn) : (s.mailFlr f).mailbox f = {} ∧ (∀ g, g ≠ f → (s.mailFlr f).mailbox g = s.mailbox g) ∧
    (∀ {r : RegName}, FnReg r → ∀ g : Fn, (s.mailFlr f).regOf r g.num 0 0 = s.regOf r g.num 0 0) ∧
    OnlyIn [.regs, .fuses, .mgt] s (s.mailFlr f) := by
  obtain ⟨staging, steps⟩ := mailFlr_steps s f
  obtain ⟨ended, same⟩ := stagingEnded_keeps s staging
  have only := ended.mono.trans ((onlyIn_fuseOpsDropped (stagingEnded s staging) f).mono (qs := [.fuses, .mgt]))
  have boxes (g : Fn) : (fuseOpsDropped (stagingEnded s staging) f).mailbox g = s.mailbox g := same g
  have status := onlyIn_mailStatus ((fuseOpsDropped (stagingEnded s staging) f).setMailbox f {}) f 1 0 0
  rw [steps]
  refine ⟨(status.mailbox_eq f).trans (State.mailbox_setMailbox _ _ _),
    fun g other => ((status.mailbox_eq g).trans (State.mailbox_setMailbox_other _ _ other)).trans (boxes g), fun {r} h g => ?_,
    (only.mono.trans (onlyIn_setMailbox _ _ _).mono).trans status.mono⟩
  have small := fn_num_lt g
  have small' := fn_num_lt f
  refine Eq.trans (State.regOf_setRegOf_other _ ?_) (only .regs (by decide) _ _ _ _ (h.not_inCntCfg g))
  cases h <;>
  · simp only [RegName.key, RegName.addr, RegName.info, if_true]
    omega

/-- What a Function Level Reset of f leaves. -/
structure FnReset (f : Fn) (s t : State) : Prop where
  cleared : ∀ {r : RegName}, FnReg r → t.regOf r f.num 0 0 = 0
  mailbox : t.mailbox f = {}
  regs : ∀ {r : RegName}, FnReg r → ∀ g, g ≠ f → t.regOf r g.num 0 0 = s.regOf r g.num 0 0
  boxes : ∀ g, g ≠ f → t.mailbox g = s.mailbox g
  only : OnlyIn flrParts s t

theorem flr_resets (s : State) (f : Fn) : FnReset f s (s.flr (.pf f)) := by
  have stopped := onlyIn_ringsStopped s (.pf f)
  rw [flr_eq]
  generalize ringsStopped s (.pf f) = u at stopped
  obtain ⟨-, -, base⟩ := baseCleared_keeps u f .base
  obtain ⟨quiet, quietRegs⟩ := eicFlr_keeps (baseCleared u f) f
  obtain ⟨mailbox, boxes, mailRegs, mail⟩ := mailFlr_keeps ((baseCleared u f).eicFlr f) f
  refine ⟨fun h => ?_, mailbox, fun h g other => ?_, fun g other => ?_,
    ((stopped.mono.trans base.mono).trans quiet.mono).trans mail.mono⟩
  · rw [mailRegs h, quietRegs h]
    exact (baseCleared_keeps u f h).1
  · rw [mailRegs h, quietRegs h, (baseCleared_keeps u f h).2.1 g other]
    exact stopped .regs (by decide) _ _ _ _ (h.not_inCntCfg g)
  · rw [boxes g other, quiet.mailbox_eq, base.mailbox_eq, stopped.mailbox_eq]

/-- Every function is reset. -/
def allFlr (s : State) : State := ((s.flr (.pf .pf0)).flr (.pf .pf1)).flr (.pf .pf2)

theorem allFlr_resets (s : State) : (∀ f : Fn, (allFlr s).regOf .hifRctBase f.num 0 0 = 0 ∧ (allFlr s).mailbox f = {}) ∧
    OnlyIn flrParts s (allFlr s) := by
  have first := flr_resets s .pf0
  have second := flr_resets (s.flr (.pf .pf0)) .pf1
  have third := flr_resets ((s.flr (.pf .pf0)).flr (.pf .pf1)) .pf2
  refine ⟨fun f => ?_, (first.only.trans second.only).trans third.only⟩
  cases f with
  | pf0 =>
    refine ⟨(third.regs .base _ (by decide)).trans ((second.regs .base _ (by decide)).trans (first.cleared .base)), ?_⟩
    exact (third.boxes _ (by decide)).trans ((second.boxes _ (by decide)).trans first.mailbox)
  | pf1 =>
    exact ⟨(third.regs .base _ (by decide)).trans (second.cleared .base), (third.boxes _ (by decide)).trans second.mailbox⟩
  | pf2 => exact ⟨third.cleared .base, third.mailbox⟩

/-- The cause is a hot reset. -/
def causeHot (s : State) : State := { s with rst := { s.rst with cause := 3 } }

/-- A hot reset is noted, and logged while Ewethes runs. -/
def hotNoted (s : State) : State :=
  let s := causeHot s
  if s.rst.ewethes then s.logReset 3 s.mode.code s.rst.loadRestarts else s

theorem runOver_flr (s : State) : runOver [Requester.pf .pf0, .pf .pf1, .pf .pf2] (fun t s => s.flr t) s = allFlr s := by
  simp only [runOver, List.foldl_cons, List.foldl_nil, allFlr]

theorem exec_pcieHotReset {s : State} (ready : s.domain 4 = .ready) : exec .pcieHotReset s = .next (hotNoted (allFlr s)) := by
  change execPcieHotReset s = _
  rw [execPcieHotReset, if_neg fun h => h ready, runOver_flr]
  generalize allFlr s = u
  rfl

theorem pcieHotReset_resets {s t : State} (run : t = hotNoted (allFlr s)) :
    (∀ f : Fn, t.regOf .hifRctBase f.num 0 0 = 0 ∧ t.mailbox f = {}) ∧ t.rst = { s.rst with cause := 3 } ∧
      OnlyIn (.kiln :: .rst :: flrParts) s t := by
  obtain ⟨cleared, only⟩ := allFlr_resets s
  generalize allFlr s = u at run cleared only
  have hot : OnlyIn [.rst] u (causeHot u) := onlyIn_rst u _
  have logged : OnlyIn [.kiln] (causeHot u) t := by
    simp only [hotNoted] at run
    split at run
    · exact run ▸ onlyIn_logReset _ _ _ _
    · exact run ▸ .refl _ _
  refine ⟨fun f => ⟨?_, ?_⟩, ?_, (only.mono.trans hot.mono).trans logged.mono⟩
  · rw [logged .regs (by decide) _ _ _ _ (FnReg.base.not_inCntCfg f)]
    exact (cleared f).1
  · rw [logged.mailbox_eq]
    exact (cleared f).2
  · rw [logged .rst (by decide)]
    exact congrArg (fun x : ResetCtl => { x with cause := 3 }) (only .rst (by decide))

/-- Settles O55. -/
theorem resetSourcesResetTheirDomains : Obligations.ResetSourcesResetTheirDomains := by
  refine ⟨fun s => ?_, fun n s long high runs loaded => ?_, fun s high => ?_, fun s up => ?_, fun w s warned => ?_,
    fun s ready quiet => ?_, fun f s ready => ?_, fun s ready => ?_⟩
  · obtain ⟨reset, now, eic, fuses, only⟩ := resetAll_resets s 0
    exact ⟨_, rfl, reset.mode, fun d => (reset.domain d).trans (if_neg (Nat.not_lt_zero d)), now, reset.gen, reset.hif,
      reset.frames, reset.tabs, eic, reset.perm, fuses, only.mono⟩
  · obtain ⟨reset, now, eic, fuses, only⟩ := resetAll_resets s 1
    have run := exec_resetNAssert long high runs loaded
    generalize s.resetAll 1 = u at reset now eic fuses only run
    exact ⟨_, run, reset.mode, fun d => (reset.domain d).trans (if_neg (Nat.not_lt_zero d)), rfl, reset.gen, reset.hif,
      reset.frames, reset.perm, fuses, only.mono.trans (onlyIn_rst u _).mono⟩
  · obtain ⟨reset, low, only⟩ := perstAssert_resets (s := s) rfl
    exact ⟨_, exec_perstAssert high, reset.mode, low, reset.domain, reset.gen, reset.hif, reset.frames, reset.tabs, reset.perm,
      only.mono⟩
  · have late := onlyIn_advance s usNs
    obtain ⟨held, fuses, now, only⟩ := resetManagement_resets (s.advance usNs) 5
    have reset := held.after late
    have run : exec (.softwareDeviceReset .pf0 0x5D) s = .next ((s.advance usNs).resetManagement 5) :=
      congrArg Host.Outcome.next ((rowWrite_of_role up rfl 0 0 _).trans (if_neg (fun h => h rfl)))
    exact ⟨_, run, reset.mode, now, reset.domain, reset.gen, reset.hif, reset.frames, reset.perm, fuses, late.mono.trans only.mono⟩
  · have late := onlyIn_advanceTo s (w + 1000 * msNs)
    obtain ⟨held, -, now, only⟩ := resetManagement_resets (s.advanceTo (w + 1000 * msNs)) 4
    have reset := held.after late
    have second : 1000 * msNs = 1000000000 := rfl
    have due := (now.trans (now_advanceTo s (w + 1000 * msNs))).trans (congrArg (fun n => max s.now (w + n)) second)
    exact ⟨_, exec_watchdogExpire warned, reset.mode, due, reset.domain, reset.gen, reset.hif, reset.frames, reset.perm,
      late.mono.trans only.mono⟩
  · have run : exec .watchdogWarning s = .next (({ s with mgt := { s.mgt with warned := some s.now } } : State).eicEvent 1287) := by
      change execWatchdogWarning s = _
      simp only [execWatchdogWarning, ready, quiet, ne_eq, not_true_eq_false, decide_false, Option.isSome_none, Bool.or_self,
        Bool.false_eq_true, if_false, done]
    have warn := onlyIn_mgt s { s.mgt with warned := some s.now }
    have event := onlyIn_eicEvent { s with mgt := { s.mgt with warned := some s.now } } 1287
    exact ⟨_, run, event.mgt_eq, isPending_eicEvent _ (by decide) (by decide), warn.mono.trans event.mono⟩
  · have reset := flr_resets s f
    have run : exec (.functionLevelReset (.pf f)) s = .next (s.flr (.pf f)) := congrArg Host.Outcome.next (if_pos ready)
    exact ⟨_, run, reset.cleared .base, reset.cleared .route, reset.mailbox, reset.boxes, reset.only⟩
  · obtain ⟨cleared, rst, only⟩ := pcieHotReset_resets (s := s) rfl
    exact ⟨_, exec_pcieHotReset ready, cleared, rst, only.mono⟩

end Sys2Proof.Claims

/-! O56: the release of domain 5 draws the storage key (R248), so that more than the time and the domains change. -/

namespace Sys2Proof.Claims

open Sys2Proof.Machine

set_option Elab.async false

/-- Domain 4 is ready and domain 5, whose release is requested, is held. -/
def memoryHeld : State :=
  { State.reset with rst := { dom := ⟨[(4, .ready)]⟩, asked := [5], perst := false } }

theorem draws_memoryReleased {t : State} (run : exec (.domainRelease 4) memoryHeld = .next t) : t.draws = memoryHeld.draws + 1 := by
  cases run
  rfl

/-- Refutes O56: at `memoryHeld` the release of domain 5 takes a free value for the storage key. -/
theorem not_domainsComeUpAndTheDeviceBoots : ¬ Obligations.DomainsComeUpAndTheDeviceBoots := by
  unfold Obligations.DomainsComeUpAndTheDeviceBoots
  rintro ⟨release, -⟩
  obtain ⟨t, run, -, -, -, -, -, only⟩ := release 4 memoryHeld rfl rfl (fun _ => rfl) (fun _ => List.mem_singleton_self _)
    (fun h => absurd h (by decide)) fun _ => rfl
  have same : t.draws = memoryHeld.draws := only .draws (by decide)
  exact absurd ((draws_memoryReleased run).symm.trans same) (Nat.succ_ne_self _)

end Sys2Proof.Claims

/-! SUPPORT, and O46: fault events and the blocks' counters; read errors, refresh, members and groups of the stacks
(R405 to R412, R415, R416). -/

namespace Sys2Proof.Claims

open Sys2Proof.Machine

set_option Elab.async false

/-! What a fault event leaves of the blocks' counters -/

theorem blockCounts_retirementCount (s : State) (k : Nat) : BlockCountsStand s (s.bumpBy (cntFlt 0) k) :=
  blockCounts_setCnt s _ (.inl (by decide))

theorem blockCounts_kiln (s : State) (k : Kiln) : BlockCountsStand s { s with kiln := k } := fun _ _ _ => rfl

/-- A category runs beyond its envelope. -/
def degradedMarked (s : State) (k : Nat) : State := { s with flt := { s.flt with degraded := s.flt.degraded ++ [k] } }

theorem blockCounts_degradedMarked (s : State) (k : Nat) : BlockCountsStand s (degradedMarked s k) := (onlyIn_flt s _).blockCounts

theorem blockCounts_degrade (s : State) (n : Nat) : BlockCountsStand s (s.degrade n) := by
  unfold State.degrade
  refine BlockCountsStand.trans
    (blockCounts_faultRecord s ⟨n, .noSpare, 0, 0, 0, (s.fsrc n).lastTime, (s.fsrc n).lastTime, 0xFFFF⟩) ?_
  generalize s.faultRecord _ = u
  change BlockCountsStand u (if u.flt.degraded.contains (sourceCat n) then u else
    if (degradedMarked u (sourceCat n)).mode = .factoryTest then degradedMarked u (sourceCat n)
    else (degradedMarked u (sourceCat n)).kilnPerm 0x0014 3 (leBytes 1 (sourceCat n)))
  split
  · exact .refl u
  · split
    · exact blockCounts_degradedMarked u _
    · exact (blockCounts_degradedMarked u _).trans (onlyIn_kilnPerm _ _ _ _).blockCounts

theorem blockCounts_classify (s : State) (n : Nat) : BlockCountsStand s (s.classify n) := by
  have entry (u : State) (b : Bytes) : BlockCountsStand u (if u.mode = .factoryTest then u else u.kilnPerm 0x0010 3 b) := by
    split
    · exact .refl _
    · exact (onlyIn_kilnPerm _ _ _ _).blockCounts
  have noted := ((onlyIn_setFsrc s n { s.fsrc n with perm := true, permCycle := s.now / 10 + 1 }).blockCounts.trans
    (countsOn_flushRecord _ n .permanent).counts).trans (entry _ (leBytes 2 n ++ leBytes 1 (sourceCat n)))
  unfold State.classify
  cases poolOf n with
  | some _ => exact noted.trans (onlyIn_flt _ _).blockCounts
  | none => exact noted.trans (blockCounts_degrade _ _)

theorem blockCounts_retirableEvent (s : State) (n t cause detail : Nat) :
    BlockCountsStand s (s.retirableEvent n t cause detail) := by
  have noted (x : FaultSource) : BlockCountsStand s ((s.noteEvent n t cause detail).setFsrc n x) :=
    (onlyIn_noteEvent _ _ _ _ _).blockCounts.trans (onlyIn_setFsrc _ _ _).blockCounts
  simp only [State.retirableEvent]
  split
  · exact (noted _).trans (blockCounts_classify _ _)
  · exact ((noted _).trans (blockCounts_kiln _ _)).trans (countsOn_heldRecord _ _ _).counts

theorem blockCounts_retirableEvents (s : State) (n t cause detail k : Nat) :
    BlockCountsStand s (s.retirableEvents n t cause detail k) := by
  induction k generalizing s with
  | zero => exact .refl _
  | succ k ih =>
    simp only [State.retirableEvents]
    split
    · exact .refl _
    · exact (blockCounts_retirableEvent _ _ _ _ _).trans (ih _)

/-- Saggar counts a fault event in counters of its own. -/
theorem blockCounts_fault {s : State} {n : Nat} (kind : sourceKind n = .retirable) (cause detail : Nat) :
    BlockCountsStand s (s.fault n cause detail) := by
  cases retired : (s.fsrc n).retired with
  | true =>
    rw [State.fault, faultEventAt_retired retired]
    exact .refl s
  | false =>
    rw [State.fault, faultEventAt_retirable kind retired]
    exact ((onlyIn_setFsrc _ _ _).blockCounts.trans (blockCounts_retirementCount _ _)).trans (blockCounts_retirableEvents _ _ _ _ _ _)

theorem blockCounts_poisonRecord (s : State) (n inst a : Nat) : BlockCountsStand s (s.poisonRecord n inst a) :=
  blockCounts_faultRecord _ _

/-! Pseudo-channels and their stripes (R397, R398, R409) -/

theorem pcSource_retirable {pc : Nat} (channel : pc < 128) : sourceKind (pcSource pc) = .retirable := by
  simp only [sourceKind, pcSource]
  simp only [show ¬ 0x320 + pc < 0x12 by omega, show ¬ (0x20 ≤ 0x320 + pc ∧ 0x320 + pc < 0x30) by omega,
    show 0x320 + pc ≠ 0x30 by omega, show 0x320 + pc ≠ 0x31 by omega, show ¬ (0x34 ≤ 0x320 + pc ∧ 0x320 + pc < 0x38) by omega,
    show ¬ (0x40 ≤ 0x320 + pc ∧ 0x320 + pc < 0x320) by omega, show 0x320 ≤ 0x320 + pc by omega, show 0x320 + pc < 0x4A0 by omega,
    and_self, if_false, if_true]

/-- The counters of the stacks are a block's. -/
theorem cntHbm_block {t k : Nat} (stack : t < 4) (counter : k < 8) : 0x1800000 ≤ cntHbm t k ∧ cntHbm t k < 0x3C00000 := by
  simp only [cntHbm]
  omega

theorem cntHbm_apart (t : Nat) {k l : Nat} (other : k ≠ l) : cntHbm t k ≠ cntHbm t l := by
  simp only [cntHbm]
  omega

theorem pcStack_lt {pc : Nat} (channel : pc < 128) : pcStack pc < 4 := by
  simp only [pcStack]
  omega

/-- A corrected unit counts in its stack's counter of reconstructions. -/
theorem cnt_countRecon (s : State) {t : Nat} (stack : t < 4) {k : Nat} (counter : k < 8) :
    (s.countRecon t).cnt (cntHbm t k) = if k = 2 then (s.cnt (cntHbm t 2) + 1) % 2 ^ 48 else s.cnt (cntHbm t k) := by
  obtain ⟨low, high⟩ := cntHbm_block stack counter
  rw [State.countRecon, blockCounts_pmcCount _ _ _ _ _ _ low high]
  split
  · next same => rw [same, State.bump, State.cnt_bumpBy]
  · next other => exact Tab.get_set_other _ _ _ (cntHbm_apart t other)

theorem stripeLost_of {s t : State} (units : t.units = s.units) (bad : t.hbm.bad = s.hbm.bad) (g j : Nat) :
    t.stripeLost g j = s.stripeLost g j := by simp only [State.stripeLost, State.group, units, bad]

theorem structSeed_of {s t : State} (moves : t.hbm.moves = s.hbm.moves) (x : Struct) : t.structSeed x = s.structSeed x := by
  cases x <;> simp only [State.structSeed, moves]

theorem structGroups_of {s t : State} (units : t.units = s.units) : t.structGroups = s.structGroups :=
  List.filter_congr fun g _ => by rw [State.group, units, State.group]

theorem structUnits_of {s t : State} (units : t.units = s.units) (moves : t.hbm.moves = s.hbm.moves) (x : Struct) :
    t.structUnits x = s.structUnits x := by
  have place : t.structAt x = s.structAt x := by
    simp only [State.structAt, structSeed_of moves, structGroups_of units]
  rw [State.structUnits, place, State.structUnits]

/-- Where structured data lies follows the groups and the moves of an evacuation. -/
theorem liesIn_of {s t : State} (units : t.units = s.units) (moves : t.hbm.moves = s.hbm.moves) (x : HbmTarget) (g m j : Nat) :
    t.liesIn x g m j = s.liesIn x g m j := by
  simp only [State.liesIn, structUnits_of units moves]

/-! Read errors (R409, R411) -/

/-- An event of a pseudo-channel is noted. -/
def channelFault (s : State) (pc : Nat) : State := s.fault (pcSource pc) 0 0

theorem onlyIn_channelFault (s : State) (pc : Nat) : OnlyIn faultParts s (channelFault s pc) := onlyIn_fault _ _ _ _

/-- The unit has been served by reconstruction. -/
def unitServed (s : State) (pc g m j : Nat) : State := (s.countRecon (pcStack pc)).freshen (memberPc g m) j

theorem bad_freshen (s : State) (pc j : Nat) : (s.freshen pc j).hbm.bad = s.hbm.bad ∧ (s.freshen pc j).hbm.moves = s.hbm.moves := by
  unfold State.freshen
  split <;> exact ⟨rfl, rfl⟩

/-- A unit is poisoned, and what else the memories hold stands. -/
theorem poisonUnit_keeps (s : State) (g m j : Nat) : (memberPc g m, j) ∈ (s.poisonUnit g m j).hbm.bad ∧
    (∀ x ∈ s.hbm.bad, x ∈ (s.poisonUnit g m j).hbm.bad) ∧ (s.poisonUnit g m j).hbm.moves = s.hbm.moves ∧
    OnlyIn (.hbm :: recordParts) s (s.poisonUnit g m j) := by
  by_cases bad : s.hbm.bad.contains (memberPc g m, j) = true
  · have same : s.poisonUnit g m j = s := if_pos bad
    rw [same]
    exact ⟨List.contains_iff_mem.mp bad, fun _ => id, rfl, .refl _ s⟩
  · generalize marked : ({ s with hbm := { s.hbm with bad := s.hbm.bad ++ [(memberPc g m, j)] } } : State) = u
    have mark : OnlyIn [.hbm] s u := marked ▸ onlyIn_hbm s _
    have held : u.hbm = { s.hbm with bad := s.hbm.bad ++ [(memberPc g m, j)] } := marked ▸ rfl
    have put : s.poisonUnit g m j = (u.bump (cntHbm (pcStack (memberPc g m)) 3)).poisonRecord (pcSource (memberPc g m))
        (memberPc g m) j := marked ▸ if_neg bad
    have count := onlyIn_bump u (cntHbm (pcStack (memberPc g m)) 3)
    have record := onlyIn_poisonRecord (u.bump (cntHbm (pcStack (memberPc g m)) 3)) (pcSource (memberPc g m)) (memberPc g m) j
    rw [put]
    have hbm := (record.hbm_eq.trans count.hbm_eq).trans held
    refine ⟨?_, fun x mem => ?_, ?_, (mark.mono.trans count.mono).trans record.mono⟩
    · rw [hbm]
      exact List.mem_append_right _ (List.mem_singleton_self _)
    · rw [hbm]
      exact List.mem_append_left _ mem
    · rw [hbm]

/-- The unit cannot be served: it is poisoned if it was not. -/
def unitLost (s : State) (pc m j : Nat) : State :=
  if s.hbm.bad.contains (memberPc (pcGroup pc) m, j) then s
  else ((channelFault s pc).bump (cntHbm (pcStack pc) 1)).poisonUnit (pcGroup pc) m j

/-- The requester of structured data acts on the error response. -/
def answered (s : State) (target : HbmTarget) (g m j : Nat) : State :=
  if s.liesIn target g m j then s.errorResponse target else s

theorem unitLost_keeps (s : State) (pc m j : Nat) : (memberPc (pcGroup pc) m, j) ∈ (unitLost s pc m j).hbm.bad ∧
    (∀ x, (unitLost s pc m j).liesIn x (pcGroup pc) m j = s.liesIn x (pcGroup pc) m j) ∧
    OnlyIn (.hbm :: faultParts) s (unitLost s pc m j) := by
  by_cases bad : s.hbm.bad.contains (memberPc (pcGroup pc) m, j) = true
  · rw [unitLost, if_pos bad]
    exact ⟨List.contains_iff_mem.mp bad, fun _ => rfl, .refl _ s⟩
  · have fault := onlyIn_channelFault s pc
    have count := onlyIn_bump (channelFault s pc) (cntHbm (pcStack pc) 1)
    obtain ⟨lost, -, moves, only⟩ := poisonUnit_keeps ((channelFault s pc).bump (cntHbm (pcStack pc) 1)) (pcGroup pc) m j
    rw [unitLost, if_neg bad]
    refine ⟨lost, fun x => liesIn_of ?_ ?_ x _ _ _, (fault.mono.trans count.mono).trans only.mono⟩
    · rw [only.units_eq, count.units_eq, fault.units_eq]
    · rw [moves, count.hbm_eq, fault.hbm_eq]

theorem exec_hbmReadError_unused {pc : Fin 128} {addr : Nat} {s : State} (unused : s.hbmUnit pc addr = none ∨ s.validAt pc addr = false)
    (reread recon : Bool) (target : HbmTarget) : exec (.hbmReadError pc reread recon addr target) s = .next s := by
  change execHbmReadError pc reread recon addr target s = _
  rcases unused with none | invalid
  · simp only [execHbmReadError, none, done]
  · cases unit : s.hbmUnit pc addr with
    | none => simp only [execHbmReadError, unit, done]
    | some x => simp only [execHbmReadError, unit, invalid, Bool.not_false, if_true, done]

section ReadError

variable {pc : Fin 128} {addr m j : Nat} {s : State} (unit : s.hbmUnit pc addr = some (m, j)) (valid : s.validAt pc addr = true)
include unit valid

theorem exec_hbmReadError_reread (sound : s.hbm.bad.contains (memberPc (pcGroup pc) m, j) = false) (recon : Bool)
    (target : HbmTarget) : exec (.hbmReadError pc true recon addr target) s = .next s := by
  change execHbmReadError pc true recon addr target s = _
  simp only [execHbmReadError, unit, valid, sound, Bool.not_true, Bool.false_eq_true, if_false, if_true, done]

theorem exec_hbmReadError_served (sound : s.hbm.bad.contains (memberPc (pcGroup pc) m, j) = false)
    (alone : ((s.stripeLost (pcGroup pc) j).all fun k => decide (k = m)) = true) (target : HbmTarget) :
    exec (.hbmReadError pc false true addr target) s = .next (unitServed (channelFault s pc) pc (pcGroup pc) m j) := by
  have fault := onlyIn_fault s (pcSource pc) 0 0
  have alone' : (((s.fault (pcSource pc) 0 0).stripeLost (pcGroup pc) j).all fun k => decide (k = m)) = true := by
    rw [stripeLost_of fault.units_eq (congrArg Hbm.bad fault.hbm_eq)]
    exact alone
  change execHbmReadError pc false true addr target s = _
  simp only [execHbmReadError, unit, valid, sound, alone', Bool.not_true, Bool.false_eq_true, if_false, Bool.and_self, if_true]
  rfl

theorem exec_hbmReadError_lost (target : HbmTarget) :
    exec (.hbmReadError pc false false addr target) s = .next (answered (unitLost s pc m j) target (pcGroup pc) m j) := by
  change execHbmReadError pc false false addr target s = _
  cases bad : s.hbm.bad.contains (memberPc (pcGroup pc) m, j) with
  | true =>
    rw [unitLost, if_pos bad]
    simp only [execHbmReadError, unit, valid, bad, Bool.not_true, Bool.false_eq_true, if_false, if_true]
    rfl
  | false =>
    have sound : ¬ s.hbm.bad.contains (memberPc (pcGroup pc) m, j) = true := by
      rw [bad]
      exact Bool.false_ne_true
    rw [unitLost, if_neg sound]
    simp only [execHbmReadError, unit, valid, bad, Bool.not_true, Bool.false_eq_true, Bool.false_and, if_false]
    rfl

end ReadError

theorem channel_isLt (pc : Fin 128) : pc.val < 128 := pc.isLt

theorem unitServed_keeps (s : State) (pc : Fin 128) (g m j : Nat) :
    ((s.fsrc (pcSource pc)).retired = false → ((unitServed (channelFault s pc) pc g m j).fsrc (pcSource pc)).flag = true) ∧
      (unitServed (channelFault s pc) pc g m j).cnt (cntHbm (pcStack pc) 2) = (s.cnt (cntHbm (pcStack pc) 2) + 1) % 2 ^ 48 ∧
      (unitServed (channelFault s pc) pc g m j).hbm.bad = s.hbm.bad ∧
      OnlyIn (.hbm :: faultParts) s (unitServed (channelFault s pc) pc g m j) := by
  have fault := onlyIn_channelFault s pc
  have recon := onlyIn_countRecon (channelFault s pc) (pcStack pc)
  have fresh := onlyIn_freshen ((channelFault s pc).countRecon (pcStack pc)) (memberPc g m) j
  obtain ⟨low, high⟩ := cntHbm_block (pcStack_lt pc.isLt) (k := 2) (by decide)
  refine ⟨fun active => ?_, ?_, ?_, (fault.mono.trans recon.mono).trans fresh.mono⟩
  · rw [unitServed, fresh.fsrc_same, recon.fsrc_same]
    exact flagged_fault (pcSource_retirable pc.isLt) active 0 0
  · rw [unitServed, State.cnt, fresh.cnts_eq]
    refine (cnt_countRecon (channelFault s pc) (pcStack_lt pc.isLt) (k := 2) (by decide)).trans ?_
    rw [if_pos rfl, channelFault, blockCounts_fault (pcSource_retirable pc.isLt) 0 0 _ low high]
  · rw [unitServed, (bad_freshen _ _ _).1, recon.hbm_eq, fault.hbm_eq]

theorem answered_pairs (s : State) (u : Fin 262144) (g m j k : Nat) : (answered s (.counterUnit u) g m j).pmc.pairs.get {} k =
    if s.liesIn (.counterUnit u) g m j = true ∧ k / 4 = u.val then ⟨0, 0, true⟩ else s.pmc.pairs.get {} k := by
  by_cases here : s.liesIn (.counterUnit u) g m j = true
  · rw [answered, if_pos here]
    refine (pairs_losePairs s u k).trans ?_
    simp only [here, true_and]
  · rw [answered, if_neg here, if_neg fun h => here h.1]

theorem onlyIn_answered_pairs (s : State) (u : Fin 262144) (g m j : Nat) : OnlyIn [.pmc] s (answered s (.counterUnit u) g m j) := by
  by_cases here : s.liesIn (.counterUnit u) g m j = true
  · rw [answered, if_pos here]
    exact onlyIn_losePairs s u
  · rw [answered, if_neg here]
    exact .refl _ s

theorem answered_index (s : State) (b g m j : Nat) : (∀ c, c ∈ (answered s (.receiveIndex b true) g m j).glz.rxPoison ↔
    c ∈ s.glz.rxPoison ∨ (c = b ∧ s.liesIn (.receiveIndex b true) g m j = true)) ∧
    OnlyIn [.glz] s (answered s (.receiveIndex b true) g m j) := by
  by_cases here : s.liesIn (.receiveIndex b true) g m j = true
  · rw [answered, if_pos here]
    simp only [State.errorResponse, Bool.not_true, Bool.false_eq_true, if_false, here, and_true]
    split
    · next held =>
      refine ⟨fun c => ⟨.inl, fun h => h.elim id fun same => ?_⟩, .refl _ s⟩
      rw [same]
      exact List.contains_iff_mem.mp held
    · refine ⟨fun c => ?_, onlyIn_glz s _⟩
      rw [List.mem_cons, or_comm]
  · rw [answered, if_neg here]
    exact ⟨fun c => ⟨.inl, fun h => h.elim id fun k => absurd k.2 here⟩, .refl _ s⟩

/-! Refresh (R405) -/

theorem postponed_setPostponed (s : State) (pc bank : Nat) (n : Int) : (s.setPostponed pc bank n).postponed pc bank = n :=
  Tab.get_set_same _ _ _ _

/-- The refreshes that are postponed after those that fell due. -/
def dueNow (s : State) (pc bank due : Nat) : Int := s.postponed pc bank + due

theorem postponed_refreshDue (s : State) (pc bank due : Nat) : (s.refreshDue pc bank due).postponed pc bank = dueNow s pc bank due :=
  postponed_setPostponed _ _ _ _

theorem refreshDue_keeps (s : State) (pc bank due : Nat) :
    (∀ k, k ≠ bankKey pc bank → (s.refreshDue pc bank due).hbm.postponed.get 0 k = s.hbm.postponed.get 0 k) ∧
      OnlyIn [.hbm] s (s.refreshDue pc bank due) :=
  ⟨fun _ other => Tab.get_set_other _ _ _ other, onlyIn_setPostponed _ _ _ _⟩

/-- What a refresh that may issue leaves. -/
def refreshed (s : State) (pc bank due : Nat) (issues : Bool) : State :=
  if issues then (s.refreshDue pc bank due).setPostponed pc bank (dueNow s pc bank due - 1) else s.refreshDue pc bank due

theorem refreshed_keeps (s : State) (pc bank due : Nat) (issues : Bool) :
    (refreshed s pc bank due issues).postponed pc bank = (if issues then dueNow s pc bank due - 1 else dueNow s pc bank due) ∧
      (∀ k, k ≠ bankKey pc bank → (refreshed s pc bank due issues).hbm.postponed.get 0 k = s.hbm.postponed.get 0 k) ∧
      OnlyIn [.hbm] s (refreshed s pc bank due issues) := by
  obtain ⟨others, only⟩ := refreshDue_keeps s pc bank due
  cases issues with
  | false => exact ⟨postponed_refreshDue _ _ _ _, others, only⟩
  | true =>
    exact ⟨postponed_setPostponed _ _ _ _, fun k other => (Tab.get_set_other _ _ _ other).trans (others k other),
      only.trans (onlyIn_setPostponed _ _ _ _)⟩

theorem exec_hbmRefresh (pc : Fin 128) (bank : Nat) (pulled : Bool) (due : Nat) (s : State) :
    exec (.hbmRefresh pc bank pulled due) s = .next (refreshed s pc bank due
      (if pulled then decide (dueNow s pc bank due ≤ 0 ∧ s.bpm.panic.isEmpty ∧ -dueNow s pc bank due < Config.jesd238PullInLimit)
        else decide (1 ≤ dueNow s pc bank due ∧ dueNow s pc bank due < s.maxPostpone))) := by
  change execHbmRefresh pc bank pulled due s = _
  cases pulled with
  | false =>
    simp only [execHbmRefresh, postponed_refreshDue, Bool.false_eq_true, if_false, refreshed, decide_eq_true_eq]
    rfl
  | true =>
    simp only [execHbmRefresh, postponed_refreshDue, if_true, refreshed, decide_eq_true_eq]
    rfl

theorem exec_refreshForced (pc : Fin 128) (bank due : Nat) (s : State) : exec (.refreshForced pc bank due) s =
    .next (if 1 ≤ dueNow s pc bank due ∧ s.maxPostpone ≤ dueNow s pc bank due
      then (refreshed s pc bank due true).bump (cntHbm (pcStack pc) 5) else refreshed s pc bank due false) := by
  change execRefreshForced pc bank due s = _
  simp only [execRefreshForced, postponed_refreshDue]
  rfl

/-- At the limit the refresh is forced and counted. -/
theorem refreshForced_keeps (pc : Fin 128) (bank due : Nat) (s : State) :
    (1 ≤ dueNow s pc bank due → s.maxPostpone ≤ dueNow s pc bank due →
      ∃ t, exec (.refreshForced pc bank due) s = .next t ∧ t.postponed pc bank = dueNow s pc bank due - 1 ∧
        t.cnt (cntHbm (pcStack pc) 5) = (s.cnt (cntHbm (pcStack pc) 5) + 1) % 2 ^ 48 ∧ OnlyIn [.hbm, .cnts] s t) ∧
    ((dueNow s pc bank due < 1 ∨ dueNow s pc bank due < s.maxPostpone) →
      ∃ t, exec (.refreshForced pc bank due) s = .next t ∧ t.postponed pc bank = dueNow s pc bank due ∧ OnlyIn [.hbm] s t) := by
  have run := exec_refreshForced pc bank due s
  refine ⟨fun some limit => ?_, fun below => ?_⟩
  · obtain ⟨now, -, only⟩ := refreshed_keeps s pc bank due true
    have count := onlyIn_bumpBy (refreshed s pc bank due true) (cntHbm (pcStack pc) 5) 1
    rw [if_pos ⟨some, limit⟩] at run
    refine ⟨_, run, now, ?_, only.mono.trans count.mono⟩
    rw [State.bump, State.cnt_bumpBy, State.cnt, State.cnt, only.cnts_eq]
  · obtain ⟨now, -, only⟩ := refreshed_keeps s pc bank due false
    rw [if_neg (by omega)] at run
    exact ⟨_, run, now, only⟩

/-! Members and groups (R406, R407, R415, R416) -/

/-- A member is offline for its training, which has begun now. -/
def trainingBegun (s : State) (pc : Nat) (temp : Int) : State :=
  { s.goOffline pc false with hbm := { s.hbm with
    trained := s.hbm.trained.set 0 pc s.now, trainedC := s.hbm.trainedC.set none pc (some temp) } }

theorem exec_hbmRetrainStart {pc : Fin 128} {temp : Int} {s : State} (may : s.mayGoOffline (pc.val % 16) = true)
    (awake : s.mode ≠ .standby) : exec (.hbmRetrainStart pc temp) s =
      .next (trainingBegun (if s.trainDrift pc temp then s else s.advanceTo (s.trainDue pc)) pc temp) := by
  have may' : s.mayGoOffline (pcGroup pc) = true := may
  change execHbmRetrainStart pc temp s = _
  simp only [execHbmRetrainStart, may', awake, decide_false, Bool.not_true, Bool.or_self, Bool.false_eq_true, if_false]
  rfl

theorem onlyIn_trainingBegun (s : State) (pc : Nat) (temp : Int) : OnlyIn [.units, .hbm] s (trainingBegun s pc temp) :=
  (onlyIn_setGroup s _ _).mono.trans (onlyIn_hbm (s.goOffline pc false) _).mono

/-- When the training starts. -/
theorem trainingTime (s : State) (pc : Fin 128) (temp : Int) :
    (if s.trainDrift pc temp then s else s.advanceTo (s.trainDue pc)).now = (if s.trainDrift pc temp then s.now
      else max s.now (s.lastTrained pc + s.fld .hbmTrainCtrl 0 0 15 0 * 1000000000)) ∧
    OnlyIn [.time] s (if s.trainDrift pc temp then s else s.advanceTo (s.trainDue pc)) := by
  split
  · exact ⟨rfl, .refl _ s⟩
  · refine ⟨(now_advanceTo _ _).trans ?_, onlyIn_advanceTo _ _⟩
    rw [State.trainDue, Nat.mul_assoc, show 1000 * msNs = 1000000000 from rfl]

theorem exec_memberReturn {pc : Fin 128} {s : State} (offline : (s.group (pc.val % 16)).offline = some (pc.val / 16))
    (tries : (s.group (pc.val % 16)).tries < 2) : exec (.memberReturn pc true) s = .next (s.memberBack (pcGroup pc)) := by
  have offline' : (s.group (pcGroup pc)).offline = some (pcMember pc) := offline
  have tries' : ¬ 2 ≤ (s.group (pcGroup pc)).tries := Nat.not_le.mpr tries
  change execMemberReturn pc true s = _
  simp only [execMemberReturn, offline', tries', ne_eq, not_true_eq_false, if_false, if_true, ite_self, done]

/-- What repairs and evacuations of a group end with. -/
def retirementNoted (s : State) (g : Nat) : State :=
  match s.groupRunning g with
  | some n => s.noteRetired n 0xFFFF
  | none => s

theorem onlyIn_retirementNoted (s : State) (g : Nat) : OnlyIn faultParts s (retirementNoted s g) := by
  simp only [retirementNoted]
  split
  · exact onlyIn_noteRetired _ _ _
  · exact .refl _ s

/-- The retirement that runs in a group's pool has ended. -/
def poolRetired (s : State) (g : Nat) : State :=
  match s.groupRunning g with
  | some n => s.endRetirement n
  | none => s

theorem onlyIn_poolRetired (s : State) (g : Nat) : OnlyIn [.flt] s (poolRetired s g) := by
  simp only [poolRetired]
  split
  · exact onlyIn_endRetirement _ _
  · exact .refl _ s

theorem groupState_keeps (s : State) (g : Nat) (x : GroupState) (member : Nat) : (s.groupState g x member).group g = x ∧
    (∀ j, j ≠ g → (s.groupState g x member).group j = s.group j) ∧ OnlyIn [.kiln, .units] s (s.groupState g x member) := by
  have set := onlyIn_setGroup s g x
  have entry : OnlyIn [.kiln] (s.setGroup g x) (s.groupState g x member) := by
    simp only [State.groupState]
    split
    · exact .refl _ _
    · exact onlyIn_kilnPerm _ _ _ _
  refine ⟨?_, fun j other => ?_, set.mono.trans entry.mono⟩
  · rw [State.group, entry.units_eq]
    exact State.group_setGroup s g x
  · rw [State.group, entry.units_eq]
    exact State.group_setGroup_other s x other

theorem exec_groupRebuildDone {g : Slice} {switched : Nat} {s : State} (repairs : (s.group g).state = 1) :
    exec (.groupRebuildDone g switched) s =
      .next (if max (s.group g).progress (min switched 114688) < 114688
        then s.setGroup g { s.group g with progress := max (s.group g).progress (min switched 114688) }
        else retirementNoted (s.groupState g
          { s.group g with state := 2, progress := max (s.group g).progress (min switched 114688) }
          ((s.group g).failed1.getD 0)) g) := by
  change execGroupRebuildDone g switched s = _
  simp only [execGroupRebuildDone, repairs, ne_eq, not_true_eq_false, if_false, segmentCount]
  rfl

/-- The structured data of a group has moved. -/
def structuresMoved (s : State) : State := { s with hbm := { s.hbm with moves := s.hbm.moves + 1 } }

theorem onlyIn_structuresMoved (s : State) : OnlyIn [.hbm] s (structuresMoved s) := onlyIn_hbm s _

theorem exec_groupEvacuationDone {g : Slice} {left : Nat} {s : State} (evacuates : (s.group g).state = 3) :
    exec (.groupEvacuationDone g left) s =
      .next (if min (s.group g).progress left ≠ 0 || !(s.groupPages g).isEmpty
        then (structuresMoved s).setGroup g { s.group g with progress := min (s.group g).progress left }
        else poolRetired ((structuresMoved s).groupState g { s.group g with state := 4, progress := 0 }
          ((s.group g).failed2.getD 0)) g) := by
  change execGroupEvacuationDone g left s = _
  simp only [execGroupEvacuationDone, evacuates, ne_eq, not_true_eq_false, if_false]
  rfl

/-- Settles O46. -/
theorem stackErrorsAndMembersAreHandled : Obligations.StackErrorsAndMembersAreHandled := by
  refine ⟨fun pc reread recon addr target s unused => exec_hbmReadError_unused unused reread recon target,
    fun pc recon addr m j target s unit valid sound => ⟨exec_hbmReadError_reread unit valid sound recon target, fun alone => ?_⟩,
    fun pc addr m j u s unit valid => ?_, fun pc addr m j b s unit valid => ?_, fun b s => ⟨_, rfl, rfl, onlyIn_glz s _⟩,
    fun pc bank due s => ⟨fun pulled calm => ?_, fun panic => ?_, refreshForced_keeps pc bank due s⟩,
    fun pc temp s may awake => ?_, fun pc s offline tries => ?_, fun g switched s repairs => ?_, fun g left s evacuates => ?_⟩
  · obtain ⟨flag, count, bad, only⟩ := unitServed_keeps s pc (pcGroup pc) m j
    exact ⟨_, exec_hbmReadError_served unit valid sound alone target, flag, count, bad, only.mono⟩
  · obtain ⟨lost, lies, only⟩ := unitLost_keeps s pc m j
    have response := onlyIn_answered_pairs (unitLost s pc m j) u (pcGroup pc) m j
    refine ⟨_, exec_hbmReadError_lost unit valid (.counterUnit u), ?_, fun k => ?_, only.mono.trans response.mono⟩
    · rw [response.hbm_eq]
      exact lost
    · rw [answered_pairs, lies, only.pmc_eq]
  · obtain ⟨lost, lies, only⟩ := unitLost_keeps s pc m j
    obtain ⟨index, response⟩ := answered_index (unitLost s pc m j) b (pcGroup pc) m j
    refine ⟨_, exec_hbmReadError_lost unit valid (.receiveIndex b true), ?_, fun c => ?_, only.mono.trans response.mono⟩
    · rw [response.hbm_eq]
      exact lost
    · rw [index, lies, only.glz_eq]
  · obtain ⟨now, others, only⟩ := refreshed_keeps s pc bank due
      (if pulled then decide (dueNow s pc bank due ≤ 0 ∧ s.bpm.panic.isEmpty ∧ -dueNow s pc bank due < Config.jesd238PullInLimit)
        else decide (1 ≤ dueNow s pc bank due ∧ dueNow s pc bank due < s.maxPostpone))
    refine ⟨_, exec_hbmRefresh pc bank pulled due s, now.trans ?_, others, only⟩
    cases pulled with
    | false =>
      simp only [Bool.false_eq_true, if_false, dueNow]
      exact if_congr decide_eq_true_iff rfl rfl
    | true =>
      have none : s.bpm.panic = [] := calm.resolve_right (by decide)
      simp only [if_true, decide_eq_true_eq, none, List.isEmpty_nil, true_and, dueNow]
  · have run := exec_hbmRefresh pc bank true due s
    have some : s.bpm.panic.isEmpty = false := by simpa using panic
    obtain ⟨now, -, only⟩ := refreshed_keeps s pc bank due false
    simp only [some, Bool.false_eq_true, false_and, and_false, decide_false, if_true] at run
    exact ⟨_, run, now, only⟩
  · obtain ⟨time, late⟩ := trainingTime s pc temp
    have run := exec_hbmRetrainStart may awake (temp := temp)
    generalize (if s.trainDrift pc temp then s else s.advanceTo (s.trainDue pc)) = u at run time late
    have group (g : Nat) : u.group g = s.group g := by rw [State.group, late.units_eq, State.group]
    refine ⟨_, run, (State.group_setGroup u (pcGroup pc) _).trans ?_, fun g other => ?_, time, Tab.get_set_same _ _ _ _,
      Tab.get_set_same _ _ _ _, late.mono.trans (onlyIn_trainingBegun u pc temp).mono⟩
    · rw [group]
      rfl
    · exact (State.group_setGroup_other u _ other).trans (group g)
  · exact ⟨_, exec_memberReturn offline tries, State.group_setGroup s (pcGroup pc) _,
      fun g other => State.group_setGroup_other s _ other, onlyIn_setGroup s _ _⟩
  · have run := exec_groupRebuildDone repairs (switched := switched)
    refine ⟨fun short => ?_, fun whole => ?_⟩
    · rw [if_pos short] at run
      exact ⟨_, run, State.group_setGroup s g _, fun j other => State.group_setGroup_other s _ other, onlyIn_setGroup s _ _⟩
    · rw [if_neg (Nat.not_lt.mpr whole)] at run
      obtain ⟨group, others, set⟩ := groupState_keeps s g
        { s.group g with state := 2, progress := max (s.group g).progress (min switched 114688) } ((s.group g).failed1.getD 0)
      generalize s.groupState g _ _ = u at run group others set
      have noted := onlyIn_retirementNoted u g
      have same (j : Nat) : (retirementNoted u g).group j = u.group j := by rw [State.group, noted.units_eq, State.group]
      exact ⟨_, run, (same g).trans group, fun j other => (same j).trans (others j other), set.mono.trans noted.mono⟩
  · have run := exec_groupEvacuationDone evacuates (left := left)
    have moved := onlyIn_structuresMoved s
    refine ⟨fun more => ?_, fun none free => ?_⟩
    · have more' : (decide (min (s.group g).progress left ≠ 0) || !(s.groupPages g).isEmpty) = true := by
        simpa using more
      rw [if_pos more'] at run
      exact ⟨_, run, State.group_setGroup (structuresMoved s) g _,
        fun j other => State.group_setGroup_other (structuresMoved s) _ other, moved.mono.trans (onlyIn_setGroup _ _ _).mono⟩
    · have last : ¬ (decide (min (s.group g).progress left ≠ 0) || !(s.groupPages g).isEmpty) = true := by
        simp [none, free]
      rw [if_neg last] at run
      obtain ⟨group, others, set⟩ := groupState_keeps (structuresMoved s) g { s.group g with state := 4, progress := 0 }
        ((s.group g).failed2.getD 0)
      generalize (structuresMoved s).groupState g _ _ = u at run group others set
      have retired := onlyIn_poolRetired u g
      have same (j : Nat) : (poolRetired u g).group j = u.group j := by rw [State.group, retired.units_eq, State.group]
      exact ⟨_, run, (same g).trans group, fun j other => (same j).trans (others j other),
        (moved.mono.trans set.mono).trans retired.mono⟩

end Sys2Proof.Claims

/-! SUPPORT, and O45: correction logs, write-backs, scrub steps, and what becomes of hard locations (R404, R408, R411 to
R413). -/

namespace Sys2Proof.Claims

open Sys2Proof.Machine

set_option Elab.async false

/-! Correction logs (R408) -/

theorem ceLog_of {s t : State} (logs : t.hbm.logs = s.hbm.logs) (inst : Nat) : t.ceLog inst = s.ceLog inst := by
  rw [State.ceLog, logs, State.ceLog]

theorem onlyIn_meetCorrupt (s : State) (inst : Nat) : OnlyIn [.flt] s (s.meetCorrupt inst) := by
  unfold State.meetCorrupt
  split
  · exact onlyIn_takeCorrupt _ _
  · exact .refl _ s

/-- The counters of a correction: of its memory, its class and its stack. -/
def correctionCounts (s : State) (inst : Nat) : State :=
  if memClass inst = 0 then ((s.bump (cntMixCe inst)).countCe inst).bump (cntHbm (pcStack (memIndex inst)) 0)
  else (s.bump (cntMixCe inst)).countCe inst

theorem onlyIn_correctionCounts (s : State) (inst : Nat) : OnlyIn [.cnts, .kiln] s (correctionCounts s inst) := by
  have noted : OnlyIn [.kiln] (s.bump (cntMixCe inst)) ((s.bump (cntMixCe inst)).countCe inst) := onlyIn_kiln _ _ rfl
  have counts : OnlyIn [.cnts, .kiln] s ((s.bump (cntMixCe inst)).countCe inst) := (onlyIn_bump s _).mono.trans noted.mono
  unfold correctionCounts
  split
  · exact counts.trans (onlyIn_bump _ _).mono
  · exact counts

/-- A correction has been seen and counted. -/
def correctionSeen (s : State) (inst : Nat) : State :=
  { correctionCounts s inst with hbm := { (correctionCounts s inst).hbm with seen := (correctionCounts s inst).hbm.seen + 1 } }

theorem correctionSeen_keeps (s : State) (inst : Nat) : (correctionSeen s inst).hbm.logs = s.hbm.logs ∧
    OnlyIn [.cnts, .kiln, .hbm] s (correctionSeen s inst) := by
  have counts := onlyIn_correctionCounts s inst
  exact ⟨(congrArg Hbm.logs counts.hbm_eq :), counts.mono.trans (onlyIn_hbm (correctionCounts s inst) _).mono⟩

/-- The first entry of a location. -/
def newEntry (s : State) (inst addr syn : Nat) : CeEntry :=
  { addr := addr, syndrome := syn, born := (correctionCounts s inst).hbm.seen }

theorem logCorrection_new {s : State} {inst addr : Nat} (absent : ∀ e ∈ s.ceLog inst, e.addr ≠ addr)
    (room : (s.ceLog inst).length < 16) (syn : Nat) : s.logCorrection inst addr syn =
      (correctionSeen s inst).setCeLog inst (s.ceLog inst ++ [newEntry s inst addr syn]) := by
  have none : (s.ceLog inst).find? (fun e => decide (e.addr = addr)) = none :=
    List.find?_eq_none.mpr fun e mem => by simpa using absent e mem
  unfold State.logCorrection
  simp only [none, room, if_true]
  rfl

/-- The entry of a location after one more correction. -/
def entryAgain (s : State) (inst addr syn : Nat) (e : CeEntry) : State :=
  (correctionSeen s inst).setCeLog inst ((s.ceLog inst).map fun x => if x.addr = addr then e.again syn else x)

/-- A location turns HARD. -/
def hardNoted (s : State) (inst addr : Nat) : State :=
  { s with hbm := { s.hbm with hard := s.hbm.hard.filter (· ≠ (inst, addr)) ++ [(inst, addr)] } }

/-- A location of a stack that turns HARD is an event of its pseudo-channel. -/
def hardEvent (s : State) (inst : Nat) : State :=
  if memClass inst = 0 then s.fault (pcSource (memIndex inst)) 0 0 else s

theorem onlyIn_hardEvent (s : State) (inst : Nat) : OnlyIn faultParts s (hardEvent s inst) := by
  unfold hardEvent
  split
  · exact onlyIn_fault _ _ _ _
  · exact .refl _ s

theorem logCorrection_again {s : State} {inst addr : Nat} {e : CeEntry}
    (held : (s.ceLog inst).find? (fun e => decide (e.addr = addr)) = some e) (syn : Nat) : s.logCorrection inst addr syn =
      if e.state ≠ 2 then entryAgain s inst addr syn e
      else hardEvent (hardNoted (entryAgain s inst addr syn e) inst addr) inst := by
  unfold State.logCorrection
  simp only [held]
  rfl

theorem entryAgain_keeps (s : State) (inst addr syn : Nat) (e : CeEntry) :
    (entryAgain s inst addr syn e).ceLog inst = (s.ceLog inst).map (fun x => if x.addr = addr then e.again syn else x) ∧
      (∀ j, j ≠ inst → (entryAgain s inst addr syn e).ceLog j = s.ceLog j) ∧
      OnlyIn [.cnts, .kiln, .hbm] s (entryAgain s inst addr syn e) := by
  obtain ⟨logs, seen⟩ := correctionSeen_keeps s inst
  exact ⟨State.ceLog_setCeLog _ _ _, fun j other => (State.ceLog_setCeLog_other _ _ other).trans (ceLog_of logs j),
    seen.trans (onlyIn_setCeLog _ _ _).mono⟩

/-- A further correction changes its own location's entry, and after the write-back the location is HARD. -/
theorem logCorrection_again_keeps {s : State} {inst addr : Nat} {e : CeEntry}
    (held : (s.ceLog inst).find? (fun e => decide (e.addr = addr)) = some e) (syn : Nat) :
    (s.logCorrection inst addr syn).ceLog inst = (s.ceLog inst).map (fun x => if x.addr = addr then e.again syn else x) ∧
      (∀ j, j ≠ inst → (s.logCorrection inst addr syn).ceLog j = s.ceLog j) ∧
      (e.state = 2 → (inst, addr) ∈ (s.logCorrection inst addr syn).hbm.hard) ∧
      OnlyIn (.hbm :: faultParts) s (s.logCorrection inst addr syn) := by
  obtain ⟨log, others, again⟩ := entryAgain_keeps s inst addr syn e
  rw [logCorrection_again held]
  by_cases back : e.state = 2
  · rw [if_neg (not_not.mpr back)]
    have event := onlyIn_hardEvent (hardNoted (entryAgain s inst addr syn e) inst addr) inst
    have logs := congrArg Hbm.logs event.hbm_eq
    refine ⟨(ceLog_of logs inst).trans log, fun j other => (ceLog_of logs j).trans (others j other), fun _ => ?_,
      (again.mono.trans (onlyIn_hbm (entryAgain s inst addr syn e) _).mono).trans event.mono⟩
    rw [event.hbm_eq]
    exact List.mem_append_right _ (List.mem_singleton_self _)
  · rw [if_pos back]
    exact ⟨log, others, fun h => absurd h back, again.mono⟩

theorem exec_memCorrection {inst : BitVec 12} {addr : BitVec 40} {s : State} (logged : hasLog inst.toNat = true)
    (valid : s.validAt inst.toNat addr.toNat = true) (syn : BitVec 8) : exec (.memCorrection inst addr syn) s =
      .next ((s.meetCorrupt inst.toNat).logCorrection inst.toNat addr.toNat syn.toNat) :=
  congrArg Host.Outcome.next (if_pos (by rw [logged, valid]; rfl))

theorem exec_memCorrection_invalid {inst : BitVec 12} {addr : BitVec 40} {s : State}
    (invalid : s.validAt inst.toNat addr.toNat = false) (syn : BitVec 8) : exec (.memCorrection inst addr syn) s = .next s :=
  congrArg Host.Outcome.next (if_neg (by rw [invalid, Bool.and_false]; exact Bool.false_ne_true))

theorem ceLog_freshen (s : State) (pc j : Nat) : (s.freshen pc j).ceLog pc =
    (s.ceLog pc).map (fun e => if e.addr = j then { e with state := 0, rep := 0 } else e) := by
  unfold State.freshen
  split
  · next empty =>
    have none : s.ceLog pc = [] := List.isEmpty_iff.mp empty
    rw [none, List.map_nil]
  · exact Tab.get_modify_same _ _ _ _

/-! Scrub steps of the stacks (R412) -/

theorem memberPc_lt (g : Slice) {m : Nat} (member : m < 8) : memberPc g m < 128 := by
  have := g.isLt
  unfold memberPc
  omega

/-- A lap's minutes are written. -/
def lapWritten (s : State) (minutes : Nat) : State :=
  s.setReg .hbmScrubStatus 0 0 (withBits 31 31 (withBits 15 0 (s.reg .hbmScrubStatus 0 0) (min 65535 minutes))
    (boolBit (s.fld .hbmScrubCtrl 0 0 15 8 * 60 < minutes)))

theorem hbmLap_eq (s : State) (minutes : Nat) : s.hbmLap minutes =
    if s.fld .hbmScrubCtrl 0 0 15 8 * 60 < minutes then (lapWritten s minutes).lateLap else lapWritten s minutes := by
  rw [State.hbmLap]
  rfl

theorem lateLap_keeps (s : State) : EventsOf 0x4F8 s s.lateLap ∧ BlockCountsStand s s.lateLap ∧ OnlyIn faultParts s s.lateLap := by
  refine ⟨eventsOf_faultEventAt _ _ _ _ _ _, ?_, onlyIn_lateLap s⟩
  by_cases retired : (s.fsrc 0x4F8).retired = true
  · rw [State.lateLap, faultEventAt_retired retired]
    exact .refl s
  · have event : s.lateLap = (s.setFsrc 0x4F8 { s.fsrc 0x4F8 with flag := true }).countedEvents 0x4F8 s.now 0 0 .late 1 := by
      rw [State.lateLap, State.faultEventAt, if_neg retired]
      rfl
    rw [event]
    exact (onlyIn_setFsrc s 0x4F8 _).blockCounts.trans (countsOn_countedEvents _ _ _ _ _ _ _).counts

/-- What the end of a lap may change. -/
abbrev lapParts : List Part := .regs :: faultParts

theorem hbmLap_keeps (s : State) (minutes : Nat) :
    bitsOf 15 0 ((s.hbmLap minutes).reg .hbmScrubStatus 0 0) = min 65535 minutes ∧
      (∀ n, n ≠ 0x4F8 → (s.hbmLap minutes).fsrc n = s.fsrc n) ∧ BlockCountsStand s (s.hbmLap minutes) ∧
      OnlyIn lapParts s (s.hbmLap minutes) := by
  have set : OnlyIn [.regs, .cntCfg] s (lapWritten s minutes) := onlyIn_setReg _ _ _ _ _
  have shown : bitsOf 15 0 ((lapWritten s minutes).reg .hbmScrubStatus 0 0) = min 65535 minutes := by
    rw [lapWritten, State.reg_setReg, bitsOf_withBits_apart _ _ (by decide), bitsOf_withBits_same]
    exact Nat.mod_eq_of_lt (Nat.lt_of_le_of_lt (Nat.min_le_left _ _) (by decide))
  rw [hbmLap_eq]
  split
  · obtain ⟨events, counts, only⟩ := lateLap_keeps (lapWritten s minutes)
    refine ⟨?_, fun n other => (events.other n other).trans (set.fsrc_same n), set.blockCounts.trans counts, set.mono.trans only.mono⟩
    rw [only.reg_same (by decide) (by simp only [inCntCfg]; decide)]
    exact shown
  · exact ⟨shown, fun n _ => set.fsrc_same n, set.blockCounts, set.mono⟩

/-- A lap ends, when the step is its last. -/
def lapEnded (s : State) (lap : Option Nat) : State :=
  match lap with
  | some n => s.hbmLap n
  | none => s

theorem lapEnded_keeps (s : State) (lap : Option Nat) :
    (∀ n, lap = some n → bitsOf 15 0 ((lapEnded s lap).reg .hbmScrubStatus 0 0) = min 65535 n) ∧
      (∀ n, n ≠ 0x4F8 → (lapEnded s lap).fsrc n = s.fsrc n) ∧ BlockCountsStand s (lapEnded s lap) ∧
      OnlyIn lapParts s (lapEnded s lap) := by
  cases lap with
  | none => exact ⟨fun _ h => (nomatch h), fun _ _ => rfl, .refl s, .refl _ s⟩
  | some minutes =>
    obtain ⟨shown, sources, counts, only⟩ := hbmLap_keeps s minutes
    exact ⟨fun n h => Option.some.inj h ▸ shown, sources, counts, only⟩

theorem exec_hbmScrubStep_paused {s : State} (paused : s.bit .hbmScrubCtrl 0 0 0 = false ∨ s.bpm.panic ≠ [] ∨ s.mode = .standby)
    (g : Slice) (stripe : Nat) (c b : List Nat) (d : Bool) (targets : List HbmTarget) (lap : Option Nat) :
    exec (.hbmScrubStep g stripe c b d targets lap) s = .next s := by
  refine congrArg Host.Outcome.next (if_pos ?_)
  rcases paused with off | panic | standby
  · simp [off]
  · simp [panic]
  · simp [standby]

/-- The one bad member of a stripe is rebuilt and rewritten. -/
def memberRepaired (s : State) (pc j : Nat) : State :=
  (((s.bump (cntHbm (pcStack pc) 4)).countRecon (pcStack pc)).freshen pc j).fault (pcSource pc) 0 0

theorem memberRepaired_keeps (s : State) {pc : Nat} (channel : pc < 128) (j : Nat) :
    ((s.fsrc (pcSource pc)).retired = false → Flagged (pcSource pc) (memberRepaired s pc j)) ∧
      (memberRepaired s pc j).hbm.bad = s.hbm.bad ∧
      (memberRepaired s pc j).cnt (cntHbm (pcStack pc) 4) = (s.cnt (cntHbm (pcStack pc) 4) + 1) % 2 ^ 48 ∧
      OnlyIn (.hbm :: faultParts) s (memberRepaired s pc j) := by
  have found := onlyIn_bump s (cntHbm (pcStack pc) 4)
  have recon := onlyIn_countRecon (s.bump (cntHbm (pcStack pc) 4)) (pcStack pc)
  have fresh := onlyIn_freshen ((s.bump (cntHbm (pcStack pc) 4)).countRecon (pcStack pc)) pc j
  have event := onlyIn_fault (((s.bump (cntHbm (pcStack pc) 4)).countRecon (pcStack pc)).freshen pc j) (pcSource pc) 0 0
  obtain ⟨low, high⟩ := cntHbm_block (pcStack_lt channel) (k := 4) (by decide)
  refine ⟨fun active => flagged_fault (pcSource_retirable channel) ?_ 0 0, ?_, ?_,
    ((found.mono.trans recon.mono).trans fresh.mono).trans event.mono⟩
  · rw [fresh.fsrc_same, recon.fsrc_same, found.fsrc_same]
    exact active
  · rw [memberRepaired, event.hbm_eq, (bad_freshen _ _ _).1, recon.hbm_eq, found.hbm_eq]
  · rw [memberRepaired, blockCounts_fault (pcSource_retirable channel) 0 0 _ low high, State.cnt, fresh.cnts_eq]
    refine (cnt_countRecon _ (pcStack_lt channel) (k := 4) (by decide)).trans ?_
    rw [if_neg (by decide), State.bump, State.cnt_bumpBy]

/-- Members of a stripe are poisoned. -/
def membersPoisoned (s : State) (g j : Nat) (lost : List Nat) : State := runOver lost (fun m s => s.poisonUnit g m j) s

theorem membersPoisoned_keeps (s : State) (g j : Nat) (lost : List Nat) :
    (∀ x ∈ s.hbm.bad, x ∈ (membersPoisoned s g j lost).hbm.bad) ∧
      (∀ m ∈ lost, (memberPc g m, j) ∈ (membersPoisoned s g j lost).hbm.bad) ∧
      OnlyIn (.hbm :: recordParts) s (membersPoisoned s g j lost) := by
  induction lost generalizing s with
  | nil => exact ⟨fun _ => id, fun _ mem => (nomatch mem), .refl _ s⟩
  | cons k lost ih =>
    obtain ⟨poisoned, kept, -, unit⟩ := poisonUnit_keeps s g k j
    obtain ⟨stay, rest, only⟩ := ih (s.poisonUnit g k j)
    refine ⟨fun x mem => stay x (kept x mem), fun m mem => ?_, unit.trans only⟩
    rcases List.mem_cons.mp mem with rfl | later
    · exact stay _ poisoned
    · exact rest m later

/-- The members of a stripe whose units are lost once member `m` is. -/
def lostWith (s : State) (g j m : Nat) : List Nat :=
  (List.range 8).filter fun k => [m].contains k || (s.stripeLost g j).contains k

theorem mem_lostWith {s : State} {g j m k : Nat} : k ∈ lostWith s g j m ↔ k < 8 ∧ (k = m ∨ k ∈ s.stripeLost g j) := by
  simp only [lostWith, List.mem_filter, List.mem_range, Bool.or_eq_true, List.contains_iff_mem, List.mem_singleton]

theorem lostWith_alone {s : State} {g j m : Nat} (member : m < 8) (alone : (s.stripeLost g j).all (· = m) = true) :
    lostWith s g j m = [m] := by
  have single : ∀ m < 8, (List.range 8).filter (fun k => decide (k = m)) = [m] := by decide
  rw [← single m member]
  refine List.filter_congr fun k _ => ?_
  rw [Bool.eq_iff_iff, Bool.or_eq_true, List.contains_iff_mem, List.contains_iff_mem, List.mem_singleton, decide_eq_true_eq]
  exact ⟨fun h => h.elim id fun lost => of_decide_eq_true (List.all_eq_true.mp alone k lost), .inl⟩

/-- With another member lost, two or more are. -/
theorem lostWith_another {s : State} {g j m : Nat} (member : m < 8) (another : (s.stripeLost g j).all (· = m) = false) :
    ∃ a b l, lostWith s g j m = a :: b :: l := by
  obtain ⟨k, lost, other⟩ := List.all_eq_false.mp another
  have here : m ∈ lostWith s g j m := mem_lostWith.mpr ⟨member, .inl rfl⟩
  have there : k ∈ lostWith s g j m := mem_lostWith.mpr ⟨List.mem_range.mp (List.mem_filter.mp lost).1, .inr lost⟩
  match lostWith s g j m, here, there with
  | [a], here, there =>
    exact absurd ((List.mem_singleton.mp there).trans (List.mem_singleton.mp here).symm) (by simpa using other)
  | a :: b :: l, _, _ => exact ⟨a, b, l, rfl⟩

theorem newlyBad {s : State} {g j m : Nat} (sound : s.hbm.bad.contains (memberPc g m, j) = false) :
    ([m].filter fun k => !s.hbm.bad.contains (memberPc g k, j)) = [m] := by
  simp only [List.filter_cons, sound, Bool.not_false, if_true, List.filter_nil]

section ScrubStep

variable {g : Slice} {stripe m : Nat} {s : State} (sound : s.hbm.bad.contains (memberPc g m, stripe) = false) (member : m < 8)
include sound member

theorem scrubBad_alone (alone : (s.stripeLost g stripe).all (· = m) = true) (targets : List HbmTarget) :
    s.scrubBad g stripe [m] targets = memberRepaired s (memberPc g m) stripe := by
  have lost := lostWith_alone member alone
  rw [lostWith] at lost
  simp only [State.scrubBad, newlyBad sound, lost]
  rfl

theorem scrubBad_another (another : (s.stripeLost g stripe).all (· = m) = false) :
    s.scrubBad g stripe [m] [] = membersPoisoned s g stripe (lostWith s g stripe m) := by
  obtain ⟨a, b, l, lost⟩ := lostWith_another member another
  rw [membersPoisoned, lost]
  rw [lostWith] at lost
  simp only [State.scrubBad, newlyBad sound, lost]
  rfl

end ScrubStep

/-- With no corruption waiting, a step that finds one bad member deals with that member alone. -/
theorem scrubStripe_bad {g : Slice} {stripe m : Nat} {s : State} (calm : ∀ k, k < 8 → s.flt.corrupt.get 0 (pcSource (memberPc g k)) = 0)
    (member : m < 8) (d : Bool) (targets : List HbmTarget) :
    s.scrubStripe g stripe [] [m] d targets = s.scrubBad g stripe [m] targets := by
  have hurt : ((List.range 8).filter fun k => decide (s.flt.corrupt.get 0 (pcSource (memberPc g k)) ≠ 0)) = [] :=
    List.filter_eq_nil_iff.mpr fun k mem => by simp [calm k (List.mem_range.mp mem)]
  have single : ∀ m < 8, (List.range 8).filter [m].contains = [m] := by decide
  have empty : (List.range 8).filter ([] : List Nat).contains = [] := by decide
  simp only [State.scrubStripe, hurt, single m member, List.append_nil, empty, List.filter_nil, List.isEmpty_nil, List.isEmpty_cons,
    Bool.and_false, Bool.false_and, Bool.false_eq_true, if_false]
  rfl

theorem exec_hbmScrubStep {s : State} (enabled : s.bit .hbmScrubCtrl 0 0 0 = true) (calm : s.bpm.panic = [])
    (awake : s.mode ≠ .standby) (g : Slice) (stripe : Nat) (c b : List Nat) (d : Bool) (targets : List HbmTarget) (lap : Option Nat) :
    exec (.hbmScrubStep g stripe c b d targets lap) s =
      .next (lapEnded (if s.hbm.segs.contains (g.val, segmentOf stripe) then s.scrubStripe g stripe c b d targets else s) lap) := by
  refine congrArg Host.Outcome.next ((if_neg ?_).trans ?_)
  · simp [enabled, calm, awake]
  · cases lap <;> rfl

/-! On-die words and hard locations (R411, R413) -/

theorem exec_ondieScrubStep_lost {inst : BitVec 12} {addr : BitVec 40} {s : State} (logged : hasLog inst.toNat = true)
    (scrubbed : scrubbedOnDie (memClass inst.toNat) = true) (awake : s.mode ≠ .standby)
    (valid : s.validAt inst.toNat addr.toNat = true) :
    exec (.ondieScrubStep inst addr .uncorrectable none) s = .next (s.scrubLost inst.toNat addr.toNat) := by
  refine congrArg Host.Outcome.next ((if_neg ?_).trans ?_)
  · simp [logged, scrubbed, awake]
  · simp only [valid, Bool.not_true, Bool.false_eq_true, if_false]

/-- An on-die word is poisoned. -/
def wordPoisoned (s : State) (n addr : Nat) : State := { s with hbm := { s.hbm with poison := s.hbm.poison ++ [(n, addr)] } }

theorem scrubLost_keeps {s : State} {n addr : Nat} (plain : memClass n ≠ 3) (fresh : (n, addr) ∉ s.hbm.poison) :
    (s.scrubLost n addr).hbm = { s.hbm with poison := s.hbm.poison ++ [(n, addr)] } ∧
      OnlyIn (.draws :: .hbm :: recordParts) s (s.scrubLost n addr) := by
  have put : s.scrubLost n addr = (wordPoisoned (s.draw 16).2 n addr).poisonRecord (s.draw 16).1.toNat n addr := by
    have absent : ¬ s.hbm.poison.contains (n, addr) = true := mt List.contains_iff_mem.mp fresh
    rw [State.scrubLost, if_neg plain, if_neg absent]
    rfl
  have drawn := onlyIn_draw s 16
  have mark : OnlyIn [.hbm] (s.draw 16).2 (wordPoisoned (s.draw 16).2 n addr) := onlyIn_hbm _ _
  have record := onlyIn_poisonRecord (wordPoisoned (s.draw 16).2 n addr) (s.draw 16).1.toNat n addr
  rw [put]
  exact ⟨record.hbm_eq, (drawn.mono.trans mark.mono).trans record.mono⟩

/-- A hard location is dealt with. -/
def hardDealt (s : State) (n a : Nat) : State := { s with hbm := { s.hbm with hard := s.hbm.hard.filter (· ≠ (n, a)) } }

theorem onlyIn_hardDealt (s : State) (n a : Nat) : OnlyIn [.hbm] s (hardDealt s n a) := onlyIn_hbm s _

theorem repaired_keeps {s : State} (room : s.kiln.perm.length < 16384) (inst addr how : Nat) :
    (∃ k, (s.repaired inst addr how).kiln.perm = s.kiln.perm ++ [k] ∧ k.type = 0x0013 ∧
        k.data = leBytes 2 inst ++ leBytes 5 addr ++ leBytes 1 how ++ zeros 2) ∧
      OnlyIn [.kiln] s (s.repaired inst addr how) := by
  have noted : (s.repaired inst addr how).kiln.perm = s.kiln.perm ++ [⟨0x0013, 3, false, s.lifeS, if s.ptp.isSet then s.ptpSec else 0,
      sliceOf (leBytes 2 inst ++ leBytes 5 addr ++ leBytes 1 how) 0 10⟩] := by
    rw [State.repaired, State.kilnPerm, if_pos room]
  refine ⟨⟨_, noted, rfl, ?_⟩, onlyIn_kilnPerm _ _ _ _⟩
  have length : (leBytes 2 inst ++ leBytes 5 addr ++ leBytes 1 how).length = 8 := by
    simp only [List.length_append, leBytes_length]
  simp only [sliceOf, List.drop_zero, List.take_of_length_le (show (leBytes 2 inst ++ leBytes 5 addr ++ leBytes 1 how).length ≤ 10 by
    rw [length]; decide), length]

/-- The segment of a unit leaves the deep area. -/
def segmentWithdrawn (s : State) (w : Nat × Nat) : State := { s with bpm := { s.bpm with withdrawn := s.bpm.withdrawn ++ [w] } }

/-- The units of the stripes below 4,793,490 lie in the deep area. -/
theorem deepUnit {j : Nat} (deep : j < 4793490) (m : Nat) :
    deepAddr (groupAddr j (if memberUnit j m = 7 then 6 else memberUnit j m) 0) = true := by
  have unit : memberUnit j m < 8 := Nat.mod_lt _ (by decide)
  refine decide_eq_true ?_
  unfold groupAddr
  split <;> omega

theorem withdrawUnit_deep {s : State} {pc addr m j : Nat} (unit : s.hbmUnit pc addr = some (m, j)) (deep : j < 4793490)
    (fresh : (pcGroup pc, segmentOf j) ∉ s.bpm.withdrawn) :
    s.withdrawUnit pc addr = segmentWithdrawn s (pcGroup pc, segmentOf j) := by
  have absent : ¬ s.bpm.withdrawn.contains (pcGroup pc, segmentOf j) = true := mt List.contains_iff_mem.mp fresh
  simp only [State.withdrawUnit, unit, deepUnit deep, if_true, if_neg absent]
  rfl

theorem onlyIn_reportLoss_stack (s : State) {inst : Nat} (stack : memClass inst = 0) (addr : Nat) :
    OnlyIn recordParts s (s.reportLoss inst addr) := by
  unfold State.reportLoss
  rw [if_pos stack]
  exact onlyIn_faultRecord _ _

section MemSpare

variable {inst : BitVec 12} {addr : BitVec 40} {s : State} (hard : (inst.toNat, addr.toNat) ∈ s.hbm.hard)
include hard

theorem exec_memSpare_spared (onDie : memClass inst.toNat ≠ 0) {how : SpareKind} (spare : how = .row ∨ how = .column) :
    exec (.memSpare inst addr how) s =
      .next ((hardDealt s inst.toNat addr.toNat).repaired inst.toNat addr.toNat (if how = .row then 0 else 1)) := by
  have held : s.hbm.hard.contains (inst.toNat, addr.toNat) = true := List.contains_iff_mem.mpr hard
  change execMemSpare inst addr how s = _
  rcases spare with rfl | rfl
  all_goals
    simp only [execMemSpare, held, onDie, Bool.not_true, Bool.false_eq_true, if_false, done]
    rfl

theorem exec_memSpare_ppr (stack : memClass inst.toNat = 0) (may : s.mayGoOffline (pcGroup (memIndex inst.toNat)) = true) :
    exec (.memSpare inst addr .ppr) s =
      .next (((hardDealt s inst.toNat addr.toNat).goOffline (memIndex inst.toNat) true).repaired inst.toNat addr.toNat 2) := by
  have held : s.hbm.hard.contains (inst.toNat, addr.toNat) = true := List.contains_iff_mem.mpr hard
  change execMemSpare inst addr .ppr s = _
  simp only [execMemSpare, held, stack, may, Bool.not_true, ne_eq, not_true_eq_false, decide_false, Bool.or_self, Bool.false_eq_true,
    if_false]
  rfl

theorem exec_memSpare_noneLeft (stack : memClass inst.toNat = 0) : exec (.memSpare inst addr .noneLeft) s =
    .next (((hardDealt s inst.toNat addr.toNat).withdrawUnit (memIndex inst.toNat) addr.toNat).reportLoss inst.toNat addr.toNat) := by
  have held : s.hbm.hard.contains (inst.toNat, addr.toNat) = true := List.contains_iff_mem.mpr hard
  change execMemSpare inst addr .noneLeft s = _
  simp only [execMemSpare, held, Bool.not_true, Bool.false_eq_true, if_false, State.withdraw, stack]
  rfl

end MemSpare

/-- Settles O45. -/
theorem correctionsAreLoggedAndScrubbed : Obligations.CorrectionsAreLoggedAndScrubbed := by
  refine ⟨fun inst addr syn s logged valid => ?_, fun inst addr syn s invalid => exec_memCorrection_invalid invalid syn,
    fun pc j s => ceLog_freshen s pc j, fun inst addr s => ?_, fun g stripe m d targets lap s enabled calm awake whole member => ?_,
    fun g stripe c b d targets lap s paused => exec_hbmScrubStep_paused paused g stripe c b d targets lap,
    fun inst addr s logged scrubbed plain awake valid fresh => ?_, fun inst addr s hard room => ?_⟩
  · have met := onlyIn_meetCorrupt s inst.toNat
    have run := exec_memCorrection logged valid syn
    have same (j : Nat) : (s.meetCorrupt inst.toNat).ceLog j = s.ceLog j := ceLog_of (congrArg Hbm.logs met.hbm_eq) j
    generalize s.meetCorrupt inst.toNat = u at met run same ⊢
    refine ⟨fun absent space => ?_, fun e held => ?_⟩
    · have new := logCorrection_new (s := u) (inst := inst.toNat) (addr := addr.toNat) (by rw [same]; exact absent)
        (by rw [same]; exact space) syn.toNat
      obtain ⟨logs, seen⟩ := correctionSeen_keeps u inst.toNat
      have put := onlyIn_setCeLog (correctionSeen u inst.toNat) inst.toNat (u.ceLog inst.toNat ++ [newEntry u inst.toNat addr.toNat syn.toNat])
      rw [new] at run
      refine ⟨_, newEntry u inst.toNat addr.toNat syn.toNat, run, ?_, rfl, rfl, rfl, rfl, fun j other => ?_, ?_,
        (met.mono.trans seen.mono).trans put.mono⟩
      · rw [State.ceLog_setCeLog, same]
      · exact (State.ceLog_setCeLog_other _ _ other).trans ((ceLog_of logs j).trans (same j))
      · rw [put.flt_eq, seen.flt_eq]
    · have held' : (u.ceLog inst.toNat).find? (fun e => decide (e.addr = addr.toNat)) = some e := by rw [same]; exact held
      obtain ⟨log, others, turned, only⟩ := logCorrection_again_keeps held' syn.toNat
      have here : e.addr = addr.toNat := by simpa using List.find?_some held
      refine ⟨_, e.again syn.toNat, run, ?_, here, rfl, rfl, rfl, turned, fun j other => (others j other).trans (same j),
        met.mono.trans only.mono⟩
      rw [log, same]
  · exact ⟨_, rfl, State.ceLog_setCeLog _ _ _, fun j other => State.ceLog_setCeLog_other _ _ other, onlyIn_setCeLog _ _ _⟩
  · have run := exec_hbmScrubStep enabled calm awake g stripe [] [m] d targets lap
    refine ⟨fun invalid none => ?_, fun valid sound alone => ?_, fun free valid sound another => ?_⟩
    · rw [run, none, invalid]
      rfl
    · rw [if_pos valid, scrubStripe_bad whole member, scrubBad_alone sound member alone] at run
      obtain ⟨flag, bad, count, only⟩ := memberRepaired_keeps s (memberPc_lt g member) stripe
      obtain ⟨low, high⟩ := cntHbm_block (pcStack_lt (memberPc_lt g member)) (k := 4) (by decide)
      generalize memberRepaired s (memberPc g m) stripe = u at run flag bad count only
      obtain ⟨shown, sources, counts, lapped⟩ := lapEnded_keeps u lap
      refine ⟨_, run, fun active => ?_, ?_, (counts _ low high).trans count, shown, only.mono.trans lapped.mono⟩
      · have channel := memberPc_lt g member
        rw [sources _ (by unfold pcSource; omega)]
        exact flag active
      · rw [lapped.hbm_eq, bad]
    · rw [if_pos valid, scrubStripe_bad whole member, free, scrubBad_another sound member another] at run
      obtain ⟨-, poisoned, only⟩ := membersPoisoned_keeps s g stripe (lostWith s g stripe m)
      have lost := poisoned m (mem_lostWith.mpr ⟨member, .inl rfl⟩)
      generalize membersPoisoned s g stripe (lostWith s g stripe m) = u at run lost only
      obtain ⟨-, -, -, lapped⟩ := lapEnded_keeps u lap
      refine ⟨_, free ▸ run, ?_, only.mono.trans lapped.mono⟩
      rw [lapped.hbm_eq]
      exact lost
  · obtain ⟨poisoned, only⟩ := scrubLost_keeps plain fresh
    exact ⟨_, exec_ondieScrubStep_lost logged scrubbed awake valid, poisoned, only.mono⟩
  · have dealt := onlyIn_hardDealt s inst.toNat addr.toNat
    refine ⟨fun how spare onDie => ?_, fun stack may => ?_, fun m j stack unit deep fresh => ?_⟩
    · obtain ⟨⟨k, perm, type, data⟩, only⟩ := repaired_keeps (s := hardDealt s inst.toNat addr.toNat) room inst.toNat addr.toNat
        (if how = .row then 0 else 1)
      exact ⟨_, k, exec_memSpare_spared hard onDie spare, only.hbm_eq, perm, type, data, dealt.mono.trans only.mono⟩
    · have offline := State.group_setGroup (hardDealt s inst.toNat addr.toNat) (pcGroup (memIndex inst.toNat))
        { (hardDealt s inst.toNat addr.toNat).group (pcGroup (memIndex inst.toNat)) with
          offline := some (pcMember (memIndex inst.toNat)), repair := true, tries := 0 }
      have set := onlyIn_setGroup (hardDealt s inst.toNat addr.toNat) (pcGroup (memIndex inst.toNat))
        { (hardDealt s inst.toNat addr.toNat).group (pcGroup (memIndex inst.toNat)) with
          offline := some (pcMember (memIndex inst.toNat)), repair := true, tries := 0 }
      have run := exec_memSpare_ppr hard stack may
      rw [State.goOffline] at run
      generalize (hardDealt s inst.toNat addr.toNat).setGroup _ _ = u at offline set run
      have only : OnlyIn [.kiln] u (u.repaired inst.toNat addr.toNat 2) := onlyIn_kilnPerm _ _ _ _
      have same : (u.repaired inst.toNat addr.toNat 2).group (pcGroup (memIndex inst.toNat)) = u.group (pcGroup (memIndex inst.toNat)) := by
        rw [State.group, only.units_eq, State.group]
      refine ⟨_, run, ?_, ?_, (dealt.mono.trans set.mono).trans only.mono⟩
      · rw [same, offline]
      · rw [same, offline]
    · have run := exec_memSpare_noneLeft hard stack
      have withdrawn := withdrawUnit_deep (s := hardDealt s inst.toNat addr.toNat) unit deep fresh
      rw [withdrawn] at run
      have mark : OnlyIn [.bpm] (hardDealt s inst.toNat addr.toNat) (segmentWithdrawn (hardDealt s inst.toNat addr.toNat)
        (pcGroup (memIndex inst.toNat), segmentOf j)) := onlyIn_bpm _ _
      have report := onlyIn_reportLoss_stack (segmentWithdrawn (hardDealt s inst.toNat addr.toNat)
        (pcGroup (memIndex inst.toNat), segmentOf j)) stack addr.toNat
      refine ⟨_, run, ?_, ?_, (dealt.mono.trans mark.mono).trans report.mono⟩
      · rw [report.bpm_eq]
        rfl
      · rw [report.hbm_eq]
        exact fun held => absurd rfl (of_decide_eq_true (List.mem_filter.mp held).2)

end Sys2Proof.Claims
